-- ==== Sys2Proof/Word.lean ====
section
/-! DEFINITION. Word.lean: the word types of the Aqlis Q64 model. Register fields, catchwords and frame
fields that the manual treats as bits are bit vectors; times, counts and indices are natural numbers. -/

namespace Sys2Proof

/-- One byte of a record, a memory or a frame. -/
abbrev Byte := BitVec 8
/-- A byte string. -/
abbrev Bytes := List Byte
/-- A 16-bit field. -/
abbrev Half := BitVec 16
/-- A 32-bit register or field. -/
abbrev Word := BitVec 32
/-- A 64-bit field: a catchword, a keep time, a sequence. -/
abbrev DWord := BitVec 64
/-- A SHA-256 digest, a token or a 32-byte key. -/
abbrev Digest := BitVec 256

end Sys2Proof
end

