-- ==== Sys2Proof/Machine/Types.lean ====
section
/-! DEFINITION. Machine/Types.lean: the operand types of the commands, shared with State. Each names the
table of the manual whose fields it holds. What the surroundings decide (a level, a measurement, whether
a transfer worked) is an operand. -/

namespace Sys2Proof

/-- The arrival of a command record (Table 04-5): the mailbox it arrives at, its source id and sequence (the
catchword, R11), FLAGS, AUTHREF, the reserved header bytes and the token trailer as received. `jok` says
whether the catch store takes the journal write of this record (R105). `sound` says that the frame's CRC-32C checks (M7, R87). The
opcode is the row's own, and LENGTH counts header, body and trailer (R90). -/
structure Hdr where
  mbx     : Fin 8
  src     : Half
  seq     : BitVec 48
  flags   : Half := 0
  authref : DWord := 0
  rsvd    : DWord := 0
  token   : Bytes := []
  jok     : Bool := true
  sound   : Bool := true
  deriving DecidableEq, Repr

/-- What a client offers and shows in a TLS handshake (Table 04-4): versions, cipher suites and groups by their code points
in RFC 8446, whether it resumes with a PSK or sends 0-RTT data, and the SHA-384 of the key of its ECDSA P-384 certificate,
where it shows one. -/
structure TlsHello where
  versions : List Half := [0x0304]
  suites   : List Half := [0x1302]
  groups   : List Half := [0x0018]
  psk      : Bool := false
  early    : Bool := false
  key      : Option (BitVec 384) := none
  deriving DecidableEq, Repr

/-- A Spine or pair-link frame header as received (Table 05-2). `lane` is the lane it arrived on:
0 east, 1 west, 2 pair lane 0, 3 pair lane 1. `sound` says that its CRC checks and its reserved bits
are 0 (R112). -/
structure FrameHdr where
  lane  : Fin 4
  last  : Bool := true
  src   : BitVec 8
  dst   : BitVec 8
  hops  : BitVec 8 := 0
  gen   : BitVec 8 := 0
  fseq  : Word
  sound : Bool := true
  deriving DecidableEq, Repr

/-- A scatter list entry (Table 03-6). -/
structure Scatter where
  addr : DWord
  len  : Word
  rsvd : Word := 0
  deriving DecidableEq, Repr

/-- The strap balls (Table 02-7). -/
structure Straps where
  masterSel : Bool := false
  pos       : BitVec 4 := 0
  bootSel   : BitVec 2 := 0
  deriving DecidableEq, Repr

/-- A FORM frame's census entry (R116). -/
structure FormEntry where
  serial        : DWord := 0
  pos           : BitVec 4 := 0
  brd           : Bool := false
  masterSel     : Bool := false
  lead          : Bool := false
  partner       : DWord := 0
  partnerMaster : Bool := false
  iflevel       : Half := 0x0104
  deriving DecidableEq, Repr

/-- A heartbeat payload (Table 05-6). `masterSel` is the sender's MASTER_SEL as learnt with it over the pair link (R116, log
24); the table gives it no place. -/
structure Heartbeat where
  serial   : DWord := 0
  hseq     : Word := 0
  echo     : Word := 0
  lead     : Bool := false
  state    : BitVec 8 := 1
  fault    : Bool := false
  attached : Bool := false
  synced   : Bool := false
  selfTest : Bool := false
  actEpoch : Word := 0
  cfgEpoch : Word := 0
  jseq     : DWord := 0
  ten      : Half := 0
  trips    : Half := 0
  masterSel : Bool := false
  deriving DecidableEq, Repr

/-- A TIME frame payload (R120). -/
structure TimePayload where
  rowTime   : DWord
  corr      : Word
  tick      : DWord
  epochTick : DWord
  gen       : Word
  serial    : DWord
  deriving DecidableEq, Repr

/-- A DEMAND frame payload (R161). -/
structure Demand where
  pos       : BitVec 4 := 0
  budget    : Nat := 0
  fixed     : Nat := 0
  committed : Nat := 0
  waiting   : Nat := 0
  share     : Nat := 0
  tick      : Word := 0
  deriving DecidableEq, Repr

/-- A power report (Table 14-2). `ok` says that its CRC checks. -/
structure PowerReport where
  ok    : Bool := true
  seq   : Half
  state : BitVec 8
  links : BitVec 8 := 0
  trayW : Nat
  accW  : List Half := []
  deriving DecidableEq, Repr

/-- What stands at a sigma-delta channel as a word is taken (Table 08-2), in pV: AINnP − AINnN, VREFP − VREFN, the internal
reference, VAVDD and VKEEP. `temp` is the die temperature in 1/32,768 °C. -/
structure SdInput where
  ain   : Int := 0
  ref   : Int := 1250000000000
  int   : Int := 1250000000000
  avdd  : Int := 3300000000000
  vkeep : Int := 3300000000000
  temp  : Int := 0
  deriving DecidableEq, Repr

/-- Something that a CAN channel saw, whose SOF edge lay `ago` ns back (R236). -/
structure Stamped (α : Type) where
  x   : α
  ago : Nat := 0
  deriving DecidableEq, Repr

/-- An edge of a pulse input (R191): its direction, and the shorter of the two phases beside it in FCLK periods. -/
structure Edge where
  falling : Bool := false
  phase   : Nat := 0
  deriving DecidableEq, Repr

/-- A pump, and its hall code or its quadrature count (R208). -/
structure PumpRotor where
  n     : Fin 4
  rotor : Nat := 0
  deriving DecidableEq, Repr

/-- The source address and the EtherType of a received 802.3 frame (R71). -/
structure EthHdr where
  src  : Nat := 0
  type : Half := 0x88B5
  deriving DecidableEq, Repr

/-- What firmware finds of the journal at its start (R102): the TENTATIVE entries that the attached partner holds, and the
entries whose CRC fails. -/
structure JournalRead where
  held : List Nat := []
  torn : List Nat := []
  deriving DecidableEq, Repr

/-- A STATUS frame of an actuator (Table 10-7). -/
structure ActStatus where
  highEpoch : Word := 0
  lastPseq  : Word := 0
  lastCw    : DWord := 0
  lastPoint : Word := 0
  kind      : BitVec 8 := 0
  state     : BitVec 8 := 0
  fault     : Half := 0
  meas      : Int := 0
  deriving DecidableEq, Repr

/-- A CAN frame (Table 10-3, R253). -/
structure CanFrame where
  id   : BitVec 29 := 0
  ide  : Bool := false
  fdf  : Bool := false
  brs  : Bool := false
  rtr  : Bool := false
  data : Bytes := []
  deriving DecidableEq, Repr

/-- What is added to the JSEQ of an entry that a Shadow accepted itself; it lies above every 8-byte field. -/
def ownSeq : Nat := 2 ^ 64

/-- Journal entry states (Table 04-10); FREE entries are not listed. -/
inductive JState where
  | tentative
  | pending
  | waitObject
  | done
  deriving DecidableEq, Repr

/-- A journal entry (Table 04-10). The last four fields are this model's: whether the entry's effect has
been applied since the last reset (R99), whether its DONE waits for the partner's acknowledgement
(R102), whether its next effect is a re-execution (R103), and whether M7 sent it with the host's rank (R34). An entry that a Shadow accepted itself has `ownSeq`
added to its JSEQ (log 18). -/
structure JEntry where
  op         : Half := 0
  flags      : Half := 0
  len        : Word := 0
  cw         : DWord := 0
  authref    : DWord := 0
  jseq       : Nat := 0
  state      : JState := .pending
  mbx        : Nat := 0
  replays    : Half := 0
  actEpoch   : Word := 0
  acceptTime : Nat := 0
  doneTime   : Nat := 0
  result     : Word := 0
  rdata      : Bytes := []
  body       : Bytes := []
  digest     : Digest := 0
  applied    : Bool := false
  doneWait   : Bool := false
  redo       : Bool := false
  host       : Bool := false
  deriving DecidableEq, Repr

/-- The highest sequence accepted from a source, with its journal sequence (R100). -/
structure HighMark where
  seq  : Nat := 0
  jseq : Nat := 0
  deriving DecidableEq, Repr

/-- A live lease or internal draw (R151, R153). `kind` is that of LEASE_READ: 0 accelerator, 1 tray
start, 2 quire half, 3 pump spin-up, 4 fast valve move, 5 rebinding. `owner` is the accelerator index
(tray × 8 + accelerator) for kind 0, else the half, pump, valve or tray. `stop` is 0 for a converting
draw. -/
structure Lease where
  id    : Nat := 0
  kind  : Nat := 0
  owner : Nat := 0
  extra : Nat := 0
  capW  : Nat := 0
  cw    : DWord := 0
  start : Nat := 0
  stop  : Nat := 0
  deriving DecidableEq, Repr

/-- A planner outcome carried to the partner (R326). -/
inductive PlanOutcome where
  | splice (taken : Bool)
  | trigger (armed : Bool)
  | harbour (h : Nat)
  | leave (granted : Bool)
  deriving DecidableEq, Repr

/-- What one LEASE frame carries (Table 05-3, R128, R326, R361, R391). `final` is the final image of a switch-back
(R138), `capdn` the CAPDN lines that the acting Lead drives (log 147); `demand` and `share` are the broker state's (R17,
R128). -/
inductive LeaseMsg where
  | grant (l : Lease)
  | ended (id : Nat)
  | high (src : Half) (seq : Nat)
  | ten (image : Half)
  | tenAck (image : Half)
  | plan (o : PlanOutcome)
  | result (jseq : Nat) (code : Word) (data : Bytes)
  | freeze (on : Bool) (id : Word)
  | final (image : Half)
  | capdn (lines : Half)
  | demand (pos at_ : Nat) (d : Demand)
  | share (pos w at_ : Nat)
  deriving DecidableEq, Repr

/-- The target state of a tray that the keep tables hold (R139): PERMIT, RM_LIMIT with its hold reference and end, and
HOST_LIMIT. -/
structure TrayKeep where
  permit  : Bool := false
  rm      : Nat := 0xFFFF
  holdRef : DWord := 0
  holdEnd : Nat := 0
  host    : Nat := 0xFFFF
  deriving DecidableEq, Repr

/-- The keep tables that a re-synchronisation streams (R134). -/
structure SyncTables where
  key0      : Option Digest := none
  key1      : Option Digest := none
  budget    : Option Nat := none
  rowBudget : Nat := 0
  stagger   : Nat := 2000
  actEpoch  : Word := 0
  wakeMask  : Option Half := none
  proof     : Nat := 24
  diverge   : Nat := 3
  afeRec    : List (Nat × Bytes) := []
  afeCal    : List (Nat × Bytes) := []
  iexc      : List (Nat × Nat) := []
  canCfg    : List (Nat × (Bytes × Bytes)) := []
  actCfg    : List (Nat × Bytes) := []
  lastPt    : List (Nat × (DWord × Nat × Nat × Int)) := []
  spill     : Option Bytes := none
  ckCycles  : Nat := 1000
  regions   : Option Bytes := none
  clientKeys : List (Nat × BitVec 384) := []
  trays     : List (Nat × TrayKeep) := []
  deriving DecidableEq, Repr

/-- What one part of a BULK stream carries (R134, R168, R298). -/
inductive BulkMsg where
  | journal (es : List JEntry) (high : List (Nat × HighMark)) (jseq : Nat)
  | keep (t : SyncTables)
  | leases (ls : List Lease)
  | broker (demands : List (Nat × (Nat × Demand))) (shares : List (Nat × (Nat × Nat)))
  | model (data : List (Nat × Byte))
  | object (digest : Digest) (bytes : Bytes)
  | borrowed (table harbour : List (Nat × Byte)) (outbox : List (Nat × Byte))
  deriving DecidableEq, Repr

/-- A boot DMA read's completion (R70): the next bytes of the image, or an error or a completion timeout. -/
inductive BootDma where
  | data (bytes : Bytes)
  | error
  deriving DecidableEq, Repr

/-- What a leak input reads when it becomes active (R166, R174). -/
inductive LeakReading where
  | wet
  | short
  deriving DecidableEq, Repr

/-- The conditions of Table 07-5 that clear by themselves. -/
inductive LeakFlag where
  | stuck
  | chatter
  | open_
  deriving DecidableEq, Repr

/-- What the check bits show as a descriptor runs or is read (R276, Table 12-3): nothing, a single-bit error in a slice
(or 64 + LPDDR5X channel), an uncorrectable error in the 64 B block at a store address, or one in the descriptor. -/
inductive EccHit where
  | ok
  | corrected (slice : Nat)
  | block (a : Nat)
  | desc
  deriving DecidableEq, Repr

/-- How the check of a plan ends (R314, R319): the planner takes a path that comes within 1/1,024 of a set, or refuses it, or
there is no answer in time. -/
inductive PlanResult where
  | verified
  | refused
  | unverified
  deriving DecidableEq, Repr

/-- How a pass took paths that come within 1/1,024 of a set (R314, R321, R322): whether the remainder or the rest state
counts as colliding then, the harbour to which such a hold path is taken, and that under the region set that waits for
adoption (R311). -/
structure PassResult where
  collides : Bool := false
  hold     : Option Nat := none
  adopts   : Option Nat := none
  deriving DecidableEq, Repr

/-- PCIe device states and link states (Table 04-14). -/
inductive DState where
  | d0
  | d3hot
  | d3cold
  deriving DecidableEq, Repr

/-- What the host's configuration space holds of the function (R83, R109): its power state and the MSI-X enable. -/
structure HostCfg where
  d    : DState := .d0
  msix : Bool := false
  deriving DecidableEq, Repr

/-- PCIe link states; `down` is not trained. -/
inductive LinkState where
  | l0
  | l1
  | l2
  | l3
  | down
  deriving DecidableEq, Repr

/-- An answer to STATUS_GET polled by the master (R285, R286). -/
structure EpochAnswer where
  pos   : BitVec 4
  ready : Word
  cfg   : Word
  deriving DecidableEq, Repr

end Sys2Proof
end

