-- ==== Sys2Proof/Syntax.lean ====
section
/-! DEFINITION. Syntax.lean: the commands of the block, one constructor per row of spec/opcode_table.json, in
the table's order. The operands are what the row's step is given from outside: a record's header and body
bytes (Table 04-5 and the body table of its opcode), a frame's header and payload, a level, a measurement,
an element's number, or whether a transfer worked. A row that is an occurrence at a time the state already
holds has no operand. -/

namespace Sys2Proof

/-- The commands (spec/opcode_table.json). -/
inductive Instr where
  /-- KEEP_POR_RELEASE (R58). -/
  | keepPorRelease (intact : Bool)
  /-- KEEP_TABLE_READ_DONE (R58). -/
  | keepTableReadDone
  /-- VKEEP_FALL (R46). -/
  | vkeepFall
  /-- HOUR_METER_SAVE (R48). -/
  | hourMeterSave
  /-- RAIL_LOSS (R46). -/
  | railLoss
  /-- RAILS_GOOD (R43). -/
  | railsGood
  /-- BIND_RESET_RELEASE (R55). -/
  | bindResetRelease (straps : Straps) (catchOk : Bool)
  /-- FIELD_POWER_UP (R43). -/
  | fieldPowerUp
  /-- FIELD_RESET_RELEASE (R66). -/
  | fieldResetRelease
  /-- SYS_RST_N_LOW (R52). -/
  | sysRstNLow
  /-- SPN_HANDOFF_EXPIRY (R133). -/
  | spnHandoffExpiry
  /-- LOCKSTEP_MISMATCH (R52). -/
  | lockstepMismatch
  /-- BINDER_WATCHDOG_EXPIRY (R78). -/
  | binderWatchdogExpiry
  /-- XIN_LOSS (R49). -/
  | xinLoss
  /-- XIN_RETURN (R49). -/
  | xinReturn
  /-- FCLK_SWITCH_BACK (R49). -/
  | fclkSwitchBack
  /-- KXIN_CRYSTAL_FAIL (R48). -/
  | kxinCrystalFail
  /-- KXIN_CRYSTAL_RUN (R48). -/
  | kxinCrystalRun
  /-- DIE_OVERTEMP (R375). -/
  | dieOvertemp (temp : Int)
  /-- DIE_TEMP_RETURN (R375). -/
  | dieTempReturn (peak : Int)
  /-- PERST_ASSERT (R84). -/
  | perstAssert
  /-- PERST_RELEASE (R383). -/
  | perstRelease
  /-- TRST_N_ASSERT (R61). -/
  | trstNAssert
  /-- PCIE_LINK_DOWN (R70). -/
  | pcieLinkDown
  /-- HOST_LINK_L0 (R110). -/
  | hostLinkL0
  /-- STORE_SWITCH_ON (R44). -/
  | storeSwitchOn
  /-- STORE_READY (R260). -/
  | storeReady
  /-- STORE_SWITCH_OFF (R45). -/
  | storeSwitchOff
  /-- QUIRE_HALF_SWITCH_ON (R44). -/
  | quireHalfSwitchOn (half : Fin 2)
  /-- QUIRE_HALF_READY (R274). -/
  | quireHalfReady (half : Fin 2)
  /-- QUIRE_HALF_SWITCH_OFF (R275). -/
  | quireHalfSwitchOff (half : Fin 2)
  /-- MBX_BOOT_START (R69). -/
  | mbxBootStart (list : List Scatter)
  /-- MBX_BOOT_ABORT (R70). -/
  | mbxBootAbort
  /-- BOOT_DMA_COMPLETION (R70). -/
  | bootDmaCompletion (c : BootDma)
  /-- BOOT_CHECK_DONE (R75). -/
  | bootCheckDone (us : Nat)
  /-- BOOT_FAILED_RETURN (R77). -/
  | bootFailedReturn
  /-- NETBOOT_SOLICIT (R72). -/
  | netbootSolicit
  /-- NETBOOT_OFFER (R72). -/
  | netbootOffer (port : Fin 2) (src dst : Nat) (type : Half) (frame : Bytes)
  /-- NETBOOT_DATA (R72). -/
  | netbootData (port : Fin 2) (src : Nat) (type : Half) (frame : Bytes)
  /-- NETBOOT_REQUEST_TIMEOUT (R72). -/
  | netbootRequestTimeout
  /-- NETBOOT_CANCEL (R72). -/
  | netbootCancel (port : Fin 2) (hdr : EthHdr) (frame : Bytes)
  /-- MGMT_LINK_LOSS (R72). -/
  | mgmtLinkLoss (port : Fin 2)
  /-- NETBOOT_ELIGIBLE (R73). -/
  | netbootEligible
  /-- FIRMWARE_RUNNING (R79). -/
  | firmwareRunning (found : JournalRead)
  /-- BINDER_HEARTBEAT (R225). -/
  | binderHeartbeat
  /-- BINDER_SILENT (R225). -/
  | binderSilent
  /-- RESET_EXECUTE (R97). -/
  | resetExecute
  /-- MBX_DOORBELL (R85). -/
  | mbxDoorbell (m : Fin 8)
  /-- MBX_COPY_OUT (R85). -/
  | mbxCopyOut (m : Fin 8) (jok : Bool)
  /-- MBX_RSP_CI (R86). -/
  | mbxRspCi (m : Fin 8) (ci : BitVec 6)
  /-- RESPONSE_WRITE (R86). -/
  | responseWrite (m : Fin 8)
  /-- REGISTER_WRITE (R6). -/
  | registerWrite (off : BitVec 18) (val : Word)
  /-- TLS_CONNECT (R88). -/
  | tlsConnect (port : Fin 2) (hello : TlsHello)
  /-- TLS_DISCONNECT (R88). -/
  | tlsDisconnect (port : Fin 2)
  /-- SEQ_QUERY (R95). -/
  | seqQuery (h : Hdr) (body : Bytes)
  /-- NONCE_GET (R104). -/
  | nonceGet (h : Hdr) (body : Bytes)
  /-- RESULT_GET (R95). -/
  | resultGet (h : Hdr) (body : Bytes)
  /-- STATUS_GET (R94). -/
  | statusGet (h : Hdr) (body : Bytes)
  /-- OBJECT_STAGE (R96). -/
  | objectStage (h : Hdr) (body : Bytes)
  /-- STAGE_DMA_DONE (R96). -/
  | stageDmaDone (list : List Scatter) (data : Option Bytes)
  /-- LEAVE_REQUEST (R149). -/
  | leaveRequest (h : Hdr) (body : Bytes)
  /-- LEAVE_RETURN (R152). -/
  | leaveReturn (h : Hdr) (body : Bytes)
  /-- LEASE_READ (R153). -/
  | leaseRead (h : Hdr) (body : Bytes)
  /-- SENSOR_READ (R202). -/
  | sensorRead (h : Hdr) (body : Bytes)
  /-- LOG_READ (R360). -/
  | logRead (h : Hdr) (body : Bytes)
  /-- PMC_READ (R367). -/
  | pmcRead (h : Hdr) (body : Bytes)
  /-- INVENTORY_READ (R336). -/
  | inventoryRead (h : Hdr) (body : Bytes)
  /-- SPINE_HEALTH_GET (R136). -/
  | spineHealthGet (h : Hdr) (body : Bytes)
  /-- TLS_KEY_GET (R89). -/
  | tlsKeyGet (h : Hdr) (body : Bytes)
  /-- TRAY_START (R144). -/
  | trayStart (h : Hdr) (body : Bytes)
  /-- AUTH_LOCKOUT_END (R104). -/
  | authLockoutEnd (src : Half)
  /-- TRAY_STOP (R144). -/
  | trayStop (h : Hdr) (body : Bytes)
  /-- TRAY_STOP_DELAY (R144). -/
  | trayStopDelay (tray : Fin 16)
  /-- TRAY_CAP_SET (R141). -/
  | trayCapSet (h : Hdr) (body : Bytes)
  /-- PERMIT_SET (R142). -/
  | permitSet (h : Hdr) (body : Bytes)
  /-- HOLD_SET (R143). -/
  | holdSet (h : Hdr) (body : Bytes)
  /-- HOLD_END (R143). -/
  | holdEnd (tray : Fin 16)
  /-- BUDGET_SET (R164). -/
  | budgetSet (h : Hdr) (body : Bytes)
  /-- ROW_BUDGET_SET (R164). -/
  | rowBudgetSet (h : Hdr) (body : Bytes)
  /-- ROW_SHARE_SET (R143). -/
  | rowShareSet (h : Hdr) (body : Bytes)
  /-- STAGGER_SET (R159). -/
  | staggerSet (h : Hdr) (body : Bytes)
  /-- TRIP_RELEASE (R180). -/
  | tripRelease (h : Hdr) (body : Bytes)
  /-- TRIP_RELEASE_WINDOW_END (R180). -/
  | tripReleaseWindowEnd
  /-- LEAK_MASK (R178). -/
  | leakMask (h : Hdr) (body : Bytes)
  /-- KETTLE_ROUTE_SET (R168). -/
  | kettleRouteSet (h : Hdr) (body : Bytes)
  /-- TRIP_PROOF (R181). -/
  | tripProof (h : Hdr) (body : Bytes)
  /-- PROOF_SOURCE_STEP (R181). -/
  | proofSourceStep (passed : Bool)
  /-- KEEPER_TABLE_SET (R207). -/
  | keeperTableSet (h : Hdr) (body : Bytes)
  /-- PWM_PARAM_APPLY (R207). -/
  | pwmParamApply (pump : Fin 4)
  /-- BELOW_FLOOR_LEASE (R223). -/
  | belowFloorLease (h : Hdr) (body : Bytes)
  /-- BELOW_FLOOR_END (R223). -/
  | belowFloorEnd (fan : Bool) (index : Fin 8)
  /-- SETPOINT_REQUEST (R319). -/
  | setpointRequest (h : Hdr) (body : Bytes)
  /-- ACTUATOR_CONFIG (R250). -/
  | actuatorConfig (h : Hdr) (body : Bytes)
  /-- ACTUATOR_CONFIG_TIMEOUT (R250). -/
  | actuatorConfigTimeout (addr : Nat)
  /-- CAN_CONFIG (R245). -/
  | canConfig (h : Hdr) (body : Bytes)
  /-- AFE_CONFIG (R197). -/
  | afeConfig (h : Hdr) (body : Bytes)
  /-- CONFIG_EPOCH_SET (R279). -/
  | configEpochSet (h : Hdr) (body : Bytes)
  /-- MODEL_LOAD (R308). -/
  | modelLoad (h : Hdr) (body : Bytes)
  /-- REGION_SET (R311). -/
  | regionSet (h : Hdr) (body : Bytes)
  /-- SPILL_CONFIG (R290). -/
  | spillConfig (h : Hdr) (body : Bytes)
  /-- LPDDR_TRAINING_DONE (R290). -/
  | lpddrTrainingDone (ok : Bool) (channel : Fin 2) (step : Nat)
  /-- REBIND (R342). -/
  | rebind (h : Hdr) (body : Bytes)
  /-- GOLDEN_STORE (R338). -/
  | goldenStore (h : Hdr) (body : Bytes)
  /-- GOLDEN_WRITE_DONE (R338). -/
  | goldenWriteDone (ok : Bool)
  /-- TAG_WRITE (R349). -/
  | tagWrite (h : Hdr) (body : Bytes)
  /-- TAG_WRITE_RETRY (R349). -/
  | tagWriteRetry
  /-- TAG_WRITE_TIMEOUT (R349). -/
  | tagWriteTimeout
  /-- SWITCH_BACK (R137). -/
  | switchBack (h : Hdr) (body : Bytes)
  /-- PAIR_SYNC (R134). -/
  | pairSync (h : Hdr) (body : Bytes)
  /-- SPINE_CONFIG (R136). -/
  | spineConfig (h : Hdr) (body : Bytes)
  /-- LOG_CLEAR (R362). -/
  | logClear (h : Hdr) (body : Bytes)
  /-- LOG_FREEZE (R356). -/
  | logFreeze (h : Hdr) (body : Bytes)
  /-- FREEZE_EXPIRY (R359). -/
  | freezeExpiry
  /-- PMC_CONFIG (R366). -/
  | pmcConfig (h : Hdr) (body : Bytes)
  /-- KEY_SET (R104). -/
  | keySet (h : Hdr) (body : Bytes)
  /-- KEY_REVOKE (R97). -/
  | keyRevoke (h : Hdr) (body : Bytes)
  /-- ROLLBACK_ADVANCE (R97). -/
  | rollbackAdvance (h : Hdr) (body : Bytes)
  /-- RESET (R97). -/
  | reset (h : Hdr) (body : Bytes)
  /-- WAKE_CONFIG (R109). -/
  | wakeConfig (h : Hdr) (body : Bytes)
  /-- TLS_SET (R89). -/
  | tlsSet (h : Hdr) (body : Bytes)
  /-- COMMAND_EFFECT (R99). -/
  | commandEffect
  /-- MIRROR_ACK_FRAME (R102). -/
  | mirrorAckFrame (f : FrameHdr) (jseq : Nat)
  /-- MIRROR_TIMEOUT (R102). -/
  | mirrorTimeout (jseq : Nat)
  /-- MIRROR_FRAME (R102). -/
  | mirrorFrame (f : FrameHdr) (e : JEntry)
  /-- EVR_CI (R108). -/
  | evrCi (val : Word)
  /-- EVENT_BACKLOG_DRAIN (R108). -/
  | eventBacklogDrain
  /-- EVR_DROPPED_READ (R108). -/
  | evrDroppedRead
  /-- WAKE_CAUSE_PUBLISH (R110). -/
  | wakeCausePublish
  /-- FORM_SEND (R116). -/
  | formSend
  /-- FORM_FRAME (R116). -/
  | formFrame (f : FrameHdr) (e : FormEntry)
  /-- CENSUS_ENTRY_SILENT (R116). -/
  | censusEntrySilent (serial : DWord)
  /-- CENSUS_SETTLED (R117). -/
  | censusSettled
  /-- FORMED_FRAME (R117). -/
  | formedFrame (f : FrameHdr) (gen : Word) (digest : Word) (firstTick : DWord)
  /-- TIME_SEND (R120). -/
  | timeSend
  /-- TIME_FRAME (R120). -/
  | timeFrame (f : FrameHdr) (p : TimePayload)
  /-- TIME_TIMEOUT (R121). -/
  | timeTimeout
  /-- ARC_REJOIN (R121). -/
  | arcRejoin
  /-- ECHO_MEASURE (R120). -/
  | echoMeasure (lane : Fin 4)
  /-- ECHO_FRAME (R120). -/
  | echoFrame (f : FrameHdr) (rtt : Nat)
  /-- HEARTBEAT_SEND (R126). -/
  | heartbeatSend
  /-- HEARTBEAT_FRAME (R126). -/
  | heartbeatFrame (f : FrameHdr) (h : Heartbeat)
  /-- HEARTBEAT_MISSED (R126). -/
  | heartbeatMissed
  /-- LONE_CHECK_EXPIRY (R132). -/
  | loneCheckExpiry
  /-- SILENT_RELEASE (R131). -/
  | silentRelease
  /-- TRIP_MIRROR_SEND (R124). -/
  | tripMirrorSend
  /-- TRIP_FRAME (R124). -/
  | tripFrame (f : FrameHdr) (trips : Half) (leaks : Word) (folio : Word)
  /-- BREAK_FRAME (R125). -/
  | breakFrame (f : FrameHdr) (addr : Fin 32) (west : Bool)
  /-- BOUNDARY_FRAME (R296). -/
  | boundaryFrame (f : FrameHdr) (part : Nat) (tick : Nat) (elem : Nat) (vals : List Word)
  /-- DEMAND_FRAME (R161). -/
  | demandFrame (f : FrameHdr) (d : Demand)
  /-- RELAY_FRAME (R123). -/
  | relayFrame (f : FrameHdr) (data : Bytes)
  /-- RELAY_ACK_SEND (R123). -/
  | relayAckSend
  /-- RELAY_ACK_FRAME (R123). -/
  | relayAckFrame (f : FrameHdr) (fseq : Word)
  /-- RELAY_RESEND (R123). -/
  | relayResend
  /-- LEASE_FRAME (R128). -/
  | leaseFrame (f : FrameHdr) (m : LeaseMsg)
  /-- SNAPSHOT_FRAME (R128). -/
  | snapshotFrame (f : FrameHdr) (words : List Word) (digest : Digest)
  /-- BULK_FRAME (R134). -/
  | bulkFrame (f : FrameHdr) (m : BulkMsg)
  /-- LANE_DOWN (R111). -/
  | laneDown (lane : Fin 4)
  /-- LANE_UP (R111). -/
  | laneUp (lane : Fin 4)
  /-- BYPASS_INSERT (R119). -/
  | bypassInsert
  /-- PORT_INSERT_TIMEOUT (R119). -/
  | portInsertTimeout
  /-- PORT_INSERT_RETRY (R119). -/
  | portInsertRetry
  /-- LREFCLK_LOSS (R119). -/
  | lrefclkLoss
  /-- LREFCLK_GOOD (R119). -/
  | lrefclkGood
  /-- JOURNAL_CHECK (R135). -/
  | journalCheck (leadDigest : Digest)
  /-- PARTNER_CAN_POLL (R240). -/
  | partnerCanPoll (ans : Option Word)
  /-- CAN_PAIR_DOWN_FAULT (R240). -/
  | canPairDownFault
  /-- CYCLE_TICK (R35). -/
  | cycleTick
  /-- LEAVE_TABLE_STALE (R37). -/
  | leaveTableStale
  /-- CYCLE_COMPLETION_WRITE (R257). -/
  | cycleCompletionWrite (q : Fin 64) (c : Fin 4) (ecc : EccHit)
  /-- CHECKPOINT_WRITE_DONE (R306). -/
  | checkpointWriteDone (ok : Bool)
  /-- LEASE_EXPIRY (R152). -/
  | leaseExpiry (id : Nat)
  /-- ALLOWANCE_FALL (R152). -/
  | allowanceFall (id : Nat)
  /-- TRAY_POLL (R331). -/
  | trayPoll (tray : Fin 16) (r : PowerReport)
  /-- AGENT_SILENCE (R154). -/
  | agentSilence (tray : Fin 16)
  /-- AGENT_LOST (R332). -/
  | agentLost (tray : Fin 16)
  /-- AGENT_SETDASA_RETRY (R332). -/
  | agentSetdasaRetry (tray : Fin 16) (ack : Bool) (desc : Bytes)
  /-- I3C_IBI (R330). -/
  | i3cIbi (tray : Fin 16) (mdb : Byte) (data : Bytes)
  /-- STAGGER_SLOT (R157). -/
  | staggerSlot
  /-- STAGGER_DEFER_RETRY (R157). -/
  | staggerDeferRetry
  /-- TRAY_START_TIMEOUT (R158). -/
  | trayStartTimeout (tray : Fin 16)
  /-- KETTLE_TRIP (R170). -/
  | kettleTrip (src : Fin 33) (reading : LeakReading)
  /-- TRIP_IMAGE_SAVE (R171). -/
  | tripImageSave
  /-- FOREIGN_TRIP (R173). -/
  | foreignTrip (tray : Fin 16)
  /-- FOREIGN_CAUSE_CLEAR (R173). -/
  | foreignCauseClear (tray : Fin 16)
  /-- ROPE_LOCATION_MEASURE (R176). -/
  | ropeLocationMeasure (n : Fin 16)
  /-- ROPE_MEASURE_DONE (R176). -/
  | ropeMeasureDone (n : Fin 16) (va : Nat) (vb : Nat) (vs : Nat)
  /-- LEAK_STUCK (R177). -/
  | leakStuck (src : Fin 33)
  /-- LEAK_CHATTER (R177). -/
  | leakChatter (src : Fin 33)
  /-- LEAK_OPEN (R166). -/
  | leakOpen (src : Fin 33)
  /-- LEAK_CONDITION_CLEAR (R177). -/
  | leakConditionClear (src : Fin 33) (flag : LeakFlag)
  /-- SD_SAMPLE_WORD (R187). -/
  | sdSampleWord (ch : Fin 32) (x : SdInput) (overload : Bool) (excOk : Bool)
  /-- SAR_CONVERSION (R210). -/
  | sarConversion (ch : Fin 12) (code : Nat)
  /-- PULSE_EDGE (R191). -/
  | pulseEdge (ch : Fin 12) (period : Nat) (edge : Edge)
  /-- PULSE_TIMEOUT (R191). -/
  | pulseTimeout (ch : Fin 12)
  /-- BURNOUT_TEST (R192). -/
  | burnoutTest (ch : Fin 32) (x : SdInput)
  /-- REF_CHECK (R192). -/
  | refCheck (ok : Bool)
  /-- SAMPLE_PAGE_COPY (R199). -/
  | samplePageCopy
  /-- PUMP_CURRENT_LOOP (R208). -/
  | pumpCurrentLoop (p : PumpRotor)
  /-- PUMP_SPEED_LOOP (R208). -/
  | pumpSpeedLoop (n : Fin 4) (speed : Int)
  /-- ENCODER_ALIGN_DONE (R208). -/
  | encoderAlignDone (n : Fin 4)
  /-- DRIVER_FAULT (R212). -/
  | driverFault (n : Fin 4)
  /-- PUMP_STALL (R212). -/
  | pumpStall (n : Fin 4)
  /-- PUMP_POSITION_FAULT (R212). -/
  | pumpPositionFault (n : Fin 4)
  /-- PUMP_OVERSPEED (R212). -/
  | pumpOverspeed (n : Fin 4)
  /-- PUMP_RETRY_RESTART (R213). -/
  | pumpRetryRestart (n : Fin 4)
  /-- HW_TABLE_STEP (R219). -/
  | hwTableStep
  /-- TRAJECTORY_POINT (R221). -/
  | trajectoryPoint
  /-- FLOOR_LATE (R221). -/
  | floorLate (elem : Nat)
  /-- FAN_STALL (R215). -/
  | fanStall (f : Fin 8)
  /-- VALVE_FEEDBACK_SAMPLE (R217). -/
  | valveFeedbackSample (v : Fin 8) (uV : Nat)
  /-- VALVE_LOOP_FAULT (R217). -/
  | valveLoopFault (v : Fin 8) (open_ : Bool) (set : Bool)
  /-- CAN_FRAME_RX (R234). -/
  | canFrameRx (ch : Fin 4) (frame : Stamped CanFrame)
  /-- CAN_FRAME_TX_DONE (R235). -/
  | canFrameTxDone (ch : Fin 4) (loopMeas : Stamped Nat)
  /-- CAN_PERIODIC_TX (R235). -/
  | canPeriodicTx (ch : Fin 4) (idx : Nat)
  /-- BASIC_CYCLE_START (R237). -/
  | basicCycleStart (ch : Fin 4)
  /-- REFERENCE_MESSAGE_RX (R237). -/
  | referenceMessageRx (ch : Fin 4) (id : BitVec 29) (count : Nat)
  /-- TIME_MASTER_RESUME (R237). -/
  | timeMasterResume (ch : Fin 4)
  /-- CAN_ERROR_STATE_CHANGE (R238). -/
  | canErrorStateChange (ch : Fin 4) (passive : Bool)
  /-- CAN_BUS_OFF (R239). -/
  | canBusOff (ch : Fin 4)
  /-- CAN_RECOVERY_REQUEST (R239). -/
  | canRecoveryRequest (ch : Fin 4)
  /-- CAN_RECOVERY_DONE (R239). -/
  | canRecoveryDone (ch : Fin 4)
  /-- CAN_BACKOFF_RESET (R239). -/
  | canBackoffReset (ch : Fin 4)
  /-- CAN_WAKE_PULSE (R242). -/
  | canWakePulse (ch : Fin 2) (width : Nat)
  /-- LISTEN_END (R248). -/
  | listenEnd (ch : Fin 4)
  /-- ACTUATOR_STATUS (R249). -/
  | actuatorStatus (ch : Fin 4) (addr : Nat) (st : Stamped ActStatus)
  /-- EPOCH_ANNOUNCE_SEEN (R24). -/
  | epochAnnounceSeen (ch : Fin 4) (pos : BitVec 4) (epoch : Word)
  /-- EPOCH_ANNOUNCE_SEND (R247). -/
  | epochAnnounceSend
  /-- EPOCH_BURST (R130). -/
  | epochBurst
  /-- ACTUATOR_SILENT (R249). -/
  | actuatorSilent (addr : Nat)
  /-- NOP (R264). -/
  | nop (q : Fin 64) (c : Fin 4) (ecc : EccHit)
  /-- HALT (R266). -/
  | halt (q : Fin 64) (c : Fin 4) (ecc : EccHit)
  /-- JUMP (R264). -/
  | jump (q : Fin 64) (c : Fin 4) (ecc : EccHit)
  /-- LOOP (R264). -/
  | loop (q : Fin 64) (c : Fin 4) (ecc : EccHit)
  /-- FENCE (R264). -/
  | fence (q : Fin 64) (c : Fin 4) (ecc : EccHit)
  /-- TICKWAIT (R264). -/
  | tickwait (q : Fin 64) (c : Fin 4) (ecc : EccHit)
  /-- COPY (R264). -/
  | copy (q : Fin 64) (c : Fin 4) (ecc : EccHit)
  /-- FILL (R264). -/
  | fill (q : Fin 64) (c : Fin 4) (ecc : EccHit)
  /-- GATHER (R264). -/
  | gather (q : Fin 64) (c : Fin 4) (ecc : EccHit)
  /-- SCATTER (R264). -/
  | scatter (q : Fin 64) (c : Fin 4) (ecc : EccHit)
  /-- QPUSH (R287). -/
  | qpush (q : Fin 64) (c : Fin 4) (ecc : EccHit)
  /-- QPOP (R287). -/
  | qpop (q : Fin 64) (c : Fin 4) (ecc : EccHit)
  /-- CONVERT (R264). -/
  | convert (q : Fin 64) (c : Fin 4) (ecc : EccHit)
  /-- TRANSPOSE (R264). -/
  | transpose (q : Fin 64) (c : Fin 4) (ecc : EccHit)
  /-- ADD (R264). -/
  | add (q : Fin 64) (c : Fin 4) (ecc : EccHit)
  /-- SUB (R264). -/
  | sub (q : Fin 64) (c : Fin 4) (ecc : EccHit)
  /-- MUL (R264). -/
  | mul (q : Fin 64) (c : Fin 4) (ecc : EccHit)
  /-- FMA (R264). -/
  | fma (q : Fin 64) (c : Fin 4) (ecc : EccHit)
  /-- DIV (R264). -/
  | div (q : Fin 64) (c : Fin 4) (ecc : EccHit)
  /-- MIN (R264). -/
  | min (q : Fin 64) (c : Fin 4) (ecc : EccHit)
  /-- MAX (R264). -/
  | max (q : Fin 64) (c : Fin 4) (ecc : EccHit)
  /-- ABS (R264). -/
  | abs (q : Fin 64) (c : Fin 4) (ecc : EccHit)
  /-- SQRT (R264). -/
  | sqrt (q : Fin 64) (c : Fin 4) (ecc : EccHit)
  /-- RSQRT (R264). -/
  | rsqrt (q : Fin 64) (c : Fin 4) (ecc : EccHit)
  /-- EXP (R264). -/
  | exp (q : Fin 64) (c : Fin 4) (ecc : EccHit)
  /-- LOG (R264). -/
  | log (q : Fin 64) (c : Fin 4) (ecc : EccHit)
  /-- SCALE (R264). -/
  | scale (q : Fin 64) (c : Fin 4) (ecc : EccHit)
  /-- CLAMP (R264). -/
  | clamp (q : Fin 64) (c : Fin 4) (ecc : EccHit)
  /-- SELECT (R264). -/
  | select (q : Fin 64) (c : Fin 4) (ecc : EccHit)
  /-- INTERP (R264). -/
  | interp (q : Fin 64) (c : Fin 4) (ecc : EccHit)
  /-- REDSUM (R264). -/
  | redsum (q : Fin 64) (c : Fin 4) (ecc : EccHit)
  /-- REDMAX (R264). -/
  | redmax (q : Fin 64) (c : Fin 4) (ecc : EccHit)
  /-- REDMIN (R264). -/
  | redmin (q : Fin 64) (c : Fin 4) (ecc : EccHit)
  /-- ARGMAX (R264). -/
  | argmax (q : Fin 64) (c : Fin 4) (ecc : EccHit)
  /-- MATMUL (R264). -/
  | matmul (q : Fin 64) (c : Fin 4) (ecc : EccHit)
  /-- SPMV (R264). -/
  | spmv (q : Fin 64) (c : Fin 4) (ecc : EccHit)
  /-- DESC_WAIT_PASS (R267). -/
  | descWaitPass (q : Fin 64) (c : Fin 4)
  /-- QUEUE_STALL_RELEASE (R287). -/
  | queueStallRelease (q : Fin 64) (c : Fin 4) (ecc : EccHit)
  /-- SCRUB_PASS (R276). -/
  | scrubPass (slice : Fin 64) (corrections : Nat) (bad : List Nat)
  /-- EPOCH_PREP_DONE (R283). -/
  | epochPrepDone (ok : Bool)
  /-- PRELOAD_DONE (R283). -/
  | preloadDone
  /-- EPOCH_READY_POLL (R285). -/
  | epochReadyPoll (answers : List EpochAnswer)
  /-- EPOCH_LAPSE (R285). -/
  | epochLapse
  /-- BOUNDARY_SLOT_SEND (R296). -/
  | boundarySlotSend (elem : Nat)
  /-- BOUNDARY_DEADLINE (R296). -/
  | boundaryDeadline
  /-- MODEL_RESTORE_DONE (R298). -/
  | modelRestoreDone
  /-- VERIFY_PASS_DONE (R321). -/
  | verifyPassDone (r : PassResult)
  /-- VERIFY_PASS_DEADLINE (R323). -/
  | verifyPassDeadline
  /-- HARBOUR_SET_STALE (R304). -/
  | harbourSetStale
  /-- PLAN_DONE (R319). -/
  | planDone (r : PlanResult)
  /-- SPLICE_TIME (R319). -/
  | spliceTime
  /-- LEAVE_SEGMENT_TIMEOUT (R318). -/
  | leaveSegmentTimeout
  /-- GOLDEN_SCRUB (R339). -/
  | goldenScrub (slot : Fin 8) (ok : Bool)
  /-- REBIND_VERIFY_DONE (R342). -/
  | rebindVerifyDone (ok : Bool)
  /-- REBIND_PROGRAM_DONE (R342). -/
  | rebindProgramDone
  /-- REBIND_READBACK_DONE (R342). -/
  | rebindReadbackDone (same : Bool)
  /-- REBIND_AGENT_TIMEOUT (R342). -/
  | rebindAgentTimeout
  /-- REBIND_BOUND_EXPIRY (R344). -/
  | rebindBoundExpiry
  /-- TAG_INVENTORY_WRITE (R345). -/
  | tagInventoryWrite
  /-- TAG_WIRED_SWAP (R347). -/
  | tagWiredSwap
  /-- TAG_WIRED_BUSY (R347). -/
  | tagWiredBusy
  /-- TAG_RF_POLL (R348). -/
  | tagRfPoll
  /-- RF_INVENTORY (R346). -/
  | rfInventory (maskLen : Nat) (mask : Nat)
  /-- RF_STAY_QUIET (R346). -/
  | rfStayQuiet (uid : DWord)
  /-- RF_SELECT (R346). -/
  | rfSelect (uid : DWord)
  /-- RF_RESET_TO_READY (R346). -/
  | rfResetToReady (uid : Option DWord)
  /-- RF_GET_SYSTEM_INFORMATION (R346). -/
  | rfGetSystemInformation
  /-- RF_READ_SINGLE_BLOCK (R347). -/
  | rfReadSingleBlock (blk : Nat)
  /-- RF_READ_MULTIPLE_BLOCKS (R347). -/
  | rfReadMultipleBlocks (first : Nat) (count : Nat)
  /-- RF_WRITE_SINGLE_BLOCK (R348). -/
  | rfWriteSingleBlock (blk : Nat) (data : Bytes)
  /-- RF_GET_BLOCK_SECURITY (R348). -/
  | rfGetBlockSecurity (first : Nat) (count : Nat)
  /-- FOLIO_COMMIT (R353). -/
  | folioCommit
  /-- SUMMARY_SAMPLE (R354). -/
  | summarySample
  /-- SUMMARY_WRITE (R354). -/
  | summaryWrite
  /-- LOG_DROPPED (R355). -/
  | logDropped
  /-- DUMP_INSTANT (R370). -/
  | dumpInstant
  /-- PDU_VALUE_LOW_READ (R369). -/
  | pduValueLowRead (n : Nat)
  /-- PDU_SKIPPED_READ (R371). -/
  | pduSkippedRead
  /-- LEAK_INPUT_CLEAR (R177). -/
  | leakInputClear (src : Fin 33)
  /-- PCIE_D_STATE_CHANGE (R108). -/
  | pcieDStateChange (cfg : HostCfg)
  /-- INTERNAL_LEAVE_RETRY (R160). -/
  | internalLeaveRetry (id : Nat)
  /-- LEASE_ACK_TIMEOUT (R128). -/
  | leaseAckTimeout
  /-- PROOF_INTERVAL_EXPIRY (R135). -/
  | proofIntervalExpiry
  deriving DecidableEq, Repr

end Sys2Proof
end

