-- ==== Sys2Proof/Config.lean ====
section
/-! DEFINITION. Config.lean: the free values, which the specification leaves open. None has a body, so no
proof can see a value of one: a claim about a free value holds for every value. Each is applied to State's
counter of drawn values, or to the operands it depends on. -/

namespace Sys2Proof.Config

/-- The nonce that a NONCE_GET issues (R104 gives its size only). -/
opaque nonce : Nat → DWord
/-- The retry estimate of a BUSY answer before it is held within 1 to 1,000 ms (R101). -/
opaque busyMs : Nat → Nat
/-- The FREEZE_ID of a new freeze before it is made nonzero (R356). -/
opaque freezeId : Nat → Word
/-- The 96 octets of a generated TLS device key's public part (R89). -/
opaque tlsPublic : Nat → Bytes
/-- Whether the leaf of a DER certificate chain has a given TLS key (R89 names the format of neither). -/
opaque leafIs : Bytes → Bytes → Bool
/-- The 32 bytes of DATA of an event or folio, by its code and the fields that its table names (no table gives their
widths). -/
opaque dataImage : Nat → List Nat → Bytes
/-- A RESULT code that no rule states. -/
opaque openResult : Nat → Word
/-- Whether firmware has acknowledged BINDER_SILENT by a heartbeat (R226 names no row for it). -/
opaque acks : Nat → Bool
/-- A rope location whose ratios do not lie in order (R176 states none). -/
opaque ropeLoc : Nat → Nat → Nat → Nat

/-- Whether a quotient that is no whole number is taken upward, by numerator and denominator, where a rule states a
real number for a field of whole units and no rounding (log 22). -/
opaque roundUp : Int → Nat → Bool
/-- The raw result of a sigma-delta word while VREFP − VREFN is not above 0 (R184 states none), by the input voltage. -/
opaque noRef : Int → Int
/-- An output period in µs while FCLK runs from the backup oscillator, before it is held within 2 % (R185), by the nominal
period and the time. -/
opaque backupPeriod : Nat → Nat → Nat
/-- Where the sample page's copy lies in working store (R199 gives no address). -/
opaque sourceBase : Nat
/-- Where the model's snapshot lies in working store (R200 and R261 give no address). -/
opaque snapBase : Nat
/-- `id` and `iq` in µA: the Clarke and Park transforms of three phase currents in µA at an electrical angle in 1/65,536
turn (R208 names the transforms, with no scaling and no number format). -/
opaque park : List Int → Nat → Int × Int
/-- The electrical angle of a hall code, interpolated by the speed in rpm over the time in µs since its change (R208 gives no
angles). -/
opaque hallAngle : Nat → Int → Nat → Nat
/-- The duty of a phase in fine steps that space-vector modulation sets from the outputs of the d and q loops, PWM_HZ and the
angle (R208 names the modulation only). -/
opaque svm : Nat → Int → Int → Nat → Nat → Nat
/-- The census digest of a FORMED frame (R117 names no digest). -/
opaque censusDigest : Bytes → Word
/-- The payload bytes of a FORM frame (R116 names its fields and gives no layout). -/
opaque formImage : FormEntry → Bytes
/-- The payload bytes of a FORMED frame: generation, digest and first row tick (R117 gives no layout). -/
opaque formedImage : Nat → Word → Nat → Bytes
/-- The payload bytes of a LEASE frame (Table 05-3 gives no layout). -/
opaque leaseImage : LeaseMsg → Bytes
/-- The bytes of one part of a BULK stream (R134 gives no layout). -/
opaque bulkImage : BulkMsg → Bytes
/-- The residence time in ns of a TIME frame that this node forwards (R120 bounds none). -/
opaque residence : Nat → Nat

/-- Where RSQRT, EXP and LOG fall within their 2 ulp (R265), by operator and input bits: every result is a function of
its input (R256). -/
opaque ulpPick : Nat → Nat → Nat
/-- Where INTERP falls within its 1 ulp (R265), by x and the two pairs beside it. -/
opaque interpPick : List Nat → Nat
/-- INTERP between two pairs whose x do not increase (R264 states none), by the same five words. -/
opaque interpOpen : List Nat → Word
/-- The split of a sum of `n` elements from `first` on, in the fixed pairwise tree of a shape (R256 draws no tree): by
ROWS, COLS, ARG, `first` and `n`. -/
opaque sumSplit : Nat → Nat → Nat → Nat → Nat → Nat
/-- Whether a product of MATMUL or SPMV is rounded before it is summed, by ROWS, COLS and ARG (R256, R265 do not say). -/
opaque productRounds : Nat → Nat → Nat → Bool
/-- Whether the sums within a BF16 reduction are kept as binary32 (R256, R265 do not say). -/
opaque sumWide : Bool
/-- Whether SCALE rounds once (R264, R265 do not say). -/
opaque scaleOnce : Bool
/-- ARGMAX of a row of NaNs (R264 states none), by COLS. -/
opaque argNaN : Nat → Nat
/-- The start value of an actuator axis to which nothing has been dispatched (R311 states none), by axis, in 1/10,000 of
its unit. -/
opaque startValue : Nat → Int
end Sys2Proof.Config
end

