-- ==== Sys2Proof/Machine/Crypto.lean ====
section
/-! DEFINITION. Machine/Crypto.lean: byte-order helpers and the digests, checks and signatures that the
manual names by their standards: CRC-32C, SHA-256, SHA-384 (FIPS 180-4), HMAC-SHA-256 (FIPS 198-1) and
ECDSA P-384 verification (FIPS 186-5). PRESUMED: the manual names these standards and does not restate
them (log entry 3). Words are natural numbers below 2^32 or 2^64, so that they evaluate. -/

namespace Sys2Proof.Machine

/-! ### Byte order (R5: little-endian) -/

/-- The little-endian value of a byte string (R5). -/
def leVal : Bytes → Nat
  | [] => 0
  | b :: bs => b.toNat + 256 * leVal bs

/-- The big-endian value of a byte string (octet strings of R74). -/
def beVal (bs : Bytes) : Nat := bs.foldl (fun a b => a * 256 + b.toNat) 0

/-- `n` little-endian bytes of a value (R5). -/
def leBytes : Nat → Nat → Bytes
  | 0, _ => []
  | n + 1, v => BitVec.ofNat 8 v :: leBytes n (v / 256)

/-- `n` big-endian bytes of a value. -/
def beBytes (n v : Nat) : Bytes := (leBytes n v).reverse

/-- `n` zero bytes. -/
def zeros (n : Nat) : Bytes := List.replicate n 0

/-- `n` bytes from offset `o`; a byte past the end of the string reads 0. -/
def sub (bs : Bytes) (o n : Nat) : Bytes :=
  let t := (bs.drop o).take n
  t ++ zeros (n - t.length)

/-- The little-endian value of `n` bytes at offset `o`. -/
def fld (bs : Bytes) (o n : Nat) : Nat := leVal (sub bs o n)

/-- Every one of `n` bytes at offset `o` is 0 (R7, reserved fields). -/
def isZero (bs : Bytes) (o n : Nat) : Bool := ((bs.drop o).take n).all (· == 0)

/-- Two's complement reading of an `n`-bit value. -/
def toSigned (n v : Nat) : Int := if v < 2 ^ (n - 1) then (v : Int) else (v : Int) - (2 ^ n : Nat)

/-- `n`-bit two's complement encoding of an integer. -/
def ofSigned (n : Nat) (v : Int) : Nat := (v % ((2 ^ n : Nat) : Int)).toNat

/-! ### CRC-32C -/

/-- One bit of the reflected CRC-32C register (polynomial 0x82F6_3B78). -/
def crcBit (r : Nat) : Nat :=
  if r % 2 = 1 then (r / 2) ^^^ 0x82F63B78 else r / 2

/-- One byte of the CRC-32C register. -/
def crcByte (r : Nat) (b : Byte) : Nat :=
  crcBit (crcBit (crcBit (crcBit (crcBit (crcBit (crcBit (crcBit (r ^^^ b.toNat))))))))

/-- CRC-32C of a byte string. -/
def crc32c (bs : Bytes) : Nat := (bs.foldl crcByte 0xFFFFFFFF) ^^^ 0xFFFFFFFF

/-- The last four of the first `n` bytes are the CRC-32C of the bytes before them. -/
def crcOk (bs : Bytes) (n : Nat) : Bool := fld bs (n - 4) 4 == crc32c (sub bs 0 (n - 4))

/-! ### SHA-2 (FIPS 180-4) -/

/-- The round constants of SHA-256. -/
def sha256K : List Nat :=
  [0x428a2f98, 0x71374491, 0xb5c0fbcf, 0xe9b5dba5, 0x3956c25b, 0x59f111f1, 0x923f82a4, 0xab1c5ed5] ++
  [0xd807aa98, 0x12835b01, 0x243185be, 0x550c7dc3, 0x72be5d74, 0x80deb1fe, 0x9bdc06a7, 0xc19bf174] ++
  [0xe49b69c1, 0xefbe4786, 0x0fc19dc6, 0x240ca1cc, 0x2de92c6f, 0x4a7484aa, 0x5cb0a9dc, 0x76f988da] ++
  [0x983e5152, 0xa831c66d, 0xb00327c8, 0xbf597fc7, 0xc6e00bf3, 0xd5a79147, 0x06ca6351, 0x14292967] ++
  [0x27b70a85, 0x2e1b2138, 0x4d2c6dfc, 0x53380d13, 0x650a7354, 0x766a0abb, 0x81c2c92e, 0x92722c85] ++
  [0xa2bfe8a1, 0xa81a664b, 0xc24b8b70, 0xc76c51a3, 0xd192e819, 0xd6990624, 0xf40e3585, 0x106aa070] ++
  [0x19a4c116, 0x1e376c08, 0x2748774c, 0x34b0bcb5, 0x391c0cb3, 0x4ed8aa4a, 0x5b9cca4f, 0x682e6ff3] ++
  [0x748f82ee, 0x78a5636f, 0x84c87814, 0x8cc70208, 0x90befffa, 0xa4506ceb, 0xbef9a3f7, 0xc67178f2]

/-- The initial hash value of SHA-256. -/
def sha256Init : List Nat :=
  [0x6a09e667, 0xbb67ae85, 0x3c6ef372, 0xa54ff53a, 0x510e527f, 0x9b05688c, 0x1f83d9ab, 0x5be0cd19]

/-- The round constants of SHA-384. -/
def sha512K : List Nat :=
  [0x428a2f98d728ae22, 0x7137449123ef65cd, 0xb5c0fbcfec4d3b2f, 0xe9b5dba58189dbbc] ++
  [0x3956c25bf348b538, 0x59f111f1b605d019, 0x923f82a4af194f9b, 0xab1c5ed5da6d8118] ++
  [0xd807aa98a3030242, 0x12835b0145706fbe, 0x243185be4ee4b28c, 0x550c7dc3d5ffb4e2] ++
  [0x72be5d74f27b896f, 0x80deb1fe3b1696b1, 0x9bdc06a725c71235, 0xc19bf174cf692694] ++
  [0xe49b69c19ef14ad2, 0xefbe4786384f25e3, 0x0fc19dc68b8cd5b5, 0x240ca1cc77ac9c65] ++
  [0x2de92c6f592b0275, 0x4a7484aa6ea6e483, 0x5cb0a9dcbd41fbd4, 0x76f988da831153b5] ++
  [0x983e5152ee66dfab, 0xa831c66d2db43210, 0xb00327c898fb213f, 0xbf597fc7beef0ee4] ++
  [0xc6e00bf33da88fc2, 0xd5a79147930aa725, 0x06ca6351e003826f, 0x142929670a0e6e70] ++
  [0x27b70a8546d22ffc, 0x2e1b21385c26c926, 0x4d2c6dfc5ac42aed, 0x53380d139d95b3df] ++
  [0x650a73548baf63de, 0x766a0abb3c77b2a8, 0x81c2c92e47edaee6, 0x92722c851482353b] ++
  [0xa2bfe8a14cf10364, 0xa81a664bbc423001, 0xc24b8b70d0f89791, 0xc76c51a30654be30] ++
  [0xd192e819d6ef5218, 0xd69906245565a910, 0xf40e35855771202a, 0x106aa07032bbd1b8] ++
  [0x19a4c116b8d2d0c8, 0x1e376c085141ab53, 0x2748774cdf8eeb99, 0x34b0bcb5e19b48a8] ++
  [0x391c0cb3c5c95a63, 0x4ed8aa4ae3418acb, 0x5b9cca4f7763e373, 0x682e6ff3d6b2b8a3] ++
  [0x748f82ee5defb2fc, 0x78a5636f43172f60, 0x84c87814a1f0ab72, 0x8cc702081a6439ec] ++
  [0x90befffa23631e28, 0xa4506cebde82bde9, 0xbef9a3f7b2c67915, 0xc67178f2e372532b] ++
  [0xca273eceea26619c, 0xd186b8c721c0c207, 0xeada7dd6cde0eb1e, 0xf57d4f7fee6ed178] ++
  [0x06f067aa72176fba, 0x0a637dc5a2c898a6, 0x113f9804bef90dae, 0x1b710b35131c471b] ++
  [0x28db77f523047d84, 0x32caab7b40c72493, 0x3c9ebe0a15c9bebc, 0x431d67c49c100d4c] ++
  [0x4cc5d4becb3e42b6, 0x597f299cfc657e2a, 0x5fcb6fab3ad6faec, 0x6c44198c4a475817]

/-- The initial hash value of SHA-384. -/
def sha384Init : List Nat :=
  [0xcbbb9d5dc1059ed8, 0x629a292a367cd507, 0x9159015a3070dd17, 0x152fecd8f70e5939] ++
  [0x67332667ffc00b31, 0x8eb44a8768581511, 0xdb0c2e0d64f98fa7, 0x47b5481dbefa4fa4]

/-- Rotate right within `w` bits. -/
def rotr (w n x : Nat) : Nat := (x >>> n) ||| ((x <<< (w - n)) % 2 ^ w)

/-- The shift and rotation amounts and word width that tell SHA-256 from SHA-384. -/
structure ShaKind where
  w  : Nat
  s0 : Nat × Nat × Nat
  s1 : Nat × Nat × Nat
  S0 : Nat × Nat × Nat
  S1 : Nat × Nat × Nat
  k  : List Nat
  deriving DecidableEq, Repr

/-- SHA-256. -/
def sha256Kind : ShaKind := ⟨32, (7, 18, 3), (17, 19, 10), (2, 13, 22), (6, 11, 25), sha256K⟩
/-- SHA-384 (and SHA-512). -/
def sha512Kind : ShaKind := ⟨64, (1, 8, 7), (19, 61, 6), (28, 34, 39), (14, 18, 41), sha512K⟩

/-- A message-schedule sigma: two rotations and a shift. -/
def shaSmall (w : Nat) (a : Nat × Nat × Nat) (x : Nat) : Nat :=
  rotr w a.1 x ^^^ rotr w a.2.1 x ^^^ (x >>> a.2.2)

/-- A round sigma: three rotations. -/
def shaBig (w : Nat) (a : Nat × Nat × Nat) (x : Nat) : Nat :=
  rotr w a.1 x ^^^ rotr w a.2.1 x ^^^ rotr w a.2.2 x

/-- Extends a message schedule, newest word first, by `n` words. -/
def shaSchedule (K : ShaKind) : Nat → List Nat → List Nat
  | 0, ws => ws
  | n + 1, ws =>
    let g := fun i => ws.getD i 0
    shaSchedule K n
      ((shaSmall K.w K.s1 (g 1) + g 6 + shaSmall K.w K.s0 (g 14) + g 15) % 2 ^ K.w :: ws)

/-- The eight working variables. -/
structure ShaVars where
  a : Nat
  b : Nat
  c : Nat
  d : Nat
  e : Nat
  f : Nat
  g : Nat
  h : Nat
  deriving DecidableEq, Repr

/-- One round with round constant `k` and schedule word `w`. -/
def shaRound (K : ShaKind) (v : ShaVars) (k w : Nat) : ShaVars :=
  let ch := (v.e &&& v.f) ^^^ ((v.e ^^^ (2 ^ K.w - 1)) &&& v.g)
  let t1 := (v.h + shaBig K.w K.S1 v.e + ch + k + w) % 2 ^ K.w
  let mj := (v.a &&& v.b) ^^^ (v.a &&& v.c) ^^^ (v.b &&& v.c)
  let t2 := (shaBig K.w K.S0 v.a + mj) % 2 ^ K.w
  ⟨(t1 + t2) % 2 ^ K.w, v.a, v.b, v.c, (v.d + t1) % 2 ^ K.w, v.e, v.f, v.g⟩

/-- The rounds over the constants and the schedule words side by side. -/
def shaRounds (K : ShaKind) : List Nat → List Nat → ShaVars → ShaVars
  | k :: ks, w :: ws, v => shaRounds K ks ws (shaRound K v k w)
  | _, _, v => v

/-- Sixteen big-endian words of a block. -/
def shaWords (n : Nat) : Nat → Bytes → List Nat
  | 0, _ => []
  | k + 1, bs => beVal (bs.take n) :: shaWords n k (bs.drop n)

/-- One block. -/
def shaBlock (K : ShaKind) (h : List Nat) (blk : Bytes) : List Nat :=
  let ws := (shaSchedule K (K.k.length - 16) (shaWords (K.w / 8) 16 blk).reverse).reverse
  let g := fun i => h.getD i 0
  let v := shaRounds K K.k ws ⟨g 0, g 1, g 2, g 3, g 4, g 5, g 6, g 7⟩
  (h.zip [v.a, v.b, v.c, v.d, v.e, v.f, v.g, v.h]).map (fun p => (p.1 + p.2) % 2 ^ K.w)

/-- The padded message: a 1 bit, zeros, and the length in bits. -/
def shaPad (blk lenB : Nat) (bs : Bytes) : Bytes :=
  let l := bs.length
  let z := (blk - (l + 1 + lenB) % blk) % blk
  bs ++ [0x80] ++ zeros z ++ beBytes lenB (8 * l)

/-- Every block in turn. -/
def shaBlocks (K : ShaKind) (blk : Nat) : Nat → List Nat → Bytes → List Nat
  | 0, h, _ => h
  | n + 1, h, bs => shaBlocks K blk n (shaBlock K h (bs.take blk)) (bs.drop blk)

/-- SHA-256 of a byte string, as 32 octets (FIPS 180-4). -/
def sha256Bytes (bs : Bytes) : Bytes :=
  let p := shaPad 64 8 bs
  ((shaBlocks sha256Kind 64 (p.length / 64) sha256Init p).map (beBytes 4)).flatten

/-- SHA-384 of a byte string, as 48 octets (FIPS 180-4). -/
def sha384Bytes (bs : Bytes) : Bytes :=
  let p := shaPad 128 16 bs
  (((shaBlocks sha512Kind 128 (p.length / 128) sha384Init p).take 6).map (beBytes 8)).flatten

/-- A 32-octet string held as a number, octet 0 in the low byte, as the fields of records are (R5). -/
def digestOf (bs : Bytes) : Digest := BitVec.ofNat 256 (leVal bs)

/-- SHA-256 as a digest field. -/
def sha256 (bs : Bytes) : Digest := digestOf (sha256Bytes bs)

/-- SHA-384 as a 48-octet field. -/
def sha384 (bs : Bytes) : BitVec 384 := BitVec.ofNat 384 (leVal (sha384Bytes bs))

/-- HMAC-SHA-256 under a 32-byte key (FIPS 198-1). -/
def hmacSha256 (key msg : Bytes) : Digest :=
  let k := sub key 0 64
  sha256 (k.map (· ^^^ 0x5C) ++ sha256Bytes (k.map (· ^^^ 0x36) ++ msg))

/-! ### ECDSA P-384 verification (FIPS 186-5) -/

/-- The field prime of P-384. -/
def p384P : Nat := 2 ^ 384 - 2 ^ 128 - 2 ^ 96 + 2 ^ 32 - 1
/-- The order of the base point of P-384. -/
def p384N : Nat :=
  0xffffffffffffffffffffffffffffffffffffffffffffffffc7634d81f4372ddf581a0db248b0a77aecec196accc52973
/-- The constant b of P-384. -/
def p384B : Nat :=
  0xb3312fa7e23ee7e4988e056be3f82d19181d9c6efe8141120314088f5013875ac656398d8a2ed19d2a85c8edd3ec2aef
/-- The base point of P-384. -/
def p384G : Nat × Nat :=
  (0xaa87ca22be8b05378eb1c71ef320ad746e1d3b628ba79b9859f741e082542a385502f25dbf55296c3a545e3872760ab7,
   0x3617de4a96262c6f5d9e98bf9292dc29f8f41dbd289a147ce9da3113b5f0b8c00a60b1ce1d7e819d7a431d7c90ea0e5f)

/-- Modular power by squaring, over the binary digits, least significant first, with fuel. -/
def powMod (m : Nat) : Nat → Nat → Nat → Nat → Nat
  | 0, _, _, acc => acc
  | f + 1, b, e, acc =>
    if e = 0 then acc
    else powMod m f (b * b % m) (e / 2) (if e % 2 = 1 then acc * b % m else acc)

/-- Inverse modulo a prime of at most 384 bits (Fermat). -/
def invMod (m a : Nat) : Nat := powMod m 384 (a % m) (m - 2) 1

/-- Addition of affine points; `none` is the point at infinity. -/
def p384Add : Option (Nat × Nat) → Option (Nat × Nat) → Option (Nat × Nat)
  | none, q => q
  | p, none => p
  | some (x1, y1), some (x2, y2) =>
    if x1 = x2 ∧ (y1 + y2) % p384P = 0 then none
    else
      let l := if x1 = x2 then (3 * x1 * x1 + (p384P - 3)) * invMod p384P (2 * y1) % p384P
               else (y2 + p384P - y1) * invMod p384P (x2 + p384P - x1) % p384P
      let x3 := (l * l + 2 * p384P - x1 - x2) % p384P
      some (x3, (l * (x1 + p384P - x3) + p384P - y1) % p384P)

/-- Scalar multiple, over the binary digits with fuel. -/
def p384Mul : Nat → Nat → Option (Nat × Nat) → Option (Nat × Nat) → Option (Nat × Nat)
  | 0, _, _, acc => acc
  | f + 1, k, p, acc =>
    if k = 0 then acc
    else p384Mul f (k / 2) (p384Add p p) (if k % 2 = 1 then p384Add acc p else acc)

/-- The affine point lies on the curve, within the field. -/
def p384OnCurve (x y : Nat) : Bool :=
  x < p384P && y < p384P && (y * y) % p384P == (x * x * x + (p384P - 3) * x + p384B) % p384P

/-- ECDSA P-384 with SHA-384: `pub` is X then Y, `sig` is r then s, 48 octets each (R74). -/
def ecdsaP384 (pub msg sig : Bytes) : Bool :=
  let x := beVal (pub.take 48); let y := beVal ((pub.drop 48).take 48)
  let r := beVal (sig.take 48); let s := beVal ((sig.drop 48).take 48)
  if p384OnCurve x y && 0 < r && r < p384N && 0 < s && s < p384N then
    let z := beVal (sha384Bytes msg)
    let w := invMod p384N s
    match p384Add (p384Mul 384 (z * w % p384N) (some p384G) none)
        (p384Mul 384 (r * w % p384N) (some (x, y)) none) with
    | none => false
    | some (px, _) => px % p384N == r
  else false

end Sys2Proof.Machine
end

