-- ==== Sys2Proof/Machine/Tab.lean ====
section
/-! DEFINITION. Machine/Tab.lean: the two sparse containers of State. A table holds the entries that
differ in history from their reset value, by index, in rising order; an index it does not list reads as
the default the reader names. A memory holds the bytes that are not 0, by address (R260: the store is
cleared to zero before it is reported ready). -/

namespace Sys2Proof.Machine

/-- A sparse table: index and entry, indices strictly rising. -/
abbrev Tab (α : Type) := List (Nat × α)

/-- The entry at `k`, or `d` where the table lists none. -/
def Tab.get {α : Type} (d : α) : Tab α → Nat → α
  | [], _ => d
  | (j, v) :: t, k => if j = k then v else Tab.get d t k

/-- The entry at `k`, where the table lists one. -/
def Tab.find {α : Type} : Tab α → Nat → Option α
  | [], _ => none
  | (j, v) :: t, k => if j = k then some v else Tab.find t k

/-- The table with the entry at `k` set to `v`. -/
def Tab.set {α : Type} : Tab α → Nat → α → Tab α
  | [], k, v => [(k, v)]
  | (j, w) :: t, k, v =>
    if k = j then (k, v) :: t
    else if k < j then (k, v) :: (j, w) :: t
    else (j, w) :: Tab.set t k v

/-- The table without an entry at `k`. -/
def Tab.erase {α : Type} (t : Tab α) (k : Nat) : Tab α := t.filter (fun p => p.1 != k)

/-- The entry at `k` changed by `f`. -/
def Tab.mod {α : Type} (d : α) (t : Tab α) (k : Nat) (f : α → α) : Tab α := t.set k (f (t.get d k))

/-- A byte memory: the nonzero bytes by address. -/
abbrev Mem := List Host.Cell

/-- The canonical form: addresses strictly rising, and no listed byte equal to what an unlisted address
reads as. -/
def Mem.wf : Mem → Bool
  | [] => true
  | [(_, v)] => v != 0
  | (a, v) :: (b, w) :: m => v != 0 && a < b && Mem.wf ((b, w) :: m)

/-- What an unlisted address reads as: 0 (R260). -/
def Mem.unlisted : Byte := 0

/-- The byte at an address. -/
def Mem.read : Mem → Nat → Byte
  | [], _ => Mem.unlisted
  | (b, v) :: m, a => if a = b then v else if a < b then Mem.unlisted else Mem.read m a

/-- The memory with one byte stored. Storing what an unlisted address reads as removes the entry. -/
def Mem.write : Mem → Nat → Byte → Mem
  | [], a, v => if v = Mem.unlisted then [] else [(a, v)]
  | (b, w) :: m, a, v =>
    if a = b then (if v = Mem.unlisted then m else (a, v) :: m)
    else if a < b then (if v = Mem.unlisted then (b, w) :: m else (a, v) :: (b, w) :: m)
    else (b, w) :: Mem.write m a v

/-- `n` bytes from an address. -/
def Mem.readN (m : Mem) (a : Nat) : Nat → Bytes
  | 0 => []
  | n + 1 => m.read a :: Mem.readN m (a + 1) n

/-- A byte string stored from an address on. -/
def Mem.writeN (m : Mem) (a : Nat) : Bytes → Mem
  | [] => m
  | b :: bs => Mem.writeN (m.write a b) (a + 1) bs

/-- The memory with every byte of `[lo, hi)` at 0. -/
def Mem.clearRange (m : Mem) (lo hi : Nat) : Mem := m.filter (fun p => p.1 < lo || hi ≤ p.1)

/-- The bytes of `[lo, hi)` alone. -/
def Mem.range (m : Mem) (lo hi : Nat) : Mem := m.filter (fun p => lo ≤ p.1 && p.1 < hi)

/-- The bytes of `[lo, hi)` moved down to address 0. -/
def Mem.window (m : Mem) (lo hi : Nat) : Mem := (m.range lo hi).map (fun p => (p.1 - lo, p.2))

end Sys2Proof.Machine
end

