-- ==== Sys2Proof/Machine/Parts.lean ====
section
/-! DEFINITION. Machine/Parts.lean: the parts of State of chapters 02 to 06 and 15: power and clocks, the keep
domain, OTP, the keep tables, the boot ROM, the mailboxes, the journal, staging, the event ring, the logbook,
the counters, the Spine, the pair and the leave unit. Each field's default is its value at reset. -/

namespace Sys2Proof.Machine

/-! ## Logbook (chapter 15) -/

/-- A folio (Table 15-1). `data` holds the fields of DATA in the order of the event's table; `words` holds
a summary's track values or a CLEAR folio's counts. `hseq` is this model's: the CRC always checks. -/
structure Folio where
  fseq   : Nat := 0
  ty     : Nat := 0
  sev    : Nat := 0
  coarse : Bool := false
  keeper : Bool := false
  held   : Bool := false
  code   : Half := 0
  pos    : BitVec 4 := 0
  brd    : Bool := false
  lead   : Bool := false
  time   : Nat := 0
  hour   : Nat := 0
  pcycle : Nat := 0
  row    : Nat := 0
  cw     : DWord := 0
  ref    : Nat := 0
  data   : List Nat := []
  words  : List Int := []
  deriving DecidableEq, Repr

/-- A freeze that holds (R356). -/
structure Freeze where
  id   : Word := 0
  hold : Nat := 60
  stop : Nat := 0
  deriving DecidableEq, Repr

/-- The samples of the running summary period, per track (R354): seconds sampled, minimum, maximum, the
offset of the first maximum and the bins. -/
structure Track where
  n    : Nat := 0
  min  : Int := 0
  max  : Int := 0
  at_  : Nat := 0
  bins : List Nat := List.replicate 16 0
  deriving DecidableEq, Repr

/-- The logbook (R350 to R362). `slots` are the occupied slots in FSEQ order, `queue` the writer's queue and
`buf` the holding buffer, each oldest first. -/
structure Logbook where
  slots   : List Folio := []
  queue   : List Folio := []
  buf     : List Folio := []
  fseq    : Nat := 0
  freeze  : Option Freeze := none
  dropped : List Nat := [0, 0, 0, 0]
  dropNew : Bool := false
  dropAt  : Option Nat := none
  period  : Option Nat := none
  samples : Nat := 0
  tracks  : Tab Track := []
  deriving DecidableEq, Repr

/-! ## Event ring, MSI-X and the host link (chapter 04) -/

/-- An event ring entry (R107). -/
structure EvEntry where
  code   : Half := 0
  sev    : Nat := 0
  phase  : Bool := false
  wake   : Bool := false
  keeper : Bool := false
  eseq   : Nat := 0
  time   : Nat := 0
  cw     : DWord := 0
  ref    : Nat := 0
  data   : List Nat := []
  deriving DecidableEq, Repr

/-- The event ring registers (Table 04-12), the backlog (R108), the MSI-X table and pending bits, and the
state of the function and the link. -/
structure HostLink where
  base    : DWord := 0
  en      : Bool := false
  pi      : Nat := 0
  ci      : Nat := 0
  dropped : Nat := 0
  mod     : Half := 0
  eseq    : Nat := 0
  backlog : List EvEntry := []
  dropOwe : Nat := 0
  v6Last  : Option Nat := none
  v6Owe   : Bool := false
  msix    : Mem := []
  msixPba : DWord := 0
  msixEn  : Bool := false
  perst   : Bool := true
  dstate  : DState := .d0
  link    : LinkState := .down
  deriving DecidableEq, Repr

/-- A record of the keep-domain wake latch (R109). -/
structure WakeRec where
  code  : Nat := 0
  seq   : Nat := 0
  time  : Nat := 0
  count : Nat := 1
  deriving DecidableEq, Repr

/-! ## Keep domain (chapters 02 and 03) -/

/-- The keep domain: power-on reset, hour meter and counters (R48), the TEN and CAPDN latches (R57), the
handoff latch (R133) and the wake latch (R109). `hourBase` is the hour meter at `hourFrom` µs, the time of the latest
power-on reset release, and `saveAt` the time of the latest periodic save. -/
structure Keep where
  por        : Bool := true
  cold       : Bool := true
  tenRead    : Bool := true
  readAt     : Option Nat := none
  hourBase   : Nat := 0
  hourFrom   : Nat := 0
  coarse     : Bool := false
  pcycle     : Nat := 0
  savedHour  : Nat := 0
  saveAt     : Nat := 0
  savedCycle : Nat := 0
  ten        : Half := 0
  capdn      : Half := 0xFFFF
  handoff    : Bool := false
  handoffAt  : Option Nat := none
  wake       : List WakeRec := []
  wakeSeq    : Nat := 0
  wakePin    : Bool := false
  deriving DecidableEq, Repr

/-- A checkpoint whose CRCs check (Table 13-2). `data` holds the carried regions' nonzero bytes by store address, `parts`
the directory. -/
structure Ckpt where
  seq      : Nat := 0
  manifest : Digest := 0
  epoch    : Nat := 0
  tick     : Nat := 0
  row      : Nat := 0
  keep     : Nat := 0
  parts    : List (Nat × Nat) := []
  data     : Mem := []
  deriving DecidableEq, Repr

/-- The images in the catch store that a cold keep reads back (R58, R65, R171), and the two checkpoint slots (R306),
`none` where no write to a slot has been completed. -/
structure CatchImages where
  ten    : Half := 0
  trip   : Half := 0
  causes : Tab Nat := []
  refs   : Tab Nat := []
  masks  : Tab Bool := []
  stuck  : Tab Bool := []
  chat   : Tab Bool := []
  open_  : Tab Bool := []
  short  : Tab Bool := []
  ckpt   : List (Option Ckpt) := [none, none]
  deriving DecidableEq, Repr

/-! ## Power and clocks (chapter 02) -/

/-- What a switched domain does. For BIND and FIELD, `reset` is powered and held in reset, `on` is out of
reset. For STORE, `powering` ends at STORE_READY. -/
inductive Dom where
  | off
  | powering
  | reset
  | on
  deriving DecidableEq, Repr

/-- The states of a quire half (R274). -/
inductive HalfState where
  | off
  | powering
  | idle
  | running
  deriving DecidableEq, Repr

/-- The power sequencer, clock monitor and reset state (R42 to R56, R375). `xinAt` is when XIN was lost, `backAt` the PWM
period boundary at which FCLK switches back to its PLL. -/
structure Power where
  rails     : Bool := false
  bind      : Dom := .off
  field     : Dom := .off
  store     : Dom := .off
  halfA     : HalfState := .off
  halfB     : HalfState := .off
  halfWait  : Option Nat := none
  resetSrc  : BitVec 4 := 1
  releaseAt : Option Nat := none
  fieldAt   : Option Nat := none
  xin       : Bool := true
  fclkPll   : Bool := true
  xinAt     : Nat := 0
  backAt    : Option Nat := none
  hotSince  : Option Nat := none
  hotPeak   : Int := 0
  straps    : Straps := {}
  deriving DecidableEq, Repr

/-- OTP (R68, R76, R65): key slots, anti-rollback counter, serial, MAC base, the defaults of the kettle routing,
the hardware table and the valves, and the factory offsets and scales of the front end by 8 × channel + gain with
the mid-scales of the SAR channels (R190, R194). A blank default is `none`. -/
structure Otp where
  slotValid   : BitVec 4 := 1
  slotRevoked : BitVec 4 := 0
  rollback    : Nat := 0
  keyHash     : Tab (BitVec 384) := []
  serial      : DWord := 0
  mac         : Nat := 0
  tagMfr      : Byte := 0
  jtagOpen    : Bool := false
  route       : Option Bytes := none
  hwTable     : Option Bytes := none
  valves      : Tab Nat := []
  afeOff      : Tab Int := []
  afeScale    : Tab Nat := []
  sarMid      : Tab Nat := []
  deriving DecidableEq, Repr

/-- The keep tables in the catch store (R2's non-volatile settings): role (R15), keys (R104), budget
(R80, R164), stagger (R159), wake mask (R109), actuator epoch (R248), partner (R116), published mark (R390),
keeper table (R66), credentials (R89), SPINE_CONFIG (R136) and SPILL_CONFIG (R290) values, and
the front end's records: channel records by channel, calibration records by 256 × channel + gain, currents by IEXC
source (R197); the CAN_CONFIG body and memory table of each channel and the ACTUATOR_CONFIG body of each address
(R251); the last point dispatched to each actuator, as catchword, POINT, FLAGS and VALUE (R249); the failed quires
(R299), CKPT_CYCLES (R308) and the adopted region set (R311). -/
structure KeepTables where
  role          : Option Bool := none
  key0          : Option Digest := none
  key1          : Option Digest := none
  budget        : Option Nat := none
  rowBudget     : Nat := 0
  stagger       : Nat := 2000
  wakeMask      : Option Half := none
  actEpoch      : Nat := 0
  partner       : Option DWord := none
  partnerMaster : Bool := false
  published     : Nat := 0
  keeperTable   : Option Bytes := none
  clientKeys    : Tab (BitVec 384) := []
  chain         : Option Digest := none
  tlsKey        : Option Nat := none
  proofHours    : Nat := 24
  diverge       : Nat := 3
  spill         : Option Bytes := none
  afeRec        : Tab Bytes := []
  afeCal        : Tab Bytes := []
  iexc          : Tab Nat := []
  canCfg        : Tab (Bytes × Bytes) := []
  actCfg        : Tab Bytes := []
  lastPt        : Tab (DWord × Nat × Nat × Int) := []
  failed        : Nat := 0
  ckCycles      : Nat := 1000
  regions       : Option Bytes := none
  deriving DecidableEq, Repr

/-! ## Boot ROM (chapter 03) -/

/-- Boot ROM states (Table 03-3). -/
inductive BootState where
  | wait
  | loading
  | checking
  | starting
  | running
  | failed
  | halt
  deriving DecidableEq, Repr

/-- The boot ROM (R67 to R78): the boot page registers and the attempt in progress. `list` is the scatter list as read,
`colophon` what has arrived of the colophon, `prog` the Binder program memory, which takes the payload from address 0 on,
and `image` the colophon of the image that was started from it. -/
structure Boot where
  state     : BootState := .wait
  source    : BitVec 2 := 0
  lastError : Byte := 0
  fails     : Nat := 0
  failedAt  : Option Nat := none
  listLo    : Word := 0
  listHi    : Word := 0
  listCount : BitVec 11 := 0
  progress  : Nat := 0
  total     : Nat := 0
  list      : List Scatter := []
  colophon  : Bytes := []
  prog      : Mem := []
  image     : Option Bytes := none
  net       : Bool := false
  netAt     : Option Nat := none
  port      : Nat := 0
  server    : Nat := 0
  window    : Nat := 0
  got       : List Nat := []
  reqAt     : Option Nat := none
  timeouts  : Nat := 0
  solicitAt : Option Nat := none
  watchdog  : Option Nat := none
  checkAt   : Nat := 0
  deriving DecidableEq, Repr

/-! ## Mailboxes and records (chapter 04) -/

/-- A command record as copied out of a mailbox (Table 04-5). -/
structure Rec where
  op      : Half := 0
  flags   : Half := 0
  len     : Nat := 0
  cw      : DWord := 0
  authref : DWord := 0
  rsvd    : DWord := 0
  body    : Bytes := []
  token   : Bytes := []
  deriving DecidableEq, Repr

/-- A response record (Table 04-6). `folios` are the folios of a LOG_READ result, which follow `data`. -/
structure Resp where
  status  : Byte := 0
  final   : Bool := true
  pending : Bool := false
  op      : Half := 0
  cw      : DWord := 0
  ref     : Nat := 0
  detail  : Nat := 0
  result  : Word := 0
  data    : Bytes := []
  folios  : List Folio := []
  deriving DecidableEq, Repr

/-- A mailbox: the request window, the control registers of Table 04-2, the response window with the bytes of its ring
(R86), and the responses that wait for room (R85). -/
structure Mailbox where
  window  : Mem := []
  busy    : Bool := false
  pi      : Nat := 0
  ci      : Nat := 0
  dbLost  : Bool := false
  ciBad   : Bool := false
  wrLost  : Bool := false
  rsp     : Mem := []
  waiting : List Resp := []
  conn    : Bool := false
  deriving DecidableEq, Repr

/-- A nonce issued to a source (R104). -/
structure Nonce where
  src   : Half := 0
  val   : DWord := 0
  stop  : Nat := 0
  spent : Bool := false
  deriving DecidableEq, Repr

/-- A copy that waits for its TENTATIVE original (R98 step 4). -/
structure DupWait where
  jseq : Nat := 0
  mbx  : Nat := 0
  jok  : Bool := true
  record : Rec := {}
  deriving DecidableEq, Repr

/-- The journal and the authorisation state (R98 to R106). `entries` are the entries not FREE, in JSEQ
order, `sentAt` when the mirror that an entry waits for was sent. -/
structure Journal where
  entries : List JEntry := []
  jseq    : Nat := 0
  high    : Tab HighMark := []
  nonces  : List Nonce := []
  denied  : List (Nat × Nat) := []
  lockout : Tab Nat := []
  fails   : Nat := 0
  fault   : Bool := false
  dups    : List DupWait := []
  resetAt : Option Nat := none
  sentAt  : Tab Nat := []
  deriving DecidableEq, Repr

/-- A staged object (R93, R96): the ranges held, the bytes, and where they lie. -/
structure Obj where
  digest : Digest := 0
  total  : Nat := 0
  have_  : List (Nat × Nat) := []
  bytes  : Mem := []
  store  : Bool := false
  ready  : Bool := false
  deriving DecidableEq, Repr

/-- A scatter-list stage whose DMA reads are in progress (R96). -/
structure StageDma where
  mbx    : Nat := 0
  op     : Half := 0
  cw     : DWord := 0
  digest : Digest := 0
  total  : Nat := 0
  offset : Nat := 0
  addr   : Nat := 0
  count  : Nat := 0
  deriving DecidableEq, Repr

/-- Staging (R93). -/
structure Staging where
  objs : List Obj := []
  dma  : List StageDma := []
  deriving DecidableEq, Repr

/-! ## Performance counters (chapter 15) -/

/-- The counters (R363), the dump registers (Table 15-8) and the dump engine. `was` says of each counter whether its
event's condition was true when time last passed (R364). -/
structure Counters where
  val     : Tab Nat := []
  ovf     : Tab Bool := []
  cfg     : Tab Word := []
  gen     : Nat := 0
  base    : DWord := 0
  slots   : Nat := 0
  period  : Nat := 0
  en      : Bool := false
  irq     : Nat := 0
  pi      : Nat := 0
  ci      : Nat := 0
  skipped : Nat := 0
  dseq    : Nat := 0
  since   : Nat := 0
  records : Nat := 0
  latch   : Nat := 0
  nextAt  : Nat := 0
  bindAt  : Nat := 0
  was     : Tab Bool := []
  deriving DecidableEq, Repr

/-! ## Spine (chapter 05) -/

/-- A lane (R111, Table 05-10 PORTS): 0 east, 1 west, 2 and 3 the pair lanes. `downAt` is when it went down, `echo` whether
an ECHO exchange has succeeded since, `echoAt` when the last one was begun. -/
structure Lane where
  up     : Bool := false
  sent   : Nat := 0
  recvd  : Nat := 0
  crc    : Nat := 0
  downs  : Nat := 0
  delay  : Nat := 0
  crcAt  : List Nat := []
  downAt : Nat := 0
  echo   : Bool := false
  echoAt : Nat := 0
  deriving DecidableEq, Repr

/-- A census entry (R116): what a FORM frame said, when, and what this node records with it. -/
structure Census where
  entry : FormEntry := {}
  at_   : Nat := 0
  trips : Half := 0
  arc   : Nat := 0
  deriving DecidableEq, Repr

/-- How far the insertion of Table 05-4 has come. -/
inductive Insert where
  | out
  | east
  | west
  | in_
  deriving DecidableEq, Repr

/-- A RELAY fragment sent and not yet acknowledged (R123). -/
structure RelayTx where
  fseq : Nat := 0
  dst  : Nat := 0
  pair : Bool := false
  at_  : Nat := 0
  last : Bool := true
  data : Bytes := []
  deriving DecidableEq, Repr

/-- The Spine node (R111 to R125). Row time is `now × 1000 + rowOff` ns. `fseq` and `pseq` are the FSEQ last sent on the
Spine and on the pair link, `seen` the FSEQ received lately by 256 × link + SRC, `relayRx`, `relayBuf` and `relayAck`
the fragments in order by the same key, `asked` the catchwords of the commands this board has sent over RELAY. The census is
kept by serial; `timeFrom` is the start of the run of TIME frames without a gap, `cuts` the ports reported down, `away` the
serials that have fallen silent while a cut was recorded. -/
structure Spine where
  lanes     : Tab Lane := []
  insert    : Insert := .out
  insertAt  : Option Nat := none
  retryAt   : Option Nat := none
  retries   : Nat := 0
  lref      : Bool := true
  census    : Tab Census := []
  changedAt : Nat := 0
  settled   : Bool := false
  formed    : Bool := false
  gen       : Nat := 0
  cause     : Nat := 0
  firstTick : Option Nat := none
  rowOff    : Int := 0
  master    : Option Nat := none
  timeAt    : Nat := 0
  timeFrom  : Option Nat := none
  timeHops  : Nat := 256
  offArc    : Bool := false
  rejoin    : Bool := false
  cuts      : List (Nat × Bool) := []
  away      : List DWord := []
  fseq      : Nat := 0
  pseq      : Nat := 0
  seen      : Tab (List Nat) := []
  formAt    : Nat := 0
  timeSent  : Nat := 0
  tripAt    : Nat := 0
  tripSent  : Half := 0
  relayTx   : List RelayTx := []
  relayRx   : Tab Nat := []
  relayBuf  : Tab Bytes := []
  relayAck  : List Nat := []
  relayAckAt : Nat := 0
  asked     : List DWord := []
  bulkLane  : Bool := false
  epochTick : Nat := 0
  shareSeq  : Nat := 0
  deriving DecidableEq, Repr

/-! ## Pair (chapter 05) -/

/-- Pair states (R127, R132). -/
inductive PairState where
  | absent
  | attached
  | detached
  | syncing
  | lone
  deriving DecidableEq, Repr

/-- What this board's firmware does (Table 05-6 STATE). -/
inductive BoardState where
  | running
  | lone
  | taking
  | stoodDown
  deriving DecidableEq, Repr

/-- The pair (R126 to R138). `lead` is whether this board is acting Lead; `hb` the partner's latest heartbeat at
`heardAt`, `echoAt` when its ECHO last changed, `partTest` since when it shows SELF_TEST_OK; `silent` the next tray of
the release of R131, from `silentAt` on; `switch` is 1 from a SWITCH_BACK's effect and 2 from its hand-over, `switchSeq`
its entry; `syncSeq` the PAIR_SYNC that streams and `syncLast` its last frame; `askSeq` the last sequence this board
used as source 4; `compares`, `misses` and `run` count model comparisons, mismatches and consecutive ones, with
`myDigest` and `leadDig` the digests of the latest tick; `failedT` the self-tests that have failed; `partFrz` the
partner's freeze; `tenWait` the TEN image that waits until `ackWait` for its acknowledgement; `partCapdn` the CAPDN lines as
the acting Lead last told them, and `roleAt` since when a board that records no role waits to learn it (R15). -/
structure Pair where
  lead      : Bool := false
  state     : PairState := .absent
  board     : BoardState := .running
  hseq      : Nat := 0
  hbAt      : Nat := 0
  heardAt   : Nat := 0
  heard     : Bool := false
  hb        : Heartbeat := {}
  echoAt    : Nat := 0
  synced    : Bool := false
  selfTest  : Bool := false
  testAt    : Nat := 0
  fault     : Bool := false
  mismatch  : Bool := false
  loneAt    : Option Nat := none
  silent    : Option Nat := none
  silentAt  : Nat := 0
  burst     : Nat := 0
  burstAt   : Nat := 0
  switch    : Nat := 0
  switchSeq : Nat := 0
  syncSeq   : Nat := 0
  syncLast  : Nat := 0
  askSeq    : Nat := 0
  partTest  : Option Nat := none
  jAt       : Nat := 0
  compares  : Nat := 0
  misses    : Nat := 0
  run       : Nat := 0
  myDigest  : Digest := 0
  leadDig   : Option Digest := none
  proofAt   : Nat := 0
  proofTime : Nat := 0
  proofRes  : Nat := 0
  jcheck    : Nat := 0
  failedT   : List Nat := []
  partFrz   : Option Nat := none
  ackWait   : Option Nat := none
  tenWait   : Option Half := none
  words     : List Word := []
  partCapdn : Option Half := none
  roleAt    : Nat := 0
  deriving DecidableEq, Repr

/-! ## Leave unit (chapter 06) -/

/-- A tray's target state and power supervision (R139, R144, R154). ENABLED is its bit of the TEN image. `drawCw` and
`drawAt` are the catchword and the grant time of the start whose draw the tray is (R153). -/
structure Tray where
  permit    : Bool := false
  rm        : Nat := 0xFFFF
  holdRef   : DWord := 0
  holdEnd   : Nat := 0
  holdSeq   : Nat := 0
  host      : Nat := 0xFFFF
  overs     : Nat := 0
  stopSeqs  : List Nat := []
  stopAt    : Option Nat := none
  stopMode  : Nat := 0
  startSeq  : Nat := 0
  startAt   : Option Nat := none
  watts     : Nat := 0
  drawCw    : DWord := 0
  drawAt    : Nat := 0
  deriving DecidableEq, Repr

/-- An entry of the stagger queue (R157): a start of the journal entry `jseq`, or a resume. -/
structure Stagger where
  tray  : Nat := 0
  start : Bool := false
  jseq  : Nat := 0
  deriving DecidableEq, Repr

/-- An operation that takes internal leave and waits for its defer time (R160, Table 06-10). -/
structure LeaveWait where
  id    : Nat := 0
  kind  : Nat := 0
  owner : Nat := 0
  watts : Nat := 0
  ms    : Nat := 0
  at_   : Nat := 0
  deriving DecidableEq, Repr

/-- The leave unit (R139 to R164). `table` is the current leave table, `everTable` whether one has been
current (R81), `slotTray` the tray whose TEN assertion the next slot waits for, `tickRes` and `staleTrays` the
trays held by overdraw and by HOLD_STALE (Table 06-9). `demands` and `shares` are the broker's: a position's latest DEMAND
with its time, and the share last sent with the time of the latest rise. `shareWait` are the ROW_SHARE_SETs that wait for
their TICK: entry, share and tick. -/
structure Leave where
  trays     : Tab Tray := []
  table     : Option Bytes := none
  everTable : Bool := false
  tableAt   : Nat := 0
  stale     : Bool := false
  pendRep   : Bool := false
  unsetRep  : Bool := false
  overRep   : Bool := false
  leases    : List Lease := []
  falling   : List Lease := []
  nextId    : Nat := 1
  high      : Tab Nat := []
  queue     : List Stagger := []
  slotAt    : Option Nat := none
  deferAt   : Option Nat := none
  tickRes   : List Nat := []
  slotTray  : Option Nat := none
  staleTrays : Half := 0
  waits     : List LeaveWait := []
  share     : Option Nat := none
  fallback  : Bool := false
  waiting   : Nat := 0
  demands   : Tab (Nat × Demand) := []
  shares    : Tab (Nat × Nat) := []
  shareWait : List (Nat × Nat × Nat) := []
  deriving DecidableEq, Repr

/-! ## Outputs -/

/-- A Spine or pair-link frame's payload as sent (Table 05-3). -/
inductive Payload where
  | form (e : FormEntry)
  | formed (gen : Nat) (digest : Word) (firstTick : Nat)
  | time (p : TimePayload)
  | heartbeat (h : Heartbeat)
  | trip (trips : Half) (leaks : Word) (folio : Nat)
  | break_ (addr : Nat) (west : Bool)
  | echo
  | boundary (part tick elem : Nat) (vals : List Word)
  | demand (d : Demand)
  | relay (last : Bool) (data : Bytes)
  | relayAck (fseq : Nat)
  | mirror (e : JEntry)
  | mirrorAck (jseq : Nat)
  | lease (m : LeaseMsg)
  | snapshot (words : List Word) (digest : Digest)
  | bulk (m : BulkMsg)
  deriving DecidableEq, Repr

/-- What leaves the block as a message. Levels of balls are views of State (Machine/Outputs.lean). -/
inductive Output where
  /-- An MSI-X message of a vector (Table 04-13). -/
  | msix (v : Nat)
  /-- A PME message (R109, R110). -/
  | pme
  /-- An entry written to the event ring at an index, which is the host address `addr` (R107). -/
  | event (i addr : Nat) (e : EvEntry)
  /-- A response record written to the ring of a mailbox at a slot. -/
  | ring (m slot : Nat) (r : Resp)
  /-- A PAD record over slots of a ring (R86). -/
  | pad (m slot n : Nat)
  /-- A response delivered by a transport (R87). -/
  | deliver (m : Nat) (r : Resp)
  /-- A response framed on the technician UART (R87). -/
  | serial (frame : Bytes)
  /-- A payload sent on the pair link or the Spine: SRC, DST, GEN, the FSEQ of its first frame, and the payload. The bytes
  of each of its frames are `frameBytes` of these (R112). -/
  | frame (pair : Bool) (src dst gen fseq : Nat) (p : Payload)
  /-- An ECHO frame sent on a lane (R120). -/
  | echo (lane fseq : Nat)
  /-- A Spine frame forwarded on a lane (R114), with the HOPS and CORR it leaves with. -/
  | forward (lane : Nat) (f : FrameHdr) (p : Payload)
  /-- A text line of a boot state change on the technician UART (Table 03-1). -/
  | uart (code : Nat)
  /-- A netboot frame: port, source and destination MAC, and the payload of R71. -/
  | netboot (port src dst : Nat) (frame : Bytes)
  /-- A DMA read of host memory: address and length (R69, R96). -/
  | dmaRead (addr len : Nat)
  /-- A dump record (Table 15-9) written to a slot, which is the host address `addr` (R370). -/
  | dump (slot addr : Nat) (data : Bytes)
  /-- A private write to a dynamic address of an I3C bus (R329). -/
  | i3c (bus addr : Nat) (data : Bytes)
  /-- SETDASA: the target with a static address receives a dynamic one (R328). -/
  | setdasa (bus static dynamic : Nat)
  /-- RSTDAA on an I3C bus (R332). -/
  | rstdaa (bus : Nat)
  /-- Erase and programming of a tray's flash from an offset on (R342 step 4). -/
  | flash (tray off : Nat) (data : Bytes)
  /-- A CAN frame offered and sent on a channel. -/
  | can (ch : Nat) (f : CanFrame)
  /-- A JTAG TAP reset (R61). -/
  | jtag
  /-- An answer of the endpaper tag over RF (R346): error code 0 for none, and data. -/
  | rf (err : Nat) (data : Bytes)
  /-- A TLS handshake refused, or a connection closed, on a port (R88, R89). -/
  | tls (port : Nat) (opened : Bool)
  deriving DecidableEq, Repr

end Sys2Proof.Machine
end

