-- ==== Sys2Proof/Machine/Images.lean ====
section
/-! DEFINITION. Machine/Images.lean: the bytes, as they lie in memory or travel on a transport, of responses
(Table 04-6), PAD records (R86), event ring entries (R107), folios (Tables 15-1 and 15-2), dump records (Table 15-9), the
frames of the technician UART (R87), journal entries (Table 04-10) and the frames of the Spine and the pair link (Table
05-2). Every multi-byte field is little-endian (R5). -/

namespace Sys2Proof.Machine

/-- A fault report's 32 bytes (Table 12-4), from its fields in the table's order. -/
def faultBytes (d : List Nat) : Bytes :=
  ((d.take 4).flatMap (leBytes 1)) ++ leBytes 4 (d.getD 4 0) ++ leBytes 4 (d.getD 5 0) ++ zeros 4 ++ leBytes 8 (d.getD 6 0) ++
  leBytes 4 (d.getD 7 0) ++ leBytes 1 (d.getD 8 0) ++ leBytes 1 (d.getD 9 0) ++ zeros 2
/-- The 32 bytes of DATA of an event or a folio. QUIRE_FAULT's are the fault report (R292), and DIE_OVERTEMP's are given by
R375. The other tables name the fields and give no widths, so their places are a free value (log 126). -/
def dataBytes (code : Half) (data : List Nat) : Bytes :=
  if code == 0x0C01 then faultBytes data
  else if code == 0x1000 then leBytes 2 (data.getD 0 0) ++ zeros 2 ++ leBytes 4 (data.getD 1 0) ++ zeros 24
  else sub (Config.dataImage code.toNat data) 0 32

/-- A track block of a summary folio (R354): TRACK, FLAGS, MIN, MAX, MAX_AT, LO, STEP and the bins. -/
def trackBytes (w : List Int) : Bytes :=
  leBytes 1 (ofSigned 8 (w.getD 0 0)) ++ leBytes 1 (ofSigned 8 (w.getD 1 0)) ++ zeros 2 ++
  ((List.range 21).map fun i => leBytes 4 (ofSigned 32 (w.getD (2 + i) 0))).flatten
/-- BODY of a folio (Table 15-2). -/
def folioBody (f : Folio) : Bytes :=
  match f.ty with
  | 1 => leBytes 4 (f.data.getD 0 0) ++ leBytes 4 (f.data.getD 1 0) ++ zeros 4 ++ trackBytes f.words ++ trackBytes (f.words.drop 23)
  | 2 => leBytes 1 (f.data.getD 0 0) ++ zeros 7 ++ leBytes 8 (f.data.getD 1 0) ++
      ((List.range 8).map fun i => leBytes 4 (f.data.getD (2 + i) 0)).flatten ++ zeros 140
  | _ => dataBytes f.code f.data ++ zeros 156
/-- A folio's 256 bytes (Table 15-1). -/
def folioBytes (f : Folio) : Bytes :=
  let b := leBytes 8 f.fseq ++ leBytes 1 f.ty ++ leBytes 1 f.sev ++
    leBytes 2 (f.coarse.toNat + 2 * f.keeper.toNat + 4 * f.held.toNat) ++ leBytes 2 f.code.toNat ++
    leBytes 1 (f.pos.toNat + 16 * f.brd.toNat + 32 * f.lead.toNat) ++ zeros 1 ++ leBytes 8 f.time ++ leBytes 4 f.hour ++
    leBytes 4 f.pcycle ++ leBytes 8 f.row ++ leBytes 8 f.cw.toNat ++ leBytes 8 f.ref ++ zeros 8 ++ folioBody f
  b ++ leBytes 4 (crc32c b)

/-- LENGTH of a response record (Table 04-6). -/
def respLen (r : Resp) : Nat := 32 + r.data.length + 256 * r.folios.length
/-- The slots a response occupies (R86). -/
def respSlots (r : Resp) : Nat := (respLen r + 127) / 128
/-- A response header of some LENGTH (Table 04-6). -/
def respHeader (r : Resp) (len : Nat) : Bytes :=
  leBytes 1 r.status.toNat ++ leBytes 1 (r.final.toNat + 2 * r.pending.toNat) ++ leBytes 2 r.op.toNat ++ leBytes 4 len ++
  leBytes 8 r.cw.toNat ++ leBytes 8 r.ref ++ leBytes 4 r.detail ++ leBytes 4 r.result.toNat
/-- A response record's bytes (R91). -/
def respBytes (r : Resp) : Bytes := respHeader r (respLen r) ++ r.data ++ (r.folios.map folioBytes).flatten
/-- A PAD record over `n` slots (R86): STATUS 0xFF, and a LENGTH that covers them. -/
def padBytes (n : Nat) : Bytes := respHeader { status := 0xFF, final := false } (128 * n)

/-- An event ring entry's 64 bytes (R107). -/
def evBytes (e : EvEntry) : Bytes :=
  leBytes 2 e.code.toNat ++ leBytes 1 e.sev ++ leBytes 1 (e.phase.toNat + 2 * e.wake.toNat + 4 * e.keeper.toNat) ++
  leBytes 4 e.eseq ++ leBytes 8 e.time ++ leBytes 8 e.cw.toNat ++ leBytes 8 e.ref ++ dataBytes e.code e.data

/-- A mask of bits as a number. -/
def ovfMask (bs : List Bool) : Nat := bs.foldr (fun b n => b.toNat + 2 * n) 0
/-- A dump record's 640 bytes (Table 15-9). -/
def dumpBytes (dseq time row bclk gen skipped : Nat) (ovf : List Bool) (vals : List Nat) : Bytes :=
  leBytes 8 dseq ++ leBytes 8 time ++ leBytes 8 row ++ leBytes 8 bclk ++ leBytes 4 gen ++ leBytes 12 (ovfMask ovf) ++
  leBytes 4 skipped ++ zeros 12 ++ (vals.map (leBytes 6)).flatten

/-- A byte within a frame of RFC 1055 (log 139). -/
def slipByte (b : Byte) : Bytes := if b == 0xC0 then [0xDB, 0xDC] else if b == 0xDB then [0xDB, 0xDD] else [b]
/-- A record on the technician UART (Table 04-3): framed as RFC 1055 says, with CRC-32C appended. -/
def slipFrame (bs : Bytes) : Bytes := (bs ++ leBytes 4 (crc32c bs)).flatMap slipByte ++ [0xC0]

/-- A private write of a control to a tray agent (R329, Table 14-3). -/
def controlBytes (op arg cseq : Nat) : Bytes :=
  let b := leBytes 1 op ++ leBytes 1 arg ++ zeros 2 ++ leBytes 4 cseq
  [0x02] ++ b ++ leBytes 4 (crc32c b)
/-- A private write of a response to a tray agent (R329). -/
def answerBytes (r : Resp) : Bytes := [0x01] ++ respBytes r ++ leBytes 4 (crc32c (respBytes r))

/-- A journal entry's bytes (Table 04-10). -/
def jentryBytes (e : JEntry) : Bytes :=
  let st := match e.state with | .tentative => 1 | .pending => 2 | .waitObject => 3 | .done => 4
  let b := leBytes 2 e.op.toNat ++ leBytes 2 e.flags.toNat ++ leBytes 4 e.len.toNat ++ leBytes 8 e.cw.toNat ++
    leBytes 8 e.authref.toNat ++ zeros 8 ++ leBytes 8 e.jseq ++ leBytes 1 st ++ leBytes 1 e.mbx ++
    leBytes 2 e.replays.toNat ++ leBytes 4 e.actEpoch.toNat ++ leBytes 8 e.acceptTime ++ leBytes 8 e.doneTime ++
    leBytes 4 e.result.toNat ++ leBytes 2 e.rdata.length ++ zeros 2 ++ sub e.rdata 0 24 ++ sub e.body 0 120 ++
    leBytes 32 e.digest.toNat ++ zeros 4
  b ++ leBytes 4 (crc32c b)

/-! ## Spine and pair-link frames (R112, Tables 05-2 and 05-3) -/

/-- A frame's TYPE (Table 05-3). -/
def Payload.type : Payload → Nat
  | .form _ => 0x01
  | .formed .. => 0x02
  | .time _ => 0x03
  | .heartbeat _ => 0x04
  | .trip .. => 0x05
  | .break_ .. => 0x06
  | .echo => 0x07
  | .boundary .. => 0x08
  | .demand _ => 0x09
  | .relay .. => 0x0A
  | .relayAck _ => 0x0B
  | .mirror _ => 0x10
  | .mirrorAck _ => 0x11
  | .lease _ => 0x12
  | .snapshot .. => 0x13
  | .bulk _ => 0x14
/-- The class of a frame (Table 05-3): urgent, else bulk. -/
def Payload.urgent : Payload → Bool
  | .form _ | .boundary .. | .demand _ | .relay .. | .snapshot .. | .bulk _ => false
  | _ => true
/-- A HEARTBEAT payload (Table 05-6). -/
def heartbeatBytes (h : Heartbeat) : Bytes :=
  leBytes 8 h.serial.toNat ++ leBytes 4 h.hseq.toNat ++ leBytes 4 h.echo.toNat ++ leBytes 1 h.lead.toNat ++
  leBytes 1 h.state.toNat ++ leBytes 1 (h.fault.toNat + 2 * h.attached.toNat + 4 * h.synced.toNat + 8 * h.selfTest.toNat) ++
  zeros 1 ++ leBytes 4 h.actEpoch.toNat ++ leBytes 4 h.cfgEpoch.toNat ++ leBytes 8 h.jseq.toNat ++ leBytes 2 h.ten.toNat ++
  leBytes 2 h.trips.toNat
/-- A TIME payload (R120). -/
def timeBytes (p : TimePayload) : Bytes :=
  leBytes 8 p.rowTime.toNat ++ leBytes 4 p.corr.toNat ++ leBytes 8 p.tick.toNat ++ leBytes 8 p.epochTick.toNat ++
  leBytes 4 p.gen.toNat ++ leBytes 8 p.serial.toNat
/-- A DEMAND payload (R161). -/
def demandBytes (d : Demand) : Bytes :=
  leBytes 1 d.pos.toNat ++ zeros 3 ++ leBytes 4 d.budget ++ leBytes 4 d.fixed ++ leBytes 4 d.committed ++
  leBytes 4 d.waiting ++ leBytes 4 d.share ++ leBytes 4 d.tick.toNat
/-- What a payload carries, as bytes, over all its frames. Where the manual names the fields and gives no layout the bytes are
free (log 145). -/
def Payload.data : Payload → Bytes
  | .form e => Config.formImage e
  | .formed g d t => Config.formedImage g d t
  | .time p => timeBytes p
  | .heartbeat h => heartbeatBytes h
  | .trip t l f => leBytes 2 t.toNat ++ leBytes 4 l.toNat ++ leBytes 8 f
  | .break_ a w => leBytes 1 a ++ leBytes 1 w.toNat
  | .echo => []
  | .boundary p t e v => leBytes 2 p ++ leBytes 4 t ++ leBytes 4 e ++ zeros 2 ++ v.flatMap fun w => leBytes 4 w.toNat
  | .demand d => demandBytes d
  | .relay _ b => b
  | .relayAck f => leBytes 4 f
  | .mirror e => jentryBytes e
  | .mirrorAck j => leBytes 8 (j % ownSeq)
  | .lease m => Config.leaseImage m
  | .snapshot w d => (w.flatMap fun x => leBytes 4 x.toNat) ++ leBytes 32 d.toNat
  | .bulk m => Config.bulkImage m
/-- How many frames of 48 payload bytes a payload takes: a mirrored entry six, a snapshot of 112 words and a digest ten. -/
def Payload.frames : Payload → Nat
  | .mirror _ => 6
  | .snapshot .. => 10
  | .bulk m => max 1 (((Config.bulkImage m).length + 47) / 48)
  | _ => 1
/-- FLAGS of the `i`-th of a payload's frames: URGENT, and LAST on the final fragment of a record. -/
def Payload.flags (p : Payload) (i : Nat) : Nat :=
  p.urgent.toNat + 2 * (match p with | .relay last _ => last | _ => i + 1 == p.frames).toNat
/-- The 64 bytes of the `i`-th frame of a payload (Table 05-2). -/
def frameBytes (src dst hops gen fseq : Nat) (p : Payload) (i : Nat) : Bytes :=
  let d := (p.data.drop (48 * i)).take 48
  let b := leBytes 1 p.type ++ leBytes 1 (p.flags i) ++ leBytes 1 src ++ leBytes 1 dst ++ leBytes 1 hops ++ leBytes 1 gen ++
    leBytes 2 d.length ++ leBytes 4 (fseq + i) ++ d ++ zeros (48 - d.length)
  b ++ leBytes 4 (crc32c b)

end Sys2Proof.Machine
end

