-- ==== Sys2Proof/Machine/Parts2.lean ====
section
/-! DEFINITION. Machine/Parts2.lean: the parts of State of chapters 07 and 14: the kettle path, and tray
stewardship with the endpaper tag. Each field's default is its value at reset. -/

namespace Sys2Proof.Machine

/-! ## Kettle path (chapter 07) -/

/-- A source of the trip matrix, LK0 to LK31 and TCH_IN as 32 (R166, R177). `since` is when it became
active, `clear` when it began to read clear, `trans` the times of its latest transitions, newest first, `meas`
the end of a location measurement, and `hold` what the comparator came to read during it: WET and SHORT. -/
structure Leak where
  wet    : Bool := false
  short  : Bool := false
  open_  : Bool := false
  stuck  : Bool := false
  chat   : Bool := false
  masked : Bool := false
  latch  : Bool := false
  since  : Option Nat := none
  clear  : Option Nat := some 0
  trans  : List Nat := []
  loc    : Nat := 0xFFFF
  locRep : Option Nat := none
  measAt : Option Nat := none
  meas   : Option Nat := none
  hold   : Option (Bool × Bool) := none
  deriving DecidableEq, Repr

/-- A TRIP_RELEASE in its 1 s window (R180). `own` are the trays with no cause of their own that was not releasable at its
effect. -/
structure Release where
  jseq  : Nat := 0
  trays : Half := 0
  own   : Half := 0
  stop  : Nat := 0
  deriving DecidableEq, Repr

/-- A TRIP_PROOF in progress (R181): the sources still to test, those that failed, and the time of the next
test. -/
structure Proof where
  jseq : Nat := 0
  left : List Nat := []
  fail : List Nat := []
  next : Nat := 0
  deriving DecidableEq, Repr

/-- A route record accepted and waiting for the epoch change (R169). -/
structure RouteWait where
  jseq : Nat := 0
  otp  : Bool := false
  rec_ : Bytes := []
  deriving DecidableEq, Repr

/-- The kettle path (R165 to R182). `route` is the record in the keep latches, `none` standing for the
Orzal default (R167). Cause bit 33 of a tray is FOREIGN; `refs` gives, at 64 × tray + cause, the folio of
the cause. -/
structure Kettle where
  route    : Option Bytes := none
  waits    : List RouteWait := []
  src      : Tab Leak := []
  trip     : Half := 0
  causes   : Tab Nat := []
  refs     : Tab Nat := []
  foreignHi: Tab Bool := []
  imageDue : Option Nat := none
  release  : List Release := []
  proof    : List Proof := []
  deriving DecidableEq, Repr

/-! ## Tray stewardship (chapter 14) -/

/-- Agent link states (Table 14-4). -/
inductive LinkSt where
  | absent
  | up
  | silent
  | lost
  deriving DecidableEq, Repr

/-- A tray agent's link (R329 to R332). -/
structure Agent where
  link    : LinkSt := .absent
  tryAt   : Nat := 0
  pollAt  : Nat := 0
  seq     : Option Half := none
  lastAt  : Nat := 0
  from_   : Nat := 0
  state   : Nat := 0
  links   : Byte := 0
  cseq    : Nat := 0
  role    : Option Bool := none
  answers : List Resp := []
  capdnBy : Bool := false
  deriving DecidableEq, Repr

/-- An inventory record (Table 14-6). `base` seconds had passed with TEN high when the present high began
at `from_`. -/
structure Inv where
  desc     : Option Bytes := none
  pend     : Option Bytes := none
  adopt    : Option Bytes := none
  base     : Nat := 0
  accBase  : List Nat := [0, 0, 0, 0, 0, 0, 0, 0]
  from_    : Option Nat := none
  trips    : Nat := 0
  rebinds  : Nat := 0
  lastTime : Nat := 0
  lastSlot : Nat := 0
  held     : Bool := false
  imgVer   : Nat := 0
  adoptAt  : Nat := 0
  deriving DecidableEq, Repr

/-- Golden slot states (Table 14-8). -/
inductive SlotSt where
  | empty
  | valid
  | bad
  | writing
  deriving DecidableEq, Repr

/-- A golden slot: its state, its 128 B header, its payload and the store that writes it. -/
structure Golden where
  state   : SlotSt := .empty
  header  : Bytes := []
  payload : Bytes := []
  jseq    : Nat := 0
  scrub   : Nat := 0
  deriving DecidableEq, Repr

/-- The steps of a rebinding (R342). -/
inductive RStep where
  | verify
  | leave
  | begin_
  | program
  | readback
  | end_
  deriving DecidableEq, Repr

/-- A rebinding in the queue. `prior` says that REBIND_HELD was already set when it took effect. -/
structure Rebind where
  jseq : Nat := 0
  tray : Nat := 0
  slot : Nat := 0
  prior : Bool := false
  deriving DecidableEq, Repr

/-- The running rebinding (R342). -/
structure Running where
  job   : Rebind := {}
  step  : RStep := .verify
  bound : Option Nat := none
  until_ : Option Nat := none
  tries : Nat := 0
  lease : Nat := 0
  deriving DecidableEq, Repr

/-- A wired page write of the endpaper tag (R347, R349). -/
structure TagWrite where
  page  : Nat := 0
  bytes : Bytes := []
  lock  : Bool := false
  jseq  : Nat := 0
  stop  : Nat := 0
  retry : Nat := 0
  busy  : Bool := false
  deriving DecidableEq, Repr

/-- RF tag states (ISO/IEC 15693-3). -/
inductive TagState where
  | ready
  | quiet
  | selected
  deriving DecidableEq, Repr

/-- The endpaper tag (R345 to R349). -/
structure Tag where
  mem    : Mem := []
  lock   : Word := 0
  counts : Tab Nat := []
  told   : Tab Nat := []
  gen    : Nat := 0
  state  : TagState := .ready
  write  : Option TagWrite := none
  more   : List TagWrite := []
  invDue : Bool := false
  invAt  : Nat := 0
  pollAt : Nat := 0
  deriving DecidableEq, Repr

/-- Tray stewardship (chapter 14). `tfs` is the tray whose TFS line is high. -/
structure Steward where
  agents : Tab Agent := []
  inv    : Tab Inv := []
  golden : Tab Golden := []
  queue  : List Rebind := []
  run    : Option Running := none
  tfs    : Option Nat := none
  tag    : Tag := {}
  deriving DecidableEq, Repr

end Sys2Proof.Machine
end

