-- ==== Sys2Proof/Machine/Parts3.lean ====
section
/-! DEFINITION. Machine/Parts3.lean: the parts of State of chapters 08 to 13. Each field's default is its value at reset. -/

namespace Sys2Proof.Machine

/-! ## Analog front end (chapter 08) -/

/-- A channel (R183). `live` is its channel record in force, none where it has none; `word` the latest word, `last`
the latest valid one and `cur` whether that was delivered under the present settings (R200). `settle` counts the
invalid words still to come, `faults` holds the bits of STATE [4:0] (R202), `oor` the consecutive words out of
range, `inAt` the start of the time in range, `calTo` the end of the offset calibration, `burnAt` the last burnout
test, and `nextAt` the end of the output period that runs. For a pulse channel `edges` counts the counted edges since it started; for a SAR channel `convs` counts the
conversions since FIELD reset, and `sum`, `n` and `clip` those since the last page copy. -/
structure Chan where
  live   : Option Bytes := none
  word   : Word := 0
  wordAt : Nat := 0
  last   : Word := 0
  lastAt : Nat := 0
  any    : Bool := false
  cur    : Bool := false
  settle : Nat := 0
  ovl    : Bool := false
  faults : Nat := 0
  oor    : Nat := 0
  inAt   : Option Nat := none
  calTo  : Nat := 0
  burnAt : Nat := 0
  nextAt : Nat := 0
  edges  : Nat := 0
  edgeAt : Nat := 0
  fast   : Bool := false
  convs  : Nat := 0
  sum    : Int := 0
  n      : Nat := 0
  clip   : Bool := false
  deriving DecidableEq, Repr

/-- A fault that set or cleared in keeper mode (R193). -/
structure FaultNote where
  ch   : Nat := 0
  bits : Nat := 0
  set  : Bool := false
  deriving DecidableEq, Repr

/-- An IEXC source: its current code in force, and its compliance (R186, R192). -/
structure Exc where
  code : Nat := 0
  bad  : Bool := false
  okAt : Option Nat := none
  deriving DecidableEq, Repr

/-- The analog front end. `cal` are the calibration records in force, `named` the channels of the hardware table in
use, `origin` the start of FIELD time, `refBad` and `refOkAt` the reference check, `waits` the AFE_CONFIG entries
that wait for a cycle tick, `source` the model's snapshot source (R199), `asks` the class 3 queries that wait for a
rope measurement (R202). -/
structure Afe where
  ch      : Tab Chan := []
  cal     : Tab Bytes := []
  exc     : Tab Exc := []
  named   : List Nat := []
  origin  : Nat := 0
  refBad  : Bool := false
  refOkAt : Option Nat := none
  refAt   : Nat := 0
  copyAt  : Nat := 0
  source  : Tab Word := []
  notes   : List FaultNote := []
  lost    : Nat := 0
  waits   : List Nat := []
  asks    : List (Nat × DWord × Bytes) := []
  deriving DecidableEq, Repr

/-! ## Drive engine (chapter 09) -/

/-- Pump states (Table 09-9). -/
inductive PumpSt where
  | disabled
  | stopped
  | running
  | retry
  | lockout
  | watchdog
  deriving DecidableEq, Repr

/-- A pump. `target`, `cmd` and `floor` are in 0.0001 rpm: the steady target, the ramped command and the floor. `fw`
says that firmware drives it (R220, R221), `integ` is the speed loop's integral in 10^-8 rpm·s, `iq` the current
demand in 2^-16 × 10^-8 A, `dInt` and `qInt` the current loops' integrals per PWM period, `rotor` the hall code or encoder
count with its latest change, `zero` the count at electrical angle 0, `duty` the duties of phases U, V and W in fine steps. `hz` and `dead` are PWM_HZ and
DEADTIME in force, `edgeFrom` the first PWM edge of the start, `alignTo` the end of the encoder alignment.
`stallAt`, `overAt` and `lowAt` are when STALL's, OVERSPEED's and FLOOR_LATE's conditions began to hold. -/
structure Pump where
  st       : PumpSt := .disabled
  target   : Nat := 0
  cmd      : Nat := 0
  floor    : Nat := 0
  speed    : Int := 0
  fw       : Bool := false
  integ    : Int := 0
  iq       : Int := 0
  dInt     : Int := 0
  qInt     : Int := 0
  rotor    : Nat := 0
  rotorAt  : Nat := 0
  zero     : Nat := 0
  duty     : List Nat := [0, 0, 0]
  hz       : Nat := 0
  dead     : Nat := 0
  edgeFrom : Nat := 0
  aligned  : Bool := false
  alignTo  : Option Nat := none
  cur      : List Int := [0, 0, 0]
  high     : List Nat := [0, 0, 0]
  faults   : List Nat := []
  last     : Nat := 0
  retryAt  : Option Nat := none
  stallAt  : Option Nat := none
  overAt   : Option Nat := none
  lowAt    : Option Nat := none
  late     : Bool := false
  limited  : Bool := false
  deriving DecidableEq, Repr

/-- A fan. `duty`, `target` and `floor` are in 0.0001 %. `hotAt` is when its duty reached STALL_DUTY. -/
structure Fan where
  on      : Bool := false
  duty    : Nat := 1000000
  target  : Nat := 0
  floor   : Nat := 0
  fw      : Bool := false
  hotAt   : Option Nat := none
  stalled : Bool := false
  lowAt   : Option Nat := none
  late    : Bool := false
  limited : Bool := false
  deriving DecidableEq, Repr

/-- A valve. `pos` and `target` are in 0.0001 %, `meas` in µA. `errAt` and `openAt` are when a report's condition
began to hold, or to have ended while the report stands. `dark` holds from a FIELD reset release with a blank default
until its next point: 0 V on VLPn (R205). -/
structure Valve where
  on      : Bool := false
  dark    : Bool := false
  pos     : Nat := 0
  target  : Nat := 0
  fw      : Bool := false
  meas    : Int := 0
  err     : Bool := false
  errAt   : Option Nat := none
  opn     : Bool := false
  openAt  : Option Nat := none
  limited : Bool := false
  deriving DecidableEq, Repr

/-- A live below-floor lease (R222, R223) of an element (0 to 3 pumps, 4 to 11 fans). -/
structure BelowLease where
  elem : Nat := 0
  jseq : Nat := 0
  cw   : DWord := 0
  min  : Nat := 0
  stop : Nat := 0
  deriving DecidableEq, Repr

/-- The drive engine. `table` is the keeper table in use, none under the Orzal default; `waits` the KEEPER_TABLE_SET
entries stored and not loaded; `badAt` and `failed` the control sensors' failures; `temp` the control temperature
in 0.001 °C; `beat` the last heartbeat, none while the watchdog is disarmed; `fired` that it has acted; `ends` the
end results of the last 16 leases and `lastEnd` each element's latest end. -/
structure Drive where
  table   : Option Bytes := none
  pumps   : Tab Pump := []
  fans    : Tab Fan := []
  valves  : Tab Valve := []
  level   : Nat := 0
  temp    : Option Int := none
  badAt   : Tab Nat := []
  failed  : List Nat := []
  stepAt  : Nat := 0
  waits   : List (Nat × Option Bytes × Nat) := []
  beat    : Option Nat := none
  fired   : Bool := false
  leases  : List BelowLease := []
  ends    : List (DWord × Word) := []
  lastEnd : Tab (Nat × DWord) := []
  moved   : Bool := false
  deriving DecidableEq, Repr

/-! ## CAN channels and actuators (chapter 10) -/

/-- Channel states (Table 10-4). -/
inductive ChSt where
  | disabled
  | active
  | passive
  | down
  | listen
  | sleep
  | monitor
  | reset
  deriving DecidableEq, Repr

/-- A received user frame (R253): its stamp, its object or pair number, its FIFO. -/
structure RxFrame where
  stamp : Nat := 0
  obj   : Nat := 0
  fifo  : Nat := 0
  frame : CanFrame := {}
  deriving DecidableEq, Repr

/-- A frame offered for transmission, by its object or buffer number, or by a number from 200 on for what has none:
200 the announcement, 201 the reference message, 300 + n the CONFIG of address n. -/
structure TxFrame where
  key   : Nat := 0
  frame : CanFrame := {}
  deriving DecidableEq, Repr

/-- A channel. `down` holds from bus-off until the first frame after recovery, `busOff` until recovery is complete.
`wait` is the latest recovery wait in ms, `reqAt` when recovery is to be requested, `recAt` when it was. `due` gives
each periodic entry's next time, `cycle` and `cycAt` the basic cycle's count and start, `yieldAt` the last reference
message that made the channel yield, `heard` the actuators heard in LISTEN. `passive` says that the channel is error passive,
in whatever state it shows; `txStamp` is the stamp of the latest frame sent and `refMark` that of the latest reference message
(R236, R237). -/
structure CanCh where
  st      : ChSt := .reset
  down    : Bool := false
  busOff  : Bool := false
  wait    : Nat := 0
  reqAt   : Option Nat := none
  recAt   : Option Nat := none
  lastRec : Option Nat := none
  tx      : List TxFrame := []
  rx      : List RxFrame := []
  over_   : Nat := 0
  ovf     : Nat := 0
  loop    : Nat := 0
  tdc     : Nat := 0
  due     : Tab Nat := []
  cycle   : Nat := 0
  cycAt   : Nat := 0
  yieldAt : Option Nat := none
  lisAt   : Nat := 0
  heard   : List Nat := []
  passive : Bool := false
  txStamp : Nat := 0
  refMark : Nat := 0
  deriving DecidableEq, Repr

/-- An actuator as seen by this board (R249, R253): its latest STATUS with stamp and time, SILENT, the PSEQ of the
last COMMAND at this epoch, and the ACTUATOR_CONFIG that waits for its STATUS. -/
structure Act where
  has    : Bool := false
  st     : ActStatus := {}
  stamp  : Nat := 0
  at_    : Nat := 0
  silent : Bool := false
  pseq   : Nat := 0
  wait   : Option (Nat × Nat) := none
  deriving DecidableEq, Repr

/-- The CAN controllers. `held` is the reset of R49; `base` µs of the tick's time at `baseAt` (R236), and `prev` at `prevAt` those of the tick before; `wakeOff` the
end of each wake detector's 10 ms; `annAt` the last announcement; `ans` the partner's latest CAN_STATE at `ansAt`,
`pollAt` the last poll, `pairAt` when both pair channels became DOWN. -/
structure Can where
  ch      : Tab CanCh := []
  act     : Tab Act := []
  held    : Bool := false
  base    : Nat := 0
  baseAt  : Nat := 0
  prev    : Nat := 0
  prevAt  : Nat := 0
  wakeOff : Tab Nat := []
  annAt   : Nat := 0
  ans     : Option Word := none
  ansAt   : Nat := 0
  pollAt  : Nat := 0
  pairAt  : Option Nat := none
  deriving DecidableEq, Repr

/-! ## Programs and quires (chapters 11 and 12) -/

/-- A descriptor (Table 11-3), its fields as stored. -/
structure Desc where
  op    : Byte := 0
  ty    : Byte := 0
  ctrl  : Half := 0
  rows  : Half := 0
  cols  : Half := 0
  dst   : DWord := 0
  src0  : DWord := 0
  src1  : DWord := 0
  src2  : DWord := 0
  imm   : DWord := 0
  wait  : Half := 0
  set   : Half := 0
  queue : Half := 0
  rset  : Half := 0xFFFF
  arg   : Word := 0
  deriving DecidableEq, Repr

/-- A region of a program (Table 11-9). -/
structure Region where
  base  : Nat := 0
  len   : Nat := 0
  read  : Bool := false
  write : Bool := false
  deriving DecidableEq, Repr

/-- A descriptor list, of core `4 × quire + core` (Table 11-9). -/
structure CoreList where
  core  : Nat := 0
  descs : List Desc := []
  deriving DecidableEq, Repr

/-- A queue declared (Table 11-9, R287). -/
structure QDecl where
  id   : Nat := 0
  cons : Nat := 0
  cls  : Nat := 0
  deriving DecidableEq, Repr

/-- A program container (Tables 11-8 and 11-9). `flags` are the declared flags as 256 × quire + flag, with INIT; `init`
the preload records. -/
structure Container where
  debug   : Bool := false
  quires  : Nat := 0
  lists   : List CoreList := []
  regions : List Region := []
  rsets   : List (List Nat) := []
  flags   : List (Nat × Bool) := []
  queues  : List QDecl := []
  init    : List (Nat × Bytes) := []
  deriving DecidableEq, Repr

/-- What a program of the current epoch does: it runs, it is stopped until the next epoch change (R292), it is being
restored or waits for the next tick after that (R298), or it has no eligible variant (R299). -/
inductive ProgSt where
  | ready
  | stopped
  | restoring
  | restored
  | noVariant
  deriving DecidableEq, Repr

/-- A program of the current or pending epoch: its index in the manifest and its variant in use. -/
structure Prog where
  index   : Nat := 0
  variant : Nat := 0
  c       : Container := {}
  st      : ProgSt := .ready
  deriving DecidableEq, Repr

/-- A core's state (R266). -/
inductive CoreSt where
  | halted
  | running
  | stopped
  deriving DecidableEq, Repr

/-- A core that has a list: the next descriptor, the loop counters, whether the wait of that descriptor has passed,
the entries it has moved and whether it stalls (R267), and whether it has completed a descriptor since the last tick. -/
structure Core where
  st      : CoreSt := .halted
  pc      : Nat := 0
  loops   : List Nat := [0, 0, 0, 0]
  waited  : Bool := false
  moved   : Nat := 0
  stalled : Bool := false
  did     : Bool := false
  deriving DecidableEq, Repr

/-- The quires and the store's check bits. `progs` are the programs of the current epoch, `cores` the cores with a list
by 4 × quire + core, `flags` the set flags' values by 256 × quire + flag, `queues` the entries by queue id, `poison` the
poisoned blocks, `corr` the corrections since the last report and its time by slice, `scrub` each slice's last scrub, counted
from `scrubFrom`, STORE's switch-on, where there was none, `touched` the blocks written this
cycle by program, `ends` the core that uses a queue's end this cycle by 2 × id + end (R294), `hfaults` the times of class
H faults by quire, `cap` the installed LPDDR5X in GiB, `train` the entry whose training runs, 0 for none of a command. -/
structure Quires where
  progs   : List Prog := []
  cores   : Tab Core := []
  flags   : Tab Bool := []
  queues  : Tab (List Bytes) := []
  poison  : List Nat := []
  corr    : Tab (Nat × Option Nat) := []
  scrub   : Tab Nat := []
  scrubFrom : Nat := 0
  touched : Tab (List Nat) := []
  ends    : Tab Nat := []
  hfaults : Tab (List Nat) := []
  cap     : Nat := 0
  train   : Option Nat := none
  deriving DecidableEq, Repr

/-- An epoch manifest (Table 12-1): programs as POSMASK and variants' digests, partitions as POS, first element and
count, carried regions, and worst-case values. -/
structure Manifest where
  mode    : Nat := 0
  preload : Nat := 0
  nelem   : Nat := 0
  context : Nat := 0
  inbox   : Nat := 0
  outbox  : Nat := 0
  progs   : List (Nat × List Digest) := []
  parts   : List (Nat × Nat × Nat) := []
  carry   : List (Nat × Nat) := []
  worst   : List Bytes := []
  deriving DecidableEq, Repr

/-- A configuration epoch: its entry, its number, its manifest with its digest, and the body of its command. -/
structure EpochRef where
  jseq   : Nat := 0
  num    : Nat := 0
  digest : Digest := 0
  man    : Manifest := {}
  body   : Bytes := []
  deriving DecidableEq, Repr

/-- A pending epoch (R279, R285). `ready` once its preparation has ended; `redo` says that it is reinstated by replay
(R286); `named` is the EPOCH_TICK that this board announced or heard for it. -/
structure PendEpoch where
  ref   : EpochRef := {}
  progs : List Prog := []
  ready : Bool := false
  at_   : Nat := 0
  redo  : Bool := false
  named : Option Nat := none
  deriving DecidableEq, Repr

/-- What Binder writes after the tick of a change or switch (R283): the tick, the programs, and the preload that overlaps. -/
structure PreWork where
  tick  : Nat := 0
  progs : List Nat := []
  late  : List (Nat × Bytes) := []
  deriving DecidableEq, Repr

/-- The configuration epoch (chapter 12), the cycle and the checkpoints (R306). `ticked` is whether a cycle tick has come
since BIND reset, `tick` and `tickAt` the latest one's number and time. `done` is the completion flag. `missed` counts the
consecutive ticks missing, `arrived` the elements that arrived this tick and `sent` those sent. `borrow` holds while the
board borrows (R298), `borrowed` once that was reported. `first` says that no epoch has been prepared since STORE came
on, `cold` counts the cycles still to complete (R307). `load` is the MODEL_LOAD that waits for the tick, its entry
and image, and `image` the one being applied. `later` are entries that wait for the pending epoch, `pollAt` the master's
last poll, `relayed` the positions it has sent the current epoch to, `endAt` whether this tick's 0.8 ms have passed. `ckDue` holds while a checkpoint is due, `ckRep` once its skip was reported, `copy` the checkpoint
being written. `snap` is the snapshot of the current tick. -/
structure Epoch where
  ticked   : Bool := false
  tick     : Nat := 0
  tickAt   : Nat := 0
  cur      : Option EpochRef := none
  pend     : Option PendEpoch := none
  done     : Bool := false
  pre      : Option PreWork := none
  missed   : Tab Nat := []
  arrived  : List Nat := []
  sent     : List Nat := []
  borrow   : Bool := false
  borrowed : Bool := false
  switch   : Bool := false
  load     : Option (Nat × Mem) := none
  image    : Option (Nat × Mem) := none
  later    : List Nat := []
  pollAt   : Nat := 0
  endAt    : Bool := false
  first    : Bool := true
  cold     : Nat := 0
  ckDue    : Bool := false
  ckRep    : Bool := false
  copy     : Option Ckpt := none
  snap     : Bytes := []
  relayed  : List Nat := []
  deriving DecidableEq, Repr

/-! ## Planner (chapter 13) -/

/-- Planner states (Table 13-8). -/
inductive PlnSt where
  | idle
  | rest
  | moving
  | waiting
  | holding
  | stale
  deriving DecidableEq, Repr

/-- The motion of an axis over a segment, from a state in the axis unit (R316): position, velocity and acceleration at its
start, then a jerk and the seconds it lasts for each phase; it rests after the last. -/
structure AxisMotion where
  x  : Rat := 0
  v  : Rat := 0
  a  : Rat := 0
  ph : List (Rat × Rat) := []
  deriving DecidableEq, Repr

/-- A segment: its seconds, the motion of each axis, and the state that it ends in. -/
structure Seg where
  dur  : Rat := 0
  axes : List AxisMotion := []
  ends : List Rat := []
  deriving DecidableEq, Repr

/-- A trajectory that runs (R315): its request (0 for a hold), catchword, what its points add to their number, the times of
its first and next points, the segments still to run, and when the first of them starts, in seconds after the first
point. `started` says that this segment runs, `asks` the pumps and valves whose leave it waits for (R318), as element
numbers, and `until_` the end of that wait. `hold` marks a hold path or a stop segment. -/
structure Traj where
  jseq    : Nat := 0
  cw      : DWord := 0
  base    : Nat := 0
  t0      : Nat := 0
  at_     : Nat := 0
  off     : Rat := 0
  segs    : List Seg := []
  started : Bool := true
  asks    : List Nat := []
  until_  : Option Nat := none
  hold    : Bool := false
  deriving DecidableEq, Repr

/-- A request or a re-plan that is planning (R319): the states of its waypoints, its splice time, the state from which it
was planned and the verdict. `redo` says that replay plans it (R327), `again` that a change of floor does (R317). -/
structure PlanJob where
  jseq   : Nat := 0
  cw     : DWord := 0
  base   : Nat := 0
  body   : Bytes := []
  way    : List (List Rat) := []
  splice : Nat := 0
  redo   : Bool := false
  again  : Bool := false
  start  : List (Rat × Rat × Rat) := []
  ok     : Bool := false
  deriving DecidableEq, Repr

/-- A region set that waits for adoption (R311): its entry, the object, when it took effect and the passes so far. -/
structure Adopt where
  jseq   : Nat := 0
  obj    : Bytes := []
  since  : Nat := 0
  passes : Nat := 0
  deriving DecidableEq, Repr

/-- A hold path that a pass verified (R322): its harbour, the harbour's state, and its window. -/
structure HoldPath where
  harbour : Nat := 0
  target  : List Rat := []
  from_   : Nat := 0
  to_     : Nat := 0
  deriving DecidableEq, Repr

/-- The planner (R309 to R327). `rest` is the state at rest, in axis units; `hold` the path of the latest pass, where it
verified one; `armed` as last reported; `pass` the start of the pass in progress; `harbour` the current harbour set with
`bad` its bad trees, `setAt` when one last became current, `setRep` whether its age was reported. `lag` holds while this
board's own plan is not ready (R326), `last` is the latest spliced request, towards whose target a change of floor plans
again (R317), `outcome` the acting Lead's harbour and `granted` its leave for the
segment to come. `passSet`, `passBad` and `passMem` are the harbours, the bad trees and the store at the start of the pass in
progress; `took` holds from a takeover to the first 100 ms tick (R327). -/
structure Planner where
  st      : PlnSt := .idle
  run     : Option Traj := none
  plan    : Option PlanJob := none
  rest    : List Rat := []
  hold    : Option HoldPath := none
  armed   : Bool := false
  pass    : Option Nat := none
  harbour : Option Mem := none
  bad     : List Nat := []
  setAt   : Nat := 0
  setRep  : Bool := false
  adopt   : Option Adopt := none
  lag     : Bool := false
  last    : Option PlanJob := none
  outcome : Option Nat := none
  granted : Bool := false
  passSet : Option Mem := none
  passBad : List Nat := []
  passMem : Mem := []
  took    : Bool := false
  deriving DecidableEq, Repr

/-- A channel switched off. -/
def Chan.off (c : Chan) : Chan := { last := c.last, lastAt := c.lastAt, any := c.any, convs := c.convs }
/-- An entry of the fault history (R193): the oldest is overwritten and counted when it is full. -/
def Afe.note (x : Afe) (n : FaultNote) : Afe :=
  if x.notes.length < 64 then { x with notes := x.notes ++ [n] }
  else { x with notes := x.notes.tail ++ [n], lost := x.lost + 1 }
/-- What a BIND reset leaves of the front end (R193, R201): the named channels run on, the others are disabled, and the
faults that end with them enter the history. -/
def Afe.bindReset (x : Afe) : Afe :=
  let ends := x.ch.filter fun p => !x.named.contains p.1 && p.2.faults != 0
  let x := ends.foldl (fun x p => x.note ⟨p.1, p.2.faults, false⟩) x
  { x with ch := x.ch.map fun p => (p.1, if x.named.contains p.1 then p.2 else p.2.off), waits := [], asks := [] }

/-- What a BIND reset leaves of the drive engine (R226, R227): the watchdog is disarmed and the elements move under
R220. Its below-floor leases end beside it (`endBelowAll`). -/
def Drive.bindReset (x : Drive) : Drive :=
  { x with
    pumps := x.pumps.map (fun p => (p.1, ({ p.2 with
      fw := false, late := false, lowAt := none,
      st := if p.2.st == .watchdog then .running else p.2.st } : Pump))),
    fans := x.fans.map (fun p => (p.1, { p.2 with fw := false, late := false, lowAt := none })),
    valves := x.valves.map (fun p => (p.1, { p.2 with fw := false })),
    waits := [], beat := none, fired := false, moved := false }

/-- What a BIND reset leaves of the channels (R251): all in RESET, their memory and pending frames cleared. -/
def Can.bindReset (x : Can) : Can := { held := x.held, wakeOff := x.wakeOff }

/-- What a BIND reset leaves of the quires and the store's check bits: nothing (R45, R274). -/
def Quires.bindReset (_ : Quires) : Quires := {}

/-- What a BIND reset leaves of the epoch: it is reinstated by replay (R282). -/
def Epoch.bindReset (_ : Epoch) : Epoch := {}

/-- What a BIND reset leaves of the planner: requests plan afresh by replay (R327). -/
def Planner.bindReset (_ : Planner) : Planner := {}

/-- What a FIELD reset leaves of the front end. -/
def Afe.fieldReset (_ : Afe) : Afe := {}
/-- ENABLE of a channel. -/
def Chan.on (c : Chan) : Bool := c.live.any fun r => (r.getD 1 0) == 1
/-- N of a sigma-delta chain (R188), by the CHAIN byte: ORDER and FIR. -/
def chainN (chain : Byte) : Nat := 4 + (if chain.getLsbD 0 then 2 else 0) + (chain.getLsbD 1).toNat
/-- N of a channel. -/
def Chan.nWords (c : Chan) : Nat := chainN ((c.live.getD []).getD 4 0)
/-- A change of FCLK's source (R188): N invalid words on every enabled sigma-delta channel. -/
def Afe.clockChange (x : Afe) : Afe :=
  { x with ch := x.ch.map fun p => (p.1, if p.1 < 32 && p.2.on then { p.2 with settle := p.2.nWords } else p.2) }
/-- What a FIELD reset leaves of the drive engine. -/
def Drive.fieldReset (_ : Drive) : Drive := {}
/-- What a FIELD reset leaves of the channels. -/
def Can.fieldReset (x : Can) : Can := { wakeOff := x.wakeOff }
/-- The controllers held in reset (R49). -/
def Can.hold (x : Can) : Can := { x with held := true }
/-- The controllers out of that reset. -/
def Can.unhold (x : Can) : Can := { x with held := false }
/-- A quire half switched off (Table 11-10): its flags, loop counters, endpoints and descriptor memory hold nothing. -/
def Quires.halfOff (h : Nat) (x : Quires) : Quires :=
  { x with
    cores := x.cores.filter (fun p => p.1 / 128 != h), flags := x.flags.filter (fun p => p.1 / 8192 != h),
    queues := x.queues.filter (fun p => p.1 / 512 != h) }
/-- What switching STORE off leaves of the epoch: its tick, and what it waits to be reinstated with (R282). -/
def Epoch.storeOff (x : Epoch) : Epoch := { ticked := x.ticked, tick := x.tick, tickAt := x.tickAt }
/-- What switching STORE off leaves of the planner: all but the trees, which lay in working store. -/
def Planner.storeOff (x : Planner) : Planner := x

end Sys2Proof.Machine
end

