-- ==== Sys2Proof/Machine/State.lean ====
section
/-! DEFINITION. Machine/State.lean: the state of the block, the reasons a step can stop, and the state after
reset. -/

namespace Sys2Proof.Machine

/-- The faults of a step. The specification stops the block in no case: every condition it calls a fault
(R67, R105, R177, R192, R212, R291) is a next state, so no command raises one. -/
inductive Fault where
  deriving DecidableEq, Repr

/-- The refusals of a step. -/
inductive Refusal where
  /-- Raised by the dispatch for a command that has no meaning yet; safe, since nothing is claimed of it. -/
  | notModelled (mnemonic : String)
  deriving DecidableEq, Repr

/-- The state: every register, buffer, counter, mode and pin the specification gives the block. -/
structure State where
  /-- The time in µs since the reset state, this model's own clock (log 1). -/
  now : Nat := 0
  /-- How many free values have been drawn, this model's own counter (log 2). -/
  free : Nat := 0
  /-- What the block has sent, newest first, this model's own trace (log 4). -/
  out : List Output := []
  /-- The commands waiting, first in first out. -/
  pending : List Instr := []
  /-- The keep domain (02, 03). -/
  keep : Keep := {}
  /-- The catch-store images (R58, R171). -/
  cat : CatchImages := {}
  /-- Power, clocks and resets (02). -/
  pwr : Power := {}
  /-- OTP (R68, R76). -/
  otp : Otp := {}
  /-- The keep tables (R65). -/
  kt : KeepTables := {}
  /-- The boot ROM (03). -/
  boot : Boot := {}
  /-- The mailboxes M0 to M7 (04). -/
  mbx : Tab Mailbox := []
  /-- The journal and authorisation (04). -/
  jr : Journal := {}
  /-- Staged objects (R93). -/
  stg : Staging := {}
  /-- The event ring, MSI-X and the PCIe function (04). -/
  host : HostLink := {}
  /-- The logbook (15). -/
  log : Logbook := {}
  /-- The performance counters and dumps (15). -/
  pmc : Counters := {}
  /-- The Spine node (05). -/
  spn : Spine := {}
  /-- The pair (05). -/
  pair : Pair := {}
  /-- The leave unit (06). -/
  lv : Leave := {}
  /-- The kettle path (07). -/
  ket : Kettle := {}
  /-- The analog front end (08). -/
  afe : Afe := {}
  /-- The drive engine (09). -/
  drv : Drive := {}
  /-- The CAN channels and actuators (10). -/
  can : Can := {}
  /-- The quires (11). -/
  qre : Quires := {}
  /-- Working store, LPDDR5X and the device windows of the store map (11). -/
  mem : Mem := []
  /-- The configuration epoch (12). -/
  ep : Epoch := {}
  /-- The setpoint planner and checkpoints (13). -/
  pln : Planner := {}
  /-- Tray stewardship and the endpaper tag (14). -/
  stw : Steward := {}
  deriving DecidableEq, Repr

/-- The state right after the keep power-on reset has taken hold: everything off, every register at its reset
value, no command waiting. -/
def State.reset : State := {}

/-- `now` set to a value. -/
def State.setNow (v : Nat) (s : State) : State := { s with now := v }
/-- `free` set to a value. -/
def State.setFree (v : Nat) (s : State) : State := { s with free := v }
/-- `out` changed by a function. -/
def State.onOut (f : List Output → List Output) (s : State) : State := { s with out := f s.out }
/-- `pending` set to a value. -/
def State.setPending (v : List Instr) (s : State) : State := { s with pending := v }
/-- `keep` changed by a function. -/
def State.onKeep (f : Keep → Keep) (s : State) : State := { s with keep := f s.keep }
/-- `cat` changed by a function. -/
def State.onCat (f : CatchImages → CatchImages) (s : State) : State := { s with cat := f s.cat }
/-- `pwr` changed by a function. -/
def State.onPwr (f : Power → Power) (s : State) : State := { s with pwr := f s.pwr }
/-- `otp` changed by a function. -/
def State.onOtp (f : Otp → Otp) (s : State) : State := { s with otp := f s.otp }
/-- `kt` changed by a function. -/
def State.onKt (f : KeepTables → KeepTables) (s : State) : State := { s with kt := f s.kt }
/-- `boot` changed by a function. -/
def State.onBoot (f : Boot → Boot) (s : State) : State := { s with boot := f s.boot }
/-- `mbx` changed by a function. -/
def State.onMbx (f : Tab Mailbox → Tab Mailbox) (s : State) : State := { s with mbx := f s.mbx }
/-- `jr` changed by a function. -/
def State.onJr (f : Journal → Journal) (s : State) : State := { s with jr := f s.jr }
/-- `stg` changed by a function. -/
def State.onStg (f : Staging → Staging) (s : State) : State := { s with stg := f s.stg }
/-- `host` changed by a function. -/
def State.onHost (f : HostLink → HostLink) (s : State) : State := { s with host := f s.host }
/-- `log` changed by a function. -/
def State.onLog (f : Logbook → Logbook) (s : State) : State := { s with log := f s.log }
/-- `pmc` changed by a function. -/
def State.onPmc (f : Counters → Counters) (s : State) : State := { s with pmc := f s.pmc }
/-- `spn` changed by a function. -/
def State.onSpn (f : Spine → Spine) (s : State) : State := { s with spn := f s.spn }
/-- `pair` changed by a function. -/
def State.onPair (f : Pair → Pair) (s : State) : State := { s with pair := f s.pair }
/-- `lv` changed by a function. -/
def State.onLv (f : Leave → Leave) (s : State) : State := { s with lv := f s.lv }
/-- `ket` changed by a function. -/
def State.onKet (f : Kettle → Kettle) (s : State) : State := { s with ket := f s.ket }
/-- `afe` changed by a function. -/
def State.onAfe (f : Afe → Afe) (s : State) : State := { s with afe := f s.afe }
/-- `drv` changed by a function. -/
def State.onDrv (f : Drive → Drive) (s : State) : State := { s with drv := f s.drv }
/-- `can` changed by a function. -/
def State.onCan (f : Can → Can) (s : State) : State := { s with can := f s.can }
/-- `qre` changed by a function. -/
def State.onQre (f : Quires → Quires) (s : State) : State := { s with qre := f s.qre }
/-- `mem` changed by a function. -/
def State.onMem (f : Mem → Mem) (s : State) : State := { s with mem := f s.mem }
/-- `ep` changed by a function. -/
def State.onEp (f : Epoch → Epoch) (s : State) : State := { s with ep := f s.ep }
/-- `pln` changed by a function. -/
def State.onPln (f : Planner → Planner) (s : State) : State := { s with pln := f s.pln }
/-- `stw` changed by a function. -/
def State.onStw (f : Steward → Steward) (s : State) : State := { s with stw := f s.stw }

end Sys2Proof.Machine
end

