-- ==== Sys2Proof/Machine/Views.lean ====
section
/-! DEFINITION. Machine/Views.lean: views of State that the later files share, and what the performance counters
count of it while time passes: the conditions of Table 15-7 and their clocks (R364). -/

namespace Sys2Proof.Machine

/-! ## Views -/

/-- Firmware runs (R62: RUNNING ends keeper mode). -/
def running (s : State) : Bool := s.pwr.bind == .on && s.boot.state == .running
/-- The device is in keeper mode (R62). -/
def keeper (s : State) : Bool := !running s

/-- A bit of a 16-bit mask. -/
def bit16 (v : Half) (t : Nat) : Bool := v.getLsbD t
/-- FIELD is out of reset. -/
def fieldOn (s : State) : Bool := s.pwr.field == .on

/-- Row time on an arc, else cycle time, in ns, at a time of this model (R236, R315, R370): the local ticks number the local
cycle time's multiples of 10 ms. -/
def gridNs (s : State) (t : Nat) : Nat :=
  if s.spn.formed && !s.spn.offArc then ((t * 1000 : Nat) + s.spn.rowOff).toNat
  else s.ep.tick * 10000000 + (t - s.ep.tickAt) * 1000

/-- A mailbox. -/
def mbxOf (s : State) (m : Nat) : Mailbox := s.mbx.get {} m
/-- A lane: 0 east, 1 west, 2 and 3 the pair lanes. -/
def laneOf (s : State) (n : Nat) : Lane := s.spn.lanes.get {} n
/-- A channel. -/
def canOf (s : State) (c : Nat) : CanCh := s.can.ch.get {} c
/-- The state of a quire half. -/
def halfOf (s : State) (h : Nat) : HalfState := if h == 0 then s.pwr.halfA else s.pwr.halfB

/-- A quire's half is RUNNING. -/
def quireUp (s : State) (q : Nat) : Bool := halfOf s (q / 32) == .running
/-- A core, by 4 × quire + core. -/
def coreOf (s : State) (k : Nat) : Core := s.qre.cores.get {} k
/-- The list of a core in a container. -/
def Container.listOf (c : Container) (k : Nat) : Option CoreList := c.lists.find? (·.core == k)
/-- The program that a core runs. -/
def progOf (s : State) (k : Nat) : Option Prog := s.qre.progs.find? fun p => (p.c.listOf k).isSome
/-- The descriptor that a core is at: its program, and the descriptor, where the core runs. -/
def current (s : State) (k : Nat) : Option (Prog × Desc) :=
  if !running s || (coreOf s k).st != .running || !quireUp s (k / 4) then none
  else match progOf s k with
  | none => none
  | some p =>
    if p.st != .ready then none
    else match p.c.listOf k with
    | none => none
    | some l => (l.descs[(coreOf s k).pc]?).map fun d => (p, d)

/-- A field of the routing in force; `d` is the Orzal default's value. -/
def routeFld (r : Option Bytes) (o n d : Nat) : Nat := match r with | some b => fld b o n | none => d
/-- Source `n`'s configuration word: INCFG, or TCH_CFG for TCH_IN. The default has FILTER 20, WET 10, ENABLE 1. -/
def routeCfg (r : Option Bytes) (n : Nat) : Nat :=
  if n == 32 then routeFld r 0x4C 4 0x4014 else routeFld r (0x50 + 4 * n) 4 0x4A14
/-- ENABLE of a source. -/
def routeEnable (r : Option Bytes) (n : Nat) : Bool := (routeCfg r n).testBit 14
/-- OPEN makes an input active: OPEN_ACTION 0. -/
def routeOpenAct (r : Option Bytes) (n : Nat) : Bool := decide (n < 32) && !(routeCfg r n).testBit 13
/-- A source of the trip matrix. -/
def leakOf (s : State) (n : Nat) : Leak := s.ket.src.get {} n
/-- A source is active (R166, R174). -/
def leakActive (r : Option Bytes) (n : Nat) (l : Leak) : Bool :=
  routeEnable r n && (l.wet || l.short || l.chat || (l.open_ && routeOpenAct r n))

/-- A pump record. -/
def pumpRec (b : Bytes) (n : Nat) : Bytes := sub b (0x120 + 64 * n) 64
/-- The table in use, empty under the Orzal default, which uses no pump, fan or valve. -/
def tbl (s : State) : Bytes := s.drv.table.getD []
/-- A record whose ENABLE is 1; the fields of another are not used (R204). -/
def inUse (r : Bytes) : Bytes := if fld r 0 1 == 1 then r else []
/-- A pump's record in use. -/
def pRec (s : State) (n : Nat) : Bytes := inUse (pumpRec (tbl s) n)
/-- A pump. -/
def pumpOf (s : State) (n : Nat) : Pump := s.drv.pumps.get {} n
/-- A fan. -/
def fanOf (s : State) (n : Nat) : Fan := s.drv.fans.get {} n
/-- A valve. -/
def valveOf (s : State) (n : Nat) : Valve := s.drv.valves.get {} n
/-- The used skip bands of a pump record, in rpm. -/
def skipBands (r : Bytes) : List (Nat × Nat) :=
  ((List.range 4).map fun i => (fld r (40 + 4 * i) 2, fld r (42 + 4 * i) 2)).filter (· != (0, 0))
/-- The bands in 0.0001 rpm. -/
def bandsU (r : Bytes) : List (Nat × Nat) := (skipBands r).map fun p => (10000 * p.1, 10000 * p.2)
/-- A target moved out of the bands to the nearer edge, to HI when both are equally near (R211). -/
def nearEdge (bs : List (Nat × Nat)) (t : Nat) : Nat :=
  match bs.find? (fun p => decide (p.1 < t) && decide (t < p.2)) with
  | some p => if t - p.1 < p.2 - t then p.1 else p.2
  | none => t
/-- I_MAX in units of `iq`. -/
def iMaxU (r : Bytes) : Int := fld r 18 2 * 65536 * 100000
/-- A pump is driven: its PWM runs and PGEN is high. -/
def Pump.driven (p : Pump) : Bool := p.st == .running || p.st == .watchdog

/-! ## Conditions and clocks of Table 15-7 (R364) -/

/-- The frequency in Hz of an event's clock (Table 02-4; the PIPE clock has 250 MHz). -/
def clockHz (ev : Nat) : Nat :=
  if ev ≤ 0x009 then [0, 1100000000, 1400000000, 800000000, 200000000, 80000000, 125000000, 322265625, 4000000, 250000000].getD ev 0
  else if ev < 0x040 then 800000000
  else if ev < 0x100 then 1100000000
  else if ev < 0x2C0 then 800000000
  else if ev < 0x2C8 then 250000000
  else if ev < 0x2D0 then 125000000
  else if ev < 0x300 then 322265625
  else if ev < 0x320 then 80000000
  else if ev < 0x3C0 then 200000000
  else 4000000

/-- The cycles of a clock from one µs time to another, counted from an edge at time 0 (log 15). -/
def cyclesOf (hz a b : Nat) : Nat := hz * b / 1000000 - hz * a / 1000000

/-- The clock of CLOCK_QCLK to CLOCK_PIPE runs: SCLK with STORE, FCLK and CCLK with FIELD, LCLK with LREFCLK. -/
def clockRuns (s : State) (ev : Nat) : Bool :=
  if ev == 2 then s.pwr.store == .on else if ev == 4 || ev == 5 then fieldOn s else if ev == 7 then s.spn.lref else true

/-- A core waits on a flag that is not set (R266). -/
def onFlag (s : State) (k : Nat) : Bool :=
  match current s k with
  | some (_, d) =>
    d.wait.getLsbD 15 && !(coreOf s k).waited && !s.qre.flags.get false (k / 4 * 256 + d.wait.toNat % 256)
  | none => false

/-- A core stalls on a full or an empty queue (R267). -/
def onQueue (s : State) (k : Nat) : Bool := (current s k).isSome && (coreOf s k).stalled

/-- The golden-image flash is written, verified or read for a rebinding. -/
def flashBusy (s : State) : Bool :=
  s.stw.golden.any (fun g => g.2.state == .writing) ||
  (match s.stw.run with | some r => r.step == .verify || r.step == .program | none => false)

/-- A kind C event of Table 15-7 that can last is true in a state. The events that this model counts one by one, and
those of log 15, are false here. -/
def condOf (s : State) (ev : Nat) : Bool :=
  if ev < 0x080 then decide (1 ≤ ev) && decide (ev ≤ 9) && clockRuns s ev
  else if ev < 0x0C0 then (List.range 4).any fun c => onFlag s (4 * (ev - 0x080) + c)
  else if ev < 0x100 then (List.range 4).any fun c => onQueue s (4 * (ev - 0x0C0) + c)
  else if ev == 0x26A then s.lv.stale
  else if ev < 0x270 then false
  else if ev < 0x280 then bit16 s.keep.capdn (ev - 0x270)
  else if ev == 0x285 then s.pln.armed
  else if ev == 0x288 then s.pln.plan.isSome || s.pln.pass.isSome
  else if ev < 0x2A0 then false
  else if ev < 0x2A8 then (mbxOf s (ev - 0x2A0)).busy
  else if ev == 0x2B1 then s.jr.entries.any fun e => e.state == .tentative
  else if ev == 0x2C2 then s.host.link == .l0
  else if ev == 0x2C3 then s.host.link == .l1
  else if ev < 0x2D0 then false
  else if ev < 0x2F0 then ev % 8 == 3 && (laneOf s ((ev - 0x2D0) / 8)).up
  else if ev < 0x300 then false
  else if ev < 0x320 then
    (ev % 8 == 4 && (canOf s ((ev - 0x300) / 8)).st == .passive) || (ev % 8 == 5 && (canOf s ((ev - 0x300) / 8)).st == .down)
  else if ev < 0x330 then
    let p := pumpOf s ((ev - 0x320) / 4)
    let r := pRec s ((ev - 0x320) / 4)
    p.driven && ((ev % 4 == 1 && p.iq.natAbs == (iMaxU r).natAbs) ||
      (ev % 4 == 2 && (bandsU r).any fun b => decide (b.1 < p.cmd) && decide (p.cmd < b.2)))
  else if ev < 0x338 then (fanOf s (ev - 0x330)).on && decide ((fanOf s (ev - 0x330)).duty ≤ (fanOf s (ev - 0x330)).floor)
  else if ev < 0x340 then (valveOf s (ev - 0x338)).err || (valveOf s (ev - 0x338)).opn
  else if ev == 0x341 then s.drv.fired
  else if ev == 0x342 then
    s.drv.pumps.any (fun p => p.2.limited) || s.drv.fans.any (fun f => f.2.limited) || s.drv.valves.any (fun v => v.2.limited)
  else if ev == 0x3A0 then flashBusy s
  else if ev == 0x3A1 then s.stw.tfs.isSome
  else if ev < 0x3C0 then false
  else if ev ≤ 0x3E0 then leakActive s.ket.route (ev - 0x3C0) (leakOf s (ev - 0x3C0))
  else if ev == 0x3E4 then s.stw.tag.write.any (·.busy)
  else false

/-! ## Counting (R363, R364) -/

/-- A counter raised by `n`: 48 bits, with the sticky OVF. -/
def Counters.add (i n : Nat) (c : Counters) : Counters :=
  if n == 0 then c else
  let v := c.val.get 0 i + n
  { c with val := c.val.set i (v % 2 ^ 48), ovf := if 2 ^ 48 ≤ v then c.ovf.set i true else c.ovf }
/-- Every enabled counter raised by what `f` gives for its number, its event and whether it is in level mode. -/
def Counters.addBy (f : Nat → Nat → Bool → Nat) (c : Counters) : Counters :=
  c.cfg.foldl (fun c (p : Nat × Word) =>
    if p.2.getLsbD 11 then c.add p.1 (f p.1 (p.2.toNat % 1024) (p.2.getLsbD 10)) else c) c
/-- The counters after `n` occurrences of an event in one cycle: level mode adds `n`, edge mode adds 1. NEVER (0) counts
nothing. -/
def Counters.bump (ev n : Nat) (c : Counters) : Counters :=
  c.addBy fun _ e level => if e != ev || ev == 0 || n == 0 then 0 else if level then n else 1
/-- The counters after a condition became true that may end at once: edge mode adds 1. -/
def Counters.rise (ev : Nat) (c : Counters) : Counters :=
  c.addBy fun _ e level => if e == ev && !level then 1 else 0
/-- The conditions that each counter's event has now, as the next cycle finds them. -/
def Counters.mark (cond : Nat → Bool) (c : Counters) : Counters :=
  { c with was := c.cfg.map fun p => (p.1, cond (p.2.toNat % 1024)) }
/-- The condition of one counter's event, as the next cycle finds it. -/
def Counters.markOne (v : Bool) (i : Nat) (c : Counters) : Counters := { c with was := c.was.set i v }
/-- The counters after the time from `a` to `b`, in which every condition stays as it is: level mode adds the cycles
of a true condition's clock, edge mode 1 where the condition was false before. REQ_BUSY's edges are counted by `rise`. -/
def Counters.pass (cond : Nat → Bool) (a b : Nat) (c : Counters) : Counters :=
  (c.addBy fun i ev level =>
    if !cond ev then 0
    else if level then cyclesOf (clockHz ev) a b
    else if c.was.get false i || (decide (0x2A0 ≤ ev) && decide (ev < 0x2A8)) then 0 else 1).mark cond

/-- Time passes for the counters up to `t`. -/
def passTime (t : Nat) (s : State) : State :=
  if running s && decide (s.now < t) then s.onPmc (Counters.pass (condOf s) s.now t) else s

end Sys2Proof.Machine
end

