-- ==== Sys2Proof/Machine/Ops.lean ====
section
/-! DEFINITION. Machine/Ops.lean: the shared operations: time, free values, what is sent, counters, folios,
events, wake causes and responses. -/

namespace Sys2Proof.Machine

/-! ## Time and views -/

/-- Keep time in units of 1/32,768 s (Table 04-10). -/
def keepTime (s : State) : Nat := s.now * 32768 / 1000000
/-- A µs time of this model as a keep time. -/
def toKeep (us : Nat) : Nat := us * 32768 / 1000000
/-- The first µs time of this model at which keep time has reached `k`. -/
def fromKeep (k : Nat) : Nat := (k * 1000000 + 32767) / 32768
/-- The hour meter in seconds (R48). -/
def hourMeter (s : State) : Nat := s.keep.hourBase + (s.now - s.keep.hourFrom) / 1000000
/-- Row time in ns (R120). -/
def rowTime (s : State) : Nat := ((s.now * 1000 : Nat) + s.spn.rowOff).toNat
/-- The clock brought to a deadline that a command says is reached. -/
def reach (t : Nat) (s : State) : State := (passTime t s).setNow (max s.now t)

/-- This board's BRD (R113): 1 for the higher serial of a pair. -/
def brd (s : State) : Bool :=
  match s.kt.partner with
  | none => false
  | some p => decide (p.toNat < s.otp.serial.toNat)
/-- A node address (R113). -/
def addrOf (pos : BitVec 4) (b : Bool) : Nat := pos.toNat * 2 + b.toNat
/-- This node's address. -/
def nodeAddr (s : State) : Nat := addrOf s.pwr.straps.pos (brd s)
/-- The partner's node address. -/
def partnerAddr (s : State) : Nat := addrOf s.pwr.straps.pos (!brd s)
/-- This board is acting Lead under running firmware. -/
def acting (s : State) : Bool := running s && s.pair.lead
/-- The partner is attached (R23, R127). -/
def attached (s : State) : Bool := s.pair.state == .attached
/-- This board drives TEN (R60, R58, R133): an acting Lead, or a board in keeper mode that records the Lead
role and whose SPN_HANDOFF is clear, once its images are read. While SPN_HANDOFF is set, for its 1 ms. -/
def drivesTen (s : State) : Bool :=
  !s.keep.por && s.keep.tenRead &&
  (if running s then s.pair.lead && s.pair.board != .stoodDown && s.kt.role.isSome
   else s.kt.role == some true && (!s.keep.handoff || s.keep.handoffAt.isSome))

/-- A 16-bit mask with one bit changed. -/
def put16 (v : Half) (t : Nat) (b : Bool) : Half :=
  if b then v ||| (1#16 <<< t) else v &&& ~~~(1#16 <<< t)

/-! ## Free values and what is sent -/

/-- The number of the next free value, and the state that has drawn it. -/
def draw (s : State) : Nat × State := (s.free, s.setFree (s.free + 1))
/-- A quotient for a field of whole units: exact where it is whole, else one of its two neighbours (log 22). -/
def quot (a : Int) (b : Nat) : Int := a / b + (if a % b != 0 && Config.roundUp a b then 1 else 0)
/-- A quotient rounded to the nearest whole number; the side that a tie takes is free (log 22). -/
def nearest (a : Int) (b : Nat) : Int :=
  let r := 2 * (a % b)
  a / b + (if r < b then 0 else if b < r then 1 else if Config.roundUp a b then 1 else 0)
/-- A message sent. -/
def emit (o : Output) (s : State) : State := s.onOut (o :: ·)

/-! ## Counters (R364) -/

/-- An event counted `n` times; nothing counts before the configurations are restored at step 1 of R79 (R363). -/
def countN (ev n : Nat) (s : State) : State :=
  if running s then s.onPmc (Counters.bump ev n) else s
/-- An event counted once. -/
def count (ev : Nat) (s : State) : State := countN ev 1 s
/-- A condition that became true and may end at once. -/
def countRise (ev : Nat) (s : State) : State := if running s then s.onPmc (Counters.rise ev) else s

/-! ## Frames sent (R112, R114, R115) -/

/-- A lane changed. -/
def onLane (n : Nat) (f : Lane → Lane) (s : State) : State := s.onSpn fun p => { p with lanes := p.lanes.mod {} n f }
/-- `n` frames sent on a lane, counted there. -/
def laneCount (l n : Nat) (urgent : Bool) (s : State) : State :=
  let s := countN (0x2D0 + 8 * l) n (onLane l (fun x => { x with sent := x.sent + n }) s)
  if urgent then countN (0x2D4 + 8 * l) n s else s
/-- `n` frames sent on a lane that is up. -/
def laneSent (l n : Nat) (urgent : Bool) (s : State) : State := if (laneOf s l).up then laneCount l n urgent s else s
/-- The node is inserted in the ring (Table 05-4). -/
def inserted (s : State) : Bool := running s && s.spn.insert == .in_
/-- The pair link is up (R115). -/
def pairUp (s : State) : Bool := running s && ((laneOf s 2).up || (laneOf s 3).up)
/-- `n` bulk frames on the pair lanes in turn, or on the one that is up (R115). -/
def bulkSent (n : Nat) (s : State) : State :=
  if !(laneOf s 2).up then laneSent 3 n false s
  else if !(laneOf s 3).up then laneSent 2 n false s
  else
    let a := 2 + s.spn.bulkLane.toNat
    let s := s.onSpn fun x => { x with bulkLane := x.bulkLane != (n % 2 == 1) }
    laneSent (5 - a) (n / 2) false (laneSent a ((n + 1) / 2) false s)
/-- A payload sent to the partner over the pair link: its urgent frames on both lanes, bulk ones on the lanes in turn. -/
def sendPair (p : Payload) (s : State) : State :=
  if !pairUp s then s else
  let k := (s.spn.pseq + 1) % 2 ^ 32
  let s := emit (.frame true (nodeAddr s) (partnerAddr s) (s.spn.gen % 256) k p)
    (s.onSpn fun x => { x with pseq := (x.pseq + p.frames) % 2 ^ 32 })
  if p.urgent then laneSent 3 p.frames true (laneSent 2 p.frames true s) else bulkSent p.frames s
/-- A payload sent to a node address over the Spine, on both ports. -/
def sendSpine (dst : Nat) (p : Payload) (s : State) : State :=
  if !inserted s then s else
  let k := (s.spn.fseq + 1) % 2 ^ 32
  let s := emit (.frame false (nodeAddr s) dst (s.spn.gen % 256) k p)
    (s.onSpn fun x => { x with fseq := (x.fseq + p.frames) % 2 ^ 32 })
  laneSent 1 p.frames p.urgent (laneSent 0 p.frames p.urgent s)

/-! ## MSI-X (Table 04-13) -/

/-- A vector raised (R67): its message is sent, or its pending bit set while the table masks it. Nothing is raised
while the host has not enabled MSI-X (log 136). -/
def msix (v : Nat) (s : State) : State :=
  if !s.host.msixEn then s
  else if (s.host.msix.read (16 * v + 12)).getLsbD 0 then
    s.onHost fun h => { h with msixPba := h.msixPba ||| (1#64 <<< v) }
  else emit (.msix v) s

/-! ## Wake latch (R109) -/

/-- The wake latch with a cause recorded. A full latch adds to the count of the latest record with the same
code, or of the latest record. -/
def recordWake (code : Nat) (k : Keep) (time : Nat) : Keep :=
  if k.wake.length < 64 then
    { k with wake := k.wake ++ [{ code := code, seq := k.wakeSeq + 1, time := time }], wakeSeq := k.wakeSeq + 1 }
  else
    let i := match (k.wake.reverse.findIdx? (·.code == code)) with
      | some j => k.wake.length - 1 - j
      | none => k.wake.length - 1
    { k with wake := k.wake.modify i fun r => { r with count := r.count + 1 } }

/-- The wake mask in force (R109): 0x0042 until one is written. -/
def wakeMask (s : State) : Half := s.kt.wakeMask.getD 0x0042

/-- A wake cause recorded, and signalled when its mask bit is set (R109). -/
def wakeCause (code : Nat) (s : State) : State :=
  let s := s.onKeep (recordWake code · (keepTime s))
  if !(wakeMask s).getLsbD code then s
  else match s.host.link with
    | .l2 | .l3 | .down => s.onKeep fun k => { k with wakePin := true }
    | .l0 | .l1 =>
      if s.host.dstate == .d3hot then
        emit .pme (s.onHost fun h => { h with link := .l0 })
      else s

/-! ## Folios (R350 to R358) -/

/-- One more dropped folio of a severity, saturating (R355). -/
def Logbook.drop (sev : Nat) (l : Logbook) : Logbook :=
  { l with dropped := l.dropped.modify sev (fun n => min (n + 1) (2 ^ 32 - 1)), dropNew := true }

/-- A waiting list with its youngest folio of severity 0 to 2 replaced by a new one at the end, and the
severity of the folio replaced. -/
def replaceYoungest (f : Folio) (fs : List Folio) : Option (Nat × List Folio) :=
  match fs.reverse.findIdx? (fun g => decide (g.sev < 3)) with
  | some j =>
    let i := fs.length - 1 - j
    some ((fs.getD i {}).sev, fs.eraseIdx i ++ [f])
  | none => none

/-- The freeze ended: the held folios join the writer's queue in FSEQ order (R359). -/
def Logbook.thaw (l : Logbook) : Logbook := { l with freeze := none, queue := l.queue ++ l.buf, buf := [] }

/-- A new folio offered to the writer (R353, R357, R358), and whether it broke a freeze. -/
def Logbook.put (f : Folio) (l : Logbook) : Logbook × Bool :=
  match l.freeze with
  | some _ =>
    if l.buf.length < 16 then ({ l with buf := l.buf ++ [{ f with held := true }] }, false)
    else if f.sev < 3 then (l.drop f.sev, false)
    else match replaceYoungest { f with held := true } l.buf with
      | some (sv, b) => ({ l with buf := b }.drop sv, false)
      | none => ({ l.thaw with queue := l.queue ++ l.buf ++ [f] }, true)
  | none =>
    if l.queue.length < 64 then ({ l with queue := l.queue ++ [f] }, false)
    else if f.sev < 3 then (l.drop f.sev, false)
    else match replaceYoungest f l.queue with
      | some (sv, q) => ({ l with queue := q }.drop sv, false)
      | none => (l.drop 3, false)

/-- A new folio's fields (Table 15-1), with the next FSEQ (R351). -/
def mkFolio (ty : Nat) (code : Half) (sev : Nat) (data : List Nat) (cw : DWord) (ref : Nat) (s : State) : Folio :=
  { fseq := s.log.fseq + 1, ty := ty, sev := sev, coarse := s.keep.coarse, keeper := keeper s, code := code,
    pos := s.pwr.straps.pos, brd := brd s, lead := s.pair.lead, time := keepTime s, hour := hourMeter s,
    pcycle := s.keep.pcycle, row := if s.spn.formed then rowTime s else 0, cw := cw, ref := ref, data := data }

/-- A folio given to the writer under the next FSEQ, without the thaw that it may cause being reported. -/
def logFolio (f : Folio) (s : State) : State :=
  s.onLog fun l => { (l.put f).1 with fseq := f.fseq }

/-- A folio created (R352): the writer takes it, and severity 3 is a wake cause (R109, cause 0x06). -/
def addFolio (f : Folio) (s : State) : State :=
  let h := decide (16 ≤ s.log.buf.length) || decide (64 ≤ s.log.queue.length)
  let s := count (if h && f.sev < 3 then 0x2B5 else if s.log.freeze.isSome then 0x2B6 else 0) (logFolio f s)
  if f.sev == 3 then wakeCause 6 s else s

/-! ## Event ring (R107, R108) -/

/-- The ring takes an entry now. -/
def ringOpen (h : HostLink) : Bool :=
  h.en && h.dstate == .d0 && (h.link == .l0 || h.link == .l1) && (h.pi + 8192 - h.ci) % 8192 != 4096

/-- An entry written at the producer index in host memory, with its vector (Table 04-13). -/
def ringWrite (e : EvEntry) (s : State) : State :=
  let e := { e with eseq := (s.host.eseq + 1) % 2 ^ 32, phase := decide (4096 ≤ s.host.pi) }
  let s := emit (.event (s.host.pi % 4096) (s.host.base.toNat + 64 * (s.host.pi % 4096)) e)
    (s.onHost fun h => { h with eseq := (h.eseq + 1) % 2 ^ 32, pi := (h.pi + 1) % 8192 })
  let s := count 0x2B2 s
  if e.sev == 3 then msix 5 s
  else if (match s.host.v6Last with | some t => decide (s.now < t + s.host.mod.toNat) | none => false) then
    s.onHost fun h => { h with v6Owe := true }
  else msix 6 (s.onHost fun h => { h with v6Last := some s.now, v6Owe := false })

/-- One more dropped event. -/
def HostLink.dropOne (h : HostLink) : HostLink :=
  { h with dropped := (h.dropped + 1) % 2 ^ 32, dropOwe := h.dropOwe + 1 }

/-- An event kept for later (R108). -/
def HostLink.wait (e : EvEntry) (h : HostLink) : HostLink :=
  if h.backlog.length < 512 then { h with backlog := h.backlog ++ [e] }
  else if e.sev < 3 then h.dropOne
  else match h.backlog.reverse.findIdx? (fun x => decide (x.sev < 3)) with
    | some j =>
      { h with backlog := h.backlog.eraseIdx (h.backlog.length - 1 - j) ++ [e] }.dropOne
    | none => h

/-- An entry for the ring: written, or waiting behind the backlog. -/
def ringEvent (e : EvEntry) (s : State) : State :=
  if ringOpen s.host && s.host.backlog.isEmpty && s.host.dropOwe == 0 then ringWrite e s
  else
    let s' := s.onHost (HostLink.wait e)
    if s'.host.dropped == s.host.dropped then s' else count 0x2B3 s'

/-- An event without a folio (codes 0x0001 to 0x00FF and LOG_DROPPED, R352). -/
def bareEvent (code : Half) (sev : Nat) (data : List Nat) (cw : DWord) (s : State) : State :=
  if keeper s then s
  else ringEvent { code := code, sev := sev, time := keepTime s, cw := cw, data := data } s

/-- An event whose folio is `f`: the folio, and the ring entry that names it, unless the device is in keeper
mode (R352, R390). -/
def folioEvent (f : Folio) (s : State) : State :=
  let s' := addFolio f s
  if keeper s then s'
  else ringEvent { code := f.code, sev := f.sev, time := f.time, cw := f.cw, ref := f.fseq, data := f.data } s'

/-- LOG_THAWED with its cause (Table 15-10). A Shadow reports the end of the freeze to the acting Lead
(R361). -/
def thawed (id cause held : Nat) (s : State) : State :=
  let s := if running s && !s.pair.lead then sendPair (.lease (.freeze false (BitVec.ofNat 32 id))) s else s
  folioEvent (mkFolio 0 0x0F03 (if cause == 1 then 1 else 2) [id, cause, held] 0 0 s) s

/-- Whether a folio of severity `sev` would break the freeze (R358). -/
def breaks (sev : Nat) (l : Logbook) : Bool :=
  l.freeze.isSome && decide (16 ≤ l.buf.length) && sev == 3 && l.buf.all (·.sev == 3)

/-- The report of a freeze that `f` broke. -/
def reportBreak (l : Logbook) (sev : Nat) (s : State) : State :=
  if breaks sev l then thawed (l.freeze.getD {}).id.toNat 3 (l.queue.length + l.buf.length) s else s

/-- A folio for a record without an event (Table 15-3). -/
def record (code : Half) (sev : Nat) (data : List Nat) (cw : DWord) (s : State) : State :=
  reportBreak s.log sev (addFolio (mkFolio 0 code sev data cw 0 s) s)

/-- An event (R352): its folio and its ring entry. `ref` is the folio it relates to. -/
def event (code : Half) (sev : Nat) (data : List Nat) (cw : DWord) (ref : Nat) (s : State) : State :=
  reportBreak s.log sev (folioEvent (mkFolio 0 code sev data cw ref s) s)

/-- One µs passes. A vector 6 message that EVR_MOD held back goes out when its interval ends. -/
def tick (s : State) : State :=
  let s := reach (s.now + 1) s
  if s.host.v6Owe && (match s.host.v6Last with | some t => decide (t + s.host.mod.toNat ≤ s.now) | none => true) then
    msix 6 (s.onHost fun h => { h with v6Last := some s.now, v6Owe := false })
  else s

/-! ## Responses (R85, R91) -/

/-- The source id of tray Tt's agent (Table 04-9). -/
def trayOfSrc (src : Nat) : Nat := src - 0x10

/-- A response produced for a mailbox. On M6 it goes to the response queue of the agent whose command it
answers (R330); elsewhere it waits for the ring or the transport (R85 to R88). -/
def respond (m : Nat) (r : Resp) (s : State) : State :=
  if m == 6 then
    let t := trayOfSrc (r.cw.toNat / 2 ^ 48)
    s.onStw fun w => { w with agents := w.agents.mod {} t fun a => { a with answers := a.answers ++ [r] } }
  else s.onMbx fun ms => ms.mod {} m (fun b => { b with waiting := b.waiting ++ [r] })

/-- A catchword's source id. -/
def cwSrc (cw : DWord) : Nat := cw.toNat / 2 ^ 48
/-- A catchword's sequence. -/
def cwSeq (cw : DWord) : Nat := cw.toNat % 2 ^ 48
/-- A catchword. -/
def mkCw (src seq : Nat) : DWord := BitVec.ofNat 64 (src * 2 ^ 48 + seq % 2 ^ 48)

/-! ## Bytes written into the store (R261, R276) -/

/-- The poison of the blocks that lie wholly in a written range cleared. -/
def heal (lo hi : Nat) (s : State) : State :=
  s.onQre fun x => { x with poison := x.poison.filter fun b => !(decide (lo ≤ b) && decide (b + 64 ≤ hi)) }
/-- Bytes that Binder or an agent at the mesh edge writes from a store address on. -/
def binderWrite (a : Nat) (bs : Bytes) (s : State) : State := heal a (a + bs.length) (s.onMem fun m => m.writeN a bs)

/-- A free place in the data area of a slice (R258). -/
def dataPlace (x : Nat) : Nat := x % 64 * 2 ^ 25 + 64 * (x / 64 % 0x60000)

/-- The snapshot written into working store (R261), at a place that is free (log 107). -/
def storeSnap (s : State) : State :=
  if s.pwr.store == .on then binderWrite (dataPlace Config.snapBase) s.ep.snap s else s

end Sys2Proof.Machine
end

