-- ==== Sys2Proof/Machine/MailOps.lean ====
section
/-! DEFINITION. Machine/MailOps.lean: the shared operations of the mailboxes: their state, the response ring, and
the delivery of a response over its transport (R83 to R88). -/

namespace Sys2Proof.Machine

/-- A mailbox changed. -/
def onBox (m : Nat) (f : Mailbox → Mailbox) (s : State) : State := s.onMbx fun ms => ms.mod {} m f
/-- OPEN of the mailboxes: firmware RUNNING, and not closed by LONE_CHECK (Table 04-2, R132). -/
def isOpenBox (s : State) : Bool := running s && s.pair.state != .lone

/-- The host reaches BAR0 beyond the boot page: BIND out of reset, PERST# high, the link up, firmware RUNNING
(R82, Table 03-1). -/
def bar0Up (s : State) : Bool := s.pwr.bind == .on && !s.host.perst && (s.host.link == .l0 || s.host.link == .l1)

/-- The free slots of a response ring. -/
def ringFree (b : Mailbox) : Nat := 32 - (b.pi + 64 - b.ci) % 64

/-- A PAD record over the slots up to the end of the ring (R86). -/
def writePad (m : Nat) (s : State) : State :=
  let b := mbxOf s m
  let n := 32 - b.pi % 32
  emit (.pad m (b.pi % 32) n)
    (onBox m (fun b => { b with rsp := b.rsp.writeN (128 * (b.pi % 32)) (padBytes n), pi := (b.pi + n) % 64 }) s)

/-- The first waiting response written at the producer index. -/
def writeSlot (m : Nat) (r : Resp) (s : State) : State :=
  let b := mbxOf s m
  let s := emit (.ring m (b.pi % 32) r) (onBox m (fun b =>
    { b with rsp := b.rsp.writeN (128 * (b.pi % 32)) (respBytes r), pi := (b.pi + respSlots r) % 64, waiting := b.waiting.tail }) s)
  msix (1 + m) (count (0x298 + m) s)

/-- The first waiting response of M0 or M1 written to its ring once it has room, preceded by a PAD record where it
would wrap (R85, R86). -/
def ringResponse (m : Nat) (s : State) : State :=
  match (mbxOf s m).waiting with
  | [] => s
  | r :: _ =>
    let b := mbxOf s m
    let s := if 32 < b.pi % 32 + respSlots r && 32 - b.pi % 32 ≤ ringFree b then writePad m s else s
    let b := mbxOf s m
    if b.pi % 32 + respSlots r ≤ 32 && respSlots r ≤ ringFree b then writeSlot m r s else s

/-- The transport of M2 to M7 can take a response: a TLS connection, an up pair lane, the Spine, the UART. -/
def transportUp (s : State) (m : Nat) : Bool :=
  match m with
  | 2 | 3 => (mbxOf s m).conn
  | 4 => (s.spn.lanes.get {} 2).up || (s.spn.lanes.get {} 3).up
  | 5 => s.spn.insert == .in_
  | _ => true

/-! ## Relayed records (R123) -/

/-- A byte string in pieces of 48. -/
def fragments : Nat → Bytes → List Bytes
  | 0, _ => []
  | n + 1, bs => if bs.length ≤ 48 then [bs] else bs.take 48 :: fragments n (bs.drop 48)

/-- One fragment sent and kept until it is acknowledged; none goes over a link that is down. -/
def sendFragment (pair : Bool) (dst : Nat) (last : Bool) (data : Bytes) (s : State) : State :=
  if !(if pair then pairUp s else inserted s) then s else
  let s := if pair then sendPair (.relay last data) s else sendSpine dst (.relay last data) s
  s.onSpn fun p => { p with relayTx := p.relayTx ++ [{
    fseq := if pair then p.pseq else p.fseq, dst := dst, pair := pair, at_ := s.now, last := last, data := data }] }

/-- A record sent in RELAY fragments to a node, in FSEQ order. -/
def sendFragments (pair : Bool) (dst : Nat) : List Bytes → State → State
  | [], s => s
  | [d], s => sendFragment pair dst true d s
  | d :: ds, s => sendFragments pair dst ds (sendFragment pair dst false d s)

/-- A response of M4 or M5 sent back in RELAY fragments: to the partner, or to the acting master whose commands M5 carries.
The master answers itself without the Spine. -/
def relayResponse (m : Nat) (r : Resp) (s : State) : State :=
  if m == 4 then sendFragments true (partnerAddr s) (fragments (respBytes r).length (respBytes r)) s
  else
    let dst := s.spn.master.getD 0xFE
    if dst == nodeAddr s then emit (.deliver 5 r) s
    else sendFragments false dst (fragments (respBytes r).length (respBytes r)) s
/-- A response that leaves over the transport of M2 to M5 or M7 (Table 04-3). -/
def deliver (m : Nat) (r : Resp) (s : State) : State :=
  if m == 4 || m == 5 then relayResponse m r s
  else emit (if m == 7 then .serial (slipFrame (respBytes r)) else .deliver m r) s

/-- The first waiting response of M2 to M5 or M7 delivered over its transport (R87). -/
def sendResponse (m : Nat) (s : State) : State :=
  match (mbxOf s m).waiting with
  | [] => s
  | r :: rs =>
    if transportUp s m then
      count (0x298 + m) (deliver m r (onBox m (fun b => { b with waiting := rs }) s))
    else s

/-- The first response of the lowest tray agent that has one written to that agent (R330). -/
def agentResponse (s : State) : State :=
  match (List.range 16).find? (fun t => !(s.stw.agents.get {} t).answers.isEmpty) with
  | none => s
  | some t =>
    match (s.stw.agents.get {} t).answers with
    | [] => s
    | r :: rs =>
      count 0x29E (emit (.i3c (t / 4) (0x10 + t % 4) (answerBytes r))
        (s.onStw fun w => { w with agents := w.agents.mod {} t fun a => { a with answers := rs } }))

/-- One waiting response of a mailbox written out. -/
def writeOut (m : Nat) (s : State) : State :=
  if m < 2 then ringResponse m s else if m == 6 then agentResponse s else sendResponse m s
/-- The waiting responses of a mailbox written out as far as there is room for them; `n` bounds their number. -/
def flushBox (m : Nat) : Nat → State → State
  | 0, s => s
  | n + 1, s => flushBox m n (writeOut m s)
/-- Every response that a mailbox has produced written, as far as there is room (R85). -/
def writeAll (m : Nat) (s : State) : State := flushBox m (mbxOf s m).waiting.length s

end Sys2Proof.Machine
end

