-- ==== Sys2Proof/Machine/LeaveOps.lean ====
section
/-! DEFINITION. Machine/LeaveOps.lean: the shared operations of the leave unit: tray limits, the leave table,
the ledger, leases, CAPDN, TEN and the stagger queue (chapter 06). -/

namespace Sys2Proof.Machine

/-! ## Inventory figures (Table 14-5) -/

/-- The inventory record of a tray. -/
def invOf (s : State) (t : Nat) : Inv := s.stw.inv.get {} t
/-- The adopted descriptor of a tray, empty where none is adopted. -/
def descOf (s : State) (t : Nat) : Bytes := (invOf s t).desc.getD []
/-- Whether accelerator `a` of a descriptor is present. -/
def accPresent (d : Bytes) (a : Nat) : Bool := fld d (40 + 32 * a) 1 == 1
/-- The base cap of accelerator `a` in a descriptor. -/
def accBase (d : Bytes) (a : Nat) : Nat := fld d (40 + 32 * a + 4) 2
/-- The peak cap of accelerator `a` in a descriptor. -/
def accPeak (d : Bytes) (a : Nat) : Nat := fld d (40 + 32 * a + 6) 2
/-- The floor cap of accelerator `a` in a descriptor. -/
def accFloor (d : Bytes) (a : Nat) : Nat := fld d (40 + 32 * a + 2) 2
/-- The present accelerators of a descriptor. -/
def accsOf (d : Bytes) : List Nat := (List.range 8).filter (accPresent d)
/-- The sum of the base caps of a descriptor's present accelerators. -/
def baseSum (d : Bytes) : Nat := ((accsOf d).map (accBase d)).sum

/-! ## Tray state (R139, R140) -/

/-- A tray's target state. -/
def trayOf (s : State) (t : Nat) : Tray := s.lv.trays.get {} t
/-- A tray's target state changed. -/
def onTray (t : Nat) (f : Tray → Tray) (s : State) : State := s.onLv fun l => { l with trays := l.trays.mod {} t f }
/-- The TEN image, with any change that waits for the partner's acknowledgement (R128, R139). -/
def tenTarget (s : State) : Half := s.pair.tenWait.getD s.keep.ten
/-- ENABLED (R139). -/
def enabled (s : State) (t : Nat) : Bool := bit16 (tenTarget s) t
/-- A trip is latched on the tray. -/
def tripped (s : State) (t : Nat) : Bool := bit16 s.ket.trip t
/-- The tray is off (R140, case 1). -/
def trayOff (s : State) (t : Nat) : Bool :=
  tripped s t || !enabled s t || (trayOf s t).rm == 0 || (trayOf s t).host == 0
/-- The CAPDN line of a tray is low at this board: the leave unit's drive or the trip's own (R170). -/
def capdnLow (s : State) (t : Nat) : Bool := bit16 s.keep.capdn t || tripped s t
/-- Either limit is FLOOR. -/
def atFloor (s : State) (t : Nat) : Bool := (trayOf s t).rm == 1 || (trayOf s t).host == 1
/-- A limit as a ceiling for an accelerator of peak cap `peak` (Table 06-1). -/
def limCeil (lim peak : Nat) : Nat := if lim == 0xFFFF then peak else lim
/-- The ceiling of an accelerator (R140, case 3). -/
def ceilingOf (s : State) (t a : Nat) : Nat :=
  let p := accPeak (descOf s t) a
  min (min (limCeil (trayOf s t).rm p) (limCeil (trayOf s t).host p)) p
/-- A LIMIT value is legal for a tray (Table 06-1): a watt figure lies between base cap and peak cap of every
present accelerator. DESIGN CHOICE (log 149): where no inventory record shows a present accelerator, a watt figure is INVALID;
the rule says only that it is judged against the present accelerators' caps. -/
def limitLegal (s : State) (t lim : Nat) : Bool :=
  lim == 0 || lim == 1 || lim == 0xFFFF ||
  (let d := descOf s t
   !(accsOf d).isEmpty && (accsOf d).all fun a => decide (accBase d a ≤ lim) && decide (lim ≤ accPeak d a))

/-! ## The leave table (Table 06-5) -/

/-- The bin that covers a duration in ms (R149). -/
def binOf (ms : Nat) : Nat :=
  ([100, 500, 2000, 10000, 30000, 60000, 300000, 600000].findIdx? (fun d => decide (ms ≤ d))).getD 7
/-- ACC_LIM. -/
def accLim (tb : Bytes) (i b : Nat) : Nat := fld tb (0x40 + (i * 8 + b) * 2) 2
/-- ACC_FLAGS.HOLD. -/
def accHold (tb : Bytes) (i : Nat) : Bool := (fld tb (0x840 + i) 1).testBit 1
/-- TRAY_LIM. -/
def trayLim (tb : Bytes) (t b : Nat) : Nat := fld tb (0x8C0 + (t * 8 + b) * 4) 4
/-- TRAY_FLAGS.BASE_OK. -/
def baseOk (tb : Bytes) (t : Nat) : Bool := (fld tb (0xAC0 + t * 4) 4).testBit 0
/-- RACK_LIM. -/
def rackLim (tb : Bytes) (b : Nat) : Nat := fld tb (0xB00 + b * 4) 4
/-- RACK_FLAGS.HOLD_ALL. -/
def holdAll (tb : Bytes) : Bool := (fld tb 0xB20 4).testBit 0
/-- The current table, zero where none is. -/
def tableOf (s : State) : Bytes := s.lv.table.getD []

/-! ## The ledger (R80, R146) -/

/-- CEILING_E (R146): the rack budget record, 80 % of it in the fallback, and at most the share on a formed
ring. Before the first table it is the record (R80). -/
def ceilingE (s : State) : Int :=
  let b := s.kt.budget.getD 0
  if !s.lv.everTable || !s.spn.formed then b
  else if s.lv.fallback then (b * 80 / 100 : Nat)
  else match s.lv.share with
    | some w => min b w
    | none => b
/-- A tray's base caps are drawn: it is not off (R146), or, in the start ledger, enabled (R80). -/
def drawsBase (s : State) (t : Nat) : Bool := if s.lv.everTable then !trayOff s t else enabled s t
/-- The base caps that the ledger counts. -/
def baseDraw (s : State) : Nat := (((List.range 16).filter (drawsBase s)).map fun t => baseSum (descOf s t)).sum
/-- Every internal draw and internal lease of a list. -/
def internalDraw (ls : List Lease) : Nat := ((ls.filter (·.kind != 0)).map (·.capW)).sum
/-- The extras of the accelerator leases of a list. -/
def extras (ls : List Lease) : Nat := ((ls.filter (·.kind == 0)).map (·.extra)).sum
/-- The extras of the accelerator leases of one tray. -/
def trayExtras (ls : List Lease) (t : Nat) : Nat := extras (ls.filter fun l => l.kind == 0 && l.owner / 8 == t)
/-- FIXED (R146). -/
def fixedW (s : State) : Nat := baseDraw s + internalDraw s.lv.leases
/-- COMMITTED (R146). -/
def committedW (s : State) : Nat := extras s.lv.leases
/-- FREE with the leases of a list in force. -/
def freeWith (s : State) (ls : List Lease) : Int := ceilingE s - baseDraw s - internalDraw ls - extras ls
/-- FREE (R146). -/
def freeW (s : State) : Int := freeWith s s.lv.leases

/-- The least time in ms after which the ends of live leases give `ok`, rounded up to a multiple of 10 and held
within 10 ms to 10 s (R149, fit_ms). -/
def fitMs (s : State) (ok : List Lease → Bool) : Nat :=
  let ends := ((s.lv.leases.filter fun l => decide (0 < l.stop)).map (·.stop)).filter fun e =>
    ok (s.lv.leases.filter fun l => l.stop == 0 || decide (e < l.stop))
  let us := ends.foldl (fun m e => min m (e - s.now)) 10000000
  max 10 (min 10000 ((us + 9999) / 10000 * 10))

/-! ## Leave answers (Table 06-7) -/

/-- The body of a leave answer. Times are keep times. -/
def leaveBody (dec reason id cap dur defer start stop : Nat) : Bytes :=
  leBytes 1 dec ++ leBytes 1 reason ++ leBytes 2 id ++ leBytes 2 cap ++ zeros 2 ++ leBytes 4 dur ++
  leBytes 4 defer ++ leBytes 8 start ++ leBytes 8 stop
/-- A leave answer (R148). -/
def leaveResp (cw : DWord) (final : Bool) (body : Bytes) : Resp :=
  { status := 0x01, final := final, op := 0x0010, cw := cw, data := body }

/-! ## Leases (R151, R152) -/

/-- The lease number after `id` that none of some leases holds: 1 to 65,535 in turn. -/
def nextLease (id : Nat) (ls : List Lease) : Nat :=
  (((List.range (ls.length + 1)).map fun k => (id + k) % 65535 + 1).find? fun n => !ls.any (·.id == n)).getD 1
/-- The partner holds the lease set and the broker state with this board: attached, or while it re-synchronises (R128,
R134). -/
def sharesState (s : State) : Bool := attached s || s.pair.state == .syncing
/-- A LEASE frame to such a partner. -/
def tellPartner (m : LeaseMsg) (s : State) : State := if sharesState s then sendPair (.lease m) s else s
/-- A lease entered in the ledger; the partner hears of it (R128). -/
def addLease (l : Lease) (s : State) : State :=
  let s := s.onLv fun v => { v with leases := v.leases ++ [l], nextId := nextLease v.nextId (v.leases ++ [l]) }
  tellPartner (.grant l) s

/-- The total draw that accelerator `i` is now allowed (R140, CAP_W of Table 06-7): none on a tray that is off, the floor cap
while CAPDN is asserted, else the cap of its live lease, or its base cap. -/
def allowedW (s : State) (i : Nat) : Nat :=
  let d := descOf s (i / 8)
  if trayOff s (i / 8) then 0
  else if capdnLow s (i / 8) then accFloor d (i % 8)
  else match s.lv.leases.find? fun l => l.kind == 0 && l.owner == i with
    | some l => l.capW
    | none => accBase d (i % 8)

/-- A lease ended (R152): its extra leaves the ledger, an accelerator lease's final record goes to its agent
with the reason, and the partner hears of it. The allowance of an expired lease falls later. `cap` is the draw that a new
lease allows, where one replaces it. -/
def endLeaseFor (cap : Option Nat) (id reason : Nat) (s : State) : State :=
  match s.lv.leases.find? (·.id == id) with
  | none => s
  | some l =>
    let s := s.onLv fun v =>
      { v with leases := v.leases.filter (·.id != id), falling := if reason == 0x10 && l.kind == 0 then v.falling ++ [l] else v.falling }
    let s := tellPartner (.ended id) (count 0x266 s)
    if l.kind == 0 then
      respond 6 (leaveResp l.cw true
        (leaveBody 3 reason l.id (cap.getD (allowedW s l.owner)) 0 0 (toKeep l.start) (toKeep l.stop))) s
    else s
/-- A lease ended with a reason. -/
def endLease (id reason : Nat) (s : State) : State := endLeaseFor none id reason s

/-- Every accelerator lease of a tray ended with one reason (R32), by the acting Lead's leave unit. -/
def revokeTray (t reason : Nat) (s : State) : State :=
  if !s.pair.lead then s else
  ((s.lv.leases.filter fun l => l.kind == 0 && l.owner / 8 == t).map (·.id)).foldl
    (fun s id => count 0x267 (endLease id reason s)) s

/-- The CAPDN lines driven to an image; the partner hears of a change (log 147). LONE_CHECK holds them (R132). -/
def driveCapdn (image : Half) (s : State) : State :=
  if s.pair.state == .lone || s.keep.capdn == image then s
  else tellPartner (.capdn image) (s.onKeep fun k => { k with capdn := image })
/-- The leave unit asserts a tray's CAPDN (R154). A Shadow's leave unit drives none (Table 05-7). -/
def assertCapdn (t : Nat) (s : State) : State :=
  if running s && !s.pair.lead then s else driveCapdn (put16 s.keep.capdn t true) s
/-- The leave unit releases a tray's CAPDN (R156). -/
def releaseCapdn (t : Nat) (s : State) : State := driveCapdn (put16 s.keep.capdn t false) s
/-- CAPDN asserted and every lease of the tray revoked. -/
def capdnRevoke (t reason : Nat) (s : State) : State := revokeTray t reason (assertCapdn t s)

/-! ## The stagger queue (R156, R157) -/

/-- Leave is held back: LONE_CHECK (R132), the cycle of a switch-back (R138), or a mismatch of POS (R18). -/
def leaveHeld (s : State) : Bool := s.pair.state == .lone || s.pair.switch == 2 || s.pair.mismatch
/-- A tray may resume (R156): not off, neither limit FLOOR, no threshold of Table 06-9, REBIND_HELD clear (R343), and
no mismatch of POS (R18). -/
def mayResume (s : State) (t : Nat) : Bool :=
  !s.pair.mismatch && !trayOff s t && !atFloor s t && !(s.stw.agents.get {} t).capdnBy && !(invOf s t).held &&
  !s.lv.tickRes.contains t && decide ((trayOf s t).overs < 2) && !bit16 s.lv.staleTrays t
/-- A start that has been granted and waits for its ready report. -/
def starting (s : State) (t : Nat) : Bool := (trayOf s t).startAt.isSome
/-- A resume queued once, for a tray whose CAPDN is asserted. During the release of R131, and for a tray that is starting
(R158), none is. -/
def queueResume (t : Nat) (s : State) : State :=
  if s.pair.lead && s.pair.silent.isNone && !starting s t && mayResume s t && bit16 s.keep.capdn t &&
      !s.lv.queue.any (fun q => q.tray == t) then
    s.onLv fun l => { l with queue := l.queue ++ [{ tray := t }] }
  else s
/-- Every tray that may resume queued, in tray order. -/
def queueResumes (s : State) : State := (List.range 16).foldl (fun s t => queueResume t s) s

/-! ## TEN (R128, R171) -/

/-- The inventory pages of the endpaper tag are due (R345). -/
def tagDue (s : State) : State := s.onStw fun w => { w with tag := { w.tag with invDue := true } }

/-- The seconds with TEN high brought up to date for one tray whose TEN changes to `b` (Table 14-6). -/
def tenHours (h : Nat) (b : Bool) (i : Inv) : Inv :=
  match i.from_, b with
  | some f, false => { i with base := i.base + (h - f), accBase := i.accBase.map (· + (h - f)), from_ := none }
  | none, true => { i with from_ := some h }
  | _, _ => i

/-- The TEN lines driven to a new image. -/
def driveTen (image : Half) (s : State) : State :=
  let old := s.keep.ten
  let h := hourMeter s
  let s := s.onKeep fun k => { k with ten := image }
  let s := (List.range 16).foldl (fun s t =>
    if bit16 old t == bit16 image t then s
    else s.onStw fun w => { w with inv := w.inv.mod {} t (tenHours h (bit16 image t)) }) s
  if old == image then s else tagDue s
/-- The TEN lines driven to a new image, which the catch store takes: at once, or with the trip image where that is due
(R171). -/
def applyTen (image : Half) (s : State) : State :=
  let s := driveTen image s
  if s.ket.imageDue.isSome || !s.keep.tenRead then s else s.onCat fun c => { c with ten := image }

/-- A change of the TEN image, by the acting Lead alone (R128): sent to an attached partner first, and applied on its
acknowledgement or after 500 µs; applied at once when no partner is attached. LONE_CHECK holds TEN: the change waits for its
end (R132). -/
def changeTen (t : Nat) (b : Bool) (s : State) : State :=
  let image := put16 (tenTarget s) t b
  if !s.pair.lead then s
  else if s.pair.state == .lone then s.onPair fun p => { p with tenWait := some image }
  else if attached s then
    sendPair (.lease (.ten image)) (s.onPair fun p => { p with tenWait := some image, ackWait := some (s.now + 500) })
  else applyTen image s

end Sys2Proof.Machine
end

