-- ==== Sys2Proof/Machine/JournalOps.lean ====
section
/-! DEFINITION. Machine/JournalOps.lean: the shared operations of the journal and of staging: finding and
changing entries, completing a command, and the objects that commands name (R93 to R106). -/

namespace Sys2Proof.Machine

/-! ## Staged objects (R93, R96) -/

/-- A staged object by its digest. -/
def findObj (d : Digest) (s : State) : Option Obj := s.stg.objs.find? (·.digest == d)
/-- The bytes of a usable staged object. -/
def objBytes (d : Digest) (s : State) : Option Bytes :=
  match findObj d s with
  | some o => if o.ready then some (o.bytes.readN 0 o.total) else none
  | none => none
/-- A staged object discarded. -/
def dropObj (d : Digest) (s : State) : State := s.onStg fun g => { g with objs := g.objs.filter (·.digest != d) }
/-- A list of disjoint rising ranges with one more range merged in. -/
def addRange (lo hi : Nat) : List (Nat × Nat) → List (Nat × Nat)
  | [] => [(lo, hi)]
  | (a, b) :: rs =>
    if hi < a then (lo, hi) :: (a, b) :: rs
    else if b < lo then (a, b) :: addRange lo hi rs
    else addRange (min lo a) (max hi b) rs
/-- The bytes that a list of ranges covers. -/
def covered (rs : List (Nat × Nat)) : Nat := (rs.map fun r => r.2 - r.1).sum
/-- The bytes staged in Binder memory (`false`) or in working store (`true`), by the size of each object's
held bytes. -/
def stagedBytes (inStore : Bool) (s : State) : Nat :=
  ((s.stg.objs.filter (·.store == inStore)).map fun o => covered o.have_).sum
/-- The staging limit in force (R93). -/
def stageLimit (inStore : Bool) : Nat := if inStore then 268435456 else 4194304

/-- The digest in a body from offset `o`. -/
def digestAt (b : Bytes) (o : Nat) : Digest := digestOf (sub b o 32)

/-- The staged object that a journaled command names (R93): its digest, where the opcode's body holds one. -/
def namedObj (op : Nat) (b : Bytes) : Option Digest :=
  match op with
  | 0x0202 | 0x0400 | 0x0402 | 0x0501 | 0x0502 => some (digestAt b 0)
  | 0x0300 | 0x0401 => if isZero b 0 32 then none else some (digestAt b 0)
  | 0x0302 => if isZero b 56 32 then none else some (digestAt b 56)
  | 0x0304 => if isZero b 24 32 then none else some (digestAt b 24)
  | 0x0805 => if fld b 0 1 == 1 then some (digestAt b 8) else none
  | _ => none

/-! ## Journal entries (R98 to R103) -/

/-- The entry of a journal sequence. -/
def findEntry (j : Nat) (s : State) : Option JEntry := s.jr.entries.find? (·.jseq == j)
/-- The entry of a catchword. -/
def findCw (cw : DWord) (s : State) : Option JEntry := s.jr.entries.find? (·.cw == cw)
/-- One entry changed. -/
def onEntry (j : Nat) (f : JEntry → JEntry) (s : State) : State :=
  s.onJr fun q => { q with entries := q.entries.map fun e => if e.jseq == j then f e else e }
/-- An entry counts against the bounds until DONE (R101). -/
def isOpen (e : JEntry) : Bool := e.state != .done
/-- The commands of a source that count against its bound, TENTATIVE ones included. -/
def openOf (src : Nat) (s : State) : Nat := (s.jr.entries.filter fun e => isOpen e && cwSrc e.cw == src).length
/-- All outstanding commands. -/
def openAll (s : State) : Nat := (s.jr.entries.filter isOpen).length

/-- The DONE entry that goes first when space is needed: the earliest DONE_TIME, then the lower JSEQ
(Table 04-11). -/
def oldestDone : List JEntry → Option JEntry
  | [] => none
  | e :: es =>
    match oldestDone es with
    | none => if e.state == .done then some e else none
    | some o => if e.state == .done && decide (e.doneTime ≤ o.doneTime) then some e else some o

/-- Room for one more of the 4,096 entries. -/
def makeRoom (es : List JEntry) : List JEntry :=
  if es.length < 4096 then es
  else match oldestDone es with
    | some o => es.filter (·.jseq != o.jseq)
    | none => es

/-- An entry's DONE sent to the mailbox of its latest arrival (R100), its named object released (R93). -/
def sendDone (e : JEntry) (s : State) : State :=
  let s := respond e.mbx
    { status := 0x01, op := e.op, cw := e.cw, ref := e.jseq % ownSeq, result := e.result, data := e.rdata } s
  match namedObj e.op.toNat e.body with
  | some d => dropObj d s
  | none => s

/-- The execution of a RESET scheduled once it is DONE (R97): an attached acting Lead first sets FAULT in its
heartbeat and waits for at most 1 ms. -/
def scheduleReset (s : State) : State :=
  let a := attached s && s.pair.lead
  let now := s.now
  (s.onJr fun q => { q with resetAt := some (if a then now + 1000 else now) }).onPair fun p =>
    { p with fault := p.fault || a }

/-- The entry made DONE and its DONE sent (Table 04-11). -/
def setDone (j : Nat) (s : State) : State :=
  match findEntry j s with
  | none => s
  | some e =>
    let s := sendDone e (onEntry j (fun e => { e with state := .done, doneWait := false, applied := true }) s)
    if e.op == 0x0803 then scheduleReset s else s

/-- A body's BRD byte (R113), for the opcodes that only the named board acts on (R391). -/
def brdOf (op : Nat) (b : Bytes) : Option Nat :=
  match op with
  | 0x0202 => some (fld b 32 1)
  | 0x0300 => some (fld b 32 1)
  | 0x0301 => some (fld b 0 1)
  | 0x0700 | 0x0701 | 0x0702 => some (fld b 0 1)
  | 0x0805 => if fld b 0 1 == 0 then none else some (fld b 2 1)
  | _ => none

/-- An entry sent over the pair link, whose acknowledgement is due within 500 µs (R102). -/
def mirror (e : JEntry) (s : State) : State :=
  let now := s.now
  let s := if pairUp s then count 0x2F2 s else s
  sendPair (.mirror e) (s.onJr fun q => { q with sentAt := q.sentAt.set e.jseq now })

/-- An entry with its result. -/
def completed (e : JEntry) (result : Word) (data : Bytes) (s : State) : JEntry :=
  { e with result := result, rdata := data, doneTime := keepTime s, applied := true }

/-- The image of an entry that is mirrored as DONE. -/
def doneImage (e : JEntry) : JEntry := { e with state := .done }
/-- An entry whose DONE waits for its mirror. -/
def holdDone (e : JEntry) : JEntry := { e with doneWait := true }

/-- A command's work is complete (R99, R102): with the partner attached the DONE is mirrored first; else it is
DONE at once, and mirrored too while a re-synchronisation streams (R134). A Shadow reports the result of an entry that names it to the acting Lead (R391), and of any
other it has only applied the effect. -/
def finish (j : Nat) (result : Word) (data : Bytes) (s : State) : State :=
  match findEntry j s with
  | none => s
  | some e =>
    if e.state == .done || e.doneWait then s
    else if running s && !s.pair.lead && j < ownSeq then
      let s := onEntry j (fun e => { e with applied := true }) s
      if (brdOf e.op.toNat e.body).isSome then sendPair (.lease (.result j result data)) s else s
    else
      let e' := completed e result data s
      if attached s && s.pair.lead then
        mirror (doneImage e') (onEntry j (fun _ => holdDone e') s)
      else
        let s := if s.pair.state == .syncing then sendPair (.mirror (doneImage e')) s else s
        setDone j (onEntry j (fun _ => e') s)

/-- `finish` with no result data. -/
def finish0 (j : Nat) (result : Word) (s : State) : State := finish j result [] s

/-- An entry that needs an object which is not staged (Table 04-11): WAIT_OBJECT, and OBJECT_NEEDED. -/
def waitObject (e : JEntry) (s : State) : State :=
  bareEvent 0x0004 2 [] e.cw (onEntry e.jseq (fun e => { e with state := .waitObject, applied := false }) s)

/-- The board that a body's BRD byte names (R113, R391): this one. A value above 1 names no board. -/
def namesMe (b : Nat) (s : State) : Bool := b == (brd s).toNat

end Sys2Proof.Machine
end

