-- ==== Sys2Proof/Machine/ResetOps.lean ====
section
/-! DEFINITION. Machine/ResetOps.lean: what a reset of BIND does (R52, R53, Table 02-6), once for every source,
and the switching off of STORE and the quire halves (R45). -/

namespace Sys2Proof.Machine

/-- What a BIND reset leaves of the leave unit: the target state of the trays (R139) alone. -/
def Leave.bindReset (l : Leave) : Leave :=
  { trays := l.trays.map fun p => (p.1,
      { permit := p.2.permit, rm := p.2.rm, holdRef := p.2.holdRef, holdEnd := p.2.holdEnd, host := p.2.host }) }

/-- What a BIND reset leaves of the journal (R100, R102, R103): the entries, marks and JSEQ. Every entry not
DONE is to be executed again. -/
def Journal.bindReset (q : Journal) : Journal :=
  { entries := q.entries.map fun e => if e.state == .done then e else { e with applied := false, doneWait := false },
    jseq := q.jseq, high := q.high, fails := q.fails, fault := q.fault }

/-- What a BIND reset leaves of the host side: PERST#; the function's and the link's registers are lost. ESEQ is no register
of Table 04-12 and the manual gives it no reset: the model starts it again here and keeps it over a PERST# (log 143). -/
def HostLink.bindReset (h : HostLink) : HostLink := { perst := h.perst }

/-- What a BIND reset leaves of the counters (R363, R371): configurations, and of the dump registers EN and the ring's own;
IRQ_EVERY, PDU_SKIPPED and the latched high word take their reset values (R6). -/
def Counters.bindReset (c : Counters) : Counters :=
  { c with val := [], ovf := [], gen := (c.gen + 1) % 2 ^ 32, irq := 0, records := 0, skipped := 0, latch := 0 }

/-- What a BIND reset leaves of the Spine node: the reference clock's state and its own FSEQ. -/
def Spine.bindReset (p : Spine) : Spine := { lref := p.lref, fseq := p.fseq, pseq := p.pseq }

/-- What a BIND reset leaves of tray stewardship (R332, R338, R344): the inventory, the golden slots that are
not being written, and the tag's memory. No bus is driven and every TFS line falls. -/
def Steward.bindReset (w : Steward) : Steward :=
  { w with
    agents := [],
    golden := w.golden.map fun p => (p.1, if p.2.state == .writing then {} else p.2),
    queue := [], run := none, tfs := none,
    tag := { w.tag with write := none, more := [] } }

/-- What a BIND reset leaves of the kettle path: routing, latches and flags; a release or proof in progress
ends, and accepted routes wait again for their replayed entries. -/
def Kettle.bindReset (k : Kettle) : Kettle := { k with waits := [], release := [], proof := [] }

/-- The freeze that holds at a BIND reset ends, carried out by the keep domain (R359, cause 4). -/
def resetThaw (s : State) : State :=
  match s.log.freeze with
  | none => s
  | some z =>
    let held := s.log.queue.length + s.log.buf.length
    thawed z.id.toNat 4 held (s.onLog Logbook.thaw)

/-- The partner is eligible (R127), as its last heartbeat says. -/
def partnerEligible (s : State) : Bool :=
  s.pair.heard && s.pair.hb.synced && s.pair.hb.state == 1 && !s.pair.mismatch

/-- SPN_HANDOFF set by an acting Lead with an eligible partner as its BIND enters reset (R133). -/
def setHandoff (s : State) : State :=
  if acting s && partnerEligible s then
    s.onKeep fun k => { k with handoff := true, handoffAt := some (s.now + 1000) }
  else s

/-- STORE and the quire halves off: working store, LPDDR5X and the objects staged there are lost (R45). -/
def storeOff (s : State) : State :=
  let s := s.onPwr fun p => { p with halfB := .off, halfA := .off, store := .off, halfWait := none }
  let s := (s.onMem fun _ => []).onAfe fun a => { a with source := [] }
  s.onStg fun g => { g with objs := g.objs.filter fun o => !o.store }

/-- A below-floor lease taken from the drive engine (R223, R224): its end result is kept, with the last 16, and its
end recorded. -/
def dropBelow (l : BelowLease) (result : Word) (s : State) : State :=
  let now := s.now
  let s := s.onDrv fun d => { d with
    leases := d.leases.filter (·.elem != l.elem),
    ends := (d.ends ++ [(l.cw, result)]).drop (d.ends.length + 1 - 16),
    lastEnd := d.lastEnd.set l.elem (now, l.cw) }
  event 0x0908 2 [l.elem, l.min, 1, result.toNat] l.cw 0 s

/-- The checkpoint slot that does not hold the highest SEQ (R306). -/
def oldSlot (l : List (Option Ckpt)) : Nat :=
  match l with
  | [some a, some b] => if a.seq < b.seq then 0 else 1
  | [some _, none] => 1
  | _ => 0
/-- A checkpoint write that is interrupted leaves a slot whose CRCs fail (R306). -/
def breakCkpt (s : State) : State :=
  if s.ep.copy.isSome then s.onCat fun c => { c with ckpt := c.ckpt.set (oldSlot c.ckpt) none } else s

/-- BIND goes down (R52, R53): every lease ends, every CAPDN is asserted by the keep domain, the bypasses
engage, and what lies in BIND, STORE, QA and QB is lost. `dom` is the state BIND takes. -/
def bindDown (dom : Dom) (s : State) : State :=
  let s := storeOff (setHandoff (breakCkpt s))
  let s := s.onPwr fun p => { p with bind := dom, releaseAt := none }
  let s := s.drv.leases.foldl (fun s l => dropBelow l 0x0903 s) s
  let s := s.onBoot fun _ => {}
  let s := (((((s.onKeep fun k => { k with capdn := 0xFFFF }).onMbx fun _ => []).onStg fun _ => {}).onJr
    Journal.bindReset).onHost HostLink.bindReset).onPmc Counters.bindReset
  let s := ((((s.onSpn Spine.bindReset).onPair fun _ => {}).onLv Leave.bindReset).onKet Kettle.bindReset).onStw
    Steward.bindReset
  let s := (((((s.onAfe Afe.bindReset).onDrv Drive.bindReset).onCan Can.bindReset).onQre Quires.bindReset).onEp
    Epoch.bindReset).onPln Planner.bindReset
  let s := s.onLog fun l => { l with period := none, samples := 0, tracks := [] }
  resetThaw s

/-- A reset that reaches BIND (R52, R53): BIND down, RESET_SRC and the RESET_RECORD folio. -/
def bindReset (src : Nat) (dom : Dom) (s : State) : State :=
  let s := bindDown dom s
  let s := s.onPwr fun p => { p with resetSrc := BitVec.ofNat 4 src }
  record 0x0F18 2 [src] 0 s

/-- The counters saved to the catch store (R48). -/
def saveCounters (s : State) : State :=
  s.onKeep fun k => { k with savedHour := hourMeter s, savedCycle := k.pcycle }

end Sys2Proof.Machine
end

