-- ==== Sys2Proof/Machine/Power.lean ====
section
/-! DEFINITION. Machine/Power.lean: the commands of chapters 02 and 16: the keep domain, the power sequencer,
clocks, resets, straps, PERST#, the link, STORE and the quire halves. -/

namespace Sys2Proof.Machine

/-! ## Keep domain -/

/-- The kettle path and keep outputs at a cold keep (R58): OTP routing, every CAPDN low, latches lost until
the images are read. -/
def coldKeep (s : State) : State :=
  let s := s.onKeep fun k =>
    { k with cold := true, capdn := 0xFFFF, tenRead := false, readAt := some (s.now + 5000), ten := 0,
             handoff := false, handoffAt := none, wake := [], wakePin := false }
  let s := s.onKet fun _ =>
    { route := s.otp.route, src := (List.range 33).map fun n => (n, { clear := some s.now }) }
  s.onSpn fun p => { p with insert := .out }

/-- The sequencer's first step (R43): BIND is powered, and stays in reset, once the keep power-on reset is released and
all rails are good. During a die over-temperature shutdown power waits for DIE_TEMP_RETURN (R375). -/
def railsUp (s : State) : State :=
  if s.keep.por || !s.pwr.rails || s.pwr.hotSince.isSome || s.pwr.bind != .off then s
  else s.onPwr fun p => { p with bind := .reset }

/-- KEEP_POR_RELEASE (R48, R53, R58): counters restored and the power-cycle counter incremented, RESET_SRC 1
recorded, BIND powered where the rails are good already (R43), and on a lost signature the cold keep. The TLS device key
is generated where none is held (R89). CAPDN stays asserted (Table 03-2): the latch holds it at every power-on reset. -/
def doKeepPorRelease (intact : Bool) (s : State) : State :=
  if !s.keep.por then s else
  let s := s.onKeep fun k =>
    { k with por := false, cold := false, tenRead := true, hourBase := k.savedHour, hourFrom := s.now, saveAt := s.now,
             coarse := false, pcycle := (k.savedCycle + 1) % 2 ^ 32 }
  let s := railsUp (s.onPwr fun p => { p with resetSrc := 1 })
  let s := if intact then s else coldKeep s
  let s := record 0x0F18 2 [1] 0 s
  let s := if intact then s else record 0x0F19 2 [] 0 s
  if s.kt.tlsKey.isSome then s
  else
    let (n, s) := draw s
    s.onKt fun k => { k with tlsKey := some n }

/-- KEEP_POR_RELEASE. -/
def execKeepPorRelease (intact : Bool) (s : State) : Host.Outcome State Fault Refusal :=
  .next (doKeepPorRelease intact s)

/-- FIELD off (R46, R52). -/
def fieldOff (s : State) : State :=
  let s := s.onPwr fun p => { p with field := .off, fieldAt := none }
  ((s.onAfe Afe.fieldReset).onDrv Drive.fieldReset).onCan Can.fieldReset

/-- VKEEP_FALL (R46, R48, R359, R376): every switched domain off, the counters saved last, the keep power-on
reset entered. The writer's queue and the holding buffer are lost. -/
def doVkeepFall (s : State) : State :=
  if s.keep.por then s else
  let s := saveCounters (fieldOff (bindDown .off s))
  let s := s.onPwr fun p => { p with rails := false, hotSince := none }
  let s := s.onLog fun l => { l with queue := [], buf := [], freeze := none }
  s.onKeep fun k => { k with por := true, readAt := none, handoffAt := none }

/-- VKEEP_FALL. -/
def execVkeepFall (s : State) : Host.Outcome State Fault Refusal := .next (doVkeepFall s)

/-- HOUR_METER_SAVE (R48): 60 s after the last periodic save, or after the power-on reset release. -/
def doHourMeterSave (s : State) : State :=
  if s.keep.por then s else
  let s := reach (s.keep.saveAt + 60000000) s
  let now := s.now
  saveCounters (s.onKeep fun k => { k with saveAt := now })

/-- HOUR_METER_SAVE. -/
def execHourMeterSave (s : State) : Host.Outcome State Fault Refusal := .next (doHourMeterSave s)

/-! ## Rails and resets -/

/-- RAIL_LOSS (R46, R48, R52): every switched domain off, RESET_SRC 2, the counters saved. -/
def doRailLoss (s : State) : State :=
  if !s.pwr.rails then s else
  let s := fieldOff (bindReset 2 .off s)
  saveCounters (s.onPwr fun p => { p with rails := false })

/-- RAIL_LOSS. -/
def execRailLoss (s : State) : Host.Outcome State Fault Refusal := .next (doRailLoss s)

/-- RAILS_GOOD (R43): the sequencer powers BIND once the keep power-on reset is released too. -/
def doRailsGood (s : State) : State := railsUp (s.onPwr fun p => { p with rails := true })

/-- RAILS_GOOD. -/
def execRailsGood (s : State) : Host.Outcome State Fault Refusal := .next (doRailsGood s)

/-- A key slot is programmed and unrevoked (Table 03-3). -/
def slotUsable (o : Otp) (n : Nat) : Bool := o.slotValid.getLsbD n && !o.slotRevoked.getLsbD n
/-- Some key slot is usable. -/
def anySlot (o : Otp) : Bool := (List.range 4).any (slotUsable o)

/-- The text line of a boot state (Table 03-1) and its code (Table 03-3). -/
def bootCode : BootState → Nat
  | .wait => 1
  | .loading => 2
  | .checking => 3
  | .starting => 4
  | .running => 5
  | .failed => 8
  | .halt => 15

/-- The boot ROM in a new state, with its UART line (Table 03-1). -/
def setBoot (b : BootState) (s : State) : State :=
  emit (.uart (bootCode b)) (s.onBoot fun x => { x with state := b })

/-- The link reaches L0: WAKE# is withdrawn where it is asserted, then one PME message is sent (R110). -/
def linkL0 (s : State) : State :=
  let s := s.onHost fun h => { h with link := .l0 }
  if s.keep.wakePin then emit .pme (s.onKeep fun k => { k with wakePin := false }) else s

/-- BIND_RESET_RELEASE (R43, R55, R56, R73, R82): the straps are sampled, the boot ROM starts in WAIT or HALT,
FIELD is scheduled by the first release that finds it off, the link trains unless PERST# is low, and CATCH_STORE_FAULT clears if the
write test passes (R105). A reset of 1 µs is over by then. -/
def doBindResetRelease (straps : Straps) (catchOk : Bool) (s : State) : State :=
  if s.pwr.bind != .reset || !s.pwr.xin || !s.pwr.fclkPll then s else
  let s := reach (s.pwr.releaseAt.getD 0) s
  let s := s.onPwr fun p =>
    { p with bind := .on, straps := straps, releaseAt := none,
             fieldAt := if p.field == .off && p.fieldAt.isNone then some (s.now + 1000) else p.fieldAt }
  let s := if s.host.perst then s.onHost fun h => { h with link := .down } else linkL0 s
  let s := s.onPmc fun c => { c with bindAt := s.now }
  let s := s.onJr fun q => { q with fault := q.fault && !catchOk, fails := if catchOk then 0 else q.fails }
  let s := s.onBoot fun _ =>
    { net := straps.bootSel == 1, netAt := if straps.bootSel == 2 then some (s.now + 30000000) else none,
      solicitAt := some s.now }
  if straps.bootSel == 3 then setBoot .halt (record 0x0F12 3 [3] 0 s)
  else if !anySlot s.otp then setBoot .halt (s.onBoot fun b => { b with lastError := 0x0F })
  else setBoot .wait s

/-- BIND_RESET_RELEASE. -/
def execBindResetRelease (straps : Straps) (catchOk : Bool) (s : State) : Host.Outcome State Fault Refusal :=
  .next (doBindResetRelease straps catchOk s)

/-- FIELD_POWER_UP (R43): 1 ms after the BIND reset release that found FIELD off. -/
def doFieldPowerUp (s : State) : State :=
  match s.pwr.fieldAt with
  | some t =>
    if s.pwr.field == .off then
      (reach t s).onPwr fun p => { p with field := .reset, fieldAt := none }
    else s
  | none => s

/-- FIELD_POWER_UP. -/
def execFieldPowerUp (s : State) : Host.Outcome State Fault Refusal := .next (doFieldPowerUp s)

/-- SYS_RST_N_LOW (R52): a reset of BIND that lasts while the pin is low. FIELD keeps running (R54). -/
def doSysRstNLow (s : State) : State := if s.pwr.bind == .off then s else bindReset 4 .reset s

/-- SYS_RST_N_LOW. -/
def execSysRstNLow (s : State) : Host.Outcome State Fault Refusal := .next (doSysRstNLow s)

/-- SPN_HANDOFF_EXPIRY (R133): TEN goes high-impedance and the Shadow role is recorded. -/
def doSpnHandoffExpiry (s : State) : State :=
  match s.keep.handoffAt with
  | none => s
  | some t =>
    ((reach t s).onKeep fun k => { k with handoffAt := none }).onKt fun k => { k with role := some false }

/-- SPN_HANDOFF_EXPIRY. -/
def execSpnHandoffExpiry (s : State) : Host.Outcome State Fault Refusal := .next (doSpnHandoffExpiry s)

/-- A reset of BIND by a source of its own, which holds it for 1 µs (R52). -/
def shortReset (src : Nat) (s : State) : State :=
  (bindReset src .reset s).onPwr fun p => { p with releaseAt := some (s.now + 1) }

/-- LOCKSTEP_MISMATCH (R52). -/
def doLockstepMismatch (s : State) : State := if s.pwr.bind == .on then shortReset 5 s else s

/-- LOCKSTEP_MISMATCH. -/
def execLockstepMismatch (s : State) : Host.Outcome State Fault Refusal := .next (doLockstepMismatch s)

/-- BINDER_WATCHDOG_EXPIRY (R52, R78): the watchdog armed in STARTING, or one that running firmware let pass. -/
def doBinderWatchdogExpiry (s : State) : State :=
  match s.boot.watchdog with
  | some t => shortReset 6 (reach t s)
  | none => if running s then shortReset 6 s else s

/-- BINDER_WATCHDOG_EXPIRY. -/
def execBinderWatchdogExpiry (s : State) : Host.Outcome State Fault Refusal := .next (doBinderWatchdogExpiry s)

/-! ## Clocks -/

/-- XIN_LOSS (R49): FCLK to the backup oscillator, the CAN controllers and the other domains held in reset,
XIN_LOSS recorded. -/
def doXinLoss (s : State) : State :=
  if s.keep.por || !s.pwr.xin then s else
  let now := s.now
  let s := s.onPwr fun p => { p with xin := false, fclkPll := false, xinAt := now, backAt := none }
  let s := ((record 0x0F11 3 [] 0 s).onCan Can.hold).onAfe Afe.clockChange
  if s.pwr.bind == .off then s else bindReset 3 .reset s

/-- XIN_LOSS. -/
def execXinLoss (s : State) : Host.Outcome State Fault Refusal := .next (doXinLoss s)

/-- The next PWM period boundary of a driven pump, in µs rounded up: its periods start at its first PWM edge. -/
def pwmBoundary (now : Nat) (p : Pump) : Nat :=
  if p.hz == 0 then now else
  let k := ((now - p.edgeFrom) * p.hz + 999999) / 1000000
  p.edgeFrom + (k * 1000000 + p.hz - 1) / p.hz
/-- FCLK on its PLL; BIND and the CAN controllers may leave reset (R49). -/
def fclkBack (s : State) : State :=
  ((s.onPwr fun p => { p with fclkPll := true, backAt := none }).onCan Can.unhold).onAfe Afe.clockChange

/-- XIN_RETURN (R49): XIN has stayed within 10 % for 10 ms. FCLK is to switch back at the next PWM period boundary of the
lowest-numbered pump that is driven, and switches back at once where none is. -/
def doXinReturn (s : State) : State :=
  if s.pwr.xin then s else
  let s := reach (s.pwr.xinAt + 10000) s
  let now := s.now
  let s := s.onPwr fun p => { p with xin := true }
  match (List.range 4).find? fun n => fieldOn s && (pumpOf s n).driven with
  | some n =>
    let at_ := pwmBoundary now (pumpOf s n)
    s.onPwr fun p => { p with backAt := some at_ }
  | none => fclkBack s

/-- XIN_RETURN. -/
def execXinReturn (s : State) : Host.Outcome State Fault Refusal := .next (doXinReturn s)

/-- FCLK_SWITCH_BACK (R49), at the boundary that XIN_RETURN found. -/
def doFclkSwitchBack (s : State) : State :=
  match s.pwr.backAt with
  | some t => fclkBack (reach t s)
  | none => s

/-- FCLK_SWITCH_BACK. -/
def execFclkSwitchBack (s : State) : Host.Outcome State Fault Refusal := .next (doFclkSwitchBack s)

/-- KXIN_CRYSTAL_FAIL (R48): no oscillation was found within 2 s of the power-on reset release, or the crystal stopped
later. The hour meter counts from KCLK, and folios carry HOURS_COARSE. No time is lost. -/
def doKxinCrystalFail (s : State) : State :=
  if s.keep.por then s else (reach (s.keep.hourFrom + 2000000) s).onKeep fun k => { k with coarse := true }

/-- KXIN_CRYSTAL_FAIL. -/
def execKxinCrystalFail (s : State) : Host.Outcome State Fault Refusal := .next (doKxinCrystalFail s)

/-- KXIN_CRYSTAL_RUN (R48): at the next whole second of the hour meter it counts from the crystal again. -/
def doKxinCrystalRun (s : State) : State :=
  if s.keep.por || !s.keep.coarse then s
  else
    let past := (s.now - s.keep.hourFrom) % 1000000
    (reach (if past == 0 then s.now else s.now + (1000000 - past)) s).onKeep fun k => { k with coarse := false }

/-- KXIN_CRYSTAL_RUN. -/
def execKxinCrystalRun (s : State) : Host.Outcome State Fault Refusal := .next (doKxinCrystalRun s)

/-! ## Die temperature -/

/-- A signed figure as the two bytes that hold it. -/
def half2 (v : Int) : Nat := ofSigned 16 v

/-- DIE_OVERTEMP (R375): every switched domain off, as at rail loss; RESET_SRC 8. -/
def doDieOvertemp (temp : Int) (s : State) : State :=
  if s.keep.por || s.pwr.hotSince.isSome || decide (temp < 1200) then s else
  let s := fieldOff (bindReset 8 .off s)
  saveCounters (s.onPwr fun p => { p with hotSince := some s.now, hotPeak := temp })

/-- DIE_OVERTEMP. -/
def execDieOvertemp (temp : Int) (s : State) : Host.Outcome State Fault Refusal := .next (doDieOvertemp temp s)

/-- DIE_TEMP_RETURN (R375): power returns under R43, RESET_SRC reads 8, and the DIE_OVERTEMP folio is written
with the peak and the duration in ms. -/
def doDieTempReturn (peak : Int) (s : State) : State :=
  match s.pwr.hotSince with
  | none => s
  | some t =>
    let pk := max peak s.pwr.hotPeak
    let s := reach (t + 1000000) s
    let s := s.onPwr fun p => { p with hotSince := none, resetSrc := 8, bind := if p.rails then .reset else p.bind }
    event 0x1000 3 [half2 pk, min ((s.now - t) / 1000) (2 ^ 32 - 1)] 0 0 s

/-- DIE_TEMP_RETURN. -/
def execDieTempReturn (peak : Int) (s : State) : Host.Outcome State Fault Refusal := .next (doDieTempReturn peak s)

/-! ## The host link -/

/-- The event ring registers and the dump registers at their reset values; the backlog is kept (R84, R369). ESEQ is kept,
and the function is in D0 again, as PCI Express has it after a fundamental reset (log 143). -/
def perstRegs (s : State) : State :=
  let s := s.onHost fun h => { backlog := h.backlog, dropOwe := h.dropOwe, eseq := h.eseq, perst := true }
  s.onPmc fun c =>
    { c with base := 0, slots := 0, period := 0, en := false, irq := 0, pi := 0, ci := 0, skipped := 0, dseq := 0,
             since := 0, records := 0, latch := 0 }

/-- A netboot payload (R71): TYPE, VERSION 1, the device's SERIAL, BLOCK, COUNT, DLEN and DATA. -/
def netBytes (serial : DWord) (ty block count : Nat) (data : Bytes) : Bytes :=
  leBytes 1 ty ++ leBytes 1 1 ++ leBytes 2 0 ++ leBytes 8 serial.toNat ++ leBytes 4 block ++ leBytes 2 count ++
  leBytes 2 data.length ++ data
/-- A netboot frame sent (R72), from the port's own MAC address. -/
def sendNet (port dst ty block count : Nat) (data : Bytes) (s : State) : State :=
  emit (.netboot port (s.otp.mac + port) dst (netBytes s.otp.serial ty block count data)) s

/-- A boot attempt that failed (R67, R75, R77): the image discarded and program memory erased, LAST_ERROR and
FAILS set, the BOOT_FAILED folio (after 8 failures at most one per 60 s), vector 0, and DONE to a netboot
server. -/
def bootFail (code : Nat) (s : State) : State :=
  let b := s.boot
  let fails := min (b.fails + 1) 255
  let due := decide (fails ≤ 8) || (match b.failedAt with | some t => decide (t + 60000000 ≤ s.now) | none => true)
  let s := if b.source == 2 then sendNet b.port b.server 5 0 0 [BitVec.ofNat 8 code] s else s
  let s := s.onBoot fun b =>
    { b with lastError := BitVec.ofNat 8 code, fails := fails, image := none, colophon := [], prog := [], reqAt := none,
             got := [], failedAt := if due then some s.now else b.failedAt }
  let s := if due then record 0x0F10 2 [code, b.source.toNat, fails, b.progress] 0 s else s
  msix 0 (setBoot .failed s)

/-- A download over PCIe is in LOADING or CHECKING. -/
def pcieLoading (s : State) : Bool :=
  (s.boot.state == .loading || s.boot.state == .checking) && s.boot.source == 1

/-- PERST_ASSERT (R68, R70, R84, R369): the endpoint, the registers of M0 and M1 with their windows and unread
responses, the event ring and dump registers, and the boot list registers; a PCIe download fails with E_LINK. -/
def doPerstAssert (s : State) : State :=
  let s := if pcieLoading s then bootFail 0x0B s else s
  let s := s.onBoot fun b => { b with listLo := 0, listHi := 0, listCount := 0 }
  let s := perstRegs s
  s.onMbx fun ms => (ms.set 0 {}).set 1 {}

/-- PERST_ASSERT. -/
def execPerstAssert (s : State) : Host.Outcome State Fault Refusal := .next (doPerstAssert s)

/-- PERST_RELEASE (R82, R383): with BIND out of reset the link trains. -/
def doPerstRelease (s : State) : State :=
  let s := s.onHost fun h => { h with perst := false, link := .down }
  if s.pwr.bind == .on then linkL0 s else s

/-- PERST_RELEASE. -/
def execPerstRelease (s : State) : Host.Outcome State Fault Refusal := .next (doPerstRelease s)

/-- TRST_N_ASSERT (R52, R61): the JTAG TAP alone. -/
def execTrstNAssert (s : State) : Host.Outcome State Fault Refusal := .next (emit .jtag s)

/-- PCIE_LINK_DOWN (R70): a PCIe download fails with E_LINK. -/
def doPcieLinkDown (s : State) : State :=
  let s := s.onHost fun h => { h with link := .down }
  if pcieLoading s then bootFail 0x0B s else s

/-- PCIE_LINK_DOWN. -/
def execPcieLinkDown (s : State) : Host.Outcome State Fault Refusal := .next (doPcieLinkDown s)

/-- HOST_LINK_L0 (R110): WAKE# is withdrawn as the link reaches L0, then one PME message is sent. While PERST#
is low or BIND is not out of reset the link stays down (R82). -/
def doHostLinkL0 (s : State) : State :=
  if s.host.perst || s.pwr.bind != .on then s else linkL0 s

/-- HOST_LINK_L0. -/
def execHostLinkL0 (s : State) : Host.Outcome State Fault Refusal := .next (doHostLinkL0 s)

/-- PCIE_D_STATE_CHANGE (R108, R109): the function's state; in D3cold the link is in L2 or L3 or down. `msix` is the
MSI-X enable that the host's configuration space holds from now on (log 136). -/
def doPcieDStateChange (d : DState) (msix : Bool) (s : State) : State :=
  if s.host.perst || s.pwr.bind != .on then s
  else s.onHost fun h => { h with dstate := d, msixEn := msix, link := if d == .d3cold then .l2 else h.link }

/-- PCIE_D_STATE_CHANGE. -/
def execPcieDStateChange (cfg : HostCfg) (s : State) : Host.Outcome State Fault Refusal :=
  .next (doPcieDStateChange cfg.d cfg.msix s)

/-! ## STORE and the quire halves -/

/-- STORE_SWITCH_ON (R44, R79): at firmware's request, which follows its first heartbeat. -/
def doStoreSwitchOn (s : State) : State :=
  if running s && s.drv.beat.isSome && s.pwr.store == .off then s.onPwr fun p => { p with store := .powering } else s

/-- STORE_SWITCH_ON. -/
def execStoreSwitchOn (s : State) : Host.Outcome State Fault Refusal := .next (doStoreSwitchOn s)

/-- STORE_READY (R44, R93, R260, R290): every slice cleared, the objects held in Binder memory moved into the staging
areas, and LPDDR5X training begun where SPILL_CONFIG has enabled it. -/
def doStoreReady (s : State) : State :=
  if s.pwr.store != .powering then s else
  let now := s.now
  let s := ((s.onPwr fun p => { p with store := .on }).onMem fun _ => []).onQre fun x => { x with scrubFrom := now }
  let s := if s.kt.spill.any fun b => fld b 0 1 == 1 then s.onQre fun x => { x with cap := 0, train := some 0 } else s
  s.onStg fun g => { g with objs := g.objs.map fun o => { o with store := true } }

/-- STORE_READY. -/
def execStoreReady (s : State) : Host.Outcome State Fault Refusal := .next (doStoreReady s)

/-- The number of a half's state (Table 11-10, in its order). -/
def halfCode : HalfState → Nat
  | .off => 0
  | .powering => 1
  | .idle => 2
  | .running => 3
/-- A quire half in a new state, reported as HALF_STATE. -/
def setHalf (h : Nat) (v : HalfState) (s : State) : State :=
  if halfOf s h == v then s else
  event 0x0B03 1 [h, halfCode (halfOf s h), halfCode v] 0 0
    (s.onPwr fun p => if h == 0 then { p with halfA := v } else { p with halfB := v })

/-- The converting draw of a quire half ends with its power (R160). -/
def endHalfLease (half : Nat) (s : State) : State :=
  match s.lv.leases.find? (fun l => l.kind == 2 && l.owner == half) with
  | some l => endLease l.id 0 s
  | none => s

/-- The epoch's entries are to be applied again once STORE is back (R282, Edges of chapter 12). -/
def reapplyEpochs (s : State) : State :=
  s.onJr fun q => { q with entries := q.entries.map fun e =>
    if e.op == 0x0400 && e.state == .pending && e.applied then { e with applied := false, redo := true } else e }

/-- STORE_SWITCH_OFF (R45): QB, then QA, then STORE. -/
def doStoreSwitchOff (s : State) : State :=
  if running s && s.pwr.store != .off then
    let s := reapplyEpochs (setHalf 0 .off (setHalf 1 .off s))
    let s := endHalfLease 0 (endHalfLease 1 (storeOff s))
    ((s.onQre Quires.bindReset).onEp Epoch.storeOff).onPln Planner.storeOff
  else s

/-- STORE_SWITCH_OFF. -/
def execStoreSwitchOff (s : State) : Host.Outcome State Fault Refusal := .next (doStoreSwitchOff s)

/-- A half under leave is powered, or waits while the other half is powering up (R44). -/
def powerHalf (h : Nat) (s : State) : State :=
  if halfOf s (1 - h) == .powering then s.onPwr fun p => { p with halfWait := some h }
  else setHalf h .powering s

/-- The answer to an internal request against FREE (R80, R146, R160): `none` is a GRANT, `some` the defer time
in ms. LONE_CHECK and switch-back defer as R132 and R138 say. -/
def internalAsk (watts : Nat) (s : State) : Option Nat :=
  if leaveHeld s || s.lv.stale then some 10
  else if s.kt.budget.isNone then some 10
  else if (watts : Int) ≤ freeW s && 0 ≤ freeW s then none
  else if !s.lv.everTable then some 10
  else some (fitMs s fun ls => decide ((watts : Int) ≤ freeWith s ls) && decide (0 ≤ freeWith s ls))

/-- BUDGET_UNSET reported once while no rack budget record is held (R80). -/
def reportUnset (s : State) : State :=
  if s.kt.budget.isNone && !s.lv.unsetRep then
    event 0x0602 2 [] 0 0 (s.onLv fun l => { l with unsetRep := true })
  else s

/-- A new internal lease (Table 06-10): timed for `ms`, or converting when `ms` is 0. -/
def grantInternal (kind owner watts ms : Nat) (s : State) : State :=
  addLease { id := s.lv.nextId, kind := kind, owner := owner, capW := watts, start := s.now,
             stop := if ms == 0 then 0 else s.now + ms * 1000 } s

/-- The need of a request that the ledger cannot carry, for the position's DEMAND (R161). -/
def needWaits (watts : Nat) (s : State) : State :=
  if leaveHeld s || s.lv.stale || s.kt.budget.isNone || (watts : Int) ≤ freeW s then s
  else s.onLv fun l => { l with waiting := l.waiting + watts }
/-- An internal operation asks for leave again after a defer time. -/
def waitLeave (kind owner watts ms defer : Nat) (s : State) : State :=
  (needWaits watts s).onLv fun l => { l with
    waits := l.waits ++ [{ id := l.waits.foldl (fun m w => max m w.id) 0 + 1, kind := kind, owner := owner, watts := watts,
                           ms := ms, at_ := s.now + defer * 1000 }] }

/-- QUIRE_HALF_SWITCH_ON (R44, R80, R160): leave of 20 W, converting; on a GRANT the half is powered, on a
DEFER the request waits. -/
def askHalf (h : Nat) (s : State) : State :=
  match internalAsk 20 s with
  | none => powerHalf h (grantInternal 2 h 20 0 s)
  | some d => waitLeave 2 h 20 0 d (reportUnset s)

/-- QB's turn (R44, Table 03-9 step 6): QA is on, or is powering up, which QB then waits for. -/
def halfTurn (h : Nat) (s : State) : Bool := h == 0 || halfOf s 0 != .off
/-- QUIRE_HALF_SWITCH_ON: STORE must be on, and the half off and not already asked for; QB comes after QA. -/
def doQuireHalfSwitchOn (half : Fin 2) (s : State) : State :=
  if running s && s.pwr.store == .on && halfOf s half == .off && halfTurn half s &&
     !s.lv.leases.any (fun l => l.kind == 2 && l.owner == half.val) &&
     !s.lv.waits.any (fun w => w.kind == 2 && w.owner == half.val) then askHalf half s
  else s

/-- QUIRE_HALF_SWITCH_ON. -/
def execQuireHalfSwitchOn (half : Fin 2) (s : State) : Host.Outcome State Fault Refusal :=
  .next (doQuireHalfSwitchOn half s)

/-- QUIRE_HALF_READY (R44, R274): the half is IDLE, and a half that waited is powered. -/
def doQuireHalfReady (half : Fin 2) (s : State) : State :=
  if halfOf s half != .powering then s else
  let s := setHalf half .idle s
  match s.pwr.halfWait with
  | some h => setHalf h .powering (s.onPwr fun p => { p with halfWait := none })
  | none => s

/-- QUIRE_HALF_READY. -/
def execQuireHalfReady (half : Fin 2) (s : State) : Host.Outcome State Fault Refusal :=
  .next (doQuireHalfReady half s)

/-- QUIRE_HALF_SWITCH_OFF (R160, R275): an IDLE half goes off and its converting leave ends. -/
def doQuireHalfSwitchOff (half : Fin 2) (s : State) : State :=
  if running s && halfOf s half == .idle then
    endHalfLease half ((setHalf half .off s).onQre (Quires.halfOff half))
  else s

/-- QUIRE_HALF_SWITCH_OFF. -/
def execQuireHalfSwitchOff (half : Fin 2) (s : State) : Host.Outcome State Fault Refusal :=
  .next (doQuireHalfSwitchOff half s)

end Sys2Proof.Machine
end

