-- ==== Sys2Proof/Machine/LeaveFx.lean ====
section
/-! DEFINITION. Machine/LeaveFx.lean: the tray and budget commands: the body rules, the admission and the effect
of opcodes 0x0100 to 0x0108, the decision of a leave request and the answer to LEASE_READ (chapter 06). -/

namespace Sys2Proof.Machine

/-! ## Body rules -/

/-- The least offset among the rules a body breaks, if any. -/
def firstBad : List (Bool × Nat) → Option Nat
  | [] => none
  | (b, o) :: cs =>
    match firstBad cs with
    | some p => if b then some (min o p) else some p
    | none => if b then some o else none
/-- A reserved field that is not 0 (R7). -/
def rsv (b : Bytes) (o n : Nat) : Bool × Nat := (!isZero b o n, o)

/-- TRAY is 0 to 15. -/
def badTray (b : Bytes) : Bool × Nat := (decide (16 ≤ fld b 0 1), 0)

/-- The body rules of TRAY_START (Table 06-2). -/
def badTrayStart (s : State) (b : Bytes) : Option Nat :=
  let lim := fld b 2 2
  firstBad [badTray b, rsv b 1 1, (lim == 0 || lim == 1 || !limitLegal s (fld b 0 1) lim, 2), rsv b 4 4]
/-- The body rules of TRAY_STOP. -/
def badTrayStop (b : Bytes) : Option Nat := firstBad [badTray b, (decide (2 ≤ fld b 1 1), 1), rsv b 2 6]
/-- The body rules of TRAY_CAP_SET. -/
def badTrayCapSet (s : State) (b : Bytes) : Option Nat :=
  firstBad [badTray b, rsv b 1 1, (!limitLegal s (fld b 0 1) (fld b 2 2), 2), rsv b 4 4]
/-- The body rules of PERMIT_SET. -/
def badPermitSet (b : Bytes) : Option Nat := firstBad [rsv b 4 4]
/-- The body rules of BUDGET_SET. -/
def badBudgetSet (b : Bytes) : Option Nat :=
  firstBad [(decide (fld b 0 4 < 1000) || decide (2000000 < fld b 0 4), 0), rsv b 4 4]
/-- The body rules of ROW_BUDGET_SET. -/
def badRowBudgetSet (b : Bytes) : Option Nat :=
  firstBad [(fld b 0 4 != 0 && (decide (fld b 0 4 < 1000) || decide (32000000 < fld b 0 4)), 0), rsv b 4 4]
/-- The body rules of STAGGER_SET. -/
def badStaggerSet (b : Bytes) : Option Nat :=
  firstBad [(decide (fld b 0 4 < 250) || decide (60000 < fld b 0 4), 0), rsv b 4 4]

/-! ## Ranks (Table 04-9, R34) -/

/-- The ranks of Table 04-7's "From" column. -/
inductive Rank where
  | host
  | rackManager
  | spineMaster
  | pairPartner
  | trayAgent
  deriving DecidableEq, Repr

/-- The rank of a record from a source with FLAGS: M7 ranks as rack manager under a key 0 token (R34). -/
def rankOf (src : Nat) (flags : Half) : Rank :=
  if src ≤ 1 then .host
  else if src ≤ 3 then .rackManager
  else if src == 4 then .pairPartner
  else if src == 5 then .spineMaster
  else if src == 7 then (if flags.getLsbD 0 && !flags.getLsbD 1 then .rackManager else .host)
  else .trayAgent
/-- The rank of a journal entry's sender. -/
def entryRank (e : JEntry) : Rank := if e.host then .host else rankOf (cwSrc e.cw) e.flags

/-! ## Target state (R139, R142, R143) -/

/-- RM_LIMIT set by a command of the rack manager: the hold reference is its catchword, and HOST_LIMIT is
lowered wherever it is higher (R139, R142). -/
def Tray.setRm (lim : Nat) (cw : DWord) (stop : Nat) (t : Tray) : Tray :=
  { t with rm := lim, holdRef := cw, holdEnd := stop, host := min t.host lim }
/-- A limit set by its sender's rank (R143). -/
def Tray.setLimit (rm : Bool) (lim : Nat) (cw : DWord) (t : Tray) : Tray :=
  if rm then t.setRm lim cw 0 else { t with host := lim }

/-- The target state of the trays with a journaled entry's limits and permits in it (R98 step 8). -/
def targetOf (e : JEntry) (ts : Tab Tray) : Tab Tray :=
  let b := e.body
  let t := fld b 0 1
  let rm := entryRank e == .rackManager
  match e.op.toNat with
  | 0x0100 => ts.mod {} t fun x => { x with host := fld b 2 2 }
  | 0x0101 => ts.mod {} t (Tray.setLimit rm 0 e.cw)
  | 0x0102 => ts.mod {} t (Tray.setLimit rm (fld b 2 2) e.cw)
  | 0x0103 => (List.range 16).foldl (fun ts t =>
      if (fld b 0 2).testBit t then ts.mod {} t fun x => { x with permit := (fld b 2 2).testBit t } else ts) ts
  | 0x0104 => ts.mod {} t (Tray.setRm (fld b 2 2) e.cw (fld b 8 8))
  | _ => ts

/-- The state as the entries already journaled will make it, as far as limits and permits go (R98 step 8). -/
def targetView (s : State) : State :=
  s.onLv fun l => { l with
    trays := (s.jr.entries.filter fun e => e.state != .done && !e.applied).foldl (fun ts e => targetOf e ts) l.trays }

/-! ## Admission (Table 06-3) -/

/-- The folio of the earliest cause of a tray's trip. -/
def tripRef (s : State) (t : Nat) : Nat :=
  (((List.range 34).filter fun c => (s.ket.causes.get 0 t).testBit c).map fun c => s.ket.refs.get 0 (64 * t + c)).foldl
    (fun m r => if m == 0 then r else if r == 0 then m else min m r) 0

/-- A refusal at step 8 of R98: STATUS, REF and DETAIL. -/
structure Refuse where
  status : Byte := 0x11
  ref    : Nat := 0
  detail : Nat := 0
  deriving DecidableEq, Repr

/-- Step 8 for a start or a raise of a tray to `lim` (Table 06-3). Table 06-1 orders OFF, FLOOR, watts and NONE
by value. -/
def admitRaise (s : State) (t lim : Nat) : Option Refuse :=
  let x := trayOf (targetView s) t
  if tripped s t then some { ref := tripRef s t }
  else if x.rm == 0 || x.rm == 1 || x.rm < lim then some { ref := x.holdRef.toNat }
  else if !x.permit || s.pair.mismatch then some {}
  else if !s.lv.everTable then some { status := 0x12 }
  else none

/-- Step 8 for TRAY_START. -/
def admitTrayStart (s : State) (b : Bytes) : Option Refuse := admitRaise s (fld b 0 1) (fld b 2 2)
/-- Step 8 for TRAY_CAP_SET: a host command that raises HOST_LIMIT. -/
def admitTrayCapSet (rank : Rank) (s : State) (b : Bytes) : Option Refuse :=
  let t := fld b 0 1
  if rank != .rackManager && decide ((trayOf (targetView s) t).host < fld b 2 2) then admitRaise s t (fld b 2 2)
  else none

/-! ## Effects -/

/-- BUDGET_OVER reported once when FREE goes negative (R146), once the ledger is kept. -/
def checkOver (s : State) : State :=
  if !s.lv.everTable then s
  else if freeW s < 0 then
    if s.lv.overRep then s else event 0x0603 2 [] 0 0 (s.onLv fun l => { l with overRep := true })
  else s.onLv fun l => { l with overRep := false }

/-- A queued or running start of a tray ended with a result. -/
def endStart (t : Nat) (result : Word) (s : State) : State :=
  let j := (trayOf s t).startSeq
  if j == 0 then s
  else
    let now := s.now
    let s := s.onLv fun l => { l with
      queue := l.queue.filter fun q => !(q.start && q.tray == t),
      deferAt := if l.queue.head?.any (fun q => q.start && q.tray == t) then none else l.deferAt,
      slotAt := if l.slotTray == some t then some now else l.slotAt,
      slotTray := if l.slotTray == some t then none else l.slotTray }
    finish0 j result (onTray t (fun x => { x with startSeq := 0, startAt := none }) s)

/-- The stops of a tray whose TEN line is low complete (R144), also where a trip has dropped TEN before the stop's time. -/
def settleStop (t : Nat) (s : State) : State :=
  let x := trayOf s t
  if x.stopSeqs.isEmpty || bit16 s.keep.ten t || (x.stopAt.isSome && !tripped s t) then s
  else
    x.stopSeqs.foldl (fun s j => finish0 j 0 s) (onTray t (fun x => { x with stopSeqs := [], stopAt := none }) s)

/-- The consequences of TEN lines at their new levels: stops complete, and the stagger interval of a started tray
runs from its TEN assertion (R144, R157). -/
def afterTen (s : State) : State :=
  let s := match s.lv.slotTray with
    | some t =>
      if bit16 s.keep.ten t then
        s.onLv fun l => { l with slotTray := none, slotAt := some (s.now + s.kt.stagger * 1000) }
      else s
    | none => s
  (List.range 16).foldl (fun s t => settleStop t s) s

/-- A control written to a tray agent (R328, Table 14-3). -/
def control (t op arg : Nat) (s : State) : State :=
  if !s.pair.lead && op != 1 then s
  else
    let n := (s.stw.agents.get {} t).cseq + 1
    emit (.i3c (t / 4) (0x10 + t % 4) (controlBytes op arg n))
      (s.onStw fun w => { w with agents := w.agents.mod {} t fun a => { a with cseq := n } })

/-- ENABLED clears (R144): TEN falls per R128. -/
def clearEnabled (t : Nat) (s : State) : State :=
  afterTen (changeTen t false (onTray t (fun x => { x with stopAt := none }) s))

/-- A tray is stopped (R141, R144): CAPDN and revocation at once; then ENABLED clears after 10 ms, or after the
halted report or 30 s. `j` is the TRAY_STOP that waits for TEN to be low, or 0. -/
def stopTray (t mode j : Nat) (s : State) : State :=
  let s := capdnRevoke t 0x13 s
  let s := endStart t 0x0603 s
  let s := onTray t (fun x => { x with stopSeqs := if j == 0 then x.stopSeqs else x.stopSeqs ++ [j] }) s
  if !enabled s t then settleStop t s
  else
    let at_ := s.now + (if mode == 1 then 10000 else 30000000)
    let s := onTray t (fun x => { x with
      stopMode := mode, stopAt := some (match x.stopAt with | some a => min a at_ | none => at_) }) s
    if mode == 0 then control t 4 0 s else s

/-- A lease above a lowered ceiling trimmed to it, with TRIMMED (R141). -/
def trimLease (l : Lease) (s : State) : State :=
  let t := l.owner / 8
  let a := l.owner % 8
  let c := ceilingOf s t a
  if l.kind == 0 && c < l.capW then
    let l' := { l with capW := c, extra := c - accBase (descOf s t) a }
    let s := s.onLv fun v => { v with leases := v.leases.map fun x => if x.id == l.id then l' else x }
    respond 6 (leaveResp l.cw false
      (leaveBody 4 0x18 l.id c 0 0 (toKeep l.start) (toKeep l.stop))) (tellPartner (.grant l') s)
  else s
/-- Every lease of a tray above its ceiling trimmed. -/
def trimTray (t : Nat) (s : State) : State :=
  if !s.pair.lead then s
  else (s.lv.leases.filter fun l => l.kind == 0 && l.owner / 8 == t).foldl (fun s l => trimLease l s) s

/-- The hold that a tray's RM_LIMIT came from completes, when another command sets it (R143). -/
def endHold (t : Nat) (result : Word) (s : State) : State :=
  let j := (trayOf s t).holdSeq
  if j == 0 then s else finish0 j result (onTray t (fun x => { x with holdSeq := 0 }) s)

/-- A start that is outstanding, queued or already granted, is pre-empted, and its tray does not start (R106). -/
def preempt (t : Nat) (s : State) : State :=
  if (trayOf s t).startSeq == 0 then s
  else
    let on := starting s t
    let s := endStart t 0xE2 s
    if on then afterTen (changeTen t false s) else s

/-- What a changed limit of a tray brings about (R141, R156): `old` is the tray before. A start is pre-empted by a limit that
a command of the rack manager (`rm`) sets below its own (R106, log 130). DESIGN CHOICE (log 149): a limit that becomes OFF stops the tray as a TRAY_STOP of
MODE 0 does, with the HALT control, and so clears ENABLED; the rules name neither a mode nor ENABLED there. -/
def afterLimits (t : Nat) (rm : Bool) (old : Tray) (s : State) : State :=
  let x := trayOf s t
  let s := if rm && (x.rm < old.host || x.rm ≤ 1) then preempt t s else s
  if x.rm == 0 || x.host == 0 then
    if old.rm == 0 || old.host == 0 then s else stopTray t 0 0 s
  else if x.rm == 1 || x.host == 1 then
    if old.rm == 1 || old.host == 1 then s else capdnRevoke t 0x13 s
  else
    let s := if min x.rm x.host < min old.rm old.host then trimTray t s else s
    if old.rm == 1 || old.host == 1 then queueResume t s else s

/-- TRAY_START's effect (R143, R144). -/
def fxTrayStart (e : JEntry) (s : State) : State :=
  let t := fld e.body 0 1
  if enabled s t then finish0 e.jseq 0x0604 s
  else
    let x := trayOf s t
    if !x.permit || x.rm ≤ 1 then finish0 e.jseq 0xE2 s
    else if tripped s t then finish0 e.jseq 0x0602 s
    else
      let s := onTray t (fun x => { x with host := fld e.body 2 2, startSeq := e.jseq }) (endStart t 0x0603 s)
      s.onLv fun l => { l with queue := l.queue ++ [{ tray := t, start := true, jseq := e.jseq }] }

/-- TRAY_STOP's effect (R143, R144). -/
def fxTrayStop (e : JEntry) (s : State) : State :=
  let t := fld e.body 0 1
  let rm := entryRank e == .rackManager
  let s := if rm then endHold t 0 s else s
  let s := onTray t (Tray.setLimit rm 0 e.cw) s
  let s := s.onStw fun w => { w with inv := w.inv.mod {} t fun i => { i with held := false } }
  stopTray t (fld e.body 1 1) e.jseq s

/-- TRAY_CAP_SET's effect (R141 to R143). -/
def fxTrayCapSet (e : JEntry) (s : State) : State :=
  let t := fld e.body 0 1
  let rm := entryRank e == .rackManager
  let old := trayOf s t
  let s := if rm then endHold t 0 s else s
  let s := onTray t (Tray.setLimit rm (fld e.body 2 2) e.cw) s
  finish0 e.jseq 0 (afterLimits t rm old s)

/-- PERMIT_SET's effect (R31, R106, R142): a withdrawn permit pre-empts an outstanding start and sheds nothing. -/
def fxPermitSet (e : JEntry) (s : State) : State :=
  let s := (List.range 16).foldl (fun s t =>
    if (fld e.body 0 2).testBit t then
      let p := (fld e.body 2 2).testBit t
      let s := onTray t (fun x => { x with permit := p }) s
      if !p then preempt t s else s
    else s) s
  finish0 e.jseq 0 s

/-- HOLD_SET's effect (R103, R143): a hold with an END is outstanding until END; one whose END has passed is
EXPIRED. -/
def fxHoldSet (e : JEntry) (s : State) : State :=
  let t := fld e.body 0 1
  let stop := fld e.body 8 8
  if stop != 0 && decide (stop ≤ keepTime s) then finish0 e.jseq 0xE1 s
  else
    let old := trayOf s t
    let s := onTray t (Tray.setRm (fld e.body 2 2) e.cw stop) (endHold t 0 s)
    let s := afterLimits t true old s
    if stop == 0 then finish0 e.jseq 0 s else onTray t (fun x => { x with holdSeq := e.jseq }) s

/-- BUDGET_SET's effect (R80, R164). -/
def fxBudgetSet (e : JEntry) (s : State) : State :=
  let s := s.onKt fun k => { k with budget := some (fld e.body 0 4) }
  finish0 e.jseq 0 (checkOver (s.onLv fun l => { l with unsetRep := false }))

/-- ROW_BUDGET_SET's effect (R164). -/
def fxRowBudgetSet (e : JEntry) (s : State) : State :=
  finish0 e.jseq 0 (s.onKt fun k => { k with rowBudget := fld e.body 0 4 })

/-- The present row tick (R120). -/
def rowTick (s : State) : Nat := rowTime s / 10000000

/-- A share that has come to its TICK applies, and its ROW_SHARE_SET is DONE (R121, R146, Table 06-2). -/
def applyShare (j w : Nat) (s : State) : State :=
  let old := s.lv.share
  let cw := ((findEntry j s).map (·.cw)).getD 0
  let s := s.onLv fun l => { l with share := some w, fallback := false }
  let s := if old == some w then s else event 0x0607 1 [w] cw 0 s
  finish0 j 0 (checkOver s)
/-- The shares whose TICK has come, in the order of their effects. -/
def applyShares (s : State) : State :=
  let k := rowTick s
  let due := s.lv.shareWait.filter fun x => decide (x.2.2 ≤ k)
  due.foldl (fun s x => applyShare x.1 x.2.1 s) (s.onLv fun l => { l with shareWait := l.shareWait.filter fun x => decide (k < x.2.2) })
/-- ROW_SHARE_SET's effect (R121, R143, Table 06-3): STALE for another census generation or a past tick; else the share waits
for its TICK (Table 06-2). -/
def fxRowShareSet (e : JEntry) (s : State) : State :=
  let k := fld e.body 8 8
  if fld e.body 4 4 != s.spn.gen || decide (k < rowTick s) then finish0 e.jseq 0x0605 s
  else applyShares (s.onLv fun l => { l with shareWait := l.shareWait ++ [(e.jseq, fld e.body 0 4, k)] })

/-- STAGGER_SET's effect (R159). -/
def fxStaggerSet (e : JEntry) (s : State) : State :=
  finish0 e.jseq 0 (s.onKt fun k => { k with stagger := fld e.body 0 4 })

/-! ## Leave requests (R147 to R151) -/

/-- The live lease of an accelerator. -/
def leaseOf (s : State) (i : Nat) : Option Lease := s.lv.leases.find? fun l => l.kind == 0 && l.owner == i

/-- A leave decision. -/
inductive Decision where
  | grant (cap : Nat)
  | defer (ms reason : Nat)
  | deny (reason : Nat)
  deriving DecidableEq, Repr

/-- The head of R149 with the leases of a list in force. -/
def headWith (s : State) (ls : List Lease) (t b aLim own : Nat) : Int :=
  let tb := tableOf s
  min (min (aLim : Int) ((trayLim tb t b : Int) - trayExtras ls t + own))
    (min ((rackLim tb b : Int) - extras ls + own) (freeWith s ls + own))

/-- The rebinding of a tray holds off its requests (R341): one admitted, queued or running. -/
def rebindHolds (s : State) (t : Nat) : Bool :=
  s.jr.entries.any fun e => e.op == 0x0500 && e.state != .done && fld e.body 0 1 == t

/-- The decision of R149. DESIGN CHOICE (log 149): under a mismatch of POS, in which R18 has all leave refused and Table 06-8 has
no reason of its own, the answer is DEFER of 10 ms with PAIR. -/
def decideLeave (s : State) (t a want_w min_w ms : Nat) : Decision :=
  let tb := tableOf s
  let i := t * 8 + a
  let b := binOf ms
  let own := match leaseOf s i with | some l => l.extra | none => 0
  if s.lv.table.isNone || s.lv.stale then .defer 10 0x08
  else if leaveHeld s then .defer 10 0x09
  else if tripped s t then .deny 0x04
  else if trayOff s t then .deny 0x03
  else if capdnLow s t || rebindHolds s t then .defer (max 10 (min s.kt.stagger 10000)) 0x07
  else
    let base := accBase (descOf s t) a
    let c := ceilingOf s t a
    if c < min_w then .deny 0x02
    else
      let want := min want_w c - base
      let need := min_w - base
      let aLim := if accHold tb i || holdAll tb then 0 else accLim tb i b
      let head := headWith s s.lv.leases t b aLim own
      if (need : Int) ≤ head && 0 ≤ freeW s then .grant (base + (min (want : Int) head).toNat)
      else if min aLim (min (trayLim tb t b) (rackLim tb b)) < need then .deny 0x01
      else if ceilingE s - fixedW s < need then .deny 0x05
      else
        let mine := fun l : Lease => l.kind == 0 && l.owner == i
        .defer (fitMs s fun ls =>
          decide ((need : Int) ≤ headWith s ls t b aLim (if ls.any mine then own else 0)) &&
          decide (0 ≤ freeWith s ls)) 0x06

/-- The rules of a LEAVE_REQUEST's body (Table 06-6): the offset of the first broken one. -/
def badLeave (s : State) (t : Nat) (b : Bytes) : Option Nat :=
  let a := fld b 0 1
  let d := descOf s t
  let want := fld b 4 2
  let least := fld b 6 2
  let ms := fld b 8 4
  firstBad [(decide (8 ≤ a) || !accPresent d a, 0), rsv b 1 3,
    (decide (want ≤ accBase d a) || decide (accPeak d a < want), 4),
    (decide (least ≤ accBase d a) || decide (want < least), 6),
    (decide (ms < 10) || decide (600000 < ms), 8), rsv b 12 4]

/-- The GRANT record of a lease. -/
def grantResp (cw : DWord) (l : Lease) : Resp :=
  leaveResp cw false
    (leaveBody 0 0 l.id l.capW ((l.stop - l.start) / 1000) 0 (toKeep l.start) (toKeep l.stop))

/-- A grant: an old lease of the accelerator ends RENEWED, and the new one enters the ledger (R151). A full set
of 128 slots cannot arise, since each accelerator holds at most one lease. -/
def grantLease (i cap ms : Nat) (cw : DWord) (s : State) : State :=
  let s := match leaseOf s i with
    | some l => endLeaseFor (some cap) l.id 0x16 s
    | none => s
  let base := accBase (descOf s (i / 8)) (i % 8)
  let l : Lease := { id := s.lv.nextId, kind := 0, owner := i, extra := cap - base, capW := cap, cw := cw,
                     start := s.now, stop := s.now + ms * 1000 }
  respond 6 (grantResp cw l) (addLease l s)

/-- The decision carried out and answered (R148), with its counters. -/
def answerLeave (t : Nat) (cw : DWord) (b : Bytes) (s : State) : State :=
  let a := fld b 0 1
  let want := fld b 4 2
  let ms := fld b 8 4
  let s := count 0x268 s
  match decideLeave s t a want (fld b 6 2) ms with
  | .grant cap =>
    grantLease (t * 8 + a) cap ms cw (count (if cap < want then 0x262 else 0x261) s)
  | .defer d reason =>
    let need := fld b 6 2 - accBase (descOf s t) a
    let s := if reason == 6 then s.onLv fun l => { l with waiting := l.waiting + need } else s
    respond 6 (leaveResp cw true (leaveBody 1 reason 0 (allowedW s (t * 8 + a)) 0 d 0 0)) (count 0x263 s)
  | .deny reason =>
    let need := fld b 6 2 - accBase (descOf s t) a
    let s := if reason == 5 then s.onLv fun l => { l with waiting := l.waiting + need } else s
    respond 6 (leaveResp cw true (leaveBody 2 reason 0 (allowedW s (t * 8 + a)) 0 0 0 0)) (count 0x264 s)

/-- An INVALID answer. -/
def invalidResp (op : Half) (cw : DWord) (off : Nat) : Resp :=
  { status := 0x14, op := op, cw := cw, detail := off }

/-- A LEAVE_REQUEST at the leave unit (R147). `len` is the record's LENGTH. -/
def leaveRequest (len : Nat) (cw : DWord) (b : Bytes) (s : State) : State :=
  let t := trayOfSrc (cwSrc cw)
  let s := count 0x260 s
  match s.lv.leases.find? (fun l => l.kind == 0 && l.cw == cw) with
  | some l => if len == 48 then respond 6 (grantResp cw l) s else respond 6 (invalidResp 0x0010 cw 4) (count 0x265 s)
  | none =>
    if len != 48 then respond 6 (invalidResp 0x0010 cw 4) (count 0x265 s)
    else if cwSeq cw ≤ s.lv.high.get 0 (cwSrc cw) then respond 6 (invalidResp 0x0010 cw 8) (count 0x265 s)
    else
      let s := s.onLv fun l => { l with high := l.high.set (cwSrc cw) (cwSeq cw) }
      let s := tellPartner (.high (BitVec.ofNat 16 (cwSrc cw)) (cwSeq cw)) s
      match badLeave s t b with
      | some o => respond 6 (invalidResp 0x0010 cw (32 + o)) (count 0x265 s)
      | none => answerLeave t cw b s

/-- A LEAVE_RETURN at the leave unit (R147, R152): the final record carries the return's catchword. -/
def leaveReturn (len : Nat) (cw : DWord) (b : Bytes) (s : State) : State :=
  let t := trayOfSrc (cwSrc cw)
  if len != 40 then respond 6 (invalidResp 0x0011 cw 4) s
  else if cwSeq cw ≤ s.lv.high.get 0 (cwSrc cw) then respond 6 (invalidResp 0x0011 cw 8) s
  else
    let s := s.onLv fun l => { l with high := l.high.set (cwSrc cw) (cwSeq cw) }
    let s := tellPartner (.high (BitVec.ofNat 16 (cwSrc cw)) (cwSeq cw)) s
    if !isZero b 2 6 then respond 6 (invalidResp 0x0011 cw 34) s
    else match s.lv.leases.find? (fun l => l.kind == 0 && l.id == fld b 0 2 && l.owner / 8 == t) with
      | none => respond 6 (invalidResp 0x0011 cw 32) s
      | some l =>
        let s := s.onLv fun v => { v with leases := v.leases.filter (·.id != l.id) }
        let s := tellPartner (.ended l.id) s
        respond 6 { (leaveResp cw true (leaveBody 3 0x11 l.id (allowedW s l.owner) 0 0 (toKeep l.start) (toKeep l.stop))) with
          op := 0x0011 } (count 0x266 s)

/-! ## LEASE_READ (R153) -/

/-- One 32-byte entry of LEASE_READ. -/
def leaseEntry (l : Lease) : Bytes :=
  leBytes 2 l.id ++ leBytes 1 l.kind ++ leBytes 1 (if l.kind == 0 then l.owner % 8 else l.owner) ++
  leBytes 4 (if l.kind == 0 then l.extra else l.capW) ++ leBytes 8 l.cw.toNat ++ leBytes 8 (toKeep l.start) ++
  leBytes 8 (if l.stop == 0 then 0 else toKeep l.stop)

/-- The draw of a started tray, which has become base draw, with its start's catchword and grant time (R153, R158). It holds
no lease slot, and its LEASE_ID is 0 (log 123). -/
def trayDraw (s : State) (t : Nat) : Lease :=
  { kind := 1, owner := t, capW := baseSum (descOf s t), cw := (trayOf s t).drawCw, start := (trayOf s t).drawAt }

/-- The result of LEASE_READ. -/
def leaseRead (s : State) (b : Bytes) : Bytes :=
  let t := fld b 0 1
  let sum := leBytes 4 (ofSigned 32 (ceilingE s)) ++ leBytes 4 (fixedW s) ++ leBytes 4 (committedW s) ++
    leBytes 4 (ofSigned 32 (freeW s))
  if t == 0xFE then
    sum ++ (((s.lv.leases.filter (·.kind != 0)) ++
      (((List.range 16).filter fun t => !trayOff s t).map (trayDraw s))).map leaseEntry).flatten
  else sum ++ ((s.lv.leases.filter fun l => l.kind == 0 && l.owner / 8 == t).map leaseEntry).flatten

/-- The body rules of LEASE_READ. -/
def badLeaseRead (b : Bytes) : Option Nat :=
  firstBad [(decide (16 ≤ fld b 0 1) && fld b 0 1 != 0xFE, 0), rsv b 1 7]

end Sys2Proof.Machine
end

