-- ==== Sys2Proof/Machine/Steward.lean ====
section
/-! DEFINITION. Machine/Steward.lean: tray stewardship: descriptors and the inventory, golden images, rebinding,
and the endpaper tag (chapter 14). -/

namespace Sys2Proof.Machine

/-! ## Descriptors and the inventory (R333 to R336) -/

/-- A tray descriptor is valid (R333). -/
def descValid (d : Bytes) : Bool :=
  d.length == 320 && crcOk d 320 && fld d 0 2 == 1 && isZero d 3 1 && isZero d 296 20 &&
  fld d 2 1 == (accsOf d).length &&
  (List.range 8).all fun a =>
    let o := 40 + 32 * a
    let f := fld d (o + 2) 2
    let b := accBase d a
    let p := accPeak d a
    if accPresent d a then
      isZero d (o + 1) 1 && isZero d (o + 28) 4 && decide (1 ≤ f) && decide (f ≤ b) && decide (2 ≤ b) && decide (b < p) &&
      decide (p ≤ 65534)
    else isZero d o 32

/-- The accelerators in which two descriptors differ, as a mask. -/
def accDiff (d e : Bytes) : Nat :=
  ((List.range 8).map fun a => if sub d (40 + 32 * a) 32 == sub e (40 + 32 * a) 32 then 0 else 2 ^ a).sum

/-- A descriptor read from an agent (R333, R334). -/
def readDesc (t : Nat) (d : Bytes) (s : State) : State :=
  if !descValid d then event 0x0E04 2 [t] 0 0 s
  else
    let i := invOf s t
    match i.desc with
    | none => s.onStw fun w => { w with inv := w.inv.mod {} t fun i => { i with adopt := some d } }
    | some e =>
      if d == e then s.onStw fun w => { w with inv := w.inv.mod {} t fun i => { i with pend := none } }
      else if trayOff s t then s.onStw fun w => { w with inv := w.inv.mod {} t fun i => { i with adopt := some d, pend := none } }
      else
        event 0x0E03 2 [t, accDiff d e] 0 0
          (s.onStw fun w => { w with inv := w.inv.mod {} t fun i => { i with pend := some d } })

/-- An inventory record with a descriptor adopted: the hours of each accelerator whose SERIAL changed restart
(R334). -/
def Inv.take (d : Bytes) (time hour : Nat) (i : Inv) : Inv :=
  let old := i.desc.getD []
  let run := match i.from_ with | some f => hour - f | none => 0
  { i with desc := some d, pend := none, adopt := none, adoptAt := time,
           accBase := (List.range 8).map fun a =>
             if sub old (40 + 32 * a + 8) 8 == sub d (40 + 32 * a + 8) 8 then i.accBase.getD a 0 + run else 0,
           base := i.base + run, from_ := i.from_.map fun _ => hour }

/-- The adoptions due at a cycle tick (R334). -/
def adoptAll (s : State) : State :=
  (List.range 16).foldl (fun s t =>
    let i := invOf s t
    let d := match i.adopt with
      | some d => some d
      | none => if trayOff s t then i.pend else none
    match d with
    | none => s
    | some d =>
      let k := keepTime s
      let h := hourMeter s
      tagDue (event 0x0E02 1 [t] 0 0 (s.onStw fun w => { w with inv := w.inv.mod {} t (Inv.take d k h) }))) s

/-- The code of a link state (Table 14-6 LINK). -/
def linkCode : LinkSt → Nat
  | .absent => 0
  | .up => 1
  | .silent => 2
  | .lost => 3

/-- An agent's link state. -/
def agentOf (s : State) (t : Nat) : Agent := s.stw.agents.get {} t
/-- An agent's link changed. -/
def onAgent (t : Nat) (f : Agent → Agent) (s : State) : State :=
  s.onStw fun w => { w with agents := w.agents.mod {} t f }
/-- A change of link state, reported as AGENT_LINK (R332). -/
def setLink (t : Nat) (v : LinkSt) (s : State) : State :=
  let old := (agentOf s t).link
  let s := onAgent t (fun a => { a with link := v }) s
  if old == v then s
  else event 0x0E00 (if v == .up then 1 else 2) [t, linkCode old, linkCode v] 0 0 s

/-- The seconds with TEN high, up to now. -/
def enabledS (s : State) (i : Inv) : Nat := i.base + (match i.from_ with | some f => hourMeter s - f | none => 0)
/-- A present accelerator's seconds with TEN high. -/
def accS (s : State) (i : Inv) (a : Nat) : Nat :=
  if accPresent (i.desc.getD []) a then
    i.accBase.getD a 0 + (match i.from_ with | some f => hourMeter s - f | none => 0)
  else 0

/-- The inventory record of a tray (Table 14-6), its CRC last. -/
def invRecord (s : State) (t : Nat) : Bytes :=
  let i := invOf s t
  let b := sub (i.desc.getD []) 0 320 ++ leBytes 8 (enabledS s i) ++ leBytes 4 i.trips ++ leBytes 4 i.rebinds ++
    ((List.range 8).map fun a => leBytes 8 (accS s i a)).flatten ++ leBytes 8 i.lastTime ++ leBytes 1 i.lastSlot ++
    leBytes 1 (linkCode (agentOf s t).link) ++
    leBytes 2 (i.desc.isSome.toNat + 2 * i.pend.isSome.toNat + 4 * i.held.toNat) ++ leBytes 4 i.imgVer ++
    leBytes 8 i.adoptAt ++ zeros 20
  b ++ leBytes 4 (crc32c b)

/-- The code of a golden slot's state (Table 14-8). -/
def slotCode : SlotSt → Nat
  | .empty => 0
  | .valid => 1
  | .bad => 2
  | .writing => 3
/-- A golden slot. -/
def goldenOf (s : State) (n : Nat) : Golden := s.stw.golden.get {} n
/-- The directory entry of a golden slot (Table 14-8). -/
def slotEntry (s : State) (n : Nat) : Bytes :=
  let g := goldenOf s n
  let h := g.header
  leBytes 1 n ++ leBytes 1 (slotCode g.state) ++ zeros 2 ++ sub h 8 8 ++ sub h 16 4 ++ sub h 20 4 ++ sub h 28 2 ++
  sub h 30 2 ++ zeros 8 ++ sub h 64 32

/-- The trips latched on any tray so far. -/
def tripCount (s : State) : Nat := ((List.range 16).map fun t => (invOf s t).trips).sum

/-- The latest severity 3 folios held, newest first: those in the logbook and those waiting. -/
def severe (s : State) : List Folio :=
  (((s.log.slots ++ s.log.queue ++ s.log.buf).filter (·.sev == 3)).reverse).take 8

/-- The tray that a severe folio concerns, 0xFF for none: the first of a trip's mask, or the first field of a
chapter 14 event. -/
def folioTray (f : Folio) : Nat :=
  if f.code == 0x0700 || f.code == 0x0707 then ((List.range 16).find? fun t => (f.data.headD 0).testBit t).getD 0xFF
  else if f.code == 0x0E05 || f.code == 0x0604 then f.data.headD 0xFF
  else 0xFF

/-- The device record (Table 14-10) with a GEN, its CRC last. -/
def deviceRecord (gen : Nat) (s : State) : Bytes :=
  let c := s.boot.image.getD []
  let b := leBytes 4 0x47545045 ++ leBytes 2 1 ++ zeros 2 ++ leBytes 4 gen ++ leBytes 1 s.pwr.straps.pos.toNat ++
    leBytes 1 s.pair.lead.toNat ++ zeros 2 ++ leBytes 8 s.otp.serial.toNat ++ sub c 0x028 24 ++ sub c 0x00C 2 ++
    zeros 2 ++ leBytes 4 (hourMeter s / 3600) ++ leBytes 4 s.keep.pcycle ++ leBytes 4 (tripCount s) ++
    leBytes 8 (keepTime s) ++
    (sub (((severe s).map fun f =>
      leBytes 8 f.time ++ leBytes 2 f.code.toNat ++ leBytes 1 (folioTray f) ++ zeros 1 ++ leBytes 4 f.fseq).flatten) 0 128) ++
    zeros 52
  b ++ leBytes 4 (crc32c b)

/-- A tray summary (Table 14-11), its CRC last. -/
def traySummary (gen : Nat) (s : State) (t : Nat) : Bytes :=
  let i := invOf s t
  let d := i.desc.getD []
  let fl := i.desc.isSome.toNat + 2 * (enabled s t).toNat + 4 * (tripped s t).toNat + 8 * i.held.toNat
  let b := leBytes 1 t ++ leBytes 1 fl ++ zeros 2 ++ leBytes 4 gen ++ sub d 4 16 ++
    leBytes 4 (enabledS s i / 3600) ++ leBytes 2 (min i.rebinds 65535) ++ leBytes 2 (min i.trips 65535) ++
    leBytes 4 i.imgVer ++
    ((List.range 8).map fun a => if accPresent d a then sub d (40 + 32 * a + 8) 8 else zeros 8).flatten ++ zeros 8
  b ++ leBytes 4 (crc32c b)

/-- The result of INVENTORY_READ (R336). -/
def inventoryRead (s : State) (b : Bytes) : Bytes :=
  let t := fld b 0 1
  if t == 0xFF then deviceRecord s.stw.tag.gen s
  else if t == 0xFE then ((List.range 8).map (slotEntry s)).flatten
  else invRecord s t ++ ((invOf s t).pend.getD [])
/-- The body rules of INVENTORY_READ. -/
def badInventoryRead (b : Bytes) : Option Nat :=
  firstBad [(decide (16 ≤ fld b 0 1) && fld b 0 1 != 0xFE && fld b 0 1 != 0xFF, 0), rsv b 1 7]

/-! ## Golden images (R338, R339) -/

/-- A staged object is a golden image: Table 14-7 holds and the payload has its digest. -/
def goldenValid (o : Bytes) : Bool :=
  let plen := fld o 20 4
  fld o 0 4 == 0x4E444C47 && fld o 4 2 == 1 && isZero o 6 2 && decide (1 ≤ plen) && decide (plen ≤ 16777216 - 128) &&
  fld o 24 4 % 65536 == 0 && decide (fld o 28 2 ≤ 10000) && decide (10 ≤ fld o 30 2) && decide (fld o 30 2 ≤ 3600) &&
  isZero o 32 32 && isZero o 96 28 && crcOk (sub o 0 128) 128 && o.length == 128 + plen &&
  sub o 64 32 == sha256Bytes (o.drop 128)

/-- The body rules of GOLDEN_STORE. -/
def badGoldenStore (s : State) (b : Bytes) : Option Nat :=
  firstBad [((match objBytes (digestAt b 0) s with | some o => !goldenValid o | none => true), 0),
    (decide (8 ≤ fld b 32 1), 32), rsv b 33 7]

/-- A rebinding accepted and not over names the slot (R338). -/
def slotNamed (s : State) (n : Nat) : Bool :=
  s.jr.entries.any fun e => e.op == 0x0500 && e.state != .done && fld e.body 1 1 == n

/-- Step 8 for GOLDEN_STORE. -/
def admitGoldenStore (s : State) (b : Bytes) : Option Refuse := if slotNamed s (fld b 32 1) then some {} else none

/-- GOLDEN_STORE's effect: the slot is WRITING. -/
def fxGoldenStore (e : JEntry) (s : State) : State :=
  match objBytes (digestAt e.body 0) s with
  | none => waitObject e s
  | some o =>
    s.onStw fun w => { w with
      golden := w.golden.set (fld e.body 32 1) { state := .writing, header := sub o 0 128, payload := o.drop 128, jseq := e.jseq } }

/-- The slot being written: of those WRITING, the one whose GOLDEN_STORE comes first in journal order. -/
def writingSlot (s : State) : Option Nat :=
  (List.range 8).foldl (fun m n =>
    if (goldenOf s n).state != .writing then m
    else match m with
      | some k => if (goldenOf s n).jseq < (goldenOf s k).jseq then some n else some k
      | none => some n) none

/-- The GOLDEN_STORE entries in effect for a slot and not over, up to the one whose image is being written: an earlier
one was overtaken in the slot and completes with it. -/
def storesOf (s : State) (n j : Nat) : List Nat :=
  ((s.jr.entries.filter fun e =>
    e.op == 0x0501 && e.applied && e.state != .done && fld e.body 32 1 == n && decide (e.jseq < j)).map (·.jseq)) ++ [j]

/-- GOLDEN_WRITE_DONE (R338). -/
def doGoldenWriteDone (ok : Bool) (s : State) : State :=
  match writingSlot s with
  | none => s
  | some n =>
    let g := goldenOf s n
    let st := if ok then SlotSt.valid else .bad
    let s := s.onStw fun w => { w with golden := w.golden.set n { g with state := st, scrub := s.now + 86400000000 } }
    (storesOf s n g.jseq).foldl (fun s j => finish0 j (if ok then 0 else 0x0E06) s) s

/-- GOLDEN_WRITE_DONE. -/
def execGoldenWriteDone (ok : Bool) (s : State) : Host.Outcome State Fault Refusal := .next (doGoldenWriteDone ok s)

/-- A slot found bad (R339). -/
def slotBad (n : Nat) (s : State) : State :=
  event 0x0E06 3 [n] 0 0 (s.onStw fun w => { w with golden := w.golden.mod {} n fun g => { g with state := .bad } })

/-- GOLDEN_SCRUB (R339): every 24 h each VALID slot is checked. -/
def doGoldenScrub (slot : Fin 8) (ok : Bool) (s : State) : State :=
  let g := goldenOf s slot
  if g.state != .valid || !running s then s else
  let s := reach g.scrub s
  if ok then s.onStw fun w => { w with golden := w.golden.mod {} slot fun g => { g with scrub := s.now + 86400000000 } }
  else slotBad slot s

/-- GOLDEN_SCRUB. -/
def execGoldenScrub (slot : Fin 8) (ok : Bool) (s : State) : Host.Outcome State Fault Refusal :=
  .next (doGoldenScrub slot ok s)

/-! ## Rebinding (R341 to R344) -/

/-- The body rules of REBIND. -/
def badRebind (b : Bytes) : Option Nat := firstBad [badTray b, (decide (8 ≤ fld b 1 1), 1), rsv b 2 6]

/-- The PART of a golden header serves every present accelerator of a tray. -/
def partsMatch (h d : Bytes) : Bool := (accsOf d).all fun a => sub d (40 + 32 * a + 16) 8 == sub h 8 8

/-- Step 8 for REBIND (R341). -/
def admitRebind (s : State) (b : Bytes) : Option Refuse :=
  let t := fld b 0 1
  let g := goldenOf s (fld b 1 1)
  if tripped s t then some { ref := tripRef s t }
  else if g.state != .valid || (invOf s t).desc.isNone || !partsMatch g.header (descOf s t) || (agentOf s t).link != .up
    then some {}
  else match s.lv.leases.find? (fun l => l.kind == 0 && l.owner / 8 == t) with
    | some l => some { status := 0x12, detail := (l.stop - s.now + 999) / 1000 }
    | none => none

/-- The next queued rebinding starts (R342 step 1). -/
def startRebind (s : State) : State :=
  match s.stw.run, s.stw.queue with
  | none, r :: q => s.onStw fun w => { w with queue := q, run := some { job := r } }
  | _, _ => s

/-- REBIND_HELD as it stood before any rebinding of the tray that is not over took effect. -/
def priorHeld (t : Nat) (s : State) : Bool :=
  match (match s.stw.run with | some r => [r.job] | none => []) ++ s.stw.queue |>.find? (·.tray == t) with
  | some r => r.prior
  | none => (invOf s t).held

/-- REBIND's effect (R342): CAPDN asserted, REBIND_HELD set, and the rebinding queued. -/
def fxRebind (e : JEntry) (s : State) : State :=
  let t := fld e.body 0 1
  if !s.pair.lead then s else
  let prior := priorHeld t s
  let s := assertCapdn t s
  startRebind (s.onStw fun w => { w with
    inv := w.inv.mod {} t fun i => { i with held := true },
    queue := w.queue ++ [{ jseq := e.jseq, tray := t, slot := fld e.body 1 1, prior := prior }] })

/-- REBIND_HELD is left set by a rebinding's end (R343): not by OK; by a failure once the tray has been touched, or where
it was set before. -/
def leavesHeld (r : Running) (ok : Bool) : Bool :=
  !ok && ((r.step != .verify && r.step != .leave) || r.job.prior)

/-- A rebinding ends (R343): its leave ends, TFS falls, the end is recorded and reported, the command completes,
and the next starts. REBIND_HELD also stays set where another rebinding of the tray waits and this one failed. -/
def endRebind (result : Word) (s : State) : State :=
  match s.stw.run with
  | none => s
  | some r =>
    let t := r.job.tray
    let ok := result == 0
    let kept := (invOf s t).held && leavesHeld r ok
    let g := goldenOf s r.job.slot
    let k := keepTime s
    let s := if r.lease == 0 then s else endLease r.lease 0 s
    let s := s.onLv fun l => { l with waits := l.waits.filter fun w => !(w.kind == 5 && w.owner == t) }
    let s := s.onStw fun w => { w with
      run := none, tfs := none,
      queue := w.queue.map fun q => if q.tray == t then { q with prior := kept } else q,
      inv := w.inv.mod {} t fun i =>
        { i with lastTime := k, held := kept || (i.held && !ok && w.queue.any (·.tray == t)),
                 rebinds := i.rebinds + ok.toNat,
                 imgVer := if ok then fld g.header 16 4 else i.imgVer,
                 lastSlot := if ok then r.job.slot else i.lastSlot } }
    let s := event 0x0E05 (if ok then 1 else 3) [t, r.job.slot, result.toNat] 0 0 s
    let s := finish0 r.job.jseq result (tagDue s)
    startRebind (queueResume t s)

/-- The running rebinding is of a tray. -/
def rebinding (t : Nat) (s : State) : Bool := match s.stw.run with | some r => r.job.tray == t | none => false

/-- Every rebinding of a tray, running or queued, aborted (R344). -/
def abortRebind (t : Nat) (s : State) : State :=
  let gone := s.stw.queue.filter (·.tray == t)
  let prior := priorHeld t s
  let s := s.onStw fun w => { w with
    queue := w.queue.filter (·.tray != t),
    inv := if gone.isEmpty then w.inv else w.inv.mod {} t fun i => { i with held := i.held && (prior || rebinding t s) } }
  let s := gone.foldl (fun s r => finish0 r.jseq 0x0E03 s) s
  match s.stw.run with
  | some r => if r.job.tray == t then endRebind 0x0E03 s else s
  | none => s

/-- Step 2 of R342 granted: the bound runs, and REBIND_BEGIN is written (step 3). -/
def beginRebind (r : Running) (s : State) : State :=
  let h := (goldenOf s r.job.slot).header
  let id := s.lv.nextId
  let us := fld h 30 2 * 1000000
  let s := grantInternal 5 r.job.tray (fld h 28 2) (fld h 30 2 * 1000) s
  let s := s.onStw fun w => { w with
    run := some { r with step := .begin_, lease := id, bound := some (s.now + us), until_ := some (s.now + 5000000) } }
  control r.job.tray 2 r.job.slot s

/-- Step 2 of R342: timed leave of REBIND_W for TIME_S. -/
def askRebind (r : Running) (s : State) : State :=
  let h := (goldenOf s r.job.slot).header
  match internalAsk (fld h 28 2) s with
  | none => beginRebind r s
  | some d =>
    waitLeave 5 r.job.tray (fld h 28 2) (fld h 30 2 * 1000) d
      (s.onStw fun w => { w with run := some { r with step := .leave } })

/-- REBIND_VERIFY_DONE (R339, R342 step 1). -/
def doRebindVerifyDone (ok : Bool) (s : State) : State :=
  match s.stw.run with
  | some r =>
    if r.step != .verify then s
    else if (goldenOf s r.job.slot).state == .bad then endRebind 0x0E02 s
    else if ok then askRebind r s
    else endRebind 0x0E02 (slotBad r.job.slot s)
  | none => s

/-- REBIND_VERIFY_DONE. -/
def execRebindVerifyDone (ok : Bool) (s : State) : Host.Outcome State Fault Refusal := .next (doRebindVerifyDone ok s)

/-- REBIND_PROGRAM_DONE (R342 step 4): the slot's payload stands in the tray flash, and read-back starts. -/
def doRebindProgramDone (s : State) : State :=
  match s.stw.run with
  | some r =>
    if r.step == .program then
      let g := goldenOf s r.job.slot
      emit (.flash r.job.tray (fld g.header 24 4) g.payload) (s.onStw fun w => { w with run := some { r with step := .readback } })
    else s
  | none => s

/-- REBIND_PROGRAM_DONE. -/
def execRebindProgramDone (s : State) : Host.Outcome State Fault Refusal := .next (doRebindProgramDone s)

/-- REBIND_READBACK_DONE (R342 steps 5 and 6): on a match TFS falls and REBIND_END is written; a first mismatch
programs again, a second is VERIFY_FAIL. -/
def doRebindReadbackDone (same : Bool) (s : State) : State :=
  match s.stw.run with
  | some r =>
    if r.step != .readback then s
    else if same then
      control r.job.tray 3 0 (s.onStw fun w => { w with
        tfs := none, run := some { r with step := .end_, until_ := some (s.now + 120000000) } })
    else if r.tries == 0 then s.onStw fun w => { w with run := some { r with step := .program, tries := 1 } }
    else endRebind 0x0E02 s
  | none => s

/-- REBIND_READBACK_DONE. -/
def execRebindReadbackDone (same : Bool) (s : State) : Host.Outcome State Fault Refusal :=
  .next (doRebindReadbackDone same s)

/-- REBIND_AGENT_TIMEOUT (R342 steps 3 and 6). -/
def doRebindAgentTimeout (s : State) : State :=
  match s.stw.run with
  | some r =>
    match r.until_ with
    | some t => if r.step == .begin_ || r.step == .end_ then endRebind 0x0E05 (reach t s) else s
    | none => s
  | none => s

/-- REBIND_AGENT_TIMEOUT. -/
def execRebindAgentTimeout (s : State) : Host.Outcome State Fault Refusal := .next (doRebindAgentTimeout s)

/-- REBIND_BOUND_EXPIRY (R344). -/
def doRebindBoundExpiry (s : State) : State :=
  match s.stw.run with
  | some r => match r.bound with
    | some t => endRebind 0x0E04 (reach t s)
    | none => s
  | none => s

/-- REBIND_BOUND_EXPIRY. -/
def execRebindBoundExpiry (s : State) : Host.Outcome State Fault Refusal := .next (doRebindBoundExpiry s)

/-- An agent's report moves the running rebinding on (R342 steps 3, 4, 6 and 7). -/
def rebindReport (t state : Nat) (s : State) : State :=
  match s.stw.run with
  | some r =>
    if r.job.tray != t then s
    else if r.step == .begin_ && state == 3 then
      s.onStw fun w => { w with tfs := some t, run := some { r with step := .program, until_ := none } }
    else if r.step == .end_ && state == 1 then endRebind 0 s
    else s
  | none => s

/-! ## The endpaper tag (R345 to R349) -/

/-- The tag changed. -/
def onTag (f : Tag → Tag) (s : State) : State := s.onStw fun w => { w with tag := f w.tag }

/-- TAG_INVENTORY_WRITE (R345): pages 1 to 7, then page 0, all with one new GEN, at a cause or once every 1 h. -/
def doTagInventoryWrite (s : State) : State :=
  if !running s then s else
  let s := if s.stw.tag.invDue then s else reach s.stw.tag.invAt s
  let gen := (s.stw.tag.gen + 1) % 2 ^ 32
  let pages := ((List.range 16).map (traySummary gen s)).flatten
  let dev := deviceRecord gen s
  onTag (fun g => { g with
    mem := (g.mem.writeN 0x100 pages).writeN 0 dev, gen := gen, invDue := false, invAt := s.now + 3600000000 }) s

/-- TAG_INVENTORY_WRITE. -/
def execTagInventoryWrite (s : State) : Host.Outcome State Fault Refusal := .next (doTagInventoryWrite s)

/-- The body rules of TAG_WRITE (R349). -/
def badTagWrite (s : State) (b : Bytes) : Option Nat :=
  firstBad [((match objBytes (digestAt b 0) s with | some o => o.length != 256 | none => true), 0),
    (decide (fld b 32 1 < 8) || decide (31 < fld b 32 1), 32), (decide (2 ≤ fld b 33 1), 33), rsv b 34 6]

/-- TAG_WRITE's effect: the wired page write begins, after the writes before it. -/
def fxTagWrite (e : JEntry) (s : State) : State :=
  match objBytes (digestAt e.body 0) s with
  | none => waitObject e s
  | some o =>
    let w : TagWrite :=
      { page := fld e.body 32 1, bytes := o, lock := fld e.body 33 1 == 1, jseq := e.jseq, stop := s.now + 1000000 }
    onTag (fun g => if g.write.isSome then { g with more := g.more ++ [w] } else { g with write := some w }) s

/-- A wired page write is over: the next that waits begins, with its own 1 s. -/
def Tag.next (now : Nat) (g : Tag) : Tag :=
  match g.more with
  | w :: ws => { g with write := some { w with stop := now + 1000000 }, more := ws }
  | [] => { g with write := none }

/-- TAG_WIRED_SWAP (R347, R349): the shadow page replaces the page in one edge, with its RF_LOCK, and TAG_WRITE
completes. -/
def doTagWiredSwap (s : State) : State :=
  match s.stw.tag.write with
  | some w =>
    if w.busy then s else
    finish0 w.jseq 0 (onTag (fun g => Tag.next s.now { g with
      mem := g.mem.writeN (256 * w.page) w.bytes,
      lock := if w.lock then g.lock ||| (1#32 <<< w.page) else g.lock &&& ~~~(1#32 <<< w.page) }) s)
  | none => s

/-- TAG_WIRED_SWAP. -/
def execTagWiredSwap (s : State) : Host.Outcome State Fault Refusal := .next (doTagWiredSwap s)

/-- TAG_WIRED_BUSY (R347): the access waited 20 ms; a TAG_WRITE is retried after 50 ms (R349), an inventory write
at its next cause. -/
def doTagWiredBusy (s : State) : State :=
  onTag (fun g => match g.write with
    | some w => { g with write := some { w with busy := true, retry := s.now + 50000 } }
    | none => { g with invDue := false, invAt := if g.invAt ≤ s.now then s.now + 3600000000 else g.invAt }) s

/-- TAG_WIRED_BUSY. -/
def execTagWiredBusy (s : State) : Host.Outcome State Fault Refusal := .next (doTagWiredBusy s)

/-- TAG_WRITE_RETRY (R349). -/
def doTagWriteRetry (s : State) : State :=
  match s.stw.tag.write with
  | some w => if w.busy then onTag (fun g => { g with write := some { w with busy := false } }) (reach w.retry s) else s
  | none => s

/-- TAG_WRITE_RETRY. -/
def execTagWriteRetry (s : State) : Host.Outcome State Fault Refusal := .next (doTagWriteRetry s)

/-- TAG_WRITE_TIMEOUT (R349): after 1 s without success the page is unchanged. -/
def doTagWriteTimeout (s : State) : State :=
  match s.stw.tag.write with
  | some w =>
    let s := reach w.stop s
    finish0 w.jseq 0x0E07 (onTag (Tag.next s.now) s)
  | none => s

/-- TAG_WRITE_TIMEOUT. -/
def execTagWriteTimeout (s : State) : Host.Outcome State Fault Refusal := .next (doTagWriteTimeout s)

/-- TAG_RF_POLL (R348): every 1 s, TAG_RF_WRITE for each page whose count has changed. -/
def doTagRfPoll (s : State) : State :=
  if !running s then s else
  let s := reach s.stw.tag.pollAt s
  let s := (List.range 32).foldl (fun s p =>
    let c := s.stw.tag.counts.get 0 p
    if c == s.stw.tag.told.get 0 p then s
    else event 0x0E07 1 [p, c] 0 0 (onTag (fun g => { g with told := g.told.set p c }) s)) s
  onTag (fun g => { g with pollAt := s.now + 1000000 }) s

/-- TAG_RF_POLL. -/
def execTagRfPoll (s : State) : Host.Outcome State Fault Refusal := .next (doTagRfPoll s)

/-- The tag's UID, least significant byte first (R346). -/
def tagUid (s : State) : Bytes := leBytes 6 (s.otp.serial.toNat % 2 ^ 48) ++ [s.otp.tagMfr, 0xE0]

/-- A request's UID is the tag's. -/
def uidIs (u : DWord) (s : State) : Bool := u.toNat == leVal (tagUid s)

/-- A block is locked against RF writes (R348). -/
def rfLocked (g : Tag) (blk : Nat) : Bool :=
  let p := blk / 8
  decide (p < 8) || g.lock.getLsbD p || (match g.write with | some w => w.page == p && !w.busy | none => false)

/-- RF_INVENTORY (R346): a tag that is not quiet answers when the mask equals the low bits of its UID. -/
def doRfInventory (maskLen mask : Nat) (s : State) : State :=
  let s := count 0x3E3 s
  if s.stw.tag.state != .quiet && mask == leVal (tagUid s) % 2 ^ maskLen then emit (.rf 0 ([0] ++ tagUid s)) s else s

/-- RF_INVENTORY. -/
def execRfInventory (maskLen mask : Nat) (s : State) : Host.Outcome State Fault Refusal :=
  .next (doRfInventory maskLen mask s)

/-- RF_STAY_QUIET (R346): no answer. -/
def doRfStayQuiet (uid : DWord) (s : State) : State :=
  let s := count 0x3E3 s
  if uidIs uid s then onTag (fun g => { g with state := .quiet }) s else s

/-- RF_STAY_QUIET. -/
def execRfStayQuiet (uid : DWord) (s : State) : Host.Outcome State Fault Refusal := .next (doRfStayQuiet uid s)

/-- RF_SELECT (R346): the tag with the UID is selected; a selected tag with another UID becomes ready. -/
def doRfSelect (uid : DWord) (s : State) : State :=
  let s := count 0x3E3 s
  if uidIs uid s then emit (.rf 0 []) (onTag (fun g => { g with state := .selected }) s)
  else if s.stw.tag.state == .selected then onTag (fun g => { g with state := .ready }) s
  else s

/-- RF_SELECT. -/
def execRfSelect (uid : DWord) (s : State) : Host.Outcome State Fault Refusal := .next (doRfSelect uid s)

/-- RF_RESET_TO_READY (R346), addressed or not. -/
def doRfResetToReady (uid : Option DWord) (s : State) : State :=
  let s := count 0x3E3 s
  if (match uid with | some u => uidIs u s | none => true) then
    emit (.rf 0 []) (onTag (fun g => { g with state := .ready }) s)
  else s

/-- RF_RESET_TO_READY. -/
def execRfResetToReady (uid : Option DWord) (s : State) : Host.Outcome State Fault Refusal :=
  .next (doRfResetToReady uid s)

/-- RF_GET_SYSTEM_INFORMATION (R346): DSFID 0, AFI 0, 256 blocks of 32 bytes. -/
def doRfGetSystemInformation (s : State) : State :=
  let s := count 0x3E3 s
  emit (.rf 0 ([0x07] ++ tagUid s ++ [0, 0, 255, 31])) s

/-- RF_GET_SYSTEM_INFORMATION. -/
def execRfGetSystemInformation (s : State) : Host.Outcome State Fault Refusal := .next (doRfGetSystemInformation s)

/-- RF_READ_SINGLE_BLOCK (R346, R347): a wired page write in progress leaves the old contents readable. A block
that does not exist is answered with error 0x10. -/
def doRfReadSingleBlock (blk : Nat) (s : State) : State :=
  let s := count 0x3E3 s
  if blk < 256 then emit (.rf 0 (s.stw.tag.mem.readN (32 * blk) 32)) s else emit (.rf 0x10 []) s

/-- RF_READ_SINGLE_BLOCK. -/
def execRfReadSingleBlock (blk : Nat) (s : State) : Host.Outcome State Fault Refusal := .next (doRfReadSingleBlock blk s)

/-- RF_READ_MULTIPLE_BLOCKS (R347): up to 32 blocks within one hold. -/
def doRfReadMultipleBlocks (first n : Nat) (s : State) : State :=
  let s := count 0x3E3 s
  if n ≤ 32 && first + n ≤ 256 then emit (.rf 0 (s.stw.tag.mem.readN (32 * first) (32 * n))) s
  else emit (.rf (if first + n ≤ 256 then 0x0F else 0x10) []) s

/-- RF_READ_MULTIPLE_BLOCKS. -/
def execRfReadMultipleBlocks (first n : Nat) (s : State) : Host.Outcome State Fault Refusal :=
  .next (doRfReadMultipleBlocks first n s)

/-- RF_WRITE_SINGLE_BLOCK (R348): error 0x12 where the block is locked; otherwise written and counted. -/
def doRfWriteSingleBlock (blk : Nat) (data : Bytes) (s : State) : State :=
  let s := count 0x3E3 s
  if 256 ≤ blk then emit (.rf 0x10 []) s
  else if rfLocked s.stw.tag blk then emit (.rf 0x12 []) s
  else emit (.rf 0 []) (onTag (fun g => { g with
    mem := g.mem.writeN (32 * blk) (sub data 0 32),
    counts := g.counts.set (blk / 8) ((g.counts.get 0 (blk / 8) + 1) % 65536) }) s)

/-- RF_WRITE_SINGLE_BLOCK. -/
def execRfWriteSingleBlock (blk : Nat) (data : Bytes) (s : State) : Host.Outcome State Fault Refusal :=
  .next (doRfWriteSingleBlock blk data s)

/-- RF_GET_BLOCK_SECURITY (R348): one status byte per block. -/
def doRfGetBlockSecurity (first n : Nat) (s : State) : State :=
  let s := count 0x3E3 s
  if first + n ≤ 256 then
    emit (.rf 0 ((List.range n).map fun i => if rfLocked s.stw.tag (first + i) then 1 else 0)) s
  else emit (.rf 0x10 []) s

/-- RF_GET_BLOCK_SECURITY. -/
def execRfGetBlockSecurity (first n : Nat) (s : State) : Host.Outcome State Fault Refusal :=
  .next (doRfGetBlockSecurity first n s)

end Sys2Proof.Machine
end

