-- ==== Sys2Proof/Machine/Kettle.lean ====
section
/-! DEFINITION. Machine/Kettle.lean: the kettle path: the route record, trips, foreign trips, rope location, leak
conditions, masking, release and proof (chapter 07). -/

namespace Sys2Proof.Machine

/-! ## The route record (Tables 07-2 and 07-3, R167) -/

/-- The tray mask of a source. -/
def routeMask (r : Option Bytes) (n : Nat) : Nat :=
  if n == 32 then routeFld r 0x48 2 0xFFFF else routeFld r (8 + 2 * n) 2 0xFFFF
/-- A source drives TCH_OUT. -/
def routeTch (r : Option Bytes) (n : Nat) : Bool := decide (n < 32) && (routeFld r 4 4 0xFFFFFFFF).testBit n
/-- ROPE_LEN of a rope input. -/
def ropeLen (r : Option Bytes) (n : Nat) : Nat := routeFld r (0xD0 + 2 * n) 2 1500

/-- A configuration word lies in its range (Table 07-3). -/
def incfgOk (c : Nat) : Bool :=
  decide (c % 256 ≤ 100) && decide (c / 256 % 32 ≤ 18) && c / 32768 == 0 && !(c.testBit 14 && c / 256 % 32 == 0)

/-- A route record is valid (R167). -/
def routeValid (b : Bytes) : Bool :=
  b.length == 256 && fld b 0 2 == 1 && crcOk b 256 && isZero b 2 2 && isZero b 0x4A 2 && isZero b 0xF0 12 &&
  (let c := fld b 0x4C 4; decide (c % 256 ≤ 100) && c / 256 % 64 == 0 && c / 32768 == 0) &&
  ((List.range 32).all fun n => incfgOk (fld b (0x50 + 4 * n) 4)) &&
  (List.range 16).all fun n => decide (1 ≤ fld b (0xD0 + 2 * n) 2) && decide (fld b (0xD0 + 2 * n) 2 ≤ 1500)

/-! ## Sources -/

/-- A source changed. -/
def onLeak (n : Nat) (f : Leak → Leak) (s : State) : State := s.onKet fun k => { k with src := k.src.mod {} n f }
/-- A source reads clear (R177). -/
def readsClear (r : Option Bytes) (n : Nat) (l : Leak) : Bool := routeEnable r n && !leakActive r n l

/-- A transition at the filter output, with those of the last second kept (R177). -/
def Leak.transit (now : Nat) (l : Leak) : Leak :=
  { l with trans := now :: l.trans.filter fun t => decide (now < t + 1000000) }

/-! ## Trips (R170 to R173) -/

/-- The indices of a mask's bits. -/
def bitsOf (n m : Nat) : List Nat := (List.range n).filter m.testBit
/-- A mask of indices. -/
def maskOf (l : List Nat) : Nat := l.foldl (fun m i => m ||| 2 ^ i) 0

/-- This board's TRIP driver of a tray is on (R170, R173): its latch is set, and not by FOREIGN alone. -/
def tripDriven (s : State) (t : Nat) : Bool :=
  tripped s t && (s.ket.causes.get 0 t == 0 || s.ket.causes.get 0 t % 2 ^ 33 != 0)
/-- TCH_OUT is driven low (R170, R178). -/
def tchOutLow (s : State) : Bool :=
  (List.range 32).any fun n => routeTch s.ket.route n && (leakOf s n).latch && !(leakOf s n).masked

/-- The trip and cause images are to be saved within 1 ms (R171). -/
def imageSoon (s : State) : State :=
  s.onKet fun k => { k with imageDue := some (match k.imageDue with | some t => t | none => s.now + 1000) }

/-- TEN driven low at a mask of trays and their bits cleared in the TEN image, where this board drives TEN
(R170). -/
def dropTen (m : Nat) (s : State) : State :=
  if !drivesTen s then s
  else
    let keepBits := ~~~(BitVec.ofNat 16 m)
    driveTen (s.keep.ten &&& keepBits) (s.onPair fun p => { p with tenWait := p.tenWait.map (· &&& keepBits) })

/-- What the leave unit and the tray side do at a new trip of a tray (R155, R32, R158, R344). -/
def tripTray (t : Nat) (s : State) : State :=
  let s := s.onStw fun w => { w with inv := w.inv.mod {} t fun i => { i with trips := (i.trips + 1) % 2 ^ 32 } }
  settleStop t (abortRebind t (assertCapdn t (endStart t 0x0602 (revokeTray t 0x12 s))))

/-- The trip latches of a mask of trays set with a cause: bit 0 to 32 a source, 33 FOREIGN. The folio and event
name the trays whose latch or cause changed. -/
def tripTrays (m cause loc : Nat) (s : State) : State :=
  let fresh := (bitsOf 16 m).filter fun t => !tripped s t
  let chg := (bitsOf 16 m).filter fun t => !tripped s t || !(s.ket.causes.get 0 t).testBit cause
  let s := s.onKet fun k => { k with
    trip := k.trip ||| BitVec.ofNat 16 m,
    causes := (bitsOf 16 m).foldl (fun c t => c.mod 0 t (· ||| 2 ^ cause)) k.causes,
    foreignHi := if cause == 33 then (bitsOf 16 m).foldl (fun c t => c.set t false) k.foreignHi else k.foreignHi }
  let s := fresh.foldl (fun s t => tripTray t s) (dropTen m s)
  let s := if fresh.isEmpty then s else tagDue (wakeCause 1 (count 0x3E1 s))
  if chg.isEmpty then s
  else
    let ref := s.log.fseq + 1
    let s := s.onKet fun k => { k with
      refs := chg.foldl (fun r t => if r.get 0 (64 * t + cause) == 0 then r.set (64 * t + cause) ref else r) k.refs }
    let s := if cause == 33 then event 0x0707 3 [maskOf chg] 0 0 s
      else event 0x0700 3 [maskOf chg, 2 ^ cause, loc] 0 0 s
    imageSoon s

/-- A source that is active and not masked acts on the matrix (R170, R178): its input latch and its trays. A rope's
first measurement is due 1 ms after the latch. -/
def tripSource (n : Nat) (s : State) : State :=
  let l := leakOf s n
  if l.masked then s
  else
    let s := onLeak n (fun l => { l with latch := true }) s
    tripTrays (routeMask s.ket.route n) n l.loc s

/-- A source after a change of what it reads or of its configuration: `was` says whether it was active. -/
def reexamine (n : Nat) (was : Bool) (s : State) : State :=
  let l := leakOf s n
  let a := leakActive s.ket.route n l
  let s := onLeak n (fun l => { l with
    clear := if readsClear s.ket.route n l then (match l.clear with | some t => some t | none => some s.now) else none,
    since := if a then (match l.since with | some t => some t | none => some s.now) else none }) s
  if a && !was then tripSource n s else s

/-- What a source reads changed by `f`, with what follows. -/
def senseChange (n : Nat) (f : Leak → Leak) (s : State) : State :=
  let was := leakActive s.ket.route n (leakOf s n)
  reexamine n was (onLeak n f s)

/-- The keep domain senses a source: it runs, and the source is enabled (R166). -/
def sensed (s : State) (n : Nat) : Bool := !s.keep.por && routeEnable s.ket.route n

/-- The flags of a source in the catch store (R177, R178), once the stored ones have been read (R65). -/
def saveFlags (n : Nat) (s : State) : State :=
  if s.keep.por || !s.keep.tenRead then s else
  let l := leakOf s n
  s.onCat fun c => { c with
    masks := c.masks.set n l.masked, stuck := c.stuck.set n l.stuck, chat := c.chat.set n l.chat,
    open_ := c.open_.set n l.open_, short := c.short.set n l.short }
/-- A flag that set or cleared: its folio and event, with the source and 1 or 0 (log 13). -/
def flagEvent (code : Half) (sev n v : Nat) (s : State) : State := saveFlags n (event code sev [n, v] 0 0 s)

/-- A source as its comparator reads it from a time on. -/
def Leak.sense (n now : Nat) (wet short : Bool) (l : Leak) : Leak :=
  { (if l.wet == wet then l else l.transit now) with
    wet := wet, short := short, hold := none,
    measAt := if wet && decide (n < 16) then some (l.measAt.getD (now + 1000)) else none }
/-- What a source's comparator reads. SHORT that sets or clears writes a folio (R177), under LEAK_OPEN's code with a third
datum, since no code is its own (log 13). -/
def readSource (n : Nat) (wet short : Bool) (s : State) : State :=
  let was := (leakOf s n).short
  let now := s.now
  let s := senseChange n (Leak.sense n now wet short) s
  if was == short then s else saveFlags n (record 0x0704 2 [n, short.toNat, 1] 0 s)
/-- A new reading at a source: held while a location measurement drives its loop (R176). -/
def comparator (n : Nat) (wet short : Bool) (s : State) : State :=
  if (leakOf s n).meas.isSome then onLeak n (fun l => { l with hold := some (wet, short) }) s
  else readSource n wet short s

/-- KETTLE_TRIP (R166, R170, R174): the source reads WET, or SHORT, which is WET as well. -/
def doKettleTrip (n : Nat) (reading : LeakReading) (s : State) : State :=
  if sensed s n then comparator n true (decide (n < 32) && reading == .short) s else s

/-- KETTLE_TRIP. -/
def execKettleTrip (src : Fin 33) (reading : LeakReading) (s : State) : Host.Outcome State Fault Refusal :=
  .next (doKettleTrip src reading s)

/-- LEAK_INPUT_CLEAR (R172, R177): the source reads dry; every latch stays set. -/
def doLeakInputClear (n : Nat) (s : State) : State :=
  if sensed s n then comparator n false false s else s

/-- The trip image, the TEN image and the cause masks saved in one transaction, with the folio of each cause. -/
def saveImages (s : State) : State :=
  (s.onKet fun k => { k with imageDue := none }).onCat fun c =>
    { c with ten := s.keep.ten, trip := s.ket.trip, causes := s.ket.causes, refs := s.ket.refs }
/-- TRIP_IMAGE_SAVE (R171). After a cold keep it waits until the stored images have been read (R65). The severity 3 folio was
given to the writer at the trip (log 11), which writes it after this. -/
def doTripImageSave (s : State) : State :=
  match s.ket.imageDue with
  | none => s
  | some t => if s.keep.por || !s.keep.tenRead then s else saveImages (reach t s)

/-- TRIP_IMAGE_SAVE. -/
def execTripImageSave (s : State) : Host.Outcome State Fault Refusal := .next (doTripImageSave s)

/-- FOREIGN_TRIP (R173): the net was held low while this board's driver is off. -/
def doForeignTrip (t : Nat) (s : State) : State :=
  if s.keep.por || tripDriven s t then s else tripTrays (2 ^ t) 33 0xFFFF s

/-- FOREIGN_TRIP. -/
def execForeignTrip (tray : Fin 16) (s : State) : Host.Outcome State Fault Refusal := .next (doForeignTrip tray s)

/-! ## Release (R179, R180) -/

/-- A source's causes are releasable (R179). -/
def srcReleasable (s : State) (n : Nat) : Bool :=
  let l := leakOf s n
  l.masked || (readsClear s.ket.route n l && match l.clear with | some t => decide (t + 60000000 ≤ s.now) | none => false)
/-- A cause of a latched tray is releasable. -/
def causeReleasable (s : State) (t c : Nat) : Bool :=
  if c == 33 then s.ket.foreignHi.get false t else srcReleasable s c
/-- Every cause of a tray is releasable. -/
def trayReleasable (s : State) (t : Nat) : Bool :=
  (bitsOf 34 (s.ket.causes.get 0 t)).all (causeReleasable s t)

/-- The trays of a mask whose causes are all releasable released (R180 step 2). -/
def releaseTrays (m : Nat) (s : State) : State :=
  let go := (bitsOf 16 m).filter fun t => tripped s t && trayReleasable s t
  if go.isEmpty then s
  else
    let s := s.onKet fun k => { k with
      trip := k.trip &&& ~~~(BitVec.ofNat 16 (maskOf go)),
      causes := go.foldl (fun c t => c.erase t) k.causes,
      refs := k.refs.filter fun p => !go.contains (p.1 / 64) }
    imageSoon (event 0x0701 1 [maskOf go] 0 0 s)

/-- FOREIGN_CAUSE_CLEAR (R173, R180 step 3). -/
def doForeignCauseClear (t : Nat) (s : State) : State :=
  if s.keep.por then s else
  let s := s.onKet fun k => { k with foreignHi := k.foreignHi.set t true }
  s.ket.release.foldl (fun s r => releaseTrays r.own.toNat s) s

/-- FOREIGN_CAUSE_CLEAR. -/
def execForeignCauseClear (tray : Fin 16) (s : State) : Host.Outcome State Fault Refusal :=
  .next (doForeignCauseClear tray s)

/-- The body rules of TRIP_RELEASE. -/
def badTripRelease (b : Bytes) : Option Nat := firstBad [rsv b 2 6]
/-- Step 8 for TRIP_RELEASE (R179). -/
def admitTripRelease (s : State) (b : Bytes) : Option Refuse :=
  let held := ((bitsOf 16 (fld b 0 2)).map fun t =>
    ((bitsOf 33 (s.ket.causes.get 0 t)).filter fun c => !causeReleasable s t c).map fun c => s.ket.refs.get 0 (64 * t + c)).flatten
  match held with
  | [] => none
  | r :: rs => some { ref := rs.foldl (fun m r => if m == 0 then r else if r == 0 then m else min m r) r }
/-- TRIP_RELEASE's effect (R180), at every board that holds the entry. -/
def fxTripRelease (e : JEntry) (s : State) : State :=
  let s := (List.range 33).foldl (fun s n =>
    if (leakOf s n).latch && srcReleasable s n then onLeak n (fun l => { l with latch := false }) s else s) s
  let m := fld e.body 0 2
  let s := releaseTrays m s
  let own := (bitsOf 16 m).filter fun t => (bitsOf 33 (s.ket.causes.get 0 t)).all (causeReleasable s t)
  s.onKet fun k => { k with
    release := k.release ++ [{ jseq := e.jseq, trays := BitVec.ofNat 16 m, own := BitVec.ofNat 16 (maskOf own),
                               stop := s.now + 1000000 }] }

/-- TRIP_RELEASE_WINDOW_END (R180): OK, or PARTIAL with the mask of released trays. -/
def doTripReleaseWindowEnd (s : State) : State :=
  match s.ket.release with
  | [] => s
  | r :: rs =>
    let s := releaseTrays r.own.toNat (reach r.stop s)
    let s := s.onKet fun k => { k with release := rs }
    let left := r.trays &&& s.ket.trip
    if left == 0 then finish0 r.jseq 0 s
    else finish r.jseq 0x0701 (leBytes 2 (r.trays &&& ~~~s.ket.trip).toNat) s

/-- TRIP_RELEASE_WINDOW_END. -/
def execTripReleaseWindowEnd (s : State) : Host.Outcome State Fault Refusal := .next (doTripReleaseWindowEnd s)

/-! ## Rope location (R176) -/

/-- ROPE_LOCATION_MEASURE: a measurement of 1 ms starts at a rope input that reads WET. -/
def doRopeLocationMeasure (n : Nat) (s : State) : State :=
  let l := leakOf s n
  match l.measAt with
  | some t =>
    if !sensed s n || !l.wet then s
    else
      let s := reach t s
      onLeak n (fun l => { l with meas := some (s.now + 1000), measAt := some (s.now + 1000000) }) s
  | none => s

/-- ROPE_LOCATION_MEASURE. -/
def execRopeLocationMeasure (n : Fin 16) (s : State) : Host.Outcome State Fault Refusal :=
  .next (doRopeLocationMeasure n s)

/-- LOC from the three ratios (R176). The rule states a real number: a location between two units is one of the
two, a free choice (log 12), and ratios out of order give a free value. -/
def ropeLoc (va vb vs len : Nat) : Nat :=
  if vb < va && vs ≤ va then
    let q := (va - vs) * len / (va - vb)
    let q := if (va - vs) * len % (va - vb) == 0 then q else q + Config.ropeLoc va vb vs % 2
    q % 65536
  else Config.ropeLoc va vb vs % 65536

/-- ROPE_MEASURE_DONE (R176): LOC, and ROPE_LOCATION when it differs by 0.5 m or more from the last reported. -/
def doRopeMeasureDone (n va vb vs : Nat) (s : State) : State :=
  match (leakOf s n).meas with
  | none => s
  | some t =>
    let s := reach t s
    let loc := ropeLoc va vb vs (ropeLen s.ket.route n)
    let told := match (leakOf s n).locRep with | some p => decide (p + 5 ≤ loc) || decide (loc + 5 ≤ p) | none => true
    let s := onLeak n (fun l => { l with meas := none, loc := loc, locRep := if told then some loc else l.locRep }) s
    let s := if told then event 0x0706 2 [n, loc] 0 0 s else s
    match (leakOf s n).hold with
    | some (wet, short) => readSource n wet short s
    | none => s

/-! ## Stuck, chattering and open inputs (R177) -/

/-- LEAK_STUCK: active for 30 min. -/
def doLeakStuck (n : Nat) (s : State) : State :=
  let l := leakOf s n
  match l.since with
  | some t =>
    if s.keep.por || l.stuck then s
    else flagEvent 0x0702 3 n 1 (onLeak n (fun l => { l with stuck := true }) (reach (t + 1800000000) s))
  | none => s

/-- LEAK_STUCK. -/
def execLeakStuck (src : Fin 33) (s : State) : Host.Outcome State Fault Refusal := .next (doLeakStuck src s)

/-- The transitions at a source's filter output in the last 1 s. -/
def transitions (s : State) (n : Nat) : Nat := ((leakOf s n).trans.filter fun t => decide (s.now < t + 1000000)).length
/-- LEAK_CHATTER: more than 8 transitions within 1 s. The input is active while it is CHATTER. -/
def doLeakChatter (n : Nat) (s : State) : State :=
  if !sensed s n || (leakOf s n).chat || transitions s n ≤ 8 then s
  else flagEvent 0x0703 2 n 1 (senseChange n (fun l => { l with chat := true }) s)

/-- LEAK_CHATTER. -/
def execLeakChatter (src : Fin 33) (s : State) : Host.Outcome State Fault Refusal := .next (doLeakChatter src s)

/-- LEAK_OPEN: active when OPEN_ACTION is 0, else reported only (R166). TCH_IN has no loop to open. -/
def doLeakOpen (n : Nat) (s : State) : State :=
  if !sensed s n || (leakOf s n).open_ || n == 32 then s
  else flagEvent 0x0704 (if routeOpenAct s.ket.route n then 3 else 2) n 1 (senseChange n (fun l => { l with open_ := true }) s)

/-- LEAK_OPEN. -/
def execLeakOpen (src : Fin 33) (s : State) : Host.Outcome State Fault Refusal := .next (doLeakOpen src s)

/-- LEAK_CONDITION_CLEAR (Table 07-5): STUCK after 60 s clear, CHATTER after 60 s without a transition, OPEN after
100 ms in range. -/
def doLeakConditionClear (n : Nat) (flag : LeakFlag) (s : State) : State :=
  if s.keep.por then s else
  let l := leakOf s n
  match flag with
  | .stuck =>
    match l.clear with
    | some t =>
      if l.stuck then flagEvent 0x0702 3 n 0 (onLeak n (fun l => { l with stuck := false }) (reach (t + 60000000) s)) else s
    | none => s
  | .chatter =>
    if l.chat then
      flagEvent 0x0703 2 n 0 (senseChange n (fun l => { l with chat := false }) (reach (l.trans.headD 0 + 60000000) s))
    else s
  | .open_ =>
    if l.open_ then
      flagEvent 0x0704 (if routeOpenAct s.ket.route n then 3 else 2) n 0 (senseChange n (fun l => { l with open_ := false }) s)
    else s

/-- LEAK_CONDITION_CLEAR. -/
def execLeakConditionClear (src : Fin 33) (flag : LeakFlag) (s : State) : Host.Outcome State Fault Refusal :=
  .next (doLeakConditionClear src flag s)

/-! ## The images read back after a cold keep (R58, R65, R177, R178) -/

/-- KEEP_TABLE_READ_DONE (R58, R65): the role, the TEN image, the trip image, the cause masks with their folios, the input
masks and the flags come from the catch store; a tray tripped by the image or since has its TEN bit cleared, in the image too.
A source that a restored flag makes active acts on the matrix. -/
def doKeepTableReadDone (s : State) : State :=
  if s.keep.por || s.keep.tenRead then s else
  let s := reach (s.keep.readAt.getD 0) s
  let old := s.ket
  let trip := old.trip ||| s.cat.trip
  let s := s.onKet fun k =>
    { k with
      trip := trip,
      causes := s.cat.causes.foldl (fun c p => c.set p.1 (c.get 0 p.1 ||| p.2)) k.causes,
      refs := s.cat.refs.foldl (fun r p => r.set p.1 p.2) k.refs,
      src := (List.range 33).foldl (fun t n => t.mod {} n fun l =>
        { l with masked := s.cat.masks.get false n, stuck := l.stuck || s.cat.stuck.get false n,
                 chat := l.chat || s.cat.chat.get false n, open_ := l.open_ || s.cat.open_.get false n,
                 short := l.short || s.cat.short.get false n }) k.src }
  let s := (s.onKeep fun k => { k with tenRead := true, readAt := none, ten := s.cat.ten &&& ~~~trip }).onCat fun c =>
    { c with ten := c.ten &&& ~~~trip }
  (List.range 33).foldl (fun s n =>
    saveFlags n (reexamine n (leakActive old.route n (old.src.get {} n)) s)) s

/-- KEEP_TABLE_READ_DONE. -/
def execKeepTableReadDone (s : State) : Host.Outcome State Fault Refusal := .next (doKeepTableReadDone s)

/-! ## Masking (R178) -/

/-- The body rules of LEAK_MASK. -/
def badLeakMask (b : Bytes) : Option Nat :=
  firstBad [(decide (33 ≤ fld b 0 1), 0), (decide (2 ≤ fld b 1 1), 1), rsv b 2 6]
/-- LEAK_MASK's effect: a mask releases nothing; an active source unmasked trips its trays. -/
def fxLeakMask (e : JEntry) (s : State) : State :=
  let n := fld e.body 0 1
  let m := fld e.body 1 1 == 1
  let was := (leakOf s n).masked
  let s := saveFlags n (onLeak n (fun l => { l with masked := m }) s)
  let s := if was == m then s else event 0x0705 2 [n, m.toNat] e.cw 0 s
  let s := if !m && leakActive s.ket.route n (leakOf s n) then tripSource n s else s
  finish0 e.jseq 0 s

/-! ## Routing (R168, R169) -/

/-- The body rules of KETTLE_ROUTE_SET: a staged object that is no valid route record makes it INVALID. -/
def badRouteSet (s : State) (b : Bytes) : Option Nat :=
  firstBad [((match objBytes (digestAt b 0) s with | some o => !routeValid o | none => true), 0),
    (decide (2 ≤ fld b 32 1), 32), (decide (2 ≤ fld b 33 1), 33), rsv b 34 6]
/-- The OTP route record of the board that a body names is written, or will be by an entry in the journal (R98 step 8). The
acting Lead knows of its partner's by the entries that named it. -/
def otpRouteTaken (s : State) (b : Bytes) : Bool :=
  (s.otp.route.isSome && namesMe (fld b 32 1) s) ||
  s.jr.entries.any fun e => e.op == 0x0202 && fld e.body 33 1 == 1 && fld e.body 32 1 == fld b 32 1 &&
    (e.state != .done || e.result == 0)
/-- Step 8 for KETTLE_ROUTE_SET. -/
def admitRouteSet (s : State) (b : Bytes) : Option Refuse :=
  if fld b 33 1 == 1 && otpRouteTaken s b then some {} else none
/-- KETTLE_ROUTE_SET's effect: the record waits for the next epoch change. -/
def fxRouteSet (e : JEntry) (s : State) : State :=
  match objBytes (digestAt e.body 0) s with
  | none => waitObject e s
  | some o => s.onKet fun k => { k with waits := k.waits ++ [{ jseq := e.jseq, otp := fld e.body 33 1 == 1, rec_ := o }] }

/-- OTP with a route record, which is programmed once. -/
def Otp.burnRoute (r : Bytes) (o : Otp) : Otp := if o.route.isNone then { o with route := some r } else o

/-- One route record applied at an epoch change (R169): an active input trips the trays it newly has; an input
that becomes active trips all its trays. With OTP the record is written there once. -/
def applyRoute (w : RouteWait) (s : State) : State :=
  let old := s.ket.route
  let s := s.onKet fun k => { k with route := some w.rec_ }
  let s := if w.otp then s.onOtp (Otp.burnRoute w.rec_) else s
  let s := (List.range 33).foldl (fun s n =>
    let l := leakOf s n
    let was := leakActive old n l
    let s := reexamine n was s
    if was && leakActive s.ket.route n l && !l.masked then
      tripTrays (Nat.xor (routeMask s.ket.route n) (Nat.land (routeMask s.ket.route n) (routeMask old n))) n l.loc s
    else s) s
  finish0 w.jseq 0 s

/-- Every accepted route record applied at the epoch tick. -/
def applyRoutes (s : State) : State :=
  let ws := s.ket.waits
  ws.foldl (fun s w => applyRoute w s) (s.onKet fun k => { k with waits := [] })

/-! ## Proof testing (R181) -/

/-- The body rules of TRIP_PROOF. -/
def badTripProof (b : Bytes) : Option Nat := firstBad [(decide (2 ≤ fld b 4 1), 4), rsv b 5 3]
/-- The sources that a TRIP_PROOF tests. -/
def proofSources (r : Option Bytes) (b : Bytes) : List Nat :=
  (if fld b 0 4 == 0 then (List.range 32).filter (routeEnable r) else bitsOf 32 (fld b 0 4)) ++
  (if fld b 4 1 == 1 then [32] else [])

/-- A standby self-test passed or failed (R135): SELF_TEST_OK is set while none has failed. -/
def testResult (i : Nat) (ok : Bool) (s : State) : State :=
  s.onPair fun p =>
    let f := if ok then p.failedT.filter (· != i) else if p.failedT.contains i then p.failedT else i :: p.failedT
    { p with failedT := f, selfTest := f.isEmpty, testAt := if f.isEmpty == p.failedT.isEmpty then p.testAt else s.now }

/-- A proof is over: PROOF_RESULT, the health report's figures and the command's result. -/
def endProof (p : Proof) (s : State) : State :=
  let ok := p.fail.isEmpty
  let res := if ok then 0 else 0x0702
  let s := event 0x050C (if ok then 1 else 3) [maskOf p.fail] 0 0 s
  let ref := s.log.fseq
  let s := testResult 1 ok (s.onPair fun q => { q with proofTime := keepTime s, proofRes := res })
  if ok then finish0 p.jseq 0 s else finish p.jseq 0x0702 (leBytes 8 ref ++ leBytes 5 (maskOf p.fail)) s

/-- TRIP_PROOF's effect: the sources are tested one at a time, 1 ms apart. -/
def fxTripProof (e : JEntry) (s : State) : State :=
  let p : Proof := { jseq := e.jseq, left := proofSources s.ket.route e.body, next := s.now + 1000 }
  if p.left.isEmpty then endProof p s else s.onKet fun k => { k with proof := k.proof ++ [p] }

/-- PROOF_SOURCE_STEP: the source under test passed or failed the bounds of Table 07-4 at its test legs. -/
def doProofSourceStep (passed : Bool) (s : State) : State :=
  match s.ket.proof with
  | [] => s
  | p :: ps =>
    let s := reach p.next s
    let p := { p with left := p.left.tail, fail := if passed then p.fail else p.fail ++ p.left.take 1, next := s.now + 1000 }
    if p.left.isEmpty then endProof p (s.onKet fun k => { k with proof := ps })
    else s.onKet fun k => { k with proof := p :: ps }

/-- PROOF_SOURCE_STEP. -/
def execProofSourceStep (passed : Bool) (s : State) : Host.Outcome State Fault Refusal :=
  .next (doProofSourceStep passed s)

/-! ## Status (R182) -/

/-- Whole seconds since a time, saturating. -/
def secsSince (s : State) : Option Nat → Nat
  | some t => min ((s.now - t) / 1000000) (2 ^ 32 - 1)
  | none => 0

/-- A leak status entry (Table 07-6). -/
def leakEntry (s : State) (n : Nat) : Bytes :=
  let l := leakOf s n
  let f := (leakActive s.ket.route n l).toNat + 2 * l.latch.toNat + 4 * (l.wet || l.short).toNat + 8 * l.open_.toNat +
    16 * l.short.toNat + 32 * l.stuck.toNat + 64 * l.chat.toNat + 128 * l.masked.toNat
  leBytes 1 n ++ leBytes 1 f ++ leBytes 2 (if n < 16 then l.loc else 0xFFFF) ++
  leBytes 4 (if readsClear s.ket.route n l then secsSince s l.clear else 0) ++ leBytes 4 (secsSince s l.since) ++
  leBytes 1 (min 255 (transitions s n)) ++ zeros 3

/-- The rope inputs of a range of class 3 entries that read WET (R202). -/
def wetRopes (s : State) (first n : Nat) : List Nat :=
  (List.range 16).filter fun k => decide (first ≤ k) && decide (k < first + n) && (leakOf s k).wet
/-- Location measurements asked for by firmware (R176, R202): due now at those ropes. -/
def askRopes (ks : List Nat) (s : State) : State :=
  let now := s.now
  ks.foldl (fun s n => onLeak n (fun l => { l with measAt := some now }) s) s

end Sys2Proof.Machine
end

