-- ==== Sys2Proof/Machine/Afe.lean ====
section
/-! DEFINITION. Machine/Afe.lean: the analog front end: sample words, settling, faults, pulses, AFE_CONFIG and
SENSOR_READ (chapter 08). -/

namespace Sys2Proof.Machine

/-! ## Channels and words -/

/-- A channel. -/
def chanOf (s : State) (n : Nat) : Chan := s.afe.ch.get {} n
/-- A channel changed. -/
def onChan (n : Nat) (f : Chan → Chan) (s : State) : State := s.onAfe fun a => { a with ch := a.ch.mod {} n f }
/-- A field of a channel's record in force. -/
def Chan.fld (c : Chan) (o n : Nat) : Nat := Machine.fld (c.live.getD []) o n

/-- A sample word (Table 08-4). -/
def sampleWord (data : Int) (settle : Nat) (valid ovr fault stopped : Bool) : Word :=
  BitVec.ofNat 32 (ofSigned 24 data + 2 ^ 24 * (settle % 8) + 2 ^ 27 * valid.toNat + 2 ^ 28 * ovr.toNat +
    2 ^ 29 * fault.toNat + 2 ^ 30 * stopped.toNat)
/-- VALID of a word. -/
def wordValid (w : Word) : Bool := w.getLsbD 27
/-- DATA of a word, signed. -/
def wordData (w : Word) : Int := toSigned 24 (w.toNat % 2 ^ 24)
/-- DATA[23:8] of a word, signed. -/
def wordData16 (w : Word) : Int := toSigned 16 (w.toNat / 256 % 2 ^ 16)

/-- A word delivered: the latest, and the latest valid where VALID is 1. -/
def Chan.deliver (now : Nat) (w : Word) (c : Chan) : Chan :=
  let c := { c with word := w, wordAt := now }
  if wordValid w then { c with last := w, lastAt := now, any := true, cur := true } else c

/-- The limits of R184. -/
def clip24 (x : Int) : Int := max (-8388608) (min 8388607 x)
/-- A value held to those limits, and whether that or an earlier step clipped it. -/
def clipStep (was : Bool) (x : Int) : Int × Bool := (clip24 x, was || clip24 x != x)
/-- One line of R195: an offset taken off and a scale of 30 fraction bits applied, each step saturating. -/
def calStep (off : Int) (scale : Nat) (x : Int × Bool) : Int × Bool :=
  let y := clipStep x.2 (x.1 - off)
  clipStep y.2 (quot (y.1 * scale) (2 ^ 30))

/-- The calibration record of a channel at a gain: its own, else the one with GAIN 0xFF. -/
def calOf (s : State) (ch gain : Nat) : Option Bytes :=
  match s.afe.cal.find (256 * ch + gain) with
  | some r => some r
  | none => s.afe.cal.find (256 * ch + 255)

/-- The corrected DATA (R195), and whether a step clipped (log 38). -/
def corrected (s : State) (ch gain : Nat) (raw : Int) : Int × Bool :=
  let x := calStep (s.otp.afeOff.get 0 (8 * ch + gain)) (s.otp.afeScale.get (2 ^ 30) (8 * ch + gain)) (clipStep false raw)
  match calOf s ch gain with
  | some c => calStep (toSigned 32 (fld c 4 4)) (fld c 8 4) x
  | none => x

/-- The voltage at the mux output, as a numerator in pV and its divisor (Table 08-2). -/
def muxV (mux : Nat) (x : SdInput) : Int × Nat :=
  match mux with
  | 0 => (x.ain, 1) | 1 => (0, 1) | 2 => (x.int, 2) | 4 => (x.avdd, 4) | _ => (x.vkeep, 4)
/-- The raw result (R184): round(V_IN × G / V_REF × 2^23). The die temperature sensor gives its own unit (Table 08-2). -/
def rawOf (c : Chan) (x : SdInput) : Int :=
  if c.fld 2 1 == 3 then x.temp
  else
    let v := muxV (c.fld 2 1) x
    let vref := if c.fld 6 1 == 1 then x.ref else x.int
    if vref ≤ 0 then Config.noRef v.1 else nearest (v.1 * 2 ^ (c.fld 3 1 + 23)) (vref.toNat * v.2)

/-- The output period of RATE in µs (Table 08-2). -/
def ratePeriod (rate : Nat) : Nat := [20000, 10000, 4000, 2000, 1000, 500, 250, 125].getD rate 125
/-- The output period of a channel from `now` on (R185): that of RATE, off by up to 2 % on the backup oscillator. -/
def periodOf (pll : Bool) (now : Nat) (c : Chan) : Nat :=
  let p := ratePeriod (c.fld 4 1 / 16 % 8)
  if pll then p else max ((100 * p + 101) / 102) (min (100 * p / 98) (Config.backupPeriod p now))
/-- The period of a channel as the clocks run. -/
def sdPeriod (s : State) (c : Chan) : Nat := periodOf s.pwr.fclkPll s.now c
/-- The first end of an output period that is not past. -/
def wordDue (s : State) (c : Chan) : Nat :=
  c.nextAt + (s.now - c.nextAt + (sdPeriod s c - 1)) / sdPeriod s c * sdPeriod s c

/-! ## Faults (R192, R193) -/

/-- A fault of a channel that set or cleared: an event, or in keeper mode an entry of the history, whose oldest is
overwritten and counted when it is full. -/
def faultNote (ch bits : Nat) (set : Bool) (s : State) : State :=
  if bits == 0 then s
  else if keeper s then
    s.onAfe fun a => a.note ⟨ch, bits, set⟩
  else event (if set then 0x0800 else 0x0801) (if set then 2 else 1) [ch, bits] 0 0 s

/-- The faults of a channel at a new set of bits, each set and clear reported. -/
def setFaults (ch m : Nat) (s : State) : State :=
  let old := (chanOf s ch).faults
  let s := onChan ch (fun c => { c with faults := m }) s
  faultNote ch (Nat.xor old (Nat.land old m)) false (faultNote ch (Nat.xor m (Nat.land old m)) true s)

/-- One fault bit of a channel. -/
def setFault (ch bit : Nat) (v : Bool) (s : State) : State :=
  let m := (chanOf s ch).faults
  setFaults ch (if v then Nat.lor m (2 ^ bit) else Nat.xor m (Nat.land m (2 ^ bit))) s

/-- The IEXC source that a channel selects. -/
def Chan.exc (c : Chan) : Option Nat := let e := c.fld 5 1; if e == 0 then none else some (e - 1)
/-- REF_FAULT and EXC_FAULT of a channel follow the reference and its source. -/
def shareFaults (ch : Nat) (s : State) : State :=
  let c := chanOf s ch
  let s := setFault ch 3 (c.on && c.fld 6 1 == 1 && s.afe.refBad) s
  setFault ch 4 (c.on && (match c.exc with | some e => (s.afe.exc.get {} e).bad | none => false)) s
/-- Those of every sigma-delta channel. -/
def shareAll (s : State) : State := (List.range 32).foldl (fun s n => shareFaults n s) s

/-- REF_CHECK (R192): every 1 ms; REF_FAULT clears after 100 ms within range. -/
def doRefCheck (ok : Bool) (s : State) : State :=
  if !fieldOn s then s else
  let s := reach (s.afe.refAt + 1000) s
  let now := s.now
  let s := s.onAfe fun a =>
    let since := if ok then (match a.refOkAt with | some t => some t | none => some now) else none
    { a with refAt := now, refOkAt := since,
             refBad := if ok then a.refBad && (match since with | some t => decide (now < t + 100000) | none => true) else true }
  shareAll s

/-- REF_CHECK. -/
def execRefCheck (ok : Bool) (s : State) : Host.Outcome State Fault Refusal := .next (doRefCheck ok s)

/-- The compliance of the source a channel selects, as its word found it. -/
def excCheck (ch : Nat) (ok : Bool) (s : State) : State :=
  match (chanOf s ch).exc with
  | none => s
  | some e =>
    let now := s.now
    shareAll (s.onAfe fun a => { a with exc := a.exc.mod {} e fun x =>
      let since := if ok then (match x.okAt with | some t => some t | none => some now) else none
      { x with okAt := since,
               bad := if ok then x.bad && (match since with | some t => decide (now < t + 100000) | none => true) else true } })

/-- The range test of a settled word's DATA[23:8] (Table 08-6): `clean` says that the word is valid but for RANGE. A word
with another fault is checked too, so that RANGE can clear, and a word that is not clean ends a row of three. -/
def rangeCheck (ch : Nat) (clean : Bool) (d : Int) (s : State) : State :=
  let c := chanOf s ch
  if !(c.fld 7 1).testBit 1 then s
  else if c.settle != 0 then onChan ch (fun c => { c with oor := 0 }) s
  else
    let v := d / 256
    let now := s.now
    if v < toSigned 16 (c.fld 8 2) || toSigned 16 (c.fld 10 2) < v then
      let run := if clean then c.oor + 1 else 0
      let s := onChan ch (fun c => { c with oor := run, inAt := none }) s
      if 3 ≤ run then setFault ch 1 true s else s
    else
      let since := c.inAt.getD now
      let s := onChan ch (fun c => { c with oor := 0, inAt := some since }) s
      if since + 1000000 ≤ now then setFault ch 1 false s else s

/-! ## Sigma-delta words (R187 to R192) -/

/-- A word of a channel delivered with the settling count and the faults as they stand; each word counts down. -/
def finishWord (ch : Nat) (d : Int) (ovr : Bool) (s : State) : State :=
  let c := chanOf s ch
  let f := c.faults != 0
  let w := sampleWord d (c.settle - 1) (c.settle == 0 && !f) ovr f false
  let s := if wordValid w then s else count (0x360 + ch) s
  onChan ch (fun c => { (c.deliver s.now w) with settle := c.settle - 1 }) s

/-- The word of a channel completes at `at_`, the end of an output period (R185, R187). -/
def reachWord (ch at_ : Nat) (s : State) : State :=
  let s := reach at_ s
  let p := sdPeriod s (chanOf s ch)
  onChan ch (fun c => { c with nextAt := at_ + p }) s

/-- SD_SAMPLE_WORD: the word of the output period that ends next, one for each period, of what stands at the input;
`ovl` is the modulator's overload and `excOk` the compliance of the selected source. No word completes within the offset
calibration (Table 08-5). -/
def doSdSampleWord (ch : Nat) (x : SdInput) (ovl excOk : Bool) (s : State) : State :=
  let c := chanOf s ch
  if !fieldOn s || !c.on then s else
  let raw := rawOf c x
  let s := reachWord ch (wordDue s c) s
  let s := if c.ovl && !ovl then onChan ch (fun c => { c with settle := c.nWords }) s else s
  let s := setFault ch 2 ovl (onChan ch (fun c => { c with ovl := ovl }) s)
  let s := excCheck ch excOk s
  let (d, clipped) := corrected s ch (c.fld 3 1) raw
  let c := chanOf s ch
  let s := rangeCheck ch (Nat.lor c.faults 2 == 2) d s
  finishWord ch d (clipped || ovl) s

/-- SD_SAMPLE_WORD. -/
def execSdSampleWord (ch : Fin 32) (x : SdInput) (overload : Bool) (excOk : Bool) (s : State) :
    Host.Outcome State Fault Refusal := .next (doSdSampleWord ch x overload excOk s)

/-- The first instant after `last` that lies `off` µs into a second of the time that began at `base`. -/
def nextInstant (base off last : Nat) : Nat :=
  if last < base + off then base + off else base + off + ((last - (base + off)) / 1000000 + 1) * 1000000

/-- BURNOUT_TEST (R192): at n × 30 ms into each second of FIELD time, the test word of a channel with BURNOUT,
then N invalid words (Table 08-5). The test word is the first that completes after the instant. -/
def doBurnoutTest (ch : Nat) (x : SdInput) (s : State) : State :=
  let c := chanOf s ch
  if !fieldOn s || !c.on || !(c.fld 7 1).testBit 0 then s else
  let raw := rawOf c x
  let due := wordDue s c
  let p := sdPeriod s c
  let test := nextInstant s.afe.origin (30000 * ch) (max c.burnAt (due - p - 1))
  let s := reachWord ch (due + (test + p - due) / p * p) s
  let (d, clipped) := corrected s ch (c.fld 3 1) raw
  let s := setFault ch 0 (decide (7969178 ≤ d)) s
  finishWord ch d (clipped || c.ovl) (onChan ch (fun c => { c with burnAt := test, settle := 1 + c.nWords, oor := 0 }) s)

/-- BURNOUT_TEST. -/
def execBurnoutTest (ch : Fin 32) (x : SdInput) (s : State) : Host.Outcome State Fault Refusal :=
  .next (doBurnoutTest ch x s)

/-! ## SAR channels (R190) -/

/-- The corrected DATA of a SAR code. -/
def sarData (s : State) (k code : Nat) : Int :=
  (corrected s (32 + k) 0 ((code : Int) - s.otp.sarMid.get 2048 (32 + k))).1

/-- A conversion's word: the first 2 after FIELD reset are invalid; later ones enter the mean that the sample page
carries. A disabled channel delivers nothing. -/
def sarWord (k code : Nat) (s : State) : State :=
  let ch := 32 + k
  let d := sarData s k code
  let clipped := code == 0 || code == 4095
  let now := s.now
  let s := if clipped then count (0x380 + k) s else s
  onChan ch (fun c =>
    let c := { c with convs := c.convs + 1 }
    if !c.on then c
    else if c.convs ≤ 2 then c.deliver now (sampleWord d (2 - c.convs) false clipped false false)
    else { c with sum := c.sum + d, n := c.n + 1, clip := c.clip || clipped }) s

/-- The page word of a SAR channel: the mean, rounded toward zero; unchanged when no conversion completed. -/
def sarMean (now : Nat) (c : Chan) : Chan :=
  if c.n == 0 then c
  else { (c.deliver now (sampleWord (c.sum.tdiv c.n) 0 true c.clip false false)) with sum := 0, n := 0, clip := false }

/-- The sample page (R199), in channel order. -/
def samplePage (s : State) : Bytes := (List.range 56).flatMap fun n => leBytes 4 (chanOf s n).word.toNat
/-- SAMPLE_PAGE_COPY (R199, R261): every 100 µs the page is copied to the model's snapshot source in working store, at a
place that is free (log 107). -/
def doSamplePageCopy (s : State) : State :=
  if !fieldOn s then s else
  let s := reach (s.afe.copyAt + 100) s
  let now := s.now
  let s := (List.range 12).foldl (fun s k => onChan (32 + k) (sarMean now) s) s
  let s := s.onAfe fun a => { a with
    copyAt := now,
    source := if s.pwr.store == .on then a.ch.map (fun p => (p.1, p.2.word)) else a.source }
  if s.pwr.store == .on then binderWrite (dataPlace Config.sourceBase) (samplePage s) s else s

/-- SAMPLE_PAGE_COPY. -/
def execSamplePageCopy (s : State) : Host.Outcome State Fault Refusal := .next (doSamplePageCopy s)

/-! ## Pulse channels (R191) -/

/-- FREQ of a period in FCLK periods, in units of 0.02 Hz. -/
def pulseFreq (period : Nat) : Nat := if period < 10000 then 1000000 else (nearest 10000000000 period).toNat
/-- MINW in FCLK periods. -/
def Chan.minw (c : Chan) : Nat := 100 * c.fld 3 1

/-- PULSE_EDGE: an edge, counted where it has the polarity of EDGE, `period` FCLK periods after the counted edge before it;
`phase` is the shorter of the two phases beside it. -/
def doPulseEdge (k : Nat) (falling : Bool) (period phase : Nat) (s : State) : State :=
  let ch := 44 + k
  let c := chanOf s ch
  if !fieldOn s || !c.on || phase < c.minw || falling != (c.fld 2 1 == 1) then s else
  let now := s.now
  let s := count (0x348 + k) (onChan ch (fun c => { c with edges := c.edges + 1, edgeAt := now }) s)
  if c.edges == 0 then s
  else
    let fast := decide (period < 10000)
    let stopped := c.word.getLsbD 30
    let s := onChan ch (fun c =>
      { (c.deliver now (sampleWord (pulseFreq period) 0 true fast false false)) with fast := fast }) s
    let s := if stopped then event 0x0803 2 [ch, 0] 0 0 s else s
    if fast != c.fast then event 0x0802 2 [ch, fast.toNat] 0 0 s else s

/-- PULSE_TIMEOUT: TIMEOUT_MS without a counted edge gives FREQ 0 with STOPPED; OVERRANGE stays until a period of 50 µs or
longer. -/
def doPulseTimeout (k : Nat) (s : State) : State :=
  let ch := 44 + k
  let c := chanOf s ch
  let stopped := c.word.getLsbD 30
  if !fieldOn s || !c.on || (stopped && c.edges == 0) then s else
  let s := reach (c.edgeAt + 1000 * c.fld 12 2) s
  let now := s.now
  let s := onChan ch (fun c => { (c.deliver now (sampleWord 0 0 true c.fast false true)) with edges := 0 }) s
  if stopped then s else event 0x0803 2 [ch, 1] 0 0 s

/-- PULSE_TIMEOUT. -/
def execPulseTimeout (ch : Fin 12) (s : State) : Host.Outcome State Fault Refusal := .next (doPulseTimeout ch s)

/-! ## AFE_CONFIG (R196 to R198) -/

/-- Every byte of a record from `o` on, `n` of them, is 0. -/
def zeroField (r : Bytes) (o n : Nat) : Bool := isZero r o n
/-- A channel record satisfies Table 08-7. -/
def chanRecOk (r : Bytes) : Bool :=
  let ch := fld r 0 1
  decide (ch ≤ 55) && decide (fld r 1 1 ≤ 1) && zeroField r 14 2 &&
  (if ch < 32 then
     decide (fld r 2 1 ≤ 5) && decide (fld r 3 1 ≤ 7) && Nat.land (fld r 4 1) 0x8C == 0 && decide (fld r 5 1 ≤ 4) &&
     decide (fld r 6 1 ≤ 1) && decide (fld r 7 1 ≤ 3) && decide (toSigned 16 (fld r 8 2) ≤ toSigned 16 (fld r 10 2)) &&
     zeroField r 12 2
   else if ch < 44 then zeroField r 2 12
   else
     decide (fld r 2 1 ≤ 1) && decide (1 ≤ fld r 3 1) && decide (fld r 3 1 ≤ 100) && zeroField r 4 8 &&
     decide (10 ≤ fld r 12 2) && decide (fld r 12 2 ≤ 10000))
/-- A calibration record satisfies Table 08-8. -/
def calRecOk (r : Bytes) : Bool :=
  let ch := fld r 0 1
  let g := fld r 1 1
  let off := toSigned 32 (fld r 4 4)
  decide (ch ≤ 43) && (g == 255 || (decide (g ≤ 7) && decide (ch < 32))) && zeroField r 2 2 &&
  decide (-8388608 ≤ off) && decide (off ≤ 8388608) && decide (0x20000000 ≤ fld r 8 4) &&
  decide (fld r 8 4 ≤ 0x7FFFFFFF) && zeroField r 12 4
/-- An excitation record satisfies R196. -/
def excRecOk (r : Bytes) : Bool := decide (fld r 0 1 ≤ 3) && decide (fld r 1 1 ≤ 6) && zeroField r 2 14

/-- The records of an AFE_CONFIG body. -/
def afeRecs (b : Bytes) : List Bytes := (List.range (fld b 1 1)).map fun i => sub b (8 + 16 * i) 16
/-- What a record names: the channel, the channel and gain, or the IEXC. -/
def afeKey (kind : Nat) (r : Bytes) : Nat := if kind == 1 then 256 * fld r 0 1 + fld r 1 1 else fld r 0 1
/-- A record satisfies its table. -/
def afeRecOk (kind : Nat) (r : Bytes) : Bool :=
  if kind == 0 then chanRecOk r else if kind == 1 then calRecOk r else excRecOk r

/-- The body rules of AFE_CONFIG: a broken record, or one that names what an earlier one names, is reported at its
own offset. -/
def badAfeConfig (b : Bytes) : Option Nat :=
  let kind := fld b 0 1
  let count := fld b 1 1
  let rs := afeRecs b
  firstBad ([(decide (2 < kind), 0), (count == 0 || decide (6 < count), 1), rsv b 2 6] ++
    (List.range (min count 6)).map fun i =>
      (!afeRecOk kind (rs.getD i []) || ((rs.take i).map (afeKey kind)).contains (afeKey kind (rs.getD i [])), 8 + 16 * i))

/-- A record of a channel changes ENABLE, MUX, GAIN, EXC or REF of the stored one. -/
def coreChanged (old new : Bytes) : Bool := [1, 2, 3, 5, 6].any fun o => old.getD o 0 != new.getD o 0
/-- The IEXC sources that named channels select. -/
def namedExcs (s : State) : List Nat := s.afe.named.filterMap fun n =>
  match s.kt.afeRec.find n with
  | some r => if fld r 5 1 == 0 then none else some (fld r 5 1 - 1)
  | none => none

/-- Step 8 for AFE_CONFIG (R198). -/
def admitAfeConfig (s : State) (b : Bytes) : Option Refuse :=
  let kind := fld b 0 1
  if (afeRecs b).any fun r =>
    (kind == 0 && s.afe.named.contains (fld r 0 1) && coreChanged (s.kt.afeRec.get [] (fld r 0 1)) r) ||
    (kind == 2 && (namedExcs s).contains (fld r 0 1) && s.kt.iexc.get 0 (fld r 0 1) != fld r 1 1)
  then some {} else none

/-- A record stored in the keep tables (R197). -/
def KeepTables.storeAfe (kind : Nat) (r : Bytes) (k : KeepTables) : KeepTables :=
  if kind == 0 then { k with afeRec := k.afeRec.set (fld r 0 1) r }
  else if kind == 1 then { k with afeCal := k.afeCal.set (afeKey 1 r) r }
  else { k with iexc := k.iexc.set (fld r 0 1) (fld r 1 1) }

/-- A channel after a change of its record or of the currents (R188, R189, R191): `c0` is the current that its source
gave before and `c1` gives now. The output periods of a channel that starts follow its calibration, and those of a new RATE
the change (log 150). -/
def Chan.reload (pll : Bool) (now ch : Nat) (r : Option Bytes) (c0 c1 : Nat) (c : Chan) : Chan :=
  let d : Chan := { c with live := r }
  if !d.on then { (c.off) with live := r }
  else if ch < 32 then
    if !c.on then
      { d with
        calTo := now + 2000, nextAt := now + 2000 + periodOf pll now d, settle := d.nWords, cur := false, oor := 0,
        inAt := none, burnAt := now }
    else if [2, 3, 4, 6].any (fun o => (c.live.getD []).getD o 0 != (r.getD []).getD o 0) || c0 != c1 then
      { d with
        nextAt := if c.fld 4 1 / 16 == d.fld 4 1 / 16 then c.nextAt else now + periodOf pll now d,
        settle := d.nWords, cur := false, oor := 0, inAt := none }
    else d
  else if 44 ≤ ch && c.live != r then
    { d with word := 0, wordAt := now, edges := 0, edgeAt := now, fast := false, cur := false }
  else d

/-- The current that a record's source gives, under the codes of a table. -/
def recCurrent (exc : Tab Exc) (r : Option Bytes) : Nat :=
  match r with
  | none => 0
  | some b => if fld b 5 1 == 0 then 0 else (exc.get {} (fld b 5 1 - 1)).code

/-- RANGE and OPEN end when their flag is cleared, and every fault when the channel is disabled. -/
def dropFaults (ch : Nat) (s : State) : State :=
  let c := chanOf s ch
  if !c.on then setFaults ch 0 s
  else
    let s := if (c.fld 7 1).testBit 0 then s else setFault ch 0 false s
    if (c.fld 7 1).testBit 1 then s else setFault ch 1 false s

/-- Channel records and currents reach the converters together (R197): `rec_` gives each channel's record. -/
def loadChans (rec_ : Nat → Option Bytes) (cal : Tab Bytes) (codes : Tab Nat) (s : State) : State :=
  let old := s.afe.exc
  let new := (List.range 4).foldl (fun t e => t.mod {} e fun x => { x with code := codes.get 0 e }) old
  let now := s.now
  let s := s.onAfe fun a => { a with exc := new, cal := cal }
  let s := (List.range 56).foldl (fun s n =>
    let before := (chanOf s n).faults
    let s := onChan n (fun c => { (c.reload s.pwr.fclkPll now n (rec_ n) (recCurrent old c.live) (recCurrent new (rec_ n))) with
      faults := before }) s
    dropFaults n s) s
  shareAll s

/-- The stored records reach the converters (R197, R201). -/
def loadStored (s : State) : State :=
  if !fieldOn s then s else loadChans (fun n => s.kt.afeRec.find n) s.kt.afeCal s.kt.iexc s

/-- AFE_CONFIG's effect: the records are stored, and reach the converters at the next cycle tick, or at once before
the first one (within the 1 ms of R197). -/
def fxAfeConfig (e : JEntry) (s : State) : State :=
  let s := s.onKt fun k => (afeRecs e.body).foldl (fun k r => k.storeAfe (fld e.body 0 1) r) k
  if s.ep.ticked then s.onAfe fun a => { a with waits := a.waits ++ [e.jseq] }
  else finish0 e.jseq 0 (loadStored s)

/-- AFE_CONFIG_APPLY at a cycle tick (R197). -/
def applyAfe (s : State) : State :=
  let ws := s.afe.waits
  if ws.isEmpty then s
  else ws.foldl (fun s j => finish0 j 0 s) (loadStored (s.onAfe fun a => { a with waits := [] }))

/-- The fault history written as events (R193), the count of overwritten entries in the first. -/
def flushNotes (s : State) : State :=
  let a := s.afe
  let s := s.onAfe fun a => { a with notes := [], lost := 0 }
  (a.notes.zipIdx).foldl (fun s p =>
    let d := [p.1.ch, p.1.bits] ++ (if p.2 == 0 && a.lost != 0 then [a.lost] else [])
    event (if p.1.set then 0x0800 else 0x0801) (if p.1.set then 2 else 1) d 0 0 s) s

/-- One entry of the model's snapshot (R200): the latest valid word under the present settings, or the latest, and
its age. -/
def afeSnapEntry (s : State) (n : Nat) : Bytes :=
  let c := chanOf s n
  let p := if c.cur then (c.last, c.lastAt) else (c.word, c.wordAt)
  leBytes 4 p.1.toNat ++ leBytes 4 (min (s.now - p.2) (2 ^ 32 - 1))

/-! ## SENSOR_READ (R202) -/

/-- The entries that a class holds. -/
def sensorCount (s : State) (cls : Nat) : Nat :=
  match cls with
  | 0 => 32 | 1 => 12 | 2 => 12 | 3 => 33 | 4 => 56
  | 5 => s.kt.afeCal.length
  | _ => 0
/-- The body rules of SENSOR_READ. -/
def badSensorRead (s : State) (b : Bytes) : Option Nat :=
  let cls := fld b 0 1
  let n := fld b 2 1
  firstBad [(decide (5 < cls), 0), (decide (cls ≤ 5) && decide (sensorCount s cls < fld b 1 1 + n), 1),
    (n == 0 || decide (126 < n), 2), (decide (1 < fld b 3 1) || (fld b 3 1 == 1 && cls != 3), 3), rsv b 4 4]

/-- An entry of classes 0 to 2. -/
def chanEntry (s : State) (n : Nat) : Bytes :=
  let c := chanOf s n
  leBytes 1 n ++ leBytes 1 (c.faults + 32 * (decide (0 < c.settle)).toNat + 64 * (!c.on).toNat) ++ zeros 2 ++
  leBytes 4 c.word.toNat ++ leBytes 4 c.last.toNat ++ leBytes 4 (min (s.now - c.lastAt) (2 ^ 32 - 1))
/-- The entry `i` of a class. -/
def sensorEntry (s : State) (cls i : Nat) : Bytes :=
  match cls with
  | 0 => chanEntry s i
  | 1 => chanEntry s (32 + i)
  | 2 => chanEntry s (44 + i)
  | 3 => leakEntry s i
  | 4 => s.kt.afeRec.get (zeros 16) i
  | _ => (s.kt.afeCal.getD i (0, [])).2
/-- The result of SENSOR_READ. -/
def sensorRead (s : State) (b : Bytes) : Bytes :=
  ((List.range (fld b 2 1)).map fun i => sensorEntry s (fld b 0 1) (fld b 1 1 + i)).flatten

/-- The answer to a SENSOR_READ. -/
def sensorResp (s : State) (cw : DWord) (b : Bytes) : Resp :=
  { status := 0x01, op := 0x0013, cw := cw, data := sensorRead s b }

/-- SENSOR_READ: with MEASURE, the answer follows when every wet rope of the range is measured. -/
def sensorQuery (m : Nat) (cw : DWord) (b : Bytes) (s : State) : State :=
  let ws := if fld b 3 1 == 1 then wetRopes s (fld b 1 1) (fld b 2 1) else []
  if ws.isEmpty then respond m (sensorResp s cw b) s
  else (askRopes ws s).onAfe fun a => { a with asks := a.asks ++ [(m, cw, b)] }

/-- A query still waits for a rope of its range. -/
def askWaits (s : State) (b : Bytes) : Bool :=
  (wetRopes s (fld b 1 1) (fld b 2 1)).any fun k =>
    let l := leakOf s k
    l.meas.isSome || (match l.measAt with | some t => decide (t ≤ s.now) | none => false)
/-- The queries answered whose ropes are measured, or dry. -/
def answerAsks (s : State) : State :=
  let done := s.afe.asks.filter fun q => !askWaits s q.2.2
  done.foldl (fun s q => respond q.1 (sensorResp s q.2.1 q.2.2) s)
    (s.onAfe fun a => { a with asks := a.asks.filter fun q => askWaits s q.2.2 })

/-! ## The rows that end such a wait -/

/-- ROPE_MEASURE_DONE; a MEASURE query that waited for the rope is answered. -/
def execRopeMeasureDone (n : Fin 16) (va vb vs : Nat) (s : State) : Host.Outcome State Fault Refusal :=
  .next (answerAsks (doRopeMeasureDone n va vb vs s))

/-- LEAK_INPUT_CLEAR; a rope that reads dry is waited for no longer. -/
def execLeakInputClear (src : Fin 33) (s : State) : Host.Outcome State Fault Refusal := .next (answerAsks (doLeakInputClear src s))

end Sys2Proof.Machine
end

