-- ==== Sys2Proof/Machine/Bringup.lean ====
section
/-! DEFINITION. Machine/Bringup.lean: the commands of the boot ROM: the PCIe download, netboot, the colophon
checks and the reset command's execution (chapter 03). -/

namespace Sys2Proof.Machine

/-- PCIe is eligible (R73). -/
def pcieEligible (s : State) : Bool := s.pwr.straps.bootSel == 0 || s.pwr.straps.bootSel == 2

/-- 24 MiB, the longest image (R69). -/
def maxImage : Nat := 25165824

/-- A scatter list entry follows Table 03-6; only the last may have a length that is no multiple of 4,096. -/
def entryOk (last : Bool) (e : Scatter) : Bool :=
  e.addr.toNat % 4096 == 0 && e.len != 0 && (last || e.len.toNat % 4096 == 0) && e.rsvd == 0
/-- Every entry of a scatter list follows Table 03-6. -/
def entriesOk : List Scatter → Bool
  | [] => true
  | [e] => entryOk true e
  | e :: es => entryOk false e && entriesOk es
/-- The bytes a scatter list describes. -/
def listTotal (l : List Scatter) : Nat := (l.map (·.len.toNat)).sum

/-- The DMA reads that fetch image bytes `lo` to `hi - 1` in list order: addresses and lengths. -/
def dmaReads : List Scatter → Nat → Nat → List (Nat × Nat)
  | [], _, _ => []
  | e :: es, lo, hi =>
    let n := e.len.toNat
    (if lo < min n hi then [(e.addr.toNat + lo, min n hi - lo)] else []) ++ dmaReads es (lo - n) (hi - n)
/-- DMA reads issued, in order. -/
def readHost (rs : List (Nat × Nat)) (s : State) : State := rs.foldl (fun s r => emit (.dmaRead r.1 r.2) s) s
/-- The address of the scatter list. -/
def listAddr (s : State) : Nat := s.boot.listLo.toNat + s.boot.listHi.toNat * 2 ^ 32

/-- MBX_BOOT_START (R69, R73): the count and address rules, then the list as read; E_LENGTH when one breaks,
E_DMA when the list read returns fewer entries than LIST_COUNT; otherwise LOADING, and the colophon is read. -/
def doMbxBootStart (list : List Scatter) (s : State) : State :=
  if s.pwr.bind != .on || s.boot.state != .wait || !pcieEligible s then s else
  let s := s.onBoot fun b => { b with source := 1, progress := 0, colophon := [], list := [] }
  let n := s.boot.listCount.toNat
  let l := list.take n
  if n == 0 || decide (1024 < n) || s.boot.listLo.toNat % 16 != 0 then bootFail 0x02 s else
  let s := readHost [(listAddr s, 16 * n)] s
  if decide (l.length < n) then bootFail 0x0A s
  else if !entriesOk l || decide (maxImage < listTotal l) then bootFail 0x02 s
  else readHost (dmaReads l 0 512) (setBoot .loading (s.onBoot fun b => { b with list := l, total := listTotal l }))

/-- MBX_BOOT_START. -/
def execMbxBootStart (list : List Scatter) (s : State) : Host.Outcome State Fault Refusal :=
  .next (doMbxBootStart list s)

/-- MBX_BOOT_ABORT (R70): in LOADING or CHECKING alone. -/
def doMbxBootAbort (s : State) : State :=
  if s.boot.state == .loading || s.boot.state == .checking then bootFail 0x0D s else s

/-- MBX_BOOT_ABORT. -/
def execMbxBootAbort (s : State) : Host.Outcome State Fault Refusal := .next (doMbxBootAbort s)

/-- A field of a colophon (Table 03-8a). -/
def cKeyslot (c : Bytes) : Nat := fld c 0x00E 1
/-- The rollback version of a colophon. -/
def cRollback (c : Bytes) : Nat := fld c 0x010 4

/-- The checks of Table 03-8 on the colophon, in order: the code of the first that fails. `total` is the length
that the list or the OFFER gives. -/
def colophonError (o : Otp) (pcie : Bool) (total : Nat) (c : Bytes) : Option Nat :=
  let ilen := fld c 0x008 4
  let plen := fld c 0x018 4
  let entry := fld c 0x014 4
  let slot := cKeyslot c
  if fld c 0 4 != 0x4C435141 || fld c 4 2 != 1 || fld c 6 2 != 0x200 then some 0x01
  else if 2 ≤ fld c 0x00F 1 || !isZero c 0x01C 4 || !isZero c 0x0D0 208 then some 0x0E
  else if ilen < 513 || maxImage < ilen || plen != ilen - 512 || entry % 4 != 0 || plen ≤ entry || (pcie && total != ilen)
    then some 0x02
  else if fld c 0x00D 1 != 1 then some 0x09
  else if fld c 0x00F 1 == 1 && fld c 0x020 8 != o.serial.toNat then some 0x08
  else if 4 ≤ slot || !slotUsable o slot then some 0x03
  else if sha384 (sub c 0x070 96) != o.keyHash.get 0 slot then some 0x04
  else if cRollback c < o.rollback then some 0x07
  else if !ecdsaP384 (sub c 0x070 96) (sub c 0 0x1A0) (sub c 0x1A0 96) then some 0x05
  else none

/-- Image bytes from offset `o` stored: the colophon's first 512, and the payload in Binder program memory. -/
def Boot.store (o : Nat) (data : Bytes) (b : Boot) : Boot :=
  { b with
    colophon := if o < 512 then b.colophon.take o ++ data.take (512 - o) else b.colophon,
    prog := b.prog.writeN (o - 512) (data.drop (512 - o)),
    progress := min (b.progress + data.length) b.total }
/-- The last byte is fetched (R67): CHECKING, from now on. An image that ends within its colophon fails. -/
def lastByte (s : State) : State :=
  if s.boot.colophon.length < 512 then bootFail 0x02 s
  else
    let now := s.now
    setBoot .checking (s.onBoot fun b => { b with checkAt := now })
/-- Bytes of the image have arrived, from offset `o` on: the colophon is checked where these complete it, and the last
byte enters CHECKING (R67, R75). Over PCIe the payload is read once the colophon has passed. -/
def bytesIn (o : Nat) (data : Bytes) (s : State) : State :=
  let had := decide (512 ≤ s.boot.colophon.length)
  let s := s.onBoot (Boot.store o data)
  let b := s.boot
  if !had && decide (512 ≤ b.colophon.length) then
    match colophonError s.otp (b.source == 1) b.total b.colophon with
    | some e => bootFail e s
    | none => if b.progress == b.total then lastByte s else readHost (dmaReads b.list 512 b.total) s
  else if b.progress == b.total then lastByte s
  else s

/-- The bytes that the DMA reads in progress still bring: the colophon's, and after its checks the rest. -/
def dmaLeft (b : Boot) : Nat := (if b.progress < 512 then min 512 b.total else b.total) - b.progress
/-- BOOT_DMA_COMPLETION (R70, R75): the next bytes that were read, in list order. -/
def doBootDmaCompletion (c : BootDma) (s : State) : State :=
  if s.boot.state != .loading || s.boot.source != 1 then s
  else match c with
    | .error => bootFail 0x0A s
    | .data bytes => bytesIn s.boot.progress (bytes.take (dmaLeft s.boot)) s

/-- BOOT_DMA_COMPLETION. -/
def execBootDmaCompletion (c : BootDma) (s : State) : Host.Outcome State Fault Refusal :=
  .next (doBootDmaCompletion c s)

/-- The payload as it stands in Binder program memory. -/
def payload (s : State) : Bytes := s.boot.prog.readN 0 (s.boot.total - 512)
/-- BOOT_CHECK_DONE (R75, R78), `us` after the last byte and within 10 ms of it: the payload's SHA-384 against PHASH; on a pass the watchdog is armed for 5 s
and the image started, and a netboot server gets DONE. The spec gives no moment at which LAST_ERROR clears: it stands through START and reads 0 from a
pass on (log 137). -/
def doBootCheckDone (us : Nat) (s : State) : State :=
  if s.boot.state != .checking then s else
  let s := reach (s.boot.checkAt + min us 10000) s
  if sha384 (payload s) != BitVec.ofNat 384 (leVal (sub s.boot.colophon 0x040 48)) then bootFail 0x06 s
  else
    let s := if s.boot.source == 2 then sendNet s.boot.port s.boot.server 5 0 0 [0] s else s
    let s := s.onBoot fun b =>
      { b with lastError := 0, image := some b.colophon, watchdog := some (s.now + 5000000), reqAt := none }
    msix 0 (setBoot .starting s)

/-- BOOT_CHECK_DONE. -/
def execBootCheckDone (us : Nat) (s : State) : Host.Outcome State Fault Refusal := .next (doBootCheckDone us s)

/-- BOOT_FAILED_RETURN (Table 03-3, R77): FAILED is left for WAIT, with no path holding an attempt. The spec gives no
moment at which SOURCE returns to 0: it does so here (log 137). -/
def doBootFailedReturn (s : State) : State :=
  if s.boot.state != .failed then s
  else setBoot .wait (s.onBoot fun b => { b with source := 0, solicitAt := some s.now })

/-- BOOT_FAILED_RETURN. -/
def execBootFailedReturn (s : State) : Host.Outcome State Fault Refusal := .next (doBootFailedReturn s)

/-! ## Netboot (R71 to R73) -/

/-- The DATA of a SOLICIT (R71): POS, BOOT_SEL and MBX_BOOT_OTP. -/
def solicitData (s : State) : Bytes :=
  [BitVec.ofNat 8 s.pwr.straps.pos.toNat, BitVec.ofNat 8 s.pwr.straps.bootSel.toNat] ++
  leBytes 4 (s.otp.slotValid.toNat + s.otp.slotRevoked.toNat * 16 + s.otp.rollback * 256)

/-- The Ethernet broadcast address. -/
def broadcastMac : Nat := 0xFFFFFFFFFFFF
/-- NETBOOT_SOLICIT (R72): broadcast on both ports, every 1 s while netboot is eligible in WAIT. -/
def doNetbootSolicit (s : State) : State :=
  match s.boot.solicitAt with
  | some t =>
    if s.boot.state == .wait && s.boot.net then
      let s := reach t s
      let d := solicitData s
      (sendNet 1 broadcastMac 1 0 0 d (sendNet 0 broadcastMac 1 0 0 d s)).onBoot fun b =>
        { b with solicitAt := some (s.now + 1000000) }
    else s
  | none => s

/-- NETBOOT_SOLICIT. -/
def execNetbootSolicit (s : State) : Host.Outcome State Fault Refusal := .next (doNetbootSolicit s)

/-- The number of 1,408-byte blocks of an image. -/
def blocksOf (total : Nat) : Nat := (total + 1407) / 1408
/-- The blocks of the window that starts at `w`: the first is block 0 alone, which brings the colophon, so that its
checks come before the rest of the payload is fetched (R75, log 138). -/
def windowOf (total w : Nat) : Nat := if w == 0 then 1 else min 16 (blocksOf total - w)

/-- A REQUEST for the window at `w` (R72): 50 ms to complete it. -/
def requestWindow (w : Nat) (s : State) : State :=
  sendNet s.boot.port s.boot.server 3 w (windowOf s.boot.total w) []
    (s.onBoot fun b => { b with window := w, got := [], reqAt := some (s.now + 50000) })

/-- A received frame is a netboot payload of TYPE `ty` for this device (R71): the EtherType, VERSION 1, its SERIAL, and all
of DATA. -/
def netFrame (ty : Nat) (type : Half) (f : Bytes) (s : State) : Bool :=
  type == 0x88B5 && fld f 0 1 == ty && fld f 1 1 == 1 && fld f 4 8 == s.otp.serial.toNat && decide (fld f 18 2 ≤ 1408) &&
  decide (20 + fld f 18 2 ≤ f.length)
/-- NETBOOT_OFFER (R72): the first OFFER addressed to the device's MAC on its port, with its SERIAL and a legal length,
locks the attempt. -/
def doNetbootOffer (port : Fin 2) (src dst : Nat) (type : Half) (frame : Bytes) (s : State) : State :=
  let length := fld frame 20 4
  if s.boot.state == .wait && s.boot.net && dst == s.otp.mac + port.val && netFrame 2 type frame s && fld frame 18 2 == 4 &&
     decide (513 ≤ length) && decide (length ≤ maxImage) then
    let s := s.onBoot fun b =>
      { b with source := 2, port := port, server := src, total := length, progress := 0, colophon := [], list := [],
               timeouts := 0 }
    requestWindow 0 (setBoot .loading s)
  else s

/-- NETBOOT_OFFER. -/
def execNetbootOffer (port : Fin 2) (src dst : Nat) (type : Half) (frame : Bytes) (s : State) :
    Host.Outcome State Fault Refusal := .next (doNetbootOffer port src dst type frame s)

/-- A frame comes from the locked server on the locked port. -/
def fromServer (port : Fin 2) (mac : Nat) (s : State) : Bool :=
  s.boot.source == 2 && s.boot.port == port.val && s.boot.server == mac

/-- The length of a block: 1,408 bytes, the last one what is left. -/
def blockLen (total block : Nat) : Nat := min 1408 (total - block * 1408)

/-- A block of the window asked for is stored once, in whatever order the blocks come; block 0 brings the colophon. A
complete window is followed by the next, and the last by CHECKING. -/
def blockIn (block : Nat) (data : Bytes) (s : State) : State :=
  let s := bytesIn (block * 1408) data s
  let b := s.boot
  if b.state != .loading then s.onBoot fun b => { b with reqAt := none }
  else
    let s := s.onBoot fun b => { b with got := b.got ++ [block] }
    if s.boot.got.length == windowOf b.total b.window then
      requestWindow (b.window + windowOf b.total b.window) (s.onBoot fun b => { b with timeouts := 0 })
    else s
/-- NETBOOT_DATA (R72): a DATA frame of the locked server on the locked port. -/
def doNetbootData (port : Fin 2) (src : Nat) (type : Half) (frame : Bytes) (s : State) : State :=
  let b := s.boot
  let block := fld frame 12 4
  let n := fld frame 18 2
  if b.state == .loading && fromServer port src s && netFrame 4 type frame s && decide (b.window ≤ block) &&
     decide (block < b.window + windowOf b.total b.window) && !b.got.contains block && n == blockLen b.total block then
    blockIn block (sub frame 20 n) s
  else s

/-- NETBOOT_DATA. -/
def execNetbootData (port : Fin 2) (src : Nat) (type : Half) (frame : Bytes) (s : State) :
    Host.Outcome State Fault Refusal := .next (doNetbootData port src type frame s)

/-- The runs of missing blocks, as first block and count. -/
def runs : List Nat → List (Nat × Nat)
  | [] => []
  | b :: bs =>
    match runs bs with
    | (c, n) :: rs => if c == b + 1 then (b, n + 1) :: rs else (b, 1) :: (c, n) :: rs
    | [] => [(b, 1)]

/-- NETBOOT_REQUEST_TIMEOUT (R72): the missing blocks are requested again; the eighth consecutive timeout fails
the attempt. -/
def doNetbootRequestTimeout (s : State) : State :=
  match s.boot.reqAt with
  | none => s
  | some t =>
    if s.boot.state != .loading then s else
    let s := reach t s
    if 8 ≤ s.boot.timeouts + 1 then bootFail 0x0C s
    else
      let b := s.boot
      let missing := ((List.range (windowOf b.total b.window)).map (b.window + ·)).filter fun k => !b.got.contains k
      let s := (runs missing).foldl (fun s r => sendNet b.port b.server 3 r.1 r.2 [] s) s
      s.onBoot fun b => { b with timeouts := b.timeouts + 1, reqAt := some (s.now + 50000) }

/-- NETBOOT_REQUEST_TIMEOUT. -/
def execNetbootRequestTimeout (s : State) : Host.Outcome State Fault Refusal := .next (doNetbootRequestTimeout s)

/-- NETBOOT_CANCEL (R72): from the locked server alone. -/
def doNetbootCancel (port : Fin 2) (hdr : EthHdr) (frame : Bytes) (s : State) : State :=
  if (s.boot.state == .loading || s.boot.state == .checking) && fromServer port hdr.src s &&
     netFrame 6 hdr.type frame s then
    bootFail 0x0D s
  else s

/-- NETBOOT_CANCEL. -/
def execNetbootCancel (port : Fin 2) (hdr : EthHdr) (frame : Bytes) (s : State) : Host.Outcome State Fault Refusal :=
  .next (doNetbootCancel port hdr frame s)

/-- MGMT_LINK_LOSS (R72): on the locked port. -/
def doMgmtLinkLoss (port : Fin 2) (s : State) : State :=
  if (s.boot.state == .loading || s.boot.state == .checking) && s.boot.source == 2 && s.boot.port == port.val then
    bootFail 0x0B s
  else s

/-- MGMT_LINK_LOSS. -/
def execMgmtLinkLoss (port : Fin 2) (s : State) : Host.Outcome State Fault Refusal := .next (doMgmtLinkLoss port s)

/-- NETBOOT_ELIGIBLE (R73): with BOOT_SEL 0b10, 30 s after BIND reset release. -/
def doNetbootEligible (s : State) : State :=
  match s.boot.netAt with
  | none => s
  | some t =>
    let s := reach t s
    s.onBoot fun b => { b with net := true, netAt := none, solicitAt := some s.now }

/-- NETBOOT_ELIGIBLE. -/
def execNetbootEligible (s : State) : Host.Outcome State Fault Refusal := .next (doNetbootEligible s)

/-- RESET_EXECUTE (R97): the response has been written; once the board has stood down, or after 1 ms, the bypasses
engage and BIND is reset. -/
def doResetExecute (s : State) : State :=
  match s.jr.resetAt with
  | none => s
  | some t =>
    let s := if s.pair.lead then reach t s else s
    let s := (List.range 8).foldl (fun s m => (List.range 4).foldl (fun s _ => writeOut m s) s) s
    shortReset 7 (s.onSpn fun p => { p with insert := .out })

/-- RESET_EXECUTE. -/
def execResetExecute (s : State) : Host.Outcome State Fault Refusal := .next (doResetExecute s)

end Sys2Proof.Machine
end

