-- ==== Sys2Proof/Machine/Drive.lean ====
section
/-! DEFINITION. Machine/Drive.lean: the drive engine: the keeper table, pumps, fans, valves, the hardware table and
its floors, below-floor leases and the Binder-silence watchdog (chapter 09). Elements are numbered as in LOCAL of
Table 13-3: 0 to 3 pumps, 4 to 11 fans, 12 to 19 valves. -/

namespace Sys2Proof.Machine

/-! ## The keeper table (Tables 09-2 to 09-7) -/

/-- A fan record. -/
def fanRec (b : Bytes) (n : Nat) : Bytes := sub b (0x220 + 16 * n) 16
/-- A valve record. -/
def valveRec (b : Bytes) (n : Nat) : Bytes := sub b (0x2A0 + 16 * n) 16
/-- A control sensor entry. -/
def sensRec (b : Bytes) (n : Nat) : Bytes := sub b (0x20 + 32 * n) 32
/-- NSENS. -/
def nSens (b : Bytes) : Nat := fld b 3 1
/-- NPOINTS. -/
def nPoints (b : Bytes) : Nat := fld b 2 1
/-- TEMP of a point, in 0.1 °C. -/
def ptTemp (b : Bytes) (k : Nat) : Int := toSigned 16 (fld b (0xA0 + 8 * k) 2)
/-- HYST of a point. -/
def ptHyst (b : Bytes) (k : Nat) : Nat := fld b (0xA0 + 8 * k + 2) 2
/-- PUMP of a point. -/
def ptPump (b : Bytes) (k : Nat) : Nat := fld b (0xA0 + 8 * k + 4) 2
/-- FAN of a point. -/
def ptFan (b : Bytes) (k : Nat) : Nat := fld b (0xA0 + 8 * k + 6) 2

/-- A value lies in a range. -/
def inRange (lo v hi : Nat) : Bool := decide (lo ≤ v) && decide (v ≤ hi)

/-- The control sensor and point entries of R204. -/
def tablePointsOk (b : Bytes) : Bool :=
  ((List.range (nSens b)).all fun i =>
    let r := sensRec b i
    chanRecOk (sub r 0 16) && decide (fld r 0 1 < 32) && fld r 1 1 == 1 && zeroField r 24 8 &&
    !((List.range i).map fun j => fld (sensRec b j) 0 1).contains (fld r 0 1)) &&
  zeroField b (0x20 + 32 * nSens b) (32 * (4 - nSens b)) && zeroField b (0xA0 + 8 * nPoints b) (8 * (16 - nPoints b)) &&
  (List.range (nPoints b)).all fun k =>
    decide (ptHyst b k ≤ 200) && decide (ptPump b k ≤ 1000) && decide (ptFan b k ≤ 1000) &&
    (if k == 0 then ptHyst b 0 == 0
     else decide (ptTemp b (k - 1) < ptTemp b k) && decide ((ptHyst b k : Int) ≤ ptTemp b k - ptTemp b (k - 1)) &&
       decide (ptPump b (k - 1) ≤ ptPump b k) && decide (ptFan b (k - 1) ≤ ptFan b k))

/-- A pump record satisfies Table 09-5 and R204. -/
def pumpRecOk (r : Bytes) : Bool :=
  let bs := skipBands r
  let maxRpm := fld r 8 2
  decide (fld r 0 1 ≤ 1) && zeroField r 56 8 &&
  (fld r 0 1 == 0 ||
   (decide (fld r 1 1 ≤ 1) && inRange 1 (fld r 2 1) 32 && decide (fld r 3 1 ≤ 1) && inRange 8000 (fld r 4 2) 48000 &&
    inRange 20 (fld r 6 2) 2000 && inRange 100 maxRpm 20000 && inRange 10 (fld r 10 2) 5000 &&
    (if fld r 1 1 == 1 then inRange 64 (fld r 12 2) 16384 else fld r 12 2 == 0) && decide (1 ≤ fld r 14 2) &&
    decide (fld r 18 2 < fld r 16 2) && decide (fld r 36 2 ≤ 10000) && inRange 100 (fld r 38 2) 5000 &&
    (bs.all fun p => decide (p.1 < p.2) && decide (p.2 ≤ maxRpm)) &&
    (List.range bs.length).all fun i => (List.range i).all fun j =>
      let p := bs.getD i (0, 0)
      let q := bs.getD j (0, 0)
      decide (p.2 < q.1) || decide (q.2 < p.1)))
/-- A fan record satisfies Table 09-6. -/
def fanRecOk (r : Bytes) : Bool :=
  decide (fld r 0 1 ≤ 1) && zeroField r 2 2 && zeroField r 8 8 &&
  (fld r 0 1 == 0 || (inRange 1 (fld r 1 1) 4 && inRange 1 (fld r 4 2) 1000 && decide (fld r 6 2 ≤ 1000)))
/-- A valve record satisfies Table 09-7 and R204. -/
def valveRecOk (r : Bytes) : Bool :=
  decide (fld r 0 1 ≤ 1) && zeroField r 1 1 && zeroField r 14 2 &&
  (fld r 0 1 == 0 ||
   (decide (fld r 2 2 < fld r 4 2) && decide (fld r 4 2 ≤ 24000) && decide (1 ≤ fld r 6 2) &&
    decide (2 * fld r 4 2 ≤ 3 * fld r 6 2) && inRange 100 (fld r 8 2) 10000 && inRange 1 (fld r 10 2) 1000 &&
    decide (fld r 12 2 ≤ 10000)))

/-- A keeper table is valid (R204). -/
def tableValid (b : Bytes) : Bool :=
  b.length == 1024 && fld b 0 2 == 1 && crcOk b 1024 && zeroField b 4 28 && zeroField b 0x320 220 &&
  inRange 1 (nPoints b) 16 && inRange 1 (nSens b) 4 && tablePointsOk b &&
  ((List.range 4).all fun n => pumpRecOk (pumpRec b n)) && ((List.range 8).all fun n => fanRecOk (fanRec b n)) &&
  (List.range 8).all fun n => valveRecOk (valveRec b n)

/-! ## Elements -/

/-- A fan's record in use. -/
def fRec (s : State) (n : Nat) : Bytes := inUse (fanRec (tbl s) n)
/-- A valve's record in use. -/
def vRec (s : State) (n : Nat) : Bytes := inUse (valveRec (tbl s) n)
/-- A pump changed. -/
def onPump (n : Nat) (f : Pump → Pump) (s : State) : State := s.onDrv fun d => { d with pumps := d.pumps.mod {} n f }
/-- A fan changed. -/
def onFan (n : Nat) (f : Fan → Fan) (s : State) : State := s.onDrv fun d => { d with fans := d.fans.mod {} n f }
/-- A valve changed. -/
def onValve (n : Nat) (f : Valve → Valve) (s : State) : State := s.onDrv fun d => { d with valves := d.valves.mod {} n f }
/-- MAX_RPM in 0.0001 rpm. -/
def maxU (r : Bytes) : Nat := 10000 * fld r 8 2

/-- A floor moved out of the bands to HI (R211). -/
def highEdge (bs : List (Nat × Nat)) (t : Nat) : Nat :=
  match bs.find? (fun p => decide (p.1 < t) && decide (t < p.2)) with
  | some p => p.2
  | none => t
/-- One ramp step of at most `r` from `c` towards `t`, four times `r` within a band (R211). -/
def rampStep (bs : List (Nat × Nat)) (r c t : Nat) : Nat :=
  if c < t then
    match bs.find? (fun p => decide (p.1 ≤ c) && decide (c < p.2)) with
    | some p => min t (min p.2 (c + 4 * r))
    | none => min t (c + r)
  else
    match bs.find? (fun p => decide (p.1 < c) && decide (c ≤ p.2)) with
    | some p => max t (max p.1 (c - 4 * r))
    | none => max t (c - r)

/-- A pump whose protection stops it still (R213): exempt from the floor rules. -/
def Pump.out (p : Pump) : Bool := p.st == .retry || p.st == .lockout
/-- The outputs low and PGEN low (R209). -/
def Pump.halt (st : PumpSt) (p : Pump) : Pump :=
  { p with
    st := st, cmd := 0, integ := 0, iq := 0, dInt := 0, qInt := 0, duty := [0, 0, 0], alignTo := none, stallAt := none,
    overAt := none }

/-- A start (R209, R208): PGEN high, the first PWM edge 10 µs later, and the encoder's alignment on the first start
after FIELD reset. -/
def startPump (n : Nat) (st : PumpSt) (s : State) : State :=
  let now := s.now
  let enc := fld (pRec s n) 1 1 == 1
  onPump n (fun p => { p with
    st := st, edgeFrom := now + 10, retryAt := none,
    alignTo := if enc && !p.aligned then some (now + 250000) else none }) s

/-- A pump's steady target set; a stopped pump with a target of 1 % of MAX_RPM or more spins up (R211). -/
def setTarget (n t : Nat) (st : PumpSt) (s : State) : State :=
  let r := pRec s n
  let s := onPump n (fun p => { p with target := t }) s
  if (pumpOf s n).st == .stopped && decide (maxU r ≤ 100 * t) && fieldOn s then startPump n st s else s

/-! ## Floors (R219, R223) -/

/-- The live below-floor lease of an element. -/
def belowOf (s : State) (e : Nat) : Option BelowLease := s.drv.leases.find? (·.elem == e)
/-- A pump's floor at a level, lowered by a below-floor lease. -/
def pumpFloor (s : State) (n k : Nat) : Nat :=
  let r := pRec s n
  let f := highEdge (bandsU r) (ptPump (tbl s) k * maxU r / 1000)
  match belowOf s n with
  | some l => highEdge (bandsU r) (min f (l.min * maxU r / 1000))
  | none => f
/-- A fan's floor at the level. -/
def fanFloor (s : State) (n : Nat) : Nat :=
  let f := if (fanOf s n).on then 1000 * ptFan (tbl s) s.drv.level else 0
  match belowOf s (4 + n) with
  | some l => min f (1000 * l.min)
  | none => f
/-- The table maximum of a pump (R219). -/
def tableMax (s : State) (n : Nat) : Nat :=
  highEdge (bandsU (pRec s n)) (ptPump (tbl s) (nPoints (tbl s) - 1) * maxU (pRec s n) / 1000)

/-- The floors of every element at the level and leases as they stand. -/
def setFloors (s : State) : State :=
  let s := (List.range 4).foldl (fun s n =>
    let f := pumpFloor s n s.drv.level
    onPump n (fun p => { p with floor := f }) s) s
  (List.range 8).foldl (fun s n =>
    let f := fanFloor s n
    onFan n (fun x => { x with floor := f }) s) s

/-- The elements that no firmware drives move towards their floors (R220). -/
def seekFloors (s : State) : State :=
  if s.drv.fired then s else
  let s := (List.range 4).foldl (fun s n =>
    let p := pumpOf s n
    if p.fw || p.st == .disabled then s else setTarget n p.floor .running s) s
  (List.range 8).foldl (fun s n =>
    if (fanOf s n).fw || !(fanOf s n).on then s else onFan n (fun x => { x with target := x.floor }) s) s

/-! ## Loading a table (R66, R204, R207, R227) -/

/-- The temperature of a control sensor in 0.001 °C (R218): that of the last point when it has failed, none before
its first valid word. -/
def sensTemp (s : State) (i : Nat) : Option Int :=
  let r := sensRec (tbl s) i
  let c := chanOf s (fld r 0 1)
  if s.drv.failed.contains i then some (100 * ptTemp (tbl s) (nPoints (tbl s) - 1))
  else if c.any then some (toSigned 32 (fld r 16 4) + (toSigned 32 (fld r 20 4) * wordData16 c.last).fdiv 65536)
  else none
/-- The control temperature: the highest. -/
def controlTemp (s : State) : Option Int :=
  ((List.range (nSens (tbl s))).filterMap (sensTemp s)).foldl (fun m t => match m with
    | none => some t
    | some x => some (max x t)) none

/-- The level at a load: the largest point reached. -/
def loadLevel (b : Bytes) (t : Option Int) : Nat :=
  match t with
  | none => 0
  | some t => (((List.range (nPoints b)).reverse).find? fun k => decide (100 * ptTemp b k ≤ t)).getD 0
/-- The level's move each 1 ms (R219): up to the largest point reached, else down past each hysteresis. -/
def fallLevel (b : Bytes) (t : Int) : Nat → Nat
  | 0 => 0
  | k + 1 => if t < 100 * (ptTemp b (k + 1) - ptHyst b (k + 1)) then fallLevel b t k else k + 1
/-- The next level. -/
def nextLevel (b : Bytes) (t : Option Int) (level : Nat) : Nat :=
  match t with
  | none => level
  | some t =>
    let up := (((List.range (nPoints b)).reverse).find? fun k => decide (level < k) && decide (100 * ptTemp b k ≤ t)).getD level
    fallLevel b t up

/-- A table in use: the parameters of every element and the channel records of its sensors (R198). -/
def useTable (t : Option Bytes) (s : State) : State :=
  let b := t.getD []
  let chans := (List.range (nSens b)).map fun i => sub (sensRec b i) 0 16
  let s := s.onDrv fun d => { d with table := t, badAt := [], failed := [] }
  let s := (List.range 4).foldl (fun s n =>
    let r := pumpRec b n
    onPump n (fun p =>
      if fld r 0 1 == 0 then p.halt .disabled
      else if p.st == .disabled then { p with st := .stopped, hz := fld r 4 2, dead := fld r 6 2 }
      else { p with target := nearEdge (bandsU r) p.target }) s) s
  let s := (List.range 8).foldl (fun s n =>
    onFan n (fun f => if fld (fanRec b n) 0 1 == 0 then {} else { f with on := true }) s) s
  let s := (List.range 8).foldl (fun s n =>
    onValve n (fun v => if fld (valveRec b n) 0 1 == 0 then { v with on := false } else { v with on := true }) s) s
  let s := s.onAfe fun a => { a with named := chans.map fun r => fld r 0 1 }
  chans.foldl (fun s r => s.onKt fun k => k.storeAfe 0 r) s

/-- The level afresh at a load (R219). A pump under the watchdog's action ramps towards the maximum of the new table. -/
def freshLevel (s : State) : State :=
  let t := controlTemp s
  let k := loadLevel (tbl s) t
  let s := seekFloors (setFloors (s.onDrv fun d => { d with temp := t, level := k }))
  (List.range 4).foldl (fun s n =>
    let m := tableMax s n
    onPump n (fun p => if p.st == .watchdog then { p with target := m } else p) s) s

/-- The channels that the front end runs after a load: the live ones, with those of the table's records. -/
def loadNamed (s : State) : State :=
  loadChans (fun n => if s.afe.named.contains n then s.kt.afeRec.find n else (chanOf s n).live) s.afe.cal
    ((s.afe.exc).map fun p => (p.1, p.2.code)) s

/-- FIELD_RESET_RELEASE (R66, R204, R205, R227): the keeper table, the OTP default or the Orzal default loads; the
named channels start; every pump starts STOPPED and every valve takes its OTP default. -/
def doFieldResetRelease (s : State) : State :=
  if s.pwr.field != .reset then s else
  let now := s.now
  let s := s.onPwr fun p => { p with field := .on }
  let s := s.onAfe fun a => { a with origin := now, refAt := now, copyAt := now }
  let kept := if s.keep.cold then none else s.kt.keeperTable.filter tableValid
  let s := if kept.isSome then s else record 0x0F13 2 [] 0 s
  let t := match kept with | some b => some b | none => s.otp.hwTable.filter tableValid
  let s := if t.isSome then s else event 0x090B 3 [] 0 0 s
  let s := s.onDrv fun _ => { stepAt := now }
  let s := useTable t s
  let s := (List.range 8).foldl (fun s n => onValve n (fun v =>
    { v with
      dark := (s.otp.valves.find n).isNone, pos := 100 * s.otp.valves.get 0 n, target := 100 * s.otp.valves.get 0 n }) s) s
  freshLevel (loadNamed s)

/-- FIELD_RESET_RELEASE. -/
def execFieldResetRelease (s : State) : Host.Outcome State Fault Refusal := .next (doFieldResetRelease s)

/-! ## Protection (R212, R213) -/

/-- A below-floor lease ended, and its command completed (R223, R224). -/
def endBelow (e : Nat) (result : Word) (s : State) : State :=
  match belowOf s e with
  | none => s
  | some l => seekFloors (setFloors (finish0 l.jseq result (dropBelow l result s)))

/-- A fault of Table 09-8 stops a pump: RETRY, or LOCKOUT on a fourth fault within 60 s of the first of the last
three. `f` numbers the faults in the table's order. -/
def pumpFault (n f : Nat) (s : State) : State :=
  let p := pumpOf s n
  if !fieldOn s || p.st == .disabled || p.out then s else
  let now := s.now
  let lock := decide (3 ≤ p.faults.length) && decide (now ≤ p.faults.headD 0 + 60000000)
  let s := onPump n (fun p => { (p.halt (if lock then .lockout else .retry)) with
    faults := (p.faults ++ [now]).drop (p.faults.length + 1 - 3), last := f,
    retryAt := if lock then none else some (now + 1000000) }) s
  let s := count (0x323 + 4 * n) (event 0x0900 2 [n, f, ofSigned 32 p.speed] 0 0 s)
  let s := if lock then event 0x0901 3 [n, f] 0 0 s else s
  endBelow n 0x0904 s

/-- DRIVER_FAULT. -/
def execDriverFault (n : Fin 4) (s : State) : Host.Outcome State Fault Refusal := .next (pumpFault n 0 s)

/-- PUMP_STALL: the condition has held for STALL_MS. -/
def doPumpStall (n : Nat) (s : State) : State :=
  match (pumpOf s n).stallAt with
  | some t => pumpFault n 2 (reach (t + 1000 * fld (pRec s n) 38 2) s)
  | none => s

/-- PUMP_STALL. -/
def execPumpStall (n : Fin 4) (s : State) : Host.Outcome State Fault Refusal := .next (doPumpStall n s)

/-- PUMP_POSITION_FAULT. -/
def execPumpPositionFault (n : Fin 4) (s : State) : Host.Outcome State Fault Refusal := .next (pumpFault n 3 s)

/-- PUMP_OVERSPEED: the condition has held for 100 ms. -/
def doPumpOverspeed (n : Nat) (s : State) : State :=
  match (pumpOf s n).overAt with
  | some t => pumpFault n 4 (reach (t + 100000) s)
  | none => s

/-- PUMP_OVERSPEED. -/
def execPumpOverspeed (n : Fin 4) (s : State) : Host.Outcome State Fault Refusal := .next (doPumpOverspeed n s)

/-- SAR_CONVERSION (R190, R210, R212): the word, the phase current in µA, and OVERCURRENT on the second of two
consecutive conversions of a phase above OC_LIMIT. -/
def doSarConversion (k code : Nat) (s : State) : State :=
  let n := k / 3
  let r := pRec s n
  if !fieldOn s || fld r 0 1 == 0 then s else
  let i := sarData s k code * fld r 14 2
  let above := decide (1000 * fld r 16 2 < i.natAbs)
  let runs := if above then (pumpOf s n).high.getD (k % 3) 0 + 1 else 0
  let s := onPump n (fun p => { p with cur := p.cur.set (k % 3) i, high := p.high.set (k % 3) runs }) (sarWord k code s)
  if 2 ≤ runs then pumpFault n 1 s else s

/-- SAR_CONVERSION. -/
def execSarConversion (ch : Fin 12) (code : Nat) (s : State) : Host.Outcome State Fault Refusal :=
  .next (doSarConversion ch code s)

/-- A pump in RETRY starts again as a spin-up (R213). -/
def restartPump (n : Nat) (s : State) : State :=
  let t := (pumpOf s n).target
  let s := onPump n (fun p => { p with st := .stopped, retryAt := none }) s
  setTarget n t (if s.drv.fired then .watchdog else .running) (event 0x0902 1 [n] 0 0 s)

/-- The ms that a pump's ramp from rest to its target takes. -/
def rampMs (s : State) (n : Nat) : Nat := ((pumpOf s n).target / 10 + fld (pRec s n) 10 2 - 1) / fld (pRec s n) 10 2

/-- A restart asks for spin-up leave while firmware runs (R213); a WATCHDOG spin-up takes none (R225). -/
def askRestart (n : Nat) (s : State) : State :=
  if !running s || s.drv.fired then restartPump n s
  else
    let w := fld (pRec s n) 36 2
    let ms := rampMs s n + 1000
    match internalAsk w s with
    | none => restartPump n (grantInternal 3 n w ms s)
    | some d => waitLeave 3 n w ms d (reportUnset s)

/-- A restart waits for its leave. -/
def restartWaits (n : Nat) (s : State) : Bool := s.lv.waits.any fun w => w.kind == 3 && w.owner == n
/-- PUMP_RETRY_RESTART: 1 s after the fault; one whose wait for leave a reset or a stand-down has ended is due at once. -/
def doPumpRetryRestart (n : Nat) (s : State) : State :=
  match (pumpOf s n).retryAt with
  | some t => if (pumpOf s n).st != .retry || restartWaits n s then s else askRestart n (reach t s)
  | none => s

/-- PUMP_RETRY_RESTART. -/
def execPumpRetryRestart (n : Fin 4) (s : State) : Host.Outcome State Fault Refusal := .next (doPumpRetryRestart n s)

/-! ## Pump loops (R208, R209) -/

/-- The PWM period in fine steps of 156.25 ps (R209). -/
def periodSteps (hz : Nat) : Nat := if hz == 0 then 0 else 6400000000 / hz
/-- DEADTIME rounded up to a whole fine step. -/
def deadSteps (ns : Nat) : Nat := (ns * 32 + 4) / 5
/-- A phase's high-side pulse: within the modulation limit, and dropped when shorter than DEADTIME. -/
def highPulse (hz dead d : Nat) : Nat :=
  let m := periodSteps hz - 2 * deadSteps dead
  let d := if m == 0 then 0 else d % (m + 1)
  if d < deadSteps dead then 0 else d
/-- A phase's low-side pulse: what the period leaves beside the high side and the two dead times. -/
def lowPulse (hz dead high : Nat) : Nat :=
  let l := periodSteps hz - high - 2 * deadSteps dead
  if l < deadSteps dead then 0 else l

/-- The phases in the order in which DIR runs them: U, V, W forward, U, W, V in reverse (Table 09-5). -/
def inDir (r : Bytes) (l : List Int) : List Int :=
  if fld r 3 1 == 1 then [l.getD 0 0, l.getD 2 0, l.getD 1 0] else l
/-- The electrical angle in 1/65,536 turn (R208): 0 while the encoder aligns, from the quadrature count since then, or from
the hall code, interpolated by the speed over the time since it changed. -/
def rotorAngle (now : Nat) (r : Bytes) (p : Pump) : Nat :=
  if p.alignTo.isSome then 0
  else if fld r 1 1 == 1 then
    (((p.rotor : Int) - p.zero) * fld r 2 1 * 65536 / fld r 12 2 % 65536).toNat
  else Config.hallAngle p.rotor p.speed (now - p.rotorAt)
/-- One PI loop's output (R208) in 2^-32 × 10^-8 of the modulation index per Hz of PWM_HZ. -/
def piOut (kp ki hz : Nat) (err integ : Int) : Int := kp * err * hz + ki * integ
/-- One PWM period of the current loops (R208): the phase currents through Clarke and Park into d and q, `id` held at 0 (at
I_MAX / 2 while the encoder aligns) and `iq` at its demand, and the duties set from both outputs. -/
def Pump.currents (now : Nat) (r : Bytes) (p : Pump) : Pump :=
  let a := rotorAngle now r p
  let i := Config.park (inDir r p.cur) a
  let ed := (if p.alignTo.isSome then iMaxU r / 2 else 0) - 6553600 * i.1
  let eq := (if p.alignTo.isSome then 0 else p.iq) - 6553600 * i.2
  let d := p.dInt + ed
  let q := p.qInt + eq
  let kp := fld r 20 4
  let ki := fld r 24 4
  let out := inDir r ((List.range 3).map fun k =>
    (Config.svm k (piOut kp ki p.hz ed d) (piOut kp ki p.hz eq q) p.hz a : Int))
  { p with dInt := d, qInt := q, duty := out.map fun x => highPulse p.hz p.dead x.toNat }

/-- PUMP_CURRENT_LOOP: once per PWM period the loops set the three duties, no earlier than the first edge of a start.
`rotor` is the hall code, or the quadrature count in encoder mode. -/
def doPumpCurrentLoop (n rotor : Nat) (s : State) : State :=
  let p := pumpOf s n
  if !fieldOn s || !p.driven then s else
  let s := count (0x320 + 4 * n) (reach p.edgeFrom s)
  let now := s.now
  let r := pRec s n
  onPump n (fun p => ({ p with rotor := rotor, rotorAt := if p.rotor == rotor then p.rotorAt else now } : Pump).currents now r) s

/-- PUMP_CURRENT_LOOP. -/
def execPumpCurrentLoop (p : PumpRotor) (s : State) : Host.Outcome State Fault Refusal :=
  .next (doPumpCurrentLoop p.n p.rotor s)

/-- The current demand of the speed loop (R208): KP × error + KI × integral, clamped to ±I_MAX. -/
def speedDemand (r : Bytes) (err integ : Int) : Int :=
  max (- iMaxU r) (min (iMaxU r) (fld r 28 4 * err * 10000 + fld r 32 4 * integ))

/-- What a condition's start becomes: kept while it holds, none while it does not. -/
def sinceWhile (now : Nat) (holds : Bool) (t : Option Nat) : Option Nat := if holds then some (t.getD now) else none

/-- The conditions of STALL and OVERSPEED at a measured speed (Table 09-8). -/
def Pump.watch (now : Nat) (r : Bytes) (p : Pump) : Pump :=
  { p with
    stallAt := sinceWhile now (p.driven && decide (maxU r ≤ 10 * p.target) && decide (20 * p.speed < fld r 8 2)) p.stallAt,
    overAt := sinceWhile now (p.driven && decide (115 * (fld r 8 2 : Int) < 100 * p.speed)) p.overAt }

/-- Where an output ramps (R221): to its target, but while firmware drives it no lower than its floor, or than the output
where that is below the floor. `out` gives where a held output rests. -/
def heldAt (fw : Bool) (floor cmd target : Nat) (out : Nat → Nat) : Nat :=
  if fw && decide (target < floor) then max target (out (min cmd floor)) else target
/-- One 100 µs step of a driven pump's command and demand; it stops once its target is below 1 % of MAX_RPM and its
speed reads 0 (Table 09-9). -/
def Pump.loop (r : Bytes) (p : Pump) : Pump :=
  if !p.driven || p.alignTo.isSome then p
  else
    let c := rampStep (bandsU r) (fld r 10 2) p.cmd (heldAt p.fw p.floor p.cmd p.target (highEdge (bandsU r)))
    if c == p.target && decide (100 * p.target < maxU r) && p.speed == 0 then { (p.halt .stopped) with target := p.target }
    else
      let err : Int := c - 10000 * p.speed
      { p with cmd := c, integ := p.integ + err, iq := speedDemand r err (p.integ + err) }

/-- PUMP_SPEED_LOOP: at 10 kHz, with the measured speed; below 1 % of MAX_RPM it reads 0 (R208). -/
def doPumpSpeedLoop (n : Nat) (speed : Int) (s : State) : State :=
  let r := pRec s n
  if !fieldOn s || fld r 0 1 == 0 then s else
  let v := if 100 * speed.natAbs < fld r 8 2 then 0 else speed
  let now := s.now
  onPump n (fun p => (({ p with speed := v } : Pump).loop r).watch now r) s

/-- PUMP_SPEED_LOOP. -/
def execPumpSpeedLoop (n : Fin 4) (speed : Int) (s : State) : Host.Outcome State Fault Refusal :=
  .next (doPumpSpeedLoop n speed s)

/-- ENCODER_ALIGN_DONE: after 250 ms at I_MAX / 2 the rotor is aligned, until the next FIELD reset. -/
def doEncoderAlignDone (n : Nat) (s : State) : State :=
  match (pumpOf s n).alignTo with
  | some t => onPump n (fun p => { p with aligned := true, alignTo := none, zero := p.rotor }) (reach t s)
  | none => s

/-- ENCODER_ALIGN_DONE. -/
def execEncoderAlignDone (n : Fin 4) (s : State) : Host.Outcome State Fault Refusal := .next (doEncoderAlignDone n s)

/-- PWM_PARAM_APPLY (R207): PWM_HZ and DEADTIME of the table in use, at the pump's next PWM period boundary, from which the
new periods run. -/
def doPwmParamApply (n : Nat) (s : State) : State :=
  let r := pRec s n
  let p := pumpOf s n
  if !fieldOn s || fld r 0 1 == 0 || (p.hz == fld r 4 2 && p.dead == fld r 6 2) then s else
  let s := if p.driven then reach (pwmBoundary s.now p) s else s
  let now := s.now
  onPump n (fun p => { p with hz := fld r 4 2, dead := fld r 6 2, edgeFrom := if p.driven then now else p.edgeFrom }) s

/-- PWM_PARAM_APPLY. -/
def execPwmParamApply (pump : Fin 4) (s : State) : Host.Outcome State Fault Refusal := .next (doPwmParamApply pump s)

/-! ## The 1 ms step (R214, R216, R218 to R221) -/

/-- A value moved towards a target by at most `r`. -/
def slew (r c t : Nat) : Nat := if c < t then min t (c + r) else max t (c - r)

/-- A control sensor's failure after 1 s of words with VALID 0 or FAULT 1, and its end (R218). -/
def senseFail (i : Nat) (s : State) : State :=
  let ch := fld (sensRec (tbl s) i) 0 1
  let w := (chanOf s ch).word
  let now := s.now
  if wordValid w && !w.getLsbD 29 then
    let s := s.onDrv fun d => { d with badAt := d.badAt.erase i }
    if s.drv.failed.contains i then
      event 0x090A 2 [ch, 0] 0 0 (s.onDrv fun d => { d with failed := d.failed.filter (· != i) })
    else s
  else
    let t := s.drv.badAt.get now i
    let s := s.onDrv fun d => { d with badAt := d.badAt.set i t }
    if t + 1000000 ≤ now && !s.drv.failed.contains i then
      event 0x090A 2 [ch, 1] 0 0 (s.onDrv fun d => { d with failed := i :: d.failed })
    else s

/-- A change of level from `old`, reported to the planner and as FLOOR_LEVEL with T in 0.1 °C. -/
def reportLevel (old : Nat) (s : State) : State :=
  let new := s.drv.level
  if old == new then s
  else
    count 0x340 (event 0x0906 1 [old, new, ofSigned 16 ((s.drv.temp.getD 0).fdiv 100)] 0 0
      (s.onDrv fun d => { d with moved := true }))
/-- The level's move (R219). -/
def moveLevel (s : State) : State :=
  let t := controlTemp s
  let old := s.drv.level
  let new := nextLevel (tbl s) t old
  reportLevel old (s.onDrv fun d => { d with temp := t, level := new })

/-- The outputs that slew: fans and valves (R214, R216). -/
def slewAll (s : State) : State :=
  let s := (List.range 8).foldl (fun s n =>
    let r := fld (fRec s n) 4 2
    if !(fanOf s n).on then s else onFan n (fun f => { f with
      duty := slew r f.duty (heldAt f.fw f.floor f.duty f.target fun x => x) }) s) s
  (List.range 8).foldl (fun s n =>
    let r := fld (vRec s n) 10 2
    if !(valveOf s n).on then s else onValve n (fun v => { v with pos := slew r v.pos v.target }) s) s

/-- When firmware-driven outputs have been below their floors, and fans at or above STALL_DUTY (R215, R221). -/
def watchAll (s : State) : State :=
  let now := s.now
  let s := (List.range 4).foldl (fun s n => onPump n (fun p =>
    let low := p.fw && !p.out && p.st != .disabled && decide (p.cmd < p.floor)
    { p with lowAt := sinceWhile now low p.lowAt, late := p.late && low }) s) s
  (List.range 8).foldl (fun s n =>
    let r := fRec s n
    let stop := (chanOf s (44 + n)).word.getLsbD 30
    onFan n (fun f =>
      let low := f.fw && f.on && decide (f.duty < f.floor)
      { f with lowAt := sinceWhile now low f.lowAt, late := f.late && low,
               hotAt := sinceWhile now (f.on && stop && decide (1000 * fld r 6 2 ≤ f.duty)) f.hotAt }) s) s

/-- HW_TABLE_STEP: every 1 ms. -/
def doHwTableStep (s : State) : State :=
  if !fieldOn s then s else
  let s := reach (s.drv.stepAt + 1000) s
  let now := s.now
  let s := s.onDrv fun d => { d with stepAt := now }
  let s := (List.range (nSens (tbl s))).foldl (fun s i => senseFail i s) s
  let s := seekFloors (setFloors (moveLevel s))
  watchAll (slewAll s)

/-- FLOOR_LATE reported for an element, once for each time it stays below its floor. -/
def reportLate (e out floor : Nat) (s : State) : State := event 0x0907 2 [e, out, floor] 0 0 s

/-- FLOOR_LATE for an element whose output has been below its floor for 1 s: whether it was due, and the state. -/
def floorLate (e : Nat) (s : State) : Bool × State :=
  if e < 4 then
    let p := pumpOf s e
    match p.lowAt with
    | some t =>
      if p.late then (false, s)
      else (true, reportLate e (p.cmd / 10000) (p.floor / 10000) (onPump e (fun p => { p with late := true }) (reach (t + 1000000) s)))
    | none => (false, s)
  else if e < 12 then
    let f := fanOf s (e - 4)
    match f.lowAt with
    | some t =>
      if f.late then (false, s)
      else (true, reportLate e (f.duty / 1000) (f.floor / 1000) (onFan (e - 4) (fun f => { f with late := true }) (reach (t + 1000000) s)))
    | none => (false, s)
  else (false, s)

/-! ## Trajectory points (R221) -/

/-- DRIVE_LIMITED when a point exceeds the element's rate; reported when it begins. -/
def limited (e : Nat) (was now_ : Bool) (s : State) : State :=
  if now_ && !was then event 0x0909 1 [e] 0 0 s else s

/-- Speeds above the floor are commanded from firmware's first heartbeat on (R79). -/
def allowedUp (s : State) (floor v : Nat) : Nat := if s.drv.beat.isSome then v else min v floor
/-- A pump point: `v` in 0.0001 rpm. Below the floor it holds the present output, or the floor if that is lower; an output
held within a band rests at HI, for LO would lower it (R211, R221). -/
def pumpPoint (n v : Nat) (s : State) : State :=
  let p := pumpOf s n
  let r := pRec s n
  if p.st == .disabled || s.drv.fired then s else
  let t := allowedUp s p.floor (nearEdge (bandsU r) v)
  let t := if t < p.floor && !p.out then highEdge (bandsU r) (min p.cmd p.floor) else t
  let lim := decide (10 * fld r 10 2 < (t - p.cmd) + (p.cmd - t))
  let s := onPump n (fun p => { p with fw := true, limited := lim }) s
  limited n p.limited lim (if p.out then onPump n (fun p => { p with target := t }) s else setTarget n t .running s)

/-- A fan point: `v` in 0.0001 %. -/
def fanPoint (n v : Nat) (s : State) : State :=
  let f := fanOf s n
  if !f.on || s.drv.fired then s else
  let v := allowedUp s f.floor v
  let t := if v < f.floor then min f.duty f.floor else v
  let lim := decide (fld (fRec s n) 4 2 < (t - f.duty) + (f.duty - t))
  limited (4 + n) f.limited lim (onFan n (fun f => { f with fw := true, target := t, limited := lim }) s)

/-- A valve point: `v` in 0.0001 %. Valves have no floor (R216). -/
def valvePoint (n v : Nat) (s : State) : State :=
  let x := valveOf s n
  if !x.on || s.drv.fired then s else
  let lim := decide (fld (vRec s n) 10 2 < (v - x.pos) + (x.pos - v))
  limited (12 + n) x.limited lim (onValve n (fun x => { x with fw := true, dark := false, target := v, limited := lim }) s)

/-- A local point of an axis at its time, `v` in 1/10,000 of the axis unit of the element: rpm, 0.1 % or 0.01 %. -/
def localPoint (e : Nat) (v : Int) (s : State) : State :=
  if e < 4 then pumpPoint e v.toNat s
  else if e < 12 then fanPoint (e - 4) (quot v 10).toNat s
  else valvePoint (e - 12) (quot v 100).toNat s

/-- CMD of an element in 1/10,000 of its axis unit (R228, R311). -/
def elemCmd (s : State) (e : Nat) : Nat :=
  if e < 4 then (pumpOf s e).cmd else if e < 12 then 10 * (fanOf s (e - 4)).duty else 100 * (valveOf s (e - 12)).pos
/-- An element has stopped ramping (R327). -/
def elemStill (s : State) (e : Nat) : Bool :=
  if e < 4 then let p := pumpOf s e; !p.driven || p.cmd == p.target
  else if e < 12 then let f := fanOf s (e - 4); !f.on || f.duty == f.target
  else let v := valveOf s (e - 12); !v.on || v.pos == v.target

/-! ## Fans and valves (R215 to R217) -/

/-- FAN_STALL: at or above STALL_DUTY for 2 s with its tach STOPPED. -/
def doFanStall (n : Nat) (s : State) : State :=
  match (fanOf s n).hotAt with
  | some t =>
    if (fanOf s n).stalled then s
    else event 0x0903 2 [n, 1] 0 0 (onFan n (fun f => { f with stalled := true }) (reach (t + 2000000) s))
  | none => s

/-- FAN_STALL. -/
def execFanStall (f : Fin 8) (s : State) : Host.Outcome State Fault Refusal := .next (doFanStall f s)

/-- The report of a stalled fan clears at the first valid measurement of its tach. -/
def fanSpins (n : Nat) (s : State) : State :=
  let w := (chanOf s (44 + n)).word
  if (fanOf s n).stalled && wordValid w && !w.getLsbD 30 then
    event 0x0903 2 [n, 0] 0 0 (onFan n (fun f => { f with stalled := false, hotAt := none }) s)
  else s

/-- An edge of a pulse channel, with what it ends for a fan. -/
def pulseAndFan (ch : Nat) (falling : Bool) (period phase : Nat) (s : State) : State :=
  let s := doPulseEdge ch falling period phase s
  if ch < 8 then fanSpins ch s else s

/-- PULSE_EDGE. -/
def execPulseEdge (ch : Fin 12) (period : Nat) (edge : Edge) (s : State) : Host.Outcome State Fault Refusal :=
  .next (pulseAndFan ch edge.falling period edge.phase s)

/-- I_cmd of a valve in µA, as a numerator over 1,000,000 (R216); 0 under a blank default (R205). -/
def loopCmd (s : State) (v : Nat) : Nat :=
  let r := vRec s v
  if (valveOf s v).dark then 0 else
  fld r 2 2 * 1000000 + (fld r 4 2 - fld r 2 2) * (valveOf s v).pos
/-- The DAC code of VLP (R216): 12 bits over 0 to 1.5 V; an unused valve drives 0 V. -/
def vlpCode (s : State) (v : Nat) : Nat :=
  let den := fld (vRec s v) 6 2 * 3 * 1000000
  if !(valveOf s v).on || den == 0 then 0 else (2 * 2 * 4095 * loopCmd s v + den) / (2 * den)

/-- A report's condition at a sample: while the report stands, the time since its condition ended, else since it
began. -/
def loopWatch (now : Nat) (bad stands : Bool) (t : Option Nat) : Option Nat := sinceWhile now (bad != stands) t

/-- VALVE_FEEDBACK_SAMPLE: at 1 kS/s, the voltage in µV that the converter gives. -/
def doValveFeedbackSample (v uV : Nat) (s : State) : State :=
  let r := vRec s v
  if !fieldOn s || !(valveOf s v).on then s else
  let i := quot (10 * uV) (fld r 8 2)
  let cmd := loopCmd s v
  let off := (i * 1000000 - cmd).natAbs
  let errBad := decide ((fld r 4 2 - fld r 2 2) * 50000 < off)
  let openBad := decide (i < 500) && decide (2000 * 1000000 ≤ cmd)
  let now := s.now
  onValve v (fun x => { x with
    meas := i, errAt := loopWatch now errBad x.err x.errAt, openAt := loopWatch now openBad x.opn x.openAt }) s

/-- VALVE_FEEDBACK_SAMPLE. -/
def execValveFeedbackSample (v : Fin 8) (uV : Nat) (s : State) : Host.Outcome State Fault Refusal :=
  .next (doValveFeedbackSample v uV s)

/-- VALVE_LOOP_FAULT: LOOP_OPEN or LOOP_ERROR sets after its condition has held for 100 ms, or clears after 100 ms
back in range. -/
def doValveLoopFault (v : Nat) (opn set : Bool) (s : State) : State :=
  let x := valveOf s v
  match (if opn then x.openAt else x.errAt) with
  | none => s
  | some t =>
    if (if opn then x.opn else x.err) == set then s
    else
      let s := reach (t + 100000) s
      let s := onValve v (fun x => if opn then { x with opn := set, openAt := none } else { x with err := set, errAt := none }) s
      event 0x0904 2 [v, opn.toNat, set.toNat] 0 0 s

/-- VALVE_LOOP_FAULT. -/
def execValveLoopFault (v : Fin 8) (open_ : Bool) (set : Bool) (s : State) : Host.Outcome State Fault Refusal :=
  .next (doValveLoopFault v open_ set s)

/-! ## KEEPER_TABLE_SET (R206, R207) -/

/-- The table that a KEEPER_TABLE_SET body names, where it names one. -/
def namedTable (s : State) (b : Bytes) : Option Bytes := if isZero b 0 32 then none else objBytes (digestAt b 0) s
/-- The body rules of KEEPER_TABLE_SET. -/
def badKeeperTable (s : State) (b : Bytes) : Option Nat :=
  firstBad [(!isZero b 0 32 && (match objBytes (digestAt b 0) s with | some o => !tableValid o | none => true), 0),
    (decide (2 ≤ fld b 32 1), 32), (decide (16 ≤ fld b 33 1), 33), rsv b 34 6]
/-- A table changes ENABLE, SENSOR, POLE_PAIRS or DIR of a pump that is not stopped. -/
def pumpsChange (s : State) (new : Bytes) : Bool :=
  (List.range 4).any fun n =>
    let st := (pumpOf s n).st
    st != .disabled && st != .stopped && [0, 1, 2, 3].any fun o => fld (pRec s n) o 1 != fld (pumpRec new n) o 1
/-- Step 8 for KEEPER_TABLE_SET, judged at the board that the body names. -/
def admitKeeperTable (s : State) (b : Bytes) : Option Refuse :=
  match namedTable s b with
  | some t => if namesMe (fld b 32 1) s && pumpsChange s t then some {} else none
  | none => none

/-- A CLEAR bit: the lockout of a pump ends (R213). -/
def clearLockouts (m : Nat) (s : State) : State :=
  (bitsOf 4 m).foldl (fun s n =>
    if (pumpOf s n).st == .lockout then onPump n (fun p => { p with st := .stopped }) s else s) s

/-- A table loaded while the engine runs, and the change of level that it brings (R219, R221). -/
def reloadTable (t : Bytes) (s : State) : State :=
  let old := s.drv.level
  reportLevel old (freshLevel (loadNamed (useTable (some t) s)))
/-- A stored table loaded by the drive engine (R207), and its CLEAR. -/
def loadTable (w : Nat × Option Bytes × Nat) (s : State) : State :=
  let s := match w.2.1 with
    | some t => if fieldOn s then reloadTable t s else s
    | none => s
  finish0 w.1 0 (seekFloors (clearLockouts w.2.2 s))

/-- KEEPER_TABLE_SET's effect: the table goes to the keep tables, and is loaded at the next cycle tick, or at once
before the first one. At a partner, whose pumps the acting Lead does not see, a table that step 8 would have refused is not
taken, and no rule gives its RESULT (log 141). -/
def fxKeeperTable (e : JEntry) (s : State) : State :=
  let t := namedTable s e.body
  if !isZero e.body 0 32 && t.isNone then waitObject e s
  else if attached s && !s.pair.lead && t.any (pumpsChange s) then
    let (n, s) := draw s
    finish0 e.jseq (Config.openResult n) s
  else
    let s := match t with | some b => s.onKt fun k => { k with keeperTable := some b } | none => s
    let w := (e.jseq, t, fld e.body 33 1)
    if s.ep.ticked then s.onDrv fun d => { d with waits := d.waits ++ [w] } else loadTable w s

/-- KEEPER_TABLE_APPLY at a cycle tick. -/
def applyTables (s : State) : State :=
  let ws := s.drv.waits
  ws.foldl (fun s w => loadTable w s) (s.onDrv fun d => { d with waits := [] })

/-! ## Below-floor leases (R222 to R224) -/

/-- The element of a BELOW_FLOOR_LEASE body. -/
def belowElem (b : Bytes) : Nat := if fld b 1 1 == 0 then fld b 2 1 else 4 + fld b 2 1
/-- The body rules of BELOW_FLOOR_LEASE. -/
def badBelow (s : State) (b : Bytes) : Option Nat :=
  let kind := fld b 1 1
  let i := fld b 2 1
  let on := if kind == 0 then decide (i < 4) && fld (pRec s i) 0 1 == 1 else decide (i < 8) && fld (fRec s i) 0 1 == 1
  let ms := fld b 8 4
  firstBad [(decide (2 ≤ fld b 0 1), 0), (decide (2 ≤ kind), 1),
    (decide ((if kind == 0 then 4 else 8) ≤ i) || (namesMe (fld b 0 1) s && !on), 2), rsv b 3 1,
    (decide (1000 < fld b 4 2), 4), rsv b 6 2, (ms != 0 && (decide (ms < 10) || decide (60000 < ms)), 8), rsv b 12 4]
/-- Two bodies name the same element of the same board. -/
def sameElem (a b : Bytes) : Bool := sub a 0 3 == sub b 0 3
/-- Step 8 for BELOW_FLOOR_LEASE: the element's live lease, or one that ended less than 60 s ago. -/
def admitBelow (s : State) (b : Bytes) : Option Refuse :=
  if fld b 8 4 == 0 then none
  else
    let es := s.jr.entries.filter fun e => e.op == 0x0301 && sameElem e.body b && fld e.body 8 4 != 0
    match es.find? (fun e => e.state != .done) with
    | some e => some { ref := e.cw.toNat }
    | none =>
      let mine := if namesMe (fld b 0 1) s then s.drv.lastEnd.find (belowElem b) else none
      match mine with
      | some (t, cw) => if s.now < t + 60000000 then some { ref := cw.toNat } else none
      | none =>
        match (es.filter fun e => decide (keepTime s < e.doneTime + 60 * 32768)).getLast? with
        | some e => some { ref := e.cw.toNat }
        | none => none

/-- BELOW_FLOOR_LEASE's effect at the owning board: the lease begins, or DURATION_MS 0 ends the live one. A
re-execution grants nothing new (R224). -/
def fxBelow (e : JEntry) (s : State) : State :=
  let b := e.body
  let el := belowElem b
  if fld b 8 4 == 0 then finish0 e.jseq 0 (endBelow el 0x0901 s)
  else if s.drv.leases.any (fun l => l.cw == e.cw) then s
  else if e.redo then
    finish0 e.jseq (match s.drv.ends.find? (fun p => p.1 == e.cw) with | some p => p.2 | none => 0x0903) s
  else
    let l : BelowLease :=
      { elem := el, jseq := e.jseq, cw := e.cw, min := fld b 4 2, stop := s.now + 1000 * fld b 8 4 }
    let s := s.onDrv fun d => { d with leases := d.leases ++ [l] }
    let s := seekFloors (setFloors (event 0x0908 2 [el, l.min, 0, 0] e.cw 0 s))
    if el < 4 && (pumpOf s el).out then endBelow el 0x0904 s else s

/-- BELOW_FLOOR_END: the lease's END; OK. -/
def doBelowFloorEnd (fan : Bool) (index : Nat) (s : State) : State :=
  let e := if fan then 4 + index else index
  match belowOf s e with
  | some l => endBelow e 0 (reach l.stop s)
  | none => s

/-- BELOW_FLOOR_END. -/
def execBelowFloorEnd (fan : Bool) (index : Fin 8) (s : State) : Host.Outcome State Fault Refusal :=
  .next (doBelowFloorEnd fan index s)

/-! ## The Binder-silence watchdog (R225, R226) -/

/-- The elements stay where they are until their next points (R226), a pump within a band at an edge of it. -/
def stayPut (s : State) : State :=
  let s := (List.range 4).foldl (fun s n =>
    let bs := bandsU (pRec s n)
    onPump n (fun p =>
      { p with fw := true, st := if p.st == .watchdog then .running else p.st,
               target := if !p.driven then p.target
                 else if p.cmd < p.floor then highEdge bs p.cmd else nearEdge bs p.cmd }) s) s
  let s := (List.range 8).foldl (fun s n => onFan n (fun f => { f with fw := true, target := f.duty }) s) s
  s.onDrv fun d => { d with fired := false }
/-- BINDER_HEARTBEAT: the first arms the watchdog; after it has fired, its action ends with a heartbeat by which firmware has
acknowledged BINDER_SILENT. When it has is a free value (log 160). -/
def doBinderHeartbeat (s : State) : State :=
  if !running s || !fieldOn s then s else
  let now := s.now
  let s := s.onDrv fun d => { d with beat := some now }
  if !s.drv.fired then s else
  let (n, s) := draw s
  if Config.acks n then stayPut s else s

/-- The drive engine acts on 500 ms of silence (R225). -/
def silenceActs (start : Nat) (s : State) : State :=
  let s := s.drv.leases.foldl (fun s l => endBelow l.elem 0x0902 s) s
  let s := s.onDrv fun d => { d with fired := true }
  let s := (List.range 8).foldl (fun s n =>
    if (fanOf s n).on then onFan n (fun f => { f with duty := 1000000, target := 1000000, fw := false }) s else s) s
  let s := (List.range 4).foldl (fun s n =>
    let p := pumpOf s n
    let t := tableMax s n
    if p.st == .running then onPump n (fun p => { p with st := .watchdog, target := t, fw := false }) s
    else if p.st == .stopped then setTarget n t .watchdog (onPump n (fun p => { p with fw := false }) s)
    else if p.st == .disabled then s
    else onPump n (fun p => { p with target := t, fw := false }) s) s
  event 0x0905 3 [toKeep start] 0 0 s

/-- BINDER_SILENT: 500 ms without a heartbeat; queued trajectory points are discarded by the planner's row. -/
def doBinderSilent (s : State) : State :=
  match s.drv.beat with
  | some t => if s.drv.fired then s else silenceActs t (reach (t + 500000) s)
  | none => s

/-! ## The snapshot (R228) -/

/-- A drive entry. -/
def driveEntry (kind index st flags cmd meas floor : Nat) : Bytes :=
  leBytes 1 kind ++ leBytes 1 index ++ leBytes 1 st ++ leBytes 1 flags ++ leBytes 4 cmd ++ leBytes 4 meas ++ leBytes 4 floor
/-- Pump state codes, in the order of Table 09-9. -/
def pumpCode : PumpSt → Nat
  | .disabled => 0
  | .stopped => 1
  | .running => 2
  | .retry => 3
  | .lockout => 4
  | .watchdog => 5
/-- A pump's entry. -/
def pumpEntry (s : State) (n : Nat) : Bytes :=
  let p := pumpOf s n
  driveEntry 0 n (pumpCode p.st)
    ((decide (p.cmd ≤ p.floor)).toNat + 2 * (belowOf s n).isSome.toNat + 4 * p.limited.toNat)
    (quot p.cmd 10000).toNat (ofSigned 32 p.speed) (quot p.floor 10000).toNat
/-- A fan's speed in rpm (R215): FREQ × 60 / PPR. -/
def fanRpm (s : State) (n : Nat) : Nat :=
  let w := (chanOf s (44 + n)).word
  if fld (fRec s n) 1 1 == 0 then 0 else (quot (w.toNat % 2 ^ 24 * 60) (50 * fld (fRec s n) 1 1)).toNat
/-- A fan's entry. -/
def fanEntry (s : State) (n : Nat) : Bytes :=
  let f := fanOf s n
  driveEntry 1 n (if !f.on then 0 else if s.drv.fired then 5 else 2)
    ((f.on && decide (f.duty ≤ f.floor)).toNat + 2 * (belowOf s (4 + n)).isSome.toNat + 4 * f.limited.toNat + 8 * f.stalled.toNat)
    (quot f.duty 1000).toNat (fanRpm s n) (f.floor / 1000)
/-- A valve's entry. -/
def valveEntry (s : State) (n : Nat) : Bytes :=
  let v := valveOf s n
  driveEntry 2 n (if !v.on then 0 else if s.drv.fired then 5 else 2) (4 * v.limited.toNat + 8 * (v.err || v.opn).toNat)
    (quot (loopCmd s n) 1000000).toNat (ofSigned 32 v.meas) 0
/-- The 20 drive entries of the model snapshot. -/
def driveSnap (s : State) : Bytes :=
  (((List.range 4).map (pumpEntry s)).flatten ++ ((List.range 8).map (fanEntry s)).flatten) ++
    ((List.range 8).map (valveEntry s)).flatten

end Sys2Proof.Machine
end

