-- ==== Sys2Proof/Machine/Can.lean ====
section
/-! DEFINITION. Machine/Can.lean: the CAN channels, the field profile's frames and the configuration of channels and
actuators (chapter 10). -/

namespace Sys2Proof.Machine

/-! ## Configuration (Tables 10-2, 10-3 and 10-5) -/

/-- A channel changed. -/
def onCh (c : Nat) (f : CanCh → CanCh) (s : State) : State := s.onCan fun x => { x with ch := x.ch.mod {} c f }
/-- A channel's CAN_CONFIG body and memory table. -/
def cfgOf (s : State) (c : Nat) : Bytes × Bytes := s.kt.canCfg.get ([], []) c
/-- A FLAGS bit of a CAN_CONFIG body. -/
def canFlag (b : Bytes) (i : Nat) : Bool := (fld b 1 1).testBit i
/-- A profile channel (R244). -/
def isProfile (s : State) (c : Nat) : Bool := canFlag (cfgOf s c).1 3
/-- Channels 0 and 1 form the redundant pair (R244). -/
def isPair (s : State) : Bool := isProfile s 0 && isProfile s 1

/-- Bits `lo` to `lo + n - 1` of a value. -/
def bitField (v lo n : Nat) : Nat := v / 2 ^ lo % 2 ^ n
/-- The length of a nominal bit in CCLK periods (R231). -/
def arbBit (v : Nat) : Nat := bitField v 0 6 * (1 + bitField v 6 9 + bitField v 15 8)
/-- The length of a data bit in CCLK periods. -/
def datBit (v : Nat) : Nat := bitField v 0 6 * (1 + bitField v 6 6 + bitField v 12 5)

/-- CAN_ARBT satisfies R231. -/
def arbtOk (v : Nat) : Bool :=
  inRange 1 (bitField v 0 6) 32 && inRange 2 (bitField v 6 9) 256 && inRange 2 (bitField v 15 8) 128 &&
  inRange 1 (bitField v 23 8) 128 && v / 2 ^ 31 == 0 && decide (80 ≤ arbBit v) &&
  inRange 8 (1 + bitField v 6 9 + bitField v 15 8) 385 && decide (bitField v 23 8 ≤ bitField v 15 8)
/-- CAN_DATT satisfies R231. -/
def dattOk (v arb : Nat) (brs : Bool) : Bool :=
  inRange 1 (bitField v 0 6) 32 && inRange 1 (bitField v 6 6) 32 && inRange 1 (bitField v 12 5) 16 &&
  inRange 1 (bitField v 17 5) 16 && v / 2 ^ 22 == 0 && decide (10 ≤ datBit v) &&
  inRange 5 (1 + bitField v 6 6 + bitField v 12 5) 49 && decide (bitField v 17 5 ≤ bitField v 12 5) &&
  (!brs || decide (datBit v ≤ arbBit arb))
/-- CAN_LOOPC satisfies R231. -/
def loopcOk (v dat : Nat) (brs : Bool) : Bool :=
  v / 2 ^ 16 == 0 && !v.testBit 15 && decide (bitField v 8 7 ≤ bitField v 1 7) &&
  v.testBit 0 == (brs && (bitField dat 0 6 == 1 || bitField dat 0 6 == 2) && decide (datBit dat < 80)) &&
  (brs || v == 0)

/-- An entry of a memory table. -/
def memEntry (t : Bytes) (i : Nat) : Bytes := sub t (16 + 80 * i) 80
/-- ENTRIES. -/
def memCount (t : Bytes) : Nat := fld t 0 2
/-- DIR of an entry: transmit. -/
def entTx (e : Bytes) : Bool := fld e 1 1 == 1
/-- An entry satisfies Table 10-3 and R233 under a CAN_CONFIG body. -/
def memEntryOk (b e : Bytes) : Bool :=
  let i := fld e 0 1
  let tx := entTx e
  let fmt := fld e 3 1
  let id := fld e 4 4
  let n := fld e 14 1
  decide (fld e 1 1 ≤ 1) && decide (fmt < 8) && decide (id < 2 ^ 29) && decide (fld e 8 4 < 2 ^ 29) && zeroField e 15 1 &&
  (fmt.testBit 0 || id % 2 ^ 18 == 0) && (!fmt.testBit 1 || canFlag b 1) && (!fmt.testBit 2 || (fmt.testBit 1 && canFlag b 2)) &&
  (if canFlag b 4 then
     (if tx then decide (i ≤ 2) && fld e 2 1 == 0 else inRange 16 i 23 && decide (fld e 2 1 ≤ 1))
   else decide ((if canFlag b 3 then 64 else 0) ≤ i) && decide (i ≤ 127) && fld e 2 1 == 0) &&
  (if tx then
     fld e 8 4 == 0 && inRange 10 (fld e 12 2) 60000 &&
     (decide (n ≤ 8) || (fmt.testBit 1 && [12, 16, 20, 24, 32, 48, 64].contains n)) && zeroField e (16 + n) (64 - n)
   else fmt / 2 == 0 && fld e 12 2 == 0 && n == 0 && zeroField e 16 64)
/-- A memory table satisfies Table 10-3 and R233. -/
def memTableOk (b t : Bytes) : Bool :=
  let n := memCount t
  let es := (List.range n).map (memEntry t)
  decide (n ≤ 128) && t.length == 16 + 80 * n && zeroField t 2 14 && es.all (memEntryOk b) &&
  (List.range n).all (fun i => !((es.take i).map fun e => fld e 0 1).contains (fld (es.getD i []) 0 1)) &&
  decide ((es.filter fun e => !entTx e).length ≤ 64)

/-- The memory table that a body names: empty for none, `none` when it is not staged. -/
def namedMem (s : State) (b : Bytes) : Option Bytes := if isZero b 24 32 then some (zeros 16) else objBytes (digestAt b 24) s

/-- The body rules of CAN_CONFIG (Table 10-5, R243). -/
def badCanConfig (s : State) (b : Bytes) : Option Nat :=
  let fd := canFlag b 1
  let brs := canFlag b 2
  let tm := canFlag b 5
  let arb := fld b 4 4
  let dat := fld b 8 4
  firstBad [(decide (4 ≤ fld b 0 1), 0),
    ((brs && !fd) || (canFlag b 3 && (!fd || canFlag b 4 || canFlag b 7 || canFlag b 6)) || (canFlag b 7 && tm), 1),
    rsv b 2 2, (!arbtOk arb, 4), (if fd then !dattOk dat arb brs else dat != 0, 8), (!loopcOk (fld b 12 4) dat brs, 12),
    (decide (2048 ≤ fld b 16 2) || (!tm && fld b 16 2 != 0), 16),
    (if tm then !inRange 1 (fld b 18 2) 1000 else fld b 18 2 != 0, 18),
    (fld b 20 2 != 0 && !inRange 10 (fld b 20 2) 1000, 20), rsv b 22 2,
    ((match namedMem s b with | some t => !memTableOk b t | none => true), 24), rsv b 56 8]

/-! ## Actuators -/

/-- An actuator's ACTUATOR_CONFIG body. -/
def actCfg (s : State) (a : Nat) : Bytes := s.kt.actCfg.get [] a
/-- ENABLE of an ACTUATOR_CONFIG body. -/
def actOn (b : Bytes) : Bool := fld b 3 1 == 1
/-- The channels of a BUS value (R250). -/
def busChans (bus : Nat) : List Nat := match bus with | 0 => [0, 1] | 1 => [1] | 2 => [2] | 3 => [3] | _ => [0]
/-- An actuator seen by this board. -/
def actOf (s : State) (a : Nat) : Act := s.can.act.get {} a
/-- An actuator's entry changed. -/
def onAct (a : Nat) (f : Act → Act) (s : State) : State := s.onCan fun x => { x with act := x.act.mod {} a f }
/-- The enabled actuators of a channel, under a table of configurations. -/
def chanActs (cfg : Tab Bytes) (c : Nat) : List Nat :=
  (cfg.filter fun p => actOn p.2 && (busChans (fld p.2 1 1)).contains c).map (·.1)
/-- The configurations as the entries already journaled will make them (R98 step 8). -/
def targetActs (s : State) : Tab Bytes :=
  (s.jr.entries.filter fun e => e.state != .done && !e.applied && e.op == 0x0303).foldl
    (fun t e => t.set (fld e.body 0 1) e.body) s.kt.actCfg

/-- Step 8 for CAN_CONFIG (R243). -/
def admitCanConfig (s : State) (b : Bytes) : Option Refuse :=
  let c := fld b 0 1
  let keeps := canFlag b 0 && (canFlag b 3 || !isProfile s c) && !canFlag b 6
  if !keeps && !(chanActs (targetActs s) c).isEmpty then some {} else none

/-- The body rules of ACTUATOR_CONFIG (R250). -/
def badActuatorConfig (s : State) (b : Bytes) : Option Nat :=
  let bus := fld b 1 1
  firstBad [(decide (62 < fld b 0 1), 0),
    (decide (4 < bus) || !((busChans bus).all (isProfile s)) || ((bus == 1 || bus == 4) && isPair s), 1),
    (decide (3 < fld b 2 1), 2), (decide (1 < fld b 3 1), 3), (!inRange 100 (fld b 4 2) 10000, 4),
    (!inRange 10 (fld b 6 2) 100, 6), rsv b 12 4]

/-! ## Frames -/

/-- The identifier of a profile frame (Table 10-6). -/
def profileId (ty pos : Nat) (brd act : Bool) (addr : Nat) : BitVec 29 :=
  BitVec.ofNat 29 (ty * 2 ^ 24 + pos * 2 ^ 20 + brd.toNat * 2 ^ 19 + act.toNat * 2 ^ 18 + addr * 2 ^ 12)
/-- The profile's frames among those received on a profile channel (Table 10-7). -/
def isProfileFrame (f : CanFrame) : Bool :=
  f.ide && f.fdf && [0x01, 0x02, 0x03, 0x10].contains (f.id.toNat / 2 ^ 24) && f.id.toNat % 2 ^ 12 == 0
/-- A profile frame of this board. -/
def profileFrame (s : State) (c ty addr : Nat) (data : Bytes) : CanFrame :=
  { id := profileId ty s.pwr.straps.pos.toNat (brd s) false addr, ide := true, fdf := true,
    brs := canFlag (cfgOf s c).1 2, data := data }

/-- This board sends profile and user frames: acting Lead, not stood down (R247). -/
def sendsField (s : State) : Bool := acting s && s.pair.board != .stoodDown
/-- The channel takes frames for transmission: it is configured to join the bus. -/
def CanCh.joins (x : CanCh) : Bool :=
  match x.st with
  | .active | .passive | .down | .listen => true
  | _ => false

/-- A frame placed in a slot, replacing one that still waits there (R245, R247). -/
def offer (c key : Nat) (f : CanFrame) (s : State) : State :=
  if !(canOf s c).joins then s
  else onCh c (fun x => { x with tx := x.tx.filter (fun t => t.key != key) ++ [{ key := key, frame := f }] }) s

/-- EPOCH_ANNOUNCE offered on one profile channel. -/
def announceOn (c : Nat) (s : State) : State :=
  if sendsField s && isProfile s c then
    offer c 200 (profileFrame s c 1 63 (leBytes 4 s.kt.actEpoch ++ leBytes 8 s.otp.serial.toNat ++ leBytes 1 1 ++ zeros 3)) s
  else s
/-- EPOCH_ANNOUNCE on every profile channel. -/
def announce (s : State) : State := (List.range 4).foldl (fun s c => announceOn c s) s

/-- EPOCH_ANNOUNCE_SEND (R247): every 1 s. -/
def doEpochAnnounceSend (s : State) : State :=
  if !sendsField s then s else
  let s := reach (s.can.annAt + 1000000) s
  let now := s.now
  announce (s.onCan fun x => { x with annAt := now })

/-- EPOCH_ANNOUNCE_SEND. -/
def execEpochAnnounceSend (s : State) : Host.Outcome State Fault Refusal := .next (doEpochAnnounceSend s)

/-- EPOCH_BURST (R130): an announcement every 1 ms, 20 of them, after the first. -/
def doEpochBurst (s : State) : State :=
  if s.pair.burst == 0 then s else
  let s := reach s.pair.burstAt s
  let now := s.now
  announce (s.onPair fun p => { p with burst := p.burst - 1, burstAt := now + 1000 })

/-- EPOCH_BURST. -/
def execEpochBurst (s : State) : Host.Outcome State Fault Refusal := .next (doEpochBurst s)

/-- The actuator epoch raised and recorded (R130, R248): PSEQ starts again, and a burst of announcements begins. -/
def raiseEpoch (e : Nat) (s : State) : State :=
  let now := s.now
  let s := s.onKt fun k => { k with actEpoch := e % 2 ^ 32 }
  let s := s.onCan fun x => { x with act := x.act.map fun p => (p.1, { p.2 with pseq := 0 }) }
  s.onPair fun p => { p with burst := 21, burstAt := now }

/-- CONFIG offered to an actuator on its channels. -/
def sendConfig (a : Nat) (s : State) : State :=
  let b := actCfg s a
  if !sendsField s then s
  else (busChans (fld b 1 1)).foldl (fun s c => if !isProfile s c then s else
    offer c (300 + a) (profileFrame s c 2 a (leBytes 4 s.kt.actEpoch ++ sub b 2 1 ++ zeros 1 ++ sub b 4 2 ++ sub b 6 2 ++
      zeros 2 ++ sub b 8 4)) s) s

/-- A COMMAND in an actuator's slot (R247): one more PSEQ, its point recorded as the last dispatched. A board that
sends no profile frame records the point alone. -/
def sendCommand (a : Nat) (cw : DWord) (point flags : Nat) (v : Int) (s : State) : State :=
  let b := actCfg s a
  if !actOn b then s else
  let s := s.onKt fun k => { k with lastPt := k.lastPt.set a (cw, point, flags, v) }
  if !sendsField s then s
  else
    let s := onAct a (fun x => { x with pseq := x.pseq + 1 }) s
    let d := leBytes 4 s.kt.actEpoch ++ leBytes 4 (actOf s a).pseq ++ leBytes 8 cw.toNat ++ leBytes 4 point ++ sub b 2 1 ++
      leBytes 1 flags ++ zeros 2 ++ leBytes 4 (ofSigned 32 v) ++ zeros 4
    (busChans (fld b 1 1)).foldl (fun s c => if isProfile s c then offer c a (profileFrame s c 3 a d) s else s) s

/-- The last dispatched points sent again after a replay (R249). -/
def resendPoints (s : State) : State :=
  s.kt.lastPt.foldl (fun s p => sendCommand p.1 p.2.1 p.2.2.1 p.2.2.2.1 p.2.2.2.2 s) s

/-! ## Channels joining the bus -/

/-- The state a configured channel takes when it joins. -/
def joinState (b : Bytes) : ChSt :=
  if !canFlag b 0 then .disabled else if canFlag b 6 then .sleep else if canFlag b 7 then .monitor else .active

/-- The channels after firmware has started (R248, R251): an acting Lead's profile channels in LISTEN. -/
def startChannels (s : State) : State :=
  let now := s.now
  (List.range 4).foldl (fun s c =>
    let b := (cfgOf s c).1
    let st := if s.can.held then .reset else joinState b
    let lis := st == .active && acting s && isProfile s c
    onCh c (fun x => { x with st := if lis then .listen else st, lisAt := now, heard := [] }) s) s

/-- Only TIME_MASTER, REF_ID, CYCLE_MS, RECOVER_MS and payloads differ (R245): the channel stays on the bus. -/
def lightChange (old new : Bytes × Bytes) : Bool :=
  let keep := fun b : Bytes => (fld b 1 1 &&& 0xDF, sub b 4 12)
  let shape := fun t : Bytes => (List.range (memCount t)).map fun i => sub (memEntry t i) 0 16
  keep old.1 == keep new.1 && !old.1.isEmpty && shape old.2 == shape new.2

/-- The frame of a transmit entry. -/
def entFrame (e : Bytes) : CanFrame :=
  let fmt := fld e 3 1
  { id := BitVec.ofNat 29 (fld e 4 4), ide := fmt.testBit 0, fdf := fmt.testBit 1, brs := fmt.testBit 2,
    data := sub e 16 (fld e 14 1) }

/-- A new payload replaces a waiting frame of the same entry (R245); a reference message of a channel that is no time master
any more does not wait. -/
def freshPayloads (b t : Bytes) (x : CanCh) : CanCh :=
  { x with tx := (x.tx.filter fun f => f.key != 201 || canFlag b 5).map fun f =>
      match ((List.range (memCount t)).map (memEntry t)).find? (fun e => entTx e && fld e 0 1 == f.key) with
      | some e => { f with frame := entFrame e }
      | none => f }
/-- The frames that wait through a change of configuration (R239, R245): a profile channel's slots. -/
def keptFrames (old new : Bytes) (tx : List TxFrame) : List TxFrame :=
  if canFlag new 0 && canFlag old 3 && canFlag new 3 then
    tx.filter (fun f => f.key < 64 || f.key == 200 || decide (300 ≤ f.key))
  else []

/-- Whether channels 0 and 1 are both DOWN, and since when (R240). -/
def watchPair (s : State) : State :=
  let now := s.now
  let d := (canOf s 0).down && (canOf s 1).down
  s.onCan fun x => { x with pairAt := if d then some (x.pairAt.getD now) else none }

/-- CAN_CONFIG's effect (R245): the channel leaves the bus and rejoins under the new words, or stays on it; DONE
when it has rejoined. A profile channel that the replay at a start configures listens (R251, R248). -/
def fxCanConfig (e : JEntry) (s : State) : State :=
  let b := e.body
  match namedMem s b with
  | none => waitObject e s
  | some t =>
    let c := fld b 0 1
    let light := lightChange (cfgOf s c) (b, t)
    let old := (cfgOf s c).1
    let s := s.onKt fun k => { k with canCfg := k.canCfg.set c (b, t) }
    let now := s.now
    let was := (canOf s c).st
    let st := if s.can.held then .reset else joinState b
    let lis := st == .active && canFlag b 3 && acting s && (was == .listen || (e.redo && s.pair.board != .taking))
    let s := if light then onCh c (freshPayloads b t) s
      else onCh c (fun x =>
        { loop := x.loop, cycle := x.cycle, heard := x.heard, lisAt := if was == .listen then x.lisAt else now,
          st := if lis then .listen else st,
          tx := keptFrames old b x.tx }) s
    finish0 e.jseq 0 (watchPair s)

/-- A COMMAND that waits on a channel to which its actuator is not assigned, or where it is disabled, is not sent (R250). -/
def dropCommands (a : Nat) (b : Bytes) (s : State) : State :=
  let on := if actOn b then busChans (fld b 1 1) else []
  (List.range 4).foldl (fun s c =>
    if on.contains c || !isProfile s c then s else onCh c (fun x => { x with tx := x.tx.filter (fun f => f.key != a) }) s) s
/-- ACTUATOR_CONFIG's effect: the configuration is stored and CONFIG sent; DONE waits for the actuator's STATUS. -/
def fxActuatorConfig (e : JEntry) (s : State) : State :=
  let a := fld e.body 0 1
  let s := dropCommands a e.body (s.onKt fun k => { k with actCfg := k.actCfg.set a e.body })
  let now := s.now
  let old := (actOf s a).wait
  let s := onAct a (fun x => { x with wait := some (e.jseq, now + 1000000), at_ := now }) s
  let s := match old with | some w => if w.1 == e.jseq then s else finish0 w.1 0x0A01 s | none => s
  sendConfig a s

/-- ACTUATOR_CONFIG_TIMEOUT (R250): 1 s without such a STATUS. -/
def doActuatorConfigTimeout (a : Nat) (s : State) : State :=
  match (actOf s a).wait with
  | some (j, t) => finish0 j 0x0A01 (onAct a (fun x => { x with wait := none }) (reach t s))
  | none => s

/-- ACTUATOR_CONFIG_TIMEOUT. -/
def execActuatorConfigTimeout (addr : Nat) (s : State) : Host.Outcome State Fault Refusal :=
  .next (doActuatorConfigTimeout addr s)

/-- ACTUATOR_SILENT (R249): no STATUS from an enabled actuator for 3 × STATUS_MS. -/
def doActuatorSilent (a : Nat) (s : State) : State :=
  let b := actCfg s a
  if !running s || !actOn b || (actOf s a).silent then s
  else event 0x0A04 2 [a, 1] 0 0
    (onAct a (fun x => { x with silent := true }) (reach ((actOf s a).at_ + 3000 * fld b 6 2) s))

/-- ACTUATOR_SILENT. -/
def execActuatorSilent (addr : Nat) (s : State) : Host.Outcome State Fault Refusal := .next (doActuatorSilent addr s)

/-! ## Transmission -/

/-- The timestamp counter `ago` µs ago (R236), under the load of the tick before that time. -/
def canStamp (ago : Nat) (s : State) : Nat :=
  let t := s.now - ago
  (if s.can.baseAt ≤ t then s.can.base + (t - s.can.baseAt) else s.can.prev + (t - s.can.prevAt)) % 2 ^ 32

/-- The order of arbitration (ISO 11898-1): the base identifier, then a base frame before an extended one, then the
extension; ties go to the lower object or buffer. -/
def arbKey (f : TxFrame) : Nat :=
  let id := f.frame.id.toNat
  ((id / 2 ^ 18 * 2 + f.frame.ide.toNat) * 2 ^ 18 + id % 2 ^ 18) * 1024 + f.key
/-- The frame that a channel offers first. -/
def firstTx : List TxFrame → Option TxFrame
  | [] => none
  | f :: fs => match firstTx fs with
    | none => some f
    | some g => if arbKey f ≤ arbKey g then some f else some g

/-- ACTIVE or PASSIVE, by the error state (Table 10-4). -/
def CanCh.onBus (x : CanCh) : ChSt := if x.passive then .passive else .active
/-- The first frame after recovery (Table 10-4). -/
def CanCh.alive (x : CanCh) : CanCh := { x with down := false, st := if x.st == .down then x.onBus else x.st }

/-- The loop delay measured in a frame with bit rate switching (R232), and TDC_LIMIT. -/
def measureLoop (c meas : Nat) (s : State) : State :=
  let w := fld (cfgOf s c).1 12 4
  if !w.testBit 0 || meas < bitField w 8 7 then s
  else
    let m := min meas 127
    let s := onCh c (fun x => { x with loop := m }) s
    if m + bitField w 1 7 ≤ 127 then s
    else
      let s := onCh c (fun x => { x with tdc := x.tdc + 1 }) s
      count (0x307 + 8 * c) (event 0x0A07 2 [c, (canOf s c).tdc] 0 0 s)

/-- User entries and reference messages may be sent: acting Lead, not in LONE_CHECK (R235, R237). -/
def sendsUser (s : State) : Bool := sendsField s && s.pair.state != .lone
/-- A waiting frame may be sent now: one of the profile, or a user entry or reference message where those may be. -/
def mayTx (s : State) (c : Nat) (f : TxFrame) : Bool :=
  sendsUser s || f.key == 200 || decide (300 ≤ f.key) || (isProfile s c && decide (f.key < 64))

/-- CAN_FRAME_TX_DONE: the frame that arbitration gives is sent; `loopMeas` is the loop delay of its FDF edge, and `ago` the
time since its start of frame, at which it is stamped (R236). -/
def doCanFrameTxDone (c meas ago : Nat) (s : State) : State :=
  let x := canOf s c
  let sends := (x.st == .active || x.st == .passive || x.st == .down) && !x.busOff
  match firstTx (x.tx.filter (mayTx s c)) with
  | some f =>
    if !sends || !fieldOn s then s
    else
      let t := canStamp ago s
      let s := onCh c (fun x => { (x.alive) with
        tx := x.tx.filter (fun t => t.key != f.key), txStamp := t, refMark := if f.key == 201 then t else x.refMark }) s
      let s := watchPair (count (0x300 + 8 * c) (emit (.can c f.frame) s))
      if f.frame.fdf && f.frame.brs then measureLoop c meas s else s
  | none => s

/-- CAN_FRAME_TX_DONE. -/
def execCanFrameTxDone (ch : Fin 4) (loopMeas : Stamped Nat) (s : State) : Host.Outcome State Fault Refusal :=
  .next (doCanFrameTxDone ch loopMeas.x loopMeas.ago s)

/-- CAN_PERIODIC_TX (R235): entry `i` of the memory table, every PERIOD_MS; one still waiting is not duplicated. -/
def doCanPeriodicTx (c i : Nat) (s : State) : State :=
  match (canOf s c).due.find i with
  | none => s
  | some t =>
    let e := memEntry (cfgOf s c).2 i
    if !sendsUser s then onCh c (fun x => { x with due := x.due.erase i }) s
    else
      let s := reach t s
      let s := onCh c (fun x => { x with due := x.due.set i (t + 1000 * fld e 12 2) }) s
      if (canOf s c).tx.any (fun f => f.key == fld e 0 1) then s else offer c (fld e 0 1) (entFrame e) s

/-- CAN_PERIODIC_TX. -/
def execCanPeriodicTx (ch : Fin 4) (idx : Nat) (s : State) : Host.Outcome State Fault Refusal :=
  .next (doCanPeriodicTx ch idx s)

/-- At a cycle tick: the first sending of each transmit entry (R235), and the counter's load (R236). `t` is the
tick's time in µs. -/
def canTick (t : Nat) (s : State) : State :=
  let now := s.now
  let s := s.onCan fun x => { x with base := t, baseAt := now, prev := x.base, prevAt := x.baseAt }
  if !sendsUser s then s
  else (List.range 4).foldl (fun s c =>
    let tb := (cfgOf s c).2
    if !(canOf s c).joins then s
    else (List.range (memCount tb)).foldl (fun s i =>
      let e := memEntry tb i
      if entTx e && ((canOf s c).due.find i).isNone then
        offer c (fld e 0 1) (entFrame e) (onCh c (fun x => { x with due := x.due.set i (now + 1000 * fld e 12 2) }) s)
      else s) s) s

/-! ## Reception -/

/-- The channel receives. -/
def CanCh.hears (x : CanCh) : Bool :=
  match x.st with
  | .active | .passive | .listen | .monitor => true
  | .down => !x.busOff
  | _ => false

/-- A receive entry takes a frame (R234). -/
def entTakes (f : CanFrame) (e : Bytes) : Bool :=
  !entTx e && (fld e 3 1).testBit 0 == f.ide && f.id.toNat &&& fld e 8 4 == fld e 4 4 &&& fld e 8 4
/-- The receive entry of the lowest number that takes a frame. -/
def lowestTaker (f : CanFrame) : List Bytes → Option Bytes
  | [] => none
  | e :: es => match lowestTaker f es with
    | none => if entTakes f e then some e else none
    | some g => if entTakes f e && decide (fld e 0 1 < fld g 0 1) then some e else some g

/-- Lost frames reported with their counts. -/
def rxLoss (c : Nat) (s : State) : State :=
  count (0x306 + 8 * c) (event 0x0A03 2 [c, (canOf s c).over_, (canOf s c).ovf] 0 0 s)

/-- A user frame stored in its object or FIFO. -/
def takeFrame (c ago : Nat) (e : Bytes) (f : CanFrame) (s : State) : State :=
  let r : RxFrame := { stamp := canStamp ago s, obj := fld e 0 1, fifo := fld e 2 1, frame := f }
  if canFlag (cfgOf s c).1 4 then
    if ((canOf s c).rx.filter fun x => x.fifo == r.fifo).length < 32 then onCh c (fun x => { x with rx := x.rx ++ [r] }) s
    else rxLoss c (onCh c (fun x => { x with ovf := x.ovf + 1 }) s)
  else if (canOf s c).rx.any (fun x => x.obj == r.obj) then
    rxLoss c (onCh c (fun x => { x with rx := x.rx.filter (fun y => y.obj != r.obj) ++ [r], over_ := x.over_ + 1 }) s)
  else onCh c (fun x => { x with rx := x.rx ++ [r] }) s

/-- CAN_FRAME_RX: a correct frame of another node, whose start of frame was `ago` µs ago. Remote frames match no entry;
profile frames are not matched. -/
def doCanFrameRx (c ago : Nat) (f : CanFrame) (s : State) : State :=
  if !fieldOn s || !(canOf s c).hears then s else
  let s := watchPair (count (0x301 + 8 * c) (onCh c CanCh.alive s))
  if f.rtr || (isProfile s c && isProfileFrame f) then s
  else
    let t := (cfgOf s c).2
    match lowestTaker f ((List.range (memCount t)).map (memEntry t)) with
    | some e => takeFrame c ago e f s
    | none => s

/-- CAN_FRAME_RX. -/
def execCanFrameRx (ch : Fin 4) (frame : Stamped CanFrame) (s : State) : Host.Outcome State Fault Refusal :=
  .next (doCanFrameRx ch frame.ago frame.x s)

/-! ## Time master (R237) -/

/-- The reference message of a basic cycle. -/
def refFrame (s : State) (c start : Nat) : CanFrame :=
  { id := BitVec.ofNat 29 (fld (cfgOf s c).1 16 2 * 2 ^ 18),
    data := leBytes 1 (canOf s c).cycle ++ zeros 3 ++ leBytes 4 start }

/-- The next start of a basic cycle in µs of the counter's time base: the first multiple of the period `p` after the latest
start, and after the present time less one period. -/
def nextBasic (p cur last : Nat) : Nat := (max (if last ≤ cur then last else 0) (cur - p) / p + 1) * p
/-- BASIC_CYCLE_START: at the next multiple of CYCLE_MS of the counter's time base. -/
def doBasicCycleStart (c : Nat) (s : State) : State :=
  let b := (cfgOf s c).1
  if !running s || !canFlag b 5 || !(canOf s c).joins then s else
  let p := 1000 * fld b 18 2
  let start := nextBasic p (s.can.base + (s.now - s.can.baseAt)) (canOf s c).cycAt
  let s := reach (s.can.baseAt + (start - s.can.base)) s
  let s := onCh c (fun x => { x with cycle := (x.cycle + 1) % 64, cycAt := start }) s
  if sendsUser s && (canOf s c).yieldAt.isNone then offer c 201 (refFrame s c start) s else s

/-- BASIC_CYCLE_START. -/
def execBasicCycleStart (ch : Fin 4) (s : State) : Host.Outcome State Fault Refusal := .next (doBasicCycleStart ch s)

/-- REFERENCE_MESSAGE_RX: a lower identifier makes the channel yield; a Shadow tracks the cycle count. -/
def doReferenceMessageRx (c : Nat) (id : BitVec 29) (n : Nat) (s : State) : State :=
  let b := (cfgOf s c).1
  if !running s || !canFlag b 5 || !(canOf s c).hears then s else
  let s := watchPair (count (0x301 + 8 * c) (onCh c CanCh.alive s))
  let s := if acting s then s else onCh c (fun x => { x with cycle := n % 64 }) s
  if id.toNat / 2 ^ 18 < fld b 16 2 then
    let was := (canOf s c).yieldAt.isSome
    let now := s.now
    let s := onCh c (fun x => { x with yieldAt := some now, tx := x.tx.filter (fun f => f.key != 201) }) s
    if was then s else event 0x0A06 1 [c, id.toNat / 2 ^ 18] 0 0 s
  else s

/-- REFERENCE_MESSAGE_RX. -/
def execReferenceMessageRx (ch : Fin 4) (id : BitVec 29) (cnt : Nat) (s : State) : Host.Outcome State Fault Refusal :=
  .next (doReferenceMessageRx ch id cnt s)

/-- TIME_MASTER_RESUME: three basic cycles without such a message. -/
def doTimeMasterResume (c : Nat) (s : State) : State :=
  match (canOf s c).yieldAt with
  | some t => onCh c (fun x => { x with yieldAt := none }) (reach (t + 3000 * fld (cfgOf s c).1 18 2) s)
  | none => s

/-- TIME_MASTER_RESUME. -/
def execTimeMasterResume (ch : Fin 4) (s : State) : Host.Outcome State Fault Refusal := .next (doTimeMasterResume ch s)

/-! ## Errors and recovery (R238, R239) -/

/-- CAN_ERROR_STATE_CHANGE: an error active channel becomes error passive, or returns. LISTEN and DOWN show no difference
until they end. -/
def doCanErrorStateChange (c : Nat) (passive : Bool) (s : State) : State :=
  let x := canOf s c
  if !x.joins || x.busOff || x.passive == passive then s
  else event 0x0A00 2 [c, passive.toNat] 0 0 (onCh c (fun x =>
    let x := { x with passive := passive }
    { x with st := if x.st == .active || x.st == .passive then x.onBus else x.st }) s)

/-- CAN_ERROR_STATE_CHANGE. -/
def execCanErrorStateChange (ch : Fin 4) (passive : Bool) (s : State) : Host.Outcome State Fault Refusal :=
  .next (doCanErrorStateChange ch passive s)

/-- RECOVER_MS of a channel; 0 selects 20. -/
def recoverMs (s : State) (c : Nat) : Nat := let v := fld (cfgOf s c).1 20 2; if v == 0 then 20 else v

/-- CAN_BUS_OFF: DOWN; recovery is to be requested after the wait. -/
def doCanBusOff (c : Nat) (s : State) : State :=
  let x := canOf s c
  if !fieldOn s || !x.joins || x.busOff then s else
  let now := s.now
  let again := match x.lastRec with | some t => decide (now < t + 10000000) | none => false
  let w := if again then min 1000 (2 * x.wait) else recoverMs s c
  let before := s.can.pairAt.isSome
  let s := onCh c (fun x => { x with st := .down, down := true, passive := false, busOff := true, wait := w, reqAt := some (now + 1000 * w) }) s
  let s := watchPair (event 0x0A01 3 [c] 0 0 s)
  if !before && s.can.pairAt.isSome && isPair s then event 0x0A08 3 [] 0 0 s else s

/-- CAN_BUS_OFF. -/
def execCanBusOff (ch : Fin 4) (s : State) : Host.Outcome State Fault Refusal := .next (doCanBusOff ch s)

/-- CAN_RECOVERY_REQUEST: by firmware, after the wait. -/
def doCanRecoveryRequest (c : Nat) (s : State) : State :=
  match (canOf s c).reqAt with
  | some t =>
    if !running s then s else
    let s := reach t s
    let now := s.now
    onCh c (fun x => { x with reqAt := none, recAt := some now }) s
  | none => s

/-- CAN_RECOVERY_REQUEST. -/
def execCanRecoveryRequest (ch : Fin 4) (s : State) : Host.Outcome State Fault Refusal := .next (doCanRecoveryRequest ch s)

/-- CAN_RECOVERY_DONE: 128 occurrences of 11 recessive bits later; a profile channel enters LISTEN (R248). -/
def doCanRecoveryDone (c : Nat) (s : State) : State :=
  match (canOf s c).recAt with
  | some t =>
    let s := reach (t + 1408 * arbBit (fld (cfgOf s c).1 4 4) / 80) s
    let now := s.now
    let lis := isProfile s c
    event 0x0A02 1 [c] 0 0 (onCh c (fun x => { x with
      busOff := false, recAt := none, lastRec := some now, st := if lis then .listen else .down, lisAt := now, heard := [] }) s)
  | none => s

/-- CAN_RECOVERY_DONE. -/
def execCanRecoveryDone (ch : Fin 4) (s : State) : Host.Outcome State Fault Refusal := .next (doCanRecoveryDone ch s)

/-- CAN_BACKOFF_RESET: after 10 s without bus-off the wait returns to RECOVER_MS. -/
def doCanBackoffReset (c : Nat) (s : State) : State :=
  match (canOf s c).lastRec with
  | some t =>
    if (canOf s c).busOff then s
    else onCh c (fun x => { x with lastRec := none, wait := recoverMs s c }) (reach (t + 10000000) s)
  | none => s

/-- CAN_BACKOFF_RESET. -/
def execCanBackoffReset (ch : Fin 4) (s : State) : Host.Outcome State Fault Refusal := .next (doCanBackoffReset ch s)

/-- The wake detector of channel 0 or 1 runs (R242). -/
def detectorOn (s : State) (c : Nat) : Bool :=
  !s.keep.por && (!fieldOn s || (canOf s c).st == .sleep || (canOf s c).st == .reset)

/-- CAN_WAKE_PULSE: CRXn returns high after `width` µs low. A recorded wake is ignored for 10 ms after. -/
def doCanWakePulse (c width : Nat) (s : State) : State :=
  if !detectorOn s c || !inRange 5 width 5000 || s.now < s.can.wakeOff.get 0 c then s else
  let now := s.now
  let s := wakeCause (2 + c) (s.onCan fun x => { x with wakeOff := x.wakeOff.set c (now + 10000) })
  if running s then event 0x0A09 1 [c] 0 0 s else s

/-- CAN_WAKE_PULSE. -/
def execCanWakePulse (ch : Fin 2) (width : Nat) (s : State) : Host.Outcome State Fault Refusal :=
  .next (doCanWakePulse ch width s)

/-- LISTEN_END (R248): STATUS from every enabled actuator of the channel, or 200 ms; one EPOCH_ANNOUNCE. -/
def doListenEnd (c : Nat) (s : State) : State :=
  let x := canOf s c
  if x.st != .listen then s else
  let all := (chanActs s.kt.actCfg c).all x.heard.contains
  let s := if all then s else reach (x.lisAt + 200000) s
  announceOn c (onCh c (fun x => { x with st := if x.down then .down else x.onBus }) s)

/-- LISTEN_END. -/
def execListenEnd (ch : Fin 4) (s : State) : Host.Outcome State Fault Refusal := .next (doListenEnd ch s)

/-- The reference messages that wait are not sent (R252). -/
def dropReference (s : State) : State :=
  s.onCan fun x => { x with ch := x.ch.map fun p => (p.1, { p.2 with tx := p.2.tx.filter (·.key != 201) }) }
/-- The pending profile and user frames discarded at a stand-down (R252). -/
def dropFrames (s : State) : State :=
  s.onCan fun x => { x with ch := x.ch.map fun p => (p.1, { p.2 with tx := [], due := [] }) }

/-! ## STATUS (R249, R250) -/

/-- What a STATUS brings about besides the epochs (R247, R249, R250): it is recorded, SILENT clears, a FALLBACK or FAULT
is reported, WAIT_EPOCH gets CONFIG, and a waiting ACTUATOR_CONFIG completes. -/
def recordStatus (c a ago : Nat) (st : ActStatus) (s : State) : State :=
  let old := actOf s a
  let now := s.now
  let stamp := canStamp ago s
  let s := watchPair (onCh c (fun x => { (x.alive) with heard := if x.heard.contains a then x.heard else a :: x.heard }) s)
  let s := onAct a (fun x => { x with has := true, st := st, stamp := stamp, at_ := now, silent := false }) s
  let s := if old.silent then event 0x0A04 2 [a, 0] 0 0 s else s
  let s := if st.state == 1 || st.state == 2 then event 0x0A05 3 [a, st.state.toNat, st.fault.toNat] 0 0 s else s
  if st.state == 3 then sendConfig a s
  else match (actOf s a).wait with
    | some (j, _) => finish0 j 0 (onAct a (fun x => { x with wait := none }) s)
    | none => s

/-! ## Snapshot and state words -/

/-- An actuator entry (R253). -/
def actEntry (s : State) (a : Nat) : Bytes :=
  let b := actCfg s a
  let x := actOf s a
  if b.isEmpty then zeros 16
  else leBytes 1 a ++ sub b 1 1 ++ leBytes 1 x.st.state.toNat ++
    leBytes 1 (x.silent.toNat + 2 * (x.has && decide (x.st.highEpoch.toNat < s.kt.actEpoch)).toNat) ++
    leBytes 4 (ofSigned 32 x.st.meas) ++ leBytes 4 x.st.lastPseq.toNat ++ leBytes 4 x.stamp
/-- A frame entry (R253). -/
def rxEntry (r : RxFrame) : Bytes :=
  leBytes 4 r.stamp ++
  leBytes 4 (r.frame.id.toNat + 2 ^ 29 * r.frame.ide.toNat + 2 ^ 30 * r.frame.fdf.toNat + 2 ^ 31 * r.frame.brs.toNat) ++
  leBytes 1 r.obj ++ leBytes 1 r.frame.data.length ++ zeros 2 ++ sub r.frame.data 0 64 ++ zeros 4
/-- The CAN part of the snapshot. -/
def canSnap (s : State) : Bytes :=
  ((List.range 64).map (actEntry s)).flatten ++
  ((List.range 4).map fun c =>
    let rs := (canOf s c).rx.take 64
    leBytes 4 rs.length ++ (rs.map rxEntry).flatten).flatten
/-- The frames taken into the snapshot leave their objects and FIFOs. -/
def canTaken (s : State) : State := s.onCan fun x => { x with ch := x.ch.map fun p => (p.1, { p.2 with rx := [] }) }

/-- CAN_STATE of a channel (Table 10-4). -/
def chCode : ChSt → Nat
  | .disabled => 0
  | .active => 1
  | .passive => 2
  | .down => 3
  | .listen => 4
  | .sleep => 5
  | .monitor => 6
  | .reset => 7
/-- CAN_STATE (R238). -/
def canState (s : State) : Bytes := (List.range 4).map fun c => BitVec.ofNat 8 (chCode (canOf s c).st)

end Sys2Proof.Machine
end

