-- ==== Sys2Proof/Machine/Fp.lean ====
section
/-! DEFINITION. Machine/Fp.lean: the arithmetic of the vector cores (R264, R265, Table 11-6): element types, binary32 and
BF16 with flushed subnormals, integers that wrap or saturate, and the counted exceptional results. -/

namespace Sys2Proof.Machine

/-! ## Values -/

/-- A float operand: exact, with subnormals flushed to signed zero. `num` is (−1)^neg × m × 2^e, m not 0. -/
inductive Fp where
  | nan
  | inf (neg : Bool)
  | zero (neg : Bool)
  | num (neg : Bool) (m : Nat) (e : Int)
  deriving DecidableEq, Repr

/-- A result: the element's bits, and the events of Table 15-7 that it counts: 0x250 NaN, 0x251 overflow, 0x252 flush,
0x253 division by zero, 0x254 saturation, 0x255 wrap. -/
abbrev Elem := Nat × List Nat

/-- The size in bytes of an element type (Table 11-4). -/
def tySize : Nat → Nat
  | 0 => 4
  | 1 => 2
  | 2 => 2
  | 3 => 1
  | _ => 4
/-- A type is a float type. -/
def tyFloat (t : Nat) : Bool := t < 2

/-- A binary32 decoded. -/
def fp32 (w : Nat) : Fp :=
  let neg := w.testBit 31
  let ex : Nat := w / 2 ^ 23 % 256
  let f : Nat := w % 2 ^ 23
  if ex == 255 then (if f == 0 then .inf neg else .nan)
  else if ex == 0 then .zero neg
  else .num neg (2 ^ 23 + f) ((ex : Int) - 150)
/-- An element of a float type decoded. -/
def fpOf (ty w : Nat) : Fp := if ty == 1 then fp32 (w * 2 ^ 16) else fp32 w

/-- The sign bit of a binary32. -/
def signBit (neg : Bool) : Nat := if neg then 2 ^ 31 else 0
/-- A magnitude rounded to 24 significant bits: to nearest even, or toward zero; `sticky` says that the exact value lies
above `m × 2^e`. The answer is a mantissa below 2^24 + 1 with its exponent. -/
def round24 (rtz : Bool) (m : Nat) (e : Int) (sticky : Bool) : Nat × Int :=
  let l := Nat.log2 m + 1
  if l ≤ 24 then (m * 2 ^ (24 - l), e - ((24 - l : Nat) : Int))
  else
    let k := l - 24
    let q := m / 2 ^ k
    let r := m % 2 ^ k
    let half := 2 ^ (k - 1)
    let up := !rtz && (decide (half < r) || (r == half && (sticky || q % 2 == 1)))
    (if up then q + 1 else q, e + (k : Int))
/-- An exact value as a binary32: subnormal results become signed zero, overflow signed infinity (Table 11-6). -/
def Fp.bits (rtz : Bool) (x : Fp) (sticky : Bool := false) : Elem :=
  match x with
  | .nan => (0x7FC00000, [0x250])
  | .inf n => (signBit n + 0x7F800000, [])
  | .zero n => (signBit n, [])
  | .num n m e =>
    let (q, x) := round24 rtz m e sticky
    let (q, x) := if q == 2 ^ 24 then (2 ^ 23, x + 1) else (q, x)
    if 104 < x then (signBit n + 0x7F800000, [0x251])
    else if x < -149 then (signBit n, [0x252])
    else (signBit n + (x + 150).toNat * 2 ^ 23 + (q - 2 ^ 23), [])
/-- A binary32 rounded to 8 significant bits under the same rounding. -/
def bf16 (rtz : Bool) (e : Elem) : Elem :=
  let w := e.1
  if w % 2 ^ 31 > 0x7F800000 then (0x7FC0, e.2)
  else if rtz then (w / 2 ^ 16, e.2)
  else
    let v := (w + 0x7FFF + w / 2 ^ 16 % 2) / 2 ^ 16
    (v, if v % 2 ^ 15 == 0x7F80 && w % 2 ^ 31 != 0x7F800000 then [0x251] else e.2)
/-- A float result of a type. -/
def Fp.elem (ty : Nat) (rtz : Bool) (x : Fp) (sticky : Bool := false) : Elem :=
  if ty == 1 then bf16 rtz (x.bits rtz sticky) else x.bits rtz sticky

/-! ## Exact operations -/

/-- The sign changed. -/
def Fp.neg : Fp → Fp
  | .nan => .nan
  | .inf n => .inf (!n)
  | .zero n => .zero (!n)
  | .num n m e => .num (!n) m e
/-- The sign cleared. -/
def Fp.abs : Fp → Fp
  | .nan => .nan
  | .inf _ => .inf false
  | .zero _ => .zero false
  | .num _ m e => .num false m e
/-- A signed integer times a power of two. -/
def Fp.ofInt (v : Int) (e : Int) : Fp := if v == 0 then .zero false else .num (decide (v < 0)) v.natAbs e
/-- A signed mantissa. -/
def sgn (n : Bool) (m : Nat) : Int := if n then -(m : Int) else m
/-- The exact sum. An exact zero is +0, unless both operands are −0. -/
def Fp.add : Fp → Fp → Fp
  | .nan, _ => .nan
  | _, .nan => .nan
  | .inf a, .inf b => if a == b then .inf a else .nan
  | .inf a, _ => .inf a
  | _, .inf b => .inf b
  | .zero a, .zero b => .zero (a && b)
  | .zero _, y => y
  | x, .zero _ => x
  | .num a m e, .num b n f =>
    let l := if e < f then e else f
    Fp.ofInt (sgn a (m * 2 ^ (e - l).toNat) + sgn b (n * 2 ^ (f - l).toNat)) l
/-- The exact product. -/
def Fp.mul : Fp → Fp → Fp
  | .nan, _ => .nan
  | _, .nan => .nan
  | .inf _, .zero _ => .nan
  | .zero _, .inf _ => .nan
  | .inf a, .inf b => .inf (a != b)
  | .inf a, .num b _ _ => .inf (a != b)
  | .num a _ _, .inf b => .inf (a != b)
  | .zero a, .zero b => .zero (a != b)
  | .zero a, .num b _ _ => .zero (a != b)
  | .num a _ _, .zero b => .zero (a != b)
  | .num a m e, .num b n f => .num (a != b) (m * n) (e + f)
/-- A value is at least another; false where either is NaN. -/
def Fp.ge : Fp → Fp → Bool
  | .nan, _ => false
  | _, .nan => false
  | .inf a, .inf b => !a || b
  | x, y => match x.add y.neg with
    | .num n _ _ => !n
    | .inf n => !n
    | _ => true
/-- A value is a zero. -/
def Fp.isZero : Fp → Bool
  | .zero _ => true
  | _ => false
/-- A value is NaN. -/
def Fp.isNan : Fp → Bool
  | .nan => true
  | _ => false
/-- maximumNumber of IEEE 754-2019: the number where one operand is NaN; +0 above −0. -/
def Fp.maxNum (x y : Fp) : Fp :=
  if x.isNan then y else if y.isNan then x
  else if x.isZero && y.isZero then (if x == .zero false then x else y)
  else if x.ge y then x else y
/-- minimumNumber. -/
def Fp.minNum (x y : Fp) : Fp := (Fp.maxNum x.neg y.neg).neg

/-- The quotient, whether it lies above the value given, and the event it counts. -/
def Fp.div : Fp → Fp → Fp × Bool × List Nat
  | .nan, _ => (.nan, false, [])
  | _, .nan => (.nan, false, [])
  | .inf _, .inf _ => (.nan, false, [])
  | .zero _, .zero _ => (.nan, false, [])
  | .inf a, .num b _ _ => (.inf (a != b), false, [])
  | .inf a, .zero b => (.inf (a != b), false, [])
  | .zero a, .inf b => (.zero (a != b), false, [])
  | .zero a, .num b _ _ => (.zero (a != b), false, [])
  | .num a _ _, .inf b => (.zero (a != b), false, [])
  | .num a _ _, .zero b => (.inf (a != b), false, [0x253])
  | .num a m e, .num b n f => (.num (a != b) (m * 2 ^ 64 / n) (e - f - 64), m * 2 ^ 64 % n != 0, [])

/-- The integer square root by bits. -/
def isqrtGo : Nat → Nat → Nat → Nat
  | 0, _, r => r
  | k + 1, n, r => if (r + 2 ^ k) * (r + 2 ^ k) ≤ n then isqrtGo k n (r + 2 ^ k) else isqrtGo k n r
/-- The integer square root. -/
def isqrt (n : Nat) : Nat := isqrtGo (Nat.log2 n / 2 + 1) n 0
/-- The square root, and whether it lies above the value given. -/
def Fp.sqrt : Fp → Fp × Bool
  | .nan => (.nan, false)
  | .inf n => (if n then .nan else .inf false, false)
  | .zero n => (.zero n, false)
  | .num true _ _ => (.nan, false)
  | .num false m e =>
    let k : Nat := 64 + (e % 2).toNat
    let r := isqrt (m * 2 ^ k)
    (.num false r ((e - k) / 2), r * r != m * 2 ^ k)

/-! ## Bounded operations (R265) -/

/-- A magnitude cut to 24 bits, and whether nothing was cut. -/
def cut24 (m : Nat) (e : Int) (exact : Bool) : Nat × Int × Bool :=
  let (q, x) := round24 true m e false
  (q, x, exact && m * 2 ^ (24 - (Nat.log2 m + 1)) == q * 2 ^ ((Nat.log2 m + 1) - 24))
/-- A value within `k` ulp of a magnitude, which one being the pick. -/
def withinUlp (k pick : Nat) (neg : Bool) (m : Nat) (e : Int) (exact : Bool) : Fp :=
  let (q, x, ex) := cut24 m e exact
  if ex then .num neg (q + pick % (2 * k + 1) - k) x else .num neg (q + pick % (2 * k) - (k - 1)) x

/-- The fraction bits of the fixed-point figures below. -/
def fixBits : Nat := 256
/-- 2 × atanh(z) for a fixed-point z of at most 1/3, by its series. -/
def atanhGo (zz : Int) : Nat → Nat → Int → Int
  | 0, _, _ => 0
  | k + 1, n, p => 2 * p / (n : Int) + atanhGo zz k (n + 2) (p * zz / (2 ^ fixBits : Nat))
/-- 2 × atanh(z). -/
def atanh2 (z : Int) : Int := atanhGo (z * z / (2 ^ fixBits : Nat)) 90 1 z
/-- ln 2. -/
def ln2Fix : Int := atanh2 ((2 ^ fixBits : Nat) / 3)
/-- e^r for a fixed-point r in 0 to ln 2, by its series from the `n`-th term `t`. -/
def expGo (r : Int) : Nat → Nat → Int → Int
  | 0, _, _ => 0
  | k + 1, n, t => t + expGo r k (n + 1) (t * r / (2 ^ fixBits : Nat) / (n : Int))
/-- e^x (R264): exact at infinities; overflow and underflow as Table 11-6 gives. -/
def Fp.exp (pick : Nat) : Fp → Fp × List Nat
  | .nan => (.nan, [])
  | .inf n => (if n then .zero false else .inf false, [])
  | .zero _ => (withinUlp 2 pick false 1 0 true, [])
  | .num n m e =>
    let x : Int := sgn n (if 0 ≤ e + fixBits then m * 2 ^ (e + fixBits).toNat else m / 2 ^ (-(e + fixBits)).toNat)
    let k := x / ln2Fix
    if 127 < k then (.inf false, [0x251])
    else if k < -127 then (.zero false, [0x252])
    else
      let y := expGo (x - k * ln2Fix) 80 1 (2 ^ fixBits : Nat)
      (withinUlp 2 pick false y.toNat (k - fixBits) false, [])
/-- ln(x) (R264). Division by zero of IEEE 754 at ±0: −infinity. -/
def Fp.log (pick : Nat) : Fp → Fp × List Nat
  | .nan => (.nan, [])
  | .inf n => (if n then .nan else .inf false, [])
  | .zero _ => (.inf true, [0x253])
  | .num true _ _ => (.nan, [])
  | .num false m e =>
    let v := (e + 23) * ln2Fix + atanh2 ((((m : Int) - (2 ^ 23 : Nat)) * (2 ^ fixBits : Nat)) / ((m : Int) + (2 ^ 23 : Nat)))
    if v == 0 || (m == 2 ^ 23 && e == -23) then (.zero false, [])
    else (withinUlp 2 pick (decide (v < 0)) v.natAbs (-fixBits) false, [])
/-- 1 / sqrt(x) (R264). -/
def Fp.rsqrt (pick : Nat) : Fp → Fp × List Nat
  | .nan => (.nan, [])
  | .inf n => (if n then .nan else .zero false, [])
  | .zero n => (.inf n, [0x253])
  | .num true _ _ => (.nan, [])
  | .num false m e =>
    let odd : Nat := (e % 2).toNat
    let d := m * 2 ^ odd
    let r := isqrt (2 ^ 200 / d)
    (withinUlp 2 pick false r (-100 - (e - odd) / 2) (r * r * d == 2 ^ 200), [])

/-! ## Integers -/

/-- An element of an integer type. -/
def intOf (ty w : Nat) : Int := toSigned (8 * tySize ty) w
/-- An integer result: wrapped modulo 2^n, or saturated under SAT (R265). -/
def intElem (ty : Nat) (sat : Bool) (v : Int) : Elem :=
  let n := 8 * tySize ty
  let hi : Int := (2 ^ (n - 1) : Nat) - 1
  let lo : Int := -((2 ^ (n - 1) : Nat) : Int)
  if lo ≤ v && v ≤ hi then (ofSigned n v, [])
  else if sat then (ofSigned n (if v < lo then lo else hi), [0x254])
  else (ofSigned n v, [0x255])

/-- A float rounded to an integer, to nearest even or toward zero; CONVERT saturates always, and NaN gives 0. -/
def Fp.toIntElem (ty : Nat) (rtz : Bool) (x : Fp) : Elem :=
  match x with
  | .nan => (0, [])
  | .zero _ => (0, [])
  | .inf n => intElem ty true (if n then -(2 ^ 40 : Nat) else (2 ^ 40 : Nat))
  | .num n m e =>
    let v : Nat :=
      if 0 ≤ e then m * 2 ^ (min e 64).toNat
      else
        let k := (-e).toNat
        let q := m / 2 ^ k
        let r := m % 2 ^ k
        if !rtz && (decide (2 ^ k < 2 * r) || (2 * r == 2 ^ k && q % 2 == 1)) then q + 1 else q
    intElem ty true (sgn n v)
/-- CONVERT (R265). -/
def convertElem (tin tout : Nat) (rtz sat : Bool) (w : Nat) : Elem :=
  if tyFloat tin then
    if tyFloat tout then (fpOf tin w).elem tout rtz else (fpOf tin w).toIntElem tout rtz
  else if tyFloat tout then (Fp.ofInt (intOf tin w) 0).elem tout rtz
  else intElem tout sat (intOf tin w)

end Sys2Proof.Machine
end

