-- ==== Sys2Proof/Machine/Container.lean ====
section
/-! DEFINITION. Machine/Container.lean: the reading and the check of a program container and of an epoch manifest
(Tables 11-3 to 11-9 and 12-1; R258, R263, R264, R272, R277, R281, R287, R288), and the operands of a descriptor. -/

namespace Sys2Proof.Machine

/-! ## Descriptors (Tables 11-3 to 11-5) -/

/-- The descriptor stored in 64 bytes. -/
def readDescr (b : Bytes) : Desc :=
  { op := BitVec.ofNat 8 (fld b 0 1), ty := BitVec.ofNat 8 (fld b 1 1), ctrl := BitVec.ofNat 16 (fld b 2 2),
    rows := BitVec.ofNat 16 (fld b 4 2), cols := BitVec.ofNat 16 (fld b 6 2), dst := BitVec.ofNat 64 (fld b 8 8),
    src0 := BitVec.ofNat 64 (fld b 16 8), src1 := BitVec.ofNat 64 (fld b 24 8), src2 := BitVec.ofNat 64 (fld b 32 8),
    imm := BitVec.ofNat 64 (fld b 40 8), wait := BitVec.ofNat 16 (fld b 48 2), set := BitVec.ofNat 16 (fld b 50 2),
    queue := BitVec.ofNat 16 (fld b 52 2), rset := BitVec.ofNat 16 (fld b 54 2), arg := BitVec.ofNat 32 (fld b 56 4) }

/-- The operator. -/
def Desc.opn (d : Desc) : Nat := d.op.toNat
/-- The element type IN. -/
def Desc.tin (d : Desc) : Nat := d.ty.toNat % 8
/-- The element type OUT. -/
def Desc.tout (d : Desc) : Nat := d.ty.toNat / 8 % 8
/-- SAT. -/
def Desc.sat (d : Desc) : Bool := d.ctrl.getLsbD 0
/-- RTZ. -/
def Desc.rtz (d : Desc) : Bool := d.ctrl.getLsbD 1
/-- ACC. -/
def Desc.acc (d : Desc) : Bool := d.ctrl.getLsbD 2
/-- An operand field: 0 DST, 1 to 3 SRC0 to SRC2. -/
def Desc.opnd (d : Desc) (k : Nat) : Nat := ([d.dst, d.src0, d.src1, d.src2].getD k 0).toNat
/-- ADDR of an operand field. -/
def oAddr (f : Nat) : Nat := f % 2 ^ 36
/-- RSTRIDE of an operand field. -/
def oStride (f : Nat) : Nat := f / 2 ^ 36 % 2 ^ 24
/-- MODE of an operand field: 0 NONE, 1 ARRAY, 2 SCALAR. -/
def oMode (f : Nat) : Nat := f / 2 ^ 60
/-- The address of element (r, c) of an operand, of `n`-byte elements. -/
def elAt (f n r c : Nat) : Nat := if oMode f == 2 then oAddr f else oAddr f + r * oStride f + c * n

/-- The Types column of Table 11-5. -/
inductive TyRule where
  | none
  | any
  | pair
  | fi
  | f
  | sum
  | argmax
  | matmul
  | queue
  deriving DecidableEq, Repr

/-- A type rule holds of IN and OUT. -/
def TyRule.ok (t : TyRule) (i o : Nat) : Bool :=
  match t with
  | .none => i == 0 && o == 0
  | .any => i == o && decide (i ≤ 4)
  | .pair => decide (i ≤ 4) && decide (o ≤ 4)
  | .fi => i == o && decide (i ≤ 3)
  | .f => i == o && decide (i ≤ 1)
  | .sum => if i ≤ 1 then o == i else decide (i ≤ 3) && o == 4
  | .argmax => decide (i ≤ 3) && o == 4
  | .matmul => if i == 0 then o == 0 else if i == 1 then decide (o ≤ 1) else decide (i ≤ 3) && o == 4
  | .queue => i == 0 && o == 0

/-- An operator's row of Table 11-5: the operands it names (DST, SRC0, SRC1, SRC2), its types, and ACC. -/
structure OpRow where
  use : List Bool
  ty  : TyRule
  acc : Bool := false
  deriving DecidableEq, Repr

/-- An operator with no operand. -/
def rowNone : OpRow := { use := [false, false, false, false], ty := .none }
/-- An operator with DST and one, two or three sources. -/
def rowSrc (n : Nat) (ty : TyRule) (acc : Bool := false) : OpRow :=
  { use := [true, decide (1 ≤ n), decide (2 ≤ n), decide (3 ≤ n)], ty := ty, acc := acc }

/-- The operators (Table 11-5). -/
def opRow (op : Nat) : Option OpRow :=
  if op ≤ 0x05 then some rowNone
  else match op with
  | 0x10 => some (rowSrc 1 .any)
  | 0x11 => some (rowSrc 0 .any)
  | 0x12 => some (rowSrc 2 .any)
  | 0x13 => some (rowSrc 2 .any)
  | 0x14 => some { use := [false, true, false, false], ty := .queue }
  | 0x15 => some { use := [true, false, false, false], ty := .queue }
  | 0x16 => some (rowSrc 1 .pair)
  | 0x17 => some (rowSrc 1 .any)
  | 0x20 => some (rowSrc 2 .fi true)
  | 0x21 => some (rowSrc 2 .fi true)
  | 0x22 => some (rowSrc 2 .fi true)
  | 0x23 => some (rowSrc 3 .f true)
  | 0x24 => some (rowSrc 2 .f)
  | 0x25 => some (rowSrc 2 .fi)
  | 0x26 => some (rowSrc 2 .fi)
  | 0x27 => some (rowSrc 1 .fi)
  | 0x28 => some (rowSrc 1 .f)
  | 0x29 => some (rowSrc 1 .f)
  | 0x2A => some (rowSrc 1 .f)
  | 0x2B => some (rowSrc 1 .f)
  | 0x2C => some (rowSrc 1 .fi true)
  | 0x2D => some (rowSrc 1 .fi)
  | 0x2E => some (rowSrc 3 .fi)
  | 0x2F => some (rowSrc 2 .f)
  | 0x30 => some (rowSrc 1 .sum true)
  | 0x31 => some (rowSrc 1 .fi)
  | 0x32 => some (rowSrc 1 .fi)
  | 0x33 => some (rowSrc 1 .argmax)
  | 0x34 => some (rowSrc 2 .matmul true)
  | 0x35 => some (rowSrc 3 .sum true)
  | _ => none

/-- The shape of an operand as the operator reads or writes it: rows, columns and element size. `none` for an operand
reached through indices, or not named. -/
def Desc.shape (d : Desc) (k : Nat) : Option (Nat × Nat × Nat) :=
  if oMode (d.opnd k) == 0 then none else
  let r := d.rows.toNat
  let c := d.cols.toNat
  let a := d.arg.toNat
  let i := tySize d.tin
  let o := tySize d.tout
  let plain := if k == 0 then (r, c, o) else (r, c, i)
  match d.opn, k with
  | 0x12, 1 => none
  | 0x12, 2 => some (r, c, 4)
  | 0x13, 0 => none
  | 0x13, 2 => some (r, c, 4)
  | 0x14, _ => some (r, 16, 4)
  | 0x15, _ => some (r, 16, 4)
  | 0x17, 0 => some (c, r, o)
  | 0x2F, 2 => some (1, 2 * a, 4)
  | 0x30, 0 => some (r, 1, o)
  | 0x31, 0 => some (r, 1, o)
  | 0x32, 0 => some (r, 1, o)
  | 0x33, 0 => some (r, 1, o)
  | 0x34, 1 => some (r, a, i)
  | 0x34, 2 => some (a, c, i)
  | 0x35, 0 => some (r, 1, o)
  | 0x35, 2 => some (r, c, 4)
  | 0x35, 3 => none
  | _, _ => some plain
/-- The element size by which an operand's fields are judged. -/
def Desc.elSize (d : Desc) (k : Nat) : Nat :=
  match d.shape k with
  | some (_, _, n) => n
  | none => if k == 0 then tySize d.tout else tySize d.tin

/-- MODE of an operand that the operator names: an indexed or paired array, a queue's entries, or any. -/
def Desc.modeOk (d : Desc) (k : Nat) : Bool :=
  let m := oMode (d.opnd k)
  let s := oStride (d.opnd k)
  match d.opn, k with
  | 0x12, 1 => m == 1
  | 0x13, 0 => m == 1
  | 0x2F, 2 => m == 1
  | 0x35, 3 => m == 1
  | 0x14, _ => m == 1 && decide (64 ≤ s) && s % 64 == 0
  | 0x15, _ => m == 1 && decide (64 ≤ s) && s % 64 == 0
  | _, _ => m == 1 || m == 2

/-- An operand field keeps R263 and R264. -/
def Desc.opndOk (d : Desc) (use : List Bool) (k : Nat) : Bool :=
  let f := d.opnd k
  if use.getD k false then
    d.modeOk k && oAddr f % d.elSize k == 0 && oStride f % d.elSize k == 0
  else f == 0

/-- ARG and IMM as the operator limits them, in a list of `n` descriptors. -/
def Desc.argOk (d : Desc) (n : Nat) : Bool :=
  let a := d.arg.toNat
  match d.opn with
  | 0x02 => decide (a < n)
  | 0x03 => decide (a % 2 ^ 24 < n) && decide (a < 2 ^ 26) && decide (1 ≤ d.imm.toNat % 2 ^ 32) &&
      decide (d.imm.toNat % 2 ^ 32 ≤ 2 ^ 24)
  | 0x05 => decide (a ≤ 9999)
  | 0x14 => d.cols == 1
  | 0x15 => d.cols == 1
  | 0x2F => decide (2 ≤ a) && decide (a ≤ 4096)
  | 0x34 => decide (1 ≤ a) && decide (a ≤ 4096)
  | _ => true

/-- A descriptor of a list of `n` keeps R263 and R264; `nset` is the number of region sets. -/
def Desc.ok (d : Desc) (n nset : Nat) (b : Bytes) : Bool :=
  match opRow d.opn with
  | none => false
  | some r =>
    decide (d.ty.toNat < 64) && r.ty.ok d.tin d.tout && decide (d.ctrl.toNat < 8) && (r.acc || !d.acc) &&
    (List.range 4).all (d.opndOk r.use) && d.argOk n &&
    d.wait.toNat / 256 % 64 == 0 && !d.set.getLsbD 14 && d.queue.toNat / 1024 == 0 &&
    (d.opn == 0x14 || d.opn == 0x15 || d.queue == 0) && decide (d.rset.toNat < nset) && isZero b 60 4

/-! ## The container (Tables 11-8 and 11-9) -/

/-- The entries of a section. -/
def section_ (b : Bytes) (off n size : Nat) : List Bytes := (List.range n).map fun i => sub b (off + size * i) size

/-- The preload records from an offset, and where they end. -/
def readInit (b : Bytes) : Nat → Nat → List (Nat × Bytes) × Nat × Bool
  | 0, o => ([], o, true)
  | n + 1, o =>
    let len := fld b (o + 8) 4
    let (rs, e, ok) := readInit b n (o + 16 + (len + 63) / 64 * 64)
    ((fld b o 8, sub b (o + 16) len) :: rs, e, ok && isZero b (o + 12) 4)

/-- A range lies in one slice's data area (R258). -/
def inData (a n : Nat) : Bool := decide (a + n ≤ 2 ^ 31) && decide (a % 2 ^ 25 + n ≤ 0x1C00000)
/-- A range lies in a device window (Table 11-1). -/
def inWindow (a n : Nat) : Bool :=
  (decide (0x400000000 ≤ a) && decide (a + n ≤ 0x400001000)) || (decide (0x400010000 ≤ a) && decide (a + n ≤ 0x400020000)) ||
  (a == 0x400020000 && decide (n ≤ 64))
/-- A range lies in LPDDR5X of a capacity in GiB. -/
def inSpill (cap a n : Nat) : Bool := decide (0x800000000 ≤ a) && decide (a + n ≤ 0x800000000 + cap * 2 ^ 30)
/-- An address is of LPDDR5X. -/
def isSpill (a : Nat) : Bool := decide (0x800000000 ≤ a)

/-- A region entry keeps Table 11-9 and R272. -/
def regionOk (cap : Nat) (e : Bytes) : Bool :=
  let a := fld e 0 8
  let n := fld e 8 4
  let acc := fld e 12 1
  a % 64 == 0 && n % 64 == 0 && decide (0 < n) && decide (1 ≤ acc) && decide (acc ≤ 3) && isZero e 13 3 &&
  (inData a n || (inWindow a n && acc == 2) || inSpill cap a n)
/-- A region entry. -/
def readRegion (e : Bytes) : Region :=
  { base := fld e 0 8, len := fld e 8 4, read := (fld e 12 1).testBit 0, write := (fld e 12 1).testBit 1 }

/-- The depth of a queue class (R287). -/
def depthOf (cls : Nat) : Nat := match cls with | 0 => 16 | 1 => 64 | _ => 256

/-- The sections of a container, as offset and length. -/
def sections (b : Bytes) : List (Nat × Nat) :=
  let o := fun i => fld b (0x30 + 4 * i) 4
  [(0, 256), (o 0, 16 * fld b 0x20 2), (o 1, 64 * fld b 0x22 4), (o 2, 16 * fld b 0x26 2), (o 3, 8 * fld b 0x28 2),
   (o 4, 4 * fld b 0x2A 2), (o 5, 8 * fld b 0x2C 2), (o 6, (readInit b (fld b 0x2E 2) (o 6)).2.1 - o 6)]
/-- Two ranges do not overlap. -/
def apart (x y : Nat × Nat) : Bool := x.2 == 0 || y.2 == 0 || decide (x.1 + x.2 ≤ y.1) || decide (y.1 + y.2 ≤ x.1)
/-- No two elements of a list break a relation. -/
def pairwise {α : Type} (f : α → α → Bool) : List α → Bool
  | [] => true
  | x :: xs => xs.all (f x) && pairwise f xs

/-- The container in the bytes of an object. -/
def readContainer (b : Bytes) : Container :=
  let o := fun i => fld b (0x30 + 4 * i) 4
  { debug := (fld b 0x0E 2).testBit 0, quires := fld b 0x10 8,
    lists := (section_ b (o 0) (fld b 0x20 2) 16).map fun e =>
      { core := 4 * fld e 0 1 + fld e 1 1,
        descs := (section_ b (o 1 + 64 * fld e 4 4) (fld e 8 4) 64).map readDescr },
    regions := (section_ b (o 2) (fld b 0x26 2) 16).map readRegion,
    rsets := (section_ b (o 3) (fld b 0x28 2) 8).map fun e => (List.range 4).map fun k => fld e (2 * k) 2,
    flags := (section_ b (o 4) (fld b 0x2A 2) 4).map fun e => (256 * fld e 0 1 + fld e 1 1, fld e 2 1 == 1),
    queues := (section_ b (o 5) (fld b 0x2C 2) 8).map fun e => { id := fld e 0 2, cons := fld e 4 1, cls := fld e 5 1 },
    init := (readInit b (fld b 0x2E 2) (o 6)).1 }

/-- The header keeps Table 11-8 and the sections lie apart within the object. -/
def headerOk (b : Bytes) : Bool :=
  let n := b.length
  decide (256 ≤ n) && fld b 0 4 == 0x54525651 && fld b 4 2 == 1 && fld b 6 2 == 0x100 && fld b 8 4 == n &&
  fld b 0x0D 1 == 1 && fld b 0x0E 2 / 2 == 0 && inRange 1 (fld b 0x20 2) 256 && inRange 1 (fld b 0x26 2) 1024 &&
  decide (1 ≤ fld b 0x28 2) && isZero b 0x4C 180 &&
  (sections b).all (fun p => p.1 % 64 == 0 && decide (p.1 + p.2 ≤ n)) && pairwise apart (sections b) &&
  (readInit b (fld b 0x2E 2) (fld b 0x48 4)).2.2

/-- The list, flag and queue entries keep Table 11-9. -/
def entriesFit (b : Bytes) : Bool :=
  let o := fun i => fld b (0x30 + 4 * i) 4
  (section_ b (o 0) (fld b 0x20 2) 16).all (fun e =>
    decide (fld e 0 1 < 64) && (fld b 0x10 8).testBit (fld e 0 1) && decide (fld e 1 1 < 4) && isZero e 2 2 &&
    decide (1 ≤ fld e 8 4) && decide (fld e 8 4 ≤ 4096) && decide (fld e 4 4 + fld e 8 4 ≤ fld b 0x22 4) && isZero e 12 4) &&
  (section_ b (o 3) (fld b 0x28 2) 8).all (fun e =>
    (List.range 4).all fun k => fld e (2 * k) 2 == 0xFFFF || decide (fld e (2 * k) 2 < fld b 0x26 2)) &&
  (section_ b (o 4) (fld b 0x2A 2) 4).all (fun e => decide (fld e 0 1 < 64) && decide (fld e 2 1 ≤ 1) && isZero e 3 1) &&
  (section_ b (o 5) (fld b 0x2C 2) 8).all (fun e =>
    decide (fld e 2 1 < 64) && decide (fld e 3 1 < 16) && fld e 0 2 == 16 * fld e 2 1 + fld e 3 1 &&
    decide (fld e 4 1 < 64) && decide (fld e 5 1 ≤ 2) && isZero e 6 2)

/-- The region of an operand of a descriptor, with its index. -/
def Container.region (c : Container) (d : Desc) (k : Nat) : Option (Nat × Region) :=
  let i := (c.rsets.getD d.rset.toNat []).getD k 0xFFFF
  (c.regions[i]?).map fun r => (i, r)
/-- A range lies in a region. -/
def Region.holds (r : Region) (a : Int) (n : Nat) : Bool := decide ((r.base : Int) ≤ a) && decide (a + n ≤ r.base + r.len)
/-- The accesses an operand makes of its region: a source reads; DST writes, and reads under ACC. -/
def Region.allows (r : Region) (k : Nat) (acc : Bool) : Bool := if k == 0 then r.write && (r.read || !acc) else r.read
/-- The first and the end address of an operand that is not reached through indices. -/
def Desc.extent (d : Desc) (k : Nat) : Option (Nat × Nat) :=
  match d.shape k with
  | none => none
  | some (r, c, n) =>
    if r == 0 || c == 0 || d.rows == 0 || d.cols == 0 then none
    else
      let f := d.opnd k
      some (oAddr f, (if oMode f == 2 then oAddr f else oAddr f + (r - 1) * oStride f + (c - 1) * n) + n)

/-- The region sets name regions of the right access, and every access whose addresses the descriptor gives is declared
(R272, R288). -/
def Container.accessOk (c : Container) (d : Desc) : Bool :=
  match opRow d.opn with
  | none => false
  | some r => (List.range 4).all fun k =>
    if !(r.use.getD k false) then true
    else match c.region d k with
      | none => (d.extent k).isNone
      | some (_, g) => g.allows k d.acc && (match d.extent k with
        | some (lo, hi) => g.holds (lo : Int) (hi - lo)
        | none => true)
/-- The flags and queues a descriptor of quire `q` names are declared (R288); PRELOAD_FLAG is the manifest's. -/
def Container.namesOk (c : Container) (pre q : Nat) (d : Desc) : Bool :=
  let w := d.wait.toNat % 256
  let t := d.set.toNat % 256
  let declares := fun k => c.flags.any fun p => p.1 == k
  (!d.wait.getLsbD 15 || w == pre || declares (256 * q + w)) &&
  (!d.set.getLsbD 15 || t == pre || declares (d.set.toNat / 256 % 64 * 256 + t)) &&
  (if d.opn == 0x14 then c.queues.any (fun x => x.id == d.queue.toNat) && d.queue.toNat / 16 == q
   else if d.opn == 0x15 then c.queues.any fun x => x.id == d.queue.toNat && x.cons == q
   else true)

/-- A container keeps R263, R264, R271, R272, R287 and R288, with `cap` GiB of LPDDR5X installed and `pre` as
PRELOAD_FLAG. -/
def containerOk (cap pre : Nat) (b : Bytes) : Bool :=
  let o := fun i => fld b (0x30 + 4 * i) 4
  let c := readContainer b
  headerOk b && entriesFit b && (section_ b (o 2) (fld b 0x26 2) 16).all (regionOk cap) &&
  (section_ b (o 0) (fld b 0x20 2) 16).all (fun e =>
    (section_ b (o 1 + 64 * fld e 4 4) (fld e 8 4) 64).all fun x =>
      (readDescr x).ok (fld e 8 4) (fld b 0x28 2) x && c.accessOk (readDescr x) && c.namesOk pre (fld e 0 1) (readDescr x)) &&
  pairwise (fun x y => x.core != y.core) c.lists &&
  (List.range 64).all (fun q =>
    decide (((c.lists.filter fun l => l.core / 4 == q).map (·.descs.length)).sum ≤ 4096) &&
    decide (((c.queues.filter fun x => x.id / 16 == q).map fun x => depthOf x.cls).sum ≤ 1024)) &&
  c.init.all (fun p => c.regions.any fun r => r.holds p.1 p.2.length)

/-! ## The manifest (Table 12-1) -/

/-- The offsets of the partition entries, the carried regions and the worst-case entries. -/
def manOffs (b : Bytes) : Nat × Nat × Nat :=
  let p := 0x40 + 136 * fld b 7 1
  let c := p + 16 * fld b 8 1
  (p, c, c + 16 * fld b 0x0C 2)
/-- The manifest in the bytes of an object. -/
def readManifest (b : Bytes) : Manifest :=
  let (p, c, w) := manOffs b
  { mode := fld b 6 1, preload := fld b 9 1, nelem := fld b 0x0A 2, context := fld b 0x10 8, inbox := fld b 0x18 8,
    outbox := fld b 0x20 8,
    progs := (section_ b 0x40 (fld b 7 1) 136).map fun e =>
      (fld e 0 2, (List.range (fld e 2 1)).map fun v => digestAt e (8 + 32 * v)),
    parts := (section_ b p (fld b 8 1) 16).map fun e => (fld e 0 1, fld e 2 2, fld e 4 2),
    carry := (section_ b c (fld b 0x0C 2) 16).map fun e => (fld e 0 8, fld e 8 4),
    worst := if fld b 6 1 == 0 then [] else (section_ b w (fld b 0x0A 2) 48).map fun e => sub e 0 36 }

/-- The partitions cover elements 0 to n − 1 without gap or overlap, one per position. -/
def partsOk (n : Nat) (ps : List (Nat × Nat × Nat)) : Bool :=
  ps.all (fun p => decide (p.1 < 16) && decide (1 ≤ p.2.2) && decide (p.2.2 ≤ 1024) && decide (p.2.1 + p.2.2 ≤ n)) &&
  pairwise (fun x y => x.1 != y.1 && apart x.2 y.2) ps && (ps.map (·.2.2)).sum == n

/-- A manifest keeps R277 and R305. -/
def manifestOk (b : Bytes) : Bool :=
  let m := readManifest b
  let (p, c, w) := manOffs b
  let rack := m.mode == 0
  let slot := fun a n => a % 64 == 0 && inData a n
  decide (0x40 ≤ b.length) && fld b 0 4 == 0x4D565254 && fld b 4 2 == 1 && decide (m.mode ≤ 2) &&
  decide (1 ≤ fld b 7 1) && decide (fld b 7 1 ≤ 32) && decide (fld b 0x0C 2 ≤ 256) && isZero b 0x0E 2 && isZero b 0x28 24 &&
  b.length == w + (if rack then 0 else 48 * m.nelem) &&
  (if rack then fld b 8 1 == 0 && m.nelem == 0 && m.inbox == 0 && m.outbox == 0
   else decide (1 ≤ fld b 8 1) && decide (fld b 8 1 ≤ 16) && decide (1 ≤ m.nelem) && decide (m.nelem ≤ 8192) &&
     slot m.inbox (64 * m.nelem) && slot m.outbox (64 * m.nelem) && partsOk m.nelem m.parts) &&
  slot m.context (64 * fld b 7 1) &&
  (section_ b 0x40 (fld b 7 1) 136).all (fun e =>
    decide (1 ≤ fld e 2 1) && decide (fld e 2 1 ≤ 4) && isZero e 3 5 &&
    isZero e (8 + 32 * fld e 2 1) (32 * (4 - fld e 2 1))) &&
  (section_ b p (fld b 8 1) 16).all (fun e => isZero e 1 1 && isZero e 6 10) &&
  (section_ b c (fld b 0x0C 2) 16).all (fun e => fld e 0 8 % 64 == 0 && fld e 8 4 % 64 == 0 && isZero e 12 4) &&
  (rack || (section_ b w m.nelem 48).all fun e => isZero e 36 12) &&
  decide ((m.carry.map (·.2)).sum ≤ 2613248)

/-! ## Selection and the rules among programs (R280, R281) -/

/-- The indices of the programs selected at a position. -/
def Manifest.selected (m : Manifest) (pos : Nat) : List Nat :=
  (List.range m.progs.length).filter fun i => m.mode == 0 || ((m.progs.getD i (0, [])).1).testBit pos
/-- A container uses no failed quire and no slice of one. -/
def Container.eligible (c : Container) (failed : Nat) : Bool :=
  (List.range 64).all fun q => !failed.testBit q ||
    (!c.quires.testBit q && c.regions.all fun r => r.base / 2 ^ 25 != q)
/-- The containers of a program's variants, by the staged objects. -/
def variants (s : State) (m : Manifest) (i : Nat) : List (Option Bytes) :=
  (m.progs.getD i (0, [])).2.map fun d => objBytes d s
/-- The lowest eligible variant of a program. -/
def pickVariant (s : State) (m : Manifest) (failed i : Nat) : Option Prog :=
  let vs := (variants s m i).map fun b => readContainer (b.getD [])
  match vs.findIdx? (fun c => c.eligible failed) with
  | some v => some { index := i, variant := v, c := vs.getD v {} }
  | none => none
/-- The programs selected at this position with their variants, or `none` where one has no eligible variant. -/
def pickAll (s : State) (m : Manifest) (failed : Nat) : Option (List Prog) :=
  let ps := (m.selected s.pwr.straps.pos.toNat).map (pickVariant s m failed)
  if ps.all (·.isSome) then some (ps.filterMap id) else none

/-- A region as a range. -/
def Region.range (r : Region) : Nat × Nat := (r.base, r.len)
/-- Two regions may stand beside each other in two programs. -/
def regionsApart (x y : Region) : Bool := (!x.write && !y.write) || apart x.range y.range
/-- A region keeps off the context blocks, the inbox and the outbox, but for what R281 lets it do. -/
def Manifest.clear (m : Manifest) (r : Region) : Bool :=
  (apart r.range (m.context, 64 * m.progs.length) || !r.write) && (apart r.range (m.inbox, 64 * m.nelem) || !r.write) &&
  (apart r.range (m.outbox, 64 * m.nelem) || !r.read)
/-- The device windows that a region of a program may write, by number (Table 11-1). -/
def Container.windows (c : Container) : List Nat :=
  (List.range 3).filter fun w => c.regions.any fun r =>
    r.write && !(apart r.range ([(0x400000000, 0x1000), (0x400010000, 0x10000), (0x400020000, 64)].getD w (0, 0)))
/-- Two programs of one position keep R281. -/
def progsApart (x y : Prog) : Bool :=
  x.c.lists.all (fun l => y.c.lists.all fun k => l.core != k.core) &&
  x.c.flags.all (fun f => y.c.flags.all fun g => f.1 != g.1) &&
  x.c.queues.all (fun f => y.c.queues.all fun g => f.id != g.id) &&
  x.c.regions.all (fun f => y.c.regions.all (regionsApart f)) && x.c.windows.all (fun w => !y.c.windows.contains w)
/-- The programs of one position keep R281 and the depths of R287. -/
def progsOk (m : Manifest) (ps : List Prog) : Bool :=
  pairwise progsApart ps &&
  ps.all (fun p => p.c.flags.all (fun f => f.1 % 256 != m.preload) && pairwise (fun f g : Nat × Bool => f.1 != g.1) p.c.flags &&
    pairwise (fun f g : QDecl => f.id != g.id) p.c.queues && p.c.regions.all m.clear) &&
  (List.range 64).all fun q =>
    decide (((ps.flatMap fun p => p.c.queues.filter fun x => x.id / 16 == q).map fun x => depthOf x.cls).sum ≤ 1024) &&
    decide (((ps.flatMap fun p => p.c.lists.filter fun l => l.core / 4 == q).map fun l => l.descs.length).sum ≤ 4096)

end Sys2Proof.Machine
end

