-- ==== Sys2Proof/Machine/PairOps.lean ====
section
/-! DEFINITION. Machine/PairOps.lean: the pair's states, what the loss of the partner brings about, and what the failure of a
lane brings about (R23, R111, R119, R127, R128, R134, R135). -/

namespace Sys2Proof.Machine

/-! ## Pair states (R23, R127) -/

/-- A pair state as the health report gives it (Table 05-10). -/
def pairCode : PairState → Nat
  | .absent => 0
  | .attached => 1
  | .detached => 2
  | .syncing => 3
  | .lone => 4

/-- The pair state changed, with PARTNER_STATE, or LONE_CHECK for its entry; vector 0 where attachment changes. -/
def setPair (st : PairState) (s : State) : State :=
  if s.pair.state == st then s else
  let was := attached s
  let s := s.onPair fun p => { p with state := st }
  let s := if st == .lone then event 0x0507 2 [] 0 0 s
    else event 0x0506 (if st == .attached then 1 else 2) [pairCode st] 0 0 s
  if was == attached s then s else msix 0 s

/-- The re-synchronisation that this board streams ends as failed (R134). -/
def endSync (s : State) : State :=
  let j := s.pair.syncSeq
  if j == 0 then s else finish0 j 0xE3 (s.onPair fun p => { p with syncSeq := 0 })

/-- What the acting Lead completes for a lost partner (R224, R391): a below-floor lease with ENDED_RESET, what else names
the partner with PARTNER_LOST; a switch-back that the partner has not taken up ends so too. A TENTATIVE entry is not
accepted: it is FREE again, with its FAULT, when its mirror fails (Table 04-11). -/
def lostEntry (e : JEntry) (s : State) : State :=
  let op := e.op.toNat
  if e.state == .done || e.state == .tentative || ownSeq ≤ e.jseq then s
  else if op == 0x0600 then
    finish0 e.jseq (if fld e.body 0 8 == s.otp.serial.toNat then 0 else 0xE4) s
  else match brdOf op e.body with
    | some b => if namesMe b s then s else finish0 e.jseq (if op == 0x0301 then 0x0903 else 0xE4) s
    | none => s

/-- A TEN image that waits for the partner is applied. -/
def takeTen (s : State) : State :=
  match s.pair.tenWait with
  | some i => afterTen (applyTen i (s.onPair fun p => { p with tenWait := none, ackWait := none }))
  | none => s

/-- The partner is lost to this board: the state it takes, and at the acting Lead the end of the stream, the entries that
name the partner, and a TEN change that goes ahead (R23, R128). In LONE_CHECK TEN is held. -/
def losePartner (st : PairState) (s : State) : State :=
  let s := (endSync (setPair st s)).onPair fun p => { p with switch := 0 }
  if !s.pair.lead || st == .lone then s
  else takeTen (s.jr.entries.foldl (fun s e => lostEntry e s) s)

/-! ## Lanes (R111, R119, R125, R135) -/

/-- A lane marked down. -/
def dropLane (n : Nat) (s : State) : State :=
  let now := s.now
  if (laneOf s n).up then
    onLane n (fun l => { l with up := false, downs := l.downs + 1, downAt := now, echo := false }) s
  else s
/-- What the failure of a pair lane means to the pair: a stream fails, and with both lanes down the partner is detached. -/
def pairLaneLost (s : State) : State :=
  if s.pair.state == .syncing then losePartner .detached s
  else if attached s && !pairUp s then losePartner .detached s
  else s

/-- Both bypasses engaged: the Spine lanes are down. -/
def engage (s : State) : State :=
  (dropLane 1 (dropLane 0 s)).onSpn fun p => { p with insert := .out, insertAt := none }
/-- Insertion to be retried: after 1 s, then every 10 s. -/
def retryLater (s : State) : State := s.onSpn fun p => { p with
  retryAt := some (s.now + if p.retries == 0 then 1000000 else 10000000), retries := p.retries + 1 }

/-- A cut recorded. -/
def addCut (addr : Nat) (west : Bool) (s : State) : State :=
  s.onSpn fun p => { p with cuts := if p.cuts.contains (addr, west) then p.cuts else p.cuts ++ [(addr, west)] }

/-- The lane check passes: no lane down, and CRC failures under 1 per 10^12 bits over the last hour. -/
def lanesGood (s : State) : Bool :=
  (List.range 4).all fun n => (laneOf s n).up &&
    decide (((laneOf s n).crcAt.filter fun t => decide (s.now < t + 3600000000)).length < 38)
/-- The lane check, which runs at every event of a lane. A failure is reported once, with the test's number (log 146). -/
def laneTest (s : State) : State :=
  if !attached s || s.pair.lead then s
  else
    let ok := lanesGood s
    let was := s.pair.failedT.contains 3
    let s := testResult 3 ok s
    if ok || was then s else event 0x050B 2 [3] 0 0 s

/-- LANE_DOWN: at a Spine lane BREAK is sent and the bypasses engage, with insertion to be tried again. -/
def doLaneDown (n : Nat) (s : State) : State :=
  if !running s || !(laneOf s n).up then s
  else if n < 2 then
    let s := event 0x0502 2 [n] 0 0 (dropLane n s)
    let s := if inserted s then sendSpine 0xFF (.break_ (nodeAddr s) (n == 1)) s else s
    laneTest (retryLater (engage (addCut (nodeAddr s) (n == 1) s)))
  else laneTest (pairLaneLost (event 0x0502 2 [n] 0 0 (dropLane n s)))

end Sys2Proof.Machine
end

