-- ==== Sys2Proof/Machine/Spine.lean ====
section
/-! DEFINITION. Machine/Spine.lean: the Spine node (chapter 05): frames received and forwarded, ring formation, the row
timebase, row traffic, relayed records and the bypass sequence. -/

namespace Sys2Proof.Machine

/-! ## Formation figures (R116, R117) -/

/-- This node's census entry as FORM carries it (R116). -/
def myEntry (s : State) : FormEntry :=
  { serial := s.otp.serial, pos := s.pwr.straps.pos, brd := brd s, masterSel := s.pwr.straps.masterSel,
    lead := s.pair.lead, partner := if s.pair.heard then s.kt.partner.getD 0 else 0,
    partnerMaster := s.kt.partnerMaster }
/-- The census with this node's own entry. -/
def censusAll (s : State) : List FormEntry :=
  myEntry s :: ((s.spn.census.filter fun p => p.1 != s.otp.serial.toNat).map fun p => p.2.entry)
/-- The node address of a census entry. -/
def entryAddr (e : FormEntry) : Nat := addrOf e.pos e.brd
/-- A position has an acting Lead in the census: it is on this node's arc (R125). -/
def onArc (s : State) (pos : Nat) : Bool := s.spn.census.any fun p => p.2.entry.pos.toNat == pos && p.2.entry.lead
/-- The broker takes up the census (R118, R125): a position that has left the arc is counted no more. -/
def pruneBroker (s : State) : State := s.onLv fun l => { l with
  demands := l.demands.filter fun p => onArc s p.1, shares := l.shares.filter fun p => onArc s p.1 }
/-- The master positions that a list of entries shows. PARTNER_MASTER counts on a formed ring alone (R117). -/
def masterPositions (formed : Bool) (es : List FormEntry) : List Nat :=
  (es.filterMap fun e =>
    if e.masterSel || (formed && e.partnerMaster && e.lead) then some e.pos.toNat else none).eraseDups
/-- The first of checks 1 to 5 of R117 that fails, 0 where all pass. -/
def censusCheck (formed : Bool) (es : List FormEntry) : Nat :=
  let one := (masterPositions formed es).length == 1 && (es.filter (·.masterSel)).length ≤ 1
  let two := es.all fun e => (es.filter fun g => g.pos == e.pos).length ≤ 2
  let three := es.all fun e => es.all fun g =>
    e.serial == g.serial || e.pos != g.pos || (e.partner == g.serial && g.partner == e.serial)
  let four := es.all fun e => es.all fun g => !(e.partner == g.serial && g.partner == e.serial) || e.pos == g.pos
  let five := es.all fun e => e.iflevel.toNat / 256 == 1
  if !one then 1 else if !two then 2 else if !three then 3 else if !four then 4 else if !five then 5 else 0
/-- This board's position is the master position of its ring. -/
def atMaster (s : State) : Bool :=
  (masterPositions s.spn.formed (censusAll s)).contains s.pwr.straps.pos.toNat ||
  (s.spn.formed && s.kt.partnerMaster)
/-- This board runs the master function (R17, R117). -/
def isMaster (s : State) : Bool := acting s && s.spn.formed && !s.spn.offArc && atMaster s
/-- The census has changed: it must settle again. -/
def censusChanged (s : State) : State := s.onSpn fun p => { p with changedAt := s.now, settled := false }

/-! ## Frames received (R112, R114) -/

/-- A frame is addressed to this node: its own address, or 0xFE while it runs the master function. -/
def forMeAlone (s : State) (dst : BitVec 8) : Bool := dst.toNat == nodeAddr s || (dst == 0xFE && isMaster s)
/-- The FSEQ of a frame has been received on its link. -/
def seenBefore (s : State) (f : FrameHdr) : Bool :=
  (s.spn.seen.get [] (256 * (f.lane.val / 2) + f.src.toNat)).contains f.fseq.toNat
/-- The FSEQ of a frame noted among the latest 256 of its origin and link (log 23). -/
def noteSeen (f : FrameHdr) (s : State) : State :=
  s.onSpn fun p => { p with seen := p.seen.mod [] (256 * (f.lane.val / 2) + f.src.toNat) fun l => (f.fseq.toNat :: l).take 256 }
/-- The frames that a frame row stands for: every frame of its payload, but one of a BULK stream. -/
def rxFrames : Payload → Nat
  | .bulk _ => 1
  | p => p.frames
/-- A Spine frame forwarded on the other port. -/
def forwardFrame (f : FrameHdr) (p : Payload) (s : State) : State :=
  let out : Fin 4 := if f.lane == 0 then 1 else 0
  if forMeAlone s f.dst || decide (31 ≤ f.hops.toNat) || !(laneOf s out).up then s
  else count (0x2D6 + 8 * out.val)
    (laneSent out (rxFrames p) p.urgent (emit (.forward out { f with lane := out, hops := f.hops + 1 } p) s))
/-- A frame that fails its CRC, or its reserved bits (R111, R112): counted, and the 17th within 1 ms takes the lane down. -/
def badFrame (n : Nat) (s : State) : State :=
  let now := s.now
  let s := count (0x2D2 + 8 * n) (onLane n (fun l => { l with
    crc := l.crc + 1, crcAt := (now :: l.crcAt).filter fun t => decide (now < t + 3600000000) }) s)
  if 17 ≤ ((laneOf s n).crcAt.filter fun t => decide (now < t + 1000)).length then doLaneDown n s else laneTest s
/-- A FORM frame of another node that carries this node's address: the two break R14, which the census must show. -/
def sameAddress (p : Payload) (s : State) : Bool :=
  match p with
  | .form e => e.serial != s.otp.serial
  | _ => false
/-- A frame at a lane: dropped and counted where it is unsound, else counted and forwarded, and whether it is for this
node. `p` is the payload it is forwarded with. -/
def rxCheck (f : FrameHdr) (p : Payload) (s : State) : Bool × State :=
  if !running s || !(laneOf s f.lane).up then (false, s)
  else if !f.sound then (false, badFrame f.lane s)
  else
    let s := countN (0x2D1 + 8 * f.lane.val) (rxFrames p) (onLane f.lane (fun l => { l with recvd := l.recvd + rxFrames p }) s)
    if 2 ≤ f.lane.val then (true, s)
    else if f.src.toNat == nodeAddr s then (sameAddress p s, s)
    else (forMeAlone s f.dst || f.dst == 0xFF, forwardFrame f p s)
/-- A frame received: of its copies the first alone is passed up. -/
def rxFrame (f : FrameHdr) (p : Payload) (mine : State → State) (s : State) : State :=
  let r := rxCheck f p s
  if !r.1 || seenBefore r.2 f then r.2 else mine (noteSeen f r.2)

/-! ## Ring formation (R116 to R118) -/

/-- FORM_SEND: every 1 ms. -/
def doFormSend (s : State) : State :=
  if !inserted s then s else
  let s := reach (s.spn.formAt + 1000) s
  let s := sendSpine 0xFF (.form (myEntry s)) s
  let e := myEntry s
  let old := s.spn.census.find s.otp.serial.toNat
  let s := s.onSpn fun p => { p with
    formAt := s.now, census := p.census.set s.otp.serial.toNat { old.getD {} with entry := e, at_ := s.now } }
  if old.any (fun c => c.entry == e) then s else censusChanged s

/-- FORM_SEND. -/
def execFormSend (s : State) : Host.Outcome State Fault Refusal := .next (doFormSend s)

/-- A FORM entry taken into the census, which has one per serial, so that two nodes of one address both show in it (R14). On
a formed ring a new node that would fail a check is left out (R118). A node that is new in the census has its ports up again:
a cut recorded at them is over (log 64). -/
def takeForm (e : FormEntry) (s : State) : State :=
  let old := s.spn.census.find e.serial.toNat
  if s.spn.formed && old.isNone && censusCheck true (e :: censusAll s) != 0 then s
  else
    let now := s.now
    let s := s.onSpn fun p => { p with
      census := p.census.set e.serial.toNat { old.getD {} with entry := e, at_ := now },
      cuts := if old.isSome then p.cuts else p.cuts.filter (·.1 != entryAddr e),
      away := if old.isSome then p.away else p.away.filter (· != e.serial) }
    if old.any (fun c => c.entry == e) then s else pruneBroker (censusChanged s)

/-- FORM_FRAME. -/
def doFormFrame (f : FrameHdr) (e : FormEntry) (s : State) : State := rxFrame f (.form e) (takeForm e) s

/-- FORM_FRAME. -/
def execFormFrame (f : FrameHdr) (e : FormEntry) (s : State) : Host.Outcome State Fault Refusal := .next (doFormFrame f e s)

/-- CENSUS_ENTRY_SILENT: another node's entry silent for 10 ms. It is noted as away while a cut is recorded, unless it is a
node that reported one (log 64). -/
def doCensusEntrySilent (serial : DWord) (s : State) : State :=
  match s.spn.census.find serial.toNat with
  | some c =>
    if serial == s.otp.serial || !running s then s
    else
      let s := (reach (c.at_ + 10000) s).onSpn fun p => { p with
        census := p.census.erase serial.toNat,
        away := if p.cuts.isEmpty || p.cuts.any (·.1 == entryAddr c.entry) then p.away
                else p.away.filter (· != serial) ++ [serial] }
      pruneBroker (censusChanged s)
  | none => s

/-- CENSUS_ENTRY_SILENT. -/
def execCensusEntrySilent (serial : DWord) (s : State) : Host.Outcome State Fault Refusal := .next (doCensusEntrySilent serial s)

/-- A census as bytes, for its digest. -/
def censusBytes (s : State) : Bytes := (censusAll s).flatMap fun e => leBytes 8 e.serial.toNat

/-- This node on a formed ring under a census generation, whose first row tick ends the local cycle (R117). The broker sends
fresh shares under it, since each node keeps the 80 % figure until its first (R121, R146). -/
def joinRing (gen first master : Nat) (s : State) : State :=
  let now := s.now
  let s := s.onSpn fun p => { p with
    formed := true, gen := gen, cause := 0, firstTick := some first, master := some master, timeAt := now }
  event 0x0500 1 [gen] 0 0 (s.onLv fun l => { l with shares := [] })

/-- The acting Lead of the master position declares the ring formed. -/
def declareRing (s : State) : State :=
  let gen := (s.spn.gen + 1) % 2 ^ 32
  let first := (rowTime s + 20000000 + 9999999) / 10000000
  let s := joinRing gen first (nodeAddr s) s
  sendSpine 0xFF (.formed gen (Config.censusDigest (censusBytes s)) first) s

/-- CENSUS_SETTLED: unchanged for 100 ms. A failed check at formation reports RING_REFUSED at every node; a node that
arrives on a formed ring and fails is a node of no formed ring, and reports it too (R118). -/
def doCensusSettled (s : State) : State :=
  if !inserted s || s.spn.settled then s else
  let s := (reach (s.spn.changedAt + 100000) s).onSpn fun p => { p with settled := true }
  let bad := censusCheck s.spn.formed (censusAll s)
  if bad != 0 then
    if s.spn.formed then s
    else event 0x0501 2 [bad] 0 0 (s.onSpn fun p => { p with cause := bad })
  else
    let s := s.onSpn fun p => { p with cause := 0 }
    if acting s && !s.spn.offArc && atMaster s then declareRing s else s

/-- CENSUS_SETTLED. -/
def execCensusSettled (s : State) : Host.Outcome State Fault Refusal := .next (doCensusSettled s)

/-- FORMED_FRAME: a node whose own checks pass joins under the new generation. -/
def doFormedFrame (f : FrameHdr) (gen digest : Word) (first : DWord) (s : State) : State :=
  rxFrame f (.formed gen.toNat digest first.toNat) (fun s =>
    if censusCheck (s.spn.formed || gen.toNat != 0) (censusAll s) != 0 || (s.spn.formed && s.spn.gen == gen.toNat) then s
    else joinRing gen.toNat first.toNat f.src.toNat s) s

/-- FORMED_FRAME. -/
def execFormedFrame (f : FrameHdr) (gen : Word) (digest : Word) (firstTick : DWord) (s : State) :
    Host.Outcome State Fault Refusal := .next (doFormedFrame f gen digest firstTick s)

/-! ## Row timebase (R120, R121) -/

/-- TIME_SEND: every 1 ms, by the acting master. -/
def doTimeSend (s : State) : State :=
  if !isMaster s || !inserted s then s else
  let s := reach (s.spn.timeSent + 1000) s
  let s := s.onSpn fun p => { p with timeSent := s.now, master := some (nodeAddr s) }
  sendSpine 0xFF (.time { rowTime := BitVec.ofNat 64 (rowTime s), corr := 0, tick := BitVec.ofNat 64 (rowTick s),
                          epochTick := BitVec.ofNat 64 s.spn.epochTick, gen := BitVec.ofNat 32 s.spn.gen,
                          serial := s.otp.serial }) s

/-- TIME_SEND. -/
def execTimeSend (s : State) : Host.Outcome State Fault Refusal := .next (doTimeSend s)

/-- A TIME frame taken: row time from the copy with fewer hops, the master, and the next epoch tick, which a pending
epoch notes (R285). A gap of more than
5 ms starts the 1 s of R121 again. -/
def takeTime (f : FrameHdr) (p : TimePayload) (fresh : Bool) (s : State) : State :=
  if !s.spn.formed || (!fresh && decide (s.spn.timeHops ≤ f.hops.toNat)) then s
  else
    let rt := p.rowTime.toNat + p.corr.toNat + (laneOf s f.lane).delay
    let s := if p.epochTick == 0 then s else
      s.onEp fun x => { x with pend := x.pend.map fun q => { q with named := some p.epochTick.toNat } }
    s.onSpn fun x => { x with
      rowOff := (rt : Int) - (s.now * 1000 : Nat), timeHops := f.hops.toNat, master := some f.src.toNat,
      timeFrom := if x.timeAt + 5000 < s.now then some s.now else some (x.timeFrom.getD s.now), timeAt := s.now,
      epochTick := p.epochTick.toNat }

/-- TIME_FRAME: forwarded with its residence time and the delay of the link it came by added to CORR. -/
def doTimeFrame (f : FrameHdr) (p : TimePayload) (s : State) : State :=
  let (n, s) := draw s
  let out := { p with corr := p.corr + BitVec.ofNat 32 ((laneOf s f.lane).delay + Config.residence n) }
  let r := rxCheck f (.time out) s
  let fresh := !seenBefore r.2 f
  if !r.1 || isMaster r.2 then r.2 else takeTime f p fresh (if fresh then noteSeen f r.2 else r.2)

/-- TIME_FRAME. -/
def execTimeFrame (f : FrameHdr) (p : TimePayload) (s : State) : Host.Outcome State Fault Refusal := .next (doTimeFrame f p s)

/-- TIME_TIMEOUT (R121): no TIME for 5 ms. The fallback is taken up at the next cycle tick. -/
def doTimeTimeout (s : State) : State :=
  if !running s || !s.spn.formed || s.spn.offArc || isMaster s then s
  else event 0x0504 3 [] 0 0 ((reach (s.spn.timeAt + 5000) s).onSpn fun p => { p with offArc := true, rejoin := false, timeFrom := none })

/-- TIME_TIMEOUT. -/
def execTimeTimeout (s : State) : Host.Outcome State Fault Refusal := .next (doTimeTimeout s)

/-- ARC_REJOIN (R121): TIME for 1 s without a gap, the latest no more than 5 ms ago. The next row tick ends the local cycle. -/
def doArcRejoin (s : State) : State :=
  if !running s || !s.spn.formed || !s.spn.offArc then s
  else match s.spn.timeFrom with
  | none => s
  | some t =>
    let s' := reach (t + 1000000) s
    if s.spn.timeAt + 5000 < s'.now then s
    else s'.onSpn fun p => { p with offArc := false, rejoin := true, firstTick := some (rowTick s' + 1) }

/-- ARC_REJOIN. -/
def execArcRejoin (s : State) : Host.Outcome State Fault Refusal := .next (doArcRejoin s)

/-- A lane takes ECHO frames: it is up, or holds block lock to come up again (R111). -/
def echoLane (s : State) (n : Nat) : Bool := running s && s.spn.lref && ((laneOf s n).up || decide (2 ≤ n) || s.spn.insert != .out)
/-- ECHO_MEASURE (R120): every 100 ms per port; on a lane that is down, the exchange that brings it up (R111). -/
def doEchoMeasure (n : Nat) (s : State) : State :=
  if !echoLane s n then s else
  let s := if (laneOf s n).up then reach ((laneOf s n).echoAt + 100000) s else s
  let now := s.now
  let s := onLane n (fun l => { l with echoAt := now }) s
  let k := ((if n < 2 then s.spn.fseq else s.spn.pseq) + 1) % 2 ^ 32
  laneCount n 1 true (emit (.echo n k) (s.onSpn fun x => if n < 2 then { x with fseq := k } else { x with pseq := k }))

/-- ECHO_MEASURE. -/
def execEchoMeasure (lane : Fin 4) (s : State) : Host.Outcome State Fault Refusal := .next (doEchoMeasure lane s)

/-- ECHO_FRAME (R120): this node's own ECHO returned gives the lane's delay, half the round trip of `rtt` ns; another's
is returned on the lane it came by. -/
def doEchoFrame (f : FrameHdr) (rtt : Nat) (s : State) : State :=
  if !echoLane s f.lane then s
  else if !f.sound then (rxCheck f .echo s).2
  else
    let s := count (0x2D1 + 8 * f.lane.val) (onLane f.lane (fun l => { l with recvd := l.recvd + 1 }) s)
    if f.src.toNat == nodeAddr s then onLane f.lane (fun l => { l with delay := rtt / 2, echo := true }) s
    else laneCount f.lane 1 true (emit (.forward f.lane f .echo) s)

/-- ECHO_FRAME. -/
def execEchoFrame (f : FrameHdr) (rtt : Nat) (s : State) : Host.Outcome State Fault Refusal := .next (doEchoFrame f rtt s)

/-! ## Row traffic (R123, R124, R125, R161) -/

/-- The folio of the latest trip cause, 0 where none is latched. -/
def lastTripRef (s : State) : Nat := s.ket.refs.foldl (fun m p => max m p.2) 0
/-- The latched leak inputs LK0 to LK31. -/
def latchedLeaks (s : State) : Nat := maskOf ((List.range 32).filter fun n => (leakOf s n).latch)

/-- TRIP_MIRROR_SEND (R124): at a change of the trip image, else every 100 ms. -/
def doTripMirrorSend (s : State) : State :=
  if !acting s || !inserted s then s else
  let s := if s.ket.trip == s.spn.tripSent then reach (s.spn.tripAt + 100000) s else s
  let s := s.onSpn fun p => { p with tripAt := s.now, tripSent := s.ket.trip }
  sendSpine 0xFF (.trip s.ket.trip (BitVec.ofNat 32 (latchedLeaks s)) (lastTripRef s)) s

/-- TRIP_MIRROR_SEND. -/
def execTripMirrorSend (s : State) : Host.Outcome State Fault Refusal := .next (doTripMirrorSend s)

/-- TRIP_FRAME (R124): the origin's trip state in the health report and in an event; nothing changes here. -/
def doTripFrame (f : FrameHdr) (trips : Half) (leaks folio : Word) (s : State) : State :=
  rxFrame f (.trip trips leaks folio.toNat) (fun s =>
    event 0x0511 2 [f.src.toNat, trips.toNat, leaks.toNat, folio.toNat] 0 0 (s.onSpn fun p => { p with
      census := p.census.map fun c => if entryAddr c.2.entry == f.src.toNat then (c.1, { c.2 with trips := trips }) else c })) s

/-- TRIP_FRAME. -/
def execTripFrame (f : FrameHdr) (trips : Half) (leaks : Word) (folio : Word) (s : State) :
    Host.Outcome State Fault Refusal := .next (doTripFrame f trips leaks folio s)

/-- BREAK_FRAME (R125). -/
def doBreakFrame (f : FrameHdr) (addr : Nat) (west : Bool) (s : State) : State :=
  rxFrame f (.break_ addr west) (addCut addr west) s

/-- BREAK_FRAME. -/
def execBreakFrame (f : FrameHdr) (addr : Fin 32) (west : Bool) (s : State) : Host.Outcome State Fault Refusal :=
  .next (doBreakFrame f addr west s)

/-- A demand entered in the broker's state, which the partner holds too (R17, R128). -/
def enterDemand (d : Demand) (s : State) : State :=
  let now := s.now
  let s := s.onLv fun l => { l with demands := l.demands.set d.pos.toNat (now, d) }
  if attached s || s.pair.state == .syncing then sendPair (.lease (.demand d.pos.toNat now d)) s else s
/-- DEMAND_FRAME (R161): a position's demand summary at the acting master. -/
def doDemandFrame (f : FrameHdr) (d : Demand) (s : State) : State :=
  rxFrame f (.demand d) (fun s => if isMaster s && onArc s d.pos.toNat then enterDemand d s else s) s

/-- DEMAND_FRAME. -/
def execDemandFrame (f : FrameHdr) (d : Demand) (s : State) : Host.Outcome State Fault Refusal := .next (doDemandFrame f d s)

/-! ## Relayed records (R123) -/

/-- A command sent over RELAY: its catchword marks the response as this board's. -/
def relayCommand (pair : Bool) (dst : Nat) (cw : DWord) (bytes : Bytes) (s : State) : State :=
  let s := s.onSpn fun p => { p with asked := (cw :: p.asked).take 64 }
  sendFragments pair dst (fragments (bytes.length + 1) bytes) s

/-- A command record's bytes (Table 04-5), without a token. -/
def recordBytes (op : Nat) (cw : DWord) (body : Bytes) : Bytes :=
  leBytes 2 op ++ zeros 2 ++ leBytes 4 (32 + body.length) ++ leBytes 8 cw.toNat ++ zeros 16 ++ body

/-- An FSEQ comes after another, modulo 2^32. -/
def seqAfter (a b : Nat) : Bool := decide (0 < (a + 2 ^ 32 - b) % 2 ^ 32) && decide ((a + 2 ^ 32 - b) % 2 ^ 32 < 2 ^ 31)

/-- A RELAY_ACK to the origin of a key of 256 × link + SRC. -/
def sendAck (key : Nat) (s : State) : State :=
  let k := s.spn.relayRx.get 0 key
  if 256 ≤ key then sendPair (.relayAck k) s else sendSpine (key % 256) (.relayAck k) s

/-- RELAY_ACK_SEND: every 100 µs while fragments arrive. -/
def doRelayAckSend (s : State) : State :=
  if s.spn.relayAck.isEmpty || !running s then s else
  let s := reach (s.spn.relayAckAt + 100) s
  let keys := s.spn.relayAck
  keys.foldl (fun s k => sendAck k s) (s.onSpn fun p => { p with relayAck := [], relayAckAt := s.now })

/-- RELAY_ACK_SEND. -/
def execRelayAckSend (s : State) : Host.Outcome State Fault Refusal := .next (doRelayAckSend s)

/-- One fragment sent again with its FSEQ. -/
def resendFragment (x : RelayTx) (s : State) : State :=
  let up := if x.pair then pairUp s else inserted s
  if !up then s else
  let s := emit (.frame x.pair (nodeAddr s) x.dst (s.spn.gen % 256) x.fseq (.relay x.last x.data)) s
  if x.pair then bulkSent 1 s else laneSent 1 1 false (laneSent 0 1 false s)

/-- RELAY_RESEND: the oldest fragment is not acknowledged within 200 µs; it goes again with those after it to the same
node. -/
def doRelayResend (s : State) : State :=
  match s.spn.relayTx with
  | [] => s
  | x :: _ =>
    if !running s then s else
    let s := reach (x.at_ + 200) s
    let same := fun (y : RelayTx) => y.pair == x.pair && y.dst == x.dst
    let s := (s.spn.relayTx.filter same).foldl (fun s y => resendFragment y s) s
    s.onSpn fun p => { p with relayTx := p.relayTx.map fun y => if same y then { y with at_ := s.now } else y }

/-- RELAY_RESEND. -/
def execRelayResend (s : State) : Host.Outcome State Fault Refusal := .next (doRelayResend s)

/-- A fragment at its receiver. Within a record the FSEQ run on without a gap; a fragment out of order, or the last of a
record while the mailbox still holds one, is left to the resend. The answer is the complete record. -/
def takeFragment (f : FrameHdr) (data : Bytes) (s : State) : Option Bytes × State :=
  let key := 256 * (f.lane.val / 2) + f.src.toNat
  let buf := s.spn.relayBuf.get [] key
  let old := s.spn.relayRx.find key
  let now := s.now
  let ack := fun (s : State) => s.onSpn fun p => { p with
    relayAck := if p.relayAck.contains key then p.relayAck else p.relayAck ++ [key],
    relayAckAt := if p.relayAck.isEmpty then now else p.relayAckAt }
  let next := match old with
    | none => true
    | some o => if buf.isEmpty then seqAfter f.fseq.toNat o else f.fseq.toNat == (o + 1) % 2 ^ 32
  let box := if 2 ≤ f.lane.val then 4 else 5
  let all := buf ++ data
  let mine := s.spn.asked.contains (BitVec.ofNat 64 (fld all 8 8))
  if !next then (none, if old.any (fun o => !seqAfter f.fseq.toNat o) then ack s else s)
  else if f.last && !mine && (mbxOf s box).busy then (none, s)
  else
    let s := ack (s.onSpn fun p => { p with
      relayRx := p.relayRx.set key f.fseq.toNat, relayBuf := p.relayBuf.set key (if f.last then [] else all) })
    (if f.last then some all else none, s)

/-! ## Bypasses and insertion (R119, Table 05-4) -/

/-- The east bypass released: the lane has 10 ms to come up. -/
def beginInsert (s : State) : State :=
  s.onSpn fun p => { p with insert := .east, insertAt := some (s.now + 10000), retryAt := none }
/-- BYPASS_INSERT: step 3 of R79, with LREFCLK good. -/
def doBypassInsert (s : State) : State :=
  if running s && s.spn.lref && s.spn.insert == .out && s.spn.retryAt.isNone then beginInsert s else s

/-- BYPASS_INSERT. -/
def execBypassInsert (s : State) : Host.Outcome State Fault Refusal := .next (doBypassInsert s)

/-- PORT_INSERT_TIMEOUT: a lane not up 10 ms after its release. -/
def doPortInsertTimeout (s : State) : State :=
  match s.spn.insertAt with
  | some t =>
    let side := if s.spn.insert == .west then 1 else 0
    event 0x0502 2 [side] 0 0 (retryLater (engage (reach t s)))
  | none => s

/-- PORT_INSERT_TIMEOUT. -/
def execPortInsertTimeout (s : State) : Host.Outcome State Fault Refusal := .next (doPortInsertTimeout s)

/-- PORT_INSERT_RETRY. -/
def doPortInsertRetry (s : State) : State :=
  match s.spn.retryAt with
  | some t => if running s && s.spn.lref then beginInsert (reach t s) else s
  | none => s

/-- PORT_INSERT_RETRY. -/
def execPortInsertRetry (s : State) : Host.Outcome State Fault Refusal := .next (doPortInsertRetry s)

/-- LREFCLK_GOOD: good for 10 ms. -/
def doLrefclkGood (s : State) : State :=
  if s.spn.lref then s
  else
    let s := s.onSpn fun p => { p with lref := true }
    if running s && s.spn.insert == .out then beginInsert s else s

/-- LREFCLK_GOOD. -/
def execLrefclkGood (s : State) : Host.Outcome State Fault Refusal := .next (doLrefclkGood s)

end Sys2Proof.Machine
end

