-- ==== Sys2Proof/Machine/Epoch.lean ====
section
/-! DEFINITION. Machine/Epoch.lean: the configuration epoch and the model (chapters 11 to 13): faults of programs and what
follows them, checkpoints, CONFIG_EPOCH_SET, SPILL_CONFIG and MODEL_LOAD, the change at a tick, and the boundary
exchange. -/

namespace Sys2Proof.Machine

/-! ## Programs and cores -/

/-- This board's position. -/
def posOf (s : State) : Nat := s.pwr.straps.pos.toNat
/-- A core changed. -/
def onCore (k : Nat) (f : Core → Core) (s : State) : State := s.onQre fun x => { x with cores := x.cores.mod {} k f }
/-- A program changed. -/
def onProg (i : Nat) (f : Prog → Prog) (s : State) : State :=
  s.onQre fun x => { x with progs := x.progs.map fun p => if p.index == i then f p else p }
/-- The cores of a program. -/
def Prog.cores (p : Prog) : List Nat := p.c.lists.map (·.core)
/-- Every core of a program stopped (R291). -/
def stopCores (p : Prog) (s : State) : State :=
  p.cores.foldl (fun s k => onCore k (fun c => { c with st := .stopped, waited := false, moved := 0, stalled := false }) s) s
/-- Every core of a program started at the first descriptor of its list. -/
def startCores (p : Prog) (s : State) : State := p.cores.foldl (fun s k => onCore k (fun _ => { st := .running }) s) s
/-- The present manifest. -/
def manOf (s : State) : Manifest := match s.ep.cur with | some e => e.man | none => {}
/-- The configuration epoch in force, 0 where none is. -/
def cfgEpoch (s : State) : Nat := match s.ep.cur with | some e => e.num | none => 0
/-- The epoch whose preparation has ended (R285). -/
def epochReady (s : State) : Nat := match s.ep.pend with | some p => if p.ready then p.ref.num else 0 | none => 0
/-- The slice of a store address, or 64 + channel for LPDDR5X (Table 12-3). -/
def sliceOf (a : Nat) : Nat := if isSpill a then 64 + a / 4096 % 2 else a / 2 ^ 25

/-! ## Faults (R291, R292, R298, R299) -/

/-- A quire fault: cause, operand, resource and address (Tables 12-3 and 12-4). -/
structure QFault where
  cause : Nat
  opnd  : Nat := 0
  res   : Nat := 0
  addr  : Nat := 0
  deriving DecidableEq, Repr

/-- The acting Lead borrows from an attached partner with SELF_TEST_OK (R298). -/
def canBorrow (s : State) : Bool := acting s && attached s && s.pair.hb.selfTest
/-- Borrowing begins; it is reported with the first borrowed results. -/
def beginBorrow (s : State) : State := if canBorrow s then s.onEp fun x => { x with borrow := true } else s
/-- Borrowing ends. -/
def endBorrow (s : State) : State :=
  if !s.ep.borrow then s else
  let was := s.ep.borrowed
  let s := s.onEp fun x => { x with borrow := false, borrowed := false }
  if was then event 0x0C03 2 [0] 0 0 s else s

/-- A class H fault of a quire: after the third within 1 h the quire is failed (R299). The board borrows where it can. -/
def faultH (q : Nat) (s : State) : State :=
  let ts := ((s.qre.hfaults.get [] q).filter fun t => decide (s.now < t + 3600000000)) ++ [s.now]
  let s := beginBorrow (s.onQre fun x => { x with hfaults := x.hfaults.set q ts })
  if 3 ≤ ts.length && !s.kt.failed.testBit q then
    event 0x0C04 3 [q] 0 0 ((s.onKt fun k => { k with failed := k.failed + 2 ^ q }).onEp fun x => { x with switch := true })
  else s

/-- A quire fault at a core: its report, and the stop of its program. Class H is STORE_ECC and DESC_ECC. -/
def quireFault (q c : Nat) (f : QFault) (s : State) : State :=
  match progOf s (4 * q + c) with
  | none => s
  | some p =>
    let h := f.cause == 6 || f.cause == 7
    let info := h.toNat + 2 * f.opnd + 16 * Bool.toNat p.c.debug
    let s := event 0x0C01 (if h then 3 else 2)
      [q, c, f.cause, info, (coreOf s (4 * q + c)).pc, f.res, f.addr, s.ep.tick % 2 ^ 32, p.index, p.variant] 0 0
      (count 0x256 s)
    let s := onProg p.index (fun p => { p with st := if h then .restoring else .stopped }) (stopCores p s)
    if h then faultH q s else event 0x0C02 3 [p.index, f.cause] 0 0 s

/-! ## Poisoned blocks (R276) -/

/-- A block marked poisoned and reported. -/
def poison (a : Nat) (s : State) : State :=
  let b := a / 64 * 64
  if s.qre.poison.contains b then s else event 0x0B02 3 [b] 0 0 (s.onQre fun x => { x with poison := x.poison ++ [b] })
/-- Single-bit errors of a slice corrected, reported at most once per 1 s per slice. -/
def corrected' (slice n : Nat) (s : State) : State :=
  if n == 0 then s else
  let s := countN (if slice < 64 then 0x200 + slice else 0x248 + slice % 2) n s
  let (k, t) := s.qre.corr.get (0, none) slice
  let due := match t with | some t => decide (t + 1000000 ≤ s.now) | none => true
  let now := s.now
  let s := s.onQre fun x => { x with corr := x.corr.set slice (if due then (0, some now) else (k + n, t)) }
  if due then event 0x0B01 1 [slice, k + n] 0 0 s else s
/-- A range written from the cells of a memory. -/
def writeRange (data : Mem) (r : Nat × Nat) (s : State) : State :=
  heal r.1 (r.1 + r.2) (s.onMem fun m =>
    (data.range r.1 (r.1 + r.2)).foldl (fun m p => m.write p.1 p.2) (m.clearRange r.1 (r.1 + r.2)))
/-- Every poisoned block in the regions of programs zero-filled (R283). -/
def zeroFill (ps : List Prog) (s : State) : State :=
  (s.qre.poison.filter fun b : Nat => ps.any fun p => p.c.regions.any fun r => r.holds (b : Nat) 64).foldl
    (fun s b => binderWrite b (zeros 64) s) s

/-- SCRUB_PASS (R276): a slice read through, 10 min after the pass before; corrections, and the uncorrectable blocks found. -/
def doScrubPass (slice corrections : Nat) (bad : List Nat) (s : State) : State :=
  if s.pwr.store != .on then s
  else
    let s := reach (s.qre.scrub.get s.qre.scrubFrom slice + 600000000) s
    let now := s.now
    let s := s.onQre fun x => { x with scrub := x.scrub.set slice now }
    (bad.filter fun a => a / 2 ^ 25 == slice).foldl (fun s a => poison a s) (corrected' slice corrections s)

/-- SCRUB_PASS. -/
def execScrubPass (slice : Fin 64) (corrections : Nat) (bad : List Nat) (s : State) : Host.Outcome State Fault Refusal :=
  .next (doScrubPass slice corrections bad s)

/-! ## Checkpoints (R306, R307) -/

/-- The newest checkpoint of the current epoch. -/
def newestCkpt (e : EpochRef) (s : State) : Option Ckpt :=
  ((s.cat.ckpt.filterMap id).filter fun c => c.manifest == e.digest && c.epoch == e.num).foldl
    (fun b c => match b with | some x => if x.seq < c.seq then some c else b | none => some c) none
/-- A carried address. -/
def carriedAt (m : Manifest) (a : Nat) : Bool := m.carry.any fun r => decide (r.1 ≤ a) && decide (a < r.1 + r.2)
/-- CHECKPOINT_COPY (R306): every carried region copied. -/
def takeCkpt (e : EpochRef) (s : State) : State :=
  let top := (s.cat.ckpt.filterMap id).foldl (fun m c => max m c.seq) 0
  let c : Ckpt := { seq := top + 1, manifest := e.digest, epoch := e.num, tick := s.ep.tick, row := rowTime s,
                    keep := keepTime s, parts := e.man.carry, data := s.mem.filter fun p => carriedAt e.man p.1 }
  s.onEp fun x => { x with copy := some c, ckDue := false, ckRep := false }
/-- A due checkpoint taken, where nothing hinders it. -/
def tryCkpt (s : State) : State :=
  match s.ep.cur with
  | some e => if s.ep.ckDue && s.ep.done && s.ep.copy.isNone && !s.ep.borrow then takeCkpt e s else s
  | none => s

/-- CHECKPOINT_WRITE_DONE (R306): the copy in the slot that does not hold the highest SEQ; a write that did not work
leaves a slot that fails its CRCs. -/
def doCheckpointWriteDone (ok : Bool) (s : State) : State :=
  match s.ep.copy with
  | none => s
  | some c =>
    (s.onCat fun k => { k with ckpt := k.ckpt.set (oldSlot k.ckpt) (if ok then some c else none) }).onEp
      fun x => { x with copy := none }

/-- CHECKPOINT_WRITE_DONE. -/
def execCheckpointWriteDone (ok : Bool) (s : State) : Host.Outcome State Fault Refusal :=
  .next (doCheckpointWriteDone ok s)

/-- The carried regions at the first epoch after RUNNING (R307): from the newest checkpoint, with its age in s, or as the
preload left them, with MODEL_COLD. -/
def restoreFirst (e : EpochRef) (s : State) : State :=
  let s := s.onEp fun x => { x with first := false }
  match newestCkpt e s with
  | some c =>
    event 0x0D00 1 [(keepTime s - c.keep) / 32768] 0 0 (e.man.carry.foldl (fun s r => writeRange c.data r s) s)
  | none => event 0x0D02 2 [] 0 0 (s.onEp fun x => { x with cold := 100 })

/-! ## Completion (R257, R298, R306) -/

/-- The leave table's standby bank. -/
def tableBank (s : State) : Bytes := s.mem.readN 0x400000000 4096
/-- The harbour set's standby bank. -/
def harbourBank (s : State) : Mem := s.mem.window 0x400010000 0x400020000
/-- The result digest (Table 05-9): SHA-256 over the current leave table and harbour set. -/
def resultDigest (s : State) : Digest :=
  sha256 (sub (tableOf s) 0 4096 ++ Mem.readN (s.pln.harbour.getD []) 0 65536)
/-- The results that a Shadow sends to its acting Lead after a completion (R298). -/
def sendResults (s : State) : State :=
  let m := manOf s
  sendPair (.bulk (.borrowed (s.mem.window 0x400000000 0x400001000) (harbourBank s)
    (s.mem.range m.outbox (m.outbox + 64 * m.nelem)))) s
/-- The completion flag of the cycle set by the programs. -/
def complete (s : State) : State :=
  if s.ep.done then s else
  let s := s.onEp fun x => { x with done := true }
  let s := if s.qre.progs.all (·.st == .ready) then endBorrow s else s
  let s := tryCkpt s
  if running s && !s.pair.lead && attached s then sendResults s else s

/-! ## CONFIG_EPOCH_SET (R279 to R282) -/

/-- The manifest that a body names, where it is staged. -/
def namedManifest (s : State) (b : Bytes) : Option Bytes := objBytes (digestAt b 0) s
/-- The containers that a manifest names for this position, by object. -/
def namedContainers (s : State) (m : Manifest) : List (Option Bytes) := (m.selected (posOf s)).flatMap (variants s m)
/-- The capacity by which R272 is judged: in SPILL mode it is judged at step 8. -/
def judgedCap (s : State) (m : Manifest) : Nat := if m.mode == 2 then 32 else s.qre.cap
/-- The failed quires after a body's CLEAR_FAILED. -/
def failedAfter (s : State) (b : Bytes) : Nat := if fld b 36 1 % 2 == 1 then 0 else s.kt.failed
/-- The body rules of CONFIG_EPOCH_SET. -/
def badConfigEpoch (s : State) (b : Bytes) : Option Nat :=
  let man := match namedManifest s b with
    | none => true
    | some o =>
      let m := readManifest o
      !manifestOk o ||
      (namedContainers s m).any (fun c => match c with | some x => !containerOk (judgedCap s m) m.preload x | none => true) ||
      (match pickAll s m (failedAfter s b) with | some ps => !progsOk m ps | none => false)
  firstBad [(man, 0), (decide (fld b 32 4 ≤ cfgEpoch s), 32), (decide (2 ≤ fld b 36 1), 36), rsv b 37 11]
/-- A change is pending (R279): an accepted command whose epoch has not taken effect. What replay reinstates gives way to
a new command (R286). -/
def changePending (s : State) : Bool :=
  s.jr.entries.any fun e => e.op == 0x0400 && isOpen e && !e.redo &&
    !(s.ep.cur.any fun c => c.jseq == e.jseq)
/-- A program's half is IDLE or RUNNING. -/
def halvesUp (s : State) (p : Prog) : Bool :=
  (List.range 64).all fun q => !p.c.quires.testBit q || halfOf s (q / 32) == .idle || halfOf s (q / 32) == .running
/-- The LPDDR5X regions of a program lie in the installed capacity. -/
def spillFits (s : State) (p : Prog) : Bool :=
  p.c.regions.all fun r => !isSpill r.base || inSpill s.qre.cap r.base r.len
/-- Step 8 for CONFIG_EPOCH_SET. -/
def admitConfigEpoch (src : Nat) (s : State) (b : Bytes) : Option Refuse :=
  let m := readManifest ((namedManifest s b).getD [])
  if changePending s then some { status := 0x12 }
  else match pickAll s m (failedAfter s b) with
  | none => some {}
  | some ps =>
    if !ps.all (halvesUp s) || (m.mode != 0 && !s.spn.formed) || (m.mode != 0 && src != 5 && !isMaster s) ||
       (m.mode == 2 && !ps.all (spillFits s)) then some {}
    else none

/-- The node address of a position's acting Lead in the census. -/
def leadAddr (s : State) (pos : Nat) : Option Nat :=
  (s.spn.census.find? fun p => p.2.entry.pos.toNat == pos && p.2.entry.lead).map fun p => entryAddr p.2.entry
/-- A command from the master relayed to a position's M5 under source 0x0005, with the next sequence. -/
def masterSend (op : Nat) (body : Bytes) (pos : Nat) (s : State) : State :=
  match leadAddr s pos with
  | none => s
  | some a =>
    let n := s.spn.shareSeq + 1
    let cw := mkCw 5 n
    relayCommand false a cw (recordBytes op cw body) (s.onSpn fun p => { p with shareSeq := n })
/-- The other positions that a manifest's partitions name. -/
def otherParts (s : State) (m : Manifest) : List Nat := (m.parts.map (·.1)).filter (· != posOf s)

/-- A reinstated pending epoch gives way to a new one, with SUPERSEDED (R286). -/
def supersede (s : State) : State :=
  match s.ep.pend with
  | some p => finish0 p.ref.jseq 0x0C02 (s.onEp fun x => { x with pend := none })
  | none => s

/-- CONFIG_EPOCH_SET's effect: the epoch is pending, and a row epoch's body goes to every other named position. An entry
that replay reinstates waits behind an earlier one. -/
def fxConfigEpoch (e : JEntry) (s : State) : State :=
  match namedManifest s e.body with
  | none => waitObject e s
  | some o =>
    let m := readManifest o
    if (namedContainers s m).any (·.isNone) then waitObject e s
    else if e.redo && s.ep.pend.isSome then s.onEp fun x => { x with later := x.later ++ [e.jseq] }
    else
      let s := supersede (s.onKt fun k => { k with failed := failedAfter s e.body })
      match pickAll s m s.kt.failed with
      | none => finish0 e.jseq 0x0C03 s
      | some ps =>
        let p : PendEpoch := {
          ref := { jseq := e.jseq, num := fld e.body 32 4, digest := digestAt e.body 0, man := m, body := e.body },
          progs := ps, at_ := s.now, redo := e.redo }
        let s := s.onEp fun x => { x with pend := some p, pollAt := s.now }
        if m.mode != 0 && cwSrc e.cw != 5 && isMaster s && !e.redo then
          (otherParts s m).foldl (fun s pos => masterSend 0x0400 e.body pos s) s
        else s

/-- The next entry that waits behind the pending epoch. -/
def startLater (s : State) : State :=
  match s.ep.later with
  | [] => s
  | j :: js =>
    let s := s.onEp fun x => { x with later := js }
    match findEntry j s with
    | some e => fxConfigEpoch e s
    | none => s

/-- The pending epoch ends without taking effect. -/
def dropPending (result : Word) (s : State) : State :=
  match s.ep.pend with
  | some p => startLater (finish0 p.ref.jseq result (s.onEp fun x => { x with pend := none }))
  | none => s

/-! ## Preparation (R283, R285) -/

/-- The regions of the running programs. -/
def runningRegions (s : State) : List Region := s.qre.progs.flatMap (·.c.regions)
/-- A container runs now. -/
def runsNow (s : State) (c : Container) : Bool := s.qre.progs.any fun p => p.c == c && p.st != .stopped
/-- The preload of programs that do not run now, apart from the running epoch's regions or not. -/
def preloads (s : State) (ps : List Prog) (free : Bool) : List (Nat × Bytes) :=
  (ps.filter fun p => !runsNow s p.c).flatMap fun p => p.c.init.filter fun r =>
    (runningRegions s).all (fun g => apart g.range (r.1, r.2.length)) == free

/-- EPOCH_PREP_DONE: the preload that may be written is written, and the epoch is ready; PREP_FAILED where a container
cannot be loaded or the LPDDR5X is not usable. It does not end before STORE and the halves are up. -/
def doEpochPrepDone (ok : Bool) (s : State) : State :=
  match s.ep.pend with
  | none => s
  | some p =>
    if p.ready || !running s then s
    else if !ok || (s.pwr.store == .on && s.qre.train.isNone && !p.progs.all (spillFits s)) then dropPending 0x0C03 s
    else if s.pwr.store != .on || !p.progs.all (halvesUp s) || !p.progs.all (spillFits s) then s
    else
      let s := (preloads s p.progs true).foldl (fun s r => binderWrite r.1 r.2 s) s
      let s := if s.ep.first then restoreFirst p.ref s else s
      s.onEp fun x => { x with pend := some { p with ready := true } }

/-- EPOCH_PREP_DONE. -/
def execEpochPrepDone (ok : Bool) (s : State) : Host.Outcome State Fault Refusal := .next (doEpochPrepDone ok s)

/-- An EPOCH_TICK announced: the first row tick at least 30 ms later. -/
def announceEpoch (s : State) : State :=
  let t := (rowTime s + 30000000 + 9999999) / 10000000
  (s.onSpn fun p => { p with epochTick := t }).onEp fun x => { x with pend := x.pend.map fun q => { q with named := some t } }
/-- STATUS_GET sent to the other named positions. -/
def askStatus (m : Manifest) (s : State) : State := (otherParts s m).foldl (fun s pos => masterSend 0x0004 [] pos s) s
/-- The answers show a position at an epoch's readiness. -/
def readyAt (as_ : List EpochAnswer) (num pos : Nat) : Bool := as_.any fun a => a.pos.toNat == pos && a.ready.toNat == num

/-- A position behind the row's epoch (R286): the current body relayed once, or an EPOCH_TICK where it is ready. -/
def bringUp (e : EpochRef) (a : EpochAnswer) (s : State) : State :=
  let pos := a.pos.toNat
  if pos == posOf s || !(otherParts s e.man).contains pos then s
  else if a.cfg.toNat == e.num then s.onEp fun x => { x with relayed := x.relayed.filter (· != pos) }
  else if a.ready.toNat == e.num then (if s.spn.epochTick ≤ rowTick s then announceEpoch s else s)
  else if e.num < a.cfg.toNat || s.ep.relayed.contains pos then s
  else masterSend 0x0400 e.body pos (s.onEp fun x => { x with relayed := x.relayed ++ [pos] })

/-- The next poll, 10 ms after the one before. -/
def nextPoll (s : State) : State :=
  (reach (s.ep.pollAt + 10000) s).onEp fun x => { x with pollAt := max s.now (s.ep.pollAt + 10000) }
/-- A poll of the positions that may lag behind the row's epoch, with their answers (R286). -/
def pollRow (e : EpochRef) (answers : List EpochAnswer) (s : State) : State :=
  askStatus e.man (answers.foldl (fun s a => bringUp e a s) s)
/-- EPOCH_READY_POLL (R285, R286): every 10 ms the master asks each named position, and announces the EPOCH_TICK once
every one, itself included, is ready within 9 s of its own acceptance. A master that reinstates the row's epoch is itself a
position that is ready and not current (log 79). -/
def doEpochReadyPoll (answers : List EpochAnswer) (s : State) : State :=
  if !isMaster s then s else
  match s.ep.pend with
  | some p =>
    if p.ref.man.mode == 0 then s
    else
      let s := nextPoll s
      if p.redo then
        let s := if p.ready && p.named.isNone && decide (s.spn.epochTick ≤ rowTick s) then announceEpoch s else s
        pollRow p.ref answers s
      else
        let all := p.ready && (otherParts s p.ref.man).all (readyAt answers p.ref.num)
        if all && p.named.isNone && decide (s.now ≤ p.at_ + 9000000) then announceEpoch s else askStatus p.ref.man s
  | none =>
    match s.ep.cur with
    | some e => if e.man.mode == 0 then s else pollRow e answers (nextPoll s)
    | none => s

/-- EPOCH_READY_POLL. -/
def execEpochReadyPoll (answers : List EpochAnswer) (s : State) : Host.Outcome State Fault Refusal :=
  .next (doEpochReadyPoll answers s)

/-- EPOCH_LAPSE (R285): no EPOCH_TICK named within 10 s of the acceptance of a row epoch. -/
def doEpochLapse (s : State) : State :=
  match s.ep.pend with
  | some p =>
    if p.ref.man.mode == 0 || p.redo || p.named.isSome || !running s then s
    else dropPending 0x0C01 (reach (p.at_ + 10000000) s)
  | none => s

/-- EPOCH_LAPSE. -/
def execEpochLapse (s : State) : Host.Outcome State Fault Refusal := .next (doEpochLapse s)

/-! ## The change (R273, R278, R283) -/

/-- The containers of the programs that have a list in a quire. -/
def inQuire (ps : List Prog) (q : Nat) : List Container :=
  (ps.filter fun p => p.c.lists.any fun l => l.core / 4 == q).map (·.c)
/-- A quire's program changes; one that has been stopped counts as changed. -/
def quireChanges (old new : List Prog) (q : Nat) : Bool :=
  inQuire old q != inQuire new q ||
  old.any fun p => p.st != .ready && p.c.lists.any fun l => l.core / 4 == q
/-- The quires whose program changes. -/
def changedQuires (old new : List Prog) : List Nat := (List.range 64).filter (quireChanges old new)
/-- A quire's queue ends as declared by programs. -/
def queueOf (ps : List Prog) (id : Nat) : Option QDecl := (ps.flatMap (·.c.queues)).find? (·.id == id)

/-- An overrun reported (R266). -/
def overrun (k : Nat) (s : State) : State :=
  event 0x0B00 2 [k / 4, k % 4, (coreOf s k).pc, s.ep.tick] 0 0 (count 0x257 s)

/-- The swap at the tick for the quires of a list: cores stopped, banks swapped, flags at INIT, queues emptied, cores
with a list started. -/
def swapQuires (chg : List Nat) (new : List Prog) (s : State) : State :=
  let s := ((s.qre.cores.filter fun p => chg.contains (p.1 / 4) && p.2.st == .running).map (·.1)).foldl
    (fun s k => overrun k s) s
  let old := s.qre.progs
  let s := s.onQre fun x =>
    { x with
      progs := new,
      cores := x.cores.filter (fun p => !chg.contains (p.1 / 4)),
      flags := x.flags.filter (fun p => !chg.contains (p.1 / 256)),
      queues := x.queues.filter (fun p => !chg.contains (p.1 / 16) &&
        !((queueOf old p.1).any fun d => chg.contains d.cons)),
      touched := [], ends := [] }
  let s := (new.flatMap (·.c.flags)).foldl (fun s f =>
    if f.2 && chg.contains (f.1 / 256) then s.onQre fun x => { x with flags := x.flags.set f.1 true } else s) s
  new.foldl (fun s p => p.cores.foldl (fun s k =>
    if chg.contains (k / 4) then onCore k (fun _ => { st := if p.st == .ready then .running else .stopped }) s
    else s) s) s

/-- The halves RUNNING or IDLE by the lists their quires have (Table 11-10). -/
def setHalves (s : State) : State :=
  [0, 1].foldl (fun s h =>
    let run := s.qre.progs.any fun p => p.cores.any fun k => k / 128 == h
    if halfOf s h == .idle || halfOf s h == .running then setHalf h (if run then .running else .idle) s else s) s

/-- PRELOAD_FLAG cleared in every quire. -/
def clearPreload (n : Nat) (s : State) : State :=
  s.onQre fun x => { x with flags := x.flags.filter fun p => p.1 % 256 != n }

/-- The epoch in force ends: its command completes, and its containers are released where the next does not name them. -/
def endEpoch (next : Manifest) (s : State) : State :=
  match s.ep.cur with
  | none => s
  | some e =>
    let keep := next.progs.flatMap (·.2)
    ((e.man.progs.flatMap (·.2)).filter fun d => !keep.contains d).foldl (fun s d => dropObj d s) (finish0 e.jseq 0 s)

/-- The change at the epoch tick. -/
def changeEpoch (p : PendEpoch) (s : State) : State :=
  let old := s.qre.progs
  let late := preloads s p.progs false
  let new := p.progs.map fun n => { n with st := .ready }
  let s := clearPreload (manOf s).preload (endEpoch p.ref.man s)
  let s := setHalves (swapQuires (changedQuires old new) new s)
  let s := s.onEp fun x =>
    { x with
      cur := some p.ref, pend := none, pre := some { tick := x.tick, progs := new.map (·.index), late := late },
      missed := [], arrived := [], sent := [], ckDue := true, ckRep := false, relayed := [], switch := false, image := none }
  startLater (applyRoutes (event 0x0C00 1 [p.ref.num, s.ep.tick] 0 0 s))

/-- The change is due at the present tick (R38, R283, R285). -/
def changeDue (p : PendEpoch) (s : State) : Bool :=
  p.ready && s.pwr.store == .on && p.progs.all (halvesUp s) &&
  (p.ref.man.mode == 0 || (s.spn.formed && p.named == some s.ep.tick))

/-- A context block (R278). -/
def contextBlock (s : State) (m : Manifest) (w : PreWork) (i : Nat) : Bytes :=
  leBytes 1 (posOf s) ++ leBytes 1 m.mode ++ leBytes 1 i ++ leBytes 1 m.parts.length ++ leBytes 4 (cfgEpoch s) ++
  leBytes 8 w.tick ++ zeros 48

/-- PRELOAD_DONE (R283): the context blocks, the overlapping preload and the zero fill are written, and PRELOAD_FLAG is
set in every quire of the position's programs. -/
def doPreloadDone (s : State) : State :=
  match s.ep.pre with
  | none => s
  | some w =>
    if !running s || s.pwr.store != .on then s else
    let m := manOf s
    let s := w.progs.foldl (fun s i => binderWrite (m.context + 64 * i) (contextBlock s m w i) s) s
    let s := w.late.foldl (fun s r => binderWrite r.1 r.2 s) s
    let s := zeroFill (s.qre.progs.filter fun p => w.progs.contains p.index) s
    let qs := (List.range 64).filter fun q => s.qre.progs.any fun p => p.c.quires.testBit q
    let s := s.onQre fun x => { x with flags := qs.foldl (fun f q => f.set (256 * q + m.preload) true) x.flags }
    s.onEp fun x => { x with pre := none }

/-- PRELOAD_DONE. -/
def execPreloadDone (s : State) : Host.Outcome State Fault Refusal := .next (doPreloadDone s)

/-! ## Restore and variant switch (R298, R299, R308) -/

/-- A program in a state. -/
def Prog.isIn (p : Prog) (st : ProgSt) : Bool := p.st == st

/-- MODEL_RESTORE_DONE: preload, carried regions and zero fill written for the programs being restored. The carried regions
come from a MODEL_LOAD's image, or the latest checkpoint; where there is none, from preload and zero as R307 gives. -/
def doModelRestoreDone (s : State) : State :=
  match s.ep.cur with
  | none => s
  | some e =>
    let ps := s.qre.progs.filter (·.isIn .restoring)
    if ps.isEmpty || !running s || s.pwr.store != .on then s else
    let data := match s.ep.image with | some i => some i.2 | none => (newestCkpt e s).map Ckpt.data
    let s := e.man.carry.foldl (fun s r => writeRange (data.getD []) r s) s
    let s := (ps.flatMap (·.c.init)).foldl (fun s r =>
      if data.isSome && carriedAt e.man r.1 then s else binderWrite r.1 r.2 s) s
    let s := zeroFill ps s
    s.onQre fun x => { x with progs := x.progs.map fun p => if p.isIn .restoring then { p with st := .restored } else p }

/-- MODEL_RESTORE_DONE. -/
def execModelRestoreDone (s : State) : Host.Outcome State Fault Refusal := .next (doModelRestoreDone s)

/-- The MODEL_LOAD entries in effect up to one: an earlier one that it overtook completes with it. -/
def loadsUpTo (j : Nat) (s : State) : List Nat :=
  ((s.jr.entries.filter fun e =>
    e.op == 0x0401 && e.applied && e.state != .done && decide (e.jseq < j)).map (·.jseq)) ++ [j]

/-- The restored programs restart at a tick, and the MODEL_LOADs that they carry complete. -/
def restartPrograms (s : State) : State :=
  let ps := s.qre.progs.filter (·.isIn .restored)
  if ps.isEmpty then s else
  let s := ps.foldl (fun s p => startCores p (onProg p.index (fun p => { p with st := .ready }) s)) s
  match s.ep.image with
  | some i => (loadsUpTo i.1 s).foldl (fun s j => finish0 j 0 s) (s.onEp fun x => { x with image := none })
  | none => s

/-- A MODEL_LOAD applied at the first tick after its effect: every program is stopped and restored from the image. -/
def beginLoad (s : State) : State :=
  match s.ep.load with
  | none => s
  | some i =>
    let s := (s.qre.progs.filter fun p => p.st != .stopped && p.st != .noVariant).foldl (fun s p =>
      onProg p.index (fun p => { p with st := .restoring }) (stopCores p s)) s
    s.onEp fun x => { x with load := none, image := some i }

/-- A program whose variant uses a failed quire switched to its lowest eligible variant, or stopped without one. -/
def switchProg (p : Prog) (s : State) : State :=
  match pickVariant s (manOf s) s.kt.failed p.index with
  | some v =>
    let new := s.qre.progs.map fun x => if x.index == p.index then { v with st := .restoring } else x
    let qs := (List.range 64).filter fun q => p.c.quires.testBit q || v.c.quires.testBit q
    let s := swapQuires (qs.filter fun q => quireChanges s.qre.progs new q) new s
    let s := s.onEp fun x =>
      { x with
        pre := some { tick := x.tick, progs := (match x.pre with | some w => w.progs | none => []) ++ [p.index],
                      late := match x.pre with | some w => w.late | none => [] },
        ckDue := true, ckRep := false }
    event 0x0C05 2 [p.index, p.variant, v.variant] 0 0 (setHalves s)
  | none =>
    let s := onProg p.index (fun p => { p with st := .noVariant }) (stopCores p s)
    beginBorrow (event 0x0C06 3 [p.index] 0 0 s)
/-- VARIANT_SWITCH at the first tick after a quire fails. -/
def switchVariants (s : State) : State :=
  if !s.ep.switch then s else
  let s := s.onEp fun x => { x with switch := false }
  (s.qre.progs.filter fun p => p.st != .stopped && p.st != .noVariant && !p.c.eligible s.kt.failed).foldl
    (fun s p => switchProg p s) s

/-- Borrowing at a tick: it ends where the Shadow is no longer healthy, and a program without a variant borrows from one
that is. -/
def borrowTick (s : State) : State :=
  if s.ep.borrow && !canBorrow s then endBorrow s
  else if !s.ep.borrow && s.qre.progs.any (·.isIn .noVariant) then beginBorrow s
  else s

/-! ## MODEL_LOAD and SPILL_CONFIG (R290, R308) -/

/-- A model image's directory as base and length. -/
def imageParts (o : Bytes) : List (Nat × Nat) :=
  (List.range (fld o 6 2)).map fun i => (fld o (0x100 + 16 * i) 8, fld o (0x108 + 16 * i) 4)
/-- The bytes of an image's regions, from an offset on. -/
def imageData (o : Bytes) : Nat → List (Nat × Nat) → Mem → Mem
  | _, [], m => m
  | k, r :: rs, m => imageData o (k + r.2) rs (m.writeN r.1 (sub o k r.2))
/-- A staged model image is well formed (Table 13-2, R308). -/
def imageOk (o : Bytes) : Bool :=
  let ps := imageParts o
  let n := (ps.map (·.2)).sum
  decide (ps.length ≤ 256) && o.length == 0x2000 + n && fld o 0 4 == 0x4B435051 && fld o 4 2 == 1 && isZero o 8 8 &&
  isZero o 0x30 0x20 && isZero o 0x50 168 && crcOk o 0x100 && (List.range ps.length).all (fun i => isZero o (0x10C + 16 * i) 4) &&
  fld o 0xF8 4 == crc32c (sub o 0x100 (16 * ps.length) ++ sub o 0x2000 n)
/-- A staged image is for the current epoch: its manifest and its directory. -/
def imageFits (s : State) (o : Bytes) : Bool :=
  match s.ep.cur with
  | some e => digestAt o 0x10 == e.digest && imageParts o == e.man.carry
  | none => true
/-- The body rules of MODEL_LOAD. -/
def badModelLoad (s : State) (b : Bytes) : Option Nat :=
  let n := fld b 32 4
  firstBad [(!isZero b 0 32 && (match objBytes (digestAt b 0) s with | some o => !(imageOk o && imageFits s o) | none => true), 0),
    (n != 0 && (decide (n < 100) || decide (60000 < n)), 32), rsv b 36 4]
/-- Step 8 for MODEL_LOAD. -/
def admitModelLoad (s : State) : Option Refuse := if s.ep.cur.isNone || changePending s then some {} else none
/-- MODEL_LOAD's effect. -/
def fxModelLoad (e : JEntry) (s : State) : State :=
  let n := fld e.body 32 4
  let s := if n == 0 then s else s.onKt fun k => { k with ckCycles := n }
  if isZero e.body 0 32 then finish0 e.jseq 0 s
  else match objBytes (digestAt e.body 0) s with
    | none => waitObject e s
    | some o => s.onEp fun x => { x with load := some (e.jseq, imageData o 0x2000 (imageParts o) []) }

/-- The body rules of SPILL_CONFIG. -/
def badSpill (b : Bytes) : Option Nat :=
  firstBad [(decide (2 ≤ fld b 0 1), 0), (decide (2 ≤ fld b 1 1), 1), (!([2, 4, 8, 16].contains (fld b 2 1)), 2),
    (fld b 3 1 != 1 && fld b 3 1 != 2, 3), rsv b 4 12]
/-- Step 8 for SPILL_CONFIG: the current or pending epoch declares an LPDDR5X region. -/
def admitSpill (s : State) : Option Refuse :=
  let ps := s.qre.progs ++ (match s.ep.pend with | some p => p.progs | none => [])
  if ps.any fun p => p.c.regions.any fun r => isSpill r.base then some {} else none
/-- SPILL_CONFIG's effect: training where STORE is on and ENABLE is 1. -/
def fxSpill (e : JEntry) (s : State) : State :=
  let s := (s.onKt fun k => { k with spill := some e.body }).onQre fun x => { x with cap := 0 }
  if fld e.body 0 1 == 1 && s.pwr.store == .on then s.onQre fun x => { x with train := some e.jseq }
  else finish0 e.jseq 0 s

/-- The SPILL_CONFIG entries in effect that wait for training. -/
def spillWaits (s : State) : List Nat :=
  (s.jr.entries.filter fun e => e.op == 0x0403 && e.applied && e.state != .done).map (·.jseq)

/-- LPDDR_TRAINING_DONE (R290): the installed capacity, or LPDDR_FAIL and TRAIN_FAIL. -/
def doLpddrTrainingDone (ok : Bool) (channel step : Nat) (s : State) : State :=
  match s.qre.train with
  | none => s
  | some _ =>
    let gib := match s.kt.spill with | some b => if fld b 0 1 == 1 then 2 * fld b 2 1 else 0 | none => 0
    let s := s.onQre fun x => { x with train := none, cap := if ok then gib else 0 }
    let s := if ok then s else event 0x0B04 3 [channel, step] 0 0 s
    (spillWaits s).foldl (fun s j => finish0 j (if ok then 0 else 0x0C04) s) s

/-- LPDDR_TRAINING_DONE. -/
def execLpddrTrainingDone (ok : Bool) (channel : Fin 2) (step : Nat) (s : State) : Host.Outcome State Fault Refusal :=
  .next (doLpddrTrainingDone ok channel step s)

/-! ## The boundary exchange (R122, R296) -/

/-- The outbox slot of an element. -/
def outSlot (s : State) (e : Nat) : Nat := (manOf s).outbox + 64 * e
/-- The inbox slot of an element. -/
def inSlot (s : State) (e : Nat) : Nat := (manOf s).inbox + 64 * e
/-- An element is of this position's partition. -/
def ownElem (s : State) (e : Nat) : Bool :=
  (manOf s).parts.any fun p => p.1 == posOf s && decide (p.2.1 ≤ e) && decide (e < p.2.1 + p.2.2)
/-- The exchange runs: an epoch with boundary elements is in force and STORE is on. -/
def exchanging (s : State) : Bool := running s && (manOf s).mode != 0 && s.pwr.store == .on
/-- An element's values written to its inbox slot, FRESH. -/
def putInbox (e tick : Nat) (vals : Bytes) (s : State) : State :=
  let s := s.onMem fun m => m.writeN (inSlot s e) (vals ++ leBytes 4 tick ++ [0, 0])
  s.onEp fun x => { x with arrived := e :: x.arrived, missed := x.missed.erase e }
/-- A late boundary value counted and reported. -/
def boundaryLate (e : Nat) (s : State) : State := event 0x0510 1 [e] 0 0 (count 0x2F1 s)

/-- BOUNDARY_SLOT_SEND: a slot stamped for the tick sent once, and copied to the own inbox; late after 0.78 ms. -/
def doBoundarySlotSend (e : Nat) (s : State) : State :=
  let t := s.ep.tick % 2 ^ 32
  if !exchanging s || !acting s || !ownElem s e || s.ep.sent.contains e || leVal (s.mem.readN (outSlot s e + 36) 4) != t then s
  else
    let s := s.onEp fun x => { x with sent := e :: x.sent }
    if s.ep.tickAt + 780 < s.now then boundaryLate e s
    else
      let vals := s.mem.readN (outSlot s e) 36
      let ws := (List.range 9).map fun i => BitVec.ofNat 32 (fld vals (4 * i) 4)
      count 0x2F0 (putInbox e t vals (sendSpine 0xFF (.boundary (posOf s) t e ws) s))

/-- BOUNDARY_SLOT_SEND. -/
def execBoundarySlotSend (elem : Nat) (s : State) : Host.Outcome State Fault Refusal := .next (doBoundarySlotSend elem s)

/-- BOUNDARY_FRAME: an in-time frame goes to the inbox slot of its element; a later one is dropped and counted. -/
def doBoundaryFrame (f : FrameHdr) (part tick elem : Nat) (vals : List Word) (s : State) : State :=
  rxFrame f (.boundary part tick elem vals) (fun s =>
    if !exchanging s || decide ((manOf s).nelem ≤ elem) then s
    else if tick != s.ep.tick % 2 ^ 32 || decide (s.ep.tickAt + 800 < s.now) || s.ep.endAt then boundaryLate elem s
    else putInbox elem tick ((List.range 9).flatMap fun i => leBytes 4 (vals.getD i 0).toNat) s) s

/-- BOUNDARY_FRAME. -/
def execBoundaryFrame (f : FrameHdr) (part tick elem : Nat) (vals : List Word) (s : State) :
    Host.Outcome State Fault Refusal := .next (doBoundaryFrame f part tick elem vals s)

/-- An element that did not arrive: HELD, or ORPHAN with its worst-case values from the tenth tick on. -/
def missElem (e : Nat) (s : State) : State :=
  let n := min 255 (s.ep.missed.get 0 e + 1)
  let a := inSlot s e
  let s := s.onEp fun x => { x with missed := x.missed.set e n }
  let s := s.onMem fun m => m.writeN (a + 40) (leBytes 1 (if 10 ≤ n then 2 else 1) ++ leBytes 1 n)
  if 10 ≤ n then s.onMem fun m => m.writeN a ((manOf s).worst.getD e (zeros 36)) else s
/-- BOUNDARY_DEADLINE: 0.8 ms after the tick, once per tick. -/
def doBoundaryDeadline (s : State) : State :=
  if !exchanging s || s.ep.endAt then s
  else
    let s := (reach (s.ep.tickAt + 800) s).onEp fun x => { x with endAt := true }
    ((List.range (manOf s).nelem).filter fun e => !s.ep.arrived.contains e).foldl (fun s e => missElem e s) s

/-- BOUNDARY_DEADLINE. -/
def execBoundaryDeadline (s : State) : Host.Outcome State Fault Refusal := .next (doBoundaryDeadline s)

end Sys2Proof.Machine
end

