-- ==== Sys2Proof/Machine/Cores.lean ====
section
/-! DEFINITION. Machine/Cores.lean: the vector cores (chapter 11, R264 to R267) with the run-time checks of chapter 12
(R287, R288, R291, R294): what a descriptor accesses, its data work, its wait and set, and the queues. -/

namespace Sys2Proof.Machine

/-! ## Elements -/

/-- An unsigned little-endian value of the store. -/
def rd (m : Mem) (a n : Nat) : Nat := leVal (m.readN a n)
/-- Element (r, c) of an operand. -/
def Desc.el (d : Desc) (m : Mem) (k n r c : Nat) : Nat := rd m (elAt (d.opnd k) n r c) n
/-- IMM0. -/
def Desc.imm0 (d : Desc) : Nat := d.imm.toNat % 2 ^ 32
/-- IMM1. -/
def Desc.imm1 (d : Desc) : Nat := d.imm.toNat / 2 ^ 32
/-- An immediate as a signed integer. -/
def immInt (w : Nat) : Int := toSigned 32 w
/-- The address that an index gives in a row-0 array of `n`-byte elements; indices are INT32. -/
def indexed (f n idx : Nat) : Int := (oAddr f : Int) + toSigned 32 idx * n
/-- An element at an address that may lie below 0. -/
def rdAt (m : Mem) (a : Int) (n : Nat) : Nat := rd m a.toNat n

/-- A float result rounded to a type, as a value again. -/
def roundFp (ty : Nat) (rtz : Bool) (x : Fp) : Fp × List Nat :=
  let e := x.elem ty rtz
  (fpOf ty e.1, e.2)
/-- A float result with DST added under ACC. -/
def Desc.outFp (d : Desc) (old : Nat) (x : Fp) (sticky : Bool := false) : Elem :=
  let e := x.elem d.tout d.rtz sticky
  if d.acc then
    let t := ((fpOf d.tout old).add (fpOf d.tout e.1)).elem d.tout d.rtz
    (t.1, e.2 ++ t.2)
  else e
/-- An integer result with DST added under ACC, narrowed once. -/
def Desc.outInt (d : Desc) (old : Nat) (v : Int) : Elem :=
  intElem d.tout d.sat (if d.acc then intOf d.tout old + v else v)

/-- A binary32 immediate of a float operator, else INT32, as an element of a type (FILL). -/
def Desc.fill (d : Desc) : Elem :=
  if d.tout == 0 then (d.imm0, [])
  else if d.tout == 1 then (fp32 d.imm0).elem 1 d.rtz
  else intElem d.tout d.sat (immInt d.imm0)

/-- The first pair at or above x, by index, among the pairs from `i` on. -/
def pairAbove (d : Desc) (m : Mem) (x : Fp) : Nat → Nat → Nat
  | 0, i => i
  | k + 1, i => if (fp32 (d.el m 2 4 0 (2 * i))).ge x then i else pairAbove d m x k (i + 1)
/-- INTERP of one element (R264, R265): clamped at both ends. -/
def interp (d : Desc) (m : Mem) (w : Nat) : Fp × List Nat :=
  let x := fpOf d.tin w
  let n := d.arg.toNat
  let px := fun i => d.el m 2 4 0 (2 * i)
  let py := fun i => d.el m 2 4 0 (2 * i + 1)
  if x.isNan then (.nan, [])
  else
    let i := pairAbove d m x n 0
    if i == 0 then (fp32 (py 0), [])
    else if n ≤ i then (fp32 (py (n - 1)), [])
    else
      let ws := [w, px (i - 1), py (i - 1), px i, py i]
      let x0 := fp32 (px (i - 1))
      let dx := (fp32 (px i)).add x0.neg
      if !((fp32 (px i)).ge x0) || dx.isZero then (fp32 (Config.interpOpen ws).toNat, [])
      else if x == fp32 (px i) then (fp32 (py i), [])
      else
        let y0 := fp32 (py (i - 1))
        let num := (y0.mul dx).add ((x.add x0.neg).mul ((fp32 (py i)).add y0.neg))
        let (q, rest, ev) := num.div dx
        match q with
        | .num g a e => (withinUlp 1 (Config.interpPick ws) g a e (!rest), ev)
        | v => (v, ev)

/-- One element of an elementwise operator, from its sources at (r, c). -/
def elemwise (d : Desc) (m : Mem) (old r c : Nat) : Elem :=
  let i := tySize d.tin
  let x := d.el m 1 i r c
  let y := d.el m 2 i r c
  let z := d.el m 3 i r c
  let f := tyFloat d.tin
  let a := fpOf d.tin x
  let b := fpOf d.tin y
  let p := intOf d.tin x
  let q := intOf d.tin y
  match d.opn with
  | 0x11 => d.fill
  | 0x16 => convertElem d.tin d.tout d.rtz d.sat x
  | 0x20 => if f then d.outFp old (a.add b) else d.outInt old (p + q)
  | 0x21 => if f then d.outFp old (a.add b.neg) else d.outInt old (p - q)
  | 0x22 => if f then d.outFp old (a.mul b) else d.outInt old (p * q)
  | 0x23 => d.outFp old ((a.mul b).add (fpOf d.tin z))
  | 0x24 => let (v, s, ev) := a.div b; let e := d.outFp old v s; (e.1, ev ++ e.2)
  | 0x25 => if f then d.outFp old (a.minNum b) else d.outInt old (min p q)
  | 0x26 => if f then d.outFp old (a.maxNum b) else d.outInt old (max p q)
  | 0x27 => if f then d.outFp old a.abs else d.outInt old p.natAbs
  | 0x28 => let (v, s) := a.sqrt; d.outFp old v s
  | 0x29 => let (v, ev) := a.rsqrt (Config.ulpPick 0x29 x); let e := d.outFp old v; (e.1, ev ++ e.2)
  | 0x2A => let (v, ev) := a.exp (Config.ulpPick 0x2A x); let e := d.outFp old v; (e.1, ev ++ e.2)
  | 0x2B => let (v, ev) := a.log (Config.ulpPick 0x2B x); let e := d.outFp old v; (e.1, ev ++ e.2)
  | 0x2C =>
    if f then
      let t := a.mul (fp32 d.imm0)
      let t := if Config.scaleOnce then (t, []) else roundFp d.tin d.rtz t
      let e := d.outFp old (t.1.add (fp32 d.imm1))
      (e.1, t.2 ++ e.2)
    else d.outInt old (immInt d.imm0 * p + immInt d.imm1)
  | 0x2D =>
    if f then d.outFp old ((a.maxNum (fp32 d.imm0)).minNum (fp32 d.imm1))
    else d.outInt old (min (max p (immInt d.imm0)) (immInt d.imm1))
  | 0x2E =>
    if f then d.outFp old (if a.ge (fp32 d.imm0) then b else fpOf d.tin z)
    else (if immInt d.imm0 ≤ p then y else z, [])
  | 0x2F => let (v, ev) := interp d m x; let e := d.outFp old v; (e.1, ev ++ e.2)
  | _ => (x, [])

/-! ## Sums (R256) -/

/-- A list of values summed in the shape's fixed pairwise tree, each sum rounded to the type of the sums. -/
def sumTree (d : Desc) (ty : Nat) : Nat → Nat → List Fp → Fp × List Nat
  | 0, _, _ => (.zero false, [])
  | _ + 1, _, [] => (.zero false, [])
  | _ + 1, _, [x] => (x, [])
  | k + 1, first, xs =>
    let n := xs.length
    let cut := 1 + Config.sumSplit d.rows.toNat d.cols.toNat d.arg.toNat first n % (n - 1)
    let a := sumTree d ty k first (xs.take cut)
    let b := sumTree d ty k (first + cut) (xs.drop cut)
    let t := roundFp ty d.rtz (a.1.add b.1)
    (t.1, a.2 ++ b.2 ++ t.2)
/-- The type of the sums within a reduction. -/
def Desc.sumTy (d : Desc) : Nat := if d.tout == 1 && !Config.sumWide then 1 else 0
/-- A sum of floats as the element of DST. -/
def Desc.sumFp (d : Desc) (old : Nat) (xs : List Fp) : Elem :=
  let t := sumTree d d.sumTy (xs.length + 1) 0 xs
  let e := d.outFp old t.1
  (e.1, t.2 ++ e.2)
/-- A sum of products of two elements. -/
def Desc.sumProd (d : Desc) (old : Nat) (ps : List (Nat × Nat)) : Elem :=
  if tyFloat d.tin then
    let r := Config.productRounds d.rows.toNat d.cols.toNat d.arg.toNat
    d.sumFp old (ps.map fun p =>
      let x := (fpOf d.tin p.1).mul (fpOf d.tin p.2)
      if r then (roundFp d.sumTy d.rtz x).1 else x)
  else d.outInt old ((ps.map fun p => intOf d.tin p.1 * intOf d.tin p.2).sum)

/-- The index of the least element that is the maximum of a row. -/
def argMax (d : Desc) (row : List Nat) : Nat :=
  if tyFloat d.tin then
    let fs := row.map (fpOf d.tin)
    let m := fs.foldl Fp.maxNum .nan
    if m.isNan then Config.argNaN row.length % row.length
    else (fs.findIdx? fun x => x.ge m && m.ge x).getD 0
  else
    let is := row.map (intOf d.tin)
    (is.findIdx? fun x => is.all fun y => decide (y ≤ x)).getD 0

/-- One element of a reduction over a row. -/
def reduced (d : Desc) (m : Mem) (old r : Nat) : Elem :=
  let i := tySize d.tin
  let row := (List.range d.cols.toNat).map fun c => d.el m 1 i r c
  match d.opn with
  | 0x30 => if tyFloat d.tin then d.sumFp old (row.map (fpOf d.tin)) else d.outInt old ((row.map (intOf d.tin)).sum)
  | 0x31 =>
    if tyFloat d.tin then d.outFp old ((row.map (fpOf d.tin)).foldl Fp.maxNum .nan)
    else d.outInt old ((row.map (intOf d.tin)).foldl max (intOf d.tin (row.getD 0 0)))
  | 0x32 =>
    if tyFloat d.tin then d.outFp old ((row.map (fpOf d.tin)).foldl Fp.minNum .nan)
    else d.outInt old ((row.map (intOf d.tin)).foldl min (intOf d.tin (row.getD 0 0)))
  | 0x33 => (argMax d row, [])
  | _ =>
    d.sumProd old ((List.range d.cols.toNat).map fun c =>
      (d.el m 1 i r c, rdAt m (indexed (d.opnd 3) i (d.el m 2 4 r c)) i))

/-! ## What a descriptor reads and writes -/

/-- An access: operand, address, size. -/
structure Access where
  k : Nat
  a : Int
  n : Nat
  deriving DecidableEq, Repr

/-- The (r, c) of a shape in row order. -/
def cells (r c : Nat) : List (Nat × Nat) := (List.range r).flatMap fun i => (List.range c).map fun j => (i, j)
/-- The data of a descriptor has no element (R265). -/
def Desc.empty (d : Desc) : Bool := d.rows == 0 || d.cols == 0
/-- The accesses of an operand that is not reached through indices. -/
def Desc.plainAcc (d : Desc) (k : Nat) : List Access :=
  match d.shape k with
  | some (r, c, n) => (cells r c).map fun p => { k := k, a := elAt (d.opnd k) n p.1 p.2, n := n }
  | none => []
/-- The accesses that indices give: GATHER's SRC0, SCATTER's DST, SPMV's SRC2. -/
def Desc.indexAcc (d : Desc) (m : Mem) : List Access :=
  let i := tySize d.tin
  let at_ := fun k n => (cells d.rows.toNat d.cols.toNat).map fun p =>
    ({ k := k, a := indexed (d.opnd k) n (d.el m 2 4 p.1 p.2), n := n } : Access)
  match d.opn with
  | 0x12 => at_ 1 i
  | 0x13 => at_ 0 (tySize d.tout)
  | 0x35 => at_ 3 i
  | _ => []
/-- Every access of a descriptor: the sources, then DST. -/
def Desc.accesses (d : Desc) (m : Mem) : List Access :=
  if d.empty then [] else
  let ix := d.indexAcc m
  d.plainAcc 1 ++ d.plainAcc 2 ++ d.plainAcc 3 ++ ix.filter (·.k != 0) ++ d.plainAcc 0 ++ ix.filter (·.k == 0)
/-- An access reads: a source, or DST under ACC. -/
def Desc.reads (d : Desc) (x : Access) : Bool := x.k != 0 || d.acc

/-- What a descriptor writes, in row order: address, size and element. A later (r, c) in row order wins. -/
def Desc.writes (d : Desc) (m : Mem) : List (Nat × Nat × Elem) :=
  if d.empty then [] else
  let i := tySize d.tin
  let o := tySize d.tout
  let r := d.rows.toNat
  let c := d.cols.toNat
  let dst := fun p : Nat × Nat => elAt (d.opnd 0) o p.1 p.2
  match d.opn with
  | 0x12 => (cells r c).map fun p => (dst p, o, (rdAt m (indexed (d.opnd 1) i (d.el m 2 4 p.1 p.2)) i, []))
  | 0x13 => (cells r c).map fun p => ((indexed (d.opnd 0) o (d.el m 2 4 p.1 p.2)).toNat, o, (d.el m 1 i p.1 p.2, []))
  | 0x17 => (cells c r).map fun p => (dst p, o, (d.el m 1 i p.2 p.1, []))
  | 0x34 => (cells r c).map fun p =>
      (dst p, o, d.sumProd (rd m (dst p) o) ((List.range d.arg.toNat).map fun k => (d.el m 1 i p.1 k, d.el m 2 i k p.2)))
  | op =>
    if 0x30 ≤ op then (List.range r).map fun k => (dst (k, 0), o, reduced d m (rd m (dst (k, 0)) o) k)
    else (cells r c).map fun p => (dst p, o, elemwise d m (rd m (dst p) o) p.1 p.2)

/-! ## Run-time checks (R288, R291, R294) -/

/-- The first access that is not declared. -/
def undeclared (c : Container) (d : Desc) (xs : List Access) : Option QFault :=
  match xs.find? (fun x => match c.region d x.k with
    | some (_, g) => !(g.allows x.k d.acc && g.holds x.a x.n)
    | none => true) with
  | some x => some { cause := 1, opnd := x.k + 1, res := (c.rsets.getD d.rset.toNat []).getD x.k 0xFFFF, addr := x.a.toNat }
  | none => none
/-- The 64 B blocks that an access touches. -/
def Access.blocks (x : Access) : List Nat := [x.a.toNat / 64 * 64, (x.a.toNat + x.n - 1) / 64 * 64].eraseDups
/-- The first poisoned block that a descriptor reads. -/
def poisoned (d : Desc) (bad : List Nat) (xs : List Access) : Option QFault :=
  match (xs.filter d.reads).find? fun x => x.blocks.any bad.contains with
  | some x =>
    let b := (x.blocks.find? bad.contains).getD 0
    some { cause := 6, opnd := x.k + 1, res := sliceOf b, addr := b }
  | none => none
/-- A region is scratch (R294): writable, no carried region and under no preload record. -/
def scratch (m : Manifest) (c : Container) (g : Region) : Bool :=
  g.write && !(m.carry.any fun r => decide (r.1 ≤ g.base) && decide (g.base + g.len ≤ r.1 + r.2)) &&
  !(c.init.any fun r => decide (r.1 ≤ g.base) && decide (g.base + g.len ≤ r.1 + r.2.length))
/-- HAZARD_RBW in debug mode: the first read of a scratch block not written in the current cycle. -/
def readBeforeWrite (s : State) (p : Prog) (d : Desc) (xs : List Access) : Option QFault :=
  if !p.c.debug then none else
  let seen := s.qre.touched.get [] p.index
  match (xs.filter d.reads).find? (fun x => match p.c.region d x.k with
    | some (_, g) => scratch (manOf s) p.c g && x.blocks.any fun b => !seen.contains b
    | none => false) with
  | some x => some { cause := 0x10, opnd := x.k + 1, res := (p.c.rsets.getD d.rset.toNat []).getD x.k 0xFFFF, addr := x.a.toNat }
  | none => none

/-- A flag's allocation (R288): 0 to the program, 1 to none, 2 to another. PRELOAD_FLAG may be waited on. -/
def flagOwner (s : State) (p : Prog) (wait : Bool) (f : Nat) : Nat :=
  if f % 256 == (manOf s).preload then (if wait then 0 else 1)
  else if p.c.flags.any (fun x => x.1 == f) then 0
  else if s.qre.progs.any (fun g => g.c.flags.any fun x => x.1 == f) then 2 else 1
/-- The fault of a wait or set that names a flag not the program's. -/
def flagFault (s : State) (p : Prog) (wait : Bool) (f : Nat) : Option QFault :=
  let r : Nat := f / 256 * 256 + f % 256
  match flagOwner s p wait f with
  | 0 => none
  | 1 => some { cause := 2, opnd := if wait then 5 else 6, res := r }
  | _ => some { cause := 3, opnd := if wait then 5 else 6, res := r }

/-- The fault of a QPUSH (`push`) or QPOP at a quire: not the queue's end, its other end off, or a second core at that
end in a cycle in debug mode. -/
def queueFault (s : State) (p : Prog) (q core : Nat) (push : Bool) (id : Nat) : Option QFault :=
  match p.c.queues.find? (·.id == id) with
  | none => some { cause := 4, opnd := 7, res := id }
  | some x =>
    let other := if push then x.cons else id / 16
    if (if push then id / 16 else x.cons) != q then some { cause := 4, opnd := 7, res := id }
    else if !quireUp s other then some { cause := 5, opnd := 7, res := other }
    else if p.c.debug && (match s.qre.ends.find (2 * id + push.toNat) with | some k => k != core | none => false) then
      some { cause := 0x12, opnd := 7, res := id }
    else none

/-! ## Writes -/

/-- One element stored. A 1 at the cycle completion register sets the completion flag; the rest of that window holds
nothing. -/
def storeEl (a n v : Nat) (s : State) : State :=
  if a == 0x400020000 then (if v == 1 then complete s else s)
  else if 0x400020000 ≤ a && a < 0x400020040 then s
  else s.onMem fun m => m.writeN a (leBytes n v)
/-- The blocks that a list of writes covers whole. -/
def wholeBlocks (bad : List Nat) (ws : List (Nat × Nat)) : List Nat :=
  bad.filter fun b => (List.range 64).all fun i => ws.any fun w => decide (w.1 ≤ b + i) && decide (b + i < w.1 + w.2)
/-- The blocks written by a program noted for its debug mode, and whole blocks healed. -/
def noteWrites (p : Prog) (ws : List (Nat × Nat)) (s : State) : State :=
  let whole := wholeBlocks s.qre.poison ws
  let s := s.onQre fun x => { x with poison := x.poison.filter fun b => !whole.contains b }
  if !p.c.debug then s
  else s.onQre fun x => { x with touched := x.touched.mod [] p.index fun l => (l ++ ws.flatMap fun w =>
    (({ k := 0, a := w.1, n := w.2 } : Access).blocks)).eraseDups }
/-- The exceptional results of a list of elements counted (Table 15-7). -/
def countEvents (es : List Nat) (s : State) : State :=
  [0x250, 0x251, 0x252, 0x253, 0x254, 0x255].foldl (fun s e => countN e (es.filter (· == e)).length s) s
/-- The writes of a descriptor made. -/
def storeAll (p : Prog) (ws : List (Nat × Nat × Elem)) (s : State) : State :=
  let s := noteWrites p (ws.map fun w => (w.1, w.2.1)) (countEvents (ws.flatMap fun w => w.2.2.2) s)
  ws.foldl (fun s w => storeEl w.1 w.2.1 w.2.2.1 s) s

/-! ## A descriptor run (R267) -/

/-- The next position of a core after a descriptor: JUMP, LOOP and HALT, or the next in the list. -/
def Core.next (d : Desc) (c : Core) : Core :=
  let c := { c with waited := false, moved := 0, stalled := false, did := true }
  match d.opn with
  | 0x01 => { c with st := .halted, pc := 0 }
  | 0x02 => { c with pc := d.arg.toNat }
  | 0x03 =>
    let k := d.arg.toNat / 2 ^ 24 % 4
    let n := c.loops.getD k 0 + 1
    if n < d.imm0 then { c with pc := d.arg.toNat % 2 ^ 24, loops := c.loops.set k n }
    else { c with pc := c.pc + 1, loops := c.loops.set k 0 }
  | _ => { c with pc := c.pc + 1 }

/-- The end of a descriptor: its set, checked, then the next. In debug mode a set of a set flag is a hazard. -/
def endDesc (q c : Nat) (p : Prog) (d : Desc) (s : State) : State :=
  let k := 4 * q + c
  let f := d.set.toNat / 256 % 64 * 256 + d.set.toNat % 256
  let fault : Option QFault :=
    if !d.set.getLsbD 15 then none
    else if !quireUp s (f / 256) then some { cause := 5, opnd := 6, res := f / 256 }
    else match flagFault s p false f with
    | some x => some x
    | none => if p.c.debug && s.qre.flags.get false f then some { cause := 0x11, opnd := 6, res := f } else none
  match fault with
  | some x => quireFault q c x s
  | none =>
    let s := if d.set.getLsbD 15 then s.onQre fun x => { x with flags := x.flags.set f true } else s
    let s := if d.opn ≤ 0x05 then s else count (0x040 + q) s
    onCore k (Core.next d) (count (0x100 + q) s)

/-- The wait of a core's descriptor: `none` where it does not pass. A wait that passes clears its flag unless KEEP is 1. -/
def passWait (k : Nat) (d : Desc) (s : State) : Option State :=
  let f := k / 4 * 256 + d.wait.toNat % 256
  if !d.wait.getLsbD 15 || (coreOf s k).waited then some s
  else if !s.qre.flags.get false f then none
  else
    let s := if d.wait.getLsbD 14 then s else s.onQre fun x => { x with flags := x.flags.erase f }
    some (onCore k (fun c => { c with waited := true }) s)
/-- The fault of a descriptor's wait. -/
def waitFault (s : State) (p : Prog) (k : Nat) (d : Desc) : Option QFault :=
  if !d.wait.getLsbD 15 || (coreOf s k).waited then none else flagFault s p true (k / 4 * 256 + d.wait.toNat % 256)

/-- What the check bits show as the descriptor runs: a correction, or a block that it reads and is poisoned. -/
def noteEcc (e : EccHit) (d : Desc) (xs : List Access) (s : State) : State :=
  match e with
  | .corrected n => corrected' n 1 s
  | .block a => if (xs.filter d.reads).any (fun x => x.blocks.contains (a / 64 * 64)) then poison a s else s
  | _ => s

/-- The entries of a QPUSH or QPOP that can move now: each is 64 B. -/
def moveEntries (push : Bool) (id depth : Nat) (d : Desc) (p : Prog) : Nat → Nat → State → Nat × State
  | 0, i, s => (i, s)
  | n + 1, i, s =>
    let es := s.qre.queues.get [] id
    if push then
      if depth ≤ es.length then (i, s)
      else
        let b := s.mem.readN (elAt (d.opnd 1) 4 i 0) 64
        moveEntries push id depth d p n (i + 1) (s.onQre fun x => { x with queues := x.queues.set id (es ++ [b]) })
    else match es with
    | [] => (i, s)
    | b :: bs =>
      let a := elAt (d.opnd 0) 4 i 0
      let s := s.onQre fun x => { x with queues := x.queues.set id bs }
      let ws := (List.range 16).map fun j => (a + 4 * j, 4, ((fld b (4 * j) 4, []) : Elem))
      moveEntries push id depth d p n (i + 1) (storeAll p ws s)

/-- The data work of QPUSH and QPOP: entries move until all ROWS have or the queue stalls it. -/
def queueWork (q c : Nat) (push : Bool) (p : Prog) (d : Desc) (s : State) : State :=
  let k := 4 * q + c
  let id := d.queue.toNat
  match queueFault s p q k push id with
  | some f => quireFault q c f s
  | none =>
    let s := s.onQre fun x => { x with ends := x.ends.set (2 * id + push.toNat) k }
    let cls := match p.c.queues.find? (·.id == id) with | some x => x.cls | none => 0
    let i := (coreOf s k).moved
    let r := moveEntries push id (depthOf cls) d p (d.rows.toNat - i) i s
    if d.rows.toNat ≤ r.1 || d.empty then endDesc q c p d r.2
    else onCore k (fun c => { c with moved := r.1, stalled := true }) r.2

/-- The data work of a descriptor whose checks have passed, and its set. -/
def dataWork (q c : Nat) (p : Prog) (d : Desc) (s : State) : State :=
  if d.opn == 0x14 then queueWork q c true p d s
  else if d.opn == 0x15 then queueWork q c false p d s
  else if d.opn == 0x05 then endDesc q c p d (reach (s.ep.tickAt + d.arg.toNat) s)
  else if d.opn ≤ 0x05 then endDesc q c p d s
  else endDesc q c p d (storeAll p (d.writes s.mem) s)

/-- A descriptor at a core whose wait has passed: its accesses checked, then its data work. -/
def runWork (q c : Nat) (ecc : EccHit) (p : Prog) (d : Desc) (s : State) : State :=
  let xs := d.accesses s.mem
  match undeclared p.c d xs with
  | some f => quireFault q c f s
  | none =>
    let s := noteEcc ecc d xs s
    match poisoned d s.qre.poison xs with
    | some f => quireFault q c f s
    | none => match readBeforeWrite s p d xs with
      | some f => quireFault q c f s
      | none => dataWork q c p d s

/-- A core runs the descriptor it is at, where that has the operator: the wait is tried first, and a core that waits
stays as it is. -/
def runOp (op q c : Nat) (ecc : EccHit) (s : State) : State :=
  let k := 4 * q + c
  match current s k with
  | none => s
  | some (p, d) =>
    if d.opn != op then s
    else if ecc == .desc then quireFault q c { cause := 7, res := q } s
    else match waitFault s p k d with
    | some f => quireFault q c f s
    | none => match passWait k d s with
      | none => s
      | some s => runWork q c ecc p d s

/-! ## The steps of the cores -/

/-- DESC_WAIT_PASS (R267): a waiting core passes when its flag is set. -/
def doDescWaitPass (q c : Nat) (s : State) : State :=
  let k := 4 * q + c
  match current s k with
  | none => s
  | some (p, d) => match waitFault s p k d with
    | some f => quireFault q c f s
    | none => (passWait k d s).getD s

/-- DESC_WAIT_PASS. -/
def execDescWaitPass (q : Fin 64) (c : Fin 4) (s : State) : Host.Outcome State Fault Refusal := .next (doDescWaitPass q c s)

/-- QUEUE_STALL_RELEASE (R287): a stalled QPUSH or QPOP resumes. -/
def doQueueStallRelease (q c : Nat) (ecc : EccHit) (s : State) : State :=
  if !(coreOf s (4 * q + c)).stalled then s
  else match current s (4 * q + c) with
  | some (_, d) => runOp d.opn q c ecc s
  | none => s

/-- QUEUE_STALL_RELEASE. -/
def execQueueStallRelease (q : Fin 64) (c : Fin 4) (ecc : EccHit) (s : State) : Host.Outcome State Fault Refusal :=
  .next (doQueueStallRelease q c ecc s)

/-- CYCLE_COMPLETION_WRITE (R257): the core's descriptor, where its DST is the cycle completion register. -/
def doCycleCompletionWrite (q c : Nat) (ecc : EccHit) (s : State) : State :=
  match current s (4 * q + c) with
  | some (_, d) => if oAddr (d.opnd 0) == 0x400020000 then runOp d.opn q c ecc s else s
  | none => s

/-- CYCLE_COMPLETION_WRITE. -/
def execCycleCompletionWrite (q : Fin 64) (c : Fin 4) (ecc : EccHit) (s : State) : Host.Outcome State Fault Refusal :=
  .next (doCycleCompletionWrite q c ecc s)

/-! ## The cores at a cycle tick (R266, R294, R295) -/

/-- What a blocked core waits for, as a DEADLOCK's resource and operand. -/
def blockedOn (k : Nat) (d : Desc) (s : State) : Nat × Nat :=
  if d.wait.getLsbD 15 && !(coreOf s k).waited then (k / 4 * 256 + d.wait.toNat % 256, 5)
  else if d.opn == 0x14 || d.opn == 0x15 then (d.queue.toNat, 7)
  else (0, 0)
/-- One core at a cycle tick: started where it halted, DEADLOCK where it completed nothing, else QUIRE_OVERRUN. -/
def tickCore (k : Nat) (s : State) : State :=
  let x := coreOf s k
  match x.st with
  | .halted => onCore k (fun _ => { st := .running }) s
  | .stopped => s
  | .running =>
    if x.did then onCore k (fun c => { c with did := false }) (overrun k s)
    else match current s k with
      | some (_, d) => let r := blockedOn k d s; quireFault (k / 4) (k % 4) { cause := 8, opnd := r.2, res := r.1 } s
      | none => quireFault (k / 4) (k % 4) { cause := 8 } s
/-- The core that used an end of a queue this cycle, else every core of its quire, has halted. -/
def endHalted (s : State) (p : Prog) (q e : Nat) : Bool :=
  match s.qre.ends.find e with
  | some k => (coreOf s k).st == .halted
  | none => (p.cores.filter fun k => k / 4 == q).all fun k => (coreOf s k).st == .halted
/-- HAZARD_QUEUE at a tick in debug mode: a queue that holds entries while both its cores have halted. -/
def leftovers (p : Prog) (s : State) : State :=
  if !p.c.debug || p.st != .ready then s
  else match p.c.queues.find? fun x => !(s.qre.queues.get [] x.id).isEmpty && endHalted s p (x.id / 16) (2 * x.id + 1) &&
      endHalted s p x.cons (2 * x.id) with
  | some x => quireFault (x.id / 16) ((s.qre.ends.get (4 * (x.id / 16)) (2 * x.id + 1)) % 4) { cause := 0x12, opnd := 7, res := x.id } s
  | none => s
/-- Every core of the quires that do not change their program, at a cycle tick. -/
def tickCores (chg : List Nat) (s : State) : State :=
  let s := s.qre.progs.foldl (fun s p => leftovers p s) s
  let s := s.onQre fun x => { x with touched := [], ends := [] }
  ((s.qre.cores.map (·.1)).filter fun k => !chg.contains (k / 4)).foldl (fun s k =>
    if quireUp s (k / 4) && (match progOf s k with | some p => p.st == .ready | none => false) then tickCore k s else s) s

/-! ## The operators (Table 11-5): each runs at a core that is at a descriptor with that operator -/

/-- NOP. -/
def execNop (q : Fin 64) (c : Fin 4) (ecc : EccHit) (s : State) : Host.Outcome State Fault Refusal :=
  .next (runOp 0x00 q c ecc s)

/-- HALT. -/
def execHalt (q : Fin 64) (c : Fin 4) (ecc : EccHit) (s : State) : Host.Outcome State Fault Refusal :=
  .next (runOp 0x01 q c ecc s)

/-- JUMP. -/
def execJump (q : Fin 64) (c : Fin 4) (ecc : EccHit) (s : State) : Host.Outcome State Fault Refusal :=
  .next (runOp 0x02 q c ecc s)

/-- LOOP. -/
def execLoop (q : Fin 64) (c : Fin 4) (ecc : EccHit) (s : State) : Host.Outcome State Fault Refusal :=
  .next (runOp 0x03 q c ecc s)

/-- FENCE. -/
def execFence (q : Fin 64) (c : Fin 4) (ecc : EccHit) (s : State) : Host.Outcome State Fault Refusal :=
  .next (runOp 0x04 q c ecc s)

/-- TICKWAIT. -/
def execTickwait (q : Fin 64) (c : Fin 4) (ecc : EccHit) (s : State) : Host.Outcome State Fault Refusal :=
  .next (runOp 0x05 q c ecc s)

/-- COPY. -/
def execCopy (q : Fin 64) (c : Fin 4) (ecc : EccHit) (s : State) : Host.Outcome State Fault Refusal :=
  .next (runOp 0x10 q c ecc s)

/-- FILL. -/
def execFill (q : Fin 64) (c : Fin 4) (ecc : EccHit) (s : State) : Host.Outcome State Fault Refusal :=
  .next (runOp 0x11 q c ecc s)

/-- GATHER. -/
def execGather (q : Fin 64) (c : Fin 4) (ecc : EccHit) (s : State) : Host.Outcome State Fault Refusal :=
  .next (runOp 0x12 q c ecc s)

/-- SCATTER. -/
def execScatter (q : Fin 64) (c : Fin 4) (ecc : EccHit) (s : State) : Host.Outcome State Fault Refusal :=
  .next (runOp 0x13 q c ecc s)

/-- QPUSH. -/
def execQpush (q : Fin 64) (c : Fin 4) (ecc : EccHit) (s : State) : Host.Outcome State Fault Refusal :=
  .next (runOp 0x14 q c ecc s)

/-- QPOP. -/
def execQpop (q : Fin 64) (c : Fin 4) (ecc : EccHit) (s : State) : Host.Outcome State Fault Refusal :=
  .next (runOp 0x15 q c ecc s)

/-- CONVERT. -/
def execConvert (q : Fin 64) (c : Fin 4) (ecc : EccHit) (s : State) : Host.Outcome State Fault Refusal :=
  .next (runOp 0x16 q c ecc s)

/-- TRANSPOSE. -/
def execTranspose (q : Fin 64) (c : Fin 4) (ecc : EccHit) (s : State) : Host.Outcome State Fault Refusal :=
  .next (runOp 0x17 q c ecc s)

/-- ADD. -/
def execAdd (q : Fin 64) (c : Fin 4) (ecc : EccHit) (s : State) : Host.Outcome State Fault Refusal :=
  .next (runOp 0x20 q c ecc s)

/-- SUB. -/
def execSub (q : Fin 64) (c : Fin 4) (ecc : EccHit) (s : State) : Host.Outcome State Fault Refusal :=
  .next (runOp 0x21 q c ecc s)

/-- MUL. -/
def execMul (q : Fin 64) (c : Fin 4) (ecc : EccHit) (s : State) : Host.Outcome State Fault Refusal :=
  .next (runOp 0x22 q c ecc s)

/-- FMA. -/
def execFma (q : Fin 64) (c : Fin 4) (ecc : EccHit) (s : State) : Host.Outcome State Fault Refusal :=
  .next (runOp 0x23 q c ecc s)

/-- DIV. -/
def execDiv (q : Fin 64) (c : Fin 4) (ecc : EccHit) (s : State) : Host.Outcome State Fault Refusal :=
  .next (runOp 0x24 q c ecc s)

/-- MIN. -/
def execMin (q : Fin 64) (c : Fin 4) (ecc : EccHit) (s : State) : Host.Outcome State Fault Refusal :=
  .next (runOp 0x25 q c ecc s)

/-- MAX. -/
def execMax (q : Fin 64) (c : Fin 4) (ecc : EccHit) (s : State) : Host.Outcome State Fault Refusal :=
  .next (runOp 0x26 q c ecc s)

/-- ABS. -/
def execAbs (q : Fin 64) (c : Fin 4) (ecc : EccHit) (s : State) : Host.Outcome State Fault Refusal :=
  .next (runOp 0x27 q c ecc s)

/-- SQRT. -/
def execSqrt (q : Fin 64) (c : Fin 4) (ecc : EccHit) (s : State) : Host.Outcome State Fault Refusal :=
  .next (runOp 0x28 q c ecc s)

/-- RSQRT. -/
def execRsqrt (q : Fin 64) (c : Fin 4) (ecc : EccHit) (s : State) : Host.Outcome State Fault Refusal :=
  .next (runOp 0x29 q c ecc s)

/-- EXP. -/
def execExp (q : Fin 64) (c : Fin 4) (ecc : EccHit) (s : State) : Host.Outcome State Fault Refusal :=
  .next (runOp 0x2A q c ecc s)

/-- LOG. -/
def execLog (q : Fin 64) (c : Fin 4) (ecc : EccHit) (s : State) : Host.Outcome State Fault Refusal :=
  .next (runOp 0x2B q c ecc s)

/-- SCALE. -/
def execScale (q : Fin 64) (c : Fin 4) (ecc : EccHit) (s : State) : Host.Outcome State Fault Refusal :=
  .next (runOp 0x2C q c ecc s)

/-- CLAMP. -/
def execClamp (q : Fin 64) (c : Fin 4) (ecc : EccHit) (s : State) : Host.Outcome State Fault Refusal :=
  .next (runOp 0x2D q c ecc s)

/-- SELECT. -/
def execSelect (q : Fin 64) (c : Fin 4) (ecc : EccHit) (s : State) : Host.Outcome State Fault Refusal :=
  .next (runOp 0x2E q c ecc s)

/-- INTERP. -/
def execInterp (q : Fin 64) (c : Fin 4) (ecc : EccHit) (s : State) : Host.Outcome State Fault Refusal :=
  .next (runOp 0x2F q c ecc s)

/-- REDSUM. -/
def execRedsum (q : Fin 64) (c : Fin 4) (ecc : EccHit) (s : State) : Host.Outcome State Fault Refusal :=
  .next (runOp 0x30 q c ecc s)

/-- REDMAX. -/
def execRedmax (q : Fin 64) (c : Fin 4) (ecc : EccHit) (s : State) : Host.Outcome State Fault Refusal :=
  .next (runOp 0x31 q c ecc s)

/-- REDMIN. -/
def execRedmin (q : Fin 64) (c : Fin 4) (ecc : EccHit) (s : State) : Host.Outcome State Fault Refusal :=
  .next (runOp 0x32 q c ecc s)

/-- ARGMAX. -/
def execArgmax (q : Fin 64) (c : Fin 4) (ecc : EccHit) (s : State) : Host.Outcome State Fault Refusal :=
  .next (runOp 0x33 q c ecc s)

/-- MATMUL. -/
def execMatmul (q : Fin 64) (c : Fin 4) (ecc : EccHit) (s : State) : Host.Outcome State Fault Refusal :=
  .next (runOp 0x34 q c ecc s)

/-- SPMV. -/
def execSpmv (q : Fin 64) (c : Fin 4) (ecc : EccHit) (s : State) : Host.Outcome State Fault Refusal :=
  .next (runOp 0x35 q c ecc s)

end Sys2Proof.Machine
end

