-- ==== Sys2Proof/Machine/Regions.lean ====
section
/-! DEFINITION. Machine/Regions.lean: the planner's state space (chapter 13): region sets, harbour sets and voxel trees,
collisions, and the motion of R316. States are exact rationals in axis units; a root that a duration needs is taken from
below, to 2^-40 s (DESIGN CHOICE, log 30). -/

namespace Sys2Proof.Machine

/-! ## Region sets (Tables 13-3 and 13-4) -/

/-- The exact value of a finite binary32. -/
def ratOf32 (w : Nat) : Option Rat :=
  let ex : Nat := w / 2 ^ 23 % 256
  let f : Nat := w % 2 ^ 23
  let s : Rat := if w.testBit 31 then -1 else 1
  if ex == 255 then none
  else if ex == 0 then some (s * (f : Rat) / (2 ^ 149 : Nat))
  else if ex < 150 then some (s * ((2 ^ 23 + f : Nat) : Rat) / (2 ^ (150 - ex) : Nat))
  else some (s * ((2 ^ 23 + f : Nat) : Rat) * (2 ^ (ex - 150) : Nat))
/-- A binary32 field, 0 where it is not finite. -/
def ratAt (b : Bytes) (o : Nat) : Rat := (ratOf32 (fld b o 4)).getD 0
/-- `n` binary32 fields. -/
def ratsAt (b : Bytes) (o n : Nat) : List Rat := (List.range n).map fun i => ratAt b (o + 4 * i)
/-- `n` binary32 fields are finite. -/
def finiteAt (b : Bytes) (o n : Nat) : Bool := (List.range n).all fun i => (ratOf32 (fld b (o + 4 * i) 4)).isSome

/-- An axis record (Table 13-3). -/
structure Axis where
  kind  : Nat := 0
  loc   : Nat := 0
  act   : Nat := 0
  lo    : Rat := 0
  hi    : Rat := 1
  vmax  : Rat := 1
  amax  : Rat := 1
  jmax  : Rat := 1
  below : Rat := 0
  rate  : Rat := 1
  delta : Rat := 0

/-- An explicit region over the normalized cube (Table 13-4): a box, a sphere over some axes, or a closed mesh over three. -/
inductive Shape where
  | box (lo hi : List Rat)
  | sphere (centre : List Rat) (radius : Rat) (axes : List Nat)
  | mesh (axes : List Nat) (tris : List (List (List Rat)))

/-- A region set: its axes, its margin, and its regions with their tags. -/
structure RegSet where
  axes   : List Axis := []
  margin : Rat := 0
  shapes : List (Shape × Nat) := []

/-- NAXES. -/
def regAxes (o : Bytes) : Nat := fld o 6 1
/-- The axis records' bytes. -/
def axisRec (o : Bytes) (i : Nat) : Bytes := sub o (64 + 64 * i) 64
/-- An axis record read. -/
def readAxis (r : Bytes) : Axis :=
  { kind := fld r 0 1, loc := fld r 2 4, act := fld r 8 8, lo := ratAt r 16, hi := ratAt r 20, vmax := ratAt r 24,
    amax := ratAt r 28, jmax := ratAt r 32, below := ratAt r 36, rate := ratAt r 40, delta := ratAt r 44 }
/-- The offset of the first box record. -/
def boxOff (o : Bytes) : Nat := 64 + 64 * regAxes o
/-- The offset of the first sphere record. -/
def sphereOff (o : Bytes) : Nat := boxOff o + 104 * fld o 8 2
/-- The offset of the first mesh. -/
def meshOff (o : Bytes) : Nat := sphereOff o + 56 * fld o 10 2
/-- A box record read. -/
def readBox (o : Bytes) (i : Nat) : Shape × Nat :=
  let r := sub o (boxOff o + 104 * i) 104
  (.box (ratsAt r 0 12) (ratsAt r 48 12), fld r 96 1)
/-- A sphere record read. -/
def readSphere (o : Bytes) (i : Nat) : Shape × Nat :=
  let r := sub o (sphereOff o + 56 * i) 56
  (.sphere (ratsAt r 0 12) (ratAt r 48) ((List.range 16).filter fun k => (fld r 52 2).testBit k), fld r 54 1)
/-- A mesh read. -/
def readMesh (o : Bytes) (at_ : Nat) : Shape × Nat :=
  let n := fld o (at_ + 4) 2
  (.mesh ((List.range 3).map fun k => fld o (at_ + k) 1)
    ((List.range n).map fun t => (List.range 3).map fun v => ratsAt o (at_ + 16 + 36 * t + 12 * v) 3),
   fld o (at_ + 3) 1)
/-- The offsets of the meshes, and the offset past the last. -/
def meshOffs (o : Bytes) : Nat → Nat → List Nat × Nat
  | 0, k => ([], k)
  | n + 1, k =>
    let r := meshOffs o n (k + 16 + 36 * fld o (k + 4) 2)
    (k :: r.1, r.2)
/-- A region set object read. -/
def readRegions (o : Bytes) : RegSet :=
  { axes := (List.range (regAxes o)).map fun i => readAxis (axisRec o i), margin := ratAt o 12,
    shapes := (List.range (fld o 8 2)).map (readBox o) ++ (List.range (fld o 10 2)).map (readSphere o) ++
      (meshOffs o (fld o 7 1) (meshOff o)).1.map (readMesh o) }

/-- The local elements of an axis, numbered as in LOCAL. -/
def Axis.elems (a : Axis) : List Nat := (List.range 20).filter fun e => a.loc.testBit e
/-- The actuator addresses of an axis. -/
def Axis.acts (a : Axis) : List Nat := (List.range 63).filter fun n => a.act.testBit n
/-- The KIND of a local element. -/
def elemKind (e : Nat) : Nat := if e < 4 then 0 else if e < 12 then 2 else 1
/-- The rate of a local element in its axis unit per second (Tables 09-5 to 09-7), none where the element is not used. -/
def elemRate (s : State) (e : Nat) : Option Nat :=
  let r := if e < 4 then pRec s e else if e < 12 then fRec s (e - 4) else vRec s (e - 12)
  if r.isEmpty then none else some (if e < 4 then fld r 10 2 else if e < 12 then fld r 4 2 else 10 * fld r 10 2)
/-- An axis record satisfies Table 13-3 and R309. -/
def axisOk (s : State) (r : Bytes) : Bool :=
  let a := readAxis r
  decide (a.kind ≤ 3) && isZero r 1 1 && isZero r 6 2 && isZero r 48 16 && decide (a.loc < 2 ^ 20) && decide (a.act < 2 ^ 63) &&
  finiteAt r 16 8 && decide (a.lo < a.hi) && decide (0 < a.vmax) && decide (0 < a.amax) && decide (0 < a.jmax) &&
  decide (0 < a.rate) && decide (a.rate ≤ a.vmax) && decide (0 ≤ a.delta) && (a.kind == 1 || a.delta == 0) &&
  a.elems.all (fun e => elemKind e == a.kind && (elemRate s e).all fun r => decide (a.vmax ≤ (r : Nat))) &&
  a.acts.all (fun n => !(actCfg s n).isEmpty && fld (actCfg s n) 2 1 == a.kind)
/-- The coordinates at or beyond NAXES are 0 (R309). -/
def pastZero (n : Nat) (xs : List Rat) : Bool := (xs.drop n).all (· == 0)
/-- The undirected edges of a mesh. -/
def meshEdges (ts : List (List (List Rat))) : List (List Rat × List Rat) :=
  ts.flatMap fun t =>
    let v := fun i => t.getD i []
    [(v 0, v 1), (v 1, v 2), (v 2, v 0)]
/-- Two edges join the same vertices. -/
def sameEdge (a b : List Rat × List Rat) : Bool := (a.1 == b.1 && a.2 == b.2) || (a.1 == b.2 && a.2 == b.1)
/-- Each edge is shared by exactly two triangles. -/
def meshClosed (ts : List (List (List Rat))) : Bool :=
  (meshEdges ts).all fun e => ((meshEdges ts).filter (sameEdge e)).length == 2
/-- A region satisfies Table 13-4 and R309. -/
def shapeOk (n : Nat) : Shape × Nat → Bool
  | (.box lo hi, tag) =>
    decide (tag ≤ 5) && (lo.zip hi).all (fun p => decide (p.1 ≤ p.2)) && pastZero n lo && pastZero n hi
  | (.sphere c r axes, tag) => decide (tag ≤ 5) && decide (0 < r) && pastZero n c && axes.all fun k => decide (k < 12)
  | (.mesh axes ts, tag) =>
    decide (tag ≤ 5) && axes.all (fun k => decide (k < 12)) && axes.eraseDups.length == 3 && inRange 1 ts.length 4096 &&
    meshClosed ts &&
    ts.all fun t => t.all fun v => (axes.zip v).all fun p => decide (p.1 < n) || p.2 == 0

/-- A region set object is valid (R309). -/
def regionsValid (s : State) (o : Bytes) : Bool :=
  let n := regAxes o
  let r := readRegions o
  let ms := meshOffs o (fld o 7 1) (meshOff o)
  fld o 0 4 == 0x52474E50 && fld o 4 2 == 1 && inRange 1 n 12 && decide (fld o 7 1 ≤ 16) && decide (fld o 8 2 ≤ 256) &&
  decide (fld o 10 2 ≤ 256) && finiteAt o 12 1 && decide (0 ≤ r.margin) && decide (r.margin ≤ (ratOf32 0x3D4CCCCD).getD 0) &&
  isZero o 16 48 && o.length == ms.2 &&
  (List.range n).all (fun i => axisOk s (axisRec o i)) &&
  (List.range 20).all (fun e => decide ((r.axes.filter fun a => a.elems.contains e).length ≤ 1)) &&
  (List.range 63).all (fun k => decide ((r.axes.filter fun a => a.acts.contains k).length ≤ 1)) &&
  (List.range (fld o 8 2)).all (fun i => finiteAt o (boxOff o + 104 * i) 24 && isZero o (boxOff o + 104 * i + 97) 7) &&
  (List.range (fld o 10 2)).all (fun i => finiteAt o (sphereOff o + 56 * i) 13 && isZero o (sphereOff o + 56 * i + 55) 1) &&
  ms.1.all (fun k => isZero o (k + 6) 10 && finiteAt o (k + 16) (9 * fld o (k + 4) 2)) &&
  r.shapes.all (shapeOk n)

/-- The adopted region set. -/
def regSet (s : State) : RegSet := match s.kt.regions with | some o => readRegions o | none => {}
/-- Two objects agree in NAXES and in every axis's KIND, LOCAL and ACT (R311). -/
def sameMapping (a b : Bytes) : Bool :=
  regAxes a == regAxes b && (List.range (regAxes a)).all fun i =>
    sub (axisRec a i) 0 1 == sub (axisRec b i) 0 1 && sub (axisRec a i) 2 4 == sub (axisRec b i) 2 4 &&
    sub (axisRec a i) 8 8 == sub (axisRec b i) 8 8

/-! ## Harbour sets and voxel trees (Tables 13-1 and 13-5) -/

/-- `n` bytes of a memory as a little-endian value. -/
def memVal (m : Mem) (o n : Nat) : Nat := leVal (m.readN o n)
/-- A range of a memory is 0. -/
def memZero (m : Mem) (o n : Nat) : Bool := (m.range o (o + n)).isEmpty
/-- A voxel tree as a harbour set names it. -/
structure Voxels where
  root  : Nat
  nodes : Nat
  axes  : List Nat
  tag   : Nat
/-- Tree `i` of a harbour set. -/
def treeAt (m : Mem) (i : Nat) : Voxels :=
  let o := 0x10 + 32 * i
  { root := memVal m o 8, nodes := memVal m (o + 8) 4, axes := (List.range 3).map fun k => memVal m (o + 12 + k) 1,
    tag := memVal m (o + 15) 1 }
/-- The fields of a harbour set keep to Table 13-1, with its CRC and the tick at which it is to become current (R304). -/
def harbourOk (m : Mem) (tick : Nat) : Bool :=
  memVal m 0 8 == tick && inRange 1 (memVal m 8 2) 64 && decide (memVal m 10 2 < 2) && memZero m 0xC 4 &&
  (List.range 8).all (fun i =>
    let t := treeAt m i
    memZero m (0x20 + 32 * i) 16 &&
    (t.nodes == 0 || (t.root % 64 == 0 && decide (t.nodes ≤ 262144) && t.axes.all (fun k => decide (k < 12)) &&
      t.axes.eraseDups.length == 3 && decide (t.tag ≤ 5)))) &&
  (List.range 64).all (fun h => memVal m (0x140 + 64 * h) 4 < 2 && memZero m (0x144 + 64 * h) 12 &&
    (memVal m (0x140 + 64 * h) 4 == 0 || finiteAt (m.readN (0x110 + 64 * h) 48) 0 12)) &&
  memZero m 0x1110 61164 && memVal m 0xFFFC 4 == crc32c (m.readN 0 0xFFFC)

/-- A node of a tree in working store. -/
def nodeAt (m : Mem) (t : Voxels) (k : Nat) : Nat := memVal m (t.root + 8 * k) 8
/-- The state of octant `c` of a node. -/
def octant (w c : Nat) : Nat := w / 2 ^ (2 * c) % 4
/-- The node of a MIXED octant: FIRST, and one for each MIXED octant before it. -/
def childOf (w c : Nat) : Nat := w / 2 ^ 16 % 2 ^ 32 + ((List.range c).filter fun d => octant w d == 2).length
/-- The nodes below an index keep to Table 13-5; `d` levels may still be divided. -/
def nodesOk (m : Mem) (t : Voxels) : Nat → Nat → Bool
  | 0, _ => false
  | d + 1, k =>
    let w := nodeAt m t k
    decide (k < t.nodes) && decide (w < 2 ^ 48) &&
    (List.range 8).all fun c => octant w c != 3 && (octant w c != 2 || nodesOk m t d (childOf w c))
/-- The trees of a harbour set whose nodes break Table 13-5. -/
def badTrees (m h : Mem) : List Nat :=
  (List.range 8).filter fun i => let t := treeAt h i; t.nodes != 0 && !nodesOk m t 10 0

/-! ## Collisions (R314) -/

/-- A coordinate of a region's list. -/
def crd (xs : List Rat) (i : Nat) : Rat := xs.getD i 0
/-- One axis of a sweep: where it starts, how far it goes, and how far about it the states count. -/
structure Swept where
  from_ : Rat := 0
  by_   : Rat := 0
  half  : Rat := 0
/-- The axes of the straight segment between two normalized states, with MARGIN about it; a null axis lies at 0 and is not
widened (R313). -/
def sweep (margin : Rat) (u w : List Rat) (i : Nat) : Swept :=
  if i < u.length then { from_ := crd u i, by_ := crd w i - crd u i, half := margin } else {}
/-- The demands, as `a + b t ≥ 0`, for an axis to meet a closed interval when a part `t` of the sweep is done. -/
def Swept.within (p : Swept) (lo hi : Rat) : List (Rat × Rat) :=
  [(p.from_ + p.half - lo, p.by_), (hi - p.from_ + p.half, -p.by_)]
/-- Some part of the sweep, from 0 to 1, meets all of the demands. -/
def somewhere (cs : List (Rat × Rat)) : Bool :=
  let lo := cs.foldl (fun m c => if 0 < c.2 then max m (-c.1 / c.2) else m) 0
  let hi := cs.foldl (fun m c => if c.2 < 0 then min m (c.1 / -c.2) else m) 1
  cs.all (fun c => c.2 != 0 || decide (0 ≤ c.1)) && decide (lo ≤ hi)
/-- A sweep meets a box. -/
def boxMeets (ps : List (Swept × Rat × Rat)) : Bool := somewhere (ps.flatMap fun p => p.1.within p.2.1 p.2.2)

/-- How far a coordinate lies outside the states about an axis when a part `t` of its sweep is done. -/
def Swept.gap (p : Swept) (c t : Rat) : Rat :=
  max 0 (max (p.from_ + p.by_ * t - p.half - c) (c - p.half - p.from_ - p.by_ * t))
/-- The squared distance of a centre from those states. -/
def gapAt (ps : List (Swept × Rat)) (t : Rat) : Rat := (ps.map fun p => p.1.gap p.2 t ^ 2).sum
/-- Where a gap starts or ends within a sweep. -/
def Swept.breaks (p : Swept) (c : Rat) : List Rat :=
  if p.by_ == 0 then []
  else [(c - p.half - p.from_) / p.by_, (c + p.half - p.from_) / p.by_].filter fun t => decide (0 < t) && decide (t < 1)
/-- The least value of a convex quadratic over a piece, from its values at the two ends and the middle. -/
def leastOver (a m b : Rat) : Rat :=
  let k := a + b - 2 * m
  let d := 3 * a - 4 * m + b
  if 0 < k && decide (0 < d) && decide (d < 4 * k) then a - d ^ 2 / (8 * k) else min a b
/-- Some part of a sweep comes within a radius of a centre: its distance is quadratic between the breaks. -/
def sphereMeets (ps : List (Swept × Rat)) (r : Rat) : Bool :=
  let ts := (0 :: 1 :: ps.flatMap fun p => p.1.breaks p.2).insertionSort (· ≤ ·)
  (ts.zip ts.tail).any fun q => decide (leastOver (gapAt ps q.1) (gapAt ps ((q.1 + q.2) / 2)) (gapAt ps q.2) ≤ r ^ 2)

/-- A FULL cell of a tree meets a sweep: below node `k`, whose cell has its lower corner at `lo` and side `w`. -/
def cellMeets (m : Mem) (t : Voxels) (r : List Swept) : Nat → Nat → List Rat → Rat → Bool
  | 0, _, _, _ => false
  | d + 1, k, lo, w =>
    let n := nodeAt m t k
    (List.range 8).any fun c =>
      let h := w / 2
      let l := (List.range 3).map fun i => crd lo i + (if c.testBit i then h else 0)
      let hit := boxMeets ((List.range 3).map fun i => (r.getD i {}, crd l i, crd l i + h))
      hit && (octant n c == 1 || (octant n c == 2 && cellMeets m t r d (childOf n c) l h))

/-- A vector difference. -/
def vsub (a b : List Rat) : List Rat := (List.range 3).map fun i => crd a i - crd b i
/-- A cross product. -/
def vcross (a b : List Rat) : List Rat :=
  [crd a 1 * crd b 2 - crd a 2 * crd b 1, crd a 2 * crd b 0 - crd a 0 * crd b 2, crd a 0 * crd b 1 - crd a 1 * crd b 0]
/-- A dot product. -/
def vdot (a b : List Rat) : Rat := crd a 0 * crd b 0 + crd a 1 * crd b 1 + crd a 2 * crd b 2
/-- A swept box and a triangle do not lie apart along a direction. -/
def notApart (ps : List Swept) (t : List (List Rat)) (n : List Rat) : Bool :=
  let c := vdot n (ps.map (·.from_))
  let d := vdot n (ps.map (·.by_))
  let r := vdot (n.map fun x => |x|) (ps.map (·.half))
  let p := t.map (vdot n)
  !(p.all (fun x => decide (max c (c + d) + r < x)) || p.all (fun x => decide (x < min c (c + d) - r)))
/-- The cross products of the pairs of a list. -/
def crosses : List (List Rat) → List (List Rat)
  | [] => []
  | a :: as => as.map (vcross a) ++ crosses as
/-- A triangle meets a swept box, by the theorem of separating axes: along the edges of both, the normals of each two, and
within those planes. -/
def triMeets (ps : List Swept) (t : List (List Rat)) : Bool :=
  let v := fun i => t.getD i []
  let es := [[1, 0, 0], [0, 1, 0], [0, 0, 1], ps.map (·.by_), vsub (v 1) (v 0), vsub (v 2) (v 1), vsub (v 0) (v 2)]
  let ns := crosses es
  (es ++ ns ++ ns.flatMap fun n => es.map (vcross n)).all (notApart ps t)
/-- The side of edge `a b` on which a point lies, seen along the first axis, the point moved by ε and ε² on the others. -/
def sideOf (a b p : List Rat) : Int :=
  let y := crd b 1 - crd a 1
  let z := crd b 2 - crd a 2
  let d := y * (crd p 2 - crd a 2) - z * (crd p 1 - crd a 1)
  if 0 < d then 1 else if d < 0 then -1 else if 0 < -z then 1 else if -z < 0 then -1 else if 0 < y then 1 else if y < 0 then -1
  else 0
/-- A ray from a point along the first axis crosses a triangle. -/
def rayCrosses (p : List Rat) (t : List (List Rat)) : Bool :=
  let v := fun i => t.getD i []
  let k := sideOf (v 0) (v 1) p
  let n := vcross (vsub (v 1) (v 0)) (vsub (v 2) (v 0))
  k != 0 && k == sideOf (v 1) (v 2) p && k == sideOf (v 2) (v 0) p &&
  decide (0 < vdot n (vsub (v 0) p) / crd n 0)
/-- A swept box meets the closed solid of a mesh: a triangle meets it, or it lies inside. -/
def meshMeets (ps : List Swept) (ts : List (List (List Rat))) : Bool :=
  ts.any (triMeets ps) || (ts.filter (rayCrosses (ps.map (·.from_)))).length % 2 == 1

/-- A region meets a sweep. -/
def Shape.hits (p : Nat → Swept) : Shape → Bool
  | .box lo hi => boxMeets ((List.range 12).map fun i => (p i, crd lo i, crd hi i))
  | .sphere c r axes => sphereMeets (axes.map fun i => (p i, crd c i)) r
  | .mesh axes ts => meshMeets (axes.map p) ts
/-- A current tree meets a sweep. A bad tree is FULL throughout its projection (R304). -/
def treeHits (m : Mem) (t : Voxels) (bad : Bool) (p : Nat → Swept) : Bool :=
  let r := t.axes.map p
  if bad then boxMeets (r.map fun q => (q, 0, 1)) else cellMeets m t r 10 0 [0, 0, 0] 1

/-- The normalized coordinates of a state (R310). -/
def normalize (g : RegSet) (x : List Rat) : List Rat := (g.axes.zip x).map fun p => (p.2 - p.1.lo) / (p.1.hi - p.1.lo)
/-- A state within MARGIN lies outside the bounds. -/
def outside (g : RegSet) (u : List Rat) : Bool := u.any fun c => decide (c - g.margin < 0) || decide (1 < c + g.margin)
/-- The tag of the first set that the path between two points meets: the bounds (OTHER), the boxes, spheres and meshes, the
trees. -/
def pathMeets (s : State) (g : RegSet) (x y : List Rat) : Option Nat :=
  let u := normalize g x
  let w := normalize g y
  let p := sweep g.margin u w
  if outside g u || outside g w then some 0
  else match g.shapes.find? (fun q => q.1.hits p) with
    | some q => some q.2
    | none =>
      match s.pln.harbour with
      | none => none
      | some h =>
        ((List.range 8).find? fun i =>
          let t := treeAt h i
          t.nodes != 0 && treeHits s.mem t (s.pln.bad.contains i) p).map fun i => (treeAt h i).tag
/-- The set that the planner may keep its paths clear of, 1/1,024 wider (R314). -/
def near (g : RegSet) : RegSet := { g with margin := g.margin + 1 / 1024 }

/-! ## Motion (R316) -/

/-- A bit string's root by bits: the largest r below 2^k with r^p ≤ n. -/
def rootGo (p : Nat) : Nat → Nat → Nat → Nat
  | 0, _, r => r
  | k + 1, n, r => if (r + 2 ^ k) ^ p ≤ n then rootGo p k n (r + 2 ^ k) else rootGo p k n r
/-- The p-th root of a rational from below, to 2^-40. -/
def rootBelow (p : Nat) (q : Rat) : Rat :=
  let n := (q * ((2 ^ (40 * p) : Nat) : Rat)).floor.toNat
  (rootGo p (Nat.log2 n / p + 1) n 0 : Rat) / (2 ^ 40 : Nat)

/-- A state of an axis moved on for `t` seconds under a jerk. -/
def advance (j t : Rat) (p : Rat × Rat × Rat) : Rat × Rat × Rat :=
  (p.1 + p.2.1 * t + p.2.2 * t ^ 2 / 2 + j * t ^ 3 / 6, p.2.1 + p.2.2 * t + j * t ^ 2 / 2, p.2.2 + j * t)
/-- The state of an axis `t` seconds into its phases. -/
def phaseAt : Rat → Rat × Rat × Rat → List (Rat × Rat) → Rat × Rat × Rat
  | _, p, [] => (p.1, 0, 0)
  | t, p, (j, d) :: ph => if t ≤ d then advance j t p else phaseAt (t - d) (advance j d p) ph
/-- An axis's state in a segment. -/
def AxisMotion.at (m : AxisMotion) (t : Rat) : Rat × Rat × Rat := phaseAt t (m.x, m.v, m.a) m.ph
/-- The seconds of an axis's phases. -/
def AxisMotion.span (m : AxisMotion) : Rat := (m.ph.map (·.2)).sum
/-- The state of every axis `t` seconds into a segment. -/
def Seg.at (g : Seg) (t : Rat) : List (Rat × Rat × Rat) :=
  if g.dur ≤ t then g.ends.map fun x => (x, 0, 0) else g.axes.map fun m => m.at t
/-- The state at a segment's start. -/
def Seg.begin_ (g : Seg) : List (Rat × Rat × Rat) := g.axes.map fun m => (m.x, m.v, m.a)

/-- The phases of progress from 0 to 1 within limits on its three rates: constant jerk to the greatest acceleration, that
for a time, and back; a cruise; and the same mirrored. -/
def progress (v a j : Rat) : List (Rat × Rat) :=
  let tj := min (a / j) (min (rootBelow 2 (v / j)) (rootBelow 3 (1 / (2 * j))))
  let p := j * tj
  let ta := max 0 (min (v / p - tj) ((rootBelow 2 (tj ^ 2 + 4 / p) - 3 * tj) / 2))
  let top := p * (tj + ta)
  let tv := (1 - top * (2 * tj + ta)) / top
  [(j, tj), (0, ta), (-j, tj), (0, tv), (-j, tj), (0, ta), (j, tj)]
/-- The least of a list of limits. -/
def least : List Rat → Rat
  | [] => 0
  | [x] => x
  | x :: xs => min x (least xs)
/-- V of an axis (R316): the water-hammer limit where it closes below HAMMER_BELOW. -/
def Axis.rateOf (a : Axis) (x y : Rat) : Rat := if y < x && min x y < a.below then a.rate else a.vmax
/-- A rest-to-rest segment between two states, at a fraction of every limit. -/
def moveSeg (g : RegSet) (speed : Rat) (x y : List Rat) : Seg :=
  let ps := (g.axes.zip (x.zip y)).map fun p => (p.1, p.2.1, p.2.2)
  let mv := ps.filter fun p => p.2.1 != p.2.2
  if mv.isEmpty then { axes := x.map fun c => { x := c }, ends := x }
  else
    let ph := progress (speed * least (mv.map fun p => p.1.rateOf p.2.1 p.2.2 / |p.2.2 - p.2.1|))
      (speed * least (mv.map fun p => p.1.amax / |p.2.2 - p.2.1|)) (speed * least (mv.map fun p => p.1.jmax / |p.2.2 - p.2.1|))
    { dur := (ph.map (·.2)).sum, ends := y,
      axes := ps.map fun p => { x := p.2.1, ph := ph.map fun k => (k.1 * (p.2.2 - p.2.1), k.2) } }
/-- The phases that bring a velocity and an acceleration to rest in the least time within AMAX and JMAX. -/
def stopPhases (amax j v a : Rat) : List (Rat × Rat) :=
  let k := v + a * |a| / (2 * j)
  if v == 0 && a == 0 then []
  else
    let u : Rat := if 0 < k then -1 else 1
    let w := u * v
    let b := u * a
    let top := min amax (rootBelow 2 (max 0 (j * (-w) + b ^ 2 / 2)))
    let d := if top < b then -j else j
    let th := if top == 0 then 0 else max 0 ((-w - (top ^ 2 - b ^ 2) / (2 * d) - top ^ 2 / (2 * j)) / top)
    [(u * d, |top - b| / j), (0, th), (-(u * j), top / j)]
/-- A stop segment from a moving state: each axis comes to rest by itself, at a fraction of its limits. -/
def stopSeg (g : RegSet) (speed : Rat) (st : List (Rat × Rat × Rat)) : Seg :=
  let ms : List AxisMotion := (g.axes.zip st).map fun p =>
    { x := p.2.1, v := p.2.2.1, a := p.2.2.2, ph := stopPhases (speed * p.1.amax) (speed * p.1.jmax) p.2.2.1 p.2.2.2 }
  { dur := (ms.map AxisMotion.span).foldl max 0, axes := ms, ends := ms.map fun m => (m.at (m.span + 1)).1 }
/-- A state moves. -/
def isMoving (st : List (Rat × Rat × Rat)) : Bool := st.any fun p => p.2.1 != 0 || p.2.2 != 0
/-- The segments from a state through others: a stop segment where it moves, then a segment to each. -/
def segsTo (g : RegSet) (speed : Rat) : List Rat → List (List Rat) → List Seg
  | _, [] => []
  | x, y :: ys => moveSeg g speed x y :: segsTo g speed y ys
/-- The plan of R316 from a state. -/
def planSegs (g : RegSet) (speed : Rat) (st : List (Rat × Rat × Rat)) (ways : List Rat → List (List Rat)) : List Seg :=
  if isMoving st then
    let h := stopSeg g speed st
    h :: segsTo g speed h.ends (ways h.ends)
  else let x := st.map (·.1); segsTo g speed x (ways x)
/-- The seconds of a list of segments. -/
def segsSpan (gs : List Seg) : Rat := (gs.map (·.dur)).sum
/-- The state of a trajectory at `t` seconds, whose first segment starts at `off`; one that waits is at its start. -/
def segsAt (started : Bool) : Rat → List Seg → Rat → List (Rat × Rat × Rat)
  | _, [], _ => []
  | off, g :: gs, t =>
    if !started then g.begin_
    else if gs.isEmpty || t - off < g.dur then g.at (t - off)
    else segsAt true (off + g.dur) gs t

end Sys2Proof.Machine
end

