-- ==== Sys2Proof/Machine/Planner.lean ====
section
/-! DEFINITION. Machine/Planner.lean: the setpoint planner (chapter 13): SETPOINT_REQUEST and REGION_SET, trajectories and
their points, verification passes and the hold path. -/

namespace Sys2Proof.Machine

/-! ## Points of time and states (R315) -/

/-- The first 1 ms point at or after a time. -/
def gridFrom (s : State) (t : Nat) : Nat :=
  let r := gridNs s t % 1000000
  if r < 1000 then t else t + (1000000 - r + 999) / 1000
/-- A point lies at a multiple of 10 ms. -/
def tenPoint (s : State) (t : Nat) : Bool := gridNs s t / 1000000 % 10 == 0

/-- Seconds from one time to another. -/
def secsFrom (a b : Nat) : Rat := ((b - a : Nat) : Rat) / 1000000
/-- A trajectory's state at a time. -/
def Traj.stateAt (r : Traj) (t : Nat) : List (Rat × Rat × Rat) := segsAt r.started r.off r.segs (secsFrom r.t0 t)
/-- A state at rest. -/
def restState (x : List Rat) : List (Rat × Rat × Rat) := x.map fun c => (c, 0, 0)
/-- The planner's state at a time to come. -/
def plnAt (s : State) (t : Nat) : List (Rat × Rat × Rat) :=
  match s.pln.run with
  | some r => r.stateAt t
  | none => restState s.pln.rest

/-- The greatest of a list of values. -/
def greatest : List Rat → Option Rat
  | [] => none
  | x :: xs => match greatest xs with | some y => some (max x y) | none => some x
/-- The start value of axis `i` (R311): the highest CMD of its elements, or the last value dispatched. -/
def startValue (s : State) (i : Nat) (a : Axis) : Rat :=
  match greatest (a.elems.map fun e => (elemCmd s e : Rat) / 10000) with
  | some v => v
  | none =>
    match greatest (a.acts.filterMap fun n => (s.kt.lastPt.find n).map fun p => (p.2.2.2 : Rat)) with
    | some v => v
    | none => (Config.startValue i : Rat) / 10000
/-- The start values of a region set. -/
def startValues (s : State) (g : RegSet) : List Rat := (g.axes.zipIdx).map fun p => startValue s p.2 p.1
/-- Every element of the axes has stopped ramping (R327). -/
def allStill (s : State) (g : RegSet) : Bool := g.axes.all fun a => a.elems.all (elemStill s)

/-- The highest floor among an axis's elements, in its unit (R317). -/
def axisFloor (s : State) (a : Axis) : Option Rat :=
  greatest ((a.elems.filter (· < 12)).map fun e =>
    if e < 4 then ((pumpOf s e).floor : Rat) / 10000 else ((fanOf s (e - 4)).floor : Rat) / 1000)
/-- A state raised to the floors. -/
def raised (s : State) (g : RegSet) (x : List Rat) : List Rat :=
  (g.axes.zip x).map fun p => match axisFloor s p.1 with | some f => max f p.2 | none => p.2

/-! ## Paths checked (R314, R321, R322) -/

/-- The state that a path holds at point `k` from a time on: an axis of actuators alone holds its value between its own
points. -/
def pathState (s : State) (g : RegSet) (t : Nat) (f : Rat → List (Rat × Rat × Rat)) (k : Nat) : List Rat :=
  let back := gridNs s (t + 1000 * k) / 1000000 % 10
  let x := (f ((k : Rat) / 1000)).map (·.1)
  let y := (f (((k - back : Nat) : Rat) / 1000)).map (·.1)
  (g.axes.zip (x.zip y)).map fun p => if p.1.elems.isEmpty then p.2.2 else p.2.1
/-- The tag of what a path meets from the point before point `k` to that point: on the way an axis of actuators alone keeps
the value of its last point. -/
def stepHit (s : State) (g : RegSet) (t : Nat) (f : Rat → List (Rat × Rat × Rat)) (k : Nat) : Option Nat :=
  let x := pathState s g t f (k - 1)
  let y := pathState s g t f k
  let v := (g.axes.zip (x.zip y)).map fun p => if p.1.elems.isEmpty then p.2.1 else p.2.2
  match pathMeets s g x v with
  | some tag => some tag
  | none => pathMeets s g y y
/-- The first of `n + 1` points of a path up to which it meets a set: its tag and its number. -/
def firstHit (s : State) (g : RegSet) (t n : Nat) (f : Rat → List (Rat × Rat × Rat)) : Option (Nat × Nat) :=
  (List.range (n + 1)).findSome? fun k => (stepHit s g t f k).map fun tag => (tag, k)
/-- The whole ms of a list of segments, the last begun one included. -/
def spanMs (gs : List Seg) : Nat := (segsSpan gs * 1000).ceil.toNat
/-- A list of segments from a time on meets no set. -/
def clearPath (s : State) (g : RegSet) (t : Nat) (gs : List Seg) : Bool :=
  (firstHit s g t (spanMs gs) fun x => segsAt true 0 gs x).isNone
/-- What the remainder of the running trajectory, or the rest state, meets. -/
def remainderHit (s : State) (g : RegSet) : Option (Nat × Nat) :=
  match s.pln.run with
  | some r =>
    let n := (((segsSpan r.segs + r.off - secsFrom r.t0 r.at_) * 1000).ceil.toNat)
    firstHit s g r.at_ n fun x => segsAt r.started r.off r.segs (secsFrom r.t0 r.at_ + x)
  | none => firstHit s g s.now 0 fun _ => restState s.pln.rest

/-- A harbour's state in axis units, raised (R317). -/
def harbourState (s : State) (g : RegSet) (m : Mem) (h : Nat) : List Rat :=
  raised s g ((g.axes.zipIdx).map fun p =>
    p.1.lo + (p.1.hi - p.1.lo) * (ratOf32 (memVal m (0x110 + 64 * h + 4 * p.2) 4)).getD 0)
/-- A harbour is VALID. -/
def harbourValid (m : Mem) (h : Nat) : Bool := decide (h < memVal m 8 2) && memVal m (0x140 + 64 * h) 4 == 1
/-- The squared distance of a harbour from a state, over the axes in use. -/
def harbourDist (g : RegSet) (m : Mem) (x : List Rat) (h : Nat) : Rat :=
  (((normalize g x).zipIdx).map fun p => ((ratOf32 (memVal m (0x110 + 64 * h + 4 * p.2) 4)).getD 0 - p.1) ^ 2).sum
/-- The eight VALID harbours nearest to a state, the nearest first. -/
def nearHarbours (g : RegSet) (m : Mem) (x : List Rat) : List Nat :=
  (((List.range 64).filter (harbourValid m)).insertionSort fun a b => harbourDist g m x a ≤ harbourDist g m x b).take 8
/-- A hold path to a harbour verifies for triggers at each of a list of times, the states there given. -/
def holdVerifies (s : State) (g : RegSet) (target : List Rat) (sts : List (Nat × List (Rat × Rat × Rat))) : Bool :=
  sts.all fun p => clearPath s g p.1 (planSegs g 1 p.2 fun _ => [target])
/-- The triggers of a window from a time: every 1 ms point within 200 ms. -/
def windowStates (s : State) (t : Nat) : List (Nat × List (Rat × Rat × Rat)) :=
  let a := gridFrom s t
  (List.range 201).map fun k => (a + 1000 * k, plnAt s (a + 1000 * k))
/-- The first harbour by distance to which a hold path verifies (R322). One whose paths only come near a set is taken
where the pass names it (`h`), and may be refused else (R314). -/
def holdFound (s : State) (g : RegSet) (t : Nat) (sts : List (Nat × List (Rat × Rat × Rat))) (h : Option Nat) : Option HoldPath :=
  match s.pln.harbour, sts.head? with
  | some m, some st =>
    ((nearHarbours g m (st.2.map (·.1))).find? fun k =>
      let x := harbourState s g m k
      holdVerifies s (near g) x sts || (h == some k && holdVerifies s g x sts)).map fun k =>
        { harbour := k, target := harbourState s g m k, from_ := t, to_ := t + 200000 }
  | _, _ => none

/-! ## The partner (R326) -/

/-- This board's outcomes hold: it is acting Lead, or has no attached partner. -/
def decides (s : State) : Bool := s.pair.lead || !attached s
/-- An outcome told to the partner. -/
def tell (o : PlanOutcome) (s : State) : State :=
  if s.pair.lead && attached s then sendPair (.lease (.plan o)) s else s

/-! ## Leave segments (R318) -/

/-- The pumps that a segment spins up, as element numbers. -/
def spinUps (s : State) (g : RegSet) (seg : Seg) : List Nat :=
  (g.axes.zip seg.ends).flatMap fun p => p.1.elems.filter fun e =>
    decide (e < 4) && (pumpOf s e).st == .stopped && decide ((maxU (pRec s e) : Rat) ≤ 1000000 * p.2)
/-- The greatest change of an axis within any 1 s of a segment: that about its middle. -/
def maxChange (seg : Seg) (m : AxisMotion) : Rat :=
  let h := min (seg.dur / 2) (1 / 2)
  |(m.at (seg.dur / 2 + h)).1 - (m.at (seg.dur / 2 - h)).1|
/-- The valves that a segment moves fast, as element numbers. -/
def fastMoves (s : State) (g : RegSet) (seg : Seg) : List Nat :=
  (g.axes.zip seg.axes).flatMap fun p =>
    if p.1.kind == 1 && decide (p.1.delta < maxChange seg p.2) then p.1.elems.filter fun e => (valveOf s (e - 12)).on else []
/-- The elements for which a segment takes leave. -/
def leaveNeeds (s : State) (seg : Seg) : List Nat := let g := regSet s; spinUps s g seg ++ fastMoves s g seg
/-- The watts of an element's leave (Table 06-10). -/
def leaveWatts (s : State) (e : Nat) : Nat := if e < 4 then fld (pRec s e) 36 2 else fld (vRec s (e - 12)) 12 2
/-- Its duration in ms: the ramp plus 1 s, or the move plus 100 ms. -/
def leaveMs (seg : Seg) (e : Nat) : Nat := (seg.dur * 1000).ceil.toNat + (if e < 4 then 1000 else 100)
/-- The waits of the planner's requests for leave dropped. -/
def dropLeaveWaits (s : State) : State :=
  s.onLv fun l => { l with waits := l.waits.filter fun w => w.kind != 13 && w.kind != 14 }
/-- Leave asked for an element: granted, or waiting; whether it waits, and the state. -/
def askElem (seg : Seg) (e : Nat) (s : State) : Bool × State :=
  let w := leaveWatts s e
  let ms := leaveMs seg e
  let i := if e < 4 then e else e - 12
  match internalAsk w s with
  | none => (false, grantInternal (if e < 4 then 3 else 4) i w ms s)
  | some d => (true, waitLeave (if e < 4 then 13 else 14) i w ms d (reportUnset s))
/-- Leave asked for each element; those that wait, and the state. -/
def askElems (seg : Seg) : List Nat → State → List Nat × State
  | [], s => ([], s)
  | e :: es, s =>
    let r := askElem seg e s
    let q := askElems seg es r.2
    (if r.1 then e :: q.1 else q.1, q.2)

/-! ## Trajectory points (R315, R318, R320) -/

/-- The running trajectory changed. -/
def onRun (f : Traj → Traj) (s : State) : State := s.onPln fun p => { p with run := p.run.map f }
/-- A rational value rounded for a field of whole units. -/
def wholeOf (q : Rat) : Int := quot q.num q.den
/-- The points of every axis at a time: local elements, and at multiples of 10 ms the actuators (R247). -/
def dispatchPoints (t point : Nat) (r : Traj) (x : List Rat) (s : State) : State :=
  ((regSet s).axes.zip x).foldl (fun s p =>
    let s := p.1.elems.foldl (fun s e => localPoint e (wholeOf (10000 * p.2)) s) s
    if tenPoint s t then
      p.1.acts.foldl (fun s n => sendCommand n (if r.hold then 0 else r.cw) point r.hold.toNat (wholeOf p.2) s) s
    else s) s
/-- The segments that have ended dropped, up to one that needs leave first. -/
def dropDone (needs : Seg → Bool) : Rat → List Seg → Bool → Rat → Rat × List Seg × Bool
  | off, g :: gs, started, t =>
    match gs with
    | [] => (off, [g], started)
    | h :: _ =>
      if started && off + g.dur ≤ t then
        if needs h then (off + g.dur, gs, false) else dropDone needs (off + g.dur) gs true t
      else (off, g :: gs, started)
  | off, [], started, _ => (off, [], started)
/-- The end of a trajectory: its last point has been executed. -/
def endRun (r : Traj) (x : List Rat) (s : State) : State :=
  let s := s.onPln fun p => { p with run := none, rest := x }
  if !r.hold then finish0 r.jseq 0 (s.onPln fun p => { p with st := .rest })
  else if s.pln.st == .stale then s
  else event 0x0D08 2 [] 0 0 s
/-- The leave of a segment asked at a point: it starts there, or the plant waits at rest. -/
def beginLeave (t : Nat) (seg : Seg) (s : State) : State :=
  let es := leaveNeeds s seg
  let r := if decides s then askElems seg es s
    else (if s.pln.granted then [] else es, s.onPln fun p => { p with granted := false })
  if r.1.isEmpty then tell (.leave true) (onRun (fun r => { r with off := secsFrom r.t0 t, started := true }) r.2)
  else (onRun (fun x => { x with off := secsFrom x.t0 t, asks := r.1, until_ := some (t + 60000000) }) r.2).onPln fun p =>
    { p with st := .waiting }
/-- No actuator axis, or a point at which those have one. -/
def aligned (s : State) (t : Nat) : Bool := tenPoint s t || (regSet s).axes.all fun a => a.acts.isEmpty

/-- TRAJECTORY_POINT: the next point of the running trajectory. -/
def doTrajectoryPoint (s : State) : State :=
  match s.pln.run with
  | none => s
  | some r =>
    if !running s || !r.asks.isEmpty then s else
    let s := reach r.at_ s
    let t := r.at_
    let d := dropDone (fun g => !r.hold && !(leaveNeeds s g).isEmpty) r.off r.segs r.started (secsFrom r.t0 t)
    let r := { r with off := d.1, segs := d.2.1, started := d.2.2, at_ := t + 1000 }
    let x := (r.stateAt t).map (·.1)
    let s := s.onPln fun p => { p with run := some r }
    let s := dispatchPoints t ((t - r.t0) / 1000 + r.base) r x s
    match r.segs with
    | [] => endRun r x s
    | g :: gs =>
      if !r.started then (if aligned s t then beginLeave t g s else s)
      else if gs.isEmpty && r.off + g.dur ≤ secsFrom r.t0 t && aligned s t then endRun r x s
      else s

/-- TRAJECTORY_POINT. -/
def execTrajectoryPoint (s : State) : Host.Outcome State Fault Refusal := .next (doTrajectoryPoint s)

/-- The leave of the waiting segment is granted: it starts at the next 1 ms point, and the time waited is no part of the
trajectory (log 31). -/
def startLeave (s : State) : State :=
  let at_ := gridFrom s (s.now + 1)
  let s := onRun (fun r =>
    { r with
      off := r.off + 1 / 1000, t0 := at_ - ((r.off + 1 / 1000) * 1000000).ceil.toNat, at_ := at_, asks := [],
      until_ := none, started := true }) s
  s.onPln fun p => { p with st := .moving }
/-- An element's leave granted to the planner. -/
def leaveGranted (e : Nat) (s : State) : State :=
  let s := onRun (fun r => { r with asks := r.asks.filter (· != e) }) s
  if s.pln.run.any (·.asks.isEmpty) then tell (.leave true) (startLeave s) else s
/-- A wait of the planner asks again (INTERNAL_LEAVE_RETRY). -/
def plannerRetry (w : LeaveWait) (s : State) : State :=
  match internalAsk w.watts s with
  | none => leaveGranted (if w.kind == 13 then w.owner else 12 + w.owner) (grantInternal (w.kind - 10) w.owner w.watts w.ms s)
  | some d => waitLeave w.kind w.owner w.watts w.ms d (reportUnset s)
/-- The waiting trajectory ends at its rest state. -/
def endWaiting (result : Word) (s : State) : State :=
  match s.pln.run with
  | none => s
  | some r =>
    let x := (r.stateAt s.now).map (·.1)
    finish0 r.jseq result (dropLeaveWaits (s.onPln fun p => { p with run := none, rest := x, st := .rest }))

/-- LEAVE_SEGMENT_TIMEOUT: 60 s without leave. -/
def doLeaveSegmentTimeout (s : State) : State :=
  match s.pln.run with
  | none => s
  | some r =>
    match r.until_ with
    | some t => if decides s then tell (.leave false) (endWaiting 0x0D06 (reach t s)) else s
    | none => s

/-- LEAVE_SEGMENT_TIMEOUT. -/
def execLeaveSegmentTimeout (s : State) : Host.Outcome State Fault Refusal := .next (doLeaveSegmentTimeout s)

/-! ## SETPOINT_REQUEST (R319, R320) -/

/-- The waypoint object of a body: no states where it names none. -/
def waypoints (s : State) (b : Bytes) : Option (List (List Rat)) :=
  if isZero b 56 32 then some []
  else (objBytes (digestAt b 56) s).map fun o => (List.range (fld o 0 4)).map fun i => ratsAt o (4 + 48 * i) 12
/-- A state lies within LO to HI on the first axes. -/
def withinBounds (g : RegSet) (x : List Rat) : Bool := (g.axes.zip x).all fun p => decide (p.1.lo ≤ p.2) && decide (p.2 ≤ p.1.hi)
/-- A waypoint object is well formed, and within the bounds of the adopted set. -/
def waypointsOk (s : State) (o : Bytes) : Bool :=
  let n := fld o 0 4
  inRange 1 n 32 && o.length == 4 + 48 * n && finiteAt o 4 (12 * n) &&
  (s.kt.regions.isNone || (List.range n).all fun i => withinBounds (regSet s) (ratsAt o (4 + 48 * i) 12))
/-- The body rules of SETPOINT_REQUEST. What they say of axes is judged against the adopted set, where there is one. -/
def badSetpoint (s : State) (b : Bytes) : Option Nat :=
  let axes := fld b 0 2
  let g := regSet s
  let none_ := s.kt.regions.isNone
  firstBad ([(decide (2 ^ (if none_ then 12 else g.axes.length) ≤ axes), 0), rsv b 2 1, rsv b 3 1,
    (fld b 4 2 != 0 && !inRange 5 (fld b 4 2) 1000, 4), (decide (100 < fld b 6 2), 6)] ++
    ((List.range 12).filter fun i => axes.testBit i).map (fun i =>
      (!finiteAt b (8 + 4 * i) 1 ||
        (!none_ && !withinBounds { g with axes := (g.axes.drop i).take 1 } [ratAt b (8 + 4 * i)]), 8 + 4 * i)) ++
    [(!isZero b 56 32 && (match objBytes (digestAt b 56) s with | some o => !waypointsOk s o | none => true), 56), rsv b 88 8])
/-- Step 8 for SETPOINT_REQUEST. -/
def admitSetpoint (s : State) : Option Refuse := if s.kt.regions.isNone then some {} else none

/-- A planning request ends. -/
def endPlan (result : Word) (s : State) : State :=
  match s.pln.plan with
  | none => s
  | some p =>
    let s := s.onPln fun x => { x with plan := none }
    if p.again then s else finish0 p.jseq result s

/-- SETPOINT_REQUEST's effect: its splice time is fixed, and it is planning; a request that was is replaced. -/
def fxSetpoint (e : JEntry) (s : State) : State :=
  match waypoints s e.body with
  | none => waitObject e s
  | some ws =>
    let d := fld e.body 4 2
    let s := count 0x280 (endPlan 0x0D03 s)
    let job : PlanJob :=
      { jseq := e.jseq, cw := e.cw, base := 65536 * e.replays.toNat, body := e.body, way := ws,
        splice := gridFrom s (s.now + 1000 * (if d == 0 then 20 else d)), redo := e.redo }
    s.onPln fun p => { p with plan := some job }

/-- The states that a request visits after the state `h`: its waypoints and its target. An axis that AXES does not name
keeps its value. -/
def jobStates (s : State) (g : RegSet) (p : PlanJob) (h : List Rat) : List (List Rat) :=
  let pick := fun (x : List Rat) => (h.zip x).zipIdx.map fun q => if (fld p.body 0 2).testBit q.2 then q.1.2 else q.1.1
  p.way.map pick ++ [raised s g (pick (ratsAt p.body 8 12))]
/-- The state from which a request plans: at its splice time, or at the start values (R327). -/
def jobStart (s : State) (g : RegSet) (p : PlanJob) : List (Rat × Rat × Rat) :=
  if p.redo then restState (startValues s g) else plnAt s p.splice
/-- The segments of a request's plan. -/
def jobSegs (s : State) (p : PlanJob) : List Seg :=
  let g := regSet s
  let sp := fld p.body 6 2
  planSegs g ((if sp == 0 then 100 else sp : Nat) / 100) (jobStart s g p) (jobStates s g p)

/-- The running request ends with a result, unless it is of the entry `keep`. -/
def endRunning (result : Word) (keep : Nat) (s : State) : State :=
  match s.pln.run with
  | some r =>
    let s := dropLeaveWaits (s.onPln fun p => { p with run := none })
    if r.hold || r.jseq == keep then s else finish0 r.jseq result s
  | none => s

/-- A plan spliced in at its splice time, or where its board was late, at the present 1 ms point. -/
def splice (p : PlanJob) (s : State) : State :=
  let segs := jobSegs s p
  let t0 := if p.redo then max p.splice (gridFrom s s.now) else p.splice
  let base := match s.pln.run with
    | some r => if p.again then r.base + (t0 - r.t0) / 1000 + 1 else p.base
    | none => p.base
  let rests := match segs with | g :: _ => !isMoving g.begin_ | [] => true
  let run : Traj :=
    { jseq := p.jseq, cw := p.cw, base := base, t0 := t0, at_ := max t0 (gridFrom s s.now), segs := segs,
      started := !rests || (match segs with | g :: _ => (leaveNeeds s g).isEmpty | [] => true) }
  let s := endRunning 0x0D03 p.jseq s
  let next := base + (spanMs segs) + 11
  s.onPln fun x =>
    { x with run := some run, plan := none, lag := false, st := .moving, last := some { p with base := next, redo := false } }

/-- The hold path is ARMED now (R322). -/
def armedNow (s : State) : Bool := s.pln.hold.any fun h => decide (h.from_ ≤ s.now) && decide (s.now ≤ h.to_)
/-- HOLD_PATH_STALE on a change to STALE. -/
def checkStale (s : State) : State :=
  if s.pln.armed && !armedNow s then event 0x0D06 2 [] 0 0 (s.onPln fun p => { p with armed := false }) else s

/-- PLAN_DONE (R319, R320): the check of the plan ends. A plan of more than 60 s is TOO_LONG, one that meets a set, or
comes near it and is refused, COLLISION; at a partner only a verified plan counts. A re-execution is not planned until its elements are still. -/
def doPlanDone (r : PlanResult) (s : State) : State :=
  match s.pln.plan with
  | none => s
  | some p =>
    let g := regSet s
    if !running s || g.axes.isEmpty || p.ok || (p.redo && !allStill s g) then s else
    let segs := jobSegs s p
    if 60 < segsSpan segs then (if decides s then endPlan 0x0D05 s else s)
    else if r == .unverified then s
    else match firstHit s (if r == .refused then near g else g) p.splice (spanMs segs) fun x => segsAt true 0 segs x with
    | some h =>
      if !decides s then s
      else
        let s := s.onPln fun x => { x with plan := none }
        if p.again then s else finish p.jseq 0x0D01 (leBytes 1 h.1 ++ leBytes 4 (h.2 + p.base)) s
    | none =>
      let q := { p with ok := true, start := jobStart s g p }
      let s := count 0x281 (s.onPln fun x => { x with plan := some q })
      if s.pln.lag then splice q s else s

/-- PLAN_DONE. -/
def execPlanDone (r : PlanResult) (s : State) : Host.Outcome State Fault Refusal := .next (doPlanDone r s)

/-- SPLICE_TIME (R319, R322): a verified plan is spliced in while the hold path is ARMED; else PLAN_TIMEOUT. A re-execution
is not due before its elements are still. A partner awaits the acting Lead's outcome. -/
def doSpliceTime (s : State) : State :=
  match s.pln.plan with
  | none => s
  | some p =>
    if !running s || !decides s || (p.redo && !allStill s (regSet s)) then s else
    let s := checkStale (reach p.splice s)
    if p.ok && armedNow s && p.start == jobStart s (regSet s) p then tell (.splice true) (splice p s)
    else count 0x282 (endPlan 0x0D02 (tell (.splice false) s))

/-- SPLICE_TIME. -/
def execSpliceTime (s : State) : Host.Outcome State Fault Refusal := .next (doSpliceTime s)

/-! ## The hold path (R322 to R325) -/

/-- The next 1 ms point. -/
def nextPoint (s : State) : Nat :=
  match s.pln.run with
  | some r => if r.asks.isEmpty then max r.at_ s.now else gridFrom s (s.now + 1)
  | none => gridFrom s (s.now + 1)
/-- A hold trajectory from the next point. -/
def holdTraj (t : Nat) (segs : List Seg) : Traj := { t0 := t, at_ := t, segs := segs, hold := true }
/-- The hold path to a harbour's state runs from the next point. -/
def runHold (target : List Rat) (s : State) : State :=
  let t := nextPoint s
  let segs := planSegs (regSet s) 1 (plnAt s t) fun _ => [target]
  let s := endPlan 0x0D04 (endRunning 0x0D04 0 s)
  s.onPln fun p => { p with run := some (holdTraj t segs), st := .holding, lag := false, last := none }
/-- A trigger that finds the hold path ARMED. -/
def holdRun (target : List Rat) (s : State) : State := event 0x0D07 3 [] 0 0 (runHold target s)
/-- A trigger that finds the hold path STALE: HOLD_STALE. -/
def holdStale (s : State) : State :=
  let t := nextPoint s
  let st := plnAt s t
  let seg := stopSeg (regSet s) 1 st
  let s := endRunning 0x0D04 0 s
  let s := s.onPln fun p =>
    { p with run := if isMoving st then some (holdTraj t [seg]) else none, rest := seg.ends, st := .stale, lag := false, last := none }
  let s := event 0x0D09 3 [] 0 0 s
  if !s.pair.lead then s
  else (List.range 16).foldl (fun s t => capdnRevoke t 0x14 s) (s.onLv fun l => { l with staleTrays := 0xFFFF })

/-- A trigger (R323 to R325), counted. A running hold path, and HOLD_STALE, are not changed by one. -/
def trigger (s : State) : State :=
  if !running s || !decides s || s.pln.st == .idle then s else
  let s := checkStale (count 0x286 s)
  if s.pln.st == .stale || s.pln.run.any (·.hold) then s else
  match s.pln.hold with
  | some h =>
    if armedNow s then holdRun h.target (tell (.trigger true) (tell (.harbour h.harbour) s))
    else holdStale (tell (.trigger false) s)
  | none => holdStale (tell (.trigger false) s)

/-- HOLD_STALE clears: the hold path runs from the rest state, and the resumes are queued in tray order. -/
def endStale (h : HoldPath) (s : State) : State :=
  let s := runHold h.target (tell (.trigger true) (tell (.harbour h.harbour) s))
  let s := s.onLv fun l => { l with staleTrays := 0 }
  if s.pair.lead then (List.range 16).foldl (fun s t => queueResume t s) s else s

/-- A pass begins (R321), with the harbours and the trees that are current. -/
def beginPass (s : State) : State :=
  if s.kt.regions.isNone && s.pln.adopt.isNone then s
  else count 0x283 (s.onPln fun p =>
    { p with pass := some s.now, passSet := p.harbour, passBad := p.bad, passMem := s.mem })
/-- The state as a pass sees it. -/
def passView (s : State) : State :=
  { s with mem := s.pln.passMem, pln := { s.pln with harbour := s.pln.passSet, bad := s.pln.passBad } }

/-- VERIFY_PASS_DEADLINE: a pass misses its deadline. -/
def doVerifyPassDeadline (s : State) : State :=
  match s.pln.pass with
  | none => s
  | some t =>
    if !running s then s
    else trigger (count 0x284 ((reach (t + 20000) s).onPln fun p => { p with pass := none }))

/-- VERIFY_PASS_DEADLINE. -/
def execVerifyPassDeadline (s : State) : Host.Outcome State Fault Refusal := .next (doVerifyPassDeadline s)

/-- The hold path of a pass, none where no harbour verifies. -/
def setHold (h : Option HoldPath) (s : State) : State :=
  let s := s.onPln fun p => { p with hold := h }
  if h.isSome then s.onPln fun p => { p with armed := true } else checkStale s

/-- A set gives each axis its start value: the first one, and one that changes the axes at rest. -/
def freshSet (s : State) (a : Adopt) : Bool :=
  match s.kt.regions with
  | some o => s.pln.st == PlnSt.idle || !sameMapping o a.obj
  | none => true
/-- The waiting region set adopted (R311). From IDLE, and where the axes change at rest, each axis starts at its start
value, and its elements are driven to it. -/
def adoptSet (a : Adopt) (s : State) : State :=
  let fresh := freshSet s a
  let s := s.onKt fun k => { k with regions := some a.obj }
  let s := s.onPln fun p => { p with adopt := none, st := if p.st == .idle then .rest else p.st }
  let s := if fresh then
      let x := startValues s (regSet s)
      ((regSet s).axes.zip x).foldl (fun s p => p.1.elems.foldl (fun s e => localPoint e (wholeOf (10000 * p.2)) s) s)
        (s.onPln fun p => { p with rest := x, last := none })
    else s
  finish0 a.jseq 0 (event 0x0D05 1 [] 0 0 s)
/-- The pass's finding for the waiting set: the hold path under it, where the state and that verify. -/
def adoptFound (t : Nat) (a : Adopt) (h : Option Nat) (s : State) : Option HoldPath :=
  let g := readRegions a.obj
  let fresh := freshSet s a
  let s := passView s
  let v := if fresh then s.onPln fun p => { p with rest := startValues s g, run := none } else s
  if (remainderHit v g).isSome then none else holdFound v g t (windowStates v t) h
/-- The waiting region set at a pass that began after its effect: adopted, or after 10 passes rejected; and the hold path that verified with it. -/
def passAdopt (t : Nat) (h : Option Nat) (s : State) : Option HoldPath × State :=
  match s.pln.adopt with
  | none => (none, s)
  | some a =>
    if t < a.since then (none, s) else
    match adoptFound t a h s with
    | some p => (some p, adoptSet a s)
    | none =>
      if a.passes + 1 < 10 then (none, s.onPln fun p => { p with adopt := some { a with passes := a.passes + 1 } })
      else (none, finish0 a.jseq 0x0D07 (s.onPln fun p => { p with adopt := none }))

/-- VERIFY_PASS_DONE (R311, R321 to R325): the adoption, the hold path for the window, the end of HOLD_STALE, and the
trigger where the remainder or the rest state collides. -/
def doVerifyPassDone (r : PassResult) (s : State) : State :=
  match s.pln.pass with
  | none => s
  | some t =>
    if !running s || t + 20000 < s.now then s else
    let a := passAdopt t r.adopts (s.onPln fun p => { p with pass := none })
    let s := a.2
    if s.kt.regions.isNone then s else
    let g := regSet s
    if s.pln.st == .stale then
      match s.pln.run, holdFound (passView s) g t [(gridFrom s (s.now + 1), restState s.pln.rest)] r.hold with
      | none, some h => if decides s then endStale h (setHold (some h) s) else s
      | _, _ => s
    else
      let h := match a.1 with | some h => some h | none => holdFound (passView s) g t (windowStates s t) r.hold
      let bad := (remainderHit (passView s) (if r.collides then near g else g)).isSome
      let s := setHold h s
      if bad then trigger s else s

/-- VERIFY_PASS_DONE. -/
def execVerifyPassDone (r : PassResult) (s : State) : Host.Outcome State Fault Refusal := .next (doVerifyPassDone r s)

/-- HARBOUR_SET_STALE (R304): no new harbour set for 100 ms. -/
def doHarbourSetStale (s : State) : State :=
  if !running s || s.pln.harbour.isNone || s.pln.setRep then s
  else trigger (event 0x0D03 2 [] 0 0 ((reach (s.pln.setAt + 100000) s).onPln fun p => { p with setRep := true }))

/-- HARBOUR_SET_STALE. -/
def execHarbourSetStale (s : State) : Host.Outcome State Fault Refusal := .next (doHarbourSetStale s)

/-- TREE_BAD for each bad tree of the current set. -/
def reportTrees (s : State) : State := s.pln.bad.foldl (fun s i => event 0x0D04 3 [i] 0 0 s) s
/-- The harbour set of a tick made current, where its form allows (R304); and whether it is URGENT. -/
def takeHarbours (tick : Nat) (s : State) : Bool × State :=
  let m := harbourBank s
  if !harbourOk m tick then (false, s)
  else
    let s := s.onPln fun p =>
      { p with harbour := some m, bad := badTrees s.mem m, setAt := s.now, setRep := false }
    (memVal m 10 2 == 1, reportTrees s)

/-! ## Floors (R317, R323) and the watchdog -/

/-- A change of floor level re-plans from the running state towards the same target. -/
def replan (s : State) : State :=
  if !s.drv.moved then s else
  let s := s.onDrv fun d => { d with moved := false }
  let on := s.pln.st == .moving || s.pln.st == .waiting || s.pln.st == .rest
  match s.pln.last with
  | some p =>
    if !running s || !on || s.pln.plan.isSome then s
    else
      let job := { p with again := true, ok := false, way := [], splice := gridFrom s (s.now + 20000) }
      count 0x280 (s.onPln fun x => { x with plan := some job })
  | none => s

/-- HW_TABLE_STEP. -/
def execHwTableStep (s : State) : Host.Outcome State Fault Refusal := .next (replan (doHwTableStep s))

/-- The planner plans from where the elements stand (R226): a trajectory that runs goes on from there, towards the states
that it had still to reach, and its points number on. -/
def planFrom (s : State) : State :=
  let g := regSet s
  let x := startValues s g
  match s.pln.run with
  | none => s.onPln fun p => { p with rest := x }
  | some r =>
    let t := gridFrom s (s.now + 1)
    let sp := match s.pln.last with | some j => if j.jseq == r.jseq then fld j.body 6 2 else 0 | none => 0
    let segs := planSegs g ((if sp == 0 then 100 else sp : Nat) / 100) (restState x) fun _ => r.segs.map (·.ends)
    let run : Traj := { r with
      base := r.base + (r.at_ - r.t0) / 1000 + 1, t0 := t, at_ := t, off := 0, segs := segs, asks := [], until_ := none,
      started := r.hold || (match segs with | g :: _ => (leaveNeeds s g).isEmpty | [] => true) }
    (dropLeaveWaits s).onPln fun p =>
      { p with run := some run, st := if p.st == .waiting then .moving else p.st }

/-- The states that the completed setpoints of the journal have left (R26), where the latest one reached its target and the
region set is that of all: the axes named, and the value of each. -/
def journaledRest (s : State) : Nat × List Rat :=
  let g := regSet s
  let es := s.jr.entries.filter fun e => e.state == .done
  let from_ : Nat := (es.filter (·.op == 0x0402)).foldl (fun m e => max m e.jseq) 0
  let ps := es.filter fun e => e.op == 0x0302 && decide (from_ < e.jseq)
  if (ps.getLast?).any (·.result == 0) then
    ps.foldl (fun a e =>
      if e.result != 0 then a
      else
        (Nat.lor a.1 (fld e.body 0 2),
         (a.2.zip (ratsAt e.body 8 12)).zipIdx.map fun q => if (fld e.body 0 2).testBit q.2 then q.1.2 else q.1.1))
      (0, startValues s g)
  else (0, startValues s g)
/-- The local elements of the axes so named, with their values in 1/10,000 of the axis unit. -/
def restElems (s : State) : List (Nat × Int) :=
  let j := journaledRest s
  let g := regSet s
  ((g.axes.zip (raised s g j.2)).zipIdx.filter fun q => j.1.testBit q.2).flatMap fun q =>
    q.1.1.elems.map fun e => (e, wholeOf (10000 * q.1.2))
/-- One element's level restored; a spin-up takes its leave first (R211). -/
def restoreElem (e : Nat) (v : Int) (s : State) : State :=
  if decide (e < 4) && (pumpOf s e).st == .stopped && decide (maxU (pRec s e) ≤ 100 * v.toNat) then
    let w := leaveWatts s e
    let ms := (v.toNat / 10 + fld (pRec s e) 10 2 - 1) / fld (pRec s e) 10 2 + 1000
    match internalAsk w s with
    | none => localPoint e v (grantInternal 3 e w ms s)
    | some d => waitLeave 15 e w ms d (reportUnset s)
  else localPoint e v s
/-- The level outputs of completed setpoints restored after a reset (R26), from firmware's first heartbeat on (R79). -/
def restoreLevels (s : State) : State :=
  if s.kt.regions.isNone || s.pln.run.isSome then s
  else
    let g := regSet s
    let x := raised s g (journaledRest s).2
    (restElems s).foldl (fun s p => restoreElem p.1 p.2 s) (s.onPln fun p => { p with rest := x })
/-- A spin-up that restores a level asks for its leave again. -/
def restoreAgain (e : Nat) (s : State) : State :=
  if s.pln.st != .rest then s
  else match (restElems s).find? (·.1 == e) with
    | some p => restoreElem e p.2 s
    | none => s

/-- BINDER_HEARTBEAT, with what the planner does at the first one and at the end of the watchdog's action. -/
def heartbeat (s : State) : State :=
  let first := s.drv.beat.isNone
  let fired := s.drv.fired
  let s := doBinderHeartbeat s
  if fired && !s.drv.fired then planFrom s
  else if first && s.drv.beat.isSome then restoreLevels s
  else s

/-- BINDER_HEARTBEAT. -/
def execBinderHeartbeat (s : State) : Host.Outcome State Fault Refusal := .next (heartbeat s)

/-- BINDER_SILENT. -/
def execBinderSilent (s : State) : Host.Outcome State Fault Refusal := .next (doBinderSilent s)

/-- FLOOR_LATE: reported, and the hold path triggered. -/
def doFloorLate (e : Nat) (s : State) : State :=
  let r := floorLate e s
  if r.1 then trigger r.2 else r.2

/-- FLOOR_LATE. -/
def execFloorLate (elem : Nat) (s : State) : Host.Outcome State Fault Refusal := .next (doFloorLate elem s)

/-! ## REGION_SET (R309, R311) -/

/-- The body rules of REGION_SET. -/
def badRegionSet (s : State) (b : Bytes) : Option Nat :=
  firstBad [(match objBytes (digestAt b 0) s with | some o => !regionsValid s o | none => true, 0), rsv b 32 8]
/-- Step 8 for REGION_SET: the mapping changes while the planner is not IDLE or AT_REST. -/
def admitRegionSet (s : State) (b : Bytes) : Option Refuse :=
  match s.kt.regions, objBytes (digestAt b 0) s with
  | some o, some n => if !sameMapping o n && s.pln.st != .idle && s.pln.st != .rest then some {} else none
  | _, _ => none
/-- REGION_SET's effect: the set waits for the first pass at which it verifies; one that waited gives way. -/
def fxRegionSet (e : JEntry) (s : State) : State :=
  match objBytes (digestAt e.body 0) s with
  | none => waitObject e s
  | some o =>
    let s := match s.pln.adopt with
      | some a => if a.jseq == e.jseq then s else finish0 a.jseq 0x0D07 s
      | none => s
    s.onPln fun p => { p with adopt := some { jseq := e.jseq, obj := o, since := s.now } }

/-- The planner as firmware starts: at rest at the start values where a set is adopted (R327). -/
def startPlanner (s : State) : State :=
  if s.kt.regions.isNone then s
  else s.onPln fun p => { p with st := .rest, rest := startValues s (regSet s) }

/-- The acting Lead's outcome applied by its partner (R326). -/
def applyOutcome (o : PlanOutcome) (s : State) : State :=
  let lagging := fun (s : State) => event 0x0D0A 2 [] 0 0 (s.onPln fun p => { p with run := none, lag := true })
  match o with
  | .splice false => endPlan 0x0D02 s
  | .splice true =>
    match s.pln.plan with
    | some p => if p.ok then splice p s else lagging ((endRunning 0x0D03 p.jseq s).onPln fun x => { x with st := .moving })
    | none => lagging s
  | .harbour h => s.onPln fun p => { p with outcome := some h }
  | .trigger true =>
    match s.pln.harbour, s.pln.outcome with
    | some m, some h =>
      let s := s.onLv fun l => { l with staleTrays := 0 }
      holdRun (harbourState s (regSet s) m h) (count 0x286 (s.onPln fun p => { p with outcome := none }))
    | _, _ => lagging (s.onPln fun p => { p with st := .holding })
  | .trigger false => holdStale (count 0x286 s)
  | .leave true => if s.pln.st == .waiting then startLeave s else s.onPln fun p => { p with granted := true }
  | .leave false => if s.pln.st == .waiting then endWaiting 0x0D06 s else s

end Sys2Proof.Machine
end

