-- ==== Sys2Proof/Machine/Trays.lean ====
section
/-! DEFINITION. Machine/Trays.lean: the events of trays and agents: stops, holds, leases, power reports, agent
links, and the stagger queue (chapters 06 and 14). -/

namespace Sys2Proof.Machine

/-! ## Stops, holds and leases -/

/-- TRAY_STOP_DELAY (R144): 10 ms of MODE 1 or 30 s of MODE 0 have passed. -/
def doTrayStopDelay (t : Nat) (s : State) : State :=
  match (trayOf s t).stopAt with
  | some d => if running s then clearEnabled t (reach d s) else s
  | none => s

/-- TRAY_STOP_DELAY. -/
def execTrayStopDelay (tray : Fin 16) (s : State) : Host.Outcome State Fault Refusal := .next (doTrayStopDelay tray s)

/-- HOLD_END (R143): RM_LIMIT returns to NONE and the hold completes. -/
def doHoldEnd (t : Nat) (s : State) : State :=
  let old := trayOf s t
  if old.holdEnd == 0 || !running s then s else
  let s := endHold t 0 (reach (fromKeep old.holdEnd) s)
  afterLimits t false old (onTray t (fun x => { x with rm := 0xFFFF, holdRef := 0, holdEnd := 0 }) s)

/-- HOLD_END. -/
def execHoldEnd (tray : Fin 16) (s : State) : Host.Outcome State Fault Refusal := .next (doHoldEnd tray s)

/-- LEASE_EXPIRY (R151, R152): the lease reaches its END. -/
def doLeaseExpiry (id : Nat) (s : State) : State :=
  match s.lv.leases.find? (·.id == id) with
  | some l => if l.stop == 0 || !s.pair.lead then s else endLease id 0x10 (reach l.stop s)
  | none => s

/-- LEASE_EXPIRY. -/
def execLeaseExpiry (id : Nat) (s : State) : Host.Outcome State Fault Refusal := .next (doLeaseExpiry id s)

/-- ALLOWANCE_FALL (R152): 2 ms after an expired lease's END. -/
def doAllowanceFall (id : Nat) (s : State) : State :=
  match s.lv.falling.find? (·.id == id) with
  | some l => (reach (l.stop + 2000) s).onLv fun v => { v with falling := v.falling.filter (·.id != id) }
  | none => s

/-- ALLOWANCE_FALL. -/
def execAllowanceFall (id : Nat) (s : State) : Host.Outcome State Fault Refusal := .next (doAllowanceFall id s)

/-- LEAVE_TABLE_STALE (R37, R81): no new table for 20 ms; before the first table LEAVE_TABLE_PENDING instead. -/
def doLeaveTableStale (s : State) : State :=
  if !running s then s
  else
    let s := reach (s.lv.tableAt + 20000) s
    if s.lv.everTable then
      if s.lv.stale then s
      else event 0x0600 2 [] 0 0 (s.onLv fun l => { l with stale := true })
    else if s.lv.pendRep then s
    else event 0x0601 1 [] 0 0 (s.onLv fun l => { l with pendRep := true })

/-- LEAVE_TABLE_STALE. -/
def execLeaveTableStale (s : State) : Host.Outcome State Fault Refusal := .next (doLeaveTableStale s)

/-! ## Power reports and agent links (R154, R331, R332) -/

/-- A tray's allowance (R154), which keeps an expired lease's extra for 2 ms (R152). -/
def allowance (s : State) (t : Nat) : Nat :=
  baseSum (descOf s t) + trayExtras s.lv.leases t + trayExtras s.lv.falling t

/-- The overdraw threshold (Table 06-9) at a valid report of `w` watts. It holds while reports stay above it. -/
def overdraw (t w : Nat) (s : State) : State :=
  let n := (trayOf s t).overs
  if trayOff s t || w * 100 ≤ 105 * allowance s t then onTray t (fun x => { x with overs := 0 }) s
  else if n != 1 then onTray t (fun x => { x with overs := max 1 n }) s
  else
    let s := capdnRevoke t 0x17 (onTray t (fun x => { x with overs := 2 }) s)
    event 0x0604 3 [t] 0 0 (s.onLv fun l => { l with tickRes := l.tickRes.filter (· != t) ++ [t] })

/-- A READY report on a starting tray (R158): CAPDN released unless a limit is FLOOR, TRAY_START done. -/
def trayReady (t : Nat) (s : State) : State :=
  if !starting s t then s
  else
    let j := (trayOf s t).startSeq
    let s := onTray t (fun x => { x with startSeq := 0, startAt := none }) s
    let s := if mayResume s t && s.pair.silent.isNone then releaseCapdn t s else s
    event 0x0606 1 [t] 0 0 (finish0 j 0 s)

/-- Reports have arrived for 100 ms after agent silence: the resume is queued (Table 06-9). -/
def endSilence (t : Nat) (s : State) : State :=
  let a := agentOf s t
  if a.capdnBy && a.from_ + 100000 ≤ s.now then queueResume t (onAgent t (fun a => { a with capdnBy := false }) s) else s

/-- What a valid report brings about at the acting Lead. -/
def leadReport (t : Nat) (r : PowerReport) (s : State) : State :=
  if !s.pair.lead then s
  else
    let s := endSilence t (overdraw t r.trayW s)
    let st := r.state.toNat
    let s := if st == 1 then trayReady t s else s
    let s := if st == 2 && (trayOf s t).stopAt.isSome && (trayOf s t).stopMode == 0 then clearEnabled t s else s
    rebindReport t st s

/-- TRAY_POLL (R331), once per 1 ms: a report whose CRC checks and whose SEQ differs from the last valid one. -/
def doTrayPoll (t : Nat) (r : PowerReport) (s : State) : State :=
  let a := agentOf s t
  if !running s || a.link == .absent || a.link == .lost then s
  else
  let s := onAgent t (fun a => { a with pollAt := s.now + 1000 }) (reach a.pollAt s)
  if !r.ok || a.seq == some r.seq then
    let s := count (0x390 + 4 * (t / 4)) s
    if r.ok then s else count (0x391 + 4 * (t / 4)) s
  else
    let now := s.now
    let s := count (0x390 + 4 * (t / 4)) s
    let s := if a.link == .silent then setLink t .up (onAgent t (fun a => { a with from_ := now }) s) else s
    let s := if a.seq.isSome && a.links != r.links then event 0x0E01 1 [t, r.links.toNat] 0 0 s else s
    leadReport t r (onTray t (fun x => { x with watts := r.trayW }) (onAgent t (fun a =>
      { a with seq := some r.seq, lastAt := now, state := r.state.toNat, links := r.links }) s))

/-- TRAY_POLL. -/
def execTrayPoll (tray : Fin 16) (r : PowerReport) (s : State) : Host.Outcome State Fault Refusal :=
  .next (doTrayPoll tray r s)

/-- The silence threshold on a tray (Table 06-9): CAPDN, revocation and AGENT_SILENT, unless it holds already. -/
def markSilent (t : Nat) (s : State) : State :=
  if (agentOf s t).capdnBy then s
  else event 0x0605 2 [t] 0 0 (onAgent t (fun a => { a with capdnBy := true }) (capdnRevoke t 0x17 s))
/-- No report has come from a tray's agent for 10 ms. -/
def isSilent (s : State) (t : Nat) : Bool := (agentOf s t).link != .up

/-- AGENT_SILENCE (Tables 06-9 and 14-4): no valid report for 10 ms. An agent whose link is not up, so that it has not
reported to this board at all, is silent too: the threshold holds on its tray once that is not off. -/
def doAgentSilence (t : Nat) (s : State) : State :=
  let a := agentOf s t
  if !running s then s
  else
    let s := if a.link == .up then setLink t .silent (reach (a.lastAt + 10000) s)
             else if s.pair.lead && !trayOff s t && !a.capdnBy then reach (a.lastAt + 10000) s else s
    if !s.pair.lead || trayOff s t then s else markSilent t s

/-- AGENT_SILENCE. -/
def execAgentSilence (tray : Fin 16) (s : State) : Host.Outcome State Fault Refusal := .next (doAgentSilence tray s)

/-- AGENT_LOST (Table 14-4): no valid report for 1 s; RSTDAA, then SETDASA every 1 s. The tray's rebinding aborts (R344). -/
def doAgentLost (t : Nat) (s : State) : State :=
  let a := agentOf s t
  if !running s || a.link != .silent then s
  else
    let s := emit (.rstdaa (t / 4)) (setLink t .lost (reach (a.lastAt + 1000000) s))
    abortRebind t (onAgent t (fun a => { a with tryAt := s.now + 1000000 }) s)

/-- AGENT_LOST. -/
def execAgentLost (tray : Fin 16) (s : State) : Host.Outcome State Fault Refusal := .next (doAgentLost tray s)

/-- ROLE written to an agent (R331). -/
def writeRole (t : Nat) (s : State) : State :=
  let lead := s.pair.lead
  control t 1 lead.toNat (onAgent t (fun a => { a with role := some lead }) s)

/-- AGENT_SETDASA_RETRY (Table 14-4): on acknowledgement ROLE is written and the descriptor read. -/
def doAgentSetdasaRetry (t : Nat) (ack : Bool) (desc : Bytes) (s : State) : State :=
  let a := agentOf s t
  if !running s || a.link == .up || a.link == .silent then s
  else
    let s := emit (.setdasa (t / 4) (0x30 + t % 4) (0x10 + t % 4)) (reach a.tryAt s)
    let now := s.now
    if ack then
      let s := setLink t .up (onAgent t (fun a => { a with lastAt := now, from_ := now, seq := none }) s)
      readDesc t desc (writeRole t s)
    else onAgent t (fun a => { a with tryAt := now + 1000000 }) s

/-- AGENT_SETDASA_RETRY. -/
def execAgentSetdasaRetry (tray : Fin 16) (ack : Bool) (desc : Bytes) (s : State) : Host.Outcome State Fault Refusal :=
  .next (doAgentSetdasaRetry tray ack desc s)

/-! ## The stagger queue (R157, R158, R335) -/

/-- A resume or start may be granted now: `need` watts of FREE and BASE_OK; else the defer time in ms. -/
def staggerAsk (t need : Nat) (s : State) : Option Nat :=
  if s.lv.table.isNone || s.lv.stale || leaveHeld s then some 10
  else
    let ok := fun ls => decide ((need : Int) ≤ freeWith s ls) && decide (0 ≤ freeWith s ls) && baseOk (tableOf s) t
    if ok s.lv.leases then none else some (fitMs s ok)

/-- The head entry leaves the queue. -/
def popQueue (s : State) : State := s.onLv fun l => { l with queue := l.queue.tail, deferAt := none }

/-- A granted start (R158): its base caps become base draw as ENABLED is set, TEN rises per R128, and the ready
report is due within 10 s. The next slot waits for the TEN assertion. -/
def grantStart (t : Nat) (s : State) : State :=
  let s := (popQueue s).onLv fun l => { l with slotAt := none, slotTray := some t }
  let cw := ((findEntry (trayOf s t).startSeq s).map (·.cw)).getD 0
  let s := assertCapdn t (onTray t (fun x =>
    { x with startAt := some (s.now + 10000000), drawCw := cw, drawAt := s.now }) s)
  afterTen (changeTen t true s)

/-- A granted resume releases CAPDN (R156); the next slot is one interval later. -/
def grantResume (t : Nat) (s : State) : State :=
  let s := releaseCapdn t (popQueue s)
  s.onLv fun l => { l with slotAt := some (s.now + s.kt.stagger * 1000) }

/-- The head of the queue asks for leave (R157). A start without an adopted inventory record takes none and
completes NO_INVENTORY (R335); a resume that may no longer release CAPDN (R156) is dropped, and one of a tray whose agent does
not report is queued again once it has reported for 100 ms (Table 06-9). -/
def askHead (s : State) : State :=
  match s.lv.queue with
  | [] => s
  | q :: _ =>
    if q.start then
      if (invOf s q.tray).desc.isNone then
        finish0 q.jseq 0x0E01 (onTray q.tray (fun x => { x with startSeq := 0 }) (popQueue s))
      else match staggerAsk q.tray (baseSum (descOf s q.tray)) s with
        | none => grantStart q.tray s
        | some d => (needWaits (baseSum (descOf s q.tray)) s).onLv fun l => { l with deferAt := some (s.now + d * 1000) }
    else if !mayResume s q.tray || s.pair.silent.isSome then popQueue s
    else if isSilent s q.tray then markSilent q.tray (popQueue s)
    else match staggerAsk q.tray 0 s with
      | none => grantResume q.tray s
      | some d => s.onLv fun l => { l with deferAt := some (s.now + d * 1000) }

/-- STAGGER_SLOT (R157): a slot opens; the first at the first cycle tick at which a table is current. -/
def doStaggerSlot (s : State) : State :=
  match s.lv.slotAt, s.lv.deferAt with
  | some t, none => if acting s && !s.lv.queue.isEmpty then askHead (reach t s) else s
  | _, _ => s

/-- STAGGER_SLOT. -/
def execStaggerSlot (s : State) : Host.Outcome State Fault Refusal := .next (doStaggerSlot s)

/-- STAGGER_DEFER_RETRY (R157). -/
def doStaggerDeferRetry (s : State) : State :=
  match s.lv.deferAt with
  | some t =>
    if acting s then askHead ((reach t s).onLv fun l => { l with deferAt := none }) else s
  | none => s

/-- STAGGER_DEFER_RETRY. -/
def execStaggerDeferRetry (s : State) : Host.Outcome State Fault Refusal := .next (doStaggerDeferRetry s)

/-- TRAY_START_TIMEOUT (R158): no ready report within 10 s. -/
def doTrayStartTimeout (t : Nat) (s : State) : State :=
  match (trayOf s t).startAt with
  | some d => if acting s then afterTen (changeTen t false (endStart t 0x0601 (reach d s))) else s
  | none => s

/-- TRAY_START_TIMEOUT. -/
def execTrayStartTimeout (tray : Fin 16) (s : State) : Host.Outcome State Fault Refusal :=
  .next (doTrayStartTimeout tray s)

end Sys2Proof.Machine
end

