-- ==== Sys2Proof/Machine/Logs.lean ====
section
/-! DEFINITION. Machine/Logs.lean: the folio writer, reading, freezing and clearing the logbook, the performance
counters and the dumps (chapter 15). -/

namespace Sys2Proof.Machine

/-! ## The folio writer (R353, R355) -/

/-- The lowest severity among folios, 4 for none. -/
def minSev (fs : List Folio) : Nat := fs.foldl (fun m f => min m f.sev) 4

/-- A folio committed to the logbook (R355), and whether it took a slot. -/
def Logbook.commit (f : Folio) (l : Logbook) : Logbook × Bool :=
  if l.slots.length < 4096 then ({ l with slots := l.slots ++ [f] }, true)
  else
    let m := minSev l.slots
    if m ≤ f.sev then
      match l.slots.findIdx? (fun g => g.sev == m) with
      | some i => ({ l with slots := l.slots.eraseIdx i ++ [f] }, true)
      | none => (l.drop f.sev, false)
    else (l.drop f.sev, false)

/-- The images of a trip are saved before its folio is written (R171). -/
def imagesFirst (f : Folio) (s : State) : State :=
  if (f.code == 0x0700 || f.code == 0x0707) && s.ket.imageDue.isSome && s.keep.tenRead then saveImages s else s
/-- FOLIO_COMMIT (R353, R357): the writer commits the next queued folio, unless a freeze holds. -/
def doFolioCommit (s : State) : State :=
  if s.keep.por || s.log.freeze.isSome then s else
  match s.log.queue with
  | [] => s
  | f :: fs =>
    let r := Logbook.commit f { s.log with queue := fs }
    count (if r.2 then 0x2B4 else 0x2B5) ((imagesFirst f s).onLog fun _ => r.1)

/-- FOLIO_COMMIT. -/
def execFolioCommit (s : State) : Host.Outcome State Fault Refusal := .next (doFolioCommit s)

/-- LOG_DROPPED (R355): at most once per 1 s while drops occur; the event makes no folio. -/
def doLogDropped (s : State) : State :=
  if !running s || !s.log.dropNew then s else
  let s := match s.log.dropAt with
    | some t => reach (t + 1000000) s
    | none => s
  let now := s.now
  let s := s.onLog fun l => { l with dropNew := false, dropAt := some now }
  bareEvent 0x0F00 2 s.log.dropped 0 s

/-- LOG_DROPPED. -/
def execLogDropped (s : State) : Host.Outcome State Fault Refusal := .next (doLogDropped s)

/-! ## Freeze (R356 to R359) -/

/-- The highest FSEQ in the logbook, or 0. -/
def lastFseq (l : Logbook) : Nat := match l.slots.getLast? with | some f => f.fseq | none => 0
/-- The folios held: those of the writer queue and of the holding buffer while a freeze holds (R357). -/
def heldFolios (l : Logbook) : List Folio := if l.freeze.isSome then l.queue ++ l.buf else []

/-- The freeze that holds ended with a cause (R359). -/
def thawLog (cause : Nat) (s : State) : State :=
  match s.log.freeze with
  | none => s
  | some z =>
    let held := (heldFolios s.log).length
    thawed z.id.toNat cause held (s.onLog Logbook.thaw)

/-- The body rules of LOG_FREEZE. -/
def badLogFreeze (b : Bytes) : Option Nat :=
  firstBad [(decide (2 ≤ fld b 0 1), 0), (decide (2 ≤ fld b 1 1), 1), (decide (600 < fld b 2 2), 2),
    (fld b 1 1 == 1 && fld b 4 4 != 0, 4)]

/-- A freeze set, or its HOLD_S restarted (R356); the folios queued take HELD (R357). -/
def freezeLog (hold : Nat) (s : State) : State :=
  let stop := s.now + hold * 1000000
  match s.log.freeze with
  | some z => s.onLog fun l => { l with freeze := some { z with hold := hold, stop := stop } }
  | none =>
    let (n, s) := draw s
    let v := Config.freezeId n
    let id := if v == 0 then 1 else v
    let s := s.onLog fun l =>
      { l with freeze := some { id := id, hold := hold, stop := stop }, queue := l.queue.map fun f => { f with held := true } }
    let s := if running s && !s.pair.lead then sendPair (.lease (.freeze true id)) s else s
    event 0x0F02 1 [id.toNat, hold] 0 0 s

/-- LOG_FREEZE's effect at the board named (R356). -/
def fxLogFreeze (e : JEntry) (s : State) : State :=
  let b := e.body
  let hold := if fld b 2 2 == 0 then 60 else fld b 2 2
  if fld b 1 1 == 1 then
    let s := freezeLog hold s
    finish e.jseq 0 (leBytes 4 (s.log.freeze.getD {}).id.toNat ++ leBytes 8 (lastFseq s.log)) s
  else match s.log.freeze with
    | some z =>
      if fld b 4 4 == 0 || fld b 4 4 == z.id.toNat then finish0 e.jseq 0 (thawLog 1 s) else finish0 e.jseq 0x0F01 s
    | none => finish0 e.jseq 0x0F01 s

/-- FREEZE_EXPIRY (R359). -/
def doFreezeExpiry (s : State) : State :=
  match s.log.freeze with
  | some z => thawLog 2 (reach z.stop s)
  | none => s

/-- FREEZE_EXPIRY. -/
def execFreezeExpiry (s : State) : Host.Outcome State Fault Refusal := .next (doFreezeExpiry s)

/-! ## Reading (R360) -/

/-- The body rules of LOG_READ. -/
def badLogRead (b : Bytes) : Option Nat :=
  firstBad [(fld b 8 1 == 0 || decide (7 < fld b 8 1), 8), (decide (3 < fld b 9 1), 9), (decide (1 < fld b 10 1), 10), rsv b 11 1]

/-- The summary of LOG_READ (Table 15-5). -/
def logSummary (l : Logbook) (n : Nat) : Bytes :=
  leBytes 8 (match l.slots with | f :: _ => f.fseq | [] => 0) ++ leBytes 8 (lastFseq l) ++ leBytes 2 l.slots.length ++
  leBytes 1 n ++ leBytes 1 l.freeze.isSome.toNat ++ leBytes 1 (heldFolios l).length ++ zeros 3 ++
  leBytes 4 (match l.freeze with | some z => z.id.toNat | none => 0) ++ (l.dropped.map (leBytes 4)).flatten ++ zeros 4

/-- LOG_READ's result code, summary and folios. -/
def logRead (s : State) (b : Bytes) : Word × Bytes × List Folio :=
  let l := s.log
  let fid := fld b 12 4
  if fid != 0 && (match l.freeze with | some z => z.id.toNat != fid | none => true) then (0x0F01, logSummary l 0, [])
  else
    let all := if fld b 10 1 == 1 then l.slots ++ heldFolios l else l.slots
    let fs := (all.filter fun f => decide (fld b 0 8 ≤ f.fseq) && decide (fld b 9 1 ≤ f.sev)).take (fld b 8 1)
    (0, logSummary l fs.length, fs)

/-! ## Clearing (R361, R362) -/

/-- The body rules of LOG_CLEAR. -/
def badLogClear (b : Bytes) : Option Nat :=
  firstBad [(decide (2 ≤ fld b 0 1), 0), (decide (3 < fld b 1 1), 1), rsv b 2 6]

/-- A freeze holds at a board in the acting Lead's target state (R361). -/
def frozenAt (s : State) (brd : Nat) : Bool :=
  (if namesMe brd s then s.log.freeze.isSome else s.pair.partFrz.isSome) ||
  s.jr.entries.any fun e =>
    e.op == 0x0701 && e.state != .done && !e.applied && fld e.body 0 1 == brd && fld e.body 1 1 == 1
/-- Step 8 for LOG_CLEAR. -/
def admitLogClear (s : State) (b : Bytes) : Option Refuse := if frozenAt s (fld b 0 1) then some {} else none

/-- LOG_CLEAR's effect at the board named (R362). -/
def fxLogClear (e : JEntry) (s : State) : State :=
  let ms := fld e.body 1 1
  let upto := fld e.body 8 8
  let gone := fun f : Folio => decide (f.sev ≤ ms) && (upto == 0 || decide (f.fseq ≤ upto))
  let cleared := s.log.slots.filter gone
  let per := (List.range 4).map fun v => (cleared.filter (·.sev == v)).length
  let reset := (List.range 4).map fun v => if v ≤ ms then s.log.dropped.getD v 0 else 0
  let s := s.onLog fun l => { l with
    slots := l.slots.filter fun f => !gone f,
    dropped := (List.range 4).map fun v => if v ≤ ms then 0 else l.dropped.getD v 0 }
  let f := { mkFolio 2 0x0F01 3 (ms :: upto :: per ++ reset) e.cw 0 s with row := if s.spn.formed then rowTime s else 0 }
  let s := addFolio f s
  let s := ringEvent { code := 0x0F01, sev := 3, time := f.time, cw := e.cw, ref := f.fseq, data := ms :: per } s
  finish e.jseq 0 (leBytes 4 cleared.length ++ leBytes 8 f.fseq) s

/-! ## Counters (R363 to R368) -/

/-- The ranges of the event numbers that Table 15-7 defines. -/
def eventRanges : List (Nat × Nat) :=
  [(0x000, 0x00A), (0x040, 0x249), (0x250, 0x257), (0x260, 0x26A), (0x270, 0x288), (0x290, 0x2B6), (0x2C0, 0x2C6),
   (0x2C8, 0x2D6), (0x2D8, 0x2DE), (0x2E0, 0x2E6), (0x2E8, 0x2EE), (0x2F0, 0x2F3), (0x300, 0x342), (0x348, 0x353),
   (0x360, 0x38B), (0x390, 0x3A1), (0x3C0, 0x3E4)]
/-- An event number that level 1.4 defines (R368). -/
def eventLegal (n : Nat) : Bool := eventRanges.any fun r => decide (r.1 ≤ n) && decide (n ≤ r.2)
/-- A configuration word is legal (Table 15-6). -/
def pmcWordOk (w : Nat) : Bool := eventLegal (w % 1024) && w / 8192 == 0

/-- The body rules of PMC_CONFIG. -/
def badPmcConfig (b : Bytes) : Option Nat :=
  let n := fld b 2 1
  firstBad ([(decide (2 ≤ fld b 0 1), 0), (decide (95 < fld b 1 1), 1),
    (n == 0 || decide (24 < n) || decide (96 < fld b 1 1 + n), 2), rsv b 3 5] ++
    (List.range (min n 24)).map fun i => (!pmcWordOk (fld b (8 + 4 * i) 4), 8 + 4 * i))

/-- One counter under a new configuration word (R366). -/
def Counters.config (i w : Nat) (c : Counters) : Counters :=
  let old := (c.cfg.get 0 i).toNat
  let c' := { c with cfg := c.cfg.set i (BitVec.ofNat 32 (w % 4096)) }
  if old % 2048 != w % 2048 || w.testBit 12 then { c' with val := c.val.set i 0, ovf := c.ovf.set i false } else c'

/-- PMC_CONFIG's effect at the board named (R366). -/
def fxPmcConfig (e : JEntry) (s : State) : State :=
  let b := e.body
  let s := s.onPmc fun c =>
    let c := (List.range (fld b 2 1)).foldl (fun c i =>
      (c.config (fld b 1 1 + i) (fld b (8 + 4 * i) 4)).markOne (condOf s (fld b (8 + 4 * i) 4 % 1024)) (fld b 1 1 + i)) c
    { c with gen := (c.gen + 1) % 2 ^ 32 }
  finish0 e.jseq 0 s

/-- The body rules of PMC_READ. -/
def badPmcRead (b : Bytes) : Option Nat :=
  firstBad [(decide (95 < fld b 0 1), 0), (fld b 1 1 == 0 || decide (96 < fld b 0 1 + fld b 1 1), 1), rsv b 2 6]
/-- PMC_READ's result (R367). -/
def pmcRead (s : State) (b : Bytes) : Bytes :=
  let c := s.pmc
  leBytes 8 (keepTime s) ++ leBytes 4 c.gen ++ zeros 4 ++
  ((List.range (fld b 1 1)).map fun i =>
    let n := fld b 0 1 + i
    leBytes 4 (c.cfg.get 0 n).toNat ++ leBytes 4 (c.ovf.get false n).toNat ++ leBytes 8 (c.val.get 0 n)).flatten
/-- PMC_READ clears each OVF it reports. -/
def pmcReadClear (b : Bytes) (s : State) : State :=
  s.onPmc fun c => { c with ovf := (List.range (fld b 1 1)).foldl (fun o i => o.set (fld b 0 1 + i) false) c.ovf }

/-! ## Dumps (R369 to R371) -/

/-- The dump ring is full: equal indices, unequal wrap bits. -/
def dumpFull (c : Counters) : Bool := c.pi % 4096 == c.ci % 4096 && c.pi / 4096 % 2 != c.ci / 4096 % 2

/-- The time of the next dump instant: the next multiple of USEC µs of row time, or of local cycle time (R370). -/
def dumpTime (s : State) : Nat :=
  let from_ := max s.now s.pmc.nextAt
  let per := s.pmc.period * 1000
  let rt := gridNs s from_
  from_ + ((per - rt % per) % per + 999) / 1000

/-- A dump record written and PI advanced (R370). -/
def writeDump (s : State) : State :=
  let c := s.pmc
  let idx := c.pi % 4096
  let vals := (List.range 96).map fun n => c.val.get 0 n
  let ovf := (List.range 96).map fun n => c.ovf.get false n
  let s := emit (.dump idx (c.base.toNat + 640 * idx)
    (dumpBytes c.dseq (keepTime s) (gridNs s s.now) ((s.now - c.bindAt) * 800) c.gen c.since ovf vals)) s
  let wrap := idx + 1 == c.slots
  let irq := c.irq != 0 && decide (c.irq ≤ c.records + 1)
  let s := s.onPmc fun c => { c with
    pi := if wrap then (4096 - c.pi / 4096 * 4096) else c.pi + 1, since := 0, records := if irq then 0 else c.records + 1 }
  let s := count 0x2C5 s
  if irq then msix 7 s else s

/-- DUMP_INSTANT (R370, R371): counters latched and a record written, or the instant skipped. Values of SLOTS or
PERIOD outside Table 15-8 give no instant. -/
def doDumpInstant (s : State) : State :=
  let c := s.pmc
  if !c.en || c.slots < 2 || 4096 < c.slots || c.period == 0 || 1000000 < c.period || s.pwr.bind != .on then s
  else
    let s := reach (dumpTime s) s
    let now := s.now
    let s := s.onPmc fun c => { c with dseq := c.dseq + 1, nextAt := now + 1 }
    if dumpFull s.pmc || s.host.dstate != .d0 || !(s.host.link == .l0 || s.host.link == .l1) then
      count 0x2C6 (s.onPmc fun c => { c with skipped := (c.skipped + 1) % 2 ^ 32, since := (c.since + 1) % 2 ^ 32 })
    else writeDump s

/-- DUMP_INSTANT. -/
def execDumpInstant (s : State) : Host.Outcome State Fault Refusal := .next (doDumpInstant s)

/-- The high word of PDU_VALUE n: VALUE [47:32] and OVF. -/
def pduHigh (c : Counters) (n : Nat) : Nat := c.val.get 0 n / 2 ^ 32 + (c.ovf.get false n).toNat * 2 ^ 31

/-- PDU_VALUE_LOW_READ (R369): the low word's read latches the high word. -/
def doPduValueLowRead (n : Nat) (s : State) : State :=
  if bar0Up s && running s then s.onPmc fun c => { c with latch := pduHigh c n } else s

/-- PDU_VALUE_LOW_READ. -/
def execPduValueLowRead (n : Nat) (s : State) : Host.Outcome State Fault Refusal := .next (doPduValueLowRead n s)

/-- PDU_SKIPPED_READ (R371): the read clears the count. In keeper mode the register is not read (Table 03-1). -/
def doPduSkippedRead (s : State) : State :=
  if bar0Up s && running s then s.onPmc fun c => { c with skipped := 0 } else s

/-- PDU_SKIPPED_READ. -/
def execPduSkippedRead (s : State) : Host.Outcome State Fault Refusal := .next (doPduSkippedRead s)

end Sys2Proof.Machine
end

