-- ==== Sys2Proof/Machine/Mailbox.lean ====
section
/-! DEFINITION. Machine/Mailbox.lean: the mailbox registers, the response ring, register writes over BAR0, the TLS
connections, the event ring's registers and backlog, and the publication of wake causes (chapter 04). -/

namespace Sys2Proof.Machine

/-! ## Mailbox registers (R83 to R86) -/

/-- A doorbell (R85): REQ_BUSY, or DB_LOST while REQ_BUSY is 1. Only M0 and M1 are rung, and not in keeper mode. -/
def doMbxDoorbell (m : Nat) (s : State) : State :=
  if !bar0Up s || !running s || 2 ≤ m then s
  else if (mbxOf s m).busy then onBox m (fun b => { b with dbLost := true }) s
  else countRise (0x2A0 + m) (count (0x290 + m) (onBox m (fun b => { b with busy := true }) s))

/-- MBX_DOORBELL. -/
def execMbxDoorbell (m : Fin 8) (s : State) : Host.Outcome State Fault Refusal := .next (doMbxDoorbell m s)

/-- A write of the response consumer index (R83, Table 04-2): ignored with CI_BAD beyond PI. -/
def doMbxRspCi (m ci : Nat) (s : State) : State :=
  if !bar0Up s || !running s || 2 ≤ m then s
  else
    let b := mbxOf s m
    if (ci + 64 - b.ci) % 64 ≤ (b.pi + 64 - b.ci) % 64 then onBox m (fun b => { b with ci := ci }) s
    else onBox m (fun b => { b with ciBad := true }) s

/-- MBX_RSP_CI. -/
def execMbxRspCi (m : Fin 8) (ci : BitVec 6) (s : State) : Host.Outcome State Fault Refusal :=
  .next (doMbxRspCi m ci.toNat s)

/-- RESPONSE_WRITE (R86, R87, R330). -/
def doResponseWrite (m : Nat) (s : State) : State := if running s then writeOut m s else s

/-- RESPONSE_WRITE. -/
def execResponseWrite (m : Fin 8) (s : State) : Host.Outcome State Fault Refusal := .next (doResponseWrite m s)

/-- A dword written into a request window: discarded with WR_LOST while REQ_BUSY is 1 (R85). -/
def writeWindow (m off : Nat) (v : Word) (s : State) : State :=
  if (mbxOf s m).busy then onBox m (fun b => { b with wrLost := true }) s
  else onBox m (fun b => { b with window := b.window.writeN off (leBytes 4 v.toNat) }) s

/-- MBX_ERR, write 1 to clear. -/
def writeErr (m : Nat) (v : Word) (s : State) : State :=
  onBox m (fun b => { b with
    dbLost := b.dbLost && !v.getLsbD 0, ciBad := b.ciBad && !v.getLsbD 1, wrLost := b.wrLost && !v.getLsbD 2 }) s

/-! ## The event ring's registers (Table 04-12, R107, R108) -/

/-- A write of EVR_CI. -/
def doEvrCi (v : Word) (s : State) : State :=
  if bar0Up s && running s then s.onHost fun h => { h with ci := v.toNat % 8192 } else s

/-- EVR_CI. -/
def execEvrCi (val : Word) (s : State) : Host.Outcome State Fault Refusal := .next (doEvrCi val s)

/-- EVR_DROPPED_READ: the read clears the count. -/
def doEvrDroppedRead (s : State) : State :=
  if bar0Up s && running s then s.onHost fun h => { h with dropped := 0 } else s

/-- EVR_DROPPED_READ. -/
def execEvrDroppedRead (s : State) : Host.Outcome State Fault Refusal := .next (doEvrDroppedRead s)

/-- The waiting events written while the ring takes them; `n` bounds their number. -/
def drainEvents : Nat → State → State
  | 0, s => s
  | n + 1, s =>
    match s.host.backlog with
    | [] => s
    | e :: es =>
      if ringOpen s.host then drainEvents n (ringWrite e (s.onHost fun h => { h with backlog := es })) else s

/-- EVENT_BACKLOG_DRAIN (R108): one DROPPED entry with the count, then the events that waited. -/
def doEventBacklogDrain (s : State) : State :=
  if !running s || !ringOpen s.host then s
  else
    let n := s.host.dropOwe
    let s := if n == 0 then s
      else ringWrite { code := 0x0003, sev := 2, time := keepTime s, data := [n] } (s.onHost fun h => { h with dropOwe := 0 })
    drainEvents s.host.backlog.length s

/-- EVENT_BACKLOG_DRAIN. -/
def execEventBacklogDrain (s : State) : Host.Outcome State Fault Refusal := .next (doEventBacklogDrain s)

/-- WAKE_CAUSE_PUBLISH (R110): the first record leaves the latch as its entry is written. The rule gives the entry
no DATA layout; the code, the count and the wake sequence stand there (log 17). -/
def doWakeCausePublish (s : State) : State :=
  match s.keep.wake with
  | [] => s
  | r :: rs =>
    if !running s || !ringOpen s.host then s
    else
      ringWrite { code := 0x0001, sev := 1, wake := true, time := r.time, data := [r.code, r.count, r.seq] }
        (s.onKeep fun k => { k with wake := rs })

/-- WAKE_CAUSE_PUBLISH. -/
def execWakeCausePublish (s : State) : Host.Outcome State Fault Refusal := .next (doWakeCausePublish s)

/-! ## Register writes (R6, R82, R369) -/

/-- A value with some low bits cleared, which its register reserves. -/
def clearLow (n : Nat) (v : Word) : Nat := v.toNat / 2 ^ n * 2 ^ n

/-- A write to an event ring register. -/
def writeEvr (off : Nat) (v : Word) (s : State) : State :=
  match off with
  | 0x00 => if s.host.en then s else s.onHost fun h => { h with base := BitVec.ofNat 64 (h.base.toNat / 2 ^ 32 * 2 ^ 32 + clearLow 12 v) }
  | 0x04 => if s.host.en then s else s.onHost fun h => { h with base := BitVec.ofNat 64 (v.toNat * 2 ^ 32 + h.base.toNat % 2 ^ 32) }
  | 0x08 => s.onHost fun h => { h with en := v.getLsbD 0 }
  | 0x10 => doEvrCi v s
  | 0x18 => s.onHost fun h => { h with mod := v.setWidth 16 }
  | _ => s

/-- A write to PDU_CTRL (R369, R370): instants are counted from the setting of EN. -/
def writePduCtrl (v : Word) (s : State) : State :=
  let now := s.now
  s.onPmc fun c =>
    let on := v.getLsbD 0
    { c with en := on, irq := v.toNat / 65536, dseq := if on && !c.en then 0 else c.dseq,
             nextAt := if on && !c.en then now else c.nextAt }

/-- A write to a dump register; those of the ring are ignored while EN is 1. A PDU_SLOTS or PDU_PERIOD outside the range of
Table 15-8 is stored and gives no dump instant: the manual does not say whether it counts as a reserved encoding, which a
field would refuse (log 144). -/
def writePdu (off : Nat) (v : Word) (s : State) : State :=
  let e := s.pmc.en
  match off with
  | 0x00 => if e then s else s.onPmc fun c => { c with base := BitVec.ofNat 64 (c.base.toNat / 2 ^ 32 * 2 ^ 32 + clearLow 12 v) }
  | 0x04 => if e then s else s.onPmc fun c => { c with base := BitVec.ofNat 64 (v.toNat * 2 ^ 32 + c.base.toNat % 2 ^ 32) }
  | 0x08 => if e then s else s.onPmc fun c => { c with slots := v.toNat % 8192 }
  | 0x0C => if e then s else s.onPmc fun c => { c with period := v.toNat % 2 ^ 20 }
  | 0x10 => writePduCtrl v s
  | 0x18 => s.onPmc fun c => { c with ci := v.toNat % 8192 }
  | _ => s

/-- A write to the boot page (R68), whose list registers store, and ABORT acts (R70); START is a row of its own, with the
list that its DMA read brings. -/
def writeBoot (off : Nat) (v : Word) (s : State) : State :=
  if running s then s
  else match off with
  | 0x08 => s.onBoot fun b => { b with listLo := v }
  | 0x0C => s.onBoot fun b => { b with listHi := v }
  | 0x10 => s.onBoot fun b => { b with listCount := v.setWidth 11 }
  | 0x14 => if v.getLsbD 1 then doMbxBootAbort s else s
  | _ => s

/-- A write to a control register of M0 or M1 (R83). -/
def writeControl (m off : Nat) (v : Word) (s : State) : State :=
  match off with
  | 0x00 => if v.getLsbD 0 then doMbxDoorbell m s else s
  | 0x0C => doMbxRspCi m (v.toNat % 64) s
  | 0x10 => writeErr m v s
  | _ => s

/-- A pending vector that the table no longer masks is sent (log 16). -/
def sendPending (v : Nat) (s : State) : State :=
  if s.host.msixPba.getLsbD v && !(s.host.msix.read (16 * v + 12)).getLsbD 0 then
    emit (.msix v) (s.onHost fun h => { h with msixPba := h.msixPba &&& ~~~(1#64 <<< v) })
  else s

/-- REGISTER_WRITE: a dword written over BAR0 (Table 04-1). Unlisted offsets and what M2 to M7 hold ignore it; in
keeper mode the boot page and the MSI-X table alone are written. -/
def doRegisterWrite (off : Nat) (v : Word) (s : State) : State :=
  let o := off / 4 * 4
  if !bar0Up s then s
  else if 0x30000 ≤ o && o < 0x31000 then writeBoot (o - 0x30000) v s
  else if 0x38000 ≤ o && o < 0x38200 then
    sendPending ((o - 0x38000) / 16) (s.onHost fun h => { h with msix := h.msix.writeN (o - 0x38000) (leBytes 4 v.toNat) })
  else if !running s then s
  else if o < 0x1000 then writeWindow 0 o v s
  else if 0x2000 ≤ o && o < 0x3000 then writeWindow 1 (o - 0x2000) v s
  else if 0x10000 ≤ o && o < 0x10080 then writeControl ((o - 0x10000) / 64) ((o - 0x10000) % 64) v s
  else if 0x11000 ≤ o && o < 0x11040 then writeEvr (o - 0x11000) v s
  else if 0x20000 ≤ o && o < 0x30000 then writePdu (o - 0x20000) v s
  else s

/-- REGISTER_WRITE. -/
def execRegisterWrite (off : BitVec 18) (val : Word) (s : State) : Host.Outcome State Fault Refusal :=
  .next (doRegisterWrite off.toNat val s)

/-! ## TLS connections (R88, R89) -/

/-- The waiting responses of a mailbox delivered over its new connection; `n` bounds their number. -/
def drainBox (m : Nat) : Nat → State → State
  | 0, s => s
  | n + 1, s => drainBox m n (sendResponse m s)

/-- A handshake within Table 04-4: TLS 1.3, TLS_AES_256_GCM_SHA384 and secp384r1 offered, a full handshake without PSK
resumption or 0-RTT data, and a client certificate. -/
def helloOk (h : TlsHello) : Bool :=
  h.versions.contains 0x0304 && h.suites.contains 0x1302 && h.groups.contains 0x0018 && !h.psk && !h.early && h.key.isSome
/-- TLS_CONNECT: refused outside Table 04-4, while the port holds no client key hash or no chain is installed, and for
another client key; otherwise the old connection closes and the waiting responses go first. No TLS in keeper mode. -/
def doTlsConnect (port : Nat) (hello : TlsHello) (s : State) : State :=
  if !running s then s
  else if helloOk hello && s.kt.chain.isSome && s.kt.clientKeys.find port == hello.key then
    let m := 2 + port
    let s := if (mbxOf s m).conn then emit (.tls port false) s else s
    let s := emit (.tls port true) (onBox m (fun b => { b with conn := true }) s)
    drainBox m (mbxOf s m).waiting.length s
  else emit (.tls port false) s

/-- TLS_CONNECT. -/
def execTlsConnect (port : Fin 2) (hello : TlsHello) (s : State) : Host.Outcome State Fault Refusal :=
  .next (doTlsConnect port hello s)

/-- TLS_DISCONNECT: the responses not yet delivered wait. -/
def doTlsDisconnect (port : Nat) (s : State) : State := onBox (2 + port) (fun b => { b with conn := false }) s

/-- TLS_DISCONNECT. -/
def execTlsDisconnect (port : Fin 2) (s : State) : Host.Outcome State Fault Refusal := .next (doTlsDisconnect port s)

end Sys2Proof.Machine
end

