-- ==== Sys2Proof/Machine/Security.lean ====
section
/-! DEFINITION. Machine/Security.lean: nonces, tokens and lockouts, staging, and the commands of chapter 04:
KEY_SET, KEY_REVOKE, ROLLBACK_ADVANCE, RESET, WAKE_CONFIG and TLS_SET. -/

namespace Sys2Proof.Machine

/-! ## Authorisation (R104, R106) -/

/-- The nonces of a source that have not lapsed, newest last. -/
def noncesOf (src : Nat) (s : State) : List Nonce := s.jr.nonces.filter fun n => n.src.toNat == src

/-- A nonce issued to a source: valid for 120 s; of more than 16 the oldest goes. A new value differs from those
the source holds only as the free value says. -/
def issueNonce (src : Nat) (s : State) : Nonce × State :=
  let (n, s) := draw s
  let x : Nonce := { src := BitVec.ofNat 16 src, val := Config.nonce n, stop := s.now + 120000000 }
  let mine := noncesOf src s
  let rest := s.jr.nonces.filter fun n => n.src.toNat != src
  (x, s.onJr fun q => { q with nonces := rest ++ (mine.drop (mine.length - 15)) ++ [x] })

/-- A key of the keep tables. -/
def keyOf (s : State) (k : Bool) : Option Digest := if k then s.kt.key1 else s.kt.key0

/-- The token of a record (R104). -/
def tokenFor (s : State) (key : Digest) (r : Rec) : Digest :=
  hmacSha256 (leBytes 32 key.toNat) (leBytes 8 s.otp.serial.toNat ++ leBytes 8 r.authref.toNat ++ leBytes 2 r.op.toNat)

/-- The first DENIED_AUTH cause of a token under `need`'s key, in the order of Table 04-11a; none where it is
valid. Table 04-11a gives no cause of its own for a token under the other key, provisioned and with a valid nonce: it is
answered as a token that does not match (log 140). -/
def tokenCause (src : Nat) (need : Bool) (r : Rec) (s : State) : Option Nat :=
  if s.jr.lockout.find src |>.isSome then some 2
  else if !r.flags.getLsbD 0 then some 3
  else
    let k := r.flags.getLsbD 1
    match keyOf s k with
    | none => some 4
    | some key =>
      match (noncesOf src s).find? (·.val == r.authref) with
      | none => some 5
      | some n =>
        if n.spent then some 6
        else if n.stop < s.now then some 7
        else if k != need || digestOf r.token != tokenFor s key r then some 8
        else none

/-- A nonce spent (R104). -/
def spendNonce (src : Nat) (val : DWord) (s : State) : State :=
  s.onJr fun q => { q with nonces := q.nonces.map fun n => if n.src.toNat == src && n.val == val then { n with spent := true } else n }

/-- One more DENIED_AUTH answer to a source: after 8 within 60 s its tokens are refused for 60 s. -/
def denied (src : Nat) (s : State) : State :=
  let now := s.now
  let s := s.onJr fun q => { q with denied := (q.denied.filter fun d => decide (now < d.2 + 60000000)) ++ [(src, now)] }
  if 8 ≤ (s.jr.denied.filter (·.1 == src)).length then
    record 0x0F15 3 [src] 0 (s.onJr fun q =>
      { q with lockout := q.lockout.set src (now + 60000000), denied := q.denied.filter (·.1 != src) })
  else s

/-- AUTH_LOCKOUT_END (R104): 60 s have passed. -/
def doAuthLockoutEnd (src : Nat) (s : State) : State :=
  match s.jr.lockout.find src with
  | some t => (reach t s).onJr fun q => { q with lockout := q.lockout.erase src }
  | none => s

/-- AUTH_LOCKOUT_END. -/
def execAuthLockoutEnd (src : Half) (s : State) : Host.Outcome State Fault Refusal := .next (doAuthLockoutEnd src.toNat s)

/-! ## Staging (R93, R96) -/

/-- The bytes of an object and its ranges with a chunk stored. -/
def Obj.put (off : Nat) (data : Bytes) (o : Obj) : Obj :=
  { o with bytes := o.bytes.writeN off data, have_ := addRange off (off + data.length) o.have_ }

/-- The object that a stage adds to: the one held, or a new one where staging now holds objects. -/
def stageObj (d : Digest) (total : Nat) (s : State) : Obj :=
  (findObj d s).getD { digest := d, total := total, store := s.pwr.store == .on }

/-- The answer to a stage: PRESENT and OSTATE. -/
def stageResp (op : Half) (cw : DWord) (present st : Nat) : Resp :=
  { status := 0x01, op := op, cw := cw, data := leBytes 4 present ++ leBytes 1 st }

/-- The entries that wait for a staged object are PENDING again (Table 04-11). -/
def wakeEntries (d : Digest) (s : State) : State :=
  s.onJr fun q => { q with entries := q.entries.map fun e =>
    if e.state == .waitObject && (namedObj e.op.toNat e.body == some d || e.op == 0x0400) then { e with state := .pending } else e }

/-- A chunk or list's bytes stored and answered (R96): BUSY past the limit of R93; complete with its digest, or
complete with another and discarded. -/
def stageStore (m : Nat) (op : Half) (cw : DWord) (d : Digest) (total off : Nat) (data : Bytes) (s : State) : State :=
  let o := stageObj d total s
  let o' := { (o.put off data) with ready := false }
  let grow := covered o'.have_ - covered o.have_
  if stageLimit o.store < stagedBytes o.store s + grow then
    let (n, s) := draw s
    respond m { status := 0x10, op := op, cw := cw, detail := 1 + Config.busyMs n % 1000 } (count 0x2AA s)
  else
    let put := fun (o : Obj) (s : State) => s.onStg fun g => { g with objs := (g.objs.filter (·.digest != d)) ++ [o] }
    if covered o'.have_ == total then
      if sha256 (o'.bytes.readN 0 total) == d then
        respond m (stageResp op cw total 1) (wakeEntries d (put { o' with ready := true } s))
      else respond m (stageResp op cw 0 2) (dropObj d s)
    else respond m (stageResp op cw (covered o'.have_) 0) (put o' s)

/-- The body rules of OBJECT_STAGE (Table 04-7c). -/
def badStage (m : Nat) (s : State) (b : Bytes) : Option Nat :=
  let total := fld b 32 4
  let off := fld b 36 4
  let n := fld b 42 2
  let list := fld b 40 2 == 1
  firstBad ([(total == 0 || decide (268435456 < total) ||
      (match findObj (digestAt b 0) s with | some o => o.total != total | none => false), 32),
    (decide (total ≤ off), 36), (decide (1 < fld b 40 2) || (list && decide (2 ≤ m)), 40),
    (if list then n != 0 else n == 0 || decide (3968 < n) || decide (total < off + n), 42), rsv b 44 4] ++
    if list then [(fld b 48 8 % 16 != 0, 48), (fld b 56 2 == 0 || decide (1024 < fld b 56 2), 56), rsv b 58 6]
    else [(!isZero b (48 + n) (b.length - 48 - n), 48 + n)])

/-- OBJECT_STAGE whose body is sound: a chunk is stored at once, a list's DMA reads start. -/
def objectStage (m : Nat) (op : Half) (cw : DWord) (b : Bytes) (s : State) : State :=
  let d := digestAt b 0
  if fld b 40 2 == 1 then
    readHost [(fld b 48 8, 16 * fld b 56 2)] (s.onStg fun g => { g with
      dma := g.dma ++ [{ mbx := m, op := op, cw := cw, digest := d, total := fld b 32 4, offset := fld b 36 4,
                         addr := fld b 48 8, count := fld b 56 2 }] })
  else stageStore m op cw d (fld b 32 4) (fld b 36 4) (sub b 48 (fld b 42 2)) s

/-- A list stage refused: INVALID at the field of its record that names what is wrong. -/
def stageInvalid (x : StageDma) (off : Nat) (s : State) : State :=
  respond x.mbx { status := 0x14, op := x.op, cw := x.cw, detail := 32 + off } (count 0x2AE s)
/-- A list stage whose DMA read failed: FAULT with DETAIL 4. -/
def stageFault (x : StageDma) (s : State) : State :=
  let s := record 0x0F16 3 [cwSrc x.cw, x.op.toNat, 4] x.cw s
  respond x.mbx { status := 0x15, op := x.op, cw := x.cw, detail := 4 } (count 0x2AF s)
/-- STAGE_DMA_DONE (R96): the oldest stage's list has been read, and the bytes that its entries describe. A list read that
brings too few entries, or a failed read (`data` none), is FAULT; entries that break Table 03-6 are INVALID at LIST_ADDR, and a list that
passes TOTAL at OFFSET (log 142). -/
def doStageDmaDone (list : List Scatter) (data : Option Bytes) (s : State) : State :=
  match s.stg.dma with
  | [] => s
  | x :: xs =>
    let s := s.onStg fun g => { g with dma := xs }
    let l := list.take x.count
    if l.length < x.count then stageFault x s
    else if !entriesOk l then stageInvalid x 48 s
    else if x.total < x.offset + listTotal l then stageInvalid x 36 s
    else
      let s := readHost (dmaReads l 0 (listTotal l)) s
      match data with
      | some data =>
        if data.length != listTotal l then stageFault x s
        else stageStore x.mbx x.op x.cw x.digest x.total x.offset data s
      | none => stageFault x s

/-- STAGE_DMA_DONE. -/
def execStageDmaDone (list : List Scatter) (data : Option Bytes) (s : State) : Host.Outcome State Fault Refusal :=
  .next (doStageDmaDone list data s)

/-! ## Keys, OTP and reset (R93, R97, R104) -/

/-- The body rules of KEY_SET. -/
def badKeySet (b : Bytes) : Option Nat := firstBad [(decide (2 ≤ fld b 0 1), 0), rsv b 1 7]
/-- KEY_SET's effect. The journal drops the key's value, which no read returns. -/
def fxKeySet (e : JEntry) (s : State) : State :=
  let v := digestAt e.body 8
  finish0 e.jseq 0 (s.onKt fun k => if fld e.body 0 1 == 0 then { k with key0 := some v } else { k with key1 := some v })

/-- The body rules of KEY_REVOKE. -/
def badKeyRevoke (b : Bytes) : Option Nat := firstBad [(decide (4 ≤ fld b 0 1), 0), rsv b 1 7]
/-- OTP with a key slot revoked. -/
def Otp.revoke (n : Nat) (o : Otp) : Otp := { o with slotRevoked := o.slotRevoked ||| (1#4 <<< n) }
/-- OTP as the KEY_REVOKEs already journaled will leave it (R98 step 8). -/
def otpTarget (s : State) : Otp :=
  (s.jr.entries.filter fun e => e.op == 0x0801 && isOpen e).foldl (fun o e => o.revoke (fld e.body 0 1)) s.otp
/-- Step 8 for KEY_REVOKE (R97). -/
def admitKeyRevoke (s : State) (b : Bytes) : Option Refuse :=
  if anySlot ((otpTarget s).revoke (fld b 0 1)) then none else some {}
/-- KEY_REVOKE's effect. -/
def fxKeyRevoke (e : JEntry) (s : State) : State := finish0 e.jseq 0 (s.onOtp (Otp.revoke (fld e.body 0 1)))

/-- The body rules of ROLLBACK_ADVANCE: TARGET at most the running image's ROLLBACK. -/
def badRollback (s : State) (b : Bytes) : Option Nat :=
  firstBad [(decide (64 < fld b 0 1) || decide (cRollback (s.boot.image.getD []) < fld b 0 1), 0), rsv b 1 7]
/-- OTP with the version floor raised to `n`. -/
def Otp.raise (n : Nat) (o : Otp) : Otp := { o with rollback := max o.rollback n }
/-- ROLLBACK_ADVANCE's effect: nothing is burned for a TARGET that does not exceed the counter. -/
def fxRollback (e : JEntry) (s : State) : State :=
  finish0 e.jseq 0 (s.onOtp (Otp.raise (fld e.body 0 1)))

/-- The body rules of RESET. -/
def badReset (b : Bytes) : Option Nat := firstBad [(fld b 0 1 != 0, 0), rsv b 1 7]
/-- RESET's effect: it completes; the reset follows its DONE. -/
def fxReset (e : JEntry) (s : State) : State := finish0 e.jseq 0 s

/-- The body rules of WAKE_CONFIG: bits 0 and 7 to 15 reserved. -/
def badWakeConfig (b : Bytes) : Option Nat := firstBad [(fld b 0 2 % 2 != 0 || decide (128 ≤ fld b 0 2), 0), rsv b 2 6]
/-- WAKE_CONFIG's effect. -/
def fxWakeConfig (e : JEntry) (s : State) : State :=
  finish0 e.jseq 0 (s.onKt fun k => { k with wakeMask := some (BitVec.ofNat 16 (fld e.body 0 2)) })

/-! ## TLS credentials (R89) -/

/-- The 96 octets of this board's TLS device key, X then Y; 0 where none has been generated. -/
def tlsPub (s : State) : Bytes :=
  match s.kt.tlsKey with
  | some n => sub (Config.tlsPublic n) 0 96
  | none => zeros 96

/-- TLS_KEY_GET's result. -/
def tlsKeyGet (s : State) : Bytes :=
  tlsPub s ++ leBytes 32 (match s.kt.chain with | some d => d.toNat | none => 0)

/-- The body rules of TLS_SET. -/
def badTlsSet (s : State) (b : Bytes) : Option Nat :=
  let item := fld b 0 1
  firstBad ([(decide (3 ≤ item), 0), (fld b 1 1 == 0 || decide (4 ≤ fld b 1 1), 1),
    (item != 0 && decide (2 ≤ fld b 2 1), 2), rsv b 3 5] ++
    (if item == 1 then
      [((match objBytes (digestAt b 8) s with
         | some o => decide (8192 < o.length) || (namesMe (fld b 2 1) s && !Config.leafIs o (tlsPub s))
         | none => true), 8), rsv b 40 16]
     else if item == 2 then [rsv b 8 48] else []))

/-- The staged chain's leaf has this board's device key. -/
def chainFits (d : Digest) (s : State) : Bool := (objBytes d s).any fun o => Config.leafIs o (tlsPub s)
/-- TLS_SET's effect: the credentials change, and open connections on the named ports close. A chain for another device key
is not installed: the board that checks it here is the partner that BRD names, and no rule gives its RESULT (log 141). -/
def fxTlsSet (e : JEntry) (s : State) : State :=
  let b := e.body
  let item := fld b 0 1
  if item == 1 && (objBytes (digestAt b 8) s).isNone then waitObject e s
  else if item == 1 && !chainFits (digestAt b 8) s then
    let (n, s) := draw s
    finish0 e.jseq (Config.openResult n) s
  else
  let ports := bitsOf 2 (fld b 1 1)
  let s :=
    if item == 0 then s.onKt fun k =>
      { k with clientKeys := ports.foldl (fun c p => c.set p (BitVec.ofNat 384 (leVal (sub b 8 48)))) k.clientKeys }
    else if item == 1 then s.onKt fun k => { k with chain := some (digestAt b 8) }
    else
      let (n, s) := draw s
      s.onKt fun k => { k with tlsKey := some n, chain := none }
  let s := ports.foldl (fun s p =>
    if (mbxOf s (2 + p)).conn then emit (.tls p false) (onBox (2 + p) (fun b => { b with conn := false }) s) else s) s
  finish0 e.jseq 0 s

end Sys2Proof.Machine
end

