-- ==== Sys2Proof/Machine/Pair.lean ====
section
/-! DEFINITION. Machine/Pair.lean: the shared operations of the pair: takeover and stand-down, the
re-synchronisation stream, the health report, and the commands SWITCH_BACK, PAIR_SYNC and SPINE_CONFIG (R126 to R138). -/

namespace Sys2Proof.Machine

/-- This board is eligible to take over (R127). -/
def eligible (s : State) : Bool := running s && s.pair.board == .running && s.pair.synced && !s.pair.mismatch

/-- POS_MISMATCH (R18): no pairing, every CAPDN asserted, no leave. -/
def posMismatch (s : State) : State :=
  if s.pair.mismatch then s else
  let s := event 0x050E 3 [] 0 0 (s.onPair fun p => { p with mismatch := true, state := .absent })
  (List.range 16).foldl (fun s t => capdnRevoke t 0x13 s) (s.onKeep fun k => { k with capdn := 0xFFFF })

/-! ## Roles (R15, R79) -/

/-- What an acting Lead does as firmware starts: ENABLED of tripped trays cleared (R171), the actuator epoch raised
(R248), and the resumes queued in tray order (R157). -/
def startLead (s : State) : State :=
  let s := s.onKeep fun k => { k with handoff := false, handoffAt := none }
  let s := applyTen (s.keep.ten &&& ~~~s.ket.trip) s
  let s := raiseEpoch (s.kt.actEpoch + 1) s
  queueResumes (resendPoints (startChannels s))
/-- What a Shadow does: its CAPDN lines go high-impedance (Table 05-7). -/
def startShadow (s : State) : State := startChannels (s.onKeep fun k => { k with capdn := 0 })

/-! ## Takeover (R129 to R131) -/

/-- An entry that replay is to execute again. -/
def entryAgain (e : JEntry) : JEntry :=
  if e.state == .done then e
  else { e with state := if e.state == .waitObject then .pending else e.state, applied := false, redo := true }

/-- The planner holds a request or a region set: after a takeover it stands as the partner's outcomes left it (R327). -/
def plannerHolds (s : State) (e : JEntry) : Bool :=
  s.pln.run.any (·.jseq == e.jseq) || s.pln.plan.any (·.jseq == e.jseq) || s.pln.adopt.any (·.jseq == e.jseq)
/-- What replay starts from at a takeover: the target state of the trays, and no engine but the planner that still works
on a journaled command (R103). -/
def replayFresh (s : State) : State :=
  let s := s.onLv fun l => { l with
    trays := l.trays.map (fun p => (p.1,
      { p.2 with holdSeq := 0, stopSeqs := [], stopAt := none, startSeq := 0, startAt := none })),
    queue := [], slotTray := none, deferAt := none, shareWait := [] }
  let s := ((s.onKet fun k => { k with waits := [], release := [], proof := [] }).onAfe fun a => { a with waits := [] }).onDrv
    fun d => { d with waits := [] }
  let s := s.onEp fun x => { x with pend := none, later := [], load := none }
  let s := s.onPln fun p => { p with pass := none }
  s.onJr fun q => { q with entries := q.entries.map fun e => if plannerHolds s e then e else entryAgain e }

/-- The CAPDN lines that this board's own figures ask for (R156). -/
def capdnWanted (s : State) : Half :=
  (List.range 16).foldl (fun m t => put16 m t (!(enabled s t && mayResume s t))) 0

/-- ROLE written to every agent that is up (R331). -/
def writeRoles (s : State) : State :=
  (List.range 16).foldl (fun s t => if (agentOf s t).link == .up then writeRole t s else s) s

/-- What goes with a change of this board's role: the record, vector 0, the tag's pages and the agents. SPN_HANDOFF ends
as the board becomes acting Lead. -/
def roleChange (lead : Bool) (s : State) : State :=
  let s := s.onKeep fun k => { k with handoff := k.handoff && !lead }
  writeRoles (msix 0 (((tagDue s).onKt fun k => { k with role := some lead }).onPair fun p => { p with lead := lead }))

/-- A board that records no role takes one up (R15). -/
def takeRole (lead : Bool) (s : State) : State :=
  if lead then startLead (roleChange true s) else startShadow (roleChange false s)

/-- The Shadow takes over (R130) with a TEN image: `silent` after missed heartbeats, else on FAULT or a switch-back. -/
def takeover (silent : Bool) (image : Half) (s : State) : State :=
  let s := raiseEpoch (max s.kt.actEpoch s.pair.hb.actEpoch.toNat + 1) s
  let s := roleChange true (s.onPair fun p => { p with
    board := .taking, fault := false, switch := 0, proofAt := s.now, silent := none, silentAt := 0,
    heard := p.heard && !silent })
  let s := event 0x0508 3 [] 0 0 (wakeCause 5 s)
  let s := setPair (if silent then .absent else .detached) s
  let s := replayFresh (applyTen (image &&& ~~~s.ket.trip) s)
  let s := if silent then
      (List.range 16).foldl (fun s t => capdnRevoke t 0x15 s) (s.onPair fun p => { p with silent := some 0 })
    else queueResumes (s.onKeep fun k => { k with capdn := s.pair.partCapdn.getD (capdnWanted s) })
  let high := (s.jr.high.get {} 5).seq
  let s := s.onSpn fun p => { p with shareSeq := max p.shareSeq (high + 2 ^ 32), timeSent := s.now, changedAt := s.now }
  resendPoints (afterTen (s.onPln fun p => { p with pass := none, took := true }))

/-! ## Stand-down (R24, R132, R138) -/

/-- The SWITCH_BACK that this board handed over done: reported, and mirrored as DONE (R138). -/
def endSwap (swap : Nat) (s : State) : State :=
  match findEntry swap s with
  | some e =>
    let s := event 0x050D 1 [] e.cw 0 s
    let e := holdDone (completed e 0 e.rdata s)
    mirror (doneImage e) (onEntry swap (fun _ => e) s)
  | none => s

/-- The SWITCH_BACK entries in effect up to one: another admitted before its tick completes with it. -/
def swapsUpTo (j : Nat) (s : State) : List Nat :=
  ((s.jr.entries.filter fun e =>
    e.op == 0x0600 && e.applied && e.state != .done && !e.doneWait && decide (e.jseq < j)).map (·.jseq)) ++ [j]

/-- The responses held at a board that stops being acting Lead are lost with its role (R100); those for TLS wait (R88). -/
def loseWaiting (s : State) : State :=
  let s := s.onMbx fun ms => ms.map fun p => (p.1, if p.1 == 2 || p.1 == 3 then p.2 else { p.2 with waiting := [] })
  s.onStw fun w => { w with agents := w.agents.map fun p => (p.1, { p.2 with answers := [] }) }
/-- The acting Lead stands down: no actuator frames, TEN and CAPDN high-impedance, Shadow. What it had begun stays in the
journal for the new acting Lead (R344); a switch-back that it handed over is DONE once that has been mirrored. -/
def standDown (s : State) : State :=
  let swaps := if s.pair.switch == 2 then swapsUpTo s.pair.switchSeq s else []
  let s := dropFrames (roleChange false (s.onPair fun p => { p with
    board := .stoodDown, fault := false, switch := 0, loneAt := none, silent := none, tenWait := none, ackWait := none, syncSeq := 0 }))
  let s := (loseWaiting s).onKeep fun k => { k with capdn := 0 }
  let s := s.onLv fun l => { l with queue := [], waits := [], slotAt := none, slotTray := none, deferAt := none }
  let s := s.onStw fun w => { w with run := none, queue := [], tfs := none }
  let s := setPair (if s.pair.heard then .detached else .absent) (event 0x0509 3 [] 0 0 s)
  swaps.foldl (fun s j => endSwap j s) s

/-! ## Re-synchronisation (R134) -/

/-- The keep tables of the stream. -/
def syncTables (s : State) : SyncTables :=
  let k := s.kt
  { key0 := k.key0, key1 := k.key1, budget := k.budget, rowBudget := k.rowBudget, stagger := k.stagger,
    actEpoch := BitVec.ofNat 32 k.actEpoch, wakeMask := k.wakeMask, proof := k.proofHours, diverge := k.diverge,
    afeRec := k.afeRec, afeCal := k.afeCal, iexc := k.iexc, canCfg := k.canCfg, actCfg := k.actCfg, lastPt := k.lastPt,
    spill := k.spill, ckCycles := k.ckCycles, regions := k.regions, clientKeys := k.clientKeys,
    trays := s.lv.trays.map fun p => (p.1,
      { permit := p.2.permit, rm := p.2.rm, holdRef := p.2.holdRef, holdEnd := p.2.holdEnd, host := p.2.host }) }

/-- A streamed tray's target state taken. -/
def Tray.take (k : TrayKeep) (t : Tray) : Tray :=
  { t with permit := k.permit, rm := k.rm, holdRef := k.holdRef, holdEnd := k.holdEnd, host := k.host }

/-- Streamed keep tables taken by the Shadow. -/
def takeTables (t : SyncTables) (s : State) : State :=
  let s := s.onKt fun k => { k with
    key0 := t.key0, key1 := t.key1, budget := t.budget, rowBudget := t.rowBudget, stagger := t.stagger,
    actEpoch := max k.actEpoch t.actEpoch.toNat, wakeMask := t.wakeMask, proofHours := t.proof, diverge := t.diverge,
    afeRec := t.afeRec, afeCal := t.afeCal, iexc := t.iexc, canCfg := t.canCfg, actCfg := t.actCfg, lastPt := t.lastPt,
    spill := t.spill, ckCycles := t.ckCycles, regions := t.regions, clientKeys := t.clientKeys }
  s.onLv fun l => { l with trays := t.trays.foldl (fun ts p => ts.mod {} p.1 (Tray.take p.2)) l.trays }

/-- A streamed journal taken by the Shadow in place of its own (R103); the entries that it accepted itself stay. -/
def takeJournal (es : List JEntry) (high : Tab HighMark) (jseq : Nat) (s : State) : State :=
  s.onJr fun q => { q with
    entries := es.map (fun e => { e with applied := e.state == .done, doneWait := false }) ++
      q.entries.filter (fun e => ownSeq ≤ e.jseq),
    high := high, jseq := jseq }

/-- PAIR_SYNC's effect: the acting Lead streams; DONE waits for the last frame's acknowledgement. A board that is no
longer asked by its partner, or has lost the pair link, ends it as failed. -/
def fxPairSync (e : JEntry) (s : State) : State :=
  if !s.pair.lead then s
  else if e.redo || !pairUp s || !s.pair.heard then finish0 e.jseq 0xE3 s
  else
    let s := if s.pair.syncSeq == e.jseq then s else endSync s
    let s := setPair .syncing (s.onPair fun p => { p with syncSeq := e.jseq })
    let s := sendPair (.bulk (.journal s.jr.entries s.jr.high s.jr.jseq)) s
    let s := sendPair (.bulk (.keep (syncTables s))) s
    let s := sendPair (.bulk (.leases s.lv.leases)) s
    let s := sendPair (.bulk (.broker s.lv.demands s.lv.shares)) s
    let s := sendPair (.lease (.capdn s.keep.capdn)) s
    let s := sendPair (.bulk (.model s.mem)) s
    s.onPair fun p => { p with syncLast := s.spn.pseq }

/-- The body rules of PAIR_SYNC: the serial of the Shadow that asks. -/
def badPairSync (s : State) (b : Bytes) : Option Nat := firstBad [(s.kt.partner != some (BitVec.ofNat 64 (fld b 0 8)), 0)]

/-- The Shadow has acknowledged the last BULK frame: PAIR_SYNC is DONE, and the partner ATTACHED. -/
def syncDone (s : State) : State :=
  let j := s.pair.syncSeq
  setPair .attached (finish0 j 0 (s.onPair fun p => { p with syncSeq := 0 }))

/-- The next sequence of this board as source 4 (R27). -/
def askPartner (op : Nat) (body : Bytes) (s : State) : State :=
  let n := max (keepTime s) (max s.pair.askSeq (s.jr.high.get {} 4).seq + 1)
  relayCommand true (partnerAddr s) (mkCw 4 n) (recordBytes op (mkCw 4 n) body) (s.onPair fun p => { p with askSeq := n })

/-- A Shadow that is DETACHED and hears an acting Lead over the pair link asks for re-synchronisation. -/
def askSync (s : State) : State :=
  if s.pair.lead || s.pair.state != .detached || !pairUp s || !s.pair.hb.lead || s.pair.mismatch then s
  else setPair .syncing (askPartner 0x0601 (leBytes 8 s.otp.serial.toNat ++ leBytes 8 s.jr.jseq) s)

/-! ## Standby self-tests (R135) -/

/-- The digest over the 256 most recent entries that the acting Lead accepted. -/
def journalDigest (s : State) : Digest :=
  let es := s.jr.entries.filter fun e => e.jseq < ownSeq
  sha256 ((es.drop (es.length - 256)).flatMap jentryBytes)

/-- The model comparison of a tick at an attached Shadow: the digests of the latest tick. `run` mismatches in a row up to
DIVERGE_LIMIT report MODEL_DIVERGE, and re-synchronisation starts. -/
def compareModel (s : State) : State :=
  if !attached s || s.pair.lead then s else
  match s.pair.leadDig with
  | none => s
  | some d =>
    let same := d == s.pair.myDigest
    let s := testResult 0 same (s.onPair fun p => { p with
      compares := p.compares + 1, misses := p.misses + (!same).toNat, run := if same then 0 else p.run + 1, leadDig := none })
    if s.kt.diverge ≤ s.pair.run then
      askSync (setPair .detached (event 0x050B 2 [] 0 0 (s.onPair fun p => { p with run := 0 })))
    else s

/-! ## SWITCH_BACK and SPINE_CONFIG (R136, R137) -/

/-- The body rules of SWITCH_BACK: the serial of the present Shadow. -/
def badSwitchBack (s : State) (b : Bytes) : Option Nat :=
  firstBad [(!s.pair.lead || s.kt.partner != some (BitVec.ofNat 64 (fld b 0 8)), 0)]
/-- The latest folio of some codes, 0 for none. -/
def lastFolio (codes : List Half) (s : State) : Nat :=
  ((s.log.slots ++ s.log.queue ++ s.log.buf).filter fun f => codes.contains f.code).foldl (fun m f => max m f.fseq) 0
/-- Step 8 for SWITCH_BACK (R137). -/
def admitSwitchBack (s : State) : Option Refuse :=
  let trips := (List.range 16).filter (tripped s)
  if !attached s || !partnerEligible s then some { ref := lastFolio [0x0506, 0x0507] s }
  else if !(match s.pair.partTest with | some t => decide (t + 1000000 ≤ s.now) | none => false) then
    some { ref := lastFolio [0x050B, 0x050C, 0x0502] s }
  else match trips with
    | t :: _ => some { ref := tripRef s t }
    | [] => if s.pair.hb.trips == 0 then none else some { ref := lastFolio [0x0511] s }
/-- SWITCH_BACK's effect at both boards: it runs at the next cycle tick. At the board that it has made acting Lead, replay
leaves it for the former Lead to complete. -/
def fxSwitchBack (e : JEntry) (s : State) : State :=
  if s.pair.lead && fld e.body 0 8 == s.otp.serial.toNat then s
  else if s.pair.lead && !attached s then finish0 e.jseq 0xE4 s
  else s.onPair fun p => { p with switch := 1, switchSeq := e.jseq }

/-- The body rules of SPINE_CONFIG. -/
def badSpineConfig (b : Bytes) : Option Nat :=
  firstBad [(decide (168 < fld b 0 2), 0), (decide (100 < fld b 2 1), 2), rsv b 3 5]
/-- SPINE_CONFIG's effect: a field of 0 leaves its value. -/
def fxSpineConfig (e : JEntry) (s : State) : State :=
  finish0 e.jseq 0 (s.onKt fun k => { k with
    proofHours := if fld e.body 0 2 == 0 then k.proofHours else fld e.body 0 2,
    diverge := if fld e.body 2 1 == 0 then k.diverge else fld e.body 2 1 })

/-! ## SPINE_HEALTH_GET (Table 05-10) -/

/-- RING. A cut has two ends, so that more than two ports recorded down are two cuts; two cuts also show where two nodes or more
that reported none have fallen silent since (log 64). -/
def ringCode (s : State) : Nat :=
  if !s.spn.formed then (if s.spn.cause == 0 then 0 else 5)
  else if s.spn.offArc then 4
  else if s.spn.cuts.isEmpty then 1
  else if s.spn.cuts.length ≤ 2 && s.spn.away.length < 2 then 2 else 3
/-- A lane's entry of PORTS. -/
def portEntry (l : Lane) : Bytes :=
  leBytes 8 l.sent ++ leBytes 8 l.recvd ++ leBytes 8 l.crc ++ leBytes 4 l.downs ++ leBytes 4 l.delay
/-- A node's entry of CENSUS. DESIGN CHOICE (log 148): Table 05-10 gives the arc byte no code; it is 0 on the master's arc and
1 off it, for every node of the census, which shares this node's arc. -/
def censusRow (s : State) (p : Nat × Census) : Bytes :=
  let e := p.2.entry
  let own := e.serial == s.otp.serial
  let el := if own then eligible s else s.kt.partner == some e.serial && partnerEligible s
  leBytes 8 e.serial.toNat ++ leBytes 1 (entryAddr e) ++ leBytes 1 e.lead.toNat ++
  leBytes 1 (e.masterSel.toNat + 2 * el.toNat) ++ leBytes 1 s.spn.offArc.toNat ++
  leBytes 2 (if own then s.ket.trip else p.2.trips).toNat ++ zeros 2
/-- The health report. DESIGN CHOICE (log 148): ROW_TIME is 0 while no ring is formed, since row time is kept on a formed ring
alone (R120). -/
def spineHealth (s : State) : Bytes :=
  leBytes 1 (ringCode s) ++ leBytes 1 s.spn.cause ++ leBytes 1 s.spn.census.length ++ leBytes 1 s.pair.lead.toNat ++
  leBytes 1 (pairCode s.pair.state) ++
  leBytes 1 (maskOf ((List.range 4).filter fun n => (laneOf s n).up)) ++ zeros 2 ++
  leBytes 4 s.spn.gen ++ leBytes 1 (s.spn.master.getD 0xFF) ++ zeros 3 ++
  leBytes 8 (if s.spn.formed then rowTime s else 0) ++
  ((List.range 4).map fun n => portEntry (laneOf s n)).flatten ++
  leBytes 8 s.pair.proofTime ++ leBytes 4 s.pair.proofRes ++ leBytes 8 s.pair.compares ++ leBytes 8 s.pair.misses ++
  leBytes 4 s.pair.jcheck ++ (s.spn.census.map (censusRow s)).flatten

end Sys2Proof.Machine
end

