-- ==== Sys2Proof/Machine/PairRows.lean ====
section
/-! DEFINITION. Machine/PairRows.lean: what happens over the pair link and on the lanes: heartbeats, mirrored entries,
leases, snapshots, the BULK stream, relayed records, lanes, self-tests, and frames that show a higher actuator epoch
(chapter 05). -/

namespace Sys2Proof.Machine

/-! ## Heartbeats (R126, R129, R132) -/

/-- A replay's entries have all been executed. -/
def replayed (s : State) : Bool := s.jr.entries.all fun e => e.applied || e.state != .pending || ownSeq ≤ e.jseq
/-- This board's next heartbeat (Table 05-6). -/
def myHeartbeat (s : State) : Heartbeat :=
  { serial := s.otp.serial, hseq := BitVec.ofNat 32 (s.pair.hseq + 1), echo := s.pair.hb.hseq, lead := s.pair.lead,
    state := if s.pair.state == .lone then 2 else match s.pair.board with
      | .taking => 3
      | .stoodDown => 4
      | _ => 1,
    fault := s.pair.fault || (s.pair.lead && s.jr.fault), attached := attached s, synced := s.pair.synced, selfTest := s.pair.selfTest,
    actEpoch := BitVec.ofNat 32 s.kt.actEpoch, cfgEpoch := BitVec.ofNat 32 (cfgEpoch s), jseq := BitVec.ofNat 64 s.jr.jseq,
    ten := s.keep.ten, trips := s.ket.trip, masterSel := s.pwr.straps.masterSel }

/-- A board that records no role settles it once it has waited 300 µs (R15): alone at its position, or beside a partner that is
not acting Lead, it is Lead (log 115). -/
def settleAlone (s : State) : State :=
  if s.kt.role.isNone && decide (s.pair.roleAt + 300 ≤ s.now) then takeRole (!(s.pair.heard && s.pair.hb.lead)) s else s
/-- HEARTBEAT_SEND: every 100 µs, on both pair lanes and over the Spine. A board whose replay is over is RUNNING again. -/
def doHeartbeatSend (s : State) : State :=
  if !running s then s else
  let s := settleAlone (reach (s.pair.hbAt + 100) s)
  let now := s.now
  let s := if s.pair.board == .taking && replayed s then s.onPair fun p => { p with board := .running } else s
  let h := myHeartbeat s
  let s := s.onPair fun p => { p with hbAt := now, hseq := (p.hseq + 1) % 2 ^ 32 }
  sendSpine (partnerAddr s) (.heartbeat h) (sendPair (.heartbeat h) s)

/-- HEARTBEAT_SEND. -/
def execHeartbeatSend (s : State) : Host.Outcome State Fault Refusal := .next (doHeartbeatSend s)

/-- Two acting Leads: this one stands down where the other's epoch is higher, or equal with the lower serial (R15, R24). -/
def mustYield (h : Heartbeat) (s : State) : Bool :=
  s.pair.lead && h.lead &&
  (decide (s.kt.actEpoch < h.actEpoch.toNat) ||
   (s.kt.actEpoch == h.actEpoch.toNat && decide (h.serial.toNat < s.otp.serial.toNat)))

/-- A board that records no role and hears its partner (R15): beside an acting Lead it is Shadow; of two boards that are not, the
lower serial is Lead, and the other waits 300 µs from its first heartbeat for that to show (log 115). -/
def settleRole (first : Bool) (h : Heartbeat) (s : State) : State :=
  if s.kt.role.isSome then s
  else if h.lead then takeRole false s
  else if s.otp.serial.toNat < h.serial.toNat then takeRole true s
  else if first then s.onPair fun p => { p with roleAt := s.now } else s

/-- What a newer heartbeat brings about beside its record: roles, attachment and FAULT. -/
def weighHeartbeat (old h : Heartbeat) (s : State) : State :=
  let s := if s.pair.state == .absent then setPair .detached s else s
  let s := if mustYield h s then standDown s else s
  let s := if s.pair.lead && attached s && old.synced && !h.synced then losePartner .detached s else s
  let s := if !s.pair.lead && attached s && h.lead && !h.attached then losePartner .detached s else s
  if !s.pair.lead && h.lead && h.fault then
    if eligible s then takeover false h.ten s
    else if old.fault then s else event 0x050A 3 [] 0 0 s
  else askSync s

/-- A valid heartbeat from the partner: heard, and its fields taken where it is newer than the last. On the pair link the
sender is the partner, its address shows its POS (R14), and its MASTER_SEL is learnt (R116, log 24). -/
def takeHeartbeat (f : FrameHdr) (h : Heartbeat) (s : State) : State :=
  let link := decide (2 ≤ f.lane.val)
  if link && f.src.toNat / 2 != posOf s then posMismatch s
  else if s.pair.mismatch then s
  else
    let s := if link && s.kt.partner != some h.serial then
      s.onKt fun k => { k with partner := some h.serial } else s
    let s := if link then s.onKt fun k => { k with partnerMaster := h.masterSel } else s
    if s.kt.partner != some h.serial then s else
    let now := s.now
    let old := if s.pair.heard then s.pair.hb else {}
    let fresh := !s.pair.heard || seqAfter h.hseq.toNat old.hseq.toNat || decide (s.pair.heardAt + 300 ≤ now)
    let first := !s.pair.heard
    let s := s.onPair fun p => { p with heard := true, heardAt := now }
    if !fresh then s else
    weighHeartbeat old h (settleRole first h (s.onPair fun p => { p with
      hb := h, echoAt := if first || h.echo != old.echo then now else p.echoAt,
      partTest := if h.selfTest then some (p.partTest.getD now) else none }))

/-- HEARTBEAT_FRAME. -/
def doHeartbeatFrame (f : FrameHdr) (h : Heartbeat) (s : State) : State := rxFrame f (.heartbeat h) (takeHeartbeat f h) s

/-- HEARTBEAT_FRAME. -/
def execHeartbeatFrame (f : FrameHdr) (h : Heartbeat) (s : State) : Host.Outcome State Fault Refusal :=
  .next (doHeartbeatFrame f h s)

/-- The partner's silence has reached 300 µs. A re-synchronisation fails, and leaves the partner DETACHED (R134). -/
def partnerSilent (s : State) : State :=
  let s := reach (s.pair.heardAt + 300) s
  let el := partnerEligible s
  let sync := s.pair.state == .syncing
  let gone : PairState := if sync then .detached else .absent
  let s := if sync then losePartner .detached s else s
  if s.pair.lead then
    if s.pair.state == .lone then s
    else if el then
      let now := s.now
      dropReference (losePartner .lone (s.onPair fun p => { p with loneAt := some now, board := .lone }))
    else (losePartner gone s).onPair fun p => { p with heard := false }
  else if s.pair.hb.lead && eligible s then takeover true s.pair.hb.ten s
  else
    let refused := s.pair.hb.lead
    let s := (losePartner (if el then .detached else gone) s).onPair fun p => { p with heard := false }
    if refused then event 0x050A 3 [] 0 0 s else s

/-- HEARTBEAT_MISSED: heartbeats over 300 µs have shown ECHO unchanged, so that an acting Lead stands down; else the
partner is silent. -/
def doHeartbeatMissed (s : State) : State :=
  if !running s || !s.pair.heard || s.pair.mismatch then s
  else if s.pair.echoAt + 300 ≤ s.pair.heardAt && s.now < s.pair.heardAt + 300 then
    if s.pair.lead then standDown s else s
  else partnerSilent s

/-- HEARTBEAT_MISSED. -/
def execHeartbeatMissed (s : State) : Host.Outcome State Fault Refusal := .next (doHeartbeatMissed s)

/-- The end of LONE_CHECK: the CAPDN lines that were to be asserted while it held them are, and the trays that may resume are
queued (R132, R156). -/
def endHeld (s : State) : State := queueResumes (driveCapdn (s.keep.capdn ||| capdnWanted s) s)
/-- LONE_CHECK_EXPIRY: 20 ms without a higher actuator epoch. TEN and CAPDN are held no more. -/
def doLoneCheckExpiry (s : State) : State :=
  match s.pair.loneAt with
  | some t =>
    if s.pair.state != .lone then s
    else endHeld (losePartner .absent ((reach (t + 20000) s).onPair fun p => { p with
      loneAt := none, board := .running, heard := false }))
  | none => s

/-- LONE_CHECK_EXPIRY. -/
def execLoneCheckExpiry (s : State) : Host.Outcome State Fault Refusal := .next (doLoneCheckExpiry s)

/-- SILENT_RELEASE (R131): CAPDN of the next enabled tray that may resume, then 250 ms. After the last, the trays that could not
resume in their turn are queued as they can. -/
def doSilentRelease (s : State) : State :=
  match s.pair.silent with
  | none => s
  | some n =>
    if s.pair.silentAt == 0 || !acting s then s else
    let s := reach s.pair.silentAt s
    let s := (List.range 16).foldl (fun s t =>
      if n ≤ t && mayResume s t && isSilent s t then markSilent t s else s) s
    match (List.range 16).find? (fun t => n ≤ t && enabled s t && !starting s t && mayResume s t) with
    | none => queueResumes (s.onPair fun p => { p with silent := none, silentAt := 0 })
    | some t => releaseCapdn t (s.onPair fun p => { p with silent := some (t + 1), silentAt := s.now + 250000 })

/-- SILENT_RELEASE. -/
def execSilentRelease (s : State) : Host.Outcome State Fault Refusal := .next (doSilentRelease s)

/-! ## Mirrored entries (R102) -/

/-- The host's function is in D3, or its link in L2 or L3 (R109). -/
def hostAsleep (s : State) : Bool := s.host.dstate != .d0 || s.host.link == .l2 || s.host.link == .l3
/-- The high marks with an accepted entry's own (R100). -/
def Journal.raise (q : Journal) (e : JEntry) : Tab HighMark :=
  let src := cwSrc e.cw
  if (q.high.get {} src).seq < cwSeq e.cw then q.high.set src { seq := cwSeq e.cw, jseq := e.jseq % ownSeq } else q.high
/-- Step 10 of R98: the high mark raised, the nonce spent, a rack manager's request noted as wake cause 4, and
ACCEPTED. -/
def accepted (e : JEntry) (s : State) : State :=
  let src := cwSrc e.cw
  let s := s.onJr fun q => { q with high := q.raise e }
  let s := if e.flags.getLsbD 0 then spendNonce src e.authref s else s
  let s := if (src == 2 || src == 3) && hostAsleep s then wakeCause 4 s else s
  respond e.mbx { status := 0x00, op := e.op, cw := e.cw, ref := e.jseq % ownSeq, final := false } (count 0x2A8 s)
/-- DUPLICATE of an outstanding entry. -/
def dupPending (m : Nat) (e : JEntry) (s : State) : State :=
  respond m { status := 0x02, op := e.op, cw := e.cw, ref := e.jseq % ownSeq, pending := true, final := false } (count 0x2A9 s)

/-- A mirrored entry stored by the partner as PENDING or DONE, with its high mark. With its DONE the object that it names
is released here too (R93). -/
def storeMirror (e : JEntry) (s : State) : State :=
  let s := match e.state, namedObj e.op.toNat e.body with
    | .done, some d => dropObj d s
    | _, _ => s
  let st := if e.state == .tentative then .pending else e.state
  match findEntry e.jseq s with
  | some _ => onEntry e.jseq (fun o => { e with state := st, applied := o.applied, doneWait := false, redo := o.redo }) s
  | none => s.onJr fun q => { q with
      entries := makeRoom q.entries ++ [{ e with state := st, applied := false, doneWait := false, redo := false }],
      jseq := max q.jseq e.jseq,
      high := q.raise e }

/-- MIRROR_FRAME: stored and acknowledged. -/
def doMirrorFrame (f : FrameHdr) (e : JEntry) (s : State) : State :=
  rxFrame f (.mirror e) (fun s => sendPair (.mirrorAck e.jseq) (storeMirror e s)) s

/-- MIRROR_FRAME. -/
def execMirrorFrame (f : FrameHdr) (e : JEntry) (s : State) : Host.Outcome State Fault Refusal := .next (doMirrorFrame f e s)

/-- A mirror acknowledged: a TENTATIVE entry is PENDING and ACCEPTED, and copies that waited for it are answered; an entry
whose work is complete is DONE. -/
def mirrored (j : Nat) (s : State) : State :=
  let s := (count 0x2F3 s).onJr fun q => { q with sentAt := q.sentAt.erase j }
  match findEntry j s with
  | none => s
  | some e =>
    if e.state == .tentative then
      let s := accepted e (onEntry j (fun e => { e with state := .pending }) s)
      let ds := s.jr.dups.filter (·.jseq == j)
      let s := s.onJr fun q => { q with dups := q.dups.filter (·.jseq != j) }
      ds.foldl (fun s d => dupPending d.mbx e (onEntry j (fun e => { e with mbx := d.mbx }) s)) s
    else if e.doneWait then setDone j s else s

/-- MIRROR_ACK_FRAME. -/
def doMirrorAckFrame (f : FrameHdr) (j : Nat) (s : State) : State := rxFrame f (.mirrorAck j) (mirrored j) s

/-- MIRROR_ACK_FRAME. -/
def execMirrorAckFrame (f : FrameHdr) (jseq : Nat) (s : State) : Host.Outcome State Fault Refusal :=
  .next (doMirrorAckFrame f jseq s)

/-! ## LEASE, SNAPSHOT and BULK (R128, R134, R168, R298) -/

/-- A TEN image acknowledged by the partner: the change that waits for it is made. -/
def tenAcked (image : Half) (s : State) : State :=
  match s.pair.tenWait with
  | some w => if image &&& ~~~s.ket.trip == w &&& ~~~s.ket.trip then takeTen s else s
  | none => s

/-- One LEASE frame's content applied. -/
def takeLease (m : LeaseMsg) (s : State) : State :=
  match m with
  | .grant l => if s.pair.lead then s else s.onLv fun v => { v with
      leases := v.leases.filter (·.id != l.id) ++ [l], nextId := nextLease l.id (v.leases ++ [l]) }
  | .ended id => if s.pair.lead then s else s.onLv fun v => { v with leases := v.leases.filter (·.id != id) }
  | .high src seq => if s.pair.lead then s else s.onLv fun v => { v with high := v.high.set src.toNat seq }
  | .ten image => if s.pair.lead then s else sendPair (.lease (.tenAck image)) (applyTen image s)
  | .capdn lines => if s.pair.lead then s else s.onPair fun p => { p with partCapdn := some lines }
  | .demand pos at_ d => if s.pair.lead then s else s.onLv fun v => { v with demands := v.demands.set pos (at_, d) }
  | .share pos w at_ => if s.pair.lead then s else s.onLv fun v => { v with shares := v.shares.set pos (w, at_) }
  | .final image =>
    if s.pair.lead then s
    else sendPair (.lease (.tenAck image)) (applyTen image (s.onPair fun p => { p with switch := 2 }))
  | .tenAck image => tenAcked image s
  | .plan o => if s.pair.lead then s else applyOutcome o s
  | .result j code data =>
    match findEntry j s with
    | some e =>
      match brdOf e.op.toNat e.body with
      | some b => if s.pair.lead && !namesMe b s then finish j code data s else s
      | none => s
    | none => s
  | .freeze on id => s.onPair fun p => { p with partFrz := if on then some id.toNat else none }

/-- LEASE_FRAME. -/
def doLeaseFrame (f : FrameHdr) (m : LeaseMsg) (s : State) : State := rxFrame f (.lease m) (takeLease m) s

/-- LEASE_FRAME. -/
def execLeaseFrame (f : FrameHdr) (m : LeaseMsg) (s : State) : Host.Outcome State Fault Refusal := .next (doLeaseFrame f m s)

/-- LEASE_ACK_TIMEOUT: no acknowledgement within 500 µs; the partner is detached, and the change goes ahead. In
LONE_CHECK TEN is held. -/
def doLeaseAckTimeout (s : State) : State :=
  match s.pair.ackWait with
  | some t => if s.pair.state == .lone || !s.pair.lead then s else takeTen (losePartner .detached (reach t s))
  | none => s

/-- LEASE_ACK_TIMEOUT. -/
def execLeaseAckTimeout (s : State) : Host.Outcome State Fault Refusal := .next (doLeaseAckTimeout s)

/-- SNAPSHOT_FRAME: the acting Lead's AFE snapshot, which this Shadow's programs run on, and its result digest. -/
def doSnapshotFrame (f : FrameHdr) (words : List Word) (digest : Digest) (s : State) : State :=
  rxFrame f (.snapshot words digest) (fun s =>
    if s.pair.lead then s
    else
      let s := s.onPair fun p => { p with words := words, leadDig := some digest }
      if attached s && words.length == 112 then
        storeSnap (s.onEp fun x => { x with snap := (words.flatMap fun w => leBytes 4 w.toNat) ++ x.snap.drop 448 })
      else s) s

/-- SNAPSHOT_FRAME. -/
def execSnapshotFrame (f : FrameHdr) (words : List Word) (digest : Digest) (s : State) :
    Host.Outcome State Fault Refusal := .next (doSnapshotFrame f words digest s)

/-- Borrowed results placed in the standby banks and the outbox, and MODEL_BORROWED at the first. -/
def takeBorrowed (table harbour outbox : Mem) (s : State) : State :=
  if !s.ep.borrow || !acting s then s else
  let put := fun (at_ : Nat) (m : Mem) (x : Mem) => x.foldl (fun m p => m.write (at_ + p.1) p.2) m
  let s := s.onMem fun m =>
    put 0 (put 0x400010000 (put 0x400000000 ((m.clearRange 0x400000000 0x400001000).clearRange 0x400010000 0x400020000)
      table) harbour) outbox
  let s := s.onEp fun x => { x with done := true }
  if s.ep.borrowed then s else event 0x0C03 2 [1] 0 0 (s.onEp fun x => { x with borrowed := true })

/-- A mirrored command's staged object taken (R168). -/
def takeObject (d : Digest) (bs : Bytes) (s : State) : State :=
  let o : Obj := { digest := d, total := bs.length, have_ := [(0, bs.length)], bytes := Mem.writeN [] 0 bs,
                   store := s.pwr.store == .on, ready := true }
  wakeEntries d (s.onStg fun g => { g with objs := g.objs.filter (·.digest != d) ++ [o] })

/-- The last part of the stream at the Shadow: it is eligible and RUNNING again, acknowledges, and tells of its freeze. -/
def endStream (fseq : Nat) (s : State) : State :=
  let s := s.onPair fun p => { p with synced := true, board := .running, run := 0, leadDig := none }
  let s := sendPair (.relayAck fseq) s
  match s.log.freeze with
  | some z => sendPair (.lease (.freeze true z.id)) s
  | none => sendPair (.lease (.freeze false 0)) s

/-- One part of a BULK stream. -/
def takeBulk (f : FrameHdr) (m : BulkMsg) (s : State) : State :=
  let sync := !s.pair.lead && s.pair.state == .syncing
  match m with
  | .journal es high jseq => if sync then takeJournal es high jseq s else s
  | .keep t => if sync then takeTables t s else s
  | .leases ls => if sync then s.onLv fun l => { l with leases := ls, falling := [] } else s
  | .broker ds sh => if sync then s.onLv fun l => { l with demands := ds, shares := sh } else s
  | .model data => if sync then endStream f.fseq.toNat (s.onMem fun m => if s.pwr.store == .on then data.foldl (fun m p => m.write p.1 p.2) [] else m) else s
  | .object d bs => takeObject d bs s
  | .borrowed table harbour outbox => takeBorrowed table harbour outbox s

/-- BULK_FRAME. A part is taken with its last fragment. -/
def doBulkFrame (f : FrameHdr) (m : BulkMsg) (s : State) : State :=
  rxFrame f (.bulk m) (fun s => if f.last then takeBulk f m s else s) s

/-- BULK_FRAME. -/
def execBulkFrame (f : FrameHdr) (m : BulkMsg) (s : State) : Host.Outcome State Fault Refusal := .next (doBulkFrame f m s)

/-! ## Relayed records (R123) -/

/-- A response to a command that this board sent: PAIR_SYNC's ends the Shadow's wait, TRIP_PROOF's gives the proof's
result, and a refused row epoch is reported (R285). -/
def takeAnswer (src : Nat) (b : Bytes) (s : State) : State :=
  let st := fld b 0 1
  let op := fld b 2 2
  if op == 0x0601 then
    if st == 0 || s.pair.lead || s.pair.state != .syncing then s
    else if st == 1 && fld b 28 4 == 0 then laneTest (setPair .attached s)
    else setPair .detached s
  else if op == 0x0203 && st == 1 then
    s.onPair fun p => { p with proofTime := keepTime s, proofRes := fld b 28 4 }
  else if op == 0x0400 && 0x10 ≤ st then event 0x0C07 2 [src / 2, st] 0 0 s
  else s

/-- A complete relayed record: an answer, or a command for M4 or M5. -/
def takeRelayed (f : FrameHdr) (b : Bytes) (s : State) : State :=
  let m := if 2 ≤ f.lane.val then 4 else 5
  let cw : DWord := BitVec.ofNat 64 (fld b 8 8)
  if s.spn.asked.contains cw then takeAnswer f.src.toNat b s
  else countRise (0x2A0 + m) (onBox m (fun x => { x with window := Mem.writeN [] 0 (b.take 4096), busy := true }) s)

/-- RELAY_FRAME. A fragment's FSEQ places it, so that one not taken is taken when it is sent again. -/
def doRelayFrame (f : FrameHdr) (data : Bytes) (s : State) : State :=
  let r := rxCheck f (.relay f.last data) s
  if !r.1 then r.2 else
    match takeFragment f data r.2 with
    | (some b, s) => takeRelayed f b s
    | (none, s) => s

/-- RELAY_FRAME. -/
def execRelayFrame (f : FrameHdr) (data : Bytes) (s : State) : Host.Outcome State Fault Refusal := .next (doRelayFrame f data s)

/-- RELAY_ACK_FRAME: the fragments up to the FSEQ are received; over the pair link so is the stream of R134 once its last
frame is. -/
def doRelayAckFrame (f : FrameHdr) (fseq : Word) (s : State) : State :=
  rxFrame f (.relayAck fseq.toNat) (fun s =>
    let s := s.onSpn fun p => { p with
      relayTx := p.relayTx.filter fun x =>
        !(x.pair == decide (2 ≤ f.lane.val) && (x.pair || x.dst == f.src.toNat || x.dst == 0xFE) && !seqAfter x.fseq fseq.toNat) }
    if 2 ≤ f.lane.val && s.pair.syncSeq != 0 && !seqAfter s.pair.syncLast fseq.toNat then syncDone s else s) s

/-- RELAY_ACK_FRAME. -/
def execRelayAckFrame (f : FrameHdr) (fseq : Word) (s : State) : Host.Outcome State Fault Refusal :=
  .next (doRelayAckFrame f fseq s)

/-! ## Lanes (R111, R119, R125) -/

/-- LANE_DOWN. -/
def execLaneDown (lane : Fin 4) (s : State) : Host.Outcome State Fault Refusal := .next (doLaneDown lane s)

/-- LANE_UP (R111): 1 ms of block lock and a successful ECHO exchange since the lane went down. The east lane up releases the
west bypass; with the west lane up the node is inserted. -/
def doLaneUp (n : Nat) (s : State) : State :=
  if !running s || !s.spn.lref || (laneOf s n).up || !(laneOf s n).echo then s
  else
    let s := reach ((laneOf s n).downAt + 1000) s
    let up := fun (s : State) => laneTest (event 0x0503 1 [n] 0 0 (onLane n (fun l => { l with up := true }) s))
    if 2 ≤ n then up s
    else if n == 0 && s.spn.insert == .east then
      up (s.onSpn fun p => { p with insert := .west, insertAt := some (s.now + 10000) })
    else if n == 1 && s.spn.insert == .west then
      up (s.onSpn fun p => { p with
        insert := .in_, insertAt := none, retries := 0, cuts := p.cuts.filter (·.1 != nodeAddr s) })
    else s

/-- LANE_UP. -/
def execLaneUp (lane : Fin 4) (s : State) : Host.Outcome State Fault Refusal := .next (doLaneUp lane s)

/-- LREFCLK_LOSS: the bypasses engage and every lane stops. -/
def doLrefclkLoss (s : State) : State :=
  if !s.spn.lref then s
  else
    let s := s.onSpn fun p => { p with lref := false }
    if !running s then s
    else
      let s := dropLane 3 (dropLane 2 (engage s))
      laneTest (pairLaneLost (event 0x050F 3 [] 0 0 (s.onSpn fun p => { p with retryAt := none })))

/-- LREFCLK_LOSS. -/
def execLrefclkLoss (s : State) : Host.Outcome State Fault Refusal := .next (doLrefclkLoss s)

/-! ## Self-tests and FAULT (R129, R135, R240) -/

/-- JOURNAL_CHECK: every 1 s at an attached Shadow. A failure is an event with the test's number (log 146). DESIGN CHOICE (log
148): the health report's check result is 0 for a match and 1 for a mismatch, where Table 05-10 gives no code. -/
def doJournalCheck (leadDigest : Digest) (s : State) : State :=
  if !running s || s.pair.lead || !attached s then s else
  let s := reach (s.pair.jAt + 1000000) s
  let now := s.now
  let ok := journalDigest s == leadDigest
  let s := testResult 2 ok (s.onPair fun p => { p with jAt := now, jcheck := (!ok).toNat })
  if ok then s else event 0x050B 2 [2] 0 0 s

/-- JOURNAL_CHECK. -/
def execJournalCheck (leadDigest : Digest) (s : State) : Host.Outcome State Fault Refusal := .next (doJournalCheck leadDigest s)

/-- PROOF_INTERVAL_EXPIRY: the acting Lead has its attached Shadow prove every routed trip path. -/
def doProofIntervalExpiry (s : State) : State :=
  if !acting s || !attached s then s else
  let s := reach (s.pair.proofAt + s.kt.proofHours * 3600000000) s
  let now := s.now
  askPartner 0x0203 (zeros 4 ++ [1] ++ zeros 3) (s.onPair fun p => { p with proofAt := now })

/-- PROOF_INTERVAL_EXPIRY. -/
def execProofIntervalExpiry (s : State) : Host.Outcome State Fault Refusal := .next (doProofIntervalExpiry s)

/-- PARTNER_CAN_POLL: every 10 ms while channel 0 or 1 is DOWN; `ans` is the partner's CAN_STATE, where it answers. -/
def doPartnerCanPoll (ans : Option Word) (s : State) : State :=
  if !acting s || !((canOf s 0).down || (canOf s 1).down) || s.pair.state == .absent || s.pair.state == .detached then s else
  let s := reach (s.can.pollAt + 10000) s
  let now := s.now
  let s := askPartner 0x0004 [] (s.onCan fun x => { x with pollAt := now })
  match ans with
  | some w => s.onCan fun x => { x with ans := some w, ansAt := now }
  | none => s

/-- PARTNER_CAN_POLL. -/
def execPartnerCanPoll (ans : Option Word) (s : State) : Host.Outcome State Fault Refusal := .next (doPartnerCanPoll ans s)

/-- The partner's latest answer shows channel 0 or 1 in ACTIVE, PASSIVE or LISTEN. -/
def reportsUp (s : State) : Bool :=
  match s.can.ans with
  | none => false
  | some w => decide (s.now ≤ s.can.ansAt + 20000) && s.pair.state != .absent && s.pair.state != .detached &&
    [w.toNat % 256, w.toNat / 256 % 256].any fun c => c == 1 || c == 2 || c == 4

/-- CAN_PAIR_DOWN_FAULT: both channels DOWN for 100 ms while the partner reports them up. -/
def doCanPairDownFault (s : State) : State :=
  match s.can.pairAt with
  | some t =>
    if !acting s then s else
    let s := reach (t + 100000) s
    if reportsUp s then s.onPair fun p => { p with fault := true } else s
  | none => s

/-- CAN_PAIR_DOWN_FAULT. -/
def execCanPairDownFault (s : State) : Host.Outcome State Fault Refusal := .next (doCanPairDownFault s)

/-! ## Higher actuator epochs (R24, R248, R249) -/

/-- A higher actuator epoch seen on channel 0 or 1: an acting Lead stands down; a Shadow notes it (R130 step 1). -/
def seeEpoch (c e : Nat) (s : State) : State :=
  if 2 ≤ c || e ≤ s.kt.actEpoch then s
  else if s.pair.lead then standDown s
  else s.onPair fun p => { p with hb := { p.hb with actEpoch := BitVec.ofNat 32 (max p.hb.actEpoch.toNat e) } }

/-- EPOCH_ANNOUNCE_SEEN: a profile frame of this position. -/
def doEpochAnnounceSeen (c : Nat) (pos : Nat) (e : Nat) (s : State) : State :=
  if !running s || !(canOf s c).hears || !isProfile s c then s
  else
    let s := watchPair (onCh c CanCh.alive s)
    if pos == posOf s then seeEpoch c e s else s

/-- EPOCH_ANNOUNCE_SEEN. -/
def execEpochAnnounceSeen (ch : Fin 4) (pos : BitVec 4) (epoch : Word) (s : State) : Host.Outcome State Fault Refusal :=
  .next (doEpochAnnounceSeen ch pos.toNat epoch.toNat s)

/-- ACTUATOR_STATUS: recorded for an actuator that is configured; in LISTEN the HIGH_EPOCH of any may be a higher actuator
epoch. -/
def doActuatorStatus (c a ago : Nat) (st : ActStatus) (s : State) : State :=
  if !running s || !(canOf s c).hears || !isProfile s c then s
  else
    let lis := (canOf s c).st == .listen
    let s := if (actCfg s a).isEmpty then watchPair (onCh c CanCh.alive s) else recordStatus c a ago st s
    if lis then seeEpoch c st.highEpoch.toNat s else s

/-- ACTUATOR_STATUS. -/
def execActuatorStatus (ch : Fin 4) (addr : Nat) (st : Stamped ActStatus) (s : State) :
    Host.Outcome State Fault Refusal := .next (doActuatorStatus ch addr st.ago st.x s)

end Sys2Proof.Machine
end

