-- ==== Sys2Proof/Machine/Records.lean ====
section
/-! DEFINITION. Machine/Records.lean: command records: how one is read from its bytes, the order of checks of R98, the
answers to queries, and the acceptance of a journaled command (chapter 04). -/

namespace Sys2Proof.Machine

/-! ## Opcodes (Table 04-7) -/

/-- The classes of R92; `j` with the key whose token the opcode needs, if any. -/
inductive OpClass where
  | q
  | s
  | l
  | j (key : Option Bool)
  deriving DecidableEq, Repr

/-- A row of Table 04-7: class, ranks, and the least bytes of the body. -/
structure OpInfo where
  cls   : OpClass
  ranks : List Rank
  body  : Nat
  deriving DecidableEq, Repr

/-- The ranks of "H, RM". -/
def hostRm : List Rank := [.host, .rackManager]
/-- Every rank. -/
def anyRank : List Rank := [.host, .rackManager, .spineMaster, .pairPartner, .trayAgent]

/-- Table 04-7. -/
def opInfo (op : Nat) : Option OpInfo :=
  let rm : List Rank := [.rackManager]
  match op with
  | 0x0001 => some ⟨.q, anyRank, 8⟩
  | 0x0002 => some ⟨.q, hostRm, 0⟩
  | 0x0003 => some ⟨.q, anyRank, 8⟩
  | 0x0004 => some ⟨.q, anyRank, 0⟩
  | 0x0005 => some ⟨.s, hostRm, 56⟩
  | 0x0010 => some ⟨.l, [.trayAgent], 16⟩
  | 0x0011 => some ⟨.l, [.trayAgent], 8⟩
  | 0x0012 => some ⟨.q, hostRm, 8⟩
  | 0x0013 => some ⟨.q, hostRm, 8⟩
  | 0x0014 => some ⟨.q, hostRm, 16⟩
  | 0x0015 => some ⟨.q, hostRm, 8⟩
  | 0x0016 => some ⟨.q, [.host, .rackManager, .trayAgent], 8⟩
  | 0x0017 => some ⟨.q, hostRm, 0⟩
  | 0x0018 => some ⟨.q, hostRm, 0⟩
  | 0x0100 => some ⟨.j none, [.host], 8⟩
  | 0x0101 | 0x0102 => some ⟨.j none, hostRm, 8⟩
  | 0x0103 => some ⟨.j none, rm, 8⟩
  | 0x0104 => some ⟨.j none, rm, 16⟩
  | 0x0105 | 0x0106 | 0x0108 => some ⟨.j none, rm, 8⟩
  | 0x0107 => some ⟨.j none, [.spineMaster], 16⟩
  | 0x0200 | 0x0201 => some ⟨.j (some false), rm, 8⟩
  | 0x0202 => some ⟨.j (some false), rm, 40⟩
  | 0x0203 => some ⟨.j none, [.rackManager, .pairPartner], 8⟩
  | 0x0300 => some ⟨.j none, hostRm, 40⟩
  | 0x0301 => some ⟨.j none, hostRm, 16⟩
  | 0x0302 => some ⟨.j none, hostRm, 96⟩
  | 0x0303 => some ⟨.j none, hostRm, 16⟩
  | 0x0304 => some ⟨.j none, hostRm, 64⟩
  | 0x0305 => some ⟨.j none, hostRm, 24⟩
  | 0x0400 => some ⟨.j none, [.host, .rackManager, .spineMaster], 48⟩
  | 0x0401 => some ⟨.j none, [.host], 40⟩
  | 0x0402 => some ⟨.j none, hostRm, 40⟩
  | 0x0403 => some ⟨.j none, [.host], 16⟩
  | 0x0500 => some ⟨.j none, rm, 8⟩
  | 0x0501 => some ⟨.j (some false), rm, 40⟩
  | 0x0502 => some ⟨.j none, hostRm, 40⟩
  | 0x0600 => some ⟨.j (some false), rm, 8⟩
  | 0x0601 => some ⟨.j none, [.pairPartner], 16⟩
  | 0x0602 => some ⟨.j none, rm, 8⟩
  | 0x0700 => some ⟨.j (some false), rm, 16⟩
  | 0x0701 => some ⟨.j none, hostRm, 8⟩
  | 0x0702 => some ⟨.j none, hostRm, 16⟩
  | 0x0800 => some ⟨.j (some true), rm, 40⟩
  | 0x0801 | 0x0802 | 0x0803 => some ⟨.j (some false), rm, 8⟩
  | 0x0804 => some ⟨.j none, hostRm, 8⟩
  | 0x0805 => some ⟨.j (some true), hostRm, 56⟩
  | _ => none

/-- The bytes that a body's own counts call for, where they exceed the least. -/
def bodyNeed (op : Nat) (least : Nat) (b : Bytes) : Nat :=
  match op with
  | 0x0005 => if fld b 40 2 == 1 then 64 else 48 + (fld b 42 2 + 7) / 8 * 8
  | 0x0305 => 8 + 16 * min 6 (fld b 1 1)
  | 0x0702 => 8 + (4 * min 24 (fld b 2 1) + 7) / 8 * 8
  | _ => least

/-! ## Records (Table 04-5) -/

/-- A legal LENGTH (R90). -/
def lenLegal (n : Nat) : Bool := decide (32 ≤ n) && decide (n ≤ 4096) && n % 8 == 0
/-- A record's bytes after its header split into body and token trailer. -/
def splitRec (flags : Half) (bs : Bytes) : Bytes × Bytes :=
  if flags.getLsbD 0 then (bs.take (bs.length - 32), bs.drop (bs.length - 32)) else (bs, [])
/-- A record from a header and the bytes after it, of LENGTH `len`. -/
def mkRec (op flags : Half) (len : Nat) (cw authref rsvd : DWord) (bs : Bytes) : Rec :=
  let p := splitRec flags bs
  { op := op, flags := flags, len := len, cw := cw, authref := authref, rsvd := rsvd, body := p.1, token := p.2 }
/-- The record that a window holds (R85): LENGTH bytes, or the header alone where LENGTH is not legal. -/
def windowRec (w : Mem) : Rec :=
  let h := w.readN 0 32
  let len := fld h 4 4
  mkRec (BitVec.ofNat 16 (fld h 0 2)) (BitVec.ofNat 16 (fld h 2 2)) len (BitVec.ofNat 64 (fld h 8 8))
    (BitVec.ofNat 64 (fld h 16 8)) (BitVec.ofNat 64 (fld h 24 8)) (if lenLegal len then w.readN 32 (len - 32) else [])
/-- The record that a row's operands spell. -/
def rowRec (op : Half) (h : Hdr) (body : Bytes) : Rec :=
  let bs := body ++ h.token
  mkRec op h.flags (32 + bs.length) (mkCw h.src.toNat h.seq.toNat) h.authref h.rsvd bs

/-- A record's header bytes, with AUTHREF given. -/
def recHeader (r : Rec) (authref : Nat) : Bytes :=
  leBytes 2 r.op.toNat ++ leBytes 2 r.flags.toNat ++ leBytes 4 r.len ++ leBytes 8 r.cw.toNat ++ leBytes 8 authref ++
  leBytes 8 r.rsvd.toNat
/-- The record digest (R98). -/
def recDigest (r : Rec) : Digest := sha256 (recHeader r 0 ++ r.body)
/-- A record's bytes (R90). -/
def recBytes (r : Rec) : Bytes := recHeader r r.authref.toNat ++ r.body ++ r.token

/-! ## Answers -/

/-- A first answer that admits nothing (Table 04-8), with its counter. -/
def answer (m : Nat) (r : Rec) (status : Byte) (ref detail : Nat) (s : State) : State :=
  let ev := match status.toNat with
    | 0x10 => 0x2AA | 0x11 => 0x2AB | 0x12 => 0x2AC | 0x13 => 0x2AD | 0x14 => 0x2AE | _ => 0x2AF
  respond m { status := status, op := r.op, cw := r.cw, ref := ref, detail := detail } (count ev s)
/-- INVALID, with the offset of the first offending field. -/
def answerInvalid (m : Nat) (r : Rec) (off : Nat) (s : State) : State := answer m r 0x14 0 off s
/-- DENIED_AUTH: the AUTH_DENIED folio for the causes of step 5, and the lockout. -/
def answerDenied (m : Nat) (r : Rec) (cause : Nat) (s : State) : State :=
  let s := record 0x0F14 2 [cwSrc r.cw, r.op.toNat, cause] r.cw s
  answer m r 0x13 0 cause (denied (cwSrc r.cw) s)
/-- FAULT: the JOURNAL_FAULT folio. -/
def answerFault (m : Nat) (r : Rec) (cause : Nat) (s : State) : State :=
  answer m r 0x15 0 cause (record 0x0F16 3 [cwSrc r.cw, r.op.toNat, cause] r.cw s)
/-- A query's DONE. -/
def answerDone (m : Nat) (r : Rec) (data : Bytes) (s : State) : State :=
  respond m { status := 0x01, op := r.op, cw := r.cw, data := data } s

/-! ## Steps 1 and 2 -/

/-- The source ids of a mailbox (Table 04-9). -/
def srcValid (m src : Nat) : Bool :=
  match m with
  | 0 => src == 0
  | 1 => src == 1
  | 2 | 3 => src == 2 || src == 3
  | 4 => src == 4
  | 5 => src == 5
  | 6 => decide (0x10 ≤ src) && decide (src ≤ 0x1F)
  | _ => src == 7
/-- The least offset of a header field that breaks its rule (step 2). -/
def badHeader (r : Rec) : Option Nat :=
  let auth := r.flags.getLsbD 0
  if !lenLegal r.len then some 4 else
  match opInfo r.op.toNat with
  | none => some 0
  | some i =>
    let leave := i.cls == .l
    let j := match i.cls with | .j _ => true | _ => false
    firstBad [(decide (4 ≤ r.flags.toNat) || (leave && auth), 2),
      ((auth && decide (r.len < 64)) || (j && decide (120 < r.body.length)) ||
        (!leave && decide (r.body.length < bodyNeed r.op.toNat i.body r.body)), 4),
      (!auth && r.authref != 0, 16), (r.rsvd != 0, 24)]

/-! ## Queries (R93 to R95) -/

/-- A journal STATE code (Table 04-10). -/
def stateCode : JState → Nat
  | .tentative => 1
  | .pending => 2
  | .waitObject => 3
  | .done => 4
/-- An entry's RESULT field. -/
def resultField (e : JEntry) : Bytes :=
  leBytes 4 e.result.toNat ++ leBytes 2 e.rdata.length ++ zeros 2 ++ sub e.rdata 0 24
/-- SEQ_QUERY's result. -/
def seqResult (s : State) (src : Nat) : Bytes :=
  match s.jr.high.find src with
  | none => leBytes 2 src ++ [0xFE] ++ zeros 29
  | some h =>
    let e := (s.jr.entries.find? fun e => e.cw == mkCw src h.seq)
    leBytes 2 src ++ leBytes 1 (match e with | some e => stateCode e.state | none => 0xFF) ++ zeros 5 ++
    leBytes 8 h.seq ++ leBytes 8 h.jseq ++
    leBytes 4 (match e with | some e => if e.state == .done then e.result.toNat else 0 | none => 0) ++ zeros 4
/-- RESULT_GET's result code and data. -/
def resultResult (s : State) (cw : DWord) : Word × Bytes :=
  match findCw cw s with
  | none => (1, [0xFF] ++ zeros 63)
  | some e => (0, leBytes 1 (stateCode e.state) ++ leBytes 1 e.mbx ++ leBytes 2 e.replays.toNat ++ zeros 4 ++
      leBytes 8 (e.jseq % ownSeq) ++ leBytes 8 e.acceptTime ++ leBytes 8 e.doneTime ++ resultField e)
/-- PLN_STATE (Table 13-8). -/
def plnCode : PlnSt → Nat
  | .idle => 0
  | .rest => 1
  | .moving => 2
  | .waiting => 3
  | .holding => 4
  | .stale => 5
/-- The outstanding commands of a source: from ACCEPTED until DONE (R101). -/
def outstanding (src : Nat) (s : State) : Nat :=
  (s.jr.entries.filter fun e => isOpen e && e.state != .tentative && cwSrc e.cw == src).length
/-- STATUS_GET's FLAGS. -/
def statusFlags (s : State) : Nat :=
  s.jr.fault.toNat + 2 * (s.pair.lead && s.kt.partner.isSome && !attached s).toNat + 4 * s.ep.pend.isSome.toNat +
  8 * s.kt.budget.isNone.toNat + 16 * (s.pln.st == .stale).toNat
/-- STATUS_GET's result (Table 04-7a). -/
def statusResult (s : State) : Bytes :=
  leBytes 1 s.pair.lead.toNat ++ leBytes 1 (pairCode s.pair.state) ++ leBytes 1 (plnCode s.pln.st) ++ zeros 1 ++
  leBytes 4 (cfgEpoch s) ++ leBytes 4 s.kt.actEpoch ++ leBytes 4 (epochReady s) ++ leBytes 8 s.kt.failed ++ canState s ++
  leBytes 2 s.jr.entries.length ++ leBytes 2 (openAll s) ++ leBytes 8 s.jr.jseq ++ leBytes 4 (statusFlags s) ++ zeros 4 ++
  (((List.range 8) ++ (List.range 16).map (· + 16)).map fun src => leBytes 1 (outstanding src s)).flatten ++ zeros 8

/-- The body rules of a query. -/
def badQuery (op : Nat) (s : State) (b : Bytes) : Option Nat :=
  match op with
  | 0x0001 => firstBad [rsv b 2 6]
  | 0x0012 => badLeaseRead b
  | 0x0013 => badSensorRead s b
  | 0x0014 => badLogRead b
  | 0x0015 => badPmcRead b
  | 0x0016 => badInventoryRead b
  | _ => none
/-- A query's answer. -/
def query (m : Nat) (r : Rec) (s : State) : State :=
  let b := r.body
  match r.op.toNat with
  | 0x0001 => answerDone m r (seqResult s (fld b 0 2)) s
  | 0x0002 =>
    let (n, s) := issueNonce (cwSrc r.cw) s
    answerDone m r (leBytes 8 n.val.toNat ++ leBytes 8 (toKeep n.stop)) s
  | 0x0003 =>
    let x := resultResult s (BitVec.ofNat 64 (fld b 0 8))
    respond m { status := 0x01, op := r.op, cw := r.cw, result := x.1, data := x.2 } s
  | 0x0004 => answerDone m r (statusResult s) s
  | 0x0012 => answerDone m r (leaseRead s b) s
  | 0x0013 => sensorQuery m r.cw b s
  | 0x0014 =>
    let x := logRead s b
    respond m { status := 0x01, op := r.op, cw := r.cw, result := x.1, data := x.2.1, folios := x.2.2 } s
  | 0x0015 => pmcReadClear b (answerDone m r (pmcRead s b) s)
  | 0x0016 => answerDone m r (inventoryRead s b) s
  | 0x0017 => answerDone m r (spineHealth s) s
  | _ => answerDone m r (tlsKeyGet s) s

/-- Body bytes beyond a layout are reserved (R93). -/
def badTail (op least : Nat) (b : Bytes) : Option Nat :=
  let n := bodyNeed op least b
  if isZero b n (b.length - n) then none else some n
/-- The lesser of two offsets. -/
def minBad (x y : Option Nat) : Option Nat :=
  match x, y with
  | some a, some b => some (min a b)
  | some a, none => some a
  | none, y => y

/-- A tray agent's INVENTORY_READ that names another tray (R336, log 158). -/
def foreignTray (src : Nat) (r : Rec) : Bool :=
  r.op == 0x0016 && inRange 0x10 src 0x1F && decide (fld r.body 0 1 < 16) && fld r.body 0 1 != src - 0x10
/-- Step 3 of R98 for queries, stages and leave records. -/
def serve (m : Nat) (i : OpInfo) (r : Rec) (s : State) : State :=
  let src := cwSrc r.cw
  if !i.ranks.contains (rankOf src r.flags) || foreignTray src r then answer m r 0x13 0 1 (denied src s)
  else if i.cls == .l then
    if r.op == 0x0010 then leaveRequest r.len r.cw r.body s else leaveReturn r.len r.cw r.body s
  else if i.cls == .s then
    match minBad (badStage m s r.body) (badTail r.op.toNat i.body r.body) with
    | some o => answerInvalid m r (32 + o) s
    | none => objectStage m r.op r.cw r.body s
  else if cwSeq r.cw != 0 then answerInvalid m r 8 s
  else match minBad (badQuery r.op.toNat s r.body) (badTail r.op.toNat i.body r.body) with
    | some o => answerInvalid m r (32 + o) s
    | none => query m r s

/-! ## Steps 5 to 8 -/

/-- The rank of a record's source: M7 is rack manager under a valid key 0 token alone (R34). -/
def recRank (r : Rec) (s : State) : Rank :=
  let src := cwSrc r.cw
  if src == 7 && (tokenCause 7 false r s).isSome then .host else rankOf src r.flags
/-- KEY_SET's cause of refusal (R104). -/
def keySetCause (r : Rec) (s : State) : Option Nat :=
  let src := cwSrc r.cw
  if src != 7 && recRank r s != .rackManager then some 1
  else if src == 7 && fld r.body 0 1 == 1 && s.kt.key1.isNone then none
  else tokenCause src true r s
/-- Step 5: the first cause of Table 04-11a that applies. -/
def authCause (i : OpInfo) (r : Rec) (s : State) : Option Nat :=
  if r.op == 0x0800 then keySetCause r s
  else if !i.ranks.contains (recRank r s) then some 1
  else if r.op == 0x0106 && !atMaster s then some 1
  else match i.cls with
    | .j (some k) => tokenCause (cwSrc r.cw) k r s
    | _ => none

/-- The body rules of HOLD_SET (Table 06-2). -/
def badHoldSet (s : State) (b : Bytes) : Option Nat :=
  firstBad [badTray b, rsv b 1 1, (!limitLegal s (fld b 0 1) (fld b 2 2), 2), rsv b 4 4]
/-- Step 6: the body rules of a journaled opcode. -/
def badBody (op : Nat) (s : State) (b : Bytes) : Option Nat :=
  match op with
  | 0x0100 => badTrayStart s b
  | 0x0101 => badTrayStop b
  | 0x0102 => badTrayCapSet s b
  | 0x0103 => badPermitSet b
  | 0x0104 => badHoldSet s b
  | 0x0105 => badBudgetSet b
  | 0x0106 => badRowBudgetSet b
  | 0x0108 => badStaggerSet b
  | 0x0200 => badTripRelease b
  | 0x0201 => badLeakMask b
  | 0x0202 => badRouteSet s b
  | 0x0203 => badTripProof b
  | 0x0300 => badKeeperTable s b
  | 0x0301 => badBelow s b
  | 0x0302 => badSetpoint s b
  | 0x0303 => badActuatorConfig s b
  | 0x0304 => badCanConfig s b
  | 0x0305 => badAfeConfig b
  | 0x0400 => badConfigEpoch s b
  | 0x0401 => badModelLoad s b
  | 0x0402 => badRegionSet s b
  | 0x0403 => badSpill b
  | 0x0500 => badRebind b
  | 0x0501 => badGoldenStore s b
  | 0x0502 => badTagWrite s b
  | 0x0600 => badSwitchBack s b
  | 0x0601 => badPairSync s b
  | 0x0602 => badSpineConfig b
  | 0x0700 => badLogClear b
  | 0x0701 => badLogFreeze b
  | 0x0702 => badPmcConfig b
  | 0x0800 => badKeySet b
  | 0x0801 => badKeyRevoke b
  | 0x0802 => badRollback s b
  | 0x0803 => badReset b
  | 0x0804 => badWakeConfig b
  | 0x0805 => badTlsSet s b
  | _ => none

/-- R391's admission: BRD names a board of the position, and the partner only while it is ATTACHED. -/
def admitBrd (op : Nat) (s : State) (b : Bytes) : Option Refuse :=
  match brdOf op b with
  | some n => if namesMe n s || (decide (n < 2) && s.kt.partner.isSome && attached s) then none else some {}
  | none => none
/-- Step 8 of a journaled opcode. -/
def admitOp (op : Nat) (rank : Rank) (src : Nat) (s : State) (b : Bytes) : Option Refuse :=
  match op with
  | 0x0100 => admitTrayStart s b
  | 0x0102 => admitTrayCapSet rank s b
  | 0x0200 => admitTripRelease s b
  | 0x0202 => admitRouteSet s b
  | 0x0300 => admitKeeperTable s b
  | 0x0301 => admitBelow s b
  | 0x0302 => admitSetpoint s
  | 0x0304 => admitCanConfig s b
  | 0x0305 => admitAfeConfig s b
  | 0x0400 => admitConfigEpoch src s b
  | 0x0401 => admitModelLoad s
  | 0x0402 => admitRegionSet s b
  | 0x0403 => admitSpill s
  | 0x0500 => admitRebind s b
  | 0x0501 => admitGoldenStore s b
  | 0x0600 => admitSwitchBack s
  | 0x0700 => admitLogClear s b
  | 0x0801 => admitKeyRevoke s b
  | _ => none
/-- Step 8: a Shadow takes journaled commands over M4 alone; then R391 and the opcode's own rules. -/
def refusal (r : Rec) (s : State) : Option Refuse :=
  let op := r.op.toNat
  if !s.pair.lead && cwSrc r.cw != 4 then some {}
  else match admitBrd op s r.body with
    | some x => some x
    | none => admitOp op (recRank r s) (cwSrc r.cw) s r.body

/-! ## Steps 4, 9 and 10 -/

/-- The entry of a record, with the rank that it stands by (R34). -/
def newEntry (m : Nat) (r : Rec) (s : State) : JEntry :=
  let own := (s.jr.entries.filter (fun e => ownSeq ≤ e.jseq)).foldl (fun n e => max n e.jseq) ownSeq
  { op := r.op, cw := r.cw, authref := r.authref, len := BitVec.ofNat 32 r.len, mbx := m, body := r.body,
    flags := r.flags, host := cwSrc r.cw == 7 && recRank r s != .rackManager,
    jseq := if s.pair.lead then s.jr.jseq + 1 else max own (ownSeq + s.jr.jseq) + 1,
    acceptTime := keepTime s, digest := recDigest r, actEpoch := BitVec.ofNat 32 s.kt.actEpoch }

/-- A failed journal write (R105): the third in a row is CATCH_STORE_FAULT, which sets FAULT in the heartbeat (R129). -/
def writeFailed (m : Nat) (r : Rec) (s : State) : State :=
  let s := answerFault m r 3 (s.onJr fun q => { q with fails := q.fails + 1 })
  if s.jr.fails < 3 then s
  else
    let n := s.jr.fails
    let s := s.onJr fun q => { q with fault := true }
    event 0x0F17 3 [n] 0 0 (s.onPair fun p => { p with fault := p.fault || p.lead })

/-- Steps 9 and 10: the entry written, mirrored to an attached partner with the object it names, and ACCEPTED. -/
def journal (m : Nat) (r : Rec) (s : State) : State :=
  let e := newEntry m r s
  let st : JState := if attached s && s.pair.lead then .tentative else .pending
  let e := { e with state := st }
  let s := count 0x2B0 (s.onJr fun q => { q with
    entries := makeRoom q.entries ++ [e], fails := 0, jseq := if e.jseq < ownSeq then e.jseq else q.jseq })
  if e.state == .tentative then
    let s := match namedObj e.op.toNat e.body with
      | some d => match objBytes d s with
        | some bs => sendPair (.bulk (.object d bs)) s
        | none => s
      | none => s
    mirror e s
  else
    let s := if s.pair.state == .syncing && s.pair.lead then sendPair (.mirror e) s else s
    accepted e s

/-- The least retry estimate that applies (R101). -/
def answerBusy (m : Nat) (r : Rec) (status : Byte) (s : State) : State :=
  let (n, s) := draw s
  answer m r status 0 (1 + Config.busyMs n % 1000) s

/-- Steps 7 to 10. -/
def enter (m : Nat) (jok : Bool) (r : Rec) (s : State) : State :=
  if 64 ≤ openOf (cwSrc r.cw) s || 512 ≤ openAll s then answerBusy m r 0x10 s
  else match refusal r s with
    | some x =>
      let s := if r.op == 0x0100 && s.pair.mismatch then capdnRevoke (fld r.body 0 1) 0x13 s else s
      if x.status == 0x12 && x.detail == 0 then answerBusy m r 0x12 s else answer m r x.status x.ref x.detail s
    | none =>
      if s.jr.fault then answerFault m r 2 s
      else if !jok then writeFailed m r s
      else journal m r s

/-- A copy of a catchword that the journal holds (step 4). -/
def duplicate (m : Nat) (jok : Bool) (r : Rec) (e : JEntry) (s : State) : State :=
  if recDigest r != e.digest then answerInvalid m r 8 s
  else match e.state with
    | .tentative => s.onJr fun q => { q with dups := q.dups ++ [{ jseq := e.jseq, mbx := m, jok := jok, record := r }] }
    | .done =>
      respond m { status := 0x02, op := r.op, cw := r.cw, ref := e.jseq % ownSeq, result := e.result, data := e.rdata }
        (count 0x2A9 (onEntry e.jseq (fun e => { e with mbx := m }) s))
    | _ => dupPending m e (onEntry e.jseq (fun e => { e with mbx := m }) s)

/-- Steps 4 to 10 for a journaled opcode. -/
def judge (m : Nat) (jok : Bool) (i : OpInfo) (r : Rec) (s : State) : State :=
  match findCw r.cw s with
  | some e => duplicate m jok r e s
  | none =>
    let src := cwSrc r.cw
    if cwSeq r.cw == 0 || cwSeq r.cw ≤ (s.jr.high.get {} src).seq then answerInvalid m r 8 s
    else match authCause i r s with
      | some c => answerDenied m r c s
      | none =>
        match minBad (badBody r.op.toNat s r.body) (badTail r.op.toNat i.body r.body) with
        | some o => answerInvalid m r (32 + o) s
        | none => enter m jok r s

/-- A record copied out of mailbox `m`, judged by R98. In LONE_CHECK the mailboxes are closed; the leave unit still
answers its records (R132). -/
def receive (m : Nat) (jok : Bool) (r : Rec) (s : State) : State :=
  let leave := m == 6 && (r.op == 0x0010 || r.op == 0x0011)
  if !isOpenBox s && !leave then answerInvalid m r 0 s
  else if !srcValid m (cwSrc r.cw) then answerInvalid m r 8 s
  else match badHeader r with
    | some o => answerInvalid m r o s
    | none =>
      match opInfo r.op.toNat with
      | none => s
      | some i =>
        match i.cls with
        | .j _ => judge m jok i r s
        | _ => serve m i r s

/-! ## Copy-out (R85) -/

/-- A response of a mailbox waits for room after what fits has been written. -/
def waitsForRoom (m : Nat) (s : State) : Bool := !(mbxOf (writeAll m s) m).waiting.isEmpty
/-- REQ_BUSY clears, with the vector of M0 and M1. -/
def clearBusy (m : Nat) (s : State) : State :=
  let s := onBox m (fun b => { b with busy := false }) s
  if m < 2 then msix (3 + m) s else s

/-- MBX_COPY_OUT (R85): once every response already produced has been written. -/
def doMbxCopyOut (m : Nat) (jok : Bool) (s : State) : State :=
  if !running s || !(mbxOf s m).busy then s
  else if waitsForRoom m s then writeAll m s
  else
    let s := writeAll m s
    receive m jok (windowRec (mbxOf s m).window) (clearBusy m s)

/-- MBX_COPY_OUT. -/
def execMbxCopyOut (m : Fin 8) (jok : Bool) (s : State) : Host.Outcome State Fault Refusal := .next (doMbxCopyOut m jok s)

/-- The acting Lead services an agent's interrupt for a record (R330): the agent answers, its last ROLE named this board
as acting Lead, and its response queue has room. -/
def servesAgent (s : State) (t : Nat) : Bool :=
  let a := agentOf s t
  acting s && (a.link == .up || a.link == .silent) && a.role == some true && decide (a.answers.length < 32)

/-- A record sent to a mailbox (R85). While REQ_BUSY is 1 it is lost; while a response waits for room it stays in the
window; otherwise it is copied out and judged. M6 takes records from
agents that the acting Lead services (R330), a leave record straight to the leave unit (R150). A frame on M7 whose CRC
fails brings no record (R87, log 139). -/
def arrive (op : Half) (h : Hdr) (body : Bytes) (s : State) : State :=
  let m := h.mbx.val
  let r := rowRec op h body
  if !running s || (m == 7 && !h.sound) then s
  else if m == 6 && !servesAgent s (trayOfSrc h.src.toNat) then s
  else if m == 6 && (op == 0x0010 || op == 0x0011) then receive m h.jok r s
  else if (mbxOf s m).busy then onBox m (fun b => { b with dbLost := true, wrLost := true }) s
  else
    let s := countRise (0x2A0 + m) (count (0x290 + m) (onBox m (fun b => { b with window := b.window.writeN 0 ((recBytes r).take 4096) }) s))
    if waitsForRoom m s then onBox m (fun b => { b with busy := true }) (writeAll m s)
    else receive m h.jok r (clearBusy m (writeAll m s))

end Sys2Proof.Machine
end

