-- ==== Sys2Proof/Machine/Commands.lean ====
section
/-! DEFINITION. Machine/Commands.lean: one meaning for each command record, the effect of an accepted command, replay of
one command, and the records and descriptors that tray agents bring (R98 to R103, R330, R391). -/

namespace Sys2Proof.Machine

/-! ## Effects (R99, R103, R391) -/

/-- The effect of a journaled opcode. -/
def applyFx (op : Nat) (e : JEntry) (s : State) : State :=
  match op with
  | 0x0100 => fxTrayStart e s
  | 0x0101 => fxTrayStop e s
  | 0x0102 => fxTrayCapSet e s
  | 0x0103 => fxPermitSet e s
  | 0x0104 => fxHoldSet e s
  | 0x0105 => fxBudgetSet e s
  | 0x0106 => fxRowBudgetSet e s
  | 0x0107 => fxRowShareSet e s
  | 0x0108 => fxStaggerSet e s
  | 0x0200 => fxTripRelease e s
  | 0x0201 => fxLeakMask e s
  | 0x0202 => fxRouteSet e s
  | 0x0203 => fxTripProof e s
  | 0x0300 => fxKeeperTable e s
  | 0x0301 => fxBelow e s
  | 0x0302 => fxSetpoint e s
  | 0x0303 => fxActuatorConfig e s
  | 0x0304 => fxCanConfig e s
  | 0x0305 => fxAfeConfig e s
  | 0x0400 => fxConfigEpoch e s
  | 0x0401 => fxModelLoad e s
  | 0x0402 => fxRegionSet e s
  | 0x0403 => fxSpill e s
  | 0x0500 => fxRebind e s
  | 0x0501 => fxGoldenStore e s
  | 0x0502 => fxTagWrite e s
  | 0x0600 => fxSwitchBack e s
  | 0x0601 => fxPairSync e s
  | 0x0602 => fxSpineConfig e s
  | 0x0700 => fxLogClear e s
  | 0x0701 => fxLogFreeze e s
  | 0x0702 => fxPmcConfig e s
  | 0x0800 => fxKeySet e s
  | 0x0801 => fxKeyRevoke e s
  | 0x0802 => fxRollback e s
  | 0x0803 => fxReset e s
  | 0x0804 => fxWakeConfig e s
  | 0x0805 => fxTlsSet e s
  | _ => s

/-- The end, in µs, of the duration that a command states, counted from its acceptance (R103). A hold judges its own. -/
def statedEnd (e : JEntry) : Option Nat :=
  let b := e.body
  match e.op.toNat with
  | 0x0301 => if fld b 8 4 == 0 then none else some (fromKeep e.acceptTime + 1000 * fld b 8 4)
  | 0x0701 => if fld b 1 1 == 1 then some (fromKeep e.acceptTime + 1000000 * (if fld b 2 2 == 0 then 60 else fld b 2 2)) else none
  | _ => none
/-- A hold whose END has passed. -/
def holdOver (e : JEntry) (s : State) : Bool :=
  e.op == 0x0104 && fld e.body 8 8 != 0 && decide (fld e.body 8 8 ≤ keepTime s)
/-- What a Shadow leaves to the board that accepted the command: the commands that write OTP or reset a device, and
another's proof of its kettle path. -/
def leadOnly (op : Nat) : Bool := op == 0x0203 || op == 0x0801 || op == 0x0802 || op == 0x0803

/-- A re-execution counted before its dispatch, and mirrored (R103). -/
def countReplay (e : JEntry) (s : State) : State :=
  let e := { e with replays := e.replays + 1, applied := true }
  let s := onEntry e.jseq (fun _ => e) s
  if attached s && s.pair.lead then sendPair (.mirror e) s else s

/-- The effect of one entry, at the board or boards that act on it. -/
def effect (e : JEntry) (s : State) : State :=
  let op := e.op.toNat
  let s := onEntry e.jseq (fun e => { e with applied := true }) s
  let mine := match brdOf op e.body with | some b => namesMe b s | none => true
  if !mine then if s.pair.lead && !attached s then lostEntry e s else s
  else if !s.pair.lead && e.jseq < ownSeq && leadOnly op then s
  else if !e.redo then applyFx op e s
  else if (match statedEnd e with | some t => decide (t ≤ s.now) | none => false) then finish0 e.jseq 0xE1 s
  else if holdOver e s then applyFx op e s
  else
    let s := countReplay e s
    applyFx op { e with replays := e.replays + 1 } s

/-- The entry whose effect is due next, in journal order: none lies behind a TENTATIVE one. -/
def nextEffect : List JEntry → Option JEntry
  | [] => none
  | e :: es =>
    if e.state == .tentative then none
    else if !e.applied && e.state != .waitObject then some e
    else nextEffect es

/-- COMMAND_EFFECT. -/
def doCommandEffect (s : State) : State :=
  if !running s || s.pair.state == .lone then s else
  match nextEffect s.jr.entries with
  | some e => effect e s
  | none => s

/-- COMMAND_EFFECT. -/
def execCommandEffect (s : State) : Host.Outcome State Fault Refusal := .next (doCommandEffect s)

/-! ## A mirror that is not acknowledged (R102) -/

/-- The copies that waited for a TENTATIVE entry that is FREE, judged afresh (R98 step 4). -/
def judgeAgain (ds : List DupWait) (s : State) : State := ds.foldl (fun s d => receive d.mbx d.jok d.record s) s

/-- An attached partner is detached. -/
def dropPartner (s : State) : State := if attached s then losePartner .detached s else s

/-- MIRROR_TIMEOUT: the partner is detached; a TENTATIVE entry is FREE again and answered FAULT, and a DONE that waited is
sent. -/
def doMirrorTimeout (j : Nat) (s : State) : State :=
  match s.jr.sentAt.find j, findEntry j s with
  | some t, some e =>
    let s := (reach (t + 500) s).onJr fun q => { q with sentAt := q.sentAt.erase j }
    if e.state == .tentative then
      let ds := s.jr.dups.filter (·.jseq == j)
      let s := s.onJr fun q => { q with
        entries := q.entries.filter (·.jseq != j), dups := q.dups.filter (·.jseq != j) }
      let r : Rec := { op := e.op, flags := e.flags, cw := e.cw }
      judgeAgain ds (dropPartner (answerFault e.mbx r 1 s))
    else if e.doneWait then setDone j (dropPartner s)
    else s
  | _, _ => s

/-- MIRROR_TIMEOUT. -/
def execMirrorTimeout (jseq : Nat) (s : State) : Host.Outcome State Fault Refusal := .next (doMirrorTimeout jseq s)

/-! ## Agents' interrupts (R330, R333) -/

/-- A record refused at the agent that brought it: INVALID, into its own response queue. -/
def refuseAgent (t : Nat) (r : Rec) (off : Nat) (s : State) : State :=
  onAgent t (fun a => { a with answers := a.answers ++
    [{ status := 0x14, op := r.op, cw := r.cw, detail := off }] }) (count 0x2AE s)

/-- An agent's record for M6: leave records for the leave unit, others into the window and judged as it is copied out. -/
def agentRecord (t : Nat) (data : Bytes) (s : State) : State :=
  let r := windowRec (Mem.writeN [] 0 data)
  if 256 < data.length || 256 < r.len then refuseAgent t r 4 s
  else if cwSrc r.cw != 0x10 + t then refuseAgent t r 8 s
  else if r.op == 0x0010 || r.op == 0x0011 then receive 6 true r s
  else if (mbxOf s 6).busy then s
  else count 0x2A6 (onBox 6 (fun b => { b with window := Mem.writeN [] 0 data, busy := true }) s)

/-- I3C_IBI: 0x01 brings a record, 0x02 a changed descriptor. -/
def doI3cIbi (t mdb : Nat) (data : Bytes) (s : State) : State :=
  let s := count (0x392 + 4 * (t / 4)) s
  if !acting s || (agentOf s t).role != some true || !((agentOf s t).link == .up || (agentOf s t).link == .silent) then s
  else if mdb == 1 then if servesAgent s t then agentRecord t data s else s
  else if mdb == 2 then readDesc t data s
  else s

/-- I3C_IBI. -/
def execI3cIbi (tray : Fin 16) (mdb : Byte) (data : Bytes) (s : State) : Host.Outcome State Fault Refusal :=
  .next (doI3cIbi tray mdb.toNat data s)

/-! ## Command records (Table 04-7) -/

/-- SEQ_QUERY. -/
def execSeqQuery (h : Hdr) (body : Bytes) (s : State) : Host.Outcome State Fault Refusal := .next (arrive 0x0001 h body s)
/-- NONCE_GET. -/
def execNonceGet (h : Hdr) (body : Bytes) (s : State) : Host.Outcome State Fault Refusal := .next (arrive 0x0002 h body s)
/-- RESULT_GET. -/
def execResultGet (h : Hdr) (body : Bytes) (s : State) : Host.Outcome State Fault Refusal := .next (arrive 0x0003 h body s)
/-- STATUS_GET. -/
def execStatusGet (h : Hdr) (body : Bytes) (s : State) : Host.Outcome State Fault Refusal := .next (arrive 0x0004 h body s)
/-- OBJECT_STAGE. -/
def execObjectStage (h : Hdr) (body : Bytes) (s : State) : Host.Outcome State Fault Refusal := .next (arrive 0x0005 h body s)
/-- LEAVE_REQUEST. -/
def execLeaveRequest (h : Hdr) (body : Bytes) (s : State) : Host.Outcome State Fault Refusal := .next (arrive 0x0010 h body s)
/-- LEAVE_RETURN. -/
def execLeaveReturn (h : Hdr) (body : Bytes) (s : State) : Host.Outcome State Fault Refusal := .next (arrive 0x0011 h body s)
/-- LEASE_READ. -/
def execLeaseRead (h : Hdr) (body : Bytes) (s : State) : Host.Outcome State Fault Refusal := .next (arrive 0x0012 h body s)
/-- SENSOR_READ. -/
def execSensorRead (h : Hdr) (body : Bytes) (s : State) : Host.Outcome State Fault Refusal := .next (arrive 0x0013 h body s)
/-- LOG_READ. -/
def execLogRead (h : Hdr) (body : Bytes) (s : State) : Host.Outcome State Fault Refusal := .next (arrive 0x0014 h body s)
/-- PMC_READ. -/
def execPmcRead (h : Hdr) (body : Bytes) (s : State) : Host.Outcome State Fault Refusal := .next (arrive 0x0015 h body s)
/-- INVENTORY_READ. -/
def execInventoryRead (h : Hdr) (body : Bytes) (s : State) : Host.Outcome State Fault Refusal := .next (arrive 0x0016 h body s)
/-- SPINE_HEALTH_GET. -/
def execSpineHealthGet (h : Hdr) (body : Bytes) (s : State) : Host.Outcome State Fault Refusal := .next (arrive 0x0017 h body s)
/-- TLS_KEY_GET. -/
def execTlsKeyGet (h : Hdr) (body : Bytes) (s : State) : Host.Outcome State Fault Refusal := .next (arrive 0x0018 h body s)
/-- TRAY_START. -/
def execTrayStart (h : Hdr) (body : Bytes) (s : State) : Host.Outcome State Fault Refusal := .next (arrive 0x0100 h body s)
/-- TRAY_STOP. -/
def execTrayStop (h : Hdr) (body : Bytes) (s : State) : Host.Outcome State Fault Refusal := .next (arrive 0x0101 h body s)
/-- TRAY_CAP_SET. -/
def execTrayCapSet (h : Hdr) (body : Bytes) (s : State) : Host.Outcome State Fault Refusal := .next (arrive 0x0102 h body s)
/-- PERMIT_SET. -/
def execPermitSet (h : Hdr) (body : Bytes) (s : State) : Host.Outcome State Fault Refusal := .next (arrive 0x0103 h body s)
/-- HOLD_SET. -/
def execHoldSet (h : Hdr) (body : Bytes) (s : State) : Host.Outcome State Fault Refusal := .next (arrive 0x0104 h body s)
/-- BUDGET_SET. -/
def execBudgetSet (h : Hdr) (body : Bytes) (s : State) : Host.Outcome State Fault Refusal := .next (arrive 0x0105 h body s)
/-- ROW_BUDGET_SET. -/
def execRowBudgetSet (h : Hdr) (body : Bytes) (s : State) : Host.Outcome State Fault Refusal := .next (arrive 0x0106 h body s)
/-- ROW_SHARE_SET. -/
def execRowShareSet (h : Hdr) (body : Bytes) (s : State) : Host.Outcome State Fault Refusal := .next (arrive 0x0107 h body s)
/-- STAGGER_SET. -/
def execStaggerSet (h : Hdr) (body : Bytes) (s : State) : Host.Outcome State Fault Refusal := .next (arrive 0x0108 h body s)
/-- TRIP_RELEASE. -/
def execTripRelease (h : Hdr) (body : Bytes) (s : State) : Host.Outcome State Fault Refusal := .next (arrive 0x0200 h body s)
/-- LEAK_MASK. -/
def execLeakMask (h : Hdr) (body : Bytes) (s : State) : Host.Outcome State Fault Refusal := .next (arrive 0x0201 h body s)
/-- KETTLE_ROUTE_SET. -/
def execKettleRouteSet (h : Hdr) (body : Bytes) (s : State) : Host.Outcome State Fault Refusal := .next (arrive 0x0202 h body s)
/-- TRIP_PROOF. -/
def execTripProof (h : Hdr) (body : Bytes) (s : State) : Host.Outcome State Fault Refusal := .next (arrive 0x0203 h body s)
/-- KEEPER_TABLE_SET. -/
def execKeeperTableSet (h : Hdr) (body : Bytes) (s : State) : Host.Outcome State Fault Refusal := .next (arrive 0x0300 h body s)
/-- BELOW_FLOOR_LEASE. -/
def execBelowFloorLease (h : Hdr) (body : Bytes) (s : State) : Host.Outcome State Fault Refusal := .next (arrive 0x0301 h body s)
/-- SETPOINT_REQUEST. -/
def execSetpointRequest (h : Hdr) (body : Bytes) (s : State) : Host.Outcome State Fault Refusal := .next (arrive 0x0302 h body s)
/-- ACTUATOR_CONFIG. -/
def execActuatorConfig (h : Hdr) (body : Bytes) (s : State) : Host.Outcome State Fault Refusal := .next (arrive 0x0303 h body s)
/-- CAN_CONFIG. -/
def execCanConfig (h : Hdr) (body : Bytes) (s : State) : Host.Outcome State Fault Refusal := .next (arrive 0x0304 h body s)
/-- AFE_CONFIG. -/
def execAfeConfig (h : Hdr) (body : Bytes) (s : State) : Host.Outcome State Fault Refusal := .next (arrive 0x0305 h body s)
/-- CONFIG_EPOCH_SET. -/
def execConfigEpochSet (h : Hdr) (body : Bytes) (s : State) : Host.Outcome State Fault Refusal := .next (arrive 0x0400 h body s)
/-- MODEL_LOAD. -/
def execModelLoad (h : Hdr) (body : Bytes) (s : State) : Host.Outcome State Fault Refusal := .next (arrive 0x0401 h body s)
/-- REGION_SET. -/
def execRegionSet (h : Hdr) (body : Bytes) (s : State) : Host.Outcome State Fault Refusal := .next (arrive 0x0402 h body s)
/-- SPILL_CONFIG. -/
def execSpillConfig (h : Hdr) (body : Bytes) (s : State) : Host.Outcome State Fault Refusal := .next (arrive 0x0403 h body s)
/-- REBIND. -/
def execRebind (h : Hdr) (body : Bytes) (s : State) : Host.Outcome State Fault Refusal := .next (arrive 0x0500 h body s)
/-- GOLDEN_STORE. -/
def execGoldenStore (h : Hdr) (body : Bytes) (s : State) : Host.Outcome State Fault Refusal := .next (arrive 0x0501 h body s)
/-- TAG_WRITE. -/
def execTagWrite (h : Hdr) (body : Bytes) (s : State) : Host.Outcome State Fault Refusal := .next (arrive 0x0502 h body s)
/-- SWITCH_BACK. -/
def execSwitchBack (h : Hdr) (body : Bytes) (s : State) : Host.Outcome State Fault Refusal := .next (arrive 0x0600 h body s)
/-- PAIR_SYNC. -/
def execPairSync (h : Hdr) (body : Bytes) (s : State) : Host.Outcome State Fault Refusal := .next (arrive 0x0601 h body s)
/-- SPINE_CONFIG. -/
def execSpineConfig (h : Hdr) (body : Bytes) (s : State) : Host.Outcome State Fault Refusal := .next (arrive 0x0602 h body s)
/-- LOG_CLEAR. -/
def execLogClear (h : Hdr) (body : Bytes) (s : State) : Host.Outcome State Fault Refusal := .next (arrive 0x0700 h body s)
/-- LOG_FREEZE. -/
def execLogFreeze (h : Hdr) (body : Bytes) (s : State) : Host.Outcome State Fault Refusal := .next (arrive 0x0701 h body s)
/-- PMC_CONFIG. -/
def execPmcConfig (h : Hdr) (body : Bytes) (s : State) : Host.Outcome State Fault Refusal := .next (arrive 0x0702 h body s)
/-- KEY_SET. -/
def execKeySet (h : Hdr) (body : Bytes) (s : State) : Host.Outcome State Fault Refusal := .next (arrive 0x0800 h body s)
/-- KEY_REVOKE. -/
def execKeyRevoke (h : Hdr) (body : Bytes) (s : State) : Host.Outcome State Fault Refusal := .next (arrive 0x0801 h body s)
/-- ROLLBACK_ADVANCE. -/
def execRollbackAdvance (h : Hdr) (body : Bytes) (s : State) : Host.Outcome State Fault Refusal := .next (arrive 0x0802 h body s)
/-- RESET. -/
def execReset (h : Hdr) (body : Bytes) (s : State) : Host.Outcome State Fault Refusal := .next (arrive 0x0803 h body s)
/-- WAKE_CONFIG. -/
def execWakeConfig (h : Hdr) (body : Bytes) (s : State) : Host.Outcome State Fault Refusal := .next (arrive 0x0804 h body s)
/-- TLS_SET. -/
def execTlsSet (h : Hdr) (body : Bytes) (s : State) : Host.Outcome State Fault Refusal := .next (arrive 0x0805 h body s)

end Sys2Proof.Machine
end

