-- ==== Sys2Proof/Machine/Start.lean ====
section
/-! DEFINITION. Machine/Start.lean: firmware's start, the retries of internal leave, and the summaries of the logbook
(R79, R103, R160, R354, R390). -/

namespace Sys2Proof.Machine

/-! ## FIRMWARE_RUNNING (R79 step 1) -/

/-- The journal as replay begins (R102, R103): an entry whose CRC fails is FREE; a TENTATIVE entry that the partner holds
is PENDING, and raises its source's high mark (R100), another is FREE; and every entry that is not DONE is to be executed
again. -/
def replayJournal (held torn : List Nat) (s : State) : State :=
  s.onJr fun q =>
    let es := q.entries.filter fun e => !torn.contains e.jseq && (e.state != .tentative || held.contains e.jseq)
    { q with
      high := (es.filter (·.state == .tentative)).foldl (fun h e => Journal.raise { q with high := h } e) q.high,
      entries := es.map fun e =>
        if e.state == .done then e else { e with state := .pending, applied := false, doneWait := false, redo := true } }

/-- An event code, and not a code of Table 15-3. -/
def isEventCode (f : Folio) : Bool := f.ty == 0 && !(decide (0x0F10 ≤ f.code.toNat) && decide (f.code.toNat ≤ 0x0F19))
/-- Keeper-mode folios above the published mark, in FSEQ order (R390). -/
def unpublished (s : State) : List Folio :=
  (s.log.slots ++ s.log.queue ++ s.log.buf).filter fun f => f.keeper && isEventCode f && decide (s.kt.published < f.fseq)
/-- KEEPER_EVENT_PUBLISH (R390): their ring entries, and the mark raised. -/
def publishKeeper (s : State) : State :=
  let fs := unpublished s
  let s := fs.foldl (fun s f => ringEvent { code := f.code, sev := f.sev, time := f.time, cw := f.cw, ref := f.fseq,
                                            data := f.data, keeper := true } s) s
  s.onKt fun k => { k with published := fs.foldl (fun m f => max m f.fseq) k.published }

/-- The clocks of the engines that firmware starts. -/
def startClocks (s : State) : State :=
  let now := s.now
  let s := s.onPair fun p => { p with hbAt := now, proofAt := now, jAt := now, roleAt := now, board := .running }
  let s := s.onLv fun l => { l with tableAt := now }
  s.onLog fun l => { l with period := some now, samples := 0, tracks := [] }

/-- FIRMWARE_RUNNING: keep tables and journal read, the recorded role taken up (a board that records none has none until it
has heard its partner, or nothing, R15), keeper-mode folios published, RUNNING set, and the reset source and the front end's
fault history reported. -/
def doFirmwareRunning (held torn : List Nat) (s : State) : State :=
  if s.pwr.bind != .on || s.boot.state != .starting || !s.keep.tenRead then s else
  let role := s.kt.role
  let s := replayJournal held torn s
  let s := publishKeeper (s.onPair fun p => { p with lead := role == some true })
  let s := setBoot .running (s.onBoot fun b => { b with watchdog := none })
  let s := s.onPmc (Counters.mark (condOf s))
  let s := bareEvent 0x0002 2 [s.pwr.resetSrc.toNat] 0 (startClocks s)
  let s := startPlanner (flushNotes (loadStored s))
  match role with
  | some true => startLead s
  | some false => startShadow s
  | none => s

/-- FIRMWARE_RUNNING, with what firmware finds of the journal. -/
def execFirmwareRunning (found : JournalRead) (s : State) : Host.Outcome State Fault Refusal :=
  .next (doFirmwareRunning found.held found.torn s)

/-! ## INTERNAL_LEAVE_RETRY (R160) -/

/-- One operation asks for its leave again. -/
def askAgain (w : LeaveWait) (s : State) : State :=
  match w.kind with
  | 2 => if s.pwr.store == .on && halfOf s w.owner == .off && halfTurn w.owner s then askHalf w.owner s else s
  | 3 => if (pumpOf s w.owner).st == .retry then askRestart w.owner s else s
  | 15 => restoreAgain w.owner s
  | 5 => match s.stw.run with
    | some r => if r.step == .leave && r.job.tray == w.owner then askRebind r s else s
    | none => s
  | _ => plannerRetry w s

/-- INTERNAL_LEAVE_RETRY: the defer time of a waiting operation runs out. -/
def doInternalLeaveRetry (id : Nat) (s : State) : State :=
  match s.lv.waits.find? (·.id == id) with
  | some w =>
    if !running s then s
    else askAgain w ((reach w.at_ s).onLv fun l => { l with waits := l.waits.filter (·.id != id) })
  | none => s

/-- INTERNAL_LEAVE_RETRY. -/
def execInternalLeaveRetry (id : Nat) (s : State) : Host.Outcome State Fault Refusal := .next (doInternalLeaveRetry id s)

/-! ## Summaries (R354, Table 15-4) -/

/-- LO and STEP of a track. -/
def trackScale (k : Nat) : Int × Int :=
  match k with
  | 0 => (200, 25)
  | 1 => (0, 8000)
  | 2 => (-8000, 8000)
  | 3 => (0, 1250)
  | 4 => (0, 625)
  | 5 => (0, 1000)
  | 6 => (0, 8)
  | _ => (0, 10)
/-- The highestOf of some values. -/
def highestOf : List Int → Option Int
  | [] => none
  | x :: xs => some (xs.foldl max x)
/-- A track's value now, none where its source is absent. -/
def trackValue (s : State) (k : Nat) : Option Int :=
  match k with
  | 0 => s.drv.temp.map fun t => quot t 100
  | 1 => some ((fixedW s + committedW s : Nat) : Int)
  | 2 => some (freeW s)
  | 3 => highestOf (((List.range 4).filter fun n => (pumpOf s n).st != .disabled).map fun n => (pumpOf s n).speed)
  | 4 => highestOf (((List.range 8).filter fun n => (fanOf s n).on).map fun n => quot (fanOf s n).duty 1000)
  | 5 => highestOf (((List.range 16).filter fun t =>
      (agentOf s t).seq.isSome && decide (s.now ≤ (agentOf s t).lastAt + 1000000)).map fun t => ((trayOf s t).watts : Int))
  | 6 => some ((s.lv.leases.filter (·.kind == 0)).length : Int)
  | _ => if s.lv.table.isSome then some (((s.now - s.lv.tableAt) / 1000 : Nat) : Int) else none
/-- The bin of a sample. -/
def trackBin (k : Nat) (v : Int) : Nat := min 15 (Int.fdiv (v - (trackScale k).1) (trackScale k).2).toNat
/-- A sample added to a track, `at_` seconds after the period's start. -/
def Track.add (k : Nat) (at_ : Nat) (v : Int) (t : Track) : Track :=
  { n := t.n + 1, min := if t.n == 0 then v else Min.min t.min v, max := if t.n == 0 then v else Max.max t.max v,
    at_ := if t.n == 0 || t.max < v then at_ else t.at_, bins := t.bins.modify (trackBin k v) (· + 1) }

/-- SUMMARY_SAMPLE: once per second, the first at the end of the period's first second. -/
def doSummarySample (s : State) : State :=
  match s.log.period with
  | none => s
  | some t =>
    if !running s then s else
    let s := reach (t + 1000000 * (s.log.samples + 1)) s
    let sec := (s.now - t) / 1000000
    let ts := (List.range 8).foldl (fun ts k => match trackValue s k with
      | some v => ts.mod {} k (Track.add k sec v)
      | none => ts) s.log.tracks
    s.onLog fun l => { l with samples := l.samples + 1, tracks := ts }

/-- SUMMARY_SAMPLE. -/
def execSummarySample (s : State) : Host.Outcome State Fault Refusal := .next (doSummarySample s)

/-- A track block: TRACK, NO_DATA, MIN, MAX, MAX_AT, LO, STEP and the bins. -/
def trackBlock (l : Logbook) (k : Nat) : List Int :=
  let t := l.tracks.get {} k
  [(k : Int), if t.n == 0 then 1 else 0, t.min, t.max, t.at_, (trackScale k).1, (trackScale k).2] ++ t.bins.map Int.ofNat
/-- The µs time of this model at the next hour meter value that is a multiple of 3,600 s, after the period's start. -/
def nextHour (s : State) : Nat :=
  let h := s.keep.hourBase + (s.log.period.getD 0 - s.keep.hourFrom) / 1000000
  s.keep.hourFrom + ((h / 3600 + 1) * 3600 - s.keep.hourBase) * 1000000

/-- SUMMARY_WRITE: four SUMMARY folios of two tracks each, and a new period. -/
def doSummaryWrite (s : State) : State :=
  match s.log.period with
  | none => s
  | some t =>
    if !running s then s else
    let s := reach (nextHour s) s
    let l := s.log
    let s := (List.range 4).foldl (fun s i =>
      addFolio { mkFolio 1 0 0 [(s.now - t) / 1000000, l.samples] 0 0 s with
        words := trackBlock l (2 * i) ++ trackBlock l (2 * i + 1) } s) s
    let now := s.now
    s.onLog fun l => { l with period := some now, samples := 0, tracks := [] }

/-- SUMMARY_WRITE. -/
def execSummaryWrite (s : State) : Host.Outcome State Fault Refusal := .next (doSummaryWrite s)

end Sys2Proof.Machine
end

