-- ==== Sys2Proof/Machine/Cycle.lean ====
section
/-! DEFINITION. Machine/Cycle.lean: the cycle tick (R35 to R38): what becomes current, the snapshot, the cores, the
epoch change, the row leave broker and what the pair does at a tick. -/

namespace Sys2Proof.Machine

/-! ## The tick (R35, R117, R121) -/

/-- The first µs of this model at which row time has reached row tick `k`. -/
def tickTime (s : State) (k : Nat) : Nat := (((k * 10000000 : Nat) : Int) - s.spn.rowOff + 999).toNat / 1000
/-- The next local tick: its number and its time. -/
def localTick (s : State) : Nat × Nat := (s.ep.tick + 1, if s.ep.ticked then s.ep.tickAt + 10000 else s.now)
/-- A row tick no earlier than `k` and than now. -/
def rowTickFrom (s : State) (k : Nat) : Nat × Nat :=
  let k := max k (rowTick s)
  (k, tickTime s k)
/-- The next cycle tick, and whether it is the row tick that ends the local cycle. -/
def nextTick (s : State) : (Nat × Nat) × Bool :=
  if !s.spn.formed then (localTick s, false)
  else match s.spn.firstTick with
    | none => (rowTickFrom s (s.ep.tick + 1), false)
    | some f =>
      let l := localTick s
      if l.2 < tickTime s f && s.now < tickTime s f then (l, false) else (rowTickFrom s f, true)

/-- The time and number of the tick; at the row tick that ends a local cycle the 80 % figure holds until a share comes
(R146), and a rejoined arc is reported. -/
def enterTick (s : State) : State :=
  let n := nextTick s
  let s := reach n.1.2 s
  let now := s.now
  let s := s.onEp fun x => { x with tick := n.1.1, tickAt := now, ticked := true }
  let s := applyShares (count 0x00A s)
  let s := if n.2 then
      let back := s.spn.rejoin
      let s := (s.onSpn fun p => { p with firstTick := none, rejoin := false }).onLv fun l => { l with fallback := true }
      if back then event 0x0505 1 [] 0 0 s else s
    else s
  if s.spn.formed && s.spn.offArc then s.onLv fun l => { l with fallback := true } else s

/-! ## What becomes current (R36, R145, R304, R307) -/

/-- The completed table and harbour set may become current: after MODEL_COLD only with the 100th completed cycle. -/
def countCold (s : State) : Bool × State :=
  if s.ep.cold == 0 then (s.ep.done, s)
  else if !s.ep.done then (false, s.onEp fun x => { x with cold := 100 })
  else (s.ep.cold == 1, s.onEp fun x => { x with cold := x.cold - 1 })
/-- A leave table whose CRC checks. -/
def tableGood (t : Bytes) : Bool := crcOk t 0x1000
/-- TABLE_SWITCH and the harbour set; whether that is URGENT. -/
def switchTables (s : State) : Bool × State :=
  match countCold s with
  | (false, s) => (false, s)
  | (true, s) =>
    let t := tableBank s
    if !tableGood t then (false, s)
    else
      let now := s.now
      takeHarbours s.ep.tick
        (count 0x269 <| s.onLv fun l => { l with table := some t, everTable := true, tableAt := now, stale := false, pendRep := false })
/-- The first slot of the stagger queue opens at the first tick at which a table is current (R157); overdrawn trays' resumes
are queued (Table 06-9). -/
def tickQueue (s : State) : State :=
  let now := s.now
  let s := if s.lv.table.isSome && s.lv.slotAt.isNone && s.lv.slotTray.isNone then s.onLv fun l => { l with slotAt := some now } else s
  let ts := s.lv.tickRes.filter fun t => decide ((trayOf s t).overs < 2)
  checkOver (ts.foldl (fun s t => queueResume t s) (s.onLv fun l => { l with tickRes := l.tickRes.filter fun t => !ts.contains t }))

/-! ## The snapshot (R128, R200, R228, R253) -/

/-- The entries of the front end's 56 channels; an attached Shadow takes those of its acting Lead. -/
def afeSnap (s : State) : Bytes :=
  if attached s && !s.pair.lead && s.pair.words.length == 112 then s.pair.words.flatMap fun w => leBytes 4 w.toNat
  else ((List.range 56).map (afeSnapEntry s)).flatten
/-- The words of an AFE snapshot. -/
def snapWords (b : Bytes) : List Word := (List.range 112).map fun i => BitVec.ofNat 32 (fld b (4 * i) 4)
/-- The snapshot taken, then the stored AFE records and keeper tables, the tick's CAN time and the inventory adopted. -/
def takeSnapshot (s : State) : State :=
  let own := ((List.range 56).map (afeSnapEntry s)).flatten
  let b := afeSnap s ++ driveSnap s ++ canSnap s
  let s := storeSnap (s.onEp fun x => { x with snap := b })
  let s := if attached s && s.pair.lead then sendPair (.snapshot (snapWords own) (resultDigest s)) s else s
  adoptAll (replan (applyTables (applyAfe (canTick (gridNs s s.now / 1000) (canTaken s)))))

/-! ## Cores, epoch and checkpoints (R38, R266, R273, R299, R306, R308) -/

/-- The quires at a tick. An EPOCH_TICK that has come and found this position not ready names no tick any more. -/
def tickQuires (s : State) : State :=
  let due := match s.ep.pend with | some p => if changeDue p s then some p else none | none => none
  let chg := match due with | some p => changedQuires s.qre.progs p.progs | none => []
  let s := tickCores chg s
  let s := match due with | some p => changeEpoch p s | none => s
  let s := borrowTick (restartPrograms (beginLoad (switchVariants s)))
  let t := s.ep.tick
  let s := s.onEp fun x => { x with pend := x.pend.map fun p =>
    { p with named := p.named.filter fun n => decide (t < n) } }
  if s.spn.epochTick ≤ t && s.spn.formed then s.onSpn fun p => { p with epochTick := 0 } else s
/-- CHECKPOINT_DUE: a checkpoint not taken in the cycle in which it fell due is reported once; one falls due at a multiple of
CKPT_CYCLES. -/
def tickCkpt (s : State) : State :=
  let s := if s.ep.ckDue && !s.ep.ckRep then event 0x0D01 2 [] 0 0 (s.onEp fun x => { x with ckRep := true }) else s
  if s.ep.cur.isSome && s.kt.ckCycles != 0 && s.ep.tick % s.kt.ckCycles == 0 then
    s.onEp fun x => { x with ckDue := true, ckRep := false }
  else s
/-- The marks of the cycle that ends. -/
def newCycle (s : State) : State := s.onEp fun x => { x with done := false, arrived := [], sent := [], endAt := false }

/-! ## The row leave broker (R33, R123, R161 to R163) -/

/-- This position's demand. Without a share, SHARE_W is the rack budget record. -/
def myDemand (s : State) : Demand :=
  let b := s.kt.budget.getD 0
  { pos := s.pwr.straps.pos, budget := b, fixed := fixedW s, committed := committedW s, waiting := s.lv.waiting,
    share := s.lv.share.getD b, tick := BitVec.ofNat 32 s.ep.tick }
/-- DEMAND_SEND. -/
def sendDemand (s : State) : State :=
  if !acting s || !s.spn.formed then s else
  let d := myDemand s
  if isMaster s then enterDemand d s else sendSpine 0xFE (.demand d) s

/-- What the broker reckons with for a position: budget, fixed and need (R162). -/
structure Claim where
  budget : Nat := 0
  fixed  : Nat := 0
  need   : Nat := 0
  deriving DecidableEq, Repr
/-- A position's claim from its latest demand, which counts for 100 ms. -/
def claimOf (now : Nat) (p : Nat × Demand) : Claim :=
  let d := p.2
  if now ≤ p.1 + 100000 then
    { budget := d.budget, fixed := d.fixed + d.committed, need := min d.budget (d.fixed + d.committed + d.waiting) }
  else { budget := d.budget, fixed := d.share, need := d.share }
/-- A share of `row` watts by R162. -/
def shareOf (row : Nat) (cs : List Claim) (c : Claim) : Nat :=
  let sum := fun (f : Claim → Nat) => (cs.map f).sum
  let need := sum (·.need)
  let fixed := sum (·.fixed)
  let part := fun (r a : Int) (b : Int) => Int.fdiv (r * a) b
  let w : Int :=
    if need ≤ row then c.need + part (row - need : Nat) ((c.budget : Int) - c.need) ((sum (·.budget) : Int) - need)
    else if fixed ≤ row then c.fixed + part (row - fixed : Nat) ((c.need : Int) - c.fixed) ((need : Int) - fixed)
    else part row c.budget (sum (·.budget))
  (min w c.budget).toNat
/-- The demands of the positions on this arc, the master's own among them (R125, R162, R164). -/
def arcDemands (s : State) : List (Nat × (Nat × Demand)) := s.lv.demands.filter fun p => p.1 == posOf s || onArc s p.1
/-- The shares of the positions whose demands the master has (SHARE_COMPUTE). -/
def shares (s : State) : List (Nat × Nat) :=
  let cs := (arcDemands s).map fun p => (p.1, claimOf s.now p.2)
  let all := (cs.map fun p => p.2.budget).sum
  let row := if s.kt.rowBudget == 0 then all else min s.kt.rowBudget all
  cs.map fun p => (p.1, shareOf row (cs.map (·.2)) p.2)
/-- A share is to be sent (R163): a higher one no sooner than 100 ms after the last higher one. -/
def shareDue (s : State) (pos w : Nat) : Bool :=
  match s.lv.shares.find pos with
  | none => true
  | some (old, t) =>
    if w < old then decide (w + 1000 ≤ old) else decide (old + 1000 ≤ w) && (t == 0 || decide (t + 100000 ≤ s.now))
/-- A sent share noted with the time of the latest rise, 0 for none; the partner holds it too (R17, R128). -/
def noteShare (pos w : Nat) (s : State) : State :=
  let t := match s.lv.shares.find pos with
    | some (old, t) => if old < w then s.now else t
    | none => 0
  tellPartner (.share pos w t) (s.onLv fun l => { l with shares := l.shares.set pos (w, t) })
/-- ROW_SHARE_SEND to one position; the master's own comes through its own M5. -/
def sendShare (pos w : Nat) (s : State) : State :=
  let body := leBytes 4 w ++ leBytes 4 s.spn.gen ++ leBytes 8 (s.ep.tick + 2)
  if pos == posOf s then
    if (mbxOf s 5).busy then s
    else
      let n := s.spn.shareSeq + 1
      let s := noteShare pos w (s.onSpn fun p => { p with shareSeq := n })
      count 0x2A5 (onBox 5 (fun b =>
        { b with window := Mem.writeN [] 0 (recordBytes 0x0107 (mkCw 5 n) body), busy := true }) s)
  else if (leadAddr s pos).isSome then noteShare pos w (masterSend 0x0107 body pos s) else s
/-- The broker at a row tick. -/
def tickBroker (s : State) : State :=
  if !isMaster s then s
  else (shares s).foldl (fun s p => if shareDue s p.1 p.2 then sendShare p.1 p.2 s else s) s

/-! ## The pair at a tick (R131, R135, R138) -/

/-- SWITCH_BACK_HANDOVER: the acting Lead sends its final image and defers leave; at the following tick the Shadow takes
over. -/
def tickSwitch (s : State) : State :=
  if s.pair.switch == 1 && s.pair.lead && attached s then
    let ten := s.keep.ten
    sendPair (.lease (.final ten)) (s.onPair fun p => { p with
      switch := 2, tenWait := some (p.tenWait.getD ten), ackWait := some (s.now + 500) })
  else if s.pair.switch == 2 && !s.pair.lead then takeover false s.keep.ten s
  else s
/-- The releases of R131 may begin. -/
def tickSilent (s : State) : State :=
  let p := s.pair
  if p.silent.isSome && p.silentAt == 0 && p.lead && s.lv.table.isSome &&
      ((p.heard && p.hb.state == 1 && !p.hb.lead) || decide (p.heardAt + 10000000 ≤ s.now)) then
    s.onPair fun p => { p with silentAt := s.now }
  else s
/-- MODEL_COMPARISON of the tick before, and this tick's digest. -/
def tickDigest (s : State) : State :=
  let s := compareModel s
  if attached s && !s.pair.lead then s.onPair fun p => { p with myDigest := resultDigest s } else s

/-- A pass begins at each 100 ms of ticks and with an URGENT harbour set (R321); the first after a takeover at a 100 ms tick
(R327). -/
def tickPass (urgent : Bool) (s : State) : State :=
  if s.ep.tick % 10 == 0 then beginPass ((checkStale s).onPln fun p => { p with took := false })
  else if urgent && !s.pln.took then beginPass (checkStale s)
  else checkStale s

/-- A quire half is on and ready: IDLE or RUNNING (Table 11-10). -/
def halfReady (s : State) (h : Nat) : Bool := halfOf s h == .idle || halfOf s h == .running
/-- Steps 2 to 7 of Table 03-9 have finished: a heartbeat has come, STORE and both quire halves are on, and each
CONFIG_EPOCH_SET of the journal is prepared. -/
def startedUp (s : State) : Bool :=
  s.drv.beat.isSome && s.pwr.store == .on && halfReady s 0 && halfReady s 1 && s.ep.pend.all (·.ready) &&
  s.jr.entries.all fun e => e.op != 0x0400 || e.state == .done || e.state == .tentative || (e.applied && e.state == .pending)
/-- CYCLE_TICK. The first since a BIND reset does not come before step 7 of R79 has finished. -/
def doCycleTick (s : State) : State :=
  if !running s || !(s.ep.ticked || startedUp s) then s else
  let r := switchTables (tickSwitch (enterTick s))
  let s := takeSnapshot (tickQueue (tickDigest r.2))
  let s := tickPass r.1 (tickSilent (newCycle (tickCkpt (tickQuires s))))
  tickBroker ((sendDemand s).onLv fun l => { l with waiting := 0 })

/-- CYCLE_TICK. -/
def execCycleTick (s : State) : Host.Outcome State Fault Refusal := .next (doCycleTick s)

end Sys2Proof.Machine
end

