-- ==== Sys2Proof/Machine/Dispatch.lean ====
section
/-! DEFINITION. Machine/Dispatch.lean: one arm per command. -/

namespace Sys2Proof.Machine

/-- What a command does to everything but the queue. -/
def exec (i : Instr) (s : State) : Host.Outcome State Fault Refusal :=
  match i with
  | .keepPorRelease intact => Sys2Proof.Machine.execKeepPorRelease intact s
  | .keepTableReadDone => Sys2Proof.Machine.execKeepTableReadDone s
  | .vkeepFall => Sys2Proof.Machine.execVkeepFall s
  | .hourMeterSave => Sys2Proof.Machine.execHourMeterSave s
  | .railLoss => Sys2Proof.Machine.execRailLoss s
  | .railsGood => Sys2Proof.Machine.execRailsGood s
  | .bindResetRelease straps catchOk => Sys2Proof.Machine.execBindResetRelease straps catchOk s
  | .fieldPowerUp => Sys2Proof.Machine.execFieldPowerUp s
  | .fieldResetRelease => Sys2Proof.Machine.execFieldResetRelease s
  | .sysRstNLow => Sys2Proof.Machine.execSysRstNLow s
  | .spnHandoffExpiry => Sys2Proof.Machine.execSpnHandoffExpiry s
  | .lockstepMismatch => Sys2Proof.Machine.execLockstepMismatch s
  | .binderWatchdogExpiry => Sys2Proof.Machine.execBinderWatchdogExpiry s
  | .xinLoss => Sys2Proof.Machine.execXinLoss s
  | .xinReturn => Sys2Proof.Machine.execXinReturn s
  | .fclkSwitchBack => Sys2Proof.Machine.execFclkSwitchBack s
  | .kxinCrystalFail => Sys2Proof.Machine.execKxinCrystalFail s
  | .kxinCrystalRun => Sys2Proof.Machine.execKxinCrystalRun s
  | .dieOvertemp temp => Sys2Proof.Machine.execDieOvertemp temp s
  | .dieTempReturn peak => Sys2Proof.Machine.execDieTempReturn peak s
  | .perstAssert => Sys2Proof.Machine.execPerstAssert s
  | .perstRelease => Sys2Proof.Machine.execPerstRelease s
  | .trstNAssert => Sys2Proof.Machine.execTrstNAssert s
  | .pcieLinkDown => Sys2Proof.Machine.execPcieLinkDown s
  | .hostLinkL0 => Sys2Proof.Machine.execHostLinkL0 s
  | .storeSwitchOn => Sys2Proof.Machine.execStoreSwitchOn s
  | .storeReady => Sys2Proof.Machine.execStoreReady s
  | .storeSwitchOff => Sys2Proof.Machine.execStoreSwitchOff s
  | .quireHalfSwitchOn half => Sys2Proof.Machine.execQuireHalfSwitchOn half s
  | .quireHalfReady half => Sys2Proof.Machine.execQuireHalfReady half s
  | .quireHalfSwitchOff half => Sys2Proof.Machine.execQuireHalfSwitchOff half s
  | .mbxBootStart list => Sys2Proof.Machine.execMbxBootStart list s
  | .mbxBootAbort => Sys2Proof.Machine.execMbxBootAbort s
  | .bootDmaCompletion c => Sys2Proof.Machine.execBootDmaCompletion c s
  | .bootCheckDone us => Sys2Proof.Machine.execBootCheckDone us s
  | .bootFailedReturn => Sys2Proof.Machine.execBootFailedReturn s
  | .netbootSolicit => Sys2Proof.Machine.execNetbootSolicit s
  | .netbootOffer port src dst type frame => Sys2Proof.Machine.execNetbootOffer port src dst type frame s
  | .netbootData port src type frame => Sys2Proof.Machine.execNetbootData port src type frame s
  | .netbootRequestTimeout => Sys2Proof.Machine.execNetbootRequestTimeout s
  | .netbootCancel port hdr frame => Sys2Proof.Machine.execNetbootCancel port hdr frame s
  | .mgmtLinkLoss port => Sys2Proof.Machine.execMgmtLinkLoss port s
  | .netbootEligible => Sys2Proof.Machine.execNetbootEligible s
  | .firmwareRunning found => Sys2Proof.Machine.execFirmwareRunning found s
  | .binderHeartbeat => Sys2Proof.Machine.execBinderHeartbeat s
  | .binderSilent => Sys2Proof.Machine.execBinderSilent s
  | .resetExecute => Sys2Proof.Machine.execResetExecute s
  | .mbxDoorbell m => Sys2Proof.Machine.execMbxDoorbell m s
  | .mbxCopyOut m jok => Sys2Proof.Machine.execMbxCopyOut m jok s
  | .mbxRspCi m ci => Sys2Proof.Machine.execMbxRspCi m ci s
  | .responseWrite m => Sys2Proof.Machine.execResponseWrite m s
  | .registerWrite off val => Sys2Proof.Machine.execRegisterWrite off val s
  | .tlsConnect port hello => Sys2Proof.Machine.execTlsConnect port hello s
  | .tlsDisconnect port => Sys2Proof.Machine.execTlsDisconnect port s
  | .seqQuery h body => Sys2Proof.Machine.execSeqQuery h body s
  | .nonceGet h body => Sys2Proof.Machine.execNonceGet h body s
  | .resultGet h body => Sys2Proof.Machine.execResultGet h body s
  | .statusGet h body => Sys2Proof.Machine.execStatusGet h body s
  | .objectStage h body => Sys2Proof.Machine.execObjectStage h body s
  | .stageDmaDone list data => Sys2Proof.Machine.execStageDmaDone list data s
  | .leaveRequest h body => Sys2Proof.Machine.execLeaveRequest h body s
  | .leaveReturn h body => Sys2Proof.Machine.execLeaveReturn h body s
  | .leaseRead h body => Sys2Proof.Machine.execLeaseRead h body s
  | .sensorRead h body => Sys2Proof.Machine.execSensorRead h body s
  | .logRead h body => Sys2Proof.Machine.execLogRead h body s
  | .pmcRead h body => Sys2Proof.Machine.execPmcRead h body s
  | .inventoryRead h body => Sys2Proof.Machine.execInventoryRead h body s
  | .spineHealthGet h body => Sys2Proof.Machine.execSpineHealthGet h body s
  | .tlsKeyGet h body => Sys2Proof.Machine.execTlsKeyGet h body s
  | .trayStart h body => Sys2Proof.Machine.execTrayStart h body s
  | .authLockoutEnd src => Sys2Proof.Machine.execAuthLockoutEnd src s
  | .trayStop h body => Sys2Proof.Machine.execTrayStop h body s
  | .trayStopDelay tray => Sys2Proof.Machine.execTrayStopDelay tray s
  | .trayCapSet h body => Sys2Proof.Machine.execTrayCapSet h body s
  | .permitSet h body => Sys2Proof.Machine.execPermitSet h body s
  | .holdSet h body => Sys2Proof.Machine.execHoldSet h body s
  | .holdEnd tray => Sys2Proof.Machine.execHoldEnd tray s
  | .budgetSet h body => Sys2Proof.Machine.execBudgetSet h body s
  | .rowBudgetSet h body => Sys2Proof.Machine.execRowBudgetSet h body s
  | .rowShareSet h body => Sys2Proof.Machine.execRowShareSet h body s
  | .staggerSet h body => Sys2Proof.Machine.execStaggerSet h body s
  | .tripRelease h body => Sys2Proof.Machine.execTripRelease h body s
  | .tripReleaseWindowEnd => Sys2Proof.Machine.execTripReleaseWindowEnd s
  | .leakMask h body => Sys2Proof.Machine.execLeakMask h body s
  | .kettleRouteSet h body => Sys2Proof.Machine.execKettleRouteSet h body s
  | .tripProof h body => Sys2Proof.Machine.execTripProof h body s
  | .proofSourceStep passed => Sys2Proof.Machine.execProofSourceStep passed s
  | .keeperTableSet h body => Sys2Proof.Machine.execKeeperTableSet h body s
  | .pwmParamApply pump => Sys2Proof.Machine.execPwmParamApply pump s
  | .belowFloorLease h body => Sys2Proof.Machine.execBelowFloorLease h body s
  | .belowFloorEnd fan index => Sys2Proof.Machine.execBelowFloorEnd fan index s
  | .setpointRequest h body => Sys2Proof.Machine.execSetpointRequest h body s
  | .actuatorConfig h body => Sys2Proof.Machine.execActuatorConfig h body s
  | .actuatorConfigTimeout addr => Sys2Proof.Machine.execActuatorConfigTimeout addr s
  | .canConfig h body => Sys2Proof.Machine.execCanConfig h body s
  | .afeConfig h body => Sys2Proof.Machine.execAfeConfig h body s
  | .configEpochSet h body => Sys2Proof.Machine.execConfigEpochSet h body s
  | .modelLoad h body => Sys2Proof.Machine.execModelLoad h body s
  | .regionSet h body => Sys2Proof.Machine.execRegionSet h body s
  | .spillConfig h body => Sys2Proof.Machine.execSpillConfig h body s
  | .lpddrTrainingDone ok channel step => Sys2Proof.Machine.execLpddrTrainingDone ok channel step s
  | .rebind h body => Sys2Proof.Machine.execRebind h body s
  | .goldenStore h body => Sys2Proof.Machine.execGoldenStore h body s
  | .goldenWriteDone ok => Sys2Proof.Machine.execGoldenWriteDone ok s
  | .tagWrite h body => Sys2Proof.Machine.execTagWrite h body s
  | .tagWriteRetry => Sys2Proof.Machine.execTagWriteRetry s
  | .tagWriteTimeout => Sys2Proof.Machine.execTagWriteTimeout s
  | .switchBack h body => Sys2Proof.Machine.execSwitchBack h body s
  | .pairSync h body => Sys2Proof.Machine.execPairSync h body s
  | .spineConfig h body => Sys2Proof.Machine.execSpineConfig h body s
  | .logClear h body => Sys2Proof.Machine.execLogClear h body s
  | .logFreeze h body => Sys2Proof.Machine.execLogFreeze h body s
  | .freezeExpiry => Sys2Proof.Machine.execFreezeExpiry s
  | .pmcConfig h body => Sys2Proof.Machine.execPmcConfig h body s
  | .keySet h body => Sys2Proof.Machine.execKeySet h body s
  | .keyRevoke h body => Sys2Proof.Machine.execKeyRevoke h body s
  | .rollbackAdvance h body => Sys2Proof.Machine.execRollbackAdvance h body s
  | .reset h body => Sys2Proof.Machine.execReset h body s
  | .wakeConfig h body => Sys2Proof.Machine.execWakeConfig h body s
  | .tlsSet h body => Sys2Proof.Machine.execTlsSet h body s
  | .commandEffect => Sys2Proof.Machine.execCommandEffect s
  | .mirrorAckFrame f jseq => Sys2Proof.Machine.execMirrorAckFrame f jseq s
  | .mirrorTimeout jseq => Sys2Proof.Machine.execMirrorTimeout jseq s
  | .mirrorFrame f e => Sys2Proof.Machine.execMirrorFrame f e s
  | .evrCi val => Sys2Proof.Machine.execEvrCi val s
  | .eventBacklogDrain => Sys2Proof.Machine.execEventBacklogDrain s
  | .evrDroppedRead => Sys2Proof.Machine.execEvrDroppedRead s
  | .wakeCausePublish => Sys2Proof.Machine.execWakeCausePublish s
  | .formSend => Sys2Proof.Machine.execFormSend s
  | .formFrame f e => Sys2Proof.Machine.execFormFrame f e s
  | .censusEntrySilent serial => Sys2Proof.Machine.execCensusEntrySilent serial s
  | .censusSettled => Sys2Proof.Machine.execCensusSettled s
  | .formedFrame f gen digest firstTick => Sys2Proof.Machine.execFormedFrame f gen digest firstTick s
  | .timeSend => Sys2Proof.Machine.execTimeSend s
  | .timeFrame f p => Sys2Proof.Machine.execTimeFrame f p s
  | .timeTimeout => Sys2Proof.Machine.execTimeTimeout s
  | .arcRejoin => Sys2Proof.Machine.execArcRejoin s
  | .echoMeasure lane => Sys2Proof.Machine.execEchoMeasure lane s
  | .echoFrame f rtt => Sys2Proof.Machine.execEchoFrame f rtt s
  | .heartbeatSend => Sys2Proof.Machine.execHeartbeatSend s
  | .heartbeatFrame f h => Sys2Proof.Machine.execHeartbeatFrame f h s
  | .heartbeatMissed => Sys2Proof.Machine.execHeartbeatMissed s
  | .loneCheckExpiry => Sys2Proof.Machine.execLoneCheckExpiry s
  | .silentRelease => Sys2Proof.Machine.execSilentRelease s
  | .tripMirrorSend => Sys2Proof.Machine.execTripMirrorSend s
  | .tripFrame f trips leaks folio => Sys2Proof.Machine.execTripFrame f trips leaks folio s
  | .breakFrame f addr west => Sys2Proof.Machine.execBreakFrame f addr west s
  | .boundaryFrame f part tick elem vals => Sys2Proof.Machine.execBoundaryFrame f part tick elem vals s
  | .demandFrame f d => Sys2Proof.Machine.execDemandFrame f d s
  | .relayFrame f data => Sys2Proof.Machine.execRelayFrame f data s
  | .relayAckSend => Sys2Proof.Machine.execRelayAckSend s
  | .relayAckFrame f fseq => Sys2Proof.Machine.execRelayAckFrame f fseq s
  | .relayResend => Sys2Proof.Machine.execRelayResend s
  | .leaseFrame f m => Sys2Proof.Machine.execLeaseFrame f m s
  | .snapshotFrame f words digest => Sys2Proof.Machine.execSnapshotFrame f words digest s
  | .bulkFrame f m => Sys2Proof.Machine.execBulkFrame f m s
  | .laneDown lane => Sys2Proof.Machine.execLaneDown lane s
  | .laneUp lane => Sys2Proof.Machine.execLaneUp lane s
  | .bypassInsert => Sys2Proof.Machine.execBypassInsert s
  | .portInsertTimeout => Sys2Proof.Machine.execPortInsertTimeout s
  | .portInsertRetry => Sys2Proof.Machine.execPortInsertRetry s
  | .lrefclkLoss => Sys2Proof.Machine.execLrefclkLoss s
  | .lrefclkGood => Sys2Proof.Machine.execLrefclkGood s
  | .journalCheck leadDigest => Sys2Proof.Machine.execJournalCheck leadDigest s
  | .partnerCanPoll ans => Sys2Proof.Machine.execPartnerCanPoll ans s
  | .canPairDownFault => Sys2Proof.Machine.execCanPairDownFault s
  | .cycleTick => Sys2Proof.Machine.execCycleTick s
  | .leaveTableStale => Sys2Proof.Machine.execLeaveTableStale s
  | .cycleCompletionWrite q c ecc => Sys2Proof.Machine.execCycleCompletionWrite q c ecc s
  | .checkpointWriteDone ok => Sys2Proof.Machine.execCheckpointWriteDone ok s
  | .leaseExpiry id => Sys2Proof.Machine.execLeaseExpiry id s
  | .allowanceFall id => Sys2Proof.Machine.execAllowanceFall id s
  | .trayPoll tray r => Sys2Proof.Machine.execTrayPoll tray r s
  | .agentSilence tray => Sys2Proof.Machine.execAgentSilence tray s
  | .agentLost tray => Sys2Proof.Machine.execAgentLost tray s
  | .agentSetdasaRetry tray ack desc => Sys2Proof.Machine.execAgentSetdasaRetry tray ack desc s
  | .i3cIbi tray mdb data => Sys2Proof.Machine.execI3cIbi tray mdb data s
  | .staggerSlot => Sys2Proof.Machine.execStaggerSlot s
  | .staggerDeferRetry => Sys2Proof.Machine.execStaggerDeferRetry s
  | .trayStartTimeout tray => Sys2Proof.Machine.execTrayStartTimeout tray s
  | .kettleTrip src reading => Sys2Proof.Machine.execKettleTrip src reading s
  | .tripImageSave => Sys2Proof.Machine.execTripImageSave s
  | .foreignTrip tray => Sys2Proof.Machine.execForeignTrip tray s
  | .foreignCauseClear tray => Sys2Proof.Machine.execForeignCauseClear tray s
  | .ropeLocationMeasure n => Sys2Proof.Machine.execRopeLocationMeasure n s
  | .ropeMeasureDone n va vb vs => Sys2Proof.Machine.execRopeMeasureDone n va vb vs s
  | .leakStuck src => Sys2Proof.Machine.execLeakStuck src s
  | .leakChatter src => Sys2Proof.Machine.execLeakChatter src s
  | .leakOpen src => Sys2Proof.Machine.execLeakOpen src s
  | .leakConditionClear src flag => Sys2Proof.Machine.execLeakConditionClear src flag s
  | .sdSampleWord ch x overload excOk => Sys2Proof.Machine.execSdSampleWord ch x overload excOk s
  | .sarConversion ch code => Sys2Proof.Machine.execSarConversion ch code s
  | .pulseEdge ch period edge => Sys2Proof.Machine.execPulseEdge ch period edge s
  | .pulseTimeout ch => Sys2Proof.Machine.execPulseTimeout ch s
  | .burnoutTest ch x => Sys2Proof.Machine.execBurnoutTest ch x s
  | .refCheck ok => Sys2Proof.Machine.execRefCheck ok s
  | .samplePageCopy => Sys2Proof.Machine.execSamplePageCopy s
  | .pumpCurrentLoop p => Sys2Proof.Machine.execPumpCurrentLoop p s
  | .pumpSpeedLoop n speed => Sys2Proof.Machine.execPumpSpeedLoop n speed s
  | .encoderAlignDone n => Sys2Proof.Machine.execEncoderAlignDone n s
  | .driverFault n => Sys2Proof.Machine.execDriverFault n s
  | .pumpStall n => Sys2Proof.Machine.execPumpStall n s
  | .pumpPositionFault n => Sys2Proof.Machine.execPumpPositionFault n s
  | .pumpOverspeed n => Sys2Proof.Machine.execPumpOverspeed n s
  | .pumpRetryRestart n => Sys2Proof.Machine.execPumpRetryRestart n s
  | .hwTableStep => Sys2Proof.Machine.execHwTableStep s
  | .trajectoryPoint => Sys2Proof.Machine.execTrajectoryPoint s
  | .floorLate elem => Sys2Proof.Machine.execFloorLate elem s
  | .fanStall f => Sys2Proof.Machine.execFanStall f s
  | .valveFeedbackSample v uV => Sys2Proof.Machine.execValveFeedbackSample v uV s
  | .valveLoopFault v open_ set => Sys2Proof.Machine.execValveLoopFault v open_ set s
  | .canFrameRx ch frame => Sys2Proof.Machine.execCanFrameRx ch frame s
  | .canFrameTxDone ch loopMeas => Sys2Proof.Machine.execCanFrameTxDone ch loopMeas s
  | .canPeriodicTx ch idx => Sys2Proof.Machine.execCanPeriodicTx ch idx s
  | .basicCycleStart ch => Sys2Proof.Machine.execBasicCycleStart ch s
  | .referenceMessageRx ch id count => Sys2Proof.Machine.execReferenceMessageRx ch id count s
  | .timeMasterResume ch => Sys2Proof.Machine.execTimeMasterResume ch s
  | .canErrorStateChange ch passive => Sys2Proof.Machine.execCanErrorStateChange ch passive s
  | .canBusOff ch => Sys2Proof.Machine.execCanBusOff ch s
  | .canRecoveryRequest ch => Sys2Proof.Machine.execCanRecoveryRequest ch s
  | .canRecoveryDone ch => Sys2Proof.Machine.execCanRecoveryDone ch s
  | .canBackoffReset ch => Sys2Proof.Machine.execCanBackoffReset ch s
  | .canWakePulse ch width => Sys2Proof.Machine.execCanWakePulse ch width s
  | .listenEnd ch => Sys2Proof.Machine.execListenEnd ch s
  | .actuatorStatus ch addr st => Sys2Proof.Machine.execActuatorStatus ch addr st s
  | .epochAnnounceSeen ch pos epoch => Sys2Proof.Machine.execEpochAnnounceSeen ch pos epoch s
  | .epochAnnounceSend => Sys2Proof.Machine.execEpochAnnounceSend s
  | .epochBurst => Sys2Proof.Machine.execEpochBurst s
  | .actuatorSilent addr => Sys2Proof.Machine.execActuatorSilent addr s
  | .nop q c ecc => Sys2Proof.Machine.execNop q c ecc s
  | .halt q c ecc => Sys2Proof.Machine.execHalt q c ecc s
  | .jump q c ecc => Sys2Proof.Machine.execJump q c ecc s
  | .loop q c ecc => Sys2Proof.Machine.execLoop q c ecc s
  | .fence q c ecc => Sys2Proof.Machine.execFence q c ecc s
  | .tickwait q c ecc => Sys2Proof.Machine.execTickwait q c ecc s
  | .copy q c ecc => Sys2Proof.Machine.execCopy q c ecc s
  | .fill q c ecc => Sys2Proof.Machine.execFill q c ecc s
  | .gather q c ecc => Sys2Proof.Machine.execGather q c ecc s
  | .scatter q c ecc => Sys2Proof.Machine.execScatter q c ecc s
  | .qpush q c ecc => Sys2Proof.Machine.execQpush q c ecc s
  | .qpop q c ecc => Sys2Proof.Machine.execQpop q c ecc s
  | .convert q c ecc => Sys2Proof.Machine.execConvert q c ecc s
  | .transpose q c ecc => Sys2Proof.Machine.execTranspose q c ecc s
  | .add q c ecc => Sys2Proof.Machine.execAdd q c ecc s
  | .sub q c ecc => Sys2Proof.Machine.execSub q c ecc s
  | .mul q c ecc => Sys2Proof.Machine.execMul q c ecc s
  | .fma q c ecc => Sys2Proof.Machine.execFma q c ecc s
  | .div q c ecc => Sys2Proof.Machine.execDiv q c ecc s
  | .min q c ecc => Sys2Proof.Machine.execMin q c ecc s
  | .max q c ecc => Sys2Proof.Machine.execMax q c ecc s
  | .abs q c ecc => Sys2Proof.Machine.execAbs q c ecc s
  | .sqrt q c ecc => Sys2Proof.Machine.execSqrt q c ecc s
  | .rsqrt q c ecc => Sys2Proof.Machine.execRsqrt q c ecc s
  | .exp q c ecc => Sys2Proof.Machine.execExp q c ecc s
  | .log q c ecc => Sys2Proof.Machine.execLog q c ecc s
  | .scale q c ecc => Sys2Proof.Machine.execScale q c ecc s
  | .clamp q c ecc => Sys2Proof.Machine.execClamp q c ecc s
  | .select q c ecc => Sys2Proof.Machine.execSelect q c ecc s
  | .interp q c ecc => Sys2Proof.Machine.execInterp q c ecc s
  | .redsum q c ecc => Sys2Proof.Machine.execRedsum q c ecc s
  | .redmax q c ecc => Sys2Proof.Machine.execRedmax q c ecc s
  | .redmin q c ecc => Sys2Proof.Machine.execRedmin q c ecc s
  | .argmax q c ecc => Sys2Proof.Machine.execArgmax q c ecc s
  | .matmul q c ecc => Sys2Proof.Machine.execMatmul q c ecc s
  | .spmv q c ecc => Sys2Proof.Machine.execSpmv q c ecc s
  | .descWaitPass q c => Sys2Proof.Machine.execDescWaitPass q c s
  | .queueStallRelease q c ecc => Sys2Proof.Machine.execQueueStallRelease q c ecc s
  | .scrubPass slice corrections bad => Sys2Proof.Machine.execScrubPass slice corrections bad s
  | .epochPrepDone ok => Sys2Proof.Machine.execEpochPrepDone ok s
  | .preloadDone => Sys2Proof.Machine.execPreloadDone s
  | .epochReadyPoll answers => Sys2Proof.Machine.execEpochReadyPoll answers s
  | .epochLapse => Sys2Proof.Machine.execEpochLapse s
  | .boundarySlotSend elem => Sys2Proof.Machine.execBoundarySlotSend elem s
  | .boundaryDeadline => Sys2Proof.Machine.execBoundaryDeadline s
  | .modelRestoreDone => Sys2Proof.Machine.execModelRestoreDone s
  | .verifyPassDone r => Sys2Proof.Machine.execVerifyPassDone r s
  | .verifyPassDeadline => Sys2Proof.Machine.execVerifyPassDeadline s
  | .harbourSetStale => Sys2Proof.Machine.execHarbourSetStale s
  | .planDone r => Sys2Proof.Machine.execPlanDone r s
  | .spliceTime => Sys2Proof.Machine.execSpliceTime s
  | .leaveSegmentTimeout => Sys2Proof.Machine.execLeaveSegmentTimeout s
  | .goldenScrub slot ok => Sys2Proof.Machine.execGoldenScrub slot ok s
  | .rebindVerifyDone ok => Sys2Proof.Machine.execRebindVerifyDone ok s
  | .rebindProgramDone => Sys2Proof.Machine.execRebindProgramDone s
  | .rebindReadbackDone same => Sys2Proof.Machine.execRebindReadbackDone same s
  | .rebindAgentTimeout => Sys2Proof.Machine.execRebindAgentTimeout s
  | .rebindBoundExpiry => Sys2Proof.Machine.execRebindBoundExpiry s
  | .tagInventoryWrite => Sys2Proof.Machine.execTagInventoryWrite s
  | .tagWiredSwap => Sys2Proof.Machine.execTagWiredSwap s
  | .tagWiredBusy => Sys2Proof.Machine.execTagWiredBusy s
  | .tagRfPoll => Sys2Proof.Machine.execTagRfPoll s
  | .rfInventory maskLen mask => Sys2Proof.Machine.execRfInventory maskLen mask s
  | .rfStayQuiet uid => Sys2Proof.Machine.execRfStayQuiet uid s
  | .rfSelect uid => Sys2Proof.Machine.execRfSelect uid s
  | .rfResetToReady uid => Sys2Proof.Machine.execRfResetToReady uid s
  | .rfGetSystemInformation => Sys2Proof.Machine.execRfGetSystemInformation s
  | .rfReadSingleBlock blk => Sys2Proof.Machine.execRfReadSingleBlock blk s
  | .rfReadMultipleBlocks first count => Sys2Proof.Machine.execRfReadMultipleBlocks first count s
  | .rfWriteSingleBlock blk data => Sys2Proof.Machine.execRfWriteSingleBlock blk data s
  | .rfGetBlockSecurity first count => Sys2Proof.Machine.execRfGetBlockSecurity first count s
  | .folioCommit => Sys2Proof.Machine.execFolioCommit s
  | .summarySample => Sys2Proof.Machine.execSummarySample s
  | .summaryWrite => Sys2Proof.Machine.execSummaryWrite s
  | .logDropped => Sys2Proof.Machine.execLogDropped s
  | .dumpInstant => Sys2Proof.Machine.execDumpInstant s
  | .pduValueLowRead n => Sys2Proof.Machine.execPduValueLowRead n s
  | .pduSkippedRead => Sys2Proof.Machine.execPduSkippedRead s
  | .leakInputClear src => Sys2Proof.Machine.execLeakInputClear src s
  | .pcieDStateChange cfg => Sys2Proof.Machine.execPcieDStateChange cfg s
  | .internalLeaveRetry id => Sys2Proof.Machine.execInternalLeaveRetry id s
  | .leaseAckTimeout => Sys2Proof.Machine.execLeaseAckTimeout s
  | .proofIntervalExpiry => Sys2Proof.Machine.execProofIntervalExpiry s

end Sys2Proof.Machine
end

