-- ==== Sys2Proof/Machine/Outputs.lean ====
section
/-! DEFINITION. Machine/Outputs.lean: the levels of the balls (Tables 02-8, 05-4, 05-7) and the registers that the host
reads (Tables 03-5, 04-2, 04-12, 15-8), as views of State. -/

namespace Sys2Proof.Machine

/-- What a ball drives (Table 02-8): a level, nothing without its supply or under the keep power-on reset, electrical idle,
or what its unit sends. -/
inductive Level where
  | low
  | high
  | z
  | undriven
  | idle
  | live
  deriving DecidableEq, Repr
/-- What a ball with a pulse width or a DAC drives: a level, or a number of steps. -/
inductive Drives where
  | level (l : Level)
  | steps (n : Nat)
  deriving DecidableEq, Repr

/-- A ball outside the keep domain (Table 02-8): undriven under the keep power-on reset; `off` governs while FIELD is off or in
reset, `keep` in keeper mode, and `run` else. -/
def fieldBall (s : State) (off keep run : Level) : Level :=
  if s.keep.por then .undriven else if !fieldOn s then off else if keeper s then keep else run
/-- A ball of BIND or STORE, which FIELD leaves unchanged. -/
def bindBall (s : State) (keep run : Level) : Level := if s.keep.por then .undriven else if keeper s then keep else run
/-- An open-drain ball of the keep domain. -/
def keepDrain (s : State) (on : Bool) : Level := if s.keep.por || !on then .z else .low
/-- TRIPt (R170, R173). -/
def tripOut (s : State) (t : Nat) : Level := keepDrain s (tripDriven s t)
/-- CAPDNt (R154, R170). -/
def capdnOut (s : State) (t : Nat) : Level := keepDrain s (capdnLow s t)
/-- TENt (R58, R60, R133): the image, at a board that drives TEN. -/
def tenOut (s : State) (t : Nat) : Level := if !drivesTen s then .z else if bit16 s.keep.ten t then .high else .low
/-- TCH_OUT (R170). -/
def tchOut (s : State) : Level := keepDrain s (tchOutLow s)
/-- BYP_E (Table 05-4): low while released. -/
def bypEOut (s : State) : Level := if running s && s.spn.insert != .out then .low else .z
/-- BYP_W (Table 05-4). -/
def bypWOut (s : State) : Level := if running s && (s.spn.insert == .west || s.spn.insert == .in_) then .low else .z
/-- WAKE# (R109). -/
def wakeOut (s : State) : Level := keepDrain s s.keep.wakePin
/-- PGENn (Table 02-8): high while the driver is enabled. -/
def pgenOut (s : State) (n : Nat) : Level :=
  let l : Level := if (pumpOf s n).driven then .high else .low
  fieldBall s .low l l
/-- The high-side and low-side pulses of a phase of PUMPn in fine steps (R209): both balls low where the pump is not driven,
and before its first PWM edge. -/
def pwmOut (s : State) (n k : Nat) : Option (Nat × Nat) :=
  let p := pumpOf s n
  if s.keep.por then none
  else if !fieldOn s || !p.driven || s.now < p.edgeFrom then some (0, 0)
  else let h := p.duty.getD k 0; some (h, lowPulse p.hz p.dead h)
/-- FPWMf (R59, R214): the steps of 5 ns of each 40 µs for which the ball is high-impedance; it is so throughout at 100 %, for
an unused fan, and while FIELD is off or in reset. -/
def fpwmOut (s : State) (f : Nat) : Drives :=
  let n := (quot ((fanOf s f).duty * 8) 1000).toNat
  if s.keep.por then .level .undriven
  else if !fieldOn s || !(fanOf s f).on || 8000 ≤ n then .level .z
  else .steps n
/-- The DAC code at VLPv; 0 V while FIELD is off or in reset. -/
def vlpOut (s : State) (v : Nat) : Drives :=
  if s.keep.por then .level .undriven else .steps (if fieldOn s then vlpCode s v else 0)
/-- CTXn (R241, R251): recessive in keeper mode, while FIELD is off, and in RESET and SLEEP. -/
def ctxOut (s : State) (c : Nat) : Level := fieldBall s .high .high (if (canOf s c).joins then .live else .high)
/-- CSTBn (R241, R251): high while the channel is in RESET or SLEEP. -/
def cstbOut (s : State) (c : Nat) : Level :=
  fieldBall s .high .high (if (canOf s c).st == .reset || (canOf s c).st == .sleep then .high else .low)
/-- TFSt (R342): high while the tray's flash is selected. -/
def tfsOut (s : State) (t : Nat) : Level := fieldBall s .low .low (if s.stw.tfs == some t then .high else .low)
/-- QCS0 and QCS1: deselected but for what the flash engines select. -/
def qcsOut (s : State) : Level := fieldBall s .high .high .live
/-- SCL and SDA of the I3C buses. -/
def i3cOut (s : State) : Level := fieldBall s .z .z .live
/-- The PCIe transmitters: in electrical idle until BIND runs, for the boot ROM trains the link. -/
def pcieTx (s : State) : Level := if s.keep.por || s.pwr.bind != .on then .idle else .live
/-- The Spine and pair-link transmitters. -/
def laneTx (s : State) : Level := if s.keep.por || keeper s then .idle else .live
/-- TXD, TX_CTL and TXC of a management port and MDC: low in keeper mode, but for a netboot. -/
def rgmiiOut (s : State) (port : Nat) : Level :=
  bindBall s (if s.pwr.bind == .on && s.boot.state != .failed && s.boot.source == 2 && s.boot.port == port then .live else .low) .live
/-- UTX. -/
def utxOut (s : State) : Level := bindBall s .high .live
/-- TDO. -/
def tdoOut (s : State) : Level := bindBall s .z .live
/-- LP_RESET_N: low in keeper mode and while STORE is off. -/
def lpResetOut (s : State) : Level := bindBall s .low (if s.pwr.store == .on then .live else .low)

/-- MBX_STAT of a mailbox (Table 04-2). -/
def mbxStat (s : State) (m : Nat) : Nat :=
  let n := (s.jr.entries.filter fun e => isOpen e && e.state != .tentative && e.mbx == m).length
  (isOpenBox s).toNat + 2 * (mbxOf s m).busy.toNat + 256 * (if running s then n else 0)
/-- MBX_ERR of a mailbox. -/
def mbxErr (s : State) (m : Nat) : Nat :=
  let b := mbxOf s m
  b.dbLost.toNat + 2 * b.ciBad.toNat + 4 * b.wrLost.toNat
/-- MBX_BOOT_STATUS (Table 03-5). -/
def bootStatus (s : State) : Nat :=
  bootCode s.boot.state + 16 * s.boot.source.toNat + 256 * s.boot.lastError.toNat + 65536 * min s.boot.fails 255 +
  16777216 * s.pwr.resetSrc.toNat
/-- MBX_BOOT_OTP (Table 03-5). -/
def bootOtp (s : State) : Nat := s.otp.slotValid.toNat + 16 * s.otp.slotRevoked.toNat + 256 * s.otp.rollback
/-- A register of the boot page (Table 03-4). -/
def bootReg (s : State) (o : Nat) : Nat :=
  match o with
  | 0x00 => bootStatus s
  | 0x08 => s.boot.listLo.toNat
  | 0x0C => s.boot.listHi.toNat
  | 0x10 => s.boot.listCount.toNat
  | 0x18 => s.boot.progress
  | 0x1C => bootOtp s
  | 0x20 => s.otp.serial.toNat % 2 ^ 32
  | 0x24 => s.otp.serial.toNat / 2 ^ 32
  | _ => 0
/-- A control register of a mailbox. -/
def controlReg (s : State) (m o : Nat) : Nat :=
  match o with
  | 0x04 => mbxStat s m
  | 0x08 => (mbxOf s m).pi
  | 0x0C => (mbxOf s m).ci
  | 0x10 => mbxErr s m
  | _ => 0
/-- An event ring register (Table 04-12). -/
def evrReg (s : State) (o : Nat) : Nat :=
  match o with
  | 0x00 => s.host.base.toNat % 2 ^ 32
  | 0x04 => s.host.base.toNat / 2 ^ 32
  | 0x08 => s.host.en.toNat
  | 0x0C => s.host.pi
  | 0x10 => s.host.ci
  | 0x14 => s.host.dropped
  | 0x18 => s.host.mod.toNat
  | _ => 0
/-- A dump register (Table 15-8). The high word of PDU_VALUE is the one that the latest read of a low word latched. -/
def pduReg (s : State) (o : Nat) : Nat :=
  let c := s.pmc
  match o with
  | 0x00 => c.base.toNat % 2 ^ 32
  | 0x04 => c.base.toNat / 2 ^ 32
  | 0x08 => c.slots
  | 0x0C => c.period
  | 0x10 => c.en.toNat + 65536 * c.irq
  | 0x14 => c.pi
  | 0x18 => c.ci
  | 0x1C => c.skipped
  | 0x20 => c.gen
  | _ => if 0x1000 ≤ o && o < 0x1300 then (if o % 8 == 0 then c.val.get 0 ((o - 0x1000) / 8) % 2 ^ 32 else c.latch) else 0
/-- The function's Vendor ID and Device ID (R82). -/
def vendorId : Half := 0x1D2F
/-- Device ID (R82). -/
def deviceId : Half := 0x0640
/-- What a dword read over BAR0 returns (Table 04-1), `none` where the function does not answer; unlisted offsets and
the windows of M2 to M7 read 0. -/
def bar0Read (s : State) (off : Nat) : Option Nat :=
  let o := off / 4 * 4
  if !bar0Up s then none
  else if 0x30000 ≤ o && o < 0x31000 then some (bootReg s (o - 0x30000))
  else if 0x38000 ≤ o && o < 0x38200 then some (leVal (s.host.msix.readN (o - 0x38000) 4))
  else if o == 0x39000 then some (s.host.msixPba.toNat % 2 ^ 32)
  else if o == 0x39004 then some (s.host.msixPba.toNat / 2 ^ 32)
  else if !running s then some 0
  else if o < 0x1000 then some (leVal ((mbxOf s 0).window.readN o 4))
  else if o < 0x2000 then some (leVal ((mbxOf s 0).rsp.readN (o - 0x1000) 4))
  else if o < 0x3000 then some (leVal ((mbxOf s 1).window.readN (o - 0x2000) 4))
  else if o < 0x4000 then some (leVal ((mbxOf s 1).rsp.readN (o - 0x3000) 4))
  else if 0x10000 ≤ o && o < 0x10200 then some (controlReg s ((o - 0x10000) / 64) ((o - 0x10000) % 64))
  else if 0x11000 ≤ o && o < 0x11040 then some (evrReg s (o - 0x11000))
  else if 0x20000 ≤ o && o < 0x30000 then some (pduReg s (o - 0x20000))
  else some 0

end Sys2Proof.Machine
end

