-- ==== Sys2Proof/Safety.lean ====
section
/-! DEFINITION. Safety.lean: the terms in which the claims about the machine are stated. -/

namespace Sys2Proof.Machine

/-- The command runs: `exec` answers a next state, and that state is as `P` says. -/
def Runs (c : Instr) (s : State) (P : State → Prop) : Prop := ∃ t, exec c s = .next t ∧ P t

/-- The canonical form of every byte memory of the state: working store and the device windows, the MSI-X table,
the tag, the request and response windows, the staged objects and Binder program memory. -/
structure Canon (s : State) : Prop where
  mem  : Mem.wf s.mem = true
  msix : Mem.wf s.host.msix = true
  tag  : Mem.wf s.stw.tag.mem = true
  box  : ∀ p ∈ s.mbx, Mem.wf p.2.window = true ∧ Mem.wf p.2.rsp = true
  obj  : ∀ o ∈ s.stg.objs, Mem.wf o.bytes = true
  prog : Mem.wf s.boot.prog = true

/-- OTP is written once: a revoked slot stays revoked, the version floor does not fall, an OTP route stays. -/
structure OtpLe (a b : Otp) : Prop where
  revoked : a.slotRevoked &&& ~~~b.slotRevoked = 0#4
  floor   : a.rollback ≤ b.rollback
  route   : a.route.isSome → b.route = a.route

/-- The commands under which a trip latch can clear: the end of a cold keep's reset, and those that release under R180. -/
def mayClearTrip : Instr → Bool
  | .keepPorRelease _ | .tripReleaseWindowEnd | .commandEffect | .foreignCauseClear _ => true
  | _ => false

/-- The command records of Table 04-7. -/
def isRecord : Instr → Bool
  | .seqQuery .. | .nonceGet .. | .resultGet .. | .statusGet .. | .objectStage .. | .leaveRequest ..
  | .leaveReturn .. | .leaseRead .. | .sensorRead .. | .logRead .. | .pmcRead .. | .inventoryRead ..
  | .spineHealthGet .. | .tlsKeyGet .. | .trayStart .. | .trayStop .. | .trayCapSet .. | .permitSet ..
  | .holdSet .. | .budgetSet .. | .rowBudgetSet .. | .rowShareSet .. | .staggerSet .. | .tripRelease ..
  | .leakMask .. | .kettleRouteSet .. | .tripProof .. | .keeperTableSet .. | .belowFloorLease ..
  | .setpointRequest .. | .actuatorConfig .. | .canConfig .. | .afeConfig .. | .configEpochSet ..
  | .modelLoad .. | .regionSet .. | .spillConfig .. | .rebind .. | .goldenStore .. | .tagWrite ..
  | .switchBack .. | .pairSync .. | .spineConfig .. | .logClear .. | .logFreeze .. | .pmcConfig ..
  | .keySet .. | .keyRevoke .. | .rollbackAdvance .. | .reset .. | .wakeConfig .. | .tlsSet .. => true
  | _ => false

/-- The opcode, header and body of a command record. -/
def recordOf : Instr → Option (Half × Hdr × Bytes)
  | .seqQuery h b => some (0x0001, h, b)
  | .nonceGet h b => some (0x0002, h, b)
  | .resultGet h b => some (0x0003, h, b)
  | .statusGet h b => some (0x0004, h, b)
  | .objectStage h b => some (0x0005, h, b)
  | .leaveRequest h b => some (0x0010, h, b)
  | .leaveReturn h b => some (0x0011, h, b)
  | .leaseRead h b => some (0x0012, h, b)
  | .sensorRead h b => some (0x0013, h, b)
  | .logRead h b => some (0x0014, h, b)
  | .pmcRead h b => some (0x0015, h, b)
  | .inventoryRead h b => some (0x0016, h, b)
  | .spineHealthGet h b => some (0x0017, h, b)
  | .tlsKeyGet h b => some (0x0018, h, b)
  | .trayStart h b => some (0x0100, h, b)
  | .trayStop h b => some (0x0101, h, b)
  | .trayCapSet h b => some (0x0102, h, b)
  | .permitSet h b => some (0x0103, h, b)
  | .holdSet h b => some (0x0104, h, b)
  | .budgetSet h b => some (0x0105, h, b)
  | .rowBudgetSet h b => some (0x0106, h, b)
  | .rowShareSet h b => some (0x0107, h, b)
  | .staggerSet h b => some (0x0108, h, b)
  | .tripRelease h b => some (0x0200, h, b)
  | .leakMask h b => some (0x0201, h, b)
  | .kettleRouteSet h b => some (0x0202, h, b)
  | .tripProof h b => some (0x0203, h, b)
  | .keeperTableSet h b => some (0x0300, h, b)
  | .belowFloorLease h b => some (0x0301, h, b)
  | .setpointRequest h b => some (0x0302, h, b)
  | .actuatorConfig h b => some (0x0303, h, b)
  | .canConfig h b => some (0x0304, h, b)
  | .afeConfig h b => some (0x0305, h, b)
  | .configEpochSet h b => some (0x0400, h, b)
  | .modelLoad h b => some (0x0401, h, b)
  | .regionSet h b => some (0x0402, h, b)
  | .spillConfig h b => some (0x0403, h, b)
  | .rebind h b => some (0x0500, h, b)
  | .goldenStore h b => some (0x0501, h, b)
  | .tagWrite h b => some (0x0502, h, b)
  | .switchBack h b => some (0x0600, h, b)
  | .pairSync h b => some (0x0601, h, b)
  | .spineConfig h b => some (0x0602, h, b)
  | .logClear h b => some (0x0700, h, b)
  | .logFreeze h b => some (0x0701, h, b)
  | .pmcConfig h b => some (0x0702, h, b)
  | .keySet h b => some (0x0800, h, b)
  | .keyRevoke h b => some (0x0801, h, b)
  | .rollbackAdvance h b => some (0x0802, h, b)
  | .reset h b => some (0x0803, h, b)
  | .wakeConfig h b => some (0x0804, h, b)
  | .tlsSet h b => some (0x0805, h, b)
  | _ => none

/-- A record reaches a mailbox that is open, idle and owes no response. Records of tray agents (M6) come by another way. -/
structure Arrives (op : Half) (h : Hdr) (body : Bytes) (s : State) : Prop where
  isOpen : isOpenBox s = true
  box    : h.mbx.val ≠ 6
  sound  : h.mbx.val = 7 → h.sound = true
  idle   : (mbxOf s h.mbx.val).busy = false
  room   : (mbxOf s h.mbx.val).waiting = []
  src    : srcValid h.mbx.val (cwSrc (rowRec op h body).cw) = true
  header : badHeader (rowRec op h body) = none

/-- A query passes steps 1 to 3 of R98. -/
structure QueryPasses (op : Half) (h : Hdr) (body : Bytes) (s : State) (i : OpInfo) : Prop where
  here  : Arrives op h body s
  info  : opInfo op.toNat = some i
  cls   : i.cls = .q
  rank  : i.ranks.contains (rankOf (cwSrc (rowRec op h body).cw) h.flags) = true
  own   : foreignTray (cwSrc (rowRec op h body).cw) (rowRec op h body) = false
  seq   : cwSeq (rowRec op h body).cw = 0
  fits  : minBad (badQuery op.toNat s (rowRec op h body).body) (badTail op.toNat i.body (rowRec op h body).body) = none

/-- A journaled record passes steps 1 to 8 of R98. -/
structure JournalPasses (op : Half) (h : Hdr) (body : Bytes) (s : State) (i : OpInfo) (k : Option Bool) : Prop where
  here  : Arrives op h body s
  info  : opInfo op.toNat = some i
  cls   : i.cls = .j k
  fresh : findCw (rowRec op h body).cw s = none
  seq   : cwSeq (rowRec op h body).cw ≠ 0
  above : (s.jr.high.get {} (cwSrc (rowRec op h body).cw)).seq < cwSeq (rowRec op h body).cw
  auth  : authCause i (rowRec op h body) s = none
  fits  : minBad (badBody op.toNat s (rowRec op h body).body) (badTail op.toNat i.body (rowRec op h body).body) = none
  few   : openOf (cwSrc (rowRec op h body).cw) s < 64
  total : openAll s < 512
  free  : refusal (rowRec op h body) s = none

/-- A leave record of a tray agent that the acting Lead services reaches the leave unit (R147, R330). -/
structure LeaveArrives (op : Half) (h : Hdr) (body : Bytes) (s : State) : Prop where
  box    : h.mbx.val = 6
  served : servesAgent s (trayOfSrc h.src.toNat) = true
  src    : srcValid 6 (cwSrc (rowRec op h body).cw) = true
  header : badHeader (rowRec op h body) = none
  fresh  : s.lv.high.get 0 h.src.toNat < h.seq.toNat
  alone  : attached s = false

/-- The entry `e` is the next whose effect is due, at an acting Lead that has no partner attached. -/
structure EffectDue (e : JEntry) (s : State) : Prop where
  isRunning : running s = true
  notLone   : s.pair.state ≠ .lone
  notSync   : s.pair.state ≠ .syncing
  alone     : attached s = false
  lead      : s.pair.lead = true
  next      : nextEffect s.jr.entries = some e
  found     : findEntry e.jseq s = some e
  isPending : e.state = .pending
  first     : e.redo = false
  noDone    : e.doneWait = false

/-- The entry `e` is DONE with a result. -/
def DoneWith (e : JEntry) (result : Word) (t : State) : Prop :=
  ∃ d, findEntry e.jseq t = some d ∧ d.state = .done ∧ d.result = result ∧ d.cw = e.cw ∧ d.op = e.op

/-- A sound frame comes in on a lane that is up, is this node's to take, and is the first copy of it (R112, R114). -/
structure Comes (f : FrameHdr) (s : State) : Prop where
  isRunning : running s = true
  up        : (laneOf s f.lane).up = true
  sound     : f.sound = true
  other     : f.lane.val < 2 → f.src.toNat ≠ nodeAddr s
  mine      : f.lane.val < 2 → forMeAlone s f.dst = true ∨ f.dst = 0xFF
  new       : seenBefore s f = false

/-- A payload sent to the partner on the pair link, with the FSEQ of its first frame (R112). -/
def pairOut (s : State) (p : Payload) : Output :=
  .frame true (nodeAddr s) (partnerAddr s) (s.spn.gen % 256) ((s.spn.pseq + 1) % 2 ^ 32) p
/-- A payload sent to a node address over the Spine (R112). -/
def rowOut (s : State) (dst : Nat) (p : Payload) : Output :=
  .frame false (nodeAddr s) dst (s.spn.gen % 256) ((s.spn.fseq + 1) % 2 ^ 32) p

/-- The commands of a download attempt (chapter 03). -/
def isDownload : Instr → Bool
  | .mbxBootStart _ | .mbxBootAbort | .bootDmaCompletion _ | .bootCheckDone _ | .bootFailedReturn | .netbootSolicit
  | .netbootOffer .. | .netbootData .. | .netbootRequestTimeout | .netbootCancel .. | .mgmtLinkLoss _
  | .netbootEligible => true
  | _ => false

/-- The descriptors of Tables 11-4 to 11-6. -/
def isDescriptor : Instr → Bool
  | .nop .. | .halt .. | .jump .. | .loop .. | .fence .. | .tickwait .. | .copy .. | .fill .. | .gather .. | .scatter ..
  | .qpush .. | .qpop .. | .convert .. | .transpose .. | .add .. | .sub .. | .mul .. | .fma .. | .div .. | .min ..
  | .max .. | .abs .. | .sqrt .. | .rsqrt .. | .exp .. | .log .. | .scale .. | .clamp .. | .select .. | .interp ..
  | .redsum .. | .redmax .. | .redmin .. | .argmax .. | .matmul .. | .spmv .. => true
  | _ => false

/-- What the check bits show stops the descriptor: its own entry, or a block that one of its reads touches (R276). -/
def hinders (e : EccHit) (d : Desc) (xs : List Access) : Bool :=
  match e with
  | .ok | .corrected _ => false
  | .block a => (xs.filter d.reads).any fun x => x.blocks.contains (a / 64 * 64)
  | .desc => true

/-- A core is at descriptor `d` of program `p`, nothing hinders its wait, its accesses or its set, and the wait leaves
the state `u`. -/
structure Passes (q c : Nat) (ecc : EccHit) (p : Prog) (d : Desc) (s u : State) : Prop where
  here     : current s (4 * q + c) = some (p, d)
  sound    : hinders ecc d (d.accesses s.mem) = false
  wait     : waitFault s p (4 * q + c) d = none
  goes     : passWait (4 * q + c) d s = some u
  declared : undeclared p.c d (d.accesses s.mem) = none
  clean    : poisoned d s.qre.poison (d.accesses s.mem) = none
  written  : readBeforeWrite s p d (d.accesses s.mem) = none
  sets     : d.set.getLsbD 15 = false ∨
    (quireUp s (d.set.toNat / 256 % 64) = true ∧
     flagFault s p false (d.set.toNat / 256 % 64 * 256 + d.set.toNat % 256) = none ∧
     (p.c.debug && u.qre.flags.get false (d.set.toNat / 256 % 64 * 256 + d.set.toNat % 256)) = false)

/-- A core has completed descriptor `d`: its position and counters moved on, and the flag that it sets is set. -/
structure Completes (q c : Nat) (d : Desc) (s t : State) : Prop where
  core : coreOf t (4 * q + c) = Core.next d (coreOf s (4 * q + c))
  flag : d.set.getLsbD 15 = true → t.qre.flags.get false (d.set.toNat / 256 % 64 * 256 + d.set.toNat % 256) = true

/-- A memory after a list of element writes; the window of the cycle completion register holds nothing. -/
def stored (ws : List (Nat × Nat × Elem)) (m : Mem) : Mem :=
  ws.foldl (fun m w => if 0x400020000 ≤ w.1 ∧ w.1 < 0x400020040 then m else m.writeN w.1 (leBytes w.2.1 w.2.2.1)) m

/-- The descriptors that compute elements or move them, by operator code, with quire, core and check bits. -/
def dataOp : Instr → Option (Nat × Nat × Nat × EccHit)
  | .copy q c e => some (0x10, q, c, e)
  | .fill q c e => some (0x11, q, c, e)
  | .gather q c e => some (0x12, q, c, e)
  | .scatter q c e => some (0x13, q, c, e)
  | .convert q c e => some (0x16, q, c, e)
  | .transpose q c e => some (0x17, q, c, e)
  | .add q c e => some (0x20, q, c, e)
  | .sub q c e => some (0x21, q, c, e)
  | .mul q c e => some (0x22, q, c, e)
  | .fma q c e => some (0x23, q, c, e)
  | .div q c e => some (0x24, q, c, e)
  | .min q c e => some (0x25, q, c, e)
  | .max q c e => some (0x26, q, c, e)
  | .abs q c e => some (0x27, q, c, e)
  | .sqrt q c e => some (0x28, q, c, e)
  | .rsqrt q c e => some (0x29, q, c, e)
  | .exp q c e => some (0x2A, q, c, e)
  | .log q c e => some (0x2B, q, c, e)
  | .scale q c e => some (0x2C, q, c, e)
  | .clamp q c e => some (0x2D, q, c, e)
  | .select q c e => some (0x2E, q, c, e)
  | .interp q c e => some (0x2F, q, c, e)
  | .redsum q c e => some (0x30, q, c, e)
  | .redmax q c e => some (0x31, q, c, e)
  | .redmin q c e => some (0x32, q, c, e)
  | .argmax q c e => some (0x33, q, c, e)
  | .matmul q c e => some (0x34, q, c, e)
  | .spmv q c e => some (0x35, q, c, e)
  | _ => none

/-- A pump can fault: FIELD is on, the pump is used and not already out, and no below-floor lease is on it. -/
structure PumpRuns (n : Nat) (s : State) : Prop where
  field : fieldOn s = true
  used  : (pumpOf s n).st ≠ .disabled
  live  : (pumpOf s n).out = false
  none_ : belowOf s n = none

/-- A pump faulted with code `f`: RETRY with a restart 1 s later, or LOCKOUT on the fourth fault within 60 s (R212, R213). -/
structure PumpFaulted (n f : Nat) (s t : State) : Prop where
  first : (pumpOf s n).faults.length < 3 → (pumpOf t n).st = .retry ∧ (pumpOf t n).retryAt = some (t.now + 1000000)
  lock  : 3 ≤ (pumpOf s n).faults.length → t.now ≤ (pumpOf s n).faults.headD 0 + 60000000 →
    (pumpOf t n).st = .lockout ∧ (pumpOf t n).retryAt = none
  low   : (pumpOf t n).cmd = 0 ∧ (pumpOf t n).duty = [0, 0, 0]
  last  : (pumpOf t n).last = f

/-- BIND is down after a reset from a source (R52, R53): in reset or off, STORE and the quire halves off, RESET_SRC the
source's code, every CAPDN latch asserted, no lease left and no request under way, while trips and TEN are kept. -/
structure BindIsDown (src : Nat) (dom : Dom) (s t : State) : Prop where
  bind   : t.pwr.bind = dom
  store  : t.pwr.store = .off
  halfA  : t.pwr.halfA = .off
  halfB  : t.pwr.halfB = .off
  source : t.pwr.resetSrc = BitVec.ofNat 4 src
  capdn  : t.keep.capdn = 0xFFFF
  leases : t.lv.leases = []
  boot   : t.boot.state = .wait
  mem    : t.mem = []
  trips  : t.ket.trip = s.ket.trip
  ten    : t.keep.ten = s.keep.ten

end Sys2Proof.Machine
end

