-- ==== Sys2Proof/Certificates/Slice0/Obligations.lean ====
section
/-! DEFINITION. Certificates/Slice0/Obligations.lean: the statements for the provers, rule by rule of the specification. -/

open Sys2Proof Sys2Proof.Machine

/-! ## The machine as a whole -/

/-- A step runs the command at the front of the queue with the rest of the queue left. -/
def Obligations.StepRunsFrontCommand : Prop :=
  ∀ (c : Instr) (rest : List Instr) (s : State), s.pending = c :: rest → step s = exec c (s.setPending rest)

/-- With no command waiting 1 µs passes (the model's choice, log 1): the clock moves by one, nothing is refused, and
nothing but the event ring's held-back vector is touched. -/
def Obligations.EmptyQueueLetsTimePass : Prop :=
  ∀ s : State, s.pending = [] → ∃ t, step s = .next t ∧ t.now = s.now + 1 ∧ t.pending = [] ∧ t.keep = s.keep ∧
    t.mbx = s.mbx ∧ t.jr = s.jr ∧ t.drv = s.drv ∧ t.mem = s.mem

/-- No command is refused and none faults, in any state. -/
def Obligations.EveryCommandAnswersANextState : Prop :=
  ∀ (c : Instr) (s : State), ∃ t, exec c s = .next t ∧ t.pending = s.pending

/-- The state at power-on as the tables of the specification give it: switched domains off, no command waiting, no
trip latched, no lease, no entry, the keep power-on reset holding, RESET_SRC 1, PERST# low, the link down. -/
def Obligations.ResetLeavesEverythingOff : Prop :=
  let s := State.reset
  s.pending = [] ∧ s.keep.por = true ∧ s.pwr.bind = .off ∧ s.pwr.field = .off ∧ s.pwr.store = .off ∧
  s.pwr.halfA = .off ∧ s.pwr.halfB = .off ∧ s.pwr.resetSrc = 1#4 ∧ s.ket.trip = 0#16 ∧ s.lv.leases = [] ∧
  s.jr.entries = [] ∧ s.host.en = false ∧ s.mem = [] ∧ s.kt.stagger = 2000 ∧ s.kt.budget = none ∧ s.kt.role = none

/-- At power-on every byte memory is in canonical form. -/
def Obligations.ResetMemoriesAreCanonical : Prop := Canon State.reset

/-- Every step keeps every byte memory canonical. -/
def Obligations.StepKeepsMemoriesCanonical : Prop :=
  ∀ s t : State, Canon s → step s = .next t → Canon t

/-- No step takes time or a sent message back, revives a revoked key slot, lowers the version floor or overwrites an
OTP route. -/
def Obligations.StepTakesNothingBack : Prop :=
  ∀ s t : State, step s = .next t → s.now ≤ t.now ∧ s.out <:+ t.out ∧ OtpLe s.otp t.otp

/-- A latched trip stays latched under every command but those that may clear one: the effect of a journaled command, the
end of a release's second, a foreign cause's end, and the keep domain's power-on release (R58, R172, R173, R180). -/
def Obligations.TripLatchesStay : Prop :=
  ∀ (c : Instr) (s t : State) (n : Nat), mayClearTrip c = false → exec c s = .next t →
    s.ket.trip.getLsbD n = true → t.ket.trip.getLsbD n = true

/-- The arrival of a command record carries out no effect: it changes no keep table, no TEN line, no trip latch, no
route, no OTP field, no power domain, no drive output, no actuator, no quire, no store byte and no plan. -/
def Obligations.RecordArrivalFrame : Prop :=
  ∀ (c : Instr) (s t : State), isRecord c = true → exec c s = .next t →
    t.now = s.now ∧ t.kt = s.kt ∧ t.keep.ten = s.keep.ten ∧ t.ket.trip &&& s.ket.trip = s.ket.trip ∧ t.ket.route = s.ket.route ∧
    t.otp = s.otp ∧ t.pwr = s.pwr ∧ t.boot = s.boot ∧ t.cat = s.cat ∧ t.drv = s.drv ∧ t.can = s.can ∧ t.qre = s.qre ∧
    t.mem = s.mem ∧ t.ep = s.ep ∧ t.pln = s.pln

/-- A descriptor changes no tray, no keep latch but the wake latch, no journal, no mailbox, no drive output, no
actuator, no plan, and no OTP. -/
def Obligations.DescriptorFrame : Prop :=
  ∀ (c : Instr) (s t : State), isDescriptor c = true → exec c s = .next t →
    t.keep.ten = s.keep.ten ∧ t.keep.capdn = s.keep.capdn ∧ t.ket = s.ket ∧ t.lv = s.lv ∧ t.jr = s.jr ∧ t.mbx = s.mbx ∧
    t.drv = s.drv ∧ t.can = s.can ∧ t.afe = s.afe ∧ t.pln = s.pln ∧ t.otp = s.otp ∧ t.pair = s.pair ∧ t.pwr = s.pwr

/-! ## Keep domain, power, clocks and resets (chapter 02) -/

/-- The keep domain: its power-on release with the latches intact or lost, the reading of the keep tables, VKEEP's fall, the
hour meter's save, the end of a handoff, the trip image's save, and the crystal's failure and return (R46, R48, R58, R133,
R171). A flag that is read back can make a source active, which then trips its trays (log 35). -/
def Obligations.KeepDomainCommandsComplete : Prop :=
  (∀ (s : State) (intact : Bool), s.keep.por = true → Runs (.keepPorRelease intact) s fun t =>
    t.keep.por = false ∧ t.pwr.resetSrc = 1#4 ∧ t.keep.hourBase = s.keep.savedHour ∧
    t.keep.pcycle = (s.keep.savedCycle + 1) % 2 ^ 32 ∧
    (intact = true → t.ket = s.ket ∧ t.keep.ten = s.keep.ten ∧ t.keep.capdn = s.keep.capdn) ∧
    (intact = false → t.ket.route = s.otp.route ∧ t.keep.capdn = 0xFFFF ∧ t.keep.tenRead = false)) ∧
  (∀ s : State, s.keep.por = false → s.keep.tenRead = false → Runs .keepTableReadDone s fun t =>
    s.keep.readAt.getD 0 ≤ t.now ∧ t.keep.tenRead = true ∧ (s.ket.trip ||| s.cat.trip) &&& ~~~t.ket.trip = 0 ∧
    t.keep.ten &&& ~~~(s.cat.ten &&& ~~~(s.ket.trip ||| s.cat.trip)) = 0 ∧
    (∀ n < 33, (leakOf t n).masked = s.cat.masks.get false n) ∧
    ((∀ n < 33, s.cat.chat.get false n = false ∧ s.cat.open_.get false n = false ∧ s.cat.short.get false n = false) →
      t.ket.trip = s.ket.trip ||| s.cat.trip ∧ t.keep.ten = s.cat.ten &&& ~~~(s.ket.trip ||| s.cat.trip))) ∧
  (∀ s : State, s.keep.por = false → Runs .vkeepFall s fun t =>
    t.keep.por = true ∧ t.pwr.bind = .off ∧ t.pwr.field = .off ∧ t.pwr.store = .off ∧ t.pwr.halfA = .off ∧
    t.pwr.halfB = .off ∧ t.pwr.rails = false ∧ t.keep.savedHour = hourMeter s ∧ t.keep.savedCycle = s.keep.pcycle) ∧
  (∀ s : State, s.keep.por = false → Runs .hourMeterSave s fun t =>
    s.keep.saveAt + 60000000 ≤ t.now ∧ t.keep.saveAt = t.now ∧ t.keep.savedHour = hourMeter t ∧
    t.keep.savedCycle = s.keep.pcycle ∧ t.keep.ten = s.keep.ten ∧ t.ket = s.ket) ∧
  (∀ (s : State) (d : Nat), s.keep.handoffAt = some d → Runs .spnHandoffExpiry s fun t =>
    d ≤ t.now ∧ t.keep.handoffAt = none ∧ t.kt.role = some false ∧ t.keep.ten = s.keep.ten) ∧
  (∀ (s : State) (d : Nat), s.ket.imageDue = some d → s.keep.por = false → s.keep.tenRead = true →
    Runs .tripImageSave s fun t =>
      d ≤ t.now ∧ t.cat.trip = s.ket.trip ∧ t.cat.ten = s.keep.ten ∧ t.cat.causes = s.ket.causes ∧
      t.cat.refs = s.ket.refs ∧ t.ket.imageDue = none) ∧
  (∀ s : State, s.keep.por = false → Runs .kxinCrystalFail s fun t =>
    s.keep.hourFrom + 2000000 ≤ t.now ∧ t.keep.coarse = true ∧ t.keep.hourBase = s.keep.hourBase) ∧
  (∀ s : State, s.keep.por = false → s.keep.coarse = true → Runs .kxinCrystalRun s fun t =>
    t.keep.coarse = false ∧ s.now ≤ t.now ∧ (s.keep.hourFrom ≤ s.now → (t.now - s.keep.hourFrom) % 1000000 = 0))

/-- Power comes up and goes down in sequence: rails, FIELD, the bonded store, the loss and return of XIN with the switch back
of FCLK, the return of the die temperature (R43, R44, R45, R49, R375). A quire half takes 20 W of converting leave, is powered,
becomes IDLE and goes off again (R160, R275); QB waits while QA powers up. -/
def Obligations.PowerSequencerCommandsComplete : Prop :=
  (∀ s : State, s.keep.por = false → s.pwr.bind = .off → s.pwr.hotSince = none → Runs .railsGood s fun t =>
    t.pwr.rails = true ∧ t.pwr.bind = .reset ∧ t.pwr.field = s.pwr.field) ∧
  (∀ s : State, s.keep.por = true → Runs .railsGood s fun t => t.pwr.rails = true ∧ t.pwr.bind = s.pwr.bind) ∧
  (∀ (s : State) (d : Nat), s.pwr.fieldAt = some d → s.pwr.field = .off → Runs .fieldPowerUp s fun t =>
    t.pwr.field = .reset ∧ d ≤ t.now ∧ t.pwr.bind = s.pwr.bind) ∧
  (∀ s : State, s.pwr.field = .reset → Runs .fieldResetRelease s fun t => t.pwr.field = .on ∧ t.pwr.bind = s.pwr.bind) ∧
  (∀ s : State, running s = true → s.drv.beat.isSome = true → s.pwr.store = .off → Runs .storeSwitchOn s fun t =>
    t.pwr.store = .powering) ∧
  (∀ s : State, s.pwr.store = .powering → Runs .storeReady s fun t => t.pwr.store = .on ∧ t.mem = []) ∧
  (∀ s : State, running s = true → s.pwr.store ≠ .off → Runs .storeSwitchOff s fun t =>
    t.pwr.store = .off ∧ t.pwr.halfA = .off ∧ t.pwr.halfB = .off ∧ t.mem = [] ∧ t.pwr.bind = s.pwr.bind ∧
    t.pwr.field = s.pwr.field) ∧
  (∀ s : State, s.keep.por = false → s.pwr.xin = true → Runs .xinLoss s fun t =>
    t.pwr.xin = false ∧ t.pwr.fclkPll = false ∧ t.can.held = true ∧ t.pwr.field = s.pwr.field ∧
    (s.pwr.bind ≠ .off → t.pwr.bind = .reset ∧ t.pwr.resetSrc = 3#4)) ∧
  (∀ s : State, s.pwr.xin = false → (∀ n < 4, (fieldOn s && (pumpOf s n).driven) = false) → Runs .xinReturn s fun t =>
    s.pwr.xinAt + 10000 ≤ t.now ∧ t.pwr.xin = true ∧ t.pwr.fclkPll = true ∧ t.can.held = false) ∧
  (∀ (s : State) (n : Nat), s.pwr.xin = false → fieldOn s = true → n < 4 → (pumpOf s n).driven = true →
    (∀ k < n, (pumpOf s k).driven = false) → Runs .xinReturn s fun t =>
      s.pwr.xinAt + 10000 ≤ t.now ∧ t.pwr.xin = true ∧ t.pwr.fclkPll = s.pwr.fclkPll ∧
      t.pwr.backAt = some (pwmBoundary t.now (pumpOf s n))) ∧
  (∀ (s : State) (d : Nat), s.pwr.backAt = some d → Runs .fclkSwitchBack s fun t =>
    d ≤ t.now ∧ t.pwr.fclkPll = true ∧ t.can.held = false) ∧
  (∀ (s : State) (peak : Int) (d : Nat), s.pwr.hotSince = some d → s.pwr.rails = true → Runs (.dieTempReturn peak) s fun t =>
    d + 1000000 ≤ t.now ∧ t.pwr.hotSince = none ∧ t.pwr.bind = .reset ∧ t.pwr.resetSrc = 8#4) ∧
  (∀ (s : State) (h : Fin 2), running s = true → s.pwr.store = .on → halfOf s h = .off → halfTurn h s = true →
    s.lv.leases.any (fun l => l.kind == 2 && l.owner == h.val) = false →
    s.lv.waits.any (fun w => w.kind == 2 && w.owner == h.val) = false → internalAsk 20 s = none →
    Runs (.quireHalfSwitchOn h) s fun t =>
      t.lv.leases.any (fun l => l.kind == 2 && l.owner == h.val && l.capW == 20) = true ∧
      (halfOf s (1 - h.val) ≠ .powering → halfOf t h = .powering) ∧
      (halfOf s (1 - h.val) = .powering → t.pwr.halfWait = some h.val)) ∧
  (∀ (s : State) (h : Fin 2), halfOf s h = .powering → s.pwr.halfWait = none → Runs (.quireHalfReady h) s fun t =>
    halfOf t h = .idle) ∧
  (∀ (s : State) (h : Fin 2), running s = true → halfOf s h = .idle → Runs (.quireHalfSwitchOff h) s fun t =>
    halfOf t h = .off)

/-- The seven sources of Table 02-6 that reset BIND (rail loss, XIN loss, SYS_RST_N, lockstep mismatch, the Binder watchdog,
RESET, die over-temperature) each leave BIND down with their RESET_SRC, STORE and the quire halves off, every CAPDN latch
asserted and no lease, and keep trips and TEN (R46, R52, R53). Rail loss and die over-temperature take FIELD off; the others
leave it as it was. -/
def Obligations.ResetsTakeBindDown : Prop :=
  (∀ s : State, s.pwr.rails = true → Runs .railLoss s fun t =>
    BindIsDown 2 .off s t ∧ t.pwr.field = .off ∧ t.pwr.rails = false ∧ t.keep.savedHour = hourMeter s) ∧
  (∀ s : State, s.keep.por = false → s.pwr.xin = true → s.pwr.bind ≠ .off → Runs .xinLoss s fun t =>
    BindIsDown 3 .reset s t ∧ t.pwr.field = s.pwr.field ∧ t.pwr.xin = false) ∧
  (∀ s : State, s.pwr.bind ≠ .off → Runs .sysRstNLow s fun t => BindIsDown 4 .reset s t ∧ t.pwr.field = s.pwr.field) ∧
  (∀ s : State, s.pwr.bind = .on → Runs .lockstepMismatch s fun t =>
    BindIsDown 5 .reset s t ∧ t.pwr.releaseAt = some (t.now + 1) ∧ t.pwr.field = s.pwr.field) ∧
  (∀ (s : State) (d : Nat), s.boot.watchdog = some d → Runs .binderWatchdogExpiry s fun t =>
    BindIsDown 6 .reset s t ∧ d ≤ t.now ∧ t.pwr.releaseAt = some (t.now + 1) ∧ t.pwr.field = s.pwr.field) ∧
  (∀ s : State, s.boot.watchdog = none → running s = true → Runs .binderWatchdogExpiry s fun t =>
    BindIsDown 6 .reset s t ∧ t.pwr.releaseAt = some (t.now + 1) ∧ t.pwr.field = s.pwr.field) ∧
  (∀ (s : State) (d : Nat), s.jr.resetAt = some d → Runs .resetExecute s fun t =>
    BindIsDown 7 .reset s t ∧ (s.pair.lead = true → d ≤ t.now) ∧ t.pwr.releaseAt = some (t.now + 1) ∧
    t.pwr.field = s.pwr.field) ∧
  (∀ (s : State) (temp : Int), s.keep.por = false → s.pwr.hotSince = none → 1200 ≤ temp → Runs (.dieOvertemp temp) s fun t =>
    BindIsDown 8 .off s t ∧ t.pwr.field = .off ∧ t.pwr.hotSince = some s.now ∧ t.pwr.hotPeak = temp)

/-- The straps are sampled at every release of BIND reset and the boot ROM starts in WAIT; BOOT_SEL 0b11 halts it with
STRAP_INVALID recorded (R55, R56). FIELD's power-up is due 1 ms after the first release that finds it off (R43). -/
def Obligations.BindReleaseSamplesStraps : Prop :=
  ∀ (s : State) (straps : Straps) (ok : Bool), s.pwr.bind = .reset → s.pwr.xin = true → s.pwr.fclkPll = true →
    Runs (.bindResetRelease straps ok) s fun t =>
      s.pwr.releaseAt.getD 0 ≤ t.now ∧ t.pwr.bind = .on ∧ t.pwr.straps = straps ∧
      (t.host.link = if s.host.perst then .down else .l0) ∧
      (s.pwr.field = .off → s.pwr.fieldAt = none → t.pwr.fieldAt = some (t.now + 1000)) ∧
      (∀ d, s.pwr.fieldAt = some d → t.pwr.fieldAt = some d) ∧
      (straps.bootSel = 3 → t.boot.state = .halt ∧ (s.log.freeze = none → t.log.fseq = s.log.fseq + 1)) ∧
      (straps.bootSel ≠ 3 → anySlot s.otp = true → t.boot.state = .wait)

/-- The host side: PERST#'s assertion and release, the link's fall and its L0, the function's D-state with the MSI-X enable
(log 136), and TRST_N (R52, R61, R70, R84, R109, R110). A PCIe download under way fails with E_LINK as PERST# or the link
falls; WAKE# is withdrawn with one PME as the link reaches L0. -/
def Obligations.HostLinkCommandsComplete : Prop :=
  (∀ s : State, Runs .perstAssert s fun t =>
    t.host.perst = true ∧ t.host.link = .down ∧ t.host.en = false ∧ t.host.base = 0 ∧ t.host.pi = 0 ∧ t.host.ci = 0 ∧
    t.pmc.en = false ∧ t.boot.listCount = 0 ∧ t.boot.listLo = 0 ∧ t.boot.listHi = 0 ∧
    mbxOf t 0 = {} ∧ mbxOf t 1 = {} ∧ (∀ m, 2 ≤ m → mbxOf t m = mbxOf s m) ∧ t.jr = s.jr ∧ t.lv = s.lv ∧
    (pcieLoading s = false → t.host.backlog = s.host.backlog ∧ t.boot.state = s.boot.state) ∧
    (pcieLoading s = true → t.boot.state = .failed ∧ t.boot.lastError = 0x0B ∧ t.boot.image = none)) ∧
  (∀ s : State, Runs .perstRelease s fun t =>
    t.host.perst = false ∧ (s.pwr.bind = .on → t.host.link = .l0 ∧ t.keep.wakePin = false) ∧
    (s.pwr.bind = .on → s.keep.wakePin = true → t.out = .pme :: s.out) ∧
    (s.pwr.bind ≠ .on → t.host.link = .down ∧ t.keep = s.keep) ∧ t.boot = s.boot ∧ t.mbx = s.mbx) ∧
  (∀ s : State, Runs .trstNAssert s fun t =>
    t.out = .jtag :: s.out ∧ t.ket = s.ket ∧ t.keep = s.keep ∧ t.pwr = s.pwr ∧ t.boot = s.boot ∧ t.host = s.host) ∧
  (∀ s : State, Runs .pcieLinkDown s fun t =>
    t.host.link = .down ∧ t.host.perst = s.host.perst ∧ (pcieLoading s = false → t.boot = s.boot ∧ t.mbx = s.mbx) ∧
    (pcieLoading s = true → t.boot.state = .failed ∧ t.boot.lastError = 0x0B ∧ t.boot.image = none)) ∧
  (∀ s : State, s.host.perst = false → s.pwr.bind = .on → Runs .hostLinkL0 s fun t =>
    t.host.link = .l0 ∧ t.keep.wakePin = false ∧ (s.keep.wakePin = true → t.out = .pme :: s.out) ∧
    (s.keep.wakePin = false → t.out = s.out) ∧ t.boot = s.boot ∧ t.mbx = s.mbx) ∧
  (∀ (s : State) (d : DState) (msix : Bool), s.host.perst = false → s.pwr.bind = .on →
    Runs (.pcieDStateChange ⟨d, msix⟩) s fun t =>
      t.host.dstate = d ∧ t.host.msixEn = msix ∧ (d = .d3cold → t.host.link = .l2) ∧
      (d ≠ .d3cold → t.host.link = s.host.link) ∧ t.host.en = s.host.en ∧ t.host.backlog = s.host.backlog ∧ t.mbx = s.mbx)

/-! ## The boot ROM (chapter 03) -/

/-- A download over PCIe runs from START to STARTING. START with a bad count, address or entry fails with E_LENGTH, a short
list or a failed read with E_DMA, an abort with E_ABORT, the colophon's checks with their codes, and a wrong payload hash with
E_HASH; FAILED is left for WAIT (R67, R69, R70, R75, R77). SOURCE's and LAST_ERROR's ends are the model's choice (log 137). -/
def Obligations.PcieDownloadCompletes : Prop :=
  (∀ (s : State) (list : List Scatter), s.pwr.bind = .on → s.boot.state = .wait → pcieEligible s = true →
    0 < s.boot.listCount.toNat → s.boot.listCount.toNat ≤ 1024 → s.boot.listLo.toNat % 16 = 0 →
    s.boot.listCount.toNat ≤ list.length → entriesOk (list.take s.boot.listCount.toNat) = true →
    listTotal (list.take s.boot.listCount.toNat) ≤ 25165824 → Runs (.mbxBootStart list) s fun t =>
      t.boot.state = .loading ∧ t.boot.total = listTotal (list.take s.boot.listCount.toNat) ∧ t.boot.source = 1 ∧
      t.boot.progress = 0 ∧ t.boot.colophon = [] ∧ .dmaRead (listAddr s) (16 * s.boot.listCount.toNat) ∈ t.out) ∧
  (∀ (s : State) (list : List Scatter), s.pwr.bind = .on → s.boot.state = .wait → pcieEligible s = true →
    s.boot.listCount.toNat = 0 ∨ 1024 < s.boot.listCount.toNat ∨ s.boot.listLo.toNat % 16 ≠ 0 ∨
      s.boot.listCount.toNat ≤ list.length ∧ (entriesOk (list.take s.boot.listCount.toNat) = false ∨
        25165824 < listTotal (list.take s.boot.listCount.toNat)) →
    Runs (.mbxBootStart list) s fun t => t.boot.state = .failed ∧ t.boot.lastError = 0x02) ∧
  (∀ (s : State) (list : List Scatter), s.pwr.bind = .on → s.boot.state = .wait → pcieEligible s = true →
    s.boot.listCount.toNat ≤ 1024 → s.boot.listLo.toNat % 16 = 0 → list.length < s.boot.listCount.toNat →
    Runs (.mbxBootStart list) s fun t => t.boot.state = .failed ∧ t.boot.lastError = 0x0A) ∧
  (∀ s : State, s.boot.state = .loading ∨ s.boot.state = .checking → Runs .mbxBootAbort s fun t =>
    t.boot.state = .failed ∧ t.boot.lastError = 0x0D ∧ t.boot.image = none ∧ t.boot.prog = []) ∧
  (∀ (s : State) (data : Bytes), s.boot.state = .loading → s.boot.source = 1 → 512 ≤ s.boot.progress →
    512 ≤ s.boot.colophon.length → s.boot.progress + data.length ≤ s.boot.total →
    Runs (.bootDmaCompletion (.data data)) s fun t =>
      t.boot.progress = s.boot.progress + data.length ∧ t.boot.colophon = s.boot.colophon ∧
      t.boot.prog = s.boot.prog.writeN (s.boot.progress - 512) data ∧
      t.boot.state = if s.boot.progress + data.length = s.boot.total then .checking else .loading) ∧
  (∀ (s : State) (data : Bytes), s.boot.state = .loading → s.boot.source = 1 → s.boot.progress < 512 →
    s.boot.colophon.length = s.boot.progress → 513 ≤ s.boot.total → 512 ≤ s.boot.progress + data.length →
    Runs (.bootDmaCompletion (.data data)) s fun t =>
      match colophonError s.otp true s.boot.total (s.boot.colophon ++ data.take (512 - s.boot.progress)) with
      | some e => t.boot.state = .failed ∧ t.boot.lastError = BitVec.ofNat 8 e
      | none => t.boot.state = .loading ∧ t.boot.progress = 512 ∧
        t.boot.colophon = s.boot.colophon ++ data.take (512 - s.boot.progress)) ∧
  (∀ s : State, s.boot.state = .loading → s.boot.source = 1 → Runs (.bootDmaCompletion .error) s fun t =>
    t.boot.state = .failed ∧ t.boot.lastError = 0x0A) ∧
  (∀ (s : State) (us : Nat), s.boot.state = .checking → Runs (.bootCheckDone us) s fun t =>
    t.now = max s.now (s.boot.checkAt + min us 10000) ∧
    if sha384 (s.boot.prog.readN 0 (s.boot.total - 512)) = BitVec.ofNat 384 (leVal (sub s.boot.colophon 0x040 48)) then
      t.boot.state = .starting ∧ t.boot.lastError = 0 ∧ t.boot.watchdog = some (t.now + 5000000) ∧
      t.boot.image = some s.boot.colophon
    else t.boot.state = .failed ∧ t.boot.lastError = 0x06 ∧ t.boot.image = none ∧ t.boot.prog = []) ∧
  (∀ s : State, s.boot.state = .failed → Runs .bootFailedReturn s fun t =>
    t.boot.state = .wait ∧ t.boot.source = 0 ∧ t.boot.lastError = s.boot.lastError)

/-- Netboot solicits on both ports, takes the first OFFER for it, fetches by windows, retries, and ends with CANCEL, a lost
link or the eighth time-out; BOOT_SEL 0b10 makes it eligible after its 30 s (R71, R72, R73). Its first window is block 0 alone
(log 138). -/
def Obligations.NetbootCompletes : Prop :=
  (∀ (s : State) (d : Nat), s.boot.solicitAt = some d → s.boot.state = .wait → s.boot.net = true →
    Runs .netbootSolicit s fun t => d ≤ t.now ∧ t.boot.solicitAt = some (t.now + 1000000) ∧
      t.out = .netboot 1 (s.otp.mac + 1) 0xFFFFFFFFFFFF (netBytes s.otp.serial 1 0 0 (solicitData s)) ::
        .netboot 0 (s.otp.mac + 0) 0xFFFFFFFFFFFF (netBytes s.otp.serial 1 0 0 (solicitData s)) :: s.out) ∧
  (∀ (s : State) (port : Fin 2) (src : Nat) (frame : Bytes), s.boot.state = .wait → s.boot.net = true →
    netFrame 2 0x88B5 frame s = true → fld frame 18 2 = 4 → 513 ≤ fld frame 20 4 → fld frame 20 4 ≤ 25165824 →
    Runs (.netbootOffer port src (s.otp.mac + port.val) 0x88B5 frame) s fun t =>
      t.boot.state = .loading ∧ t.boot.source = 2 ∧ t.boot.server = src ∧ t.boot.port = port.val ∧
      t.boot.total = fld frame 20 4 ∧ t.boot.progress = 0 ∧ t.boot.reqAt = some (s.now + 50000) ∧
      t.out.head? = some (.netboot port.val (s.otp.mac + port.val) src (netBytes s.otp.serial 3 0 1 []))) ∧
  (∀ (s : State) (port : Fin 2) (src block n : Nat) (frame : Bytes), s.boot.state = .loading → fromServer port src s = true →
    netFrame 4 0x88B5 frame s = true → block = fld frame 12 4 → n = fld frame 18 2 → 512 ≤ s.boot.colophon.length → 0 < block →
    s.boot.window ≤ block → block < s.boot.window + windowOf s.boot.total s.boot.window →
    s.boot.got.contains block = false → n = blockLen s.boot.total block → s.boot.progress + n ≤ s.boot.total →
    Runs (.netbootData port src 0x88B5 frame) s fun t =>
      t.boot.progress = s.boot.progress + n ∧
      t.boot.prog = s.boot.prog.writeN (block * 1408 - 512) (sub frame 20 n) ∧
      (s.boot.progress + n = s.boot.total → t.boot.state = .checking ∧ t.boot.reqAt = none) ∧
      (s.boot.progress + n ≠ s.boot.total → t.boot.state = .loading ∧
        (s.boot.got.length + 1 ≠ windowOf s.boot.total s.boot.window → t.boot.got = s.boot.got ++ [block]) ∧
        (s.boot.got.length + 1 = windowOf s.boot.total s.boot.window →
          t.boot.window = s.boot.window + windowOf s.boot.total s.boot.window ∧ t.boot.got = [] ∧ t.boot.timeouts = 0))) ∧
  (∀ (s : State) (port : Fin 2) (src n : Nat) (frame : Bytes), s.boot.state = .loading → fromServer port src s = true →
    netFrame 4 0x88B5 frame s = true → fld frame 12 4 = 0 → n = fld frame 18 2 → s.boot.colophon = [] → s.boot.progress = 0 →
    513 ≤ s.boot.total → s.boot.window = 0 → s.boot.got = [] → n = blockLen s.boot.total 0 →
    Runs (.netbootData port src 0x88B5 frame) s fun t =>
      match colophonError s.otp false s.boot.total ((sub frame 20 n).take 512) with
      | some e => t.boot.state = .failed ∧ t.boot.lastError = BitVec.ofNat 8 e
      | none => t.boot.progress = n ∧ t.boot.colophon = (sub frame 20 n).take 512 ∧
        t.boot.prog = s.boot.prog.writeN 0 ((sub frame 20 n).drop 512) ∧
        t.boot.state = (if n = s.boot.total then .checking else .loading) ∧ (n ≠ s.boot.total → t.boot.window = 1)) ∧
  (∀ (s : State) (d : Nat), s.boot.reqAt = some d → s.boot.state = .loading → Runs .netbootRequestTimeout s fun t =>
    d ≤ t.now ∧ (s.boot.timeouts < 7 → t.boot.state = .loading ∧ t.boot.timeouts = s.boot.timeouts + 1 ∧
      t.boot.reqAt = some (t.now + 50000)) ∧
    (7 ≤ s.boot.timeouts → t.boot.state = .failed ∧ t.boot.lastError = 0x0C)) ∧
  (∀ (s : State) (port : Fin 2) (src : Nat) (frame : Bytes), s.boot.state = .loading ∨ s.boot.state = .checking →
    fromServer port src s = true → netFrame 6 0x88B5 frame s = true → Runs (.netbootCancel port ⟨src, 0x88B5⟩ frame) s fun t =>
      t.boot.state = .failed ∧ t.boot.lastError = 0x0D) ∧
  (∀ (s : State) (port : Fin 2), s.boot.state = .loading ∨ s.boot.state = .checking → s.boot.source = 2 →
    s.boot.port = port.val → Runs (.mgmtLinkLoss port) s fun t => t.boot.state = .failed ∧ t.boot.lastError = 0x0B) ∧
  (∀ (s : State) (d : Nat), s.boot.netAt = some d → Runs .netbootEligible s fun t =>
    d ≤ t.now ∧ t.boot.net = true ∧ t.boot.netAt = none ∧ t.boot.solicitAt = some t.now ∧ t.boot.state = s.boot.state)

/-- No download attempt changes keep latches, keep tables, the journal, OTP, a trip or a lease, however it goes. -/
def Obligations.DownloadsKeepKeepState : Prop :=
  ∀ (c : Instr) (s t : State), isDownload c = true → exec c s = .next t →
    t.keep = s.keep ∧ t.kt = s.kt ∧ t.jr = s.jr ∧ t.otp = s.otp ∧ t.ket = s.ket ∧ t.lv = s.lv ∧ t.cat = s.cat ∧ t.pwr = s.pwr

/-- In HALT the device accepts no download, and it leaves HALT only as BIND leaves the state of a running domain. -/
def Obligations.HaltAcceptsNoDownload : Prop :=
  (∀ (s : State) (straps : Straps) (ok : Bool), s.pwr.bind = .reset → s.pwr.xin = true → s.pwr.fclkPll = true →
    straps.bootSel = 3 → s.log.freeze = none → s.log.queue.length < 64 →
    Runs (.bindResetRelease straps ok) s fun t => t.boot.state = .halt ∧
      ∃ f ∈ t.log.queue, f.code = 0x0F12 ∧ f.fseq = s.log.fseq + 1) ∧
  (∀ (c : Instr) (s t : State), s.boot.state = .halt → exec c s = .next t →
    t.boot.state = .halt ∧ t.boot.image = s.boot.image ∨ t.pwr.bind ≠ .on ∨ s.pwr.bind ≠ .on)

/-- Firmware's start ends keeper mode and takes up the recorded role (R15, R79, R103): a Lead clears the TEN bits of tripped
trays, raises the actuator epoch and releases no CAPDN line (R171, R248); a Shadow's CAPDN lines are high-impedance (Table
05-7); a board that records no role acts in none yet (log 115). -/
def Obligations.FirmwareStartCompletes : Prop :=
  ∀ (s : State) (held torn : List Nat), s.pwr.bind = .on → s.boot.state = .starting → s.keep.tenRead = true →
    Runs (.firmwareRunning ⟨held, torn⟩) s fun t =>
      running t = true ∧ t.kt.role = s.kt.role ∧ t.pair.lead = (s.kt.role == some true) ∧
      t.boot.watchdog = none ∧ t.jr.entries.length ≤ s.jr.entries.length ∧
      (∀ e ∈ t.jr.entries, e.state = .pending ∨ e.state = .done) ∧ (∀ e ∈ t.jr.entries, e.jseq ∉ torn) ∧
      (s.kt.role = some true → t.keep.ten = s.keep.ten &&& ~~~s.ket.trip ∧ t.keep.handoff = false ∧
        t.keep.capdn = s.keep.capdn ∧ t.kt.actEpoch = (s.kt.actEpoch + 1) % 2 ^ 32) ∧
      (s.kt.role = some false → t.keep.capdn = 0 ∧ t.keep.ten = s.keep.ten) ∧
      (s.kt.role = none → t.keep.capdn = s.keep.capdn ∧ t.keep.ten = s.keep.ten)

/-! ## Mailboxes, records and the journal (chapter 04) -/

/-- Doorbell, copy-out, response rings and transports, and the writes of the other registers over BAR0 (R5, R6, R85 to R87). A
PDU_SLOTS or PDU_PERIOD outside its range is stored (the model's choice, log 144). -/
def Obligations.RegisterAccessesComplete : Prop :=
  (∀ (s : State) (m : Fin 8), bar0Up s = true → running s = true → m.val < 2 → (mbxOf s m.val).busy = false →
    Runs (.mbxDoorbell m) s fun t => mbxOf t m.val = { mbxOf s m.val with busy := true } ∧ t.jr = s.jr) ∧
  (∀ (s : State) (m : Fin 8), bar0Up s = true → running s = true → m.val < 2 → (mbxOf s m.val).busy = true →
    Runs (.mbxDoorbell m) s fun t => mbxOf t m.val = { mbxOf s m.val with dbLost := true } ∧ t.jr = s.jr) ∧
  (∀ (s : State) (m : Fin 8) (ci : BitVec 6), bar0Up s = true → running s = true → m.val < 2 →
    Runs (.mbxRspCi m ci) s fun t => mbxOf t m.val =
      if (ci.toNat + 64 - (mbxOf s m.val).ci) % 64 ≤ ((mbxOf s m.val).pi + 64 - (mbxOf s m.val).ci) % 64
      then { mbxOf s m.val with ci := ci.toNat } else { mbxOf s m.val with ciBad := true }) ∧
  (∀ (s : State) (m : Fin 8) (jok : Bool), running s = true → (mbxOf s m.val).busy = true →
    (mbxOf s m.val).waiting = [] →
    exec (.mbxCopyOut m jok) s = .next (receive m.val jok (windowRec (mbxOf s m.val).window) (clearBusy m.val s))) ∧
  (∀ (s : State) (m : Fin 8) (jok : Bool) (o : Nat), isOpenBox s = true → m.val ≠ 6 → (mbxOf s m.val).busy = true →
    (mbxOf s m.val).waiting = [] → srcValid m.val (cwSrc (windowRec (mbxOf s m.val).window).cw) = true →
    badHeader (windowRec (mbxOf s m.val).window) = some o → Runs (.mbxCopyOut m jok) s fun t =>
      (mbxOf t m.val).busy = false ∧ t.jr = s.jr ∧
      (mbxOf t m.val).waiting.map (fun r => (r.status, r.detail)) = [(0x14, o)]) ∧
  (∀ (s : State) (m : Fin 8) (r : Resp) (rs : List Resp), running s = true → m.val < 2 →
    (mbxOf s m.val).waiting = r :: rs → (mbxOf s m.val).pi % 32 + respSlots r ≤ 32 →
    respSlots r ≤ ringFree (mbxOf s m.val) → Runs (.responseWrite m) s fun t =>
      (mbxOf t m.val).waiting = rs ∧ (mbxOf t m.val).pi = ((mbxOf s m.val).pi + respSlots r) % 64 ∧
      (mbxOf t m.val).ci = (mbxOf s m.val).ci ∧
      (mbxOf t m.val).rsp = (mbxOf s m.val).rsp.writeN (128 * ((mbxOf s m.val).pi % 32)) (respBytes r) ∧
      Output.ring m.val ((mbxOf s m.val).pi % 32) r ∈ t.out) ∧
  (∀ (s : State) (m : Fin 8) (r : Resp) (rs : List Resp), running s = true → m.val = 2 ∨ m.val = 3 →
    (mbxOf s m.val).conn = true → (mbxOf s m.val).waiting = r :: rs → Runs (.responseWrite m) s fun t =>
      (mbxOf t m.val).waiting = rs ∧ t.out = Output.deliver m.val r :: s.out) ∧
  (∀ (s : State) (r : Resp) (rs : List Resp), running s = true → (mbxOf s 7).waiting = r :: rs →
    Runs (.responseWrite 7) s fun t =>
      (mbxOf t 7).waiting = rs ∧ t.out = Output.serial (slipFrame (respBytes r)) :: s.out) ∧
  (∀ (s : State) (r : Resp) (rs : List Resp), pairUp s = true → (mbxOf s 4).waiting = r :: rs →
    Runs (.responseWrite 4) s fun t => (mbxOf t 4).waiting = rs ∧
      ∃ fs : List RelayTx, t.spn.relayTx = s.spn.relayTx ++ fs ∧ (fs.map (·.data)).flatten = respBytes r ∧
        ∀ x ∈ fs, x.pair = true ∧ x.dst = partnerAddr s ∧ x.data.length ≤ 48 ∧ x.at_ = s.now) ∧
  (∀ (s : State) (r : Resp) (rs : List Resp) (d : Nat), inserted s = true → s.spn.master = some d → d ≠ nodeAddr s →
    (mbxOf s 5).waiting = r :: rs → Runs (.responseWrite 5) s fun t => (mbxOf t 5).waiting = rs ∧
      ∃ fs : List RelayTx, t.spn.relayTx = s.spn.relayTx ++ fs ∧ (fs.map (·.data)).flatten = respBytes r ∧
        ∀ x ∈ fs, x.pair = false ∧ x.dst = d ∧ x.data.length ≤ 48 ∧ x.at_ = s.now) ∧
  (∀ (s : State) (off : BitVec 18) (v : Word), bar0Up s = true → running s = true → off.toNat < 0x1000 →
    (mbxOf s 0).busy = false → Runs (.registerWrite off v) s fun t =>
      mbxOf t 0 = { mbxOf s 0 with window := (mbxOf s 0).window.writeN (off.toNat / 4 * 4) (leBytes 4 v.toNat) } ∧
      t.mem = s.mem ∧ t.host = s.host) ∧
  (∀ (s : State) (off : BitVec 18) (v : Word), bar0Up s = true → running s = true → off.toNat < 0x1000 →
    (mbxOf s 0).busy = true → Runs (.registerWrite off v) s fun t => mbxOf t 0 = { mbxOf s 0 with wrLost := true }) ∧
  (∀ (s : State) (v : Word), bar0Up s = true → running s = false → Runs (.registerWrite 0x30010 v) s fun t =>
    t.boot.listCount = v.setWidth 11 ∧ t.boot.state = s.boot.state ∧ t.host = s.host) ∧
  (∀ (s : State) (off : BitVec 18) (v : Word), bar0Up s = true → 0x38000 ≤ off.toNat → off.toNat < 0x38200 →
    Runs (.registerWrite off v) s fun t =>
      t.host.msix = s.host.msix.writeN (off.toNat / 4 * 4 - 0x38000) (leBytes 4 v.toNat) ∧ t.mbx = s.mbx) ∧
  (∀ (s : State) (v : Word), bar0Up s = true → running s = true → Runs (.registerWrite 0x11008 v) s fun t =>
    t.host.en = v.getLsbD 0 ∧ t.host.base = s.host.base ∧ t.mbx = s.mbx) ∧
  (∀ (s : State) (v : Word), bar0Up s = true → running s = true → s.pmc.en = true → Runs (.registerWrite 0x20008 v) s fun t =>
    t.pmc = s.pmc) ∧
  (∀ (s : State) (v : Word), bar0Up s = true → running s = true → s.pmc.en = false → Runs (.registerWrite 0x20008 v) s fun t =>
    t.pmc.slots = v.toNat % 8192 ∧ t.pmc.base = s.pmc.base)

/-- The event ring: its consumer index, its count of drops, its backlog, and the wake causes published through it
(R107, R108, R110). -/
def Obligations.EventRingCommandsComplete : Prop :=
  (∀ (s : State) (v : Word), bar0Up s = true → running s = true → Runs (.evrCi v) s fun t =>
    t.host = { s.host with ci := v.toNat % 8192 }) ∧
  (∀ s : State, bar0Up s = true → running s = true → Runs .evrDroppedRead s fun t => t.host = { s.host with dropped := 0 }) ∧
  (∀ (s : State) (e : EvEntry), running s = true → ringOpen s.host = true → s.host.dropOwe = 0 → s.host.backlog = [e] →
    Runs .eventBacklogDrain s fun t => t.host.backlog = [] ∧ t.host.pi = (s.host.pi + 1) % 8192 ∧
      t.host.eseq = (s.host.eseq + 1) % 2 ^ 32 ∧
      Output.event (s.host.pi % 4096) (s.host.base.toNat + 64 * (s.host.pi % 4096))
        { e with eseq := (s.host.eseq + 1) % 2 ^ 32, phase := decide (4096 ≤ s.host.pi) } ∈ t.out) ∧
  (∀ s : State, running s = true → ringOpen s.host = true → 0 < s.host.dropOwe → s.host.backlog = [] →
    Runs .eventBacklogDrain s fun t => t.host.dropOwe = 0 ∧ t.host.eseq = (s.host.eseq + 1) % 2 ^ 32 ∧
      ∃ e, Output.event (s.host.pi % 4096) (s.host.base.toNat + 64 * (s.host.pi % 4096)) e ∈ t.out ∧ e.code = 0x0003 ∧
        e.data = [s.host.dropOwe]) ∧
  (∀ (s : State) (r : WakeRec) (rs : List WakeRec), running s = true → ringOpen s.host = true → s.keep.wake = r :: rs →
    Runs .wakeCausePublish s fun t => t.keep.wake = rs ∧ t.host.eseq = (s.host.eseq + 1) % 2 ^ 32 ∧
      t.keep.ten = s.keep.ten ∧
      ∃ e, Output.event (s.host.pi % 4096) (s.host.base.toNat + 64 * (s.host.pi % 4096)) e ∈ t.out ∧ e.code = 0x0001 ∧
        e.wake = true ∧ e.time = r.time)

/-- A TLS connection is opened within Table 04-4 for the port's client key alone, closes the older one of its port and takes
the waiting responses; any other handshake is refused. A connection that ends leaves its responses waiting, and a lockout ends
with its 60 s (R88, R89, R104). -/
def Obligations.ConnectionsComplete : Prop :=
  (∀ (s : State) (port : Fin 2) (hello : TlsHello), running s = true → helloOk hello = true → s.kt.chain.isSome = true →
    s.kt.clientKeys.find port.val = hello.key → Runs (.tlsConnect port hello) s fun t =>
      (mbxOf t (2 + port.val)).conn = true ∧ (mbxOf t (2 + port.val)).waiting = [] ∧ Output.tls port.val true ∈ t.out ∧
      (∀ r ∈ (mbxOf s (2 + port.val)).waiting, Output.deliver (2 + port.val) r ∈ t.out) ∧
      ((mbxOf s (2 + port.val)).conn = true → Output.tls port.val false ∈ t.out)) ∧
  (∀ (s : State) (port : Fin 2) (hello : TlsHello), running s = true →
    helloOk hello = false ∨ s.kt.chain = none ∨ s.kt.clientKeys.find port.val ≠ hello.key →
    Runs (.tlsConnect port hello) s fun t => t.mbx = s.mbx ∧ t.out = Output.tls port.val false :: s.out) ∧
  (∀ (s : State) (port : Fin 2), Runs (.tlsDisconnect port) s fun t =>
    mbxOf t (2 + port.val) = { mbxOf s (2 + port.val) with conn := false }) ∧
  (∀ (s : State) (src : Half) (d : Nat), s.jr.lockout.find src.toNat = some d → Runs (.authLockoutEnd src) s fun t =>
    d ≤ t.now ∧ t.jr.lockout.find src.toNat = none ∧ t.jr.entries = s.jr.entries)

/-- Every query that passes steps 1 to 3 of R98 is answered DONE in its mailbox, with its result and with no journal entry; a
SENSOR_READ with MEASURE whose range has a wet rope waits for its measurement (R93 to R95, R104, R153, R202, R360, R367). -/
def Obligations.QueriesAreAnswered : Prop :=
  (∀ (c : Instr) (op : Half) (h : Hdr) (body : Bytes) (s : State) (i : OpInfo), recordOf c = some (op, h, body) →
    QueryPasses op h body s i →
    (op = 0x0013 → fld (rowRec op h body).body 3 1 = 1 →
      wetRopes s (fld (rowRec op h body).body 1 1) (fld (rowRec op h body).body 2 1) = []) →
    Runs c s fun t => t.jr.entries = s.jr.entries ∧ t.jr.jseq = s.jr.jseq ∧ t.jr.high = s.jr.high ∧
      (mbxOf t h.mbx.val).busy = false ∧
      ∃ r, (mbxOf t h.mbx.val).waiting = [r] ∧ r.status = 0x01 ∧ r.op = op ∧ r.cw = mkCw h.src.toNat h.seq.toNat ∧
        r.final = true ∧
        (op = 0x0001 → r.data = seqResult s (fld (rowRec op h body).body 0 2)) ∧
        (op = 0x0002 → r.data = leBytes 8 (Config.nonce s.free).toNat ++ leBytes 8 (toKeep (s.now + 120000000)) ∧
          ∃ n ∈ t.jr.nonces, n.src.toNat = cwSrc (rowRec op h body).cw ∧ n.val = Config.nonce s.free ∧
            n.stop = s.now + 120000000) ∧
        (op = 0x0003 → (r.result, r.data) = resultResult s (BitVec.ofNat 64 (fld (rowRec op h body).body 0 8))) ∧
        (op = 0x0004 → r.data = statusResult s) ∧ (op = 0x0012 → r.data = leaseRead s (rowRec op h body).body) ∧
        (op = 0x0013 → r.data = sensorRead s (rowRec op h body).body) ∧
        (op = 0x0014 → (r.result, r.data, r.folios) = logRead s (rowRec op h body).body) ∧
        (op = 0x0015 → r.data.take 16 = leBytes 8 (keepTime s) ++ leBytes 4 s.pmc.gen ++ zeros 4 ∧
          r.data.length = 16 + 16 * fld (rowRec op h body).body 1 1) ∧
        (op = 0x0016 → r.data = inventoryRead s (rowRec op h body).body) ∧
        (op = 0x0017 → r.data = spineHealth s) ∧ (op = 0x0018 → r.data = tlsKeyGet s)) ∧
  (∀ (h : Hdr) (body : Bytes) (s : State) (i : OpInfo), QueryPasses 0x0013 h body s i →
    fld (rowRec 0x0013 h body).body 3 1 = 1 →
    wetRopes s (fld (rowRec 0x0013 h body).body 1 1) (fld (rowRec 0x0013 h body).body 2 1) ≠ [] →
    Runs (.sensorRead h body) s fun t =>
      t.afe.asks = s.afe.asks ++ [(h.mbx.val, mkCw h.src.toNat h.seq.toNat, (rowRec 0x0013 h body).body)] ∧
      (mbxOf t h.mbx.val).waiting = [] ∧ t.jr.entries = s.jr.entries ∧
      ∀ n ∈ wetRopes s (fld (rowRec 0x0013 h body).body 1 1) (fld (rowRec 0x0013 h body).body 2 1),
        (leakOf t n).measAt = some s.now)

/-- Every journaled command that passes steps 1 to 8 of R98 at an acting Lead without a partner becomes a PENDING entry
with the next JSEQ, raises its source's high mark, and is answered ACCEPTED with that JSEQ. -/
def Obligations.JournaledCommandsAreAccepted : Prop :=
  ∀ (c : Instr) (op : Half) (h : Hdr) (body : Bytes) (s : State) (i : OpInfo) (k : Option Bool),
    recordOf c = some (op, h, body) → JournalPasses op h body s i k → s.jr.fault = false → h.jok = true →
    s.pair.lead = true → attached s = false → s.pair.state ≠ .syncing → s.jr.jseq + 1 < ownSeq →
    Runs c s fun t =>
      t.jr.entries = makeRoom s.jr.entries ++ [{ newEntry h.mbx.val (rowRec op h body) s with state := .pending }] ∧
      t.jr.jseq = s.jr.jseq + 1 ∧ t.jr.fails = 0 ∧
      t.jr.high.find h.src.toNat = some { seq := h.seq.toNat, jseq := s.jr.jseq + 1 } ∧
      (mbxOf t h.mbx.val).waiting =
        [{ status := 0x00, op := op, cw := mkCw h.src.toNat h.seq.toNat, ref := s.jr.jseq + 1, final := false }] ∧
      (mbxOf t h.mbx.val).busy = false

/-- With the partner attached the entry is TENTATIVE: it is sent over the pair link, and nothing is answered yet (R102). -/
def Obligations.AttachedLeadMirrorsFirst : Prop :=
  ∀ (c : Instr) (op : Half) (h : Hdr) (body : Bytes) (s : State) (i : OpInfo) (k : Option Bool),
    recordOf c = some (op, h, body) → JournalPasses op h body s i k → s.jr.fault = false → h.jok = true →
    s.pair.lead = true → attached s = true → s.jr.jseq + 1 < ownSeq →
    Runs c s fun t =>
      t.jr.entries = makeRoom s.jr.entries ++ [{ newEntry h.mbx.val (rowRec op h body) s with state := .tentative }] ∧
      t.jr.jseq = s.jr.jseq + 1 ∧ t.jr.high = s.jr.high ∧ t.jr.sentAt.find (s.jr.jseq + 1) = some s.now ∧
      (mbxOf t h.mbx.val).waiting = []

/-- A record that a step of R98 turns away leaves no entry, and a copy of an accepted one executes nothing (R98, R100). -/
def Obligations.RefusedAndDuplicateRecordsAdmitNothing : Prop :=
  (∀ (c : Instr) (op : Half) (h : Hdr) (body : Bytes) (s : State), recordOf c = some (op, h, body) →
    running s = true → h.mbx.val ≠ 6 → (h.mbx.val = 7 → h.sound = true) → (mbxOf s h.mbx.val).busy = false →
    (mbxOf s h.mbx.val).waiting = [] →
    ∀ (st : Byte) (d : Nat),
      (isOpenBox s = false ∧ st = 0x14 ∧ d = 0 ∨
       isOpenBox s = true ∧ srcValid h.mbx.val (cwSrc (rowRec op h body).cw) = false ∧ st = 0x14 ∧ d = 8 ∨
       isOpenBox s = true ∧ srcValid h.mbx.val (cwSrc (rowRec op h body).cw) = true ∧
         badHeader (rowRec op h body) = some d ∧ st = 0x14 ∨
       Arrives op h body s ∧ (∃ i k, opInfo op.toNat = some i ∧ i.cls = .j k ∧ findCw (rowRec op h body).cw s = none ∧
         ((cwSeq (rowRec op h body).cw = 0 ∨
             cwSeq (rowRec op h body).cw ≤ (s.jr.high.get {} (cwSrc (rowRec op h body).cw)).seq) ∧ st = 0x14 ∧ d = 8 ∨
          (s.jr.high.get {} (cwSrc (rowRec op h body).cw)).seq < cwSeq (rowRec op h body).cw ∧
            (authCause i (rowRec op h body) s = some d ∧ st = 0x13 ∨
             authCause i (rowRec op h body) s = none ∧ st = 0x14 ∧
               ∃ o, minBad (badBody op.toNat s (rowRec op h body).body) (badTail op.toNat i.body (rowRec op h body).body) =
                 some o ∧ d = 32 + o)))) →
      Runs c s fun t => t.jr.entries = s.jr.entries ∧ t.jr.jseq = s.jr.jseq ∧ t.jr.high = s.jr.high ∧
        ∃ r, (mbxOf t h.mbx.val).waiting = [r] ∧ r.status = st ∧ r.detail = d) ∧
  (∀ (c : Instr) (op : Half) (h : Hdr) (body : Bytes) (s : State) (i : OpInfo) (k : Option Bool) (e : JEntry),
    recordOf c = some (op, h, body) → Arrives op h body s → opInfo op.toNat = some i → i.cls = .j k →
    findCw (rowRec op h body).cw s = some e → recDigest (rowRec op h body) = e.digest →
    (e.state = .done → Runs c s fun t => t.jr.jseq = s.jr.jseq ∧ t.jr.entries.length = s.jr.entries.length ∧
      ∃ r, (mbxOf t h.mbx.val).waiting = [r] ∧ r.status = 0x02 ∧ r.pending = false ∧ r.result = e.result ∧ r.data = e.rdata) ∧
    (e.state = .pending → Runs c s fun t => t.jr.jseq = s.jr.jseq ∧ t.jr.entries.length = s.jr.entries.length ∧
      ∃ r, (mbxOf t h.mbx.val).waiting = [r] ∧ r.status = 0x02 ∧ r.pending = true) ∧
    (e.state = .tentative → Runs c s fun t => t.jr.entries = s.jr.entries ∧ (mbxOf t h.mbx.val).waiting = [] ∧
      ∃ d ∈ t.jr.dups, d.jseq = e.jseq ∧ d.mbx = h.mbx.val))

/-- In CATCH_STORE_FAULT every journaled command that would be accepted is answered FAULT with DETAIL 2; the third failed
write in a row enters that state; a BIND reset release whose write test passes leaves it, and no other command does. -/
def Obligations.CatchStoreFault : Prop :=
  (∀ (c : Instr) (op : Half) (h : Hdr) (body : Bytes) (s : State) (i : OpInfo) (k : Option Bool),
    recordOf c = some (op, h, body) → JournalPasses op h body s i k → s.jr.fault = true →
    Runs c s fun t => t.jr.entries = s.jr.entries ∧ t.jr.fault = true ∧
      (mbxOf t h.mbx.val).waiting.map (fun r => (r.status, r.detail)) = [(0x15, 2)]) ∧
  (∀ (c : Instr) (op : Half) (h : Hdr) (body : Bytes) (s : State) (i : OpInfo) (k : Option Bool),
    recordOf c = some (op, h, body) → JournalPasses op h body s i k → s.jr.fault = false → h.jok = false →
    Runs c s fun t => t.jr.entries = s.jr.entries ∧ t.jr.fails = s.jr.fails + 1 ∧
      (t.jr.fault = true ↔ 2 ≤ s.jr.fails) ∧
      (mbxOf t h.mbx.val).waiting.map (fun r => (r.status, r.detail)) = [(0x15, 3)]) ∧
  (∀ (c : Instr) (s t : State), s.jr.fault = true → exec c s = .next t → t.jr.fault = true ∨
    (∃ straps : Straps, c = .bindResetRelease straps true))

/-- OBJECT_STAGE stores a chunk at once or starts a list's reads; the list's entries are judged as they arrive (log 142), a
failed read is FAULT with DETAIL 4, and an object complete with its digest is usable (R93, R96). -/
def Obligations.StagingCompletes : Prop :=
  (∀ (h : Hdr) (body : Bytes) (s : State), Arrives 0x0005 h body s →
    hostRm.contains (rankOf (cwSrc (rowRec 0x0005 h body).cw) h.flags) = true →
    badStage h.mbx.val s (rowRec 0x0005 h body).body = none → badTail 0x0005 56 (rowRec 0x0005 h body).body = none →
    fld (rowRec 0x0005 h body).body 40 2 = 1 → Runs (.objectStage h body) s fun t =>
      t.stg.dma = s.stg.dma ++ [.mk h.mbx.val 0x0005 (mkCw h.src.toNat h.seq.toNat) (digestAt (rowRec 0x0005 h body).body 0)
        (fld (rowRec 0x0005 h body).body 32 4) (fld (rowRec 0x0005 h body).body 36 4)
        (fld (rowRec 0x0005 h body).body 48 8) (fld (rowRec 0x0005 h body).body 56 2)] ∧
      .dmaRead (fld (rowRec 0x0005 h body).body 48 8) (16 * fld (rowRec 0x0005 h body).body 56 2) ∈ t.out ∧
      t.stg.objs = s.stg.objs ∧ (mbxOf t h.mbx.val).waiting = []) ∧
  (∀ (h : Hdr) (body : Bytes) (s : State), Arrives 0x0005 h body s →
    hostRm.contains (rankOf (cwSrc (rowRec 0x0005 h body).cw) h.flags) = true →
    badStage h.mbx.val s (rowRec 0x0005 h body).body = none → badTail 0x0005 56 (rowRec 0x0005 h body).body = none →
    fld (rowRec 0x0005 h body).body 40 2 = 0 → findObj (digestAt (rowRec 0x0005 h body).body 0) s = none →
    stagedBytes (s.pwr.store == .on) s + fld (rowRec 0x0005 h body).body 42 2 ≤ stageLimit (s.pwr.store == .on) →
    fld (rowRec 0x0005 h body).body 42 2 < fld (rowRec 0x0005 h body).body 32 4 →
    Runs (.objectStage h body) s fun t => ∃ o, findObj (digestAt (rowRec 0x0005 h body).body 0) t = some o ∧
      o.ready = false ∧ o.total = fld (rowRec 0x0005 h body).body 32 4 ∧
      (mbxOf t h.mbx.val).waiting.map (fun r => (r.status, r.data)) =
        [(0x01, leBytes 4 (fld (rowRec 0x0005 h body).body 42 2) ++ leBytes 1 0)]) ∧
  (∀ (s : State) (x : StageDma) (xs : List StageDma) (list : List Scatter) (data : Option Bytes), s.stg.dma = x :: xs →
    x.mbx ≠ 6 →
    ∀ (st : Byte) (d : Nat),
      (list.length < x.count ∧ st = 0x15 ∧ d = 4 ∨
       x.count ≤ list.length ∧ entriesOk (list.take x.count) = false ∧ st = 0x14 ∧ d = 80 ∨
       x.count ≤ list.length ∧ entriesOk (list.take x.count) = true ∧
         (x.total < x.offset + listTotal (list.take x.count) ∧ st = 0x14 ∧ d = 68 ∨
          x.offset + listTotal (list.take x.count) ≤ x.total ∧ data = none ∧ st = 0x15 ∧ d = 4)) →
      Runs (.stageDmaDone list data) s fun t => t.stg.dma = xs ∧ t.stg.objs = s.stg.objs ∧
        ∃ r ∈ (mbxOf t x.mbx).waiting, r.status = st ∧ r.detail = d ∧ r.cw = x.cw) ∧
  (∀ (s : State) (x : StageDma) (xs : List StageDma) (list : List Scatter) (data : Bytes), s.stg.dma = x :: xs → x.mbx ≠ 6 →
    x.count ≤ list.length → entriesOk (list.take x.count) = true → listTotal (list.take x.count) = data.length →
    findObj x.digest s = none → x.offset = 0 → 0 < x.total → data.length = x.total → sha256 data = x.digest →
    stagedBytes (s.pwr.store == .on) s + x.total ≤ stageLimit (s.pwr.store == .on) →
    Runs (.stageDmaDone list (some data)) s fun t => t.stg.dma = xs ∧ objBytes x.digest t = some data ∧
      ∃ r ∈ (mbxOf t x.mbx).waiting, r.status = 0x01 ∧ r.cw = x.cw ∧ r.data = leBytes 4 x.total ++ leBytes 1 1)

/-- The commands that set one value take effect through COMMAND_EFFECT and complete OK (R80, R97, R104, R109, R142, R159,
R164). -/
def Obligations.SettingsTakeEffect : Prop :=
  ∀ (e : JEntry) (s : State), EffectDue e s →
    (e.op = 0x0103 → (∀ n < 16, (trayOf s n).startSeq = 0) → Runs .commandEffect s fun t => DoneWith e 0 t ∧
      ∀ n < 16, (trayOf t n).permit =
        if (fld e.body 0 2).testBit n then (fld e.body 2 2).testBit n else (trayOf s n).permit) ∧
    (e.op = 0x0105 → Runs .commandEffect s fun t => DoneWith e 0 t ∧ t.kt.budget = some (fld e.body 0 4)) ∧
    (e.op = 0x0106 → Runs .commandEffect s fun t => DoneWith e 0 t ∧ t.kt.rowBudget = fld e.body 0 4 ∧ t.kt.budget = s.kt.budget) ∧
    (e.op = 0x0602 → 0 < fld e.body 0 2 → Runs .commandEffect s fun t =>
      DoneWith e 0 t ∧ t.kt.proofHours = fld e.body 0 2 ∧ t.kt.budget = s.kt.budget) ∧
    (e.op = 0x0800 → Runs .commandEffect s fun t => DoneWith e 0 t ∧
      (fld e.body 0 1 = 0 → t.kt.key0 = some (digestAt e.body 8) ∧ t.kt.key1 = s.kt.key1) ∧
      (fld e.body 0 1 ≠ 0 → t.kt.key1 = some (digestAt e.body 8) ∧ t.kt.key0 = s.kt.key0)) ∧
    (e.op = 0x0801 → Runs .commandEffect s fun t => DoneWith e 0 t ∧
      t.otp = { s.otp with slotRevoked := s.otp.slotRevoked ||| (1#4 <<< fld e.body 0 1) }) ∧
    (e.op = 0x0802 → Runs .commandEffect s fun t => DoneWith e 0 t ∧
      t.otp = { s.otp with rollback := max s.otp.rollback (fld e.body 0 1) }) ∧
    (e.op = 0x0803 → Runs .commandEffect s fun t => DoneWith e 0 t ∧ t.jr.resetAt = some s.now ∧ t.pwr = s.pwr) ∧
    (e.op = 0x0804 → Runs .commandEffect s fun t =>
      DoneWith e 0 t ∧ t.kt.wakeMask = some (BitVec.ofNat 16 (fld e.body 0 2)) ∧ t.keep.wake = s.keep.wake) ∧
    (∀ n : Nat, e.op = 0x0103 → n < 16 → (fld e.body 0 2).testBit n = true → (fld e.body 2 2).testBit n = false →
      (trayOf s n).startSeq ≠ 0 → (trayOf s n).startAt = none → (∀ m < 16, m ≠ n → (trayOf s m).startSeq = 0) →
      Runs .commandEffect s fun t => (trayOf t n).permit = false ∧ (trayOf t n).startSeq = 0 ∧
        t.lv.queue.all (fun q => !(q.start && q.tray == n)) = true ∧ t.keep.ten = s.keep.ten)

/-- STAGGER_SET stores the interval from its effect onwards, and at power-on it is 2 s; a started tray's next slot opens
one stored interval after its TEN assertion. -/
def Obligations.StaggerIntervalIsStored : Prop :=
  State.reset.kt.stagger = 2000 ∧
  (∀ (e : JEntry) (s : State), EffectDue e s → e.op = 0x0108 → Runs .commandEffect s fun t =>
    DoneWith e 0 t ∧ t.kt.stagger = fld e.body 0 4 ∧ t.lv.slotAt = s.lv.slotAt) ∧
  (∀ (s : State) (d : Nat) (n : Nat) (q : List Stagger), acting s = true → s.lv.slotAt = some d → s.lv.deferAt = none →
    s.lv.queue = { tray := n } :: q → mayResume s n = true → s.pair.silent = none → (agentOf s n).link = .up →
    s.lv.table.isSome = true → s.lv.stale = false → leaveHeld s = false → 0 ≤ freeW s → baseOk (tableOf s) n = true →
    Runs .staggerSlot s fun t =>
      d ≤ t.now ∧ t.lv.slotAt = some (t.now + s.kt.stagger * 1000) ∧ t.lv.queue = q) ∧
  (∀ (s : State) (d j n : Nat) (q : List Stagger), acting s = true → attached s = false → s.pair.tenWait = none → n < 16 →
    s.lv.slotAt = some d → s.lv.deferAt = none → s.lv.queue = { tray := n, start := true, jseq := j } :: q →
    (invOf s n).desc.isSome = true → s.lv.table.isSome = true → s.lv.stale = false → leaveHeld s = false →
    (baseSum (descOf s n) : Int) ≤ freeW s → baseOk (tableOf s) n = true → Runs .staggerSlot s fun t =>
      bit16 t.keep.ten n = true ∧ t.lv.slotAt = some (t.now + s.kt.stagger * 1000))

/-- The tray commands' effects: a start is queued, a stop revokes and asserts CAPDN at once and lowers TEN after 10 ms, a
limit is set, a hold lasts to its END, and one below a queued start's limit ends that start and leaves TEN as it is (R141 to
R144). -/
def Obligations.TrayCommandsTakeEffect : Prop :=
  ∀ (e : JEntry) (s : State), EffectDue e s → fld e.body 0 1 < 16 →
    (e.op = 0x0100 → enabled s (fld e.body 0 1) = false → tripped s (fld e.body 0 1) = false →
      (trayOf s (fld e.body 0 1)).permit = true → 1 < (trayOf s (fld e.body 0 1)).rm → (trayOf s (fld e.body 0 1)).startSeq = 0 →
      Runs .commandEffect s fun t =>
        t.lv.queue = s.lv.queue ++ [{ tray := fld e.body 0 1, start := true, jseq := e.jseq }] ∧
        (trayOf t (fld e.body 0 1)).host = fld e.body 2 2 ∧ (trayOf t (fld e.body 0 1)).startSeq = e.jseq ∧
        t.keep.ten = s.keep.ten) ∧
    (e.op = 0x0100 → enabled s (fld e.body 0 1) = false → tripped s (fld e.body 0 1) = true →
      (trayOf s (fld e.body 0 1)).permit = true → 1 < (trayOf s (fld e.body 0 1)).rm →
      Runs .commandEffect s fun t => DoneWith e 0x0602 t ∧ t.lv.queue = s.lv.queue) ∧
    (e.op = 0x0101 → fld e.body 1 1 = 1 → enabled s (fld e.body 0 1) = true → (trayOf s (fld e.body 0 1)).startSeq = 0 →
      (trayOf s (fld e.body 0 1)).stopAt = none → Runs .commandEffect s fun t =>
        bit16 t.keep.capdn (fld e.body 0 1) = true ∧ t.keep.ten = s.keep.ten ∧
        (trayOf t (fld e.body 0 1)).stopAt = some (s.now + 10000) ∧
        t.lv.leases.all (fun l => !(l.kind == 0 && l.owner / 8 == fld e.body 0 1)) = true) ∧
    (e.op = 0x0102 → entryRank e = .host → 1 < fld e.body 2 2 → 1 < (trayOf s (fld e.body 0 1)).rm →
      (trayOf s (fld e.body 0 1)).host ≤ fld e.body 2 2 → 1 < (trayOf s (fld e.body 0 1)).host →
      Runs .commandEffect s fun t =>
        DoneWith e 0 t ∧ (trayOf t (fld e.body 0 1)).host = fld e.body 2 2 ∧
        (trayOf t (fld e.body 0 1)).rm = (trayOf s (fld e.body 0 1)).rm) ∧
    (e.op = 0x0104 → keepTime s < fld e.body 8 8 → (trayOf s (fld e.body 0 1)).holdSeq = 0 →
      (trayOf s (fld e.body 0 1)).startSeq = 0 → 1 < fld e.body 2 2 → 1 < (trayOf s (fld e.body 0 1)).host →
      Runs .commandEffect s fun t =>
        (trayOf t (fld e.body 0 1)).rm = fld e.body 2 2 ∧ (trayOf t (fld e.body 0 1)).holdRef = e.cw ∧
        (trayOf t (fld e.body 0 1)).holdEnd = fld e.body 8 8 ∧ (trayOf t (fld e.body 0 1)).holdSeq = e.jseq) ∧
    (e.op = 0x0104 → fld e.body 8 8 = 0 → 1 < fld e.body 2 2 → fld e.body 2 2 < (trayOf s (fld e.body 0 1)).host →
      (trayOf s (fld e.body 0 1)).startSeq ≠ 0 → (trayOf s (fld e.body 0 1)).startAt = none →
      Runs .commandEffect s fun t =>
        (trayOf t (fld e.body 0 1)).rm = fld e.body 2 2 ∧ (trayOf t (fld e.body 0 1)).startSeq = 0 ∧
        t.lv.queue.all (fun q => !(q.start && q.tray == fld e.body 0 1)) = true ∧ t.keep.ten = s.keep.ten)

/-! ## Leave, leases and trays (chapter 06) -/

/-- A leave request that the decision grants has its lease, and one that it defers or denies is answered so to its agent; a
return ends its lease (R147 to R149, R152). -/
def Obligations.LeaveRecordsAreAnswered : Prop :=
  (∀ (h : Hdr) (body : Bytes) (s : State) (cap : Nat), LeaveArrives 0x0010 h body s → body.length = 16 → h.token = [] →
    s.lv.leases.find? (fun l => l.kind == 0 && l.cw == mkCw h.src.toNat h.seq.toNat) = none →
    badLeave s (trayOfSrc h.src.toNat) body = none →
    decideLeave s (trayOfSrc h.src.toNat) (fld body 0 1) (fld body 4 2) (fld body 6 2) (fld body 8 4) = .grant cap →
    Runs (.leaveRequest h body) s fun t =>
      (∃ l ∈ t.lv.leases, l.kind = 0 ∧ l.owner = trayOfSrc h.src.toNat * 8 + fld body 0 1 ∧ l.capW = cap ∧
        l.cw = mkCw h.src.toNat h.seq.toNat ∧ l.start = s.now ∧ l.stop = s.now + fld body 8 4 * 1000) ∧
      t.lv.high.get 0 h.src.toNat = h.seq.toNat ∧ t.jr = s.jr ∧ t.keep.capdn = s.keep.capdn) ∧
  (∀ (h : Hdr) (body : Bytes) (s : State) (ms reason : Nat), LeaveArrives 0x0010 h body s → body.length = 16 →
    h.token = [] → s.lv.leases.find? (fun l => l.kind == 0 && l.cw == mkCw h.src.toNat h.seq.toNat) = none →
    badLeave s (trayOfSrc h.src.toNat) body = none →
    decideLeave s (trayOfSrc h.src.toNat) (fld body 0 1) (fld body 4 2) (fld body 6 2) (fld body 8 4) = .defer ms reason →
    Runs (.leaveRequest h body) s fun t => t.lv.leases = s.lv.leases ∧
      (agentOf t (trayOfSrc h.src.toNat)).answers = (agentOf s (trayOfSrc h.src.toNat)).answers ++
        [leaveResp (mkCw h.src.toNat h.seq.toNat) true (leaveBody 1 reason 0 (allowedW s (trayOfSrc h.src.toNat * 8 + fld body 0 1)) 0 ms 0 0)]) ∧
  (∀ (h : Hdr) (body : Bytes) (s : State) (reason : Nat), LeaveArrives 0x0010 h body s → body.length = 16 →
    h.token = [] → s.lv.leases.find? (fun l => l.kind == 0 && l.cw == mkCw h.src.toNat h.seq.toNat) = none →
    badLeave s (trayOfSrc h.src.toNat) body = none →
    decideLeave s (trayOfSrc h.src.toNat) (fld body 0 1) (fld body 4 2) (fld body 6 2) (fld body 8 4) = .deny reason →
    Runs (.leaveRequest h body) s fun t => t.lv.leases = s.lv.leases ∧
      (agentOf t (trayOfSrc h.src.toNat)).answers = (agentOf s (trayOfSrc h.src.toNat)).answers ++
        [leaveResp (mkCw h.src.toNat h.seq.toNat) true (leaveBody 2 reason 0 (allowedW s (trayOfSrc h.src.toNat * 8 + fld body 0 1)) 0 0 0 0)]) ∧
  (∀ (h : Hdr) (body : Bytes) (s : State) (l : Lease), LeaveArrives 0x0011 h body s → body.length = 8 →
    h.token = [] → isZero body 2 6 = true →
    s.lv.leases.find? (fun l => l.kind == 0 && l.id == fld body 0 2 && l.owner / 8 == trayOfSrc h.src.toNat) = some l →
    Runs (.leaveReturn h body) s fun t => t.lv.leases = s.lv.leases.filter (fun x => x.id != l.id) ∧
      ∃ r ∈ (agentOf t (trayOfSrc h.src.toNat)).answers, r.op = 0x0011 ∧ r.cw = mkCw h.src.toNat h.seq.toNat ∧ r.final = true)

/-- A grant never takes FREE below 0, and no decision grants while CAPDN is low, a trip holds, or the table is stale
(R32, R146, R149). -/
def Obligations.GrantsStayWithinTheLedger : Prop :=
  ∀ (s : State) (t a want least ms cap : Nat), least ≤ want → decideLeave s t a want least ms = .grant cap →
    0 ≤ freeW s ∧ tripped s t = false ∧ capdnLow s t = false ∧ trayOff s t = false ∧ s.lv.table.isSome = true ∧ s.lv.stale = false ∧
    least ≤ cap ∧ cap ≤ max want (accBase (descOf s t) a) ∧ cap ≤ max (ceilingOf s t a) (accBase (descOf s t) a) ∧
    ((cap : Int) - accBase (descOf s t) a ≤
      freeW s + (match leaseOf s (t * 8 + a) with | some l => (l.extra : Int) | none => 0))

/-- Leases end by themselves, tables go stale, stops and holds end, and a deferred quire half asks again (R37, R143, R144, R151,
R152, R160). A stop whose time has come lowers TEN; LONE_CHECK holds the line, and the change waits (R132). -/
def Obligations.LeaveTimersComplete : Prop :=
  (∀ (s : State) (l : Lease), s.lv.leases.find? (·.id == l.id) = some l → l.stop ≠ 0 → s.pair.lead = true →
    Runs (.leaseExpiry l.id) s fun t => l.stop ≤ t.now ∧ t.lv.leases = s.lv.leases.filter (fun x => x.id != l.id) ∧
      (l.kind = 0 → t.lv.falling = s.lv.falling ++ [l])) ∧
  (∀ (s : State) (l : Lease), s.lv.falling.find? (·.id == l.id) = some l → Runs (.allowanceFall l.id) s fun t =>
    l.stop + 2000 ≤ t.now ∧ t.lv.falling = s.lv.falling.filter (fun x => x.id != l.id) ∧ t.lv.leases = s.lv.leases) ∧
  (∀ s : State, running s = true → s.lv.everTable = true → s.lv.stale = false → Runs .leaveTableStale s fun t =>
    s.lv.tableAt + 20000 ≤ t.now ∧ t.lv.stale = true ∧ t.lv.leases = s.lv.leases) ∧
  (∀ (s : State) (n : Fin 16) (d : Nat), (trayOf s n.val).stopAt = some d → acting s = true → attached s = false →
    s.pair.tenWait = none → s.pair.state ≠ .lone → Runs (.trayStopDelay n) s fun t =>
      d ≤ t.now ∧ t.keep.ten = put16 s.keep.ten n.val false ∧ t.ket.trip = s.ket.trip) ∧
  (∀ (s : State) (n : Fin 16) (d : Nat), (trayOf s n.val).stopAt = some d → acting s = true → s.pair.state = .lone →
    Runs (.trayStopDelay n) s fun t => d ≤ t.now ∧ t.keep.ten = s.keep.ten ∧ t.keep.capdn = s.keep.capdn ∧
      t.pair.tenWait = some (put16 (tenTarget s) n.val false)) ∧
  (∀ (s : State) (n : Fin 16), (trayOf s n.val).holdEnd ≠ 0 → running s = true →
    Runs (.holdEnd n) s fun t => fromKeep (trayOf s n.val).holdEnd ≤ t.now ∧ (trayOf t n.val).rm = 0xFFFF ∧
      (trayOf t n.val).holdEnd = 0 ∧ (trayOf t n.val).host = (trayOf s n.val).host) ∧
  (∀ (s : State) (w : LeaveWait), running s = true → s.lv.waits = [w] → w.kind = 2 → w.owner < 2 → s.pwr.store = .on →
    halfOf s w.owner = .off → halfTurn w.owner s = true → internalAsk 20 s = none →
    halfOf s (1 - w.owner) ≠ .powering → Runs (.internalLeaveRetry w.id) s fun t =>
      w.at_ ≤ t.now ∧ t.lv.waits = [] ∧ halfOf t w.owner = .powering)

/-- Power reports, agent silence and loss, and the stagger queue (R154 to R158, R331, R332). A tray whose reports exceed 105 % of
its allowance twice running, or whose agent does not report, has CAPDN asserted at once and its leases revoked, once. -/
def Obligations.TrayAgentCommandsComplete : Prop :=
  (∀ (s : State) (n : Fin 16) (r : PowerReport), running s = true → s.pair.lead = false → (agentOf s n.val).link = .up →
    r.ok = true → (agentOf s n.val).seq ≠ some r.seq → Runs (.trayPoll n r) s fun t =>
      (agentOf s n.val).pollAt ≤ t.now ∧ (agentOf t n.val).pollAt = t.now + 1000 ∧
      (agentOf t n.val).seq = some r.seq ∧ (agentOf t n.val).lastAt = t.now ∧ (trayOf t n.val).watts = r.trayW ∧
      t.keep.ten = s.keep.ten ∧ t.keep.capdn = s.keep.capdn) ∧
  (∀ (s : State) (n : Fin 16) (r : PowerReport), acting s = true → s.pair.state ≠ .lone → (agentOf s n.val).link = .up →
    r.ok = true → (agentOf s n.val).seq ≠ some r.seq → trayOff s n.val = false →
    105 * allowance s n.val < r.trayW * 100 → (trayOf s n.val).overs = 1 → (agentOf s n.val).capdnBy = false → r.state = 0 →
    Runs (.trayPoll n r) s fun t =>
      bit16 t.keep.capdn n.val = true ∧ t.lv.leases.all (fun l => !(l.kind == 0 && l.owner / 8 == n.val)) = true ∧
      (trayOf t n.val).overs = 2 ∧ t.keep.ten = s.keep.ten) ∧
  (∀ (s : State) (n : Fin 16) (r : PowerReport), acting s = true → (agentOf s n.val).link = .up → r.ok = true →
    (agentOf s n.val).seq ≠ some r.seq → r.trayW * 100 ≤ 105 * allowance s n.val → (agentOf s n.val).capdnBy = false →
    r.state = 0 → Runs (.trayPoll n r) s fun t =>
      (trayOf t n.val).overs = 0 ∧ t.lv.leases = s.lv.leases ∧ t.keep.capdn = s.keep.capdn) ∧
  (∀ (s : State) (n : Fin 16), acting s = true → s.pair.state ≠ .lone → (agentOf s n.val).link = .up →
    trayOff s n.val = false → (agentOf s n.val).capdnBy = false → Runs (.agentSilence n) s fun t =>
      (agentOf s n.val).lastAt + 10000 ≤ t.now ∧ (agentOf t n.val).link = .silent ∧ (agentOf t n.val).capdnBy = true ∧
      bit16 t.keep.capdn n.val = true ∧ t.lv.leases.all (fun l => !(l.kind == 0 && l.owner / 8 == n.val)) = true ∧
      t.keep.ten = s.keep.ten) ∧
  (∀ (s : State) (n : Fin 16), acting s = true → s.pair.state ≠ .lone → (agentOf s n.val).link ≠ .up →
    trayOff s n.val = false → (agentOf s n.val).capdnBy = false → Runs (.agentSilence n) s fun t =>
      (agentOf s n.val).lastAt + 10000 ≤ t.now ∧ (agentOf t n.val).link = (agentOf s n.val).link ∧
      (agentOf t n.val).capdnBy = true ∧ bit16 t.keep.capdn n.val = true ∧ t.keep.ten = s.keep.ten) ∧
  (∀ (s : State) (n : Fin 16), running s = true → (agentOf s n.val).link = .silent → Runs (.agentLost n) s fun t =>
    (agentOf s n.val).lastAt + 1000000 ≤ t.now ∧ (agentOf t n.val).link = .lost ∧
    (agentOf t n.val).tryAt = t.now + 1000000 ∧ .rstdaa (n.val / 4) ∈ t.out ∧
    (∀ r, s.stw.run = some r → r.job.tray = n.val → s.stw.queue = [] → t.stw.run = none)) ∧
  (∀ (s : State) (n : Fin 16) (desc : Bytes), running s = true →
    (agentOf s n.val).link = .lost ∨ (agentOf s n.val).link = .absent →
    Runs (.agentSetdasaRetry n false desc) s fun t => (agentOf s n.val).tryAt ≤ t.now ∧
      (agentOf t n.val).link = (agentOf s n.val).link ∧ (agentOf t n.val).tryAt = t.now + 1000000 ∧
      t.out = .setdasa (n.val / 4) (0x30 + n.val % 4) (0x10 + n.val % 4) :: s.out) ∧
  (∀ (s : State) (n : Fin 16) (desc : Bytes), running s = true →
    (agentOf s n.val).link = .lost ∨ (agentOf s n.val).link = .absent →
    Runs (.agentSetdasaRetry n true desc) s fun t => (agentOf t n.val).link = .up ∧
      (agentOf t n.val).role = some s.pair.lead ∧ (agentOf t n.val).lastAt = t.now ∧
      .setdasa (n.val / 4) (0x30 + n.val % 4) (0x10 + n.val % 4) ∈ t.out ∧
      .i3c (n.val / 4) (0x10 + n.val % 4) (controlBytes 1 s.pair.lead.toNat ((agentOf s n.val).cseq + 1)) ∈ t.out) ∧
  (∀ (s : State) (d : Nat) (n : Nat) (q : List Stagger), acting s = true → attached s = false → s.pair.tenWait = none →
    n < 16 → s.lv.deferAt = some d → s.lv.queue = { tray := n } :: q → mayResume s n = true → s.pair.silent = none →
    (agentOf s n).link = .up → s.lv.table.isSome = true → s.lv.stale = false → leaveHeld s = false → 0 ≤ freeW s →
    baseOk (tableOf s) n = true → Runs .staggerDeferRetry s fun t =>
      d ≤ t.now ∧ t.lv.queue = q ∧ t.lv.deferAt = none ∧ t.keep.capdn = put16 s.keep.capdn n false) ∧
  (∀ (s : State) (d j n : Nat) (q : List Stagger), acting s = true → attached s = false → s.pair.tenWait = none → n < 16 →
    s.lv.slotAt = some d → s.lv.deferAt = none → s.lv.queue = { tray := n, start := true, jseq := j } :: q →
    (invOf s n).desc.isSome = true → s.lv.table.isSome = true → s.lv.stale = false → leaveHeld s = false →
    (baseSum (descOf s n) : Int) ≤ freeW s → baseOk (tableOf s) n = true → Runs .staggerSlot s fun t =>
      d ≤ t.now ∧ t.lv.queue = q ∧ t.keep.ten = put16 s.keep.ten n true ∧ bit16 t.keep.capdn n = true ∧
      (trayOf t n).startAt = some (t.now + 10000000)) ∧
  (∀ (s : State) (n : Fin 16) (d : Nat), acting s = true → attached s = false → s.pair.tenWait = none →
    s.pair.state ≠ .lone → (trayOf s n.val).startAt = some d → Runs (.trayStartTimeout n) s fun t =>
      d ≤ t.now ∧ t.keep.ten = put16 s.keep.ten n.val false)

/-! ## The kettle path (chapter 07) -/

/-- A source that trips latches every tray routed to it and asserts TRIP at once; at a board that drives TEN the trays' TEN falls,
and CAPDN is asserted at each tray that was not tripped before (R166, R170, R171). A foreign trip latches its tray with the cause
FOREIGN, and a high net is noted (R173); a masked source trips nothing, and its mask is kept in the catch store (R178). A reading
that comes while a location measurement drives the loop is held until it ends (R176). -/
def Obligations.TripsLatchTheirTrays : Prop :=
  (∀ (s : State) (src : Fin 33) (reading : LeakReading), s.keep.por = false → routeEnable s.ket.route src.val = true →
    (leakOf s src.val).meas = none → (leakOf s src.val).masked = false →
    leakActive s.ket.route src.val (leakOf s src.val) = false → Runs (.kettleTrip src reading) s fun t =>
      (leakOf t src.val).wet = true ∧ (leakOf t src.val).latch = true ∧
      (∀ n < 16, (routeMask s.ket.route src.val).testBit n = true → tripped t n = true ∧ tripDriven t n = true) ∧
      (∀ n < 16, (routeMask s.ket.route src.val).testBit n = false → tripped t n = tripped s n) ∧
      t.ket.route = s.ket.route ∧
      (drivesTen s = true → ∀ n < 16, (routeMask s.ket.route src.val).testBit n = true → bit16 t.keep.ten n = false) ∧
      (running s = false ∨ s.pair.lead = true → s.pair.state ≠ .lone → ∀ n < 16,
        (routeMask s.ket.route src.val).testBit n = true → tripped s n = false → bit16 t.keep.capdn n = true)) ∧
  (∀ (s : State) (n : Fin 16), s.keep.por = false → tripDriven s n.val = false → Runs (.foreignTrip n) s fun t =>
    tripped t n.val = true ∧ (t.ket.causes.get 0 n.val).testBit 33 = true ∧ t.ket.foreignHi.get false n.val = false) ∧
  (∀ (s : State) (n : Fin 16), s.keep.por = false → s.ket.release = [] → Runs (.foreignCauseClear n) s fun t =>
    t.ket.foreignHi.get false n.val = true ∧ t.ket.trip = s.ket.trip) ∧
  (∀ (s : State) (src : Fin 33) (reading : LeakReading), s.keep.por = false → routeEnable s.ket.route src.val = true →
    (leakOf s src.val).meas = none → (leakOf s src.val).masked = true → Runs (.kettleTrip src reading) s fun t =>
      (leakOf t src.val).wet = true ∧ t.ket.trip = s.ket.trip ∧ t.keep.ten = s.keep.ten ∧ t.keep.capdn = s.keep.capdn) ∧
  (∀ (s : State) (src : Fin 33) (reading : LeakReading) (d : Nat), s.keep.por = false →
    routeEnable s.ket.route src.val = true → (leakOf s src.val).meas = some d → Runs (.kettleTrip src reading) s fun t =>
      (leakOf t src.val).hold = some (true, decide (src.val < 32) && reading == .short) ∧ t.ket.trip = s.ket.trip) ∧
  (∀ (e : JEntry) (s : State), EffectDue e s → e.op = 0x0201 → fld e.body 0 1 < 33 → fld e.body 1 1 = 1 →
    s.keep.por = false → s.keep.tenRead = true → Runs .commandEffect s fun t =>
      DoneWith e 0 t ∧ (leakOf t (fld e.body 0 1)).masked = true ∧
      t.cat.masks.get false (fld e.body 0 1) = true ∧ t.ket.trip = s.ket.trip)

/-- An input that reads dry leaves every latch set; a trip is released by TRIP_RELEASE alone, for the trays whose causes
are all releasable, at its effect or within the second that follows (R172, R179, R180). -/
def Obligations.ReleaseCompletes : Prop :=
  (∀ (s : State) (src : Fin 33), s.keep.por = false → routeEnable s.ket.route src.val = true →
    (leakOf s src.val).meas = none → (leakOf s src.val).chat = false → (leakOf s src.val).open_ = false →
    Runs (.leakInputClear src) s fun t =>
      (leakOf t src.val).wet = false ∧ (leakOf t src.val).short = false ∧
      (leakOf t src.val).latch = (leakOf s src.val).latch ∧ t.ket.trip = s.ket.trip ∧ (leakOf t src.val).clear.isSome = true) ∧
  (∀ (e : JEntry) (s : State) (n : Nat), EffectDue e s → e.op = 0x0200 → n < 16 → (fld e.body 0 2).testBit n = true →
    tripped s n = true → trayReleasable s n = true → Runs .commandEffect s fun t => tripped t n = false ∧
      t.ket.release.length = s.ket.release.length + 1 ∧ t.keep.ten = s.keep.ten) ∧
  (∀ (e : JEntry) (s : State) (n : Nat), EffectDue e s → e.op = 0x0200 → n < 16 → tripped s n = true →
    trayReleasable s n = false → Runs .commandEffect s fun t => tripped t n = true) ∧
  (∀ (s : State) (r : Release) (rs : List Release) (e : JEntry), s.ket.release = r :: rs → findEntry r.jseq s = some e →
    e.state = .pending → e.doneWait = false → s.pair.lead = true → attached s = false → s.pair.state ≠ .syncing →
    r.trays &&& s.ket.trip = 0 → Runs .tripReleaseWindowEnd s fun t =>
      r.stop ≤ t.now ∧ t.ket.release = rs ∧ DoneWith e 0 t)

/-- Rope location, and the stuck, chatter and open conditions and their ends (R176, R177). -/
def Obligations.LeakConditionsComplete : Prop :=
  (∀ (s : State) (n : Fin 16) (d : Nat), s.keep.por = false → routeEnable s.ket.route n.val = true →
    (leakOf s n.val).wet = true → (leakOf s n.val).measAt = some d → Runs (.ropeLocationMeasure n) s fun t =>
      d ≤ t.now ∧ (leakOf t n.val).meas = some (t.now + 1000) ∧ (leakOf t n.val).measAt = some (t.now + 1000000)) ∧
  (∀ (s : State) (n : Fin 16) (va vb vs d : Nat), (leakOf s n.val).meas = some d → (leakOf s n.val).hold = none →
    vb < va → vs ≤ va → s.afe.asks = [] →
    (va - vs) * ropeLen s.ket.route n.val % (va - vb) = 0 → (va - vs) * ropeLen s.ket.route n.val / (va - vb) < 65536 →
    Runs (.ropeMeasureDone n va vb vs) s fun t =>
      d ≤ t.now ∧ (leakOf t n.val).meas = none ∧ (leakOf t n.val).loc = (va - vs) * ropeLen s.ket.route n.val / (va - vb) ∧
      t.ket.trip = s.ket.trip) ∧
  (∀ (s : State) (src : Fin 33) (d : Nat), s.keep.por = false → s.keep.tenRead = true → (leakOf s src.val).since = some d →
    (leakOf s src.val).stuck = false → Runs (.leakStuck src) s fun t =>
      d + 1800000000 ≤ t.now ∧ (leakOf t src.val).stuck = true ∧ t.cat.stuck.get false src.val = true ∧
      t.ket.trip = s.ket.trip) ∧
  (∀ (s : State) (src : Fin 33), s.keep.por = false → s.keep.tenRead = true → routeEnable s.ket.route src.val = true →
    (leakOf s src.val).chat = false → 8 < transitions s src.val → (leakOf s src.val).masked = false →
    leakActive s.ket.route src.val (leakOf s src.val) = false → Runs (.leakChatter src) s fun t =>
      (leakOf t src.val).chat = true ∧ (leakOf t src.val).latch = true ∧ t.cat.chat.get false src.val = true ∧
      (∀ n < 16, (routeMask s.ket.route src.val).testBit n = true → tripped t n = true)) ∧
  (∀ (s : State) (src : Fin 33), s.keep.por = false → s.keep.tenRead = true → src.val ≠ 32 →
    routeEnable s.ket.route src.val = true → (leakOf s src.val).open_ = false → routeOpenAct s.ket.route src.val = false →
    Runs (.leakOpen src) s fun t =>
      (leakOf t src.val).open_ = true ∧ t.cat.open_.get false src.val = true ∧ t.ket.trip = s.ket.trip) ∧
  (∀ (s : State) (src : Fin 33), s.keep.por = false → src.val ≠ 32 → routeEnable s.ket.route src.val = true →
    (leakOf s src.val).open_ = false → routeOpenAct s.ket.route src.val = true → (leakOf s src.val).masked = false →
    leakActive s.ket.route src.val (leakOf s src.val) = false → Runs (.leakOpen src) s fun t =>
      (leakOf t src.val).open_ = true ∧ (∀ n < 16, (routeMask s.ket.route src.val).testBit n = true → tripped t n = true)) ∧
  (∀ (s : State) (src : Fin 33) (d : Nat), s.keep.por = false → (leakOf s src.val).clear = some d →
    (leakOf s src.val).stuck = true → Runs (.leakConditionClear src .stuck) s fun t =>
      d + 60000000 ≤ t.now ∧ (leakOf t src.val).stuck = false ∧ t.ket.trip = s.ket.trip) ∧
  (∀ (s : State) (src : Fin 33), s.keep.por = false → (leakOf s src.val).chat = true →
    Runs (.leakConditionClear src .chatter) s fun t =>
      (leakOf s src.val).trans.headD 0 + 60000000 ≤ t.now ∧ (leakOf t src.val).chat = false ∧ t.ket.trip = s.ket.trip) ∧
  (∀ (s : State) (src : Fin 33), s.keep.por = false → (leakOf s src.val).open_ = true →
    Runs (.leakConditionClear src .open_) s fun t => (leakOf t src.val).open_ = false ∧ t.ket.trip = s.ket.trip)

/-- A proof tests its sources one at a time and reports those that failed; it trips nothing (R181). -/
def Obligations.ProofStepsComplete : Prop :=
  (∀ (e : JEntry) (s : State), EffectDue e s → e.op = 0x0203 → (proofSources s.ket.route e.body).isEmpty = false →
    Runs .commandEffect s fun t =>
      t.ket.proof = s.ket.proof ++ [{ jseq := e.jseq, left := proofSources s.ket.route e.body, next := s.now + 1000 }] ∧
      t.ket.trip = s.ket.trip) ∧
  (∀ (s : State) (p : Proof) (ps : List Proof) (passed : Bool), s.ket.proof = p :: ps → 1 < p.left.length →
    Runs (.proofSourceStep passed) s fun t => p.next ≤ t.now ∧
      t.ket.proof = { p with left := p.left.tail, fail := if passed then p.fail else p.fail ++ p.left.take 1,
                             next := t.now + 1000 } :: ps ∧ t.ket.trip = s.ket.trip) ∧
  (∀ (s : State) (p : Proof) (ps : List Proof) (n : Nat) (e : JEntry), s.ket.proof = p :: ps → p.left = [n] → p.fail = [] →
    findEntry p.jseq s = some e → e.state = .pending → e.doneWait = false → s.pair.lead = true → attached s = false →
    s.pair.state ≠ .syncing → Runs (.proofSourceStep true) s fun t =>
      t.ket.proof = ps ∧ DoneWith e 0 t ∧ t.pair.proofRes = 0) ∧
  (∀ (s : State) (p : Proof) (ps : List Proof) (n : Nat) (e : JEntry), s.ket.proof = p :: ps → p.left = [n] →
    findEntry p.jseq s = some e → e.state = .pending → e.doneWait = false → s.pair.lead = true → attached s = false →
    s.pair.state ≠ .syncing → Runs (.proofSourceStep false) s fun t =>
      t.ket.proof = ps ∧ DoneWith e 0x0702 t ∧ t.pair.proofRes = 0x0702 ∧ t.pair.selfTest = false)

/-! ## Spine and pair (chapter 05) -/

/-- Ring formation and row time: FORM, the census, FORMED, TIME and ECHO (R14, R116 to R118, R120, R121, R125). -/
def Obligations.RingFormsAndKeepsTime : Prop :=
  (∀ s : State, inserted s = true → Runs .formSend s fun t =>
    s.spn.formAt + 1000 ≤ t.now ∧ t.spn.formAt = t.now ∧
    (t.spn.census.get {} s.otp.serial.toNat).entry = myEntry s ∧ t.out = rowOut s 0xFF (.form (myEntry s)) :: s.out) ∧
  (∀ (s : State) (f : FrameHdr) (e : FormEntry), Comes f s → s.spn.formed = false → s.spn.census.find e.serial.toNat = none →
    Runs (.formFrame f e) s fun t => (t.spn.census.get {} e.serial.toNat).entry = e ∧
      (t.spn.census.get {} e.serial.toNat).at_ = s.now ∧ t.spn.settled = false ∧ t.spn.changedAt = s.now) ∧
  (∀ (s : State) (f : FrameHdr) (e : FormEntry), running s = true → (laneOf s f.lane).up = true → f.sound = true →
    f.lane.val < 2 → f.src.toNat = nodeAddr s → e.serial ≠ s.otp.serial → seenBefore s f = false → s.spn.formed = false →
    s.spn.census.find e.serial.toNat = none → Runs (.formFrame f e) s fun t =>
      (t.spn.census.get {} e.serial.toNat).entry = e ∧ t.spn.settled = false) ∧
  (∀ (s : State) (f : FrameHdr) (e : FormEntry), Comes f s → s.spn.formed = true →
    s.spn.census.find e.serial.toNat = none → censusCheck true (e :: censusAll s) ≠ 0 → Runs (.formFrame f e) s fun t =>
      t.spn.census = s.spn.census ∧ t.spn.formed = true) ∧
  (∀ (s : State) (serial : DWord) (c : Census), running s = true → serial ≠ s.otp.serial →
    s.spn.census.find serial.toNat = some c → Runs (.censusEntrySilent serial) s fun t =>
      c.at_ + 10000 ≤ t.now ∧ t.spn.census.find serial.toNat = none ∧ t.spn.settled = false ∧ t.spn.changedAt = t.now ∧
      ∀ p ∈ t.lv.demands, onArc t p.1 = true) ∧
  (∀ s : State, inserted s = true → s.spn.settled = false → censusCheck s.spn.formed (censusAll s) = 0 → acting s = true →
    s.spn.offArc = false → atMaster s = true → Runs .censusSettled s fun t =>
      s.spn.changedAt + 100000 ≤ t.now ∧ t.spn.settled = true ∧ t.spn.formed = true ∧
      t.spn.gen = (s.spn.gen + 1) % 2 ^ 32 ∧ t.spn.master = some (nodeAddr s) ∧ t.spn.cause = 0) ∧
  (∀ s : State, inserted s = true → s.spn.settled = false → s.spn.formed = false → censusCheck false (censusAll s) ≠ 0 →
    Runs .censusSettled s fun t => t.spn.settled = true ∧ t.spn.formed = false ∧
      t.spn.cause = censusCheck false (censusAll s) ∧ t.spn.gen = s.spn.gen) ∧
  (∀ (s : State) (f : FrameHdr) (gen digest : Word) (first : DWord), Comes f s → s.spn.formed = false →
    censusCheck (gen.toNat != 0) (censusAll s) = 0 → Runs (.formedFrame f gen digest first) s fun t =>
      t.spn.formed = true ∧ t.spn.gen = gen.toNat ∧ t.spn.firstTick = some first.toNat ∧
      t.spn.master = some f.src.toNat) ∧
  (∀ s : State, isMaster s = true → inserted s = true → Runs .timeSend s fun t =>
    s.spn.timeSent + 1000 ≤ t.now ∧ t.spn.timeSent = t.now ∧
    t.out = rowOut s 0xFF (.time
      { rowTime := BitVec.ofNat 64 (rowTime t), corr := 0, tick := BitVec.ofNat 64 (rowTick t),
        epochTick := BitVec.ofNat 64 s.spn.epochTick, gen := BitVec.ofNat 32 s.spn.gen, serial := s.otp.serial }) :: s.out) ∧
  (∀ (s : State) (f : FrameHdr) (p : TimePayload), Comes f s → s.spn.formed = true → isMaster s = false →
    Runs (.timeFrame f p) s fun t => rowTime t = p.rowTime.toNat + p.corr.toNat + (laneOf s f.lane).delay ∧
      t.spn.timeAt = s.now ∧ t.spn.master = some f.src.toNat ∧ t.spn.epochTick = p.epochTick.toNat) ∧
  (∀ s : State, running s = true → s.spn.formed = true → s.spn.offArc = false → isMaster s = false →
    Runs .timeTimeout s fun t =>
      s.spn.timeAt + 5000 ≤ t.now ∧ t.spn.offArc = true ∧ t.spn.formed = true ∧ t.spn.timeFrom = none) ∧
  (∀ (s : State) (d : Nat), running s = true → s.spn.formed = true → s.spn.offArc = true → s.spn.timeFrom = some d →
    max s.now (d + 1000000) ≤ s.spn.timeAt + 5000 → Runs .arcRejoin s fun t =>
      d + 1000000 ≤ t.now ∧ t.spn.offArc = false ∧ t.spn.firstTick = some (rowTick t + 1)) ∧
  (∀ s : State, running s = true → s.spn.formed = true → s.spn.offArc = true → s.spn.timeFrom = none →
    Runs .arcRejoin s fun t => t.spn.offArc = true) ∧
  (∀ (s : State) (n : Fin 4), running s = true → s.spn.lref = true → (laneOf s n.val).up = true →
    Runs (.echoMeasure n) s fun t => (laneOf s n.val).echoAt + 100000 ≤ t.now ∧ (laneOf t n.val).echoAt = t.now ∧
      t.out = .echo n.val (((if n.val < 2 then s.spn.fseq else s.spn.pseq) + 1) % 2 ^ 32) :: s.out) ∧
  (∀ (s : State) (f : FrameHdr) (rtt : Nat), echoLane s f.lane.val = true → f.sound = true →
    Runs (.echoFrame f rtt) s fun t =>
      (f.src.toNat = nodeAddr s →
        (laneOf t f.lane.val).delay = rtt / 2 ∧ (laneOf t f.lane.val).echo = true ∧ t.out = s.out) ∧
      (f.src.toNat ≠ nodeAddr s → t.out = .forward f.lane.val f .echo :: s.out))

/-- Row traffic over the Spine: trip mirrors, cuts, demands and relayed records (R123 to R125, R161). A demand is entered from a
position that the census shows on the arc. -/
def Obligations.RowTrafficCompletes : Prop :=
  (∀ s : State, acting s = true → inserted s = true → Runs .tripMirrorSend s fun t =>
    (s.ket.trip = s.spn.tripSent → s.spn.tripAt + 100000 ≤ t.now) ∧ t.spn.tripSent = s.ket.trip ∧
    t.out = rowOut s 0xFF (.trip s.ket.trip (BitVec.ofNat 32 (latchedLeaks s)) (lastTripRef s)) :: s.out) ∧
  (∀ (s : State) (f : FrameHdr) (trips : Half) (leaks folio : Word), Comes f s →
    Runs (.tripFrame f trips leaks folio) s fun t =>
      (∀ c ∈ t.spn.census, entryAddr c.2.entry = f.src.toNat → c.2.trips = trips) ∧ t.ket = s.ket ∧ t.keep.ten = s.keep.ten ∧
      t.keep.capdn = s.keep.capdn ∧ t.lv = s.lv ∧ t.drv = s.drv ∧ (s.log.freeze = none → t.log.fseq = s.log.fseq + 1)) ∧
  (∀ (s : State) (f : FrameHdr) (a : Fin 32) (west : Bool), Comes f s → Runs (.breakFrame f a west) s fun t =>
    (a.val, west) ∈ t.spn.cuts ∧ t.spn.formed = s.spn.formed) ∧
  (∀ (s : State) (f : FrameHdr) (d : Demand), Comes f s → isMaster s = true → onArc s d.pos.toNat = true →
    Runs (.demandFrame f d) s fun t => t.lv.demands.find d.pos.toNat = some (s.now, d)) ∧
  (∀ (s : State) (f : FrameHdr) (d : Demand), Comes f s → isMaster s = false ∨ onArc s d.pos.toNat = false →
    Runs (.demandFrame f d) s fun t => t.lv.demands = s.lv.demands) ∧
  (∀ (s : State) (f : FrameHdr) (data : Bytes) (m : Nat), Comes f s → m = (if 2 ≤ f.lane.val then 4 else 5) → f.last = true →
    s.spn.relayRx.find (256 * (f.lane.val / 2) + f.src.toNat) = none →
    s.spn.relayBuf.get [] (256 * (f.lane.val / 2) + f.src.toNat) = [] →
    s.spn.asked.contains (BitVec.ofNat 64 (fld data 8 8)) = false → (mbxOf s m).busy = false →
    Runs (.relayFrame f data) s fun t =>
      (mbxOf t m).busy = true ∧ (mbxOf t m).window = Mem.writeN [] 0 (data.take 4096) ∧
      t.spn.relayRx.find (256 * (f.lane.val / 2) + f.src.toNat) = some f.fseq.toNat ∧
      256 * (f.lane.val / 2) + f.src.toNat ∈ t.spn.relayAck) ∧
  (∀ (s : State) (k : Nat), s.spn.relayAck = [k] → k < 256 → inserted s = true → Runs .relayAckSend s fun t =>
    s.spn.relayAckAt + 100 ≤ t.now ∧ t.spn.relayAck = [] ∧
    t.out = rowOut s k (.relayAck (s.spn.relayRx.get 0 k)) :: s.out) ∧
  (∀ (s : State) (k : Nat), s.spn.relayAck = [k] → 256 ≤ k → pairUp s = true → Runs .relayAckSend s fun t =>
    s.spn.relayAckAt + 100 ≤ t.now ∧ t.spn.relayAck = [] ∧
    t.out = pairOut s (.relayAck (s.spn.relayRx.get 0 k)) :: s.out) ∧
  (∀ (s : State) (f : FrameHdr) (k : Word), Comes f s → s.pair.syncSeq = 0 → Runs (.relayAckFrame f k) s fun t =>
    (∀ x ∈ s.spn.relayTx, x ∈ t.spn.relayTx ∨ seqAfter x.fseq k.toNat = false) ∧
    (∀ x ∈ t.spn.relayTx, x ∈ s.spn.relayTx) ∧
    (∀ x ∈ t.spn.relayTx, x.pair = decide (2 ≤ f.lane.val) → x.pair = true ∨ x.dst = f.src.toNat →
      seqAfter x.fseq k.toNat = true)) ∧
  (∀ (s : State) (x : RelayTx), s.spn.relayTx = [x] → running s = true →
    (if x.pair then pairUp s else inserted s) = true → Runs .relayResend s fun t =>
      x.at_ + 200 ≤ t.now ∧ t.spn.relayTx = [{ x with at_ := t.now }] ∧
      t.out = .frame x.pair (nodeAddr s) x.dst (s.spn.gen % 256) x.fseq (.relay x.last x.data) :: s.out)

/-- Lanes, bypasses and LREFCLK (R111, R119, R125). A lane comes up after 1 ms of block lock, once an ECHO exchange on it has
succeeded; until then it stays down. -/
def Obligations.PortsAreInsertedAndBypassed : Prop :=
  (∀ s : State, running s = true → s.spn.lref = true → s.spn.insert = .out → s.spn.retryAt = none →
    Runs .bypassInsert s fun t => t.spn.insert = .east ∧ t.spn.insertAt = some (s.now + 10000)) ∧
  (∀ (s : State) (d : Nat), s.spn.insertAt = some d → Runs .portInsertTimeout s fun t =>
    d ≤ t.now ∧ t.spn.insert = .out ∧ t.spn.insertAt = none ∧
    t.spn.retryAt = some (t.now + if s.spn.retries = 0 then 1000000 else 10000000) ∧
    (laneOf t 0).up = false ∧ (laneOf t 1).up = false) ∧
  (∀ (s : State) (d : Nat), s.spn.retryAt = some d → running s = true → s.spn.lref = true → Runs .portInsertRetry s fun t =>
    d ≤ t.now ∧ t.spn.insert = .east ∧ t.spn.insertAt = some (t.now + 10000) ∧ t.spn.retryAt = none) ∧
  (∀ s : State, s.spn.lref = true → running s = true → Runs .lrefclkLoss s fun t =>
    t.spn.lref = false ∧ t.spn.insert = .out ∧ (∀ n < 4, (laneOf t n).up = false)) ∧
  (∀ s : State, s.spn.lref = false → running s = true → s.spn.insert = .out → Runs .lrefclkGood s fun t =>
    t.spn.lref = true ∧ t.spn.insert = .east ∧ t.spn.insertAt = some (s.now + 10000)) ∧
  (∀ (s : State) (n : Fin 4), running s = true → (laneOf s n.val).up = true → n.val < 2 → Runs (.laneDown n) s fun t =>
    (laneOf t 0).up = false ∧ (laneOf t 1).up = false ∧ t.spn.insert = .out ∧
    (nodeAddr s, n.val == 1) ∈ t.spn.cuts ∧ t.spn.retryAt.isSome = true) ∧
  (∀ (s : State) (n : Fin 4), running s = true → (laneOf s n.val).up = true → 2 ≤ n.val → Runs (.laneDown n) s fun t =>
    (laneOf t n.val).up = false ∧ (laneOf t n.val).downs = (laneOf s n.val).downs + 1 ∧ t.spn.insert = s.spn.insert) ∧
  (∀ (s : State) (n : Fin 4), (laneOf s n.val).up = false → (laneOf s n.val).echo = false →
    Runs (.laneUp n) s fun t => (laneOf t n.val).up = false) ∧
  (∀ (s : State) (n : Fin 4), running s = true → s.spn.lref = true → (laneOf s n.val).up = false →
    (laneOf s n.val).echo = true → Runs (.laneUp n) s fun t =>
      (laneOf s n.val).downAt + 1000 ≤ t.now ∧ (2 ≤ n.val → (laneOf t n.val).up = true) ∧
      (n.val = 0 → s.spn.insert = .east → (laneOf t 0).up = true ∧ t.spn.insert = .west) ∧
      (n.val = 1 → s.spn.insert = .west → (laneOf t 1).up = true ∧ t.spn.insert = .in_ ∧ t.spn.retries = 0))

/-- Heartbeats, takeover, LONE_CHECK and the release of CAPDN after a silent takeover (R15, R18, R23, R126 to R132). A board that
records no role and has heard no partner for 300 µs is Lead (log 115). -/
def Obligations.PairRolesFollowHeartbeats : Prop :=
  (∀ s : State, pairUp s = true → s.kt.role.isSome = true → Runs .heartbeatSend s fun t =>
    s.pair.hbAt + 100 ≤ t.now ∧ t.pair.hbAt = t.now ∧ t.pair.hseq = (s.pair.hseq + 1) % 2 ^ 32 ∧
    (s.pair.board ≠ .taking → pairOut s (.heartbeat (myHeartbeat s)) ∈ t.out)) ∧
  (∀ s : State, running s = true → s.kt.role = none → s.pair.heard = false → s.pair.roleAt + 300 ≤ s.now →
    Runs .heartbeatSend s fun t => t.kt.role = some true ∧ t.pair.lead = true) ∧
  (∀ (s : State) (f : FrameHdr) (h : Heartbeat), Comes f s → 2 ≤ f.lane.val → f.src.toNat / 2 = posOf s →
    s.pair.mismatch = false → s.kt.partner = some h.serial → s.kt.role.isSome = true → s.pair.heard = true →
    seqAfter h.hseq.toNat s.pair.hb.hseq.toNat = true → s.pair.state ≠ .absent → s.pair.lead = true → h.lead = false →
    h.synced = true → Runs (.heartbeatFrame f h) s fun t =>
      t.pair.hb = h ∧ t.pair.heardAt = s.now ∧ t.pair.state = s.pair.state ∧ t.pair.lead = true) ∧
  (∀ (s : State) (f : FrameHdr) (h : Heartbeat), Comes f s → 2 ≤ f.lane.val → f.src.toNat / 2 = posOf s →
    s.kt.partner = some h.serial → s.kt.role.isSome = true → s.pair.heard = true →
    seqAfter h.hseq.toNat s.pair.hb.hseq.toNat = true → s.pair.state ≠ .absent → s.pair.lead = false → eligible s = true → h.lead = true → h.fault = true → h.attached = true →
    Runs (.heartbeatFrame f h) s fun t =>
      t.pair.lead = true ∧ t.pair.board = .taking ∧ t.kt.role = some true ∧
      t.kt.actEpoch = (max s.kt.actEpoch h.actEpoch.toNat + 1) % 2 ^ 32 ∧ t.keep.ten = h.ten &&& ~~~s.ket.trip ∧
      (∀ lines, s.pair.partCapdn = some lines → t.keep.capdn = lines)) ∧
  (∀ (s : State) (f : FrameHdr) (h : Heartbeat), Comes f s → 2 ≤ f.lane.val → f.src.toNat / 2 ≠ posOf s →
    s.pair.mismatch = false → Runs (.heartbeatFrame f h) s fun t =>
      t.pair.mismatch = true ∧ t.pair.state = .absent ∧ t.keep.capdn = 0xFFFF ∧ t.kt.partner = s.kt.partner) ∧
  (∀ s : State, running s = true → s.pair.heard = true → s.pair.mismatch = false → s.pair.heardAt < s.pair.echoAt + 300 →
    s.pair.lead = true → s.pair.state ≠ .lone → s.pair.state ≠ .syncing → partnerEligible s = true →
    Runs .heartbeatMissed s fun t =>
      s.pair.heardAt + 300 ≤ t.now ∧ t.pair.state = .lone ∧ t.pair.board = .lone ∧ t.pair.loneAt = some t.now ∧
      t.keep.ten = s.keep.ten ∧ t.keep.capdn = s.keep.capdn ∧ t.pair.lead = true) ∧
  (∀ s : State, running s = true → s.pair.heard = true → s.pair.mismatch = false → s.pair.heardAt < s.pair.echoAt + 300 →
    s.pair.lead = false → s.pair.hb.lead = false → s.pair.state = .syncing → Runs .heartbeatMissed s fun t =>
      t.pair.state = .detached ∧ t.pair.lead = false) ∧
  (∀ s : State, s.pair.heard = true → s.pair.heardAt < s.pair.echoAt + 300 → s.pair.lead = false → s.pair.hb.lead = true →
    eligible s = true → Runs .heartbeatMissed s fun t =>
      s.pair.heardAt + 300 ≤ t.now ∧ t.pair.lead = true ∧ t.pair.board = .taking ∧ t.pair.state = .absent ∧
      t.kt.actEpoch = (max s.kt.actEpoch s.pair.hb.actEpoch.toNat + 1) % 2 ^ 32 ∧
      (∀ n < 16, bit16 t.keep.capdn n = true)) ∧
  (∀ s : State, running s = true → s.pair.heard = true → s.pair.mismatch = false → s.pair.echoAt + 300 ≤ s.pair.heardAt →
    s.now < s.pair.heardAt + 300 → s.pair.lead = true → Runs .heartbeatMissed s fun t =>
      t.pair.lead = false ∧ t.pair.board = .stoodDown ∧ t.kt.role = some false ∧ t.keep.capdn = 0) ∧
  (∀ (s : State) (d : Nat), s.pair.loneAt = some d → s.pair.state = .lone → s.pair.lead = true →
    Runs .loneCheckExpiry s fun t =>
      d + 20000 ≤ t.now ∧ t.pair.state = .absent ∧ t.pair.board = .running ∧ t.pair.loneAt = none ∧ t.pair.lead = true) ∧
  (∀ (s : State) (k n : Nat), s.pair.silent = some k → s.pair.silentAt ≠ 0 → acting s = true → s.pair.state ≠ .lone →
    (∀ t < 16, k ≤ t → mayResume s t = true → isSilent s t = false) →
    (List.range 16).find? (fun t => k ≤ t && enabled s t && !starting s t && mayResume s t) = some n → Runs .silentRelease s fun t =>
      s.pair.silentAt ≤ t.now ∧ t.keep.capdn = put16 s.keep.capdn n false ∧ t.pair.silent = some (n + 1) ∧
      t.pair.silentAt = t.now + 250000)

/-- Mirrored entries, LEASE, SNAPSHOT and BULK frames, and the self-tests of the pair (R102, R128, R134, R135, R240). -/
def Obligations.PairTrafficCompletes : Prop :=
  (∀ (s : State) (f : FrameHdr) (j : Nat) (e : JEntry), Comes f s → findEntry j s = some e → e.state = .tentative →
    s.jr.dups = [] → e.mbx ≠ 6 → Runs (.mirrorAckFrame f j) s fun t =>
      (∃ d, findEntry j t = some d ∧ d.state = .pending ∧ d.cw = e.cw) ∧
      (mbxOf t e.mbx).waiting = (mbxOf s e.mbx).waiting ++ [{ status := 0x00, op := e.op, cw := e.cw, ref := e.jseq % ownSeq, final := false }] ∧
      (t.jr.high.get {} (cwSrc e.cw)).seq = max (s.jr.high.get {} (cwSrc e.cw)).seq (cwSeq e.cw)) ∧
  (∀ (s : State) (f : FrameHdr) (j : Nat) (e : JEntry), Comes f s → findEntry j s = some e → e.state = .pending →
    e.doneWait = true → Runs (.mirrorAckFrame f j) s fun t => ∃ d, findEntry j t = some d ∧ d.state = .done ∧ d.doneWait = false) ∧
  (∀ (s : State) (j d : Nat) (e : JEntry), s.jr.sentAt.find j = some d → findEntry j s = some e → e.state = .tentative →
    s.jr.dups = [] → Runs (.mirrorTimeout j) s fun t => d + 500 ≤ t.now ∧ findEntry j t = none) ∧
  (∀ (s : State) (f : FrameHdr) (e : JEntry), Comes f s → 2 ≤ f.lane.val → findEntry e.jseq s = none →
    e.state = .tentative → Runs (.mirrorFrame f e) s fun t =>
      (∃ d, findEntry e.jseq t = some d ∧ d.state = .pending ∧ d.cw = e.cw ∧ d.op = e.op ∧ d.body = e.body) ∧
      t.out = pairOut s (.mirrorAck e.jseq) :: s.out) ∧
  (∀ (s : State) (f : FrameHdr) (l : Lease), Comes f s → s.pair.lead = false → Runs (.leaseFrame f (.grant l)) s fun t =>
    t.lv.leases = s.lv.leases.filter (·.id != l.id) ++ [l] ∧ t.keep = s.keep) ∧
  (∀ (s : State) (f : FrameHdr) (id : Nat), Comes f s → s.pair.lead = false → Runs (.leaseFrame f (.ended id)) s fun t =>
    t.lv.leases = s.lv.leases.filter (·.id != id) ∧ t.keep = s.keep) ∧
  (∀ (s : State) (f : FrameHdr) (image : Half), Comes f s → s.pair.lead = false → s.ket.imageDue = none →
    s.keep.tenRead = true → Runs (.leaseFrame f (.ten image)) s fun t =>
      t.keep.ten = image ∧ t.cat.ten = image ∧ (pairUp s = true → pairOut s (.lease (.tenAck image)) ∈ t.out)) ∧
  (∀ (s : State) (f : FrameHdr) (lines : Half), Comes f s → s.pair.lead = false → Runs (.leaseFrame f (.capdn lines)) s fun t =>
    t.pair.partCapdn = some lines ∧ t.keep = s.keep) ∧
  (∀ (s : State) (d : Nat) (i : Half), s.pair.ackWait = some d → s.pair.state ≠ .lone → s.pair.lead = true →
    s.pair.tenWait = some i → Runs .leaseAckTimeout s fun t =>
      d ≤ t.now ∧ t.pair.state = .detached ∧ t.pair.tenWait = none ∧ t.pair.ackWait = none ∧ t.keep.ten = i) ∧
  (∀ (s : State) (f : FrameHdr) (ws : List Word) (dg : Digest), Comes f s → s.pair.lead = false →
    Runs (.snapshotFrame f ws dg) s fun t => t.pair.words = ws ∧ t.pair.leadDig = some dg) ∧
  (∀ (s : State) (f : FrameHdr) (ls : List Lease), Comes f s → f.last = true → s.pair.lead = false →
    s.pair.state = .syncing → Runs (.bulkFrame f (.leases ls)) s fun t => t.lv.leases = ls) ∧
  (∀ (s : State) (f : FrameHdr) (es : List JEntry) (high : List (Nat × HighMark)) (j : Nat), Comes f s → f.last = true →
    s.pair.lead = false → s.pair.state = .syncing → Runs (.bulkFrame f (.journal es high j)) s fun t =>
      t.jr.jseq = j ∧ t.jr.high = high ∧ ∀ e ∈ es, ∃ d ∈ t.jr.entries, d.cw = e.cw ∧ d.op = e.op ∧ d.state = e.state) ∧
  (∀ (s : State) (f : FrameHdr) (data : List (Nat × Byte)), Comes f s → f.last = true → s.pair.lead = false →
    s.pair.state = .syncing → Runs (.bulkFrame f (.model data)) s fun t =>
      t.pair.synced = true ∧ t.pair.board = .running ∧
      (pairUp s = true → pairOut s (.relayAck f.fseq.toNat) ∈ t.out)) ∧
  (∀ (s : State) (f : FrameHdr) (k : Word), Comes f s → 2 ≤ f.lane.val → s.pair.syncSeq ≠ 0 →
    seqAfter s.pair.syncLast k.toNat = false → Runs (.relayAckFrame f k) s fun t =>
      t.pair.state = .attached ∧ t.pair.syncSeq = 0) ∧
  (∀ (s : State) (dg : Digest), running s = true → s.pair.lead = false → attached s = true → Runs (.journalCheck dg) s fun t =>
    s.pair.jAt + 1000000 ≤ t.now ∧ t.pair.jAt = t.now ∧ t.pair.jcheck = (if journalDigest s = dg then 0 else 1)) ∧
  (∀ (s : State) (w : Word), acting s = true → (canOf s 0).down = true → attached s = true →
    Runs (.partnerCanPoll (some w)) s fun t =>
      s.can.pollAt + 10000 ≤ t.now ∧ t.can.pollAt = t.now ∧ t.can.ans = some w ∧ t.can.ansAt = t.now) ∧
  (∀ (s : State) (d : Nat) (w : Word), s.can.pairAt = some d → acting s = true → attached s = true → s.can.ans = some w →
    s.now ≤ s.can.ansAt + 20000 → d + 100000 ≤ s.can.ansAt + 20000 → w.toNat % 256 = 1 →
    Runs .canPairDownFault s fun t => d + 100000 ≤ t.now ∧ t.pair.fault = true) ∧
  (∀ s : State, acting s = true → attached s = true → Runs .proofIntervalExpiry s fun t =>
    s.pair.proofAt + s.kt.proofHours * 3600000000 ≤ t.now ∧ t.pair.proofAt = t.now ∧ s.pair.askSeq < t.pair.askSeq)

/-! ## Analog front end, drive engine and CAN (chapters 08 to 10) -/

/-- Words, conversions, edges and checks of the analog front end (R184, R185, R187 to R192, R199, R210, R217). A sigma-delta word
completes at the end of an output period, and the next is due one period later. -/
def Obligations.AnalogCommandsComplete : Prop :=
  (∀ (s : State) (n : Fin 32) (x : SdInput) (okx : Bool) (g : Nat), fieldOn s = true → (chanOf s n.val).on = true →
    (chanOf s n.val).ovl = false → (chanOf s n.val).settle = 0 → (chanOf s n.val).faults = 0 → (chanOf s n.val).exc = none →
    ((chanOf s n.val).fld 7 1).testBit 1 = false → (chanOf s n.val).fld 3 1 = g → Runs (.sdSampleWord n x false okx) s fun t =>
      wordDue s (chanOf s n.val) ≤ t.now ∧ (chanOf t n.val).wordAt = t.now ∧
      (chanOf t n.val).nextAt = wordDue s (chanOf s n.val) + sdPeriod t (chanOf s n.val) ∧
      (chanOf t n.val).word = sampleWord (corrected s n.val g (rawOf (chanOf s n.val) x)).1 0 true
        (corrected s n.val g (rawOf (chanOf s n.val) x)).2 false false) ∧
  (∀ (s : State) (n : Fin 32) (x : SdInput) (okx : Bool) (k : Nat), fieldOn s = true → (chanOf s n.val).on = true →
    (chanOf s n.val).ovl = false → (chanOf s n.val).settle = k + 1 → Runs (.sdSampleWord n x false okx) s fun t =>
      wordDue s (chanOf s n.val) ≤ t.now ∧ (chanOf t n.val).settle = k ∧ wordValid (chanOf t n.val).word = false) ∧
  (∀ (s : State) (n : Fin 32) (x : SdInput), fieldOn s = true → (chanOf s n.val).on = true →
    ((chanOf s n.val).fld 7 1).testBit 0 = true → Runs (.burnoutTest n x) s fun t =>
      wordDue s (chanOf s n.val) ≤ t.now ∧ (chanOf t n.val).settle = (chanOf s n.val).nWords ∧
      (chanOf t n.val).faults.testBit 0 =
        decide (7969178 ≤ (corrected s n.val ((chanOf s n.val).fld 3 1) (rawOf (chanOf s n.val) x)).1)) ∧
  (∀ s : State, fieldOn s = true → Runs (.refCheck false) s fun t =>
    s.afe.refAt + 1000 ≤ t.now ∧ t.afe.refAt = t.now ∧ t.afe.refBad = true) ∧
  (∀ (s : State) (d : Nat), fieldOn s = true → s.afe.refOkAt = some d → d + 100000 ≤ s.now →
    Runs (.refCheck true) s fun t => t.afe.refBad = false) ∧
  (∀ (s : State) (k : Fin 12) (code : Nat), fieldOn s = true → fld (pRec s (k.val / 3)) 0 1 ≠ 0 →
    (sarData s k.val code * fld (pRec s (k.val / 3)) 14 2).natAbs ≤ 1000 * fld (pRec s (k.val / 3)) 16 2 →
    Runs (.sarConversion k code) s fun t =>
      (chanOf t (32 + k.val)).convs = (chanOf s (32 + k.val)).convs + 1 ∧
      (pumpOf t (k.val / 3)).cur = (pumpOf s (k.val / 3)).cur.set (k.val % 3) (sarData s k.val code * fld (pRec s (k.val / 3)) 14 2) ∧
      (pumpOf t (k.val / 3)).st = (pumpOf s (k.val / 3)).st) ∧
  (∀ (s : State) (k : Fin 12) (code : Nat), fld (pRec s (k.val / 3)) 0 1 ≠ 0 → PumpRuns (k.val / 3) s →
    1000 * fld (pRec s (k.val / 3)) 16 2 < (sarData s k.val code * fld (pRec s (k.val / 3)) 14 2).natAbs →
    (pumpOf s (k.val / 3)).high.getD (k.val % 3) 0 = 1 → Runs (.sarConversion k code) s fun t => PumpFaulted (k.val / 3) 1 s t) ∧
  (∀ (s : State) (k : Fin 12) (falling : Bool) (period phase : Nat), fieldOn s = true → (chanOf s (44 + k.val)).on = true →
    (chanOf s (44 + k.val)).minw ≤ phase → falling = ((chanOf s (44 + k.val)).fld 2 1 == 1) →
    (chanOf s (44 + k.val)).edges ≠ 0 → Runs (.pulseEdge k period ⟨falling, phase⟩) s fun t =>
      (chanOf t (44 + k.val)).edges = (chanOf s (44 + k.val)).edges + 1 ∧
      (chanOf t (44 + k.val)).word = sampleWord (pulseFreq period) 0 true (decide (period < 10000)) false false) ∧
  (∀ (s : State) (k : Fin 12) (falling : Bool) (period phase : Nat),
    phase < (chanOf s (44 + k.val)).minw ∨ falling ≠ ((chanOf s (44 + k.val)).fld 2 1 == 1) →
    Runs (.pulseEdge k period ⟨falling, phase⟩) s fun t => t.afe = s.afe) ∧
  (∀ (s : State) (k : Fin 12), fieldOn s = true → (chanOf s (44 + k.val)).on = true → (chanOf s (44 + k.val)).edges ≠ 0 →
    Runs (.pulseTimeout k) s fun t =>
      (chanOf s (44 + k.val)).edgeAt + 1000 * (chanOf s (44 + k.val)).fld 12 2 ≤ t.now ∧ (chanOf t (44 + k.val)).edges = 0 ∧
      (chanOf t (44 + k.val)).word = sampleWord 0 0 true (chanOf s (44 + k.val)).fast false true) ∧
  (∀ s : State, fieldOn s = true → s.pwr.store = .on → Runs .samplePageCopy s fun t =>
    s.afe.copyAt + 100 ≤ t.now ∧ t.afe.copyAt = t.now ∧ (t.afe.source = t.afe.ch.map fun p => (p.1, p.2.word)) ∧
    t.mem = s.mem.writeN (dataPlace Config.sourceBase) (samplePage t)) ∧
  (∀ (s : State) (v : Fin 8) (uV : Nat), fieldOn s = true → (valveOf s v.val).on = true →
    Runs (.valveFeedbackSample v uV) s fun t =>
      (valveOf t v.val).meas = quot (10 * uV) (fld (vRec s v.val) 8 2) ∧ (valveOf t v.val).pos = (valveOf s v.val).pos)

/-- Pumps: loops, alignment, parameters, faults and restarts (R207 to R213). The current loop works on the measured phase
currents at the rotor's angle, and each duty it sets lies within the period less two dead times. -/
def Obligations.PumpCommandsComplete : Prop :=
  (∀ (s : State) (n : Fin 4) (rotor : Nat), fieldOn s = true → (pumpOf s n.val).driven = true →
    Runs (.pumpCurrentLoop ⟨n, rotor⟩) s fun t =>
      (pumpOf s n.val).edgeFrom ≤ t.now ∧ (pumpOf t n.val).rotor = rotor ∧
      (pumpOf t n.val) = ({ pumpOf s n.val with
        rotor := rotor, rotorAt := if (pumpOf s n.val).rotor == rotor then (pumpOf s n.val).rotorAt else t.now } : Pump).currents
          t.now (pRec s n.val) ∧
      (pumpOf t n.val).duty.length = 3 ∧
      ∀ d ∈ (pumpOf t n.val).duty,
        d ≤ periodSteps (pumpOf s n.val).hz - 2 * deadSteps (pumpOf s n.val).dead) ∧
  (∀ (s : State) (n : Fin 4) (speed : Int), fieldOn s = true → fld (pRec s n.val) 0 1 ≠ 0 →
    Runs (.pumpSpeedLoop n speed) s fun t =>
      (pumpOf t n.val).speed = (if 100 * speed.natAbs < fld (pRec s n.val) 8 2 then 0 else speed) ∧
      ((pumpOf s n.val).driven = true → (pumpOf s n.val).alignTo = none → maxU (pRec s n.val) ≤ 100 * (pumpOf s n.val).target →
        (pumpOf t n.val).cmd = rampStep (bandsU (pRec s n.val)) (fld (pRec s n.val) 10 2) (pumpOf s n.val).cmd
          (heldAt (pumpOf s n.val).fw (pumpOf s n.val).floor (pumpOf s n.val).cmd (pumpOf s n.val).target
            (highEdge (bandsU (pRec s n.val)))))) ∧
  (∀ (s : State) (n : Fin 4) (d : Nat), (pumpOf s n.val).alignTo = some d → Runs (.encoderAlignDone n) s fun t =>
    d ≤ t.now ∧ (pumpOf t n.val).aligned = true ∧ (pumpOf t n.val).alignTo = none ∧
    (pumpOf t n.val).zero = (pumpOf s n.val).rotor ∧ (pumpOf t n.val).st = (pumpOf s n.val).st) ∧
  (∀ (s : State) (n : Fin 4), fieldOn s = true → fld (pRec s n.val) 0 1 ≠ 0 → Runs (.pwmParamApply n) s fun t =>
    (pumpOf t n.val).hz = fld (pRec s n.val) 4 2 ∧ (pumpOf t n.val).dead = fld (pRec s n.val) 6 2) ∧
  (∀ (s : State) (n : Fin 4), PumpRuns n.val s → Runs (.driverFault n) s fun t => PumpFaulted n.val 0 s t) ∧
  (∀ (s : State) (n : Fin 4) (d : Nat), PumpRuns n.val s → (pumpOf s n.val).stallAt = some d → Runs (.pumpStall n) s fun t =>
    d + 1000 * fld (pRec s n.val) 38 2 ≤ t.now ∧ PumpFaulted n.val 2 s t) ∧
  (∀ (s : State) (n : Fin 4), PumpRuns n.val s → Runs (.pumpPositionFault n) s fun t => PumpFaulted n.val 3 s t) ∧
  (∀ (s : State) (n : Fin 4) (d : Nat), PumpRuns n.val s → (pumpOf s n.val).overAt = some d → Runs (.pumpOverspeed n) s fun t =>
    d + 100000 ≤ t.now ∧ PumpFaulted n.val 4 s t) ∧
  (∀ (s : State) (n : Fin 4) (d : Nat), (pumpOf s n.val).st = .retry → (pumpOf s n.val).retryAt = some d →
    restartWaits n.val s = false → running s = false → s.drv.fired = false → Runs (.pumpRetryRestart n) s fun t =>
      d ≤ t.now ∧ (pumpOf t n.val).retryAt = none ∧ (pumpOf t n.val).target = (pumpOf s n.val).target ∧
      (pumpOf t n.val).st =
        (if maxU (pRec s n.val) ≤ 100 * (pumpOf s n.val).target ∧ fieldOn s = true then .running else .stopped))

/-- The hardware table, floors, fans and valves, and the Binder watchdog of the drive engine (R205, R215, R217, R219,
R221 to R226). The watchdog's action ends with a heartbeat by which firmware has acknowledged it, a free value (log 160); the
elements then stay where they are, a pump within a band at an edge of it. -/
def Obligations.DriveCommandsComplete : Prop :=
  (∀ s : State, fieldOn s = true → Runs .hwTableStep s fun t =>
    s.drv.stepAt + 1000 ≤ t.now ∧ t.drv.stepAt = t.now ∧ t.drv.table = s.drv.table ∧
    t.drv.level = nextLevel (tbl s) t.drv.temp s.drv.level) ∧
  (∀ (s : State) (n d : Nat), n < 4 → (pumpOf s n).lowAt = some d → (pumpOf s n).late = false → Runs (.floorLate n) s fun t =>
    d + 1000000 ≤ t.now ∧ (pumpOf t n).late = true ∧ (pumpOf t n).cmd = (pumpOf s n).cmd) ∧
  (∀ (s : State) (n d : Nat), n < 8 → (fanOf s n).lowAt = some d → (fanOf s n).late = false →
    Runs (.floorLate (4 + n)) s fun t => d + 1000000 ≤ t.now ∧ (fanOf t n).late = true ∧ (fanOf t n).duty = (fanOf s n).duty) ∧
  (∀ (s : State) (n : Fin 8) (d : Nat), (fanOf s n.val).hotAt = some d → (fanOf s n.val).stalled = false →
    Runs (.fanStall n) s fun t => d + 2000000 ≤ t.now ∧ (fanOf t n.val).stalled = true ∧
      (fanOf t n.val).duty = (fanOf s n.val).duty) ∧
  (∀ (s : State) (v : Fin 8) (d : Nat) (set : Bool), (valveOf s v.val).openAt = some d → (valveOf s v.val).opn = !set →
    Runs (.valveLoopFault v true set) s fun t => d + 100000 ≤ t.now ∧ (valveOf t v.val).opn = set ∧
      (valveOf t v.val).pos = (valveOf s v.val).pos) ∧
  (∀ (s : State) (v : Fin 8) (d : Nat) (set : Bool), (valveOf s v.val).errAt = some d → (valveOf s v.val).err = !set →
    Runs (.valveLoopFault v false set) s fun t => d + 100000 ≤ t.now ∧ (valveOf t v.val).err = set ∧
      (valveOf t v.val).pos = (valveOf s v.val).pos) ∧
  (∀ (s : State) (fan : Bool) (i : Fin 8) (l : BelowLease), belowOf s (if fan then 4 + i.val else i.val) = some l →
    Runs (.belowFloorEnd fan i) s fun t => l.stop ≤ t.now ∧ belowOf t (if fan then 4 + i.val else i.val) = none) ∧
  (∀ s : State, running s = true → fieldOn s = true → Runs .binderHeartbeat s fun t =>
    t.drv.beat = some s.now ∧ (s.drv.fired = false → t.drv.fired = false) ∧
    (s.drv.fired = true → t.drv.fired = !Config.acks s.free) ∧
    (s.drv.fired = true → Config.acks s.free = true → ∀ n < 4, (pumpOf s n).st = .watchdog → (pumpOf t n).st = .running ∧
      (pumpOf t n).target = if (pumpOf s n).cmd < (pumpOf s n).floor then highEdge (bandsU (pRec s n)) (pumpOf s n).cmd
        else nearEdge (bandsU (pRec s n)) (pumpOf s n).cmd)) ∧
  (∀ s : State, running s = true → fieldOn s = true → s.drv.beat.isSome = true →
    Runs .binderHeartbeat s fun t => s.drv.fired = false ∨ Config.acks s.free = false →
      t.drv = { s.drv with beat := some s.now }) ∧
  (∀ (s : State) (d : Nat), s.drv.beat = some d → s.drv.fired = false → s.drv.leases = [] → Runs .binderSilent s fun t =>
    d + 500000 ≤ t.now ∧ t.drv.fired = true ∧
    (∀ n < 8, (fanOf s n).on = true → (fanOf t n).duty = 1000000) ∧
    (∀ n < 4, (pumpOf s n).st = .running → (pumpOf t n).st = .watchdog ∧ (pumpOf t n).target = tableMax s n))

/-- At every FIELD reset release each valve takes its OTP default; a blank one gives 0 V on VLPn. -/
def Obligations.ValvesTakeTheirDefaults : Prop :=
  ∀ s : State, s.pwr.field = .reset → Runs .fieldResetRelease s fun t => ∀ n < 8,
    (∀ v, s.otp.valves.find n = some v → (valveOf t n).pos = 100 * v ∧ (valveOf t n).target = 100 * v ∧
      (valveOf t n).dark = false) ∧
    (s.otp.valves.find n = none → vlpCode t n = 0 ∧ (s.keep.por = false → vlpOut t n = .steps 0))

/-- The CAN channels: frames, cycles, errors, recovery and wake (R232, R234 to R239, R242, R248). -/
def Obligations.CanCommandsComplete : Prop :=
  (∀ (s : State) (c : Fin 4) (f : CanFrame) (ago : Nat) (e : Bytes), fieldOn s = true → (canOf s c.val).hears = true → f.rtr = false →
    (isProfile s c.val && isProfileFrame f) = false → canFlag (cfgOf s c.val).1 4 = false →
    lowestTaker f ((List.range (memCount (cfgOf s c.val).2)).map (memEntry (cfgOf s c.val).2)) = some e →
    (canOf s c.val).rx.any (fun x => x.obj == fld e 0 1) = false → Runs (.canFrameRx c ⟨f, ago⟩) s fun t =>
      (canOf t c.val).rx =
        (canOf s c.val).rx ++ [{ stamp := canStamp ago s, obj := fld e 0 1, fifo := fld e 2 1, frame := f }]) ∧
  (∀ (s : State) (c : Fin 4) (m ago : Nat) (f : TxFrame), fieldOn s = true →
    firstTx ((canOf s c.val).tx.filter (mayTx s c.val)) = some f → (canOf s c.val).busOff = false →
    (canOf s c.val).st = .active ∨ (canOf s c.val).st = .passive ∨ (canOf s c.val).st = .down →
    Runs (.canFrameTxDone c ⟨m, ago⟩) s fun t =>
      .can c.val f.frame ∈ t.out ∧ (canOf t c.val).tx = (canOf s c.val).tx.filter (fun x => x.key != f.key) ∧
      (canOf t c.val).txStamp = canStamp ago s ∧ (canOf t c.val).down = false ∧
      (f.key = 201 → (canOf t c.val).refMark = canStamp ago s) ∧
      (f.frame.brs = false → (canOf t c.val).loop = (canOf s c.val).loop)) ∧
  (∀ (s : State) (c : Fin 4) (i d : Nat), (canOf s c.val).due.find i = some d → sendsUser s = true → (canOf s c.val).joins = true →
    (canOf s c.val).tx.any (fun f => f.key == fld (memEntry (cfgOf s c.val).2 i) 0 1) = false →
    Runs (.canPeriodicTx c i) s fun t =>
      d ≤ t.now ∧ (canOf t c.val).due.find i = some (d + 1000 * fld (memEntry (cfgOf s c.val).2 i) 12 2) ∧
      .mk (fld (memEntry (cfgOf s c.val).2 i) 0 1) (entFrame (memEntry (cfgOf s c.val).2 i)) ∈ (canOf t c.val).tx) ∧
  (∀ (s : State) (c : Fin 4), running s = true → canFlag (cfgOf s c.val).1 5 = true → (canOf s c.val).joins = true →
    Runs (.basicCycleStart c) s fun t => (canOf t c.val).cycle = ((canOf s c.val).cycle + 1) % 64 ∧
      (canOf t c.val).cycAt = nextBasic (1000 * fld (cfgOf s c.val).1 18 2) (s.can.base + (s.now - s.can.baseAt))
        (canOf s c.val).cycAt) ∧
  (∀ (s : State) (c : Fin 4) (id : BitVec 29) (n : Nat), acting s = true → canFlag (cfgOf s c.val).1 5 = true →
    (canOf s c.val).hears = true → id.toNat / 2 ^ 18 < fld (cfgOf s c.val).1 16 2 → Runs (.referenceMessageRx c id n) s fun t =>
      (canOf t c.val).yieldAt = some s.now ∧ (canOf t c.val).tx.all (fun f => f.key != 201) = true ∧
      (canOf t c.val).cycle = (canOf s c.val).cycle) ∧
  (∀ (s : State) (c : Fin 4) (d : Nat), (canOf s c.val).yieldAt = some d → Runs (.timeMasterResume c) s fun t =>
    d + 3000 * fld (cfgOf s c.val).1 18 2 ≤ t.now ∧ (canOf t c.val).yieldAt = none) ∧
  (∀ (s : State) (c : Fin 4) (v : Bool), (canOf s c.val).joins = true → (canOf s c.val).busOff = false →
    (canOf s c.val).passive = !v → Runs (.canErrorStateChange c v) s fun t =>
      (canOf t c.val).passive = v ∧
      ((canOf s c.val).st = .active ∨ (canOf s c.val).st = .passive →
        (canOf t c.val).st = if v then .passive else .active) ∧
      ((canOf s c.val).st = .listen ∨ (canOf s c.val).st = .down → (canOf t c.val).st = (canOf s c.val).st)) ∧
  (∀ (s : State) (c : Fin 4), fieldOn s = true → (canOf s c.val).joins = true → (canOf s c.val).busOff = false →
    (canOf s c.val).lastRec = none → Runs (.canBusOff c) s fun t =>
      (canOf t c.val).st = .down ∧ (canOf t c.val).busOff = true ∧ (canOf t c.val).wait = recoverMs s c.val ∧
      (canOf t c.val).reqAt = some (s.now + 1000 * recoverMs s c.val)) ∧
  (∀ (s : State) (c : Fin 4) (d : Nat), running s = true → (canOf s c.val).reqAt = some d →
    Runs (.canRecoveryRequest c) s fun t => d ≤ t.now ∧ (canOf t c.val).reqAt = none ∧ (canOf t c.val).recAt = some t.now) ∧
  (∀ (s : State) (c : Fin 4) (d : Nat), (canOf s c.val).recAt = some d → Runs (.canRecoveryDone c) s fun t =>
    d + 1408 * arbBit (fld (cfgOf s c.val).1 4 4) / 80 ≤ t.now ∧ (canOf t c.val).busOff = false ∧
    (canOf t c.val).st = (if isProfile s c.val then .listen else .down) ∧ (canOf t c.val).lastRec = some t.now) ∧
  (∀ (s : State) (c : Fin 4) (d : Nat), (canOf s c.val).lastRec = some d → (canOf s c.val).busOff = false →
    Runs (.canBackoffReset c) s fun t =>
      d + 10000000 ≤ t.now ∧ (canOf t c.val).lastRec = none ∧ (canOf t c.val).wait = recoverMs s c.val) ∧
  (∀ (s : State) (c : Fin 2) (w : Nat), detectorOn s c.val = true → 5 ≤ w → w ≤ 5000 → s.can.wakeOff.get 0 c.val ≤ s.now →
    s.keep.wake.length < 64 → Runs (.canWakePulse c w) s fun t =>
      t.can.wakeOff.get 0 c.val = s.now + 10000 ∧
      t.keep.wake = s.keep.wake ++ [{ code := 2 + c.val, seq := s.keep.wakeSeq + 1, time := keepTime s }]) ∧
  (∀ (s : State) (c : Fin 4), (canOf s c.val).st = .listen → Runs (.listenEnd c) s fun t =>
    (canOf t c.val).st = (if (canOf s c.val).down then .down else (canOf s c.val).onBus) ∧
    ((chanActs s.kt.actCfg c.val).all (canOf s c.val).heard.contains = false → (canOf s c.val).lisAt + 200000 ≤ t.now))

/-- Actuators and the actuator epoch (R24, R130, R247, R249, R250). -/
def Obligations.ActuatorCommandsComplete : Prop :=
  (∀ (s : State) (c : Fin 4) (a ago : Nat) (st : ActStatus), running s = true → (canOf s c.val).hears = true →
    isProfile s c.val = true → actCfg s a ≠ [] → Runs (.actuatorStatus c a ⟨st, ago⟩) s fun t =>
      (actOf t a).has = true ∧ (actOf t a).st = st ∧ (actOf t a).stamp = canStamp ago s ∧ (actOf t a).at_ = s.now ∧
      (actOf t a).silent = false ∧ (st.state ≠ 3 → (actOf t a).wait = none)) ∧
  (∀ (s : State) (c : Fin 4) (a ago : Nat) (st : ActStatus), running s = true → (canOf s c.val).st = .listen →
    isProfile s c.val = true → actCfg s a = [] → c.val < 2 → s.kt.actEpoch < st.highEpoch.toNat → s.pair.lead = true →
    Runs (.actuatorStatus c a ⟨st, ago⟩) s fun t => actOf t a = actOf s a ∧ t.pair.lead = false ∧
      t.pair.board = .stoodDown) ∧
  (∀ (s : State) (c : Fin 4) (pos : BitVec 4) (e : Word), running s = true → (canOf s c.val).hears = true →
    isProfile s c.val = true → pos.toNat = posOf s → c.val < 2 → s.kt.actEpoch < e.toNat → s.pair.lead = true →
    Runs (.epochAnnounceSeen c pos e) s fun t => t.pair.lead = false ∧ t.pair.board = .stoodDown ∧
      (∀ k < 4, (canOf t k).tx = [])) ∧
  (∀ (s : State) (c : Fin 4) (pos : BitVec 4) (e : Word), running s = true → (canOf s c.val).hears = true →
    isProfile s c.val = true → pos.toNat = posOf s → c.val < 2 → s.kt.actEpoch < e.toNat → s.pair.lead = false →
    Runs (.epochAnnounceSeen c pos e) s fun t => t.pair.lead = false ∧
      t.pair.hb.actEpoch.toNat = max s.pair.hb.actEpoch.toNat e.toNat) ∧
  (∀ s : State, sendsField s = true → Runs .epochAnnounceSend s fun t =>
    s.can.annAt + 1000000 ≤ t.now ∧ t.can.annAt = t.now ∧
    ∀ c < 4, isProfile s c = true → (canOf s c).joins = true → (canOf t c).tx.any (fun f => f.key == 200) = true) ∧
  (∀ (s : State) (k : Nat), s.pair.burst = k + 1 → Runs .epochBurst s fun t =>
    s.pair.burstAt ≤ t.now ∧ t.pair.burst = k ∧ t.pair.burstAt = t.now + 1000) ∧
  (∀ (s : State) (a : Nat), running s = true → actOn (actCfg s a) = true → (actOf s a).silent = false →
    Runs (.actuatorSilent a) s fun t => (actOf s a).at_ + 3000 * fld (actCfg s a) 6 2 ≤ t.now ∧ (actOf t a).silent = true) ∧
  (∀ (s : State) (a j d : Nat), (actOf s a).wait = some (j, d) → Runs (.actuatorConfigTimeout a) s fun t =>
    d ≤ t.now ∧ (actOf t a).wait = none)

/-! ## Programs and epochs (chapters 11 and 12) -/

/-- A descriptor of data work whose checks pass, whatever its check bits correct, writes its elements in row order and its
core goes on (R264 to R267, R276); in a memory in canonical form every byte outside its elements is as before, and an
element that none after it overlaps reads back. -/
def Obligations.DataDescriptorsStoreTheirElements : Prop :=
  ∀ (i : Instr) (op q c : Nat) (ecc : EccHit) (s u : State) (p : Prog) (d : Desc), dataOp i = some (op, q, c, ecc) →
    Passes q c ecc p d s u → d.opn = op → Runs i s fun t =>
      t.mem = stored (d.writes s.mem) s.mem ∧ Completes q c d s t ∧ t.now = s.now ∧ t.ket = s.ket ∧ t.lv = s.lv ∧
      t.drv = s.drv ∧ t.kt = s.kt ∧ t.pwr = s.pwr ∧
      (Mem.wf s.mem = true →
        (∀ a : Nat, (∀ w ∈ d.writes s.mem, a < w.1 ∨ w.1 + w.2.1 ≤ a) → t.mem.read a = s.mem.read a) ∧
        (∀ (xs ys : List (Nat × Nat × Elem)) (w : Nat × Nat × Elem), d.writes s.mem = xs ++ w :: ys →
          (∀ y ∈ ys, y.1 + y.2.1 ≤ w.1 ∨ w.1 + w.2.1 ≤ y.1) → w.1 + w.2.1 ≤ 0x400020000 ∨ 0x400020040 ≤ w.1 →
          t.mem.readN w.1 w.2.1 = leBytes w.2.1 w.2.2.1))

/-- Control descriptors, queues, waits and the cycle completion register (R257, R264, R266, R267, R287). -/
def Obligations.ControlDescriptorsComplete : Prop :=
  (∀ (q : Fin 64) (c : Fin 4) (ecc : EccHit) (s u : State) (p : Prog) (d : Desc), Passes q.val c.val ecc p d s u →
    (d.opn = 0x00 → Runs (.nop q c ecc) s fun t => Completes q.val c.val d s t ∧ t.mem = s.mem) ∧
    (d.opn = 0x01 → Runs (.halt q c ecc) s fun t => Completes q.val c.val d s t ∧ t.mem = s.mem ∧
      (coreOf t (4 * q.val + c.val)).st = .halted ∧ (coreOf t (4 * q.val + c.val)).pc = 0) ∧
    (d.opn = 0x02 → Runs (.jump q c ecc) s fun t => Completes q.val c.val d s t ∧ t.mem = s.mem ∧
      (coreOf t (4 * q.val + c.val)).pc = d.arg.toNat) ∧
    (d.opn = 0x03 → Runs (.loop q c ecc) s fun t => Completes q.val c.val d s t ∧ t.mem = s.mem ∧
      (coreOf t (4 * q.val + c.val)).pc =
        if (coreOf s (4 * q.val + c.val)).loops.getD (d.arg.toNat / 2 ^ 24 % 4) 0 + 1 < d.imm0 then d.arg.toNat % 2 ^ 24
        else (coreOf s (4 * q.val + c.val)).pc + 1) ∧
    (d.opn = 0x04 → Runs (.fence q c ecc) s fun t => Completes q.val c.val d s t ∧ t.mem = s.mem) ∧
    (d.opn = 0x05 → Runs (.tickwait q c ecc) s fun t => Completes q.val c.val d s t ∧ t.mem = s.mem ∧
      s.ep.tickAt + d.arg.toNat ≤ t.now) ∧
    (d.opn = 0x14 → queueFault u p q.val (4 * q.val + c.val) true d.queue.toNat = none → d.rows = 1 →
      (coreOf s (4 * q.val + c.val)).moved = 0 → (s.qre.queues.get [] d.queue.toNat).length < 16 →
      Runs (.qpush q c ecc) s fun t => Completes q.val c.val d s t ∧ t.mem = s.mem ∧
        t.qre.queues.get [] d.queue.toNat = s.qre.queues.get [] d.queue.toNat ++ [s.mem.readN (elAt (d.opnd 1) 4 0 0) 64]) ∧
    (d.opn = 0x14 → queueFault u p q.val (4 * q.val + c.val) true d.queue.toNat = none → d.rows = 1 →
      (coreOf s (4 * q.val + c.val)).moved = 0 → (coreOf s (4 * q.val + c.val)).stalled = true →
      (s.qre.queues.get [] d.queue.toNat).length < 16 →
      Runs (.queueStallRelease q c ecc) s fun t => Completes q.val c.val d s t ∧
        t.qre.queues.get [] d.queue.toNat = s.qre.queues.get [] d.queue.toNat ++ [s.mem.readN (elAt (d.opnd 1) 4 0 0) 64]) ∧
    (d.opn = 0x14 → queueFault u p q.val (4 * q.val + c.val) true d.queue.toNat = none → d.rows = 1 → d.cols = 1 →
      (coreOf s (4 * q.val + c.val)).moved = 0 → 256 ≤ (s.qre.queues.get [] d.queue.toNat).length →
      Runs (.qpush q c ecc) s fun t => (coreOf t (4 * q.val + c.val)).stalled = true ∧
        (coreOf t (4 * q.val + c.val)).pc = (coreOf s (4 * q.val + c.val)).pc ∧
        t.qre.queues.get [] d.queue.toNat = s.qre.queues.get [] d.queue.toNat) ∧
    (∀ (b : Bytes) (bs : List Bytes), d.opn = 0x15 →
      queueFault u p q.val (4 * q.val + c.val) false d.queue.toNat = none → d.rows = 1 →
      (coreOf s (4 * q.val + c.val)).moved = 0 → s.qre.queues.get [] d.queue.toNat = b :: bs →
      Runs (.qpop q c ecc) s fun t => Completes q.val c.val d s t ∧ t.qre.queues.get [] d.queue.toNat = bs ∧
        t.mem = stored ((List.range 16).map fun j => (elAt (d.opnd 0) 4 0 0 + 4 * j, 4, (fld b (4 * j) 4, []))) s.mem) ∧
    (6 ≤ d.opn → d.opn ≠ 0x14 → d.opn ≠ 0x15 → oAddr (d.opnd 0) = 0x400020000 → d.writes s.mem = [(0x400020000, 4, (1, []))] →
      Runs (.cycleCompletionWrite q c ecc) s fun t => Completes q.val c.val d s t ∧ t.ep.done = true ∧ t.mem = s.mem)) ∧
  (∀ (q : Fin 64) (c : Fin 4) (s : State) (p : Prog) (d : Desc), current s (4 * q.val + c.val) = some (p, d) →
    waitFault s p (4 * q.val + c.val) d = none → d.wait.getLsbD 15 = true → (coreOf s (4 * q.val + c.val)).waited = false →
    s.qre.flags.get false (q.val * 256 + d.wait.toNat % 256) = true → Runs (.descWaitPass q c) s fun t =>
      (coreOf t (4 * q.val + c.val)).waited = true ∧
      (d.wait.getLsbD 14 = false → t.qre.flags.find (q.val * 256 + d.wait.toNat % 256) = none) ∧
      (d.wait.getLsbD 14 = true → t.qre.flags = s.qre.flags))

/-- An undeclared access, and a descriptor that fails its own check, stop every core of the program; what is written stays,
flags and queues keep their state, and other programs run on (R291, R276). -/
def Obligations.QuireFaultsStopTheProgram : Prop :=
  ∀ (i : Instr) (op q c : Nat) (ecc : EccHit) (s : State) (p : Prog) (d : Desc) (f : QFault),
    dataOp i = some (op, q, c, ecc) → current s (4 * q + c) = some (p, d) → d.opn = op →
    ecc = .desc ∨ (d.wait.getLsbD 15 = false ∧ undeclared p.c d (d.accesses s.mem) = some f) → Runs i s fun t =>
      (∀ k ∈ p.cores, (coreOf t k).st = .stopped) ∧ (∀ k, k ∉ p.cores → coreOf t k = coreOf s k) ∧
      t.mem = s.mem ∧ t.qre.flags = s.qre.flags ∧ t.qre.queues = s.qre.queues

/-- Scrubbing, LPDDR5X training, epoch preparation, the row's agreement, the boundary exchange and restores (R276, R283,
R285, R290, R296, R298, R306). -/
def Obligations.EpochCommandsComplete : Prop :=
  (∀ (s : State) (n : Fin 64) (k : Nat) (bad : List Nat), s.pwr.store = .on → Runs (.scrubPass n k bad) s fun t =>
    s.qre.scrub.get s.qre.scrubFrom n.val + 600000000 ≤ t.now ∧
    (∀ a ∈ bad, a / 2 ^ 25 = n.val → t.qre.poison.contains (a / 64 * 64) = true) ∧ t.mem = s.mem ∧
    (0 < k → s.qre.corr.find n.val = none → t.qre.corr.find n.val = some (0, some t.now))) ∧
  (∀ (s : State) (j : Nat) (b : Bytes) (ch : Fin 2) (k : Nat), s.qre.train = some j → s.kt.spill = some b →
    fld b 0 1 = 1 → Runs (.lpddrTrainingDone true ch k) s fun t => t.qre.train = none ∧ t.qre.cap = 2 * fld b 2 1) ∧
  (∀ (s : State) (j : Nat) (ch : Fin 2) (k : Nat), s.qre.train = some j →
    Runs (.lpddrTrainingDone false ch k) s fun t => t.qre.train = none ∧ t.qre.cap = 0) ∧
  (∀ (s : State) (p : PendEpoch), s.ep.pend = some p → p.ready = false → running s = true → s.pwr.store = .on →
    p.progs.all (halvesUp s) = true → p.progs.all (spillFits s) = true → Runs (.epochPrepDone true) s fun t =>
      t.ep.pend = some { p with ready := true }) ∧
  (∀ (s : State) (p : PendEpoch), s.ep.pend = some p → p.ready = false → running s = true → s.ep.later = [] →
    Runs (.epochPrepDone false) s fun t => t.ep.pend = none ∧ t.ep.cur = s.ep.cur) ∧
  (∀ (s : State) (w : PreWork), s.ep.pre = some w → running s = true → s.pwr.store = .on → Runs .preloadDone s fun t =>
    t.ep.pre = none ∧ ∀ p ∈ s.qre.progs, ∀ q < 64, p.c.quires.testBit q = true →
      t.qre.flags.get false (256 * q + (manOf s).preload) = true) ∧
  (∀ (s : State) (p : PendEpoch) (as_ : List EpochAnswer), isMaster s = true → s.ep.pend = some p → p.ref.man.mode ≠ 0 →
    p.redo = false → p.ready = true → p.named = none → (otherParts s p.ref.man).all (readyAt as_ p.ref.num) = true →
    s.now ≤ p.at_ + 9000000 → s.ep.pollAt + 10000 ≤ p.at_ + 9000000 → Runs (.epochReadyPoll as_) s fun t =>
      s.ep.pollAt + 10000 ≤ t.now ∧ t.spn.epochTick = (rowTime t + 30000000 + 9999999) / 10000000 ∧
      t.ep.pend = some { p with named := some t.spn.epochTick }) ∧
  (∀ (s : State) (p : PendEpoch), s.ep.pend = some p → p.ref.man.mode ≠ 0 → p.redo = false → p.named = none →
    running s = true → s.ep.later = [] → Runs .epochLapse s fun t =>
      p.at_ + 10000000 ≤ t.now ∧ t.ep.pend = none ∧ t.ep.cur = s.ep.cur) ∧
  (∀ (s : State) (e : Nat), exchanging s = true → acting s = true → ownElem s e = true → s.ep.sent.contains e = false →
    leVal (s.mem.readN (outSlot s e + 36) 4) = s.ep.tick % 2 ^ 32 → s.now ≤ s.ep.tickAt + 780 →
    Runs (.boundarySlotSend e) s fun t =>
      e ∈ t.ep.sent ∧ e ∈ t.ep.arrived ∧
      t.mem = s.mem.writeN (inSlot s e) (s.mem.readN (outSlot s e) 36 ++ leBytes 4 (s.ep.tick % 2 ^ 32) ++ [0, 0])) ∧
  (∀ (s : State) (f : FrameHdr) (part e : Nat) (vals : List Word), Comes f s → exchanging s = true → e < (manOf s).nelem →
    s.now ≤ s.ep.tickAt + 800 → s.ep.endAt = false → Runs (.boundaryFrame f part (s.ep.tick % 2 ^ 32) e vals) s fun t =>
      e ∈ t.ep.arrived ∧ t.mem = s.mem.writeN (inSlot s e) (((List.range 9).flatMap fun i => leBytes 4 (vals.getD i 0).toNat) ++ leBytes 4 (s.ep.tick % 2 ^ 32) ++ [0, 0])) ∧
  (∀ (s : State) (f : FrameHdr) (part tick e : Nat) (vals : List Word), Comes f s → exchanging s = true →
    e < (manOf s).nelem → tick ≠ s.ep.tick % 2 ^ 32 → Runs (.boundaryFrame f part tick e vals) s fun t =>
      t.mem = s.mem ∧ t.ep = s.ep) ∧
  (∀ s : State, exchanging s = true → s.ep.endAt = false → Runs .boundaryDeadline s fun t =>
    s.ep.tickAt + 800 ≤ t.now ∧ t.ep.endAt = true ∧
    ∀ e < (manOf s).nelem, s.ep.arrived.contains e = false → t.ep.missed.get 0 e = min 255 (s.ep.missed.get 0 e + 1)) ∧
  (∀ (s : State) (e : EpochRef), s.ep.cur = some e → running s = true → s.pwr.store = .on → Runs .modelRestoreDone s fun t =>
    (∀ p ∈ t.qre.progs, p.st ≠ .restoring) ∧ ∀ p ∈ s.qre.progs, p.st = .restoring → ∃ r ∈ t.qre.progs, r.index = p.index ∧ r.st = .restored) ∧
  (∀ (s : State) (c : Ckpt) (ok : Bool), s.ep.copy = some c → oldSlot s.cat.ckpt < s.cat.ckpt.length →
    Runs (.checkpointWriteDone ok) s fun t =>
      t.ep.copy = none ∧ t.cat.ckpt[oldSlot s.cat.ckpt]? = some (if ok then some c else none))

/-- A cycle tick numbers the cycle and begins it afresh; a completed table whose CRC checks becomes current (R35 to R38).
The first tick waits for steps 2 to 7 of the start (R79, log 153). -/
def Obligations.CycleTickCompletes : Prop :=
  (∀ s : State, running s = true → s.ep.ticked = true ∨ startedUp s = true → s.spn.formed = false → Runs .cycleTick s fun t =>
    t.ep.tick = s.ep.tick + 1 ∧ t.ep.ticked = true ∧ (s.ep.ticked = true → s.ep.tickAt + 10000 ≤ t.ep.tickAt) ∧
    t.ep.tickAt ≤ t.now ∧ t.ep.done = false ∧ t.ep.arrived = [] ∧ t.ep.sent = [] ∧ t.ep.endAt = false) ∧
  (∀ s : State, running s = true → s.ep.ticked = true ∨ startedUp s = true → s.spn.formed = true → s.spn.firstTick = none →
    Runs .cycleTick s fun t =>
    t.ep.tick = max (s.ep.tick + 1) (rowTick s) ∧ t.ep.ticked = true ∧ t.ep.done = false) ∧
  (∀ s : State, running s = true → s.ep.ticked = true ∨ startedUp s = true → s.spn.formed = false → s.pair.switch = 0 →
    s.ep.done = true → s.ep.cold = 0 → tableGood (tableBank s) = true → Runs .cycleTick s fun t =>
      t.lv.table = some (tableBank s) ∧ t.lv.stale = false ∧ t.lv.everTable = true) ∧
  (∀ s : State, running s = true → s.ep.ticked = false → startedUp s = false → Runs .cycleTick s fun t => t = s)

/-! ## The setpoint planner (chapter 13) -/

/-- Trajectory points, plans, splices, passes, the hold path and leave segments (R304, R315, R318 to R324). -/
def Obligations.PlannerCommandsComplete : Prop :=
  (∀ (s : State) (r : Traj) (g : Seg), s.pln.run = some r → running s = true → r.asks = [] → r.segs = [g] → r.started = true →
    secsFrom r.t0 r.at_ < r.off + g.dur → Runs .trajectoryPoint s fun t =>
      r.at_ ≤ t.now ∧ t.pln.run = some { r with at_ := r.at_ + 1000 }) ∧
  (∀ (s : State) (r : Traj) (g : Seg), s.pln.run = some r → running s = true → r.asks = [] → r.segs = [g] → r.started = true →
    r.off + g.dur ≤ secsFrom r.t0 r.at_ → aligned s r.at_ = true → r.hold = false → Runs .trajectoryPoint s fun t =>
      r.at_ ≤ t.now ∧ t.pln.run = none ∧ t.pln.st = .rest) ∧
  (∀ (s : State) (p : PlanJob), s.pln.plan = some p → running s = true → (regSet s).axes ≠ [] → p.ok = false → p.redo = false →
    segsSpan (jobSegs s p) ≤ 60 → firstHit s (regSet s) p.splice (spanMs (jobSegs s p)) (fun x => segsAt true 0 (jobSegs s p) x) = none →
    s.pln.lag = false → Runs (.planDone .verified) s fun t =>
      t.pln.plan = some { p with ok := true, start := jobStart s (regSet s) p } ∧ t.pln.run = s.pln.run) ∧
  (∀ (s : State) (p : PlanJob) (r : PlanResult) (h : Nat × Nat), s.pln.plan = some p → running s = true →
    (regSet s).axes ≠ [] → p.ok = false → p.redo = false → segsSpan (jobSegs s p) ≤ 60 → decides s = true → r ≠ .unverified →
    firstHit s (if r = .refused then near (regSet s) else regSet s) p.splice (spanMs (jobSegs s p))
      (fun x => segsAt true 0 (jobSegs s p) x) = some h → Runs (.planDone r) s fun t =>
        t.pln.plan = none ∧ t.pln.run = s.pln.run) ∧
  (∀ (s : State) (p : PlanJob), s.pln.plan = some p → running s = true → (regSet s).axes ≠ [] → p.ok = false →
    p.redo = false → 60 < segsSpan (jobSegs s p) → decides s = true → Runs (.planDone .verified) s fun t =>
      t.pln.plan = none ∧ t.pln.run = s.pln.run) ∧
  (∀ (s : State) (p : PlanJob) (h : HoldPath), s.pln.plan = some p → running s = true → decides s = true → p.redo = false →
    p.ok = true → p.start = jobStart s (regSet s) p → s.pln.hold = some h → h.from_ ≤ s.now → s.now ≤ h.to_ → p.splice ≤ h.to_ →
    Runs .spliceTime s fun t =>
      p.splice ≤ t.now ∧ t.pln.plan = none ∧ t.pln.st = .moving ∧ ∃ r, t.pln.run = some r ∧ r.jseq = p.jseq ∧ r.cw = p.cw) ∧
  (∀ (s : State) (p : PlanJob), s.pln.plan = some p → running s = true → decides s = true → p.redo = false → p.ok = false →
    Runs .spliceTime s fun t => p.splice ≤ t.now ∧ t.pln.plan = none ∧ t.pln.run = s.pln.run) ∧
  (∀ (s : State) (d : Nat) (r : PassResult) (h : HoldPath), s.pln.pass = some d → running s = true → s.now ≤ d + 20000 →
    s.pln.adopt = none → s.kt.regions.isSome = true → s.pln.st ≠ .stale → r.collides = false →
    remainderHit (passView s) (regSet s) = none →
    holdFound (passView s) (regSet s) d (windowStates s d) r.hold = some h →
    Runs (.verifyPassDone r) s fun t => t.pln.pass = none ∧ t.pln.hold = some h ∧ t.pln.armed = true ∧ t.pln.st = s.pln.st) ∧
  (∀ (s : State) (d : Nat), s.pln.pass = some d → running s = true → decides s = true → s.pln.st = .rest → s.pln.run = none →
    s.pln.hold = none → Runs .verifyPassDeadline s fun t => d + 20000 ≤ t.now ∧ t.pln.pass = none ∧ t.pln.st = .stale) ∧
  (∀ s : State, running s = true → s.pln.harbour.isSome = true → s.pln.setRep = false → Runs .harbourSetStale s fun t =>
    s.pln.setAt + 100000 ≤ t.now ∧ t.pln.setRep = true) ∧
  (∀ (s : State) (r : Traj) (d : Nat), s.pln.run = some r → r.until_ = some d → decides s = true →
    Runs .leaveSegmentTimeout s fun t => d ≤ t.now ∧ t.pln.run = none ∧ t.pln.st = .rest)

/-! ## Tray stewardship and the endpaper tag (chapter 14) -/

/-- Agents' interrupts, golden slots and rebinding (R330, R333, R338, R339, R342 to R344). -/
def Obligations.RebindingCompletes : Prop :=
  (∀ (s : State) (n : Fin 16) (data : Bytes) (r : Rec), servesAgent s n.val = true → data.length ≤ 256 →
    r = windowRec (Mem.writeN [] 0 data) → r.len ≤ 256 → cwSrc r.cw = 0x10 + n.val → r.op ≠ 0x0010 → r.op ≠ 0x0011 →
    (mbxOf s 6).busy = false → Runs (.i3cIbi n 1 data) s fun t =>
      (mbxOf t 6).busy = true ∧ (mbxOf t 6).window = Mem.writeN [] 0 data) ∧
  (∀ (s : State) (n : Fin 16) (data : Bytes), acting s = true → (agentOf s n.val).role = some true →
    (agentOf s n.val).link = .up → descValid data = true → (invOf s n.val).desc = none → Runs (.i3cIbi n 2 data) s fun t =>
      (invOf t n.val).adopt = some data) ∧
  (∀ (s : State) (n : Nat) (ok : Bool), writingSlot s = some n → Runs (.goldenWriteDone ok) s fun t =>
    (goldenOf t n).state = (if ok then .valid else .bad) ∧ (goldenOf t n).header = (goldenOf s n).header) ∧
  (∀ (s : State) (n : Fin 8) (ok : Bool), (goldenOf s n.val).state = .valid → running s = true → Runs (.goldenScrub n ok) s fun t =>
    (goldenOf s n.val).scrub ≤ t.now ∧ (goldenOf t n.val).state = (if ok then .valid else .bad)) ∧
  (∀ (s : State) (r : Running), s.stw.run = some r → r.step = .verify →
    (goldenOf s r.job.slot).state ≠ .bad → internalAsk (fld (goldenOf s r.job.slot).header 28 2) s = none → s.pair.lead = true → Runs (.rebindVerifyDone true) s fun t =>
      (∃ w, t.stw.run = some w ∧ w.job = r.job ∧ w.step = .begin_ ∧
        w.bound = some (s.now + fld (goldenOf s r.job.slot).header 30 2 * 1000000)) ∧
      .i3c (r.job.tray / 4) (0x10 + r.job.tray % 4)
        (controlBytes 2 r.job.slot ((agentOf s r.job.tray).cseq + 1)) ∈ t.out) ∧
  (∀ (s : State) (r : Running), s.stw.run = some r → r.step = .verify → s.stw.queue = [] →
    Runs (.rebindVerifyDone false) s fun t => (goldenOf t r.job.slot).state = .bad ∧ t.stw.run = none) ∧
  (∀ (s : State) (r : Running), s.stw.run = some r → r.step = .program → Runs .rebindProgramDone s fun t =>
    t.stw.run = some { r with step := .readback } ∧ t.stw.tfs = s.stw.tfs ∧
    .flash r.job.tray (fld (goldenOf s r.job.slot).header 24 4) (goldenOf s r.job.slot).payload ∈ t.out) ∧
  (∀ (s : State) (r : Running), s.stw.run = some r → r.step = .readback → s.pair.lead = true →
    Runs (.rebindReadbackDone true) s fun t => t.stw.tfs = none ∧
      t.stw.run = some { r with step := .end_, until_ := some (s.now + 120000000) } ∧
      .i3c (r.job.tray / 4) (0x10 + r.job.tray % 4)
        (controlBytes 3 0 ((agentOf s r.job.tray).cseq + 1)) ∈ t.out) ∧
  (∀ (s : State) (r : Running), s.stw.run = some r → r.step = .readback → r.tries = 0 →
    Runs (.rebindReadbackDone false) s fun t => t.stw.run = some { r with step := .program, tries := 1 }) ∧
  (∀ (s : State) (r : Running) (d : Nat), s.stw.run = some r → r.until_ = some d → r.step = .begin_ ∨ r.step = .end_ →
    s.stw.queue = [] → Runs .rebindAgentTimeout s fun t => d ≤ t.now ∧ t.stw.run = none ∧ t.stw.tfs = none ∧
      (invOf t r.job.tray).held = (invOf s r.job.tray).held) ∧
  (∀ (s : State) (r : Running) (d : Nat), s.stw.run = some r → r.bound = some d → s.stw.queue = [] →
    Runs .rebindBoundExpiry s fun t => d ≤ t.now ∧ t.stw.run = none ∧ t.stw.tfs = none)

/-- The endpaper tag from the wired side and over RF (R345 to R349). -/
def Obligations.TagCommandsComplete : Prop :=
  (∀ s : State, running s = true → s.stw.tag.invDue = false → Runs .tagInventoryWrite s fun t =>
    s.stw.tag.invAt ≤ t.now ∧ t.stw.tag.gen = (s.stw.tag.gen + 1) % 2 ^ 32 ∧ t.stw.tag.invAt = t.now + 3600000000) ∧
  (∀ s : State, running s = true → s.stw.tag.invDue = true → Runs .tagInventoryWrite s fun t =>
    t.stw.tag.gen = (s.stw.tag.gen + 1) % 2 ^ 32 ∧ t.stw.tag.counts = s.stw.tag.counts ∧ t.stw.tag.lock = s.stw.tag.lock ∧
    t.stw.tag.mem = (s.stw.tag.mem.writeN 0x100 ((List.range 16).map (traySummary t.stw.tag.gen s)).flatten).writeN 0
      (deviceRecord t.stw.tag.gen s)) ∧
  (∀ (s : State) (w : TagWrite), s.stw.tag.write = some w → w.busy = false → Runs .tagWiredSwap s fun t =>
    t.stw.tag.write = (s.stw.tag.more.head?.map fun v => { v with stop := s.now + 1000000 }) ∧
    t.stw.tag.mem = s.stw.tag.mem.writeN (256 * w.page) w.bytes ∧
    t.stw.tag.counts = s.stw.tag.counts) ∧
  (∀ (s : State) (w : TagWrite), s.stw.tag.write = some w → Runs .tagWiredBusy s fun t =>
    t.stw.tag.write = some { w with busy := true, retry := s.now + 50000 } ∧ t.stw.tag.mem = s.stw.tag.mem) ∧
  (∀ (s : State) (w : TagWrite), s.stw.tag.write = some w → w.busy = true → Runs .tagWriteRetry s fun t =>
    w.retry ≤ t.now ∧ t.stw.tag.write = some { w with busy := false } ∧ t.stw.tag.mem = s.stw.tag.mem) ∧
  (∀ (s : State) (w : TagWrite), s.stw.tag.write = some w → Runs .tagWriteTimeout s fun t =>
    w.stop ≤ t.now ∧ t.stw.tag.write = (s.stw.tag.more.head?.map fun v => { v with stop := t.now + 1000000 }) ∧
    t.stw.tag.mem = s.stw.tag.mem ∧ t.stw.tag.lock = s.stw.tag.lock) ∧
  (∀ s : State, running s = true → Runs .tagRfPoll s fun t =>
    (∀ p < 32, t.stw.tag.told.get 0 p = s.stw.tag.counts.get 0 p) ∧ s.stw.tag.pollAt ≤ t.now ∧
    t.stw.tag.pollAt = t.now + 1000000 ∧
    t.stw.tag.mem = s.stw.tag.mem) ∧
  (∀ (s : State) (n m : Nat), s.stw.tag.state ≠ .quiet → m = leVal (tagUid s) % 2 ^ n → Runs (.rfInventory n m) s fun t =>
    t.out = .rf 0 ([0] ++ tagUid s) :: s.out) ∧
  (∀ (s : State) (u : DWord), uidIs u s = true → Runs (.rfStayQuiet u) s fun t => t.stw.tag.state = .quiet ∧ t.out = s.out) ∧
  (∀ (s : State) (u : DWord), uidIs u s = true → Runs (.rfSelect u) s fun t =>
    t.stw.tag.state = .selected ∧ t.out = .rf 0 [] :: s.out) ∧
  (∀ s : State, Runs (.rfResetToReady none) s fun t => t.stw.tag.state = .ready ∧ t.out = .rf 0 [] :: s.out) ∧
  (∀ s : State, Runs .rfGetSystemInformation s fun t =>
    t.out = .rf 0 ([0x07] ++ tagUid s ++ [0, 0, 255, 31]) :: s.out ∧ t.stw = s.stw) ∧
  (∀ (s : State) (b : Nat), b < 256 → Runs (.rfReadSingleBlock b) s fun t =>
    t.out = .rf 0 (s.stw.tag.mem.readN (32 * b) 32) :: s.out ∧ t.stw = s.stw) ∧
  (∀ (s : State) (b n : Nat), n ≤ 32 → b + n ≤ 256 → Runs (.rfReadMultipleBlocks b n) s fun t =>
    t.out = .rf 0 (s.stw.tag.mem.readN (32 * b) (32 * n)) :: s.out ∧ t.stw = s.stw) ∧
  (∀ (s : State) (b : Nat) (data : Bytes), b < 256 → rfLocked s.stw.tag b = false → Runs (.rfWriteSingleBlock b data) s fun t =>
    t.out = .rf 0 [] :: s.out ∧ t.stw.tag.mem = s.stw.tag.mem.writeN (32 * b) (sub data 0 32) ∧
    t.stw.tag.counts.get 0 (b / 8) = (s.stw.tag.counts.get 0 (b / 8) + 1) % 65536) ∧
  (∀ (s : State) (b : Nat) (data : Bytes), b < 256 → rfLocked s.stw.tag b = true → Runs (.rfWriteSingleBlock b data) s fun t =>
    t.out = .rf 0x12 [] :: s.out ∧ t.stw = s.stw) ∧
  (∀ (s : State) (b n : Nat), b + n ≤ 256 → Runs (.rfGetBlockSecurity b n) s fun t =>
    t.out = .rf 0 ((List.range n).map fun i => if rfLocked s.stw.tag (b + i) then 1 else 0) :: s.out ∧ t.stw = s.stw)

/-! ## Logbook and counters (chapter 15) -/

/-- The folio writer, summaries, drops, freezes and dumps (R353 to R355, R359, R369 to R371). -/
def Obligations.LogCommandsComplete : Prop :=
  (∀ (s : State) (f : Folio) (fs : List Folio), s.keep.por = false → s.log.freeze = none → s.log.queue = f :: fs →
    s.log.slots.length < 4096 → Runs .folioCommit s fun t =>
      t.log.slots = s.log.slots ++ [f] ∧ t.log.queue = fs ∧ t.log.fseq = s.log.fseq) ∧
  (∀ (s : State) (d : Nat), running s = true → s.log.period = some d → Runs .summarySample s fun t =>
    d + 1000000 * (s.log.samples + 1) ≤ t.now ∧ t.log.samples = s.log.samples + 1 ∧ t.log.fseq = s.log.fseq ∧
    ∀ k < 8, ∀ v, trackValue t k = some v → (t.log.tracks.get {} k).n = (s.log.tracks.get {} k).n + 1) ∧
  (∀ (s : State) (d : Nat), running s = true → s.log.period = some d → Runs .summaryWrite s fun t =>
    t.log.samples = 0 ∧ t.log.tracks = [] ∧ t.log.period = some t.now ∧ t.log.fseq = s.log.fseq + 4) ∧
  (∀ s : State, running s = true → s.log.dropNew = true → Runs .logDropped s fun t =>
    t.log.dropNew = false ∧ t.log.dropAt = some t.now ∧ t.log.fseq = s.log.fseq ∧
    ∀ d, s.log.dropAt = some d → d + 1000000 ≤ t.now) ∧
  (∀ (s : State) (z : Freeze), s.log.freeze = some z → Runs .freezeExpiry s fun t =>
    z.stop ≤ t.now ∧ t.log.freeze = none ∧ t.log.buf = [] ∧ (s.log.queue ++ s.log.buf) <+: t.log.queue) ∧
  (∀ s : State, s.pmc.en = true → 2 ≤ s.pmc.slots → s.pmc.slots ≤ 4096 → 0 < s.pmc.period → s.pmc.period ≤ 1000000 →
    s.pwr.bind = .on → s.host.dstate = .d0 → s.host.link = .l0 → dumpFull s.pmc = false → Runs .dumpInstant s fun t =>
      dumpTime s ≤ t.now ∧ t.pmc.dseq = s.pmc.dseq + 1 ∧ t.pmc.skipped = s.pmc.skipped ∧
      t.pmc.pi = (if s.pmc.pi % 4096 + 1 = s.pmc.slots then 4096 - s.pmc.pi / 4096 * 4096 else s.pmc.pi + 1)) ∧
  (∀ s : State, s.pmc.en = true → 2 ≤ s.pmc.slots → s.pmc.slots ≤ 4096 → 0 < s.pmc.period → s.pmc.period ≤ 1000000 →
    s.pwr.bind = .on → dumpFull s.pmc = true → Runs .dumpInstant s fun t =>
      t.pmc.pi = s.pmc.pi ∧ t.pmc.skipped = (s.pmc.skipped + 1) % 2 ^ 32 ∧ t.out = s.out) ∧
  (∀ (s : State) (n : Nat), bar0Up s = true → running s = true → Runs (.pduValueLowRead n) s fun t =>
    t.pmc = { s.pmc with latch := pduHigh s.pmc n }) ∧
  (∀ s : State, bar0Up s = true → running s = true → Runs .pduSkippedRead s fun t =>
    t.pmc = { s.pmc with skipped := 0 }) ∧
  (∀ (s : State) (n : Nat), running s = false → Runs (.pduValueLowRead n) s fun t => t.pmc = s.pmc) ∧
  (∀ s : State, running s = false → Runs .pduSkippedRead s fun t => t.pmc = s.pmc)
end

