-- ==== Sys2Proof/Laws/State.lean ====
section
/-! SUPPORT. Laws/State.lean: one lemma per field and update of State, true by rfl, so that no later proof
unfolds a record update. -/

namespace Sys2Proof.Machine

section
variable (v : Nat) (s : State)
@[simp] theorem State.setNow_now : (s.setNow v).now = v := rfl
@[simp] theorem State.setNow_free : (s.setNow v).free = s.free := rfl
@[simp] theorem State.setNow_out : (s.setNow v).out = s.out := rfl
@[simp] theorem State.setNow_pending : (s.setNow v).pending = s.pending := rfl
@[simp] theorem State.setNow_keep : (s.setNow v).keep = s.keep := rfl
@[simp] theorem State.setNow_cat : (s.setNow v).cat = s.cat := rfl
@[simp] theorem State.setNow_pwr : (s.setNow v).pwr = s.pwr := rfl
@[simp] theorem State.setNow_otp : (s.setNow v).otp = s.otp := rfl
@[simp] theorem State.setNow_kt : (s.setNow v).kt = s.kt := rfl
@[simp] theorem State.setNow_boot : (s.setNow v).boot = s.boot := rfl
@[simp] theorem State.setNow_mbx : (s.setNow v).mbx = s.mbx := rfl
@[simp] theorem State.setNow_jr : (s.setNow v).jr = s.jr := rfl
@[simp] theorem State.setNow_stg : (s.setNow v).stg = s.stg := rfl
@[simp] theorem State.setNow_host : (s.setNow v).host = s.host := rfl
@[simp] theorem State.setNow_log : (s.setNow v).log = s.log := rfl
@[simp] theorem State.setNow_pmc : (s.setNow v).pmc = s.pmc := rfl
@[simp] theorem State.setNow_spn : (s.setNow v).spn = s.spn := rfl
@[simp] theorem State.setNow_pair : (s.setNow v).pair = s.pair := rfl
@[simp] theorem State.setNow_lv : (s.setNow v).lv = s.lv := rfl
@[simp] theorem State.setNow_ket : (s.setNow v).ket = s.ket := rfl
@[simp] theorem State.setNow_afe : (s.setNow v).afe = s.afe := rfl
@[simp] theorem State.setNow_drv : (s.setNow v).drv = s.drv := rfl
@[simp] theorem State.setNow_can : (s.setNow v).can = s.can := rfl
@[simp] theorem State.setNow_qre : (s.setNow v).qre = s.qre := rfl
@[simp] theorem State.setNow_mem : (s.setNow v).mem = s.mem := rfl
@[simp] theorem State.setNow_ep : (s.setNow v).ep = s.ep := rfl
@[simp] theorem State.setNow_pln : (s.setNow v).pln = s.pln := rfl
@[simp] theorem State.setNow_stw : (s.setNow v).stw = s.stw := rfl
end
section
variable (v : Nat) (s : State)
@[simp] theorem State.setFree_now : (s.setFree v).now = s.now := rfl
@[simp] theorem State.setFree_free : (s.setFree v).free = v := rfl
@[simp] theorem State.setFree_out : (s.setFree v).out = s.out := rfl
@[simp] theorem State.setFree_pending : (s.setFree v).pending = s.pending := rfl
@[simp] theorem State.setFree_keep : (s.setFree v).keep = s.keep := rfl
@[simp] theorem State.setFree_cat : (s.setFree v).cat = s.cat := rfl
@[simp] theorem State.setFree_pwr : (s.setFree v).pwr = s.pwr := rfl
@[simp] theorem State.setFree_otp : (s.setFree v).otp = s.otp := rfl
@[simp] theorem State.setFree_kt : (s.setFree v).kt = s.kt := rfl
@[simp] theorem State.setFree_boot : (s.setFree v).boot = s.boot := rfl
@[simp] theorem State.setFree_mbx : (s.setFree v).mbx = s.mbx := rfl
@[simp] theorem State.setFree_jr : (s.setFree v).jr = s.jr := rfl
@[simp] theorem State.setFree_stg : (s.setFree v).stg = s.stg := rfl
@[simp] theorem State.setFree_host : (s.setFree v).host = s.host := rfl
@[simp] theorem State.setFree_log : (s.setFree v).log = s.log := rfl
@[simp] theorem State.setFree_pmc : (s.setFree v).pmc = s.pmc := rfl
@[simp] theorem State.setFree_spn : (s.setFree v).spn = s.spn := rfl
@[simp] theorem State.setFree_pair : (s.setFree v).pair = s.pair := rfl
@[simp] theorem State.setFree_lv : (s.setFree v).lv = s.lv := rfl
@[simp] theorem State.setFree_ket : (s.setFree v).ket = s.ket := rfl
@[simp] theorem State.setFree_afe : (s.setFree v).afe = s.afe := rfl
@[simp] theorem State.setFree_drv : (s.setFree v).drv = s.drv := rfl
@[simp] theorem State.setFree_can : (s.setFree v).can = s.can := rfl
@[simp] theorem State.setFree_qre : (s.setFree v).qre = s.qre := rfl
@[simp] theorem State.setFree_mem : (s.setFree v).mem = s.mem := rfl
@[simp] theorem State.setFree_ep : (s.setFree v).ep = s.ep := rfl
@[simp] theorem State.setFree_pln : (s.setFree v).pln = s.pln := rfl
@[simp] theorem State.setFree_stw : (s.setFree v).stw = s.stw := rfl
end
section
variable (f : List Output → List Output) (s : State)
@[simp] theorem State.onOut_now : (s.onOut f).now = s.now := rfl
@[simp] theorem State.onOut_free : (s.onOut f).free = s.free := rfl
@[simp] theorem State.onOut_out : (s.onOut f).out = f s.out := rfl
@[simp] theorem State.onOut_pending : (s.onOut f).pending = s.pending := rfl
@[simp] theorem State.onOut_keep : (s.onOut f).keep = s.keep := rfl
@[simp] theorem State.onOut_cat : (s.onOut f).cat = s.cat := rfl
@[simp] theorem State.onOut_pwr : (s.onOut f).pwr = s.pwr := rfl
@[simp] theorem State.onOut_otp : (s.onOut f).otp = s.otp := rfl
@[simp] theorem State.onOut_kt : (s.onOut f).kt = s.kt := rfl
@[simp] theorem State.onOut_boot : (s.onOut f).boot = s.boot := rfl
@[simp] theorem State.onOut_mbx : (s.onOut f).mbx = s.mbx := rfl
@[simp] theorem State.onOut_jr : (s.onOut f).jr = s.jr := rfl
@[simp] theorem State.onOut_stg : (s.onOut f).stg = s.stg := rfl
@[simp] theorem State.onOut_host : (s.onOut f).host = s.host := rfl
@[simp] theorem State.onOut_log : (s.onOut f).log = s.log := rfl
@[simp] theorem State.onOut_pmc : (s.onOut f).pmc = s.pmc := rfl
@[simp] theorem State.onOut_spn : (s.onOut f).spn = s.spn := rfl
@[simp] theorem State.onOut_pair : (s.onOut f).pair = s.pair := rfl
@[simp] theorem State.onOut_lv : (s.onOut f).lv = s.lv := rfl
@[simp] theorem State.onOut_ket : (s.onOut f).ket = s.ket := rfl
@[simp] theorem State.onOut_afe : (s.onOut f).afe = s.afe := rfl
@[simp] theorem State.onOut_drv : (s.onOut f).drv = s.drv := rfl
@[simp] theorem State.onOut_can : (s.onOut f).can = s.can := rfl
@[simp] theorem State.onOut_qre : (s.onOut f).qre = s.qre := rfl
@[simp] theorem State.onOut_mem : (s.onOut f).mem = s.mem := rfl
@[simp] theorem State.onOut_ep : (s.onOut f).ep = s.ep := rfl
@[simp] theorem State.onOut_pln : (s.onOut f).pln = s.pln := rfl
@[simp] theorem State.onOut_stw : (s.onOut f).stw = s.stw := rfl
end
section
variable (v : List Instr) (s : State)
@[simp] theorem State.setPending_now : (s.setPending v).now = s.now := rfl
@[simp] theorem State.setPending_free : (s.setPending v).free = s.free := rfl
@[simp] theorem State.setPending_out : (s.setPending v).out = s.out := rfl
@[simp] theorem State.setPending_pending : (s.setPending v).pending = v := rfl
@[simp] theorem State.setPending_keep : (s.setPending v).keep = s.keep := rfl
@[simp] theorem State.setPending_cat : (s.setPending v).cat = s.cat := rfl
@[simp] theorem State.setPending_pwr : (s.setPending v).pwr = s.pwr := rfl
@[simp] theorem State.setPending_otp : (s.setPending v).otp = s.otp := rfl
@[simp] theorem State.setPending_kt : (s.setPending v).kt = s.kt := rfl
@[simp] theorem State.setPending_boot : (s.setPending v).boot = s.boot := rfl
@[simp] theorem State.setPending_mbx : (s.setPending v).mbx = s.mbx := rfl
@[simp] theorem State.setPending_jr : (s.setPending v).jr = s.jr := rfl
@[simp] theorem State.setPending_stg : (s.setPending v).stg = s.stg := rfl
@[simp] theorem State.setPending_host : (s.setPending v).host = s.host := rfl
@[simp] theorem State.setPending_log : (s.setPending v).log = s.log := rfl
@[simp] theorem State.setPending_pmc : (s.setPending v).pmc = s.pmc := rfl
@[simp] theorem State.setPending_spn : (s.setPending v).spn = s.spn := rfl
@[simp] theorem State.setPending_pair : (s.setPending v).pair = s.pair := rfl
@[simp] theorem State.setPending_lv : (s.setPending v).lv = s.lv := rfl
@[simp] theorem State.setPending_ket : (s.setPending v).ket = s.ket := rfl
@[simp] theorem State.setPending_afe : (s.setPending v).afe = s.afe := rfl
@[simp] theorem State.setPending_drv : (s.setPending v).drv = s.drv := rfl
@[simp] theorem State.setPending_can : (s.setPending v).can = s.can := rfl
@[simp] theorem State.setPending_qre : (s.setPending v).qre = s.qre := rfl
@[simp] theorem State.setPending_mem : (s.setPending v).mem = s.mem := rfl
@[simp] theorem State.setPending_ep : (s.setPending v).ep = s.ep := rfl
@[simp] theorem State.setPending_pln : (s.setPending v).pln = s.pln := rfl
@[simp] theorem State.setPending_stw : (s.setPending v).stw = s.stw := rfl
end
section
variable (f : Keep → Keep) (s : State)
@[simp] theorem State.onKeep_now : (s.onKeep f).now = s.now := rfl
@[simp] theorem State.onKeep_free : (s.onKeep f).free = s.free := rfl
@[simp] theorem State.onKeep_out : (s.onKeep f).out = s.out := rfl
@[simp] theorem State.onKeep_pending : (s.onKeep f).pending = s.pending := rfl
@[simp] theorem State.onKeep_keep : (s.onKeep f).keep = f s.keep := rfl
@[simp] theorem State.onKeep_cat : (s.onKeep f).cat = s.cat := rfl
@[simp] theorem State.onKeep_pwr : (s.onKeep f).pwr = s.pwr := rfl
@[simp] theorem State.onKeep_otp : (s.onKeep f).otp = s.otp := rfl
@[simp] theorem State.onKeep_kt : (s.onKeep f).kt = s.kt := rfl
@[simp] theorem State.onKeep_boot : (s.onKeep f).boot = s.boot := rfl
@[simp] theorem State.onKeep_mbx : (s.onKeep f).mbx = s.mbx := rfl
@[simp] theorem State.onKeep_jr : (s.onKeep f).jr = s.jr := rfl
@[simp] theorem State.onKeep_stg : (s.onKeep f).stg = s.stg := rfl
@[simp] theorem State.onKeep_host : (s.onKeep f).host = s.host := rfl
@[simp] theorem State.onKeep_log : (s.onKeep f).log = s.log := rfl
@[simp] theorem State.onKeep_pmc : (s.onKeep f).pmc = s.pmc := rfl
@[simp] theorem State.onKeep_spn : (s.onKeep f).spn = s.spn := rfl
@[simp] theorem State.onKeep_pair : (s.onKeep f).pair = s.pair := rfl
@[simp] theorem State.onKeep_lv : (s.onKeep f).lv = s.lv := rfl
@[simp] theorem State.onKeep_ket : (s.onKeep f).ket = s.ket := rfl
@[simp] theorem State.onKeep_afe : (s.onKeep f).afe = s.afe := rfl
@[simp] theorem State.onKeep_drv : (s.onKeep f).drv = s.drv := rfl
@[simp] theorem State.onKeep_can : (s.onKeep f).can = s.can := rfl
@[simp] theorem State.onKeep_qre : (s.onKeep f).qre = s.qre := rfl
@[simp] theorem State.onKeep_mem : (s.onKeep f).mem = s.mem := rfl
@[simp] theorem State.onKeep_ep : (s.onKeep f).ep = s.ep := rfl
@[simp] theorem State.onKeep_pln : (s.onKeep f).pln = s.pln := rfl
@[simp] theorem State.onKeep_stw : (s.onKeep f).stw = s.stw := rfl
end
section
variable (f : CatchImages → CatchImages) (s : State)
@[simp] theorem State.onCat_now : (s.onCat f).now = s.now := rfl
@[simp] theorem State.onCat_free : (s.onCat f).free = s.free := rfl
@[simp] theorem State.onCat_out : (s.onCat f).out = s.out := rfl
@[simp] theorem State.onCat_pending : (s.onCat f).pending = s.pending := rfl
@[simp] theorem State.onCat_keep : (s.onCat f).keep = s.keep := rfl
@[simp] theorem State.onCat_cat : (s.onCat f).cat = f s.cat := rfl
@[simp] theorem State.onCat_pwr : (s.onCat f).pwr = s.pwr := rfl
@[simp] theorem State.onCat_otp : (s.onCat f).otp = s.otp := rfl
@[simp] theorem State.onCat_kt : (s.onCat f).kt = s.kt := rfl
@[simp] theorem State.onCat_boot : (s.onCat f).boot = s.boot := rfl
@[simp] theorem State.onCat_mbx : (s.onCat f).mbx = s.mbx := rfl
@[simp] theorem State.onCat_jr : (s.onCat f).jr = s.jr := rfl
@[simp] theorem State.onCat_stg : (s.onCat f).stg = s.stg := rfl
@[simp] theorem State.onCat_host : (s.onCat f).host = s.host := rfl
@[simp] theorem State.onCat_log : (s.onCat f).log = s.log := rfl
@[simp] theorem State.onCat_pmc : (s.onCat f).pmc = s.pmc := rfl
@[simp] theorem State.onCat_spn : (s.onCat f).spn = s.spn := rfl
@[simp] theorem State.onCat_pair : (s.onCat f).pair = s.pair := rfl
@[simp] theorem State.onCat_lv : (s.onCat f).lv = s.lv := rfl
@[simp] theorem State.onCat_ket : (s.onCat f).ket = s.ket := rfl
@[simp] theorem State.onCat_afe : (s.onCat f).afe = s.afe := rfl
@[simp] theorem State.onCat_drv : (s.onCat f).drv = s.drv := rfl
@[simp] theorem State.onCat_can : (s.onCat f).can = s.can := rfl
@[simp] theorem State.onCat_qre : (s.onCat f).qre = s.qre := rfl
@[simp] theorem State.onCat_mem : (s.onCat f).mem = s.mem := rfl
@[simp] theorem State.onCat_ep : (s.onCat f).ep = s.ep := rfl
@[simp] theorem State.onCat_pln : (s.onCat f).pln = s.pln := rfl
@[simp] theorem State.onCat_stw : (s.onCat f).stw = s.stw := rfl
end
section
variable (f : Power → Power) (s : State)
@[simp] theorem State.onPwr_now : (s.onPwr f).now = s.now := rfl
@[simp] theorem State.onPwr_free : (s.onPwr f).free = s.free := rfl
@[simp] theorem State.onPwr_out : (s.onPwr f).out = s.out := rfl
@[simp] theorem State.onPwr_pending : (s.onPwr f).pending = s.pending := rfl
@[simp] theorem State.onPwr_keep : (s.onPwr f).keep = s.keep := rfl
@[simp] theorem State.onPwr_cat : (s.onPwr f).cat = s.cat := rfl
@[simp] theorem State.onPwr_pwr : (s.onPwr f).pwr = f s.pwr := rfl
@[simp] theorem State.onPwr_otp : (s.onPwr f).otp = s.otp := rfl
@[simp] theorem State.onPwr_kt : (s.onPwr f).kt = s.kt := rfl
@[simp] theorem State.onPwr_boot : (s.onPwr f).boot = s.boot := rfl
@[simp] theorem State.onPwr_mbx : (s.onPwr f).mbx = s.mbx := rfl
@[simp] theorem State.onPwr_jr : (s.onPwr f).jr = s.jr := rfl
@[simp] theorem State.onPwr_stg : (s.onPwr f).stg = s.stg := rfl
@[simp] theorem State.onPwr_host : (s.onPwr f).host = s.host := rfl
@[simp] theorem State.onPwr_log : (s.onPwr f).log = s.log := rfl
@[simp] theorem State.onPwr_pmc : (s.onPwr f).pmc = s.pmc := rfl
@[simp] theorem State.onPwr_spn : (s.onPwr f).spn = s.spn := rfl
@[simp] theorem State.onPwr_pair : (s.onPwr f).pair = s.pair := rfl
@[simp] theorem State.onPwr_lv : (s.onPwr f).lv = s.lv := rfl
@[simp] theorem State.onPwr_ket : (s.onPwr f).ket = s.ket := rfl
@[simp] theorem State.onPwr_afe : (s.onPwr f).afe = s.afe := rfl
@[simp] theorem State.onPwr_drv : (s.onPwr f).drv = s.drv := rfl
@[simp] theorem State.onPwr_can : (s.onPwr f).can = s.can := rfl
@[simp] theorem State.onPwr_qre : (s.onPwr f).qre = s.qre := rfl
@[simp] theorem State.onPwr_mem : (s.onPwr f).mem = s.mem := rfl
@[simp] theorem State.onPwr_ep : (s.onPwr f).ep = s.ep := rfl
@[simp] theorem State.onPwr_pln : (s.onPwr f).pln = s.pln := rfl
@[simp] theorem State.onPwr_stw : (s.onPwr f).stw = s.stw := rfl
end
section
variable (f : Otp → Otp) (s : State)
@[simp] theorem State.onOtp_now : (s.onOtp f).now = s.now := rfl
@[simp] theorem State.onOtp_free : (s.onOtp f).free = s.free := rfl
@[simp] theorem State.onOtp_out : (s.onOtp f).out = s.out := rfl
@[simp] theorem State.onOtp_pending : (s.onOtp f).pending = s.pending := rfl
@[simp] theorem State.onOtp_keep : (s.onOtp f).keep = s.keep := rfl
@[simp] theorem State.onOtp_cat : (s.onOtp f).cat = s.cat := rfl
@[simp] theorem State.onOtp_pwr : (s.onOtp f).pwr = s.pwr := rfl
@[simp] theorem State.onOtp_otp : (s.onOtp f).otp = f s.otp := rfl
@[simp] theorem State.onOtp_kt : (s.onOtp f).kt = s.kt := rfl
@[simp] theorem State.onOtp_boot : (s.onOtp f).boot = s.boot := rfl
@[simp] theorem State.onOtp_mbx : (s.onOtp f).mbx = s.mbx := rfl
@[simp] theorem State.onOtp_jr : (s.onOtp f).jr = s.jr := rfl
@[simp] theorem State.onOtp_stg : (s.onOtp f).stg = s.stg := rfl
@[simp] theorem State.onOtp_host : (s.onOtp f).host = s.host := rfl
@[simp] theorem State.onOtp_log : (s.onOtp f).log = s.log := rfl
@[simp] theorem State.onOtp_pmc : (s.onOtp f).pmc = s.pmc := rfl
@[simp] theorem State.onOtp_spn : (s.onOtp f).spn = s.spn := rfl
@[simp] theorem State.onOtp_pair : (s.onOtp f).pair = s.pair := rfl
@[simp] theorem State.onOtp_lv : (s.onOtp f).lv = s.lv := rfl
@[simp] theorem State.onOtp_ket : (s.onOtp f).ket = s.ket := rfl
@[simp] theorem State.onOtp_afe : (s.onOtp f).afe = s.afe := rfl
@[simp] theorem State.onOtp_drv : (s.onOtp f).drv = s.drv := rfl
@[simp] theorem State.onOtp_can : (s.onOtp f).can = s.can := rfl
@[simp] theorem State.onOtp_qre : (s.onOtp f).qre = s.qre := rfl
@[simp] theorem State.onOtp_mem : (s.onOtp f).mem = s.mem := rfl
@[simp] theorem State.onOtp_ep : (s.onOtp f).ep = s.ep := rfl
@[simp] theorem State.onOtp_pln : (s.onOtp f).pln = s.pln := rfl
@[simp] theorem State.onOtp_stw : (s.onOtp f).stw = s.stw := rfl
end
section
variable (f : KeepTables → KeepTables) (s : State)
@[simp] theorem State.onKt_now : (s.onKt f).now = s.now := rfl
@[simp] theorem State.onKt_free : (s.onKt f).free = s.free := rfl
@[simp] theorem State.onKt_out : (s.onKt f).out = s.out := rfl
@[simp] theorem State.onKt_pending : (s.onKt f).pending = s.pending := rfl
@[simp] theorem State.onKt_keep : (s.onKt f).keep = s.keep := rfl
@[simp] theorem State.onKt_cat : (s.onKt f).cat = s.cat := rfl
@[simp] theorem State.onKt_pwr : (s.onKt f).pwr = s.pwr := rfl
@[simp] theorem State.onKt_otp : (s.onKt f).otp = s.otp := rfl
@[simp] theorem State.onKt_kt : (s.onKt f).kt = f s.kt := rfl
@[simp] theorem State.onKt_boot : (s.onKt f).boot = s.boot := rfl
@[simp] theorem State.onKt_mbx : (s.onKt f).mbx = s.mbx := rfl
@[simp] theorem State.onKt_jr : (s.onKt f).jr = s.jr := rfl
@[simp] theorem State.onKt_stg : (s.onKt f).stg = s.stg := rfl
@[simp] theorem State.onKt_host : (s.onKt f).host = s.host := rfl
@[simp] theorem State.onKt_log : (s.onKt f).log = s.log := rfl
@[simp] theorem State.onKt_pmc : (s.onKt f).pmc = s.pmc := rfl
@[simp] theorem State.onKt_spn : (s.onKt f).spn = s.spn := rfl
@[simp] theorem State.onKt_pair : (s.onKt f).pair = s.pair := rfl
@[simp] theorem State.onKt_lv : (s.onKt f).lv = s.lv := rfl
@[simp] theorem State.onKt_ket : (s.onKt f).ket = s.ket := rfl
@[simp] theorem State.onKt_afe : (s.onKt f).afe = s.afe := rfl
@[simp] theorem State.onKt_drv : (s.onKt f).drv = s.drv := rfl
@[simp] theorem State.onKt_can : (s.onKt f).can = s.can := rfl
@[simp] theorem State.onKt_qre : (s.onKt f).qre = s.qre := rfl
@[simp] theorem State.onKt_mem : (s.onKt f).mem = s.mem := rfl
@[simp] theorem State.onKt_ep : (s.onKt f).ep = s.ep := rfl
@[simp] theorem State.onKt_pln : (s.onKt f).pln = s.pln := rfl
@[simp] theorem State.onKt_stw : (s.onKt f).stw = s.stw := rfl
end
section
variable (f : Boot → Boot) (s : State)
@[simp] theorem State.onBoot_now : (s.onBoot f).now = s.now := rfl
@[simp] theorem State.onBoot_free : (s.onBoot f).free = s.free := rfl
@[simp] theorem State.onBoot_out : (s.onBoot f).out = s.out := rfl
@[simp] theorem State.onBoot_pending : (s.onBoot f).pending = s.pending := rfl
@[simp] theorem State.onBoot_keep : (s.onBoot f).keep = s.keep := rfl
@[simp] theorem State.onBoot_cat : (s.onBoot f).cat = s.cat := rfl
@[simp] theorem State.onBoot_pwr : (s.onBoot f).pwr = s.pwr := rfl
@[simp] theorem State.onBoot_otp : (s.onBoot f).otp = s.otp := rfl
@[simp] theorem State.onBoot_kt : (s.onBoot f).kt = s.kt := rfl
@[simp] theorem State.onBoot_boot : (s.onBoot f).boot = f s.boot := rfl
@[simp] theorem State.onBoot_mbx : (s.onBoot f).mbx = s.mbx := rfl
@[simp] theorem State.onBoot_jr : (s.onBoot f).jr = s.jr := rfl
@[simp] theorem State.onBoot_stg : (s.onBoot f).stg = s.stg := rfl
@[simp] theorem State.onBoot_host : (s.onBoot f).host = s.host := rfl
@[simp] theorem State.onBoot_log : (s.onBoot f).log = s.log := rfl
@[simp] theorem State.onBoot_pmc : (s.onBoot f).pmc = s.pmc := rfl
@[simp] theorem State.onBoot_spn : (s.onBoot f).spn = s.spn := rfl
@[simp] theorem State.onBoot_pair : (s.onBoot f).pair = s.pair := rfl
@[simp] theorem State.onBoot_lv : (s.onBoot f).lv = s.lv := rfl
@[simp] theorem State.onBoot_ket : (s.onBoot f).ket = s.ket := rfl
@[simp] theorem State.onBoot_afe : (s.onBoot f).afe = s.afe := rfl
@[simp] theorem State.onBoot_drv : (s.onBoot f).drv = s.drv := rfl
@[simp] theorem State.onBoot_can : (s.onBoot f).can = s.can := rfl
@[simp] theorem State.onBoot_qre : (s.onBoot f).qre = s.qre := rfl
@[simp] theorem State.onBoot_mem : (s.onBoot f).mem = s.mem := rfl
@[simp] theorem State.onBoot_ep : (s.onBoot f).ep = s.ep := rfl
@[simp] theorem State.onBoot_pln : (s.onBoot f).pln = s.pln := rfl
@[simp] theorem State.onBoot_stw : (s.onBoot f).stw = s.stw := rfl
end
section
variable (f : Tab Mailbox → Tab Mailbox) (s : State)
@[simp] theorem State.onMbx_now : (s.onMbx f).now = s.now := rfl
@[simp] theorem State.onMbx_free : (s.onMbx f).free = s.free := rfl
@[simp] theorem State.onMbx_out : (s.onMbx f).out = s.out := rfl
@[simp] theorem State.onMbx_pending : (s.onMbx f).pending = s.pending := rfl
@[simp] theorem State.onMbx_keep : (s.onMbx f).keep = s.keep := rfl
@[simp] theorem State.onMbx_cat : (s.onMbx f).cat = s.cat := rfl
@[simp] theorem State.onMbx_pwr : (s.onMbx f).pwr = s.pwr := rfl
@[simp] theorem State.onMbx_otp : (s.onMbx f).otp = s.otp := rfl
@[simp] theorem State.onMbx_kt : (s.onMbx f).kt = s.kt := rfl
@[simp] theorem State.onMbx_boot : (s.onMbx f).boot = s.boot := rfl
@[simp] theorem State.onMbx_mbx : (s.onMbx f).mbx = f s.mbx := rfl
@[simp] theorem State.onMbx_jr : (s.onMbx f).jr = s.jr := rfl
@[simp] theorem State.onMbx_stg : (s.onMbx f).stg = s.stg := rfl
@[simp] theorem State.onMbx_host : (s.onMbx f).host = s.host := rfl
@[simp] theorem State.onMbx_log : (s.onMbx f).log = s.log := rfl
@[simp] theorem State.onMbx_pmc : (s.onMbx f).pmc = s.pmc := rfl
@[simp] theorem State.onMbx_spn : (s.onMbx f).spn = s.spn := rfl
@[simp] theorem State.onMbx_pair : (s.onMbx f).pair = s.pair := rfl
@[simp] theorem State.onMbx_lv : (s.onMbx f).lv = s.lv := rfl
@[simp] theorem State.onMbx_ket : (s.onMbx f).ket = s.ket := rfl
@[simp] theorem State.onMbx_afe : (s.onMbx f).afe = s.afe := rfl
@[simp] theorem State.onMbx_drv : (s.onMbx f).drv = s.drv := rfl
@[simp] theorem State.onMbx_can : (s.onMbx f).can = s.can := rfl
@[simp] theorem State.onMbx_qre : (s.onMbx f).qre = s.qre := rfl
@[simp] theorem State.onMbx_mem : (s.onMbx f).mem = s.mem := rfl
@[simp] theorem State.onMbx_ep : (s.onMbx f).ep = s.ep := rfl
@[simp] theorem State.onMbx_pln : (s.onMbx f).pln = s.pln := rfl
@[simp] theorem State.onMbx_stw : (s.onMbx f).stw = s.stw := rfl
end
section
variable (f : Journal → Journal) (s : State)
@[simp] theorem State.onJr_now : (s.onJr f).now = s.now := rfl
@[simp] theorem State.onJr_free : (s.onJr f).free = s.free := rfl
@[simp] theorem State.onJr_out : (s.onJr f).out = s.out := rfl
@[simp] theorem State.onJr_pending : (s.onJr f).pending = s.pending := rfl
@[simp] theorem State.onJr_keep : (s.onJr f).keep = s.keep := rfl
@[simp] theorem State.onJr_cat : (s.onJr f).cat = s.cat := rfl
@[simp] theorem State.onJr_pwr : (s.onJr f).pwr = s.pwr := rfl
@[simp] theorem State.onJr_otp : (s.onJr f).otp = s.otp := rfl
@[simp] theorem State.onJr_kt : (s.onJr f).kt = s.kt := rfl
@[simp] theorem State.onJr_boot : (s.onJr f).boot = s.boot := rfl
@[simp] theorem State.onJr_mbx : (s.onJr f).mbx = s.mbx := rfl
@[simp] theorem State.onJr_jr : (s.onJr f).jr = f s.jr := rfl
@[simp] theorem State.onJr_stg : (s.onJr f).stg = s.stg := rfl
@[simp] theorem State.onJr_host : (s.onJr f).host = s.host := rfl
@[simp] theorem State.onJr_log : (s.onJr f).log = s.log := rfl
@[simp] theorem State.onJr_pmc : (s.onJr f).pmc = s.pmc := rfl
@[simp] theorem State.onJr_spn : (s.onJr f).spn = s.spn := rfl
@[simp] theorem State.onJr_pair : (s.onJr f).pair = s.pair := rfl
@[simp] theorem State.onJr_lv : (s.onJr f).lv = s.lv := rfl
@[simp] theorem State.onJr_ket : (s.onJr f).ket = s.ket := rfl
@[simp] theorem State.onJr_afe : (s.onJr f).afe = s.afe := rfl
@[simp] theorem State.onJr_drv : (s.onJr f).drv = s.drv := rfl
@[simp] theorem State.onJr_can : (s.onJr f).can = s.can := rfl
@[simp] theorem State.onJr_qre : (s.onJr f).qre = s.qre := rfl
@[simp] theorem State.onJr_mem : (s.onJr f).mem = s.mem := rfl
@[simp] theorem State.onJr_ep : (s.onJr f).ep = s.ep := rfl
@[simp] theorem State.onJr_pln : (s.onJr f).pln = s.pln := rfl
@[simp] theorem State.onJr_stw : (s.onJr f).stw = s.stw := rfl
end
section
variable (f : Staging → Staging) (s : State)
@[simp] theorem State.onStg_now : (s.onStg f).now = s.now := rfl
@[simp] theorem State.onStg_free : (s.onStg f).free = s.free := rfl
@[simp] theorem State.onStg_out : (s.onStg f).out = s.out := rfl
@[simp] theorem State.onStg_pending : (s.onStg f).pending = s.pending := rfl
@[simp] theorem State.onStg_keep : (s.onStg f).keep = s.keep := rfl
@[simp] theorem State.onStg_cat : (s.onStg f).cat = s.cat := rfl
@[simp] theorem State.onStg_pwr : (s.onStg f).pwr = s.pwr := rfl
@[simp] theorem State.onStg_otp : (s.onStg f).otp = s.otp := rfl
@[simp] theorem State.onStg_kt : (s.onStg f).kt = s.kt := rfl
@[simp] theorem State.onStg_boot : (s.onStg f).boot = s.boot := rfl
@[simp] theorem State.onStg_mbx : (s.onStg f).mbx = s.mbx := rfl
@[simp] theorem State.onStg_jr : (s.onStg f).jr = s.jr := rfl
@[simp] theorem State.onStg_stg : (s.onStg f).stg = f s.stg := rfl
@[simp] theorem State.onStg_host : (s.onStg f).host = s.host := rfl
@[simp] theorem State.onStg_log : (s.onStg f).log = s.log := rfl
@[simp] theorem State.onStg_pmc : (s.onStg f).pmc = s.pmc := rfl
@[simp] theorem State.onStg_spn : (s.onStg f).spn = s.spn := rfl
@[simp] theorem State.onStg_pair : (s.onStg f).pair = s.pair := rfl
@[simp] theorem State.onStg_lv : (s.onStg f).lv = s.lv := rfl
@[simp] theorem State.onStg_ket : (s.onStg f).ket = s.ket := rfl
@[simp] theorem State.onStg_afe : (s.onStg f).afe = s.afe := rfl
@[simp] theorem State.onStg_drv : (s.onStg f).drv = s.drv := rfl
@[simp] theorem State.onStg_can : (s.onStg f).can = s.can := rfl
@[simp] theorem State.onStg_qre : (s.onStg f).qre = s.qre := rfl
@[simp] theorem State.onStg_mem : (s.onStg f).mem = s.mem := rfl
@[simp] theorem State.onStg_ep : (s.onStg f).ep = s.ep := rfl
@[simp] theorem State.onStg_pln : (s.onStg f).pln = s.pln := rfl
@[simp] theorem State.onStg_stw : (s.onStg f).stw = s.stw := rfl
end
section
variable (f : HostLink → HostLink) (s : State)
@[simp] theorem State.onHost_now : (s.onHost f).now = s.now := rfl
@[simp] theorem State.onHost_free : (s.onHost f).free = s.free := rfl
@[simp] theorem State.onHost_out : (s.onHost f).out = s.out := rfl
@[simp] theorem State.onHost_pending : (s.onHost f).pending = s.pending := rfl
@[simp] theorem State.onHost_keep : (s.onHost f).keep = s.keep := rfl
@[simp] theorem State.onHost_cat : (s.onHost f).cat = s.cat := rfl
@[simp] theorem State.onHost_pwr : (s.onHost f).pwr = s.pwr := rfl
@[simp] theorem State.onHost_otp : (s.onHost f).otp = s.otp := rfl
@[simp] theorem State.onHost_kt : (s.onHost f).kt = s.kt := rfl
@[simp] theorem State.onHost_boot : (s.onHost f).boot = s.boot := rfl
@[simp] theorem State.onHost_mbx : (s.onHost f).mbx = s.mbx := rfl
@[simp] theorem State.onHost_jr : (s.onHost f).jr = s.jr := rfl
@[simp] theorem State.onHost_stg : (s.onHost f).stg = s.stg := rfl
@[simp] theorem State.onHost_host : (s.onHost f).host = f s.host := rfl
@[simp] theorem State.onHost_log : (s.onHost f).log = s.log := rfl
@[simp] theorem State.onHost_pmc : (s.onHost f).pmc = s.pmc := rfl
@[simp] theorem State.onHost_spn : (s.onHost f).spn = s.spn := rfl
@[simp] theorem State.onHost_pair : (s.onHost f).pair = s.pair := rfl
@[simp] theorem State.onHost_lv : (s.onHost f).lv = s.lv := rfl
@[simp] theorem State.onHost_ket : (s.onHost f).ket = s.ket := rfl
@[simp] theorem State.onHost_afe : (s.onHost f).afe = s.afe := rfl
@[simp] theorem State.onHost_drv : (s.onHost f).drv = s.drv := rfl
@[simp] theorem State.onHost_can : (s.onHost f).can = s.can := rfl
@[simp] theorem State.onHost_qre : (s.onHost f).qre = s.qre := rfl
@[simp] theorem State.onHost_mem : (s.onHost f).mem = s.mem := rfl
@[simp] theorem State.onHost_ep : (s.onHost f).ep = s.ep := rfl
@[simp] theorem State.onHost_pln : (s.onHost f).pln = s.pln := rfl
@[simp] theorem State.onHost_stw : (s.onHost f).stw = s.stw := rfl
end
section
variable (f : Logbook → Logbook) (s : State)
@[simp] theorem State.onLog_now : (s.onLog f).now = s.now := rfl
@[simp] theorem State.onLog_free : (s.onLog f).free = s.free := rfl
@[simp] theorem State.onLog_out : (s.onLog f).out = s.out := rfl
@[simp] theorem State.onLog_pending : (s.onLog f).pending = s.pending := rfl
@[simp] theorem State.onLog_keep : (s.onLog f).keep = s.keep := rfl
@[simp] theorem State.onLog_cat : (s.onLog f).cat = s.cat := rfl
@[simp] theorem State.onLog_pwr : (s.onLog f).pwr = s.pwr := rfl
@[simp] theorem State.onLog_otp : (s.onLog f).otp = s.otp := rfl
@[simp] theorem State.onLog_kt : (s.onLog f).kt = s.kt := rfl
@[simp] theorem State.onLog_boot : (s.onLog f).boot = s.boot := rfl
@[simp] theorem State.onLog_mbx : (s.onLog f).mbx = s.mbx := rfl
@[simp] theorem State.onLog_jr : (s.onLog f).jr = s.jr := rfl
@[simp] theorem State.onLog_stg : (s.onLog f).stg = s.stg := rfl
@[simp] theorem State.onLog_host : (s.onLog f).host = s.host := rfl
@[simp] theorem State.onLog_log : (s.onLog f).log = f s.log := rfl
@[simp] theorem State.onLog_pmc : (s.onLog f).pmc = s.pmc := rfl
@[simp] theorem State.onLog_spn : (s.onLog f).spn = s.spn := rfl
@[simp] theorem State.onLog_pair : (s.onLog f).pair = s.pair := rfl
@[simp] theorem State.onLog_lv : (s.onLog f).lv = s.lv := rfl
@[simp] theorem State.onLog_ket : (s.onLog f).ket = s.ket := rfl
@[simp] theorem State.onLog_afe : (s.onLog f).afe = s.afe := rfl
@[simp] theorem State.onLog_drv : (s.onLog f).drv = s.drv := rfl
@[simp] theorem State.onLog_can : (s.onLog f).can = s.can := rfl
@[simp] theorem State.onLog_qre : (s.onLog f).qre = s.qre := rfl
@[simp] theorem State.onLog_mem : (s.onLog f).mem = s.mem := rfl
@[simp] theorem State.onLog_ep : (s.onLog f).ep = s.ep := rfl
@[simp] theorem State.onLog_pln : (s.onLog f).pln = s.pln := rfl
@[simp] theorem State.onLog_stw : (s.onLog f).stw = s.stw := rfl
end
section
variable (f : Counters → Counters) (s : State)
@[simp] theorem State.onPmc_now : (s.onPmc f).now = s.now := rfl
@[simp] theorem State.onPmc_free : (s.onPmc f).free = s.free := rfl
@[simp] theorem State.onPmc_out : (s.onPmc f).out = s.out := rfl
@[simp] theorem State.onPmc_pending : (s.onPmc f).pending = s.pending := rfl
@[simp] theorem State.onPmc_keep : (s.onPmc f).keep = s.keep := rfl
@[simp] theorem State.onPmc_cat : (s.onPmc f).cat = s.cat := rfl
@[simp] theorem State.onPmc_pwr : (s.onPmc f).pwr = s.pwr := rfl
@[simp] theorem State.onPmc_otp : (s.onPmc f).otp = s.otp := rfl
@[simp] theorem State.onPmc_kt : (s.onPmc f).kt = s.kt := rfl
@[simp] theorem State.onPmc_boot : (s.onPmc f).boot = s.boot := rfl
@[simp] theorem State.onPmc_mbx : (s.onPmc f).mbx = s.mbx := rfl
@[simp] theorem State.onPmc_jr : (s.onPmc f).jr = s.jr := rfl
@[simp] theorem State.onPmc_stg : (s.onPmc f).stg = s.stg := rfl
@[simp] theorem State.onPmc_host : (s.onPmc f).host = s.host := rfl
@[simp] theorem State.onPmc_log : (s.onPmc f).log = s.log := rfl
@[simp] theorem State.onPmc_pmc : (s.onPmc f).pmc = f s.pmc := rfl
@[simp] theorem State.onPmc_spn : (s.onPmc f).spn = s.spn := rfl
@[simp] theorem State.onPmc_pair : (s.onPmc f).pair = s.pair := rfl
@[simp] theorem State.onPmc_lv : (s.onPmc f).lv = s.lv := rfl
@[simp] theorem State.onPmc_ket : (s.onPmc f).ket = s.ket := rfl
@[simp] theorem State.onPmc_afe : (s.onPmc f).afe = s.afe := rfl
@[simp] theorem State.onPmc_drv : (s.onPmc f).drv = s.drv := rfl
@[simp] theorem State.onPmc_can : (s.onPmc f).can = s.can := rfl
@[simp] theorem State.onPmc_qre : (s.onPmc f).qre = s.qre := rfl
@[simp] theorem State.onPmc_mem : (s.onPmc f).mem = s.mem := rfl
@[simp] theorem State.onPmc_ep : (s.onPmc f).ep = s.ep := rfl
@[simp] theorem State.onPmc_pln : (s.onPmc f).pln = s.pln := rfl
@[simp] theorem State.onPmc_stw : (s.onPmc f).stw = s.stw := rfl
end
section
variable (f : Spine → Spine) (s : State)
@[simp] theorem State.onSpn_now : (s.onSpn f).now = s.now := rfl
@[simp] theorem State.onSpn_free : (s.onSpn f).free = s.free := rfl
@[simp] theorem State.onSpn_out : (s.onSpn f).out = s.out := rfl
@[simp] theorem State.onSpn_pending : (s.onSpn f).pending = s.pending := rfl
@[simp] theorem State.onSpn_keep : (s.onSpn f).keep = s.keep := rfl
@[simp] theorem State.onSpn_cat : (s.onSpn f).cat = s.cat := rfl
@[simp] theorem State.onSpn_pwr : (s.onSpn f).pwr = s.pwr := rfl
@[simp] theorem State.onSpn_otp : (s.onSpn f).otp = s.otp := rfl
@[simp] theorem State.onSpn_kt : (s.onSpn f).kt = s.kt := rfl
@[simp] theorem State.onSpn_boot : (s.onSpn f).boot = s.boot := rfl
@[simp] theorem State.onSpn_mbx : (s.onSpn f).mbx = s.mbx := rfl
@[simp] theorem State.onSpn_jr : (s.onSpn f).jr = s.jr := rfl
@[simp] theorem State.onSpn_stg : (s.onSpn f).stg = s.stg := rfl
@[simp] theorem State.onSpn_host : (s.onSpn f).host = s.host := rfl
@[simp] theorem State.onSpn_log : (s.onSpn f).log = s.log := rfl
@[simp] theorem State.onSpn_pmc : (s.onSpn f).pmc = s.pmc := rfl
@[simp] theorem State.onSpn_spn : (s.onSpn f).spn = f s.spn := rfl
@[simp] theorem State.onSpn_pair : (s.onSpn f).pair = s.pair := rfl
@[simp] theorem State.onSpn_lv : (s.onSpn f).lv = s.lv := rfl
@[simp] theorem State.onSpn_ket : (s.onSpn f).ket = s.ket := rfl
@[simp] theorem State.onSpn_afe : (s.onSpn f).afe = s.afe := rfl
@[simp] theorem State.onSpn_drv : (s.onSpn f).drv = s.drv := rfl
@[simp] theorem State.onSpn_can : (s.onSpn f).can = s.can := rfl
@[simp] theorem State.onSpn_qre : (s.onSpn f).qre = s.qre := rfl
@[simp] theorem State.onSpn_mem : (s.onSpn f).mem = s.mem := rfl
@[simp] theorem State.onSpn_ep : (s.onSpn f).ep = s.ep := rfl
@[simp] theorem State.onSpn_pln : (s.onSpn f).pln = s.pln := rfl
@[simp] theorem State.onSpn_stw : (s.onSpn f).stw = s.stw := rfl
end
section
variable (f : Pair → Pair) (s : State)
@[simp] theorem State.onPair_now : (s.onPair f).now = s.now := rfl
@[simp] theorem State.onPair_free : (s.onPair f).free = s.free := rfl
@[simp] theorem State.onPair_out : (s.onPair f).out = s.out := rfl
@[simp] theorem State.onPair_pending : (s.onPair f).pending = s.pending := rfl
@[simp] theorem State.onPair_keep : (s.onPair f).keep = s.keep := rfl
@[simp] theorem State.onPair_cat : (s.onPair f).cat = s.cat := rfl
@[simp] theorem State.onPair_pwr : (s.onPair f).pwr = s.pwr := rfl
@[simp] theorem State.onPair_otp : (s.onPair f).otp = s.otp := rfl
@[simp] theorem State.onPair_kt : (s.onPair f).kt = s.kt := rfl
@[simp] theorem State.onPair_boot : (s.onPair f).boot = s.boot := rfl
@[simp] theorem State.onPair_mbx : (s.onPair f).mbx = s.mbx := rfl
@[simp] theorem State.onPair_jr : (s.onPair f).jr = s.jr := rfl
@[simp] theorem State.onPair_stg : (s.onPair f).stg = s.stg := rfl
@[simp] theorem State.onPair_host : (s.onPair f).host = s.host := rfl
@[simp] theorem State.onPair_log : (s.onPair f).log = s.log := rfl
@[simp] theorem State.onPair_pmc : (s.onPair f).pmc = s.pmc := rfl
@[simp] theorem State.onPair_spn : (s.onPair f).spn = s.spn := rfl
@[simp] theorem State.onPair_pair : (s.onPair f).pair = f s.pair := rfl
@[simp] theorem State.onPair_lv : (s.onPair f).lv = s.lv := rfl
@[simp] theorem State.onPair_ket : (s.onPair f).ket = s.ket := rfl
@[simp] theorem State.onPair_afe : (s.onPair f).afe = s.afe := rfl
@[simp] theorem State.onPair_drv : (s.onPair f).drv = s.drv := rfl
@[simp] theorem State.onPair_can : (s.onPair f).can = s.can := rfl
@[simp] theorem State.onPair_qre : (s.onPair f).qre = s.qre := rfl
@[simp] theorem State.onPair_mem : (s.onPair f).mem = s.mem := rfl
@[simp] theorem State.onPair_ep : (s.onPair f).ep = s.ep := rfl
@[simp] theorem State.onPair_pln : (s.onPair f).pln = s.pln := rfl
@[simp] theorem State.onPair_stw : (s.onPair f).stw = s.stw := rfl
end
section
variable (f : Leave → Leave) (s : State)
@[simp] theorem State.onLv_now : (s.onLv f).now = s.now := rfl
@[simp] theorem State.onLv_free : (s.onLv f).free = s.free := rfl
@[simp] theorem State.onLv_out : (s.onLv f).out = s.out := rfl
@[simp] theorem State.onLv_pending : (s.onLv f).pending = s.pending := rfl
@[simp] theorem State.onLv_keep : (s.onLv f).keep = s.keep := rfl
@[simp] theorem State.onLv_cat : (s.onLv f).cat = s.cat := rfl
@[simp] theorem State.onLv_pwr : (s.onLv f).pwr = s.pwr := rfl
@[simp] theorem State.onLv_otp : (s.onLv f).otp = s.otp := rfl
@[simp] theorem State.onLv_kt : (s.onLv f).kt = s.kt := rfl
@[simp] theorem State.onLv_boot : (s.onLv f).boot = s.boot := rfl
@[simp] theorem State.onLv_mbx : (s.onLv f).mbx = s.mbx := rfl
@[simp] theorem State.onLv_jr : (s.onLv f).jr = s.jr := rfl
@[simp] theorem State.onLv_stg : (s.onLv f).stg = s.stg := rfl
@[simp] theorem State.onLv_host : (s.onLv f).host = s.host := rfl
@[simp] theorem State.onLv_log : (s.onLv f).log = s.log := rfl
@[simp] theorem State.onLv_pmc : (s.onLv f).pmc = s.pmc := rfl
@[simp] theorem State.onLv_spn : (s.onLv f).spn = s.spn := rfl
@[simp] theorem State.onLv_pair : (s.onLv f).pair = s.pair := rfl
@[simp] theorem State.onLv_lv : (s.onLv f).lv = f s.lv := rfl
@[simp] theorem State.onLv_ket : (s.onLv f).ket = s.ket := rfl
@[simp] theorem State.onLv_afe : (s.onLv f).afe = s.afe := rfl
@[simp] theorem State.onLv_drv : (s.onLv f).drv = s.drv := rfl
@[simp] theorem State.onLv_can : (s.onLv f).can = s.can := rfl
@[simp] theorem State.onLv_qre : (s.onLv f).qre = s.qre := rfl
@[simp] theorem State.onLv_mem : (s.onLv f).mem = s.mem := rfl
@[simp] theorem State.onLv_ep : (s.onLv f).ep = s.ep := rfl
@[simp] theorem State.onLv_pln : (s.onLv f).pln = s.pln := rfl
@[simp] theorem State.onLv_stw : (s.onLv f).stw = s.stw := rfl
end
section
variable (f : Kettle → Kettle) (s : State)
@[simp] theorem State.onKet_now : (s.onKet f).now = s.now := rfl
@[simp] theorem State.onKet_free : (s.onKet f).free = s.free := rfl
@[simp] theorem State.onKet_out : (s.onKet f).out = s.out := rfl
@[simp] theorem State.onKet_pending : (s.onKet f).pending = s.pending := rfl
@[simp] theorem State.onKet_keep : (s.onKet f).keep = s.keep := rfl
@[simp] theorem State.onKet_cat : (s.onKet f).cat = s.cat := rfl
@[simp] theorem State.onKet_pwr : (s.onKet f).pwr = s.pwr := rfl
@[simp] theorem State.onKet_otp : (s.onKet f).otp = s.otp := rfl
@[simp] theorem State.onKet_kt : (s.onKet f).kt = s.kt := rfl
@[simp] theorem State.onKet_boot : (s.onKet f).boot = s.boot := rfl
@[simp] theorem State.onKet_mbx : (s.onKet f).mbx = s.mbx := rfl
@[simp] theorem State.onKet_jr : (s.onKet f).jr = s.jr := rfl
@[simp] theorem State.onKet_stg : (s.onKet f).stg = s.stg := rfl
@[simp] theorem State.onKet_host : (s.onKet f).host = s.host := rfl
@[simp] theorem State.onKet_log : (s.onKet f).log = s.log := rfl
@[simp] theorem State.onKet_pmc : (s.onKet f).pmc = s.pmc := rfl
@[simp] theorem State.onKet_spn : (s.onKet f).spn = s.spn := rfl
@[simp] theorem State.onKet_pair : (s.onKet f).pair = s.pair := rfl
@[simp] theorem State.onKet_lv : (s.onKet f).lv = s.lv := rfl
@[simp] theorem State.onKet_ket : (s.onKet f).ket = f s.ket := rfl
@[simp] theorem State.onKet_afe : (s.onKet f).afe = s.afe := rfl
@[simp] theorem State.onKet_drv : (s.onKet f).drv = s.drv := rfl
@[simp] theorem State.onKet_can : (s.onKet f).can = s.can := rfl
@[simp] theorem State.onKet_qre : (s.onKet f).qre = s.qre := rfl
@[simp] theorem State.onKet_mem : (s.onKet f).mem = s.mem := rfl
@[simp] theorem State.onKet_ep : (s.onKet f).ep = s.ep := rfl
@[simp] theorem State.onKet_pln : (s.onKet f).pln = s.pln := rfl
@[simp] theorem State.onKet_stw : (s.onKet f).stw = s.stw := rfl
end
section
variable (f : Afe → Afe) (s : State)
@[simp] theorem State.onAfe_now : (s.onAfe f).now = s.now := rfl
@[simp] theorem State.onAfe_free : (s.onAfe f).free = s.free := rfl
@[simp] theorem State.onAfe_out : (s.onAfe f).out = s.out := rfl
@[simp] theorem State.onAfe_pending : (s.onAfe f).pending = s.pending := rfl
@[simp] theorem State.onAfe_keep : (s.onAfe f).keep = s.keep := rfl
@[simp] theorem State.onAfe_cat : (s.onAfe f).cat = s.cat := rfl
@[simp] theorem State.onAfe_pwr : (s.onAfe f).pwr = s.pwr := rfl
@[simp] theorem State.onAfe_otp : (s.onAfe f).otp = s.otp := rfl
@[simp] theorem State.onAfe_kt : (s.onAfe f).kt = s.kt := rfl
@[simp] theorem State.onAfe_boot : (s.onAfe f).boot = s.boot := rfl
@[simp] theorem State.onAfe_mbx : (s.onAfe f).mbx = s.mbx := rfl
@[simp] theorem State.onAfe_jr : (s.onAfe f).jr = s.jr := rfl
@[simp] theorem State.onAfe_stg : (s.onAfe f).stg = s.stg := rfl
@[simp] theorem State.onAfe_host : (s.onAfe f).host = s.host := rfl
@[simp] theorem State.onAfe_log : (s.onAfe f).log = s.log := rfl
@[simp] theorem State.onAfe_pmc : (s.onAfe f).pmc = s.pmc := rfl
@[simp] theorem State.onAfe_spn : (s.onAfe f).spn = s.spn := rfl
@[simp] theorem State.onAfe_pair : (s.onAfe f).pair = s.pair := rfl
@[simp] theorem State.onAfe_lv : (s.onAfe f).lv = s.lv := rfl
@[simp] theorem State.onAfe_ket : (s.onAfe f).ket = s.ket := rfl
@[simp] theorem State.onAfe_afe : (s.onAfe f).afe = f s.afe := rfl
@[simp] theorem State.onAfe_drv : (s.onAfe f).drv = s.drv := rfl
@[simp] theorem State.onAfe_can : (s.onAfe f).can = s.can := rfl
@[simp] theorem State.onAfe_qre : (s.onAfe f).qre = s.qre := rfl
@[simp] theorem State.onAfe_mem : (s.onAfe f).mem = s.mem := rfl
@[simp] theorem State.onAfe_ep : (s.onAfe f).ep = s.ep := rfl
@[simp] theorem State.onAfe_pln : (s.onAfe f).pln = s.pln := rfl
@[simp] theorem State.onAfe_stw : (s.onAfe f).stw = s.stw := rfl
end
section
variable (f : Drive → Drive) (s : State)
@[simp] theorem State.onDrv_now : (s.onDrv f).now = s.now := rfl
@[simp] theorem State.onDrv_free : (s.onDrv f).free = s.free := rfl
@[simp] theorem State.onDrv_out : (s.onDrv f).out = s.out := rfl
@[simp] theorem State.onDrv_pending : (s.onDrv f).pending = s.pending := rfl
@[simp] theorem State.onDrv_keep : (s.onDrv f).keep = s.keep := rfl
@[simp] theorem State.onDrv_cat : (s.onDrv f).cat = s.cat := rfl
@[simp] theorem State.onDrv_pwr : (s.onDrv f).pwr = s.pwr := rfl
@[simp] theorem State.onDrv_otp : (s.onDrv f).otp = s.otp := rfl
@[simp] theorem State.onDrv_kt : (s.onDrv f).kt = s.kt := rfl
@[simp] theorem State.onDrv_boot : (s.onDrv f).boot = s.boot := rfl
@[simp] theorem State.onDrv_mbx : (s.onDrv f).mbx = s.mbx := rfl
@[simp] theorem State.onDrv_jr : (s.onDrv f).jr = s.jr := rfl
@[simp] theorem State.onDrv_stg : (s.onDrv f).stg = s.stg := rfl
@[simp] theorem State.onDrv_host : (s.onDrv f).host = s.host := rfl
@[simp] theorem State.onDrv_log : (s.onDrv f).log = s.log := rfl
@[simp] theorem State.onDrv_pmc : (s.onDrv f).pmc = s.pmc := rfl
@[simp] theorem State.onDrv_spn : (s.onDrv f).spn = s.spn := rfl
@[simp] theorem State.onDrv_pair : (s.onDrv f).pair = s.pair := rfl
@[simp] theorem State.onDrv_lv : (s.onDrv f).lv = s.lv := rfl
@[simp] theorem State.onDrv_ket : (s.onDrv f).ket = s.ket := rfl
@[simp] theorem State.onDrv_afe : (s.onDrv f).afe = s.afe := rfl
@[simp] theorem State.onDrv_drv : (s.onDrv f).drv = f s.drv := rfl
@[simp] theorem State.onDrv_can : (s.onDrv f).can = s.can := rfl
@[simp] theorem State.onDrv_qre : (s.onDrv f).qre = s.qre := rfl
@[simp] theorem State.onDrv_mem : (s.onDrv f).mem = s.mem := rfl
@[simp] theorem State.onDrv_ep : (s.onDrv f).ep = s.ep := rfl
@[simp] theorem State.onDrv_pln : (s.onDrv f).pln = s.pln := rfl
@[simp] theorem State.onDrv_stw : (s.onDrv f).stw = s.stw := rfl
end
section
variable (f : Can → Can) (s : State)
@[simp] theorem State.onCan_now : (s.onCan f).now = s.now := rfl
@[simp] theorem State.onCan_free : (s.onCan f).free = s.free := rfl
@[simp] theorem State.onCan_out : (s.onCan f).out = s.out := rfl
@[simp] theorem State.onCan_pending : (s.onCan f).pending = s.pending := rfl
@[simp] theorem State.onCan_keep : (s.onCan f).keep = s.keep := rfl
@[simp] theorem State.onCan_cat : (s.onCan f).cat = s.cat := rfl
@[simp] theorem State.onCan_pwr : (s.onCan f).pwr = s.pwr := rfl
@[simp] theorem State.onCan_otp : (s.onCan f).otp = s.otp := rfl
@[simp] theorem State.onCan_kt : (s.onCan f).kt = s.kt := rfl
@[simp] theorem State.onCan_boot : (s.onCan f).boot = s.boot := rfl
@[simp] theorem State.onCan_mbx : (s.onCan f).mbx = s.mbx := rfl
@[simp] theorem State.onCan_jr : (s.onCan f).jr = s.jr := rfl
@[simp] theorem State.onCan_stg : (s.onCan f).stg = s.stg := rfl
@[simp] theorem State.onCan_host : (s.onCan f).host = s.host := rfl
@[simp] theorem State.onCan_log : (s.onCan f).log = s.log := rfl
@[simp] theorem State.onCan_pmc : (s.onCan f).pmc = s.pmc := rfl
@[simp] theorem State.onCan_spn : (s.onCan f).spn = s.spn := rfl
@[simp] theorem State.onCan_pair : (s.onCan f).pair = s.pair := rfl
@[simp] theorem State.onCan_lv : (s.onCan f).lv = s.lv := rfl
@[simp] theorem State.onCan_ket : (s.onCan f).ket = s.ket := rfl
@[simp] theorem State.onCan_afe : (s.onCan f).afe = s.afe := rfl
@[simp] theorem State.onCan_drv : (s.onCan f).drv = s.drv := rfl
@[simp] theorem State.onCan_can : (s.onCan f).can = f s.can := rfl
@[simp] theorem State.onCan_qre : (s.onCan f).qre = s.qre := rfl
@[simp] theorem State.onCan_mem : (s.onCan f).mem = s.mem := rfl
@[simp] theorem State.onCan_ep : (s.onCan f).ep = s.ep := rfl
@[simp] theorem State.onCan_pln : (s.onCan f).pln = s.pln := rfl
@[simp] theorem State.onCan_stw : (s.onCan f).stw = s.stw := rfl
end
section
variable (f : Quires → Quires) (s : State)
@[simp] theorem State.onQre_now : (s.onQre f).now = s.now := rfl
@[simp] theorem State.onQre_free : (s.onQre f).free = s.free := rfl
@[simp] theorem State.onQre_out : (s.onQre f).out = s.out := rfl
@[simp] theorem State.onQre_pending : (s.onQre f).pending = s.pending := rfl
@[simp] theorem State.onQre_keep : (s.onQre f).keep = s.keep := rfl
@[simp] theorem State.onQre_cat : (s.onQre f).cat = s.cat := rfl
@[simp] theorem State.onQre_pwr : (s.onQre f).pwr = s.pwr := rfl
@[simp] theorem State.onQre_otp : (s.onQre f).otp = s.otp := rfl
@[simp] theorem State.onQre_kt : (s.onQre f).kt = s.kt := rfl
@[simp] theorem State.onQre_boot : (s.onQre f).boot = s.boot := rfl
@[simp] theorem State.onQre_mbx : (s.onQre f).mbx = s.mbx := rfl
@[simp] theorem State.onQre_jr : (s.onQre f).jr = s.jr := rfl
@[simp] theorem State.onQre_stg : (s.onQre f).stg = s.stg := rfl
@[simp] theorem State.onQre_host : (s.onQre f).host = s.host := rfl
@[simp] theorem State.onQre_log : (s.onQre f).log = s.log := rfl
@[simp] theorem State.onQre_pmc : (s.onQre f).pmc = s.pmc := rfl
@[simp] theorem State.onQre_spn : (s.onQre f).spn = s.spn := rfl
@[simp] theorem State.onQre_pair : (s.onQre f).pair = s.pair := rfl
@[simp] theorem State.onQre_lv : (s.onQre f).lv = s.lv := rfl
@[simp] theorem State.onQre_ket : (s.onQre f).ket = s.ket := rfl
@[simp] theorem State.onQre_afe : (s.onQre f).afe = s.afe := rfl
@[simp] theorem State.onQre_drv : (s.onQre f).drv = s.drv := rfl
@[simp] theorem State.onQre_can : (s.onQre f).can = s.can := rfl
@[simp] theorem State.onQre_qre : (s.onQre f).qre = f s.qre := rfl
@[simp] theorem State.onQre_mem : (s.onQre f).mem = s.mem := rfl
@[simp] theorem State.onQre_ep : (s.onQre f).ep = s.ep := rfl
@[simp] theorem State.onQre_pln : (s.onQre f).pln = s.pln := rfl
@[simp] theorem State.onQre_stw : (s.onQre f).stw = s.stw := rfl
end
section
variable (f : Mem → Mem) (s : State)
@[simp] theorem State.onMem_now : (s.onMem f).now = s.now := rfl
@[simp] theorem State.onMem_free : (s.onMem f).free = s.free := rfl
@[simp] theorem State.onMem_out : (s.onMem f).out = s.out := rfl
@[simp] theorem State.onMem_pending : (s.onMem f).pending = s.pending := rfl
@[simp] theorem State.onMem_keep : (s.onMem f).keep = s.keep := rfl
@[simp] theorem State.onMem_cat : (s.onMem f).cat = s.cat := rfl
@[simp] theorem State.onMem_pwr : (s.onMem f).pwr = s.pwr := rfl
@[simp] theorem State.onMem_otp : (s.onMem f).otp = s.otp := rfl
@[simp] theorem State.onMem_kt : (s.onMem f).kt = s.kt := rfl
@[simp] theorem State.onMem_boot : (s.onMem f).boot = s.boot := rfl
@[simp] theorem State.onMem_mbx : (s.onMem f).mbx = s.mbx := rfl
@[simp] theorem State.onMem_jr : (s.onMem f).jr = s.jr := rfl
@[simp] theorem State.onMem_stg : (s.onMem f).stg = s.stg := rfl
@[simp] theorem State.onMem_host : (s.onMem f).host = s.host := rfl
@[simp] theorem State.onMem_log : (s.onMem f).log = s.log := rfl
@[simp] theorem State.onMem_pmc : (s.onMem f).pmc = s.pmc := rfl
@[simp] theorem State.onMem_spn : (s.onMem f).spn = s.spn := rfl
@[simp] theorem State.onMem_pair : (s.onMem f).pair = s.pair := rfl
@[simp] theorem State.onMem_lv : (s.onMem f).lv = s.lv := rfl
@[simp] theorem State.onMem_ket : (s.onMem f).ket = s.ket := rfl
@[simp] theorem State.onMem_afe : (s.onMem f).afe = s.afe := rfl
@[simp] theorem State.onMem_drv : (s.onMem f).drv = s.drv := rfl
@[simp] theorem State.onMem_can : (s.onMem f).can = s.can := rfl
@[simp] theorem State.onMem_qre : (s.onMem f).qre = s.qre := rfl
@[simp] theorem State.onMem_mem : (s.onMem f).mem = f s.mem := rfl
@[simp] theorem State.onMem_ep : (s.onMem f).ep = s.ep := rfl
@[simp] theorem State.onMem_pln : (s.onMem f).pln = s.pln := rfl
@[simp] theorem State.onMem_stw : (s.onMem f).stw = s.stw := rfl
end
section
variable (f : Epoch → Epoch) (s : State)
@[simp] theorem State.onEp_now : (s.onEp f).now = s.now := rfl
@[simp] theorem State.onEp_free : (s.onEp f).free = s.free := rfl
@[simp] theorem State.onEp_out : (s.onEp f).out = s.out := rfl
@[simp] theorem State.onEp_pending : (s.onEp f).pending = s.pending := rfl
@[simp] theorem State.onEp_keep : (s.onEp f).keep = s.keep := rfl
@[simp] theorem State.onEp_cat : (s.onEp f).cat = s.cat := rfl
@[simp] theorem State.onEp_pwr : (s.onEp f).pwr = s.pwr := rfl
@[simp] theorem State.onEp_otp : (s.onEp f).otp = s.otp := rfl
@[simp] theorem State.onEp_kt : (s.onEp f).kt = s.kt := rfl
@[simp] theorem State.onEp_boot : (s.onEp f).boot = s.boot := rfl
@[simp] theorem State.onEp_mbx : (s.onEp f).mbx = s.mbx := rfl
@[simp] theorem State.onEp_jr : (s.onEp f).jr = s.jr := rfl
@[simp] theorem State.onEp_stg : (s.onEp f).stg = s.stg := rfl
@[simp] theorem State.onEp_host : (s.onEp f).host = s.host := rfl
@[simp] theorem State.onEp_log : (s.onEp f).log = s.log := rfl
@[simp] theorem State.onEp_pmc : (s.onEp f).pmc = s.pmc := rfl
@[simp] theorem State.onEp_spn : (s.onEp f).spn = s.spn := rfl
@[simp] theorem State.onEp_pair : (s.onEp f).pair = s.pair := rfl
@[simp] theorem State.onEp_lv : (s.onEp f).lv = s.lv := rfl
@[simp] theorem State.onEp_ket : (s.onEp f).ket = s.ket := rfl
@[simp] theorem State.onEp_afe : (s.onEp f).afe = s.afe := rfl
@[simp] theorem State.onEp_drv : (s.onEp f).drv = s.drv := rfl
@[simp] theorem State.onEp_can : (s.onEp f).can = s.can := rfl
@[simp] theorem State.onEp_qre : (s.onEp f).qre = s.qre := rfl
@[simp] theorem State.onEp_mem : (s.onEp f).mem = s.mem := rfl
@[simp] theorem State.onEp_ep : (s.onEp f).ep = f s.ep := rfl
@[simp] theorem State.onEp_pln : (s.onEp f).pln = s.pln := rfl
@[simp] theorem State.onEp_stw : (s.onEp f).stw = s.stw := rfl
end
section
variable (f : Planner → Planner) (s : State)
@[simp] theorem State.onPln_now : (s.onPln f).now = s.now := rfl
@[simp] theorem State.onPln_free : (s.onPln f).free = s.free := rfl
@[simp] theorem State.onPln_out : (s.onPln f).out = s.out := rfl
@[simp] theorem State.onPln_pending : (s.onPln f).pending = s.pending := rfl
@[simp] theorem State.onPln_keep : (s.onPln f).keep = s.keep := rfl
@[simp] theorem State.onPln_cat : (s.onPln f).cat = s.cat := rfl
@[simp] theorem State.onPln_pwr : (s.onPln f).pwr = s.pwr := rfl
@[simp] theorem State.onPln_otp : (s.onPln f).otp = s.otp := rfl
@[simp] theorem State.onPln_kt : (s.onPln f).kt = s.kt := rfl
@[simp] theorem State.onPln_boot : (s.onPln f).boot = s.boot := rfl
@[simp] theorem State.onPln_mbx : (s.onPln f).mbx = s.mbx := rfl
@[simp] theorem State.onPln_jr : (s.onPln f).jr = s.jr := rfl
@[simp] theorem State.onPln_stg : (s.onPln f).stg = s.stg := rfl
@[simp] theorem State.onPln_host : (s.onPln f).host = s.host := rfl
@[simp] theorem State.onPln_log : (s.onPln f).log = s.log := rfl
@[simp] theorem State.onPln_pmc : (s.onPln f).pmc = s.pmc := rfl
@[simp] theorem State.onPln_spn : (s.onPln f).spn = s.spn := rfl
@[simp] theorem State.onPln_pair : (s.onPln f).pair = s.pair := rfl
@[simp] theorem State.onPln_lv : (s.onPln f).lv = s.lv := rfl
@[simp] theorem State.onPln_ket : (s.onPln f).ket = s.ket := rfl
@[simp] theorem State.onPln_afe : (s.onPln f).afe = s.afe := rfl
@[simp] theorem State.onPln_drv : (s.onPln f).drv = s.drv := rfl
@[simp] theorem State.onPln_can : (s.onPln f).can = s.can := rfl
@[simp] theorem State.onPln_qre : (s.onPln f).qre = s.qre := rfl
@[simp] theorem State.onPln_mem : (s.onPln f).mem = s.mem := rfl
@[simp] theorem State.onPln_ep : (s.onPln f).ep = s.ep := rfl
@[simp] theorem State.onPln_pln : (s.onPln f).pln = f s.pln := rfl
@[simp] theorem State.onPln_stw : (s.onPln f).stw = s.stw := rfl
end
section
variable (f : Steward → Steward) (s : State)
@[simp] theorem State.onStw_now : (s.onStw f).now = s.now := rfl
@[simp] theorem State.onStw_free : (s.onStw f).free = s.free := rfl
@[simp] theorem State.onStw_out : (s.onStw f).out = s.out := rfl
@[simp] theorem State.onStw_pending : (s.onStw f).pending = s.pending := rfl
@[simp] theorem State.onStw_keep : (s.onStw f).keep = s.keep := rfl
@[simp] theorem State.onStw_cat : (s.onStw f).cat = s.cat := rfl
@[simp] theorem State.onStw_pwr : (s.onStw f).pwr = s.pwr := rfl
@[simp] theorem State.onStw_otp : (s.onStw f).otp = s.otp := rfl
@[simp] theorem State.onStw_kt : (s.onStw f).kt = s.kt := rfl
@[simp] theorem State.onStw_boot : (s.onStw f).boot = s.boot := rfl
@[simp] theorem State.onStw_mbx : (s.onStw f).mbx = s.mbx := rfl
@[simp] theorem State.onStw_jr : (s.onStw f).jr = s.jr := rfl
@[simp] theorem State.onStw_stg : (s.onStw f).stg = s.stg := rfl
@[simp] theorem State.onStw_host : (s.onStw f).host = s.host := rfl
@[simp] theorem State.onStw_log : (s.onStw f).log = s.log := rfl
@[simp] theorem State.onStw_pmc : (s.onStw f).pmc = s.pmc := rfl
@[simp] theorem State.onStw_spn : (s.onStw f).spn = s.spn := rfl
@[simp] theorem State.onStw_pair : (s.onStw f).pair = s.pair := rfl
@[simp] theorem State.onStw_lv : (s.onStw f).lv = s.lv := rfl
@[simp] theorem State.onStw_ket : (s.onStw f).ket = s.ket := rfl
@[simp] theorem State.onStw_afe : (s.onStw f).afe = s.afe := rfl
@[simp] theorem State.onStw_drv : (s.onStw f).drv = s.drv := rfl
@[simp] theorem State.onStw_can : (s.onStw f).can = s.can := rfl
@[simp] theorem State.onStw_qre : (s.onStw f).qre = s.qre := rfl
@[simp] theorem State.onStw_mem : (s.onStw f).mem = s.mem := rfl
@[simp] theorem State.onStw_ep : (s.onStw f).ep = s.ep := rfl
@[simp] theorem State.onStw_pln : (s.onStw f).pln = s.pln := rfl
@[simp] theorem State.onStw_stw : (s.onStw f).stw = f s.stw := rfl
end

end Sys2Proof.Machine
end

