-- ==== Sys2Proof/Laws/Tab.lean ====
section
/-! SUPPORT. Laws/Tab.lean: the laws of the two containers: a read after a write, and that every memory operation
keeps the canonical form. -/

namespace Sys2Proof.Machine

section
variable {α : Type}

/-- A table read where it was just set. -/
@[simp] theorem Tab.get_set_same (d v : α) (t : Tab α) (k : Nat) : (t.set k v).get d k = v := by
  induction t with
  | nil => simp [Tab.set, Tab.get]
  | cons p t ih =>
    obtain ⟨j, w⟩ := p
    by_cases h : k = j
    · simp [Tab.set, Tab.get, h]
    · by_cases h2 : k < j
      · simp [Tab.set, Tab.get, h, h2]
      · simp [Tab.set, Tab.get, h, h2, Ne.symm h, ih]

/-- A table read elsewhere than where it was set. -/
theorem Tab.get_set_other (d v : α) (t : Tab α) {k n : Nat} (h : n ≠ k) : (t.set k v).get d n = t.get d n := by
  induction t with
  | nil => simp [Tab.set, Tab.get, h.symm]
  | cons p t ih =>
    obtain ⟨j, w⟩ := p
    by_cases h1 : k = j
    · subst h1; simp [Tab.set, Tab.get, h.symm]
    · by_cases h2 : k < j
      · simp [Tab.set, Tab.get, h1, h2, h.symm]
      · simp only [Tab.set, Tab.get, h1, h2, if_false, ih]

/-- A table's entry where it was just changed. -/
@[simp] theorem Tab.get_mod_same (d : α) (t : Tab α) (k : Nat) (f : α → α) : (t.mod d k f).get d k = f (t.get d k) := by
  simp [Tab.mod]

/-- A table's entry elsewhere than where it was changed. -/
theorem Tab.get_mod_other (d : α) (t : Tab α) (f : α → α) {k n : Nat} (h : n ≠ k) :
    (t.mod d k f).get d n = t.get d n := Tab.get_set_other d _ t h

/-- Every entry of a changed table is an old entry or the new one. -/
theorem Tab.mem_set {p : Nat × α} {t : Tab α} {k : Nat} {v : α} (h : p ∈ t.set k v) : p ∈ t ∨ p = (k, v) := by
  induction t with
  | nil => simpa [Tab.set] using h
  | cons q t ih =>
    obtain ⟨j, w⟩ := q
    unfold Tab.set at h
    split at h
    · rcases List.mem_cons.mp h with h | h
      · exact .inr h
      · exact .inl (List.mem_cons_of_mem _ h)
    · split at h
      · rcases List.mem_cons.mp h with h | h
        · exact .inr h
        · exact .inl h
      · rcases List.mem_cons.mp h with h | h
        · exact .inl (h ▸ List.mem_cons_self)
        · exact (ih h).imp_left (List.mem_cons_of_mem _)

/-- What a table answers is the default or one of its entries. -/
theorem Tab.get_cases (d : α) (t : Tab α) (k : Nat) : t.get d k = d ∨ ∃ p ∈ t, t.get d k = p.2 := by
  induction t with
  | nil => exact .inl rfl
  | cons q t ih =>
    obtain ⟨j, w⟩ := q
    unfold Tab.get
    split
    · exact .inr ⟨_, List.mem_cons_self, rfl⟩
    · exact ih.imp_right fun ⟨p, hp, e⟩ => ⟨p, List.mem_cons_of_mem _ hp, e⟩

end

/-! ## Memories -/

/-- The canonical form in parts: no listed byte is 0, and the addresses rise strictly. -/
theorem Mem.wf_iff (m : Mem) : Mem.wf m = true ↔ (∀ p ∈ m, p.2 ≠ 0) ∧ m.Pairwise (fun p q => p.1 < q.1) := by
  induction m with
  | nil => simp [Mem.wf]
  | cons p m ih =>
    obtain ⟨a, v⟩ := p
    cases m with
    | nil => simp [Mem.wf]
    | cons q m =>
      obtain ⟨b, w⟩ := q
      simp only [Mem.wf, Bool.and_eq_true, bne_iff_ne, decide_eq_true_eq, ih, List.pairwise_cons, List.mem_cons,
        forall_eq_or_imp]
      constructor
      · rintro ⟨⟨hv, hab⟩, ⟨hw, hm⟩, hb, hp⟩
        exact ⟨⟨hv, hw, hm⟩, ⟨hab, fun x hx => Nat.lt_trans hab (hb x hx)⟩, hb, hp⟩
      · rintro ⟨⟨hv, hw, hm⟩, ⟨hab, _⟩, hb, hp⟩
        exact ⟨⟨hv, hab⟩, ⟨hw, hm⟩, hb, hp⟩

/-- The empty memory is canonical. -/
@[simp] theorem Mem.wf_nil : Mem.wf [] = true := rfl

/-- Every entry of a written memory is an old one or the new one. -/
theorem Mem.mem_write {p : Nat × Byte} {m : Mem} {a : Nat} {v : Byte} (h : p ∈ m.write a v) :
    p ∈ m ∨ (p = (a, v) ∧ v ≠ Mem.unlisted) := by
  induction m with
  | nil =>
    unfold Mem.write at h
    split at h
    · simp at h
    · exact .inr ⟨by simpa using h, by assumption⟩
  | cons q m ih =>
    obtain ⟨b, w⟩ := q
    unfold Mem.write at h
    split at h
    · split at h
      · exact .inl (List.mem_cons_of_mem _ h)
      · rcases List.mem_cons.mp h with h | h
        · exact .inr ⟨h, by assumption⟩
        · exact .inl (List.mem_cons_of_mem _ h)
    · split at h
      · split at h
        · exact .inl h
        · rcases List.mem_cons.mp h with h | h
          · exact .inr ⟨h, by assumption⟩
          · exact .inl h
      · rcases List.mem_cons.mp h with h | h
        · exact .inl (h ▸ List.mem_cons_self)
        · exact (ih h).imp_left (List.mem_cons_of_mem _)

/-- A write keeps the canonical form. -/
theorem Mem.wf_write {m : Mem} (h : Mem.wf m = true) (a : Nat) (v : Byte) : Mem.wf (m.write a v) = true := by
  rw [Mem.wf_iff] at h ⊢
  obtain ⟨hz, hp⟩ := h
  refine ⟨fun p hm => ?_, ?_⟩
  · rcases Mem.mem_write hm with hm | ⟨rfl, hv⟩
    · exact hz p hm
    · exact hv
  · induction m with
    | nil => unfold Mem.write; split <;> simp
    | cons q m ih =>
      obtain ⟨b, w⟩ := q
      rw [List.pairwise_cons] at hp
      have hz' : ∀ p ∈ m, p.2 ≠ 0 := fun p hm => hz p (List.mem_cons_of_mem _ hm)
      unfold Mem.write
      split
      · subst a; split
        · exact hp.2
        · exact List.pairwise_cons.mpr hp
      · split
        · split
          · exact List.pairwise_cons.mpr hp
          · refine List.pairwise_cons.mpr ⟨fun p hm => ?_, List.pairwise_cons.mpr hp⟩
            rcases List.mem_cons.mp hm with rfl | hm
            · assumption
            · have := hp.1 p hm; dsimp at *; omega
        · refine List.pairwise_cons.mpr ⟨fun p hm => ?_, ih hz' hp.2⟩
          rcases Mem.mem_write hm with hm | ⟨rfl, -⟩
          · exact hp.1 p hm
          · dsimp; omega

/-- Writes of a byte string keep the canonical form. -/
theorem Mem.wf_writeN {m : Mem} (h : Mem.wf m = true) (a : Nat) (bs : Bytes) : Mem.wf (m.writeN a bs) = true := by
  induction bs generalizing m a with
  | nil => exact h
  | cons b bs ih => exact ih (Mem.wf_write h a b) (a + 1)

/-- A memory with entries left out keeps the canonical form. -/
theorem Mem.wf_filter {m : Mem} (h : Mem.wf m = true) (p : Nat × Byte → Bool) : Mem.wf (m.filter p) = true := by
  rw [Mem.wf_iff] at h ⊢
  exact ⟨fun q hq => h.1 q (List.mem_of_mem_filter hq), h.2.filter p⟩

/-- Clearing a range keeps the canonical form. -/
theorem Mem.wf_clearRange {m : Mem} (h : Mem.wf m = true) (lo hi : Nat) : Mem.wf (m.clearRange lo hi) = true :=
  Mem.wf_filter h _

/-- Taking a range alone keeps the canonical form. -/
theorem Mem.wf_range {m : Mem} (h : Mem.wf m = true) (lo hi : Nat) : Mem.wf (m.range lo hi) = true := Mem.wf_filter h _

/-- A range moved to address 0 keeps the canonical form. -/
theorem Mem.wf_window {m : Mem} (h : Mem.wf m = true) (lo hi : Nat) : Mem.wf (m.window lo hi) = true := by
  have hr := (Mem.wf_iff _).mp (Mem.wf_range h lo hi)
  rw [Mem.wf_iff]
  refine ⟨fun p hp => ?_, ?_⟩
  · obtain ⟨q, hq, rfl⟩ := List.mem_map.mp hp
    exact hr.1 q hq
  · refine List.pairwise_map.mpr (hr.2.imp_of_mem fun {x y} hx _ hxy => ?_)
    have hx := (List.mem_filter.mp hx).2
    simp only [Bool.and_eq_true, decide_eq_true_eq] at hx
    dsimp; omega

/-- Writes of listed bytes keep the canonical form. -/
theorem Mem.wf_foldl {α : Type} {m : Mem} (h : Mem.wf m = true) (xs : List α) (a : α → Nat) (v : α → Byte) :
    Mem.wf (xs.foldl (fun m x => m.write (a x) (v x)) m) = true := by
  induction xs generalizing m with
  | nil => exact h
  | cons x xs ih => exact ih (Mem.wf_write h _ _)

/-- The addresses of a canonical memory lie above its first. -/
theorem Mem.wf_tail {b : Nat} {w : Byte} {m : Mem} (h : Mem.wf ((b, w) :: m) = true) :
    Mem.wf m = true ∧ ∀ p ∈ m, b < p.1 := by
  rw [Mem.wf_iff] at h ⊢
  have hp := List.pairwise_cons.mp h.2
  exact ⟨⟨fun p hm => h.1 p (List.mem_cons_of_mem _ hm), hp.2⟩, hp.1⟩

/-- An address below every listed one reads as unlisted. -/
theorem Mem.read_below {m : Mem} {a : Nat} (h : ∀ p ∈ m, a < p.1) : m.read a = Mem.unlisted := by
  cases m with
  | nil => rfl
  | cons q m =>
    obtain ⟨b, w⟩ := q
    have hb : a < b := h _ List.mem_cons_self
    simp [Mem.read, hb, Nat.ne_of_lt hb]

/-- A byte read where it was just written. -/
theorem Mem.read_write_same {m : Mem} (h : Mem.wf m = true) (a : Nat) (v : Byte) : (m.write a v).read a = v := by
  induction m with
  | nil => by_cases hv : v = Mem.unlisted <;> simp [Mem.write, Mem.read, hv]
  | cons q m ih =>
    obtain ⟨b, w⟩ := q
    obtain ⟨hm, hlt⟩ := Mem.wf_tail h
    by_cases hab : a = b
    · subst hab
      by_cases hv : v = Mem.unlisted
      · simp only [Mem.write, if_true, hv]; exact Mem.read_below hlt
      · simp [Mem.write, Mem.read, hv]
    · by_cases hlt2 : a < b
      · by_cases hv : v = Mem.unlisted <;> simp [Mem.write, Mem.read, hab, hlt2, hv]
      · simp [Mem.write, Mem.read, hab, hlt2, ih hm]

/-- A byte read elsewhere than where one was written. -/
theorem Mem.read_write_other {m : Mem} (h : Mem.wf m = true) {a c : Nat} (v : Byte) (hc : c ≠ a) :
    (m.write a v).read c = m.read c := by
  induction m with
  | nil =>
    by_cases hv : v = Mem.unlisted
    · simp [Mem.write, hv]
    · simp [Mem.write, Mem.read, hv, hc]
  | cons q m ih =>
    obtain ⟨b, w⟩ := q
    obtain ⟨hm, hlt⟩ := Mem.wf_tail h
    by_cases hab : a = b
    · subst hab
      by_cases hv : v = Mem.unlisted
      · simp only [Mem.write, if_true, hv, Mem.read, hc, if_false]
        split
        · exact Mem.read_below fun p hp => Nat.lt_trans (by assumption) (hlt p hp)
        · rfl
      · simp [Mem.write, Mem.read, hv, hc]
    · by_cases hlt2 : a < b
      · by_cases hv : v = Mem.unlisted
        · simp [Mem.write, hab, hlt2, hv]
        · simp only [Mem.write, hab, hlt2, hv, if_true, if_false, Mem.read, hc]
          split
          · have : c < b := by omega
            simp [this, Nat.ne_of_lt this]
          · rfl
      · simp only [Mem.write, hab, hlt2, if_false, Mem.read, ih hm]

/-- A byte outside a stored string reads as before. -/
theorem Mem.read_writeN_other {m : Mem} (h : Mem.wf m = true) (a : Nat) (bs : Bytes) {c : Nat}
    (hc : c < a ∨ a + bs.length ≤ c) : (m.writeN a bs).read c = m.read c := by
  induction bs generalizing m a with
  | nil => rfl
  | cons b bs ih =>
    simp only [List.length_cons] at hc
    rw [Mem.writeN, ih (Mem.wf_write h a b) (a + 1) (by omega), Mem.read_write_other h b (by omega)]

end Sys2Proof.Machine
end

