-- ==== Sys2Proof/Laws/Foot.lean ====
section
/-! SUPPORT. Laws/Foot.lean: footprints. `Foot fs s t` says everything that an operation from `s` to `t` can do
to what `fs` does not name: every other part of the state is as before, the clock has not gone back, what was
sent stays sent, no OTP bit is given back, and the memories keep their canonical form. One lemma per operation
(Laws/Foot*.lean) gives its footprint. -/

namespace Sys2Proof.Machine

/-- The keep registers without the wake latch, which any event of severity 3 can write. -/
def keepCore (k : Keep) : Keep := { k with wake := [], wakeSeq := 0, wakePin := false }

/-- The parts of State that a footprint names, and some properties of their own: `core` is the keep registers but for
the wake latch, `storeFault` an end of CATCH_STORE_FAULT, `ten`, `route`, `role`, `keys`,
`budget` and `por` are single registers that change, `capdnFall` and `tripFall` a CAPDN line that is released and
a trip latch that is cleared. -/
inductive Fld where
  | now | free | out | pending | keep | cat | pwr | otp | kt | boot | mbx | jr | stg | host | log | pmc | spn | pair
  | lv | ket | afe | drv | can | qre | mem | ep | pln | stw
  | core | ten | capdnFall | tripFall | route | role | keys | budget | por | storeFault
  deriving DecidableEq, Repr

/-- What a part does when no footprint names it. -/
def Fld.same (s t : State) : Fld → Prop
  | .now => t.now = s.now
  | .free => t.free = s.free
  | .out => t.out = s.out
  | .pending => t.pending = s.pending
  | .keep => t.keep = s.keep
  | .cat => t.cat = s.cat
  | .pwr => t.pwr = s.pwr
  | .otp => t.otp = s.otp
  | .kt => t.kt = s.kt
  | .boot => t.boot = s.boot
  | .mbx => t.mbx = s.mbx
  | .jr => t.jr = s.jr
  | .stg => t.stg = s.stg
  | .host => t.host = s.host
  | .log => t.log = s.log
  | .pmc => t.pmc = s.pmc
  | .spn => t.spn = s.spn
  | .pair => t.pair = s.pair
  | .lv => t.lv = s.lv
  | .ket => t.ket = s.ket
  | .afe => t.afe = s.afe
  | .drv => t.drv = s.drv
  | .can => t.can = s.can
  | .qre => t.qre = s.qre
  | .mem => t.mem = s.mem
  | .ep => t.ep = s.ep
  | .pln => t.pln = s.pln
  | .stw => t.stw = s.stw
  | .core => keepCore t.keep = keepCore s.keep
  | .ten => t.keep.ten = s.keep.ten
  | .capdnFall => s.keep.capdn &&& ~~~t.keep.capdn = 0#16
  | .tripFall => s.ket.trip &&& ~~~t.ket.trip = 0#16
  | .route => t.ket.route = s.ket.route
  | .role => t.kt.role = s.kt.role
  | .keys => t.kt.key0 = s.kt.key0 ∧ t.kt.key1 = s.kt.key1
  | .budget => t.kt.budget = s.kt.budget
  | .por => t.keep.por = s.keep.por
  | .storeFault => s.jr.fault = true → t.jr.fault = true

/-- The footprint of an operation. -/
structure Foot (fs : List Fld) (s t : State) : Prop where
  same  : ∀ F : Fld, fs.contains F = false → F.same s t
  clock : s.now ≤ t.now
  sent  : s.out <:+ t.out
  otp   : OtpLe s.otp t.otp
  canon : Canon s → Canon t

/-- A list of parts within another. -/
def subFld (gs fs : List Fld) : Bool := gs.all fs.contains

theorem andNot_trans {n : Nat} {a b c : BitVec n} (h1 : a &&& ~~~b = 0#n) (h2 : b &&& ~~~c = 0#n) :
    a &&& ~~~c = 0#n := by
  apply BitVec.eq_of_getLsbD_eq
  intro i hi
  have e1 := congrArg (fun x => x.getLsbD i) h1
  have e2 := congrArg (fun x => x.getLsbD i) h2
  simp [hi] at e1 e2 ⊢
  intro ha; exact e2 (e1 ha)

theorem andNot_or {n : Nat} (a b : BitVec n) : a &&& ~~~(a ||| b) = 0#n := by
  apply BitVec.eq_of_getLsbD_eq
  intro i hi
  simp [hi]
  intro ha; simp [ha]

theorem andNot_all (a : Half) : a &&& ~~~(0xFFFF : Half) = 0#16 := by
  apply BitVec.eq_of_getLsbD_eq
  intro i hi
  simp

theorem andNot_self {n : Nat} (a : BitVec n) : a &&& ~~~a = 0#n := by simp

theorem OtpLe.rfl {a : Otp} : OtpLe a a := ⟨andNot_self _, Nat.le_refl _, fun _ => Eq.refl _⟩

theorem OtpLe.trans {a b c : Otp} (h : OtpLe a b) (g : OtpLe b c) : OtpLe a c :=
  ⟨andNot_trans h.revoked g.revoked, Nat.le_trans h.floor g.floor, fun x => by
    have := h.route x; rw [g.route (this ▸ x), this]⟩

theorem Fld.same_refl (s : State) (F : Fld) : F.same s s := by
  cases F <;> simp [Fld.same]

theorem Fld.same_trans {s t u : State} {F : Fld} (h : F.same s t) (g : F.same t u) : F.same s u := by
  cases F
  case capdnFall => exact andNot_trans h g
  case tripFall => exact andNot_trans h g
  case keys => exact ⟨g.1.trans h.1, g.2.trans h.2⟩
  case storeFault => exact fun a => g (h a)
  all_goals exact Eq.trans g h

theorem Foot.refl {fs : List Fld} {s : State} : Foot fs s s :=
  ⟨fun F _ => F.same_refl s, Nat.le_refl _, List.suffix_rfl, .rfl, id⟩

theorem Foot.then {fs gs : List Fld} {s t u : State} (h : Foot fs s t) (g : Foot gs t u) (hs : subFld gs fs = true) :
    Foot fs s u :=
  ⟨fun F hF => Fld.same_trans (h.same F hF) (g.same F (by
      rw [← Bool.not_eq_true] at hF ⊢
      intro hc
      exact hF (List.all_eq_true.mp hs F (List.contains_iff_mem.mp hc)))),
    Nat.le_trans h.clock g.clock, h.sent.trans g.sent, h.otp.trans g.otp, fun c => g.canon (h.canon c)⟩

theorem Foot.after {fs gs : List Fld} {s t u : State} (g : Foot gs t u) (h : Foot fs s t) (hs : subFld gs fs = true) :
    Foot fs s u := h.then g hs

theorem Foot.mono {fs gs : List Fld} {s t : State} (g : Foot gs s t) (hs : subFld gs fs = true) : Foot fs s t :=
  Foot.refl.then g hs

theorem Foot.ite {fs : List Fld} {s a b : State} {c : Prop} [Decidable c] (ha : Foot fs s a) (hb : Foot fs s b) :
    Foot fs s (if c then a else b) := by
  split <;> assumption

theorem Foot.of_eq {α : Type} {fs : List Fld} {s v : State} {p : α × State} {a : α} (g : Foot fs s p.2)
    (h : p = (a, v)) : Foot fs s v := by
  rw [h] at g; exact g

theorem Foot.foldl {α : Type} {fs : List Fld} {s : State} {f : State → α → State} {u : State} {xs : List α}
    (h : Foot fs s u) (hf : ∀ v a, Foot fs s v → Foot fs s (f v a)) : Foot fs s (xs.foldl f u) := by
  induction xs generalizing u with
  | nil => exact h
  | cons x xs ih => exact ih (hf u x h)

/-! ## The updates of State -/

section
variable {fs : List Fld} {s u : State}

theorem Foot.setNow {v : Nat} (h : Foot fs s u) (hk : fs.contains .now = true) (hv : u.now ≤ v) :
    Foot fs s (u.setNow v) :=
  ⟨fun F hF => Fld.same_trans (h.same F hF) (by cases F <;> simp_all [Fld.same]), Nat.le_trans h.clock hv, h.sent,
    h.otp, fun c => let d := h.canon c; ⟨d.mem, d.msix, d.tag, d.box, d.obj, d.prog⟩⟩

theorem Foot.setFree {v : Nat} (h : Foot fs s u) (hk : fs.contains .free = true) : Foot fs s (u.setFree v) :=
  ⟨fun F hF => Fld.same_trans (h.same F hF) (by cases F <;> simp_all [Fld.same]), h.clock, h.sent, h.otp,
    fun c => let d := h.canon c; ⟨d.mem, d.msix, d.tag, d.box, d.obj, d.prog⟩⟩

theorem Foot.emit {o : Output} (h : Foot fs s u) (hk : fs.contains .out = true) : Foot fs s (emit o u) :=
  ⟨fun F hF => Fld.same_trans (h.same F hF) (by cases F <;> simp_all [Fld.same, Machine.emit]), h.clock,
    h.sent.trans (List.suffix_cons o u.out), h.otp,
    fun c => let d := h.canon c; ⟨d.mem, d.msix, d.tag, d.box, d.obj, d.prog⟩⟩

theorem Foot.onKeep {f : Keep → Keep} (h : Foot fs s u) (hk : fs.contains .keep = true)
    (ht : fs.contains .ten = true ∨ (f u.keep).ten = u.keep.ten)
    (hc : fs.contains .capdnFall = true ∨ (f u.keep).capdn = u.keep.capdn ∨ u.keep.capdn &&& ~~~(f u.keep).capdn = 0#16)
    (hp : fs.contains .por = true ∨ (f u.keep).por = u.keep.por)
    (hq : fs.contains .core = true ∨ keepCore (f u.keep) = keepCore u.keep) : Foot fs s (u.onKeep f) :=
  ⟨fun F hF => Fld.same_trans (h.same F hF) (by cases F <;> rcases hc with hc | hc | hc <;> simp_all [Fld.same]), h.clock, h.sent, h.otp,
    fun c => let d := h.canon c; ⟨d.mem, d.msix, d.tag, d.box, d.obj, d.prog⟩⟩

theorem Foot.onKet {f : Kettle → Kettle} (h : Foot fs s u) (hk : fs.contains .ket = true)
    (ht : fs.contains .tripFall = true ∨ (f u.ket).trip = u.ket.trip ∨ u.ket.trip &&& ~~~(f u.ket).trip = 0#16)
    (hr : fs.contains .route = true ∨ (f u.ket).route = u.ket.route) : Foot fs s (u.onKet f) :=
  ⟨fun F hF => Fld.same_trans (h.same F hF) (by cases F <;> rcases ht with ht | ht | ht <;> simp_all [Fld.same]), h.clock, h.sent, h.otp,
    fun c => let d := h.canon c; ⟨d.mem, d.msix, d.tag, d.box, d.obj, d.prog⟩⟩

theorem Foot.onKt {f : KeepTables → KeepTables} (h : Foot fs s u) (hk : fs.contains .kt = true)
    (hr : fs.contains .role = true ∨ (f u.kt).role = u.kt.role)
    (hy : fs.contains .keys = true ∨ ((f u.kt).key0 = u.kt.key0 ∧ (f u.kt).key1 = u.kt.key1))
    (hb : fs.contains .budget = true ∨ (f u.kt).budget = u.kt.budget) : Foot fs s (u.onKt f) :=
  ⟨fun F hF => Fld.same_trans (h.same F hF) (by cases F <;> simp_all [Fld.same]), h.clock, h.sent, h.otp,
    fun c => let d := h.canon c; ⟨d.mem, d.msix, d.tag, d.box, d.obj, d.prog⟩⟩

theorem Foot.onOtp {f : Otp → Otp} (h : Foot fs s u) (hk : fs.contains .otp = true) (hl : OtpLe u.otp (f u.otp)) :
    Foot fs s (u.onOtp f) :=
  ⟨fun F hF => Fld.same_trans (h.same F hF) (by cases F <;> simp_all [Fld.same]), h.clock, h.sent, h.otp.trans hl,
    fun c => let d := h.canon c; ⟨d.mem, d.msix, d.tag, d.box, d.obj, d.prog⟩⟩

theorem Foot.onMem {f : Mem → Mem} (h : Foot fs s u) (hk : fs.contains .mem = true)
    (hm : Mem.wf u.mem = true → Mem.wf (f u.mem) = true) : Foot fs s (u.onMem f) :=
  ⟨fun F hF => Fld.same_trans (h.same F hF) (by cases F <;> simp_all [Fld.same]), h.clock, h.sent, h.otp,
    fun c => let d := h.canon c; ⟨hm d.mem, d.msix, d.tag, d.box, d.obj, d.prog⟩⟩

theorem Foot.onHost {f : HostLink → HostLink} (h : Foot fs s u) (hk : fs.contains .host = true)
    (hm : Mem.wf u.host.msix = true → Mem.wf (f u.host).msix = true) : Foot fs s (u.onHost f) :=
  ⟨fun F hF => Fld.same_trans (h.same F hF) (by cases F <;> simp_all [Fld.same]), h.clock, h.sent, h.otp,
    fun c => let d := h.canon c; ⟨d.mem, hm d.msix, d.tag, d.box, d.obj, d.prog⟩⟩

theorem Foot.onStw {f : Steward → Steward} (h : Foot fs s u) (hk : fs.contains .stw = true)
    (hm : Mem.wf u.stw.tag.mem = true → Mem.wf (f u.stw).tag.mem = true) : Foot fs s (u.onStw f) :=
  ⟨fun F hF => Fld.same_trans (h.same F hF) (by cases F <;> simp_all [Fld.same]), h.clock, h.sent, h.otp,
    fun c => let d := h.canon c; ⟨d.mem, d.msix, hm d.tag, d.box, d.obj, d.prog⟩⟩

theorem Foot.onMbx {f : Tab Mailbox → Tab Mailbox} (h : Foot fs s u) (hk : fs.contains .mbx = true)
    (hm : (∀ p ∈ u.mbx, Mem.wf p.2.window = true ∧ Mem.wf p.2.rsp = true) →
      ∀ p ∈ f u.mbx, Mem.wf p.2.window = true ∧ Mem.wf p.2.rsp = true) :
    Foot fs s (u.onMbx f) :=
  ⟨fun F hF => Fld.same_trans (h.same F hF) (by cases F <;> simp_all [Fld.same]), h.clock, h.sent, h.otp,
    fun c => let d := h.canon c; ⟨d.mem, d.msix, d.tag, hm d.box, d.obj, d.prog⟩⟩

theorem Foot.onStg {f : Staging → Staging} (h : Foot fs s u) (hk : fs.contains .stg = true)
    (hm : (∀ o ∈ u.stg.objs, Mem.wf o.bytes = true) → ∀ o ∈ (f u.stg).objs, Mem.wf o.bytes = true) :
    Foot fs s (u.onStg f) :=
  ⟨fun F hF => Fld.same_trans (h.same F hF) (by cases F <;> simp_all [Fld.same]), h.clock, h.sent, h.otp,
    fun c => let d := h.canon c; ⟨d.mem, d.msix, d.tag, d.box, hm d.obj, d.prog⟩⟩

theorem Foot.onCat {f : CatchImages → CatchImages} (h : Foot fs s u) (hk : fs.contains .cat = true) : Foot fs s (u.onCat f) :=
  ⟨fun F hF => Fld.same_trans (h.same F hF) (by cases F <;> simp_all [Fld.same]), h.clock, h.sent, h.otp,
    fun c => let d := h.canon c; ⟨d.mem, d.msix, d.tag, d.box, d.obj, d.prog⟩⟩

theorem Foot.onPwr {f : Power → Power} (h : Foot fs s u) (hk : fs.contains .pwr = true) : Foot fs s (u.onPwr f) :=
  ⟨fun F hF => Fld.same_trans (h.same F hF) (by cases F <;> simp_all [Fld.same]), h.clock, h.sent, h.otp,
    fun c => let d := h.canon c; ⟨d.mem, d.msix, d.tag, d.box, d.obj, d.prog⟩⟩

theorem Foot.onBoot {f : Boot → Boot} (h : Foot fs s u) (hk : fs.contains .boot = true)
    (hm : Mem.wf u.boot.prog = true → Mem.wf (f u.boot).prog = true) : Foot fs s (u.onBoot f) :=
  ⟨fun F hF => Fld.same_trans (h.same F hF) (by cases F <;> simp_all [Fld.same]), h.clock, h.sent, h.otp,
    fun c => let d := h.canon c; ⟨d.mem, d.msix, d.tag, d.box, d.obj, hm d.prog⟩⟩

theorem Foot.onJr {f : Journal → Journal} (h : Foot fs s u) (hk : fs.contains .jr = true)
    (hf : fs.contains .storeFault = true ∨ (u.jr.fault = true → (f u.jr).fault = true)) : Foot fs s (u.onJr f) :=
  ⟨fun F hF => Fld.same_trans (h.same F hF) (by cases F <;> simp_all [Fld.same]), h.clock, h.sent, h.otp,
    fun c => let d := h.canon c; ⟨d.mem, d.msix, d.tag, d.box, d.obj, d.prog⟩⟩

theorem Foot.onLog {f : Logbook → Logbook} (h : Foot fs s u) (hk : fs.contains .log = true) : Foot fs s (u.onLog f) :=
  ⟨fun F hF => Fld.same_trans (h.same F hF) (by cases F <;> simp_all [Fld.same]), h.clock, h.sent, h.otp,
    fun c => let d := h.canon c; ⟨d.mem, d.msix, d.tag, d.box, d.obj, d.prog⟩⟩

theorem Foot.onPmc {f : Counters → Counters} (h : Foot fs s u) (hk : fs.contains .pmc = true) : Foot fs s (u.onPmc f) :=
  ⟨fun F hF => Fld.same_trans (h.same F hF) (by cases F <;> simp_all [Fld.same]), h.clock, h.sent, h.otp,
    fun c => let d := h.canon c; ⟨d.mem, d.msix, d.tag, d.box, d.obj, d.prog⟩⟩

theorem Foot.onSpn {f : Spine → Spine} (h : Foot fs s u) (hk : fs.contains .spn = true) : Foot fs s (u.onSpn f) :=
  ⟨fun F hF => Fld.same_trans (h.same F hF) (by cases F <;> simp_all [Fld.same]), h.clock, h.sent, h.otp,
    fun c => let d := h.canon c; ⟨d.mem, d.msix, d.tag, d.box, d.obj, d.prog⟩⟩

theorem Foot.onPair {f : Pair → Pair} (h : Foot fs s u) (hk : fs.contains .pair = true) : Foot fs s (u.onPair f) :=
  ⟨fun F hF => Fld.same_trans (h.same F hF) (by cases F <;> simp_all [Fld.same]), h.clock, h.sent, h.otp,
    fun c => let d := h.canon c; ⟨d.mem, d.msix, d.tag, d.box, d.obj, d.prog⟩⟩

theorem Foot.onLv {f : Leave → Leave} (h : Foot fs s u) (hk : fs.contains .lv = true) : Foot fs s (u.onLv f) :=
  ⟨fun F hF => Fld.same_trans (h.same F hF) (by cases F <;> simp_all [Fld.same]), h.clock, h.sent, h.otp,
    fun c => let d := h.canon c; ⟨d.mem, d.msix, d.tag, d.box, d.obj, d.prog⟩⟩

theorem Foot.onAfe {f : Afe → Afe} (h : Foot fs s u) (hk : fs.contains .afe = true) : Foot fs s (u.onAfe f) :=
  ⟨fun F hF => Fld.same_trans (h.same F hF) (by cases F <;> simp_all [Fld.same]), h.clock, h.sent, h.otp,
    fun c => let d := h.canon c; ⟨d.mem, d.msix, d.tag, d.box, d.obj, d.prog⟩⟩

theorem Foot.onDrv {f : Drive → Drive} (h : Foot fs s u) (hk : fs.contains .drv = true) : Foot fs s (u.onDrv f) :=
  ⟨fun F hF => Fld.same_trans (h.same F hF) (by cases F <;> simp_all [Fld.same]), h.clock, h.sent, h.otp,
    fun c => let d := h.canon c; ⟨d.mem, d.msix, d.tag, d.box, d.obj, d.prog⟩⟩

theorem Foot.onCan {f : Can → Can} (h : Foot fs s u) (hk : fs.contains .can = true) : Foot fs s (u.onCan f) :=
  ⟨fun F hF => Fld.same_trans (h.same F hF) (by cases F <;> simp_all [Fld.same]), h.clock, h.sent, h.otp,
    fun c => let d := h.canon c; ⟨d.mem, d.msix, d.tag, d.box, d.obj, d.prog⟩⟩

theorem Foot.onQre {f : Quires → Quires} (h : Foot fs s u) (hk : fs.contains .qre = true) : Foot fs s (u.onQre f) :=
  ⟨fun F hF => Fld.same_trans (h.same F hF) (by cases F <;> simp_all [Fld.same]), h.clock, h.sent, h.otp,
    fun c => let d := h.canon c; ⟨d.mem, d.msix, d.tag, d.box, d.obj, d.prog⟩⟩

theorem Foot.onEp {f : Epoch → Epoch} (h : Foot fs s u) (hk : fs.contains .ep = true) : Foot fs s (u.onEp f) :=
  ⟨fun F hF => Fld.same_trans (h.same F hF) (by cases F <;> simp_all [Fld.same]), h.clock, h.sent, h.otp,
    fun c => let d := h.canon c; ⟨d.mem, d.msix, d.tag, d.box, d.obj, d.prog⟩⟩

theorem Foot.onPln {f : Planner → Planner} (h : Foot fs s u) (hk : fs.contains .pln = true) : Foot fs s (u.onPln f) :=
  ⟨fun F hF => Fld.same_trans (h.same F hF) (by cases F <;> simp_all [Fld.same]), h.clock, h.sent, h.otp,
    fun c => let d := h.canon c; ⟨d.mem, d.msix, d.tag, d.box, d.obj, d.prog⟩⟩

end

/-- A mailbox's windows stay canonical under a change that keeps them so. -/
theorem box_mod {ms : Tab Mailbox} {m : Nat} {f : Mailbox → Mailbox}
    (hf : ∀ b : Mailbox, Mem.wf b.window = true ∧ Mem.wf b.rsp = true → Mem.wf (f b).window = true ∧ Mem.wf (f b).rsp = true)
    (h : ∀ p ∈ ms, Mem.wf p.2.window = true ∧ Mem.wf p.2.rsp = true) :
    ∀ p ∈ ms.mod {} m f, Mem.wf p.2.window = true ∧ Mem.wf p.2.rsp = true := by
  intro p hp
  rcases Tab.mem_set hp with hp | rfl
  · exact h p hp
  · refine hf _ ?_
    rcases Tab.get_cases ({} : Mailbox) ms m with e | ⟨q, hq, e⟩
    · rw [e]; exact ⟨rfl, rfl⟩
    · rw [e]; exact h q hq

/-- A mailbox with canonical windows put in place. -/
theorem box_set {ms : Tab Mailbox} {m : Nat} {b : Mailbox} (hb : Mem.wf b.window = true ∧ Mem.wf b.rsp = true)
    (h : ∀ p ∈ ms, Mem.wf p.2.window = true ∧ Mem.wf p.2.rsp = true) :
    ∀ p ∈ ms.set m b, Mem.wf p.2.window = true ∧ Mem.wf p.2.rsp = true := fun p hp => by
  rcases Tab.mem_set hp with hp | rfl
  · exact h p hp
  · exact hb

/-- Every mailbox changed in what is neither window. -/
theorem box_map {ms : Tab Mailbox} {f : Nat × Mailbox → Mailbox}
    (hf : ∀ p : Nat × Mailbox, Mem.wf p.2.window = true ∧ Mem.wf p.2.rsp = true →
      Mem.wf (f p).window = true ∧ Mem.wf (f p).rsp = true)
    (h : ∀ p ∈ ms, Mem.wf p.2.window = true ∧ Mem.wf p.2.rsp = true) :
    ∀ p ∈ ms.map (fun p => (p.1, f p)), Mem.wf p.2.window = true ∧ Mem.wf p.2.rsp = true := fun p hp => by
  obtain ⟨q, hq, rfl⟩ := List.mem_map.mp hp
  exact hf _ (h q hq)

/-- Staged objects changed in what is not their bytes. -/
theorem objs_map {os : List Obj} {f : Obj → Obj} (hf : ∀ o : Obj, (f o).bytes = o.bytes)
    (h : ∀ o ∈ os, Mem.wf o.bytes = true) : ∀ o ∈ os.map f, Mem.wf o.bytes = true := fun o ho => by
  obtain ⟨x, hx, rfl⟩ := List.mem_map.mp ho
  rw [hf]; exact h x hx

/-- Fewer staged objects are canonical where all were. -/
theorem objs_filter {os : List Obj} (p : Obj → Bool) (h : ∀ o ∈ os, Mem.wf o.bytes = true) :
    ∀ o ∈ os.filter p, Mem.wf o.bytes = true := fun o ho => h o (List.mem_of_mem_filter ho)

/-- A staged object with canonical bytes put among the others. -/
theorem objs_put {os : List Obj} {x : Obj} (p : Obj → Bool)
    (hx : (∀ o ∈ os, Mem.wf o.bytes = true) → Mem.wf x.bytes = true) (h : ∀ o ∈ os, Mem.wf o.bytes = true) :
    ∀ o ∈ os.filter p ++ [x], Mem.wf o.bytes = true := fun o ho => by
  rcases List.mem_append.mp ho with ho | ho
  · exact h o (List.mem_of_mem_filter ho)
  · rw [List.mem_singleton.mp ho]; exact hx h

end Sys2Proof.Machine
end

