-- ==== Sys2Proof/Laws/FootViews.lean ====
section
/-! SUPPORT. Laws/FootViews.lean: the footprint of each operation of Machine/Views.lean. -/

set_option linter.unusedTactic false
set_option linter.unreachableTactic false
set_option linter.unusedVariables false

namespace Sys2Proof.Machine

theorem passTime_foot (t : Nat) (s : State) :
    Foot [.pmc] s (passTime t s) := by
  unfold passTime
  repeat' (first
    | with_reducible exact Foot.refl | with_reducible assumption | with_reducible apply Foot.ite
    | with_reducible apply Foot.onPmc | exact rfl | split | dsimp only)

end Sys2Proof.Machine
end

