-- ==== Sys2Proof/Laws/FootOps.lean ====
section
/-! SUPPORT. Laws/FootOps.lean: the footprint of each operation of Machine/Ops.lean. -/

set_option linter.unusedTactic false
set_option linter.unreachableTactic false
set_option linter.unusedVariables false

namespace Sys2Proof.Machine

/-- A wake record changes the wake latch alone. -/
theorem recordWake_same (c t : Nat) (k : Keep) :
    (recordWake c k t).ten = k.ten ∧ (recordWake c k t).capdn = k.capdn ∧ (recordWake c k t).por = k.por ∧
      keepCore (recordWake c k t) = keepCore k := by
  unfold recordWake; split <;> exact ⟨rfl, rfl, rfl, rfl⟩

theorem dropOne_msix (h : HostLink) : (HostLink.dropOne h).msix = h.msix := rfl

theorem hostWait_msix (e : EvEntry) (h : HostLink) : (HostLink.wait e h).msix = h.msix := by
  unfold HostLink.wait; repeat' (first | exact rfl | split)

theorem reach_foot (t : Nat) (s : State) : Foot [.now, .pmc] s (reach t s) :=
  ((passTime_foot t s).mono rfl).setNow rfl (by rw [(passTime_foot t s).same .now rfl]; exact Nat.le_max_left _ _)

theorem draw_foot (s : State) :
    Foot [.free] s (draw s).2 := by
  unfold draw
  repeat' (first
    | with_reducible exact Foot.refl | with_reducible assumption | with_reducible apply Foot.ite
    | with_reducible apply Foot.setFree | exact rfl | split | dsimp only)

theorem emit_foot (o : Output) (s : State) : Foot [.out] s (emit o s) := Foot.refl.emit rfl

theorem countN_foot (ev n : Nat) (s : State) :
    Foot [.pmc] s (countN ev n s) := by
  unfold countN
  repeat' (first
    | with_reducible exact Foot.refl | with_reducible assumption | with_reducible apply Foot.ite
    | with_reducible apply Foot.onPmc | exact rfl | split | dsimp only)

theorem count_foot (ev : Nat) (s : State) :
    Foot [.pmc] s (count ev s) := by
  unfold count
  repeat' (first
    | with_reducible exact Foot.refl | with_reducible assumption | with_reducible apply Foot.ite
    | with_reducible apply Foot.after (countN_foot _ _ _) | exact rfl | split | dsimp only)

theorem countRise_foot (ev : Nat) (s : State) :
    Foot [.pmc] s (countRise ev s) := by
  unfold countRise
  repeat' (first
    | with_reducible exact Foot.refl | with_reducible assumption | with_reducible apply Foot.ite
    | with_reducible apply Foot.onPmc | exact rfl | split | dsimp only)

theorem onLane_foot (n : Nat) (f : Lane → Lane) (s : State) :
    Foot [.spn] s (onLane n f s) := by
  unfold onLane
  repeat' (first
    | with_reducible exact Foot.refl | with_reducible assumption | with_reducible apply Foot.ite
    | with_reducible apply Foot.onSpn | exact rfl | split | dsimp only)

theorem laneCount_foot (l n : Nat) (urgent : Bool) (s : State) :
    Foot [.pmc, .spn] s (laneCount l n urgent s) := by
  unfold laneCount
  repeat' (first
    | with_reducible exact Foot.refl | with_reducible assumption | with_reducible apply Foot.ite
    | with_reducible apply Foot.after (onLane_foot _ _ _) | with_reducible apply Foot.after (countN_foot _ _ _)
    | exact rfl | split | dsimp only)

theorem laneSent_foot (l n : Nat) (urgent : Bool) (s : State) :
    Foot [.pmc, .spn] s (laneSent l n urgent s) := by
  unfold laneSent
  repeat' (first
    | with_reducible exact Foot.refl | with_reducible assumption | with_reducible apply Foot.ite
    | with_reducible apply Foot.after (laneCount_foot _ _ _ _) | exact rfl | split | dsimp only)

theorem bulkSent_foot (n : Nat) (s : State) :
    Foot [.pmc, .spn] s (bulkSent n s) := by
  unfold bulkSent
  repeat' (first
    | with_reducible exact Foot.refl | with_reducible assumption | with_reducible apply Foot.ite
    | with_reducible apply Foot.after (laneSent_foot _ _ _ _) | with_reducible apply Foot.onSpn | exact rfl
    | split | dsimp only)

theorem sendPair_foot (p : Payload) (s : State) :
    Foot [.out, .pmc, .spn] s (sendPair p s) := by
  unfold sendPair
  repeat' (first
    | with_reducible exact Foot.refl | with_reducible assumption | with_reducible apply Foot.ite
    | with_reducible apply Foot.after (bulkSent_foot _ _)
    | with_reducible apply Foot.after (laneSent_foot _ _ _ _) | with_reducible apply Foot.after (emit_foot _ _)
    | with_reducible apply Foot.onSpn | with_reducible apply Foot.emit | exact rfl | split | dsimp only)

theorem sendSpine_foot (dst : Nat) (p : Payload) (s : State) :
    Foot [.out, .pmc, .spn] s (sendSpine dst p s) := by
  unfold sendSpine
  repeat' (first
    | with_reducible exact Foot.refl | with_reducible assumption | with_reducible apply Foot.ite
    | with_reducible apply Foot.after (laneSent_foot _ _ _ _) | with_reducible apply Foot.after (emit_foot _ _)
    | with_reducible apply Foot.onSpn | with_reducible apply Foot.emit | exact rfl | split | dsimp only)

theorem msix_foot (v : Nat) (s : State) :
    Foot [.out, .host] s (msix v s) := by
  unfold msix
  repeat' (first
    | with_reducible exact Foot.refl | with_reducible assumption | with_reducible apply Foot.ite
    | with_reducible apply Foot.after (emit_foot _ _) | with_reducible apply Foot.onHost
    | with_reducible apply Foot.emit | exact rfl | with_reducible exact id | exact fun _ => rfl | exact id
    | split | dsimp only)

theorem wakeCause_foot (code : Nat) (s : State) :
    Foot [.out, .keep, .host] s (wakeCause code s) := by
  unfold wakeCause
  repeat' (first
    | with_reducible exact Foot.refl | with_reducible assumption | with_reducible apply Foot.ite
    | with_reducible apply Foot.after (emit_foot _ _) | with_reducible apply Foot.onKeep
    | with_reducible apply Foot.onHost | with_reducible apply Foot.emit | exact rfl | exact .inl rfl
    | with_reducible exact .inr rfl | with_reducible exact .inr (.inl rfl)
    | with_reducible exact .inr ⟨rfl, rfl⟩ | exact .inr rfl | exact .inr (.inl rfl) | exact .inr ⟨rfl, rfl⟩
    | with_reducible exact id | exact fun _ => rfl | exact id | exact .inr (recordWake_same _ _ _).1
    | exact .inr (.inl (recordWake_same _ _ _).2.1) | exact .inr (recordWake_same _ _ _).2.2.1
    | exact .inr (recordWake_same _ _ _).2.2.2 | split | dsimp only)

theorem logFolio_foot (f : Folio) (s : State) :
    Foot [.log] s (logFolio f s) := by
  unfold logFolio
  repeat' (first
    | with_reducible exact Foot.refl | with_reducible assumption | with_reducible apply Foot.ite
    | with_reducible apply Foot.onLog | exact rfl | split | dsimp only)

theorem addFolio_foot (f : Folio) (s : State) :
    Foot [.out, .keep, .host, .log, .pmc] s (addFolio f s) := by
  unfold addFolio
  repeat' (first
    | with_reducible exact Foot.refl | with_reducible assumption | with_reducible apply Foot.ite
    | with_reducible apply Foot.after (logFolio_foot _ _)
    | with_reducible apply Foot.after (wakeCause_foot _ _) | with_reducible apply Foot.after (count_foot _ _)
    | exact rfl | split | dsimp only)

theorem ringWrite_foot (e : EvEntry) (s : State) :
    Foot [.out, .host, .pmc] s (ringWrite e s) := by
  unfold ringWrite
  repeat' (first
    | with_reducible exact Foot.refl | with_reducible assumption | with_reducible apply Foot.ite
    | with_reducible apply Foot.after (msix_foot _ _) | with_reducible apply Foot.after (count_foot _ _)
    | with_reducible apply Foot.after (emit_foot _ _) | with_reducible apply Foot.onHost
    | with_reducible apply Foot.emit | exact rfl | with_reducible exact id | exact fun _ => rfl | exact id
    | split | dsimp only)

theorem ringEvent_foot (e : EvEntry) (s : State) :
    Foot [.out, .host, .pmc] s (ringEvent e s) := by
  unfold ringEvent
  repeat' (first
    | with_reducible exact Foot.refl | with_reducible assumption | with_reducible apply Foot.ite
    | with_reducible apply Foot.after (ringWrite_foot _ _) | with_reducible apply Foot.after (count_foot _ _)
    | with_reducible apply Foot.onHost | exact rfl | with_reducible exact id | exact fun _ => rfl | exact id
    | exact fun h => (hostWait_msix _ _).symm ▸ h | split | dsimp only)

theorem bareEvent_foot (code : Half) (sev : Nat) (data : List Nat) (cw : DWord) (s : State) :
    Foot [.out, .host, .pmc] s (bareEvent code sev data cw s) := by
  unfold bareEvent
  repeat' (first
    | with_reducible exact Foot.refl | with_reducible assumption | with_reducible apply Foot.ite
    | with_reducible apply Foot.after (ringEvent_foot _ _) | exact rfl | split | dsimp only)

theorem folioEvent_foot (f : Folio) (s : State) :
    Foot [.out, .keep, .host, .log, .pmc] s (folioEvent f s) := by
  unfold folioEvent
  repeat' (first
    | with_reducible exact Foot.refl | with_reducible assumption | with_reducible apply Foot.ite
    | with_reducible apply Foot.after (ringEvent_foot _ _)
    | with_reducible apply Foot.after (addFolio_foot _ _) | exact rfl | split | dsimp only)

theorem thawed_foot (id cause held : Nat) (s : State) :
    Foot [.out, .keep, .host, .log, .pmc, .spn] s (thawed id cause held s) := by
  unfold thawed
  repeat' (first
    | with_reducible exact Foot.refl | with_reducible assumption | with_reducible apply Foot.ite
    | with_reducible apply Foot.after (folioEvent_foot _ _)
    | with_reducible apply Foot.after (sendPair_foot _ _) | exact rfl | split | dsimp only)

theorem reportBreak_foot (l : Logbook) (sev : Nat) (s : State) :
    Foot [.out, .keep, .host, .log, .pmc, .spn] s (reportBreak l sev s) := by
  unfold reportBreak
  repeat' (first
    | with_reducible exact Foot.refl | with_reducible assumption | with_reducible apply Foot.ite
    | with_reducible apply Foot.after (thawed_foot _ _ _ _) | exact rfl | split | dsimp only)

theorem record_foot (code : Half) (sev : Nat) (data : List Nat) (cw : DWord) (s : State) :
    Foot [.out, .keep, .host, .log, .pmc, .spn] s (record code sev data cw s) := by
  unfold record
  repeat' (first
    | with_reducible exact Foot.refl | with_reducible assumption | with_reducible apply Foot.ite
    | with_reducible apply Foot.after (reportBreak_foot _ _ _)
    | with_reducible apply Foot.after (addFolio_foot _ _) | exact rfl | split | dsimp only)

theorem event_foot (code : Half) (sev : Nat) (data : List Nat) (cw : DWord) (ref : Nat) (s : State) :
    Foot [.out, .keep, .host, .log, .pmc, .spn] s (event code sev data cw ref s) := by
  unfold event
  repeat' (first
    | with_reducible exact Foot.refl | with_reducible assumption | with_reducible apply Foot.ite
    | with_reducible apply Foot.after (reportBreak_foot _ _ _)
    | with_reducible apply Foot.after (folioEvent_foot _ _) | exact rfl | split | dsimp only)

theorem tick_foot (s : State) :
    Foot [.now, .out, .host, .pmc] s (tick s) := by
  unfold tick
  repeat' (first
    | with_reducible exact Foot.refl | with_reducible assumption | with_reducible apply Foot.ite
    | with_reducible apply Foot.after (msix_foot _ _) | with_reducible apply Foot.after (reach_foot _ _)
    | with_reducible apply Foot.onHost | exact rfl | with_reducible exact id | exact fun _ => rfl | exact id
    | exact Nat.le_succ _ | split | dsimp only)

theorem respond_foot (m : Nat) (r : Resp) (s : State) :
    Foot [.mbx, .stw] s (respond m r s) := by
  unfold respond
  repeat' (first
    | with_reducible exact Foot.refl | with_reducible assumption | with_reducible apply Foot.ite
    | with_reducible apply Foot.onMbx | with_reducible apply Foot.onStw | exact rfl | with_reducible exact id
    | exact fun _ => rfl | exact id | with_reducible exact box_mod fun _ h => h | exact box_mod fun _ h => h
    | exact fun _ _ h => absurd h List.not_mem_nil | exact objs_filter _ | split | dsimp only)

theorem heal_foot (lo hi : Nat) (s : State) :
    Foot [.qre] s (heal lo hi s) := by
  unfold heal
  repeat' (first
    | with_reducible exact Foot.refl | with_reducible assumption | with_reducible apply Foot.ite
    | with_reducible apply Foot.onQre | exact rfl | split | dsimp only)

theorem binderWrite_foot (a : Nat) (bs : Bytes) (s : State) :
    Foot [.qre, .mem] s (binderWrite a bs s) := by
  unfold binderWrite
  repeat' (first
    | with_reducible exact Foot.refl | with_reducible assumption | with_reducible apply Foot.ite
    | with_reducible apply Foot.after (heal_foot _ _ _) | with_reducible apply Foot.onMem | exact rfl
    | with_reducible exact id | exact fun _ => rfl | exact id | exact fun h => Mem.wf_writeN h _ _ | split
    | dsimp only)

theorem storeSnap_foot (s : State) :
    Foot [.qre, .mem] s (storeSnap s) := by
  unfold storeSnap
  repeat' (first
    | with_reducible exact Foot.refl | with_reducible assumption | with_reducible apply Foot.ite
    | with_reducible apply Foot.after (binderWrite_foot _ _ _) | exact rfl | split | dsimp only)

end Sys2Proof.Machine
end

