-- ==== Sys2Proof/Laws/FootMailOps.lean ====
section
/-! SUPPORT. Laws/FootMailOps.lean: the footprint of each operation of Machine/MailOps.lean. -/

set_option linter.unusedTactic false
set_option linter.unreachableTactic false
set_option linter.unusedVariables false

namespace Sys2Proof.Machine

theorem onBox_foot (m : Nat) (f : Mailbox → Mailbox) (s : State)
    (hf : ∀ b : Mailbox, Mem.wf b.window = true ∧ Mem.wf b.rsp = true → Mem.wf (f b).window = true ∧ Mem.wf (f b).rsp = true) :
    Foot [.mbx] s (onBox m f s) := by
  unfold onBox
  exact Foot.refl.onMbx rfl (box_mod hf)

theorem writePad_foot (m : Nat) (s : State) :
    Foot [.out, .mbx] s (writePad m s) := by
  unfold writePad
  repeat' (first
    | with_reducible exact Foot.refl | with_reducible assumption | with_reducible apply Foot.ite
    | with_reducible apply Foot.after (onBox_foot _ _ _ ?_) | with_reducible exact fun _ h => h
    | with_reducible exact fun _ h => ⟨Mem.wf_writeN h.1 _ _, h.2⟩
    | with_reducible exact fun _ h => ⟨h.1, Mem.wf_writeN h.2 _ _⟩
    | with_reducible exact fun _ h => ⟨Mem.wf_writeN rfl _ _, h.2⟩
    | with_reducible apply Foot.after (emit_foot _ _) | with_reducible apply Foot.emit | exact rfl | split
    | dsimp only)

theorem writeSlot_foot (m : Nat) (r : Resp) (s : State) :
    Foot [.out, .mbx, .host, .pmc] s (writeSlot m r s) := by
  unfold writeSlot
  repeat' (first
    | with_reducible exact Foot.refl | with_reducible assumption | with_reducible apply Foot.ite
    | with_reducible apply Foot.after (onBox_foot _ _ _ ?_) | with_reducible exact fun _ h => h
    | with_reducible exact fun _ h => ⟨Mem.wf_writeN h.1 _ _, h.2⟩
    | with_reducible exact fun _ h => ⟨h.1, Mem.wf_writeN h.2 _ _⟩
    | with_reducible exact fun _ h => ⟨Mem.wf_writeN rfl _ _, h.2⟩
    | with_reducible apply Foot.after (msix_foot _ _) | with_reducible apply Foot.after (count_foot _ _)
    | with_reducible apply Foot.after (emit_foot _ _) | with_reducible apply Foot.emit | exact rfl | split
    | dsimp only)

theorem ringResponse_foot (m : Nat) (s : State) :
    Foot [.out, .mbx, .host, .pmc] s (ringResponse m s) := by
  unfold ringResponse
  repeat' (first
    | with_reducible exact Foot.refl | with_reducible assumption | with_reducible apply Foot.ite
    | with_reducible apply Foot.after (writeSlot_foot _ _ _)
    | with_reducible apply Foot.after (writePad_foot _ _) | exact rfl | split | dsimp only)

theorem sendFragment_foot (pair : Bool) (dst : Nat) (last : Bool) (data : Bytes) (s : State) :
    Foot [.out, .pmc, .spn] s (sendFragment pair dst last data s) := by
  unfold sendFragment
  repeat' (first
    | with_reducible exact Foot.refl | with_reducible assumption | with_reducible apply Foot.ite
    | with_reducible apply Foot.after (sendSpine_foot _ _ _)
    | with_reducible apply Foot.after (sendPair_foot _ _) | with_reducible apply Foot.onSpn | exact rfl | split
    | dsimp only)

theorem sendFragments_foot (pair : Bool) (dst : Nat) (ds : List Bytes) (s : State) :
    Foot [.out, .pmc, .spn] s (sendFragments pair dst ds s) := by
  induction ds generalizing s with
  | nil => exact Foot.refl
  | cons d ds ih =>
    cases ds with
    | nil => exact (sendFragment_foot pair dst true d s).mono rfl
    | cons e es => exact (Foot.refl.then (sendFragment_foot pair dst false d s) rfl).then (ih _) rfl

theorem relayResponse_foot (m : Nat) (r : Resp) (s : State) :
    Foot [.out, .pmc, .spn] s (relayResponse m r s) := by
  unfold relayResponse
  repeat' (first
    | with_reducible exact Foot.refl | with_reducible assumption | with_reducible apply Foot.ite
    | with_reducible apply Foot.after (sendFragments_foot _ _ _ _)
    | with_reducible apply Foot.after (emit_foot _ _) | with_reducible apply Foot.emit | exact rfl | split
    | dsimp only)

theorem deliver_foot (m : Nat) (r : Resp) (s : State) :
    Foot [.out, .pmc, .spn] s (deliver m r s) := by
  unfold deliver
  repeat' (first
    | with_reducible exact Foot.refl | with_reducible assumption | with_reducible apply Foot.ite
    | with_reducible apply Foot.after (relayResponse_foot _ _ _)
    | with_reducible apply Foot.after (emit_foot _ _) | with_reducible apply Foot.emit | exact rfl | split
    | dsimp only)

theorem sendResponse_foot (m : Nat) (s : State) :
    Foot [.out, .mbx, .pmc, .spn] s (sendResponse m s) := by
  unfold sendResponse
  repeat' (first
    | with_reducible exact Foot.refl | with_reducible assumption | with_reducible apply Foot.ite
    | with_reducible apply Foot.after (deliver_foot _ _ _)
    | with_reducible apply Foot.after (onBox_foot _ _ _ ?_) | with_reducible exact fun _ h => h
    | with_reducible exact fun _ h => ⟨Mem.wf_writeN h.1 _ _, h.2⟩
    | with_reducible exact fun _ h => ⟨h.1, Mem.wf_writeN h.2 _ _⟩
    | with_reducible exact fun _ h => ⟨Mem.wf_writeN rfl _ _, h.2⟩
    | with_reducible apply Foot.after (count_foot _ _) | exact rfl | split | dsimp only)

theorem agentResponse_foot (s : State) :
    Foot [.out, .pmc, .stw] s (agentResponse s) := by
  unfold agentResponse
  repeat' (first
    | with_reducible exact Foot.refl | with_reducible assumption | with_reducible apply Foot.ite
    | with_reducible apply Foot.after (count_foot _ _) | with_reducible apply Foot.after (emit_foot _ _)
    | with_reducible apply Foot.onStw | with_reducible apply Foot.emit | exact rfl | with_reducible exact id
    | exact fun _ => rfl | exact id | split | dsimp only)

theorem writeOut_foot (m : Nat) (s : State) :
    Foot [.out, .mbx, .host, .pmc, .spn, .stw] s (writeOut m s) := by
  unfold writeOut
  repeat' (first
    | with_reducible exact Foot.refl | with_reducible assumption | with_reducible apply Foot.ite
    | with_reducible apply Foot.after (agentResponse_foot _)
    | with_reducible apply Foot.after (sendResponse_foot _ _)
    | with_reducible apply Foot.after (ringResponse_foot _ _) | exact rfl | split | dsimp only)

theorem flushBox_foot (m n : Nat) (s : State) : Foot [.out, .mbx, .host, .pmc, .spn, .stw] s (flushBox m n s) := by
  induction n generalizing s with
  | zero => exact Foot.refl
  | succ n ih => exact (writeOut_foot m s).then (ih _) rfl |>.mono rfl

theorem writeAll_foot (m : Nat) (s : State) :
    Foot [.out, .mbx, .host, .pmc, .spn, .stw] s (writeAll m s) := by
  unfold writeAll
  repeat' (first
    | with_reducible exact Foot.refl | with_reducible assumption | with_reducible apply Foot.ite
    | with_reducible apply Foot.after (flushBox_foot _ _ _) | exact rfl | split | dsimp only)

end Sys2Proof.Machine
end

