-- ==== Sys2Proof/Laws/FootLeaveOps.lean ====
section
/-! SUPPORT. Laws/FootLeaveOps.lean: the footprint of each operation of Machine/LeaveOps.lean. -/

set_option linter.unusedTactic false
set_option linter.unreachableTactic false
set_option linter.unusedVariables false

namespace Sys2Proof.Machine

theorem onTray_foot (t : Nat) (f : Tray → Tray) (s : State) :
    Foot [.lv] s (onTray t f s) := by
  unfold onTray
  repeat' (first
    | with_reducible exact Foot.refl | with_reducible assumption | with_reducible apply Foot.ite
    | with_reducible apply Foot.onLv | exact rfl | split | dsimp only)

theorem tellPartner_foot (m : LeaseMsg) (s : State) :
    Foot [.out, .pmc, .spn] s (tellPartner m s) := by
  unfold tellPartner
  repeat' (first
    | with_reducible exact Foot.refl | with_reducible assumption | with_reducible apply Foot.ite
    | with_reducible apply Foot.after (sendPair_foot _ _) | exact rfl | split | dsimp only)

theorem addLease_foot (l : Lease) (s : State) :
    Foot [.out, .pmc, .spn, .lv] s (addLease l s) := by
  unfold addLease
  repeat' (first
    | with_reducible exact Foot.refl | with_reducible assumption | with_reducible apply Foot.ite
    | with_reducible apply Foot.after (tellPartner_foot _ _) | with_reducible apply Foot.onLv | exact rfl
    | split | dsimp only)

theorem endLeaseFor_foot (cap : Option Nat) (id reason : Nat) (s : State) :
    Foot [.out, .mbx, .pmc, .spn, .lv, .stw] s (endLeaseFor cap id reason s) := by
  unfold endLeaseFor
  repeat' (first
    | with_reducible exact Foot.refl | with_reducible assumption | with_reducible apply Foot.ite
    | with_reducible apply Foot.after (tellPartner_foot _ _)
    | with_reducible apply Foot.after (respond_foot _ _ _) | with_reducible apply Foot.after (count_foot _ _)
    | with_reducible apply Foot.onLv | exact rfl | split | dsimp only)

theorem endLease_foot (id reason : Nat) (s : State) :
    Foot [.out, .mbx, .pmc, .spn, .lv, .stw] s (endLease id reason s) := by
  unfold endLease
  repeat' (first
    | with_reducible exact Foot.refl | with_reducible assumption | with_reducible apply Foot.ite
    | with_reducible apply Foot.after (endLeaseFor_foot _ _ _ _) | exact rfl | split | dsimp only)

theorem revokeTray_foot (t reason : Nat) (s : State) :
    Foot [.out, .mbx, .pmc, .spn, .lv, .stw] s (revokeTray t reason s) := by
  unfold revokeTray
  repeat' (first
    | with_reducible exact Foot.refl | with_reducible assumption | with_reducible apply Foot.ite
    | with_reducible refine Foot.foldl ?_ fun v a hv => ?_
    | with_reducible apply Foot.after (endLease_foot _ _ _) | with_reducible apply Foot.after (count_foot _ _)
    | exact rfl | split | dsimp only)

theorem driveCapdn_foot (image : Half) (s : State) :
    Foot [.out, .keep, .pmc, .spn, .core, .capdnFall] s (driveCapdn image s) := by
  unfold driveCapdn
  repeat' (first
    | with_reducible exact Foot.refl | with_reducible assumption | with_reducible apply Foot.ite
    | with_reducible apply Foot.after (tellPartner_foot _ _) | with_reducible apply Foot.onKeep | exact rfl
    | exact .inl rfl | with_reducible exact .inr rfl | with_reducible exact .inr (.inl rfl)
    | with_reducible exact .inr ⟨rfl, rfl⟩ | exact .inr rfl | exact .inr (.inl rfl) | exact .inr ⟨rfl, rfl⟩
    | split | dsimp only)

theorem assertCapdn_foot (t : Nat) (s : State) :
    Foot [.out, .keep, .pmc, .spn, .core] s (assertCapdn t s) := by
  unfold assertCapdn driveCapdn
  refine Foot.ite Foot.refl (Foot.ite Foot.refl ?_)
  exact Foot.after (tellPartner_foot _ _) (Foot.refl.onKeep rfl (.inr rfl)
    (.inr (.inr (by simp only [put16, if_true]; exact andNot_or _ _))) (.inr rfl) (.inl rfl)) rfl

theorem releaseCapdn_foot (t : Nat) (s : State) :
    Foot [.out, .keep, .pmc, .spn, .core, .capdnFall] s (releaseCapdn t s) := by
  unfold releaseCapdn
  repeat' (first
    | with_reducible exact Foot.refl | with_reducible assumption | with_reducible apply Foot.ite
    | with_reducible apply Foot.after (driveCapdn_foot _ _) | exact rfl | split | dsimp only)

theorem capdnRevoke_foot (t reason : Nat) (s : State) :
    Foot [.out, .keep, .mbx, .pmc, .spn, .lv, .stw, .core] s (capdnRevoke t reason s) := by
  unfold capdnRevoke
  repeat' (first
    | with_reducible exact Foot.refl | with_reducible assumption | with_reducible apply Foot.ite
    | with_reducible apply Foot.after (assertCapdn_foot _ _)
    | with_reducible apply Foot.after (revokeTray_foot _ _ _) | exact rfl | split | dsimp only)

theorem queueResume_foot (t : Nat) (s : State) :
    Foot [.lv] s (queueResume t s) := by
  unfold queueResume
  repeat' (first
    | with_reducible exact Foot.refl | with_reducible assumption | with_reducible apply Foot.ite
    | with_reducible apply Foot.onLv | exact rfl | split | dsimp only)

theorem queueResumes_foot (s : State) :
    Foot [.lv] s (queueResumes s) := by
  unfold queueResumes
  repeat' (first
    | with_reducible exact Foot.refl | with_reducible assumption | with_reducible apply Foot.ite
    | with_reducible refine Foot.foldl ?_ fun v a hv => ?_
    | with_reducible apply Foot.after (queueResume_foot _ _) | exact rfl | split | dsimp only)

theorem tagDue_foot (s : State) :
    Foot [.stw] s (tagDue s) := by
  unfold tagDue
  repeat' (first
    | with_reducible exact Foot.refl | with_reducible assumption | with_reducible apply Foot.ite
    | with_reducible apply Foot.onStw | exact rfl | with_reducible exact id | exact fun _ => rfl | exact id
    | split | dsimp only)

theorem driveTen_foot (image : Half) (s : State) :
    Foot [.keep, .stw, .core, .ten] s (driveTen image s) := by
  unfold driveTen
  repeat' (first
    | with_reducible exact Foot.refl | with_reducible assumption | with_reducible apply Foot.ite
    | with_reducible refine Foot.foldl ?_ fun v a hv => ?_ | with_reducible apply Foot.after (tagDue_foot _)
    | with_reducible apply Foot.onKeep | with_reducible apply Foot.onStw | exact rfl | exact .inl rfl
    | with_reducible exact .inr rfl | with_reducible exact .inr (.inl rfl)
    | with_reducible exact .inr ⟨rfl, rfl⟩ | exact .inr rfl | exact .inr (.inl rfl) | exact .inr ⟨rfl, rfl⟩
    | with_reducible exact id | exact fun _ => rfl | exact id | split | dsimp only)

theorem applyTen_foot (image : Half) (s : State) :
    Foot [.keep, .cat, .stw, .core, .ten] s (applyTen image s) := by
  unfold applyTen
  repeat' (first
    | with_reducible exact Foot.refl | with_reducible assumption | with_reducible apply Foot.ite
    | with_reducible apply Foot.after (driveTen_foot _ _) | with_reducible apply Foot.onCat | exact rfl | split
    | dsimp only)

theorem changeTen_foot (t : Nat) (b : Bool) (s : State) :
    Foot [.out, .keep, .cat, .pmc, .spn, .pair, .stw, .core, .ten] s (changeTen t b s) := by
  unfold changeTen
  repeat' (first
    | with_reducible exact Foot.refl | with_reducible assumption | with_reducible apply Foot.ite
    | with_reducible apply Foot.after (applyTen_foot _ _) | with_reducible apply Foot.after (sendPair_foot _ _)
    | with_reducible apply Foot.onPair | exact rfl | split | dsimp only)

end Sys2Proof.Machine
end

