-- ==== Sys2Proof/Laws/FootJournalOps.lean ====
section
/-! SUPPORT. Laws/FootJournalOps.lean: the footprint of each operation of Machine/JournalOps.lean. -/

set_option linter.unusedTactic false
set_option linter.unreachableTactic false
set_option linter.unusedVariables false

namespace Sys2Proof.Machine

theorem dropObj_foot (d : Digest) (s : State) :
    Foot [.stg] s (dropObj d s) := by
  unfold dropObj
  repeat' (first
    | with_reducible exact Foot.refl | with_reducible assumption | with_reducible apply Foot.ite
    | with_reducible apply Foot.onStg | exact rfl | with_reducible exact id | exact fun _ => rfl | exact id
    | exact fun _ _ h => absurd h List.not_mem_nil | exact objs_filter _ | split | dsimp only)

theorem onEntry_foot (j : Nat) (f : JEntry → JEntry) (s : State) :
    Foot [.jr] s (onEntry j f s) := by
  unfold onEntry
  repeat' (first
    | with_reducible exact Foot.refl | with_reducible assumption | with_reducible apply Foot.ite
    | with_reducible apply Foot.onJr | exact rfl | exact .inl rfl | with_reducible exact .inr rfl
    | with_reducible exact .inr (.inl rfl) | with_reducible exact .inr ⟨rfl, rfl⟩ | exact .inr rfl
    | exact .inr (.inl rfl) | exact .inr ⟨rfl, rfl⟩ | with_reducible exact .inr id | exact .inr id | split
    | dsimp only)

theorem sendDone_foot (e : JEntry) (s : State) :
    Foot [.mbx, .stg, .stw] s (sendDone e s) := by
  unfold sendDone
  repeat' (first
    | with_reducible exact Foot.refl | with_reducible assumption | with_reducible apply Foot.ite
    | with_reducible apply Foot.after (dropObj_foot _ _) | with_reducible apply Foot.after (respond_foot _ _ _)
    | exact rfl | split | dsimp only)

theorem scheduleReset_foot (s : State) :
    Foot [.jr, .pair] s (scheduleReset s) := by
  unfold scheduleReset
  repeat' (first
    | with_reducible exact Foot.refl | with_reducible assumption | with_reducible apply Foot.ite
    | with_reducible apply Foot.onJr | with_reducible apply Foot.onPair | exact rfl | exact .inl rfl
    | with_reducible exact .inr rfl | with_reducible exact .inr (.inl rfl)
    | with_reducible exact .inr ⟨rfl, rfl⟩ | exact .inr rfl | exact .inr (.inl rfl) | exact .inr ⟨rfl, rfl⟩
    | with_reducible exact .inr id | exact .inr id | split | dsimp only)

theorem setDone_foot (j : Nat) (s : State) :
    Foot [.mbx, .jr, .stg, .pair, .stw] s (setDone j s) := by
  unfold setDone
  repeat' (first
    | with_reducible exact Foot.refl | with_reducible assumption | with_reducible apply Foot.ite
    | with_reducible apply Foot.after (scheduleReset_foot _)
    | with_reducible apply Foot.after (sendDone_foot _ _)
    | with_reducible apply Foot.after (onEntry_foot _ _ _) | exact rfl | split | dsimp only)

theorem mirror_foot (e : JEntry) (s : State) :
    Foot [.out, .jr, .pmc, .spn] s (mirror e s) := by
  unfold mirror
  repeat' (first
    | with_reducible exact Foot.refl | with_reducible assumption | with_reducible apply Foot.ite
    | with_reducible apply Foot.after (sendPair_foot _ _) | with_reducible apply Foot.after (count_foot _ _)
    | with_reducible apply Foot.onJr | exact rfl | exact .inl rfl | with_reducible exact .inr rfl
    | with_reducible exact .inr (.inl rfl) | with_reducible exact .inr ⟨rfl, rfl⟩ | exact .inr rfl
    | exact .inr (.inl rfl) | exact .inr ⟨rfl, rfl⟩ | with_reducible exact .inr id | exact .inr id | split
    | dsimp only)

theorem finish_foot (j : Nat) (result : Word) (data : Bytes) (s : State) :
    Foot [.out, .mbx, .jr, .stg, .pmc, .spn, .pair, .stw] s (finish j result data s) := by
  unfold finish
  repeat' (first
    | with_reducible exact Foot.refl | with_reducible assumption | with_reducible apply Foot.ite
    | with_reducible apply Foot.after (mirror_foot _ _) | with_reducible apply Foot.after (setDone_foot _ _)
    | with_reducible apply Foot.after (onEntry_foot _ _ _)
    | with_reducible apply Foot.after (sendPair_foot _ _) | exact rfl | split | dsimp only)

theorem finish0_foot (j : Nat) (result : Word) (s : State) :
    Foot [.out, .mbx, .jr, .stg, .pmc, .spn, .pair, .stw] s (finish0 j result s) := by
  unfold finish0
  repeat' (first
    | with_reducible exact Foot.refl | with_reducible assumption | with_reducible apply Foot.ite
    | with_reducible apply Foot.after (finish_foot _ _ _ _) | exact rfl | split | dsimp only)

theorem waitObject_foot (e : JEntry) (s : State) :
    Foot [.out, .jr, .host, .pmc] s (waitObject e s) := by
  unfold waitObject
  repeat' (first
    | with_reducible exact Foot.refl | with_reducible assumption | with_reducible apply Foot.ite
    | with_reducible apply Foot.after (onEntry_foot _ _ _)
    | with_reducible apply Foot.after (bareEvent_foot _ _ _ _ _) | exact rfl | split | dsimp only)

end Sys2Proof.Machine
end

