-- ==== Sys2Proof/Laws/FootResetOps.lean ====
section
/-! SUPPORT. Laws/FootResetOps.lean: the footprint of each operation of Machine/ResetOps.lean. -/

set_option linter.unusedTactic false
set_option linter.unreachableTactic false
set_option linter.unusedVariables false

namespace Sys2Proof.Machine

theorem resetThaw_foot (s : State) :
    Foot [.out, .keep, .host, .log, .pmc, .spn] s (resetThaw s) := by
  unfold resetThaw
  repeat' (first
    | with_reducible exact Foot.refl | with_reducible assumption | with_reducible apply Foot.ite
    | with_reducible apply Foot.after (thawed_foot _ _ _ _) | with_reducible apply Foot.onLog | exact rfl
    | split | dsimp only)

theorem setHandoff_foot (s : State) :
    Foot [.keep, .core] s (setHandoff s) := by
  unfold setHandoff
  repeat' (first
    | with_reducible exact Foot.refl | with_reducible assumption | with_reducible apply Foot.ite
    | with_reducible apply Foot.onKeep | exact rfl | exact .inl rfl | with_reducible exact .inr rfl
    | with_reducible exact .inr (.inl rfl) | with_reducible exact .inr ⟨rfl, rfl⟩ | exact .inr rfl
    | exact .inr (.inl rfl) | exact .inr ⟨rfl, rfl⟩ | split | dsimp only)

theorem storeOff_foot (s : State) :
    Foot [.pwr, .stg, .afe, .mem] s (storeOff s) := by
  unfold storeOff
  repeat' (first
    | with_reducible exact Foot.refl | with_reducible assumption | with_reducible apply Foot.ite
    | with_reducible apply Foot.onPwr | with_reducible apply Foot.onStg | with_reducible apply Foot.onAfe
    | with_reducible apply Foot.onMem | exact rfl | with_reducible exact id | exact fun _ => rfl | exact id
    | exact fun h => Mem.wf_writeN h _ _ | exact fun _ _ h => absurd h List.not_mem_nil | exact objs_filter _
    | split | dsimp only)

theorem dropBelow_foot (l : BelowLease) (result : Word) (s : State) :
    Foot [.out, .keep, .host, .log, .pmc, .spn, .drv] s (dropBelow l result s) := by
  unfold dropBelow
  repeat' (first
    | with_reducible exact Foot.refl | with_reducible assumption | with_reducible apply Foot.ite
    | with_reducible apply Foot.after (event_foot _ _ _ _ _ _) | with_reducible apply Foot.onDrv | exact rfl
    | split | dsimp only)

theorem breakCkpt_foot (s : State) :
    Foot [.cat] s (breakCkpt s) := by
  unfold breakCkpt
  repeat' (first
    | with_reducible exact Foot.refl | with_reducible assumption | with_reducible apply Foot.ite
    | with_reducible apply Foot.onCat | exact rfl | split | dsimp only)

theorem bindDown_foot (dom : Dom) (s : State) :
    Foot [.out, .keep, .cat, .pwr, .boot, .mbx, .jr, .stg, .host, .log, .pmc, .spn, .pair, .lv, .ket, .afe, .drv,
      .can, .qre, .mem, .ep, .pln, .stw, .core]
      s (bindDown dom s) := by
  unfold bindDown
  repeat' (first
    | with_reducible exact Foot.refl | with_reducible assumption | with_reducible apply Foot.ite
    | with_reducible refine Foot.foldl ?_ fun v a hv => ?_ | with_reducible apply Foot.after (breakCkpt_foot _)
    | with_reducible apply Foot.after (dropBelow_foot _ _ _)
    | with_reducible apply Foot.after (storeOff_foot _) | with_reducible apply Foot.after (setHandoff_foot _)
    | with_reducible apply Foot.after (resetThaw_foot _) | with_reducible apply Foot.onKeep
    | with_reducible apply Foot.onPwr | with_reducible apply Foot.onBoot | with_reducible apply Foot.onMbx
    | with_reducible apply Foot.onJr | with_reducible apply Foot.onStg | with_reducible apply Foot.onHost
    | with_reducible apply Foot.onLog | with_reducible apply Foot.onPmc | with_reducible apply Foot.onSpn
    | with_reducible apply Foot.onPair | with_reducible apply Foot.onLv | with_reducible apply Foot.onKet
    | with_reducible apply Foot.onAfe | with_reducible apply Foot.onDrv | with_reducible apply Foot.onCan
    | with_reducible apply Foot.onQre | with_reducible apply Foot.onEp | with_reducible apply Foot.onPln
    | with_reducible apply Foot.onStw | exact rfl | exact .inl rfl | with_reducible exact .inr rfl
    | with_reducible exact .inr (.inl rfl) | with_reducible exact .inr ⟨rfl, rfl⟩ | exact .inr rfl
    | exact .inr (.inl rfl) | exact .inr ⟨rfl, rfl⟩ | with_reducible exact .inr id | exact .inr id
    | with_reducible exact id | exact fun _ => rfl | exact id | exact fun h => Mem.wf_writeN h _ _
    | with_reducible exact box_mod fun _ h => h | exact box_mod fun _ h => h
    | exact fun _ _ h => absurd h List.not_mem_nil | exact objs_filter _ | exact .inr (.inr (andNot_all _))
    | split | dsimp only)

theorem bindReset_foot (src : Nat) (dom : Dom) (s : State) :
    Foot [.out, .keep, .cat, .pwr, .boot, .mbx, .jr, .stg, .host, .log, .pmc, .spn, .pair, .lv, .ket, .afe, .drv,
      .can, .qre, .mem, .ep, .pln, .stw, .core]
      s (bindReset src dom s) := by
  unfold bindReset
  repeat' (first
    | with_reducible exact Foot.refl | with_reducible assumption | with_reducible apply Foot.ite
    | with_reducible apply Foot.after (bindDown_foot _ _)
    | with_reducible apply Foot.after (record_foot _ _ _ _ _) | with_reducible apply Foot.onPwr | exact rfl
    | split | dsimp only)

theorem saveCounters_foot (s : State) :
    Foot [.keep, .core] s (saveCounters s) := by
  unfold saveCounters
  repeat' (first
    | with_reducible exact Foot.refl | with_reducible assumption | with_reducible apply Foot.ite
    | with_reducible apply Foot.onKeep | exact rfl | exact .inl rfl | with_reducible exact .inr rfl
    | with_reducible exact .inr (.inl rfl) | with_reducible exact .inr ⟨rfl, rfl⟩ | exact .inr rfl
    | exact .inr (.inl rfl) | exact .inr ⟨rfl, rfl⟩ | split | dsimp only)

end Sys2Proof.Machine
end

