-- ==== Sys2Proof/Laws/FootPower.lean ====
section
/-! SUPPORT. Laws/FootPower.lean: the footprint of each operation of Machine/Power.lean. -/

set_option linter.unusedTactic false
set_option linter.unreachableTactic false
set_option linter.unusedVariables false

namespace Sys2Proof.Machine

theorem coldKeep_foot (s : State) :
    Foot [.keep, .spn, .ket, .core, .ten, .tripFall, .route] s (coldKeep s) := by
  unfold coldKeep
  repeat' (first
    | with_reducible exact Foot.refl | with_reducible assumption | with_reducible apply Foot.ite
    | with_reducible apply Foot.onKeep | with_reducible apply Foot.onSpn | with_reducible apply Foot.onKet
    | exact rfl | exact .inl rfl | with_reducible exact .inr rfl | with_reducible exact .inr (.inl rfl)
    | with_reducible exact .inr ⟨rfl, rfl⟩ | exact .inr rfl | exact .inr (.inl rfl) | exact .inr ⟨rfl, rfl⟩
    | exact .inr (.inr (andNot_all _)) | split | dsimp only)

theorem railsUp_foot (s : State) :
    Foot [.pwr] s (railsUp s) := by
  unfold railsUp
  repeat' (first
    | with_reducible exact Foot.refl | with_reducible assumption | with_reducible apply Foot.ite
    | with_reducible apply Foot.onPwr | exact rfl | split | dsimp only)

theorem doKeepPorRelease_foot (intact : Bool) (s : State) :
    Foot [.free, .out, .keep, .pwr, .kt, .host, .log, .pmc, .spn, .ket, .core, .ten, .tripFall, .route, .por]
      s (doKeepPorRelease intact s) := by
  unfold doKeepPorRelease
  repeat' (first
    | with_reducible exact Foot.refl | with_reducible assumption | with_reducible apply Foot.ite
    | with_reducible apply Foot.after (railsUp_foot _) | with_reducible apply Foot.after (coldKeep_foot _)
    | with_reducible apply Foot.after (record_foot _ _ _ _ _) | with_reducible apply Foot.after (draw_foot _)
    | with_reducible refine Foot.then ?_ (Foot.of_eq (draw_foot _) (by assumption)) ?_
    | with_reducible apply Foot.onKeep | with_reducible apply Foot.onPwr | with_reducible apply Foot.onKt
    | exact rfl | exact .inl rfl | with_reducible exact .inr rfl | with_reducible exact .inr (.inl rfl)
    | with_reducible exact .inr ⟨rfl, rfl⟩ | exact .inr rfl | exact .inr (.inl rfl) | exact .inr ⟨rfl, rfl⟩
    | split | dsimp only)

theorem fieldOff_foot (s : State) :
    Foot [.pwr, .afe, .drv, .can] s (fieldOff s) := by
  unfold fieldOff
  repeat' (first
    | with_reducible exact Foot.refl | with_reducible assumption | with_reducible apply Foot.ite
    | with_reducible apply Foot.onPwr | with_reducible apply Foot.onAfe | with_reducible apply Foot.onDrv
    | with_reducible apply Foot.onCan | exact rfl | split | dsimp only)

theorem doVkeepFall_foot (s : State) :
    Foot [.out, .keep, .cat, .pwr, .boot, .mbx, .jr, .stg, .host, .log, .pmc, .spn, .pair, .lv, .ket, .afe, .drv,
      .can, .qre, .mem, .ep, .pln, .stw, .core, .por]
      s (doVkeepFall s) := by
  unfold doVkeepFall
  repeat' (first
    | with_reducible exact Foot.refl | with_reducible assumption | with_reducible apply Foot.ite
    | with_reducible apply Foot.after (fieldOff_foot _) | with_reducible apply Foot.after (saveCounters_foot _)
    | with_reducible apply Foot.after (bindDown_foot _ _) | with_reducible apply Foot.onKeep
    | with_reducible apply Foot.onPwr | with_reducible apply Foot.onLog | exact rfl | exact .inl rfl
    | with_reducible exact .inr rfl | with_reducible exact .inr (.inl rfl)
    | with_reducible exact .inr ⟨rfl, rfl⟩ | exact .inr rfl | exact .inr (.inl rfl) | exact .inr ⟨rfl, rfl⟩
    | split | dsimp only)

theorem doHourMeterSave_foot (s : State) :
    Foot [.now, .keep, .pmc, .core] s (doHourMeterSave s) := by
  unfold doHourMeterSave
  repeat' (first
    | with_reducible exact Foot.refl | with_reducible assumption | with_reducible apply Foot.ite
    | with_reducible apply Foot.after (saveCounters_foot _) | with_reducible apply Foot.after (reach_foot _ _)
    | with_reducible apply Foot.onKeep | exact rfl | exact .inl rfl | with_reducible exact .inr rfl
    | with_reducible exact .inr (.inl rfl) | with_reducible exact .inr ⟨rfl, rfl⟩ | exact .inr rfl
    | exact .inr (.inl rfl) | exact .inr ⟨rfl, rfl⟩ | split | dsimp only)

theorem doRailLoss_foot (s : State) :
    Foot [.out, .keep, .cat, .pwr, .boot, .mbx, .jr, .stg, .host, .log, .pmc, .spn, .pair, .lv, .ket, .afe, .drv,
      .can, .qre, .mem, .ep, .pln, .stw, .core]
      s (doRailLoss s) := by
  unfold doRailLoss
  repeat' (first
    | with_reducible exact Foot.refl | with_reducible assumption | with_reducible apply Foot.ite
    | with_reducible apply Foot.after (fieldOff_foot _) | with_reducible apply Foot.after (saveCounters_foot _)
    | with_reducible apply Foot.after (bindReset_foot _ _ _) | with_reducible apply Foot.onPwr | exact rfl
    | split | dsimp only)

theorem doRailsGood_foot (s : State) :
    Foot [.pwr] s (doRailsGood s) := by
  unfold doRailsGood
  repeat' (first
    | with_reducible exact Foot.refl | with_reducible assumption | with_reducible apply Foot.ite
    | with_reducible apply Foot.after (railsUp_foot _) | with_reducible apply Foot.onPwr | exact rfl | split
    | dsimp only)

theorem setBoot_foot (b : BootState) (s : State) :
    Foot [.out, .boot] s (setBoot b s) := by
  unfold setBoot
  repeat' (first
    | with_reducible exact Foot.refl | with_reducible assumption | with_reducible apply Foot.ite
    | with_reducible apply Foot.after (emit_foot _ _) | with_reducible apply Foot.onBoot
    | with_reducible apply Foot.emit | exact rfl | with_reducible exact id | exact fun _ => rfl | exact id
    | exact fun h => Mem.wf_writeN h _ _ | split | dsimp only)

theorem linkL0_foot (s : State) :
    Foot [.out, .keep, .host] s (linkL0 s) := by
  unfold linkL0
  repeat' (first
    | with_reducible exact Foot.refl | with_reducible assumption | with_reducible apply Foot.ite
    | with_reducible apply Foot.after (emit_foot _ _) | with_reducible apply Foot.onKeep
    | with_reducible apply Foot.onHost | with_reducible apply Foot.emit | exact rfl | exact .inl rfl
    | with_reducible exact .inr rfl | with_reducible exact .inr (.inl rfl)
    | with_reducible exact .inr ⟨rfl, rfl⟩ | exact .inr rfl | exact .inr (.inl rfl) | exact .inr ⟨rfl, rfl⟩
    | with_reducible exact id | exact fun _ => rfl | exact id | split | dsimp only)

theorem doBindResetRelease_foot (straps : Straps) (catchOk : Bool) (s : State) :
    Foot [.now, .out, .keep, .pwr, .boot, .jr, .host, .log, .pmc, .spn, .storeFault]
      s (doBindResetRelease straps catchOk s) := by
  unfold doBindResetRelease
  repeat' (first
    | with_reducible exact Foot.refl | with_reducible assumption | with_reducible apply Foot.ite
    | with_reducible apply Foot.after (linkL0_foot _) | with_reducible apply Foot.after (setBoot_foot _ _)
    | with_reducible apply Foot.after (record_foot _ _ _ _ _)
    | with_reducible apply Foot.after (reach_foot _ _) | with_reducible apply Foot.onPwr
    | with_reducible apply Foot.onBoot | with_reducible apply Foot.onJr | with_reducible apply Foot.onHost
    | with_reducible apply Foot.onPmc | exact rfl | exact .inl rfl | with_reducible exact .inr rfl
    | with_reducible exact .inr (.inl rfl) | with_reducible exact .inr ⟨rfl, rfl⟩ | exact .inr rfl
    | exact .inr (.inl rfl) | exact .inr ⟨rfl, rfl⟩ | with_reducible exact .inr id | exact .inr id
    | with_reducible exact id | exact fun _ => rfl | exact id | exact fun h => Mem.wf_writeN h _ _ | split
    | dsimp only)

theorem doFieldPowerUp_foot (s : State) :
    Foot [.now, .pwr, .pmc] s (doFieldPowerUp s) := by
  unfold doFieldPowerUp
  repeat' (first
    | with_reducible exact Foot.refl | with_reducible assumption | with_reducible apply Foot.ite
    | with_reducible apply Foot.after (reach_foot _ _) | with_reducible apply Foot.onPwr | exact rfl | split
    | dsimp only)

theorem doSysRstNLow_foot (s : State) :
    Foot [.out, .keep, .cat, .pwr, .boot, .mbx, .jr, .stg, .host, .log, .pmc, .spn, .pair, .lv, .ket, .afe, .drv,
      .can, .qre, .mem, .ep, .pln, .stw, .core]
      s (doSysRstNLow s) := by
  unfold doSysRstNLow
  repeat' (first
    | with_reducible exact Foot.refl | with_reducible assumption | with_reducible apply Foot.ite
    | with_reducible apply Foot.after (bindReset_foot _ _ _) | exact rfl | split | dsimp only)

theorem doSpnHandoffExpiry_foot (s : State) :
    Foot [.now, .keep, .kt, .pmc, .core, .role] s (doSpnHandoffExpiry s) := by
  unfold doSpnHandoffExpiry
  repeat' (first
    | with_reducible exact Foot.refl | with_reducible assumption | with_reducible apply Foot.ite
    | with_reducible apply Foot.after (reach_foot _ _) | with_reducible apply Foot.onKeep
    | with_reducible apply Foot.onKt | exact rfl | exact .inl rfl | with_reducible exact .inr rfl
    | with_reducible exact .inr (.inl rfl) | with_reducible exact .inr ⟨rfl, rfl⟩ | exact .inr rfl
    | exact .inr (.inl rfl) | exact .inr ⟨rfl, rfl⟩ | split | dsimp only)

theorem shortReset_foot (src : Nat) (s : State) :
    Foot [.out, .keep, .cat, .pwr, .boot, .mbx, .jr, .stg, .host, .log, .pmc, .spn, .pair, .lv, .ket, .afe, .drv,
      .can, .qre, .mem, .ep, .pln, .stw, .core]
      s (shortReset src s) := by
  unfold shortReset
  repeat' (first
    | with_reducible exact Foot.refl | with_reducible assumption | with_reducible apply Foot.ite
    | with_reducible apply Foot.after (bindReset_foot _ _ _) | with_reducible apply Foot.onPwr | exact rfl
    | split | dsimp only)

theorem doLockstepMismatch_foot (s : State) :
    Foot [.out, .keep, .cat, .pwr, .boot, .mbx, .jr, .stg, .host, .log, .pmc, .spn, .pair, .lv, .ket, .afe, .drv,
      .can, .qre, .mem, .ep, .pln, .stw, .core]
      s (doLockstepMismatch s) := by
  unfold doLockstepMismatch
  repeat' (first
    | with_reducible exact Foot.refl | with_reducible assumption | with_reducible apply Foot.ite
    | with_reducible apply Foot.after (shortReset_foot _ _) | exact rfl | split | dsimp only)

theorem doBinderWatchdogExpiry_foot (s : State) :
    Foot [.now, .out, .keep, .cat, .pwr, .boot, .mbx, .jr, .stg, .host, .log, .pmc, .spn, .pair, .lv, .ket, .afe,
      .drv, .can, .qre, .mem, .ep, .pln, .stw, .core]
      s (doBinderWatchdogExpiry s) := by
  unfold doBinderWatchdogExpiry
  repeat' (first
    | with_reducible exact Foot.refl | with_reducible assumption | with_reducible apply Foot.ite
    | with_reducible apply Foot.after (shortReset_foot _ _) | with_reducible apply Foot.after (reach_foot _ _)
    | exact rfl | split | dsimp only)

theorem doXinLoss_foot (s : State) :
    Foot [.out, .keep, .cat, .pwr, .boot, .mbx, .jr, .stg, .host, .log, .pmc, .spn, .pair, .lv, .ket, .afe, .drv,
      .can, .qre, .mem, .ep, .pln, .stw, .core]
      s (doXinLoss s) := by
  unfold doXinLoss
  repeat' (first
    | with_reducible exact Foot.refl | with_reducible assumption | with_reducible apply Foot.ite
    | with_reducible apply Foot.after (bindReset_foot _ _ _)
    | with_reducible apply Foot.after (record_foot _ _ _ _ _) | with_reducible apply Foot.onPwr
    | with_reducible apply Foot.onAfe | with_reducible apply Foot.onCan | exact rfl | split | dsimp only)

theorem fclkBack_foot (s : State) :
    Foot [.pwr, .afe, .can] s (fclkBack s) := by
  unfold fclkBack
  repeat' (first
    | with_reducible exact Foot.refl | with_reducible assumption | with_reducible apply Foot.ite
    | with_reducible apply Foot.onPwr | with_reducible apply Foot.onAfe | with_reducible apply Foot.onCan
    | exact rfl | split | dsimp only)

theorem doXinReturn_foot (s : State) :
    Foot [.now, .pwr, .pmc, .afe, .can] s (doXinReturn s) := by
  unfold doXinReturn
  repeat' (first
    | with_reducible exact Foot.refl | with_reducible assumption | with_reducible apply Foot.ite
    | with_reducible apply Foot.after (fclkBack_foot _) | with_reducible apply Foot.after (reach_foot _ _)
    | with_reducible apply Foot.onPwr | exact rfl | split | dsimp only)

theorem doFclkSwitchBack_foot (s : State) :
    Foot [.now, .pwr, .pmc, .afe, .can] s (doFclkSwitchBack s) := by
  unfold doFclkSwitchBack
  repeat' (first
    | with_reducible exact Foot.refl | with_reducible assumption | with_reducible apply Foot.ite
    | with_reducible apply Foot.after (fclkBack_foot _) | with_reducible apply Foot.after (reach_foot _ _)
    | exact rfl | split | dsimp only)

theorem doKxinCrystalFail_foot (s : State) :
    Foot [.now, .keep, .pmc, .core] s (doKxinCrystalFail s) := by
  unfold doKxinCrystalFail
  repeat' (first
    | with_reducible exact Foot.refl | with_reducible assumption | with_reducible apply Foot.ite
    | with_reducible apply Foot.after (reach_foot _ _) | with_reducible apply Foot.onKeep | exact rfl
    | exact .inl rfl | with_reducible exact .inr rfl | with_reducible exact .inr (.inl rfl)
    | with_reducible exact .inr ⟨rfl, rfl⟩ | exact .inr rfl | exact .inr (.inl rfl) | exact .inr ⟨rfl, rfl⟩
    | split | dsimp only)

theorem doKxinCrystalRun_foot (s : State) :
    Foot [.now, .keep, .pmc, .core] s (doKxinCrystalRun s) := by
  unfold doKxinCrystalRun
  repeat' (first
    | with_reducible exact Foot.refl | with_reducible assumption | with_reducible apply Foot.ite
    | with_reducible apply Foot.after (reach_foot _ _) | with_reducible apply Foot.onKeep | exact rfl
    | exact .inl rfl | with_reducible exact .inr rfl | with_reducible exact .inr (.inl rfl)
    | with_reducible exact .inr ⟨rfl, rfl⟩ | exact .inr rfl | exact .inr (.inl rfl) | exact .inr ⟨rfl, rfl⟩
    | split | dsimp only)

theorem doDieOvertemp_foot (temp : Int) (s : State) :
    Foot [.out, .keep, .cat, .pwr, .boot, .mbx, .jr, .stg, .host, .log, .pmc, .spn, .pair, .lv, .ket, .afe, .drv,
      .can, .qre, .mem, .ep, .pln, .stw, .core]
      s (doDieOvertemp temp s) := by
  unfold doDieOvertemp
  repeat' (first
    | with_reducible exact Foot.refl | with_reducible assumption | with_reducible apply Foot.ite
    | with_reducible apply Foot.after (fieldOff_foot _) | with_reducible apply Foot.after (saveCounters_foot _)
    | with_reducible apply Foot.after (bindReset_foot _ _ _) | with_reducible apply Foot.onPwr | exact rfl
    | split | dsimp only)

theorem doDieTempReturn_foot (peak : Int) (s : State) :
    Foot [.now, .out, .keep, .pwr, .host, .log, .pmc, .spn] s (doDieTempReturn peak s) := by
  unfold doDieTempReturn
  repeat' (first
    | with_reducible exact Foot.refl | with_reducible assumption | with_reducible apply Foot.ite
    | with_reducible apply Foot.after (event_foot _ _ _ _ _ _)
    | with_reducible apply Foot.after (reach_foot _ _) | with_reducible apply Foot.onPwr | exact rfl | split
    | dsimp only)

theorem perstRegs_foot (s : State) :
    Foot [.host, .pmc] s (perstRegs s) := by
  unfold perstRegs
  repeat' (first
    | with_reducible exact Foot.refl | with_reducible assumption | with_reducible apply Foot.ite
    | with_reducible apply Foot.onHost | with_reducible apply Foot.onPmc | exact rfl | with_reducible exact id
    | exact fun _ => rfl | exact id | split | dsimp only)

theorem sendNet_foot (port dst ty block count : Nat) (data : Bytes) (s : State) :
    Foot [.out, .pmc] s (sendNet port dst ty block count data s) := by
  unfold sendNet
  repeat' (first
    | with_reducible exact Foot.refl | with_reducible assumption | with_reducible apply Foot.ite
    | with_reducible apply Foot.after (count_foot _ _) | with_reducible apply Foot.after (emit_foot _ _)
    | with_reducible apply Foot.emit | exact rfl | split | dsimp only)

theorem bootFail_foot (code : Nat) (s : State) :
    Foot [.out, .keep, .boot, .host, .log, .pmc, .spn] s (bootFail code s) := by
  unfold bootFail
  repeat' (first
    | with_reducible exact Foot.refl | with_reducible assumption | with_reducible apply Foot.ite
    | with_reducible apply Foot.after (sendNet_foot _ _ _ _ _ _ _)
    | with_reducible apply Foot.after (setBoot_foot _ _)
    | with_reducible apply Foot.after (record_foot _ _ _ _ _) | with_reducible apply Foot.after (msix_foot _ _)
    | with_reducible apply Foot.onBoot | exact rfl | with_reducible exact id | exact fun _ => rfl | exact id
    | exact fun h => Mem.wf_writeN h _ _ | split | dsimp only)

theorem doPerstAssert_foot (s : State) :
    Foot [.out, .keep, .boot, .mbx, .host, .log, .pmc, .spn] s (doPerstAssert s) := by
  unfold doPerstAssert
  repeat' (first
    | with_reducible exact Foot.refl | with_reducible assumption | with_reducible apply Foot.ite
    | with_reducible apply Foot.after (bootFail_foot _ _) | with_reducible apply Foot.after (perstRegs_foot _)
    | with_reducible apply Foot.onBoot | with_reducible apply Foot.onMbx | exact rfl | with_reducible exact id
    | exact fun _ => rfl | exact id | exact fun h => Mem.wf_writeN h _ _
    | with_reducible exact box_mod fun _ h => h | exact box_mod fun _ h => h
    | exact fun _ _ h => absurd h List.not_mem_nil | exact objs_filter _
    | exact fun h => box_set ⟨rfl, rfl⟩ (box_set ⟨rfl, rfl⟩ h) | split | dsimp only)

theorem doPerstRelease_foot (s : State) :
    Foot [.out, .keep, .host] s (doPerstRelease s) := by
  unfold doPerstRelease
  repeat' (first
    | with_reducible exact Foot.refl | with_reducible assumption | with_reducible apply Foot.ite
    | with_reducible apply Foot.after (linkL0_foot _) | with_reducible apply Foot.onHost | exact rfl
    | with_reducible exact id | exact fun _ => rfl | exact id | split | dsimp only)

theorem doPcieLinkDown_foot (s : State) :
    Foot [.out, .keep, .boot, .host, .log, .pmc, .spn] s (doPcieLinkDown s) := by
  unfold doPcieLinkDown
  repeat' (first
    | with_reducible exact Foot.refl | with_reducible assumption | with_reducible apply Foot.ite
    | with_reducible apply Foot.after (bootFail_foot _ _) | with_reducible apply Foot.onHost | exact rfl
    | with_reducible exact id | exact fun _ => rfl | exact id | split | dsimp only)

theorem doHostLinkL0_foot (s : State) :
    Foot [.out, .keep, .host] s (doHostLinkL0 s) := by
  unfold doHostLinkL0
  repeat' (first
    | with_reducible exact Foot.refl | with_reducible assumption | with_reducible apply Foot.ite
    | with_reducible apply Foot.after (linkL0_foot _) | exact rfl | split | dsimp only)

theorem doPcieDStateChange_foot (d : DState) (msix : Bool) (s : State) :
    Foot [.out, .host] s (doPcieDStateChange d msix s) := by
  unfold doPcieDStateChange
  repeat' (first
    | with_reducible exact Foot.refl | with_reducible assumption | with_reducible apply Foot.ite
    | with_reducible apply Foot.after (msix_foot _ _) | with_reducible apply Foot.onHost | exact rfl
    | with_reducible exact id | exact fun _ => rfl | exact id | split | dsimp only)

theorem doStoreSwitchOn_foot (s : State) :
    Foot [.pwr] s (doStoreSwitchOn s) := by
  unfold doStoreSwitchOn
  repeat' (first
    | with_reducible exact Foot.refl | with_reducible assumption | with_reducible apply Foot.ite
    | with_reducible apply Foot.onPwr | exact rfl | split | dsimp only)

theorem doStoreReady_foot (s : State) :
    Foot [.pwr, .stg, .qre, .mem] s (doStoreReady s) := by
  unfold doStoreReady
  repeat' (first
    | with_reducible exact Foot.refl | with_reducible assumption | with_reducible apply Foot.ite
    | with_reducible apply Foot.onPwr | with_reducible apply Foot.onStg | with_reducible apply Foot.onQre
    | with_reducible apply Foot.onMem | exact rfl | with_reducible exact id | exact fun _ => rfl | exact id
    | exact fun h => Mem.wf_writeN h _ _ | exact fun _ _ h => absurd h List.not_mem_nil | exact objs_filter _
    | exact objs_map fun _ => rfl | split | dsimp only)

theorem setHalf_foot (h : Nat) (v : HalfState) (s : State) :
    Foot [.out, .keep, .pwr, .host, .log, .pmc, .spn] s (setHalf h v s) := by
  unfold setHalf
  repeat' (first
    | with_reducible exact Foot.refl | with_reducible assumption | with_reducible apply Foot.ite
    | with_reducible apply Foot.after (event_foot _ _ _ _ _ _) | with_reducible apply Foot.onPwr | exact rfl
    | split | dsimp only)

theorem endHalfLease_foot (half : Nat) (s : State) :
    Foot [.out, .mbx, .pmc, .spn, .lv, .stw] s (endHalfLease half s) := by
  unfold endHalfLease
  repeat' (first
    | with_reducible exact Foot.refl | with_reducible assumption | with_reducible apply Foot.ite
    | with_reducible apply Foot.after (endLease_foot _ _ _) | exact rfl | split | dsimp only)

theorem reapplyEpochs_foot (s : State) :
    Foot [.jr] s (reapplyEpochs s) := by
  unfold reapplyEpochs
  repeat' (first
    | with_reducible exact Foot.refl | with_reducible assumption | with_reducible apply Foot.ite
    | with_reducible apply Foot.onJr | exact rfl | exact .inl rfl | with_reducible exact .inr rfl
    | with_reducible exact .inr (.inl rfl) | with_reducible exact .inr ⟨rfl, rfl⟩ | exact .inr rfl
    | exact .inr (.inl rfl) | exact .inr ⟨rfl, rfl⟩ | with_reducible exact .inr id | exact .inr id | split
    | dsimp only)

theorem doStoreSwitchOff_foot (s : State) :
    Foot [.out, .keep, .pwr, .mbx, .jr, .stg, .host, .log, .pmc, .spn, .lv, .afe, .qre, .mem, .ep, .pln, .stw]
      s (doStoreSwitchOff s) := by
  unfold doStoreSwitchOff
  repeat' (first
    | with_reducible exact Foot.refl | with_reducible assumption | with_reducible apply Foot.ite
    | with_reducible apply Foot.after (reapplyEpochs_foot _)
    | with_reducible apply Foot.after (endHalfLease_foot _ _)
    | with_reducible apply Foot.after (setHalf_foot _ _ _) | with_reducible apply Foot.after (storeOff_foot _)
    | with_reducible apply Foot.onQre | with_reducible apply Foot.onEp | with_reducible apply Foot.onPln
    | exact rfl | split | dsimp only)

theorem powerHalf_foot (h : Nat) (s : State) :
    Foot [.out, .keep, .pwr, .host, .log, .pmc, .spn] s (powerHalf h s) := by
  unfold powerHalf
  repeat' (first
    | with_reducible exact Foot.refl | with_reducible assumption | with_reducible apply Foot.ite
    | with_reducible apply Foot.after (setHalf_foot _ _ _) | with_reducible apply Foot.onPwr | exact rfl
    | split | dsimp only)

theorem reportUnset_foot (s : State) :
    Foot [.out, .keep, .host, .log, .pmc, .spn, .lv] s (reportUnset s) := by
  unfold reportUnset
  repeat' (first
    | with_reducible exact Foot.refl | with_reducible assumption | with_reducible apply Foot.ite
    | with_reducible apply Foot.after (event_foot _ _ _ _ _ _) | with_reducible apply Foot.onLv | exact rfl
    | split | dsimp only)

theorem grantInternal_foot (kind owner watts ms : Nat) (s : State) :
    Foot [.out, .pmc, .spn, .lv] s (grantInternal kind owner watts ms s) := by
  unfold grantInternal
  repeat' (first
    | with_reducible exact Foot.refl | with_reducible assumption | with_reducible apply Foot.ite
    | with_reducible apply Foot.after (addLease_foot _ _) | exact rfl | split | dsimp only)

theorem needWaits_foot (watts : Nat) (s : State) :
    Foot [.lv] s (needWaits watts s) := by
  unfold needWaits
  repeat' (first
    | with_reducible exact Foot.refl | with_reducible assumption | with_reducible apply Foot.ite
    | with_reducible apply Foot.onLv | exact rfl | split | dsimp only)

theorem waitLeave_foot (kind owner watts ms defer : Nat) (s : State) :
    Foot [.lv] s (waitLeave kind owner watts ms defer s) := by
  unfold waitLeave
  repeat' (first
    | with_reducible exact Foot.refl | with_reducible assumption | with_reducible apply Foot.ite
    | with_reducible refine Foot.foldl ?_ fun v a hv => ?_
    | with_reducible apply Foot.after (needWaits_foot _ _) | with_reducible apply Foot.onLv | exact rfl | split
    | dsimp only)

theorem askHalf_foot (h : Nat) (s : State) :
    Foot [.out, .keep, .pwr, .host, .log, .pmc, .spn, .lv] s (askHalf h s) := by
  unfold askHalf
  repeat' (first
    | with_reducible exact Foot.refl | with_reducible assumption | with_reducible apply Foot.ite
    | with_reducible apply Foot.after (waitLeave_foot _ _ _ _ _ _)
    | with_reducible apply Foot.after (grantInternal_foot _ _ _ _ _)
    | with_reducible apply Foot.after (reportUnset_foot _)
    | with_reducible apply Foot.after (powerHalf_foot _ _) | exact rfl | split | dsimp only)

theorem doQuireHalfSwitchOn_foot (half : Fin 2) (s : State) :
    Foot [.out, .keep, .pwr, .host, .log, .pmc, .spn, .lv] s (doQuireHalfSwitchOn half s) := by
  unfold doQuireHalfSwitchOn
  repeat' (first
    | with_reducible exact Foot.refl | with_reducible assumption | with_reducible apply Foot.ite
    | with_reducible apply Foot.after (askHalf_foot _ _) | exact rfl | split | dsimp only)

theorem doQuireHalfReady_foot (half : Fin 2) (s : State) :
    Foot [.out, .keep, .pwr, .host, .log, .pmc, .spn] s (doQuireHalfReady half s) := by
  unfold doQuireHalfReady
  repeat' (first
    | with_reducible exact Foot.refl | with_reducible assumption | with_reducible apply Foot.ite
    | with_reducible apply Foot.after (setHalf_foot _ _ _) | with_reducible apply Foot.onPwr | exact rfl
    | split | dsimp only)

theorem doQuireHalfSwitchOff_foot (half : Fin 2) (s : State) :
    Foot [.out, .keep, .pwr, .mbx, .host, .log, .pmc, .spn, .lv, .qre, .stw] s (doQuireHalfSwitchOff half s) := by
  unfold doQuireHalfSwitchOff
  repeat' (first
    | with_reducible exact Foot.refl | with_reducible assumption | with_reducible apply Foot.ite
    | with_reducible apply Foot.after (endHalfLease_foot _ _)
    | with_reducible apply Foot.after (setHalf_foot _ _ _) | with_reducible apply Foot.onQre | exact rfl
    | split | dsimp only)

end Sys2Proof.Machine
end

