-- ==== Sys2Proof/Laws/FootBringup.lean ====
section
/-! SUPPORT. Laws/FootBringup.lean: the footprint of each operation of Machine/Bringup.lean. -/

set_option linter.unusedTactic false
set_option linter.unreachableTactic false
set_option linter.unusedVariables false

namespace Sys2Proof.Machine

theorem readHost_foot (rs : List (Nat × Nat)) (s : State) :
    Foot [.out] s (readHost rs s) := by
  unfold readHost
  repeat' (first
    | with_reducible exact Foot.refl | with_reducible assumption | with_reducible apply Foot.ite
    | with_reducible refine Foot.foldl ?_ fun v a hv => ?_ | with_reducible apply Foot.after (emit_foot _ _)
    | with_reducible apply Foot.emit | exact rfl | split | dsimp only)

theorem doMbxBootStart_foot (list : List Scatter) (s : State) :
    Foot [.out, .keep, .boot, .host, .log, .pmc, .spn] s (doMbxBootStart list s) := by
  unfold doMbxBootStart
  repeat' (first
    | with_reducible exact Foot.refl | with_reducible assumption | with_reducible apply Foot.ite
    | with_reducible apply Foot.after (readHost_foot _ _) | with_reducible apply Foot.after (bootFail_foot _ _)
    | with_reducible apply Foot.after (setBoot_foot _ _) | with_reducible apply Foot.onBoot | exact rfl
    | with_reducible exact id | exact fun _ => rfl | exact id | exact fun h => Mem.wf_writeN h _ _ | split
    | dsimp only)

theorem doMbxBootAbort_foot (s : State) :
    Foot [.out, .keep, .boot, .host, .log, .pmc, .spn] s (doMbxBootAbort s) := by
  unfold doMbxBootAbort
  repeat' (first
    | with_reducible exact Foot.refl | with_reducible assumption | with_reducible apply Foot.ite
    | with_reducible apply Foot.after (bootFail_foot _ _) | exact rfl | split | dsimp only)

theorem lastByte_foot (s : State) :
    Foot [.out, .keep, .boot, .host, .log, .pmc, .spn] s (lastByte s) := by
  unfold lastByte
  repeat' (first
    | with_reducible exact Foot.refl | with_reducible assumption | with_reducible apply Foot.ite
    | with_reducible apply Foot.after (bootFail_foot _ _) | with_reducible apply Foot.after (setBoot_foot _ _)
    | with_reducible apply Foot.onBoot | exact rfl | exact id | split | dsimp only)

theorem bytesIn_foot (o : Nat) (data : Bytes) (s : State) :
    Foot [.out, .keep, .boot, .host, .log, .pmc, .spn] s (bytesIn o data s) := by
  unfold bytesIn
  repeat' (first
    | with_reducible exact Foot.refl | with_reducible assumption | with_reducible apply Foot.ite
    | with_reducible apply Foot.after (lastByte_foot _) | with_reducible apply Foot.after (readHost_foot _ _)
    | with_reducible apply Foot.after (bootFail_foot _ _) | with_reducible apply Foot.onBoot | exact rfl
    | with_reducible exact id | exact fun _ => rfl | exact id | exact fun h => Mem.wf_writeN h _ _ | split
    | dsimp only)

theorem doBootDmaCompletion_foot (c : BootDma) (s : State) :
    Foot [.out, .keep, .boot, .host, .log, .pmc, .spn] s (doBootDmaCompletion c s) := by
  unfold doBootDmaCompletion
  repeat' (first
    | with_reducible exact Foot.refl | with_reducible assumption | with_reducible apply Foot.ite
    | with_reducible apply Foot.after (bytesIn_foot _ _ _)
    | with_reducible apply Foot.after (bootFail_foot _ _) | exact rfl | split | dsimp only)

theorem doBootCheckDone_foot (us : Nat) (s : State) :
    Foot [.now, .out, .keep, .boot, .host, .log, .pmc, .spn] s (doBootCheckDone us s) := by
  unfold doBootCheckDone
  repeat' (first
    | with_reducible apply Foot.after (reach_foot _ _)
    | with_reducible exact Foot.refl | with_reducible assumption | with_reducible apply Foot.ite
    | with_reducible apply Foot.after (bootFail_foot _ _)
    | with_reducible apply Foot.after (sendNet_foot _ _ _ _ _ _ _)
    | with_reducible apply Foot.after (setBoot_foot _ _) | with_reducible apply Foot.after (msix_foot _ _)
    | with_reducible apply Foot.onBoot | exact rfl | with_reducible exact id | exact fun _ => rfl | exact id
    | exact fun h => Mem.wf_writeN h _ _ | split | dsimp only)

theorem doBootFailedReturn_foot (s : State) :
    Foot [.out, .boot] s (doBootFailedReturn s) := by
  unfold doBootFailedReturn
  repeat' (first
    | with_reducible exact Foot.refl | with_reducible assumption | with_reducible apply Foot.ite
    | with_reducible apply Foot.after (setBoot_foot _ _) | with_reducible apply Foot.onBoot | exact rfl
    | with_reducible exact id | exact fun _ => rfl | exact id | exact fun h => Mem.wf_writeN h _ _ | split
    | dsimp only)

theorem doNetbootSolicit_foot (s : State) :
    Foot [.now, .out, .boot, .pmc] s (doNetbootSolicit s) := by
  unfold doNetbootSolicit
  repeat' (first
    | with_reducible exact Foot.refl | with_reducible assumption | with_reducible apply Foot.ite
    | with_reducible apply Foot.after (sendNet_foot _ _ _ _ _ _ _)
    | with_reducible apply Foot.after (reach_foot _ _) | with_reducible apply Foot.onBoot | exact rfl
    | with_reducible exact id | exact fun _ => rfl | exact id | exact fun h => Mem.wf_writeN h _ _ | split
    | dsimp only)

theorem requestWindow_foot (w : Nat) (s : State) :
    Foot [.out, .boot, .pmc] s (requestWindow w s) := by
  unfold requestWindow
  repeat' (first
    | with_reducible exact Foot.refl | with_reducible assumption | with_reducible apply Foot.ite
    | with_reducible apply Foot.after (sendNet_foot _ _ _ _ _ _ _) | with_reducible apply Foot.onBoot
    | exact rfl | with_reducible exact id | exact fun _ => rfl | exact id | exact fun h => Mem.wf_writeN h _ _
    | split | dsimp only)

theorem doNetbootOffer_foot (port : Fin 2) (src dst : Nat) (type : Half) (frame : Bytes) (s : State) :
    Foot [.out, .boot, .pmc] s (doNetbootOffer port src dst type frame s) := by
  unfold doNetbootOffer
  repeat' (first
    | with_reducible exact Foot.refl | with_reducible assumption | with_reducible apply Foot.ite
    | with_reducible apply Foot.after (requestWindow_foot _ _)
    | with_reducible apply Foot.after (setBoot_foot _ _) | with_reducible apply Foot.onBoot | exact rfl
    | with_reducible exact id | exact fun _ => rfl | exact id | exact fun h => Mem.wf_writeN h _ _ | split
    | dsimp only)

theorem blockIn_foot (block : Nat) (data : Bytes) (s : State) :
    Foot [.out, .keep, .boot, .host, .log, .pmc, .spn] s (blockIn block data s) := by
  unfold blockIn
  repeat' (first
    | with_reducible exact Foot.refl | with_reducible assumption | with_reducible apply Foot.ite
    | with_reducible apply Foot.after (requestWindow_foot _ _)
    | with_reducible apply Foot.after (bytesIn_foot _ _ _) | with_reducible apply Foot.onBoot | exact rfl
    | with_reducible exact id | exact fun _ => rfl | exact id | exact fun h => Mem.wf_writeN h _ _ | split
    | dsimp only)

theorem doNetbootData_foot (port : Fin 2) (src : Nat) (type : Half) (frame : Bytes) (s : State) :
    Foot [.out, .keep, .boot, .host, .log, .pmc, .spn] s (doNetbootData port src type frame s) := by
  unfold doNetbootData
  repeat' (first
    | with_reducible exact Foot.refl | with_reducible assumption | with_reducible apply Foot.ite
    | with_reducible apply Foot.after (blockIn_foot _ _ _) | exact rfl | split | dsimp only)

theorem doNetbootRequestTimeout_foot (s : State) :
    Foot [.now, .out, .keep, .boot, .host, .log, .pmc, .spn] s (doNetbootRequestTimeout s) := by
  unfold doNetbootRequestTimeout
  repeat' (first
    | with_reducible exact Foot.refl | with_reducible assumption | with_reducible apply Foot.ite
    | with_reducible refine Foot.foldl ?_ fun v a hv => ?_
    | with_reducible apply Foot.after (bootFail_foot _ _)
    | with_reducible apply Foot.after (sendNet_foot _ _ _ _ _ _ _)
    | with_reducible apply Foot.after (reach_foot _ _) | with_reducible apply Foot.onBoot | exact rfl
    | with_reducible exact id | exact fun _ => rfl | exact id | exact fun h => Mem.wf_writeN h _ _ | split
    | dsimp only)

theorem doNetbootCancel_foot (port : Fin 2) (hdr : EthHdr) (frame : Bytes) (s : State) :
    Foot [.out, .keep, .boot, .host, .log, .pmc, .spn] s (doNetbootCancel port hdr frame s) := by
  unfold doNetbootCancel
  repeat' (first
    | with_reducible exact Foot.refl | with_reducible assumption | with_reducible apply Foot.ite
    | with_reducible apply Foot.after (bootFail_foot _ _) | exact rfl | split | dsimp only)

theorem doMgmtLinkLoss_foot (port : Fin 2) (s : State) :
    Foot [.out, .keep, .boot, .host, .log, .pmc, .spn] s (doMgmtLinkLoss port s) := by
  unfold doMgmtLinkLoss
  repeat' (first
    | with_reducible exact Foot.refl | with_reducible assumption | with_reducible apply Foot.ite
    | with_reducible apply Foot.after (bootFail_foot _ _) | exact rfl | split | dsimp only)

theorem doNetbootEligible_foot (s : State) :
    Foot [.now, .boot, .pmc] s (doNetbootEligible s) := by
  unfold doNetbootEligible
  repeat' (first
    | with_reducible exact Foot.refl | with_reducible assumption | with_reducible apply Foot.ite
    | with_reducible apply Foot.after (reach_foot _ _) | with_reducible apply Foot.onBoot | exact rfl
    | with_reducible exact id | exact fun _ => rfl | exact id | exact fun h => Mem.wf_writeN h _ _ | split
    | dsimp only)

theorem doResetExecute_foot (s : State) :
    Foot [.now, .out, .keep, .cat, .pwr, .boot, .mbx, .jr, .stg, .host, .log, .pmc, .spn, .pair, .lv, .ket, .afe,
      .drv, .can, .qre, .mem, .ep, .pln, .stw, .core]
      s (doResetExecute s) := by
  unfold doResetExecute
  repeat' (first
    | with_reducible exact Foot.refl | with_reducible assumption | with_reducible apply Foot.ite
    | with_reducible refine Foot.foldl ?_ fun v a hv => ?_
    | with_reducible apply Foot.after (shortReset_foot _ _)
    | with_reducible apply Foot.after (writeOut_foot _ _) | with_reducible apply Foot.after (reach_foot _ _)
    | with_reducible apply Foot.onSpn | exact rfl | split | dsimp only)

end Sys2Proof.Machine
end

