-- ==== Sys2Proof/Laws/FootLeaveFx.lean ====
section
/-! SUPPORT. Laws/FootLeaveFx.lean: the footprint of each operation of Machine/LeaveFx.lean. -/

set_option linter.unusedTactic false
set_option linter.unreachableTactic false
set_option linter.unusedVariables false

namespace Sys2Proof.Machine

theorem targetView_foot (s : State) :
    Foot [.lv] s (targetView s) := by
  unfold targetView
  repeat' (first
    | with_reducible exact Foot.refl | with_reducible assumption | with_reducible apply Foot.ite
    | with_reducible refine Foot.foldl ?_ fun v a hv => ?_ | with_reducible apply Foot.onLv | exact rfl | split
    | dsimp only)

theorem checkOver_foot (s : State) :
    Foot [.out, .keep, .host, .log, .pmc, .spn, .lv] s (checkOver s) := by
  unfold checkOver
  repeat' (first
    | with_reducible exact Foot.refl | with_reducible assumption | with_reducible apply Foot.ite
    | with_reducible apply Foot.after (event_foot _ _ _ _ _ _) | with_reducible apply Foot.onLv | exact rfl
    | split | dsimp only)

theorem endStart_foot (t : Nat) (result : Word) (s : State) :
    Foot [.out, .mbx, .jr, .stg, .pmc, .spn, .pair, .lv, .stw] s (endStart t result s) := by
  unfold endStart
  repeat' (first
    | with_reducible exact Foot.refl | with_reducible assumption | with_reducible apply Foot.ite
    | with_reducible apply Foot.after (finish0_foot _ _ _)
    | with_reducible apply Foot.after (onTray_foot _ _ _) | with_reducible apply Foot.onLv | exact rfl | split
    | dsimp only)

theorem settleStop_foot (t : Nat) (s : State) :
    Foot [.out, .mbx, .jr, .stg, .pmc, .spn, .pair, .lv, .stw] s (settleStop t s) := by
  unfold settleStop
  repeat' (first
    | with_reducible exact Foot.refl | with_reducible assumption | with_reducible apply Foot.ite
    | with_reducible refine Foot.foldl ?_ fun v a hv => ?_
    | with_reducible apply Foot.after (finish0_foot _ _ _)
    | with_reducible apply Foot.after (onTray_foot _ _ _) | exact rfl | split | dsimp only)

theorem afterTen_foot (s : State) :
    Foot [.out, .mbx, .jr, .stg, .pmc, .spn, .pair, .lv, .stw] s (afterTen s) := by
  unfold afterTen
  repeat' (first
    | with_reducible exact Foot.refl | with_reducible assumption | with_reducible apply Foot.ite
    | with_reducible refine Foot.foldl ?_ fun v a hv => ?_
    | with_reducible apply Foot.after (settleStop_foot _ _) | with_reducible apply Foot.onLv | exact rfl
    | split | dsimp only)

theorem control_foot (t op arg : Nat) (s : State) :
    Foot [.out, .stw] s (control t op arg s) := by
  unfold control
  repeat' (first
    | with_reducible exact Foot.refl | with_reducible assumption | with_reducible apply Foot.ite
    | with_reducible apply Foot.after (emit_foot _ _) | with_reducible apply Foot.onStw
    | with_reducible apply Foot.emit | exact rfl | with_reducible exact id | exact fun _ => rfl | exact id
    | split | dsimp only)

theorem clearEnabled_foot (t : Nat) (s : State) :
    Foot [.out, .keep, .cat, .mbx, .jr, .stg, .pmc, .spn, .pair, .lv, .stw, .core, .ten] s (clearEnabled t s) := by
  unfold clearEnabled
  repeat' (first
    | with_reducible exact Foot.refl | with_reducible assumption | with_reducible apply Foot.ite
    | with_reducible apply Foot.after (afterTen_foot _)
    | with_reducible apply Foot.after (changeTen_foot _ _ _)
    | with_reducible apply Foot.after (onTray_foot _ _ _) | exact rfl | split | dsimp only)

theorem stopTray_foot (t mode j : Nat) (s : State) :
    Foot [.out, .keep, .mbx, .jr, .stg, .pmc, .spn, .pair, .lv, .stw, .core] s (stopTray t mode j s) := by
  unfold stopTray
  repeat' (first
    | with_reducible exact Foot.refl | with_reducible assumption | with_reducible apply Foot.ite
    | with_reducible apply Foot.after (control_foot _ _ _ _)
    | with_reducible apply Foot.after (settleStop_foot _ _)
    | with_reducible apply Foot.after (endStart_foot _ _ _)
    | with_reducible apply Foot.after (capdnRevoke_foot _ _ _)
    | with_reducible apply Foot.after (onTray_foot _ _ _) | exact rfl | split | dsimp only)

theorem trimLease_foot (l : Lease) (s : State) :
    Foot [.out, .mbx, .pmc, .spn, .lv, .stw] s (trimLease l s) := by
  unfold trimLease
  repeat' (first
    | with_reducible exact Foot.refl | with_reducible assumption | with_reducible apply Foot.ite
    | with_reducible apply Foot.after (tellPartner_foot _ _)
    | with_reducible apply Foot.after (respond_foot _ _ _) | with_reducible apply Foot.onLv | exact rfl | split
    | dsimp only)

theorem trimTray_foot (t : Nat) (s : State) :
    Foot [.out, .mbx, .pmc, .spn, .lv, .stw] s (trimTray t s) := by
  unfold trimTray
  repeat' (first
    | with_reducible exact Foot.refl | with_reducible assumption | with_reducible apply Foot.ite
    | with_reducible refine Foot.foldl ?_ fun v a hv => ?_
    | with_reducible apply Foot.after (trimLease_foot _ _) | exact rfl | split | dsimp only)

theorem endHold_foot (t : Nat) (result : Word) (s : State) :
    Foot [.out, .mbx, .jr, .stg, .pmc, .spn, .pair, .lv, .stw] s (endHold t result s) := by
  unfold endHold
  repeat' (first
    | with_reducible exact Foot.refl | with_reducible assumption | with_reducible apply Foot.ite
    | with_reducible apply Foot.after (finish0_foot _ _ _)
    | with_reducible apply Foot.after (onTray_foot _ _ _) | exact rfl | split | dsimp only)

theorem preempt_foot (t : Nat) (s : State) :
    Foot [.out, .keep, .cat, .mbx, .jr, .stg, .pmc, .spn, .pair, .lv, .stw, .core, .ten] s (preempt t s) := by
  unfold preempt
  repeat' (first
    | with_reducible exact Foot.refl | with_reducible assumption | with_reducible apply Foot.ite
    | with_reducible apply Foot.after (afterTen_foot _)
    | with_reducible apply Foot.after (changeTen_foot _ _ _)
    | with_reducible apply Foot.after (endStart_foot _ _ _) | exact rfl | split | dsimp only)

theorem afterLimits_foot (t : Nat) (rm : Bool) (old : Tray) (s : State) :
    Foot [.out, .keep, .cat, .mbx, .jr, .stg, .pmc, .spn, .pair, .lv, .stw, .core, .ten] s (afterLimits t rm old s) := by
  unfold afterLimits
  repeat' (first
    | with_reducible exact Foot.refl | with_reducible assumption | with_reducible apply Foot.ite
    | with_reducible apply Foot.after (preempt_foot _ _)
    | with_reducible apply Foot.after (trimTray_foot _ _)
    | with_reducible apply Foot.after (stopTray_foot _ _ _ _)
    | with_reducible apply Foot.after (queueResume_foot _ _)
    | with_reducible apply Foot.after (capdnRevoke_foot _ _ _) | exact rfl | split | dsimp only)

/-- Where no command of the rack manager lowers a limit no start is pre-empted, and TEN stays. -/
theorem afterLimits_lift_foot (t : Nat) (old : Tray) (s : State) :
    Foot [.out, .keep, .mbx, .jr, .stg, .pmc, .spn, .pair, .lv, .stw, .core] s (afterLimits t false old s) := by
  simp only [afterLimits, Bool.false_and, Bool.false_eq_true, ↓reduceIte]
  repeat' (first
    | with_reducible exact Foot.refl | with_reducible assumption | with_reducible apply Foot.ite
    | with_reducible apply Foot.after (trimTray_foot _ _)
    | with_reducible apply Foot.after (stopTray_foot _ _ _ _)
    | with_reducible apply Foot.after (queueResume_foot _ _)
    | with_reducible apply Foot.after (capdnRevoke_foot _ _ _) | exact rfl | split | dsimp only)

theorem fxTrayStart_foot (e : JEntry) (s : State) :
    Foot [.out, .mbx, .jr, .stg, .pmc, .spn, .pair, .lv, .stw] s (fxTrayStart e s) := by
  unfold fxTrayStart
  repeat' (first
    | with_reducible exact Foot.refl | with_reducible assumption | with_reducible apply Foot.ite
    | with_reducible apply Foot.after (endStart_foot _ _ _)
    | with_reducible apply Foot.after (finish0_foot _ _ _)
    | with_reducible apply Foot.after (onTray_foot _ _ _) | with_reducible apply Foot.onLv | exact rfl | split
    | dsimp only)

theorem fxTrayStop_foot (e : JEntry) (s : State) :
    Foot [.out, .keep, .mbx, .jr, .stg, .pmc, .spn, .pair, .lv, .stw, .core] s (fxTrayStop e s) := by
  unfold fxTrayStop
  repeat' (first
    | with_reducible exact Foot.refl | with_reducible assumption | with_reducible apply Foot.ite
    | with_reducible apply Foot.after (endHold_foot _ _ _)
    | with_reducible apply Foot.after (stopTray_foot _ _ _ _)
    | with_reducible apply Foot.after (onTray_foot _ _ _) | with_reducible apply Foot.onStw | exact rfl
    | with_reducible exact id | exact fun _ => rfl | exact id | split | dsimp only)

theorem fxTrayCapSet_foot (e : JEntry) (s : State) :
    Foot [.out, .keep, .cat, .mbx, .jr, .stg, .pmc, .spn, .pair, .lv, .stw, .core, .ten] s (fxTrayCapSet e s) := by
  unfold fxTrayCapSet
  repeat' (first
    | with_reducible exact Foot.refl | with_reducible assumption | with_reducible apply Foot.ite
    | with_reducible apply Foot.after (afterLimits_foot _ _ _ _)
    | with_reducible apply Foot.after (endHold_foot _ _ _)
    | with_reducible apply Foot.after (finish0_foot _ _ _)
    | with_reducible apply Foot.after (onTray_foot _ _ _) | exact rfl | split | dsimp only)

theorem fxPermitSet_foot (e : JEntry) (s : State) :
    Foot [.out, .keep, .cat, .mbx, .jr, .stg, .pmc, .spn, .pair, .lv, .stw, .core, .ten] s (fxPermitSet e s) := by
  unfold fxPermitSet
  repeat' (first
    | with_reducible exact Foot.refl | with_reducible assumption | with_reducible apply Foot.ite
    | with_reducible refine Foot.foldl ?_ fun v a hv => ?_ | with_reducible apply Foot.after (preempt_foot _ _)
    | with_reducible apply Foot.after (finish0_foot _ _ _)
    | with_reducible apply Foot.after (onTray_foot _ _ _) | exact rfl | split | dsimp only)

theorem fxHoldSet_foot (e : JEntry) (s : State) :
    Foot [.out, .keep, .cat, .mbx, .jr, .stg, .pmc, .spn, .pair, .lv, .stw, .core, .ten] s (fxHoldSet e s) := by
  unfold fxHoldSet
  repeat' (first
    | with_reducible exact Foot.refl | with_reducible assumption | with_reducible apply Foot.ite
    | with_reducible apply Foot.after (afterLimits_foot _ _ _ _)
    | with_reducible apply Foot.after (endHold_foot _ _ _)
    | with_reducible apply Foot.after (finish0_foot _ _ _)
    | with_reducible apply Foot.after (onTray_foot _ _ _) | exact rfl | split | dsimp only)

theorem fxBudgetSet_foot (e : JEntry) (s : State) :
    Foot [.out, .keep, .kt, .mbx, .jr, .stg, .host, .log, .pmc, .spn, .pair, .lv, .stw, .budget]
      s (fxBudgetSet e s) := by
  unfold fxBudgetSet
  repeat' (first
    | with_reducible exact Foot.refl | with_reducible assumption | with_reducible apply Foot.ite
    | with_reducible apply Foot.after (checkOver_foot _) | with_reducible apply Foot.after (finish0_foot _ _ _)
    | with_reducible apply Foot.onKt | with_reducible apply Foot.onLv | exact rfl | exact .inl rfl
    | with_reducible exact .inr rfl | with_reducible exact .inr (.inl rfl)
    | with_reducible exact .inr ⟨rfl, rfl⟩ | exact .inr rfl | exact .inr (.inl rfl) | exact .inr ⟨rfl, rfl⟩
    | split | dsimp only)

theorem fxRowBudgetSet_foot (e : JEntry) (s : State) :
    Foot [.out, .kt, .mbx, .jr, .stg, .pmc, .spn, .pair, .stw] s (fxRowBudgetSet e s) := by
  unfold fxRowBudgetSet
  repeat' (first
    | with_reducible exact Foot.refl | with_reducible assumption | with_reducible apply Foot.ite
    | with_reducible apply Foot.after (finish0_foot _ _ _) | with_reducible apply Foot.onKt | exact rfl
    | exact .inl rfl | with_reducible exact .inr rfl | with_reducible exact .inr (.inl rfl)
    | with_reducible exact .inr ⟨rfl, rfl⟩ | exact .inr rfl | exact .inr (.inl rfl) | exact .inr ⟨rfl, rfl⟩
    | split | dsimp only)

theorem applyShare_foot (j w : Nat) (s : State) :
    Foot [.out, .keep, .mbx, .jr, .stg, .host, .log, .pmc, .spn, .pair, .lv, .stw] s (applyShare j w s) := by
  unfold applyShare
  repeat' (first
    | with_reducible exact Foot.refl | with_reducible assumption | with_reducible apply Foot.ite
    | with_reducible apply Foot.after (checkOver_foot _) | with_reducible apply Foot.after (finish0_foot _ _ _)
    | with_reducible apply Foot.after (event_foot _ _ _ _ _ _) | with_reducible apply Foot.onLv | exact rfl
    | split | dsimp only)

theorem applyShares_foot (s : State) :
    Foot [.out, .keep, .mbx, .jr, .stg, .host, .log, .pmc, .spn, .pair, .lv, .stw] s (applyShares s) := by
  unfold applyShares
  repeat' (first
    | with_reducible exact Foot.refl | with_reducible assumption | with_reducible apply Foot.ite
    | with_reducible refine Foot.foldl ?_ fun v a hv => ?_
    | with_reducible apply Foot.after (applyShare_foot _ _ _) | with_reducible apply Foot.onLv | exact rfl
    | split | dsimp only)

theorem fxRowShareSet_foot (e : JEntry) (s : State) :
    Foot [.out, .keep, .mbx, .jr, .stg, .host, .log, .pmc, .spn, .pair, .lv, .stw] s (fxRowShareSet e s) := by
  unfold fxRowShareSet
  repeat' (first
    | with_reducible exact Foot.refl | with_reducible assumption | with_reducible apply Foot.ite
    | with_reducible apply Foot.after (applyShares_foot _)
    | with_reducible apply Foot.after (finish0_foot _ _ _) | with_reducible apply Foot.onLv | exact rfl | split
    | dsimp only)

theorem fxStaggerSet_foot (e : JEntry) (s : State) :
    Foot [.out, .kt, .mbx, .jr, .stg, .pmc, .spn, .pair, .stw] s (fxStaggerSet e s) := by
  unfold fxStaggerSet
  repeat' (first
    | with_reducible exact Foot.refl | with_reducible assumption | with_reducible apply Foot.ite
    | with_reducible apply Foot.after (finish0_foot _ _ _) | with_reducible apply Foot.onKt | exact rfl
    | exact .inl rfl | with_reducible exact .inr rfl | with_reducible exact .inr (.inl rfl)
    | with_reducible exact .inr ⟨rfl, rfl⟩ | exact .inr rfl | exact .inr (.inl rfl) | exact .inr ⟨rfl, rfl⟩
    | split | dsimp only)

theorem grantLease_foot (i cap ms : Nat) (cw : DWord) (s : State) :
    Foot [.out, .mbx, .pmc, .spn, .lv, .stw] s (grantLease i cap ms cw s) := by
  unfold grantLease
  repeat' (first
    | with_reducible exact Foot.refl | with_reducible assumption | with_reducible apply Foot.ite
    | with_reducible apply Foot.after (endLeaseFor_foot _ _ _ _)
    | with_reducible apply Foot.after (addLease_foot _ _)
    | with_reducible apply Foot.after (respond_foot _ _ _) | exact rfl | split | dsimp only)

theorem answerLeave_foot (t : Nat) (cw : DWord) (b : Bytes) (s : State) :
    Foot [.out, .mbx, .pmc, .spn, .lv, .stw] s (answerLeave t cw b s) := by
  unfold answerLeave
  repeat' (first
    | with_reducible exact Foot.refl | with_reducible assumption | with_reducible apply Foot.ite
    | with_reducible apply Foot.after (grantLease_foot _ _ _ _ _)
    | with_reducible apply Foot.after (respond_foot _ _ _) | with_reducible apply Foot.after (count_foot _ _)
    | with_reducible apply Foot.onLv | exact rfl | split | dsimp only)

theorem leaveRequest_foot (len : Nat) (cw : DWord) (b : Bytes) (s : State) :
    Foot [.out, .mbx, .pmc, .spn, .lv, .stw] s (leaveRequest len cw b s) := by
  unfold leaveRequest
  repeat' (first
    | with_reducible exact Foot.refl | with_reducible assumption | with_reducible apply Foot.ite
    | with_reducible apply Foot.after (answerLeave_foot _ _ _ _)
    | with_reducible apply Foot.after (tellPartner_foot _ _)
    | with_reducible apply Foot.after (respond_foot _ _ _) | with_reducible apply Foot.after (count_foot _ _)
    | with_reducible apply Foot.onLv | exact rfl | split | dsimp only)

theorem leaveReturn_foot (len : Nat) (cw : DWord) (b : Bytes) (s : State) :
    Foot [.out, .mbx, .pmc, .spn, .lv, .stw] s (leaveReturn len cw b s) := by
  unfold leaveReturn
  repeat' (first
    | with_reducible exact Foot.refl | with_reducible assumption | with_reducible apply Foot.ite
    | with_reducible apply Foot.after (tellPartner_foot _ _)
    | with_reducible apply Foot.after (respond_foot _ _ _) | with_reducible apply Foot.after (count_foot _ _)
    | with_reducible apply Foot.onLv | exact rfl | split | dsimp only)

end Sys2Proof.Machine
end

