-- ==== Sys2Proof/Laws/FootSteward.lean ====
section
/-! SUPPORT. Laws/FootSteward.lean: the footprint of each operation of Machine/Steward.lean. -/

set_option linter.unusedTactic false
set_option linter.unreachableTactic false
set_option linter.unusedVariables false

namespace Sys2Proof.Machine

theorem readDesc_foot (t : Nat) (d : Bytes) (s : State) :
    Foot [.out, .keep, .host, .log, .pmc, .spn, .stw] s (readDesc t d s) := by
  unfold readDesc
  repeat' (first
    | with_reducible exact Foot.refl | with_reducible assumption | with_reducible apply Foot.ite
    | with_reducible apply Foot.after (event_foot _ _ _ _ _ _) | with_reducible apply Foot.onStw | exact rfl
    | with_reducible exact id | exact fun _ => rfl | exact id | split | dsimp only)

theorem adoptAll_foot (s : State) :
    Foot [.out, .keep, .host, .log, .pmc, .spn, .stw] s (adoptAll s) := by
  unfold adoptAll
  repeat' (first
    | with_reducible exact Foot.refl | with_reducible assumption | with_reducible apply Foot.ite
    | with_reducible refine Foot.foldl ?_ fun v a hv => ?_ | with_reducible apply Foot.after (tagDue_foot _)
    | with_reducible apply Foot.after (event_foot _ _ _ _ _ _) | with_reducible apply Foot.onStw | exact rfl
    | with_reducible exact id | exact fun _ => rfl | exact id | split | dsimp only)

theorem onAgent_foot (t : Nat) (f : Agent → Agent) (s : State) :
    Foot [.stw] s (onAgent t f s) := by
  unfold onAgent
  repeat' (first
    | with_reducible exact Foot.refl | with_reducible assumption | with_reducible apply Foot.ite
    | with_reducible apply Foot.onStw | exact rfl | with_reducible exact id | exact fun _ => rfl | exact id
    | split | dsimp only)

theorem setLink_foot (t : Nat) (v : LinkSt) (s : State) :
    Foot [.out, .keep, .host, .log, .pmc, .spn, .stw] s (setLink t v s) := by
  unfold setLink
  repeat' (first
    | with_reducible exact Foot.refl | with_reducible assumption | with_reducible apply Foot.ite
    | with_reducible apply Foot.after (onAgent_foot _ _ _)
    | with_reducible apply Foot.after (event_foot _ _ _ _ _ _) | exact rfl | split | dsimp only)

theorem fxGoldenStore_foot (e : JEntry) (s : State) :
    Foot [.out, .jr, .host, .pmc, .stw] s (fxGoldenStore e s) := by
  unfold fxGoldenStore
  repeat' (first
    | with_reducible exact Foot.refl | with_reducible assumption | with_reducible apply Foot.ite
    | with_reducible apply Foot.after (waitObject_foot _ _) | with_reducible apply Foot.onStw | exact rfl
    | with_reducible exact id | exact fun _ => rfl | exact id | split | dsimp only)

theorem doGoldenWriteDone_foot (ok : Bool) (s : State) :
    Foot [.out, .mbx, .jr, .stg, .pmc, .spn, .pair, .stw] s (doGoldenWriteDone ok s) := by
  unfold doGoldenWriteDone
  repeat' (first
    | with_reducible exact Foot.refl | with_reducible assumption | with_reducible apply Foot.ite
    | with_reducible refine Foot.foldl ?_ fun v a hv => ?_
    | with_reducible apply Foot.after (finish0_foot _ _ _) | with_reducible apply Foot.onStw | exact rfl
    | with_reducible exact id | exact fun _ => rfl | exact id | split | dsimp only)

theorem slotBad_foot (n : Nat) (s : State) :
    Foot [.out, .keep, .host, .log, .pmc, .spn, .stw] s (slotBad n s) := by
  unfold slotBad
  repeat' (first
    | with_reducible exact Foot.refl | with_reducible assumption | with_reducible apply Foot.ite
    | with_reducible apply Foot.after (event_foot _ _ _ _ _ _) | with_reducible apply Foot.onStw | exact rfl
    | with_reducible exact id | exact fun _ => rfl | exact id | split | dsimp only)

theorem doGoldenScrub_foot (slot : Fin 8) (ok : Bool) (s : State) :
    Foot [.now, .out, .keep, .host, .log, .pmc, .spn, .stw] s (doGoldenScrub slot ok s) := by
  unfold doGoldenScrub
  repeat' (first
    | with_reducible exact Foot.refl | with_reducible assumption | with_reducible apply Foot.ite
    | with_reducible apply Foot.after (slotBad_foot _ _) | with_reducible apply Foot.after (reach_foot _ _)
    | with_reducible apply Foot.onStw | exact rfl | with_reducible exact id | exact fun _ => rfl | exact id
    | split | dsimp only)

theorem startRebind_foot (s : State) :
    Foot [.stw] s (startRebind s) := by
  unfold startRebind
  repeat' (first
    | with_reducible exact Foot.refl | with_reducible assumption | with_reducible apply Foot.ite
    | with_reducible apply Foot.onStw | exact rfl | with_reducible exact id | exact fun _ => rfl | exact id
    | split | dsimp only)

theorem fxRebind_foot (e : JEntry) (s : State) :
    Foot [.out, .keep, .pmc, .spn, .stw, .core] s (fxRebind e s) := by
  unfold fxRebind
  repeat' (first
    | with_reducible exact Foot.refl | with_reducible assumption | with_reducible apply Foot.ite
    | with_reducible apply Foot.after (startRebind_foot _)
    | with_reducible apply Foot.after (assertCapdn_foot _ _) | with_reducible apply Foot.onStw | exact rfl
    | with_reducible exact id | exact fun _ => rfl | exact id | split | dsimp only)

theorem endRebind_foot (result : Word) (s : State) :
    Foot [.out, .keep, .mbx, .jr, .stg, .host, .log, .pmc, .spn, .pair, .lv, .stw] s (endRebind result s) := by
  unfold endRebind
  repeat' (first
    | with_reducible exact Foot.refl | with_reducible assumption | with_reducible apply Foot.ite
    | with_reducible apply Foot.after (startRebind_foot _)
    | with_reducible apply Foot.after (finish0_foot _ _ _) | with_reducible apply Foot.after (tagDue_foot _)
    | with_reducible apply Foot.after (queueResume_foot _ _)
    | with_reducible apply Foot.after (endLease_foot _ _ _)
    | with_reducible apply Foot.after (event_foot _ _ _ _ _ _) | with_reducible apply Foot.onLv
    | with_reducible apply Foot.onStw | exact rfl | with_reducible exact id | exact fun _ => rfl | exact id
    | split | dsimp only)

theorem abortRebind_foot (t : Nat) (s : State) :
    Foot [.out, .keep, .mbx, .jr, .stg, .host, .log, .pmc, .spn, .pair, .lv, .stw] s (abortRebind t s) := by
  unfold abortRebind
  repeat' (first
    | with_reducible exact Foot.refl | with_reducible assumption | with_reducible apply Foot.ite
    | with_reducible refine Foot.foldl ?_ fun v a hv => ?_
    | with_reducible apply Foot.after (endRebind_foot _ _)
    | with_reducible apply Foot.after (finish0_foot _ _ _) | with_reducible apply Foot.onStw | exact rfl
    | with_reducible exact id | exact fun _ => rfl | exact id | split | dsimp only)

theorem beginRebind_foot (r : Running) (s : State) :
    Foot [.out, .pmc, .spn, .lv, .stw] s (beginRebind r s) := by
  unfold beginRebind
  repeat' (first
    | with_reducible exact Foot.refl | with_reducible assumption | with_reducible apply Foot.ite
    | with_reducible apply Foot.after (control_foot _ _ _ _)
    | with_reducible apply Foot.after (grantInternal_foot _ _ _ _ _) | with_reducible apply Foot.onStw
    | exact rfl | with_reducible exact id | exact fun _ => rfl | exact id | split | dsimp only)

theorem askRebind_foot (r : Running) (s : State) :
    Foot [.out, .pmc, .spn, .lv, .stw] s (askRebind r s) := by
  unfold askRebind
  repeat' (first
    | with_reducible exact Foot.refl | with_reducible assumption | with_reducible apply Foot.ite
    | with_reducible apply Foot.after (beginRebind_foot _ _)
    | with_reducible apply Foot.after (waitLeave_foot _ _ _ _ _ _) | with_reducible apply Foot.onStw
    | exact rfl | with_reducible exact id | exact fun _ => rfl | exact id | split | dsimp only)

theorem doRebindVerifyDone_foot (ok : Bool) (s : State) :
    Foot [.out, .keep, .mbx, .jr, .stg, .host, .log, .pmc, .spn, .pair, .lv, .stw] s (doRebindVerifyDone ok s) := by
  unfold doRebindVerifyDone
  repeat' (first
    | with_reducible exact Foot.refl | with_reducible assumption | with_reducible apply Foot.ite
    | with_reducible apply Foot.after (askRebind_foot _ _)
    | with_reducible apply Foot.after (endRebind_foot _ _) | with_reducible apply Foot.after (slotBad_foot _ _)
    | exact rfl | split | dsimp only)

theorem doRebindProgramDone_foot (s : State) :
    Foot [.out, .stw] s (doRebindProgramDone s) := by
  unfold doRebindProgramDone
  repeat' (first
    | with_reducible exact Foot.refl | with_reducible assumption | with_reducible apply Foot.ite
    | with_reducible apply Foot.after (emit_foot _ _) | with_reducible apply Foot.onStw
    | with_reducible apply Foot.emit | exact rfl | with_reducible exact id | exact fun _ => rfl | exact id
    | split | dsimp only)

theorem doRebindReadbackDone_foot (same : Bool) (s : State) :
    Foot [.out, .keep, .mbx, .jr, .stg, .host, .log, .pmc, .spn, .pair, .lv, .stw]
      s (doRebindReadbackDone same s) := by
  unfold doRebindReadbackDone
  repeat' (first
    | with_reducible exact Foot.refl | with_reducible assumption | with_reducible apply Foot.ite
    | with_reducible apply Foot.after (endRebind_foot _ _)
    | with_reducible apply Foot.after (control_foot _ _ _ _) | with_reducible apply Foot.onStw | exact rfl
    | with_reducible exact id | exact fun _ => rfl | exact id | split | dsimp only)

theorem doRebindAgentTimeout_foot (s : State) :
    Foot [.now, .out, .keep, .mbx, .jr, .stg, .host, .log, .pmc, .spn, .pair, .lv, .stw]
      s (doRebindAgentTimeout s) := by
  unfold doRebindAgentTimeout
  repeat' (first
    | with_reducible exact Foot.refl | with_reducible assumption | with_reducible apply Foot.ite
    | with_reducible apply Foot.after (endRebind_foot _ _) | with_reducible apply Foot.after (reach_foot _ _)
    | exact rfl | split | dsimp only)

theorem doRebindBoundExpiry_foot (s : State) :
    Foot [.now, .out, .keep, .mbx, .jr, .stg, .host, .log, .pmc, .spn, .pair, .lv, .stw]
      s (doRebindBoundExpiry s) := by
  unfold doRebindBoundExpiry
  repeat' (first
    | with_reducible exact Foot.refl | with_reducible assumption | with_reducible apply Foot.ite
    | with_reducible apply Foot.after (endRebind_foot _ _) | with_reducible apply Foot.after (reach_foot _ _)
    | exact rfl | split | dsimp only)

theorem rebindReport_foot (t state : Nat) (s : State) :
    Foot [.out, .keep, .mbx, .jr, .stg, .host, .log, .pmc, .spn, .pair, .lv, .stw] s (rebindReport t state s) := by
  unfold rebindReport
  repeat' (first
    | with_reducible exact Foot.refl | with_reducible assumption | with_reducible apply Foot.ite
    | with_reducible apply Foot.after (endRebind_foot _ _) | with_reducible apply Foot.onStw | exact rfl
    | with_reducible exact id | exact fun _ => rfl | exact id | split | dsimp only)

theorem onTag_foot (f : Tag → Tag) (s : State)
    (hf : ∀ g : Tag, Mem.wf g.mem = true → Mem.wf (f g).mem = true) : Foot [.stw] s (onTag f s) := by
  unfold onTag
  exact Foot.refl.onStw rfl (hf _)

theorem Tag.next_mem (now : Nat) (g : Tag) : (Tag.next now g).mem = g.mem := by
  unfold Tag.next
  split <;> rfl

theorem doTagInventoryWrite_foot (s : State) :
    Foot [.now, .pmc, .stw] s (doTagInventoryWrite s) := by
  unfold doTagInventoryWrite
  repeat' (first
    | with_reducible exact Foot.refl | with_reducible assumption | with_reducible apply Foot.ite
    | with_reducible apply Foot.after (onTag_foot _ _ ?_) | with_reducible exact fun _ h => h
    | with_reducible exact fun _ h => Mem.wf_writeN h _ _ | with_reducible apply Foot.after (reach_foot _ _)
    | exact rfl | with_reducible exact id | exact fun _ => rfl | exact id
    | with_reducible exact fun _ h => Mem.wf_writeN (Mem.wf_writeN h _ _) _ _ | split | dsimp only)

theorem fxTagWrite_foot (e : JEntry) (s : State) :
    Foot [.out, .jr, .host, .pmc, .stw] s (fxTagWrite e s) := by
  unfold fxTagWrite
  repeat' (first
    | with_reducible exact Foot.refl | with_reducible assumption | with_reducible apply Foot.ite
    | with_reducible apply Foot.after (onTag_foot _ _ ?_) | with_reducible exact fun _ h => h
    | with_reducible exact fun _ h => Mem.wf_writeN h _ _
    | with_reducible apply Foot.after (waitObject_foot _ _) | exact rfl | with_reducible exact id
    | exact fun _ => rfl | exact id | with_reducible exact fun _ h => Mem.wf_writeN (Mem.wf_writeN h _ _) _ _
    | (intro g h; split <;> exact h) | split | dsimp only)

theorem doTagWiredSwap_foot (s : State) :
    Foot [.out, .mbx, .jr, .stg, .pmc, .spn, .pair, .stw] s (doTagWiredSwap s) := by
  unfold doTagWiredSwap
  repeat' (first
    | with_reducible exact Foot.refl | with_reducible assumption | with_reducible apply Foot.ite
    | with_reducible apply Foot.after (onTag_foot _ _ ?_) | with_reducible exact fun _ h => h
    | with_reducible exact fun _ h => Mem.wf_writeN h _ _
    | with_reducible apply Foot.after (finish0_foot _ _ _) | exact rfl | with_reducible exact id
    | exact fun _ => rfl | exact id | with_reducible exact fun _ h => Mem.wf_writeN (Mem.wf_writeN h _ _) _ _
    | (intro g h; rw [Tag.next_mem]; exact Mem.wf_writeN h _ _) | split | dsimp only)

theorem doTagWiredBusy_foot (s : State) :
    Foot [.stw] s (doTagWiredBusy s) := by
  unfold doTagWiredBusy
  repeat' (first
    | with_reducible exact Foot.refl | with_reducible assumption | with_reducible apply Foot.ite
    | with_reducible apply Foot.after (onTag_foot _ _ ?_) | with_reducible exact fun _ h => h
    | with_reducible exact fun _ h => Mem.wf_writeN h _ _ | exact rfl | with_reducible exact id
    | exact fun _ => rfl | exact id | with_reducible exact fun _ h => Mem.wf_writeN (Mem.wf_writeN h _ _) _ _
    | (intro g h; split <;> exact h) | split | dsimp only)

theorem doTagWriteRetry_foot (s : State) :
    Foot [.now, .pmc, .stw] s (doTagWriteRetry s) := by
  unfold doTagWriteRetry
  repeat' (first
    | with_reducible exact Foot.refl | with_reducible assumption | with_reducible apply Foot.ite
    | with_reducible apply Foot.after (onTag_foot _ _ ?_) | with_reducible exact fun _ h => h
    | with_reducible exact fun _ h => Mem.wf_writeN h _ _ | with_reducible apply Foot.after (reach_foot _ _)
    | exact rfl | with_reducible exact id | exact fun _ => rfl | exact id
    | with_reducible exact fun _ h => Mem.wf_writeN (Mem.wf_writeN h _ _) _ _ | split | dsimp only)

theorem doTagWriteTimeout_foot (s : State) :
    Foot [.now, .out, .mbx, .jr, .stg, .pmc, .spn, .pair, .stw] s (doTagWriteTimeout s) := by
  unfold doTagWriteTimeout
  repeat' (first
    | with_reducible exact Foot.refl | with_reducible assumption | with_reducible apply Foot.ite
    | with_reducible apply Foot.after (onTag_foot _ _ ?_) | with_reducible exact fun _ h => h
    | with_reducible exact fun _ h => Mem.wf_writeN h _ _
    | with_reducible apply Foot.after (finish0_foot _ _ _) | with_reducible apply Foot.after (reach_foot _ _)
    | exact rfl | with_reducible exact id | exact fun _ => rfl | exact id
    | with_reducible exact fun _ h => Mem.wf_writeN (Mem.wf_writeN h _ _) _ _
    | (intro g h; rw [Tag.next_mem]; exact h) | split | dsimp only)

theorem doTagRfPoll_foot (s : State) :
    Foot [.now, .out, .keep, .host, .log, .pmc, .spn, .stw] s (doTagRfPoll s) := by
  unfold doTagRfPoll
  repeat' (first
    | with_reducible exact Foot.refl | with_reducible assumption | with_reducible apply Foot.ite
    | with_reducible refine Foot.foldl ?_ fun v a hv => ?_
    | with_reducible apply Foot.after (onTag_foot _ _ ?_) | with_reducible exact fun _ h => h
    | with_reducible exact fun _ h => Mem.wf_writeN h _ _
    | with_reducible apply Foot.after (event_foot _ _ _ _ _ _)
    | with_reducible apply Foot.after (reach_foot _ _) | exact rfl | with_reducible exact id
    | exact fun _ => rfl | exact id | with_reducible exact fun _ h => Mem.wf_writeN (Mem.wf_writeN h _ _) _ _
    | split | dsimp only)

theorem doRfInventory_foot (maskLen mask : Nat) (s : State) :
    Foot [.out, .pmc] s (doRfInventory maskLen mask s) := by
  unfold doRfInventory
  repeat' (first
    | with_reducible exact Foot.refl | with_reducible assumption | with_reducible apply Foot.ite
    | with_reducible apply Foot.after (count_foot _ _) | with_reducible apply Foot.after (emit_foot _ _)
    | with_reducible apply Foot.emit | exact rfl | split | dsimp only)

theorem doRfStayQuiet_foot (uid : DWord) (s : State) :
    Foot [.pmc, .stw] s (doRfStayQuiet uid s) := by
  unfold doRfStayQuiet
  repeat' (first
    | with_reducible exact Foot.refl | with_reducible assumption | with_reducible apply Foot.ite
    | with_reducible apply Foot.after (onTag_foot _ _ ?_) | with_reducible exact fun _ h => h
    | with_reducible exact fun _ h => Mem.wf_writeN h _ _ | with_reducible apply Foot.after (count_foot _ _)
    | exact rfl | with_reducible exact id | exact fun _ => rfl | exact id
    | with_reducible exact fun _ h => Mem.wf_writeN (Mem.wf_writeN h _ _) _ _ | split | dsimp only)

theorem doRfSelect_foot (uid : DWord) (s : State) :
    Foot [.out, .pmc, .stw] s (doRfSelect uid s) := by
  unfold doRfSelect
  repeat' (first
    | with_reducible exact Foot.refl | with_reducible assumption | with_reducible apply Foot.ite
    | with_reducible apply Foot.after (onTag_foot _ _ ?_) | with_reducible exact fun _ h => h
    | with_reducible exact fun _ h => Mem.wf_writeN h _ _ | with_reducible apply Foot.after (count_foot _ _)
    | with_reducible apply Foot.after (emit_foot _ _) | with_reducible apply Foot.emit | exact rfl
    | with_reducible exact id | exact fun _ => rfl | exact id
    | with_reducible exact fun _ h => Mem.wf_writeN (Mem.wf_writeN h _ _) _ _ | split | dsimp only)

theorem doRfResetToReady_foot (uid : Option DWord) (s : State) :
    Foot [.out, .pmc, .stw] s (doRfResetToReady uid s) := by
  unfold doRfResetToReady
  repeat' (first
    | with_reducible exact Foot.refl | with_reducible assumption | with_reducible apply Foot.ite
    | with_reducible apply Foot.after (onTag_foot _ _ ?_) | with_reducible exact fun _ h => h
    | with_reducible exact fun _ h => Mem.wf_writeN h _ _ | with_reducible apply Foot.after (count_foot _ _)
    | with_reducible apply Foot.after (emit_foot _ _) | with_reducible apply Foot.emit | exact rfl
    | with_reducible exact id | exact fun _ => rfl | exact id
    | with_reducible exact fun _ h => Mem.wf_writeN (Mem.wf_writeN h _ _) _ _ | split | dsimp only)

theorem doRfGetSystemInformation_foot (s : State) :
    Foot [.out, .pmc] s (doRfGetSystemInformation s) := by
  unfold doRfGetSystemInformation
  repeat' (first
    | with_reducible exact Foot.refl | with_reducible assumption | with_reducible apply Foot.ite
    | with_reducible apply Foot.after (count_foot _ _) | with_reducible apply Foot.after (emit_foot _ _)
    | with_reducible apply Foot.emit | exact rfl | split | dsimp only)

theorem doRfReadSingleBlock_foot (blk : Nat) (s : State) :
    Foot [.out, .pmc] s (doRfReadSingleBlock blk s) := by
  unfold doRfReadSingleBlock
  repeat' (first
    | with_reducible exact Foot.refl | with_reducible assumption | with_reducible apply Foot.ite
    | with_reducible apply Foot.after (count_foot _ _) | with_reducible apply Foot.after (emit_foot _ _)
    | with_reducible apply Foot.emit | exact rfl | split | dsimp only)

theorem doRfReadMultipleBlocks_foot (first n : Nat) (s : State) :
    Foot [.out, .pmc] s (doRfReadMultipleBlocks first n s) := by
  unfold doRfReadMultipleBlocks
  repeat' (first
    | with_reducible exact Foot.refl | with_reducible assumption | with_reducible apply Foot.ite
    | with_reducible apply Foot.after (count_foot _ _) | with_reducible apply Foot.after (emit_foot _ _)
    | with_reducible apply Foot.emit | exact rfl | split | dsimp only)

theorem doRfWriteSingleBlock_foot (blk : Nat) (data : Bytes) (s : State) :
    Foot [.out, .pmc, .stw] s (doRfWriteSingleBlock blk data s) := by
  unfold doRfWriteSingleBlock
  repeat' (first
    | with_reducible exact Foot.refl | with_reducible assumption | with_reducible apply Foot.ite
    | with_reducible apply Foot.after (onTag_foot _ _ ?_) | with_reducible exact fun _ h => h
    | with_reducible exact fun _ h => Mem.wf_writeN h _ _ | with_reducible apply Foot.after (count_foot _ _)
    | with_reducible apply Foot.after (emit_foot _ _) | with_reducible apply Foot.emit | exact rfl
    | with_reducible exact id | exact fun _ => rfl | exact id
    | with_reducible exact fun _ h => Mem.wf_writeN (Mem.wf_writeN h _ _) _ _ | split | dsimp only)

theorem doRfGetBlockSecurity_foot (first n : Nat) (s : State) :
    Foot [.out, .pmc] s (doRfGetBlockSecurity first n s) := by
  unfold doRfGetBlockSecurity
  repeat' (first
    | with_reducible exact Foot.refl | with_reducible assumption | with_reducible apply Foot.ite
    | with_reducible apply Foot.after (count_foot _ _) | with_reducible apply Foot.after (emit_foot _ _)
    | with_reducible apply Foot.emit | exact rfl | split | dsimp only)

end Sys2Proof.Machine
end

