-- ==== Sys2Proof/Laws/FootKettle.lean ====
section
/-! SUPPORT. Laws/FootKettle.lean: the footprint of each operation of Machine/Kettle.lean. -/

set_option linter.unusedTactic false
set_option linter.unreachableTactic false
set_option linter.unusedVariables false

namespace Sys2Proof.Machine

theorem burnRoute_le (r : Bytes) (o : Otp) : OtpLe o (o.burnRoute r) := by
  unfold Otp.burnRoute
  split
  · next h => exact ⟨andNot_self _, Nat.le_refl _, fun x => by simp_all⟩
  · exact .rfl

theorem onLeak_foot (n : Nat) (f : Leak → Leak) (s : State) :
    Foot [.ket] s (onLeak n f s) := by
  unfold onLeak
  repeat' (first
    | with_reducible exact Foot.refl | with_reducible assumption | with_reducible apply Foot.ite
    | with_reducible apply Foot.onKet | exact rfl | exact .inl rfl | with_reducible exact .inr rfl
    | with_reducible exact .inr (.inl rfl) | with_reducible exact .inr ⟨rfl, rfl⟩ | exact .inr rfl
    | exact .inr (.inl rfl) | exact .inr ⟨rfl, rfl⟩ | split | dsimp only)

theorem imageSoon_foot (s : State) :
    Foot [.ket] s (imageSoon s) := by
  unfold imageSoon
  repeat' (first
    | with_reducible exact Foot.refl | with_reducible assumption | with_reducible apply Foot.ite
    | with_reducible apply Foot.onKet | exact rfl | exact .inl rfl | with_reducible exact .inr rfl
    | with_reducible exact .inr (.inl rfl) | with_reducible exact .inr ⟨rfl, rfl⟩ | exact .inr rfl
    | exact .inr (.inl rfl) | exact .inr ⟨rfl, rfl⟩ | split | dsimp only)

theorem dropTen_foot (m : Nat) (s : State) :
    Foot [.keep, .pair, .stw, .core, .ten] s (dropTen m s) := by
  unfold dropTen
  repeat' (first
    | with_reducible exact Foot.refl | with_reducible assumption | with_reducible apply Foot.ite
    | with_reducible apply Foot.after (driveTen_foot _ _) | with_reducible apply Foot.onPair | exact rfl
    | split | dsimp only)

theorem tripTray_foot (t : Nat) (s : State) :
    Foot [.out, .keep, .mbx, .jr, .stg, .host, .log, .pmc, .spn, .pair, .lv, .stw, .core] s (tripTray t s) := by
  unfold tripTray
  repeat' (first
    | with_reducible exact Foot.refl | with_reducible assumption | with_reducible apply Foot.ite
    | with_reducible apply Foot.after (abortRebind_foot _ _)
    | with_reducible apply Foot.after (settleStop_foot _ _)
    | with_reducible apply Foot.after (endStart_foot _ _ _)
    | with_reducible apply Foot.after (assertCapdn_foot _ _)
    | with_reducible apply Foot.after (revokeTray_foot _ _ _) | with_reducible apply Foot.onStw | exact rfl
    | with_reducible exact id | exact fun _ => rfl | exact id | split | dsimp only)

theorem tripTrays_foot (m cause loc : Nat) (s : State) :
    Foot [.out, .keep, .mbx, .jr, .stg, .host, .log, .pmc, .spn, .pair, .lv, .ket, .stw, .core, .ten]
      s (tripTrays m cause loc s) := by
  unfold tripTrays
  repeat' (first
    | with_reducible exact Foot.refl | with_reducible assumption | with_reducible apply Foot.ite
    | with_reducible refine Foot.foldl ?_ fun v a hv => ?_
    | with_reducible apply Foot.after (tripTray_foot _ _) | with_reducible apply Foot.after (dropTen_foot _ _)
    | with_reducible apply Foot.after (imageSoon_foot _) | with_reducible apply Foot.after (tagDue_foot _)
    | with_reducible apply Foot.after (event_foot _ _ _ _ _ _)
    | with_reducible apply Foot.after (wakeCause_foot _ _) | with_reducible apply Foot.after (count_foot _ _)
    | with_reducible apply Foot.onKet | exact rfl | exact .inl rfl | with_reducible exact .inr rfl
    | with_reducible exact .inr (.inl rfl) | with_reducible exact .inr ⟨rfl, rfl⟩ | exact .inr rfl
    | exact .inr (.inl rfl) | exact .inr ⟨rfl, rfl⟩ | exact .inr (.inr (andNot_or _ _)) | split | dsimp only)

theorem tripSource_foot (n : Nat) (s : State) :
    Foot [.out, .keep, .mbx, .jr, .stg, .host, .log, .pmc, .spn, .pair, .lv, .ket, .stw, .core, .ten]
      s (tripSource n s) := by
  unfold tripSource
  repeat' (first
    | with_reducible exact Foot.refl | with_reducible assumption | with_reducible apply Foot.ite
    | with_reducible apply Foot.after (tripTrays_foot _ _ _ _)
    | with_reducible apply Foot.after (onLeak_foot _ _ _) | exact rfl | split | dsimp only)

theorem reexamine_foot (n : Nat) (was : Bool) (s : State) :
    Foot [.out, .keep, .mbx, .jr, .stg, .host, .log, .pmc, .spn, .pair, .lv, .ket, .stw, .core, .ten]
      s (reexamine n was s) := by
  unfold reexamine
  repeat' (first
    | with_reducible exact Foot.refl | with_reducible assumption | with_reducible apply Foot.ite
    | with_reducible apply Foot.after (tripSource_foot _ _)
    | with_reducible apply Foot.after (onLeak_foot _ _ _) | exact rfl | split | dsimp only)

theorem senseChange_foot (n : Nat) (f : Leak → Leak) (s : State) :
    Foot [.out, .keep, .mbx, .jr, .stg, .host, .log, .pmc, .spn, .pair, .lv, .ket, .stw, .core, .ten]
      s (senseChange n f s) := by
  unfold senseChange
  repeat' (first
    | with_reducible exact Foot.refl | with_reducible assumption | with_reducible apply Foot.ite
    | with_reducible apply Foot.after (reexamine_foot _ _ _)
    | with_reducible apply Foot.after (onLeak_foot _ _ _) | exact rfl | split | dsimp only)

theorem saveFlags_foot (n : Nat) (s : State) :
    Foot [.cat] s (saveFlags n s) := by
  unfold saveFlags
  repeat' (first
    | with_reducible exact Foot.refl | with_reducible assumption | with_reducible apply Foot.ite
    | with_reducible apply Foot.onCat | exact rfl | split | dsimp only)

theorem flagEvent_foot (code : Half) (sev n v : Nat) (s : State) :
    Foot [.out, .keep, .cat, .host, .log, .pmc, .spn] s (flagEvent code sev n v s) := by
  unfold flagEvent
  repeat' (first
    | with_reducible exact Foot.refl | with_reducible assumption | with_reducible apply Foot.ite
    | with_reducible apply Foot.after (saveFlags_foot _ _)
    | with_reducible apply Foot.after (event_foot _ _ _ _ _ _) | exact rfl | split | dsimp only)

theorem readSource_foot (n : Nat) (wet short : Bool) (s : State) :
    Foot [.out, .keep, .cat, .mbx, .jr, .stg, .host, .log, .pmc, .spn, .pair, .lv, .ket, .stw, .core, .ten]
      s (readSource n wet short s) := by
  unfold readSource
  repeat' (first
    | with_reducible exact Foot.refl | with_reducible assumption | with_reducible apply Foot.ite
    | with_reducible apply Foot.after (saveFlags_foot _ _)
    | with_reducible apply Foot.after (senseChange_foot _ _ _)
    | with_reducible apply Foot.after (record_foot _ _ _ _ _) | exact rfl | split | dsimp only)

theorem comparator_foot (n : Nat) (wet short : Bool) (s : State) :
    Foot [.out, .keep, .cat, .mbx, .jr, .stg, .host, .log, .pmc, .spn, .pair, .lv, .ket, .stw, .core, .ten]
      s (comparator n wet short s) := by
  unfold comparator
  repeat' (first
    | with_reducible exact Foot.refl | with_reducible assumption | with_reducible apply Foot.ite
    | with_reducible apply Foot.after (readSource_foot _ _ _ _)
    | with_reducible apply Foot.after (onLeak_foot _ _ _) | exact rfl | split | dsimp only)

theorem doKettleTrip_foot (n : Nat) (reading : LeakReading) (s : State) :
    Foot [.out, .keep, .cat, .mbx, .jr, .stg, .host, .log, .pmc, .spn, .pair, .lv, .ket, .stw, .core, .ten]
      s (doKettleTrip n reading s) := by
  unfold doKettleTrip
  repeat' (first
    | with_reducible exact Foot.refl | with_reducible assumption | with_reducible apply Foot.ite
    | with_reducible apply Foot.after (comparator_foot _ _ _ _) | exact rfl | split | dsimp only)

theorem doLeakInputClear_foot (n : Nat) (s : State) :
    Foot [.out, .keep, .cat, .mbx, .jr, .stg, .host, .log, .pmc, .spn, .pair, .lv, .ket, .stw, .core, .ten]
      s (doLeakInputClear n s) := by
  unfold doLeakInputClear
  repeat' (first
    | with_reducible exact Foot.refl | with_reducible assumption | with_reducible apply Foot.ite
    | with_reducible apply Foot.after (comparator_foot _ _ _ _) | exact rfl | split | dsimp only)

theorem saveImages_foot (s : State) :
    Foot [.cat, .ket] s (saveImages s) := by
  unfold saveImages
  repeat' (first
    | with_reducible exact Foot.refl | with_reducible assumption | with_reducible apply Foot.ite
    | with_reducible apply Foot.onCat | with_reducible apply Foot.onKet | exact rfl | exact .inl rfl
    | with_reducible exact .inr rfl | with_reducible exact .inr (.inl rfl)
    | with_reducible exact .inr ⟨rfl, rfl⟩ | exact .inr rfl | exact .inr (.inl rfl) | exact .inr ⟨rfl, rfl⟩
    | split | dsimp only)

theorem doTripImageSave_foot (s : State) :
    Foot [.now, .cat, .pmc, .ket] s (doTripImageSave s) := by
  unfold doTripImageSave
  repeat' (first
    | with_reducible exact Foot.refl | with_reducible assumption | with_reducible apply Foot.ite
    | with_reducible apply Foot.after (saveImages_foot _) | with_reducible apply Foot.after (reach_foot _ _)
    | exact rfl | split | dsimp only)

theorem doForeignTrip_foot (t : Nat) (s : State) :
    Foot [.out, .keep, .mbx, .jr, .stg, .host, .log, .pmc, .spn, .pair, .lv, .ket, .stw, .core, .ten]
      s (doForeignTrip t s) := by
  unfold doForeignTrip
  repeat' (first
    | with_reducible exact Foot.refl | with_reducible assumption | with_reducible apply Foot.ite
    | with_reducible apply Foot.after (tripTrays_foot _ _ _ _) | exact rfl | split | dsimp only)

theorem releaseTrays_foot (m : Nat) (s : State) :
    Foot [.out, .keep, .host, .log, .pmc, .spn, .ket, .tripFall] s (releaseTrays m s) := by
  unfold releaseTrays
  repeat' (first
    | with_reducible exact Foot.refl | with_reducible assumption | with_reducible apply Foot.ite
    | with_reducible refine Foot.foldl ?_ fun v a hv => ?_ | with_reducible apply Foot.after (imageSoon_foot _)
    | with_reducible apply Foot.after (event_foot _ _ _ _ _ _) | with_reducible apply Foot.onKet | exact rfl
    | exact .inl rfl | with_reducible exact .inr rfl | with_reducible exact .inr (.inl rfl)
    | with_reducible exact .inr ⟨rfl, rfl⟩ | exact .inr rfl | exact .inr (.inl rfl) | exact .inr ⟨rfl, rfl⟩
    | split | dsimp only)

theorem doForeignCauseClear_foot (t : Nat) (s : State) :
    Foot [.out, .keep, .host, .log, .pmc, .spn, .ket, .tripFall] s (doForeignCauseClear t s) := by
  unfold doForeignCauseClear
  repeat' (first
    | with_reducible exact Foot.refl | with_reducible assumption | with_reducible apply Foot.ite
    | with_reducible refine Foot.foldl ?_ fun v a hv => ?_
    | with_reducible apply Foot.after (releaseTrays_foot _ _) | with_reducible apply Foot.onKet | exact rfl
    | exact .inl rfl | with_reducible exact .inr rfl | with_reducible exact .inr (.inl rfl)
    | with_reducible exact .inr ⟨rfl, rfl⟩ | exact .inr rfl | exact .inr (.inl rfl) | exact .inr ⟨rfl, rfl⟩
    | split | dsimp only)

theorem fxTripRelease_foot (e : JEntry) (s : State) :
    Foot [.out, .keep, .host, .log, .pmc, .spn, .ket, .tripFall] s (fxTripRelease e s) := by
  unfold fxTripRelease
  repeat' (first
    | with_reducible exact Foot.refl | with_reducible assumption | with_reducible apply Foot.ite
    | with_reducible refine Foot.foldl ?_ fun v a hv => ?_
    | with_reducible apply Foot.after (releaseTrays_foot _ _)
    | with_reducible apply Foot.after (onLeak_foot _ _ _) | with_reducible apply Foot.onKet | exact rfl
    | exact .inl rfl | with_reducible exact .inr rfl | with_reducible exact .inr (.inl rfl)
    | with_reducible exact .inr ⟨rfl, rfl⟩ | exact .inr rfl | exact .inr (.inl rfl) | exact .inr ⟨rfl, rfl⟩
    | split | dsimp only)

theorem doTripReleaseWindowEnd_foot (s : State) :
    Foot [.now, .out, .keep, .mbx, .jr, .stg, .host, .log, .pmc, .spn, .pair, .ket, .stw, .tripFall]
      s (doTripReleaseWindowEnd s) := by
  unfold doTripReleaseWindowEnd
  repeat' (first
    | with_reducible exact Foot.refl | with_reducible assumption | with_reducible apply Foot.ite
    | with_reducible apply Foot.after (releaseTrays_foot _ _)
    | with_reducible apply Foot.after (finish0_foot _ _ _)
    | with_reducible apply Foot.after (finish_foot _ _ _ _) | with_reducible apply Foot.after (reach_foot _ _)
    | with_reducible apply Foot.onKet | exact rfl | exact .inl rfl | with_reducible exact .inr rfl
    | with_reducible exact .inr (.inl rfl) | with_reducible exact .inr ⟨rfl, rfl⟩ | exact .inr rfl
    | exact .inr (.inl rfl) | exact .inr ⟨rfl, rfl⟩ | split | dsimp only)

theorem doRopeLocationMeasure_foot (n : Nat) (s : State) :
    Foot [.now, .pmc, .ket] s (doRopeLocationMeasure n s) := by
  unfold doRopeLocationMeasure
  repeat' (first
    | with_reducible exact Foot.refl | with_reducible assumption | with_reducible apply Foot.ite
    | with_reducible apply Foot.after (onLeak_foot _ _ _) | with_reducible apply Foot.after (reach_foot _ _)
    | exact rfl | split | dsimp only)

theorem doRopeMeasureDone_foot (n va vb vs : Nat) (s : State) :
    Foot [.now, .out, .keep, .cat, .mbx, .jr, .stg, .host, .log, .pmc, .spn, .pair, .lv, .ket, .stw, .core, .ten]
      s (doRopeMeasureDone n va vb vs s) := by
  unfold doRopeMeasureDone
  repeat' (first
    | with_reducible exact Foot.refl | with_reducible assumption | with_reducible apply Foot.ite
    | with_reducible apply Foot.after (readSource_foot _ _ _ _)
    | with_reducible apply Foot.after (onLeak_foot _ _ _)
    | with_reducible apply Foot.after (event_foot _ _ _ _ _ _)
    | with_reducible apply Foot.after (reach_foot _ _) | exact rfl | split | dsimp only)

theorem doLeakStuck_foot (n : Nat) (s : State) :
    Foot [.now, .out, .keep, .cat, .host, .log, .pmc, .spn, .ket] s (doLeakStuck n s) := by
  unfold doLeakStuck
  repeat' (first
    | with_reducible exact Foot.refl | with_reducible assumption | with_reducible apply Foot.ite
    | with_reducible apply Foot.after (flagEvent_foot _ _ _ _ _)
    | with_reducible apply Foot.after (onLeak_foot _ _ _) | with_reducible apply Foot.after (reach_foot _ _)
    | exact rfl | split | dsimp only)

theorem doLeakChatter_foot (n : Nat) (s : State) :
    Foot [.out, .keep, .cat, .mbx, .jr, .stg, .host, .log, .pmc, .spn, .pair, .lv, .ket, .stw, .core, .ten]
      s (doLeakChatter n s) := by
  unfold doLeakChatter
  repeat' (first
    | with_reducible exact Foot.refl | with_reducible assumption | with_reducible apply Foot.ite
    | with_reducible apply Foot.after (flagEvent_foot _ _ _ _ _)
    | with_reducible apply Foot.after (senseChange_foot _ _ _) | exact rfl | split | dsimp only)

theorem doLeakOpen_foot (n : Nat) (s : State) :
    Foot [.out, .keep, .cat, .mbx, .jr, .stg, .host, .log, .pmc, .spn, .pair, .lv, .ket, .stw, .core, .ten]
      s (doLeakOpen n s) := by
  unfold doLeakOpen
  repeat' (first
    | with_reducible exact Foot.refl | with_reducible assumption | with_reducible apply Foot.ite
    | with_reducible apply Foot.after (flagEvent_foot _ _ _ _ _)
    | with_reducible apply Foot.after (senseChange_foot _ _ _) | exact rfl | split | dsimp only)

theorem doLeakConditionClear_foot (n : Nat) (flag : LeakFlag) (s : State) :
    Foot [.now, .out, .keep, .cat, .mbx, .jr, .stg, .host, .log, .pmc, .spn, .pair, .lv, .ket, .stw, .core, .ten]
      s (doLeakConditionClear n flag s) := by
  unfold doLeakConditionClear
  repeat' (first
    | with_reducible exact Foot.refl | with_reducible assumption | with_reducible apply Foot.ite
    | with_reducible apply Foot.after (flagEvent_foot _ _ _ _ _)
    | with_reducible apply Foot.after (senseChange_foot _ _ _)
    | with_reducible apply Foot.after (onLeak_foot _ _ _) | with_reducible apply Foot.after (reach_foot _ _)
    | exact rfl | split | dsimp only)

theorem doKeepTableReadDone_foot (s : State) :
    Foot [.now, .out, .keep, .cat, .mbx, .jr, .stg, .host, .log, .pmc, .spn, .pair, .lv, .ket, .stw, .core, .ten]
      s (doKeepTableReadDone s) := by
  unfold doKeepTableReadDone
  repeat' (first
    | with_reducible exact Foot.refl | with_reducible assumption | with_reducible apply Foot.ite
    | with_reducible refine Foot.foldl ?_ fun v a hv => ?_
    | with_reducible apply Foot.after (saveFlags_foot _ _)
    | with_reducible apply Foot.after (reexamine_foot _ _ _) | with_reducible apply Foot.after (reach_foot _ _)
    | with_reducible apply Foot.onKeep | with_reducible apply Foot.onCat | with_reducible apply Foot.onKet
    | exact rfl | exact .inl rfl | with_reducible exact .inr rfl | with_reducible exact .inr (.inl rfl)
    | with_reducible exact .inr ⟨rfl, rfl⟩ | exact .inr rfl | exact .inr (.inl rfl) | exact .inr ⟨rfl, rfl⟩
    | exact .inr (.inr (andNot_or _ _)) | split | dsimp only)

theorem fxLeakMask_foot (e : JEntry) (s : State) :
    Foot [.out, .keep, .cat, .mbx, .jr, .stg, .host, .log, .pmc, .spn, .pair, .lv, .ket, .stw, .core, .ten]
      s (fxLeakMask e s) := by
  unfold fxLeakMask
  repeat' (first
    | with_reducible exact Foot.refl | with_reducible assumption | with_reducible apply Foot.ite
    | with_reducible apply Foot.after (saveFlags_foot _ _)
    | with_reducible apply Foot.after (tripSource_foot _ _)
    | with_reducible apply Foot.after (onLeak_foot _ _ _)
    | with_reducible apply Foot.after (finish0_foot _ _ _)
    | with_reducible apply Foot.after (event_foot _ _ _ _ _ _) | exact rfl | split | dsimp only)

theorem fxRouteSet_foot (e : JEntry) (s : State) :
    Foot [.out, .jr, .host, .pmc, .ket] s (fxRouteSet e s) := by
  unfold fxRouteSet
  repeat' (first
    | with_reducible exact Foot.refl | with_reducible assumption | with_reducible apply Foot.ite
    | with_reducible apply Foot.after (waitObject_foot _ _) | with_reducible apply Foot.onKet | exact rfl
    | exact .inl rfl | with_reducible exact .inr rfl | with_reducible exact .inr (.inl rfl)
    | with_reducible exact .inr ⟨rfl, rfl⟩ | exact .inr rfl | exact .inr (.inl rfl) | exact .inr ⟨rfl, rfl⟩
    | split | dsimp only)

theorem applyRoute_foot (w : RouteWait) (s : State) :
    Foot [.out, .keep, .otp, .mbx, .jr, .stg, .host, .log, .pmc, .spn, .pair, .lv, .ket, .stw, .core, .ten, .route]
      s (applyRoute w s) := by
  unfold applyRoute
  repeat' (first
    | with_reducible exact Foot.refl | with_reducible assumption | with_reducible apply Foot.ite
    | with_reducible refine Foot.foldl ?_ fun v a hv => ?_
    | with_reducible apply Foot.after (reexamine_foot _ _ _)
    | with_reducible apply Foot.after (tripTrays_foot _ _ _ _)
    | with_reducible apply Foot.after (finish0_foot _ _ _) | with_reducible apply Foot.onOtp
    | with_reducible apply Foot.onKet | exact rfl | exact .inl rfl | with_reducible exact .inr rfl
    | with_reducible exact .inr (.inl rfl) | with_reducible exact .inr ⟨rfl, rfl⟩ | exact .inr rfl
    | exact .inr (.inl rfl) | exact .inr ⟨rfl, rfl⟩ | exact burnRoute_le _ _ | split | dsimp only)

theorem applyRoutes_foot (s : State) :
    Foot [.out, .keep, .otp, .mbx, .jr, .stg, .host, .log, .pmc, .spn, .pair, .lv, .ket, .stw, .core, .ten, .route]
      s (applyRoutes s) := by
  unfold applyRoutes
  repeat' (first
    | with_reducible exact Foot.refl | with_reducible assumption | with_reducible apply Foot.ite
    | with_reducible refine Foot.foldl ?_ fun v a hv => ?_
    | with_reducible apply Foot.after (applyRoute_foot _ _) | with_reducible apply Foot.onKet | exact rfl
    | exact .inl rfl | with_reducible exact .inr rfl | with_reducible exact .inr (.inl rfl)
    | with_reducible exact .inr ⟨rfl, rfl⟩ | exact .inr rfl | exact .inr (.inl rfl) | exact .inr ⟨rfl, rfl⟩
    | split | dsimp only)

theorem testResult_foot (i : Nat) (ok : Bool) (s : State) :
    Foot [.pair] s (testResult i ok s) := by
  unfold testResult
  repeat' (first
    | with_reducible exact Foot.refl | with_reducible assumption | with_reducible apply Foot.ite
    | with_reducible apply Foot.onPair | exact rfl | split | dsimp only)

theorem endProof_foot (p : Proof) (s : State) :
    Foot [.out, .keep, .mbx, .jr, .stg, .host, .log, .pmc, .spn, .pair, .stw] s (endProof p s) := by
  unfold endProof
  repeat' (first
    | with_reducible exact Foot.refl | with_reducible assumption | with_reducible apply Foot.ite
    | with_reducible apply Foot.after (testResult_foot _ _ _)
    | with_reducible apply Foot.after (finish0_foot _ _ _)
    | with_reducible apply Foot.after (finish_foot _ _ _ _)
    | with_reducible apply Foot.after (event_foot _ _ _ _ _ _) | with_reducible apply Foot.onPair | exact rfl
    | split | dsimp only)

theorem fxTripProof_foot (e : JEntry) (s : State) :
    Foot [.out, .keep, .mbx, .jr, .stg, .host, .log, .pmc, .spn, .pair, .ket, .stw] s (fxTripProof e s) := by
  unfold fxTripProof
  repeat' (first
    | with_reducible exact Foot.refl | with_reducible assumption | with_reducible apply Foot.ite
    | with_reducible apply Foot.after (endProof_foot _ _) | with_reducible apply Foot.onKet | exact rfl
    | exact .inl rfl | with_reducible exact .inr rfl | with_reducible exact .inr (.inl rfl)
    | with_reducible exact .inr ⟨rfl, rfl⟩ | exact .inr rfl | exact .inr (.inl rfl) | exact .inr ⟨rfl, rfl⟩
    | split | dsimp only)

theorem doProofSourceStep_foot (passed : Bool) (s : State) :
    Foot [.now, .out, .keep, .mbx, .jr, .stg, .host, .log, .pmc, .spn, .pair, .ket, .stw]
      s (doProofSourceStep passed s) := by
  unfold doProofSourceStep
  repeat' (first
    | with_reducible exact Foot.refl | with_reducible assumption | with_reducible apply Foot.ite
    | with_reducible apply Foot.after (endProof_foot _ _) | with_reducible apply Foot.after (reach_foot _ _)
    | with_reducible apply Foot.onKet | exact rfl | exact .inl rfl | with_reducible exact .inr rfl
    | with_reducible exact .inr (.inl rfl) | with_reducible exact .inr ⟨rfl, rfl⟩ | exact .inr rfl
    | exact .inr (.inl rfl) | exact .inr ⟨rfl, rfl⟩ | split | dsimp only)

theorem askRopes_foot (ks : List Nat) (s : State) :
    Foot [.ket] s (askRopes ks s) := by
  unfold askRopes
  repeat' (first
    | with_reducible exact Foot.refl | with_reducible assumption | with_reducible apply Foot.ite
    | with_reducible refine Foot.foldl ?_ fun v a hv => ?_
    | with_reducible apply Foot.after (onLeak_foot _ _ _) | exact rfl | split | dsimp only)

end Sys2Proof.Machine
end

