-- ==== Sys2Proof/Laws/FootAfe.lean ====
section
/-! SUPPORT. Laws/FootAfe.lean: the footprint of each operation of Machine/Afe.lean. -/

set_option linter.unusedTactic false
set_option linter.unreachableTactic false
set_option linter.unusedVariables false

namespace Sys2Proof.Machine

/-- A stored AFE record changes the AFE tables alone. -/
theorem storeAfe_same (n : Nat) (r : Bytes) (k : KeepTables) :
    (k.storeAfe n r).role = k.role ∧ ((k.storeAfe n r).key0 = k.key0 ∧ (k.storeAfe n r).key1 = k.key1) ∧
      (k.storeAfe n r).budget = k.budget := by
  unfold KeepTables.storeAfe
  split
  · exact ⟨rfl, ⟨rfl, rfl⟩, rfl⟩
  · split <;> exact ⟨rfl, ⟨rfl, rfl⟩, rfl⟩

theorem storeAfes_same (n : Nat) (rs : List Bytes) (k : KeepTables) :
    (rs.foldl (fun k r => k.storeAfe n r) k).role = k.role ∧
      ((rs.foldl (fun k r => k.storeAfe n r) k).key0 = k.key0 ∧ (rs.foldl (fun k r => k.storeAfe n r) k).key1 = k.key1) ∧
      (rs.foldl (fun k r => k.storeAfe n r) k).budget = k.budget := by
  induction rs generalizing k with
  | nil => exact ⟨rfl, ⟨rfl, rfl⟩, rfl⟩
  | cons r rs ih =>
    have a := ih (k.storeAfe n r)
    have b := storeAfe_same n r k
    exact ⟨a.1.trans b.1, ⟨a.2.1.1.trans b.2.1.1, a.2.1.2.trans b.2.1.2⟩, a.2.2.trans b.2.2⟩

theorem onChan_foot (n : Nat) (f : Chan → Chan) (s : State) :
    Foot [.afe] s (onChan n f s) := by
  unfold onChan
  repeat' (first
    | with_reducible exact Foot.refl | with_reducible assumption | with_reducible apply Foot.ite
    | with_reducible apply Foot.onAfe | exact rfl | split | dsimp only)

theorem faultNote_foot (ch bits : Nat) (set : Bool) (s : State) :
    Foot [.out, .keep, .host, .log, .pmc, .spn, .afe] s (faultNote ch bits set s) := by
  unfold faultNote
  repeat' (first
    | with_reducible exact Foot.refl | with_reducible assumption | with_reducible apply Foot.ite
    | with_reducible apply Foot.after (event_foot _ _ _ _ _ _) | with_reducible apply Foot.onAfe | exact rfl
    | split | dsimp only)

theorem setFaults_foot (ch m : Nat) (s : State) :
    Foot [.out, .keep, .host, .log, .pmc, .spn, .afe] s (setFaults ch m s) := by
  unfold setFaults
  repeat' (first
    | with_reducible exact Foot.refl | with_reducible assumption | with_reducible apply Foot.ite
    | with_reducible apply Foot.after (faultNote_foot _ _ _ _)
    | with_reducible apply Foot.after (onChan_foot _ _ _) | exact rfl | split | dsimp only)

theorem setFault_foot (ch bit : Nat) (v : Bool) (s : State) :
    Foot [.out, .keep, .host, .log, .pmc, .spn, .afe] s (setFault ch bit v s) := by
  unfold setFault
  repeat' (first
    | with_reducible exact Foot.refl | with_reducible assumption | with_reducible apply Foot.ite
    | with_reducible apply Foot.after (setFaults_foot _ _ _) | exact rfl | split | dsimp only)

theorem shareFaults_foot (ch : Nat) (s : State) :
    Foot [.out, .keep, .host, .log, .pmc, .spn, .afe] s (shareFaults ch s) := by
  unfold shareFaults
  repeat' (first
    | with_reducible exact Foot.refl | with_reducible assumption | with_reducible apply Foot.ite
    | with_reducible apply Foot.after (setFault_foot _ _ _ _) | exact rfl | split | dsimp only)

theorem shareAll_foot (s : State) :
    Foot [.out, .keep, .host, .log, .pmc, .spn, .afe] s (shareAll s) := by
  unfold shareAll
  repeat' (first
    | with_reducible exact Foot.refl | with_reducible assumption | with_reducible apply Foot.ite
    | with_reducible refine Foot.foldl ?_ fun v a hv => ?_
    | with_reducible apply Foot.after (shareFaults_foot _ _) | exact rfl | split | dsimp only)

theorem doRefCheck_foot (ok : Bool) (s : State) :
    Foot [.now, .out, .keep, .host, .log, .pmc, .spn, .afe] s (doRefCheck ok s) := by
  unfold doRefCheck
  repeat' (first
    | with_reducible exact Foot.refl | with_reducible assumption | with_reducible apply Foot.ite
    | with_reducible apply Foot.after (shareAll_foot _) | with_reducible apply Foot.after (reach_foot _ _)
    | with_reducible apply Foot.onAfe | exact rfl | split | dsimp only)

theorem excCheck_foot (ch : Nat) (ok : Bool) (s : State) :
    Foot [.out, .keep, .host, .log, .pmc, .spn, .afe] s (excCheck ch ok s) := by
  unfold excCheck
  repeat' (first
    | with_reducible exact Foot.refl | with_reducible assumption | with_reducible apply Foot.ite
    | with_reducible apply Foot.after (shareAll_foot _) | with_reducible apply Foot.onAfe | exact rfl | split
    | dsimp only)

theorem rangeCheck_foot (ch : Nat) (clean : Bool) (d : Int) (s : State) :
    Foot [.out, .keep, .host, .log, .pmc, .spn, .afe] s (rangeCheck ch clean d s) := by
  unfold rangeCheck
  repeat' (first
    | with_reducible exact Foot.refl | with_reducible assumption | with_reducible apply Foot.ite
    | with_reducible apply Foot.after (setFault_foot _ _ _ _)
    | with_reducible apply Foot.after (onChan_foot _ _ _) | exact rfl | split | dsimp only)

theorem finishWord_foot (ch : Nat) (d : Int) (ovr : Bool) (s : State) :
    Foot [.pmc, .afe] s (finishWord ch d ovr s) := by
  unfold finishWord
  repeat' (first
    | with_reducible exact Foot.refl | with_reducible assumption | with_reducible apply Foot.ite
    | with_reducible apply Foot.after (onChan_foot _ _ _) | with_reducible apply Foot.after (count_foot _ _)
    | exact rfl | split | dsimp only)

theorem reachWord_foot (ch at_ : Nat) (s : State) :
    Foot [.now, .pmc, .afe] s (reachWord ch at_ s) := by
  unfold reachWord
  repeat' (first
    | with_reducible exact Foot.refl | with_reducible assumption | with_reducible apply Foot.ite
    | with_reducible apply Foot.after (onChan_foot _ _ _) | with_reducible apply Foot.after (reach_foot _ _)
    | exact rfl | split | dsimp only)

theorem doSdSampleWord_foot (ch : Nat) (x : SdInput) (ovl excOk : Bool) (s : State) :
    Foot [.now, .out, .keep, .host, .log, .pmc, .spn, .afe] s (doSdSampleWord ch x ovl excOk s) := by
  unfold doSdSampleWord
  repeat' (first
    | with_reducible exact Foot.refl | with_reducible assumption | with_reducible apply Foot.ite
    | with_reducible apply Foot.after (reachWord_foot _ _ _)
    | with_reducible apply Foot.after (finishWord_foot _ _ _ _)
    | with_reducible apply Foot.after (rangeCheck_foot _ _ _ _)
    | with_reducible apply Foot.after (excCheck_foot _ _ _)
    | with_reducible apply Foot.after (setFault_foot _ _ _ _)
    | with_reducible apply Foot.after (onChan_foot _ _ _) | exact rfl | split | dsimp only)

theorem doBurnoutTest_foot (ch : Nat) (x : SdInput) (s : State) :
    Foot [.now, .out, .keep, .host, .log, .pmc, .spn, .afe] s (doBurnoutTest ch x s) := by
  unfold doBurnoutTest
  repeat' (first
    | with_reducible exact Foot.refl | with_reducible assumption | with_reducible apply Foot.ite
    | with_reducible apply Foot.after (reachWord_foot _ _ _)
    | with_reducible apply Foot.after (finishWord_foot _ _ _ _)
    | with_reducible apply Foot.after (setFault_foot _ _ _ _)
    | with_reducible apply Foot.after (onChan_foot _ _ _) | exact rfl | split | dsimp only)

theorem sarWord_foot (k code : Nat) (s : State) :
    Foot [.pmc, .afe] s (sarWord k code s) := by
  unfold sarWord
  repeat' (first
    | with_reducible exact Foot.refl | with_reducible assumption | with_reducible apply Foot.ite
    | with_reducible apply Foot.after (onChan_foot _ _ _) | with_reducible apply Foot.after (count_foot _ _)
    | exact rfl | split | dsimp only)

theorem doSamplePageCopy_foot (s : State) :
    Foot [.now, .pmc, .afe, .qre, .mem] s (doSamplePageCopy s) := by
  unfold doSamplePageCopy
  repeat' (first
    | with_reducible exact Foot.refl | with_reducible assumption | with_reducible apply Foot.ite
    | with_reducible refine Foot.foldl ?_ fun v a hv => ?_
    | with_reducible apply Foot.after (onChan_foot _ _ _)
    | with_reducible apply Foot.after (binderWrite_foot _ _ _)
    | with_reducible apply Foot.after (reach_foot _ _) | with_reducible apply Foot.onAfe | exact rfl | split
    | dsimp only)

theorem doPulseEdge_foot (k : Nat) (falling : Bool) (period phase : Nat) (s : State) :
    Foot [.out, .keep, .host, .log, .pmc, .spn, .afe] s (doPulseEdge k falling period phase s) := by
  unfold doPulseEdge
  repeat' (first
    | with_reducible exact Foot.refl | with_reducible assumption | with_reducible apply Foot.ite
    | with_reducible apply Foot.after (onChan_foot _ _ _)
    | with_reducible apply Foot.after (event_foot _ _ _ _ _ _)
    | with_reducible apply Foot.after (count_foot _ _) | exact rfl | split | dsimp only)

theorem doPulseTimeout_foot (k : Nat) (s : State) :
    Foot [.now, .out, .keep, .host, .log, .pmc, .spn, .afe] s (doPulseTimeout k s) := by
  unfold doPulseTimeout
  repeat' (first
    | with_reducible exact Foot.refl | with_reducible assumption | with_reducible apply Foot.ite
    | with_reducible apply Foot.after (onChan_foot _ _ _)
    | with_reducible apply Foot.after (event_foot _ _ _ _ _ _)
    | with_reducible apply Foot.after (reach_foot _ _) | exact rfl | split | dsimp only)

theorem dropFaults_foot (ch : Nat) (s : State) :
    Foot [.out, .keep, .host, .log, .pmc, .spn, .afe] s (dropFaults ch s) := by
  unfold dropFaults
  repeat' (first
    | with_reducible exact Foot.refl | with_reducible assumption | with_reducible apply Foot.ite
    | with_reducible apply Foot.after (setFault_foot _ _ _ _)
    | with_reducible apply Foot.after (setFaults_foot _ _ _) | exact rfl | split | dsimp only)

theorem loadChans_foot (rec_ : Nat → Option Bytes) (cal : Tab Bytes) (codes : Tab Nat) (s : State) :
    Foot [.out, .keep, .host, .log, .pmc, .spn, .afe] s (loadChans rec_ cal codes s) := by
  unfold loadChans
  repeat' (first
    | with_reducible exact Foot.refl | with_reducible assumption | with_reducible apply Foot.ite
    | with_reducible refine Foot.foldl ?_ fun v a hv => ?_
    | with_reducible apply Foot.after (dropFaults_foot _ _) | with_reducible apply Foot.after (shareAll_foot _)
    | with_reducible apply Foot.after (onChan_foot _ _ _) | with_reducible apply Foot.onAfe | exact rfl | split
    | dsimp only)

theorem loadStored_foot (s : State) :
    Foot [.out, .keep, .host, .log, .pmc, .spn, .afe] s (loadStored s) := by
  unfold loadStored
  repeat' (first
    | with_reducible exact Foot.refl | with_reducible assumption | with_reducible apply Foot.ite
    | with_reducible apply Foot.after (loadChans_foot _ _ _ _) | exact rfl | split | dsimp only)

theorem fxAfeConfig_foot (e : JEntry) (s : State) :
    Foot [.out, .keep, .kt, .mbx, .jr, .stg, .host, .log, .pmc, .spn, .pair, .afe, .stw] s (fxAfeConfig e s) := by
  unfold fxAfeConfig
  repeat' (first
    | with_reducible exact Foot.refl | with_reducible assumption | with_reducible apply Foot.ite
    | with_reducible refine Foot.foldl ?_ fun v a hv => ?_
    | with_reducible apply Foot.after (loadStored_foot _)
    | with_reducible apply Foot.after (finish0_foot _ _ _) | with_reducible apply Foot.onKt
    | with_reducible apply Foot.onAfe | exact rfl | exact .inl rfl | with_reducible exact .inr rfl
    | with_reducible exact .inr (.inl rfl) | with_reducible exact .inr ⟨rfl, rfl⟩ | exact .inr rfl
    | exact .inr (.inl rfl) | exact .inr ⟨rfl, rfl⟩ | exact .inr (storeAfes_same _ _ _).1
    | exact .inr (storeAfes_same _ _ _).2.1 | exact .inr (storeAfes_same _ _ _).2.2 | split | dsimp only)

theorem applyAfe_foot (s : State) :
    Foot [.out, .keep, .mbx, .jr, .stg, .host, .log, .pmc, .spn, .pair, .afe, .stw] s (applyAfe s) := by
  unfold applyAfe
  repeat' (first
    | with_reducible exact Foot.refl | with_reducible assumption | with_reducible apply Foot.ite
    | with_reducible refine Foot.foldl ?_ fun v a hv => ?_
    | with_reducible apply Foot.after (loadStored_foot _)
    | with_reducible apply Foot.after (finish0_foot _ _ _) | with_reducible apply Foot.onAfe | exact rfl
    | split | dsimp only)

theorem flushNotes_foot (s : State) :
    Foot [.out, .keep, .host, .log, .pmc, .spn, .afe] s (flushNotes s) := by
  unfold flushNotes
  repeat' (first
    | with_reducible exact Foot.refl | with_reducible assumption | with_reducible apply Foot.ite
    | with_reducible refine Foot.foldl ?_ fun v a hv => ?_
    | with_reducible apply Foot.after (event_foot _ _ _ _ _ _) | with_reducible apply Foot.onAfe | exact rfl
    | split | dsimp only)

theorem sensorQuery_foot (m : Nat) (cw : DWord) (b : Bytes) (s : State) :
    Foot [.mbx, .ket, .afe, .stw] s (sensorQuery m cw b s) := by
  unfold sensorQuery
  repeat' (first
    | with_reducible exact Foot.refl | with_reducible assumption | with_reducible apply Foot.ite
    | with_reducible apply Foot.after (askRopes_foot _ _)
    | with_reducible apply Foot.after (respond_foot _ _ _) | with_reducible apply Foot.onAfe | exact rfl
    | split | dsimp only)

theorem answerAsks_foot (s : State) :
    Foot [.mbx, .afe, .stw] s (answerAsks s) := by
  unfold answerAsks
  repeat' (first
    | with_reducible exact Foot.refl | with_reducible assumption | with_reducible apply Foot.ite
    | with_reducible refine Foot.foldl ?_ fun v a hv => ?_
    | with_reducible apply Foot.after (respond_foot _ _ _) | with_reducible apply Foot.onAfe | exact rfl
    | split | dsimp only)

end Sys2Proof.Machine
end

