-- ==== Sys2Proof/Laws/FootDrive.lean ====
section
/-! SUPPORT. Laws/FootDrive.lean: the footprint of each operation of Machine/Drive.lean. -/

set_option linter.unusedTactic false
set_option linter.unreachableTactic false
set_option linter.unusedVariables false

namespace Sys2Proof.Machine

theorem onPump_foot (n : Nat) (f : Pump → Pump) (s : State) :
    Foot [.drv] s (onPump n f s) := by
  unfold onPump
  repeat' (first
    | with_reducible exact Foot.refl | with_reducible assumption | with_reducible apply Foot.ite
    | with_reducible apply Foot.onDrv | exact rfl | split | dsimp only)

theorem onFan_foot (n : Nat) (f : Fan → Fan) (s : State) :
    Foot [.drv] s (onFan n f s) := by
  unfold onFan
  repeat' (first
    | with_reducible exact Foot.refl | with_reducible assumption | with_reducible apply Foot.ite
    | with_reducible apply Foot.onDrv | exact rfl | split | dsimp only)

theorem onValve_foot (n : Nat) (f : Valve → Valve) (s : State) :
    Foot [.drv] s (onValve n f s) := by
  unfold onValve
  repeat' (first
    | with_reducible exact Foot.refl | with_reducible assumption | with_reducible apply Foot.ite
    | with_reducible apply Foot.onDrv | exact rfl | split | dsimp only)

theorem startPump_foot (n : Nat) (st : PumpSt) (s : State) :
    Foot [.drv] s (startPump n st s) := by
  unfold startPump
  repeat' (first
    | with_reducible exact Foot.refl | with_reducible assumption | with_reducible apply Foot.ite
    | with_reducible apply Foot.after (onPump_foot _ _ _) | exact rfl | split | dsimp only)

theorem setTarget_foot (n t : Nat) (st : PumpSt) (s : State) :
    Foot [.drv] s (setTarget n t st s) := by
  unfold setTarget
  repeat' (first
    | with_reducible exact Foot.refl | with_reducible assumption | with_reducible apply Foot.ite
    | with_reducible apply Foot.after (startPump_foot _ _ _)
    | with_reducible apply Foot.after (onPump_foot _ _ _) | exact rfl | split | dsimp only)

theorem setFloors_foot (s : State) :
    Foot [.drv] s (setFloors s) := by
  unfold setFloors
  repeat' (first
    | with_reducible exact Foot.refl | with_reducible assumption | with_reducible apply Foot.ite
    | with_reducible refine Foot.foldl ?_ fun v a hv => ?_ | with_reducible apply Foot.after (onFan_foot _ _ _)
    | with_reducible apply Foot.after (onPump_foot _ _ _) | exact rfl | split | dsimp only)

theorem seekFloors_foot (s : State) :
    Foot [.drv] s (seekFloors s) := by
  unfold seekFloors
  repeat' (first
    | with_reducible exact Foot.refl | with_reducible assumption | with_reducible apply Foot.ite
    | with_reducible refine Foot.foldl ?_ fun v a hv => ?_
    | with_reducible apply Foot.after (setTarget_foot _ _ _ _)
    | with_reducible apply Foot.after (onFan_foot _ _ _) | exact rfl | split | dsimp only)

theorem useTable_foot (t : Option Bytes) (s : State) :
    Foot [.kt, .afe, .drv] s (useTable t s) := by
  unfold useTable
  repeat' (first
    | with_reducible exact Foot.refl | with_reducible assumption | with_reducible apply Foot.ite
    | with_reducible refine Foot.foldl ?_ fun v a hv => ?_
    | with_reducible apply Foot.after (onValve_foot _ _ _) | with_reducible apply Foot.after (onFan_foot _ _ _)
    | with_reducible apply Foot.after (onPump_foot _ _ _) | with_reducible apply Foot.onKt
    | with_reducible apply Foot.onAfe | with_reducible apply Foot.onDrv | exact rfl | exact .inl rfl
    | with_reducible exact .inr rfl | with_reducible exact .inr (.inl rfl)
    | with_reducible exact .inr ⟨rfl, rfl⟩ | exact .inr rfl | exact .inr (.inl rfl) | exact .inr ⟨rfl, rfl⟩
    | split | dsimp only)

theorem freshLevel_foot (s : State) :
    Foot [.drv] s (freshLevel s) := by
  unfold freshLevel
  repeat' (first
    | with_reducible exact Foot.refl | with_reducible assumption | with_reducible apply Foot.ite
    | with_reducible refine Foot.foldl ?_ fun v a hv => ?_
    | with_reducible apply Foot.after (seekFloors_foot _) | with_reducible apply Foot.after (setFloors_foot _)
    | with_reducible apply Foot.after (onPump_foot _ _ _) | with_reducible apply Foot.onDrv | exact rfl | split
    | dsimp only)

theorem loadNamed_foot (s : State) :
    Foot [.out, .keep, .host, .log, .pmc, .spn, .afe] s (loadNamed s) := by
  unfold loadNamed
  repeat' (first
    | with_reducible exact Foot.refl | with_reducible assumption | with_reducible apply Foot.ite
    | with_reducible apply Foot.after (loadChans_foot _ _ _ _) | exact rfl | split | dsimp only)

theorem doFieldResetRelease_foot (s : State) :
    Foot [.out, .keep, .pwr, .kt, .host, .log, .pmc, .spn, .afe, .drv] s (doFieldResetRelease s) := by
  unfold doFieldResetRelease
  repeat' (first
    | with_reducible exact Foot.refl | with_reducible assumption | with_reducible apply Foot.ite
    | with_reducible refine Foot.foldl ?_ fun v a hv => ?_ | with_reducible apply Foot.after (loadNamed_foot _)
    | with_reducible apply Foot.after (freshLevel_foot _) | with_reducible apply Foot.after (useTable_foot _ _)
    | with_reducible apply Foot.after (onValve_foot _ _ _)
    | with_reducible apply Foot.after (event_foot _ _ _ _ _ _)
    | with_reducible apply Foot.after (record_foot _ _ _ _ _) | with_reducible apply Foot.onPwr
    | with_reducible apply Foot.onAfe | with_reducible apply Foot.onDrv | exact rfl | split | dsimp only)

theorem endBelow_foot (e : Nat) (result : Word) (s : State) :
    Foot [.out, .keep, .mbx, .jr, .stg, .host, .log, .pmc, .spn, .pair, .drv, .stw] s (endBelow e result s) := by
  unfold endBelow
  repeat' (first
    | with_reducible exact Foot.refl | with_reducible assumption | with_reducible apply Foot.ite
    | with_reducible apply Foot.after (seekFloors_foot _) | with_reducible apply Foot.after (setFloors_foot _)
    | with_reducible apply Foot.after (dropBelow_foot _ _ _)
    | with_reducible apply Foot.after (finish0_foot _ _ _) | exact rfl | split | dsimp only)

theorem pumpFault_foot (n f : Nat) (s : State) :
    Foot [.out, .keep, .mbx, .jr, .stg, .host, .log, .pmc, .spn, .pair, .drv, .stw] s (pumpFault n f s) := by
  unfold pumpFault
  repeat' (first
    | with_reducible exact Foot.refl | with_reducible assumption | with_reducible apply Foot.ite
    | with_reducible apply Foot.after (endBelow_foot _ _ _)
    | with_reducible apply Foot.after (onPump_foot _ _ _)
    | with_reducible apply Foot.after (event_foot _ _ _ _ _ _)
    | with_reducible apply Foot.after (count_foot _ _) | exact rfl | split | dsimp only)

theorem doPumpStall_foot (n : Nat) (s : State) :
    Foot [.now, .out, .keep, .mbx, .jr, .stg, .host, .log, .pmc, .spn, .pair, .drv, .stw] s (doPumpStall n s) := by
  unfold doPumpStall
  repeat' (first
    | with_reducible exact Foot.refl | with_reducible assumption | with_reducible apply Foot.ite
    | with_reducible apply Foot.after (pumpFault_foot _ _ _) | with_reducible apply Foot.after (reach_foot _ _)
    | exact rfl | split | dsimp only)

theorem doPumpOverspeed_foot (n : Nat) (s : State) :
    Foot [.now, .out, .keep, .mbx, .jr, .stg, .host, .log, .pmc, .spn, .pair, .drv, .stw]
      s (doPumpOverspeed n s) := by
  unfold doPumpOverspeed
  repeat' (first
    | with_reducible exact Foot.refl | with_reducible assumption | with_reducible apply Foot.ite
    | with_reducible apply Foot.after (pumpFault_foot _ _ _) | with_reducible apply Foot.after (reach_foot _ _)
    | exact rfl | split | dsimp only)

theorem doSarConversion_foot (k code : Nat) (s : State) :
    Foot [.out, .keep, .mbx, .jr, .stg, .host, .log, .pmc, .spn, .pair, .afe, .drv, .stw]
      s (doSarConversion k code s) := by
  unfold doSarConversion
  repeat' (first
    | with_reducible exact Foot.refl | with_reducible assumption | with_reducible apply Foot.ite
    | with_reducible apply Foot.after (pumpFault_foot _ _ _)
    | with_reducible apply Foot.after (onPump_foot _ _ _)
    | with_reducible apply Foot.after (sarWord_foot _ _ _) | exact rfl | split | dsimp only)

theorem restartPump_foot (n : Nat) (s : State) :
    Foot [.out, .keep, .host, .log, .pmc, .spn, .drv] s (restartPump n s) := by
  unfold restartPump
  repeat' (first
    | with_reducible exact Foot.refl | with_reducible assumption | with_reducible apply Foot.ite
    | with_reducible apply Foot.after (setTarget_foot _ _ _ _)
    | with_reducible apply Foot.after (onPump_foot _ _ _)
    | with_reducible apply Foot.after (event_foot _ _ _ _ _ _) | exact rfl | split | dsimp only)

theorem askRestart_foot (n : Nat) (s : State) :
    Foot [.out, .keep, .host, .log, .pmc, .spn, .lv, .drv] s (askRestart n s) := by
  unfold askRestart
  repeat' (first
    | with_reducible exact Foot.refl | with_reducible assumption | with_reducible apply Foot.ite
    | with_reducible apply Foot.after (restartPump_foot _ _)
    | with_reducible apply Foot.after (waitLeave_foot _ _ _ _ _ _)
    | with_reducible apply Foot.after (grantInternal_foot _ _ _ _ _)
    | with_reducible apply Foot.after (reportUnset_foot _) | exact rfl | split | dsimp only)

theorem doPumpRetryRestart_foot (n : Nat) (s : State) :
    Foot [.now, .out, .keep, .host, .log, .pmc, .spn, .lv, .drv] s (doPumpRetryRestart n s) := by
  unfold doPumpRetryRestart
  repeat' (first
    | with_reducible exact Foot.refl | with_reducible assumption | with_reducible apply Foot.ite
    | with_reducible apply Foot.after (askRestart_foot _ _) | with_reducible apply Foot.after (reach_foot _ _)
    | exact rfl | split | dsimp only)

theorem doPumpCurrentLoop_foot (n rotor : Nat) (s : State) :
    Foot [.now, .pmc, .drv] s (doPumpCurrentLoop n rotor s) := by
  unfold doPumpCurrentLoop
  repeat' (first
    | with_reducible exact Foot.refl | with_reducible assumption | with_reducible apply Foot.ite
    | with_reducible apply Foot.after (onPump_foot _ _ _) | with_reducible apply Foot.after (count_foot _ _)
    | with_reducible apply Foot.after (reach_foot _ _) | exact rfl | split | dsimp only)

theorem doPumpSpeedLoop_foot (n : Nat) (speed : Int) (s : State) :
    Foot [.drv] s (doPumpSpeedLoop n speed s) := by
  unfold doPumpSpeedLoop
  repeat' (first
    | with_reducible exact Foot.refl | with_reducible assumption | with_reducible apply Foot.ite
    | with_reducible apply Foot.after (onPump_foot _ _ _) | exact rfl | split | dsimp only)

theorem doEncoderAlignDone_foot (n : Nat) (s : State) :
    Foot [.now, .pmc, .drv] s (doEncoderAlignDone n s) := by
  unfold doEncoderAlignDone
  repeat' (first
    | with_reducible exact Foot.refl | with_reducible assumption | with_reducible apply Foot.ite
    | with_reducible apply Foot.after (onPump_foot _ _ _) | with_reducible apply Foot.after (reach_foot _ _)
    | exact rfl | split | dsimp only)

theorem doPwmParamApply_foot (n : Nat) (s : State) :
    Foot [.now, .pmc, .drv] s (doPwmParamApply n s) := by
  unfold doPwmParamApply
  repeat' (first
    | with_reducible exact Foot.refl | with_reducible assumption | with_reducible apply Foot.ite
    | with_reducible apply Foot.after (onPump_foot _ _ _) | with_reducible apply Foot.after (reach_foot _ _)
    | exact rfl | split | dsimp only)

theorem senseFail_foot (i : Nat) (s : State) :
    Foot [.out, .keep, .host, .log, .pmc, .spn, .drv] s (senseFail i s) := by
  unfold senseFail
  repeat' (first
    | with_reducible exact Foot.refl | with_reducible assumption | with_reducible apply Foot.ite
    | with_reducible apply Foot.after (event_foot _ _ _ _ _ _) | with_reducible apply Foot.onDrv | exact rfl
    | split | dsimp only)

theorem reportLevel_foot (old : Nat) (s : State) :
    Foot [.out, .keep, .host, .log, .pmc, .spn, .drv] s (reportLevel old s) := by
  unfold reportLevel
  repeat' (first
    | with_reducible exact Foot.refl | with_reducible assumption | with_reducible apply Foot.ite
    | with_reducible apply Foot.after (event_foot _ _ _ _ _ _)
    | with_reducible apply Foot.after (count_foot _ _) | with_reducible apply Foot.onDrv | exact rfl | split
    | dsimp only)

theorem moveLevel_foot (s : State) :
    Foot [.out, .keep, .host, .log, .pmc, .spn, .drv] s (moveLevel s) := by
  unfold moveLevel
  repeat' (first
    | with_reducible exact Foot.refl | with_reducible assumption | with_reducible apply Foot.ite
    | with_reducible apply Foot.after (reportLevel_foot _ _) | with_reducible apply Foot.onDrv | exact rfl
    | split | dsimp only)

theorem slewAll_foot (s : State) :
    Foot [.drv] s (slewAll s) := by
  unfold slewAll
  repeat' (first
    | with_reducible exact Foot.refl | with_reducible assumption | with_reducible apply Foot.ite
    | with_reducible refine Foot.foldl ?_ fun v a hv => ?_
    | with_reducible apply Foot.after (onValve_foot _ _ _) | with_reducible apply Foot.after (onFan_foot _ _ _)
    | exact rfl | split | dsimp only)

theorem watchAll_foot (s : State) :
    Foot [.drv] s (watchAll s) := by
  unfold watchAll
  repeat' (first
    | with_reducible exact Foot.refl | with_reducible assumption | with_reducible apply Foot.ite
    | with_reducible refine Foot.foldl ?_ fun v a hv => ?_ | with_reducible apply Foot.after (onFan_foot _ _ _)
    | with_reducible apply Foot.after (onPump_foot _ _ _) | exact rfl | split | dsimp only)

theorem doHwTableStep_foot (s : State) :
    Foot [.now, .out, .keep, .host, .log, .pmc, .spn, .drv] s (doHwTableStep s) := by
  unfold doHwTableStep
  repeat' (first
    | with_reducible exact Foot.refl | with_reducible assumption | with_reducible apply Foot.ite
    | with_reducible refine Foot.foldl ?_ fun v a hv => ?_ | with_reducible apply Foot.after (watchAll_foot _)
    | with_reducible apply Foot.after (slewAll_foot _) | with_reducible apply Foot.after (moveLevel_foot _)
    | with_reducible apply Foot.after (senseFail_foot _ _)
    | with_reducible apply Foot.after (seekFloors_foot _) | with_reducible apply Foot.after (setFloors_foot _)
    | with_reducible apply Foot.after (reach_foot _ _) | with_reducible apply Foot.onDrv | exact rfl | split
    | dsimp only)

theorem reportLate_foot (e out floor : Nat) (s : State) :
    Foot [.out, .keep, .host, .log, .pmc, .spn] s (reportLate e out floor s) := by
  unfold reportLate
  repeat' (first
    | with_reducible exact Foot.refl | with_reducible assumption | with_reducible apply Foot.ite
    | with_reducible apply Foot.after (event_foot _ _ _ _ _ _) | exact rfl | split | dsimp only)

theorem floorLate_foot (e : Nat) (s : State) :
    Foot [.now, .out, .keep, .host, .log, .pmc, .spn, .drv] s (floorLate e s).2 := by
  unfold floorLate
  repeat' (first
    | with_reducible exact Foot.refl | with_reducible assumption | with_reducible apply Foot.ite
    | with_reducible apply Foot.after (reportLate_foot _ _ _ _)
    | with_reducible apply Foot.after (onFan_foot _ _ _) | with_reducible apply Foot.after (onPump_foot _ _ _)
    | with_reducible apply Foot.after (reach_foot _ _) | exact rfl | split | dsimp only)

theorem limited_foot (e : Nat) (was now_ : Bool) (s : State) :
    Foot [.out, .keep, .host, .log, .pmc, .spn] s (limited e was now_ s) := by
  unfold limited
  repeat' (first
    | with_reducible exact Foot.refl | with_reducible assumption | with_reducible apply Foot.ite
    | with_reducible apply Foot.after (event_foot _ _ _ _ _ _) | exact rfl | split | dsimp only)

theorem pumpPoint_foot (n v : Nat) (s : State) :
    Foot [.out, .keep, .host, .log, .pmc, .spn, .drv] s (pumpPoint n v s) := by
  unfold pumpPoint
  repeat' (first
    | with_reducible exact Foot.refl | with_reducible assumption | with_reducible apply Foot.ite
    | with_reducible apply Foot.after (limited_foot _ _ _ _)
    | with_reducible apply Foot.after (setTarget_foot _ _ _ _)
    | with_reducible apply Foot.after (onPump_foot _ _ _) | exact rfl | split | dsimp only)

theorem fanPoint_foot (n v : Nat) (s : State) :
    Foot [.out, .keep, .host, .log, .pmc, .spn, .drv] s (fanPoint n v s) := by
  unfold fanPoint
  repeat' (first
    | with_reducible exact Foot.refl | with_reducible assumption | with_reducible apply Foot.ite
    | with_reducible apply Foot.after (limited_foot _ _ _ _)
    | with_reducible apply Foot.after (onFan_foot _ _ _) | exact rfl | split | dsimp only)

theorem valvePoint_foot (n v : Nat) (s : State) :
    Foot [.out, .keep, .host, .log, .pmc, .spn, .drv] s (valvePoint n v s) := by
  unfold valvePoint
  repeat' (first
    | with_reducible exact Foot.refl | with_reducible assumption | with_reducible apply Foot.ite
    | with_reducible apply Foot.after (limited_foot _ _ _ _)
    | with_reducible apply Foot.after (onValve_foot _ _ _) | exact rfl | split | dsimp only)

theorem localPoint_foot (e : Nat) (v : Int) (s : State) :
    Foot [.out, .keep, .host, .log, .pmc, .spn, .drv] s (localPoint e v s) := by
  unfold localPoint
  repeat' (first
    | with_reducible exact Foot.refl | with_reducible assumption | with_reducible apply Foot.ite
    | with_reducible apply Foot.after (valvePoint_foot _ _ _)
    | with_reducible apply Foot.after (fanPoint_foot _ _ _)
    | with_reducible apply Foot.after (pumpPoint_foot _ _ _) | exact rfl | split | dsimp only)

theorem doFanStall_foot (n : Nat) (s : State) :
    Foot [.now, .out, .keep, .host, .log, .pmc, .spn, .drv] s (doFanStall n s) := by
  unfold doFanStall
  repeat' (first
    | with_reducible exact Foot.refl | with_reducible assumption | with_reducible apply Foot.ite
    | with_reducible apply Foot.after (onFan_foot _ _ _)
    | with_reducible apply Foot.after (event_foot _ _ _ _ _ _)
    | with_reducible apply Foot.after (reach_foot _ _) | exact rfl | split | dsimp only)

theorem fanSpins_foot (n : Nat) (s : State) :
    Foot [.out, .keep, .host, .log, .pmc, .spn, .drv] s (fanSpins n s) := by
  unfold fanSpins
  repeat' (first
    | with_reducible exact Foot.refl | with_reducible assumption | with_reducible apply Foot.ite
    | with_reducible apply Foot.after (onFan_foot _ _ _)
    | with_reducible apply Foot.after (event_foot _ _ _ _ _ _) | exact rfl | split | dsimp only)

theorem pulseAndFan_foot (ch : Nat) (falling : Bool) (period phase : Nat) (s : State) :
    Foot [.out, .keep, .host, .log, .pmc, .spn, .afe, .drv] s (pulseAndFan ch falling period phase s) := by
  unfold pulseAndFan
  repeat' (first
    | with_reducible exact Foot.refl | with_reducible assumption | with_reducible apply Foot.ite
    | with_reducible apply Foot.after (fanSpins_foot _ _)
    | with_reducible apply Foot.after (doPulseEdge_foot _ _ _ _ _) | exact rfl | split | dsimp only)

theorem doValveFeedbackSample_foot (v uV : Nat) (s : State) :
    Foot [.drv] s (doValveFeedbackSample v uV s) := by
  unfold doValveFeedbackSample
  repeat' (first
    | with_reducible exact Foot.refl | with_reducible assumption | with_reducible apply Foot.ite
    | with_reducible apply Foot.after (onValve_foot _ _ _) | exact rfl | split | dsimp only)

theorem doValveLoopFault_foot (v : Nat) (opn set : Bool) (s : State) :
    Foot [.now, .out, .keep, .host, .log, .pmc, .spn, .drv] s (doValveLoopFault v opn set s) := by
  unfold doValveLoopFault
  repeat' (first
    | with_reducible exact Foot.refl | with_reducible assumption | with_reducible apply Foot.ite
    | with_reducible apply Foot.after (onValve_foot _ _ _)
    | with_reducible apply Foot.after (event_foot _ _ _ _ _ _)
    | with_reducible apply Foot.after (reach_foot _ _) | exact rfl | split | dsimp only)

theorem clearLockouts_foot (m : Nat) (s : State) :
    Foot [.drv] s (clearLockouts m s) := by
  unfold clearLockouts
  repeat' (first
    | with_reducible exact Foot.refl | with_reducible assumption | with_reducible apply Foot.ite
    | with_reducible refine Foot.foldl ?_ fun v a hv => ?_
    | with_reducible apply Foot.after (onPump_foot _ _ _) | exact rfl | split | dsimp only)

theorem reloadTable_foot (t : Bytes) (s : State) :
    Foot [.out, .keep, .kt, .host, .log, .pmc, .spn, .afe, .drv] s (reloadTable t s) := by
  unfold reloadTable
  repeat' (first
    | with_reducible exact Foot.refl | with_reducible assumption | with_reducible apply Foot.ite
    | with_reducible apply Foot.after (reportLevel_foot _ _)
    | with_reducible apply Foot.after (loadNamed_foot _) | with_reducible apply Foot.after (freshLevel_foot _)
    | with_reducible apply Foot.after (useTable_foot _ _) | exact rfl | split | dsimp only)

theorem loadTable_foot (w : Nat × Option Bytes × Nat) (s : State) :
    Foot [.out, .keep, .kt, .mbx, .jr, .stg, .host, .log, .pmc, .spn, .pair, .afe, .drv, .stw] s (loadTable w s) := by
  unfold loadTable
  repeat' (first
    | with_reducible exact Foot.refl | with_reducible assumption | with_reducible apply Foot.ite
    | with_reducible apply Foot.after (reloadTable_foot _ _)
    | with_reducible apply Foot.after (clearLockouts_foot _ _)
    | with_reducible apply Foot.after (seekFloors_foot _)
    | with_reducible apply Foot.after (finish0_foot _ _ _) | exact rfl | split | dsimp only)

theorem fxKeeperTable_foot (e : JEntry) (s : State) :
    Foot [.free, .out, .keep, .kt, .mbx, .jr, .stg, .host, .log, .pmc, .spn, .pair, .afe, .drv, .stw]
      s (fxKeeperTable e s) := by
  unfold fxKeeperTable
  repeat' (first
    | with_reducible exact Foot.refl | with_reducible assumption | with_reducible apply Foot.ite
    | with_reducible apply Foot.after (loadTable_foot _ _)
    | with_reducible apply Foot.after (waitObject_foot _ _)
    | with_reducible apply Foot.after (finish0_foot _ _ _) | with_reducible apply Foot.after (draw_foot _)
    | with_reducible refine Foot.then ?_ (Foot.of_eq (draw_foot _) (by assumption)) ?_
    | with_reducible apply Foot.onKt | with_reducible apply Foot.onDrv | exact rfl | exact .inl rfl
    | with_reducible exact .inr rfl | with_reducible exact .inr (.inl rfl)
    | with_reducible exact .inr ⟨rfl, rfl⟩ | exact .inr rfl | exact .inr (.inl rfl) | exact .inr ⟨rfl, rfl⟩
    | split | dsimp only)

theorem applyTables_foot (s : State) :
    Foot [.out, .keep, .kt, .mbx, .jr, .stg, .host, .log, .pmc, .spn, .pair, .afe, .drv, .stw] s (applyTables s) := by
  unfold applyTables
  repeat' (first
    | with_reducible exact Foot.refl | with_reducible assumption | with_reducible apply Foot.ite
    | with_reducible refine Foot.foldl ?_ fun v a hv => ?_
    | with_reducible apply Foot.after (loadTable_foot _ _) | with_reducible apply Foot.onDrv | exact rfl
    | split | dsimp only)

theorem fxBelow_foot (e : JEntry) (s : State) :
    Foot [.out, .keep, .mbx, .jr, .stg, .host, .log, .pmc, .spn, .pair, .drv, .stw] s (fxBelow e s) := by
  unfold fxBelow
  repeat' (first
    | with_reducible exact Foot.refl | with_reducible assumption | with_reducible apply Foot.ite
    | with_reducible apply Foot.after (endBelow_foot _ _ _)
    | with_reducible apply Foot.after (seekFloors_foot _) | with_reducible apply Foot.after (setFloors_foot _)
    | with_reducible apply Foot.after (finish0_foot _ _ _)
    | with_reducible apply Foot.after (event_foot _ _ _ _ _ _) | with_reducible apply Foot.onDrv | exact rfl
    | split | dsimp only)

theorem doBelowFloorEnd_foot (fan : Bool) (index : Nat) (s : State) :
    Foot [.now, .out, .keep, .mbx, .jr, .stg, .host, .log, .pmc, .spn, .pair, .drv, .stw]
      s (doBelowFloorEnd fan index s) := by
  unfold doBelowFloorEnd
  repeat' (first
    | with_reducible exact Foot.refl | with_reducible assumption | with_reducible apply Foot.ite
    | with_reducible apply Foot.after (endBelow_foot _ _ _) | with_reducible apply Foot.after (reach_foot _ _)
    | exact rfl | split | dsimp only)

theorem stayPut_foot (s : State) :
    Foot [.drv] s (stayPut s) := by
  unfold stayPut
  repeat' (first
    | with_reducible exact Foot.refl | with_reducible assumption | with_reducible apply Foot.ite
    | with_reducible refine Foot.foldl ?_ fun v a hv => ?_ | with_reducible apply Foot.after (onFan_foot _ _ _)
    | with_reducible apply Foot.after (onPump_foot _ _ _) | with_reducible apply Foot.onDrv | exact rfl | split
    | dsimp only)

theorem doBinderHeartbeat_foot (s : State) :
    Foot [.free, .drv] s (doBinderHeartbeat s) := by
  unfold doBinderHeartbeat
  repeat' (first
    | with_reducible apply Foot.after (draw_foot _)
    | with_reducible refine Foot.then ?_ (Foot.of_eq (draw_foot _) (by assumption)) ?_
    | with_reducible exact Foot.refl | with_reducible assumption | with_reducible apply Foot.ite
    | with_reducible apply Foot.after (stayPut_foot _) | with_reducible apply Foot.onDrv | exact rfl | split
    | dsimp only)

theorem silenceActs_foot (start : Nat) (s : State) :
    Foot [.out, .keep, .mbx, .jr, .stg, .host, .log, .pmc, .spn, .pair, .drv, .stw] s (silenceActs start s) := by
  unfold silenceActs
  repeat' (first
    | with_reducible exact Foot.refl | with_reducible assumption | with_reducible apply Foot.ite
    | with_reducible refine Foot.foldl ?_ fun v a hv => ?_
    | with_reducible apply Foot.after (endBelow_foot _ _ _)
    | with_reducible apply Foot.after (setTarget_foot _ _ _ _)
    | with_reducible apply Foot.after (onFan_foot _ _ _) | with_reducible apply Foot.after (onPump_foot _ _ _)
    | with_reducible apply Foot.after (event_foot _ _ _ _ _ _) | with_reducible apply Foot.onDrv | exact rfl
    | split | dsimp only)

theorem doBinderSilent_foot (s : State) :
    Foot [.now, .out, .keep, .mbx, .jr, .stg, .host, .log, .pmc, .spn, .pair, .drv, .stw] s (doBinderSilent s) := by
  unfold doBinderSilent
  repeat' (first
    | with_reducible exact Foot.refl | with_reducible assumption | with_reducible apply Foot.ite
    | with_reducible apply Foot.after (silenceActs_foot _ _) | with_reducible apply Foot.after (reach_foot _ _)
    | exact rfl | split | dsimp only)

end Sys2Proof.Machine
end

