-- ==== Sys2Proof/Laws/FootCan.lean ====
section
/-! SUPPORT. Laws/FootCan.lean: the footprint of each operation of Machine/Can.lean. -/

set_option linter.unusedTactic false
set_option linter.unreachableTactic false
set_option linter.unusedVariables false

namespace Sys2Proof.Machine

theorem onCh_foot (c : Nat) (f : CanCh → CanCh) (s : State) :
    Foot [.can] s (onCh c f s) := by
  unfold onCh
  repeat' (first
    | with_reducible exact Foot.refl | with_reducible assumption | with_reducible apply Foot.ite
    | with_reducible apply Foot.onCan | exact rfl | split | dsimp only)

theorem onAct_foot (a : Nat) (f : Act → Act) (s : State) :
    Foot [.can] s (onAct a f s) := by
  unfold onAct
  repeat' (first
    | with_reducible exact Foot.refl | with_reducible assumption | with_reducible apply Foot.ite
    | with_reducible apply Foot.onCan | exact rfl | split | dsimp only)

theorem offer_foot (c key : Nat) (f : CanFrame) (s : State) :
    Foot [.can] s (offer c key f s) := by
  unfold offer
  repeat' (first
    | with_reducible exact Foot.refl | with_reducible assumption | with_reducible apply Foot.ite
    | with_reducible apply Foot.after (onCh_foot _ _ _) | exact rfl | split | dsimp only)

theorem announceOn_foot (c : Nat) (s : State) :
    Foot [.can] s (announceOn c s) := by
  unfold announceOn
  repeat' (first
    | with_reducible exact Foot.refl | with_reducible assumption | with_reducible apply Foot.ite
    | with_reducible apply Foot.after (offer_foot _ _ _ _) | exact rfl | split | dsimp only)

theorem announce_foot (s : State) :
    Foot [.can] s (announce s) := by
  unfold announce
  repeat' (first
    | with_reducible exact Foot.refl | with_reducible assumption | with_reducible apply Foot.ite
    | with_reducible refine Foot.foldl ?_ fun v a hv => ?_
    | with_reducible apply Foot.after (announceOn_foot _ _) | exact rfl | split | dsimp only)

theorem doEpochAnnounceSend_foot (s : State) :
    Foot [.now, .pmc, .can] s (doEpochAnnounceSend s) := by
  unfold doEpochAnnounceSend
  repeat' (first
    | with_reducible exact Foot.refl | with_reducible assumption | with_reducible apply Foot.ite
    | with_reducible apply Foot.after (announce_foot _) | with_reducible apply Foot.after (reach_foot _ _)
    | with_reducible apply Foot.onCan | exact rfl | split | dsimp only)

theorem doEpochBurst_foot (s : State) :
    Foot [.now, .pmc, .pair, .can] s (doEpochBurst s) := by
  unfold doEpochBurst
  repeat' (first
    | with_reducible exact Foot.refl | with_reducible assumption | with_reducible apply Foot.ite
    | with_reducible apply Foot.after (announce_foot _) | with_reducible apply Foot.after (reach_foot _ _)
    | with_reducible apply Foot.onPair | exact rfl | split | dsimp only)

theorem raiseEpoch_foot (e : Nat) (s : State) :
    Foot [.kt, .pair, .can] s (raiseEpoch e s) := by
  unfold raiseEpoch
  repeat' (first
    | with_reducible exact Foot.refl | with_reducible assumption | with_reducible apply Foot.ite
    | with_reducible apply Foot.onKt | with_reducible apply Foot.onPair | with_reducible apply Foot.onCan
    | exact rfl | exact .inl rfl | with_reducible exact .inr rfl | with_reducible exact .inr (.inl rfl)
    | with_reducible exact .inr ⟨rfl, rfl⟩ | exact .inr rfl | exact .inr (.inl rfl) | exact .inr ⟨rfl, rfl⟩
    | split | dsimp only)

theorem sendConfig_foot (a : Nat) (s : State) :
    Foot [.can] s (sendConfig a s) := by
  unfold sendConfig
  repeat' (first
    | with_reducible exact Foot.refl | with_reducible assumption | with_reducible apply Foot.ite
    | with_reducible refine Foot.foldl ?_ fun v a hv => ?_
    | with_reducible apply Foot.after (offer_foot _ _ _ _) | exact rfl | split | dsimp only)

theorem sendCommand_foot (a : Nat) (cw : DWord) (point flags : Nat) (v : Int) (s : State) :
    Foot [.kt, .can] s (sendCommand a cw point flags v s) := by
  unfold sendCommand
  repeat' (first
    | with_reducible exact Foot.refl | with_reducible assumption | with_reducible apply Foot.ite
    | with_reducible refine Foot.foldl ?_ fun v a hv => ?_
    | with_reducible apply Foot.after (offer_foot _ _ _ _) | with_reducible apply Foot.after (onAct_foot _ _ _)
    | with_reducible apply Foot.onKt | exact rfl | exact .inl rfl | with_reducible exact .inr rfl
    | with_reducible exact .inr (.inl rfl) | with_reducible exact .inr ⟨rfl, rfl⟩ | exact .inr rfl
    | exact .inr (.inl rfl) | exact .inr ⟨rfl, rfl⟩ | split | dsimp only)

theorem resendPoints_foot (s : State) :
    Foot [.kt, .can] s (resendPoints s) := by
  unfold resendPoints
  repeat' (first
    | with_reducible exact Foot.refl | with_reducible assumption | with_reducible apply Foot.ite
    | with_reducible refine Foot.foldl ?_ fun v a hv => ?_
    | with_reducible apply Foot.after (sendCommand_foot _ _ _ _ _ _) | exact rfl | split | dsimp only)

theorem startChannels_foot (s : State) :
    Foot [.can] s (startChannels s) := by
  unfold startChannels
  repeat' (first
    | with_reducible exact Foot.refl | with_reducible assumption | with_reducible apply Foot.ite
    | with_reducible refine Foot.foldl ?_ fun v a hv => ?_ | with_reducible apply Foot.after (onCh_foot _ _ _)
    | exact rfl | split | dsimp only)

theorem watchPair_foot (s : State) :
    Foot [.can] s (watchPair s) := by
  unfold watchPair
  repeat' (first
    | with_reducible exact Foot.refl | with_reducible assumption | with_reducible apply Foot.ite
    | with_reducible apply Foot.onCan | exact rfl | split | dsimp only)

theorem fxCanConfig_foot (e : JEntry) (s : State) :
    Foot [.out, .kt, .mbx, .jr, .stg, .host, .pmc, .spn, .pair, .can, .stw] s (fxCanConfig e s) := by
  unfold fxCanConfig
  repeat' (first
    | with_reducible exact Foot.refl | with_reducible assumption | with_reducible apply Foot.ite
    | with_reducible apply Foot.after (watchPair_foot _) | with_reducible apply Foot.after (onCh_foot _ _ _)
    | with_reducible apply Foot.after (waitObject_foot _ _)
    | with_reducible apply Foot.after (finish0_foot _ _ _) | with_reducible apply Foot.onKt | exact rfl
    | exact .inl rfl | with_reducible exact .inr rfl | with_reducible exact .inr (.inl rfl)
    | with_reducible exact .inr ⟨rfl, rfl⟩ | exact .inr rfl | exact .inr (.inl rfl) | exact .inr ⟨rfl, rfl⟩
    | split | dsimp only)

theorem dropCommands_foot (a : Nat) (b : Bytes) (s : State) :
    Foot [.can] s (dropCommands a b s) := by
  unfold dropCommands
  repeat' (first
    | with_reducible exact Foot.refl | with_reducible assumption | with_reducible apply Foot.ite
    | with_reducible refine Foot.foldl ?_ fun v a hv => ?_ | with_reducible apply Foot.after (onCh_foot _ _ _)
    | exact rfl | split | dsimp only)

theorem fxActuatorConfig_foot (e : JEntry) (s : State) :
    Foot [.out, .kt, .mbx, .jr, .stg, .pmc, .spn, .pair, .can, .stw] s (fxActuatorConfig e s) := by
  unfold fxActuatorConfig
  repeat' (first
    | with_reducible exact Foot.refl | with_reducible assumption | with_reducible apply Foot.ite
    | with_reducible apply Foot.after (dropCommands_foot _ _ _)
    | with_reducible apply Foot.after (sendConfig_foot _ _)
    | with_reducible apply Foot.after (onAct_foot _ _ _) | with_reducible apply Foot.after (finish0_foot _ _ _)
    | with_reducible apply Foot.onKt | exact rfl | exact .inl rfl | with_reducible exact .inr rfl
    | with_reducible exact .inr (.inl rfl) | with_reducible exact .inr ⟨rfl, rfl⟩ | exact .inr rfl
    | exact .inr (.inl rfl) | exact .inr ⟨rfl, rfl⟩ | split | dsimp only)

theorem doActuatorConfigTimeout_foot (a : Nat) (s : State) :
    Foot [.now, .out, .mbx, .jr, .stg, .pmc, .spn, .pair, .can, .stw] s (doActuatorConfigTimeout a s) := by
  unfold doActuatorConfigTimeout
  repeat' (first
    | with_reducible exact Foot.refl | with_reducible assumption | with_reducible apply Foot.ite
    | with_reducible apply Foot.after (onAct_foot _ _ _) | with_reducible apply Foot.after (finish0_foot _ _ _)
    | with_reducible apply Foot.after (reach_foot _ _) | exact rfl | split | dsimp only)

theorem doActuatorSilent_foot (a : Nat) (s : State) :
    Foot [.now, .out, .keep, .host, .log, .pmc, .spn, .can] s (doActuatorSilent a s) := by
  unfold doActuatorSilent
  repeat' (first
    | with_reducible exact Foot.refl | with_reducible assumption | with_reducible apply Foot.ite
    | with_reducible apply Foot.after (onAct_foot _ _ _)
    | with_reducible apply Foot.after (event_foot _ _ _ _ _ _)
    | with_reducible apply Foot.after (reach_foot _ _) | exact rfl | split | dsimp only)

theorem measureLoop_foot (c meas : Nat) (s : State) :
    Foot [.out, .keep, .host, .log, .pmc, .spn, .can] s (measureLoop c meas s) := by
  unfold measureLoop
  repeat' (first
    | with_reducible exact Foot.refl | with_reducible assumption | with_reducible apply Foot.ite
    | with_reducible apply Foot.after (onCh_foot _ _ _)
    | with_reducible apply Foot.after (event_foot _ _ _ _ _ _)
    | with_reducible apply Foot.after (count_foot _ _) | exact rfl | split | dsimp only)

theorem doCanFrameTxDone_foot (c meas ago : Nat) (s : State) :
    Foot [.out, .keep, .host, .log, .pmc, .spn, .can] s (doCanFrameTxDone c meas ago s) := by
  unfold doCanFrameTxDone
  repeat' (first
    | with_reducible exact Foot.refl | with_reducible assumption | with_reducible apply Foot.ite
    | with_reducible apply Foot.after (measureLoop_foot _ _ _)
    | with_reducible apply Foot.after (watchPair_foot _) | with_reducible apply Foot.after (onCh_foot _ _ _)
    | with_reducible apply Foot.after (count_foot _ _) | with_reducible apply Foot.after (emit_foot _ _)
    | with_reducible apply Foot.emit | exact rfl | split | dsimp only)

theorem doCanPeriodicTx_foot (c i : Nat) (s : State) :
    Foot [.now, .pmc, .can] s (doCanPeriodicTx c i s) := by
  unfold doCanPeriodicTx
  repeat' (first
    | with_reducible exact Foot.refl | with_reducible assumption | with_reducible apply Foot.ite
    | with_reducible apply Foot.after (offer_foot _ _ _ _) | with_reducible apply Foot.after (onCh_foot _ _ _)
    | with_reducible apply Foot.after (reach_foot _ _) | exact rfl | split | dsimp only)

theorem canTick_foot (t : Nat) (s : State) :
    Foot [.can] s (canTick t s) := by
  unfold canTick
  repeat' (first
    | with_reducible exact Foot.refl | with_reducible assumption | with_reducible apply Foot.ite
    | with_reducible refine Foot.foldl ?_ fun v a hv => ?_
    | with_reducible apply Foot.after (offer_foot _ _ _ _) | with_reducible apply Foot.after (onCh_foot _ _ _)
    | with_reducible apply Foot.onCan | exact rfl | split | dsimp only)

theorem rxLoss_foot (c : Nat) (s : State) :
    Foot [.out, .keep, .host, .log, .pmc, .spn] s (rxLoss c s) := by
  unfold rxLoss
  repeat' (first
    | with_reducible exact Foot.refl | with_reducible assumption | with_reducible apply Foot.ite
    | with_reducible apply Foot.after (event_foot _ _ _ _ _ _)
    | with_reducible apply Foot.after (count_foot _ _) | exact rfl | split | dsimp only)

theorem takeFrame_foot (c ago : Nat) (e : Bytes) (f : CanFrame) (s : State) :
    Foot [.out, .keep, .host, .log, .pmc, .spn, .can] s (takeFrame c ago e f s) := by
  unfold takeFrame
  repeat' (first
    | with_reducible exact Foot.refl | with_reducible assumption | with_reducible apply Foot.ite
    | with_reducible apply Foot.after (rxLoss_foot _ _) | with_reducible apply Foot.after (onCh_foot _ _ _)
    | exact rfl | split | dsimp only)

theorem doCanFrameRx_foot (c ago : Nat) (f : CanFrame) (s : State) :
    Foot [.out, .keep, .host, .log, .pmc, .spn, .can] s (doCanFrameRx c ago f s) := by
  unfold doCanFrameRx
  repeat' (first
    | with_reducible exact Foot.refl | with_reducible assumption | with_reducible apply Foot.ite
    | with_reducible apply Foot.after (takeFrame_foot _ _ _ _ _)
    | with_reducible apply Foot.after (watchPair_foot _) | with_reducible apply Foot.after (onCh_foot _ _ _)
    | with_reducible apply Foot.after (count_foot _ _) | exact rfl | split | dsimp only)

theorem doBasicCycleStart_foot (c : Nat) (s : State) :
    Foot [.now, .pmc, .can] s (doBasicCycleStart c s) := by
  unfold doBasicCycleStart
  repeat' (first
    | with_reducible exact Foot.refl | with_reducible assumption | with_reducible apply Foot.ite
    | with_reducible apply Foot.after (offer_foot _ _ _ _) | with_reducible apply Foot.after (onCh_foot _ _ _)
    | with_reducible apply Foot.after (reach_foot _ _) | exact rfl | split | dsimp only)

theorem doReferenceMessageRx_foot (c : Nat) (id : BitVec 29) (n : Nat) (s : State) :
    Foot [.out, .keep, .host, .log, .pmc, .spn, .can] s (doReferenceMessageRx c id n s) := by
  unfold doReferenceMessageRx
  repeat' (first
    | with_reducible exact Foot.refl | with_reducible assumption | with_reducible apply Foot.ite
    | with_reducible apply Foot.after (watchPair_foot _) | with_reducible apply Foot.after (onCh_foot _ _ _)
    | with_reducible apply Foot.after (event_foot _ _ _ _ _ _)
    | with_reducible apply Foot.after (count_foot _ _) | exact rfl | split | dsimp only)

theorem doTimeMasterResume_foot (c : Nat) (s : State) :
    Foot [.now, .pmc, .can] s (doTimeMasterResume c s) := by
  unfold doTimeMasterResume
  repeat' (first
    | with_reducible exact Foot.refl | with_reducible assumption | with_reducible apply Foot.ite
    | with_reducible apply Foot.after (onCh_foot _ _ _) | with_reducible apply Foot.after (reach_foot _ _)
    | exact rfl | split | dsimp only)

theorem doCanErrorStateChange_foot (c : Nat) (passive : Bool) (s : State) :
    Foot [.out, .keep, .host, .log, .pmc, .spn, .can] s (doCanErrorStateChange c passive s) := by
  unfold doCanErrorStateChange
  repeat' (first
    | with_reducible exact Foot.refl | with_reducible assumption | with_reducible apply Foot.ite
    | with_reducible apply Foot.after (onCh_foot _ _ _)
    | with_reducible apply Foot.after (event_foot _ _ _ _ _ _) | exact rfl | split | dsimp only)

theorem doCanBusOff_foot (c : Nat) (s : State) :
    Foot [.out, .keep, .host, .log, .pmc, .spn, .can] s (doCanBusOff c s) := by
  unfold doCanBusOff
  repeat' (first
    | with_reducible exact Foot.refl | with_reducible assumption | with_reducible apply Foot.ite
    | with_reducible apply Foot.after (watchPair_foot _) | with_reducible apply Foot.after (onCh_foot _ _ _)
    | with_reducible apply Foot.after (event_foot _ _ _ _ _ _) | exact rfl | split | dsimp only)

theorem doCanRecoveryRequest_foot (c : Nat) (s : State) :
    Foot [.now, .pmc, .can] s (doCanRecoveryRequest c s) := by
  unfold doCanRecoveryRequest
  repeat' (first
    | with_reducible exact Foot.refl | with_reducible assumption | with_reducible apply Foot.ite
    | with_reducible apply Foot.after (onCh_foot _ _ _) | with_reducible apply Foot.after (reach_foot _ _)
    | exact rfl | split | dsimp only)

theorem doCanRecoveryDone_foot (c : Nat) (s : State) :
    Foot [.now, .out, .keep, .host, .log, .pmc, .spn, .can] s (doCanRecoveryDone c s) := by
  unfold doCanRecoveryDone
  repeat' (first
    | with_reducible exact Foot.refl | with_reducible assumption | with_reducible apply Foot.ite
    | with_reducible apply Foot.after (onCh_foot _ _ _)
    | with_reducible apply Foot.after (event_foot _ _ _ _ _ _)
    | with_reducible apply Foot.after (reach_foot _ _) | exact rfl | split | dsimp only)

theorem doCanBackoffReset_foot (c : Nat) (s : State) :
    Foot [.now, .pmc, .can] s (doCanBackoffReset c s) := by
  unfold doCanBackoffReset
  repeat' (first
    | with_reducible exact Foot.refl | with_reducible assumption | with_reducible apply Foot.ite
    | with_reducible apply Foot.after (onCh_foot _ _ _) | with_reducible apply Foot.after (reach_foot _ _)
    | exact rfl | split | dsimp only)

theorem doCanWakePulse_foot (c width : Nat) (s : State) :
    Foot [.out, .keep, .host, .log, .pmc, .spn, .can] s (doCanWakePulse c width s) := by
  unfold doCanWakePulse
  repeat' (first
    | with_reducible exact Foot.refl | with_reducible assumption | with_reducible apply Foot.ite
    | with_reducible apply Foot.after (event_foot _ _ _ _ _ _)
    | with_reducible apply Foot.after (wakeCause_foot _ _) | with_reducible apply Foot.onCan | exact rfl
    | split | dsimp only)

theorem doListenEnd_foot (c : Nat) (s : State) :
    Foot [.now, .pmc, .can] s (doListenEnd c s) := by
  unfold doListenEnd
  repeat' (first
    | with_reducible exact Foot.refl | with_reducible assumption | with_reducible apply Foot.ite
    | with_reducible apply Foot.after (announceOn_foot _ _) | with_reducible apply Foot.after (onCh_foot _ _ _)
    | with_reducible apply Foot.after (reach_foot _ _) | exact rfl | split | dsimp only)

theorem dropReference_foot (s : State) :
    Foot [.can] s (dropReference s) := by
  unfold dropReference
  repeat' (first
    | with_reducible exact Foot.refl | with_reducible assumption | with_reducible apply Foot.ite
    | with_reducible apply Foot.onCan | exact rfl | split | dsimp only)

theorem dropFrames_foot (s : State) :
    Foot [.can] s (dropFrames s) := by
  unfold dropFrames
  repeat' (first
    | with_reducible exact Foot.refl | with_reducible assumption | with_reducible apply Foot.ite
    | with_reducible apply Foot.onCan | exact rfl | split | dsimp only)

theorem recordStatus_foot (c a ago : Nat) (st : ActStatus) (s : State) :
    Foot [.out, .keep, .mbx, .jr, .stg, .host, .log, .pmc, .spn, .pair, .can, .stw]
      s (recordStatus c a ago st s) := by
  unfold recordStatus
  repeat' (first
    | with_reducible exact Foot.refl | with_reducible assumption | with_reducible apply Foot.ite
    | with_reducible apply Foot.after (watchPair_foot _)
    | with_reducible apply Foot.after (sendConfig_foot _ _)
    | with_reducible apply Foot.after (onAct_foot _ _ _) | with_reducible apply Foot.after (onCh_foot _ _ _)
    | with_reducible apply Foot.after (finish0_foot _ _ _)
    | with_reducible apply Foot.after (event_foot _ _ _ _ _ _) | exact rfl | split | dsimp only)

theorem canTaken_foot (s : State) :
    Foot [.can] s (canTaken s) := by
  unfold canTaken
  repeat' (first
    | with_reducible exact Foot.refl | with_reducible assumption | with_reducible apply Foot.ite
    | with_reducible apply Foot.onCan | exact rfl | split | dsimp only)

end Sys2Proof.Machine
end

