-- ==== Sys2Proof/Laws/FootPairOps.lean ====
section
/-! SUPPORT. Laws/FootPairOps.lean: the footprint of each operation of Machine/PairOps.lean. -/

set_option linter.unusedTactic false
set_option linter.unreachableTactic false
set_option linter.unusedVariables false

namespace Sys2Proof.Machine

theorem setPair_foot (st : PairState) (s : State) :
    Foot [.out, .keep, .host, .log, .pmc, .spn, .pair] s (setPair st s) := by
  unfold setPair
  repeat' (first
    | with_reducible exact Foot.refl | with_reducible assumption | with_reducible apply Foot.ite
    | with_reducible apply Foot.after (event_foot _ _ _ _ _ _)
    | with_reducible apply Foot.after (msix_foot _ _) | with_reducible apply Foot.onPair | exact rfl | split
    | dsimp only)

theorem endSync_foot (s : State) :
    Foot [.out, .mbx, .jr, .stg, .pmc, .spn, .pair, .stw] s (endSync s) := by
  unfold endSync
  repeat' (first
    | with_reducible exact Foot.refl | with_reducible assumption | with_reducible apply Foot.ite
    | with_reducible apply Foot.after (finish0_foot _ _ _) | with_reducible apply Foot.onPair | exact rfl
    | split | dsimp only)

theorem lostEntry_foot (e : JEntry) (s : State) :
    Foot [.out, .mbx, .jr, .stg, .pmc, .spn, .pair, .stw] s (lostEntry e s) := by
  unfold lostEntry
  repeat' (first
    | with_reducible exact Foot.refl | with_reducible assumption | with_reducible apply Foot.ite
    | with_reducible apply Foot.after (finish0_foot _ _ _) | exact rfl | split | dsimp only)

theorem takeTen_foot (s : State) :
    Foot [.out, .keep, .cat, .mbx, .jr, .stg, .pmc, .spn, .pair, .lv, .stw, .core, .ten] s (takeTen s) := by
  unfold takeTen
  repeat' (first
    | with_reducible exact Foot.refl | with_reducible assumption | with_reducible apply Foot.ite
    | with_reducible apply Foot.after (afterTen_foot _) | with_reducible apply Foot.after (applyTen_foot _ _)
    | with_reducible apply Foot.onPair | exact rfl | split | dsimp only)

theorem losePartner_foot (st : PairState) (s : State) :
    Foot [.out, .keep, .cat, .mbx, .jr, .stg, .host, .log, .pmc, .spn, .pair, .lv, .stw, .core, .ten]
      s (losePartner st s) := by
  unfold losePartner
  repeat' (first
    | with_reducible exact Foot.refl | with_reducible assumption | with_reducible apply Foot.ite
    | with_reducible refine Foot.foldl ?_ fun v a hv => ?_ | with_reducible apply Foot.after (takeTen_foot _)
    | with_reducible apply Foot.after (lostEntry_foot _ _) | with_reducible apply Foot.after (endSync_foot _)
    | with_reducible apply Foot.after (setPair_foot _ _) | with_reducible apply Foot.onPair | exact rfl | split
    | dsimp only)

theorem dropLane_foot (n : Nat) (s : State) :
    Foot [.spn] s (dropLane n s) := by
  unfold dropLane
  repeat' (first
    | with_reducible exact Foot.refl | with_reducible assumption | with_reducible apply Foot.ite
    | with_reducible apply Foot.after (onLane_foot _ _ _) | exact rfl | split | dsimp only)

theorem pairLaneLost_foot (s : State) :
    Foot [.out, .keep, .cat, .mbx, .jr, .stg, .host, .log, .pmc, .spn, .pair, .lv, .stw, .core, .ten]
      s (pairLaneLost s) := by
  unfold pairLaneLost
  repeat' (first
    | with_reducible exact Foot.refl | with_reducible assumption | with_reducible apply Foot.ite
    | with_reducible apply Foot.after (losePartner_foot _ _) | exact rfl | split | dsimp only)

theorem engage_foot (s : State) :
    Foot [.spn] s (engage s) := by
  unfold engage
  repeat' (first
    | with_reducible exact Foot.refl | with_reducible assumption | with_reducible apply Foot.ite
    | with_reducible apply Foot.after (dropLane_foot _ _) | with_reducible apply Foot.onSpn | exact rfl | split
    | dsimp only)

theorem retryLater_foot (s : State) :
    Foot [.spn] s (retryLater s) := by
  unfold retryLater
  repeat' (first
    | with_reducible exact Foot.refl | with_reducible assumption | with_reducible apply Foot.ite
    | with_reducible apply Foot.onSpn | exact rfl | split | dsimp only)

theorem addCut_foot (addr : Nat) (west : Bool) (s : State) :
    Foot [.spn] s (addCut addr west s) := by
  unfold addCut
  repeat' (first
    | with_reducible exact Foot.refl | with_reducible assumption | with_reducible apply Foot.ite
    | with_reducible apply Foot.onSpn | exact rfl | split | dsimp only)

theorem laneTest_foot (s : State) :
    Foot [.out, .keep, .host, .log, .pmc, .spn, .pair] s (laneTest s) := by
  unfold laneTest
  repeat' (first
    | with_reducible exact Foot.refl | with_reducible assumption | with_reducible apply Foot.ite
    | with_reducible apply Foot.after (testResult_foot _ _ _)
    | with_reducible apply Foot.after (event_foot _ _ _ _ _ _) | exact rfl | split | dsimp only)

theorem doLaneDown_foot (n : Nat) (s : State) :
    Foot [.out, .keep, .cat, .mbx, .jr, .stg, .host, .log, .pmc, .spn, .pair, .lv, .stw, .core, .ten]
      s (doLaneDown n s) := by
  unfold doLaneDown
  repeat' (first
    | with_reducible exact Foot.refl | with_reducible assumption | with_reducible apply Foot.ite
    | with_reducible apply Foot.after (laneTest_foot _) | with_reducible apply Foot.after (addCut_foot _ _ _)
    | with_reducible apply Foot.after (retryLater_foot _) | with_reducible apply Foot.after (engage_foot _)
    | with_reducible apply Foot.after (pairLaneLost_foot _)
    | with_reducible apply Foot.after (dropLane_foot _ _)
    | with_reducible apply Foot.after (event_foot _ _ _ _ _ _)
    | with_reducible apply Foot.after (sendSpine_foot _ _ _) | exact rfl | split | dsimp only)

end Sys2Proof.Machine
end

