-- ==== Sys2Proof/Laws/FootSpine.lean ====
section
/-! SUPPORT. Laws/FootSpine.lean: the footprint of each operation of Machine/Spine.lean. -/

set_option linter.unusedTactic false
set_option linter.unreachableTactic false
set_option linter.unusedVariables false

namespace Sys2Proof.Machine

theorem pruneBroker_foot (s : State) :
    Foot [.lv] s (pruneBroker s) := by
  unfold pruneBroker
  repeat' (first
    | with_reducible exact Foot.refl | with_reducible assumption | with_reducible apply Foot.ite
    | with_reducible apply Foot.onLv | exact rfl | split | dsimp only)

theorem censusChanged_foot (s : State) :
    Foot [.spn] s (censusChanged s) := by
  unfold censusChanged
  repeat' (first
    | with_reducible exact Foot.refl | with_reducible assumption | with_reducible apply Foot.ite
    | with_reducible apply Foot.onSpn | exact rfl | split | dsimp only)

theorem noteSeen_foot (f : FrameHdr) (s : State) :
    Foot [.spn] s (noteSeen f s) := by
  unfold noteSeen
  repeat' (first
    | with_reducible exact Foot.refl | with_reducible assumption | with_reducible apply Foot.ite
    | with_reducible apply Foot.onSpn | exact rfl | split | dsimp only)

theorem forwardFrame_foot (f : FrameHdr) (p : Payload) (s : State) :
    Foot [.out, .pmc, .spn] s (forwardFrame f p s) := by
  unfold forwardFrame
  repeat' (first
    | with_reducible exact Foot.refl | with_reducible assumption | with_reducible apply Foot.ite
    | with_reducible apply Foot.after (laneSent_foot _ _ _ _)
    | with_reducible apply Foot.after (count_foot _ _) | with_reducible apply Foot.after (emit_foot _ _)
    | with_reducible apply Foot.emit | exact rfl | split | dsimp only)

theorem badFrame_foot (n : Nat) (s : State) :
    Foot [.out, .keep, .cat, .mbx, .jr, .stg, .host, .log, .pmc, .spn, .pair, .lv, .stw, .core, .ten]
      s (badFrame n s) := by
  unfold badFrame
  repeat' (first
    | with_reducible exact Foot.refl | with_reducible assumption | with_reducible apply Foot.ite
    | with_reducible apply Foot.after (doLaneDown_foot _ _) | with_reducible apply Foot.after (laneTest_foot _)
    | with_reducible apply Foot.after (onLane_foot _ _ _) | with_reducible apply Foot.after (count_foot _ _)
    | exact rfl | split | dsimp only)

theorem rxCheck_foot (f : FrameHdr) (p : Payload) (s : State) :
    Foot [.out, .keep, .cat, .mbx, .jr, .stg, .host, .log, .pmc, .spn, .pair, .lv, .stw, .core, .ten]
      s (rxCheck f p s).2 := by
  unfold rxCheck
  repeat' (first
    | with_reducible exact Foot.refl | with_reducible assumption | with_reducible apply Foot.ite
    | with_reducible apply Foot.after (badFrame_foot _ _)
    | with_reducible apply Foot.after (forwardFrame_foot _ _ _)
    | with_reducible apply Foot.after (onLane_foot _ _ _) | with_reducible apply Foot.after (countN_foot _ _ _)
    | exact rfl | split | dsimp only)

theorem rxFrame_foot {fs : List Fld} {f : FrameHdr} {p : Payload} {mine : State → State} {s u : State}
    (h : Foot fs s u)
    (hb : subFld [.out, .keep, .cat, .mbx, .jr, .stg, .host, .log, .pmc, .spn, .pair, .lv, .stw, .core, .ten] fs = true)
    (hs : fs.contains .spn = true)
    (hm : ∀ v, Foot fs s v → Foot fs s (mine v)) : Foot fs s (rxFrame f p mine u) := by
  have h1 : Foot fs s (rxCheck f p u).2 := Foot.after (rxCheck_foot f p u) h hb
  exact Foot.ite h1 (hm _ (h1.onSpn hs))

theorem doFormSend_foot (s : State) :
    Foot [.now, .out, .pmc, .spn] s (doFormSend s) := by
  unfold doFormSend
  repeat' (first
    | with_reducible exact Foot.refl | with_reducible assumption | with_reducible apply Foot.ite
    | with_reducible apply Foot.after (censusChanged_foot _)
    | with_reducible apply Foot.after (sendSpine_foot _ _ _) | with_reducible apply Foot.after (reach_foot _ _)
    | with_reducible apply Foot.onSpn | exact rfl | split | dsimp only)

theorem takeForm_foot (e : FormEntry) (s : State) :
    Foot [.spn, .lv] s (takeForm e s) := by
  unfold takeForm
  repeat' (first
    | with_reducible exact Foot.refl | with_reducible assumption | with_reducible apply Foot.ite
    | with_reducible apply Foot.after (censusChanged_foot _)
    | with_reducible apply Foot.after (pruneBroker_foot _) | with_reducible apply Foot.onSpn | exact rfl
    | split | dsimp only)

theorem doFormFrame_foot (f : FrameHdr) (e : FormEntry) (s : State) :
    Foot [.out, .keep, .cat, .mbx, .jr, .stg, .host, .log, .pmc, .spn, .pair, .lv, .stw, .core, .ten]
      s (doFormFrame f e s) := by
  unfold doFormFrame
  repeat' (first
    | with_reducible exact Foot.refl | with_reducible assumption | with_reducible apply Foot.ite
    | with_reducible apply Foot.after (takeForm_foot _ _)
    | with_reducible refine rxFrame_foot ?_ ?_ ?_ fun v hv => ?_ | exact rfl | split | dsimp only)

theorem doCensusEntrySilent_foot (serial : DWord) (s : State) :
    Foot [.now, .pmc, .spn, .lv] s (doCensusEntrySilent serial s) := by
  unfold doCensusEntrySilent
  repeat' (first
    | with_reducible exact Foot.refl | with_reducible assumption | with_reducible apply Foot.ite
    | with_reducible apply Foot.after (censusChanged_foot _)
    | with_reducible apply Foot.after (pruneBroker_foot _) | with_reducible apply Foot.after (reach_foot _ _)
    | with_reducible apply Foot.onSpn | exact rfl | split | dsimp only)

theorem joinRing_foot (gen first master : Nat) (s : State) :
    Foot [.out, .keep, .host, .log, .pmc, .spn, .lv] s (joinRing gen first master s) := by
  unfold joinRing
  repeat' (first
    | with_reducible exact Foot.refl | with_reducible assumption | with_reducible apply Foot.ite
    | with_reducible apply Foot.after (event_foot _ _ _ _ _ _) | with_reducible apply Foot.onSpn
    | with_reducible apply Foot.onLv | exact rfl | split | dsimp only)

theorem declareRing_foot (s : State) :
    Foot [.out, .keep, .host, .log, .pmc, .spn, .lv] s (declareRing s) := by
  unfold declareRing
  repeat' (first
    | with_reducible exact Foot.refl | with_reducible assumption | with_reducible apply Foot.ite
    | with_reducible apply Foot.after (joinRing_foot _ _ _ _)
    | with_reducible apply Foot.after (sendSpine_foot _ _ _) | exact rfl | split | dsimp only)

theorem doCensusSettled_foot (s : State) :
    Foot [.now, .out, .keep, .host, .log, .pmc, .spn, .lv] s (doCensusSettled s) := by
  unfold doCensusSettled
  repeat' (first
    | with_reducible exact Foot.refl | with_reducible assumption | with_reducible apply Foot.ite
    | with_reducible apply Foot.after (declareRing_foot _)
    | with_reducible apply Foot.after (event_foot _ _ _ _ _ _)
    | with_reducible apply Foot.after (reach_foot _ _) | with_reducible apply Foot.onSpn | exact rfl | split
    | dsimp only)

theorem doFormedFrame_foot (f : FrameHdr) (gen digest : Word) (first : DWord) (s : State) :
    Foot [.out, .keep, .cat, .mbx, .jr, .stg, .host, .log, .pmc, .spn, .pair, .lv, .stw, .core, .ten]
      s (doFormedFrame f gen digest first s) := by
  unfold doFormedFrame
  repeat' (first
    | with_reducible exact Foot.refl | with_reducible assumption | with_reducible apply Foot.ite
    | with_reducible apply Foot.after (joinRing_foot _ _ _ _)
    | with_reducible refine rxFrame_foot ?_ ?_ ?_ fun v hv => ?_ | exact rfl | split | dsimp only)

theorem doTimeSend_foot (s : State) :
    Foot [.now, .out, .host, .pmc, .spn] s (doTimeSend s) := by
  unfold doTimeSend
  repeat' (first
    | with_reducible exact Foot.refl | with_reducible assumption | with_reducible apply Foot.ite
    | with_reducible apply Foot.after (tick_foot _) | with_reducible apply Foot.after (sendSpine_foot _ _ _)
    | with_reducible apply Foot.after (reach_foot _ _) | with_reducible apply Foot.onSpn | exact rfl | split
    | dsimp only)

theorem takeTime_foot (f : FrameHdr) (p : TimePayload) (fresh : Bool) (s : State) :
    Foot [.spn, .ep] s (takeTime f p fresh s) := by
  unfold takeTime
  repeat' (first
    | with_reducible exact Foot.refl | with_reducible assumption | with_reducible apply Foot.ite
    | with_reducible apply Foot.onSpn | with_reducible apply Foot.onEp | exact rfl | split | dsimp only)

theorem doTimeFrame_foot (f : FrameHdr) (p : TimePayload) (s : State) :
    Foot [.free, .out, .keep, .cat, .mbx, .jr, .stg, .host, .log, .pmc, .spn, .pair, .lv, .ep, .stw, .core, .ten]
      s (doTimeFrame f p s) := by
  unfold doTimeFrame
  repeat' (first
    | with_reducible exact Foot.refl | with_reducible assumption | with_reducible apply Foot.ite
    | with_reducible apply Foot.after (takeTime_foot _ _ _ _)
    | with_reducible apply Foot.after (rxCheck_foot _ _ _)
    | with_reducible refine Foot.then ?_ (Foot.of_eq (rxCheck_foot _ _ _) (by assumption)) ?_
    | with_reducible apply Foot.after (noteSeen_foot _ _) | with_reducible apply Foot.after (draw_foot _)
    | with_reducible refine Foot.then ?_ (Foot.of_eq (draw_foot _) (by assumption)) ?_ | exact rfl | split
    | dsimp only)

theorem doTimeTimeout_foot (s : State) :
    Foot [.now, .out, .keep, .host, .log, .pmc, .spn] s (doTimeTimeout s) := by
  unfold doTimeTimeout
  repeat' (first
    | with_reducible exact Foot.refl | with_reducible assumption | with_reducible apply Foot.ite
    | with_reducible apply Foot.after (event_foot _ _ _ _ _ _)
    | with_reducible apply Foot.after (reach_foot _ _) | with_reducible apply Foot.onSpn | exact rfl | split
    | dsimp only)

theorem doArcRejoin_foot (s : State) :
    Foot [.now, .pmc, .spn] s (doArcRejoin s) := by
  unfold doArcRejoin
  repeat' (first
    | with_reducible exact Foot.refl | with_reducible assumption | with_reducible apply Foot.ite
    | with_reducible apply Foot.after (reach_foot _ _) | with_reducible apply Foot.onSpn | exact rfl | split
    | dsimp only)

theorem doEchoMeasure_foot (n : Nat) (s : State) :
    Foot [.now, .out, .pmc, .spn] s (doEchoMeasure n s) := by
  unfold doEchoMeasure
  repeat' (first
    | with_reducible exact Foot.refl | with_reducible assumption | with_reducible apply Foot.ite
    | with_reducible apply Foot.after (laneCount_foot _ _ _ _)
    | with_reducible apply Foot.after (onLane_foot _ _ _) | with_reducible apply Foot.after (emit_foot _ _)
    | with_reducible apply Foot.after (reach_foot _ _) | with_reducible apply Foot.onSpn
    | with_reducible apply Foot.emit | exact rfl | split | dsimp only)

theorem doEchoFrame_foot (f : FrameHdr) (rtt : Nat) (s : State) :
    Foot [.out, .keep, .cat, .mbx, .jr, .stg, .host, .log, .pmc, .spn, .pair, .lv, .stw, .core, .ten]
      s (doEchoFrame f rtt s) := by
  unfold doEchoFrame
  repeat' (first
    | with_reducible exact Foot.refl | with_reducible assumption | with_reducible apply Foot.ite
    | with_reducible apply Foot.after (rxCheck_foot _ _ _)
    | with_reducible refine Foot.then ?_ (Foot.of_eq (rxCheck_foot _ _ _) (by assumption)) ?_
    | with_reducible apply Foot.after (laneCount_foot _ _ _ _)
    | with_reducible apply Foot.after (onLane_foot _ _ _) | with_reducible apply Foot.after (count_foot _ _)
    | with_reducible apply Foot.after (emit_foot _ _) | with_reducible apply Foot.emit | exact rfl | split
    | dsimp only)

theorem doTripMirrorSend_foot (s : State) :
    Foot [.now, .out, .pmc, .spn] s (doTripMirrorSend s) := by
  unfold doTripMirrorSend
  repeat' (first
    | with_reducible exact Foot.refl | with_reducible assumption | with_reducible apply Foot.ite
    | with_reducible apply Foot.after (sendSpine_foot _ _ _) | with_reducible apply Foot.after (reach_foot _ _)
    | with_reducible apply Foot.onSpn | exact rfl | split | dsimp only)

theorem doTripFrame_foot (f : FrameHdr) (trips : Half) (leaks folio : Word) (s : State) :
    Foot [.out, .keep, .cat, .mbx, .jr, .stg, .host, .log, .pmc, .spn, .pair, .lv, .stw, .core, .ten]
      s (doTripFrame f trips leaks folio s) := by
  unfold doTripFrame
  repeat' (first
    | with_reducible exact Foot.refl | with_reducible assumption | with_reducible apply Foot.ite
    | with_reducible refine rxFrame_foot ?_ ?_ ?_ fun v hv => ?_
    | with_reducible apply Foot.after (event_foot _ _ _ _ _ _) | with_reducible apply Foot.onSpn | exact rfl
    | split | dsimp only)

theorem doBreakFrame_foot (f : FrameHdr) (addr : Nat) (west : Bool) (s : State) :
    Foot [.out, .keep, .cat, .mbx, .jr, .stg, .host, .log, .pmc, .spn, .pair, .lv, .stw, .core, .ten]
      s (doBreakFrame f addr west s) := by
  unfold doBreakFrame
  repeat' (first
    | with_reducible exact Foot.refl | with_reducible assumption | with_reducible apply Foot.ite
    | with_reducible refine rxFrame_foot ?_ ?_ ?_ fun v hv => ?_
    | with_reducible apply Foot.after (addCut_foot _ _ _) | exact rfl | split | dsimp only)

theorem enterDemand_foot (d : Demand) (s : State) :
    Foot [.out, .pmc, .spn, .lv] s (enterDemand d s) := by
  unfold enterDemand
  repeat' (first
    | with_reducible exact Foot.refl | with_reducible assumption | with_reducible apply Foot.ite
    | with_reducible apply Foot.after (sendPair_foot _ _) | with_reducible apply Foot.onLv | exact rfl | split
    | dsimp only)

theorem doDemandFrame_foot (f : FrameHdr) (d : Demand) (s : State) :
    Foot [.out, .keep, .cat, .mbx, .jr, .stg, .host, .log, .pmc, .spn, .pair, .lv, .stw, .core, .ten]
      s (doDemandFrame f d s) := by
  unfold doDemandFrame
  repeat' (first
    | with_reducible exact Foot.refl | with_reducible assumption | with_reducible apply Foot.ite
    | with_reducible apply Foot.after (enterDemand_foot _ _)
    | with_reducible refine rxFrame_foot ?_ ?_ ?_ fun v hv => ?_ | exact rfl | split | dsimp only)

theorem relayCommand_foot (pair : Bool) (dst : Nat) (cw : DWord) (bytes : Bytes) (s : State) :
    Foot [.out, .pmc, .spn] s (relayCommand pair dst cw bytes s) := by
  unfold relayCommand
  repeat' (first
    | with_reducible exact Foot.refl | with_reducible assumption | with_reducible apply Foot.ite
    | with_reducible apply Foot.after (sendFragments_foot _ _ _ _) | with_reducible apply Foot.onSpn
    | exact rfl | split | dsimp only)

theorem sendAck_foot (key : Nat) (s : State) :
    Foot [.out, .pmc, .spn] s (sendAck key s) := by
  unfold sendAck
  repeat' (first
    | with_reducible exact Foot.refl | with_reducible assumption | with_reducible apply Foot.ite
    | with_reducible apply Foot.after (sendSpine_foot _ _ _)
    | with_reducible apply Foot.after (sendPair_foot _ _) | exact rfl | split | dsimp only)

theorem doRelayAckSend_foot (s : State) :
    Foot [.now, .out, .pmc, .spn] s (doRelayAckSend s) := by
  unfold doRelayAckSend
  repeat' (first
    | with_reducible exact Foot.refl | with_reducible assumption | with_reducible apply Foot.ite
    | with_reducible refine Foot.foldl ?_ fun v a hv => ?_ | with_reducible apply Foot.after (sendAck_foot _ _)
    | with_reducible apply Foot.after (reach_foot _ _) | with_reducible apply Foot.onSpn | exact rfl | split
    | dsimp only)

theorem resendFragment_foot (x : RelayTx) (s : State) :
    Foot [.out, .pmc, .spn] s (resendFragment x s) := by
  unfold resendFragment
  repeat' (first
    | with_reducible exact Foot.refl | with_reducible assumption | with_reducible apply Foot.ite
    | with_reducible apply Foot.after (bulkSent_foot _ _)
    | with_reducible apply Foot.after (laneSent_foot _ _ _ _) | with_reducible apply Foot.after (emit_foot _ _)
    | with_reducible apply Foot.emit | exact rfl | split | dsimp only)

theorem doRelayResend_foot (s : State) :
    Foot [.now, .out, .pmc, .spn] s (doRelayResend s) := by
  unfold doRelayResend
  repeat' (first
    | with_reducible exact Foot.refl | with_reducible assumption | with_reducible apply Foot.ite
    | with_reducible refine Foot.foldl ?_ fun v a hv => ?_
    | with_reducible apply Foot.after (resendFragment_foot _ _)
    | with_reducible apply Foot.after (reach_foot _ _) | with_reducible apply Foot.onSpn | exact rfl | split
    | dsimp only)

theorem takeFragment_foot (f : FrameHdr) (data : Bytes) (s : State) :
    Foot [.spn] s (takeFragment f data s).2 := by
  unfold takeFragment
  repeat' (first
    | with_reducible exact Foot.refl | with_reducible assumption | with_reducible apply Foot.ite
    | with_reducible apply Foot.onSpn | exact rfl | split | dsimp only)

theorem beginInsert_foot (s : State) :
    Foot [.spn] s (beginInsert s) := by
  unfold beginInsert
  repeat' (first
    | with_reducible exact Foot.refl | with_reducible assumption | with_reducible apply Foot.ite
    | with_reducible apply Foot.onSpn | exact rfl | split | dsimp only)

theorem doBypassInsert_foot (s : State) :
    Foot [.spn] s (doBypassInsert s) := by
  unfold doBypassInsert
  repeat' (first
    | with_reducible exact Foot.refl | with_reducible assumption | with_reducible apply Foot.ite
    | with_reducible apply Foot.after (beginInsert_foot _) | exact rfl | split | dsimp only)

theorem doPortInsertTimeout_foot (s : State) :
    Foot [.now, .out, .keep, .host, .log, .pmc, .spn] s (doPortInsertTimeout s) := by
  unfold doPortInsertTimeout
  repeat' (first
    | with_reducible exact Foot.refl | with_reducible assumption | with_reducible apply Foot.ite
    | with_reducible apply Foot.after (retryLater_foot _) | with_reducible apply Foot.after (engage_foot _)
    | with_reducible apply Foot.after (event_foot _ _ _ _ _ _)
    | with_reducible apply Foot.after (reach_foot _ _) | exact rfl | split | dsimp only)

theorem doPortInsertRetry_foot (s : State) :
    Foot [.now, .pmc, .spn] s (doPortInsertRetry s) := by
  unfold doPortInsertRetry
  repeat' (first
    | with_reducible exact Foot.refl | with_reducible assumption | with_reducible apply Foot.ite
    | with_reducible apply Foot.after (beginInsert_foot _) | with_reducible apply Foot.after (reach_foot _ _)
    | exact rfl | split | dsimp only)

theorem doLrefclkGood_foot (s : State) :
    Foot [.spn] s (doLrefclkGood s) := by
  unfold doLrefclkGood
  repeat' (first
    | with_reducible exact Foot.refl | with_reducible assumption | with_reducible apply Foot.ite
    | with_reducible apply Foot.after (beginInsert_foot _) | with_reducible apply Foot.onSpn | exact rfl
    | split | dsimp only)

end Sys2Proof.Machine
end

