-- ==== Sys2Proof/Laws/FootEpoch.lean ====
section
/-! SUPPORT. Laws/FootEpoch.lean: the footprint of each operation of Machine/Epoch.lean. -/

set_option linter.unusedTactic false
set_option linter.unreachableTactic false
set_option linter.unusedVariables false

namespace Sys2Proof.Machine

theorem onCore_foot (k : Nat) (f : Core → Core) (s : State) :
    Foot [.qre] s (onCore k f s) := by
  unfold onCore
  repeat' (first
    | with_reducible exact Foot.refl | with_reducible assumption | with_reducible apply Foot.ite
    | with_reducible apply Foot.onQre | exact rfl | split | dsimp only)

theorem onProg_foot (i : Nat) (f : Prog → Prog) (s : State) :
    Foot [.qre] s (onProg i f s) := by
  unfold onProg
  repeat' (first
    | with_reducible exact Foot.refl | with_reducible assumption | with_reducible apply Foot.ite
    | with_reducible apply Foot.onQre | exact rfl | split | dsimp only)

theorem stopCores_foot (p : Prog) (s : State) :
    Foot [.qre] s (stopCores p s) := by
  unfold stopCores
  repeat' (first
    | with_reducible exact Foot.refl | with_reducible assumption | with_reducible apply Foot.ite
    | with_reducible refine Foot.foldl ?_ fun v a hv => ?_
    | with_reducible apply Foot.after (onCore_foot _ _ _) | exact rfl | split | dsimp only)

theorem startCores_foot (p : Prog) (s : State) :
    Foot [.qre] s (startCores p s) := by
  unfold startCores
  repeat' (first
    | with_reducible exact Foot.refl | with_reducible assumption | with_reducible apply Foot.ite
    | with_reducible refine Foot.foldl ?_ fun v a hv => ?_
    | with_reducible apply Foot.after (onCore_foot _ _ _) | exact rfl | split | dsimp only)

theorem beginBorrow_foot (s : State) :
    Foot [.ep] s (beginBorrow s) := by
  unfold beginBorrow
  repeat' (first
    | with_reducible exact Foot.refl | with_reducible assumption | with_reducible apply Foot.ite
    | with_reducible apply Foot.onEp | exact rfl | split | dsimp only)

theorem endBorrow_foot (s : State) :
    Foot [.out, .keep, .host, .log, .pmc, .spn, .ep] s (endBorrow s) := by
  unfold endBorrow
  repeat' (first
    | with_reducible exact Foot.refl | with_reducible assumption | with_reducible apply Foot.ite
    | with_reducible apply Foot.after (event_foot _ _ _ _ _ _) | with_reducible apply Foot.onEp | exact rfl
    | split | dsimp only)

theorem faultH_foot (q : Nat) (s : State) :
    Foot [.out, .keep, .kt, .host, .log, .pmc, .spn, .qre, .ep] s (faultH q s) := by
  unfold faultH
  repeat' (first
    | with_reducible exact Foot.refl | with_reducible assumption | with_reducible apply Foot.ite
    | with_reducible apply Foot.after (beginBorrow_foot _)
    | with_reducible apply Foot.after (event_foot _ _ _ _ _ _) | with_reducible apply Foot.onKt
    | with_reducible apply Foot.onQre | with_reducible apply Foot.onEp | exact rfl | exact .inl rfl
    | with_reducible exact .inr rfl | with_reducible exact .inr (.inl rfl)
    | with_reducible exact .inr ⟨rfl, rfl⟩ | exact .inr rfl | exact .inr (.inl rfl) | exact .inr ⟨rfl, rfl⟩
    | split | dsimp only)

theorem quireFault_foot (q c : Nat) (f : QFault) (s : State) :
    Foot [.out, .keep, .kt, .host, .log, .pmc, .spn, .qre, .ep] s (quireFault q c f s) := by
  unfold quireFault
  repeat' (first
    | with_reducible exact Foot.refl | with_reducible assumption | with_reducible apply Foot.ite
    | with_reducible apply Foot.after (faultH_foot _ _) | with_reducible apply Foot.after (stopCores_foot _ _)
    | with_reducible apply Foot.after (onProg_foot _ _ _)
    | with_reducible apply Foot.after (event_foot _ _ _ _ _ _)
    | with_reducible apply Foot.after (count_foot _ _) | exact rfl | split | dsimp only)

theorem poison_foot (a : Nat) (s : State) :
    Foot [.out, .keep, .host, .log, .pmc, .spn, .qre] s (poison a s) := by
  unfold poison
  repeat' (first
    | with_reducible exact Foot.refl | with_reducible assumption | with_reducible apply Foot.ite
    | with_reducible apply Foot.after (event_foot _ _ _ _ _ _) | with_reducible apply Foot.onQre | exact rfl
    | split | dsimp only)

theorem corrected'_foot (slice n : Nat) (s : State) :
    Foot [.out, .keep, .host, .log, .pmc, .spn, .qre] s (corrected' slice n s) := by
  unfold corrected'
  repeat' (first
    | with_reducible exact Foot.refl | with_reducible assumption | with_reducible apply Foot.ite
    | with_reducible apply Foot.after (event_foot _ _ _ _ _ _)
    | with_reducible apply Foot.after (countN_foot _ _ _) | with_reducible apply Foot.onQre | exact rfl | split
    | dsimp only)

theorem writeRange_foot (data : Mem) (r : Nat × Nat) (s : State) :
    Foot [.qre, .mem] s (writeRange data r s) := by
  unfold writeRange
  repeat' (first
    | with_reducible exact Foot.refl | with_reducible assumption | with_reducible apply Foot.ite
    | with_reducible refine Foot.foldl ?_ fun v a hv => ?_ | with_reducible apply Foot.after (heal_foot _ _ _)
    | with_reducible apply Foot.onMem | exact rfl | with_reducible exact id | exact fun _ => rfl | exact id
    | exact fun h => Mem.wf_writeN h _ _ | exact fun h => Mem.wf_foldl (Mem.wf_clearRange h _ _) _ _ _ | split
    | dsimp only)

theorem zeroFill_foot (ps : List Prog) (s : State) :
    Foot [.qre, .mem] s (zeroFill ps s) := by
  unfold zeroFill
  repeat' (first
    | with_reducible exact Foot.refl | with_reducible assumption | with_reducible apply Foot.ite
    | with_reducible refine Foot.foldl ?_ fun v a hv => ?_
    | with_reducible apply Foot.after (binderWrite_foot _ _ _) | exact rfl | split | dsimp only)

theorem doScrubPass_foot (slice corrections : Nat) (bad : List Nat) (s : State) :
    Foot [.now, .out, .keep, .host, .log, .pmc, .spn, .qre] s (doScrubPass slice corrections bad s) := by
  unfold doScrubPass
  repeat' (first
    | with_reducible exact Foot.refl | with_reducible assumption | with_reducible apply Foot.ite
    | with_reducible refine Foot.foldl ?_ fun v a hv => ?_
    | with_reducible apply Foot.after (corrected'_foot _ _ _)
    | with_reducible apply Foot.after (poison_foot _ _) | with_reducible apply Foot.after (reach_foot _ _)
    | with_reducible apply Foot.onQre | exact rfl | split | dsimp only)

theorem takeCkpt_foot (e : EpochRef) (s : State) :
    Foot [.now, .out, .host, .pmc, .ep] s (takeCkpt e s) := by
  unfold takeCkpt
  repeat' (first
    | with_reducible exact Foot.refl | with_reducible assumption | with_reducible apply Foot.ite
    | with_reducible refine Foot.foldl ?_ fun v a hv => ?_ | with_reducible apply Foot.after (tick_foot _)
    | with_reducible apply Foot.onEp | exact rfl | split | dsimp only)

theorem tryCkpt_foot (s : State) :
    Foot [.now, .out, .host, .pmc, .ep] s (tryCkpt s) := by
  unfold tryCkpt
  repeat' (first
    | with_reducible exact Foot.refl | with_reducible assumption | with_reducible apply Foot.ite
    | with_reducible apply Foot.after (takeCkpt_foot _ _) | exact rfl | split | dsimp only)

theorem doCheckpointWriteDone_foot (ok : Bool) (s : State) :
    Foot [.cat, .ep] s (doCheckpointWriteDone ok s) := by
  unfold doCheckpointWriteDone
  repeat' (first
    | with_reducible exact Foot.refl | with_reducible assumption | with_reducible apply Foot.ite
    | with_reducible apply Foot.onCat | with_reducible apply Foot.onEp | exact rfl | split | dsimp only)

theorem restoreFirst_foot (e : EpochRef) (s : State) :
    Foot [.out, .keep, .host, .log, .pmc, .spn, .qre, .mem, .ep] s (restoreFirst e s) := by
  unfold restoreFirst
  repeat' (first
    | with_reducible exact Foot.refl | with_reducible assumption | with_reducible apply Foot.ite
    | with_reducible refine Foot.foldl ?_ fun v a hv => ?_
    | with_reducible apply Foot.after (writeRange_foot _ _ _)
    | with_reducible apply Foot.after (event_foot _ _ _ _ _ _) | with_reducible apply Foot.onEp | exact rfl
    | split | dsimp only)

theorem sendResults_foot (s : State) :
    Foot [.out, .pmc, .spn] s (sendResults s) := by
  unfold sendResults
  repeat' (first
    | with_reducible exact Foot.refl | with_reducible assumption | with_reducible apply Foot.ite
    | with_reducible apply Foot.after (sendPair_foot _ _) | exact rfl | split | dsimp only)

theorem complete_foot (s : State) :
    Foot [.now, .out, .keep, .host, .log, .pmc, .spn, .ep] s (complete s) := by
  unfold complete
  repeat' (first
    | with_reducible exact Foot.refl | with_reducible assumption | with_reducible apply Foot.ite
    | with_reducible apply Foot.after (sendResults_foot _) | with_reducible apply Foot.after (tryCkpt_foot _)
    | with_reducible apply Foot.after (endBorrow_foot _) | with_reducible apply Foot.onEp | exact rfl | split
    | dsimp only)

theorem masterSend_foot (op : Nat) (body : Bytes) (pos : Nat) (s : State) :
    Foot [.out, .pmc, .spn] s (masterSend op body pos s) := by
  unfold masterSend
  repeat' (first
    | with_reducible exact Foot.refl | with_reducible assumption | with_reducible apply Foot.ite
    | with_reducible apply Foot.after (relayCommand_foot _ _ _ _ _) | with_reducible apply Foot.onSpn
    | exact rfl | split | dsimp only)

theorem supersede_foot (s : State) :
    Foot [.out, .mbx, .jr, .stg, .pmc, .spn, .pair, .ep, .stw] s (supersede s) := by
  unfold supersede
  repeat' (first
    | with_reducible exact Foot.refl | with_reducible assumption | with_reducible apply Foot.ite
    | with_reducible apply Foot.after (finish0_foot _ _ _) | with_reducible apply Foot.onEp | exact rfl | split
    | dsimp only)

theorem fxConfigEpoch_foot (e : JEntry) (s : State) :
    Foot [.out, .kt, .mbx, .jr, .stg, .host, .pmc, .spn, .pair, .ep, .stw] s (fxConfigEpoch e s) := by
  unfold fxConfigEpoch
  repeat' (first
    | with_reducible exact Foot.refl | with_reducible assumption | with_reducible apply Foot.ite
    | with_reducible refine Foot.foldl ?_ fun v a hv => ?_ | with_reducible apply Foot.after (supersede_foot _)
    | with_reducible apply Foot.after (masterSend_foot _ _ _ _)
    | with_reducible apply Foot.after (waitObject_foot _ _)
    | with_reducible apply Foot.after (finish0_foot _ _ _) | with_reducible apply Foot.onKt
    | with_reducible apply Foot.onEp | exact rfl | exact .inl rfl | with_reducible exact .inr rfl
    | with_reducible exact .inr (.inl rfl) | with_reducible exact .inr ⟨rfl, rfl⟩ | exact .inr rfl
    | exact .inr (.inl rfl) | exact .inr ⟨rfl, rfl⟩ | split | dsimp only)

theorem startLater_foot (s : State) :
    Foot [.out, .kt, .mbx, .jr, .stg, .host, .pmc, .spn, .pair, .ep, .stw] s (startLater s) := by
  unfold startLater
  repeat' (first
    | with_reducible exact Foot.refl | with_reducible assumption | with_reducible apply Foot.ite
    | with_reducible apply Foot.after (fxConfigEpoch_foot _ _) | with_reducible apply Foot.onEp | exact rfl
    | split | dsimp only)

theorem dropPending_foot (result : Word) (s : State) :
    Foot [.out, .kt, .mbx, .jr, .stg, .host, .pmc, .spn, .pair, .ep, .stw] s (dropPending result s) := by
  unfold dropPending
  repeat' (first
    | with_reducible exact Foot.refl | with_reducible assumption | with_reducible apply Foot.ite
    | with_reducible apply Foot.after (startLater_foot _)
    | with_reducible apply Foot.after (finish0_foot _ _ _) | with_reducible apply Foot.onEp | exact rfl | split
    | dsimp only)

theorem doEpochPrepDone_foot (ok : Bool) (s : State) :
    Foot [.out, .keep, .kt, .mbx, .jr, .stg, .host, .log, .pmc, .spn, .pair, .qre, .mem, .ep, .stw]
      s (doEpochPrepDone ok s) := by
  unfold doEpochPrepDone
  repeat' (first
    | with_reducible exact Foot.refl | with_reducible assumption | with_reducible apply Foot.ite
    | with_reducible refine Foot.foldl ?_ fun v a hv => ?_
    | with_reducible apply Foot.after (dropPending_foot _ _)
    | with_reducible apply Foot.after (restoreFirst_foot _ _)
    | with_reducible apply Foot.after (binderWrite_foot _ _ _) | with_reducible apply Foot.onEp | exact rfl
    | split | dsimp only)

theorem announceEpoch_foot (s : State) :
    Foot [.spn, .ep] s (announceEpoch s) := by
  unfold announceEpoch
  repeat' (first
    | with_reducible exact Foot.refl | with_reducible assumption | with_reducible apply Foot.ite
    | with_reducible apply Foot.onSpn | with_reducible apply Foot.onEp | exact rfl | split | dsimp only)

theorem askStatus_foot (m : Manifest) (s : State) :
    Foot [.out, .pmc, .spn] s (askStatus m s) := by
  unfold askStatus
  repeat' (first
    | with_reducible exact Foot.refl | with_reducible assumption | with_reducible apply Foot.ite
    | with_reducible refine Foot.foldl ?_ fun v a hv => ?_
    | with_reducible apply Foot.after (masterSend_foot _ _ _ _) | exact rfl | split | dsimp only)

theorem bringUp_foot (e : EpochRef) (a : EpochAnswer) (s : State) :
    Foot [.out, .pmc, .spn, .ep] s (bringUp e a s) := by
  unfold bringUp
  repeat' (first
    | with_reducible exact Foot.refl | with_reducible assumption | with_reducible apply Foot.ite
    | with_reducible apply Foot.after (announceEpoch_foot _)
    | with_reducible apply Foot.after (masterSend_foot _ _ _ _) | with_reducible apply Foot.onEp | exact rfl
    | split | dsimp only)

theorem nextPoll_foot (s : State) :
    Foot [.now, .pmc, .ep] s (nextPoll s) := by
  unfold nextPoll
  repeat' (first
    | with_reducible exact Foot.refl | with_reducible assumption | with_reducible apply Foot.ite
    | with_reducible apply Foot.after (reach_foot _ _) | with_reducible apply Foot.onEp | exact rfl | split
    | dsimp only)

theorem pollRow_foot (e : EpochRef) (answers : List EpochAnswer) (s : State) :
    Foot [.out, .pmc, .spn, .ep] s (pollRow e answers s) := by
  unfold pollRow
  repeat' (first
    | with_reducible exact Foot.refl | with_reducible assumption | with_reducible apply Foot.ite
    | with_reducible refine Foot.foldl ?_ fun v a hv => ?_
    | with_reducible apply Foot.after (bringUp_foot _ _ _)
    | with_reducible apply Foot.after (askStatus_foot _ _) | exact rfl | split | dsimp only)

theorem doEpochReadyPoll_foot (answers : List EpochAnswer) (s : State) :
    Foot [.now, .out, .pmc, .spn, .ep] s (doEpochReadyPoll answers s) := by
  unfold doEpochReadyPoll
  repeat' (first
    | with_reducible exact Foot.refl | with_reducible assumption | with_reducible apply Foot.ite
    | with_reducible apply Foot.after (pollRow_foot _ _ _) | with_reducible apply Foot.after (nextPoll_foot _)
    | with_reducible apply Foot.after (askStatus_foot _ _)
    | with_reducible apply Foot.after (announceEpoch_foot _) | exact rfl | split | dsimp only)

theorem doEpochLapse_foot (s : State) :
    Foot [.now, .out, .kt, .mbx, .jr, .stg, .host, .pmc, .spn, .pair, .ep, .stw] s (doEpochLapse s) := by
  unfold doEpochLapse
  repeat' (first
    | with_reducible exact Foot.refl | with_reducible assumption | with_reducible apply Foot.ite
    | with_reducible apply Foot.after (dropPending_foot _ _) | with_reducible apply Foot.after (reach_foot _ _)
    | exact rfl | split | dsimp only)

theorem overrun_foot (k : Nat) (s : State) :
    Foot [.out, .keep, .host, .log, .pmc, .spn] s (overrun k s) := by
  unfold overrun
  repeat' (first
    | with_reducible exact Foot.refl | with_reducible assumption | with_reducible apply Foot.ite
    | with_reducible apply Foot.after (event_foot _ _ _ _ _ _)
    | with_reducible apply Foot.after (count_foot _ _) | exact rfl | split | dsimp only)

theorem swapQuires_foot (chg : List Nat) (new : List Prog) (s : State) :
    Foot [.out, .keep, .host, .log, .pmc, .spn, .qre] s (swapQuires chg new s) := by
  unfold swapQuires
  repeat' (first
    | with_reducible exact Foot.refl | with_reducible assumption | with_reducible apply Foot.ite
    | with_reducible refine Foot.foldl ?_ fun v a hv => ?_ | with_reducible apply Foot.after (overrun_foot _ _)
    | with_reducible apply Foot.after (onCore_foot _ _ _) | with_reducible apply Foot.onQre | exact rfl | split
    | dsimp only)

theorem setHalves_foot (s : State) :
    Foot [.out, .keep, .pwr, .host, .log, .pmc, .spn] s (setHalves s) := by
  unfold setHalves
  repeat' (first
    | with_reducible exact Foot.refl | with_reducible assumption | with_reducible apply Foot.ite
    | with_reducible refine Foot.foldl ?_ fun v a hv => ?_
    | with_reducible apply Foot.after (setHalf_foot _ _ _) | exact rfl | split | dsimp only)

theorem clearPreload_foot (n : Nat) (s : State) :
    Foot [.qre] s (clearPreload n s) := by
  unfold clearPreload
  repeat' (first
    | with_reducible exact Foot.refl | with_reducible assumption | with_reducible apply Foot.ite
    | with_reducible apply Foot.onQre | exact rfl | split | dsimp only)

theorem endEpoch_foot (next : Manifest) (s : State) :
    Foot [.out, .mbx, .jr, .stg, .pmc, .spn, .pair, .stw] s (endEpoch next s) := by
  unfold endEpoch
  repeat' (first
    | with_reducible exact Foot.refl | with_reducible assumption | with_reducible apply Foot.ite
    | with_reducible refine Foot.foldl ?_ fun v a hv => ?_
    | with_reducible apply Foot.after (finish0_foot _ _ _) | with_reducible apply Foot.after (dropObj_foot _ _)
    | exact rfl | split | dsimp only)

theorem changeEpoch_foot (p : PendEpoch) (s : State) :
    Foot [.now, .out, .keep, .pwr, .otp, .kt, .mbx, .jr, .stg, .host, .log, .pmc, .spn, .pair, .lv, .ket, .qre,
      .ep, .stw, .core, .ten, .route]
      s (changeEpoch p s) := by
  unfold changeEpoch
  repeat' (first
    | with_reducible exact Foot.refl | with_reducible assumption | with_reducible apply Foot.ite
    | with_reducible apply Foot.after (endEpoch_foot _ _)
    | with_reducible apply Foot.after (clearPreload_foot _ _)
    | with_reducible apply Foot.after (setHalves_foot _)
    | with_reducible apply Foot.after (swapQuires_foot _ _ _)
    | with_reducible apply Foot.after (startLater_foot _)
    | with_reducible apply Foot.after (applyRoutes_foot _) | with_reducible apply Foot.after (tick_foot _)
    | with_reducible apply Foot.after (event_foot _ _ _ _ _ _) | with_reducible apply Foot.onEp | exact rfl
    | split | dsimp only)

theorem doPreloadDone_foot (s : State) :
    Foot [.qre, .mem, .ep] s (doPreloadDone s) := by
  unfold doPreloadDone
  repeat' (first
    | with_reducible exact Foot.refl | with_reducible assumption | with_reducible apply Foot.ite
    | with_reducible refine Foot.foldl ?_ fun v a hv => ?_
    | with_reducible apply Foot.after (zeroFill_foot _ _)
    | with_reducible apply Foot.after (binderWrite_foot _ _ _) | with_reducible apply Foot.onQre
    | with_reducible apply Foot.onEp | exact rfl | split | dsimp only)

theorem doModelRestoreDone_foot (s : State) :
    Foot [.qre, .mem] s (doModelRestoreDone s) := by
  unfold doModelRestoreDone
  repeat' (first
    | with_reducible exact Foot.refl | with_reducible assumption | with_reducible apply Foot.ite
    | with_reducible refine Foot.foldl ?_ fun v a hv => ?_
    | with_reducible apply Foot.after (zeroFill_foot _ _)
    | with_reducible apply Foot.after (writeRange_foot _ _ _)
    | with_reducible apply Foot.after (binderWrite_foot _ _ _) | with_reducible apply Foot.onQre | exact rfl
    | split | dsimp only)

theorem restartPrograms_foot (s : State) :
    Foot [.out, .mbx, .jr, .stg, .pmc, .spn, .pair, .qre, .ep, .stw] s (restartPrograms s) := by
  unfold restartPrograms
  repeat' (first
    | with_reducible exact Foot.refl | with_reducible assumption | with_reducible apply Foot.ite
    | with_reducible refine Foot.foldl ?_ fun v a hv => ?_
    | with_reducible apply Foot.after (startCores_foot _ _)
    | with_reducible apply Foot.after (onProg_foot _ _ _)
    | with_reducible apply Foot.after (finish0_foot _ _ _) | with_reducible apply Foot.onEp | exact rfl | split
    | dsimp only)

theorem beginLoad_foot (s : State) :
    Foot [.qre, .ep] s (beginLoad s) := by
  unfold beginLoad
  repeat' (first
    | with_reducible exact Foot.refl | with_reducible assumption | with_reducible apply Foot.ite
    | with_reducible refine Foot.foldl ?_ fun v a hv => ?_
    | with_reducible apply Foot.after (stopCores_foot _ _)
    | with_reducible apply Foot.after (onProg_foot _ _ _) | with_reducible apply Foot.onEp | exact rfl | split
    | dsimp only)

theorem switchProg_foot (p : Prog) (s : State) :
    Foot [.now, .out, .keep, .pwr, .host, .log, .pmc, .spn, .qre, .ep] s (switchProg p s) := by
  unfold switchProg
  repeat' (first
    | with_reducible exact Foot.refl | with_reducible assumption | with_reducible apply Foot.ite
    | with_reducible apply Foot.after (setHalves_foot _)
    | with_reducible apply Foot.after (swapQuires_foot _ _ _)
    | with_reducible apply Foot.after (beginBorrow_foot _)
    | with_reducible apply Foot.after (stopCores_foot _ _)
    | with_reducible apply Foot.after (onProg_foot _ _ _) | with_reducible apply Foot.after (tick_foot _)
    | with_reducible apply Foot.after (event_foot _ _ _ _ _ _) | with_reducible apply Foot.onEp | exact rfl
    | split | dsimp only)

theorem switchVariants_foot (s : State) :
    Foot [.now, .out, .keep, .pwr, .host, .log, .pmc, .spn, .qre, .ep] s (switchVariants s) := by
  unfold switchVariants
  repeat' (first
    | with_reducible exact Foot.refl | with_reducible assumption | with_reducible apply Foot.ite
    | with_reducible refine Foot.foldl ?_ fun v a hv => ?_
    | with_reducible apply Foot.after (switchProg_foot _ _) | with_reducible apply Foot.onEp | exact rfl
    | split | dsimp only)

theorem borrowTick_foot (s : State) :
    Foot [.out, .keep, .host, .log, .pmc, .spn, .ep] s (borrowTick s) := by
  unfold borrowTick
  repeat' (first
    | with_reducible exact Foot.refl | with_reducible assumption | with_reducible apply Foot.ite
    | with_reducible apply Foot.after (endBorrow_foot _) | with_reducible apply Foot.after (beginBorrow_foot _)
    | exact rfl | split | dsimp only)

theorem fxModelLoad_foot (e : JEntry) (s : State) :
    Foot [.out, .kt, .mbx, .jr, .stg, .host, .pmc, .spn, .pair, .ep, .stw] s (fxModelLoad e s) := by
  unfold fxModelLoad
  repeat' (first
    | with_reducible exact Foot.refl | with_reducible assumption | with_reducible apply Foot.ite
    | with_reducible apply Foot.after (waitObject_foot _ _)
    | with_reducible apply Foot.after (finish0_foot _ _ _) | with_reducible apply Foot.onKt
    | with_reducible apply Foot.onEp | exact rfl | exact .inl rfl | with_reducible exact .inr rfl
    | with_reducible exact .inr (.inl rfl) | with_reducible exact .inr ⟨rfl, rfl⟩ | exact .inr rfl
    | exact .inr (.inl rfl) | exact .inr ⟨rfl, rfl⟩ | split | dsimp only)

theorem fxSpill_foot (e : JEntry) (s : State) :
    Foot [.out, .kt, .mbx, .jr, .stg, .pmc, .spn, .pair, .qre, .stw] s (fxSpill e s) := by
  unfold fxSpill
  repeat' (first
    | with_reducible exact Foot.refl | with_reducible assumption | with_reducible apply Foot.ite
    | with_reducible apply Foot.after (finish0_foot _ _ _) | with_reducible apply Foot.onKt
    | with_reducible apply Foot.onQre | exact rfl | exact .inl rfl | with_reducible exact .inr rfl
    | with_reducible exact .inr (.inl rfl) | with_reducible exact .inr ⟨rfl, rfl⟩ | exact .inr rfl
    | exact .inr (.inl rfl) | exact .inr ⟨rfl, rfl⟩ | split | dsimp only)

theorem doLpddrTrainingDone_foot (ok : Bool) (channel step : Nat) (s : State) :
    Foot [.out, .keep, .mbx, .jr, .stg, .host, .log, .pmc, .spn, .pair, .qre, .stw]
      s (doLpddrTrainingDone ok channel step s) := by
  unfold doLpddrTrainingDone
  repeat' (first
    | with_reducible exact Foot.refl | with_reducible assumption | with_reducible apply Foot.ite
    | with_reducible refine Foot.foldl ?_ fun v a hv => ?_
    | with_reducible apply Foot.after (finish0_foot _ _ _)
    | with_reducible apply Foot.after (event_foot _ _ _ _ _ _) | with_reducible apply Foot.onQre | exact rfl
    | split | dsimp only)

theorem putInbox_foot (e tick : Nat) (vals : Bytes) (s : State) :
    Foot [.now, .out, .host, .pmc, .mem, .ep] s (putInbox e tick vals s) := by
  unfold putInbox
  repeat' (first
    | with_reducible exact Foot.refl | with_reducible assumption | with_reducible apply Foot.ite
    | with_reducible apply Foot.after (tick_foot _) | with_reducible apply Foot.onMem
    | with_reducible apply Foot.onEp | exact rfl | with_reducible exact id | exact fun _ => rfl | exact id
    | exact fun h => Mem.wf_writeN h _ _ | split | dsimp only)

theorem boundaryLate_foot (e : Nat) (s : State) :
    Foot [.out, .keep, .host, .log, .pmc, .spn] s (boundaryLate e s) := by
  unfold boundaryLate
  repeat' (first
    | with_reducible exact Foot.refl | with_reducible assumption | with_reducible apply Foot.ite
    | with_reducible apply Foot.after (event_foot _ _ _ _ _ _)
    | with_reducible apply Foot.after (count_foot _ _) | exact rfl | split | dsimp only)

theorem doBoundarySlotSend_foot (e : Nat) (s : State) :
    Foot [.now, .out, .keep, .host, .log, .pmc, .spn, .mem, .ep] s (doBoundarySlotSend e s) := by
  unfold doBoundarySlotSend
  repeat' (first
    | with_reducible exact Foot.refl | with_reducible assumption | with_reducible apply Foot.ite
    | with_reducible apply Foot.after (boundaryLate_foot _ _)
    | with_reducible apply Foot.after (putInbox_foot _ _ _ _)
    | with_reducible apply Foot.after (sendSpine_foot _ _ _) | with_reducible apply Foot.after (count_foot _ _)
    | with_reducible apply Foot.onEp | exact rfl | split | dsimp only)

theorem doBoundaryFrame_foot (f : FrameHdr) (part tick elem : Nat) (vals : List Word) (s : State) :
    Foot [.now, .out, .keep, .cat, .mbx, .jr, .stg, .host, .log, .pmc, .spn, .pair, .lv, .mem, .ep, .stw, .core, .ten]
      s (doBoundaryFrame f part tick elem vals s) := by
  unfold doBoundaryFrame
  repeat' (first
    | with_reducible exact Foot.refl | with_reducible assumption | with_reducible apply Foot.ite
    | with_reducible apply Foot.after (boundaryLate_foot _ _)
    | with_reducible apply Foot.after (putInbox_foot _ _ _ _)
    | with_reducible refine rxFrame_foot ?_ ?_ ?_ fun v hv => ?_
    | with_reducible apply Foot.after (tick_foot _) | exact rfl | split | dsimp only)

theorem missElem_foot (e : Nat) (s : State) :
    Foot [.mem, .ep] s (missElem e s) := by
  unfold missElem
  repeat' (first
    | with_reducible exact Foot.refl | with_reducible assumption | with_reducible apply Foot.ite
    | with_reducible apply Foot.onMem | with_reducible apply Foot.onEp | exact rfl | with_reducible exact id
    | exact fun _ => rfl | exact id | exact fun h => Mem.wf_writeN h _ _ | split | dsimp only)

theorem doBoundaryDeadline_foot (s : State) :
    Foot [.now, .pmc, .mem, .ep] s (doBoundaryDeadline s) := by
  unfold doBoundaryDeadline
  repeat' (first
    | with_reducible exact Foot.refl | with_reducible assumption | with_reducible apply Foot.ite
    | with_reducible refine Foot.foldl ?_ fun v a hv => ?_
    | with_reducible apply Foot.after (missElem_foot _ _) | with_reducible apply Foot.after (reach_foot _ _)
    | with_reducible apply Foot.onEp | exact rfl | split | dsimp only)

end Sys2Proof.Machine
end

