-- ==== Sys2Proof/Laws/FootCores.lean ====
section
/-! SUPPORT. Laws/FootCores.lean: the footprint of each operation of Machine/Cores.lean. -/

set_option linter.unusedTactic false
set_option linter.unreachableTactic false
set_option linter.unusedVariables false

namespace Sys2Proof.Machine

theorem storeEl_foot (a n v : Nat) (s : State) :
    Foot [.now, .out, .keep, .host, .log, .pmc, .spn, .mem, .ep] s (storeEl a n v s) := by
  unfold storeEl
  repeat' (first
    | with_reducible exact Foot.refl | with_reducible assumption | with_reducible apply Foot.ite
    | with_reducible apply Foot.after (complete_foot _) | with_reducible apply Foot.onMem | exact rfl
    | with_reducible exact id | exact fun _ => rfl | exact id | exact fun h => Mem.wf_writeN h _ _ | split
    | dsimp only)

theorem noteWrites_foot (p : Prog) (ws : List (Nat × Nat)) (s : State) :
    Foot [.out, .keep, .host, .log, .pmc, .spn, .qre] s (noteWrites p ws s) := by
  unfold noteWrites
  repeat' (first
    | with_reducible exact Foot.refl | with_reducible assumption | with_reducible apply Foot.ite
    | with_reducible apply Foot.after (poison_foot _ _) | with_reducible apply Foot.onQre | exact rfl | split
    | dsimp only)

theorem countEvents_foot (es : List Nat) (s : State) :
    Foot [.pmc] s (countEvents es s) := by
  unfold countEvents
  repeat' (first
    | with_reducible exact Foot.refl | with_reducible assumption | with_reducible apply Foot.ite
    | with_reducible refine Foot.foldl ?_ fun v a hv => ?_
    | with_reducible apply Foot.after (countN_foot _ _ _) | exact rfl | split | dsimp only)

theorem storeAll_foot (p : Prog) (ws : List (Nat × Nat × Elem)) (s : State) :
    Foot [.now, .out, .keep, .host, .log, .pmc, .spn, .qre, .mem, .ep] s (storeAll p ws s) := by
  unfold storeAll
  repeat' (first
    | with_reducible exact Foot.refl | with_reducible assumption | with_reducible apply Foot.ite
    | with_reducible refine Foot.foldl ?_ fun v a hv => ?_
    | with_reducible apply Foot.after (countEvents_foot _ _)
    | with_reducible apply Foot.after (noteWrites_foot _ _ _)
    | with_reducible apply Foot.after (storeEl_foot _ _ _ _) | exact rfl | split | dsimp only)

theorem endDesc_foot (q c : Nat) (p : Prog) (d : Desc) (s : State) :
    Foot [.out, .keep, .kt, .host, .log, .pmc, .spn, .qre, .ep] s (endDesc q c p d s) := by
  unfold endDesc
  repeat' (first
    | with_reducible exact Foot.refl | with_reducible assumption | with_reducible apply Foot.ite
    | with_reducible apply Foot.after (quireFault_foot _ _ _ _)
    | with_reducible apply Foot.after (onCore_foot _ _ _) | with_reducible apply Foot.after (count_foot _ _)
    | with_reducible apply Foot.onQre | exact rfl | split | dsimp only)

theorem passWait_foot {k : Nat} {d : Desc} {s t : State} (h : passWait k d s = some t) : Foot [.qre] s t := by
  by_cases h1 : (!d.wait.getLsbD 15 || (coreOf s k).waited) = true
  · rw [passWait, if_pos h1] at h
    exact Option.some.inj h ▸ Foot.refl
  · rw [passWait, if_neg h1] at h
    by_cases h2 : (!s.qre.flags.get false (k / 4 * 256 + d.wait.toNat % 256)) = true
    · rw [if_pos h2] at h; cases h
    · rw [if_neg h2] at h
      rw [← Option.some.inj h]
      exact Foot.after (onCore_foot _ _ _) (Foot.ite Foot.refl (Foot.refl.onQre rfl)) rfl

theorem passWaitD_foot (k : Nat) (d : Desc) (s : State) : Foot [.qre] s ((passWait k d s).getD s) := by
  cases h : passWait k d s with
  | none => exact Foot.refl
  | some t => exact passWait_foot h

theorem noteEcc_foot (e : EccHit) (d : Desc) (xs : List Access) (s : State) :
    Foot [.out, .keep, .host, .log, .pmc, .spn, .qre] s (noteEcc e d xs s) := by
  unfold noteEcc
  repeat' (first
    | with_reducible exact Foot.refl | with_reducible assumption | with_reducible apply Foot.ite
    | with_reducible apply Foot.after (corrected'_foot _ _ _)
    | with_reducible apply Foot.after (poison_foot _ _) | exact rfl | split | dsimp only)

theorem moveEntries_foot (push : Bool) (id depth : Nat) (d : Desc) (p : Prog) (n i : Nat) (s : State) :
    Foot [.now, .out, .keep, .host, .log, .pmc, .spn, .qre, .mem, .ep] s (moveEntries push id depth d p n i s).2 := by
  induction n generalizing i s with
  | zero => exact Foot.refl
  | succ n ih =>
    unfold moveEntries
    split
    · dsimp only
      split
      · exact Foot.refl
      · exact Foot.after (ih _ _) (Foot.refl.onQre rfl) rfl
    · dsimp only
      split
      · exact Foot.refl
      · exact Foot.after (ih _ _) (Foot.after (storeAll_foot _ _ _) (Foot.refl.onQre rfl) rfl) rfl

theorem queueWork_foot (q c : Nat) (push : Bool) (p : Prog) (d : Desc) (s : State) :
    Foot [.now, .out, .keep, .kt, .host, .log, .pmc, .spn, .qre, .mem, .ep] s (queueWork q c push p d s) := by
  unfold queueWork
  repeat' (first
    | with_reducible exact Foot.refl | with_reducible assumption | with_reducible apply Foot.ite
    | with_reducible apply Foot.after (moveEntries_foot _ _ _ _ _ _ _ _)
    | with_reducible refine Foot.then ?_ (Foot.of_eq (moveEntries_foot _ _ _ _ _ _ _ _) (by assumption)) ?_
    | with_reducible apply Foot.after (endDesc_foot _ _ _ _ _)
    | with_reducible apply Foot.after (quireFault_foot _ _ _ _)
    | with_reducible apply Foot.after (onCore_foot _ _ _) | with_reducible apply Foot.onQre | exact rfl | split
    | dsimp only)

theorem dataWork_foot (q c : Nat) (p : Prog) (d : Desc) (s : State) :
    Foot [.now, .out, .keep, .kt, .host, .log, .pmc, .spn, .qre, .mem, .ep] s (dataWork q c p d s) := by
  unfold dataWork
  repeat' (first
    | with_reducible exact Foot.refl | with_reducible assumption | with_reducible apply Foot.ite
    | with_reducible apply Foot.after (queueWork_foot _ _ _ _ _ _)
    | with_reducible apply Foot.after (endDesc_foot _ _ _ _ _)
    | with_reducible apply Foot.after (storeAll_foot _ _ _) | with_reducible apply Foot.after (reach_foot _ _)
    | exact rfl | split | dsimp only)

theorem runWork_foot (q c : Nat) (ecc : EccHit) (p : Prog) (d : Desc) (s : State) :
    Foot [.now, .out, .keep, .kt, .host, .log, .pmc, .spn, .qre, .mem, .ep] s (runWork q c ecc p d s) := by
  unfold runWork
  repeat' (first
    | with_reducible exact Foot.refl | with_reducible assumption | with_reducible apply Foot.ite
    | with_reducible apply Foot.after (dataWork_foot _ _ _ _ _)
    | with_reducible apply Foot.after (noteEcc_foot _ _ _ _)
    | with_reducible apply Foot.after (quireFault_foot _ _ _ _) | exact rfl | split | dsimp only)

theorem runOp_foot (op q c : Nat) (ecc : EccHit) (s : State) :
    Foot [.now, .out, .keep, .kt, .host, .log, .pmc, .spn, .qre, .mem, .ep] s (runOp op q c ecc s) := by
  unfold runOp
  repeat' (first
    | with_reducible exact Foot.refl | with_reducible assumption | with_reducible apply Foot.ite
    | with_reducible apply Foot.after (runWork_foot _ _ _ _ _ _)
    | with_reducible refine Foot.then ?_ (passWait_foot (by assumption)) ?_
    | with_reducible apply Foot.after (passWaitD_foot _ _ _)
    | with_reducible apply Foot.after (quireFault_foot _ _ _ _) | exact rfl | split | dsimp only)

theorem doDescWaitPass_foot (q c : Nat) (s : State) :
    Foot [.out, .keep, .kt, .host, .log, .pmc, .spn, .qre, .ep] s (doDescWaitPass q c s) := by
  unfold doDescWaitPass
  repeat' (first
    | with_reducible exact Foot.refl | with_reducible assumption | with_reducible apply Foot.ite
    | with_reducible refine Foot.then ?_ (passWait_foot (by assumption)) ?_
    | with_reducible apply Foot.after (passWaitD_foot _ _ _)
    | with_reducible apply Foot.after (quireFault_foot _ _ _ _) | exact rfl | split | dsimp only)

theorem doQueueStallRelease_foot (q c : Nat) (ecc : EccHit) (s : State) :
    Foot [.now, .out, .keep, .kt, .host, .log, .pmc, .spn, .qre, .mem, .ep] s (doQueueStallRelease q c ecc s) := by
  unfold doQueueStallRelease
  repeat' (first
    | with_reducible exact Foot.refl | with_reducible assumption | with_reducible apply Foot.ite
    | with_reducible apply Foot.after (runOp_foot _ _ _ _ _) | exact rfl | split | dsimp only)

theorem doCycleCompletionWrite_foot (q c : Nat) (ecc : EccHit) (s : State) :
    Foot [.now, .out, .keep, .kt, .host, .log, .pmc, .spn, .qre, .mem, .ep] s (doCycleCompletionWrite q c ecc s) := by
  unfold doCycleCompletionWrite
  repeat' (first
    | with_reducible exact Foot.refl | with_reducible assumption | with_reducible apply Foot.ite
    | with_reducible apply Foot.after (runOp_foot _ _ _ _ _) | exact rfl | split | dsimp only)

theorem tickCore_foot (k : Nat) (s : State) :
    Foot [.out, .keep, .kt, .host, .log, .pmc, .spn, .qre, .ep] s (tickCore k s) := by
  unfold tickCore
  repeat' (first
    | with_reducible exact Foot.refl | with_reducible assumption | with_reducible apply Foot.ite
    | with_reducible apply Foot.after (overrun_foot _ _)
    | with_reducible apply Foot.after (quireFault_foot _ _ _ _)
    | with_reducible apply Foot.after (onCore_foot _ _ _) | exact rfl | split | dsimp only)

theorem leftovers_foot (p : Prog) (s : State) :
    Foot [.out, .keep, .kt, .host, .log, .pmc, .spn, .qre, .ep] s (leftovers p s) := by
  unfold leftovers
  repeat' (first
    | with_reducible exact Foot.refl | with_reducible assumption | with_reducible apply Foot.ite
    | with_reducible apply Foot.after (quireFault_foot _ _ _ _) | exact rfl | split | dsimp only)

theorem tickCores_foot (chg : List Nat) (s : State) :
    Foot [.out, .keep, .kt, .host, .log, .pmc, .spn, .qre, .ep] s (tickCores chg s) := by
  unfold tickCores
  repeat' (first
    | with_reducible exact Foot.refl | with_reducible assumption | with_reducible apply Foot.ite
    | with_reducible refine Foot.foldl ?_ fun v a hv => ?_
    | with_reducible apply Foot.after (leftovers_foot _ _)
    | with_reducible apply Foot.after (tickCore_foot _ _) | with_reducible apply Foot.onQre | exact rfl | split
    | dsimp only)

end Sys2Proof.Machine
end

