-- ==== Sys2Proof/Laws/FootPlanner.lean ====
section
/-! SUPPORT. Laws/FootPlanner.lean: the footprint of each operation of Machine/Planner.lean. -/

set_option linter.unusedTactic false
set_option linter.unreachableTactic false
set_option linter.unusedVariables false

namespace Sys2Proof.Machine

theorem tell_foot (o : PlanOutcome) (s : State) :
    Foot [.out, .pmc, .spn] s (tell o s) := by
  unfold tell
  repeat' (first
    | with_reducible exact Foot.refl | with_reducible assumption | with_reducible apply Foot.ite
    | with_reducible apply Foot.after (sendPair_foot _ _) | exact rfl | split | dsimp only)

theorem dropLeaveWaits_foot (s : State) :
    Foot [.lv] s (dropLeaveWaits s) := by
  unfold dropLeaveWaits
  repeat' (first
    | with_reducible exact Foot.refl | with_reducible assumption | with_reducible apply Foot.ite
    | with_reducible apply Foot.onLv | exact rfl | split | dsimp only)

theorem askElem_foot (seg : Seg) (e : Nat) (s : State) :
    Foot [.out, .keep, .host, .log, .pmc, .spn, .lv] s (askElem seg e s).2 := by
  unfold askElem
  repeat' (first
    | with_reducible exact Foot.refl | with_reducible assumption | with_reducible apply Foot.ite
    | with_reducible apply Foot.after (waitLeave_foot _ _ _ _ _ _)
    | with_reducible apply Foot.after (grantInternal_foot _ _ _ _ _)
    | with_reducible apply Foot.after (reportUnset_foot _) | exact rfl | split | dsimp only)

theorem askElems_foot (seg : Seg) (es : List Nat) (s : State) :
    Foot [.out, .keep, .host, .log, .pmc, .spn, .lv] s (askElems seg es s).2 := by
  induction es generalizing s with
  | nil => exact Foot.refl
  | cons e es ih => exact Foot.after (ih _) (askElem_foot _ _ _) rfl

theorem onRun_foot (f : Traj → Traj) (s : State) :
    Foot [.pln] s (onRun f s) := by
  unfold onRun
  repeat' (first
    | with_reducible exact Foot.refl | with_reducible assumption | with_reducible apply Foot.ite
    | with_reducible apply Foot.onPln | exact rfl | split | dsimp only)

theorem dispatchPoints_foot (t point : Nat) (r : Traj) (x : List Rat) (s : State) :
    Foot [.out, .keep, .kt, .host, .log, .pmc, .spn, .drv, .can] s (dispatchPoints t point r x s) := by
  unfold dispatchPoints
  repeat' (first
    | with_reducible exact Foot.refl | with_reducible assumption | with_reducible apply Foot.ite
    | with_reducible refine Foot.foldl ?_ fun v a hv => ?_
    | with_reducible apply Foot.after (sendCommand_foot _ _ _ _ _ _)
    | with_reducible apply Foot.after (localPoint_foot _ _ _) | exact rfl | split | dsimp only)

theorem endRun_foot (r : Traj) (x : List Rat) (s : State) :
    Foot [.out, .keep, .mbx, .jr, .stg, .host, .log, .pmc, .spn, .pair, .pln, .stw] s (endRun r x s) := by
  unfold endRun
  repeat' (first
    | with_reducible exact Foot.refl | with_reducible assumption | with_reducible apply Foot.ite
    | with_reducible apply Foot.after (finish0_foot _ _ _)
    | with_reducible apply Foot.after (event_foot _ _ _ _ _ _) | with_reducible apply Foot.onPln | exact rfl
    | split | dsimp only)

theorem beginLeave_foot (t : Nat) (seg : Seg) (s : State) :
    Foot [.out, .keep, .host, .log, .pmc, .spn, .lv, .pln] s (beginLeave t seg s) := by
  unfold beginLeave
  repeat' (first
    | with_reducible exact Foot.refl | with_reducible assumption | with_reducible apply Foot.ite
    | with_reducible apply Foot.after (onRun_foot _ _) | with_reducible apply Foot.after (askElems_foot _ _ _)
    | with_reducible refine Foot.then ?_ (Foot.of_eq (askElems_foot _ _ _) (by assumption)) ?_
    | with_reducible apply Foot.after (tell_foot _ _) | with_reducible apply Foot.onPln | exact rfl | split
    | dsimp only)

theorem doTrajectoryPoint_foot (s : State) :
    Foot [.now, .out, .keep, .kt, .mbx, .jr, .stg, .host, .log, .pmc, .spn, .pair, .lv, .drv, .can, .pln, .stw]
      s (doTrajectoryPoint s) := by
  unfold doTrajectoryPoint
  repeat' (first
    | with_reducible exact Foot.refl | with_reducible assumption | with_reducible apply Foot.ite
    | with_reducible apply Foot.after (beginLeave_foot _ _ _)
    | with_reducible apply Foot.after (endRun_foot _ _ _)
    | with_reducible apply Foot.after (dispatchPoints_foot _ _ _ _ _)
    | with_reducible apply Foot.after (reach_foot _ _) | with_reducible apply Foot.onPln | exact rfl | split
    | dsimp only)

theorem startLeave_foot (s : State) :
    Foot [.pln] s (startLeave s) := by
  unfold startLeave
  repeat' (first
    | with_reducible exact Foot.refl | with_reducible assumption | with_reducible apply Foot.ite
    | with_reducible apply Foot.after (onRun_foot _ _) | with_reducible apply Foot.onPln | exact rfl | split
    | dsimp only)

theorem leaveGranted_foot (e : Nat) (s : State) :
    Foot [.out, .pmc, .spn, .pln] s (leaveGranted e s) := by
  unfold leaveGranted
  repeat' (first
    | with_reducible exact Foot.refl | with_reducible assumption | with_reducible apply Foot.ite
    | with_reducible apply Foot.after (startLeave_foot _) | with_reducible apply Foot.after (onRun_foot _ _)
    | with_reducible apply Foot.after (tell_foot _ _) | exact rfl | split | dsimp only)

theorem plannerRetry_foot (w : LeaveWait) (s : State) :
    Foot [.out, .keep, .host, .log, .pmc, .spn, .lv, .pln] s (plannerRetry w s) := by
  unfold plannerRetry
  repeat' (first
    | with_reducible exact Foot.refl | with_reducible assumption | with_reducible apply Foot.ite
    | with_reducible apply Foot.after (leaveGranted_foot _ _)
    | with_reducible apply Foot.after (waitLeave_foot _ _ _ _ _ _)
    | with_reducible apply Foot.after (grantInternal_foot _ _ _ _ _)
    | with_reducible apply Foot.after (reportUnset_foot _) | exact rfl | split | dsimp only)

theorem endWaiting_foot (result : Word) (s : State) :
    Foot [.out, .mbx, .jr, .stg, .pmc, .spn, .pair, .lv, .pln, .stw] s (endWaiting result s) := by
  unfold endWaiting
  repeat' (first
    | with_reducible exact Foot.refl | with_reducible assumption | with_reducible apply Foot.ite
    | with_reducible apply Foot.after (dropLeaveWaits_foot _)
    | with_reducible apply Foot.after (finish0_foot _ _ _) | with_reducible apply Foot.onPln | exact rfl
    | split | dsimp only)

theorem doLeaveSegmentTimeout_foot (s : State) :
    Foot [.now, .out, .mbx, .jr, .stg, .pmc, .spn, .pair, .lv, .pln, .stw] s (doLeaveSegmentTimeout s) := by
  unfold doLeaveSegmentTimeout
  repeat' (first
    | with_reducible exact Foot.refl | with_reducible assumption | with_reducible apply Foot.ite
    | with_reducible apply Foot.after (endWaiting_foot _ _) | with_reducible apply Foot.after (tell_foot _ _)
    | with_reducible apply Foot.after (reach_foot _ _) | exact rfl | split | dsimp only)

theorem endPlan_foot (result : Word) (s : State) :
    Foot [.out, .mbx, .jr, .stg, .pmc, .spn, .pair, .pln, .stw] s (endPlan result s) := by
  unfold endPlan
  repeat' (first
    | with_reducible exact Foot.refl | with_reducible assumption | with_reducible apply Foot.ite
    | with_reducible apply Foot.after (finish0_foot _ _ _) | with_reducible apply Foot.onPln | exact rfl
    | split | dsimp only)

theorem fxSetpoint_foot (e : JEntry) (s : State) :
    Foot [.out, .mbx, .jr, .stg, .host, .pmc, .spn, .pair, .pln, .stw] s (fxSetpoint e s) := by
  unfold fxSetpoint
  repeat' (first
    | with_reducible exact Foot.refl | with_reducible assumption | with_reducible apply Foot.ite
    | with_reducible apply Foot.after (endPlan_foot _ _)
    | with_reducible apply Foot.after (waitObject_foot _ _) | with_reducible apply Foot.after (count_foot _ _)
    | with_reducible apply Foot.onPln | exact rfl | split | dsimp only)

theorem endRunning_foot (result : Word) (keep : Nat) (s : State) :
    Foot [.out, .mbx, .jr, .stg, .pmc, .spn, .pair, .lv, .pln, .stw] s (endRunning result keep s) := by
  unfold endRunning
  repeat' (first
    | with_reducible exact Foot.refl | with_reducible assumption | with_reducible apply Foot.ite
    | with_reducible apply Foot.after (dropLeaveWaits_foot _)
    | with_reducible apply Foot.after (finish0_foot _ _ _) | with_reducible apply Foot.onPln | exact rfl
    | split | dsimp only)

theorem splice_foot (p : PlanJob) (s : State) :
    Foot [.out, .mbx, .jr, .stg, .pmc, .spn, .pair, .lv, .pln, .stw] s (splice p s) := by
  unfold splice
  repeat' (first
    | with_reducible exact Foot.refl | with_reducible assumption | with_reducible apply Foot.ite
    | with_reducible apply Foot.after (endRunning_foot _ _ _) | with_reducible apply Foot.onPln | exact rfl
    | split | dsimp only)

theorem checkStale_foot (s : State) :
    Foot [.out, .keep, .host, .log, .pmc, .spn, .pln] s (checkStale s) := by
  unfold checkStale
  repeat' (first
    | with_reducible exact Foot.refl | with_reducible assumption | with_reducible apply Foot.ite
    | with_reducible apply Foot.after (event_foot _ _ _ _ _ _) | with_reducible apply Foot.onPln | exact rfl
    | split | dsimp only)

theorem doPlanDone_foot (r : PlanResult) (s : State) :
    Foot [.out, .mbx, .jr, .stg, .pmc, .spn, .pair, .lv, .pln, .stw] s (doPlanDone r s) := by
  unfold doPlanDone
  repeat' (first
    | with_reducible exact Foot.refl | with_reducible assumption | with_reducible apply Foot.ite
    | with_reducible apply Foot.after (splice_foot _ _) | with_reducible apply Foot.after (endPlan_foot _ _)
    | with_reducible apply Foot.after (finish_foot _ _ _ _) | with_reducible apply Foot.after (count_foot _ _)
    | with_reducible apply Foot.onPln | exact rfl | split | dsimp only)

theorem doSpliceTime_foot (s : State) :
    Foot [.now, .out, .keep, .mbx, .jr, .stg, .host, .log, .pmc, .spn, .pair, .lv, .pln, .stw]
      s (doSpliceTime s) := by
  unfold doSpliceTime
  repeat' (first
    | with_reducible exact Foot.refl | with_reducible assumption | with_reducible apply Foot.ite
    | with_reducible apply Foot.after (checkStale_foot _) | with_reducible apply Foot.after (splice_foot _ _)
    | with_reducible apply Foot.after (endPlan_foot _ _) | with_reducible apply Foot.after (tell_foot _ _)
    | with_reducible apply Foot.after (count_foot _ _) | with_reducible apply Foot.after (reach_foot _ _)
    | exact rfl | split | dsimp only)

theorem runHold_foot (target : List Rat) (s : State) :
    Foot [.out, .mbx, .jr, .stg, .pmc, .spn, .pair, .lv, .pln, .stw] s (runHold target s) := by
  unfold runHold
  repeat' (first
    | with_reducible exact Foot.refl | with_reducible assumption | with_reducible apply Foot.ite
    | with_reducible apply Foot.after (endRunning_foot _ _ _)
    | with_reducible apply Foot.after (endPlan_foot _ _) | with_reducible apply Foot.onPln | exact rfl | split
    | dsimp only)

theorem holdRun_foot (target : List Rat) (s : State) :
    Foot [.out, .keep, .mbx, .jr, .stg, .host, .log, .pmc, .spn, .pair, .lv, .pln, .stw] s (holdRun target s) := by
  unfold holdRun
  repeat' (first
    | with_reducible exact Foot.refl | with_reducible assumption | with_reducible apply Foot.ite
    | with_reducible apply Foot.after (runHold_foot _ _)
    | with_reducible apply Foot.after (event_foot _ _ _ _ _ _) | exact rfl | split | dsimp only)

theorem holdStale_foot (s : State) :
    Foot [.out, .keep, .mbx, .jr, .stg, .host, .log, .pmc, .spn, .pair, .lv, .pln, .stw, .core] s (holdStale s) := by
  unfold holdStale
  repeat' (first
    | with_reducible exact Foot.refl | with_reducible assumption | with_reducible apply Foot.ite
    | with_reducible refine Foot.foldl ?_ fun v a hv => ?_
    | with_reducible apply Foot.after (endRunning_foot _ _ _)
    | with_reducible apply Foot.after (capdnRevoke_foot _ _ _)
    | with_reducible apply Foot.after (event_foot _ _ _ _ _ _) | with_reducible apply Foot.onLv
    | with_reducible apply Foot.onPln | exact rfl | split | dsimp only)

theorem trigger_foot (s : State) :
    Foot [.out, .keep, .mbx, .jr, .stg, .host, .log, .pmc, .spn, .pair, .lv, .pln, .stw, .core] s (trigger s) := by
  unfold trigger
  repeat' (first
    | with_reducible exact Foot.refl | with_reducible assumption | with_reducible apply Foot.ite
    | with_reducible apply Foot.after (holdStale_foot _) | with_reducible apply Foot.after (holdRun_foot _ _)
    | with_reducible apply Foot.after (checkStale_foot _) | with_reducible apply Foot.after (tell_foot _ _)
    | with_reducible apply Foot.after (count_foot _ _) | exact rfl | split | dsimp only)

theorem endStale_foot (h : HoldPath) (s : State) :
    Foot [.out, .mbx, .jr, .stg, .pmc, .spn, .pair, .lv, .pln, .stw] s (endStale h s) := by
  unfold endStale
  repeat' (first
    | with_reducible exact Foot.refl | with_reducible assumption | with_reducible apply Foot.ite
    | with_reducible refine Foot.foldl ?_ fun v a hv => ?_ | with_reducible apply Foot.after (runHold_foot _ _)
    | with_reducible apply Foot.after (tell_foot _ _) | with_reducible apply Foot.after (queueResume_foot _ _)
    | with_reducible apply Foot.onLv | exact rfl | split | dsimp only)

theorem beginPass_foot (s : State) :
    Foot [.pmc, .pln] s (beginPass s) := by
  unfold beginPass
  repeat' (first
    | with_reducible exact Foot.refl | with_reducible assumption | with_reducible apply Foot.ite
    | with_reducible apply Foot.after (count_foot _ _) | with_reducible apply Foot.onPln | exact rfl | split
    | dsimp only)

theorem doVerifyPassDeadline_foot (s : State) :
    Foot [.now, .out, .keep, .mbx, .jr, .stg, .host, .log, .pmc, .spn, .pair, .lv, .pln, .stw, .core]
      s (doVerifyPassDeadline s) := by
  unfold doVerifyPassDeadline
  repeat' (first
    | with_reducible exact Foot.refl | with_reducible assumption | with_reducible apply Foot.ite
    | with_reducible apply Foot.after (trigger_foot _) | with_reducible apply Foot.after (count_foot _ _)
    | with_reducible apply Foot.after (reach_foot _ _) | with_reducible apply Foot.onPln | exact rfl | split
    | dsimp only)

theorem setHold_foot (h : Option HoldPath) (s : State) :
    Foot [.out, .keep, .host, .log, .pmc, .spn, .pln] s (setHold h s) := by
  unfold setHold
  repeat' (first
    | with_reducible exact Foot.refl | with_reducible assumption | with_reducible apply Foot.ite
    | with_reducible apply Foot.after (checkStale_foot _) | with_reducible apply Foot.onPln | exact rfl | split
    | dsimp only)

theorem adoptSet_foot (a : Adopt) (s : State) :
    Foot [.out, .keep, .kt, .mbx, .jr, .stg, .host, .log, .pmc, .spn, .pair, .drv, .pln, .stw] s (adoptSet a s) := by
  unfold adoptSet
  repeat' (first
    | with_reducible exact Foot.refl | with_reducible assumption | with_reducible apply Foot.ite
    | with_reducible refine Foot.foldl ?_ fun v a hv => ?_
    | with_reducible apply Foot.after (localPoint_foot _ _ _)
    | with_reducible apply Foot.after (finish0_foot _ _ _)
    | with_reducible apply Foot.after (event_foot _ _ _ _ _ _) | with_reducible apply Foot.onKt
    | with_reducible apply Foot.onPln | exact rfl | exact .inl rfl | with_reducible exact .inr rfl
    | with_reducible exact .inr (.inl rfl) | with_reducible exact .inr ⟨rfl, rfl⟩ | exact .inr rfl
    | exact .inr (.inl rfl) | exact .inr ⟨rfl, rfl⟩ | split | dsimp only)

theorem passAdopt_foot (t : Nat) (h : Option Nat) (s : State) :
    Foot [.out, .keep, .kt, .mbx, .jr, .stg, .host, .log, .pmc, .spn, .pair, .drv, .pln, .stw]
      s (passAdopt t h s).2 := by
  unfold passAdopt
  repeat' (first
    | with_reducible exact Foot.refl | with_reducible assumption | with_reducible apply Foot.ite
    | with_reducible apply Foot.after (adoptSet_foot _ _)
    | with_reducible apply Foot.after (finish0_foot _ _ _) | with_reducible apply Foot.onPln | exact rfl
    | split | dsimp only)

theorem doVerifyPassDone_foot (r : PassResult) (s : State) :
    Foot [.out, .keep, .kt, .mbx, .jr, .stg, .host, .log, .pmc, .spn, .pair, .lv, .drv, .pln, .stw, .core]
      s (doVerifyPassDone r s) := by
  unfold doVerifyPassDone
  repeat' (first
    | with_reducible exact Foot.refl | with_reducible assumption | with_reducible apply Foot.ite
    | with_reducible apply Foot.after (passAdopt_foot _ _ _)
    | with_reducible refine Foot.then ?_ (Foot.of_eq (passAdopt_foot _ _ _) (by assumption)) ?_
    | with_reducible apply Foot.after (setHold_foot _ _) | with_reducible apply Foot.after (endStale_foot _ _)
    | with_reducible apply Foot.after (trigger_foot _) | with_reducible apply Foot.onPln | exact rfl | split
    | dsimp only)

theorem doHarbourSetStale_foot (s : State) :
    Foot [.now, .out, .keep, .mbx, .jr, .stg, .host, .log, .pmc, .spn, .pair, .lv, .pln, .stw, .core]
      s (doHarbourSetStale s) := by
  unfold doHarbourSetStale
  repeat' (first
    | with_reducible exact Foot.refl | with_reducible assumption | with_reducible apply Foot.ite
    | with_reducible apply Foot.after (trigger_foot _)
    | with_reducible apply Foot.after (event_foot _ _ _ _ _ _)
    | with_reducible apply Foot.after (reach_foot _ _) | with_reducible apply Foot.onPln | exact rfl | split
    | dsimp only)

theorem reportTrees_foot (s : State) :
    Foot [.out, .keep, .host, .log, .pmc, .spn] s (reportTrees s) := by
  unfold reportTrees
  repeat' (first
    | with_reducible exact Foot.refl | with_reducible assumption | with_reducible apply Foot.ite
    | with_reducible refine Foot.foldl ?_ fun v a hv => ?_
    | with_reducible apply Foot.after (event_foot _ _ _ _ _ _) | exact rfl | split | dsimp only)

theorem takeHarbours_foot (tick : Nat) (s : State) :
    Foot [.now, .out, .keep, .host, .log, .pmc, .spn, .pln] s (takeHarbours tick s).2 := by
  unfold takeHarbours
  repeat' (first
    | with_reducible exact Foot.refl | with_reducible assumption | with_reducible apply Foot.ite
    | with_reducible apply Foot.after (reportTrees_foot _) | with_reducible apply Foot.after (tick_foot _)
    | with_reducible apply Foot.onPln | exact rfl | split | dsimp only)

theorem replan_foot (s : State) :
    Foot [.out, .mbx, .jr, .stg, .pmc, .spn, .pair, .lv, .drv, .pln, .stw] s (replan s) := by
  unfold replan
  repeat' (first
    | with_reducible exact Foot.refl | with_reducible assumption | with_reducible apply Foot.ite
    | with_reducible apply Foot.after (splice_foot _ _) | with_reducible apply Foot.after (count_foot _ _)
    | with_reducible apply Foot.onDrv | with_reducible apply Foot.onPln | exact rfl | split | dsimp only)

theorem planFrom_foot (s : State) :
    Foot [.lv, .pln] s (planFrom s) := by
  unfold planFrom
  repeat' (first
    | with_reducible exact Foot.refl | with_reducible assumption | with_reducible apply Foot.ite
    | with_reducible apply Foot.after (dropLeaveWaits_foot _) | with_reducible apply Foot.onPln | exact rfl
    | split | dsimp only)

theorem restoreElem_foot (e : Nat) (v : Int) (s : State) :
    Foot [.out, .keep, .host, .log, .pmc, .spn, .lv, .drv] s (restoreElem e v s) := by
  unfold restoreElem
  repeat' (first
    | with_reducible exact Foot.refl | with_reducible assumption | with_reducible apply Foot.ite
    | with_reducible apply Foot.after (localPoint_foot _ _ _)
    | with_reducible apply Foot.after (waitLeave_foot _ _ _ _ _ _)
    | with_reducible apply Foot.after (grantInternal_foot _ _ _ _ _)
    | with_reducible apply Foot.after (reportUnset_foot _) | exact rfl | split | dsimp only)

theorem restoreLevels_foot (s : State) :
    Foot [.out, .keep, .host, .log, .pmc, .spn, .lv, .drv, .pln] s (restoreLevels s) := by
  unfold restoreLevels
  repeat' (first
    | with_reducible exact Foot.refl | with_reducible assumption | with_reducible apply Foot.ite
    | with_reducible refine Foot.foldl ?_ fun v a hv => ?_
    | with_reducible apply Foot.after (restoreElem_foot _ _ _) | with_reducible apply Foot.onPln | exact rfl
    | split | dsimp only)

theorem restoreAgain_foot (e : Nat) (s : State) :
    Foot [.out, .keep, .host, .log, .pmc, .spn, .lv, .drv] s (restoreAgain e s) := by
  unfold restoreAgain
  repeat' (first
    | with_reducible exact Foot.refl | with_reducible assumption | with_reducible apply Foot.ite
    | with_reducible apply Foot.after (restoreElem_foot _ _ _) | exact rfl | split | dsimp only)

theorem heartbeat_foot (s : State) :
    Foot [.free, .out, .keep, .host, .log, .pmc, .spn, .lv, .drv, .pln] s (heartbeat s) := by
  unfold heartbeat
  repeat' (first
    | with_reducible exact Foot.refl | with_reducible assumption | with_reducible apply Foot.ite
    | with_reducible apply Foot.after (restoreLevels_foot _)
    | with_reducible apply Foot.after (planFrom_foot _)
    | with_reducible apply Foot.after (doBinderHeartbeat_foot _) | exact rfl | split | dsimp only)

theorem doFloorLate_foot (e : Nat) (s : State) :
    Foot [.now, .out, .keep, .mbx, .jr, .stg, .host, .log, .pmc, .spn, .pair, .lv, .drv, .pln, .stw, .core]
      s (doFloorLate e s) := by
  unfold doFloorLate
  repeat' (first
    | with_reducible exact Foot.refl | with_reducible assumption | with_reducible apply Foot.ite
    | with_reducible apply Foot.after (trigger_foot _) | with_reducible apply Foot.after (floorLate_foot _ _)
    | with_reducible refine Foot.then ?_ (Foot.of_eq (floorLate_foot _ _) (by assumption)) ?_ | exact rfl
    | split | dsimp only)

theorem fxRegionSet_foot (e : JEntry) (s : State) :
    Foot [.out, .mbx, .jr, .stg, .host, .pmc, .spn, .pair, .pln, .stw] s (fxRegionSet e s) := by
  unfold fxRegionSet
  repeat' (first
    | with_reducible exact Foot.refl | with_reducible assumption | with_reducible apply Foot.ite
    | with_reducible apply Foot.after (waitObject_foot _ _)
    | with_reducible apply Foot.after (finish0_foot _ _ _) | with_reducible apply Foot.onPln | exact rfl
    | split | dsimp only)

theorem startPlanner_foot (s : State) :
    Foot [.pln] s (startPlanner s) := by
  unfold startPlanner
  repeat' (first
    | with_reducible exact Foot.refl | with_reducible assumption | with_reducible apply Foot.ite
    | with_reducible apply Foot.onPln | exact rfl | split | dsimp only)

theorem applyOutcome_foot (o : PlanOutcome) (s : State) :
    Foot [.out, .keep, .mbx, .jr, .stg, .host, .log, .pmc, .spn, .pair, .lv, .pln, .stw, .core]
      s (applyOutcome o s) := by
  unfold applyOutcome
  repeat' (first
    | with_reducible exact Foot.refl | with_reducible assumption | with_reducible apply Foot.ite
    | with_reducible apply Foot.after (holdStale_foot _) | with_reducible apply Foot.after (holdRun_foot _ _)
    | with_reducible apply Foot.after (splice_foot _ _)
    | with_reducible apply Foot.after (endRunning_foot _ _ _)
    | with_reducible apply Foot.after (endPlan_foot _ _)
    | with_reducible apply Foot.after (endWaiting_foot _ _)
    | with_reducible apply Foot.after (startLeave_foot _)
    | with_reducible apply Foot.after (event_foot _ _ _ _ _ _)
    | with_reducible apply Foot.after (count_foot _ _) | with_reducible apply Foot.onLv
    | with_reducible apply Foot.onPln | exact rfl | split | dsimp only)

end Sys2Proof.Machine
end

