-- ==== Sys2Proof/Laws/FootTrays.lean ====
section
/-! SUPPORT. Laws/FootTrays.lean: the footprint of each operation of Machine/Trays.lean. -/

set_option linter.unusedTactic false
set_option linter.unreachableTactic false
set_option linter.unusedVariables false

namespace Sys2Proof.Machine

theorem doTrayStopDelay_foot (t : Nat) (s : State) :
    Foot [.now, .out, .keep, .cat, .mbx, .jr, .stg, .pmc, .spn, .pair, .lv, .stw, .core, .ten]
      s (doTrayStopDelay t s) := by
  unfold doTrayStopDelay
  repeat' (first
    | with_reducible exact Foot.refl | with_reducible assumption | with_reducible apply Foot.ite
    | with_reducible apply Foot.after (clearEnabled_foot _ _)
    | with_reducible apply Foot.after (reach_foot _ _) | exact rfl | split | dsimp only)

theorem doHoldEnd_foot (t : Nat) (s : State) :
    Foot [.now, .out, .keep, .mbx, .jr, .stg, .pmc, .spn, .pair, .lv, .stw, .core] s (doHoldEnd t s) := by
  unfold doHoldEnd
  repeat' (first
    | with_reducible exact Foot.refl | with_reducible assumption | with_reducible apply Foot.ite
    | with_reducible apply Foot.after (afterLimits_lift_foot _ _ _)
    | with_reducible apply Foot.after (endHold_foot _ _ _)
    | with_reducible apply Foot.after (onTray_foot _ _ _) | with_reducible apply Foot.after (reach_foot _ _)
    | exact rfl | split | dsimp only)

theorem doLeaseExpiry_foot (id : Nat) (s : State) :
    Foot [.now, .out, .mbx, .pmc, .spn, .lv, .stw] s (doLeaseExpiry id s) := by
  unfold doLeaseExpiry
  repeat' (first
    | with_reducible exact Foot.refl | with_reducible assumption | with_reducible apply Foot.ite
    | with_reducible apply Foot.after (endLease_foot _ _ _) | with_reducible apply Foot.after (reach_foot _ _)
    | exact rfl | split | dsimp only)

theorem doAllowanceFall_foot (id : Nat) (s : State) :
    Foot [.now, .pmc, .lv] s (doAllowanceFall id s) := by
  unfold doAllowanceFall
  repeat' (first
    | with_reducible exact Foot.refl | with_reducible assumption | with_reducible apply Foot.ite
    | with_reducible apply Foot.after (reach_foot _ _) | with_reducible apply Foot.onLv | exact rfl | split
    | dsimp only)

theorem doLeaveTableStale_foot (s : State) :
    Foot [.now, .out, .keep, .host, .log, .pmc, .spn, .lv] s (doLeaveTableStale s) := by
  unfold doLeaveTableStale
  repeat' (first
    | with_reducible exact Foot.refl | with_reducible assumption | with_reducible apply Foot.ite
    | with_reducible apply Foot.after (event_foot _ _ _ _ _ _)
    | with_reducible apply Foot.after (reach_foot _ _) | with_reducible apply Foot.onLv | exact rfl | split
    | dsimp only)

theorem overdraw_foot (t w : Nat) (s : State) :
    Foot [.out, .keep, .mbx, .host, .log, .pmc, .spn, .lv, .stw, .core] s (overdraw t w s) := by
  unfold overdraw
  repeat' (first
    | with_reducible exact Foot.refl | with_reducible assumption | with_reducible apply Foot.ite
    | with_reducible apply Foot.after (capdnRevoke_foot _ _ _)
    | with_reducible apply Foot.after (onTray_foot _ _ _)
    | with_reducible apply Foot.after (event_foot _ _ _ _ _ _) | with_reducible apply Foot.onLv | exact rfl
    | split | dsimp only)

theorem trayReady_foot (t : Nat) (s : State) :
    Foot [.out, .keep, .mbx, .jr, .stg, .host, .log, .pmc, .spn, .pair, .lv, .stw, .core, .capdnFall]
      s (trayReady t s) := by
  unfold trayReady
  repeat' (first
    | with_reducible exact Foot.refl | with_reducible assumption | with_reducible apply Foot.ite
    | with_reducible apply Foot.after (finish0_foot _ _ _)
    | with_reducible apply Foot.after (releaseCapdn_foot _ _)
    | with_reducible apply Foot.after (onTray_foot _ _ _)
    | with_reducible apply Foot.after (event_foot _ _ _ _ _ _) | exact rfl | split | dsimp only)

theorem endSilence_foot (t : Nat) (s : State) :
    Foot [.lv, .stw] s (endSilence t s) := by
  unfold endSilence
  repeat' (first
    | with_reducible exact Foot.refl | with_reducible assumption | with_reducible apply Foot.ite
    | with_reducible apply Foot.after (onAgent_foot _ _ _)
    | with_reducible apply Foot.after (queueResume_foot _ _) | exact rfl | split | dsimp only)

theorem leadReport_foot (t : Nat) (r : PowerReport) (s : State) :
    Foot [.out, .keep, .cat, .mbx, .jr, .stg, .host, .log, .pmc, .spn, .pair, .lv, .stw, .core, .ten, .capdnFall]
      s (leadReport t r s) := by
  unfold leadReport
  repeat' (first
    | with_reducible exact Foot.refl | with_reducible assumption | with_reducible apply Foot.ite
    | with_reducible apply Foot.after (endSilence_foot _ _)
    | with_reducible apply Foot.after (trayReady_foot _ _)
    | with_reducible apply Foot.after (overdraw_foot _ _ _)
    | with_reducible apply Foot.after (rebindReport_foot _ _ _)
    | with_reducible apply Foot.after (clearEnabled_foot _ _) | exact rfl | split | dsimp only)

theorem doTrayPoll_foot (t : Nat) (r : PowerReport) (s : State) :
    Foot [.now, .out, .keep, .cat, .mbx, .jr, .stg, .host, .log, .pmc, .spn, .pair, .lv, .stw, .core, .ten,
      .capdnFall]
      s (doTrayPoll t r s) := by
  unfold doTrayPoll
  repeat' (first
    | with_reducible exact Foot.refl | with_reducible assumption | with_reducible apply Foot.ite
    | with_reducible apply Foot.after (leadReport_foot _ _ _)
    | with_reducible apply Foot.after (setLink_foot _ _ _)
    | with_reducible apply Foot.after (onAgent_foot _ _ _)
    | with_reducible apply Foot.after (onTray_foot _ _ _)
    | with_reducible apply Foot.after (event_foot _ _ _ _ _ _)
    | with_reducible apply Foot.after (count_foot _ _) | with_reducible apply Foot.after (reach_foot _ _)
    | exact rfl | split | dsimp only)

theorem markSilent_foot (t : Nat) (s : State) :
    Foot [.out, .keep, .mbx, .host, .log, .pmc, .spn, .lv, .stw, .core] s (markSilent t s) := by
  unfold markSilent
  repeat' (first
    | with_reducible exact Foot.refl | with_reducible assumption | with_reducible apply Foot.ite
    | with_reducible apply Foot.after (onAgent_foot _ _ _)
    | with_reducible apply Foot.after (capdnRevoke_foot _ _ _)
    | with_reducible apply Foot.after (event_foot _ _ _ _ _ _) | exact rfl | split | dsimp only)

theorem doAgentSilence_foot (t : Nat) (s : State) :
    Foot [.now, .out, .keep, .mbx, .host, .log, .pmc, .spn, .lv, .stw, .core] s (doAgentSilence t s) := by
  unfold doAgentSilence
  repeat' (first
    | with_reducible exact Foot.refl | with_reducible assumption | with_reducible apply Foot.ite
    | with_reducible apply Foot.after (markSilent_foot _ _)
    | with_reducible apply Foot.after (setLink_foot _ _ _) | with_reducible apply Foot.after (reach_foot _ _)
    | exact rfl | split | dsimp only)

theorem doAgentLost_foot (t : Nat) (s : State) :
    Foot [.now, .out, .keep, .mbx, .jr, .stg, .host, .log, .pmc, .spn, .pair, .lv, .stw] s (doAgentLost t s) := by
  unfold doAgentLost
  repeat' (first
    | with_reducible exact Foot.refl | with_reducible assumption | with_reducible apply Foot.ite
    | with_reducible apply Foot.after (abortRebind_foot _ _)
    | with_reducible apply Foot.after (setLink_foot _ _ _)
    | with_reducible apply Foot.after (onAgent_foot _ _ _) | with_reducible apply Foot.after (emit_foot _ _)
    | with_reducible apply Foot.after (reach_foot _ _) | with_reducible apply Foot.emit | exact rfl | split
    | dsimp only)

theorem writeRole_foot (t : Nat) (s : State) :
    Foot [.out, .stw] s (writeRole t s) := by
  unfold writeRole
  repeat' (first
    | with_reducible exact Foot.refl | with_reducible assumption | with_reducible apply Foot.ite
    | with_reducible apply Foot.after (onAgent_foot _ _ _)
    | with_reducible apply Foot.after (control_foot _ _ _ _) | exact rfl | split | dsimp only)

theorem doAgentSetdasaRetry_foot (t : Nat) (ack : Bool) (desc : Bytes) (s : State) :
    Foot [.now, .out, .keep, .host, .log, .pmc, .spn, .stw] s (doAgentSetdasaRetry t ack desc s) := by
  unfold doAgentSetdasaRetry
  repeat' (first
    | with_reducible exact Foot.refl | with_reducible assumption | with_reducible apply Foot.ite
    | with_reducible apply Foot.after (writeRole_foot _ _)
    | with_reducible apply Foot.after (setLink_foot _ _ _)
    | with_reducible apply Foot.after (onAgent_foot _ _ _)
    | with_reducible apply Foot.after (readDesc_foot _ _ _) | with_reducible apply Foot.after (emit_foot _ _)
    | with_reducible apply Foot.after (reach_foot _ _) | with_reducible apply Foot.emit | exact rfl | split
    | dsimp only)

theorem popQueue_foot (s : State) :
    Foot [.lv] s (popQueue s) := by
  unfold popQueue
  repeat' (first
    | with_reducible exact Foot.refl | with_reducible assumption | with_reducible apply Foot.ite
    | with_reducible apply Foot.onLv | exact rfl | split | dsimp only)

theorem grantStart_foot (t : Nat) (s : State) :
    Foot [.out, .keep, .cat, .mbx, .jr, .stg, .pmc, .spn, .pair, .lv, .stw, .core, .ten] s (grantStart t s) := by
  unfold grantStart
  repeat' (first
    | with_reducible exact Foot.refl | with_reducible assumption | with_reducible apply Foot.ite
    | with_reducible apply Foot.after (popQueue_foot _) | with_reducible apply Foot.after (afterTen_foot _)
    | with_reducible apply Foot.after (changeTen_foot _ _ _)
    | with_reducible apply Foot.after (assertCapdn_foot _ _)
    | with_reducible apply Foot.after (onTray_foot _ _ _) | with_reducible apply Foot.onLv | exact rfl | split
    | dsimp only)

theorem grantResume_foot (t : Nat) (s : State) :
    Foot [.out, .keep, .pmc, .spn, .lv, .core, .capdnFall] s (grantResume t s) := by
  unfold grantResume
  repeat' (first
    | with_reducible exact Foot.refl | with_reducible assumption | with_reducible apply Foot.ite
    | with_reducible apply Foot.after (popQueue_foot _)
    | with_reducible apply Foot.after (releaseCapdn_foot _ _) | with_reducible apply Foot.onLv | exact rfl
    | split | dsimp only)

theorem askHead_foot (s : State) :
    Foot [.out, .keep, .cat, .mbx, .jr, .stg, .host, .log, .pmc, .spn, .pair, .lv, .stw, .core, .ten, .capdnFall]
      s (askHead s) := by
  unfold askHead
  repeat' (first
    | with_reducible exact Foot.refl | with_reducible assumption | with_reducible apply Foot.ite
    | with_reducible apply Foot.after (grantResume_foot _ _)
    | with_reducible apply Foot.after (grantStart_foot _ _) | with_reducible apply Foot.after (popQueue_foot _)
    | with_reducible apply Foot.after (markSilent_foot _ _)
    | with_reducible apply Foot.after (needWaits_foot _ _)
    | with_reducible apply Foot.after (finish0_foot _ _ _)
    | with_reducible apply Foot.after (onTray_foot _ _ _) | with_reducible apply Foot.onLv | exact rfl | split
    | dsimp only)

theorem doStaggerSlot_foot (s : State) :
    Foot [.now, .out, .keep, .cat, .mbx, .jr, .stg, .host, .log, .pmc, .spn, .pair, .lv, .stw, .core, .ten,
      .capdnFall]
      s (doStaggerSlot s) := by
  unfold doStaggerSlot
  repeat' (first
    | with_reducible exact Foot.refl | with_reducible assumption | with_reducible apply Foot.ite
    | with_reducible apply Foot.after (askHead_foot _) | with_reducible apply Foot.after (reach_foot _ _)
    | exact rfl | split | dsimp only)

theorem doStaggerDeferRetry_foot (s : State) :
    Foot [.now, .out, .keep, .cat, .mbx, .jr, .stg, .host, .log, .pmc, .spn, .pair, .lv, .stw, .core, .ten,
      .capdnFall]
      s (doStaggerDeferRetry s) := by
  unfold doStaggerDeferRetry
  repeat' (first
    | with_reducible exact Foot.refl | with_reducible assumption | with_reducible apply Foot.ite
    | with_reducible apply Foot.after (askHead_foot _) | with_reducible apply Foot.after (reach_foot _ _)
    | with_reducible apply Foot.onLv | exact rfl | split | dsimp only)

theorem doTrayStartTimeout_foot (t : Nat) (s : State) :
    Foot [.now, .out, .keep, .cat, .mbx, .jr, .stg, .pmc, .spn, .pair, .lv, .stw, .core, .ten]
      s (doTrayStartTimeout t s) := by
  unfold doTrayStartTimeout
  repeat' (first
    | with_reducible exact Foot.refl | with_reducible assumption | with_reducible apply Foot.ite
    | with_reducible apply Foot.after (afterTen_foot _) | with_reducible apply Foot.after (endStart_foot _ _ _)
    | with_reducible apply Foot.after (changeTen_foot _ _ _) | with_reducible apply Foot.after (reach_foot _ _)
    | exact rfl | split | dsimp only)

end Sys2Proof.Machine
end

