-- ==== Sys2Proof/Laws/FootLogs.lean ====
section
/-! SUPPORT. Laws/FootLogs.lean: the footprint of each operation of Machine/Logs.lean. -/

set_option linter.unusedTactic false
set_option linter.unreachableTactic false
set_option linter.unusedVariables false

namespace Sys2Proof.Machine

theorem imagesFirst_foot (f : Folio) (s : State) :
    Foot [.cat, .ket] s (imagesFirst f s) := by
  unfold imagesFirst
  repeat' (first
    | with_reducible exact Foot.refl | with_reducible assumption | with_reducible apply Foot.ite
    | with_reducible apply Foot.after (saveImages_foot _) | exact rfl | split | dsimp only)

theorem doFolioCommit_foot (s : State) :
    Foot [.cat, .log, .pmc, .ket] s (doFolioCommit s) := by
  unfold doFolioCommit
  repeat' (first
    | with_reducible exact Foot.refl | with_reducible assumption | with_reducible apply Foot.ite
    | with_reducible apply Foot.after (imagesFirst_foot _ _) | with_reducible apply Foot.after (count_foot _ _)
    | with_reducible apply Foot.onLog | exact rfl | split | dsimp only)

theorem doLogDropped_foot (s : State) :
    Foot [.now, .out, .host, .log, .pmc] s (doLogDropped s) := by
  unfold doLogDropped
  repeat' (first
    | with_reducible exact Foot.refl | with_reducible assumption | with_reducible apply Foot.ite
    | with_reducible apply Foot.after (bareEvent_foot _ _ _ _ _)
    | with_reducible apply Foot.after (reach_foot _ _) | with_reducible apply Foot.onLog | exact rfl | split
    | dsimp only)

theorem thawLog_foot (cause : Nat) (s : State) :
    Foot [.out, .keep, .host, .log, .pmc, .spn] s (thawLog cause s) := by
  unfold thawLog
  repeat' (first
    | with_reducible exact Foot.refl | with_reducible assumption | with_reducible apply Foot.ite
    | with_reducible apply Foot.after (thawed_foot _ _ _ _) | with_reducible apply Foot.onLog | exact rfl
    | split | dsimp only)

theorem freezeLog_foot (hold : Nat) (s : State) :
    Foot [.free, .out, .keep, .host, .log, .pmc, .spn] s (freezeLog hold s) := by
  unfold freezeLog
  repeat' (first
    | with_reducible exact Foot.refl | with_reducible assumption | with_reducible apply Foot.ite
    | with_reducible apply Foot.after (event_foot _ _ _ _ _ _)
    | with_reducible apply Foot.after (sendPair_foot _ _) | with_reducible apply Foot.after (draw_foot _)
    | with_reducible refine Foot.then ?_ (Foot.of_eq (draw_foot _) (by assumption)) ?_
    | with_reducible apply Foot.onLog | exact rfl | split | dsimp only)

theorem fxLogFreeze_foot (e : JEntry) (s : State) :
    Foot [.free, .out, .keep, .mbx, .jr, .stg, .host, .log, .pmc, .spn, .pair, .stw] s (fxLogFreeze e s) := by
  unfold fxLogFreeze
  repeat' (first
    | with_reducible exact Foot.refl | with_reducible assumption | with_reducible apply Foot.ite
    | with_reducible apply Foot.after (freezeLog_foot _ _) | with_reducible apply Foot.after (thawLog_foot _ _)
    | with_reducible apply Foot.after (finish0_foot _ _ _)
    | with_reducible apply Foot.after (finish_foot _ _ _ _) | exact rfl | split | dsimp only)

theorem doFreezeExpiry_foot (s : State) :
    Foot [.now, .out, .keep, .host, .log, .pmc, .spn] s (doFreezeExpiry s) := by
  unfold doFreezeExpiry
  repeat' (first
    | with_reducible exact Foot.refl | with_reducible assumption | with_reducible apply Foot.ite
    | with_reducible apply Foot.after (thawLog_foot _ _) | with_reducible apply Foot.after (reach_foot _ _)
    | exact rfl | split | dsimp only)

theorem fxLogClear_foot (e : JEntry) (s : State) :
    Foot [.out, .keep, .mbx, .jr, .stg, .host, .log, .pmc, .spn, .pair, .stw] s (fxLogClear e s) := by
  unfold fxLogClear
  repeat' (first
    | with_reducible exact Foot.refl | with_reducible assumption | with_reducible apply Foot.ite
    | with_reducible apply Foot.after (finish_foot _ _ _ _)
    | with_reducible apply Foot.after (ringEvent_foot _ _)
    | with_reducible apply Foot.after (addFolio_foot _ _) | with_reducible apply Foot.onLog | exact rfl | split
    | dsimp only)

theorem fxPmcConfig_foot (e : JEntry) (s : State) :
    Foot [.out, .mbx, .jr, .stg, .pmc, .spn, .pair, .stw] s (fxPmcConfig e s) := by
  unfold fxPmcConfig
  repeat' (first
    | with_reducible exact Foot.refl | with_reducible assumption | with_reducible apply Foot.ite
    | with_reducible refine Foot.foldl ?_ fun v a hv => ?_
    | with_reducible apply Foot.after (finish0_foot _ _ _) | with_reducible apply Foot.onPmc | exact rfl
    | split | dsimp only)

theorem pmcReadClear_foot (b : Bytes) (s : State) :
    Foot [.pmc] s (pmcReadClear b s) := by
  unfold pmcReadClear
  repeat' (first
    | with_reducible exact Foot.refl | with_reducible assumption | with_reducible apply Foot.ite
    | with_reducible refine Foot.foldl ?_ fun v a hv => ?_ | with_reducible apply Foot.onPmc | exact rfl
    | split | dsimp only)

theorem writeDump_foot (s : State) :
    Foot [.out, .host, .pmc] s (writeDump s) := by
  unfold writeDump
  repeat' (first
    | with_reducible exact Foot.refl | with_reducible assumption | with_reducible apply Foot.ite
    | with_reducible apply Foot.after (msix_foot _ _) | with_reducible apply Foot.after (count_foot _ _)
    | with_reducible apply Foot.after (emit_foot _ _) | with_reducible apply Foot.onPmc
    | with_reducible apply Foot.emit | exact rfl | split | dsimp only)

theorem doDumpInstant_foot (s : State) :
    Foot [.now, .out, .host, .pmc] s (doDumpInstant s) := by
  unfold doDumpInstant
  repeat' (first
    | with_reducible exact Foot.refl | with_reducible assumption | with_reducible apply Foot.ite
    | with_reducible apply Foot.after (writeDump_foot _) | with_reducible apply Foot.after (count_foot _ _)
    | with_reducible apply Foot.after (reach_foot _ _) | with_reducible apply Foot.onPmc | exact rfl | split
    | dsimp only)

theorem doPduValueLowRead_foot (n : Nat) (s : State) :
    Foot [.pmc] s (doPduValueLowRead n s) := by
  unfold doPduValueLowRead
  repeat' (first
    | with_reducible exact Foot.refl | with_reducible assumption | with_reducible apply Foot.ite
    | with_reducible apply Foot.onPmc | exact rfl | split | dsimp only)

theorem doPduSkippedRead_foot (s : State) :
    Foot [.pmc] s (doPduSkippedRead s) := by
  unfold doPduSkippedRead
  repeat' (first
    | with_reducible exact Foot.refl | with_reducible assumption | with_reducible apply Foot.ite
    | with_reducible apply Foot.onPmc | exact rfl | split | dsimp only)

end Sys2Proof.Machine
end

