-- ==== Sys2Proof/Laws/FootMailbox.lean ====
section
/-! SUPPORT. Laws/FootMailbox.lean: the footprint of each operation of Machine/Mailbox.lean. -/

set_option linter.unusedTactic false
set_option linter.unreachableTactic false
set_option linter.unusedVariables false

namespace Sys2Proof.Machine

theorem doMbxDoorbell_foot (m : Nat) (s : State) :
    Foot [.mbx, .pmc] s (doMbxDoorbell m s) := by
  unfold doMbxDoorbell
  repeat' (first
    | with_reducible exact Foot.refl | with_reducible assumption | with_reducible apply Foot.ite
    | with_reducible apply Foot.after (onBox_foot _ _ _ ?_) | with_reducible exact fun _ h => h
    | with_reducible exact fun _ h => ⟨Mem.wf_writeN h.1 _ _, h.2⟩
    | with_reducible exact fun _ h => ⟨h.1, Mem.wf_writeN h.2 _ _⟩
    | with_reducible exact fun _ h => ⟨Mem.wf_writeN rfl _ _, h.2⟩
    | with_reducible apply Foot.after (countRise_foot _ _) | with_reducible apply Foot.after (count_foot _ _)
    | exact rfl | split | dsimp only)

theorem doMbxRspCi_foot (m ci : Nat) (s : State) :
    Foot [.mbx] s (doMbxRspCi m ci s) := by
  unfold doMbxRspCi
  repeat' (first
    | with_reducible exact Foot.refl | with_reducible assumption | with_reducible apply Foot.ite
    | with_reducible apply Foot.after (onBox_foot _ _ _ ?_) | with_reducible exact fun _ h => h
    | with_reducible exact fun _ h => ⟨Mem.wf_writeN h.1 _ _, h.2⟩
    | with_reducible exact fun _ h => ⟨h.1, Mem.wf_writeN h.2 _ _⟩
    | with_reducible exact fun _ h => ⟨Mem.wf_writeN rfl _ _, h.2⟩ | exact rfl | split | dsimp only)

theorem doResponseWrite_foot (m : Nat) (s : State) :
    Foot [.out, .mbx, .host, .pmc, .spn, .stw] s (doResponseWrite m s) := by
  unfold doResponseWrite
  repeat' (first
    | with_reducible exact Foot.refl | with_reducible assumption | with_reducible apply Foot.ite
    | with_reducible apply Foot.after (writeOut_foot _ _) | exact rfl | split | dsimp only)

theorem writeWindow_foot (m off : Nat) (v : Word) (s : State) :
    Foot [.mbx] s (writeWindow m off v s) := by
  unfold writeWindow
  repeat' (first
    | with_reducible exact Foot.refl | with_reducible assumption | with_reducible apply Foot.ite
    | with_reducible apply Foot.after (onBox_foot _ _ _ ?_) | with_reducible exact fun _ h => h
    | with_reducible exact fun _ h => ⟨Mem.wf_writeN h.1 _ _, h.2⟩
    | with_reducible exact fun _ h => ⟨h.1, Mem.wf_writeN h.2 _ _⟩
    | with_reducible exact fun _ h => ⟨Mem.wf_writeN rfl _ _, h.2⟩ | exact rfl | split | dsimp only)

theorem writeErr_foot (m : Nat) (v : Word) (s : State) :
    Foot [.mbx] s (writeErr m v s) := by
  unfold writeErr
  repeat' (first
    | with_reducible exact Foot.refl | with_reducible assumption | with_reducible apply Foot.ite
    | with_reducible apply Foot.after (onBox_foot _ _ _ ?_) | with_reducible exact fun _ h => h
    | with_reducible exact fun _ h => ⟨Mem.wf_writeN h.1 _ _, h.2⟩
    | with_reducible exact fun _ h => ⟨h.1, Mem.wf_writeN h.2 _ _⟩
    | with_reducible exact fun _ h => ⟨Mem.wf_writeN rfl _ _, h.2⟩ | exact rfl | split | dsimp only)

theorem doEvrCi_foot (v : Word) (s : State) :
    Foot [.host] s (doEvrCi v s) := by
  unfold doEvrCi
  repeat' (first
    | with_reducible exact Foot.refl | with_reducible assumption | with_reducible apply Foot.ite
    | with_reducible apply Foot.onHost | exact rfl | with_reducible exact id | exact fun _ => rfl | exact id
    | split | dsimp only)

theorem doEvrDroppedRead_foot (s : State) :
    Foot [.host] s (doEvrDroppedRead s) := by
  unfold doEvrDroppedRead
  repeat' (first
    | with_reducible exact Foot.refl | with_reducible assumption | with_reducible apply Foot.ite
    | with_reducible apply Foot.onHost | exact rfl | with_reducible exact id | exact fun _ => rfl | exact id
    | split | dsimp only)

theorem drainEvents_foot (n : Nat) (s : State) : Foot [.out, .host, .pmc] s (drainEvents n s) := by
  induction n generalizing s with
  | zero => exact Foot.refl
  | succ n ih =>
    unfold drainEvents
    split
    · exact Foot.refl
    · exact Foot.ite (Foot.after (ih _) (Foot.after (ringWrite_foot _ _) (Foot.refl.onHost rfl id) rfl) rfl) Foot.refl

theorem doEventBacklogDrain_foot (s : State) :
    Foot [.out, .host, .pmc] s (doEventBacklogDrain s) := by
  unfold doEventBacklogDrain
  repeat' (first
    | with_reducible exact Foot.refl | with_reducible assumption | with_reducible apply Foot.ite
    | with_reducible apply Foot.after (drainEvents_foot _ _)
    | with_reducible apply Foot.after (ringWrite_foot _ _) | with_reducible apply Foot.onHost | exact rfl
    | with_reducible exact id | exact fun _ => rfl | exact id | split | dsimp only)

theorem doWakeCausePublish_foot (s : State) :
    Foot [.out, .keep, .host, .pmc] s (doWakeCausePublish s) := by
  unfold doWakeCausePublish
  repeat' (first
    | with_reducible exact Foot.refl | with_reducible assumption | with_reducible apply Foot.ite
    | with_reducible apply Foot.after (ringWrite_foot _ _) | with_reducible apply Foot.onKeep | exact rfl
    | exact .inl rfl | with_reducible exact .inr rfl | with_reducible exact .inr (.inl rfl)
    | with_reducible exact .inr ⟨rfl, rfl⟩ | exact .inr rfl | exact .inr (.inl rfl) | exact .inr ⟨rfl, rfl⟩
    | split | dsimp only)

theorem writeEvr_foot (off : Nat) (v : Word) (s : State) :
    Foot [.host] s (writeEvr off v s) := by
  unfold writeEvr
  repeat' (first
    | with_reducible exact Foot.refl | with_reducible assumption | with_reducible apply Foot.ite
    | with_reducible apply Foot.after (doEvrCi_foot _ _) | with_reducible apply Foot.onHost | exact rfl
    | with_reducible exact id | exact fun _ => rfl | exact id | split | dsimp only)

theorem writePduCtrl_foot (v : Word) (s : State) :
    Foot [.pmc] s (writePduCtrl v s) := by
  unfold writePduCtrl
  repeat' (first
    | with_reducible exact Foot.refl | with_reducible assumption | with_reducible apply Foot.ite
    | with_reducible apply Foot.onPmc | exact rfl | split | dsimp only)

theorem writePdu_foot (off : Nat) (v : Word) (s : State) :
    Foot [.pmc] s (writePdu off v s) := by
  unfold writePdu
  repeat' (first
    | with_reducible exact Foot.refl | with_reducible assumption | with_reducible apply Foot.ite
    | with_reducible apply Foot.after (writePduCtrl_foot _ _) | with_reducible apply Foot.onPmc | exact rfl
    | split | dsimp only)

theorem writeBoot_foot (off : Nat) (v : Word) (s : State) :
    Foot [.out, .keep, .boot, .host, .log, .pmc, .spn] s (writeBoot off v s) := by
  unfold writeBoot
  repeat' (first
    | with_reducible exact Foot.refl | with_reducible assumption | with_reducible apply Foot.ite
    | with_reducible apply Foot.after (doMbxBootAbort_foot _) | with_reducible apply Foot.onBoot | exact rfl
    | with_reducible exact id | exact fun _ => rfl | exact id | exact fun h => Mem.wf_writeN h _ _ | split
    | dsimp only)

theorem writeControl_foot (m off : Nat) (v : Word) (s : State) :
    Foot [.mbx, .pmc] s (writeControl m off v s) := by
  unfold writeControl
  repeat' (first
    | with_reducible exact Foot.refl | with_reducible assumption | with_reducible apply Foot.ite
    | with_reducible apply Foot.after (writeErr_foot _ _ _)
    | with_reducible apply Foot.after (doMbxRspCi_foot _ _ _)
    | with_reducible apply Foot.after (doMbxDoorbell_foot _ _) | exact rfl | split | dsimp only)

theorem sendPending_foot (v : Nat) (s : State) :
    Foot [.out, .host] s (sendPending v s) := by
  unfold sendPending
  repeat' (first
    | with_reducible exact Foot.refl | with_reducible assumption | with_reducible apply Foot.ite
    | with_reducible apply Foot.after (emit_foot _ _) | with_reducible apply Foot.onHost
    | with_reducible apply Foot.emit | exact rfl | with_reducible exact id | exact fun _ => rfl | exact id
    | split | dsimp only)

theorem doRegisterWrite_foot (off : Nat) (v : Word) (s : State) :
    Foot [.out, .keep, .boot, .mbx, .host, .log, .pmc, .spn] s (doRegisterWrite off v s) := by
  unfold doRegisterWrite
  repeat' (first
    | with_reducible exact Foot.refl | with_reducible assumption | with_reducible apply Foot.ite
    | with_reducible apply Foot.after (sendPending_foot _ _)
    | with_reducible apply Foot.after (writeControl_foot _ _ _ _)
    | with_reducible apply Foot.after (writeBoot_foot _ _ _)
    | with_reducible apply Foot.after (writePdu_foot _ _ _)
    | with_reducible apply Foot.after (writeEvr_foot _ _ _)
    | with_reducible apply Foot.after (writeWindow_foot _ _ _ _)
    | with_reducible apply Foot.after (msix_foot _ _) | with_reducible apply Foot.onHost | exact rfl
    | with_reducible exact id | exact fun _ => rfl | exact id | exact fun h => Mem.wf_writeN h _ _ | split
    | dsimp only)

theorem drainBox_foot (m n : Nat) (s : State) : Foot [.out, .mbx, .pmc, .spn] s (drainBox m n s) := by
  induction n generalizing s with
  | zero => exact Foot.refl
  | succ n ih => exact (sendResponse_foot m s).then (ih _) rfl |>.mono rfl

theorem doTlsConnect_foot (port : Nat) (hello : TlsHello) (s : State) :
    Foot [.out, .mbx, .pmc, .spn] s (doTlsConnect port hello s) := by
  unfold doTlsConnect
  repeat' (first
    | with_reducible exact Foot.refl | with_reducible assumption | with_reducible apply Foot.ite
    | with_reducible apply Foot.after (drainBox_foot _ _ _)
    | with_reducible apply Foot.after (onBox_foot _ _ _ ?_) | with_reducible exact fun _ h => h
    | with_reducible exact fun _ h => ⟨Mem.wf_writeN h.1 _ _, h.2⟩
    | with_reducible exact fun _ h => ⟨h.1, Mem.wf_writeN h.2 _ _⟩
    | with_reducible exact fun _ h => ⟨Mem.wf_writeN rfl _ _, h.2⟩
    | with_reducible apply Foot.after (emit_foot _ _) | with_reducible apply Foot.emit | exact rfl | split
    | dsimp only)

theorem doTlsDisconnect_foot (port : Nat) (s : State) :
    Foot [.mbx] s (doTlsDisconnect port s) := by
  unfold doTlsDisconnect
  repeat' (first
    | with_reducible exact Foot.refl | with_reducible assumption | with_reducible apply Foot.ite
    | with_reducible apply Foot.after (onBox_foot _ _ _ ?_) | with_reducible exact fun _ h => h
    | with_reducible exact fun _ h => ⟨Mem.wf_writeN h.1 _ _, h.2⟩
    | with_reducible exact fun _ h => ⟨h.1, Mem.wf_writeN h.2 _ _⟩
    | with_reducible exact fun _ h => ⟨Mem.wf_writeN rfl _ _, h.2⟩ | exact rfl | split | dsimp only)

end Sys2Proof.Machine
end

