-- ==== Sys2Proof/Laws/FootSecurity.lean ====
section
/-! SUPPORT. Laws/FootSecurity.lean: the footprint of each operation of Machine/Security.lean. -/

set_option linter.unusedTactic false
set_option linter.unreachableTactic false
set_option linter.unusedVariables false

namespace Sys2Proof.Machine

theorem revoke_le (n : Nat) (o : Otp) : OtpLe o (o.revoke n) := ⟨andNot_or _ _, Nat.le_refl _, fun _ => rfl⟩

theorem raise_le (n : Nat) (o : Otp) : OtpLe o (o.raise n) := ⟨andNot_self _, Nat.le_max_left _ _, fun _ => rfl⟩

/-- The bytes of the object that a stage makes are canonical. -/
theorem stagePut_wf (d : Digest) (total off : Nat) (data : Bytes) (s : State)
    (h : ∀ o ∈ s.stg.objs, Mem.wf o.bytes = true) : Mem.wf ((stageObj d total s).put off data).bytes = true := by
  refine Mem.wf_writeN ?_ _ _
  unfold stageObj findObj
  cases e : s.stg.objs.find? (·.digest == d) with
  | none => rfl
  | some o => exact h o (List.mem_of_find?_eq_some e)

theorem issueNonce_foot (src : Nat) (s : State) :
    Foot [.free, .jr] s (issueNonce src s).2 := by
  unfold issueNonce
  repeat' (first
    | with_reducible exact Foot.refl | with_reducible assumption | with_reducible apply Foot.ite
    | with_reducible apply Foot.after (draw_foot _)
    | with_reducible refine Foot.then ?_ (Foot.of_eq (draw_foot _) (by assumption)) ?_
    | with_reducible apply Foot.onJr | exact rfl | exact .inl rfl | with_reducible exact .inr rfl
    | with_reducible exact .inr (.inl rfl) | with_reducible exact .inr ⟨rfl, rfl⟩ | exact .inr rfl
    | exact .inr (.inl rfl) | exact .inr ⟨rfl, rfl⟩ | with_reducible exact .inr id | exact .inr id | split
    | dsimp only)

theorem spendNonce_foot (src : Nat) (val : DWord) (s : State) :
    Foot [.jr] s (spendNonce src val s) := by
  unfold spendNonce
  repeat' (first
    | with_reducible exact Foot.refl | with_reducible assumption | with_reducible apply Foot.ite
    | with_reducible apply Foot.onJr | exact rfl | exact .inl rfl | with_reducible exact .inr rfl
    | with_reducible exact .inr (.inl rfl) | with_reducible exact .inr ⟨rfl, rfl⟩ | exact .inr rfl
    | exact .inr (.inl rfl) | exact .inr ⟨rfl, rfl⟩ | with_reducible exact .inr id | exact .inr id | split
    | dsimp only)

theorem denied_foot (src : Nat) (s : State) :
    Foot [.out, .keep, .jr, .host, .log, .pmc, .spn] s (denied src s) := by
  unfold denied
  repeat' (first
    | with_reducible exact Foot.refl | with_reducible assumption | with_reducible apply Foot.ite
    | with_reducible apply Foot.after (record_foot _ _ _ _ _) | with_reducible apply Foot.onJr | exact rfl
    | exact .inl rfl | with_reducible exact .inr rfl | with_reducible exact .inr (.inl rfl)
    | with_reducible exact .inr ⟨rfl, rfl⟩ | exact .inr rfl | exact .inr (.inl rfl) | exact .inr ⟨rfl, rfl⟩
    | with_reducible exact .inr id | exact .inr id | split | dsimp only)

theorem doAuthLockoutEnd_foot (src : Nat) (s : State) :
    Foot [.now, .jr, .pmc] s (doAuthLockoutEnd src s) := by
  unfold doAuthLockoutEnd
  repeat' (first
    | with_reducible exact Foot.refl | with_reducible assumption | with_reducible apply Foot.ite
    | with_reducible apply Foot.after (reach_foot _ _) | with_reducible apply Foot.onJr | exact rfl
    | exact .inl rfl | with_reducible exact .inr rfl | with_reducible exact .inr (.inl rfl)
    | with_reducible exact .inr ⟨rfl, rfl⟩ | exact .inr rfl | exact .inr (.inl rfl) | exact .inr ⟨rfl, rfl⟩
    | with_reducible exact .inr id | exact .inr id | split | dsimp only)

theorem wakeEntries_foot (d : Digest) (s : State) :
    Foot [.jr] s (wakeEntries d s) := by
  unfold wakeEntries
  repeat' (first
    | with_reducible exact Foot.refl | with_reducible assumption | with_reducible apply Foot.ite
    | with_reducible apply Foot.onJr | exact rfl | exact .inl rfl | with_reducible exact .inr rfl
    | with_reducible exact .inr (.inl rfl) | with_reducible exact .inr ⟨rfl, rfl⟩ | exact .inr rfl
    | exact .inr (.inl rfl) | exact .inr ⟨rfl, rfl⟩ | with_reducible exact .inr id | exact .inr id | split
    | dsimp only)

theorem stageStore_foot (m : Nat) (op : Half) (cw : DWord) (d : Digest) (total off : Nat) (data : Bytes) (s : State) :
    Foot [.free, .mbx, .jr, .stg, .pmc, .stw] s (stageStore m op cw d total off data s) := by
  unfold stageStore
  repeat' (first
    | with_reducible exact Foot.refl | with_reducible assumption | with_reducible apply Foot.ite
    | with_reducible apply Foot.after (wakeEntries_foot _ _)
    | with_reducible apply Foot.after (dropObj_foot _ _) | with_reducible apply Foot.after (respond_foot _ _ _)
    | with_reducible apply Foot.after (count_foot _ _) | with_reducible apply Foot.after (draw_foot _)
    | with_reducible refine Foot.then ?_ (Foot.of_eq (draw_foot _) (by assumption)) ?_
    | with_reducible apply Foot.onStg | exact rfl | with_reducible exact id | exact fun _ => rfl | exact id
    | exact fun _ _ h => absurd h List.not_mem_nil | exact objs_filter _
    | exact objs_put _ (stagePut_wf _ _ _ _ _) | split | dsimp only)

theorem objectStage_foot (m : Nat) (op : Half) (cw : DWord) (b : Bytes) (s : State) :
    Foot [.free, .out, .mbx, .jr, .stg, .pmc, .stw] s (objectStage m op cw b s) := by
  unfold objectStage
  repeat' (first
    | with_reducible exact Foot.refl | with_reducible assumption | with_reducible apply Foot.ite
    | with_reducible apply Foot.after (stageStore_foot _ _ _ _ _ _ _ _)
    | with_reducible apply Foot.after (readHost_foot _ _) | with_reducible apply Foot.after (count_foot _ _)
    | with_reducible apply Foot.onStg | exact rfl | with_reducible exact id | exact fun _ => rfl | exact id
    | exact fun _ _ h => absurd h List.not_mem_nil | exact objs_filter _ | split | dsimp only)

theorem stageInvalid_foot (x : StageDma) (off : Nat) (s : State) :
    Foot [.mbx, .pmc, .stw] s (stageInvalid x off s) := by
  unfold stageInvalid
  repeat' (first
    | with_reducible exact Foot.refl | with_reducible assumption | with_reducible apply Foot.ite
    | with_reducible apply Foot.after (respond_foot _ _ _) | with_reducible apply Foot.after (count_foot _ _)
    | exact rfl | split | dsimp only)

theorem stageFault_foot (x : StageDma) (s : State) :
    Foot [.out, .keep, .mbx, .host, .log, .pmc, .spn, .stw] s (stageFault x s) := by
  unfold stageFault
  repeat' (first
    | with_reducible exact Foot.refl | with_reducible assumption | with_reducible apply Foot.ite
    | with_reducible apply Foot.after (respond_foot _ _ _)
    | with_reducible apply Foot.after (record_foot _ _ _ _ _)
    | with_reducible apply Foot.after (count_foot _ _) | exact rfl | split | dsimp only)

theorem doStageDmaDone_foot (list : List Scatter) (data : Option Bytes) (s : State) :
    Foot [.free, .out, .keep, .mbx, .jr, .stg, .host, .log, .pmc, .spn, .stw] s (doStageDmaDone list data s) := by
  unfold doStageDmaDone
  repeat' (first
    | with_reducible exact Foot.refl | with_reducible assumption | with_reducible apply Foot.ite
    | with_reducible apply Foot.after (stageFault_foot _ _)
    | with_reducible apply Foot.after (stageInvalid_foot _ _ _)
    | with_reducible apply Foot.after (stageStore_foot _ _ _ _ _ _ _ _)
    | with_reducible apply Foot.after (readHost_foot _ _) | with_reducible apply Foot.onStg | exact rfl
    | with_reducible exact id | exact fun _ => rfl | exact id | exact fun _ _ h => absurd h List.not_mem_nil
    | exact objs_filter _ | split | dsimp only)

theorem fxKeySet_foot (e : JEntry) (s : State) :
    Foot [.out, .kt, .mbx, .jr, .stg, .pmc, .spn, .pair, .stw, .keys] s (fxKeySet e s) := by
  unfold fxKeySet
  repeat' (first
    | with_reducible exact Foot.refl | with_reducible assumption | with_reducible apply Foot.ite
    | with_reducible apply Foot.after (finish0_foot _ _ _) | with_reducible apply Foot.onKt | exact rfl
    | exact .inl rfl | with_reducible exact .inr rfl | with_reducible exact .inr (.inl rfl)
    | with_reducible exact .inr ⟨rfl, rfl⟩ | exact .inr rfl | exact .inr (.inl rfl) | exact .inr ⟨rfl, rfl⟩
    | split | dsimp only)

theorem fxKeyRevoke_foot (e : JEntry) (s : State) :
    Foot [.out, .otp, .mbx, .jr, .stg, .pmc, .spn, .pair, .stw] s (fxKeyRevoke e s) := by
  unfold fxKeyRevoke
  repeat' (first
    | with_reducible exact Foot.refl | with_reducible assumption | with_reducible apply Foot.ite
    | with_reducible apply Foot.after (finish0_foot _ _ _) | with_reducible apply Foot.onOtp | exact rfl
    | exact revoke_le _ _ | split | dsimp only)

theorem fxRollback_foot (e : JEntry) (s : State) :
    Foot [.out, .otp, .mbx, .jr, .stg, .pmc, .spn, .pair, .stw] s (fxRollback e s) := by
  unfold fxRollback
  repeat' (first
    | with_reducible exact Foot.refl | with_reducible assumption | with_reducible apply Foot.ite
    | with_reducible apply Foot.after (finish0_foot _ _ _) | with_reducible apply Foot.onOtp | exact rfl
    | exact raise_le _ _ | split | dsimp only)

theorem fxReset_foot (e : JEntry) (s : State) :
    Foot [.out, .mbx, .jr, .stg, .pmc, .spn, .pair, .stw] s (fxReset e s) := by
  unfold fxReset
  repeat' (first
    | with_reducible exact Foot.refl | with_reducible assumption | with_reducible apply Foot.ite
    | with_reducible apply Foot.after (finish0_foot _ _ _) | exact rfl | split | dsimp only)

theorem fxWakeConfig_foot (e : JEntry) (s : State) :
    Foot [.out, .kt, .mbx, .jr, .stg, .pmc, .spn, .pair, .stw] s (fxWakeConfig e s) := by
  unfold fxWakeConfig
  repeat' (first
    | with_reducible exact Foot.refl | with_reducible assumption | with_reducible apply Foot.ite
    | with_reducible apply Foot.after (finish0_foot _ _ _) | with_reducible apply Foot.onKt | exact rfl
    | exact .inl rfl | with_reducible exact .inr rfl | with_reducible exact .inr (.inl rfl)
    | with_reducible exact .inr ⟨rfl, rfl⟩ | exact .inr rfl | exact .inr (.inl rfl) | exact .inr ⟨rfl, rfl⟩
    | split | dsimp only)

theorem fxTlsSet_foot (e : JEntry) (s : State) :
    Foot [.free, .out, .kt, .mbx, .jr, .stg, .host, .pmc, .spn, .pair, .stw] s (fxTlsSet e s) := by
  unfold fxTlsSet
  repeat' (first
    | with_reducible exact Foot.refl | with_reducible assumption | with_reducible apply Foot.ite
    | with_reducible refine Foot.foldl ?_ fun v a hv => ?_
    | with_reducible apply Foot.after (waitObject_foot _ _)
    | with_reducible apply Foot.after (finish0_foot _ _ _)
    | with_reducible apply Foot.after (onBox_foot _ _ _ ?_) | with_reducible exact fun _ h => h
    | with_reducible exact fun _ h => ⟨Mem.wf_writeN h.1 _ _, h.2⟩
    | with_reducible exact fun _ h => ⟨h.1, Mem.wf_writeN h.2 _ _⟩
    | with_reducible exact fun _ h => ⟨Mem.wf_writeN rfl _ _, h.2⟩
    | with_reducible apply Foot.after (emit_foot _ _) | with_reducible apply Foot.after (draw_foot _)
    | with_reducible refine Foot.then ?_ (Foot.of_eq (draw_foot _) (by assumption)) ?_
    | with_reducible apply Foot.onKt | with_reducible apply Foot.emit | exact rfl | exact .inl rfl
    | with_reducible exact .inr rfl | with_reducible exact .inr (.inl rfl)
    | with_reducible exact .inr ⟨rfl, rfl⟩ | exact .inr rfl | exact .inr (.inl rfl) | exact .inr ⟨rfl, rfl⟩
    | split | dsimp only)

end Sys2Proof.Machine
end

