-- ==== Sys2Proof/Laws/FootPair.lean ====
section
/-! SUPPORT. Laws/FootPair.lean: the footprint of each operation of Machine/Pair.lean. -/

set_option linter.unusedTactic false
set_option linter.unreachableTactic false
set_option linter.unusedVariables false

namespace Sys2Proof.Machine

theorem posMismatch_foot (s : State) :
    Foot [.out, .keep, .mbx, .host, .log, .pmc, .spn, .pair, .lv, .stw, .core] s (posMismatch s) := by
  unfold posMismatch
  repeat' (first
    | with_reducible exact Foot.refl | with_reducible assumption | with_reducible apply Foot.ite
    | with_reducible refine Foot.foldl ?_ fun v a hv => ?_
    | with_reducible apply Foot.after (capdnRevoke_foot _ _ _)
    | with_reducible apply Foot.after (event_foot _ _ _ _ _ _) | with_reducible apply Foot.onKeep
    | with_reducible apply Foot.onPair | exact rfl | exact .inl rfl | with_reducible exact .inr rfl
    | with_reducible exact .inr (.inl rfl) | with_reducible exact .inr ⟨rfl, rfl⟩ | exact .inr rfl
    | exact .inr (.inl rfl) | exact .inr ⟨rfl, rfl⟩ | exact .inr (.inr (andNot_all _)) | split | dsimp only)

theorem startLead_foot (s : State) :
    Foot [.keep, .cat, .kt, .pair, .lv, .can, .stw, .core, .ten] s (startLead s) := by
  unfold startLead
  repeat' (first
    | with_reducible exact Foot.refl | with_reducible assumption | with_reducible apply Foot.ite
    | with_reducible apply Foot.after (startChannels_foot _)
    | with_reducible apply Foot.after (resendPoints_foot _)
    | with_reducible apply Foot.after (raiseEpoch_foot _ _)
    | with_reducible apply Foot.after (applyTen_foot _ _)
    | with_reducible apply Foot.after (queueResumes_foot _) | with_reducible apply Foot.onKeep | exact rfl
    | exact .inl rfl | with_reducible exact .inr rfl | with_reducible exact .inr (.inl rfl)
    | with_reducible exact .inr ⟨rfl, rfl⟩ | exact .inr rfl | exact .inr (.inl rfl) | exact .inr ⟨rfl, rfl⟩
    | split | dsimp only)

theorem startShadow_foot (s : State) :
    Foot [.keep, .can, .core, .capdnFall] s (startShadow s) := by
  unfold startShadow
  repeat' (first
    | with_reducible exact Foot.refl | with_reducible assumption | with_reducible apply Foot.ite
    | with_reducible apply Foot.after (startChannels_foot _) | with_reducible apply Foot.onKeep | exact rfl
    | exact .inl rfl | with_reducible exact .inr rfl | with_reducible exact .inr (.inl rfl)
    | with_reducible exact .inr ⟨rfl, rfl⟩ | exact .inr rfl | exact .inr (.inl rfl) | exact .inr ⟨rfl, rfl⟩
    | split | dsimp only)

theorem replayFresh_foot (s : State) :
    Foot [.jr, .lv, .ket, .afe, .drv, .ep, .pln] s (replayFresh s) := by
  unfold replayFresh
  repeat' (first
    | with_reducible exact Foot.refl | with_reducible assumption | with_reducible apply Foot.ite
    | with_reducible apply Foot.onJr | with_reducible apply Foot.onLv | with_reducible apply Foot.onKet
    | with_reducible apply Foot.onAfe | with_reducible apply Foot.onDrv | with_reducible apply Foot.onEp
    | with_reducible apply Foot.onPln | exact rfl | exact .inl rfl | with_reducible exact .inr rfl
    | with_reducible exact .inr (.inl rfl) | with_reducible exact .inr ⟨rfl, rfl⟩ | exact .inr rfl
    | exact .inr (.inl rfl) | exact .inr ⟨rfl, rfl⟩ | with_reducible exact .inr id | exact .inr id | split
    | dsimp only)

theorem writeRoles_foot (s : State) :
    Foot [.out, .stw] s (writeRoles s) := by
  unfold writeRoles
  repeat' (first
    | with_reducible exact Foot.refl | with_reducible assumption | with_reducible apply Foot.ite
    | with_reducible refine Foot.foldl ?_ fun v a hv => ?_
    | with_reducible apply Foot.after (writeRole_foot _ _) | exact rfl | split | dsimp only)

theorem roleChange_foot (lead : Bool) (s : State) :
    Foot [.out, .keep, .kt, .host, .pair, .stw, .core, .role] s (roleChange lead s) := by
  unfold roleChange
  repeat' (first
    | with_reducible exact Foot.refl | with_reducible assumption | with_reducible apply Foot.ite
    | with_reducible apply Foot.after (writeRoles_foot _) | with_reducible apply Foot.after (tagDue_foot _)
    | with_reducible apply Foot.after (msix_foot _ _) | with_reducible apply Foot.onKeep
    | with_reducible apply Foot.onKt | with_reducible apply Foot.onPair | exact rfl | exact .inl rfl
    | with_reducible exact .inr rfl | with_reducible exact .inr (.inl rfl)
    | with_reducible exact .inr ⟨rfl, rfl⟩ | exact .inr rfl | exact .inr (.inl rfl) | exact .inr ⟨rfl, rfl⟩
    | split | dsimp only)

theorem takeRole_foot (lead : Bool) (s : State) :
    Foot [.out, .keep, .cat, .kt, .host, .pair, .lv, .can, .stw, .core, .ten, .capdnFall, .role]
      s (takeRole lead s) := by
  unfold takeRole
  repeat' (first
    | with_reducible exact Foot.refl | with_reducible assumption | with_reducible apply Foot.ite
    | with_reducible apply Foot.after (roleChange_foot _ _)
    | with_reducible apply Foot.after (startShadow_foot _) | with_reducible apply Foot.after (startLead_foot _)
    | exact rfl | split | dsimp only)

theorem takeover_foot (silent : Bool) (image : Half) (s : State) :
    Foot [.out, .keep, .cat, .kt, .mbx, .jr, .stg, .host, .log, .pmc, .spn, .pair, .lv, .ket, .afe, .drv, .can,
      .ep, .pln, .stw, .core, .ten, .capdnFall, .role]
      s (takeover silent image s) := by
  unfold takeover
  repeat' (first
    | with_reducible exact Foot.refl | with_reducible assumption | with_reducible apply Foot.ite
    | with_reducible refine Foot.foldl ?_ fun v a hv => ?_
    | with_reducible apply Foot.after (roleChange_foot _ _)
    | with_reducible apply Foot.after (replayFresh_foot _) | with_reducible apply Foot.after (setPair_foot _ _)
    | with_reducible apply Foot.after (resendPoints_foot _)
    | with_reducible apply Foot.after (raiseEpoch_foot _ _) | with_reducible apply Foot.after (afterTen_foot _)
    | with_reducible apply Foot.after (applyTen_foot _ _)
    | with_reducible apply Foot.after (queueResumes_foot _)
    | with_reducible apply Foot.after (capdnRevoke_foot _ _ _)
    | with_reducible apply Foot.after (event_foot _ _ _ _ _ _)
    | with_reducible apply Foot.after (wakeCause_foot _ _) | with_reducible apply Foot.onKeep
    | with_reducible apply Foot.onSpn | with_reducible apply Foot.onPair | with_reducible apply Foot.onPln
    | exact rfl | exact .inl rfl | with_reducible exact .inr rfl | with_reducible exact .inr (.inl rfl)
    | with_reducible exact .inr ⟨rfl, rfl⟩ | exact .inr rfl | exact .inr (.inl rfl) | exact .inr ⟨rfl, rfl⟩
    | split | dsimp only)

theorem endSwap_foot (swap : Nat) (s : State) :
    Foot [.out, .keep, .jr, .host, .log, .pmc, .spn] s (endSwap swap s) := by
  unfold endSwap
  repeat' (first
    | with_reducible exact Foot.refl | with_reducible assumption | with_reducible apply Foot.ite
    | with_reducible apply Foot.after (mirror_foot _ _) | with_reducible apply Foot.after (onEntry_foot _ _ _)
    | with_reducible apply Foot.after (event_foot _ _ _ _ _ _) | exact rfl | split | dsimp only)

theorem loseWaiting_foot (s : State) :
    Foot [.mbx, .stw] s (loseWaiting s) := by
  unfold loseWaiting
  repeat' (first
    | with_reducible exact Foot.refl | with_reducible assumption | with_reducible apply Foot.ite
    | with_reducible apply Foot.onMbx | with_reducible apply Foot.onStw | exact rfl | with_reducible exact id
    | exact fun _ => rfl | exact id | with_reducible exact box_mod fun _ h => h | exact box_mod fun _ h => h
    | exact box_map fun p h => by split <;> exact h | split | dsimp only)

theorem standDown_foot (s : State) :
    Foot [.out, .keep, .kt, .mbx, .jr, .host, .log, .pmc, .spn, .pair, .lv, .can, .stw, .core, .capdnFall, .role]
      s (standDown s) := by
  unfold standDown
  repeat' (first
    | with_reducible exact Foot.refl | with_reducible assumption | with_reducible apply Foot.ite
    | with_reducible refine Foot.foldl ?_ fun v a hv => ?_
    | with_reducible apply Foot.after (loseWaiting_foot _) | with_reducible apply Foot.after (endSwap_foot _ _)
    | with_reducible apply Foot.after (roleChange_foot _ _)
    | with_reducible apply Foot.after (setPair_foot _ _) | with_reducible apply Foot.after (dropFrames_foot _)
    | with_reducible apply Foot.after (event_foot _ _ _ _ _ _) | with_reducible apply Foot.onKeep
    | with_reducible apply Foot.onPair | with_reducible apply Foot.onLv | with_reducible apply Foot.onStw
    | exact rfl | exact .inl rfl | with_reducible exact .inr rfl | with_reducible exact .inr (.inl rfl)
    | with_reducible exact .inr ⟨rfl, rfl⟩ | exact .inr rfl | exact .inr (.inl rfl) | exact .inr ⟨rfl, rfl⟩
    | with_reducible exact id | exact fun _ => rfl | exact id | split | dsimp only)

theorem takeTables_foot (t : SyncTables) (s : State) :
    Foot [.kt, .lv, .keys, .budget] s (takeTables t s) := by
  unfold takeTables
  repeat' (first
    | with_reducible exact Foot.refl | with_reducible assumption | with_reducible apply Foot.ite
    | with_reducible refine Foot.foldl ?_ fun v a hv => ?_ | with_reducible apply Foot.onKt
    | with_reducible apply Foot.onLv | exact rfl | exact .inl rfl | with_reducible exact .inr rfl
    | with_reducible exact .inr (.inl rfl) | with_reducible exact .inr ⟨rfl, rfl⟩ | exact .inr rfl
    | exact .inr (.inl rfl) | exact .inr ⟨rfl, rfl⟩ | split | dsimp only)

theorem takeJournal_foot (es : List JEntry) (high : Tab HighMark) (jseq : Nat) (s : State) :
    Foot [.jr] s (takeJournal es high jseq s) := by
  unfold takeJournal
  repeat' (first
    | with_reducible exact Foot.refl | with_reducible assumption | with_reducible apply Foot.ite
    | with_reducible apply Foot.onJr | exact rfl | exact .inl rfl | with_reducible exact .inr rfl
    | with_reducible exact .inr (.inl rfl) | with_reducible exact .inr ⟨rfl, rfl⟩ | exact .inr rfl
    | exact .inr (.inl rfl) | exact .inr ⟨rfl, rfl⟩ | with_reducible exact .inr id | exact .inr id | split
    | dsimp only)

theorem fxPairSync_foot (e : JEntry) (s : State) :
    Foot [.out, .keep, .mbx, .jr, .stg, .host, .log, .pmc, .spn, .pair, .stw] s (fxPairSync e s) := by
  unfold fxPairSync
  repeat' (first
    | with_reducible exact Foot.refl | with_reducible assumption | with_reducible apply Foot.ite
    | with_reducible apply Foot.after (endSync_foot _) | with_reducible apply Foot.after (setPair_foot _ _)
    | with_reducible apply Foot.after (finish0_foot _ _ _)
    | with_reducible apply Foot.after (sendPair_foot _ _) | with_reducible apply Foot.onPair | exact rfl
    | split | dsimp only)

theorem syncDone_foot (s : State) :
    Foot [.out, .keep, .mbx, .jr, .stg, .host, .log, .pmc, .spn, .pair, .stw] s (syncDone s) := by
  unfold syncDone
  repeat' (first
    | with_reducible exact Foot.refl | with_reducible assumption | with_reducible apply Foot.ite
    | with_reducible apply Foot.after (setPair_foot _ _) | with_reducible apply Foot.after (finish0_foot _ _ _)
    | with_reducible apply Foot.onPair | exact rfl | split | dsimp only)

theorem askPartner_foot (op : Nat) (body : Bytes) (s : State) :
    Foot [.out, .pmc, .spn, .pair] s (askPartner op body s) := by
  unfold askPartner
  repeat' (first
    | with_reducible exact Foot.refl | with_reducible assumption | with_reducible apply Foot.ite
    | with_reducible apply Foot.after (relayCommand_foot _ _ _ _ _) | with_reducible apply Foot.onPair
    | exact rfl | split | dsimp only)

theorem askSync_foot (s : State) :
    Foot [.out, .keep, .host, .log, .pmc, .spn, .pair] s (askSync s) := by
  unfold askSync
  repeat' (first
    | with_reducible exact Foot.refl | with_reducible assumption | with_reducible apply Foot.ite
    | with_reducible apply Foot.after (askPartner_foot _ _ _)
    | with_reducible apply Foot.after (setPair_foot _ _) | exact rfl | split | dsimp only)

theorem compareModel_foot (s : State) :
    Foot [.out, .keep, .host, .log, .pmc, .spn, .pair] s (compareModel s) := by
  unfold compareModel
  repeat' (first
    | with_reducible exact Foot.refl | with_reducible assumption | with_reducible apply Foot.ite
    | with_reducible apply Foot.after (askSync_foot _) | with_reducible apply Foot.after (setPair_foot _ _)
    | with_reducible apply Foot.after (testResult_foot _ _ _)
    | with_reducible apply Foot.after (event_foot _ _ _ _ _ _) | with_reducible apply Foot.onPair | exact rfl
    | split | dsimp only)

theorem fxSwitchBack_foot (e : JEntry) (s : State) :
    Foot [.out, .mbx, .jr, .stg, .pmc, .spn, .pair, .stw] s (fxSwitchBack e s) := by
  unfold fxSwitchBack
  repeat' (first
    | with_reducible exact Foot.refl | with_reducible assumption | with_reducible apply Foot.ite
    | with_reducible apply Foot.after (finish0_foot _ _ _) | with_reducible apply Foot.onPair | exact rfl
    | split | dsimp only)

theorem fxSpineConfig_foot (e : JEntry) (s : State) :
    Foot [.out, .kt, .mbx, .jr, .stg, .pmc, .spn, .pair, .stw] s (fxSpineConfig e s) := by
  unfold fxSpineConfig
  repeat' (first
    | with_reducible exact Foot.refl | with_reducible assumption | with_reducible apply Foot.ite
    | with_reducible apply Foot.after (finish0_foot _ _ _) | with_reducible apply Foot.onKt | exact rfl
    | exact .inl rfl | with_reducible exact .inr rfl | with_reducible exact .inr (.inl rfl)
    | with_reducible exact .inr ⟨rfl, rfl⟩ | exact .inr rfl | exact .inr (.inl rfl) | exact .inr ⟨rfl, rfl⟩
    | split | dsimp only)

end Sys2Proof.Machine
end

