-- ==== Sys2Proof/Laws/FootPairRows.lean ====
section
/-! SUPPORT. Laws/FootPairRows.lean: the footprint of each operation of Machine/PairRows.lean. -/

set_option linter.unusedTactic false
set_option linter.unreachableTactic false
set_option linter.unusedVariables false

namespace Sys2Proof.Machine

theorem settleAlone_foot (s : State) :
    Foot [.out, .keep, .cat, .kt, .host, .pair, .lv, .can, .stw, .core, .ten, .capdnFall, .role]
      s (settleAlone s) := by
  unfold settleAlone
  repeat' (first
    | with_reducible exact Foot.refl | with_reducible assumption | with_reducible apply Foot.ite
    | with_reducible apply Foot.after (takeRole_foot _ _) | exact rfl | split | dsimp only)

theorem doHeartbeatSend_foot (s : State) :
    Foot [.now, .out, .keep, .cat, .kt, .host, .pmc, .spn, .pair, .lv, .can, .stw, .core, .ten, .capdnFall, .role]
      s (doHeartbeatSend s) := by
  unfold doHeartbeatSend
  repeat' (first
    | with_reducible exact Foot.refl | with_reducible assumption | with_reducible apply Foot.ite
    | with_reducible apply Foot.after (settleAlone_foot _)
    | with_reducible apply Foot.after (sendSpine_foot _ _ _)
    | with_reducible apply Foot.after (sendPair_foot _ _) | with_reducible apply Foot.after (reach_foot _ _)
    | with_reducible apply Foot.onPair | exact rfl | split | dsimp only)

theorem settleRole_foot (first : Bool) (h : Heartbeat) (s : State) :
    Foot [.out, .keep, .cat, .kt, .host, .pair, .lv, .can, .stw, .core, .ten, .capdnFall, .role]
      s (settleRole first h s) := by
  unfold settleRole
  repeat' (first
    | with_reducible exact Foot.refl | with_reducible assumption | with_reducible apply Foot.ite
    | with_reducible apply Foot.after (takeRole_foot _ _) | with_reducible apply Foot.onPair | exact rfl
    | split | dsimp only)

theorem weighHeartbeat_foot (old h : Heartbeat) (s : State) :
    Foot [.out, .keep, .cat, .kt, .mbx, .jr, .stg, .host, .log, .pmc, .spn, .pair, .lv, .ket, .afe, .drv, .can,
      .ep, .pln, .stw, .core, .ten, .capdnFall, .role]
      s (weighHeartbeat old h s) := by
  unfold weighHeartbeat
  repeat' (first
    | with_reducible exact Foot.refl | with_reducible assumption | with_reducible apply Foot.ite
    | with_reducible apply Foot.after (askSync_foot _) | with_reducible apply Foot.after (standDown_foot _)
    | with_reducible apply Foot.after (takeover_foot _ _ _)
    | with_reducible apply Foot.after (losePartner_foot _ _)
    | with_reducible apply Foot.after (setPair_foot _ _)
    | with_reducible apply Foot.after (event_foot _ _ _ _ _ _) | exact rfl | split | dsimp only)

theorem takeHeartbeat_foot (f : FrameHdr) (h : Heartbeat) (s : State) :
    Foot [.out, .keep, .cat, .kt, .mbx, .jr, .stg, .host, .log, .pmc, .spn, .pair, .lv, .ket, .afe, .drv, .can,
      .ep, .pln, .stw, .core, .ten, .capdnFall, .role]
      s (takeHeartbeat f h s) := by
  unfold takeHeartbeat
  repeat' (first
    | with_reducible exact Foot.refl | with_reducible assumption | with_reducible apply Foot.ite
    | with_reducible apply Foot.after (weighHeartbeat_foot _ _ _)
    | with_reducible apply Foot.after (settleRole_foot _ _ _)
    | with_reducible apply Foot.after (posMismatch_foot _) | with_reducible apply Foot.onKt
    | with_reducible apply Foot.onPair | exact rfl | exact .inl rfl | with_reducible exact .inr rfl
    | with_reducible exact .inr (.inl rfl) | with_reducible exact .inr ⟨rfl, rfl⟩ | exact .inr rfl
    | exact .inr (.inl rfl) | exact .inr ⟨rfl, rfl⟩ | split | dsimp only)

theorem doHeartbeatFrame_foot (f : FrameHdr) (h : Heartbeat) (s : State) :
    Foot [.out, .keep, .cat, .kt, .mbx, .jr, .stg, .host, .log, .pmc, .spn, .pair, .lv, .ket, .afe, .drv, .can,
      .ep, .pln, .stw, .core, .ten, .capdnFall, .role]
      s (doHeartbeatFrame f h s) := by
  unfold doHeartbeatFrame
  repeat' (first
    | with_reducible exact Foot.refl | with_reducible assumption | with_reducible apply Foot.ite
    | with_reducible apply Foot.after (takeHeartbeat_foot _ _ _)
    | with_reducible refine rxFrame_foot ?_ ?_ ?_ fun v hv => ?_ | exact rfl | split | dsimp only)

theorem partnerSilent_foot (s : State) :
    Foot [.now, .out, .keep, .cat, .kt, .mbx, .jr, .stg, .host, .log, .pmc, .spn, .pair, .lv, .ket, .afe, .drv,
      .can, .ep, .pln, .stw, .core, .ten, .capdnFall, .role]
      s (partnerSilent s) := by
  unfold partnerSilent
  repeat' (first
    | with_reducible exact Foot.refl | with_reducible assumption | with_reducible apply Foot.ite
    | with_reducible apply Foot.after (takeover_foot _ _ _)
    | with_reducible apply Foot.after (losePartner_foot _ _)
    | with_reducible apply Foot.after (dropReference_foot _)
    | with_reducible apply Foot.after (event_foot _ _ _ _ _ _)
    | with_reducible apply Foot.after (reach_foot _ _) | with_reducible apply Foot.onPair | exact rfl | split
    | dsimp only)

theorem doHeartbeatMissed_foot (s : State) :
    Foot [.now, .out, .keep, .cat, .kt, .mbx, .jr, .stg, .host, .log, .pmc, .spn, .pair, .lv, .ket, .afe, .drv,
      .can, .ep, .pln, .stw, .core, .ten, .capdnFall, .role]
      s (doHeartbeatMissed s) := by
  unfold doHeartbeatMissed
  repeat' (first
    | with_reducible exact Foot.refl | with_reducible assumption | with_reducible apply Foot.ite
    | with_reducible apply Foot.after (partnerSilent_foot _)
    | with_reducible apply Foot.after (standDown_foot _) | exact rfl | split | dsimp only)

theorem endHeld_foot (s : State) :
    Foot [.out, .keep, .pmc, .spn, .lv, .core, .capdnFall] s (endHeld s) := by
  unfold endHeld
  repeat' (first
    | with_reducible exact Foot.refl | with_reducible assumption | with_reducible apply Foot.ite
    | with_reducible apply Foot.after (queueResumes_foot _)
    | with_reducible apply Foot.after (driveCapdn_foot _ _) | exact rfl | split | dsimp only)

theorem doLoneCheckExpiry_foot (s : State) :
    Foot [.now, .out, .keep, .cat, .mbx, .jr, .stg, .host, .log, .pmc, .spn, .pair, .lv, .stw, .core, .ten,
      .capdnFall]
      s (doLoneCheckExpiry s) := by
  unfold doLoneCheckExpiry
  repeat' (first
    | with_reducible exact Foot.refl | with_reducible assumption | with_reducible apply Foot.ite
    | with_reducible apply Foot.after (endHeld_foot _) | with_reducible apply Foot.after (losePartner_foot _ _)
    | with_reducible apply Foot.after (reach_foot _ _) | with_reducible apply Foot.onPair | exact rfl | split
    | dsimp only)

theorem doSilentRelease_foot (s : State) :
    Foot [.now, .out, .keep, .mbx, .host, .log, .pmc, .spn, .pair, .lv, .stw, .core, .capdnFall]
      s (doSilentRelease s) := by
  unfold doSilentRelease
  repeat' (first
    | with_reducible exact Foot.refl | with_reducible assumption | with_reducible apply Foot.ite
    | with_reducible refine Foot.foldl ?_ fun v a hv => ?_
    | with_reducible apply Foot.after (markSilent_foot _ _)
    | with_reducible apply Foot.after (queueResumes_foot _)
    | with_reducible apply Foot.after (releaseCapdn_foot _ _)
    | with_reducible apply Foot.after (reach_foot _ _) | with_reducible apply Foot.onPair | exact rfl | split
    | dsimp only)

theorem accepted_foot (e : JEntry) (s : State) :
    Foot [.out, .keep, .mbx, .jr, .host, .pmc, .stw] s (accepted e s) := by
  unfold accepted
  repeat' (first
    | with_reducible exact Foot.refl | with_reducible assumption | with_reducible apply Foot.ite
    | with_reducible apply Foot.after (spendNonce_foot _ _ _)
    | with_reducible apply Foot.after (respond_foot _ _ _)
    | with_reducible apply Foot.after (wakeCause_foot _ _) | with_reducible apply Foot.after (count_foot _ _)
    | with_reducible apply Foot.onJr | exact rfl | exact .inl rfl | with_reducible exact .inr rfl
    | with_reducible exact .inr (.inl rfl) | with_reducible exact .inr ⟨rfl, rfl⟩ | exact .inr rfl
    | exact .inr (.inl rfl) | exact .inr ⟨rfl, rfl⟩ | with_reducible exact .inr id | exact .inr id | split
    | dsimp only)

theorem dupPending_foot (m : Nat) (e : JEntry) (s : State) :
    Foot [.mbx, .pmc, .stw] s (dupPending m e s) := by
  unfold dupPending
  repeat' (first
    | with_reducible exact Foot.refl | with_reducible assumption | with_reducible apply Foot.ite
    | with_reducible apply Foot.after (respond_foot _ _ _) | with_reducible apply Foot.after (count_foot _ _)
    | exact rfl | split | dsimp only)

theorem storeMirror_foot (e : JEntry) (s : State) :
    Foot [.jr, .stg] s (storeMirror e s) := by
  unfold storeMirror
  repeat' (first
    | with_reducible exact Foot.refl | with_reducible assumption | with_reducible apply Foot.ite
    | with_reducible apply Foot.after (onEntry_foot _ _ _) | with_reducible apply Foot.after (dropObj_foot _ _)
    | with_reducible apply Foot.onJr | exact rfl | exact .inl rfl | with_reducible exact .inr rfl
    | with_reducible exact .inr (.inl rfl) | with_reducible exact .inr ⟨rfl, rfl⟩ | exact .inr rfl
    | exact .inr (.inl rfl) | exact .inr ⟨rfl, rfl⟩ | with_reducible exact .inr id | exact .inr id | split
    | dsimp only)

theorem doMirrorFrame_foot (f : FrameHdr) (e : JEntry) (s : State) :
    Foot [.out, .keep, .cat, .mbx, .jr, .stg, .host, .log, .pmc, .spn, .pair, .lv, .stw, .core, .ten]
      s (doMirrorFrame f e s) := by
  unfold doMirrorFrame
  repeat' (first
    | with_reducible exact Foot.refl | with_reducible assumption | with_reducible apply Foot.ite
    | with_reducible apply Foot.after (storeMirror_foot _ _)
    | with_reducible refine rxFrame_foot ?_ ?_ ?_ fun v hv => ?_
    | with_reducible apply Foot.after (sendPair_foot _ _) | exact rfl | split | dsimp only)

theorem mirrored_foot (j : Nat) (s : State) :
    Foot [.out, .keep, .mbx, .jr, .stg, .host, .pmc, .pair, .stw] s (mirrored j s) := by
  unfold mirrored
  repeat' (first
    | with_reducible exact Foot.refl | with_reducible assumption | with_reducible apply Foot.ite
    | with_reducible refine Foot.foldl ?_ fun v a hv => ?_
    | with_reducible apply Foot.after (dupPending_foot _ _ _)
    | with_reducible apply Foot.after (accepted_foot _ _) | with_reducible apply Foot.after (setDone_foot _ _)
    | with_reducible apply Foot.after (onEntry_foot _ _ _) | with_reducible apply Foot.after (count_foot _ _)
    | with_reducible apply Foot.onJr | exact rfl | exact .inl rfl | with_reducible exact .inr rfl
    | with_reducible exact .inr (.inl rfl) | with_reducible exact .inr ⟨rfl, rfl⟩ | exact .inr rfl
    | exact .inr (.inl rfl) | exact .inr ⟨rfl, rfl⟩ | with_reducible exact .inr id | exact .inr id | split
    | dsimp only)

theorem doMirrorAckFrame_foot (f : FrameHdr) (j : Nat) (s : State) :
    Foot [.out, .keep, .cat, .mbx, .jr, .stg, .host, .log, .pmc, .spn, .pair, .lv, .stw, .core, .ten]
      s (doMirrorAckFrame f j s) := by
  unfold doMirrorAckFrame
  repeat' (first
    | with_reducible exact Foot.refl | with_reducible assumption | with_reducible apply Foot.ite
    | with_reducible apply Foot.after (mirrored_foot _ _)
    | with_reducible refine rxFrame_foot ?_ ?_ ?_ fun v hv => ?_ | exact rfl | split | dsimp only)

theorem tenAcked_foot (image : Half) (s : State) :
    Foot [.out, .keep, .cat, .mbx, .jr, .stg, .pmc, .spn, .pair, .lv, .stw, .core, .ten] s (tenAcked image s) := by
  unfold tenAcked
  repeat' (first
    | with_reducible exact Foot.refl | with_reducible assumption | with_reducible apply Foot.ite
    | with_reducible apply Foot.after (takeTen_foot _) | exact rfl | split | dsimp only)

theorem takeLease_foot (m : LeaseMsg) (s : State) :
    Foot [.out, .keep, .cat, .mbx, .jr, .stg, .host, .log, .pmc, .spn, .pair, .lv, .pln, .stw, .core, .ten]
      s (takeLease m s) := by
  unfold takeLease
  repeat' (first
    | with_reducible exact Foot.refl | with_reducible assumption | with_reducible apply Foot.ite
    | with_reducible apply Foot.after (tenAcked_foot _ _)
    | with_reducible apply Foot.after (applyOutcome_foot _ _)
    | with_reducible apply Foot.after (finish_foot _ _ _ _)
    | with_reducible apply Foot.after (applyTen_foot _ _) | with_reducible apply Foot.after (sendPair_foot _ _)
    | with_reducible apply Foot.onPair | with_reducible apply Foot.onLv | exact rfl | split | dsimp only)

theorem doLeaseFrame_foot (f : FrameHdr) (m : LeaseMsg) (s : State) :
    Foot [.out, .keep, .cat, .mbx, .jr, .stg, .host, .log, .pmc, .spn, .pair, .lv, .pln, .stw, .core, .ten]
      s (doLeaseFrame f m s) := by
  unfold doLeaseFrame
  repeat' (first
    | with_reducible exact Foot.refl | with_reducible assumption | with_reducible apply Foot.ite
    | with_reducible apply Foot.after (takeLease_foot _ _)
    | with_reducible refine rxFrame_foot ?_ ?_ ?_ fun v hv => ?_ | exact rfl | split | dsimp only)

theorem doLeaseAckTimeout_foot (s : State) :
    Foot [.now, .out, .keep, .cat, .mbx, .jr, .stg, .host, .log, .pmc, .spn, .pair, .lv, .stw, .core, .ten]
      s (doLeaseAckTimeout s) := by
  unfold doLeaseAckTimeout
  repeat' (first
    | with_reducible exact Foot.refl | with_reducible assumption | with_reducible apply Foot.ite
    | with_reducible apply Foot.after (losePartner_foot _ _) | with_reducible apply Foot.after (takeTen_foot _)
    | with_reducible apply Foot.after (reach_foot _ _) | exact rfl | split | dsimp only)

theorem doSnapshotFrame_foot (f : FrameHdr) (words : List Word) (digest : Digest) (s : State) :
    Foot [.out, .keep, .cat, .mbx, .jr, .stg, .host, .log, .pmc, .spn, .pair, .lv, .qre, .mem, .ep, .stw, .core, .ten]
      s (doSnapshotFrame f words digest s) := by
  unfold doSnapshotFrame
  repeat' (first
    | with_reducible exact Foot.refl | with_reducible assumption | with_reducible apply Foot.ite
    | with_reducible refine rxFrame_foot ?_ ?_ ?_ fun v hv => ?_
    | with_reducible apply Foot.after (storeSnap_foot _) | with_reducible apply Foot.onPair
    | with_reducible apply Foot.onEp | exact rfl | split | dsimp only)

theorem takeBorrowed_foot (table harbour outbox : Mem) (s : State) :
    Foot [.out, .keep, .host, .log, .pmc, .spn, .mem, .ep] s (takeBorrowed table harbour outbox s) := by
  unfold takeBorrowed
  repeat' (first
    | with_reducible exact Foot.refl | with_reducible assumption | with_reducible apply Foot.ite
    | with_reducible refine Foot.foldl ?_ fun v a hv => ?_
    | with_reducible apply Foot.after (event_foot _ _ _ _ _ _) | with_reducible apply Foot.onMem
    | with_reducible apply Foot.onEp | exact rfl | with_reducible exact id | exact fun _ => rfl | exact id
    | exact fun h => Mem.wf_writeN h _ _
    | exact fun h => Mem.wf_foldl (Mem.wf_foldl (Mem.wf_foldl (Mem.wf_clearRange (Mem.wf_clearRange h _ _) _ _) _ _ _) _ _ _) _ _ _
    | split | dsimp only)

theorem takeObject_foot (d : Digest) (bs : Bytes) (s : State) :
    Foot [.jr, .stg] s (takeObject d bs s) := by
  unfold takeObject
  repeat' (first
    | with_reducible exact Foot.refl | with_reducible assumption | with_reducible apply Foot.ite
    | with_reducible apply Foot.after (wakeEntries_foot _ _) | with_reducible apply Foot.onStg | exact rfl
    | with_reducible exact id | exact fun _ => rfl | exact id | exact fun _ _ h => absurd h List.not_mem_nil
    | exact objs_filter _ | exact objs_put _ fun _ => Mem.wf_writeN rfl _ _ | split | dsimp only)

theorem endStream_foot (fseq : Nat) (s : State) :
    Foot [.out, .pmc, .spn, .pair] s (endStream fseq s) := by
  unfold endStream
  repeat' (first
    | with_reducible exact Foot.refl | with_reducible assumption | with_reducible apply Foot.ite
    | with_reducible apply Foot.after (sendPair_foot _ _) | with_reducible apply Foot.onPair | exact rfl
    | split | dsimp only)

theorem takeBulk_foot (f : FrameHdr) (m : BulkMsg) (s : State) :
    Foot [.out, .keep, .kt, .jr, .stg, .host, .log, .pmc, .spn, .pair, .lv, .mem, .ep, .keys, .budget]
      s (takeBulk f m s) := by
  unfold takeBulk
  repeat' (first
    | with_reducible exact Foot.refl | with_reducible assumption | with_reducible apply Foot.ite
    | with_reducible refine Foot.foldl ?_ fun v a hv => ?_
    | with_reducible apply Foot.after (endStream_foot _ _)
    | with_reducible apply Foot.after (takeObject_foot _ _ _)
    | with_reducible apply Foot.after (takeBorrowed_foot _ _ _ _)
    | with_reducible apply Foot.after (takeJournal_foot _ _ _ _)
    | with_reducible apply Foot.after (takeTables_foot _ _) | with_reducible apply Foot.onLv
    | with_reducible apply Foot.onMem | exact rfl | with_reducible exact id | exact fun _ => rfl | exact id
    | exact fun h => Mem.wf_writeN h _ _ | exact fun _ => Mem.wf_foldl rfl _ _ _ | split | dsimp only)

theorem doBulkFrame_foot (f : FrameHdr) (m : BulkMsg) (s : State) :
    Foot [.out, .keep, .cat, .kt, .mbx, .jr, .stg, .host, .log, .pmc, .spn, .pair, .lv, .mem, .ep, .stw, .core,
      .ten, .keys, .budget]
      s (doBulkFrame f m s) := by
  unfold doBulkFrame
  repeat' (first
    | with_reducible exact Foot.refl | with_reducible assumption | with_reducible apply Foot.ite
    | with_reducible apply Foot.after (takeBulk_foot _ _ _)
    | with_reducible refine rxFrame_foot ?_ ?_ ?_ fun v hv => ?_ | exact rfl | split | dsimp only)

theorem takeAnswer_foot (src : Nat) (b : Bytes) (s : State) :
    Foot [.out, .keep, .host, .log, .pmc, .spn, .pair] s (takeAnswer src b s) := by
  unfold takeAnswer
  repeat' (first
    | with_reducible exact Foot.refl | with_reducible assumption | with_reducible apply Foot.ite
    | with_reducible apply Foot.after (laneTest_foot _) | with_reducible apply Foot.after (setPair_foot _ _)
    | with_reducible apply Foot.after (event_foot _ _ _ _ _ _) | with_reducible apply Foot.onPair | exact rfl
    | split | dsimp only)

theorem takeRelayed_foot (f : FrameHdr) (b : Bytes) (s : State) :
    Foot [.out, .keep, .mbx, .host, .log, .pmc, .spn, .pair] s (takeRelayed f b s) := by
  unfold takeRelayed
  repeat' (first
    | with_reducible exact Foot.refl | with_reducible assumption | with_reducible apply Foot.ite
    | with_reducible apply Foot.after (takeAnswer_foot _ _ _)
    | with_reducible apply Foot.after (onBox_foot _ _ _ ?_) | with_reducible exact fun _ h => h
    | with_reducible exact fun _ h => ⟨Mem.wf_writeN h.1 _ _, h.2⟩
    | with_reducible exact fun _ h => ⟨h.1, Mem.wf_writeN h.2 _ _⟩
    | with_reducible exact fun _ h => ⟨Mem.wf_writeN rfl _ _, h.2⟩
    | with_reducible apply Foot.after (countRise_foot _ _) | exact rfl | exact fun _ _ => Mem.wf_writeN rfl _ _
    | split | dsimp only)

theorem doRelayFrame_foot (f : FrameHdr) (data : Bytes) (s : State) :
    Foot [.out, .keep, .cat, .mbx, .jr, .stg, .host, .log, .pmc, .spn, .pair, .lv, .stw, .core, .ten]
      s (doRelayFrame f data s) := by
  unfold doRelayFrame
  repeat' (first
    | with_reducible exact Foot.refl | with_reducible assumption | with_reducible apply Foot.ite
    | with_reducible apply Foot.after (takeRelayed_foot _ _ _)
    | with_reducible apply Foot.after (takeFragment_foot _ _ _)
    | with_reducible refine Foot.then ?_ (Foot.of_eq (takeFragment_foot _ _ _) (by assumption)) ?_
    | with_reducible apply Foot.after (rxCheck_foot _ _ _)
    | with_reducible refine Foot.then ?_ (Foot.of_eq (rxCheck_foot _ _ _) (by assumption)) ?_ | exact rfl
    | split | dsimp only)

theorem doRelayAckFrame_foot (f : FrameHdr) (fseq : Word) (s : State) :
    Foot [.out, .keep, .cat, .mbx, .jr, .stg, .host, .log, .pmc, .spn, .pair, .lv, .stw, .core, .ten]
      s (doRelayAckFrame f fseq s) := by
  unfold doRelayAckFrame
  repeat' (first
    | with_reducible exact Foot.refl | with_reducible assumption | with_reducible apply Foot.ite
    | with_reducible apply Foot.after (syncDone_foot _)
    | with_reducible refine rxFrame_foot ?_ ?_ ?_ fun v hv => ?_ | with_reducible apply Foot.onSpn | exact rfl
    | split | dsimp only)

theorem doLaneUp_foot (n : Nat) (s : State) :
    Foot [.now, .out, .keep, .host, .log, .pmc, .spn, .pair] s (doLaneUp n s) := by
  unfold doLaneUp
  repeat' (first
    | with_reducible exact Foot.refl | with_reducible assumption | with_reducible apply Foot.ite
    | with_reducible apply Foot.after (laneTest_foot _)
    | with_reducible apply Foot.after (event_foot _ _ _ _ _ _)
    | with_reducible apply Foot.after (onLane_foot _ _ _) | with_reducible apply Foot.after (reach_foot _ _)
    | with_reducible apply Foot.onSpn | exact rfl | split | dsimp only)

theorem doLrefclkLoss_foot (s : State) :
    Foot [.out, .keep, .cat, .mbx, .jr, .stg, .host, .log, .pmc, .spn, .pair, .lv, .stw, .core, .ten]
      s (doLrefclkLoss s) := by
  unfold doLrefclkLoss
  repeat' (first
    | with_reducible exact Foot.refl | with_reducible assumption | with_reducible apply Foot.ite
    | with_reducible apply Foot.after (laneTest_foot _) | with_reducible apply Foot.after (engage_foot _)
    | with_reducible apply Foot.after (pairLaneLost_foot _)
    | with_reducible apply Foot.after (dropLane_foot _ _)
    | with_reducible apply Foot.after (event_foot _ _ _ _ _ _) | with_reducible apply Foot.onSpn | exact rfl
    | split | dsimp only)

theorem doJournalCheck_foot (leadDigest : Digest) (s : State) :
    Foot [.now, .out, .keep, .host, .log, .pmc, .spn, .pair] s (doJournalCheck leadDigest s) := by
  unfold doJournalCheck
  repeat' (first
    | with_reducible exact Foot.refl | with_reducible assumption | with_reducible apply Foot.ite
    | with_reducible apply Foot.after (testResult_foot _ _ _)
    | with_reducible apply Foot.after (event_foot _ _ _ _ _ _)
    | with_reducible apply Foot.after (reach_foot _ _) | with_reducible apply Foot.onPair | exact rfl | split
    | dsimp only)

theorem doProofIntervalExpiry_foot (s : State) :
    Foot [.now, .out, .pmc, .spn, .pair] s (doProofIntervalExpiry s) := by
  unfold doProofIntervalExpiry
  repeat' (first
    | with_reducible exact Foot.refl | with_reducible assumption | with_reducible apply Foot.ite
    | with_reducible apply Foot.after (askPartner_foot _ _ _)
    | with_reducible apply Foot.after (reach_foot _ _) | with_reducible apply Foot.onPair | exact rfl | split
    | dsimp only)

theorem doPartnerCanPoll_foot (ans : Option Word) (s : State) :
    Foot [.now, .out, .pmc, .spn, .pair, .can] s (doPartnerCanPoll ans s) := by
  unfold doPartnerCanPoll
  repeat' (first
    | with_reducible exact Foot.refl | with_reducible assumption | with_reducible apply Foot.ite
    | with_reducible apply Foot.after (askPartner_foot _ _ _)
    | with_reducible apply Foot.after (reach_foot _ _) | with_reducible apply Foot.onCan | exact rfl | split
    | dsimp only)

theorem doCanPairDownFault_foot (s : State) :
    Foot [.now, .pmc, .pair] s (doCanPairDownFault s) := by
  unfold doCanPairDownFault
  repeat' (first
    | with_reducible exact Foot.refl | with_reducible assumption | with_reducible apply Foot.ite
    | with_reducible apply Foot.after (reach_foot _ _) | with_reducible apply Foot.onPair | exact rfl | split
    | dsimp only)

theorem seeEpoch_foot (c e : Nat) (s : State) :
    Foot [.out, .keep, .kt, .mbx, .jr, .host, .log, .pmc, .spn, .pair, .lv, .can, .stw, .core, .capdnFall, .role]
      s (seeEpoch c e s) := by
  unfold seeEpoch
  repeat' (first
    | with_reducible exact Foot.refl | with_reducible assumption | with_reducible apply Foot.ite
    | with_reducible apply Foot.after (standDown_foot _) | with_reducible apply Foot.onPair | exact rfl | split
    | dsimp only)

theorem doEpochAnnounceSeen_foot (c : Nat) (pos : Nat) (e : Nat) (s : State) :
    Foot [.out, .keep, .kt, .mbx, .jr, .host, .log, .pmc, .spn, .pair, .lv, .can, .stw, .core, .capdnFall, .role]
      s (doEpochAnnounceSeen c pos e s) := by
  unfold doEpochAnnounceSeen
  repeat' (first
    | with_reducible exact Foot.refl | with_reducible assumption | with_reducible apply Foot.ite
    | with_reducible apply Foot.after (seeEpoch_foot _ _ _)
    | with_reducible apply Foot.after (watchPair_foot _) | with_reducible apply Foot.after (onCh_foot _ _ _)
    | exact rfl | split | dsimp only)

theorem doActuatorStatus_foot (c a ago : Nat) (st : ActStatus) (s : State) :
    Foot [.out, .keep, .kt, .mbx, .jr, .stg, .host, .log, .pmc, .spn, .pair, .lv, .can, .stw, .core, .capdnFall,
      .role]
      s (doActuatorStatus c a ago st s) := by
  unfold doActuatorStatus
  repeat' (first
    | with_reducible exact Foot.refl | with_reducible assumption | with_reducible apply Foot.ite
    | with_reducible apply Foot.after (seeEpoch_foot _ _ _)
    | with_reducible apply Foot.after (recordStatus_foot _ _ _ _ _)
    | with_reducible apply Foot.after (watchPair_foot _) | with_reducible apply Foot.after (onCh_foot _ _ _)
    | exact rfl | split | dsimp only)

end Sys2Proof.Machine
end

