-- ==== Sys2Proof/Laws/FootRecords.lean ====
section
/-! SUPPORT. Laws/FootRecords.lean: the footprint of each operation of Machine/Records.lean. -/

set_option linter.unusedTactic false
set_option linter.unreachableTactic false
set_option linter.unusedVariables false

namespace Sys2Proof.Machine

theorem answer_foot (m : Nat) (r : Rec) (status : Byte) (ref detail : Nat) (s : State) :
    Foot [.mbx, .pmc, .stw] s (answer m r status ref detail s) := by
  unfold answer
  repeat' (first
    | with_reducible exact Foot.refl | with_reducible assumption | with_reducible apply Foot.ite
    | with_reducible apply Foot.after (respond_foot _ _ _) | with_reducible apply Foot.after (count_foot _ _)
    | exact rfl | split | dsimp only)

theorem answerInvalid_foot (m : Nat) (r : Rec) (off : Nat) (s : State) :
    Foot [.mbx, .pmc, .stw] s (answerInvalid m r off s) := by
  unfold answerInvalid
  repeat' (first
    | with_reducible exact Foot.refl | with_reducible assumption | with_reducible apply Foot.ite
    | with_reducible apply Foot.after (answer_foot _ _ _ _ _ _) | exact rfl | split | dsimp only)

theorem answerDenied_foot (m : Nat) (r : Rec) (cause : Nat) (s : State) :
    Foot [.out, .keep, .mbx, .jr, .host, .log, .pmc, .spn, .stw] s (answerDenied m r cause s) := by
  unfold answerDenied
  repeat' (first
    | with_reducible exact Foot.refl | with_reducible assumption | with_reducible apply Foot.ite
    | with_reducible apply Foot.after (answer_foot _ _ _ _ _ _)
    | with_reducible apply Foot.after (denied_foot _ _)
    | with_reducible apply Foot.after (record_foot _ _ _ _ _) | exact rfl | split | dsimp only)

theorem answerFault_foot (m : Nat) (r : Rec) (cause : Nat) (s : State) :
    Foot [.out, .keep, .mbx, .host, .log, .pmc, .spn, .stw] s (answerFault m r cause s) := by
  unfold answerFault
  repeat' (first
    | with_reducible exact Foot.refl | with_reducible assumption | with_reducible apply Foot.ite
    | with_reducible apply Foot.after (answer_foot _ _ _ _ _ _)
    | with_reducible apply Foot.after (record_foot _ _ _ _ _) | exact rfl | split | dsimp only)

theorem answerDone_foot (m : Nat) (r : Rec) (data : Bytes) (s : State) :
    Foot [.mbx, .stw] s (answerDone m r data s) := by
  unfold answerDone
  repeat' (first
    | with_reducible exact Foot.refl | with_reducible assumption | with_reducible apply Foot.ite
    | with_reducible apply Foot.after (respond_foot _ _ _) | exact rfl | split | dsimp only)

theorem query_foot (m : Nat) (r : Rec) (s : State) :
    Foot [.free, .mbx, .jr, .pmc, .ket, .afe, .stw] s (query m r s) := by
  unfold query
  repeat' (first
    | with_reducible exact Foot.refl | with_reducible assumption | with_reducible apply Foot.ite
    | with_reducible apply Foot.after (answerDone_foot _ _ _ _)
    | with_reducible apply Foot.after (issueNonce_foot _ _)
    | with_reducible refine Foot.then ?_ (Foot.of_eq (issueNonce_foot _ _) (by assumption)) ?_
    | with_reducible apply Foot.after (pmcReadClear_foot _ _)
    | with_reducible apply Foot.after (sensorQuery_foot _ _ _ _)
    | with_reducible apply Foot.after (respond_foot _ _ _) | exact rfl | split | dsimp only)

theorem serve_foot (m : Nat) (i : OpInfo) (r : Rec) (s : State) :
    Foot [.free, .out, .keep, .mbx, .jr, .stg, .host, .log, .pmc, .spn, .lv, .ket, .afe, .stw] s (serve m i r s) := by
  unfold serve
  repeat' (first
    | with_reducible exact Foot.refl | with_reducible assumption | with_reducible apply Foot.ite
    | with_reducible apply Foot.after (query_foot _ _ _)
    | with_reducible apply Foot.after (answerInvalid_foot _ _ _ _)
    | with_reducible apply Foot.after (answer_foot _ _ _ _ _ _)
    | with_reducible apply Foot.after (objectStage_foot _ _ _ _ _)
    | with_reducible apply Foot.after (denied_foot _ _)
    | with_reducible apply Foot.after (leaveReturn_foot _ _ _ _)
    | with_reducible apply Foot.after (leaveRequest_foot _ _ _ _) | exact rfl | split | dsimp only)

theorem writeFailed_foot (m : Nat) (r : Rec) (s : State) :
    Foot [.out, .keep, .mbx, .jr, .host, .log, .pmc, .spn, .pair, .stw] s (writeFailed m r s) := by
  unfold writeFailed
  repeat' (first
    | with_reducible exact Foot.refl | with_reducible assumption | with_reducible apply Foot.ite
    | with_reducible apply Foot.after (answerFault_foot _ _ _ _)
    | with_reducible apply Foot.after (event_foot _ _ _ _ _ _) | with_reducible apply Foot.onJr
    | with_reducible apply Foot.onPair | exact rfl | exact .inl rfl | with_reducible exact .inr rfl
    | with_reducible exact .inr (.inl rfl) | with_reducible exact .inr ⟨rfl, rfl⟩ | exact .inr rfl
    | exact .inr (.inl rfl) | exact .inr ⟨rfl, rfl⟩ | with_reducible exact .inr id | exact .inr id
    | exact .inr fun _ => rfl | split | dsimp only)

theorem journal_foot (m : Nat) (r : Rec) (s : State) :
    Foot [.out, .keep, .mbx, .jr, .host, .pmc, .spn, .stw] s (journal m r s) := by
  unfold journal
  repeat' (first
    | with_reducible exact Foot.refl | with_reducible assumption | with_reducible apply Foot.ite
    | with_reducible apply Foot.after (accepted_foot _ _) | with_reducible apply Foot.after (mirror_foot _ _)
    | with_reducible apply Foot.after (sendPair_foot _ _) | with_reducible apply Foot.after (count_foot _ _)
    | with_reducible apply Foot.onJr | exact rfl | exact .inl rfl | with_reducible exact .inr rfl
    | with_reducible exact .inr (.inl rfl) | with_reducible exact .inr ⟨rfl, rfl⟩ | exact .inr rfl
    | exact .inr (.inl rfl) | exact .inr ⟨rfl, rfl⟩ | with_reducible exact .inr id | exact .inr id | split
    | dsimp only)

theorem answerBusy_foot (m : Nat) (r : Rec) (status : Byte) (s : State) :
    Foot [.free, .mbx, .pmc, .stw] s (answerBusy m r status s) := by
  unfold answerBusy
  repeat' (first
    | with_reducible exact Foot.refl | with_reducible assumption | with_reducible apply Foot.ite
    | with_reducible apply Foot.after (answer_foot _ _ _ _ _ _) | with_reducible apply Foot.after (draw_foot _)
    | with_reducible refine Foot.then ?_ (Foot.of_eq (draw_foot _) (by assumption)) ?_ | exact rfl | split
    | dsimp only)

theorem enter_foot (m : Nat) (jok : Bool) (r : Rec) (s : State) :
    Foot [.free, .out, .keep, .mbx, .jr, .host, .log, .pmc, .spn, .pair, .lv, .stw, .core] s (enter m jok r s) := by
  unfold enter
  repeat' (first
    | with_reducible exact Foot.refl | with_reducible assumption | with_reducible apply Foot.ite
    | with_reducible apply Foot.after (answerBusy_foot _ _ _ _)
    | with_reducible apply Foot.after (journal_foot _ _ _)
    | with_reducible apply Foot.after (writeFailed_foot _ _ _)
    | with_reducible apply Foot.after (answerFault_foot _ _ _ _)
    | with_reducible apply Foot.after (answer_foot _ _ _ _ _ _)
    | with_reducible apply Foot.after (capdnRevoke_foot _ _ _) | exact rfl | split | dsimp only)

theorem duplicate_foot (m : Nat) (jok : Bool) (r : Rec) (e : JEntry) (s : State) :
    Foot [.out, .keep, .mbx, .jr, .host, .log, .pmc, .spn, .stw] s (duplicate m jok r e s) := by
  unfold duplicate
  repeat' (first
    | with_reducible exact Foot.refl | with_reducible assumption | with_reducible apply Foot.ite
    | with_reducible apply Foot.after (answerInvalid_foot _ _ _ _)
    | with_reducible apply Foot.after (dupPending_foot _ _ _)
    | with_reducible apply Foot.after (onEntry_foot _ _ _)
    | with_reducible apply Foot.after (respond_foot _ _ _)
    | with_reducible apply Foot.after (record_foot _ _ _ _ _)
    | with_reducible apply Foot.after (count_foot _ _) | with_reducible apply Foot.onJr | exact rfl
    | exact .inl rfl | with_reducible exact .inr rfl | with_reducible exact .inr (.inl rfl)
    | with_reducible exact .inr ⟨rfl, rfl⟩ | exact .inr rfl | exact .inr (.inl rfl) | exact .inr ⟨rfl, rfl⟩
    | with_reducible exact .inr id | exact .inr id | split | dsimp only)

theorem judge_foot (m : Nat) (jok : Bool) (i : OpInfo) (r : Rec) (s : State) :
    Foot [.free, .out, .keep, .mbx, .jr, .host, .log, .pmc, .spn, .pair, .lv, .stw, .core] s (judge m jok i r s) := by
  unfold judge
  repeat' (first
    | with_reducible exact Foot.refl | with_reducible assumption | with_reducible apply Foot.ite
    | with_reducible apply Foot.after (duplicate_foot _ _ _ _ _)
    | with_reducible apply Foot.after (enter_foot _ _ _ _)
    | with_reducible apply Foot.after (answerDenied_foot _ _ _ _)
    | with_reducible apply Foot.after (answerInvalid_foot _ _ _ _) | exact rfl | split | dsimp only)

theorem receive_foot (m : Nat) (jok : Bool) (r : Rec) (s : State) :
    Foot [.free, .out, .keep, .mbx, .jr, .stg, .host, .log, .pmc, .spn, .pair, .lv, .ket, .afe, .stw, .core]
      s (receive m jok r s) := by
  unfold receive
  repeat' (first
    | with_reducible exact Foot.refl | with_reducible assumption | with_reducible apply Foot.ite
    | with_reducible apply Foot.after (judge_foot _ _ _ _ _)
    | with_reducible apply Foot.after (serve_foot _ _ _ _)
    | with_reducible apply Foot.after (answerInvalid_foot _ _ _ _) | exact rfl | split | dsimp only)

theorem clearBusy_foot (m : Nat) (s : State) :
    Foot [.out, .mbx, .host] s (clearBusy m s) := by
  unfold clearBusy
  repeat' (first
    | with_reducible exact Foot.refl | with_reducible assumption | with_reducible apply Foot.ite
    | with_reducible apply Foot.after (onBox_foot _ _ _ ?_) | with_reducible exact fun _ h => h
    | with_reducible exact fun _ h => ⟨Mem.wf_writeN h.1 _ _, h.2⟩
    | with_reducible exact fun _ h => ⟨h.1, Mem.wf_writeN h.2 _ _⟩
    | with_reducible exact fun _ h => ⟨Mem.wf_writeN rfl _ _, h.2⟩
    | with_reducible apply Foot.after (msix_foot _ _) | exact rfl | split | dsimp only)

theorem doMbxCopyOut_foot (m : Nat) (jok : Bool) (s : State) :
    Foot [.free, .out, .keep, .mbx, .jr, .stg, .host, .log, .pmc, .spn, .pair, .lv, .ket, .afe, .stw, .core]
      s (doMbxCopyOut m jok s) := by
  unfold doMbxCopyOut
  repeat' (first
    | with_reducible exact Foot.refl | with_reducible assumption | with_reducible apply Foot.ite
    | with_reducible apply Foot.after (clearBusy_foot _ _)
    | with_reducible apply Foot.after (receive_foot _ _ _ _)
    | with_reducible apply Foot.after (writeAll_foot _ _) | exact rfl | split | dsimp only)

theorem arrive_foot (op : Half) (h : Hdr) (body : Bytes) (s : State) :
    Foot [.free, .out, .keep, .mbx, .jr, .stg, .host, .log, .pmc, .spn, .pair, .lv, .ket, .afe, .stw, .core]
      s (arrive op h body s) := by
  unfold arrive
  repeat' (first
    | with_reducible exact Foot.refl | with_reducible assumption | with_reducible apply Foot.ite
    | with_reducible apply Foot.after (clearBusy_foot _ _)
    | with_reducible apply Foot.after (receive_foot _ _ _ _)
    | with_reducible apply Foot.after (writeAll_foot _ _)
    | with_reducible apply Foot.after (onBox_foot _ _ _ ?_) | with_reducible exact fun _ h => h
    | with_reducible exact fun _ h => ⟨Mem.wf_writeN h.1 _ _, h.2⟩
    | with_reducible exact fun _ h => ⟨h.1, Mem.wf_writeN h.2 _ _⟩
    | with_reducible exact fun _ h => ⟨Mem.wf_writeN rfl _ _, h.2⟩
    | with_reducible apply Foot.after (countRise_foot _ _) | with_reducible apply Foot.after (count_foot _ _)
    | exact rfl | split | dsimp only)

end Sys2Proof.Machine
end

