-- ==== Sys2Proof/Laws/FootCommands.lean ====
section
/-! SUPPORT. Laws/FootCommands.lean: the footprint of each operation of Machine/Commands.lean. -/

set_option linter.unusedTactic false
set_option linter.unreachableTactic false
set_option linter.unusedVariables false

namespace Sys2Proof.Machine

theorem applyFx_foot (op : Nat) (e : JEntry) (s : State) :
    Foot [.free, .out, .keep, .cat, .otp, .kt, .mbx, .jr, .stg, .host, .log, .pmc, .spn, .pair, .lv, .ket, .afe,
      .drv, .can, .qre, .ep, .pln, .stw, .core, .ten, .tripFall, .keys, .budget]
      s (applyFx op e s) := by
  unfold applyFx
  repeat' (first
    | with_reducible exact Foot.refl | with_reducible assumption | with_reducible apply Foot.ite
    | with_reducible apply Foot.after (fxSpineConfig_foot _ _)
    | with_reducible apply Foot.after (fxSwitchBack_foot _ _)
    | with_reducible apply Foot.after (fxPairSync_foot _ _)
    | with_reducible apply Foot.after (fxTlsSet_foot _ _)
    | with_reducible apply Foot.after (fxWakeConfig_foot _ _)
    | with_reducible apply Foot.after (fxReset_foot _ _)
    | with_reducible apply Foot.after (fxRollback_foot _ _)
    | with_reducible apply Foot.after (fxKeyRevoke_foot _ _)
    | with_reducible apply Foot.after (fxKeySet_foot _ _)
    | with_reducible apply Foot.after (fxPmcConfig_foot _ _)
    | with_reducible apply Foot.after (fxLogClear_foot _ _)
    | with_reducible apply Foot.after (fxLogFreeze_foot _ _)
    | with_reducible apply Foot.after (fxRegionSet_foot _ _)
    | with_reducible apply Foot.after (fxSetpoint_foot _ _)
    | with_reducible apply Foot.after (fxSpill_foot _ _)
    | with_reducible apply Foot.after (fxModelLoad_foot _ _)
    | with_reducible apply Foot.after (fxConfigEpoch_foot _ _)
    | with_reducible apply Foot.after (fxActuatorConfig_foot _ _)
    | with_reducible apply Foot.after (fxCanConfig_foot _ _)
    | with_reducible apply Foot.after (fxBelow_foot _ _)
    | with_reducible apply Foot.after (fxKeeperTable_foot _ _)
    | with_reducible apply Foot.after (fxAfeConfig_foot _ _)
    | with_reducible apply Foot.after (fxTripProof_foot _ _)
    | with_reducible apply Foot.after (fxRouteSet_foot _ _)
    | with_reducible apply Foot.after (fxLeakMask_foot _ _)
    | with_reducible apply Foot.after (fxTripRelease_foot _ _)
    | with_reducible apply Foot.after (fxTagWrite_foot _ _)
    | with_reducible apply Foot.after (fxRebind_foot _ _)
    | with_reducible apply Foot.after (fxGoldenStore_foot _ _)
    | with_reducible apply Foot.after (fxStaggerSet_foot _ _)
    | with_reducible apply Foot.after (fxRowShareSet_foot _ _)
    | with_reducible apply Foot.after (fxRowBudgetSet_foot _ _)
    | with_reducible apply Foot.after (fxBudgetSet_foot _ _)
    | with_reducible apply Foot.after (fxHoldSet_foot _ _)
    | with_reducible apply Foot.after (fxPermitSet_foot _ _)
    | with_reducible apply Foot.after (fxTrayCapSet_foot _ _)
    | with_reducible apply Foot.after (fxTrayStop_foot _ _)
    | with_reducible apply Foot.after (fxTrayStart_foot _ _) | exact rfl | split | dsimp only)

theorem countReplay_foot (e : JEntry) (s : State) :
    Foot [.out, .jr, .pmc, .spn] s (countReplay e s) := by
  unfold countReplay
  repeat' (first
    | with_reducible exact Foot.refl | with_reducible assumption | with_reducible apply Foot.ite
    | with_reducible apply Foot.after (onEntry_foot _ _ _)
    | with_reducible apply Foot.after (sendPair_foot _ _) | exact rfl | split | dsimp only)

theorem effect_foot (e : JEntry) (s : State) :
    Foot [.free, .out, .keep, .cat, .otp, .kt, .mbx, .jr, .stg, .host, .log, .pmc, .spn, .pair, .lv, .ket, .afe,
      .drv, .can, .qre, .ep, .pln, .stw, .core, .ten, .tripFall, .keys, .budget]
      s (effect e s) := by
  unfold effect
  repeat' (first
    | with_reducible exact Foot.refl | with_reducible assumption | with_reducible apply Foot.ite
    | with_reducible apply Foot.after (countReplay_foot _ _)
    | with_reducible apply Foot.after (applyFx_foot _ _ _)
    | with_reducible apply Foot.after (lostEntry_foot _ _)
    | with_reducible apply Foot.after (finish0_foot _ _ _)
    | with_reducible apply Foot.after (onEntry_foot _ _ _) | exact rfl | split | dsimp only)

theorem doCommandEffect_foot (s : State) :
    Foot [.free, .out, .keep, .cat, .otp, .kt, .mbx, .jr, .stg, .host, .log, .pmc, .spn, .pair, .lv, .ket, .afe,
      .drv, .can, .qre, .ep, .pln, .stw, .core, .ten, .tripFall, .keys, .budget]
      s (doCommandEffect s) := by
  unfold doCommandEffect
  repeat' (first
    | with_reducible exact Foot.refl | with_reducible assumption | with_reducible apply Foot.ite
    | with_reducible apply Foot.after (effect_foot _ _) | exact rfl | split | dsimp only)

theorem judgeAgain_foot (ds : List DupWait) (s : State) :
    Foot [.free, .out, .keep, .mbx, .jr, .stg, .host, .log, .pmc, .spn, .pair, .lv, .ket, .afe, .stw, .core]
      s (judgeAgain ds s) := by
  unfold judgeAgain
  repeat' (first
    | with_reducible exact Foot.refl | with_reducible assumption | with_reducible apply Foot.ite
    | with_reducible refine Foot.foldl ?_ fun v a hv => ?_
    | with_reducible apply Foot.after (receive_foot _ _ _ _) | exact rfl | split | dsimp only)

theorem dropPartner_foot (s : State) :
    Foot [.out, .keep, .cat, .mbx, .jr, .stg, .host, .log, .pmc, .spn, .pair, .lv, .stw, .core, .ten]
      s (dropPartner s) := by
  unfold dropPartner
  repeat' (first
    | with_reducible exact Foot.refl | with_reducible assumption | with_reducible apply Foot.ite
    | with_reducible apply Foot.after (losePartner_foot _ _) | exact rfl | split | dsimp only)

theorem doMirrorTimeout_foot (j : Nat) (s : State) :
    Foot [.now, .free, .out, .keep, .cat, .mbx, .jr, .stg, .host, .log, .pmc, .spn, .pair, .lv, .ket, .afe, .stw,
      .core, .ten]
      s (doMirrorTimeout j s) := by
  unfold doMirrorTimeout
  repeat' (first
    | with_reducible exact Foot.refl | with_reducible assumption | with_reducible apply Foot.ite
    | with_reducible apply Foot.after (dropPartner_foot _)
    | with_reducible apply Foot.after (judgeAgain_foot _ _)
    | with_reducible apply Foot.after (answerFault_foot _ _ _ _)
    | with_reducible apply Foot.after (setDone_foot _ _) | with_reducible apply Foot.after (reach_foot _ _)
    | with_reducible apply Foot.onJr | exact rfl | exact .inl rfl | with_reducible exact .inr rfl
    | with_reducible exact .inr (.inl rfl) | with_reducible exact .inr ⟨rfl, rfl⟩ | exact .inr rfl
    | exact .inr (.inl rfl) | exact .inr ⟨rfl, rfl⟩ | with_reducible exact .inr id | exact .inr id | split
    | dsimp only)

theorem refuseAgent_foot (t : Nat) (r : Rec) (off : Nat) (s : State) :
    Foot [.pmc, .stw] s (refuseAgent t r off s) := by
  unfold refuseAgent
  repeat' (first
    | with_reducible exact Foot.refl | with_reducible assumption | with_reducible apply Foot.ite
    | with_reducible apply Foot.after (onAgent_foot _ _ _) | with_reducible apply Foot.after (count_foot _ _)
    | exact rfl | split | dsimp only)

theorem agentRecord_foot (t : Nat) (data : Bytes) (s : State) :
    Foot [.free, .out, .keep, .mbx, .jr, .stg, .host, .log, .pmc, .spn, .pair, .lv, .ket, .afe, .stw, .core]
      s (agentRecord t data s) := by
  unfold agentRecord
  repeat' (first
    | with_reducible exact Foot.refl | with_reducible assumption | with_reducible apply Foot.ite
    | with_reducible apply Foot.after (refuseAgent_foot _ _ _ _)
    | with_reducible apply Foot.after (receive_foot _ _ _ _)
    | with_reducible apply Foot.after (onBox_foot _ _ _ ?_) | with_reducible exact fun _ h => h
    | with_reducible exact fun _ h => ⟨Mem.wf_writeN h.1 _ _, h.2⟩
    | with_reducible exact fun _ h => ⟨h.1, Mem.wf_writeN h.2 _ _⟩
    | with_reducible exact fun _ h => ⟨Mem.wf_writeN rfl _ _, h.2⟩
    | with_reducible apply Foot.after (count_foot _ _) | exact rfl | exact fun _ _ => Mem.wf_writeN rfl _ _
    | split | dsimp only)

theorem doI3cIbi_foot (t mdb : Nat) (data : Bytes) (s : State) :
    Foot [.free, .out, .keep, .mbx, .jr, .stg, .host, .log, .pmc, .spn, .pair, .lv, .ket, .afe, .stw, .core]
      s (doI3cIbi t mdb data s) := by
  unfold doI3cIbi
  repeat' (first
    | with_reducible exact Foot.refl | with_reducible assumption | with_reducible apply Foot.ite
    | with_reducible apply Foot.after (agentRecord_foot _ _ _)
    | with_reducible apply Foot.after (readDesc_foot _ _ _) | with_reducible apply Foot.after (count_foot _ _)
    | exact rfl | split | dsimp only)

end Sys2Proof.Machine
end

