-- ==== Sys2Proof/Laws/FootStart.lean ====
section
/-! SUPPORT. Laws/FootStart.lean: the footprint of each operation of Machine/Start.lean. -/

set_option linter.unusedTactic false
set_option linter.unreachableTactic false
set_option linter.unusedVariables false

namespace Sys2Proof.Machine

theorem replayJournal_foot (held torn : List Nat) (s : State) :
    Foot [.jr] s (replayJournal held torn s) := by
  unfold replayJournal
  repeat' (first
    | with_reducible exact Foot.refl | with_reducible assumption | with_reducible apply Foot.ite
    | with_reducible refine Foot.foldl ?_ fun v a hv => ?_ | with_reducible apply Foot.onJr | exact rfl
    | exact .inl rfl | with_reducible exact .inr rfl | with_reducible exact .inr (.inl rfl)
    | with_reducible exact .inr ⟨rfl, rfl⟩ | exact .inr rfl | exact .inr (.inl rfl) | exact .inr ⟨rfl, rfl⟩
    | with_reducible exact .inr id | exact .inr id | split | dsimp only)

theorem publishKeeper_foot (s : State) :
    Foot [.out, .kt, .host, .pmc] s (publishKeeper s) := by
  unfold publishKeeper
  repeat' (first
    | with_reducible exact Foot.refl | with_reducible assumption | with_reducible apply Foot.ite
    | with_reducible refine Foot.foldl ?_ fun v a hv => ?_
    | with_reducible apply Foot.after (ringEvent_foot _ _) | with_reducible apply Foot.onKt | exact rfl
    | exact .inl rfl | with_reducible exact .inr rfl | with_reducible exact .inr (.inl rfl)
    | with_reducible exact .inr ⟨rfl, rfl⟩ | exact .inr rfl | exact .inr (.inl rfl) | exact .inr ⟨rfl, rfl⟩
    | split | dsimp only)

theorem startClocks_foot (s : State) :
    Foot [.log, .pair, .lv] s (startClocks s) := by
  unfold startClocks
  repeat' (first
    | with_reducible exact Foot.refl | with_reducible assumption | with_reducible apply Foot.ite
    | with_reducible apply Foot.onLog | with_reducible apply Foot.onPair | with_reducible apply Foot.onLv
    | exact rfl | split | dsimp only)

theorem doFirmwareRunning_foot (held torn : List Nat) (s : State) :
    Foot [.out, .keep, .cat, .kt, .boot, .jr, .host, .log, .pmc, .spn, .pair, .lv, .afe, .can, .pln, .stw, .core,
      .ten, .capdnFall]
      s (doFirmwareRunning held torn s) := by
  unfold doFirmwareRunning
  repeat' (first
    | with_reducible exact Foot.refl | with_reducible assumption | with_reducible apply Foot.ite
    | with_reducible apply Foot.after (startClocks_foot _)
    | with_reducible apply Foot.after (publishKeeper_foot _)
    | with_reducible apply Foot.after (replayJournal_foot _ _ _)
    | with_reducible apply Foot.after (startShadow_foot _) | with_reducible apply Foot.after (startLead_foot _)
    | with_reducible apply Foot.after (startPlanner_foot _)
    | with_reducible apply Foot.after (flushNotes_foot _) | with_reducible apply Foot.after (loadStored_foot _)
    | with_reducible apply Foot.after (setBoot_foot _ _)
    | with_reducible apply Foot.after (bareEvent_foot _ _ _ _ _) | with_reducible apply Foot.onBoot
    | with_reducible apply Foot.onPmc | with_reducible apply Foot.onPair | exact rfl | with_reducible exact id
    | exact fun _ => rfl | exact id | exact fun h => Mem.wf_writeN h _ _ | split | dsimp only)

theorem askAgain_foot (w : LeaveWait) (s : State) :
    Foot [.out, .keep, .pwr, .host, .log, .pmc, .spn, .lv, .drv, .pln, .stw] s (askAgain w s) := by
  unfold askAgain
  repeat' (first
    | with_reducible exact Foot.refl | with_reducible assumption | with_reducible apply Foot.ite
    | with_reducible apply Foot.after (restoreAgain_foot _ _)
    | with_reducible apply Foot.after (plannerRetry_foot _ _)
    | with_reducible apply Foot.after (askRestart_foot _ _)
    | with_reducible apply Foot.after (askRebind_foot _ _) | with_reducible apply Foot.after (askHalf_foot _ _)
    | exact rfl | split | dsimp only)

theorem doInternalLeaveRetry_foot (id : Nat) (s : State) :
    Foot [.now, .out, .keep, .pwr, .host, .log, .pmc, .spn, .lv, .drv, .pln, .stw] s (doInternalLeaveRetry id s) := by
  unfold doInternalLeaveRetry
  repeat' (first
    | with_reducible exact Foot.refl | with_reducible assumption | with_reducible apply Foot.ite
    | with_reducible apply Foot.after (askAgain_foot _ _) | with_reducible apply Foot.after (reach_foot _ _)
    | with_reducible apply Foot.onLv | exact rfl | split | dsimp only)

theorem doSummarySample_foot (s : State) :
    Foot [.now, .log, .pmc] s (doSummarySample s) := by
  unfold doSummarySample
  repeat' (first
    | with_reducible exact Foot.refl | with_reducible assumption | with_reducible apply Foot.ite
    | with_reducible refine Foot.foldl ?_ fun v a hv => ?_ | with_reducible apply Foot.after (reach_foot _ _)
    | with_reducible apply Foot.onLog | exact rfl | split | dsimp only)

theorem doSummaryWrite_foot (s : State) :
    Foot [.now, .out, .keep, .host, .log, .pmc] s (doSummaryWrite s) := by
  unfold doSummaryWrite
  repeat' (first
    | with_reducible exact Foot.refl | with_reducible assumption | with_reducible apply Foot.ite
    | with_reducible refine Foot.foldl ?_ fun v a hv => ?_
    | with_reducible apply Foot.after (addFolio_foot _ _) | with_reducible apply Foot.after (reach_foot _ _)
    | with_reducible apply Foot.onLog | exact rfl | split | dsimp only)

end Sys2Proof.Machine
end

