-- ==== Sys2Proof/Laws/FootCycle.lean ====
section
/-! SUPPORT. Laws/FootCycle.lean: the footprint of each operation of Machine/Cycle.lean. -/

set_option linter.unusedTactic false
set_option linter.unreachableTactic false
set_option linter.unusedVariables false

namespace Sys2Proof.Machine

theorem enterTick_foot (s : State) :
    Foot [.now, .out, .keep, .mbx, .jr, .stg, .host, .log, .pmc, .spn, .pair, .lv, .ep, .stw] s (enterTick s) := by
  unfold enterTick
  repeat' (first
    | with_reducible exact Foot.refl | with_reducible assumption | with_reducible apply Foot.ite
    | with_reducible apply Foot.after (applyShares_foot _) | with_reducible apply Foot.after (tick_foot _)
    | with_reducible apply Foot.after (event_foot _ _ _ _ _ _)
    | with_reducible apply Foot.after (count_foot _ _) | with_reducible apply Foot.after (reach_foot _ _)
    | with_reducible apply Foot.onSpn | with_reducible apply Foot.onLv | with_reducible apply Foot.onEp
    | exact rfl | split | dsimp only)

theorem countCold_foot (s : State) :
    Foot [.ep] s (countCold s).2 := by
  unfold countCold
  repeat' (first
    | with_reducible exact Foot.refl | with_reducible assumption | with_reducible apply Foot.ite
    | with_reducible apply Foot.onEp | exact rfl | split | dsimp only)

theorem switchTables_foot (s : State) :
    Foot [.now, .out, .keep, .host, .log, .pmc, .spn, .lv, .ep, .pln] s (switchTables s).2 := by
  unfold switchTables
  repeat' (first
    | with_reducible exact Foot.refl | with_reducible assumption | with_reducible apply Foot.ite
    | with_reducible apply Foot.after (countCold_foot _)
    | with_reducible refine Foot.then ?_ (Foot.of_eq (countCold_foot _) (by assumption)) ?_
    | with_reducible apply Foot.after (takeHarbours_foot _ _)
    | with_reducible refine Foot.then ?_ (Foot.of_eq (takeHarbours_foot _ _) (by assumption)) ?_
    | with_reducible apply Foot.after (count_foot _ _) | with_reducible apply Foot.onLv | exact rfl | split
    | dsimp only)

theorem tickQueue_foot (s : State) :
    Foot [.out, .keep, .host, .log, .pmc, .spn, .lv] s (tickQueue s) := by
  unfold tickQueue
  repeat' (first
    | with_reducible exact Foot.refl | with_reducible assumption | with_reducible apply Foot.ite
    | with_reducible refine Foot.foldl ?_ fun v a hv => ?_ | with_reducible apply Foot.after (checkOver_foot _)
    | with_reducible apply Foot.after (queueResume_foot _ _) | with_reducible apply Foot.onLv | exact rfl
    | split | dsimp only)

theorem takeSnapshot_foot (s : State) :
    Foot [.out, .keep, .kt, .mbx, .jr, .stg, .host, .log, .pmc, .spn, .pair, .lv, .afe, .drv, .can, .qre, .mem,
      .ep, .pln, .stw]
      s (takeSnapshot s) := by
  unfold takeSnapshot
  repeat' (first
    | with_reducible exact Foot.refl | with_reducible assumption | with_reducible apply Foot.ite
    | with_reducible apply Foot.after (replan_foot _) | with_reducible apply Foot.after (canTaken_foot _)
    | with_reducible apply Foot.after (canTick_foot _ _) | with_reducible apply Foot.after (applyTables_foot _)
    | with_reducible apply Foot.after (applyAfe_foot _) | with_reducible apply Foot.after (adoptAll_foot _)
    | with_reducible apply Foot.after (storeSnap_foot _) | with_reducible apply Foot.after (sendPair_foot _ _)
    | with_reducible apply Foot.onEp | exact rfl | split | dsimp only)

theorem tickQuires_foot (s : State) :
    Foot [.now, .out, .keep, .pwr, .otp, .kt, .mbx, .jr, .stg, .host, .log, .pmc, .spn, .pair, .lv, .ket, .qre,
      .ep, .stw, .core, .ten, .route]
      s (tickQuires s) := by
  unfold tickQuires
  repeat' (first
    | with_reducible exact Foot.refl | with_reducible assumption | with_reducible apply Foot.ite
    | with_reducible apply Foot.after (tickCores_foot _ _)
    | with_reducible apply Foot.after (borrowTick_foot _)
    | with_reducible apply Foot.after (switchVariants_foot _)
    | with_reducible apply Foot.after (beginLoad_foot _)
    | with_reducible apply Foot.after (restartPrograms_foot _)
    | with_reducible apply Foot.after (changeEpoch_foot _ _) | with_reducible apply Foot.onSpn
    | with_reducible apply Foot.onEp | exact rfl | split | dsimp only)

theorem tickCkpt_foot (s : State) :
    Foot [.out, .keep, .host, .log, .pmc, .spn, .ep] s (tickCkpt s) := by
  unfold tickCkpt
  repeat' (first
    | with_reducible exact Foot.refl | with_reducible assumption | with_reducible apply Foot.ite
    | with_reducible apply Foot.after (event_foot _ _ _ _ _ _) | with_reducible apply Foot.onEp | exact rfl
    | split | dsimp only)

theorem newCycle_foot (s : State) :
    Foot [.ep] s (newCycle s) := by
  unfold newCycle
  repeat' (first
    | with_reducible exact Foot.refl | with_reducible assumption | with_reducible apply Foot.ite
    | with_reducible apply Foot.onEp | exact rfl | split | dsimp only)

theorem sendDemand_foot (s : State) :
    Foot [.out, .pmc, .spn, .lv] s (sendDemand s) := by
  unfold sendDemand
  repeat' (first
    | with_reducible exact Foot.refl | with_reducible assumption | with_reducible apply Foot.ite
    | with_reducible apply Foot.after (enterDemand_foot _ _)
    | with_reducible apply Foot.after (sendSpine_foot _ _ _) | exact rfl | split | dsimp only)

theorem noteShare_foot (pos w : Nat) (s : State) :
    Foot [.out, .pmc, .spn, .lv] s (noteShare pos w s) := by
  unfold noteShare
  repeat' (first
    | with_reducible exact Foot.refl | with_reducible assumption | with_reducible apply Foot.ite
    | with_reducible apply Foot.after (tellPartner_foot _ _) | with_reducible apply Foot.onLv | exact rfl
    | split | dsimp only)

theorem sendShare_foot (pos w : Nat) (s : State) :
    Foot [.out, .mbx, .pmc, .spn, .lv] s (sendShare pos w s) := by
  unfold sendShare
  repeat' (first
    | with_reducible exact Foot.refl | with_reducible assumption | with_reducible apply Foot.ite
    | with_reducible apply Foot.after (noteShare_foot _ _ _)
    | with_reducible apply Foot.after (masterSend_foot _ _ _ _)
    | with_reducible apply Foot.after (onBox_foot _ _ _ ?_) | with_reducible exact fun _ h => h
    | with_reducible exact fun _ h => ⟨Mem.wf_writeN h.1 _ _, h.2⟩
    | with_reducible exact fun _ h => ⟨h.1, Mem.wf_writeN h.2 _ _⟩
    | with_reducible exact fun _ h => ⟨Mem.wf_writeN rfl _ _, h.2⟩
    | with_reducible apply Foot.after (count_foot _ _) | with_reducible apply Foot.onSpn | exact rfl
    | with_reducible exact fun _ _ => Mem.wf_writeN rfl _ _ | split | dsimp only)

theorem tickBroker_foot (s : State) :
    Foot [.out, .mbx, .pmc, .spn, .lv] s (tickBroker s) := by
  unfold tickBroker
  repeat' (first
    | with_reducible exact Foot.refl | with_reducible assumption | with_reducible apply Foot.ite
    | with_reducible refine Foot.foldl ?_ fun v a hv => ?_
    | with_reducible apply Foot.after (sendShare_foot _ _ _) | exact rfl | split | dsimp only)

theorem tickSwitch_foot (s : State) :
    Foot [.out, .keep, .cat, .kt, .mbx, .jr, .stg, .host, .log, .pmc, .spn, .pair, .lv, .ket, .afe, .drv, .can,
      .ep, .pln, .stw, .core, .ten, .capdnFall, .role]
      s (tickSwitch s) := by
  unfold tickSwitch
  repeat' (first
    | with_reducible exact Foot.refl | with_reducible assumption | with_reducible apply Foot.ite
    | with_reducible apply Foot.after (takeover_foot _ _ _)
    | with_reducible apply Foot.after (sendPair_foot _ _) | with_reducible apply Foot.onPair | exact rfl
    | split | dsimp only)

theorem tickSilent_foot (s : State) :
    Foot [.pair] s (tickSilent s) := by
  unfold tickSilent
  repeat' (first
    | with_reducible exact Foot.refl | with_reducible assumption | with_reducible apply Foot.ite
    | with_reducible apply Foot.onPair | exact rfl | split | dsimp only)

theorem tickDigest_foot (s : State) :
    Foot [.out, .keep, .host, .log, .pmc, .spn, .pair] s (tickDigest s) := by
  unfold tickDigest
  repeat' (first
    | with_reducible exact Foot.refl | with_reducible assumption | with_reducible apply Foot.ite
    | with_reducible apply Foot.after (compareModel_foot _) | with_reducible apply Foot.onPair | exact rfl
    | split | dsimp only)

theorem tickPass_foot (urgent : Bool) (s : State) :
    Foot [.out, .keep, .host, .log, .pmc, .spn, .pln] s (tickPass urgent s) := by
  unfold tickPass
  repeat' (first
    | with_reducible exact Foot.refl | with_reducible assumption | with_reducible apply Foot.ite
    | with_reducible apply Foot.after (beginPass_foot _) | with_reducible apply Foot.after (checkStale_foot _)
    | with_reducible apply Foot.onPln | exact rfl | split | dsimp only)

theorem doCycleTick_foot (s : State) :
    Foot [.now, .out, .keep, .cat, .pwr, .otp, .kt, .mbx, .jr, .stg, .host, .log, .pmc, .spn, .pair, .lv, .ket,
      .afe, .drv, .can, .qre, .mem, .ep, .pln, .stw, .core, .ten, .capdnFall, .route, .role]
      s (doCycleTick s) := by
  unfold doCycleTick
  repeat' (first
    | with_reducible exact Foot.refl | with_reducible assumption | with_reducible apply Foot.ite
    | with_reducible apply Foot.after (tickPass_foot _ _) | with_reducible apply Foot.after (tickDigest_foot _)
    | with_reducible apply Foot.after (tickSilent_foot _) | with_reducible apply Foot.after (tickSwitch_foot _)
    | with_reducible apply Foot.after (tickBroker_foot _) | with_reducible apply Foot.after (sendDemand_foot _)
    | with_reducible apply Foot.after (newCycle_foot _) | with_reducible apply Foot.after (tickCkpt_foot _)
    | with_reducible apply Foot.after (tickQuires_foot _)
    | with_reducible apply Foot.after (takeSnapshot_foot _)
    | with_reducible apply Foot.after (tickQueue_foot _)
    | with_reducible apply Foot.after (switchTables_foot _)
    | with_reducible refine Foot.then ?_ (Foot.of_eq (switchTables_foot _) (by assumption)) ?_
    | with_reducible apply Foot.after (enterTick_foot _) | with_reducible apply Foot.onLv | exact rfl | split
    | dsimp only)

end Sys2Proof.Machine
end

