-- ==== Sys2Proof/Laws/FootExec.lean ====
section
/-! SUPPORT. Laws/FootExec.lean: every command answers a next state, and what it can change in it. -/

set_option linter.unusedVariables false

namespace Sys2Proof.Machine

/-- The parts of the state that a command can change. -/
def footOf : Instr → List Fld
  | .keepPorRelease .. =>
    [.free, .out, .keep, .pwr, .kt, .host, .log, .pmc, .spn, .ket, .core, .ten, .tripFall, .route, .por]
  | .keepTableReadDone | .leakConditionClear .. =>
    [.now, .out, .keep, .cat, .mbx, .jr, .stg, .host, .log, .pmc, .spn, .pair, .lv, .ket, .stw, .core, .ten]
  | .vkeepFall =>
    [.out, .keep, .cat, .pwr, .boot, .mbx, .jr, .stg, .host, .log, .pmc, .spn, .pair, .lv, .ket, .afe, .drv, .can, .qre, .mem, .ep, .pln, .stw, .core, .por]
  | .hourMeterSave | .kxinCrystalFail | .kxinCrystalRun =>
    [.now, .keep, .pmc, .core]
  | .railLoss | .sysRstNLow | .lockstepMismatch | .xinLoss | .dieOvertemp .. =>
    [.out, .keep, .cat, .pwr, .boot, .mbx, .jr, .stg, .host, .log, .pmc, .spn, .pair, .lv, .ket, .afe, .drv, .can, .qre, .mem, .ep, .pln, .stw, .core]
  | .railsGood | .storeSwitchOn =>
    [.pwr]
  | .bindResetRelease .. =>
    [.now, .out, .keep, .pwr, .boot, .jr, .host, .log, .pmc, .spn, .storeFault]
  | .fieldPowerUp =>
    [.now, .pwr, .pmc]
  | .fieldResetRelease =>
    [.out, .keep, .pwr, .kt, .host, .log, .pmc, .spn, .afe, .drv]
  | .spnHandoffExpiry =>
    [.now, .keep, .kt, .pmc, .core, .role]
  | .binderWatchdogExpiry | .resetExecute =>
    [.now, .out, .keep, .cat, .pwr, .boot, .mbx, .jr, .stg, .host, .log, .pmc, .spn, .pair, .lv, .ket, .afe, .drv, .can, .qre, .mem, .ep, .pln, .stw, .core]
  | .xinReturn | .fclkSwitchBack =>
    [.now, .pwr, .pmc, .afe, .can]
  | .dieTempReturn .. =>
    [.now, .out, .keep, .pwr, .host, .log, .pmc, .spn]
  | .perstAssert | .registerWrite .. =>
    [.out, .keep, .boot, .mbx, .host, .log, .pmc, .spn]
  | .perstRelease | .hostLinkL0 =>
    [.out, .keep, .host]
  | .trstNAssert =>
    [.out]
  | .pcieLinkDown | .mbxBootStart .. | .mbxBootAbort | .bootDmaCompletion .. | .netbootData .. |
    .netbootCancel .. | .mgmtLinkLoss .. =>
    [.out, .keep, .boot, .host, .log, .pmc, .spn]
  | .storeReady =>
    [.pwr, .stg, .qre, .mem]
  | .storeSwitchOff =>
    [.out, .keep, .pwr, .mbx, .jr, .stg, .host, .log, .pmc, .spn, .lv, .afe, .qre, .mem, .ep, .pln, .stw]
  | .quireHalfSwitchOn .. =>
    [.out, .keep, .pwr, .host, .log, .pmc, .spn, .lv]
  | .quireHalfReady .. =>
    [.out, .keep, .pwr, .host, .log, .pmc, .spn]
  | .quireHalfSwitchOff .. =>
    [.out, .keep, .pwr, .mbx, .host, .log, .pmc, .spn, .lv, .qre, .stw]
  | .bootFailedReturn =>
    [.out, .boot]
  | .netbootSolicit =>
    [.now, .out, .boot, .pmc]
  | .netbootOffer .. =>
    [.out, .boot, .pmc]
  | .netbootRequestTimeout | .bootCheckDone .. =>
    [.now, .out, .keep, .boot, .host, .log, .pmc, .spn]
  | .netbootEligible =>
    [.now, .boot, .pmc]
  | .firmwareRunning .. =>
    [.out, .keep, .cat, .kt, .boot, .jr, .host, .log, .pmc, .spn, .pair, .lv, .afe, .can, .pln, .stw, .core, .ten, .capdnFall]
  | .binderHeartbeat =>
    [.free, .out, .keep, .host, .log, .pmc, .spn, .lv, .drv, .pln]
  | .binderSilent | .belowFloorEnd .. | .pumpStall .. | .pumpOverspeed .. =>
    [.now, .out, .keep, .mbx, .jr, .stg, .host, .log, .pmc, .spn, .pair, .drv, .stw]
  | .mbxDoorbell .. =>
    [.mbx, .pmc]
  | .mbxCopyOut .. | .seqQuery .. | .nonceGet .. | .resultGet .. | .statusGet .. | .objectStage .. |
    .leaveRequest .. | .leaveReturn .. | .leaseRead .. | .sensorRead .. | .logRead .. | .pmcRead .. |
    .inventoryRead .. | .spineHealthGet .. | .tlsKeyGet .. | .trayStart .. | .trayStop .. | .trayCapSet .. |
    .permitSet .. | .holdSet .. | .budgetSet .. | .rowBudgetSet .. | .rowShareSet .. | .staggerSet .. |
    .tripRelease .. | .leakMask .. | .kettleRouteSet .. | .tripProof .. | .keeperTableSet .. |
    .belowFloorLease .. | .setpointRequest .. | .actuatorConfig .. | .canConfig .. | .afeConfig .. |
    .configEpochSet .. | .modelLoad .. | .regionSet .. | .spillConfig .. | .rebind .. | .goldenStore .. |
    .tagWrite .. | .switchBack .. | .pairSync .. | .spineConfig .. | .logClear .. | .logFreeze .. | .pmcConfig .. |
    .keySet .. | .keyRevoke .. | .rollbackAdvance .. | .reset .. | .wakeConfig .. | .tlsSet .. | .i3cIbi .. =>
    [.free, .out, .keep, .mbx, .jr, .stg, .host, .log, .pmc, .spn, .pair, .lv, .ket, .afe, .stw, .core]
  | .mbxRspCi .. | .tlsDisconnect .. =>
    [.mbx]
  | .responseWrite .. =>
    [.out, .mbx, .host, .pmc, .spn, .stw]
  | .tlsConnect .. =>
    [.out, .mbx, .pmc, .spn]
  | .stageDmaDone .. =>
    [.free, .out, .keep, .mbx, .jr, .stg, .host, .log, .pmc, .spn, .stw]
  | .authLockoutEnd .. =>
    [.now, .jr, .pmc]
  | .trayStopDelay .. | .trayStartTimeout .. =>
    [.now, .out, .keep, .cat, .mbx, .jr, .stg, .pmc, .spn, .pair, .lv, .stw, .core, .ten]
  | .holdEnd .. =>
    [.now, .out, .keep, .mbx, .jr, .stg, .pmc, .spn, .pair, .lv, .stw, .core]
  | .tripReleaseWindowEnd =>
    [.now, .out, .keep, .mbx, .jr, .stg, .host, .log, .pmc, .spn, .pair, .ket, .stw, .tripFall]
  | .proofSourceStep .. =>
    [.now, .out, .keep, .mbx, .jr, .stg, .host, .log, .pmc, .spn, .pair, .ket, .stw]
  | .pwmParamApply .. | .pumpCurrentLoop .. | .encoderAlignDone .. =>
    [.now, .pmc, .drv]
  | .actuatorConfigTimeout .. =>
    [.now, .out, .mbx, .jr, .stg, .pmc, .spn, .pair, .can, .stw]
  | .lpddrTrainingDone .. =>
    [.out, .keep, .mbx, .jr, .stg, .host, .log, .pmc, .spn, .pair, .qre, .stw]
  | .goldenWriteDone .. | .tagWiredSwap =>
    [.out, .mbx, .jr, .stg, .pmc, .spn, .pair, .stw]
  | .tagWriteRetry | .tagInventoryWrite =>
    [.now, .pmc, .stw]
  | .tagWriteTimeout =>
    [.now, .out, .mbx, .jr, .stg, .pmc, .spn, .pair, .stw]
  | .freezeExpiry | .timeTimeout | .portInsertTimeout =>
    [.now, .out, .keep, .host, .log, .pmc, .spn]
  | .commandEffect =>
    [.free, .out, .keep, .cat, .otp, .kt, .mbx, .jr, .stg, .host, .log, .pmc, .spn, .pair, .lv, .ket, .afe, .drv, .can, .qre, .ep, .pln, .stw, .core, .ten, .tripFall, .keys, .budget]
  | .mirrorAckFrame .. | .mirrorFrame .. | .formFrame .. | .formedFrame .. | .echoFrame .. | .tripFrame .. |
    .breakFrame .. | .demandFrame .. | .relayFrame .. | .relayAckFrame .. | .laneDown .. | .lrefclkLoss =>
    [.out, .keep, .cat, .mbx, .jr, .stg, .host, .log, .pmc, .spn, .pair, .lv, .stw, .core, .ten]
  | .mirrorTimeout .. =>
    [.now, .free, .out, .keep, .cat, .mbx, .jr, .stg, .host, .log, .pmc, .spn, .pair, .lv, .ket, .afe, .stw, .core, .ten]
  | .evrCi .. | .evrDroppedRead =>
    [.host]
  | .eventBacklogDrain =>
    [.out, .host, .pmc]
  | .wakeCausePublish =>
    [.out, .keep, .host, .pmc]
  | .formSend | .echoMeasure .. | .tripMirrorSend | .relayAckSend | .relayResend =>
    [.now, .out, .pmc, .spn]
  | .censusEntrySilent .. =>
    [.now, .pmc, .spn, .lv]
  | .censusSettled | .leaveTableStale =>
    [.now, .out, .keep, .host, .log, .pmc, .spn, .lv]
  | .timeSend =>
    [.now, .out, .host, .pmc, .spn]
  | .timeFrame .. =>
    [.free, .out, .keep, .cat, .mbx, .jr, .stg, .host, .log, .pmc, .spn, .pair, .lv, .ep, .stw, .core, .ten]
  | .arcRejoin | .portInsertRetry =>
    [.now, .pmc, .spn]
  | .heartbeatSend =>
    [.now, .out, .keep, .cat, .kt, .host, .pmc, .spn, .pair, .lv, .can, .stw, .core, .ten, .capdnFall, .role]
  | .heartbeatFrame .. =>
    [.out, .keep, .cat, .kt, .mbx, .jr, .stg, .host, .log, .pmc, .spn, .pair, .lv, .ket, .afe, .drv, .can, .ep, .pln, .stw, .core, .ten, .capdnFall, .role]
  | .heartbeatMissed =>
    [.now, .out, .keep, .cat, .kt, .mbx, .jr, .stg, .host, .log, .pmc, .spn, .pair, .lv, .ket, .afe, .drv, .can, .ep, .pln, .stw, .core, .ten, .capdnFall, .role]
  | .loneCheckExpiry | .trayPoll .. | .staggerSlot | .staggerDeferRetry =>
    [.now, .out, .keep, .cat, .mbx, .jr, .stg, .host, .log, .pmc, .spn, .pair, .lv, .stw, .core, .ten, .capdnFall]
  | .silentRelease =>
    [.now, .out, .keep, .mbx, .host, .log, .pmc, .spn, .pair, .lv, .stw, .core, .capdnFall]
  | .boundaryFrame .. =>
    [.now, .out, .keep, .cat, .mbx, .jr, .stg, .host, .log, .pmc, .spn, .pair, .lv, .mem, .ep, .stw, .core, .ten]
  | .leaseFrame .. =>
    [.out, .keep, .cat, .mbx, .jr, .stg, .host, .log, .pmc, .spn, .pair, .lv, .pln, .stw, .core, .ten]
  | .snapshotFrame .. =>
    [.out, .keep, .cat, .mbx, .jr, .stg, .host, .log, .pmc, .spn, .pair, .lv, .qre, .mem, .ep, .stw, .core, .ten]
  | .bulkFrame .. =>
    [.out, .keep, .cat, .kt, .mbx, .jr, .stg, .host, .log, .pmc, .spn, .pair, .lv, .mem, .ep, .stw, .core, .ten, .keys, .budget]
  | .laneUp .. | .journalCheck .. =>
    [.now, .out, .keep, .host, .log, .pmc, .spn, .pair]
  | .bypassInsert | .lrefclkGood =>
    [.spn]
  | .partnerCanPoll .. =>
    [.now, .out, .pmc, .spn, .pair, .can]
  | .canPairDownFault =>
    [.now, .pmc, .pair]
  | .cycleTick =>
    [.now, .out, .keep, .cat, .pwr, .otp, .kt, .mbx, .jr, .stg, .host, .log, .pmc, .spn, .pair, .lv, .ket, .afe, .drv, .can, .qre, .mem, .ep, .pln, .stw, .core, .ten, .capdnFall, .route, .role]
  | .cycleCompletionWrite .. | .nop .. | .halt .. | .jump .. | .loop .. | .fence .. | .tickwait .. | .copy .. |
    .fill .. | .gather .. | .scatter .. | .qpush .. | .qpop .. | .convert .. | .transpose .. | .add .. | .sub .. |
    .mul .. | .fma .. | .div .. | .min .. | .max .. | .abs .. | .sqrt .. | .rsqrt .. | .exp .. | .log .. |
    .scale .. | .clamp .. | .select .. | .interp .. | .redsum .. | .redmax .. | .redmin .. | .argmax .. |
    .matmul .. | .spmv .. | .queueStallRelease .. =>
    [.now, .out, .keep, .kt, .host, .log, .pmc, .spn, .qre, .mem, .ep]
  | .checkpointWriteDone .. =>
    [.cat, .ep]
  | .leaseExpiry .. =>
    [.now, .out, .mbx, .pmc, .spn, .lv, .stw]
  | .allowanceFall .. =>
    [.now, .pmc, .lv]
  | .agentSilence .. =>
    [.now, .out, .keep, .mbx, .host, .log, .pmc, .spn, .lv, .stw, .core]
  | .agentLost .. | .rebindAgentTimeout | .rebindBoundExpiry =>
    [.now, .out, .keep, .mbx, .jr, .stg, .host, .log, .pmc, .spn, .pair, .lv, .stw]
  | .agentSetdasaRetry .. | .goldenScrub .. | .tagRfPoll =>
    [.now, .out, .keep, .host, .log, .pmc, .spn, .stw]
  | .kettleTrip .. | .leakChatter .. | .leakOpen .. =>
    [.out, .keep, .cat, .mbx, .jr, .stg, .host, .log, .pmc, .spn, .pair, .lv, .ket, .stw, .core, .ten]
  | .tripImageSave =>
    [.now, .cat, .pmc, .ket]
  | .foreignTrip .. =>
    [.out, .keep, .mbx, .jr, .stg, .host, .log, .pmc, .spn, .pair, .lv, .ket, .stw, .core, .ten]
  | .foreignCauseClear .. =>
    [.out, .keep, .host, .log, .pmc, .spn, .ket, .tripFall]
  | .ropeLocationMeasure .. =>
    [.now, .pmc, .ket]
  | .ropeMeasureDone .. =>
    [.now, .out, .keep, .cat, .mbx, .jr, .stg, .host, .log, .pmc, .spn, .pair, .lv, .ket, .afe, .stw, .core, .ten]
  | .leakStuck .. =>
    [.now, .out, .keep, .cat, .host, .log, .pmc, .spn, .ket]
  | .sdSampleWord .. | .pulseTimeout .. | .burnoutTest .. | .refCheck .. =>
    [.now, .out, .keep, .host, .log, .pmc, .spn, .afe]
  | .sarConversion .. =>
    [.out, .keep, .mbx, .jr, .stg, .host, .log, .pmc, .spn, .pair, .afe, .drv, .stw]
  | .pulseEdge .. =>
    [.out, .keep, .host, .log, .pmc, .spn, .afe, .drv]
  | .samplePageCopy =>
    [.now, .pmc, .afe, .qre, .mem]
  | .pumpSpeedLoop .. | .valveFeedbackSample .. =>
    [.drv]
  | .driverFault .. | .pumpPositionFault .. =>
    [.out, .keep, .mbx, .jr, .stg, .host, .log, .pmc, .spn, .pair, .drv, .stw]
  | .pumpRetryRestart .. =>
    [.now, .out, .keep, .host, .log, .pmc, .spn, .lv, .drv]
  | .hwTableStep =>
    [.now, .out, .keep, .mbx, .jr, .stg, .host, .log, .pmc, .spn, .pair, .lv, .drv, .pln, .stw]
  | .trajectoryPoint =>
    [.now, .out, .keep, .kt, .mbx, .jr, .stg, .host, .log, .pmc, .spn, .pair, .lv, .drv, .can, .pln, .stw]
  | .floorLate .. =>
    [.now, .out, .keep, .mbx, .jr, .stg, .host, .log, .pmc, .spn, .pair, .lv, .drv, .pln, .stw, .core]
  | .fanStall .. | .valveLoopFault .. =>
    [.now, .out, .keep, .host, .log, .pmc, .spn, .drv]
  | .canFrameRx .. | .canFrameTxDone .. | .referenceMessageRx .. | .canErrorStateChange .. | .canBusOff .. |
    .canWakePulse .. =>
    [.out, .keep, .host, .log, .pmc, .spn, .can]
  | .canPeriodicTx .. | .basicCycleStart .. | .timeMasterResume .. | .canRecoveryRequest .. | .canBackoffReset .. |
    .listenEnd .. | .epochAnnounceSend =>
    [.now, .pmc, .can]
  | .canRecoveryDone .. | .actuatorSilent .. =>
    [.now, .out, .keep, .host, .log, .pmc, .spn, .can]
  | .actuatorStatus .. =>
    [.out, .keep, .kt, .mbx, .jr, .stg, .host, .log, .pmc, .spn, .pair, .lv, .can, .stw, .core, .capdnFall, .role]
  | .epochAnnounceSeen .. =>
    [.out, .keep, .kt, .mbx, .jr, .host, .log, .pmc, .spn, .pair, .lv, .can, .stw, .core, .capdnFall, .role]
  | .epochBurst =>
    [.now, .pmc, .pair, .can]
  | .descWaitPass .. =>
    [.out, .keep, .kt, .host, .log, .pmc, .spn, .qre, .ep]
  | .scrubPass .. =>
    [.now, .out, .keep, .host, .log, .pmc, .spn, .qre]
  | .epochPrepDone .. =>
    [.out, .keep, .kt, .mbx, .jr, .stg, .host, .log, .pmc, .spn, .pair, .qre, .mem, .ep, .stw]
  | .preloadDone =>
    [.qre, .mem, .ep]
  | .epochReadyPoll .. =>
    [.now, .out, .pmc, .spn, .ep]
  | .epochLapse =>
    [.now, .out, .kt, .mbx, .jr, .stg, .host, .pmc, .spn, .pair, .ep, .stw]
  | .boundarySlotSend .. =>
    [.now, .out, .keep, .host, .log, .pmc, .spn, .mem, .ep]
  | .boundaryDeadline =>
    [.now, .pmc, .mem, .ep]
  | .modelRestoreDone =>
    [.qre, .mem]
  | .verifyPassDone .. =>
    [.out, .keep, .kt, .mbx, .jr, .stg, .host, .log, .pmc, .spn, .pair, .lv, .drv, .pln, .stw, .core]
  | .verifyPassDeadline | .harbourSetStale =>
    [.now, .out, .keep, .mbx, .jr, .stg, .host, .log, .pmc, .spn, .pair, .lv, .pln, .stw, .core]
  | .planDone .. =>
    [.out, .mbx, .jr, .stg, .pmc, .spn, .pair, .lv, .pln, .stw]
  | .spliceTime =>
    [.now, .out, .keep, .mbx, .jr, .stg, .host, .log, .pmc, .spn, .pair, .lv, .pln, .stw]
  | .leaveSegmentTimeout =>
    [.now, .out, .mbx, .jr, .stg, .pmc, .spn, .pair, .lv, .pln, .stw]
  | .rebindVerifyDone .. | .rebindReadbackDone .. =>
    [.out, .keep, .mbx, .jr, .stg, .host, .log, .pmc, .spn, .pair, .lv, .stw]
  | .rebindProgramDone =>
    [.out, .stw]
  | .tagWiredBusy =>
    [.stw]
  | .rfInventory .. | .rfGetSystemInformation | .rfReadSingleBlock .. | .rfReadMultipleBlocks .. |
    .rfGetBlockSecurity .. =>
    [.out, .pmc]
  | .rfStayQuiet .. =>
    [.pmc, .stw]
  | .rfSelect .. | .rfResetToReady .. | .rfWriteSingleBlock .. =>
    [.out, .pmc, .stw]
  | .folioCommit =>
    [.cat, .log, .pmc, .ket]
  | .summarySample =>
    [.now, .log, .pmc]
  | .summaryWrite =>
    [.now, .out, .keep, .host, .log, .pmc]
  | .logDropped =>
    [.now, .out, .host, .log, .pmc]
  | .dumpInstant =>
    [.now, .out, .host, .pmc]
  | .pduValueLowRead .. | .pduSkippedRead =>
    [.pmc]
  | .leakInputClear .. =>
    [.out, .keep, .cat, .mbx, .jr, .stg, .host, .log, .pmc, .spn, .pair, .lv, .ket, .afe, .stw, .core, .ten]
  | .pcieDStateChange .. =>
    [.out, .host]
  | .internalLeaveRetry .. =>
    [.now, .out, .keep, .pwr, .host, .log, .pmc, .spn, .lv, .drv, .pln, .stw]
  | .leaseAckTimeout =>
    [.now, .out, .keep, .cat, .mbx, .jr, .stg, .host, .log, .pmc, .spn, .pair, .lv, .stw, .core, .ten]
  | .proofIntervalExpiry =>
    [.now, .out, .pmc, .spn, .pair]

/-- Every command answers a next state, within its footprint. -/
theorem exec_foot (i : Instr) (s : State) : ∃ t, exec i s = .next t ∧ Foot (footOf i) s t := by
  cases i with
  | keepPorRelease _ => exact ⟨_, rfl, doKeepPorRelease_foot _ _⟩
  | keepTableReadDone => exact ⟨_, rfl, doKeepTableReadDone_foot _⟩
  | vkeepFall => exact ⟨_, rfl, doVkeepFall_foot _⟩
  | hourMeterSave => exact ⟨_, rfl, doHourMeterSave_foot _⟩
  | railLoss => exact ⟨_, rfl, doRailLoss_foot _⟩
  | railsGood => exact ⟨_, rfl, doRailsGood_foot _⟩
  | bindResetRelease _ _ => exact ⟨_, rfl, doBindResetRelease_foot _ _ _⟩
  | fieldPowerUp => exact ⟨_, rfl, doFieldPowerUp_foot _⟩
  | fieldResetRelease => exact ⟨_, rfl, doFieldResetRelease_foot _⟩
  | sysRstNLow => exact ⟨_, rfl, doSysRstNLow_foot _⟩
  | spnHandoffExpiry => exact ⟨_, rfl, doSpnHandoffExpiry_foot _⟩
  | lockstepMismatch => exact ⟨_, rfl, doLockstepMismatch_foot _⟩
  | binderWatchdogExpiry => exact ⟨_, rfl, doBinderWatchdogExpiry_foot _⟩
  | xinLoss => exact ⟨_, rfl, doXinLoss_foot _⟩
  | xinReturn => exact ⟨_, rfl, doXinReturn_foot _⟩
  | fclkSwitchBack => exact ⟨_, rfl, doFclkSwitchBack_foot _⟩
  | kxinCrystalFail => exact ⟨_, rfl, doKxinCrystalFail_foot _⟩
  | kxinCrystalRun => exact ⟨_, rfl, doKxinCrystalRun_foot _⟩
  | dieOvertemp _ => exact ⟨_, rfl, doDieOvertemp_foot _ _⟩
  | dieTempReturn _ => exact ⟨_, rfl, doDieTempReturn_foot _ _⟩
  | perstAssert => exact ⟨_, rfl, doPerstAssert_foot _⟩
  | perstRelease => exact ⟨_, rfl, doPerstRelease_foot _⟩
  | trstNAssert => exact ⟨_, rfl, emit_foot _ _⟩
  | pcieLinkDown => exact ⟨_, rfl, doPcieLinkDown_foot _⟩
  | hostLinkL0 => exact ⟨_, rfl, doHostLinkL0_foot _⟩
  | storeSwitchOn => exact ⟨_, rfl, doStoreSwitchOn_foot _⟩
  | storeReady => exact ⟨_, rfl, doStoreReady_foot _⟩
  | storeSwitchOff => exact ⟨_, rfl, doStoreSwitchOff_foot _⟩
  | quireHalfSwitchOn _ => exact ⟨_, rfl, doQuireHalfSwitchOn_foot _ _⟩
  | quireHalfReady _ => exact ⟨_, rfl, doQuireHalfReady_foot _ _⟩
  | quireHalfSwitchOff _ => exact ⟨_, rfl, doQuireHalfSwitchOff_foot _ _⟩
  | mbxBootStart _ => exact ⟨_, rfl, doMbxBootStart_foot _ _⟩
  | mbxBootAbort => exact ⟨_, rfl, doMbxBootAbort_foot _⟩
  | bootDmaCompletion _ => exact ⟨_, rfl, doBootDmaCompletion_foot _ _⟩
  | bootCheckDone _ => exact ⟨_, rfl, doBootCheckDone_foot _ _⟩
  | bootFailedReturn => exact ⟨_, rfl, doBootFailedReturn_foot _⟩
  | netbootSolicit => exact ⟨_, rfl, doNetbootSolicit_foot _⟩
  | netbootOffer _ _ _ _ _ => exact ⟨_, rfl, doNetbootOffer_foot _ _ _ _ _ _⟩
  | netbootData _ _ _ _ => exact ⟨_, rfl, doNetbootData_foot _ _ _ _ _⟩
  | netbootRequestTimeout => exact ⟨_, rfl, doNetbootRequestTimeout_foot _⟩
  | netbootCancel _ _ _ => exact ⟨_, rfl, doNetbootCancel_foot _ _ _ _⟩
  | mgmtLinkLoss _ => exact ⟨_, rfl, doMgmtLinkLoss_foot _ _⟩
  | netbootEligible => exact ⟨_, rfl, doNetbootEligible_foot _⟩
  | firmwareRunning _ => exact ⟨_, rfl, doFirmwareRunning_foot _ _ _⟩
  | binderHeartbeat => exact ⟨_, rfl, heartbeat_foot _⟩
  | binderSilent => exact ⟨_, rfl, doBinderSilent_foot _⟩
  | resetExecute => exact ⟨_, rfl, doResetExecute_foot _⟩
  | mbxDoorbell _ => exact ⟨_, rfl, doMbxDoorbell_foot _ _⟩
  | mbxCopyOut _ _ => exact ⟨_, rfl, doMbxCopyOut_foot _ _ _⟩
  | mbxRspCi _ _ => exact ⟨_, rfl, doMbxRspCi_foot _ _ _⟩
  | responseWrite _ => exact ⟨_, rfl, doResponseWrite_foot _ _⟩
  | registerWrite _ _ => exact ⟨_, rfl, doRegisterWrite_foot _ _ _⟩
  | tlsConnect _ _ => exact ⟨_, rfl, doTlsConnect_foot _ _ _⟩
  | tlsDisconnect _ => exact ⟨_, rfl, doTlsDisconnect_foot _ _⟩
  | seqQuery _ _ => exact ⟨_, rfl, arrive_foot _ _ _ _⟩
  | nonceGet _ _ => exact ⟨_, rfl, arrive_foot _ _ _ _⟩
  | resultGet _ _ => exact ⟨_, rfl, arrive_foot _ _ _ _⟩
  | statusGet _ _ => exact ⟨_, rfl, arrive_foot _ _ _ _⟩
  | objectStage _ _ => exact ⟨_, rfl, arrive_foot _ _ _ _⟩
  | stageDmaDone _ _ => exact ⟨_, rfl, doStageDmaDone_foot _ _ _⟩
  | leaveRequest _ _ => exact ⟨_, rfl, arrive_foot _ _ _ _⟩
  | leaveReturn _ _ => exact ⟨_, rfl, arrive_foot _ _ _ _⟩
  | leaseRead _ _ => exact ⟨_, rfl, arrive_foot _ _ _ _⟩
  | sensorRead _ _ => exact ⟨_, rfl, arrive_foot _ _ _ _⟩
  | logRead _ _ => exact ⟨_, rfl, arrive_foot _ _ _ _⟩
  | pmcRead _ _ => exact ⟨_, rfl, arrive_foot _ _ _ _⟩
  | inventoryRead _ _ => exact ⟨_, rfl, arrive_foot _ _ _ _⟩
  | spineHealthGet _ _ => exact ⟨_, rfl, arrive_foot _ _ _ _⟩
  | tlsKeyGet _ _ => exact ⟨_, rfl, arrive_foot _ _ _ _⟩
  | trayStart _ _ => exact ⟨_, rfl, arrive_foot _ _ _ _⟩
  | authLockoutEnd _ => exact ⟨_, rfl, doAuthLockoutEnd_foot _ _⟩
  | trayStop _ _ => exact ⟨_, rfl, arrive_foot _ _ _ _⟩
  | trayStopDelay _ => exact ⟨_, rfl, doTrayStopDelay_foot _ _⟩
  | trayCapSet _ _ => exact ⟨_, rfl, arrive_foot _ _ _ _⟩
  | permitSet _ _ => exact ⟨_, rfl, arrive_foot _ _ _ _⟩
  | holdSet _ _ => exact ⟨_, rfl, arrive_foot _ _ _ _⟩
  | holdEnd _ => exact ⟨_, rfl, doHoldEnd_foot _ _⟩
  | budgetSet _ _ => exact ⟨_, rfl, arrive_foot _ _ _ _⟩
  | rowBudgetSet _ _ => exact ⟨_, rfl, arrive_foot _ _ _ _⟩
  | rowShareSet _ _ => exact ⟨_, rfl, arrive_foot _ _ _ _⟩
  | staggerSet _ _ => exact ⟨_, rfl, arrive_foot _ _ _ _⟩
  | tripRelease _ _ => exact ⟨_, rfl, arrive_foot _ _ _ _⟩
  | tripReleaseWindowEnd => exact ⟨_, rfl, doTripReleaseWindowEnd_foot _⟩
  | leakMask _ _ => exact ⟨_, rfl, arrive_foot _ _ _ _⟩
  | kettleRouteSet _ _ => exact ⟨_, rfl, arrive_foot _ _ _ _⟩
  | tripProof _ _ => exact ⟨_, rfl, arrive_foot _ _ _ _⟩
  | proofSourceStep _ => exact ⟨_, rfl, doProofSourceStep_foot _ _⟩
  | keeperTableSet _ _ => exact ⟨_, rfl, arrive_foot _ _ _ _⟩
  | pwmParamApply _ => exact ⟨_, rfl, doPwmParamApply_foot _ _⟩
  | belowFloorLease _ _ => exact ⟨_, rfl, arrive_foot _ _ _ _⟩
  | belowFloorEnd _ _ => exact ⟨_, rfl, doBelowFloorEnd_foot _ _ _⟩
  | setpointRequest _ _ => exact ⟨_, rfl, arrive_foot _ _ _ _⟩
  | actuatorConfig _ _ => exact ⟨_, rfl, arrive_foot _ _ _ _⟩
  | actuatorConfigTimeout _ => exact ⟨_, rfl, doActuatorConfigTimeout_foot _ _⟩
  | canConfig _ _ => exact ⟨_, rfl, arrive_foot _ _ _ _⟩
  | afeConfig _ _ => exact ⟨_, rfl, arrive_foot _ _ _ _⟩
  | configEpochSet _ _ => exact ⟨_, rfl, arrive_foot _ _ _ _⟩
  | modelLoad _ _ => exact ⟨_, rfl, arrive_foot _ _ _ _⟩
  | regionSet _ _ => exact ⟨_, rfl, arrive_foot _ _ _ _⟩
  | spillConfig _ _ => exact ⟨_, rfl, arrive_foot _ _ _ _⟩
  | lpddrTrainingDone _ _ _ => exact ⟨_, rfl, doLpddrTrainingDone_foot _ _ _ _⟩
  | rebind _ _ => exact ⟨_, rfl, arrive_foot _ _ _ _⟩
  | goldenStore _ _ => exact ⟨_, rfl, arrive_foot _ _ _ _⟩
  | goldenWriteDone _ => exact ⟨_, rfl, doGoldenWriteDone_foot _ _⟩
  | tagWrite _ _ => exact ⟨_, rfl, arrive_foot _ _ _ _⟩
  | tagWriteRetry => exact ⟨_, rfl, doTagWriteRetry_foot _⟩
  | tagWriteTimeout => exact ⟨_, rfl, doTagWriteTimeout_foot _⟩
  | switchBack _ _ => exact ⟨_, rfl, arrive_foot _ _ _ _⟩
  | pairSync _ _ => exact ⟨_, rfl, arrive_foot _ _ _ _⟩
  | spineConfig _ _ => exact ⟨_, rfl, arrive_foot _ _ _ _⟩
  | logClear _ _ => exact ⟨_, rfl, arrive_foot _ _ _ _⟩
  | logFreeze _ _ => exact ⟨_, rfl, arrive_foot _ _ _ _⟩
  | freezeExpiry => exact ⟨_, rfl, doFreezeExpiry_foot _⟩
  | pmcConfig _ _ => exact ⟨_, rfl, arrive_foot _ _ _ _⟩
  | keySet _ _ => exact ⟨_, rfl, arrive_foot _ _ _ _⟩
  | keyRevoke _ _ => exact ⟨_, rfl, arrive_foot _ _ _ _⟩
  | rollbackAdvance _ _ => exact ⟨_, rfl, arrive_foot _ _ _ _⟩
  | reset _ _ => exact ⟨_, rfl, arrive_foot _ _ _ _⟩
  | wakeConfig _ _ => exact ⟨_, rfl, arrive_foot _ _ _ _⟩
  | tlsSet _ _ => exact ⟨_, rfl, arrive_foot _ _ _ _⟩
  | commandEffect => exact ⟨_, rfl, doCommandEffect_foot _⟩
  | mirrorAckFrame _ _ => exact ⟨_, rfl, doMirrorAckFrame_foot _ _ _⟩
  | mirrorTimeout _ => exact ⟨_, rfl, doMirrorTimeout_foot _ _⟩
  | mirrorFrame _ _ => exact ⟨_, rfl, doMirrorFrame_foot _ _ _⟩
  | evrCi _ => exact ⟨_, rfl, doEvrCi_foot _ _⟩
  | eventBacklogDrain => exact ⟨_, rfl, doEventBacklogDrain_foot _⟩
  | evrDroppedRead => exact ⟨_, rfl, doEvrDroppedRead_foot _⟩
  | wakeCausePublish => exact ⟨_, rfl, doWakeCausePublish_foot _⟩
  | formSend => exact ⟨_, rfl, doFormSend_foot _⟩
  | formFrame _ _ => exact ⟨_, rfl, doFormFrame_foot _ _ _⟩
  | censusEntrySilent _ => exact ⟨_, rfl, doCensusEntrySilent_foot _ _⟩
  | censusSettled => exact ⟨_, rfl, doCensusSettled_foot _⟩
  | formedFrame _ _ _ _ => exact ⟨_, rfl, doFormedFrame_foot _ _ _ _ _⟩
  | timeSend => exact ⟨_, rfl, doTimeSend_foot _⟩
  | timeFrame _ _ => exact ⟨_, rfl, doTimeFrame_foot _ _ _⟩
  | timeTimeout => exact ⟨_, rfl, doTimeTimeout_foot _⟩
  | arcRejoin => exact ⟨_, rfl, doArcRejoin_foot _⟩
  | echoMeasure _ => exact ⟨_, rfl, doEchoMeasure_foot _ _⟩
  | echoFrame _ _ => exact ⟨_, rfl, doEchoFrame_foot _ _ _⟩
  | heartbeatSend => exact ⟨_, rfl, doHeartbeatSend_foot _⟩
  | heartbeatFrame _ _ => exact ⟨_, rfl, doHeartbeatFrame_foot _ _ _⟩
  | heartbeatMissed => exact ⟨_, rfl, doHeartbeatMissed_foot _⟩
  | loneCheckExpiry => exact ⟨_, rfl, doLoneCheckExpiry_foot _⟩
  | silentRelease => exact ⟨_, rfl, doSilentRelease_foot _⟩
  | tripMirrorSend => exact ⟨_, rfl, doTripMirrorSend_foot _⟩
  | tripFrame _ _ _ _ => exact ⟨_, rfl, doTripFrame_foot _ _ _ _ _⟩
  | breakFrame _ _ _ => exact ⟨_, rfl, doBreakFrame_foot _ _ _ _⟩
  | boundaryFrame _ _ _ _ _ => exact ⟨_, rfl, doBoundaryFrame_foot _ _ _ _ _ _⟩
  | demandFrame _ _ => exact ⟨_, rfl, doDemandFrame_foot _ _ _⟩
  | relayFrame _ _ => exact ⟨_, rfl, doRelayFrame_foot _ _ _⟩
  | relayAckSend => exact ⟨_, rfl, doRelayAckSend_foot _⟩
  | relayAckFrame _ _ => exact ⟨_, rfl, doRelayAckFrame_foot _ _ _⟩
  | relayResend => exact ⟨_, rfl, doRelayResend_foot _⟩
  | leaseFrame _ _ => exact ⟨_, rfl, doLeaseFrame_foot _ _ _⟩
  | snapshotFrame _ _ _ => exact ⟨_, rfl, doSnapshotFrame_foot _ _ _ _⟩
  | bulkFrame _ _ => exact ⟨_, rfl, doBulkFrame_foot _ _ _⟩
  | laneDown _ => exact ⟨_, rfl, doLaneDown_foot _ _⟩
  | laneUp _ => exact ⟨_, rfl, doLaneUp_foot _ _⟩
  | bypassInsert => exact ⟨_, rfl, doBypassInsert_foot _⟩
  | portInsertTimeout => exact ⟨_, rfl, doPortInsertTimeout_foot _⟩
  | portInsertRetry => exact ⟨_, rfl, doPortInsertRetry_foot _⟩
  | lrefclkLoss => exact ⟨_, rfl, doLrefclkLoss_foot _⟩
  | lrefclkGood => exact ⟨_, rfl, doLrefclkGood_foot _⟩
  | journalCheck _ => exact ⟨_, rfl, doJournalCheck_foot _ _⟩
  | partnerCanPoll _ => exact ⟨_, rfl, doPartnerCanPoll_foot _ _⟩
  | canPairDownFault => exact ⟨_, rfl, doCanPairDownFault_foot _⟩
  | cycleTick => exact ⟨_, rfl, doCycleTick_foot _⟩
  | leaveTableStale => exact ⟨_, rfl, doLeaveTableStale_foot _⟩
  | cycleCompletionWrite _ _ _ => exact ⟨_, rfl, doCycleCompletionWrite_foot _ _ _ _⟩
  | checkpointWriteDone _ => exact ⟨_, rfl, doCheckpointWriteDone_foot _ _⟩
  | leaseExpiry _ => exact ⟨_, rfl, doLeaseExpiry_foot _ _⟩
  | allowanceFall _ => exact ⟨_, rfl, doAllowanceFall_foot _ _⟩
  | trayPoll _ _ => exact ⟨_, rfl, doTrayPoll_foot _ _ _⟩
  | agentSilence _ => exact ⟨_, rfl, doAgentSilence_foot _ _⟩
  | agentLost _ => exact ⟨_, rfl, doAgentLost_foot _ _⟩
  | agentSetdasaRetry _ _ _ => exact ⟨_, rfl, doAgentSetdasaRetry_foot _ _ _ _⟩
  | i3cIbi _ _ _ => exact ⟨_, rfl, doI3cIbi_foot _ _ _ _⟩
  | staggerSlot => exact ⟨_, rfl, doStaggerSlot_foot _⟩
  | staggerDeferRetry => exact ⟨_, rfl, doStaggerDeferRetry_foot _⟩
  | trayStartTimeout _ => exact ⟨_, rfl, doTrayStartTimeout_foot _ _⟩
  | kettleTrip _ _ => exact ⟨_, rfl, doKettleTrip_foot _ _ _⟩
  | tripImageSave => exact ⟨_, rfl, doTripImageSave_foot _⟩
  | foreignTrip _ => exact ⟨_, rfl, doForeignTrip_foot _ _⟩
  | foreignCauseClear _ => exact ⟨_, rfl, doForeignCauseClear_foot _ _⟩
  | ropeLocationMeasure _ => exact ⟨_, rfl, doRopeLocationMeasure_foot _ _⟩
  | ropeMeasureDone _ _ _ _ => exact ⟨_, rfl, (doRopeMeasureDone_foot _ _ _ _ _).mono rfl |>.then (answerAsks_foot _) rfl⟩
  | leakStuck _ => exact ⟨_, rfl, doLeakStuck_foot _ _⟩
  | leakChatter _ => exact ⟨_, rfl, doLeakChatter_foot _ _⟩
  | leakOpen _ => exact ⟨_, rfl, doLeakOpen_foot _ _⟩
  | leakConditionClear _ _ => exact ⟨_, rfl, doLeakConditionClear_foot _ _ _⟩
  | sdSampleWord _ _ _ _ => exact ⟨_, rfl, doSdSampleWord_foot _ _ _ _ _⟩
  | sarConversion _ _ => exact ⟨_, rfl, doSarConversion_foot _ _ _⟩
  | pulseEdge _ _ _ => exact ⟨_, rfl, pulseAndFan_foot _ _ _ _ _⟩
  | pulseTimeout _ => exact ⟨_, rfl, doPulseTimeout_foot _ _⟩
  | burnoutTest _ _ => exact ⟨_, rfl, doBurnoutTest_foot _ _ _⟩
  | refCheck _ => exact ⟨_, rfl, doRefCheck_foot _ _⟩
  | samplePageCopy => exact ⟨_, rfl, doSamplePageCopy_foot _⟩
  | pumpCurrentLoop _ => exact ⟨_, rfl, doPumpCurrentLoop_foot _ _ _⟩
  | pumpSpeedLoop _ _ => exact ⟨_, rfl, doPumpSpeedLoop_foot _ _ _⟩
  | encoderAlignDone _ => exact ⟨_, rfl, doEncoderAlignDone_foot _ _⟩
  | driverFault _ => exact ⟨_, rfl, pumpFault_foot _ _ _⟩
  | pumpStall _ => exact ⟨_, rfl, doPumpStall_foot _ _⟩
  | pumpPositionFault _ => exact ⟨_, rfl, pumpFault_foot _ _ _⟩
  | pumpOverspeed _ => exact ⟨_, rfl, doPumpOverspeed_foot _ _⟩
  | pumpRetryRestart _ => exact ⟨_, rfl, doPumpRetryRestart_foot _ _⟩
  | hwTableStep => exact ⟨_, rfl, (doHwTableStep_foot _).mono rfl |>.then (replan_foot _) rfl⟩
  | trajectoryPoint => exact ⟨_, rfl, doTrajectoryPoint_foot _⟩
  | floorLate _ => exact ⟨_, rfl, doFloorLate_foot _ _⟩
  | fanStall _ => exact ⟨_, rfl, doFanStall_foot _ _⟩
  | valveFeedbackSample _ _ => exact ⟨_, rfl, doValveFeedbackSample_foot _ _ _⟩
  | valveLoopFault _ _ _ => exact ⟨_, rfl, doValveLoopFault_foot _ _ _ _⟩
  | canFrameRx _ _ => exact ⟨_, rfl, doCanFrameRx_foot _ _ _ _⟩
  | canFrameTxDone _ _ => exact ⟨_, rfl, doCanFrameTxDone_foot _ _ _ _⟩
  | canPeriodicTx _ _ => exact ⟨_, rfl, doCanPeriodicTx_foot _ _ _⟩
  | basicCycleStart _ => exact ⟨_, rfl, doBasicCycleStart_foot _ _⟩
  | referenceMessageRx _ _ _ => exact ⟨_, rfl, doReferenceMessageRx_foot _ _ _ _⟩
  | timeMasterResume _ => exact ⟨_, rfl, doTimeMasterResume_foot _ _⟩
  | canErrorStateChange _ _ => exact ⟨_, rfl, doCanErrorStateChange_foot _ _ _⟩
  | canBusOff _ => exact ⟨_, rfl, doCanBusOff_foot _ _⟩
  | canRecoveryRequest _ => exact ⟨_, rfl, doCanRecoveryRequest_foot _ _⟩
  | canRecoveryDone _ => exact ⟨_, rfl, doCanRecoveryDone_foot _ _⟩
  | canBackoffReset _ => exact ⟨_, rfl, doCanBackoffReset_foot _ _⟩
  | canWakePulse _ _ => exact ⟨_, rfl, doCanWakePulse_foot _ _ _⟩
  | listenEnd _ => exact ⟨_, rfl, doListenEnd_foot _ _⟩
  | actuatorStatus _ _ _ => exact ⟨_, rfl, doActuatorStatus_foot _ _ _ _ _⟩
  | epochAnnounceSeen _ _ _ => exact ⟨_, rfl, doEpochAnnounceSeen_foot _ _ _ _⟩
  | epochAnnounceSend => exact ⟨_, rfl, doEpochAnnounceSend_foot _⟩
  | epochBurst => exact ⟨_, rfl, doEpochBurst_foot _⟩
  | actuatorSilent _ => exact ⟨_, rfl, doActuatorSilent_foot _ _⟩
  | nop _ _ _ => exact ⟨_, rfl, runOp_foot _ _ _ _ _⟩
  | halt _ _ _ => exact ⟨_, rfl, runOp_foot _ _ _ _ _⟩
  | jump _ _ _ => exact ⟨_, rfl, runOp_foot _ _ _ _ _⟩
  | loop _ _ _ => exact ⟨_, rfl, runOp_foot _ _ _ _ _⟩
  | fence _ _ _ => exact ⟨_, rfl, runOp_foot _ _ _ _ _⟩
  | tickwait _ _ _ => exact ⟨_, rfl, runOp_foot _ _ _ _ _⟩
  | copy _ _ _ => exact ⟨_, rfl, runOp_foot _ _ _ _ _⟩
  | fill _ _ _ => exact ⟨_, rfl, runOp_foot _ _ _ _ _⟩
  | gather _ _ _ => exact ⟨_, rfl, runOp_foot _ _ _ _ _⟩
  | scatter _ _ _ => exact ⟨_, rfl, runOp_foot _ _ _ _ _⟩
  | qpush _ _ _ => exact ⟨_, rfl, runOp_foot _ _ _ _ _⟩
  | qpop _ _ _ => exact ⟨_, rfl, runOp_foot _ _ _ _ _⟩
  | convert _ _ _ => exact ⟨_, rfl, runOp_foot _ _ _ _ _⟩
  | transpose _ _ _ => exact ⟨_, rfl, runOp_foot _ _ _ _ _⟩
  | add _ _ _ => exact ⟨_, rfl, runOp_foot _ _ _ _ _⟩
  | sub _ _ _ => exact ⟨_, rfl, runOp_foot _ _ _ _ _⟩
  | mul _ _ _ => exact ⟨_, rfl, runOp_foot _ _ _ _ _⟩
  | fma _ _ _ => exact ⟨_, rfl, runOp_foot _ _ _ _ _⟩
  | div _ _ _ => exact ⟨_, rfl, runOp_foot _ _ _ _ _⟩
  | min _ _ _ => exact ⟨_, rfl, runOp_foot _ _ _ _ _⟩
  | max _ _ _ => exact ⟨_, rfl, runOp_foot _ _ _ _ _⟩
  | abs _ _ _ => exact ⟨_, rfl, runOp_foot _ _ _ _ _⟩
  | sqrt _ _ _ => exact ⟨_, rfl, runOp_foot _ _ _ _ _⟩
  | rsqrt _ _ _ => exact ⟨_, rfl, runOp_foot _ _ _ _ _⟩
  | exp _ _ _ => exact ⟨_, rfl, runOp_foot _ _ _ _ _⟩
  | log _ _ _ => exact ⟨_, rfl, runOp_foot _ _ _ _ _⟩
  | scale _ _ _ => exact ⟨_, rfl, runOp_foot _ _ _ _ _⟩
  | clamp _ _ _ => exact ⟨_, rfl, runOp_foot _ _ _ _ _⟩
  | select _ _ _ => exact ⟨_, rfl, runOp_foot _ _ _ _ _⟩
  | interp _ _ _ => exact ⟨_, rfl, runOp_foot _ _ _ _ _⟩
  | redsum _ _ _ => exact ⟨_, rfl, runOp_foot _ _ _ _ _⟩
  | redmax _ _ _ => exact ⟨_, rfl, runOp_foot _ _ _ _ _⟩
  | redmin _ _ _ => exact ⟨_, rfl, runOp_foot _ _ _ _ _⟩
  | argmax _ _ _ => exact ⟨_, rfl, runOp_foot _ _ _ _ _⟩
  | matmul _ _ _ => exact ⟨_, rfl, runOp_foot _ _ _ _ _⟩
  | spmv _ _ _ => exact ⟨_, rfl, runOp_foot _ _ _ _ _⟩
  | descWaitPass _ _ => exact ⟨_, rfl, doDescWaitPass_foot _ _ _⟩
  | queueStallRelease _ _ _ => exact ⟨_, rfl, doQueueStallRelease_foot _ _ _ _⟩
  | scrubPass _ _ _ => exact ⟨_, rfl, doScrubPass_foot _ _ _ _⟩
  | epochPrepDone _ => exact ⟨_, rfl, doEpochPrepDone_foot _ _⟩
  | preloadDone => exact ⟨_, rfl, doPreloadDone_foot _⟩
  | epochReadyPoll _ => exact ⟨_, rfl, doEpochReadyPoll_foot _ _⟩
  | epochLapse => exact ⟨_, rfl, doEpochLapse_foot _⟩
  | boundarySlotSend _ => exact ⟨_, rfl, doBoundarySlotSend_foot _ _⟩
  | boundaryDeadline => exact ⟨_, rfl, doBoundaryDeadline_foot _⟩
  | modelRestoreDone => exact ⟨_, rfl, doModelRestoreDone_foot _⟩
  | verifyPassDone _ => exact ⟨_, rfl, doVerifyPassDone_foot _ _⟩
  | verifyPassDeadline => exact ⟨_, rfl, doVerifyPassDeadline_foot _⟩
  | harbourSetStale => exact ⟨_, rfl, doHarbourSetStale_foot _⟩
  | planDone _ => exact ⟨_, rfl, doPlanDone_foot _ _⟩
  | spliceTime => exact ⟨_, rfl, doSpliceTime_foot _⟩
  | leaveSegmentTimeout => exact ⟨_, rfl, doLeaveSegmentTimeout_foot _⟩
  | goldenScrub _ _ => exact ⟨_, rfl, doGoldenScrub_foot _ _ _⟩
  | rebindVerifyDone _ => exact ⟨_, rfl, doRebindVerifyDone_foot _ _⟩
  | rebindProgramDone => exact ⟨_, rfl, doRebindProgramDone_foot _⟩
  | rebindReadbackDone _ => exact ⟨_, rfl, doRebindReadbackDone_foot _ _⟩
  | rebindAgentTimeout => exact ⟨_, rfl, doRebindAgentTimeout_foot _⟩
  | rebindBoundExpiry => exact ⟨_, rfl, doRebindBoundExpiry_foot _⟩
  | tagInventoryWrite => exact ⟨_, rfl, doTagInventoryWrite_foot _⟩
  | tagWiredSwap => exact ⟨_, rfl, doTagWiredSwap_foot _⟩
  | tagWiredBusy => exact ⟨_, rfl, doTagWiredBusy_foot _⟩
  | tagRfPoll => exact ⟨_, rfl, doTagRfPoll_foot _⟩
  | rfInventory _ _ => exact ⟨_, rfl, doRfInventory_foot _ _ _⟩
  | rfStayQuiet _ => exact ⟨_, rfl, doRfStayQuiet_foot _ _⟩
  | rfSelect _ => exact ⟨_, rfl, doRfSelect_foot _ _⟩
  | rfResetToReady _ => exact ⟨_, rfl, doRfResetToReady_foot _ _⟩
  | rfGetSystemInformation => exact ⟨_, rfl, doRfGetSystemInformation_foot _⟩
  | rfReadSingleBlock _ => exact ⟨_, rfl, doRfReadSingleBlock_foot _ _⟩
  | rfReadMultipleBlocks _ _ => exact ⟨_, rfl, doRfReadMultipleBlocks_foot _ _ _⟩
  | rfWriteSingleBlock _ _ => exact ⟨_, rfl, doRfWriteSingleBlock_foot _ _ _⟩
  | rfGetBlockSecurity _ _ => exact ⟨_, rfl, doRfGetBlockSecurity_foot _ _ _⟩
  | folioCommit => exact ⟨_, rfl, doFolioCommit_foot _⟩
  | summarySample => exact ⟨_, rfl, doSummarySample_foot _⟩
  | summaryWrite => exact ⟨_, rfl, doSummaryWrite_foot _⟩
  | logDropped => exact ⟨_, rfl, doLogDropped_foot _⟩
  | dumpInstant => exact ⟨_, rfl, doDumpInstant_foot _⟩
  | pduValueLowRead _ => exact ⟨_, rfl, doPduValueLowRead_foot _ _⟩
  | pduSkippedRead => exact ⟨_, rfl, doPduSkippedRead_foot _⟩
  | leakInputClear _ => exact ⟨_, rfl, (doLeakInputClear_foot _ _).mono rfl |>.then (answerAsks_foot _) rfl⟩
  | pcieDStateChange _ => exact ⟨_, rfl, doPcieDStateChange_foot _ _ _⟩
  | internalLeaveRetry _ => exact ⟨_, rfl, doInternalLeaveRetry_foot _ _⟩
  | leaseAckTimeout => exact ⟨_, rfl, doLeaseAckTimeout_foot _⟩
  | proofIntervalExpiry => exact ⟨_, rfl, doProofIntervalExpiry_foot _⟩

end Sys2Proof.Machine
end

