-- ==== Sys2Proof/Laws/Ops.lean ====
section
/-! SUPPORT. Laws/Ops.lean: what the shared operations leave as it is, one lemma per field, for simp. -/

namespace Sys2Proof.Machine

theorem keepCore_por {a b : Keep} (h : keepCore a = keepCore b) : a.por = b.por := by
  have e := congrArg Keep.por h; exact e
theorem keepCore_cold {a b : Keep} (h : keepCore a = keepCore b) : a.cold = b.cold := by
  have e := congrArg Keep.cold h; exact e
theorem keepCore_tenRead {a b : Keep} (h : keepCore a = keepCore b) : a.tenRead = b.tenRead := by
  have e := congrArg Keep.tenRead h; exact e
theorem keepCore_readAt {a b : Keep} (h : keepCore a = keepCore b) : a.readAt = b.readAt := by
  have e := congrArg Keep.readAt h; exact e
theorem keepCore_hourBase {a b : Keep} (h : keepCore a = keepCore b) : a.hourBase = b.hourBase := by
  have e := congrArg Keep.hourBase h; exact e
theorem keepCore_hourFrom {a b : Keep} (h : keepCore a = keepCore b) : a.hourFrom = b.hourFrom := by
  have e := congrArg Keep.hourFrom h; exact e
theorem keepCore_coarse {a b : Keep} (h : keepCore a = keepCore b) : a.coarse = b.coarse := by
  have e := congrArg Keep.coarse h; exact e
theorem keepCore_pcycle {a b : Keep} (h : keepCore a = keepCore b) : a.pcycle = b.pcycle := by
  have e := congrArg Keep.pcycle h; exact e
theorem keepCore_savedHour {a b : Keep} (h : keepCore a = keepCore b) : a.savedHour = b.savedHour := by
  have e := congrArg Keep.savedHour h; exact e
theorem keepCore_savedCycle {a b : Keep} (h : keepCore a = keepCore b) : a.savedCycle = b.savedCycle := by
  have e := congrArg Keep.savedCycle h; exact e
theorem keepCore_ten {a b : Keep} (h : keepCore a = keepCore b) : a.ten = b.ten := by
  have e := congrArg Keep.ten h; exact e
theorem keepCore_capdn {a b : Keep} (h : keepCore a = keepCore b) : a.capdn = b.capdn := by
  have e := congrArg Keep.capdn h; exact e
theorem keepCore_handoff {a b : Keep} (h : keepCore a = keepCore b) : a.handoff = b.handoff := by
  have e := congrArg Keep.handoff h; exact e
theorem keepCore_handoffAt {a b : Keep} (h : keepCore a = keepCore b) : a.handoffAt = b.handoffAt := by
  have e := congrArg Keep.handoffAt h; exact e

section
variable (t : Nat) (s : State)
@[simp] theorem reach_free : (reach t s).free = s.free := (reach_foot _ _).same .free rfl
@[simp] theorem reach_out : (reach t s).out = s.out := (reach_foot _ _).same .out rfl
@[simp] theorem reach_pending : (reach t s).pending = s.pending := (reach_foot _ _).same .pending rfl
@[simp] theorem reach_keep : (reach t s).keep = s.keep := (reach_foot _ _).same .keep rfl
@[simp] theorem reach_cat : (reach t s).cat = s.cat := (reach_foot _ _).same .cat rfl
@[simp] theorem reach_pwr : (reach t s).pwr = s.pwr := (reach_foot _ _).same .pwr rfl
@[simp] theorem reach_otp : (reach t s).otp = s.otp := (reach_foot _ _).same .otp rfl
@[simp] theorem reach_kt : (reach t s).kt = s.kt := (reach_foot _ _).same .kt rfl
@[simp] theorem reach_boot : (reach t s).boot = s.boot := (reach_foot _ _).same .boot rfl
@[simp] theorem reach_mbx : (reach t s).mbx = s.mbx := (reach_foot _ _).same .mbx rfl
@[simp] theorem reach_jr : (reach t s).jr = s.jr := (reach_foot _ _).same .jr rfl
@[simp] theorem reach_stg : (reach t s).stg = s.stg := (reach_foot _ _).same .stg rfl
@[simp] theorem reach_host : (reach t s).host = s.host := (reach_foot _ _).same .host rfl
@[simp] theorem reach_log : (reach t s).log = s.log := (reach_foot _ _).same .log rfl
@[simp] theorem reach_spn : (reach t s).spn = s.spn := (reach_foot _ _).same .spn rfl
@[simp] theorem reach_pair : (reach t s).pair = s.pair := (reach_foot _ _).same .pair rfl
@[simp] theorem reach_lv : (reach t s).lv = s.lv := (reach_foot _ _).same .lv rfl
@[simp] theorem reach_ket : (reach t s).ket = s.ket := (reach_foot _ _).same .ket rfl
@[simp] theorem reach_afe : (reach t s).afe = s.afe := (reach_foot _ _).same .afe rfl
@[simp] theorem reach_drv : (reach t s).drv = s.drv := (reach_foot _ _).same .drv rfl
@[simp] theorem reach_can : (reach t s).can = s.can := (reach_foot _ _).same .can rfl
@[simp] theorem reach_qre : (reach t s).qre = s.qre := (reach_foot _ _).same .qre rfl
@[simp] theorem reach_mem : (reach t s).mem = s.mem := (reach_foot _ _).same .mem rfl
@[simp] theorem reach_ep : (reach t s).ep = s.ep := (reach_foot _ _).same .ep rfl
@[simp] theorem reach_pln : (reach t s).pln = s.pln := (reach_foot _ _).same .pln rfl
@[simp] theorem reach_stw : (reach t s).stw = s.stw := (reach_foot _ _).same .stw rfl
end
section
variable (t : Nat) (s : State)
@[simp] theorem passTime_now : (passTime t s).now = s.now := (passTime_foot _ _).same .now rfl
@[simp] theorem passTime_free : (passTime t s).free = s.free := (passTime_foot _ _).same .free rfl
@[simp] theorem passTime_out : (passTime t s).out = s.out := (passTime_foot _ _).same .out rfl
@[simp] theorem passTime_pending : (passTime t s).pending = s.pending := (passTime_foot _ _).same .pending rfl
@[simp] theorem passTime_keep : (passTime t s).keep = s.keep := (passTime_foot _ _).same .keep rfl
@[simp] theorem passTime_cat : (passTime t s).cat = s.cat := (passTime_foot _ _).same .cat rfl
@[simp] theorem passTime_pwr : (passTime t s).pwr = s.pwr := (passTime_foot _ _).same .pwr rfl
@[simp] theorem passTime_otp : (passTime t s).otp = s.otp := (passTime_foot _ _).same .otp rfl
@[simp] theorem passTime_kt : (passTime t s).kt = s.kt := (passTime_foot _ _).same .kt rfl
@[simp] theorem passTime_boot : (passTime t s).boot = s.boot := (passTime_foot _ _).same .boot rfl
@[simp] theorem passTime_mbx : (passTime t s).mbx = s.mbx := (passTime_foot _ _).same .mbx rfl
@[simp] theorem passTime_jr : (passTime t s).jr = s.jr := (passTime_foot _ _).same .jr rfl
@[simp] theorem passTime_stg : (passTime t s).stg = s.stg := (passTime_foot _ _).same .stg rfl
@[simp] theorem passTime_host : (passTime t s).host = s.host := (passTime_foot _ _).same .host rfl
@[simp] theorem passTime_log : (passTime t s).log = s.log := (passTime_foot _ _).same .log rfl
@[simp] theorem passTime_spn : (passTime t s).spn = s.spn := (passTime_foot _ _).same .spn rfl
@[simp] theorem passTime_pair : (passTime t s).pair = s.pair := (passTime_foot _ _).same .pair rfl
@[simp] theorem passTime_lv : (passTime t s).lv = s.lv := (passTime_foot _ _).same .lv rfl
@[simp] theorem passTime_ket : (passTime t s).ket = s.ket := (passTime_foot _ _).same .ket rfl
@[simp] theorem passTime_afe : (passTime t s).afe = s.afe := (passTime_foot _ _).same .afe rfl
@[simp] theorem passTime_drv : (passTime t s).drv = s.drv := (passTime_foot _ _).same .drv rfl
@[simp] theorem passTime_can : (passTime t s).can = s.can := (passTime_foot _ _).same .can rfl
@[simp] theorem passTime_qre : (passTime t s).qre = s.qre := (passTime_foot _ _).same .qre rfl
@[simp] theorem passTime_mem : (passTime t s).mem = s.mem := (passTime_foot _ _).same .mem rfl
@[simp] theorem passTime_ep : (passTime t s).ep = s.ep := (passTime_foot _ _).same .ep rfl
@[simp] theorem passTime_pln : (passTime t s).pln = s.pln := (passTime_foot _ _).same .pln rfl
@[simp] theorem passTime_stw : (passTime t s).stw = s.stw := (passTime_foot _ _).same .stw rfl
end
section
variable (s : State)
@[simp] theorem draw_now : (draw s).2.now = s.now := (draw_foot _).same .now rfl
@[simp] theorem draw_out : (draw s).2.out = s.out := (draw_foot _).same .out rfl
@[simp] theorem draw_pending : (draw s).2.pending = s.pending := (draw_foot _).same .pending rfl
@[simp] theorem draw_keep : (draw s).2.keep = s.keep := (draw_foot _).same .keep rfl
@[simp] theorem draw_cat : (draw s).2.cat = s.cat := (draw_foot _).same .cat rfl
@[simp] theorem draw_pwr : (draw s).2.pwr = s.pwr := (draw_foot _).same .pwr rfl
@[simp] theorem draw_otp : (draw s).2.otp = s.otp := (draw_foot _).same .otp rfl
@[simp] theorem draw_kt : (draw s).2.kt = s.kt := (draw_foot _).same .kt rfl
@[simp] theorem draw_boot : (draw s).2.boot = s.boot := (draw_foot _).same .boot rfl
@[simp] theorem draw_mbx : (draw s).2.mbx = s.mbx := (draw_foot _).same .mbx rfl
@[simp] theorem draw_jr : (draw s).2.jr = s.jr := (draw_foot _).same .jr rfl
@[simp] theorem draw_stg : (draw s).2.stg = s.stg := (draw_foot _).same .stg rfl
@[simp] theorem draw_host : (draw s).2.host = s.host := (draw_foot _).same .host rfl
@[simp] theorem draw_log : (draw s).2.log = s.log := (draw_foot _).same .log rfl
@[simp] theorem draw_pmc : (draw s).2.pmc = s.pmc := (draw_foot _).same .pmc rfl
@[simp] theorem draw_spn : (draw s).2.spn = s.spn := (draw_foot _).same .spn rfl
@[simp] theorem draw_pair : (draw s).2.pair = s.pair := (draw_foot _).same .pair rfl
@[simp] theorem draw_lv : (draw s).2.lv = s.lv := (draw_foot _).same .lv rfl
@[simp] theorem draw_ket : (draw s).2.ket = s.ket := (draw_foot _).same .ket rfl
@[simp] theorem draw_afe : (draw s).2.afe = s.afe := (draw_foot _).same .afe rfl
@[simp] theorem draw_drv : (draw s).2.drv = s.drv := (draw_foot _).same .drv rfl
@[simp] theorem draw_can : (draw s).2.can = s.can := (draw_foot _).same .can rfl
@[simp] theorem draw_qre : (draw s).2.qre = s.qre := (draw_foot _).same .qre rfl
@[simp] theorem draw_mem : (draw s).2.mem = s.mem := (draw_foot _).same .mem rfl
@[simp] theorem draw_ep : (draw s).2.ep = s.ep := (draw_foot _).same .ep rfl
@[simp] theorem draw_pln : (draw s).2.pln = s.pln := (draw_foot _).same .pln rfl
@[simp] theorem draw_stw : (draw s).2.stw = s.stw := (draw_foot _).same .stw rfl
end
section
variable (o : Output) (s : State)
@[simp] theorem emit_now : (emit o s).now = s.now := (emit_foot _ _).same .now rfl
@[simp] theorem emit_free : (emit o s).free = s.free := (emit_foot _ _).same .free rfl
@[simp] theorem emit_pending : (emit o s).pending = s.pending := (emit_foot _ _).same .pending rfl
@[simp] theorem emit_keep : (emit o s).keep = s.keep := (emit_foot _ _).same .keep rfl
@[simp] theorem emit_cat : (emit o s).cat = s.cat := (emit_foot _ _).same .cat rfl
@[simp] theorem emit_pwr : (emit o s).pwr = s.pwr := (emit_foot _ _).same .pwr rfl
@[simp] theorem emit_otp : (emit o s).otp = s.otp := (emit_foot _ _).same .otp rfl
@[simp] theorem emit_kt : (emit o s).kt = s.kt := (emit_foot _ _).same .kt rfl
@[simp] theorem emit_boot : (emit o s).boot = s.boot := (emit_foot _ _).same .boot rfl
@[simp] theorem emit_mbx : (emit o s).mbx = s.mbx := (emit_foot _ _).same .mbx rfl
@[simp] theorem emit_jr : (emit o s).jr = s.jr := (emit_foot _ _).same .jr rfl
@[simp] theorem emit_stg : (emit o s).stg = s.stg := (emit_foot _ _).same .stg rfl
@[simp] theorem emit_host : (emit o s).host = s.host := (emit_foot _ _).same .host rfl
@[simp] theorem emit_log : (emit o s).log = s.log := (emit_foot _ _).same .log rfl
@[simp] theorem emit_pmc : (emit o s).pmc = s.pmc := (emit_foot _ _).same .pmc rfl
@[simp] theorem emit_spn : (emit o s).spn = s.spn := (emit_foot _ _).same .spn rfl
@[simp] theorem emit_pair : (emit o s).pair = s.pair := (emit_foot _ _).same .pair rfl
@[simp] theorem emit_lv : (emit o s).lv = s.lv := (emit_foot _ _).same .lv rfl
@[simp] theorem emit_ket : (emit o s).ket = s.ket := (emit_foot _ _).same .ket rfl
@[simp] theorem emit_afe : (emit o s).afe = s.afe := (emit_foot _ _).same .afe rfl
@[simp] theorem emit_drv : (emit o s).drv = s.drv := (emit_foot _ _).same .drv rfl
@[simp] theorem emit_can : (emit o s).can = s.can := (emit_foot _ _).same .can rfl
@[simp] theorem emit_qre : (emit o s).qre = s.qre := (emit_foot _ _).same .qre rfl
@[simp] theorem emit_mem : (emit o s).mem = s.mem := (emit_foot _ _).same .mem rfl
@[simp] theorem emit_ep : (emit o s).ep = s.ep := (emit_foot _ _).same .ep rfl
@[simp] theorem emit_pln : (emit o s).pln = s.pln := (emit_foot _ _).same .pln rfl
@[simp] theorem emit_stw : (emit o s).stw = s.stw := (emit_foot _ _).same .stw rfl
end
section
variable (ev n : Nat) (s : State)
@[simp] theorem countN_now : (countN ev n s).now = s.now := (countN_foot _ _ _).same .now rfl
@[simp] theorem countN_free : (countN ev n s).free = s.free := (countN_foot _ _ _).same .free rfl
@[simp] theorem countN_out : (countN ev n s).out = s.out := (countN_foot _ _ _).same .out rfl
@[simp] theorem countN_pending : (countN ev n s).pending = s.pending := (countN_foot _ _ _).same .pending rfl
@[simp] theorem countN_keep : (countN ev n s).keep = s.keep := (countN_foot _ _ _).same .keep rfl
@[simp] theorem countN_cat : (countN ev n s).cat = s.cat := (countN_foot _ _ _).same .cat rfl
@[simp] theorem countN_pwr : (countN ev n s).pwr = s.pwr := (countN_foot _ _ _).same .pwr rfl
@[simp] theorem countN_otp : (countN ev n s).otp = s.otp := (countN_foot _ _ _).same .otp rfl
@[simp] theorem countN_kt : (countN ev n s).kt = s.kt := (countN_foot _ _ _).same .kt rfl
@[simp] theorem countN_boot : (countN ev n s).boot = s.boot := (countN_foot _ _ _).same .boot rfl
@[simp] theorem countN_mbx : (countN ev n s).mbx = s.mbx := (countN_foot _ _ _).same .mbx rfl
@[simp] theorem countN_jr : (countN ev n s).jr = s.jr := (countN_foot _ _ _).same .jr rfl
@[simp] theorem countN_stg : (countN ev n s).stg = s.stg := (countN_foot _ _ _).same .stg rfl
@[simp] theorem countN_host : (countN ev n s).host = s.host := (countN_foot _ _ _).same .host rfl
@[simp] theorem countN_log : (countN ev n s).log = s.log := (countN_foot _ _ _).same .log rfl
@[simp] theorem countN_spn : (countN ev n s).spn = s.spn := (countN_foot _ _ _).same .spn rfl
@[simp] theorem countN_pair : (countN ev n s).pair = s.pair := (countN_foot _ _ _).same .pair rfl
@[simp] theorem countN_lv : (countN ev n s).lv = s.lv := (countN_foot _ _ _).same .lv rfl
@[simp] theorem countN_ket : (countN ev n s).ket = s.ket := (countN_foot _ _ _).same .ket rfl
@[simp] theorem countN_afe : (countN ev n s).afe = s.afe := (countN_foot _ _ _).same .afe rfl
@[simp] theorem countN_drv : (countN ev n s).drv = s.drv := (countN_foot _ _ _).same .drv rfl
@[simp] theorem countN_can : (countN ev n s).can = s.can := (countN_foot _ _ _).same .can rfl
@[simp] theorem countN_qre : (countN ev n s).qre = s.qre := (countN_foot _ _ _).same .qre rfl
@[simp] theorem countN_mem : (countN ev n s).mem = s.mem := (countN_foot _ _ _).same .mem rfl
@[simp] theorem countN_ep : (countN ev n s).ep = s.ep := (countN_foot _ _ _).same .ep rfl
@[simp] theorem countN_pln : (countN ev n s).pln = s.pln := (countN_foot _ _ _).same .pln rfl
@[simp] theorem countN_stw : (countN ev n s).stw = s.stw := (countN_foot _ _ _).same .stw rfl
end
section
variable (ev : Nat) (s : State)
@[simp] theorem countRise_now : (countRise ev s).now = s.now := (countRise_foot _ _).same .now rfl
@[simp] theorem countRise_free : (countRise ev s).free = s.free := (countRise_foot _ _).same .free rfl
@[simp] theorem countRise_out : (countRise ev s).out = s.out := (countRise_foot _ _).same .out rfl
@[simp] theorem countRise_pending : (countRise ev s).pending = s.pending := (countRise_foot _ _).same .pending rfl
@[simp] theorem countRise_keep : (countRise ev s).keep = s.keep := (countRise_foot _ _).same .keep rfl
@[simp] theorem countRise_cat : (countRise ev s).cat = s.cat := (countRise_foot _ _).same .cat rfl
@[simp] theorem countRise_pwr : (countRise ev s).pwr = s.pwr := (countRise_foot _ _).same .pwr rfl
@[simp] theorem countRise_otp : (countRise ev s).otp = s.otp := (countRise_foot _ _).same .otp rfl
@[simp] theorem countRise_kt : (countRise ev s).kt = s.kt := (countRise_foot _ _).same .kt rfl
@[simp] theorem countRise_boot : (countRise ev s).boot = s.boot := (countRise_foot _ _).same .boot rfl
@[simp] theorem countRise_mbx : (countRise ev s).mbx = s.mbx := (countRise_foot _ _).same .mbx rfl
@[simp] theorem countRise_jr : (countRise ev s).jr = s.jr := (countRise_foot _ _).same .jr rfl
@[simp] theorem countRise_stg : (countRise ev s).stg = s.stg := (countRise_foot _ _).same .stg rfl
@[simp] theorem countRise_host : (countRise ev s).host = s.host := (countRise_foot _ _).same .host rfl
@[simp] theorem countRise_log : (countRise ev s).log = s.log := (countRise_foot _ _).same .log rfl
@[simp] theorem countRise_spn : (countRise ev s).spn = s.spn := (countRise_foot _ _).same .spn rfl
@[simp] theorem countRise_pair : (countRise ev s).pair = s.pair := (countRise_foot _ _).same .pair rfl
@[simp] theorem countRise_lv : (countRise ev s).lv = s.lv := (countRise_foot _ _).same .lv rfl
@[simp] theorem countRise_ket : (countRise ev s).ket = s.ket := (countRise_foot _ _).same .ket rfl
@[simp] theorem countRise_afe : (countRise ev s).afe = s.afe := (countRise_foot _ _).same .afe rfl
@[simp] theorem countRise_drv : (countRise ev s).drv = s.drv := (countRise_foot _ _).same .drv rfl
@[simp] theorem countRise_can : (countRise ev s).can = s.can := (countRise_foot _ _).same .can rfl
@[simp] theorem countRise_qre : (countRise ev s).qre = s.qre := (countRise_foot _ _).same .qre rfl
@[simp] theorem countRise_mem : (countRise ev s).mem = s.mem := (countRise_foot _ _).same .mem rfl
@[simp] theorem countRise_ep : (countRise ev s).ep = s.ep := (countRise_foot _ _).same .ep rfl
@[simp] theorem countRise_pln : (countRise ev s).pln = s.pln := (countRise_foot _ _).same .pln rfl
@[simp] theorem countRise_stw : (countRise ev s).stw = s.stw := (countRise_foot _ _).same .stw rfl
end
section
variable (n : Nat) (f : Lane → Lane) (s : State)
@[simp] theorem onLane_now : (onLane n f s).now = s.now := (onLane_foot _ _ _).same .now rfl
@[simp] theorem onLane_free : (onLane n f s).free = s.free := (onLane_foot _ _ _).same .free rfl
@[simp] theorem onLane_out : (onLane n f s).out = s.out := (onLane_foot _ _ _).same .out rfl
@[simp] theorem onLane_pending : (onLane n f s).pending = s.pending := (onLane_foot _ _ _).same .pending rfl
@[simp] theorem onLane_keep : (onLane n f s).keep = s.keep := (onLane_foot _ _ _).same .keep rfl
@[simp] theorem onLane_cat : (onLane n f s).cat = s.cat := (onLane_foot _ _ _).same .cat rfl
@[simp] theorem onLane_pwr : (onLane n f s).pwr = s.pwr := (onLane_foot _ _ _).same .pwr rfl
@[simp] theorem onLane_otp : (onLane n f s).otp = s.otp := (onLane_foot _ _ _).same .otp rfl
@[simp] theorem onLane_kt : (onLane n f s).kt = s.kt := (onLane_foot _ _ _).same .kt rfl
@[simp] theorem onLane_boot : (onLane n f s).boot = s.boot := (onLane_foot _ _ _).same .boot rfl
@[simp] theorem onLane_mbx : (onLane n f s).mbx = s.mbx := (onLane_foot _ _ _).same .mbx rfl
@[simp] theorem onLane_jr : (onLane n f s).jr = s.jr := (onLane_foot _ _ _).same .jr rfl
@[simp] theorem onLane_stg : (onLane n f s).stg = s.stg := (onLane_foot _ _ _).same .stg rfl
@[simp] theorem onLane_host : (onLane n f s).host = s.host := (onLane_foot _ _ _).same .host rfl
@[simp] theorem onLane_log : (onLane n f s).log = s.log := (onLane_foot _ _ _).same .log rfl
@[simp] theorem onLane_pmc : (onLane n f s).pmc = s.pmc := (onLane_foot _ _ _).same .pmc rfl
@[simp] theorem onLane_pair : (onLane n f s).pair = s.pair := (onLane_foot _ _ _).same .pair rfl
@[simp] theorem onLane_lv : (onLane n f s).lv = s.lv := (onLane_foot _ _ _).same .lv rfl
@[simp] theorem onLane_ket : (onLane n f s).ket = s.ket := (onLane_foot _ _ _).same .ket rfl
@[simp] theorem onLane_afe : (onLane n f s).afe = s.afe := (onLane_foot _ _ _).same .afe rfl
@[simp] theorem onLane_drv : (onLane n f s).drv = s.drv := (onLane_foot _ _ _).same .drv rfl
@[simp] theorem onLane_can : (onLane n f s).can = s.can := (onLane_foot _ _ _).same .can rfl
@[simp] theorem onLane_qre : (onLane n f s).qre = s.qre := (onLane_foot _ _ _).same .qre rfl
@[simp] theorem onLane_mem : (onLane n f s).mem = s.mem := (onLane_foot _ _ _).same .mem rfl
@[simp] theorem onLane_ep : (onLane n f s).ep = s.ep := (onLane_foot _ _ _).same .ep rfl
@[simp] theorem onLane_pln : (onLane n f s).pln = s.pln := (onLane_foot _ _ _).same .pln rfl
@[simp] theorem onLane_stw : (onLane n f s).stw = s.stw := (onLane_foot _ _ _).same .stw rfl
end
section
variable (l n : Nat) (urgent : Bool) (s : State)
@[simp] theorem laneCount_now : (laneCount l n urgent s).now = s.now := (laneCount_foot _ _ _ _).same .now rfl
@[simp] theorem laneCount_free : (laneCount l n urgent s).free = s.free := (laneCount_foot _ _ _ _).same .free rfl
@[simp] theorem laneCount_out : (laneCount l n urgent s).out = s.out := (laneCount_foot _ _ _ _).same .out rfl
@[simp] theorem laneCount_pending : (laneCount l n urgent s).pending = s.pending := (laneCount_foot _ _ _ _).same .pending rfl
@[simp] theorem laneCount_keep : (laneCount l n urgent s).keep = s.keep := (laneCount_foot _ _ _ _).same .keep rfl
@[simp] theorem laneCount_cat : (laneCount l n urgent s).cat = s.cat := (laneCount_foot _ _ _ _).same .cat rfl
@[simp] theorem laneCount_pwr : (laneCount l n urgent s).pwr = s.pwr := (laneCount_foot _ _ _ _).same .pwr rfl
@[simp] theorem laneCount_otp : (laneCount l n urgent s).otp = s.otp := (laneCount_foot _ _ _ _).same .otp rfl
@[simp] theorem laneCount_kt : (laneCount l n urgent s).kt = s.kt := (laneCount_foot _ _ _ _).same .kt rfl
@[simp] theorem laneCount_boot : (laneCount l n urgent s).boot = s.boot := (laneCount_foot _ _ _ _).same .boot rfl
@[simp] theorem laneCount_mbx : (laneCount l n urgent s).mbx = s.mbx := (laneCount_foot _ _ _ _).same .mbx rfl
@[simp] theorem laneCount_jr : (laneCount l n urgent s).jr = s.jr := (laneCount_foot _ _ _ _).same .jr rfl
@[simp] theorem laneCount_stg : (laneCount l n urgent s).stg = s.stg := (laneCount_foot _ _ _ _).same .stg rfl
@[simp] theorem laneCount_host : (laneCount l n urgent s).host = s.host := (laneCount_foot _ _ _ _).same .host rfl
@[simp] theorem laneCount_log : (laneCount l n urgent s).log = s.log := (laneCount_foot _ _ _ _).same .log rfl
@[simp] theorem laneCount_pair : (laneCount l n urgent s).pair = s.pair := (laneCount_foot _ _ _ _).same .pair rfl
@[simp] theorem laneCount_lv : (laneCount l n urgent s).lv = s.lv := (laneCount_foot _ _ _ _).same .lv rfl
@[simp] theorem laneCount_ket : (laneCount l n urgent s).ket = s.ket := (laneCount_foot _ _ _ _).same .ket rfl
@[simp] theorem laneCount_afe : (laneCount l n urgent s).afe = s.afe := (laneCount_foot _ _ _ _).same .afe rfl
@[simp] theorem laneCount_drv : (laneCount l n urgent s).drv = s.drv := (laneCount_foot _ _ _ _).same .drv rfl
@[simp] theorem laneCount_can : (laneCount l n urgent s).can = s.can := (laneCount_foot _ _ _ _).same .can rfl
@[simp] theorem laneCount_qre : (laneCount l n urgent s).qre = s.qre := (laneCount_foot _ _ _ _).same .qre rfl
@[simp] theorem laneCount_mem : (laneCount l n urgent s).mem = s.mem := (laneCount_foot _ _ _ _).same .mem rfl
@[simp] theorem laneCount_ep : (laneCount l n urgent s).ep = s.ep := (laneCount_foot _ _ _ _).same .ep rfl
@[simp] theorem laneCount_pln : (laneCount l n urgent s).pln = s.pln := (laneCount_foot _ _ _ _).same .pln rfl
@[simp] theorem laneCount_stw : (laneCount l n urgent s).stw = s.stw := (laneCount_foot _ _ _ _).same .stw rfl
end
section
variable (l n : Nat) (urgent : Bool) (s : State)
@[simp] theorem laneSent_now : (laneSent l n urgent s).now = s.now := (laneSent_foot _ _ _ _).same .now rfl
@[simp] theorem laneSent_free : (laneSent l n urgent s).free = s.free := (laneSent_foot _ _ _ _).same .free rfl
@[simp] theorem laneSent_out : (laneSent l n urgent s).out = s.out := (laneSent_foot _ _ _ _).same .out rfl
@[simp] theorem laneSent_pending : (laneSent l n urgent s).pending = s.pending := (laneSent_foot _ _ _ _).same .pending rfl
@[simp] theorem laneSent_keep : (laneSent l n urgent s).keep = s.keep := (laneSent_foot _ _ _ _).same .keep rfl
@[simp] theorem laneSent_cat : (laneSent l n urgent s).cat = s.cat := (laneSent_foot _ _ _ _).same .cat rfl
@[simp] theorem laneSent_pwr : (laneSent l n urgent s).pwr = s.pwr := (laneSent_foot _ _ _ _).same .pwr rfl
@[simp] theorem laneSent_otp : (laneSent l n urgent s).otp = s.otp := (laneSent_foot _ _ _ _).same .otp rfl
@[simp] theorem laneSent_kt : (laneSent l n urgent s).kt = s.kt := (laneSent_foot _ _ _ _).same .kt rfl
@[simp] theorem laneSent_boot : (laneSent l n urgent s).boot = s.boot := (laneSent_foot _ _ _ _).same .boot rfl
@[simp] theorem laneSent_mbx : (laneSent l n urgent s).mbx = s.mbx := (laneSent_foot _ _ _ _).same .mbx rfl
@[simp] theorem laneSent_jr : (laneSent l n urgent s).jr = s.jr := (laneSent_foot _ _ _ _).same .jr rfl
@[simp] theorem laneSent_stg : (laneSent l n urgent s).stg = s.stg := (laneSent_foot _ _ _ _).same .stg rfl
@[simp] theorem laneSent_host : (laneSent l n urgent s).host = s.host := (laneSent_foot _ _ _ _).same .host rfl
@[simp] theorem laneSent_log : (laneSent l n urgent s).log = s.log := (laneSent_foot _ _ _ _).same .log rfl
@[simp] theorem laneSent_pair : (laneSent l n urgent s).pair = s.pair := (laneSent_foot _ _ _ _).same .pair rfl
@[simp] theorem laneSent_lv : (laneSent l n urgent s).lv = s.lv := (laneSent_foot _ _ _ _).same .lv rfl
@[simp] theorem laneSent_ket : (laneSent l n urgent s).ket = s.ket := (laneSent_foot _ _ _ _).same .ket rfl
@[simp] theorem laneSent_afe : (laneSent l n urgent s).afe = s.afe := (laneSent_foot _ _ _ _).same .afe rfl
@[simp] theorem laneSent_drv : (laneSent l n urgent s).drv = s.drv := (laneSent_foot _ _ _ _).same .drv rfl
@[simp] theorem laneSent_can : (laneSent l n urgent s).can = s.can := (laneSent_foot _ _ _ _).same .can rfl
@[simp] theorem laneSent_qre : (laneSent l n urgent s).qre = s.qre := (laneSent_foot _ _ _ _).same .qre rfl
@[simp] theorem laneSent_mem : (laneSent l n urgent s).mem = s.mem := (laneSent_foot _ _ _ _).same .mem rfl
@[simp] theorem laneSent_ep : (laneSent l n urgent s).ep = s.ep := (laneSent_foot _ _ _ _).same .ep rfl
@[simp] theorem laneSent_pln : (laneSent l n urgent s).pln = s.pln := (laneSent_foot _ _ _ _).same .pln rfl
@[simp] theorem laneSent_stw : (laneSent l n urgent s).stw = s.stw := (laneSent_foot _ _ _ _).same .stw rfl
end
section
variable (n : Nat) (s : State)
@[simp] theorem bulkSent_now : (bulkSent n s).now = s.now := (bulkSent_foot _ _).same .now rfl
@[simp] theorem bulkSent_free : (bulkSent n s).free = s.free := (bulkSent_foot _ _).same .free rfl
@[simp] theorem bulkSent_out : (bulkSent n s).out = s.out := (bulkSent_foot _ _).same .out rfl
@[simp] theorem bulkSent_pending : (bulkSent n s).pending = s.pending := (bulkSent_foot _ _).same .pending rfl
@[simp] theorem bulkSent_keep : (bulkSent n s).keep = s.keep := (bulkSent_foot _ _).same .keep rfl
@[simp] theorem bulkSent_cat : (bulkSent n s).cat = s.cat := (bulkSent_foot _ _).same .cat rfl
@[simp] theorem bulkSent_pwr : (bulkSent n s).pwr = s.pwr := (bulkSent_foot _ _).same .pwr rfl
@[simp] theorem bulkSent_otp : (bulkSent n s).otp = s.otp := (bulkSent_foot _ _).same .otp rfl
@[simp] theorem bulkSent_kt : (bulkSent n s).kt = s.kt := (bulkSent_foot _ _).same .kt rfl
@[simp] theorem bulkSent_boot : (bulkSent n s).boot = s.boot := (bulkSent_foot _ _).same .boot rfl
@[simp] theorem bulkSent_mbx : (bulkSent n s).mbx = s.mbx := (bulkSent_foot _ _).same .mbx rfl
@[simp] theorem bulkSent_jr : (bulkSent n s).jr = s.jr := (bulkSent_foot _ _).same .jr rfl
@[simp] theorem bulkSent_stg : (bulkSent n s).stg = s.stg := (bulkSent_foot _ _).same .stg rfl
@[simp] theorem bulkSent_host : (bulkSent n s).host = s.host := (bulkSent_foot _ _).same .host rfl
@[simp] theorem bulkSent_log : (bulkSent n s).log = s.log := (bulkSent_foot _ _).same .log rfl
@[simp] theorem bulkSent_pair : (bulkSent n s).pair = s.pair := (bulkSent_foot _ _).same .pair rfl
@[simp] theorem bulkSent_lv : (bulkSent n s).lv = s.lv := (bulkSent_foot _ _).same .lv rfl
@[simp] theorem bulkSent_ket : (bulkSent n s).ket = s.ket := (bulkSent_foot _ _).same .ket rfl
@[simp] theorem bulkSent_afe : (bulkSent n s).afe = s.afe := (bulkSent_foot _ _).same .afe rfl
@[simp] theorem bulkSent_drv : (bulkSent n s).drv = s.drv := (bulkSent_foot _ _).same .drv rfl
@[simp] theorem bulkSent_can : (bulkSent n s).can = s.can := (bulkSent_foot _ _).same .can rfl
@[simp] theorem bulkSent_qre : (bulkSent n s).qre = s.qre := (bulkSent_foot _ _).same .qre rfl
@[simp] theorem bulkSent_mem : (bulkSent n s).mem = s.mem := (bulkSent_foot _ _).same .mem rfl
@[simp] theorem bulkSent_ep : (bulkSent n s).ep = s.ep := (bulkSent_foot _ _).same .ep rfl
@[simp] theorem bulkSent_pln : (bulkSent n s).pln = s.pln := (bulkSent_foot _ _).same .pln rfl
@[simp] theorem bulkSent_stw : (bulkSent n s).stw = s.stw := (bulkSent_foot _ _).same .stw rfl
end
section
variable (p : Payload) (s : State)
@[simp] theorem sendPair_now : (sendPair p s).now = s.now := (sendPair_foot _ _).same .now rfl
@[simp] theorem sendPair_free : (sendPair p s).free = s.free := (sendPair_foot _ _).same .free rfl
@[simp] theorem sendPair_pending : (sendPair p s).pending = s.pending := (sendPair_foot _ _).same .pending rfl
@[simp] theorem sendPair_keep : (sendPair p s).keep = s.keep := (sendPair_foot _ _).same .keep rfl
@[simp] theorem sendPair_cat : (sendPair p s).cat = s.cat := (sendPair_foot _ _).same .cat rfl
@[simp] theorem sendPair_pwr : (sendPair p s).pwr = s.pwr := (sendPair_foot _ _).same .pwr rfl
@[simp] theorem sendPair_otp : (sendPair p s).otp = s.otp := (sendPair_foot _ _).same .otp rfl
@[simp] theorem sendPair_kt : (sendPair p s).kt = s.kt := (sendPair_foot _ _).same .kt rfl
@[simp] theorem sendPair_boot : (sendPair p s).boot = s.boot := (sendPair_foot _ _).same .boot rfl
@[simp] theorem sendPair_mbx : (sendPair p s).mbx = s.mbx := (sendPair_foot _ _).same .mbx rfl
@[simp] theorem sendPair_jr : (sendPair p s).jr = s.jr := (sendPair_foot _ _).same .jr rfl
@[simp] theorem sendPair_stg : (sendPair p s).stg = s.stg := (sendPair_foot _ _).same .stg rfl
@[simp] theorem sendPair_host : (sendPair p s).host = s.host := (sendPair_foot _ _).same .host rfl
@[simp] theorem sendPair_log : (sendPair p s).log = s.log := (sendPair_foot _ _).same .log rfl
@[simp] theorem sendPair_pair : (sendPair p s).pair = s.pair := (sendPair_foot _ _).same .pair rfl
@[simp] theorem sendPair_lv : (sendPair p s).lv = s.lv := (sendPair_foot _ _).same .lv rfl
@[simp] theorem sendPair_ket : (sendPair p s).ket = s.ket := (sendPair_foot _ _).same .ket rfl
@[simp] theorem sendPair_afe : (sendPair p s).afe = s.afe := (sendPair_foot _ _).same .afe rfl
@[simp] theorem sendPair_drv : (sendPair p s).drv = s.drv := (sendPair_foot _ _).same .drv rfl
@[simp] theorem sendPair_can : (sendPair p s).can = s.can := (sendPair_foot _ _).same .can rfl
@[simp] theorem sendPair_qre : (sendPair p s).qre = s.qre := (sendPair_foot _ _).same .qre rfl
@[simp] theorem sendPair_mem : (sendPair p s).mem = s.mem := (sendPair_foot _ _).same .mem rfl
@[simp] theorem sendPair_ep : (sendPair p s).ep = s.ep := (sendPair_foot _ _).same .ep rfl
@[simp] theorem sendPair_pln : (sendPair p s).pln = s.pln := (sendPair_foot _ _).same .pln rfl
@[simp] theorem sendPair_stw : (sendPair p s).stw = s.stw := (sendPair_foot _ _).same .stw rfl
end
section
variable (dst : Nat) (p : Payload) (s : State)
@[simp] theorem sendSpine_now : (sendSpine dst p s).now = s.now := (sendSpine_foot _ _ _).same .now rfl
@[simp] theorem sendSpine_free : (sendSpine dst p s).free = s.free := (sendSpine_foot _ _ _).same .free rfl
@[simp] theorem sendSpine_pending : (sendSpine dst p s).pending = s.pending := (sendSpine_foot _ _ _).same .pending rfl
@[simp] theorem sendSpine_keep : (sendSpine dst p s).keep = s.keep := (sendSpine_foot _ _ _).same .keep rfl
@[simp] theorem sendSpine_cat : (sendSpine dst p s).cat = s.cat := (sendSpine_foot _ _ _).same .cat rfl
@[simp] theorem sendSpine_pwr : (sendSpine dst p s).pwr = s.pwr := (sendSpine_foot _ _ _).same .pwr rfl
@[simp] theorem sendSpine_otp : (sendSpine dst p s).otp = s.otp := (sendSpine_foot _ _ _).same .otp rfl
@[simp] theorem sendSpine_kt : (sendSpine dst p s).kt = s.kt := (sendSpine_foot _ _ _).same .kt rfl
@[simp] theorem sendSpine_boot : (sendSpine dst p s).boot = s.boot := (sendSpine_foot _ _ _).same .boot rfl
@[simp] theorem sendSpine_mbx : (sendSpine dst p s).mbx = s.mbx := (sendSpine_foot _ _ _).same .mbx rfl
@[simp] theorem sendSpine_jr : (sendSpine dst p s).jr = s.jr := (sendSpine_foot _ _ _).same .jr rfl
@[simp] theorem sendSpine_stg : (sendSpine dst p s).stg = s.stg := (sendSpine_foot _ _ _).same .stg rfl
@[simp] theorem sendSpine_host : (sendSpine dst p s).host = s.host := (sendSpine_foot _ _ _).same .host rfl
@[simp] theorem sendSpine_log : (sendSpine dst p s).log = s.log := (sendSpine_foot _ _ _).same .log rfl
@[simp] theorem sendSpine_pair : (sendSpine dst p s).pair = s.pair := (sendSpine_foot _ _ _).same .pair rfl
@[simp] theorem sendSpine_lv : (sendSpine dst p s).lv = s.lv := (sendSpine_foot _ _ _).same .lv rfl
@[simp] theorem sendSpine_ket : (sendSpine dst p s).ket = s.ket := (sendSpine_foot _ _ _).same .ket rfl
@[simp] theorem sendSpine_afe : (sendSpine dst p s).afe = s.afe := (sendSpine_foot _ _ _).same .afe rfl
@[simp] theorem sendSpine_drv : (sendSpine dst p s).drv = s.drv := (sendSpine_foot _ _ _).same .drv rfl
@[simp] theorem sendSpine_can : (sendSpine dst p s).can = s.can := (sendSpine_foot _ _ _).same .can rfl
@[simp] theorem sendSpine_qre : (sendSpine dst p s).qre = s.qre := (sendSpine_foot _ _ _).same .qre rfl
@[simp] theorem sendSpine_mem : (sendSpine dst p s).mem = s.mem := (sendSpine_foot _ _ _).same .mem rfl
@[simp] theorem sendSpine_ep : (sendSpine dst p s).ep = s.ep := (sendSpine_foot _ _ _).same .ep rfl
@[simp] theorem sendSpine_pln : (sendSpine dst p s).pln = s.pln := (sendSpine_foot _ _ _).same .pln rfl
@[simp] theorem sendSpine_stw : (sendSpine dst p s).stw = s.stw := (sendSpine_foot _ _ _).same .stw rfl
end
section
variable (v : Nat) (s : State)
@[simp] theorem msix_now : (msix v s).now = s.now := (msix_foot _ _).same .now rfl
@[simp] theorem msix_free : (msix v s).free = s.free := (msix_foot _ _).same .free rfl
@[simp] theorem msix_pending : (msix v s).pending = s.pending := (msix_foot _ _).same .pending rfl
@[simp] theorem msix_keep : (msix v s).keep = s.keep := (msix_foot _ _).same .keep rfl
@[simp] theorem msix_cat : (msix v s).cat = s.cat := (msix_foot _ _).same .cat rfl
@[simp] theorem msix_pwr : (msix v s).pwr = s.pwr := (msix_foot _ _).same .pwr rfl
@[simp] theorem msix_otp : (msix v s).otp = s.otp := (msix_foot _ _).same .otp rfl
@[simp] theorem msix_kt : (msix v s).kt = s.kt := (msix_foot _ _).same .kt rfl
@[simp] theorem msix_boot : (msix v s).boot = s.boot := (msix_foot _ _).same .boot rfl
@[simp] theorem msix_mbx : (msix v s).mbx = s.mbx := (msix_foot _ _).same .mbx rfl
@[simp] theorem msix_jr : (msix v s).jr = s.jr := (msix_foot _ _).same .jr rfl
@[simp] theorem msix_stg : (msix v s).stg = s.stg := (msix_foot _ _).same .stg rfl
@[simp] theorem msix_log : (msix v s).log = s.log := (msix_foot _ _).same .log rfl
@[simp] theorem msix_pmc : (msix v s).pmc = s.pmc := (msix_foot _ _).same .pmc rfl
@[simp] theorem msix_spn : (msix v s).spn = s.spn := (msix_foot _ _).same .spn rfl
@[simp] theorem msix_pair : (msix v s).pair = s.pair := (msix_foot _ _).same .pair rfl
@[simp] theorem msix_lv : (msix v s).lv = s.lv := (msix_foot _ _).same .lv rfl
@[simp] theorem msix_ket : (msix v s).ket = s.ket := (msix_foot _ _).same .ket rfl
@[simp] theorem msix_afe : (msix v s).afe = s.afe := (msix_foot _ _).same .afe rfl
@[simp] theorem msix_drv : (msix v s).drv = s.drv := (msix_foot _ _).same .drv rfl
@[simp] theorem msix_can : (msix v s).can = s.can := (msix_foot _ _).same .can rfl
@[simp] theorem msix_qre : (msix v s).qre = s.qre := (msix_foot _ _).same .qre rfl
@[simp] theorem msix_mem : (msix v s).mem = s.mem := (msix_foot _ _).same .mem rfl
@[simp] theorem msix_ep : (msix v s).ep = s.ep := (msix_foot _ _).same .ep rfl
@[simp] theorem msix_pln : (msix v s).pln = s.pln := (msix_foot _ _).same .pln rfl
@[simp] theorem msix_stw : (msix v s).stw = s.stw := (msix_foot _ _).same .stw rfl
end
section
variable (code : Nat) (s : State)
@[simp] theorem wakeCause_now : (wakeCause code s).now = s.now := (wakeCause_foot _ _).same .now rfl
@[simp] theorem wakeCause_free : (wakeCause code s).free = s.free := (wakeCause_foot _ _).same .free rfl
@[simp] theorem wakeCause_pending : (wakeCause code s).pending = s.pending := (wakeCause_foot _ _).same .pending rfl
@[simp] theorem wakeCause_cat : (wakeCause code s).cat = s.cat := (wakeCause_foot _ _).same .cat rfl
@[simp] theorem wakeCause_pwr : (wakeCause code s).pwr = s.pwr := (wakeCause_foot _ _).same .pwr rfl
@[simp] theorem wakeCause_otp : (wakeCause code s).otp = s.otp := (wakeCause_foot _ _).same .otp rfl
@[simp] theorem wakeCause_kt : (wakeCause code s).kt = s.kt := (wakeCause_foot _ _).same .kt rfl
@[simp] theorem wakeCause_boot : (wakeCause code s).boot = s.boot := (wakeCause_foot _ _).same .boot rfl
@[simp] theorem wakeCause_mbx : (wakeCause code s).mbx = s.mbx := (wakeCause_foot _ _).same .mbx rfl
@[simp] theorem wakeCause_jr : (wakeCause code s).jr = s.jr := (wakeCause_foot _ _).same .jr rfl
@[simp] theorem wakeCause_stg : (wakeCause code s).stg = s.stg := (wakeCause_foot _ _).same .stg rfl
@[simp] theorem wakeCause_log : (wakeCause code s).log = s.log := (wakeCause_foot _ _).same .log rfl
@[simp] theorem wakeCause_pmc : (wakeCause code s).pmc = s.pmc := (wakeCause_foot _ _).same .pmc rfl
@[simp] theorem wakeCause_spn : (wakeCause code s).spn = s.spn := (wakeCause_foot _ _).same .spn rfl
@[simp] theorem wakeCause_pair : (wakeCause code s).pair = s.pair := (wakeCause_foot _ _).same .pair rfl
@[simp] theorem wakeCause_lv : (wakeCause code s).lv = s.lv := (wakeCause_foot _ _).same .lv rfl
@[simp] theorem wakeCause_ket : (wakeCause code s).ket = s.ket := (wakeCause_foot _ _).same .ket rfl
@[simp] theorem wakeCause_afe : (wakeCause code s).afe = s.afe := (wakeCause_foot _ _).same .afe rfl
@[simp] theorem wakeCause_drv : (wakeCause code s).drv = s.drv := (wakeCause_foot _ _).same .drv rfl
@[simp] theorem wakeCause_can : (wakeCause code s).can = s.can := (wakeCause_foot _ _).same .can rfl
@[simp] theorem wakeCause_qre : (wakeCause code s).qre = s.qre := (wakeCause_foot _ _).same .qre rfl
@[simp] theorem wakeCause_mem : (wakeCause code s).mem = s.mem := (wakeCause_foot _ _).same .mem rfl
@[simp] theorem wakeCause_ep : (wakeCause code s).ep = s.ep := (wakeCause_foot _ _).same .ep rfl
@[simp] theorem wakeCause_pln : (wakeCause code s).pln = s.pln := (wakeCause_foot _ _).same .pln rfl
@[simp] theorem wakeCause_stw : (wakeCause code s).stw = s.stw := (wakeCause_foot _ _).same .stw rfl
@[simp] theorem wakeCause_por : (wakeCause code s).keep.por = s.keep.por := keepCore_por ((wakeCause_foot _ _).same .core rfl)
@[simp] theorem wakeCause_cold : (wakeCause code s).keep.cold = s.keep.cold := keepCore_cold ((wakeCause_foot _ _).same .core rfl)
@[simp] theorem wakeCause_tenRead : (wakeCause code s).keep.tenRead = s.keep.tenRead := keepCore_tenRead ((wakeCause_foot _ _).same .core rfl)
@[simp] theorem wakeCause_readAt : (wakeCause code s).keep.readAt = s.keep.readAt := keepCore_readAt ((wakeCause_foot _ _).same .core rfl)
@[simp] theorem wakeCause_hourBase : (wakeCause code s).keep.hourBase = s.keep.hourBase := keepCore_hourBase ((wakeCause_foot _ _).same .core rfl)
@[simp] theorem wakeCause_hourFrom : (wakeCause code s).keep.hourFrom = s.keep.hourFrom := keepCore_hourFrom ((wakeCause_foot _ _).same .core rfl)
@[simp] theorem wakeCause_coarse : (wakeCause code s).keep.coarse = s.keep.coarse := keepCore_coarse ((wakeCause_foot _ _).same .core rfl)
@[simp] theorem wakeCause_pcycle : (wakeCause code s).keep.pcycle = s.keep.pcycle := keepCore_pcycle ((wakeCause_foot _ _).same .core rfl)
@[simp] theorem wakeCause_savedHour : (wakeCause code s).keep.savedHour = s.keep.savedHour := keepCore_savedHour ((wakeCause_foot _ _).same .core rfl)
@[simp] theorem wakeCause_savedCycle : (wakeCause code s).keep.savedCycle = s.keep.savedCycle := keepCore_savedCycle ((wakeCause_foot _ _).same .core rfl)
@[simp] theorem wakeCause_ten : (wakeCause code s).keep.ten = s.keep.ten := keepCore_ten ((wakeCause_foot _ _).same .core rfl)
@[simp] theorem wakeCause_capdn : (wakeCause code s).keep.capdn = s.keep.capdn := keepCore_capdn ((wakeCause_foot _ _).same .core rfl)
@[simp] theorem wakeCause_handoff : (wakeCause code s).keep.handoff = s.keep.handoff := keepCore_handoff ((wakeCause_foot _ _).same .core rfl)
@[simp] theorem wakeCause_handoffAt : (wakeCause code s).keep.handoffAt = s.keep.handoffAt := keepCore_handoffAt ((wakeCause_foot _ _).same .core rfl)
end
section
variable (code : Half) (sev : Nat) (data : List Nat) (cw : DWord) (s : State)
@[simp] theorem record_now : (record code sev data cw s).now = s.now := (record_foot _ _ _ _ _).same .now rfl
@[simp] theorem record_free : (record code sev data cw s).free = s.free := (record_foot _ _ _ _ _).same .free rfl
@[simp] theorem record_pending : (record code sev data cw s).pending = s.pending := (record_foot _ _ _ _ _).same .pending rfl
@[simp] theorem record_cat : (record code sev data cw s).cat = s.cat := (record_foot _ _ _ _ _).same .cat rfl
@[simp] theorem record_pwr : (record code sev data cw s).pwr = s.pwr := (record_foot _ _ _ _ _).same .pwr rfl
@[simp] theorem record_otp : (record code sev data cw s).otp = s.otp := (record_foot _ _ _ _ _).same .otp rfl
@[simp] theorem record_kt : (record code sev data cw s).kt = s.kt := (record_foot _ _ _ _ _).same .kt rfl
@[simp] theorem record_boot : (record code sev data cw s).boot = s.boot := (record_foot _ _ _ _ _).same .boot rfl
@[simp] theorem record_mbx : (record code sev data cw s).mbx = s.mbx := (record_foot _ _ _ _ _).same .mbx rfl
@[simp] theorem record_jr : (record code sev data cw s).jr = s.jr := (record_foot _ _ _ _ _).same .jr rfl
@[simp] theorem record_stg : (record code sev data cw s).stg = s.stg := (record_foot _ _ _ _ _).same .stg rfl
@[simp] theorem record_pair : (record code sev data cw s).pair = s.pair := (record_foot _ _ _ _ _).same .pair rfl
@[simp] theorem record_lv : (record code sev data cw s).lv = s.lv := (record_foot _ _ _ _ _).same .lv rfl
@[simp] theorem record_ket : (record code sev data cw s).ket = s.ket := (record_foot _ _ _ _ _).same .ket rfl
@[simp] theorem record_afe : (record code sev data cw s).afe = s.afe := (record_foot _ _ _ _ _).same .afe rfl
@[simp] theorem record_drv : (record code sev data cw s).drv = s.drv := (record_foot _ _ _ _ _).same .drv rfl
@[simp] theorem record_can : (record code sev data cw s).can = s.can := (record_foot _ _ _ _ _).same .can rfl
@[simp] theorem record_qre : (record code sev data cw s).qre = s.qre := (record_foot _ _ _ _ _).same .qre rfl
@[simp] theorem record_mem : (record code sev data cw s).mem = s.mem := (record_foot _ _ _ _ _).same .mem rfl
@[simp] theorem record_ep : (record code sev data cw s).ep = s.ep := (record_foot _ _ _ _ _).same .ep rfl
@[simp] theorem record_pln : (record code sev data cw s).pln = s.pln := (record_foot _ _ _ _ _).same .pln rfl
@[simp] theorem record_stw : (record code sev data cw s).stw = s.stw := (record_foot _ _ _ _ _).same .stw rfl
@[simp] theorem record_por : (record code sev data cw s).keep.por = s.keep.por := keepCore_por ((record_foot _ _ _ _ _).same .core rfl)
@[simp] theorem record_cold : (record code sev data cw s).keep.cold = s.keep.cold := keepCore_cold ((record_foot _ _ _ _ _).same .core rfl)
@[simp] theorem record_tenRead : (record code sev data cw s).keep.tenRead = s.keep.tenRead := keepCore_tenRead ((record_foot _ _ _ _ _).same .core rfl)
@[simp] theorem record_readAt : (record code sev data cw s).keep.readAt = s.keep.readAt := keepCore_readAt ((record_foot _ _ _ _ _).same .core rfl)
@[simp] theorem record_hourBase : (record code sev data cw s).keep.hourBase = s.keep.hourBase := keepCore_hourBase ((record_foot _ _ _ _ _).same .core rfl)
@[simp] theorem record_hourFrom : (record code sev data cw s).keep.hourFrom = s.keep.hourFrom := keepCore_hourFrom ((record_foot _ _ _ _ _).same .core rfl)
@[simp] theorem record_coarse : (record code sev data cw s).keep.coarse = s.keep.coarse := keepCore_coarse ((record_foot _ _ _ _ _).same .core rfl)
@[simp] theorem record_pcycle : (record code sev data cw s).keep.pcycle = s.keep.pcycle := keepCore_pcycle ((record_foot _ _ _ _ _).same .core rfl)
@[simp] theorem record_savedHour : (record code sev data cw s).keep.savedHour = s.keep.savedHour := keepCore_savedHour ((record_foot _ _ _ _ _).same .core rfl)
@[simp] theorem record_savedCycle : (record code sev data cw s).keep.savedCycle = s.keep.savedCycle := keepCore_savedCycle ((record_foot _ _ _ _ _).same .core rfl)
@[simp] theorem record_ten : (record code sev data cw s).keep.ten = s.keep.ten := keepCore_ten ((record_foot _ _ _ _ _).same .core rfl)
@[simp] theorem record_capdn : (record code sev data cw s).keep.capdn = s.keep.capdn := keepCore_capdn ((record_foot _ _ _ _ _).same .core rfl)
@[simp] theorem record_handoff : (record code sev data cw s).keep.handoff = s.keep.handoff := keepCore_handoff ((record_foot _ _ _ _ _).same .core rfl)
@[simp] theorem record_handoffAt : (record code sev data cw s).keep.handoffAt = s.keep.handoffAt := keepCore_handoffAt ((record_foot _ _ _ _ _).same .core rfl)
end
section
variable (code : Half) (sev : Nat) (data : List Nat) (cw : DWord) (ref : Nat) (s : State)
@[simp] theorem event_now : (event code sev data cw ref s).now = s.now := (event_foot _ _ _ _ _ _).same .now rfl
@[simp] theorem event_free : (event code sev data cw ref s).free = s.free := (event_foot _ _ _ _ _ _).same .free rfl
@[simp] theorem event_pending : (event code sev data cw ref s).pending = s.pending := (event_foot _ _ _ _ _ _).same .pending rfl
@[simp] theorem event_cat : (event code sev data cw ref s).cat = s.cat := (event_foot _ _ _ _ _ _).same .cat rfl
@[simp] theorem event_pwr : (event code sev data cw ref s).pwr = s.pwr := (event_foot _ _ _ _ _ _).same .pwr rfl
@[simp] theorem event_otp : (event code sev data cw ref s).otp = s.otp := (event_foot _ _ _ _ _ _).same .otp rfl
@[simp] theorem event_kt : (event code sev data cw ref s).kt = s.kt := (event_foot _ _ _ _ _ _).same .kt rfl
@[simp] theorem event_boot : (event code sev data cw ref s).boot = s.boot := (event_foot _ _ _ _ _ _).same .boot rfl
@[simp] theorem event_mbx : (event code sev data cw ref s).mbx = s.mbx := (event_foot _ _ _ _ _ _).same .mbx rfl
@[simp] theorem event_jr : (event code sev data cw ref s).jr = s.jr := (event_foot _ _ _ _ _ _).same .jr rfl
@[simp] theorem event_stg : (event code sev data cw ref s).stg = s.stg := (event_foot _ _ _ _ _ _).same .stg rfl
@[simp] theorem event_pair : (event code sev data cw ref s).pair = s.pair := (event_foot _ _ _ _ _ _).same .pair rfl
@[simp] theorem event_lv : (event code sev data cw ref s).lv = s.lv := (event_foot _ _ _ _ _ _).same .lv rfl
@[simp] theorem event_ket : (event code sev data cw ref s).ket = s.ket := (event_foot _ _ _ _ _ _).same .ket rfl
@[simp] theorem event_afe : (event code sev data cw ref s).afe = s.afe := (event_foot _ _ _ _ _ _).same .afe rfl
@[simp] theorem event_drv : (event code sev data cw ref s).drv = s.drv := (event_foot _ _ _ _ _ _).same .drv rfl
@[simp] theorem event_can : (event code sev data cw ref s).can = s.can := (event_foot _ _ _ _ _ _).same .can rfl
@[simp] theorem event_qre : (event code sev data cw ref s).qre = s.qre := (event_foot _ _ _ _ _ _).same .qre rfl
@[simp] theorem event_mem : (event code sev data cw ref s).mem = s.mem := (event_foot _ _ _ _ _ _).same .mem rfl
@[simp] theorem event_ep : (event code sev data cw ref s).ep = s.ep := (event_foot _ _ _ _ _ _).same .ep rfl
@[simp] theorem event_pln : (event code sev data cw ref s).pln = s.pln := (event_foot _ _ _ _ _ _).same .pln rfl
@[simp] theorem event_stw : (event code sev data cw ref s).stw = s.stw := (event_foot _ _ _ _ _ _).same .stw rfl
@[simp] theorem event_por : (event code sev data cw ref s).keep.por = s.keep.por := keepCore_por ((event_foot _ _ _ _ _ _).same .core rfl)
@[simp] theorem event_cold : (event code sev data cw ref s).keep.cold = s.keep.cold := keepCore_cold ((event_foot _ _ _ _ _ _).same .core rfl)
@[simp] theorem event_tenRead : (event code sev data cw ref s).keep.tenRead = s.keep.tenRead := keepCore_tenRead ((event_foot _ _ _ _ _ _).same .core rfl)
@[simp] theorem event_readAt : (event code sev data cw ref s).keep.readAt = s.keep.readAt := keepCore_readAt ((event_foot _ _ _ _ _ _).same .core rfl)
@[simp] theorem event_hourBase : (event code sev data cw ref s).keep.hourBase = s.keep.hourBase := keepCore_hourBase ((event_foot _ _ _ _ _ _).same .core rfl)
@[simp] theorem event_hourFrom : (event code sev data cw ref s).keep.hourFrom = s.keep.hourFrom := keepCore_hourFrom ((event_foot _ _ _ _ _ _).same .core rfl)
@[simp] theorem event_coarse : (event code sev data cw ref s).keep.coarse = s.keep.coarse := keepCore_coarse ((event_foot _ _ _ _ _ _).same .core rfl)
@[simp] theorem event_pcycle : (event code sev data cw ref s).keep.pcycle = s.keep.pcycle := keepCore_pcycle ((event_foot _ _ _ _ _ _).same .core rfl)
@[simp] theorem event_savedHour : (event code sev data cw ref s).keep.savedHour = s.keep.savedHour := keepCore_savedHour ((event_foot _ _ _ _ _ _).same .core rfl)
@[simp] theorem event_savedCycle : (event code sev data cw ref s).keep.savedCycle = s.keep.savedCycle := keepCore_savedCycle ((event_foot _ _ _ _ _ _).same .core rfl)
@[simp] theorem event_ten : (event code sev data cw ref s).keep.ten = s.keep.ten := keepCore_ten ((event_foot _ _ _ _ _ _).same .core rfl)
@[simp] theorem event_capdn : (event code sev data cw ref s).keep.capdn = s.keep.capdn := keepCore_capdn ((event_foot _ _ _ _ _ _).same .core rfl)
@[simp] theorem event_handoff : (event code sev data cw ref s).keep.handoff = s.keep.handoff := keepCore_handoff ((event_foot _ _ _ _ _ _).same .core rfl)
@[simp] theorem event_handoffAt : (event code sev data cw ref s).keep.handoffAt = s.keep.handoffAt := keepCore_handoffAt ((event_foot _ _ _ _ _ _).same .core rfl)
end
section
variable (code : Half) (sev : Nat) (data : List Nat) (cw : DWord) (s : State)
@[simp] theorem bareEvent_now : (bareEvent code sev data cw s).now = s.now := (bareEvent_foot _ _ _ _ _).same .now rfl
@[simp] theorem bareEvent_free : (bareEvent code sev data cw s).free = s.free := (bareEvent_foot _ _ _ _ _).same .free rfl
@[simp] theorem bareEvent_pending : (bareEvent code sev data cw s).pending = s.pending := (bareEvent_foot _ _ _ _ _).same .pending rfl
@[simp] theorem bareEvent_keep : (bareEvent code sev data cw s).keep = s.keep := (bareEvent_foot _ _ _ _ _).same .keep rfl
@[simp] theorem bareEvent_cat : (bareEvent code sev data cw s).cat = s.cat := (bareEvent_foot _ _ _ _ _).same .cat rfl
@[simp] theorem bareEvent_pwr : (bareEvent code sev data cw s).pwr = s.pwr := (bareEvent_foot _ _ _ _ _).same .pwr rfl
@[simp] theorem bareEvent_otp : (bareEvent code sev data cw s).otp = s.otp := (bareEvent_foot _ _ _ _ _).same .otp rfl
@[simp] theorem bareEvent_kt : (bareEvent code sev data cw s).kt = s.kt := (bareEvent_foot _ _ _ _ _).same .kt rfl
@[simp] theorem bareEvent_boot : (bareEvent code sev data cw s).boot = s.boot := (bareEvent_foot _ _ _ _ _).same .boot rfl
@[simp] theorem bareEvent_mbx : (bareEvent code sev data cw s).mbx = s.mbx := (bareEvent_foot _ _ _ _ _).same .mbx rfl
@[simp] theorem bareEvent_jr : (bareEvent code sev data cw s).jr = s.jr := (bareEvent_foot _ _ _ _ _).same .jr rfl
@[simp] theorem bareEvent_stg : (bareEvent code sev data cw s).stg = s.stg := (bareEvent_foot _ _ _ _ _).same .stg rfl
@[simp] theorem bareEvent_log : (bareEvent code sev data cw s).log = s.log := (bareEvent_foot _ _ _ _ _).same .log rfl
@[simp] theorem bareEvent_spn : (bareEvent code sev data cw s).spn = s.spn := (bareEvent_foot _ _ _ _ _).same .spn rfl
@[simp] theorem bareEvent_pair : (bareEvent code sev data cw s).pair = s.pair := (bareEvent_foot _ _ _ _ _).same .pair rfl
@[simp] theorem bareEvent_lv : (bareEvent code sev data cw s).lv = s.lv := (bareEvent_foot _ _ _ _ _).same .lv rfl
@[simp] theorem bareEvent_ket : (bareEvent code sev data cw s).ket = s.ket := (bareEvent_foot _ _ _ _ _).same .ket rfl
@[simp] theorem bareEvent_afe : (bareEvent code sev data cw s).afe = s.afe := (bareEvent_foot _ _ _ _ _).same .afe rfl
@[simp] theorem bareEvent_drv : (bareEvent code sev data cw s).drv = s.drv := (bareEvent_foot _ _ _ _ _).same .drv rfl
@[simp] theorem bareEvent_can : (bareEvent code sev data cw s).can = s.can := (bareEvent_foot _ _ _ _ _).same .can rfl
@[simp] theorem bareEvent_qre : (bareEvent code sev data cw s).qre = s.qre := (bareEvent_foot _ _ _ _ _).same .qre rfl
@[simp] theorem bareEvent_mem : (bareEvent code sev data cw s).mem = s.mem := (bareEvent_foot _ _ _ _ _).same .mem rfl
@[simp] theorem bareEvent_ep : (bareEvent code sev data cw s).ep = s.ep := (bareEvent_foot _ _ _ _ _).same .ep rfl
@[simp] theorem bareEvent_pln : (bareEvent code sev data cw s).pln = s.pln := (bareEvent_foot _ _ _ _ _).same .pln rfl
@[simp] theorem bareEvent_stw : (bareEvent code sev data cw s).stw = s.stw := (bareEvent_foot _ _ _ _ _).same .stw rfl
end
section
variable (m : Nat) (r : Resp) (s : State)
@[simp] theorem respond_now : (respond m r s).now = s.now := (respond_foot _ _ _).same .now rfl
@[simp] theorem respond_free : (respond m r s).free = s.free := (respond_foot _ _ _).same .free rfl
@[simp] theorem respond_out : (respond m r s).out = s.out := (respond_foot _ _ _).same .out rfl
@[simp] theorem respond_pending : (respond m r s).pending = s.pending := (respond_foot _ _ _).same .pending rfl
@[simp] theorem respond_keep : (respond m r s).keep = s.keep := (respond_foot _ _ _).same .keep rfl
@[simp] theorem respond_cat : (respond m r s).cat = s.cat := (respond_foot _ _ _).same .cat rfl
@[simp] theorem respond_pwr : (respond m r s).pwr = s.pwr := (respond_foot _ _ _).same .pwr rfl
@[simp] theorem respond_otp : (respond m r s).otp = s.otp := (respond_foot _ _ _).same .otp rfl
@[simp] theorem respond_kt : (respond m r s).kt = s.kt := (respond_foot _ _ _).same .kt rfl
@[simp] theorem respond_boot : (respond m r s).boot = s.boot := (respond_foot _ _ _).same .boot rfl
@[simp] theorem respond_jr : (respond m r s).jr = s.jr := (respond_foot _ _ _).same .jr rfl
@[simp] theorem respond_stg : (respond m r s).stg = s.stg := (respond_foot _ _ _).same .stg rfl
@[simp] theorem respond_host : (respond m r s).host = s.host := (respond_foot _ _ _).same .host rfl
@[simp] theorem respond_log : (respond m r s).log = s.log := (respond_foot _ _ _).same .log rfl
@[simp] theorem respond_pmc : (respond m r s).pmc = s.pmc := (respond_foot _ _ _).same .pmc rfl
@[simp] theorem respond_spn : (respond m r s).spn = s.spn := (respond_foot _ _ _).same .spn rfl
@[simp] theorem respond_pair : (respond m r s).pair = s.pair := (respond_foot _ _ _).same .pair rfl
@[simp] theorem respond_lv : (respond m r s).lv = s.lv := (respond_foot _ _ _).same .lv rfl
@[simp] theorem respond_ket : (respond m r s).ket = s.ket := (respond_foot _ _ _).same .ket rfl
@[simp] theorem respond_afe : (respond m r s).afe = s.afe := (respond_foot _ _ _).same .afe rfl
@[simp] theorem respond_drv : (respond m r s).drv = s.drv := (respond_foot _ _ _).same .drv rfl
@[simp] theorem respond_can : (respond m r s).can = s.can := (respond_foot _ _ _).same .can rfl
@[simp] theorem respond_qre : (respond m r s).qre = s.qre := (respond_foot _ _ _).same .qre rfl
@[simp] theorem respond_mem : (respond m r s).mem = s.mem := (respond_foot _ _ _).same .mem rfl
@[simp] theorem respond_ep : (respond m r s).ep = s.ep := (respond_foot _ _ _).same .ep rfl
@[simp] theorem respond_pln : (respond m r s).pln = s.pln := (respond_foot _ _ _).same .pln rfl
end
section
variable (j : Nat) (f : JEntry → JEntry) (s : State)
@[simp] theorem onEntry_now : (onEntry j f s).now = s.now := (onEntry_foot _ _ _).same .now rfl
@[simp] theorem onEntry_free : (onEntry j f s).free = s.free := (onEntry_foot _ _ _).same .free rfl
@[simp] theorem onEntry_out : (onEntry j f s).out = s.out := (onEntry_foot _ _ _).same .out rfl
@[simp] theorem onEntry_pending : (onEntry j f s).pending = s.pending := (onEntry_foot _ _ _).same .pending rfl
@[simp] theorem onEntry_keep : (onEntry j f s).keep = s.keep := (onEntry_foot _ _ _).same .keep rfl
@[simp] theorem onEntry_cat : (onEntry j f s).cat = s.cat := (onEntry_foot _ _ _).same .cat rfl
@[simp] theorem onEntry_pwr : (onEntry j f s).pwr = s.pwr := (onEntry_foot _ _ _).same .pwr rfl
@[simp] theorem onEntry_otp : (onEntry j f s).otp = s.otp := (onEntry_foot _ _ _).same .otp rfl
@[simp] theorem onEntry_kt : (onEntry j f s).kt = s.kt := (onEntry_foot _ _ _).same .kt rfl
@[simp] theorem onEntry_boot : (onEntry j f s).boot = s.boot := (onEntry_foot _ _ _).same .boot rfl
@[simp] theorem onEntry_mbx : (onEntry j f s).mbx = s.mbx := (onEntry_foot _ _ _).same .mbx rfl
@[simp] theorem onEntry_stg : (onEntry j f s).stg = s.stg := (onEntry_foot _ _ _).same .stg rfl
@[simp] theorem onEntry_host : (onEntry j f s).host = s.host := (onEntry_foot _ _ _).same .host rfl
@[simp] theorem onEntry_log : (onEntry j f s).log = s.log := (onEntry_foot _ _ _).same .log rfl
@[simp] theorem onEntry_pmc : (onEntry j f s).pmc = s.pmc := (onEntry_foot _ _ _).same .pmc rfl
@[simp] theorem onEntry_spn : (onEntry j f s).spn = s.spn := (onEntry_foot _ _ _).same .spn rfl
@[simp] theorem onEntry_pair : (onEntry j f s).pair = s.pair := (onEntry_foot _ _ _).same .pair rfl
@[simp] theorem onEntry_lv : (onEntry j f s).lv = s.lv := (onEntry_foot _ _ _).same .lv rfl
@[simp] theorem onEntry_ket : (onEntry j f s).ket = s.ket := (onEntry_foot _ _ _).same .ket rfl
@[simp] theorem onEntry_afe : (onEntry j f s).afe = s.afe := (onEntry_foot _ _ _).same .afe rfl
@[simp] theorem onEntry_drv : (onEntry j f s).drv = s.drv := (onEntry_foot _ _ _).same .drv rfl
@[simp] theorem onEntry_can : (onEntry j f s).can = s.can := (onEntry_foot _ _ _).same .can rfl
@[simp] theorem onEntry_qre : (onEntry j f s).qre = s.qre := (onEntry_foot _ _ _).same .qre rfl
@[simp] theorem onEntry_mem : (onEntry j f s).mem = s.mem := (onEntry_foot _ _ _).same .mem rfl
@[simp] theorem onEntry_ep : (onEntry j f s).ep = s.ep := (onEntry_foot _ _ _).same .ep rfl
@[simp] theorem onEntry_pln : (onEntry j f s).pln = s.pln := (onEntry_foot _ _ _).same .pln rfl
@[simp] theorem onEntry_stw : (onEntry j f s).stw = s.stw := (onEntry_foot _ _ _).same .stw rfl
end
section
variable (j : Nat) (s : State)
@[simp] theorem setDone_now : (setDone j s).now = s.now := (setDone_foot _ _).same .now rfl
@[simp] theorem setDone_free : (setDone j s).free = s.free := (setDone_foot _ _).same .free rfl
@[simp] theorem setDone_out : (setDone j s).out = s.out := (setDone_foot _ _).same .out rfl
@[simp] theorem setDone_pending : (setDone j s).pending = s.pending := (setDone_foot _ _).same .pending rfl
@[simp] theorem setDone_keep : (setDone j s).keep = s.keep := (setDone_foot _ _).same .keep rfl
@[simp] theorem setDone_cat : (setDone j s).cat = s.cat := (setDone_foot _ _).same .cat rfl
@[simp] theorem setDone_pwr : (setDone j s).pwr = s.pwr := (setDone_foot _ _).same .pwr rfl
@[simp] theorem setDone_otp : (setDone j s).otp = s.otp := (setDone_foot _ _).same .otp rfl
@[simp] theorem setDone_kt : (setDone j s).kt = s.kt := (setDone_foot _ _).same .kt rfl
@[simp] theorem setDone_boot : (setDone j s).boot = s.boot := (setDone_foot _ _).same .boot rfl
@[simp] theorem setDone_host : (setDone j s).host = s.host := (setDone_foot _ _).same .host rfl
@[simp] theorem setDone_log : (setDone j s).log = s.log := (setDone_foot _ _).same .log rfl
@[simp] theorem setDone_pmc : (setDone j s).pmc = s.pmc := (setDone_foot _ _).same .pmc rfl
@[simp] theorem setDone_spn : (setDone j s).spn = s.spn := (setDone_foot _ _).same .spn rfl
@[simp] theorem setDone_lv : (setDone j s).lv = s.lv := (setDone_foot _ _).same .lv rfl
@[simp] theorem setDone_ket : (setDone j s).ket = s.ket := (setDone_foot _ _).same .ket rfl
@[simp] theorem setDone_afe : (setDone j s).afe = s.afe := (setDone_foot _ _).same .afe rfl
@[simp] theorem setDone_drv : (setDone j s).drv = s.drv := (setDone_foot _ _).same .drv rfl
@[simp] theorem setDone_can : (setDone j s).can = s.can := (setDone_foot _ _).same .can rfl
@[simp] theorem setDone_qre : (setDone j s).qre = s.qre := (setDone_foot _ _).same .qre rfl
@[simp] theorem setDone_mem : (setDone j s).mem = s.mem := (setDone_foot _ _).same .mem rfl
@[simp] theorem setDone_ep : (setDone j s).ep = s.ep := (setDone_foot _ _).same .ep rfl
@[simp] theorem setDone_pln : (setDone j s).pln = s.pln := (setDone_foot _ _).same .pln rfl
end
section
variable (e : JEntry) (s : State)
@[simp] theorem mirror_now : (mirror e s).now = s.now := (mirror_foot _ _).same .now rfl
@[simp] theorem mirror_free : (mirror e s).free = s.free := (mirror_foot _ _).same .free rfl
@[simp] theorem mirror_pending : (mirror e s).pending = s.pending := (mirror_foot _ _).same .pending rfl
@[simp] theorem mirror_keep : (mirror e s).keep = s.keep := (mirror_foot _ _).same .keep rfl
@[simp] theorem mirror_cat : (mirror e s).cat = s.cat := (mirror_foot _ _).same .cat rfl
@[simp] theorem mirror_pwr : (mirror e s).pwr = s.pwr := (mirror_foot _ _).same .pwr rfl
@[simp] theorem mirror_otp : (mirror e s).otp = s.otp := (mirror_foot _ _).same .otp rfl
@[simp] theorem mirror_kt : (mirror e s).kt = s.kt := (mirror_foot _ _).same .kt rfl
@[simp] theorem mirror_boot : (mirror e s).boot = s.boot := (mirror_foot _ _).same .boot rfl
@[simp] theorem mirror_mbx : (mirror e s).mbx = s.mbx := (mirror_foot _ _).same .mbx rfl
@[simp] theorem mirror_stg : (mirror e s).stg = s.stg := (mirror_foot _ _).same .stg rfl
@[simp] theorem mirror_host : (mirror e s).host = s.host := (mirror_foot _ _).same .host rfl
@[simp] theorem mirror_log : (mirror e s).log = s.log := (mirror_foot _ _).same .log rfl
@[simp] theorem mirror_pair : (mirror e s).pair = s.pair := (mirror_foot _ _).same .pair rfl
@[simp] theorem mirror_lv : (mirror e s).lv = s.lv := (mirror_foot _ _).same .lv rfl
@[simp] theorem mirror_ket : (mirror e s).ket = s.ket := (mirror_foot _ _).same .ket rfl
@[simp] theorem mirror_afe : (mirror e s).afe = s.afe := (mirror_foot _ _).same .afe rfl
@[simp] theorem mirror_drv : (mirror e s).drv = s.drv := (mirror_foot _ _).same .drv rfl
@[simp] theorem mirror_can : (mirror e s).can = s.can := (mirror_foot _ _).same .can rfl
@[simp] theorem mirror_qre : (mirror e s).qre = s.qre := (mirror_foot _ _).same .qre rfl
@[simp] theorem mirror_mem : (mirror e s).mem = s.mem := (mirror_foot _ _).same .mem rfl
@[simp] theorem mirror_ep : (mirror e s).ep = s.ep := (mirror_foot _ _).same .ep rfl
@[simp] theorem mirror_pln : (mirror e s).pln = s.pln := (mirror_foot _ _).same .pln rfl
@[simp] theorem mirror_stw : (mirror e s).stw = s.stw := (mirror_foot _ _).same .stw rfl
end
section
variable (j : Nat) (result : Word) (data : Bytes) (s : State)
@[simp] theorem finish_now : (finish j result data s).now = s.now := (finish_foot _ _ _ _).same .now rfl
@[simp] theorem finish_free : (finish j result data s).free = s.free := (finish_foot _ _ _ _).same .free rfl
@[simp] theorem finish_pending : (finish j result data s).pending = s.pending := (finish_foot _ _ _ _).same .pending rfl
@[simp] theorem finish_keep : (finish j result data s).keep = s.keep := (finish_foot _ _ _ _).same .keep rfl
@[simp] theorem finish_cat : (finish j result data s).cat = s.cat := (finish_foot _ _ _ _).same .cat rfl
@[simp] theorem finish_pwr : (finish j result data s).pwr = s.pwr := (finish_foot _ _ _ _).same .pwr rfl
@[simp] theorem finish_otp : (finish j result data s).otp = s.otp := (finish_foot _ _ _ _).same .otp rfl
@[simp] theorem finish_kt : (finish j result data s).kt = s.kt := (finish_foot _ _ _ _).same .kt rfl
@[simp] theorem finish_boot : (finish j result data s).boot = s.boot := (finish_foot _ _ _ _).same .boot rfl
@[simp] theorem finish_host : (finish j result data s).host = s.host := (finish_foot _ _ _ _).same .host rfl
@[simp] theorem finish_log : (finish j result data s).log = s.log := (finish_foot _ _ _ _).same .log rfl
@[simp] theorem finish_lv : (finish j result data s).lv = s.lv := (finish_foot _ _ _ _).same .lv rfl
@[simp] theorem finish_ket : (finish j result data s).ket = s.ket := (finish_foot _ _ _ _).same .ket rfl
@[simp] theorem finish_afe : (finish j result data s).afe = s.afe := (finish_foot _ _ _ _).same .afe rfl
@[simp] theorem finish_drv : (finish j result data s).drv = s.drv := (finish_foot _ _ _ _).same .drv rfl
@[simp] theorem finish_can : (finish j result data s).can = s.can := (finish_foot _ _ _ _).same .can rfl
@[simp] theorem finish_qre : (finish j result data s).qre = s.qre := (finish_foot _ _ _ _).same .qre rfl
@[simp] theorem finish_mem : (finish j result data s).mem = s.mem := (finish_foot _ _ _ _).same .mem rfl
@[simp] theorem finish_ep : (finish j result data s).ep = s.ep := (finish_foot _ _ _ _).same .ep rfl
@[simp] theorem finish_pln : (finish j result data s).pln = s.pln := (finish_foot _ _ _ _).same .pln rfl
end
section
variable (j : Nat) (result : Word) (s : State)
@[simp] theorem finish0_now : (finish0 j result s).now = s.now := (finish0_foot _ _ _).same .now rfl
@[simp] theorem finish0_free : (finish0 j result s).free = s.free := (finish0_foot _ _ _).same .free rfl
@[simp] theorem finish0_pending : (finish0 j result s).pending = s.pending := (finish0_foot _ _ _).same .pending rfl
@[simp] theorem finish0_keep : (finish0 j result s).keep = s.keep := (finish0_foot _ _ _).same .keep rfl
@[simp] theorem finish0_cat : (finish0 j result s).cat = s.cat := (finish0_foot _ _ _).same .cat rfl
@[simp] theorem finish0_pwr : (finish0 j result s).pwr = s.pwr := (finish0_foot _ _ _).same .pwr rfl
@[simp] theorem finish0_otp : (finish0 j result s).otp = s.otp := (finish0_foot _ _ _).same .otp rfl
@[simp] theorem finish0_kt : (finish0 j result s).kt = s.kt := (finish0_foot _ _ _).same .kt rfl
@[simp] theorem finish0_boot : (finish0 j result s).boot = s.boot := (finish0_foot _ _ _).same .boot rfl
@[simp] theorem finish0_host : (finish0 j result s).host = s.host := (finish0_foot _ _ _).same .host rfl
@[simp] theorem finish0_log : (finish0 j result s).log = s.log := (finish0_foot _ _ _).same .log rfl
@[simp] theorem finish0_lv : (finish0 j result s).lv = s.lv := (finish0_foot _ _ _).same .lv rfl
@[simp] theorem finish0_ket : (finish0 j result s).ket = s.ket := (finish0_foot _ _ _).same .ket rfl
@[simp] theorem finish0_afe : (finish0 j result s).afe = s.afe := (finish0_foot _ _ _).same .afe rfl
@[simp] theorem finish0_drv : (finish0 j result s).drv = s.drv := (finish0_foot _ _ _).same .drv rfl
@[simp] theorem finish0_can : (finish0 j result s).can = s.can := (finish0_foot _ _ _).same .can rfl
@[simp] theorem finish0_qre : (finish0 j result s).qre = s.qre := (finish0_foot _ _ _).same .qre rfl
@[simp] theorem finish0_mem : (finish0 j result s).mem = s.mem := (finish0_foot _ _ _).same .mem rfl
@[simp] theorem finish0_ep : (finish0 j result s).ep = s.ep := (finish0_foot _ _ _).same .ep rfl
@[simp] theorem finish0_pln : (finish0 j result s).pln = s.pln := (finish0_foot _ _ _).same .pln rfl
end
section
variable (b : BootState) (s : State)
@[simp] theorem setBoot_now : (setBoot b s).now = s.now := (setBoot_foot _ _).same .now rfl
@[simp] theorem setBoot_free : (setBoot b s).free = s.free := (setBoot_foot _ _).same .free rfl
@[simp] theorem setBoot_pending : (setBoot b s).pending = s.pending := (setBoot_foot _ _).same .pending rfl
@[simp] theorem setBoot_keep : (setBoot b s).keep = s.keep := (setBoot_foot _ _).same .keep rfl
@[simp] theorem setBoot_cat : (setBoot b s).cat = s.cat := (setBoot_foot _ _).same .cat rfl
@[simp] theorem setBoot_pwr : (setBoot b s).pwr = s.pwr := (setBoot_foot _ _).same .pwr rfl
@[simp] theorem setBoot_otp : (setBoot b s).otp = s.otp := (setBoot_foot _ _).same .otp rfl
@[simp] theorem setBoot_kt : (setBoot b s).kt = s.kt := (setBoot_foot _ _).same .kt rfl
@[simp] theorem setBoot_mbx : (setBoot b s).mbx = s.mbx := (setBoot_foot _ _).same .mbx rfl
@[simp] theorem setBoot_jr : (setBoot b s).jr = s.jr := (setBoot_foot _ _).same .jr rfl
@[simp] theorem setBoot_stg : (setBoot b s).stg = s.stg := (setBoot_foot _ _).same .stg rfl
@[simp] theorem setBoot_host : (setBoot b s).host = s.host := (setBoot_foot _ _).same .host rfl
@[simp] theorem setBoot_log : (setBoot b s).log = s.log := (setBoot_foot _ _).same .log rfl
@[simp] theorem setBoot_pmc : (setBoot b s).pmc = s.pmc := (setBoot_foot _ _).same .pmc rfl
@[simp] theorem setBoot_spn : (setBoot b s).spn = s.spn := (setBoot_foot _ _).same .spn rfl
@[simp] theorem setBoot_pair : (setBoot b s).pair = s.pair := (setBoot_foot _ _).same .pair rfl
@[simp] theorem setBoot_lv : (setBoot b s).lv = s.lv := (setBoot_foot _ _).same .lv rfl
@[simp] theorem setBoot_ket : (setBoot b s).ket = s.ket := (setBoot_foot _ _).same .ket rfl
@[simp] theorem setBoot_afe : (setBoot b s).afe = s.afe := (setBoot_foot _ _).same .afe rfl
@[simp] theorem setBoot_drv : (setBoot b s).drv = s.drv := (setBoot_foot _ _).same .drv rfl
@[simp] theorem setBoot_can : (setBoot b s).can = s.can := (setBoot_foot _ _).same .can rfl
@[simp] theorem setBoot_qre : (setBoot b s).qre = s.qre := (setBoot_foot _ _).same .qre rfl
@[simp] theorem setBoot_mem : (setBoot b s).mem = s.mem := (setBoot_foot _ _).same .mem rfl
@[simp] theorem setBoot_ep : (setBoot b s).ep = s.ep := (setBoot_foot _ _).same .ep rfl
@[simp] theorem setBoot_pln : (setBoot b s).pln = s.pln := (setBoot_foot _ _).same .pln rfl
@[simp] theorem setBoot_stw : (setBoot b s).stw = s.stw := (setBoot_foot _ _).same .stw rfl
end
section
variable (t : Nat) (f : Agent → Agent) (s : State)
@[simp] theorem onAgent_now : (onAgent t f s).now = s.now := (onAgent_foot _ _ _).same .now rfl
@[simp] theorem onAgent_free : (onAgent t f s).free = s.free := (onAgent_foot _ _ _).same .free rfl
@[simp] theorem onAgent_out : (onAgent t f s).out = s.out := (onAgent_foot _ _ _).same .out rfl
@[simp] theorem onAgent_pending : (onAgent t f s).pending = s.pending := (onAgent_foot _ _ _).same .pending rfl
@[simp] theorem onAgent_keep : (onAgent t f s).keep = s.keep := (onAgent_foot _ _ _).same .keep rfl
@[simp] theorem onAgent_cat : (onAgent t f s).cat = s.cat := (onAgent_foot _ _ _).same .cat rfl
@[simp] theorem onAgent_pwr : (onAgent t f s).pwr = s.pwr := (onAgent_foot _ _ _).same .pwr rfl
@[simp] theorem onAgent_otp : (onAgent t f s).otp = s.otp := (onAgent_foot _ _ _).same .otp rfl
@[simp] theorem onAgent_kt : (onAgent t f s).kt = s.kt := (onAgent_foot _ _ _).same .kt rfl
@[simp] theorem onAgent_boot : (onAgent t f s).boot = s.boot := (onAgent_foot _ _ _).same .boot rfl
@[simp] theorem onAgent_mbx : (onAgent t f s).mbx = s.mbx := (onAgent_foot _ _ _).same .mbx rfl
@[simp] theorem onAgent_jr : (onAgent t f s).jr = s.jr := (onAgent_foot _ _ _).same .jr rfl
@[simp] theorem onAgent_stg : (onAgent t f s).stg = s.stg := (onAgent_foot _ _ _).same .stg rfl
@[simp] theorem onAgent_host : (onAgent t f s).host = s.host := (onAgent_foot _ _ _).same .host rfl
@[simp] theorem onAgent_log : (onAgent t f s).log = s.log := (onAgent_foot _ _ _).same .log rfl
@[simp] theorem onAgent_pmc : (onAgent t f s).pmc = s.pmc := (onAgent_foot _ _ _).same .pmc rfl
@[simp] theorem onAgent_spn : (onAgent t f s).spn = s.spn := (onAgent_foot _ _ _).same .spn rfl
@[simp] theorem onAgent_pair : (onAgent t f s).pair = s.pair := (onAgent_foot _ _ _).same .pair rfl
@[simp] theorem onAgent_lv : (onAgent t f s).lv = s.lv := (onAgent_foot _ _ _).same .lv rfl
@[simp] theorem onAgent_ket : (onAgent t f s).ket = s.ket := (onAgent_foot _ _ _).same .ket rfl
@[simp] theorem onAgent_afe : (onAgent t f s).afe = s.afe := (onAgent_foot _ _ _).same .afe rfl
@[simp] theorem onAgent_drv : (onAgent t f s).drv = s.drv := (onAgent_foot _ _ _).same .drv rfl
@[simp] theorem onAgent_can : (onAgent t f s).can = s.can := (onAgent_foot _ _ _).same .can rfl
@[simp] theorem onAgent_qre : (onAgent t f s).qre = s.qre := (onAgent_foot _ _ _).same .qre rfl
@[simp] theorem onAgent_mem : (onAgent t f s).mem = s.mem := (onAgent_foot _ _ _).same .mem rfl
@[simp] theorem onAgent_ep : (onAgent t f s).ep = s.ep := (onAgent_foot _ _ _).same .ep rfl
@[simp] theorem onAgent_pln : (onAgent t f s).pln = s.pln := (onAgent_foot _ _ _).same .pln rfl
end
section
variable (t : Nat) (f : Tray → Tray) (s : State)
@[simp] theorem onTray_now : (onTray t f s).now = s.now := (onTray_foot _ _ _).same .now rfl
@[simp] theorem onTray_free : (onTray t f s).free = s.free := (onTray_foot _ _ _).same .free rfl
@[simp] theorem onTray_out : (onTray t f s).out = s.out := (onTray_foot _ _ _).same .out rfl
@[simp] theorem onTray_pending : (onTray t f s).pending = s.pending := (onTray_foot _ _ _).same .pending rfl
@[simp] theorem onTray_keep : (onTray t f s).keep = s.keep := (onTray_foot _ _ _).same .keep rfl
@[simp] theorem onTray_cat : (onTray t f s).cat = s.cat := (onTray_foot _ _ _).same .cat rfl
@[simp] theorem onTray_pwr : (onTray t f s).pwr = s.pwr := (onTray_foot _ _ _).same .pwr rfl
@[simp] theorem onTray_otp : (onTray t f s).otp = s.otp := (onTray_foot _ _ _).same .otp rfl
@[simp] theorem onTray_kt : (onTray t f s).kt = s.kt := (onTray_foot _ _ _).same .kt rfl
@[simp] theorem onTray_boot : (onTray t f s).boot = s.boot := (onTray_foot _ _ _).same .boot rfl
@[simp] theorem onTray_mbx : (onTray t f s).mbx = s.mbx := (onTray_foot _ _ _).same .mbx rfl
@[simp] theorem onTray_jr : (onTray t f s).jr = s.jr := (onTray_foot _ _ _).same .jr rfl
@[simp] theorem onTray_stg : (onTray t f s).stg = s.stg := (onTray_foot _ _ _).same .stg rfl
@[simp] theorem onTray_host : (onTray t f s).host = s.host := (onTray_foot _ _ _).same .host rfl
@[simp] theorem onTray_log : (onTray t f s).log = s.log := (onTray_foot _ _ _).same .log rfl
@[simp] theorem onTray_pmc : (onTray t f s).pmc = s.pmc := (onTray_foot _ _ _).same .pmc rfl
@[simp] theorem onTray_spn : (onTray t f s).spn = s.spn := (onTray_foot _ _ _).same .spn rfl
@[simp] theorem onTray_pair : (onTray t f s).pair = s.pair := (onTray_foot _ _ _).same .pair rfl
@[simp] theorem onTray_ket : (onTray t f s).ket = s.ket := (onTray_foot _ _ _).same .ket rfl
@[simp] theorem onTray_afe : (onTray t f s).afe = s.afe := (onTray_foot _ _ _).same .afe rfl
@[simp] theorem onTray_drv : (onTray t f s).drv = s.drv := (onTray_foot _ _ _).same .drv rfl
@[simp] theorem onTray_can : (onTray t f s).can = s.can := (onTray_foot _ _ _).same .can rfl
@[simp] theorem onTray_qre : (onTray t f s).qre = s.qre := (onTray_foot _ _ _).same .qre rfl
@[simp] theorem onTray_mem : (onTray t f s).mem = s.mem := (onTray_foot _ _ _).same .mem rfl
@[simp] theorem onTray_ep : (onTray t f s).ep = s.ep := (onTray_foot _ _ _).same .ep rfl
@[simp] theorem onTray_pln : (onTray t f s).pln = s.pln := (onTray_foot _ _ _).same .pln rfl
@[simp] theorem onTray_stw : (onTray t f s).stw = s.stw := (onTray_foot _ _ _).same .stw rfl
end
section
variable (n : Nat) (f : Leak → Leak) (s : State)
@[simp] theorem onLeak_now : (onLeak n f s).now = s.now := (onLeak_foot _ _ _).same .now rfl
@[simp] theorem onLeak_free : (onLeak n f s).free = s.free := (onLeak_foot _ _ _).same .free rfl
@[simp] theorem onLeak_out : (onLeak n f s).out = s.out := (onLeak_foot _ _ _).same .out rfl
@[simp] theorem onLeak_pending : (onLeak n f s).pending = s.pending := (onLeak_foot _ _ _).same .pending rfl
@[simp] theorem onLeak_keep : (onLeak n f s).keep = s.keep := (onLeak_foot _ _ _).same .keep rfl
@[simp] theorem onLeak_cat : (onLeak n f s).cat = s.cat := (onLeak_foot _ _ _).same .cat rfl
@[simp] theorem onLeak_pwr : (onLeak n f s).pwr = s.pwr := (onLeak_foot _ _ _).same .pwr rfl
@[simp] theorem onLeak_otp : (onLeak n f s).otp = s.otp := (onLeak_foot _ _ _).same .otp rfl
@[simp] theorem onLeak_kt : (onLeak n f s).kt = s.kt := (onLeak_foot _ _ _).same .kt rfl
@[simp] theorem onLeak_boot : (onLeak n f s).boot = s.boot := (onLeak_foot _ _ _).same .boot rfl
@[simp] theorem onLeak_mbx : (onLeak n f s).mbx = s.mbx := (onLeak_foot _ _ _).same .mbx rfl
@[simp] theorem onLeak_jr : (onLeak n f s).jr = s.jr := (onLeak_foot _ _ _).same .jr rfl
@[simp] theorem onLeak_stg : (onLeak n f s).stg = s.stg := (onLeak_foot _ _ _).same .stg rfl
@[simp] theorem onLeak_host : (onLeak n f s).host = s.host := (onLeak_foot _ _ _).same .host rfl
@[simp] theorem onLeak_log : (onLeak n f s).log = s.log := (onLeak_foot _ _ _).same .log rfl
@[simp] theorem onLeak_pmc : (onLeak n f s).pmc = s.pmc := (onLeak_foot _ _ _).same .pmc rfl
@[simp] theorem onLeak_spn : (onLeak n f s).spn = s.spn := (onLeak_foot _ _ _).same .spn rfl
@[simp] theorem onLeak_pair : (onLeak n f s).pair = s.pair := (onLeak_foot _ _ _).same .pair rfl
@[simp] theorem onLeak_lv : (onLeak n f s).lv = s.lv := (onLeak_foot _ _ _).same .lv rfl
@[simp] theorem onLeak_afe : (onLeak n f s).afe = s.afe := (onLeak_foot _ _ _).same .afe rfl
@[simp] theorem onLeak_drv : (onLeak n f s).drv = s.drv := (onLeak_foot _ _ _).same .drv rfl
@[simp] theorem onLeak_can : (onLeak n f s).can = s.can := (onLeak_foot _ _ _).same .can rfl
@[simp] theorem onLeak_qre : (onLeak n f s).qre = s.qre := (onLeak_foot _ _ _).same .qre rfl
@[simp] theorem onLeak_mem : (onLeak n f s).mem = s.mem := (onLeak_foot _ _ _).same .mem rfl
@[simp] theorem onLeak_ep : (onLeak n f s).ep = s.ep := (onLeak_foot _ _ _).same .ep rfl
@[simp] theorem onLeak_pln : (onLeak n f s).pln = s.pln := (onLeak_foot _ _ _).same .pln rfl
@[simp] theorem onLeak_stw : (onLeak n f s).stw = s.stw := (onLeak_foot _ _ _).same .stw rfl
@[simp] theorem onLeak_route : (onLeak n f s).ket.route = s.ket.route := (onLeak_foot _ _ _).same .route rfl
end
section
variable (image : Half) (s : State)
@[simp] theorem applyTen_now : (applyTen image s).now = s.now := (applyTen_foot _ _).same .now rfl
@[simp] theorem applyTen_free : (applyTen image s).free = s.free := (applyTen_foot _ _).same .free rfl
@[simp] theorem applyTen_out : (applyTen image s).out = s.out := (applyTen_foot _ _).same .out rfl
@[simp] theorem applyTen_pending : (applyTen image s).pending = s.pending := (applyTen_foot _ _).same .pending rfl
@[simp] theorem applyTen_pwr : (applyTen image s).pwr = s.pwr := (applyTen_foot _ _).same .pwr rfl
@[simp] theorem applyTen_otp : (applyTen image s).otp = s.otp := (applyTen_foot _ _).same .otp rfl
@[simp] theorem applyTen_kt : (applyTen image s).kt = s.kt := (applyTen_foot _ _).same .kt rfl
@[simp] theorem applyTen_boot : (applyTen image s).boot = s.boot := (applyTen_foot _ _).same .boot rfl
@[simp] theorem applyTen_mbx : (applyTen image s).mbx = s.mbx := (applyTen_foot _ _).same .mbx rfl
@[simp] theorem applyTen_jr : (applyTen image s).jr = s.jr := (applyTen_foot _ _).same .jr rfl
@[simp] theorem applyTen_stg : (applyTen image s).stg = s.stg := (applyTen_foot _ _).same .stg rfl
@[simp] theorem applyTen_host : (applyTen image s).host = s.host := (applyTen_foot _ _).same .host rfl
@[simp] theorem applyTen_log : (applyTen image s).log = s.log := (applyTen_foot _ _).same .log rfl
@[simp] theorem applyTen_pmc : (applyTen image s).pmc = s.pmc := (applyTen_foot _ _).same .pmc rfl
@[simp] theorem applyTen_spn : (applyTen image s).spn = s.spn := (applyTen_foot _ _).same .spn rfl
@[simp] theorem applyTen_pair : (applyTen image s).pair = s.pair := (applyTen_foot _ _).same .pair rfl
@[simp] theorem applyTen_lv : (applyTen image s).lv = s.lv := (applyTen_foot _ _).same .lv rfl
@[simp] theorem applyTen_ket : (applyTen image s).ket = s.ket := (applyTen_foot _ _).same .ket rfl
@[simp] theorem applyTen_afe : (applyTen image s).afe = s.afe := (applyTen_foot _ _).same .afe rfl
@[simp] theorem applyTen_drv : (applyTen image s).drv = s.drv := (applyTen_foot _ _).same .drv rfl
@[simp] theorem applyTen_can : (applyTen image s).can = s.can := (applyTen_foot _ _).same .can rfl
@[simp] theorem applyTen_qre : (applyTen image s).qre = s.qre := (applyTen_foot _ _).same .qre rfl
@[simp] theorem applyTen_mem : (applyTen image s).mem = s.mem := (applyTen_foot _ _).same .mem rfl
@[simp] theorem applyTen_ep : (applyTen image s).ep = s.ep := (applyTen_foot _ _).same .ep rfl
@[simp] theorem applyTen_pln : (applyTen image s).pln = s.pln := (applyTen_foot _ _).same .pln rfl
@[simp] theorem applyTen_por : (applyTen image s).keep.por = s.keep.por := (applyTen_foot _ _).same .por rfl
end
section
variable (t : Nat) (b : Bool) (s : State)
@[simp] theorem changeTen_now : (changeTen t b s).now = s.now := (changeTen_foot _ _ _).same .now rfl
@[simp] theorem changeTen_free : (changeTen t b s).free = s.free := (changeTen_foot _ _ _).same .free rfl
@[simp] theorem changeTen_pending : (changeTen t b s).pending = s.pending := (changeTen_foot _ _ _).same .pending rfl
@[simp] theorem changeTen_pwr : (changeTen t b s).pwr = s.pwr := (changeTen_foot _ _ _).same .pwr rfl
@[simp] theorem changeTen_otp : (changeTen t b s).otp = s.otp := (changeTen_foot _ _ _).same .otp rfl
@[simp] theorem changeTen_kt : (changeTen t b s).kt = s.kt := (changeTen_foot _ _ _).same .kt rfl
@[simp] theorem changeTen_boot : (changeTen t b s).boot = s.boot := (changeTen_foot _ _ _).same .boot rfl
@[simp] theorem changeTen_mbx : (changeTen t b s).mbx = s.mbx := (changeTen_foot _ _ _).same .mbx rfl
@[simp] theorem changeTen_jr : (changeTen t b s).jr = s.jr := (changeTen_foot _ _ _).same .jr rfl
@[simp] theorem changeTen_stg : (changeTen t b s).stg = s.stg := (changeTen_foot _ _ _).same .stg rfl
@[simp] theorem changeTen_host : (changeTen t b s).host = s.host := (changeTen_foot _ _ _).same .host rfl
@[simp] theorem changeTen_log : (changeTen t b s).log = s.log := (changeTen_foot _ _ _).same .log rfl
@[simp] theorem changeTen_lv : (changeTen t b s).lv = s.lv := (changeTen_foot _ _ _).same .lv rfl
@[simp] theorem changeTen_ket : (changeTen t b s).ket = s.ket := (changeTen_foot _ _ _).same .ket rfl
@[simp] theorem changeTen_afe : (changeTen t b s).afe = s.afe := (changeTen_foot _ _ _).same .afe rfl
@[simp] theorem changeTen_drv : (changeTen t b s).drv = s.drv := (changeTen_foot _ _ _).same .drv rfl
@[simp] theorem changeTen_can : (changeTen t b s).can = s.can := (changeTen_foot _ _ _).same .can rfl
@[simp] theorem changeTen_qre : (changeTen t b s).qre = s.qre := (changeTen_foot _ _ _).same .qre rfl
@[simp] theorem changeTen_mem : (changeTen t b s).mem = s.mem := (changeTen_foot _ _ _).same .mem rfl
@[simp] theorem changeTen_ep : (changeTen t b s).ep = s.ep := (changeTen_foot _ _ _).same .ep rfl
@[simp] theorem changeTen_pln : (changeTen t b s).pln = s.pln := (changeTen_foot _ _ _).same .pln rfl
@[simp] theorem changeTen_por : (changeTen t b s).keep.por = s.keep.por := (changeTen_foot _ _ _).same .por rfl
end
section
variable (m : LeaseMsg) (s : State)
@[simp] theorem tellPartner_now : (tellPartner m s).now = s.now := (tellPartner_foot _ _).same .now rfl
@[simp] theorem tellPartner_free : (tellPartner m s).free = s.free := (tellPartner_foot _ _).same .free rfl
@[simp] theorem tellPartner_pending : (tellPartner m s).pending = s.pending := (tellPartner_foot _ _).same .pending rfl
@[simp] theorem tellPartner_keep : (tellPartner m s).keep = s.keep := (tellPartner_foot _ _).same .keep rfl
@[simp] theorem tellPartner_cat : (tellPartner m s).cat = s.cat := (tellPartner_foot _ _).same .cat rfl
@[simp] theorem tellPartner_pwr : (tellPartner m s).pwr = s.pwr := (tellPartner_foot _ _).same .pwr rfl
@[simp] theorem tellPartner_otp : (tellPartner m s).otp = s.otp := (tellPartner_foot _ _).same .otp rfl
@[simp] theorem tellPartner_kt : (tellPartner m s).kt = s.kt := (tellPartner_foot _ _).same .kt rfl
@[simp] theorem tellPartner_boot : (tellPartner m s).boot = s.boot := (tellPartner_foot _ _).same .boot rfl
@[simp] theorem tellPartner_mbx : (tellPartner m s).mbx = s.mbx := (tellPartner_foot _ _).same .mbx rfl
@[simp] theorem tellPartner_jr : (tellPartner m s).jr = s.jr := (tellPartner_foot _ _).same .jr rfl
@[simp] theorem tellPartner_stg : (tellPartner m s).stg = s.stg := (tellPartner_foot _ _).same .stg rfl
@[simp] theorem tellPartner_host : (tellPartner m s).host = s.host := (tellPartner_foot _ _).same .host rfl
@[simp] theorem tellPartner_log : (tellPartner m s).log = s.log := (tellPartner_foot _ _).same .log rfl
@[simp] theorem tellPartner_pair : (tellPartner m s).pair = s.pair := (tellPartner_foot _ _).same .pair rfl
@[simp] theorem tellPartner_lv : (tellPartner m s).lv = s.lv := (tellPartner_foot _ _).same .lv rfl
@[simp] theorem tellPartner_ket : (tellPartner m s).ket = s.ket := (tellPartner_foot _ _).same .ket rfl
@[simp] theorem tellPartner_afe : (tellPartner m s).afe = s.afe := (tellPartner_foot _ _).same .afe rfl
@[simp] theorem tellPartner_drv : (tellPartner m s).drv = s.drv := (tellPartner_foot _ _).same .drv rfl
@[simp] theorem tellPartner_can : (tellPartner m s).can = s.can := (tellPartner_foot _ _).same .can rfl
@[simp] theorem tellPartner_qre : (tellPartner m s).qre = s.qre := (tellPartner_foot _ _).same .qre rfl
@[simp] theorem tellPartner_mem : (tellPartner m s).mem = s.mem := (tellPartner_foot _ _).same .mem rfl
@[simp] theorem tellPartner_ep : (tellPartner m s).ep = s.ep := (tellPartner_foot _ _).same .ep rfl
@[simp] theorem tellPartner_pln : (tellPartner m s).pln = s.pln := (tellPartner_foot _ _).same .pln rfl
@[simp] theorem tellPartner_stw : (tellPartner m s).stw = s.stw := (tellPartner_foot _ _).same .stw rfl
end
section
variable (image : Half) (s : State)
@[simp] theorem driveCapdn_now : (driveCapdn image s).now = s.now := (driveCapdn_foot _ _).same .now rfl
@[simp] theorem driveCapdn_free : (driveCapdn image s).free = s.free := (driveCapdn_foot _ _).same .free rfl
@[simp] theorem driveCapdn_pending : (driveCapdn image s).pending = s.pending := (driveCapdn_foot _ _).same .pending rfl
@[simp] theorem driveCapdn_cat : (driveCapdn image s).cat = s.cat := (driveCapdn_foot _ _).same .cat rfl
@[simp] theorem driveCapdn_pwr : (driveCapdn image s).pwr = s.pwr := (driveCapdn_foot _ _).same .pwr rfl
@[simp] theorem driveCapdn_otp : (driveCapdn image s).otp = s.otp := (driveCapdn_foot _ _).same .otp rfl
@[simp] theorem driveCapdn_kt : (driveCapdn image s).kt = s.kt := (driveCapdn_foot _ _).same .kt rfl
@[simp] theorem driveCapdn_boot : (driveCapdn image s).boot = s.boot := (driveCapdn_foot _ _).same .boot rfl
@[simp] theorem driveCapdn_mbx : (driveCapdn image s).mbx = s.mbx := (driveCapdn_foot _ _).same .mbx rfl
@[simp] theorem driveCapdn_jr : (driveCapdn image s).jr = s.jr := (driveCapdn_foot _ _).same .jr rfl
@[simp] theorem driveCapdn_stg : (driveCapdn image s).stg = s.stg := (driveCapdn_foot _ _).same .stg rfl
@[simp] theorem driveCapdn_host : (driveCapdn image s).host = s.host := (driveCapdn_foot _ _).same .host rfl
@[simp] theorem driveCapdn_log : (driveCapdn image s).log = s.log := (driveCapdn_foot _ _).same .log rfl
@[simp] theorem driveCapdn_pair : (driveCapdn image s).pair = s.pair := (driveCapdn_foot _ _).same .pair rfl
@[simp] theorem driveCapdn_lv : (driveCapdn image s).lv = s.lv := (driveCapdn_foot _ _).same .lv rfl
@[simp] theorem driveCapdn_ket : (driveCapdn image s).ket = s.ket := (driveCapdn_foot _ _).same .ket rfl
@[simp] theorem driveCapdn_afe : (driveCapdn image s).afe = s.afe := (driveCapdn_foot _ _).same .afe rfl
@[simp] theorem driveCapdn_drv : (driveCapdn image s).drv = s.drv := (driveCapdn_foot _ _).same .drv rfl
@[simp] theorem driveCapdn_can : (driveCapdn image s).can = s.can := (driveCapdn_foot _ _).same .can rfl
@[simp] theorem driveCapdn_qre : (driveCapdn image s).qre = s.qre := (driveCapdn_foot _ _).same .qre rfl
@[simp] theorem driveCapdn_mem : (driveCapdn image s).mem = s.mem := (driveCapdn_foot _ _).same .mem rfl
@[simp] theorem driveCapdn_ep : (driveCapdn image s).ep = s.ep := (driveCapdn_foot _ _).same .ep rfl
@[simp] theorem driveCapdn_pln : (driveCapdn image s).pln = s.pln := (driveCapdn_foot _ _).same .pln rfl
@[simp] theorem driveCapdn_stw : (driveCapdn image s).stw = s.stw := (driveCapdn_foot _ _).same .stw rfl
@[simp] theorem driveCapdn_ten : (driveCapdn image s).keep.ten = s.keep.ten := (driveCapdn_foot _ _).same .ten rfl
@[simp] theorem driveCapdn_por : (driveCapdn image s).keep.por = s.keep.por := (driveCapdn_foot _ _).same .por rfl
end
section
variable (t : Nat) (s : State)
@[simp] theorem assertCapdn_now : (assertCapdn t s).now = s.now := (assertCapdn_foot _ _).same .now rfl
@[simp] theorem assertCapdn_free : (assertCapdn t s).free = s.free := (assertCapdn_foot _ _).same .free rfl
@[simp] theorem assertCapdn_pending : (assertCapdn t s).pending = s.pending := (assertCapdn_foot _ _).same .pending rfl
@[simp] theorem assertCapdn_cat : (assertCapdn t s).cat = s.cat := (assertCapdn_foot _ _).same .cat rfl
@[simp] theorem assertCapdn_pwr : (assertCapdn t s).pwr = s.pwr := (assertCapdn_foot _ _).same .pwr rfl
@[simp] theorem assertCapdn_otp : (assertCapdn t s).otp = s.otp := (assertCapdn_foot _ _).same .otp rfl
@[simp] theorem assertCapdn_kt : (assertCapdn t s).kt = s.kt := (assertCapdn_foot _ _).same .kt rfl
@[simp] theorem assertCapdn_boot : (assertCapdn t s).boot = s.boot := (assertCapdn_foot _ _).same .boot rfl
@[simp] theorem assertCapdn_mbx : (assertCapdn t s).mbx = s.mbx := (assertCapdn_foot _ _).same .mbx rfl
@[simp] theorem assertCapdn_jr : (assertCapdn t s).jr = s.jr := (assertCapdn_foot _ _).same .jr rfl
@[simp] theorem assertCapdn_stg : (assertCapdn t s).stg = s.stg := (assertCapdn_foot _ _).same .stg rfl
@[simp] theorem assertCapdn_host : (assertCapdn t s).host = s.host := (assertCapdn_foot _ _).same .host rfl
@[simp] theorem assertCapdn_log : (assertCapdn t s).log = s.log := (assertCapdn_foot _ _).same .log rfl
@[simp] theorem assertCapdn_pair : (assertCapdn t s).pair = s.pair := (assertCapdn_foot _ _).same .pair rfl
@[simp] theorem assertCapdn_lv : (assertCapdn t s).lv = s.lv := (assertCapdn_foot _ _).same .lv rfl
@[simp] theorem assertCapdn_ket : (assertCapdn t s).ket = s.ket := (assertCapdn_foot _ _).same .ket rfl
@[simp] theorem assertCapdn_afe : (assertCapdn t s).afe = s.afe := (assertCapdn_foot _ _).same .afe rfl
@[simp] theorem assertCapdn_drv : (assertCapdn t s).drv = s.drv := (assertCapdn_foot _ _).same .drv rfl
@[simp] theorem assertCapdn_can : (assertCapdn t s).can = s.can := (assertCapdn_foot _ _).same .can rfl
@[simp] theorem assertCapdn_qre : (assertCapdn t s).qre = s.qre := (assertCapdn_foot _ _).same .qre rfl
@[simp] theorem assertCapdn_mem : (assertCapdn t s).mem = s.mem := (assertCapdn_foot _ _).same .mem rfl
@[simp] theorem assertCapdn_ep : (assertCapdn t s).ep = s.ep := (assertCapdn_foot _ _).same .ep rfl
@[simp] theorem assertCapdn_pln : (assertCapdn t s).pln = s.pln := (assertCapdn_foot _ _).same .pln rfl
@[simp] theorem assertCapdn_stw : (assertCapdn t s).stw = s.stw := (assertCapdn_foot _ _).same .stw rfl
@[simp] theorem assertCapdn_ten : (assertCapdn t s).keep.ten = s.keep.ten := (assertCapdn_foot _ _).same .ten rfl
@[simp] theorem assertCapdn_por : (assertCapdn t s).keep.por = s.keep.por := (assertCapdn_foot _ _).same .por rfl
end
section
variable (t : Nat) (s : State)
@[simp] theorem releaseCapdn_now : (releaseCapdn t s).now = s.now := (releaseCapdn_foot _ _).same .now rfl
@[simp] theorem releaseCapdn_free : (releaseCapdn t s).free = s.free := (releaseCapdn_foot _ _).same .free rfl
@[simp] theorem releaseCapdn_pending : (releaseCapdn t s).pending = s.pending := (releaseCapdn_foot _ _).same .pending rfl
@[simp] theorem releaseCapdn_cat : (releaseCapdn t s).cat = s.cat := (releaseCapdn_foot _ _).same .cat rfl
@[simp] theorem releaseCapdn_pwr : (releaseCapdn t s).pwr = s.pwr := (releaseCapdn_foot _ _).same .pwr rfl
@[simp] theorem releaseCapdn_otp : (releaseCapdn t s).otp = s.otp := (releaseCapdn_foot _ _).same .otp rfl
@[simp] theorem releaseCapdn_kt : (releaseCapdn t s).kt = s.kt := (releaseCapdn_foot _ _).same .kt rfl
@[simp] theorem releaseCapdn_boot : (releaseCapdn t s).boot = s.boot := (releaseCapdn_foot _ _).same .boot rfl
@[simp] theorem releaseCapdn_mbx : (releaseCapdn t s).mbx = s.mbx := (releaseCapdn_foot _ _).same .mbx rfl
@[simp] theorem releaseCapdn_jr : (releaseCapdn t s).jr = s.jr := (releaseCapdn_foot _ _).same .jr rfl
@[simp] theorem releaseCapdn_stg : (releaseCapdn t s).stg = s.stg := (releaseCapdn_foot _ _).same .stg rfl
@[simp] theorem releaseCapdn_host : (releaseCapdn t s).host = s.host := (releaseCapdn_foot _ _).same .host rfl
@[simp] theorem releaseCapdn_log : (releaseCapdn t s).log = s.log := (releaseCapdn_foot _ _).same .log rfl
@[simp] theorem releaseCapdn_pair : (releaseCapdn t s).pair = s.pair := (releaseCapdn_foot _ _).same .pair rfl
@[simp] theorem releaseCapdn_lv : (releaseCapdn t s).lv = s.lv := (releaseCapdn_foot _ _).same .lv rfl
@[simp] theorem releaseCapdn_ket : (releaseCapdn t s).ket = s.ket := (releaseCapdn_foot _ _).same .ket rfl
@[simp] theorem releaseCapdn_afe : (releaseCapdn t s).afe = s.afe := (releaseCapdn_foot _ _).same .afe rfl
@[simp] theorem releaseCapdn_drv : (releaseCapdn t s).drv = s.drv := (releaseCapdn_foot _ _).same .drv rfl
@[simp] theorem releaseCapdn_can : (releaseCapdn t s).can = s.can := (releaseCapdn_foot _ _).same .can rfl
@[simp] theorem releaseCapdn_qre : (releaseCapdn t s).qre = s.qre := (releaseCapdn_foot _ _).same .qre rfl
@[simp] theorem releaseCapdn_mem : (releaseCapdn t s).mem = s.mem := (releaseCapdn_foot _ _).same .mem rfl
@[simp] theorem releaseCapdn_ep : (releaseCapdn t s).ep = s.ep := (releaseCapdn_foot _ _).same .ep rfl
@[simp] theorem releaseCapdn_pln : (releaseCapdn t s).pln = s.pln := (releaseCapdn_foot _ _).same .pln rfl
@[simp] theorem releaseCapdn_stw : (releaseCapdn t s).stw = s.stw := (releaseCapdn_foot _ _).same .stw rfl
@[simp] theorem releaseCapdn_ten : (releaseCapdn t s).keep.ten = s.keep.ten := (releaseCapdn_foot _ _).same .ten rfl
@[simp] theorem releaseCapdn_por : (releaseCapdn t s).keep.por = s.keep.por := (releaseCapdn_foot _ _).same .por rfl
end
section
variable (l : Lease) (s : State)
@[simp] theorem addLease_now : (addLease l s).now = s.now := (addLease_foot _ _).same .now rfl
@[simp] theorem addLease_free : (addLease l s).free = s.free := (addLease_foot _ _).same .free rfl
@[simp] theorem addLease_pending : (addLease l s).pending = s.pending := (addLease_foot _ _).same .pending rfl
@[simp] theorem addLease_keep : (addLease l s).keep = s.keep := (addLease_foot _ _).same .keep rfl
@[simp] theorem addLease_cat : (addLease l s).cat = s.cat := (addLease_foot _ _).same .cat rfl
@[simp] theorem addLease_pwr : (addLease l s).pwr = s.pwr := (addLease_foot _ _).same .pwr rfl
@[simp] theorem addLease_otp : (addLease l s).otp = s.otp := (addLease_foot _ _).same .otp rfl
@[simp] theorem addLease_kt : (addLease l s).kt = s.kt := (addLease_foot _ _).same .kt rfl
@[simp] theorem addLease_boot : (addLease l s).boot = s.boot := (addLease_foot _ _).same .boot rfl
@[simp] theorem addLease_mbx : (addLease l s).mbx = s.mbx := (addLease_foot _ _).same .mbx rfl
@[simp] theorem addLease_jr : (addLease l s).jr = s.jr := (addLease_foot _ _).same .jr rfl
@[simp] theorem addLease_stg : (addLease l s).stg = s.stg := (addLease_foot _ _).same .stg rfl
@[simp] theorem addLease_host : (addLease l s).host = s.host := (addLease_foot _ _).same .host rfl
@[simp] theorem addLease_log : (addLease l s).log = s.log := (addLease_foot _ _).same .log rfl
@[simp] theorem addLease_pair : (addLease l s).pair = s.pair := (addLease_foot _ _).same .pair rfl
@[simp] theorem addLease_ket : (addLease l s).ket = s.ket := (addLease_foot _ _).same .ket rfl
@[simp] theorem addLease_afe : (addLease l s).afe = s.afe := (addLease_foot _ _).same .afe rfl
@[simp] theorem addLease_drv : (addLease l s).drv = s.drv := (addLease_foot _ _).same .drv rfl
@[simp] theorem addLease_can : (addLease l s).can = s.can := (addLease_foot _ _).same .can rfl
@[simp] theorem addLease_qre : (addLease l s).qre = s.qre := (addLease_foot _ _).same .qre rfl
@[simp] theorem addLease_mem : (addLease l s).mem = s.mem := (addLease_foot _ _).same .mem rfl
@[simp] theorem addLease_ep : (addLease l s).ep = s.ep := (addLease_foot _ _).same .ep rfl
@[simp] theorem addLease_pln : (addLease l s).pln = s.pln := (addLease_foot _ _).same .pln rfl
@[simp] theorem addLease_stw : (addLease l s).stw = s.stw := (addLease_foot _ _).same .stw rfl
end
section
variable (id reason : Nat) (s : State)
@[simp] theorem endLease_now : (endLease id reason s).now = s.now := (endLease_foot _ _ _).same .now rfl
@[simp] theorem endLease_free : (endLease id reason s).free = s.free := (endLease_foot _ _ _).same .free rfl
@[simp] theorem endLease_pending : (endLease id reason s).pending = s.pending := (endLease_foot _ _ _).same .pending rfl
@[simp] theorem endLease_keep : (endLease id reason s).keep = s.keep := (endLease_foot _ _ _).same .keep rfl
@[simp] theorem endLease_cat : (endLease id reason s).cat = s.cat := (endLease_foot _ _ _).same .cat rfl
@[simp] theorem endLease_pwr : (endLease id reason s).pwr = s.pwr := (endLease_foot _ _ _).same .pwr rfl
@[simp] theorem endLease_otp : (endLease id reason s).otp = s.otp := (endLease_foot _ _ _).same .otp rfl
@[simp] theorem endLease_kt : (endLease id reason s).kt = s.kt := (endLease_foot _ _ _).same .kt rfl
@[simp] theorem endLease_boot : (endLease id reason s).boot = s.boot := (endLease_foot _ _ _).same .boot rfl
@[simp] theorem endLease_jr : (endLease id reason s).jr = s.jr := (endLease_foot _ _ _).same .jr rfl
@[simp] theorem endLease_stg : (endLease id reason s).stg = s.stg := (endLease_foot _ _ _).same .stg rfl
@[simp] theorem endLease_host : (endLease id reason s).host = s.host := (endLease_foot _ _ _).same .host rfl
@[simp] theorem endLease_log : (endLease id reason s).log = s.log := (endLease_foot _ _ _).same .log rfl
@[simp] theorem endLease_pair : (endLease id reason s).pair = s.pair := (endLease_foot _ _ _).same .pair rfl
@[simp] theorem endLease_ket : (endLease id reason s).ket = s.ket := (endLease_foot _ _ _).same .ket rfl
@[simp] theorem endLease_afe : (endLease id reason s).afe = s.afe := (endLease_foot _ _ _).same .afe rfl
@[simp] theorem endLease_drv : (endLease id reason s).drv = s.drv := (endLease_foot _ _ _).same .drv rfl
@[simp] theorem endLease_can : (endLease id reason s).can = s.can := (endLease_foot _ _ _).same .can rfl
@[simp] theorem endLease_qre : (endLease id reason s).qre = s.qre := (endLease_foot _ _ _).same .qre rfl
@[simp] theorem endLease_mem : (endLease id reason s).mem = s.mem := (endLease_foot _ _ _).same .mem rfl
@[simp] theorem endLease_ep : (endLease id reason s).ep = s.ep := (endLease_foot _ _ _).same .ep rfl
@[simp] theorem endLease_pln : (endLease id reason s).pln = s.pln := (endLease_foot _ _ _).same .pln rfl
end
section
variable (q c : Nat) (f : QFault) (s : State)
@[simp] theorem quireFault_now : (quireFault q c f s).now = s.now := (quireFault_foot _ _ _ _).same .now rfl
@[simp] theorem quireFault_free : (quireFault q c f s).free = s.free := (quireFault_foot _ _ _ _).same .free rfl
@[simp] theorem quireFault_pending : (quireFault q c f s).pending = s.pending := (quireFault_foot _ _ _ _).same .pending rfl
@[simp] theorem quireFault_cat : (quireFault q c f s).cat = s.cat := (quireFault_foot _ _ _ _).same .cat rfl
@[simp] theorem quireFault_pwr : (quireFault q c f s).pwr = s.pwr := (quireFault_foot _ _ _ _).same .pwr rfl
@[simp] theorem quireFault_otp : (quireFault q c f s).otp = s.otp := (quireFault_foot _ _ _ _).same .otp rfl
@[simp] theorem quireFault_boot : (quireFault q c f s).boot = s.boot := (quireFault_foot _ _ _ _).same .boot rfl
@[simp] theorem quireFault_mbx : (quireFault q c f s).mbx = s.mbx := (quireFault_foot _ _ _ _).same .mbx rfl
@[simp] theorem quireFault_jr : (quireFault q c f s).jr = s.jr := (quireFault_foot _ _ _ _).same .jr rfl
@[simp] theorem quireFault_stg : (quireFault q c f s).stg = s.stg := (quireFault_foot _ _ _ _).same .stg rfl
@[simp] theorem quireFault_pair : (quireFault q c f s).pair = s.pair := (quireFault_foot _ _ _ _).same .pair rfl
@[simp] theorem quireFault_lv : (quireFault q c f s).lv = s.lv := (quireFault_foot _ _ _ _).same .lv rfl
@[simp] theorem quireFault_ket : (quireFault q c f s).ket = s.ket := (quireFault_foot _ _ _ _).same .ket rfl
@[simp] theorem quireFault_afe : (quireFault q c f s).afe = s.afe := (quireFault_foot _ _ _ _).same .afe rfl
@[simp] theorem quireFault_drv : (quireFault q c f s).drv = s.drv := (quireFault_foot _ _ _ _).same .drv rfl
@[simp] theorem quireFault_can : (quireFault q c f s).can = s.can := (quireFault_foot _ _ _ _).same .can rfl
@[simp] theorem quireFault_mem : (quireFault q c f s).mem = s.mem := (quireFault_foot _ _ _ _).same .mem rfl
@[simp] theorem quireFault_pln : (quireFault q c f s).pln = s.pln := (quireFault_foot _ _ _ _).same .pln rfl
@[simp] theorem quireFault_stw : (quireFault q c f s).stw = s.stw := (quireFault_foot _ _ _ _).same .stw rfl
@[simp] theorem quireFault_por : (quireFault q c f s).keep.por = s.keep.por := keepCore_por ((quireFault_foot _ _ _ _).same .core rfl)
@[simp] theorem quireFault_cold : (quireFault q c f s).keep.cold = s.keep.cold := keepCore_cold ((quireFault_foot _ _ _ _).same .core rfl)
@[simp] theorem quireFault_tenRead : (quireFault q c f s).keep.tenRead = s.keep.tenRead := keepCore_tenRead ((quireFault_foot _ _ _ _).same .core rfl)
@[simp] theorem quireFault_readAt : (quireFault q c f s).keep.readAt = s.keep.readAt := keepCore_readAt ((quireFault_foot _ _ _ _).same .core rfl)
@[simp] theorem quireFault_hourBase : (quireFault q c f s).keep.hourBase = s.keep.hourBase := keepCore_hourBase ((quireFault_foot _ _ _ _).same .core rfl)
@[simp] theorem quireFault_hourFrom : (quireFault q c f s).keep.hourFrom = s.keep.hourFrom := keepCore_hourFrom ((quireFault_foot _ _ _ _).same .core rfl)
@[simp] theorem quireFault_coarse : (quireFault q c f s).keep.coarse = s.keep.coarse := keepCore_coarse ((quireFault_foot _ _ _ _).same .core rfl)
@[simp] theorem quireFault_pcycle : (quireFault q c f s).keep.pcycle = s.keep.pcycle := keepCore_pcycle ((quireFault_foot _ _ _ _).same .core rfl)
@[simp] theorem quireFault_savedHour : (quireFault q c f s).keep.savedHour = s.keep.savedHour := keepCore_savedHour ((quireFault_foot _ _ _ _).same .core rfl)
@[simp] theorem quireFault_savedCycle : (quireFault q c f s).keep.savedCycle = s.keep.savedCycle := keepCore_savedCycle ((quireFault_foot _ _ _ _).same .core rfl)
@[simp] theorem quireFault_ten : (quireFault q c f s).keep.ten = s.keep.ten := keepCore_ten ((quireFault_foot _ _ _ _).same .core rfl)
@[simp] theorem quireFault_capdn : (quireFault q c f s).keep.capdn = s.keep.capdn := keepCore_capdn ((quireFault_foot _ _ _ _).same .core rfl)
@[simp] theorem quireFault_handoff : (quireFault q c f s).keep.handoff = s.keep.handoff := keepCore_handoff ((quireFault_foot _ _ _ _).same .core rfl)
@[simp] theorem quireFault_handoffAt : (quireFault q c f s).keep.handoffAt = s.keep.handoffAt := keepCore_handoffAt ((quireFault_foot _ _ _ _).same .core rfl)
@[simp] theorem quireFault_role : (quireFault q c f s).kt.role = s.kt.role := (quireFault_foot _ _ _ _).same .role rfl
@[simp] theorem quireFault_budget : (quireFault q c f s).kt.budget = s.kt.budget := (quireFault_foot _ _ _ _).same .budget rfl
end
section
variable (k : Nat) (f : Core → Core) (s : State)
@[simp] theorem onCore_now : (onCore k f s).now = s.now := (onCore_foot _ _ _).same .now rfl
@[simp] theorem onCore_free : (onCore k f s).free = s.free := (onCore_foot _ _ _).same .free rfl
@[simp] theorem onCore_out : (onCore k f s).out = s.out := (onCore_foot _ _ _).same .out rfl
@[simp] theorem onCore_pending : (onCore k f s).pending = s.pending := (onCore_foot _ _ _).same .pending rfl
@[simp] theorem onCore_keep : (onCore k f s).keep = s.keep := (onCore_foot _ _ _).same .keep rfl
@[simp] theorem onCore_cat : (onCore k f s).cat = s.cat := (onCore_foot _ _ _).same .cat rfl
@[simp] theorem onCore_pwr : (onCore k f s).pwr = s.pwr := (onCore_foot _ _ _).same .pwr rfl
@[simp] theorem onCore_otp : (onCore k f s).otp = s.otp := (onCore_foot _ _ _).same .otp rfl
@[simp] theorem onCore_kt : (onCore k f s).kt = s.kt := (onCore_foot _ _ _).same .kt rfl
@[simp] theorem onCore_boot : (onCore k f s).boot = s.boot := (onCore_foot _ _ _).same .boot rfl
@[simp] theorem onCore_mbx : (onCore k f s).mbx = s.mbx := (onCore_foot _ _ _).same .mbx rfl
@[simp] theorem onCore_jr : (onCore k f s).jr = s.jr := (onCore_foot _ _ _).same .jr rfl
@[simp] theorem onCore_stg : (onCore k f s).stg = s.stg := (onCore_foot _ _ _).same .stg rfl
@[simp] theorem onCore_host : (onCore k f s).host = s.host := (onCore_foot _ _ _).same .host rfl
@[simp] theorem onCore_log : (onCore k f s).log = s.log := (onCore_foot _ _ _).same .log rfl
@[simp] theorem onCore_pmc : (onCore k f s).pmc = s.pmc := (onCore_foot _ _ _).same .pmc rfl
@[simp] theorem onCore_spn : (onCore k f s).spn = s.spn := (onCore_foot _ _ _).same .spn rfl
@[simp] theorem onCore_pair : (onCore k f s).pair = s.pair := (onCore_foot _ _ _).same .pair rfl
@[simp] theorem onCore_lv : (onCore k f s).lv = s.lv := (onCore_foot _ _ _).same .lv rfl
@[simp] theorem onCore_ket : (onCore k f s).ket = s.ket := (onCore_foot _ _ _).same .ket rfl
@[simp] theorem onCore_afe : (onCore k f s).afe = s.afe := (onCore_foot _ _ _).same .afe rfl
@[simp] theorem onCore_drv : (onCore k f s).drv = s.drv := (onCore_foot _ _ _).same .drv rfl
@[simp] theorem onCore_can : (onCore k f s).can = s.can := (onCore_foot _ _ _).same .can rfl
@[simp] theorem onCore_mem : (onCore k f s).mem = s.mem := (onCore_foot _ _ _).same .mem rfl
@[simp] theorem onCore_ep : (onCore k f s).ep = s.ep := (onCore_foot _ _ _).same .ep rfl
@[simp] theorem onCore_pln : (onCore k f s).pln = s.pln := (onCore_foot _ _ _).same .pln rfl
@[simp] theorem onCore_stw : (onCore k f s).stw = s.stw := (onCore_foot _ _ _).same .stw rfl
end
section
variable (p : Prog) (ws : List (Nat × Nat × Elem)) (s : State)
@[simp] theorem storeAll_free : (storeAll p ws s).free = s.free := (storeAll_foot _ _ _).same .free rfl
@[simp] theorem storeAll_pending : (storeAll p ws s).pending = s.pending := (storeAll_foot _ _ _).same .pending rfl
@[simp] theorem storeAll_cat : (storeAll p ws s).cat = s.cat := (storeAll_foot _ _ _).same .cat rfl
@[simp] theorem storeAll_pwr : (storeAll p ws s).pwr = s.pwr := (storeAll_foot _ _ _).same .pwr rfl
@[simp] theorem storeAll_otp : (storeAll p ws s).otp = s.otp := (storeAll_foot _ _ _).same .otp rfl
@[simp] theorem storeAll_kt : (storeAll p ws s).kt = s.kt := (storeAll_foot _ _ _).same .kt rfl
@[simp] theorem storeAll_boot : (storeAll p ws s).boot = s.boot := (storeAll_foot _ _ _).same .boot rfl
@[simp] theorem storeAll_mbx : (storeAll p ws s).mbx = s.mbx := (storeAll_foot _ _ _).same .mbx rfl
@[simp] theorem storeAll_jr : (storeAll p ws s).jr = s.jr := (storeAll_foot _ _ _).same .jr rfl
@[simp] theorem storeAll_stg : (storeAll p ws s).stg = s.stg := (storeAll_foot _ _ _).same .stg rfl
@[simp] theorem storeAll_pair : (storeAll p ws s).pair = s.pair := (storeAll_foot _ _ _).same .pair rfl
@[simp] theorem storeAll_lv : (storeAll p ws s).lv = s.lv := (storeAll_foot _ _ _).same .lv rfl
@[simp] theorem storeAll_ket : (storeAll p ws s).ket = s.ket := (storeAll_foot _ _ _).same .ket rfl
@[simp] theorem storeAll_afe : (storeAll p ws s).afe = s.afe := (storeAll_foot _ _ _).same .afe rfl
@[simp] theorem storeAll_drv : (storeAll p ws s).drv = s.drv := (storeAll_foot _ _ _).same .drv rfl
@[simp] theorem storeAll_can : (storeAll p ws s).can = s.can := (storeAll_foot _ _ _).same .can rfl
@[simp] theorem storeAll_pln : (storeAll p ws s).pln = s.pln := (storeAll_foot _ _ _).same .pln rfl
@[simp] theorem storeAll_stw : (storeAll p ws s).stw = s.stw := (storeAll_foot _ _ _).same .stw rfl
@[simp] theorem storeAll_por : (storeAll p ws s).keep.por = s.keep.por := keepCore_por ((storeAll_foot _ _ _).same .core rfl)
@[simp] theorem storeAll_cold : (storeAll p ws s).keep.cold = s.keep.cold := keepCore_cold ((storeAll_foot _ _ _).same .core rfl)
@[simp] theorem storeAll_tenRead : (storeAll p ws s).keep.tenRead = s.keep.tenRead := keepCore_tenRead ((storeAll_foot _ _ _).same .core rfl)
@[simp] theorem storeAll_readAt : (storeAll p ws s).keep.readAt = s.keep.readAt := keepCore_readAt ((storeAll_foot _ _ _).same .core rfl)
@[simp] theorem storeAll_hourBase : (storeAll p ws s).keep.hourBase = s.keep.hourBase := keepCore_hourBase ((storeAll_foot _ _ _).same .core rfl)
@[simp] theorem storeAll_hourFrom : (storeAll p ws s).keep.hourFrom = s.keep.hourFrom := keepCore_hourFrom ((storeAll_foot _ _ _).same .core rfl)
@[simp] theorem storeAll_coarse : (storeAll p ws s).keep.coarse = s.keep.coarse := keepCore_coarse ((storeAll_foot _ _ _).same .core rfl)
@[simp] theorem storeAll_pcycle : (storeAll p ws s).keep.pcycle = s.keep.pcycle := keepCore_pcycle ((storeAll_foot _ _ _).same .core rfl)
@[simp] theorem storeAll_savedHour : (storeAll p ws s).keep.savedHour = s.keep.savedHour := keepCore_savedHour ((storeAll_foot _ _ _).same .core rfl)
@[simp] theorem storeAll_savedCycle : (storeAll p ws s).keep.savedCycle = s.keep.savedCycle := keepCore_savedCycle ((storeAll_foot _ _ _).same .core rfl)
@[simp] theorem storeAll_ten : (storeAll p ws s).keep.ten = s.keep.ten := keepCore_ten ((storeAll_foot _ _ _).same .core rfl)
@[simp] theorem storeAll_capdn : (storeAll p ws s).keep.capdn = s.keep.capdn := keepCore_capdn ((storeAll_foot _ _ _).same .core rfl)
@[simp] theorem storeAll_handoff : (storeAll p ws s).keep.handoff = s.keep.handoff := keepCore_handoff ((storeAll_foot _ _ _).same .core rfl)
@[simp] theorem storeAll_handoffAt : (storeAll p ws s).keep.handoffAt = s.keep.handoffAt := keepCore_handoffAt ((storeAll_foot _ _ _).same .core rfl)
end
section
variable (q c : Nat) (p : Prog) (d : Desc) (s : State)
@[simp] theorem endDesc_now : (endDesc q c p d s).now = s.now := (endDesc_foot _ _ _ _ _).same .now rfl
@[simp] theorem endDesc_free : (endDesc q c p d s).free = s.free := (endDesc_foot _ _ _ _ _).same .free rfl
@[simp] theorem endDesc_pending : (endDesc q c p d s).pending = s.pending := (endDesc_foot _ _ _ _ _).same .pending rfl
@[simp] theorem endDesc_cat : (endDesc q c p d s).cat = s.cat := (endDesc_foot _ _ _ _ _).same .cat rfl
@[simp] theorem endDesc_pwr : (endDesc q c p d s).pwr = s.pwr := (endDesc_foot _ _ _ _ _).same .pwr rfl
@[simp] theorem endDesc_otp : (endDesc q c p d s).otp = s.otp := (endDesc_foot _ _ _ _ _).same .otp rfl
@[simp] theorem endDesc_boot : (endDesc q c p d s).boot = s.boot := (endDesc_foot _ _ _ _ _).same .boot rfl
@[simp] theorem endDesc_mbx : (endDesc q c p d s).mbx = s.mbx := (endDesc_foot _ _ _ _ _).same .mbx rfl
@[simp] theorem endDesc_jr : (endDesc q c p d s).jr = s.jr := (endDesc_foot _ _ _ _ _).same .jr rfl
@[simp] theorem endDesc_stg : (endDesc q c p d s).stg = s.stg := (endDesc_foot _ _ _ _ _).same .stg rfl
@[simp] theorem endDesc_pair : (endDesc q c p d s).pair = s.pair := (endDesc_foot _ _ _ _ _).same .pair rfl
@[simp] theorem endDesc_lv : (endDesc q c p d s).lv = s.lv := (endDesc_foot _ _ _ _ _).same .lv rfl
@[simp] theorem endDesc_ket : (endDesc q c p d s).ket = s.ket := (endDesc_foot _ _ _ _ _).same .ket rfl
@[simp] theorem endDesc_afe : (endDesc q c p d s).afe = s.afe := (endDesc_foot _ _ _ _ _).same .afe rfl
@[simp] theorem endDesc_drv : (endDesc q c p d s).drv = s.drv := (endDesc_foot _ _ _ _ _).same .drv rfl
@[simp] theorem endDesc_can : (endDesc q c p d s).can = s.can := (endDesc_foot _ _ _ _ _).same .can rfl
@[simp] theorem endDesc_mem : (endDesc q c p d s).mem = s.mem := (endDesc_foot _ _ _ _ _).same .mem rfl
@[simp] theorem endDesc_pln : (endDesc q c p d s).pln = s.pln := (endDesc_foot _ _ _ _ _).same .pln rfl
@[simp] theorem endDesc_stw : (endDesc q c p d s).stw = s.stw := (endDesc_foot _ _ _ _ _).same .stw rfl
@[simp] theorem endDesc_por : (endDesc q c p d s).keep.por = s.keep.por := keepCore_por ((endDesc_foot _ _ _ _ _).same .core rfl)
@[simp] theorem endDesc_cold : (endDesc q c p d s).keep.cold = s.keep.cold := keepCore_cold ((endDesc_foot _ _ _ _ _).same .core rfl)
@[simp] theorem endDesc_tenRead : (endDesc q c p d s).keep.tenRead = s.keep.tenRead := keepCore_tenRead ((endDesc_foot _ _ _ _ _).same .core rfl)
@[simp] theorem endDesc_readAt : (endDesc q c p d s).keep.readAt = s.keep.readAt := keepCore_readAt ((endDesc_foot _ _ _ _ _).same .core rfl)
@[simp] theorem endDesc_hourBase : (endDesc q c p d s).keep.hourBase = s.keep.hourBase := keepCore_hourBase ((endDesc_foot _ _ _ _ _).same .core rfl)
@[simp] theorem endDesc_hourFrom : (endDesc q c p d s).keep.hourFrom = s.keep.hourFrom := keepCore_hourFrom ((endDesc_foot _ _ _ _ _).same .core rfl)
@[simp] theorem endDesc_coarse : (endDesc q c p d s).keep.coarse = s.keep.coarse := keepCore_coarse ((endDesc_foot _ _ _ _ _).same .core rfl)
@[simp] theorem endDesc_pcycle : (endDesc q c p d s).keep.pcycle = s.keep.pcycle := keepCore_pcycle ((endDesc_foot _ _ _ _ _).same .core rfl)
@[simp] theorem endDesc_savedHour : (endDesc q c p d s).keep.savedHour = s.keep.savedHour := keepCore_savedHour ((endDesc_foot _ _ _ _ _).same .core rfl)
@[simp] theorem endDesc_savedCycle : (endDesc q c p d s).keep.savedCycle = s.keep.savedCycle := keepCore_savedCycle ((endDesc_foot _ _ _ _ _).same .core rfl)
@[simp] theorem endDesc_ten : (endDesc q c p d s).keep.ten = s.keep.ten := keepCore_ten ((endDesc_foot _ _ _ _ _).same .core rfl)
@[simp] theorem endDesc_capdn : (endDesc q c p d s).keep.capdn = s.keep.capdn := keepCore_capdn ((endDesc_foot _ _ _ _ _).same .core rfl)
@[simp] theorem endDesc_handoff : (endDesc q c p d s).keep.handoff = s.keep.handoff := keepCore_handoff ((endDesc_foot _ _ _ _ _).same .core rfl)
@[simp] theorem endDesc_handoffAt : (endDesc q c p d s).keep.handoffAt = s.keep.handoffAt := keepCore_handoffAt ((endDesc_foot _ _ _ _ _).same .core rfl)
@[simp] theorem endDesc_role : (endDesc q c p d s).kt.role = s.kt.role := (endDesc_foot _ _ _ _ _).same .role rfl
@[simp] theorem endDesc_budget : (endDesc q c p d s).kt.budget = s.kt.budget := (endDesc_foot _ _ _ _ _).same .budget rfl
end
section
variable (m : Nat) (r : Rec) (status : Byte) (ref detail : Nat) (s : State)
@[simp] theorem answer_now : (answer m r status ref detail s).now = s.now := (answer_foot _ _ _ _ _ _).same .now rfl
@[simp] theorem answer_free : (answer m r status ref detail s).free = s.free := (answer_foot _ _ _ _ _ _).same .free rfl
@[simp] theorem answer_out : (answer m r status ref detail s).out = s.out := (answer_foot _ _ _ _ _ _).same .out rfl
@[simp] theorem answer_pending : (answer m r status ref detail s).pending = s.pending := (answer_foot _ _ _ _ _ _).same .pending rfl
@[simp] theorem answer_keep : (answer m r status ref detail s).keep = s.keep := (answer_foot _ _ _ _ _ _).same .keep rfl
@[simp] theorem answer_cat : (answer m r status ref detail s).cat = s.cat := (answer_foot _ _ _ _ _ _).same .cat rfl
@[simp] theorem answer_pwr : (answer m r status ref detail s).pwr = s.pwr := (answer_foot _ _ _ _ _ _).same .pwr rfl
@[simp] theorem answer_otp : (answer m r status ref detail s).otp = s.otp := (answer_foot _ _ _ _ _ _).same .otp rfl
@[simp] theorem answer_kt : (answer m r status ref detail s).kt = s.kt := (answer_foot _ _ _ _ _ _).same .kt rfl
@[simp] theorem answer_boot : (answer m r status ref detail s).boot = s.boot := (answer_foot _ _ _ _ _ _).same .boot rfl
@[simp] theorem answer_jr : (answer m r status ref detail s).jr = s.jr := (answer_foot _ _ _ _ _ _).same .jr rfl
@[simp] theorem answer_stg : (answer m r status ref detail s).stg = s.stg := (answer_foot _ _ _ _ _ _).same .stg rfl
@[simp] theorem answer_host : (answer m r status ref detail s).host = s.host := (answer_foot _ _ _ _ _ _).same .host rfl
@[simp] theorem answer_log : (answer m r status ref detail s).log = s.log := (answer_foot _ _ _ _ _ _).same .log rfl
@[simp] theorem answer_spn : (answer m r status ref detail s).spn = s.spn := (answer_foot _ _ _ _ _ _).same .spn rfl
@[simp] theorem answer_pair : (answer m r status ref detail s).pair = s.pair := (answer_foot _ _ _ _ _ _).same .pair rfl
@[simp] theorem answer_lv : (answer m r status ref detail s).lv = s.lv := (answer_foot _ _ _ _ _ _).same .lv rfl
@[simp] theorem answer_ket : (answer m r status ref detail s).ket = s.ket := (answer_foot _ _ _ _ _ _).same .ket rfl
@[simp] theorem answer_afe : (answer m r status ref detail s).afe = s.afe := (answer_foot _ _ _ _ _ _).same .afe rfl
@[simp] theorem answer_drv : (answer m r status ref detail s).drv = s.drv := (answer_foot _ _ _ _ _ _).same .drv rfl
@[simp] theorem answer_can : (answer m r status ref detail s).can = s.can := (answer_foot _ _ _ _ _ _).same .can rfl
@[simp] theorem answer_qre : (answer m r status ref detail s).qre = s.qre := (answer_foot _ _ _ _ _ _).same .qre rfl
@[simp] theorem answer_mem : (answer m r status ref detail s).mem = s.mem := (answer_foot _ _ _ _ _ _).same .mem rfl
@[simp] theorem answer_ep : (answer m r status ref detail s).ep = s.ep := (answer_foot _ _ _ _ _ _).same .ep rfl
@[simp] theorem answer_pln : (answer m r status ref detail s).pln = s.pln := (answer_foot _ _ _ _ _ _).same .pln rfl
end
section
variable (m : Nat) (r : Rec) (data : Bytes) (s : State)
@[simp] theorem answerDone_now : (answerDone m r data s).now = s.now := (answerDone_foot _ _ _ _).same .now rfl
@[simp] theorem answerDone_free : (answerDone m r data s).free = s.free := (answerDone_foot _ _ _ _).same .free rfl
@[simp] theorem answerDone_out : (answerDone m r data s).out = s.out := (answerDone_foot _ _ _ _).same .out rfl
@[simp] theorem answerDone_pending : (answerDone m r data s).pending = s.pending := (answerDone_foot _ _ _ _).same .pending rfl
@[simp] theorem answerDone_keep : (answerDone m r data s).keep = s.keep := (answerDone_foot _ _ _ _).same .keep rfl
@[simp] theorem answerDone_cat : (answerDone m r data s).cat = s.cat := (answerDone_foot _ _ _ _).same .cat rfl
@[simp] theorem answerDone_pwr : (answerDone m r data s).pwr = s.pwr := (answerDone_foot _ _ _ _).same .pwr rfl
@[simp] theorem answerDone_otp : (answerDone m r data s).otp = s.otp := (answerDone_foot _ _ _ _).same .otp rfl
@[simp] theorem answerDone_kt : (answerDone m r data s).kt = s.kt := (answerDone_foot _ _ _ _).same .kt rfl
@[simp] theorem answerDone_boot : (answerDone m r data s).boot = s.boot := (answerDone_foot _ _ _ _).same .boot rfl
@[simp] theorem answerDone_jr : (answerDone m r data s).jr = s.jr := (answerDone_foot _ _ _ _).same .jr rfl
@[simp] theorem answerDone_stg : (answerDone m r data s).stg = s.stg := (answerDone_foot _ _ _ _).same .stg rfl
@[simp] theorem answerDone_host : (answerDone m r data s).host = s.host := (answerDone_foot _ _ _ _).same .host rfl
@[simp] theorem answerDone_log : (answerDone m r data s).log = s.log := (answerDone_foot _ _ _ _).same .log rfl
@[simp] theorem answerDone_pmc : (answerDone m r data s).pmc = s.pmc := (answerDone_foot _ _ _ _).same .pmc rfl
@[simp] theorem answerDone_spn : (answerDone m r data s).spn = s.spn := (answerDone_foot _ _ _ _).same .spn rfl
@[simp] theorem answerDone_pair : (answerDone m r data s).pair = s.pair := (answerDone_foot _ _ _ _).same .pair rfl
@[simp] theorem answerDone_lv : (answerDone m r data s).lv = s.lv := (answerDone_foot _ _ _ _).same .lv rfl
@[simp] theorem answerDone_ket : (answerDone m r data s).ket = s.ket := (answerDone_foot _ _ _ _).same .ket rfl
@[simp] theorem answerDone_afe : (answerDone m r data s).afe = s.afe := (answerDone_foot _ _ _ _).same .afe rfl
@[simp] theorem answerDone_drv : (answerDone m r data s).drv = s.drv := (answerDone_foot _ _ _ _).same .drv rfl
@[simp] theorem answerDone_can : (answerDone m r data s).can = s.can := (answerDone_foot _ _ _ _).same .can rfl
@[simp] theorem answerDone_qre : (answerDone m r data s).qre = s.qre := (answerDone_foot _ _ _ _).same .qre rfl
@[simp] theorem answerDone_mem : (answerDone m r data s).mem = s.mem := (answerDone_foot _ _ _ _).same .mem rfl
@[simp] theorem answerDone_ep : (answerDone m r data s).ep = s.ep := (answerDone_foot _ _ _ _).same .ep rfl
@[simp] theorem answerDone_pln : (answerDone m r data s).pln = s.pln := (answerDone_foot _ _ _ _).same .pln rfl
end
section
variable (m : Nat) (r : Rec) (off : Nat) (s : State)
@[simp] theorem answerInvalid_now : (answerInvalid m r off s).now = s.now := (answerInvalid_foot _ _ _ _).same .now rfl
@[simp] theorem answerInvalid_free : (answerInvalid m r off s).free = s.free := (answerInvalid_foot _ _ _ _).same .free rfl
@[simp] theorem answerInvalid_out : (answerInvalid m r off s).out = s.out := (answerInvalid_foot _ _ _ _).same .out rfl
@[simp] theorem answerInvalid_pending : (answerInvalid m r off s).pending = s.pending := (answerInvalid_foot _ _ _ _).same .pending rfl
@[simp] theorem answerInvalid_keep : (answerInvalid m r off s).keep = s.keep := (answerInvalid_foot _ _ _ _).same .keep rfl
@[simp] theorem answerInvalid_cat : (answerInvalid m r off s).cat = s.cat := (answerInvalid_foot _ _ _ _).same .cat rfl
@[simp] theorem answerInvalid_pwr : (answerInvalid m r off s).pwr = s.pwr := (answerInvalid_foot _ _ _ _).same .pwr rfl
@[simp] theorem answerInvalid_otp : (answerInvalid m r off s).otp = s.otp := (answerInvalid_foot _ _ _ _).same .otp rfl
@[simp] theorem answerInvalid_kt : (answerInvalid m r off s).kt = s.kt := (answerInvalid_foot _ _ _ _).same .kt rfl
@[simp] theorem answerInvalid_boot : (answerInvalid m r off s).boot = s.boot := (answerInvalid_foot _ _ _ _).same .boot rfl
@[simp] theorem answerInvalid_jr : (answerInvalid m r off s).jr = s.jr := (answerInvalid_foot _ _ _ _).same .jr rfl
@[simp] theorem answerInvalid_stg : (answerInvalid m r off s).stg = s.stg := (answerInvalid_foot _ _ _ _).same .stg rfl
@[simp] theorem answerInvalid_host : (answerInvalid m r off s).host = s.host := (answerInvalid_foot _ _ _ _).same .host rfl
@[simp] theorem answerInvalid_log : (answerInvalid m r off s).log = s.log := (answerInvalid_foot _ _ _ _).same .log rfl
@[simp] theorem answerInvalid_spn : (answerInvalid m r off s).spn = s.spn := (answerInvalid_foot _ _ _ _).same .spn rfl
@[simp] theorem answerInvalid_pair : (answerInvalid m r off s).pair = s.pair := (answerInvalid_foot _ _ _ _).same .pair rfl
@[simp] theorem answerInvalid_lv : (answerInvalid m r off s).lv = s.lv := (answerInvalid_foot _ _ _ _).same .lv rfl
@[simp] theorem answerInvalid_ket : (answerInvalid m r off s).ket = s.ket := (answerInvalid_foot _ _ _ _).same .ket rfl
@[simp] theorem answerInvalid_afe : (answerInvalid m r off s).afe = s.afe := (answerInvalid_foot _ _ _ _).same .afe rfl
@[simp] theorem answerInvalid_drv : (answerInvalid m r off s).drv = s.drv := (answerInvalid_foot _ _ _ _).same .drv rfl
@[simp] theorem answerInvalid_can : (answerInvalid m r off s).can = s.can := (answerInvalid_foot _ _ _ _).same .can rfl
@[simp] theorem answerInvalid_qre : (answerInvalid m r off s).qre = s.qre := (answerInvalid_foot _ _ _ _).same .qre rfl
@[simp] theorem answerInvalid_mem : (answerInvalid m r off s).mem = s.mem := (answerInvalid_foot _ _ _ _).same .mem rfl
@[simp] theorem answerInvalid_ep : (answerInvalid m r off s).ep = s.ep := (answerInvalid_foot _ _ _ _).same .ep rfl
@[simp] theorem answerInvalid_pln : (answerInvalid m r off s).pln = s.pln := (answerInvalid_foot _ _ _ _).same .pln rfl
end
section
variable (h : Nat) (v : HalfState) (s : State)
@[simp] theorem setHalf_now : (setHalf h v s).now = s.now := (setHalf_foot _ _ _).same .now rfl
@[simp] theorem setHalf_free : (setHalf h v s).free = s.free := (setHalf_foot _ _ _).same .free rfl
@[simp] theorem setHalf_pending : (setHalf h v s).pending = s.pending := (setHalf_foot _ _ _).same .pending rfl
@[simp] theorem setHalf_cat : (setHalf h v s).cat = s.cat := (setHalf_foot _ _ _).same .cat rfl
@[simp] theorem setHalf_otp : (setHalf h v s).otp = s.otp := (setHalf_foot _ _ _).same .otp rfl
@[simp] theorem setHalf_kt : (setHalf h v s).kt = s.kt := (setHalf_foot _ _ _).same .kt rfl
@[simp] theorem setHalf_boot : (setHalf h v s).boot = s.boot := (setHalf_foot _ _ _).same .boot rfl
@[simp] theorem setHalf_mbx : (setHalf h v s).mbx = s.mbx := (setHalf_foot _ _ _).same .mbx rfl
@[simp] theorem setHalf_jr : (setHalf h v s).jr = s.jr := (setHalf_foot _ _ _).same .jr rfl
@[simp] theorem setHalf_stg : (setHalf h v s).stg = s.stg := (setHalf_foot _ _ _).same .stg rfl
@[simp] theorem setHalf_pair : (setHalf h v s).pair = s.pair := (setHalf_foot _ _ _).same .pair rfl
@[simp] theorem setHalf_lv : (setHalf h v s).lv = s.lv := (setHalf_foot _ _ _).same .lv rfl
@[simp] theorem setHalf_ket : (setHalf h v s).ket = s.ket := (setHalf_foot _ _ _).same .ket rfl
@[simp] theorem setHalf_afe : (setHalf h v s).afe = s.afe := (setHalf_foot _ _ _).same .afe rfl
@[simp] theorem setHalf_drv : (setHalf h v s).drv = s.drv := (setHalf_foot _ _ _).same .drv rfl
@[simp] theorem setHalf_can : (setHalf h v s).can = s.can := (setHalf_foot _ _ _).same .can rfl
@[simp] theorem setHalf_qre : (setHalf h v s).qre = s.qre := (setHalf_foot _ _ _).same .qre rfl
@[simp] theorem setHalf_mem : (setHalf h v s).mem = s.mem := (setHalf_foot _ _ _).same .mem rfl
@[simp] theorem setHalf_ep : (setHalf h v s).ep = s.ep := (setHalf_foot _ _ _).same .ep rfl
@[simp] theorem setHalf_pln : (setHalf h v s).pln = s.pln := (setHalf_foot _ _ _).same .pln rfl
@[simp] theorem setHalf_stw : (setHalf h v s).stw = s.stw := (setHalf_foot _ _ _).same .stw rfl
@[simp] theorem setHalf_por : (setHalf h v s).keep.por = s.keep.por := keepCore_por ((setHalf_foot _ _ _).same .core rfl)
@[simp] theorem setHalf_cold : (setHalf h v s).keep.cold = s.keep.cold := keepCore_cold ((setHalf_foot _ _ _).same .core rfl)
@[simp] theorem setHalf_tenRead : (setHalf h v s).keep.tenRead = s.keep.tenRead := keepCore_tenRead ((setHalf_foot _ _ _).same .core rfl)
@[simp] theorem setHalf_readAt : (setHalf h v s).keep.readAt = s.keep.readAt := keepCore_readAt ((setHalf_foot _ _ _).same .core rfl)
@[simp] theorem setHalf_hourBase : (setHalf h v s).keep.hourBase = s.keep.hourBase := keepCore_hourBase ((setHalf_foot _ _ _).same .core rfl)
@[simp] theorem setHalf_hourFrom : (setHalf h v s).keep.hourFrom = s.keep.hourFrom := keepCore_hourFrom ((setHalf_foot _ _ _).same .core rfl)
@[simp] theorem setHalf_coarse : (setHalf h v s).keep.coarse = s.keep.coarse := keepCore_coarse ((setHalf_foot _ _ _).same .core rfl)
@[simp] theorem setHalf_pcycle : (setHalf h v s).keep.pcycle = s.keep.pcycle := keepCore_pcycle ((setHalf_foot _ _ _).same .core rfl)
@[simp] theorem setHalf_savedHour : (setHalf h v s).keep.savedHour = s.keep.savedHour := keepCore_savedHour ((setHalf_foot _ _ _).same .core rfl)
@[simp] theorem setHalf_savedCycle : (setHalf h v s).keep.savedCycle = s.keep.savedCycle := keepCore_savedCycle ((setHalf_foot _ _ _).same .core rfl)
@[simp] theorem setHalf_ten : (setHalf h v s).keep.ten = s.keep.ten := keepCore_ten ((setHalf_foot _ _ _).same .core rfl)
@[simp] theorem setHalf_capdn : (setHalf h v s).keep.capdn = s.keep.capdn := keepCore_capdn ((setHalf_foot _ _ _).same .core rfl)
@[simp] theorem setHalf_handoff : (setHalf h v s).keep.handoff = s.keep.handoff := keepCore_handoff ((setHalf_foot _ _ _).same .core rfl)
@[simp] theorem setHalf_handoffAt : (setHalf h v s).keep.handoffAt = s.keep.handoffAt := keepCore_handoffAt ((setHalf_foot _ _ _).same .core rfl)
end
section
variable (dom : Dom) (s : State)
@[simp] theorem bindDown_now : (bindDown dom s).now = s.now := (bindDown_foot _ _).same .now rfl
@[simp] theorem bindDown_free : (bindDown dom s).free = s.free := (bindDown_foot _ _).same .free rfl
@[simp] theorem bindDown_pending : (bindDown dom s).pending = s.pending := (bindDown_foot _ _).same .pending rfl
@[simp] theorem bindDown_otp : (bindDown dom s).otp = s.otp := (bindDown_foot _ _).same .otp rfl
@[simp] theorem bindDown_kt : (bindDown dom s).kt = s.kt := (bindDown_foot _ _).same .kt rfl
@[simp] theorem bindDown_ten : (bindDown dom s).keep.ten = s.keep.ten := (bindDown_foot _ _).same .ten rfl
@[simp] theorem bindDown_por : (bindDown dom s).keep.por = s.keep.por := (bindDown_foot _ _).same .por rfl
@[simp] theorem bindDown_route : (bindDown dom s).ket.route = s.ket.route := (bindDown_foot _ _).same .route rfl
end
section
variable (src : Nat) (dom : Dom) (s : State)
@[simp] theorem bindReset_now : (bindReset src dom s).now = s.now := (bindReset_foot _ _ _).same .now rfl
@[simp] theorem bindReset_free : (bindReset src dom s).free = s.free := (bindReset_foot _ _ _).same .free rfl
@[simp] theorem bindReset_pending : (bindReset src dom s).pending = s.pending := (bindReset_foot _ _ _).same .pending rfl
@[simp] theorem bindReset_otp : (bindReset src dom s).otp = s.otp := (bindReset_foot _ _ _).same .otp rfl
@[simp] theorem bindReset_kt : (bindReset src dom s).kt = s.kt := (bindReset_foot _ _ _).same .kt rfl
@[simp] theorem bindReset_ten : (bindReset src dom s).keep.ten = s.keep.ten := (bindReset_foot _ _ _).same .ten rfl
@[simp] theorem bindReset_por : (bindReset src dom s).keep.por = s.keep.por := (bindReset_foot _ _ _).same .por rfl
@[simp] theorem bindReset_route : (bindReset src dom s).ket.route = s.ket.route := (bindReset_foot _ _ _).same .route rfl
end
section
variable (s : State)
@[simp] theorem fieldOff_now : (fieldOff s).now = s.now := (fieldOff_foot _).same .now rfl
@[simp] theorem fieldOff_free : (fieldOff s).free = s.free := (fieldOff_foot _).same .free rfl
@[simp] theorem fieldOff_out : (fieldOff s).out = s.out := (fieldOff_foot _).same .out rfl
@[simp] theorem fieldOff_pending : (fieldOff s).pending = s.pending := (fieldOff_foot _).same .pending rfl
@[simp] theorem fieldOff_keep : (fieldOff s).keep = s.keep := (fieldOff_foot _).same .keep rfl
@[simp] theorem fieldOff_cat : (fieldOff s).cat = s.cat := (fieldOff_foot _).same .cat rfl
@[simp] theorem fieldOff_otp : (fieldOff s).otp = s.otp := (fieldOff_foot _).same .otp rfl
@[simp] theorem fieldOff_kt : (fieldOff s).kt = s.kt := (fieldOff_foot _).same .kt rfl
@[simp] theorem fieldOff_boot : (fieldOff s).boot = s.boot := (fieldOff_foot _).same .boot rfl
@[simp] theorem fieldOff_mbx : (fieldOff s).mbx = s.mbx := (fieldOff_foot _).same .mbx rfl
@[simp] theorem fieldOff_jr : (fieldOff s).jr = s.jr := (fieldOff_foot _).same .jr rfl
@[simp] theorem fieldOff_stg : (fieldOff s).stg = s.stg := (fieldOff_foot _).same .stg rfl
@[simp] theorem fieldOff_host : (fieldOff s).host = s.host := (fieldOff_foot _).same .host rfl
@[simp] theorem fieldOff_log : (fieldOff s).log = s.log := (fieldOff_foot _).same .log rfl
@[simp] theorem fieldOff_pmc : (fieldOff s).pmc = s.pmc := (fieldOff_foot _).same .pmc rfl
@[simp] theorem fieldOff_spn : (fieldOff s).spn = s.spn := (fieldOff_foot _).same .spn rfl
@[simp] theorem fieldOff_pair : (fieldOff s).pair = s.pair := (fieldOff_foot _).same .pair rfl
@[simp] theorem fieldOff_lv : (fieldOff s).lv = s.lv := (fieldOff_foot _).same .lv rfl
@[simp] theorem fieldOff_ket : (fieldOff s).ket = s.ket := (fieldOff_foot _).same .ket rfl
@[simp] theorem fieldOff_qre : (fieldOff s).qre = s.qre := (fieldOff_foot _).same .qre rfl
@[simp] theorem fieldOff_mem : (fieldOff s).mem = s.mem := (fieldOff_foot _).same .mem rfl
@[simp] theorem fieldOff_ep : (fieldOff s).ep = s.ep := (fieldOff_foot _).same .ep rfl
@[simp] theorem fieldOff_pln : (fieldOff s).pln = s.pln := (fieldOff_foot _).same .pln rfl
@[simp] theorem fieldOff_stw : (fieldOff s).stw = s.stw := (fieldOff_foot _).same .stw rfl
end
section
variable (s : State)
@[simp] theorem saveCounters_now : (saveCounters s).now = s.now := (saveCounters_foot _).same .now rfl
@[simp] theorem saveCounters_free : (saveCounters s).free = s.free := (saveCounters_foot _).same .free rfl
@[simp] theorem saveCounters_out : (saveCounters s).out = s.out := (saveCounters_foot _).same .out rfl
@[simp] theorem saveCounters_pending : (saveCounters s).pending = s.pending := (saveCounters_foot _).same .pending rfl
@[simp] theorem saveCounters_cat : (saveCounters s).cat = s.cat := (saveCounters_foot _).same .cat rfl
@[simp] theorem saveCounters_pwr : (saveCounters s).pwr = s.pwr := (saveCounters_foot _).same .pwr rfl
@[simp] theorem saveCounters_otp : (saveCounters s).otp = s.otp := (saveCounters_foot _).same .otp rfl
@[simp] theorem saveCounters_kt : (saveCounters s).kt = s.kt := (saveCounters_foot _).same .kt rfl
@[simp] theorem saveCounters_boot : (saveCounters s).boot = s.boot := (saveCounters_foot _).same .boot rfl
@[simp] theorem saveCounters_mbx : (saveCounters s).mbx = s.mbx := (saveCounters_foot _).same .mbx rfl
@[simp] theorem saveCounters_jr : (saveCounters s).jr = s.jr := (saveCounters_foot _).same .jr rfl
@[simp] theorem saveCounters_stg : (saveCounters s).stg = s.stg := (saveCounters_foot _).same .stg rfl
@[simp] theorem saveCounters_host : (saveCounters s).host = s.host := (saveCounters_foot _).same .host rfl
@[simp] theorem saveCounters_log : (saveCounters s).log = s.log := (saveCounters_foot _).same .log rfl
@[simp] theorem saveCounters_pmc : (saveCounters s).pmc = s.pmc := (saveCounters_foot _).same .pmc rfl
@[simp] theorem saveCounters_spn : (saveCounters s).spn = s.spn := (saveCounters_foot _).same .spn rfl
@[simp] theorem saveCounters_pair : (saveCounters s).pair = s.pair := (saveCounters_foot _).same .pair rfl
@[simp] theorem saveCounters_lv : (saveCounters s).lv = s.lv := (saveCounters_foot _).same .lv rfl
@[simp] theorem saveCounters_ket : (saveCounters s).ket = s.ket := (saveCounters_foot _).same .ket rfl
@[simp] theorem saveCounters_afe : (saveCounters s).afe = s.afe := (saveCounters_foot _).same .afe rfl
@[simp] theorem saveCounters_drv : (saveCounters s).drv = s.drv := (saveCounters_foot _).same .drv rfl
@[simp] theorem saveCounters_can : (saveCounters s).can = s.can := (saveCounters_foot _).same .can rfl
@[simp] theorem saveCounters_qre : (saveCounters s).qre = s.qre := (saveCounters_foot _).same .qre rfl
@[simp] theorem saveCounters_mem : (saveCounters s).mem = s.mem := (saveCounters_foot _).same .mem rfl
@[simp] theorem saveCounters_ep : (saveCounters s).ep = s.ep := (saveCounters_foot _).same .ep rfl
@[simp] theorem saveCounters_pln : (saveCounters s).pln = s.pln := (saveCounters_foot _).same .pln rfl
@[simp] theorem saveCounters_stw : (saveCounters s).stw = s.stw := (saveCounters_foot _).same .stw rfl
@[simp] theorem saveCounters_ten : (saveCounters s).keep.ten = s.keep.ten := (saveCounters_foot _).same .ten rfl
@[simp] theorem saveCounters_por : (saveCounters s).keep.por = s.keep.por := (saveCounters_foot _).same .por rfl
end
section
variable (id cause held : Nat) (s : State)
@[simp] theorem thawed_now : (thawed id cause held s).now = s.now := (thawed_foot _ _ _ _).same .now rfl
@[simp] theorem thawed_free : (thawed id cause held s).free = s.free := (thawed_foot _ _ _ _).same .free rfl
@[simp] theorem thawed_pending : (thawed id cause held s).pending = s.pending := (thawed_foot _ _ _ _).same .pending rfl
@[simp] theorem thawed_cat : (thawed id cause held s).cat = s.cat := (thawed_foot _ _ _ _).same .cat rfl
@[simp] theorem thawed_pwr : (thawed id cause held s).pwr = s.pwr := (thawed_foot _ _ _ _).same .pwr rfl
@[simp] theorem thawed_otp : (thawed id cause held s).otp = s.otp := (thawed_foot _ _ _ _).same .otp rfl
@[simp] theorem thawed_kt : (thawed id cause held s).kt = s.kt := (thawed_foot _ _ _ _).same .kt rfl
@[simp] theorem thawed_boot : (thawed id cause held s).boot = s.boot := (thawed_foot _ _ _ _).same .boot rfl
@[simp] theorem thawed_mbx : (thawed id cause held s).mbx = s.mbx := (thawed_foot _ _ _ _).same .mbx rfl
@[simp] theorem thawed_jr : (thawed id cause held s).jr = s.jr := (thawed_foot _ _ _ _).same .jr rfl
@[simp] theorem thawed_stg : (thawed id cause held s).stg = s.stg := (thawed_foot _ _ _ _).same .stg rfl
@[simp] theorem thawed_pair : (thawed id cause held s).pair = s.pair := (thawed_foot _ _ _ _).same .pair rfl
@[simp] theorem thawed_lv : (thawed id cause held s).lv = s.lv := (thawed_foot _ _ _ _).same .lv rfl
@[simp] theorem thawed_ket : (thawed id cause held s).ket = s.ket := (thawed_foot _ _ _ _).same .ket rfl
@[simp] theorem thawed_afe : (thawed id cause held s).afe = s.afe := (thawed_foot _ _ _ _).same .afe rfl
@[simp] theorem thawed_drv : (thawed id cause held s).drv = s.drv := (thawed_foot _ _ _ _).same .drv rfl
@[simp] theorem thawed_can : (thawed id cause held s).can = s.can := (thawed_foot _ _ _ _).same .can rfl
@[simp] theorem thawed_qre : (thawed id cause held s).qre = s.qre := (thawed_foot _ _ _ _).same .qre rfl
@[simp] theorem thawed_mem : (thawed id cause held s).mem = s.mem := (thawed_foot _ _ _ _).same .mem rfl
@[simp] theorem thawed_ep : (thawed id cause held s).ep = s.ep := (thawed_foot _ _ _ _).same .ep rfl
@[simp] theorem thawed_pln : (thawed id cause held s).pln = s.pln := (thawed_foot _ _ _ _).same .pln rfl
@[simp] theorem thawed_stw : (thawed id cause held s).stw = s.stw := (thawed_foot _ _ _ _).same .stw rfl
@[simp] theorem thawed_por : (thawed id cause held s).keep.por = s.keep.por := keepCore_por ((thawed_foot _ _ _ _).same .core rfl)
@[simp] theorem thawed_cold : (thawed id cause held s).keep.cold = s.keep.cold := keepCore_cold ((thawed_foot _ _ _ _).same .core rfl)
@[simp] theorem thawed_tenRead : (thawed id cause held s).keep.tenRead = s.keep.tenRead := keepCore_tenRead ((thawed_foot _ _ _ _).same .core rfl)
@[simp] theorem thawed_readAt : (thawed id cause held s).keep.readAt = s.keep.readAt := keepCore_readAt ((thawed_foot _ _ _ _).same .core rfl)
@[simp] theorem thawed_hourBase : (thawed id cause held s).keep.hourBase = s.keep.hourBase := keepCore_hourBase ((thawed_foot _ _ _ _).same .core rfl)
@[simp] theorem thawed_hourFrom : (thawed id cause held s).keep.hourFrom = s.keep.hourFrom := keepCore_hourFrom ((thawed_foot _ _ _ _).same .core rfl)
@[simp] theorem thawed_coarse : (thawed id cause held s).keep.coarse = s.keep.coarse := keepCore_coarse ((thawed_foot _ _ _ _).same .core rfl)
@[simp] theorem thawed_pcycle : (thawed id cause held s).keep.pcycle = s.keep.pcycle := keepCore_pcycle ((thawed_foot _ _ _ _).same .core rfl)
@[simp] theorem thawed_savedHour : (thawed id cause held s).keep.savedHour = s.keep.savedHour := keepCore_savedHour ((thawed_foot _ _ _ _).same .core rfl)
@[simp] theorem thawed_savedCycle : (thawed id cause held s).keep.savedCycle = s.keep.savedCycle := keepCore_savedCycle ((thawed_foot _ _ _ _).same .core rfl)
@[simp] theorem thawed_ten : (thawed id cause held s).keep.ten = s.keep.ten := keepCore_ten ((thawed_foot _ _ _ _).same .core rfl)
@[simp] theorem thawed_capdn : (thawed id cause held s).keep.capdn = s.keep.capdn := keepCore_capdn ((thawed_foot _ _ _ _).same .core rfl)
@[simp] theorem thawed_handoff : (thawed id cause held s).keep.handoff = s.keep.handoff := keepCore_handoff ((thawed_foot _ _ _ _).same .core rfl)
@[simp] theorem thawed_handoffAt : (thawed id cause held s).keep.handoffAt = s.keep.handoffAt := keepCore_handoffAt ((thawed_foot _ _ _ _).same .core rfl)
end
section
variable (s : State)
@[simp] theorem resetThaw_now : (resetThaw s).now = s.now := (resetThaw_foot _).same .now rfl
@[simp] theorem resetThaw_free : (resetThaw s).free = s.free := (resetThaw_foot _).same .free rfl
@[simp] theorem resetThaw_pending : (resetThaw s).pending = s.pending := (resetThaw_foot _).same .pending rfl
@[simp] theorem resetThaw_cat : (resetThaw s).cat = s.cat := (resetThaw_foot _).same .cat rfl
@[simp] theorem resetThaw_pwr : (resetThaw s).pwr = s.pwr := (resetThaw_foot _).same .pwr rfl
@[simp] theorem resetThaw_otp : (resetThaw s).otp = s.otp := (resetThaw_foot _).same .otp rfl
@[simp] theorem resetThaw_kt : (resetThaw s).kt = s.kt := (resetThaw_foot _).same .kt rfl
@[simp] theorem resetThaw_boot : (resetThaw s).boot = s.boot := (resetThaw_foot _).same .boot rfl
@[simp] theorem resetThaw_mbx : (resetThaw s).mbx = s.mbx := (resetThaw_foot _).same .mbx rfl
@[simp] theorem resetThaw_jr : (resetThaw s).jr = s.jr := (resetThaw_foot _).same .jr rfl
@[simp] theorem resetThaw_stg : (resetThaw s).stg = s.stg := (resetThaw_foot _).same .stg rfl
@[simp] theorem resetThaw_pair : (resetThaw s).pair = s.pair := (resetThaw_foot _).same .pair rfl
@[simp] theorem resetThaw_lv : (resetThaw s).lv = s.lv := (resetThaw_foot _).same .lv rfl
@[simp] theorem resetThaw_ket : (resetThaw s).ket = s.ket := (resetThaw_foot _).same .ket rfl
@[simp] theorem resetThaw_afe : (resetThaw s).afe = s.afe := (resetThaw_foot _).same .afe rfl
@[simp] theorem resetThaw_drv : (resetThaw s).drv = s.drv := (resetThaw_foot _).same .drv rfl
@[simp] theorem resetThaw_can : (resetThaw s).can = s.can := (resetThaw_foot _).same .can rfl
@[simp] theorem resetThaw_qre : (resetThaw s).qre = s.qre := (resetThaw_foot _).same .qre rfl
@[simp] theorem resetThaw_mem : (resetThaw s).mem = s.mem := (resetThaw_foot _).same .mem rfl
@[simp] theorem resetThaw_ep : (resetThaw s).ep = s.ep := (resetThaw_foot _).same .ep rfl
@[simp] theorem resetThaw_pln : (resetThaw s).pln = s.pln := (resetThaw_foot _).same .pln rfl
@[simp] theorem resetThaw_stw : (resetThaw s).stw = s.stw := (resetThaw_foot _).same .stw rfl
@[simp] theorem resetThaw_por : (resetThaw s).keep.por = s.keep.por := keepCore_por ((resetThaw_foot _).same .core rfl)
@[simp] theorem resetThaw_cold : (resetThaw s).keep.cold = s.keep.cold := keepCore_cold ((resetThaw_foot _).same .core rfl)
@[simp] theorem resetThaw_tenRead : (resetThaw s).keep.tenRead = s.keep.tenRead := keepCore_tenRead ((resetThaw_foot _).same .core rfl)
@[simp] theorem resetThaw_readAt : (resetThaw s).keep.readAt = s.keep.readAt := keepCore_readAt ((resetThaw_foot _).same .core rfl)
@[simp] theorem resetThaw_hourBase : (resetThaw s).keep.hourBase = s.keep.hourBase := keepCore_hourBase ((resetThaw_foot _).same .core rfl)
@[simp] theorem resetThaw_hourFrom : (resetThaw s).keep.hourFrom = s.keep.hourFrom := keepCore_hourFrom ((resetThaw_foot _).same .core rfl)
@[simp] theorem resetThaw_coarse : (resetThaw s).keep.coarse = s.keep.coarse := keepCore_coarse ((resetThaw_foot _).same .core rfl)
@[simp] theorem resetThaw_pcycle : (resetThaw s).keep.pcycle = s.keep.pcycle := keepCore_pcycle ((resetThaw_foot _).same .core rfl)
@[simp] theorem resetThaw_savedHour : (resetThaw s).keep.savedHour = s.keep.savedHour := keepCore_savedHour ((resetThaw_foot _).same .core rfl)
@[simp] theorem resetThaw_savedCycle : (resetThaw s).keep.savedCycle = s.keep.savedCycle := keepCore_savedCycle ((resetThaw_foot _).same .core rfl)
@[simp] theorem resetThaw_ten : (resetThaw s).keep.ten = s.keep.ten := keepCore_ten ((resetThaw_foot _).same .core rfl)
@[simp] theorem resetThaw_capdn : (resetThaw s).keep.capdn = s.keep.capdn := keepCore_capdn ((resetThaw_foot _).same .core rfl)
@[simp] theorem resetThaw_handoff : (resetThaw s).keep.handoff = s.keep.handoff := keepCore_handoff ((resetThaw_foot _).same .core rfl)
@[simp] theorem resetThaw_handoffAt : (resetThaw s).keep.handoffAt = s.keep.handoffAt := keepCore_handoffAt ((resetThaw_foot _).same .core rfl)
end
section
variable (s : State)
@[simp] theorem storeOff_now : (storeOff s).now = s.now := (storeOff_foot _).same .now rfl
@[simp] theorem storeOff_free : (storeOff s).free = s.free := (storeOff_foot _).same .free rfl
@[simp] theorem storeOff_out : (storeOff s).out = s.out := (storeOff_foot _).same .out rfl
@[simp] theorem storeOff_pending : (storeOff s).pending = s.pending := (storeOff_foot _).same .pending rfl
@[simp] theorem storeOff_keep : (storeOff s).keep = s.keep := (storeOff_foot _).same .keep rfl
@[simp] theorem storeOff_cat : (storeOff s).cat = s.cat := (storeOff_foot _).same .cat rfl
@[simp] theorem storeOff_otp : (storeOff s).otp = s.otp := (storeOff_foot _).same .otp rfl
@[simp] theorem storeOff_kt : (storeOff s).kt = s.kt := (storeOff_foot _).same .kt rfl
@[simp] theorem storeOff_boot : (storeOff s).boot = s.boot := (storeOff_foot _).same .boot rfl
@[simp] theorem storeOff_mbx : (storeOff s).mbx = s.mbx := (storeOff_foot _).same .mbx rfl
@[simp] theorem storeOff_jr : (storeOff s).jr = s.jr := (storeOff_foot _).same .jr rfl
@[simp] theorem storeOff_host : (storeOff s).host = s.host := (storeOff_foot _).same .host rfl
@[simp] theorem storeOff_log : (storeOff s).log = s.log := (storeOff_foot _).same .log rfl
@[simp] theorem storeOff_pmc : (storeOff s).pmc = s.pmc := (storeOff_foot _).same .pmc rfl
@[simp] theorem storeOff_spn : (storeOff s).spn = s.spn := (storeOff_foot _).same .spn rfl
@[simp] theorem storeOff_pair : (storeOff s).pair = s.pair := (storeOff_foot _).same .pair rfl
@[simp] theorem storeOff_lv : (storeOff s).lv = s.lv := (storeOff_foot _).same .lv rfl
@[simp] theorem storeOff_ket : (storeOff s).ket = s.ket := (storeOff_foot _).same .ket rfl
@[simp] theorem storeOff_drv : (storeOff s).drv = s.drv := (storeOff_foot _).same .drv rfl
@[simp] theorem storeOff_can : (storeOff s).can = s.can := (storeOff_foot _).same .can rfl
@[simp] theorem storeOff_qre : (storeOff s).qre = s.qre := (storeOff_foot _).same .qre rfl
@[simp] theorem storeOff_ep : (storeOff s).ep = s.ep := (storeOff_foot _).same .ep rfl
@[simp] theorem storeOff_pln : (storeOff s).pln = s.pln := (storeOff_foot _).same .pln rfl
@[simp] theorem storeOff_stw : (storeOff s).stw = s.stw := (storeOff_foot _).same .stw rfl
end
section
variable (s : State)
@[simp] theorem setHandoff_now : (setHandoff s).now = s.now := (setHandoff_foot _).same .now rfl
@[simp] theorem setHandoff_free : (setHandoff s).free = s.free := (setHandoff_foot _).same .free rfl
@[simp] theorem setHandoff_out : (setHandoff s).out = s.out := (setHandoff_foot _).same .out rfl
@[simp] theorem setHandoff_pending : (setHandoff s).pending = s.pending := (setHandoff_foot _).same .pending rfl
@[simp] theorem setHandoff_cat : (setHandoff s).cat = s.cat := (setHandoff_foot _).same .cat rfl
@[simp] theorem setHandoff_pwr : (setHandoff s).pwr = s.pwr := (setHandoff_foot _).same .pwr rfl
@[simp] theorem setHandoff_otp : (setHandoff s).otp = s.otp := (setHandoff_foot _).same .otp rfl
@[simp] theorem setHandoff_kt : (setHandoff s).kt = s.kt := (setHandoff_foot _).same .kt rfl
@[simp] theorem setHandoff_boot : (setHandoff s).boot = s.boot := (setHandoff_foot _).same .boot rfl
@[simp] theorem setHandoff_mbx : (setHandoff s).mbx = s.mbx := (setHandoff_foot _).same .mbx rfl
@[simp] theorem setHandoff_jr : (setHandoff s).jr = s.jr := (setHandoff_foot _).same .jr rfl
@[simp] theorem setHandoff_stg : (setHandoff s).stg = s.stg := (setHandoff_foot _).same .stg rfl
@[simp] theorem setHandoff_host : (setHandoff s).host = s.host := (setHandoff_foot _).same .host rfl
@[simp] theorem setHandoff_log : (setHandoff s).log = s.log := (setHandoff_foot _).same .log rfl
@[simp] theorem setHandoff_pmc : (setHandoff s).pmc = s.pmc := (setHandoff_foot _).same .pmc rfl
@[simp] theorem setHandoff_spn : (setHandoff s).spn = s.spn := (setHandoff_foot _).same .spn rfl
@[simp] theorem setHandoff_pair : (setHandoff s).pair = s.pair := (setHandoff_foot _).same .pair rfl
@[simp] theorem setHandoff_lv : (setHandoff s).lv = s.lv := (setHandoff_foot _).same .lv rfl
@[simp] theorem setHandoff_ket : (setHandoff s).ket = s.ket := (setHandoff_foot _).same .ket rfl
@[simp] theorem setHandoff_afe : (setHandoff s).afe = s.afe := (setHandoff_foot _).same .afe rfl
@[simp] theorem setHandoff_drv : (setHandoff s).drv = s.drv := (setHandoff_foot _).same .drv rfl
@[simp] theorem setHandoff_can : (setHandoff s).can = s.can := (setHandoff_foot _).same .can rfl
@[simp] theorem setHandoff_qre : (setHandoff s).qre = s.qre := (setHandoff_foot _).same .qre rfl
@[simp] theorem setHandoff_mem : (setHandoff s).mem = s.mem := (setHandoff_foot _).same .mem rfl
@[simp] theorem setHandoff_ep : (setHandoff s).ep = s.ep := (setHandoff_foot _).same .ep rfl
@[simp] theorem setHandoff_pln : (setHandoff s).pln = s.pln := (setHandoff_foot _).same .pln rfl
@[simp] theorem setHandoff_stw : (setHandoff s).stw = s.stw := (setHandoff_foot _).same .stw rfl
@[simp] theorem setHandoff_ten : (setHandoff s).keep.ten = s.keep.ten := (setHandoff_foot _).same .ten rfl
@[simp] theorem setHandoff_por : (setHandoff s).keep.por = s.keep.por := (setHandoff_foot _).same .por rfl
end
section
variable (s : State)
@[simp] theorem breakCkpt_now : (breakCkpt s).now = s.now := (breakCkpt_foot _).same .now rfl
@[simp] theorem breakCkpt_free : (breakCkpt s).free = s.free := (breakCkpt_foot _).same .free rfl
@[simp] theorem breakCkpt_out : (breakCkpt s).out = s.out := (breakCkpt_foot _).same .out rfl
@[simp] theorem breakCkpt_pending : (breakCkpt s).pending = s.pending := (breakCkpt_foot _).same .pending rfl
@[simp] theorem breakCkpt_keep : (breakCkpt s).keep = s.keep := (breakCkpt_foot _).same .keep rfl
@[simp] theorem breakCkpt_pwr : (breakCkpt s).pwr = s.pwr := (breakCkpt_foot _).same .pwr rfl
@[simp] theorem breakCkpt_otp : (breakCkpt s).otp = s.otp := (breakCkpt_foot _).same .otp rfl
@[simp] theorem breakCkpt_kt : (breakCkpt s).kt = s.kt := (breakCkpt_foot _).same .kt rfl
@[simp] theorem breakCkpt_boot : (breakCkpt s).boot = s.boot := (breakCkpt_foot _).same .boot rfl
@[simp] theorem breakCkpt_mbx : (breakCkpt s).mbx = s.mbx := (breakCkpt_foot _).same .mbx rfl
@[simp] theorem breakCkpt_jr : (breakCkpt s).jr = s.jr := (breakCkpt_foot _).same .jr rfl
@[simp] theorem breakCkpt_stg : (breakCkpt s).stg = s.stg := (breakCkpt_foot _).same .stg rfl
@[simp] theorem breakCkpt_host : (breakCkpt s).host = s.host := (breakCkpt_foot _).same .host rfl
@[simp] theorem breakCkpt_log : (breakCkpt s).log = s.log := (breakCkpt_foot _).same .log rfl
@[simp] theorem breakCkpt_pmc : (breakCkpt s).pmc = s.pmc := (breakCkpt_foot _).same .pmc rfl
@[simp] theorem breakCkpt_spn : (breakCkpt s).spn = s.spn := (breakCkpt_foot _).same .spn rfl
@[simp] theorem breakCkpt_pair : (breakCkpt s).pair = s.pair := (breakCkpt_foot _).same .pair rfl
@[simp] theorem breakCkpt_lv : (breakCkpt s).lv = s.lv := (breakCkpt_foot _).same .lv rfl
@[simp] theorem breakCkpt_ket : (breakCkpt s).ket = s.ket := (breakCkpt_foot _).same .ket rfl
@[simp] theorem breakCkpt_afe : (breakCkpt s).afe = s.afe := (breakCkpt_foot _).same .afe rfl
@[simp] theorem breakCkpt_drv : (breakCkpt s).drv = s.drv := (breakCkpt_foot _).same .drv rfl
@[simp] theorem breakCkpt_can : (breakCkpt s).can = s.can := (breakCkpt_foot _).same .can rfl
@[simp] theorem breakCkpt_qre : (breakCkpt s).qre = s.qre := (breakCkpt_foot _).same .qre rfl
@[simp] theorem breakCkpt_mem : (breakCkpt s).mem = s.mem := (breakCkpt_foot _).same .mem rfl
@[simp] theorem breakCkpt_ep : (breakCkpt s).ep = s.ep := (breakCkpt_foot _).same .ep rfl
@[simp] theorem breakCkpt_pln : (breakCkpt s).pln = s.pln := (breakCkpt_foot _).same .pln rfl
@[simp] theorem breakCkpt_stw : (breakCkpt s).stw = s.stw := (breakCkpt_foot _).same .stw rfl
end
section
variable (l : BelowLease) (result : Word) (s : State)
@[simp] theorem dropBelow_now : (dropBelow l result s).now = s.now := (dropBelow_foot _ _ _).same .now rfl
@[simp] theorem dropBelow_free : (dropBelow l result s).free = s.free := (dropBelow_foot _ _ _).same .free rfl
@[simp] theorem dropBelow_pending : (dropBelow l result s).pending = s.pending := (dropBelow_foot _ _ _).same .pending rfl
@[simp] theorem dropBelow_cat : (dropBelow l result s).cat = s.cat := (dropBelow_foot _ _ _).same .cat rfl
@[simp] theorem dropBelow_pwr : (dropBelow l result s).pwr = s.pwr := (dropBelow_foot _ _ _).same .pwr rfl
@[simp] theorem dropBelow_otp : (dropBelow l result s).otp = s.otp := (dropBelow_foot _ _ _).same .otp rfl
@[simp] theorem dropBelow_kt : (dropBelow l result s).kt = s.kt := (dropBelow_foot _ _ _).same .kt rfl
@[simp] theorem dropBelow_boot : (dropBelow l result s).boot = s.boot := (dropBelow_foot _ _ _).same .boot rfl
@[simp] theorem dropBelow_mbx : (dropBelow l result s).mbx = s.mbx := (dropBelow_foot _ _ _).same .mbx rfl
@[simp] theorem dropBelow_jr : (dropBelow l result s).jr = s.jr := (dropBelow_foot _ _ _).same .jr rfl
@[simp] theorem dropBelow_stg : (dropBelow l result s).stg = s.stg := (dropBelow_foot _ _ _).same .stg rfl
@[simp] theorem dropBelow_pair : (dropBelow l result s).pair = s.pair := (dropBelow_foot _ _ _).same .pair rfl
@[simp] theorem dropBelow_lv : (dropBelow l result s).lv = s.lv := (dropBelow_foot _ _ _).same .lv rfl
@[simp] theorem dropBelow_ket : (dropBelow l result s).ket = s.ket := (dropBelow_foot _ _ _).same .ket rfl
@[simp] theorem dropBelow_afe : (dropBelow l result s).afe = s.afe := (dropBelow_foot _ _ _).same .afe rfl
@[simp] theorem dropBelow_can : (dropBelow l result s).can = s.can := (dropBelow_foot _ _ _).same .can rfl
@[simp] theorem dropBelow_qre : (dropBelow l result s).qre = s.qre := (dropBelow_foot _ _ _).same .qre rfl
@[simp] theorem dropBelow_mem : (dropBelow l result s).mem = s.mem := (dropBelow_foot _ _ _).same .mem rfl
@[simp] theorem dropBelow_ep : (dropBelow l result s).ep = s.ep := (dropBelow_foot _ _ _).same .ep rfl
@[simp] theorem dropBelow_pln : (dropBelow l result s).pln = s.pln := (dropBelow_foot _ _ _).same .pln rfl
@[simp] theorem dropBelow_stw : (dropBelow l result s).stw = s.stw := (dropBelow_foot _ _ _).same .stw rfl
@[simp] theorem dropBelow_por : (dropBelow l result s).keep.por = s.keep.por := keepCore_por ((dropBelow_foot _ _ _).same .core rfl)
@[simp] theorem dropBelow_cold : (dropBelow l result s).keep.cold = s.keep.cold := keepCore_cold ((dropBelow_foot _ _ _).same .core rfl)
@[simp] theorem dropBelow_tenRead : (dropBelow l result s).keep.tenRead = s.keep.tenRead := keepCore_tenRead ((dropBelow_foot _ _ _).same .core rfl)
@[simp] theorem dropBelow_readAt : (dropBelow l result s).keep.readAt = s.keep.readAt := keepCore_readAt ((dropBelow_foot _ _ _).same .core rfl)
@[simp] theorem dropBelow_hourBase : (dropBelow l result s).keep.hourBase = s.keep.hourBase := keepCore_hourBase ((dropBelow_foot _ _ _).same .core rfl)
@[simp] theorem dropBelow_hourFrom : (dropBelow l result s).keep.hourFrom = s.keep.hourFrom := keepCore_hourFrom ((dropBelow_foot _ _ _).same .core rfl)
@[simp] theorem dropBelow_coarse : (dropBelow l result s).keep.coarse = s.keep.coarse := keepCore_coarse ((dropBelow_foot _ _ _).same .core rfl)
@[simp] theorem dropBelow_pcycle : (dropBelow l result s).keep.pcycle = s.keep.pcycle := keepCore_pcycle ((dropBelow_foot _ _ _).same .core rfl)
@[simp] theorem dropBelow_savedHour : (dropBelow l result s).keep.savedHour = s.keep.savedHour := keepCore_savedHour ((dropBelow_foot _ _ _).same .core rfl)
@[simp] theorem dropBelow_savedCycle : (dropBelow l result s).keep.savedCycle = s.keep.savedCycle := keepCore_savedCycle ((dropBelow_foot _ _ _).same .core rfl)
@[simp] theorem dropBelow_ten : (dropBelow l result s).keep.ten = s.keep.ten := keepCore_ten ((dropBelow_foot _ _ _).same .core rfl)
@[simp] theorem dropBelow_capdn : (dropBelow l result s).keep.capdn = s.keep.capdn := keepCore_capdn ((dropBelow_foot _ _ _).same .core rfl)
@[simp] theorem dropBelow_handoff : (dropBelow l result s).keep.handoff = s.keep.handoff := keepCore_handoff ((dropBelow_foot _ _ _).same .core rfl)
@[simp] theorem dropBelow_handoffAt : (dropBelow l result s).keep.handoffAt = s.keep.handoffAt := keepCore_handoffAt ((dropBelow_foot _ _ _).same .core rfl)
end
section
variable (code : Nat) (s : State)
@[simp] theorem bootFail_now : (bootFail code s).now = s.now := (bootFail_foot _ _).same .now rfl
@[simp] theorem bootFail_free : (bootFail code s).free = s.free := (bootFail_foot _ _).same .free rfl
@[simp] theorem bootFail_pending : (bootFail code s).pending = s.pending := (bootFail_foot _ _).same .pending rfl
@[simp] theorem bootFail_cat : (bootFail code s).cat = s.cat := (bootFail_foot _ _).same .cat rfl
@[simp] theorem bootFail_pwr : (bootFail code s).pwr = s.pwr := (bootFail_foot _ _).same .pwr rfl
@[simp] theorem bootFail_otp : (bootFail code s).otp = s.otp := (bootFail_foot _ _).same .otp rfl
@[simp] theorem bootFail_kt : (bootFail code s).kt = s.kt := (bootFail_foot _ _).same .kt rfl
@[simp] theorem bootFail_mbx : (bootFail code s).mbx = s.mbx := (bootFail_foot _ _).same .mbx rfl
@[simp] theorem bootFail_jr : (bootFail code s).jr = s.jr := (bootFail_foot _ _).same .jr rfl
@[simp] theorem bootFail_stg : (bootFail code s).stg = s.stg := (bootFail_foot _ _).same .stg rfl
@[simp] theorem bootFail_pair : (bootFail code s).pair = s.pair := (bootFail_foot _ _).same .pair rfl
@[simp] theorem bootFail_lv : (bootFail code s).lv = s.lv := (bootFail_foot _ _).same .lv rfl
@[simp] theorem bootFail_ket : (bootFail code s).ket = s.ket := (bootFail_foot _ _).same .ket rfl
@[simp] theorem bootFail_afe : (bootFail code s).afe = s.afe := (bootFail_foot _ _).same .afe rfl
@[simp] theorem bootFail_drv : (bootFail code s).drv = s.drv := (bootFail_foot _ _).same .drv rfl
@[simp] theorem bootFail_can : (bootFail code s).can = s.can := (bootFail_foot _ _).same .can rfl
@[simp] theorem bootFail_qre : (bootFail code s).qre = s.qre := (bootFail_foot _ _).same .qre rfl
@[simp] theorem bootFail_mem : (bootFail code s).mem = s.mem := (bootFail_foot _ _).same .mem rfl
@[simp] theorem bootFail_ep : (bootFail code s).ep = s.ep := (bootFail_foot _ _).same .ep rfl
@[simp] theorem bootFail_pln : (bootFail code s).pln = s.pln := (bootFail_foot _ _).same .pln rfl
@[simp] theorem bootFail_stw : (bootFail code s).stw = s.stw := (bootFail_foot _ _).same .stw rfl
@[simp] theorem bootFail_por : (bootFail code s).keep.por = s.keep.por := keepCore_por ((bootFail_foot _ _).same .core rfl)
@[simp] theorem bootFail_cold : (bootFail code s).keep.cold = s.keep.cold := keepCore_cold ((bootFail_foot _ _).same .core rfl)
@[simp] theorem bootFail_tenRead : (bootFail code s).keep.tenRead = s.keep.tenRead := keepCore_tenRead ((bootFail_foot _ _).same .core rfl)
@[simp] theorem bootFail_readAt : (bootFail code s).keep.readAt = s.keep.readAt := keepCore_readAt ((bootFail_foot _ _).same .core rfl)
@[simp] theorem bootFail_hourBase : (bootFail code s).keep.hourBase = s.keep.hourBase := keepCore_hourBase ((bootFail_foot _ _).same .core rfl)
@[simp] theorem bootFail_hourFrom : (bootFail code s).keep.hourFrom = s.keep.hourFrom := keepCore_hourFrom ((bootFail_foot _ _).same .core rfl)
@[simp] theorem bootFail_coarse : (bootFail code s).keep.coarse = s.keep.coarse := keepCore_coarse ((bootFail_foot _ _).same .core rfl)
@[simp] theorem bootFail_pcycle : (bootFail code s).keep.pcycle = s.keep.pcycle := keepCore_pcycle ((bootFail_foot _ _).same .core rfl)
@[simp] theorem bootFail_savedHour : (bootFail code s).keep.savedHour = s.keep.savedHour := keepCore_savedHour ((bootFail_foot _ _).same .core rfl)
@[simp] theorem bootFail_savedCycle : (bootFail code s).keep.savedCycle = s.keep.savedCycle := keepCore_savedCycle ((bootFail_foot _ _).same .core rfl)
@[simp] theorem bootFail_ten : (bootFail code s).keep.ten = s.keep.ten := keepCore_ten ((bootFail_foot _ _).same .core rfl)
@[simp] theorem bootFail_capdn : (bootFail code s).keep.capdn = s.keep.capdn := keepCore_capdn ((bootFail_foot _ _).same .core rfl)
@[simp] theorem bootFail_handoff : (bootFail code s).keep.handoff = s.keep.handoff := keepCore_handoff ((bootFail_foot _ _).same .core rfl)
@[simp] theorem bootFail_handoffAt : (bootFail code s).keep.handoffAt = s.keep.handoffAt := keepCore_handoffAt ((bootFail_foot _ _).same .core rfl)
end
section
variable (s : State)
@[simp] theorem perstRegs_now : (perstRegs s).now = s.now := (perstRegs_foot _).same .now rfl
@[simp] theorem perstRegs_free : (perstRegs s).free = s.free := (perstRegs_foot _).same .free rfl
@[simp] theorem perstRegs_out : (perstRegs s).out = s.out := (perstRegs_foot _).same .out rfl
@[simp] theorem perstRegs_pending : (perstRegs s).pending = s.pending := (perstRegs_foot _).same .pending rfl
@[simp] theorem perstRegs_keep : (perstRegs s).keep = s.keep := (perstRegs_foot _).same .keep rfl
@[simp] theorem perstRegs_cat : (perstRegs s).cat = s.cat := (perstRegs_foot _).same .cat rfl
@[simp] theorem perstRegs_pwr : (perstRegs s).pwr = s.pwr := (perstRegs_foot _).same .pwr rfl
@[simp] theorem perstRegs_otp : (perstRegs s).otp = s.otp := (perstRegs_foot _).same .otp rfl
@[simp] theorem perstRegs_kt : (perstRegs s).kt = s.kt := (perstRegs_foot _).same .kt rfl
@[simp] theorem perstRegs_boot : (perstRegs s).boot = s.boot := (perstRegs_foot _).same .boot rfl
@[simp] theorem perstRegs_mbx : (perstRegs s).mbx = s.mbx := (perstRegs_foot _).same .mbx rfl
@[simp] theorem perstRegs_jr : (perstRegs s).jr = s.jr := (perstRegs_foot _).same .jr rfl
@[simp] theorem perstRegs_stg : (perstRegs s).stg = s.stg := (perstRegs_foot _).same .stg rfl
@[simp] theorem perstRegs_log : (perstRegs s).log = s.log := (perstRegs_foot _).same .log rfl
@[simp] theorem perstRegs_spn : (perstRegs s).spn = s.spn := (perstRegs_foot _).same .spn rfl
@[simp] theorem perstRegs_pair : (perstRegs s).pair = s.pair := (perstRegs_foot _).same .pair rfl
@[simp] theorem perstRegs_lv : (perstRegs s).lv = s.lv := (perstRegs_foot _).same .lv rfl
@[simp] theorem perstRegs_ket : (perstRegs s).ket = s.ket := (perstRegs_foot _).same .ket rfl
@[simp] theorem perstRegs_afe : (perstRegs s).afe = s.afe := (perstRegs_foot _).same .afe rfl
@[simp] theorem perstRegs_drv : (perstRegs s).drv = s.drv := (perstRegs_foot _).same .drv rfl
@[simp] theorem perstRegs_can : (perstRegs s).can = s.can := (perstRegs_foot _).same .can rfl
@[simp] theorem perstRegs_qre : (perstRegs s).qre = s.qre := (perstRegs_foot _).same .qre rfl
@[simp] theorem perstRegs_mem : (perstRegs s).mem = s.mem := (perstRegs_foot _).same .mem rfl
@[simp] theorem perstRegs_ep : (perstRegs s).ep = s.ep := (perstRegs_foot _).same .ep rfl
@[simp] theorem perstRegs_pln : (perstRegs s).pln = s.pln := (perstRegs_foot _).same .pln rfl
@[simp] theorem perstRegs_stw : (perstRegs s).stw = s.stw := (perstRegs_foot _).same .stw rfl
end
section
variable (ev : Nat) (s : State)
@[simp] theorem count_now : (count ev s).now = s.now := (count_foot _ _).same .now rfl
@[simp] theorem count_free : (count ev s).free = s.free := (count_foot _ _).same .free rfl
@[simp] theorem count_out : (count ev s).out = s.out := (count_foot _ _).same .out rfl
@[simp] theorem count_pending : (count ev s).pending = s.pending := (count_foot _ _).same .pending rfl
@[simp] theorem count_keep : (count ev s).keep = s.keep := (count_foot _ _).same .keep rfl
@[simp] theorem count_cat : (count ev s).cat = s.cat := (count_foot _ _).same .cat rfl
@[simp] theorem count_pwr : (count ev s).pwr = s.pwr := (count_foot _ _).same .pwr rfl
@[simp] theorem count_otp : (count ev s).otp = s.otp := (count_foot _ _).same .otp rfl
@[simp] theorem count_kt : (count ev s).kt = s.kt := (count_foot _ _).same .kt rfl
@[simp] theorem count_boot : (count ev s).boot = s.boot := (count_foot _ _).same .boot rfl
@[simp] theorem count_mbx : (count ev s).mbx = s.mbx := (count_foot _ _).same .mbx rfl
@[simp] theorem count_jr : (count ev s).jr = s.jr := (count_foot _ _).same .jr rfl
@[simp] theorem count_stg : (count ev s).stg = s.stg := (count_foot _ _).same .stg rfl
@[simp] theorem count_host : (count ev s).host = s.host := (count_foot _ _).same .host rfl
@[simp] theorem count_log : (count ev s).log = s.log := (count_foot _ _).same .log rfl
@[simp] theorem count_spn : (count ev s).spn = s.spn := (count_foot _ _).same .spn rfl
@[simp] theorem count_pair : (count ev s).pair = s.pair := (count_foot _ _).same .pair rfl
@[simp] theorem count_lv : (count ev s).lv = s.lv := (count_foot _ _).same .lv rfl
@[simp] theorem count_ket : (count ev s).ket = s.ket := (count_foot _ _).same .ket rfl
@[simp] theorem count_afe : (count ev s).afe = s.afe := (count_foot _ _).same .afe rfl
@[simp] theorem count_drv : (count ev s).drv = s.drv := (count_foot _ _).same .drv rfl
@[simp] theorem count_can : (count ev s).can = s.can := (count_foot _ _).same .can rfl
@[simp] theorem count_qre : (count ev s).qre = s.qre := (count_foot _ _).same .qre rfl
@[simp] theorem count_mem : (count ev s).mem = s.mem := (count_foot _ _).same .mem rfl
@[simp] theorem count_ep : (count ev s).ep = s.ep := (count_foot _ _).same .ep rfl
@[simp] theorem count_pln : (count ev s).pln = s.pln := (count_foot _ _).same .pln rfl
@[simp] theorem count_stw : (count ev s).stw = s.stw := (count_foot _ _).same .stw rfl
end
section
variable (t reason : Nat) (s : State)
@[simp] theorem revokeTray_now : (revokeTray t reason s).now = s.now := (revokeTray_foot _ _ _).same .now rfl
@[simp] theorem revokeTray_free : (revokeTray t reason s).free = s.free := (revokeTray_foot _ _ _).same .free rfl
@[simp] theorem revokeTray_pending : (revokeTray t reason s).pending = s.pending := (revokeTray_foot _ _ _).same .pending rfl
@[simp] theorem revokeTray_keep : (revokeTray t reason s).keep = s.keep := (revokeTray_foot _ _ _).same .keep rfl
@[simp] theorem revokeTray_cat : (revokeTray t reason s).cat = s.cat := (revokeTray_foot _ _ _).same .cat rfl
@[simp] theorem revokeTray_pwr : (revokeTray t reason s).pwr = s.pwr := (revokeTray_foot _ _ _).same .pwr rfl
@[simp] theorem revokeTray_otp : (revokeTray t reason s).otp = s.otp := (revokeTray_foot _ _ _).same .otp rfl
@[simp] theorem revokeTray_kt : (revokeTray t reason s).kt = s.kt := (revokeTray_foot _ _ _).same .kt rfl
@[simp] theorem revokeTray_boot : (revokeTray t reason s).boot = s.boot := (revokeTray_foot _ _ _).same .boot rfl
@[simp] theorem revokeTray_jr : (revokeTray t reason s).jr = s.jr := (revokeTray_foot _ _ _).same .jr rfl
@[simp] theorem revokeTray_stg : (revokeTray t reason s).stg = s.stg := (revokeTray_foot _ _ _).same .stg rfl
@[simp] theorem revokeTray_host : (revokeTray t reason s).host = s.host := (revokeTray_foot _ _ _).same .host rfl
@[simp] theorem revokeTray_log : (revokeTray t reason s).log = s.log := (revokeTray_foot _ _ _).same .log rfl
@[simp] theorem revokeTray_pair : (revokeTray t reason s).pair = s.pair := (revokeTray_foot _ _ _).same .pair rfl
@[simp] theorem revokeTray_ket : (revokeTray t reason s).ket = s.ket := (revokeTray_foot _ _ _).same .ket rfl
@[simp] theorem revokeTray_afe : (revokeTray t reason s).afe = s.afe := (revokeTray_foot _ _ _).same .afe rfl
@[simp] theorem revokeTray_drv : (revokeTray t reason s).drv = s.drv := (revokeTray_foot _ _ _).same .drv rfl
@[simp] theorem revokeTray_can : (revokeTray t reason s).can = s.can := (revokeTray_foot _ _ _).same .can rfl
@[simp] theorem revokeTray_qre : (revokeTray t reason s).qre = s.qre := (revokeTray_foot _ _ _).same .qre rfl
@[simp] theorem revokeTray_mem : (revokeTray t reason s).mem = s.mem := (revokeTray_foot _ _ _).same .mem rfl
@[simp] theorem revokeTray_ep : (revokeTray t reason s).ep = s.ep := (revokeTray_foot _ _ _).same .ep rfl
@[simp] theorem revokeTray_pln : (revokeTray t reason s).pln = s.pln := (revokeTray_foot _ _ _).same .pln rfl
end
section
variable (m cause loc : Nat) (s : State)
@[simp] theorem tripTrays_now : (tripTrays m cause loc s).now = s.now := (tripTrays_foot _ _ _ _).same .now rfl
@[simp] theorem tripTrays_free : (tripTrays m cause loc s).free = s.free := (tripTrays_foot _ _ _ _).same .free rfl
@[simp] theorem tripTrays_pending : (tripTrays m cause loc s).pending = s.pending := (tripTrays_foot _ _ _ _).same .pending rfl
@[simp] theorem tripTrays_cat : (tripTrays m cause loc s).cat = s.cat := (tripTrays_foot _ _ _ _).same .cat rfl
@[simp] theorem tripTrays_pwr : (tripTrays m cause loc s).pwr = s.pwr := (tripTrays_foot _ _ _ _).same .pwr rfl
@[simp] theorem tripTrays_otp : (tripTrays m cause loc s).otp = s.otp := (tripTrays_foot _ _ _ _).same .otp rfl
@[simp] theorem tripTrays_kt : (tripTrays m cause loc s).kt = s.kt := (tripTrays_foot _ _ _ _).same .kt rfl
@[simp] theorem tripTrays_boot : (tripTrays m cause loc s).boot = s.boot := (tripTrays_foot _ _ _ _).same .boot rfl
@[simp] theorem tripTrays_afe : (tripTrays m cause loc s).afe = s.afe := (tripTrays_foot _ _ _ _).same .afe rfl
@[simp] theorem tripTrays_drv : (tripTrays m cause loc s).drv = s.drv := (tripTrays_foot _ _ _ _).same .drv rfl
@[simp] theorem tripTrays_can : (tripTrays m cause loc s).can = s.can := (tripTrays_foot _ _ _ _).same .can rfl
@[simp] theorem tripTrays_qre : (tripTrays m cause loc s).qre = s.qre := (tripTrays_foot _ _ _ _).same .qre rfl
@[simp] theorem tripTrays_mem : (tripTrays m cause loc s).mem = s.mem := (tripTrays_foot _ _ _ _).same .mem rfl
@[simp] theorem tripTrays_ep : (tripTrays m cause loc s).ep = s.ep := (tripTrays_foot _ _ _ _).same .ep rfl
@[simp] theorem tripTrays_pln : (tripTrays m cause loc s).pln = s.pln := (tripTrays_foot _ _ _ _).same .pln rfl
@[simp] theorem tripTrays_por : (tripTrays m cause loc s).keep.por = s.keep.por := (tripTrays_foot _ _ _ _).same .por rfl
@[simp] theorem tripTrays_route : (tripTrays m cause loc s).ket.route = s.ket.route := (tripTrays_foot _ _ _ _).same .route rfl
end
section
variable (s : State)
@[simp] theorem imageSoon_now : (imageSoon s).now = s.now := (imageSoon_foot _).same .now rfl
@[simp] theorem imageSoon_free : (imageSoon s).free = s.free := (imageSoon_foot _).same .free rfl
@[simp] theorem imageSoon_out : (imageSoon s).out = s.out := (imageSoon_foot _).same .out rfl
@[simp] theorem imageSoon_pending : (imageSoon s).pending = s.pending := (imageSoon_foot _).same .pending rfl
@[simp] theorem imageSoon_keep : (imageSoon s).keep = s.keep := (imageSoon_foot _).same .keep rfl
@[simp] theorem imageSoon_cat : (imageSoon s).cat = s.cat := (imageSoon_foot _).same .cat rfl
@[simp] theorem imageSoon_pwr : (imageSoon s).pwr = s.pwr := (imageSoon_foot _).same .pwr rfl
@[simp] theorem imageSoon_otp : (imageSoon s).otp = s.otp := (imageSoon_foot _).same .otp rfl
@[simp] theorem imageSoon_kt : (imageSoon s).kt = s.kt := (imageSoon_foot _).same .kt rfl
@[simp] theorem imageSoon_boot : (imageSoon s).boot = s.boot := (imageSoon_foot _).same .boot rfl
@[simp] theorem imageSoon_mbx : (imageSoon s).mbx = s.mbx := (imageSoon_foot _).same .mbx rfl
@[simp] theorem imageSoon_jr : (imageSoon s).jr = s.jr := (imageSoon_foot _).same .jr rfl
@[simp] theorem imageSoon_stg : (imageSoon s).stg = s.stg := (imageSoon_foot _).same .stg rfl
@[simp] theorem imageSoon_host : (imageSoon s).host = s.host := (imageSoon_foot _).same .host rfl
@[simp] theorem imageSoon_log : (imageSoon s).log = s.log := (imageSoon_foot _).same .log rfl
@[simp] theorem imageSoon_pmc : (imageSoon s).pmc = s.pmc := (imageSoon_foot _).same .pmc rfl
@[simp] theorem imageSoon_spn : (imageSoon s).spn = s.spn := (imageSoon_foot _).same .spn rfl
@[simp] theorem imageSoon_pair : (imageSoon s).pair = s.pair := (imageSoon_foot _).same .pair rfl
@[simp] theorem imageSoon_lv : (imageSoon s).lv = s.lv := (imageSoon_foot _).same .lv rfl
@[simp] theorem imageSoon_afe : (imageSoon s).afe = s.afe := (imageSoon_foot _).same .afe rfl
@[simp] theorem imageSoon_drv : (imageSoon s).drv = s.drv := (imageSoon_foot _).same .drv rfl
@[simp] theorem imageSoon_can : (imageSoon s).can = s.can := (imageSoon_foot _).same .can rfl
@[simp] theorem imageSoon_qre : (imageSoon s).qre = s.qre := (imageSoon_foot _).same .qre rfl
@[simp] theorem imageSoon_mem : (imageSoon s).mem = s.mem := (imageSoon_foot _).same .mem rfl
@[simp] theorem imageSoon_ep : (imageSoon s).ep = s.ep := (imageSoon_foot _).same .ep rfl
@[simp] theorem imageSoon_pln : (imageSoon s).pln = s.pln := (imageSoon_foot _).same .pln rfl
@[simp] theorem imageSoon_stw : (imageSoon s).stw = s.stw := (imageSoon_foot _).same .stw rfl
@[simp] theorem imageSoon_route : (imageSoon s).ket.route = s.ket.route := (imageSoon_foot _).same .route rfl
end
section
variable (n : Nat) (was : Bool) (s : State)
@[simp] theorem reexamine_now : (reexamine n was s).now = s.now := (reexamine_foot _ _ _).same .now rfl
@[simp] theorem reexamine_free : (reexamine n was s).free = s.free := (reexamine_foot _ _ _).same .free rfl
@[simp] theorem reexamine_pending : (reexamine n was s).pending = s.pending := (reexamine_foot _ _ _).same .pending rfl
@[simp] theorem reexamine_cat : (reexamine n was s).cat = s.cat := (reexamine_foot _ _ _).same .cat rfl
@[simp] theorem reexamine_pwr : (reexamine n was s).pwr = s.pwr := (reexamine_foot _ _ _).same .pwr rfl
@[simp] theorem reexamine_otp : (reexamine n was s).otp = s.otp := (reexamine_foot _ _ _).same .otp rfl
@[simp] theorem reexamine_kt : (reexamine n was s).kt = s.kt := (reexamine_foot _ _ _).same .kt rfl
@[simp] theorem reexamine_boot : (reexamine n was s).boot = s.boot := (reexamine_foot _ _ _).same .boot rfl
@[simp] theorem reexamine_afe : (reexamine n was s).afe = s.afe := (reexamine_foot _ _ _).same .afe rfl
@[simp] theorem reexamine_drv : (reexamine n was s).drv = s.drv := (reexamine_foot _ _ _).same .drv rfl
@[simp] theorem reexamine_can : (reexamine n was s).can = s.can := (reexamine_foot _ _ _).same .can rfl
@[simp] theorem reexamine_qre : (reexamine n was s).qre = s.qre := (reexamine_foot _ _ _).same .qre rfl
@[simp] theorem reexamine_mem : (reexamine n was s).mem = s.mem := (reexamine_foot _ _ _).same .mem rfl
@[simp] theorem reexamine_ep : (reexamine n was s).ep = s.ep := (reexamine_foot _ _ _).same .ep rfl
@[simp] theorem reexamine_pln : (reexamine n was s).pln = s.pln := (reexamine_foot _ _ _).same .pln rfl
@[simp] theorem reexamine_por : (reexamine n was s).keep.por = s.keep.por := (reexamine_foot _ _ _).same .por rfl
@[simp] theorem reexamine_route : (reexamine n was s).ket.route = s.ket.route := (reexamine_foot _ _ _).same .route rfl
end
section
variable (s : State)
@[simp] theorem tagDue_now : (tagDue s).now = s.now := (tagDue_foot _).same .now rfl
@[simp] theorem tagDue_free : (tagDue s).free = s.free := (tagDue_foot _).same .free rfl
@[simp] theorem tagDue_out : (tagDue s).out = s.out := (tagDue_foot _).same .out rfl
@[simp] theorem tagDue_pending : (tagDue s).pending = s.pending := (tagDue_foot _).same .pending rfl
@[simp] theorem tagDue_keep : (tagDue s).keep = s.keep := (tagDue_foot _).same .keep rfl
@[simp] theorem tagDue_cat : (tagDue s).cat = s.cat := (tagDue_foot _).same .cat rfl
@[simp] theorem tagDue_pwr : (tagDue s).pwr = s.pwr := (tagDue_foot _).same .pwr rfl
@[simp] theorem tagDue_otp : (tagDue s).otp = s.otp := (tagDue_foot _).same .otp rfl
@[simp] theorem tagDue_kt : (tagDue s).kt = s.kt := (tagDue_foot _).same .kt rfl
@[simp] theorem tagDue_boot : (tagDue s).boot = s.boot := (tagDue_foot _).same .boot rfl
@[simp] theorem tagDue_mbx : (tagDue s).mbx = s.mbx := (tagDue_foot _).same .mbx rfl
@[simp] theorem tagDue_jr : (tagDue s).jr = s.jr := (tagDue_foot _).same .jr rfl
@[simp] theorem tagDue_stg : (tagDue s).stg = s.stg := (tagDue_foot _).same .stg rfl
@[simp] theorem tagDue_host : (tagDue s).host = s.host := (tagDue_foot _).same .host rfl
@[simp] theorem tagDue_log : (tagDue s).log = s.log := (tagDue_foot _).same .log rfl
@[simp] theorem tagDue_pmc : (tagDue s).pmc = s.pmc := (tagDue_foot _).same .pmc rfl
@[simp] theorem tagDue_spn : (tagDue s).spn = s.spn := (tagDue_foot _).same .spn rfl
@[simp] theorem tagDue_pair : (tagDue s).pair = s.pair := (tagDue_foot _).same .pair rfl
@[simp] theorem tagDue_lv : (tagDue s).lv = s.lv := (tagDue_foot _).same .lv rfl
@[simp] theorem tagDue_ket : (tagDue s).ket = s.ket := (tagDue_foot _).same .ket rfl
@[simp] theorem tagDue_afe : (tagDue s).afe = s.afe := (tagDue_foot _).same .afe rfl
@[simp] theorem tagDue_drv : (tagDue s).drv = s.drv := (tagDue_foot _).same .drv rfl
@[simp] theorem tagDue_can : (tagDue s).can = s.can := (tagDue_foot _).same .can rfl
@[simp] theorem tagDue_qre : (tagDue s).qre = s.qre := (tagDue_foot _).same .qre rfl
@[simp] theorem tagDue_mem : (tagDue s).mem = s.mem := (tagDue_foot _).same .mem rfl
@[simp] theorem tagDue_ep : (tagDue s).ep = s.ep := (tagDue_foot _).same .ep rfl
@[simp] theorem tagDue_pln : (tagDue s).pln = s.pln := (tagDue_foot _).same .pln rfl
end
section
variable (t : Nat) (s : State)
@[simp] theorem queueResume_now : (queueResume t s).now = s.now := (queueResume_foot _ _).same .now rfl
@[simp] theorem queueResume_free : (queueResume t s).free = s.free := (queueResume_foot _ _).same .free rfl
@[simp] theorem queueResume_out : (queueResume t s).out = s.out := (queueResume_foot _ _).same .out rfl
@[simp] theorem queueResume_pending : (queueResume t s).pending = s.pending := (queueResume_foot _ _).same .pending rfl
@[simp] theorem queueResume_keep : (queueResume t s).keep = s.keep := (queueResume_foot _ _).same .keep rfl
@[simp] theorem queueResume_cat : (queueResume t s).cat = s.cat := (queueResume_foot _ _).same .cat rfl
@[simp] theorem queueResume_pwr : (queueResume t s).pwr = s.pwr := (queueResume_foot _ _).same .pwr rfl
@[simp] theorem queueResume_otp : (queueResume t s).otp = s.otp := (queueResume_foot _ _).same .otp rfl
@[simp] theorem queueResume_kt : (queueResume t s).kt = s.kt := (queueResume_foot _ _).same .kt rfl
@[simp] theorem queueResume_boot : (queueResume t s).boot = s.boot := (queueResume_foot _ _).same .boot rfl
@[simp] theorem queueResume_mbx : (queueResume t s).mbx = s.mbx := (queueResume_foot _ _).same .mbx rfl
@[simp] theorem queueResume_jr : (queueResume t s).jr = s.jr := (queueResume_foot _ _).same .jr rfl
@[simp] theorem queueResume_stg : (queueResume t s).stg = s.stg := (queueResume_foot _ _).same .stg rfl
@[simp] theorem queueResume_host : (queueResume t s).host = s.host := (queueResume_foot _ _).same .host rfl
@[simp] theorem queueResume_log : (queueResume t s).log = s.log := (queueResume_foot _ _).same .log rfl
@[simp] theorem queueResume_pmc : (queueResume t s).pmc = s.pmc := (queueResume_foot _ _).same .pmc rfl
@[simp] theorem queueResume_spn : (queueResume t s).spn = s.spn := (queueResume_foot _ _).same .spn rfl
@[simp] theorem queueResume_pair : (queueResume t s).pair = s.pair := (queueResume_foot _ _).same .pair rfl
@[simp] theorem queueResume_ket : (queueResume t s).ket = s.ket := (queueResume_foot _ _).same .ket rfl
@[simp] theorem queueResume_afe : (queueResume t s).afe = s.afe := (queueResume_foot _ _).same .afe rfl
@[simp] theorem queueResume_drv : (queueResume t s).drv = s.drv := (queueResume_foot _ _).same .drv rfl
@[simp] theorem queueResume_can : (queueResume t s).can = s.can := (queueResume_foot _ _).same .can rfl
@[simp] theorem queueResume_qre : (queueResume t s).qre = s.qre := (queueResume_foot _ _).same .qre rfl
@[simp] theorem queueResume_mem : (queueResume t s).mem = s.mem := (queueResume_foot _ _).same .mem rfl
@[simp] theorem queueResume_ep : (queueResume t s).ep = s.ep := (queueResume_foot _ _).same .ep rfl
@[simp] theorem queueResume_pln : (queueResume t s).pln = s.pln := (queueResume_foot _ _).same .pln rfl
@[simp] theorem queueResume_stw : (queueResume t s).stw = s.stw := (queueResume_foot _ _).same .stw rfl
end
section
variable (pair : Bool) (dst : Nat) (last : Bool) (data : Bytes) (s : State)
@[simp] theorem sendFragment_now : (sendFragment pair dst last data s).now = s.now := (sendFragment_foot _ _ _ _ _).same .now rfl
@[simp] theorem sendFragment_free : (sendFragment pair dst last data s).free = s.free := (sendFragment_foot _ _ _ _ _).same .free rfl
@[simp] theorem sendFragment_pending : (sendFragment pair dst last data s).pending = s.pending := (sendFragment_foot _ _ _ _ _).same .pending rfl
@[simp] theorem sendFragment_keep : (sendFragment pair dst last data s).keep = s.keep := (sendFragment_foot _ _ _ _ _).same .keep rfl
@[simp] theorem sendFragment_cat : (sendFragment pair dst last data s).cat = s.cat := (sendFragment_foot _ _ _ _ _).same .cat rfl
@[simp] theorem sendFragment_pwr : (sendFragment pair dst last data s).pwr = s.pwr := (sendFragment_foot _ _ _ _ _).same .pwr rfl
@[simp] theorem sendFragment_otp : (sendFragment pair dst last data s).otp = s.otp := (sendFragment_foot _ _ _ _ _).same .otp rfl
@[simp] theorem sendFragment_kt : (sendFragment pair dst last data s).kt = s.kt := (sendFragment_foot _ _ _ _ _).same .kt rfl
@[simp] theorem sendFragment_boot : (sendFragment pair dst last data s).boot = s.boot := (sendFragment_foot _ _ _ _ _).same .boot rfl
@[simp] theorem sendFragment_mbx : (sendFragment pair dst last data s).mbx = s.mbx := (sendFragment_foot _ _ _ _ _).same .mbx rfl
@[simp] theorem sendFragment_jr : (sendFragment pair dst last data s).jr = s.jr := (sendFragment_foot _ _ _ _ _).same .jr rfl
@[simp] theorem sendFragment_stg : (sendFragment pair dst last data s).stg = s.stg := (sendFragment_foot _ _ _ _ _).same .stg rfl
@[simp] theorem sendFragment_host : (sendFragment pair dst last data s).host = s.host := (sendFragment_foot _ _ _ _ _).same .host rfl
@[simp] theorem sendFragment_log : (sendFragment pair dst last data s).log = s.log := (sendFragment_foot _ _ _ _ _).same .log rfl
@[simp] theorem sendFragment_pair : (sendFragment pair dst last data s).pair = s.pair := (sendFragment_foot _ _ _ _ _).same .pair rfl
@[simp] theorem sendFragment_lv : (sendFragment pair dst last data s).lv = s.lv := (sendFragment_foot _ _ _ _ _).same .lv rfl
@[simp] theorem sendFragment_ket : (sendFragment pair dst last data s).ket = s.ket := (sendFragment_foot _ _ _ _ _).same .ket rfl
@[simp] theorem sendFragment_afe : (sendFragment pair dst last data s).afe = s.afe := (sendFragment_foot _ _ _ _ _).same .afe rfl
@[simp] theorem sendFragment_drv : (sendFragment pair dst last data s).drv = s.drv := (sendFragment_foot _ _ _ _ _).same .drv rfl
@[simp] theorem sendFragment_can : (sendFragment pair dst last data s).can = s.can := (sendFragment_foot _ _ _ _ _).same .can rfl
@[simp] theorem sendFragment_qre : (sendFragment pair dst last data s).qre = s.qre := (sendFragment_foot _ _ _ _ _).same .qre rfl
@[simp] theorem sendFragment_mem : (sendFragment pair dst last data s).mem = s.mem := (sendFragment_foot _ _ _ _ _).same .mem rfl
@[simp] theorem sendFragment_ep : (sendFragment pair dst last data s).ep = s.ep := (sendFragment_foot _ _ _ _ _).same .ep rfl
@[simp] theorem sendFragment_pln : (sendFragment pair dst last data s).pln = s.pln := (sendFragment_foot _ _ _ _ _).same .pln rfl
@[simp] theorem sendFragment_stw : (sendFragment pair dst last data s).stw = s.stw := (sendFragment_foot _ _ _ _ _).same .stw rfl
end
section
variable (m : Nat) (r : Resp) (s : State)
@[simp] theorem relayResponse_now : (relayResponse m r s).now = s.now := (relayResponse_foot _ _ _).same .now rfl
@[simp] theorem relayResponse_free : (relayResponse m r s).free = s.free := (relayResponse_foot _ _ _).same .free rfl
@[simp] theorem relayResponse_pending : (relayResponse m r s).pending = s.pending := (relayResponse_foot _ _ _).same .pending rfl
@[simp] theorem relayResponse_keep : (relayResponse m r s).keep = s.keep := (relayResponse_foot _ _ _).same .keep rfl
@[simp] theorem relayResponse_cat : (relayResponse m r s).cat = s.cat := (relayResponse_foot _ _ _).same .cat rfl
@[simp] theorem relayResponse_pwr : (relayResponse m r s).pwr = s.pwr := (relayResponse_foot _ _ _).same .pwr rfl
@[simp] theorem relayResponse_otp : (relayResponse m r s).otp = s.otp := (relayResponse_foot _ _ _).same .otp rfl
@[simp] theorem relayResponse_kt : (relayResponse m r s).kt = s.kt := (relayResponse_foot _ _ _).same .kt rfl
@[simp] theorem relayResponse_boot : (relayResponse m r s).boot = s.boot := (relayResponse_foot _ _ _).same .boot rfl
@[simp] theorem relayResponse_mbx : (relayResponse m r s).mbx = s.mbx := (relayResponse_foot _ _ _).same .mbx rfl
@[simp] theorem relayResponse_jr : (relayResponse m r s).jr = s.jr := (relayResponse_foot _ _ _).same .jr rfl
@[simp] theorem relayResponse_stg : (relayResponse m r s).stg = s.stg := (relayResponse_foot _ _ _).same .stg rfl
@[simp] theorem relayResponse_host : (relayResponse m r s).host = s.host := (relayResponse_foot _ _ _).same .host rfl
@[simp] theorem relayResponse_log : (relayResponse m r s).log = s.log := (relayResponse_foot _ _ _).same .log rfl
@[simp] theorem relayResponse_pair : (relayResponse m r s).pair = s.pair := (relayResponse_foot _ _ _).same .pair rfl
@[simp] theorem relayResponse_lv : (relayResponse m r s).lv = s.lv := (relayResponse_foot _ _ _).same .lv rfl
@[simp] theorem relayResponse_ket : (relayResponse m r s).ket = s.ket := (relayResponse_foot _ _ _).same .ket rfl
@[simp] theorem relayResponse_afe : (relayResponse m r s).afe = s.afe := (relayResponse_foot _ _ _).same .afe rfl
@[simp] theorem relayResponse_drv : (relayResponse m r s).drv = s.drv := (relayResponse_foot _ _ _).same .drv rfl
@[simp] theorem relayResponse_can : (relayResponse m r s).can = s.can := (relayResponse_foot _ _ _).same .can rfl
@[simp] theorem relayResponse_qre : (relayResponse m r s).qre = s.qre := (relayResponse_foot _ _ _).same .qre rfl
@[simp] theorem relayResponse_mem : (relayResponse m r s).mem = s.mem := (relayResponse_foot _ _ _).same .mem rfl
@[simp] theorem relayResponse_ep : (relayResponse m r s).ep = s.ep := (relayResponse_foot _ _ _).same .ep rfl
@[simp] theorem relayResponse_pln : (relayResponse m r s).pln = s.pln := (relayResponse_foot _ _ _).same .pln rfl
@[simp] theorem relayResponse_stw : (relayResponse m r s).stw = s.stw := (relayResponse_foot _ _ _).same .stw rfl
end
section
variable (m : Nat) (r : Resp) (s : State)
@[simp] theorem deliver_now : (deliver m r s).now = s.now := (deliver_foot _ _ _).same .now rfl
@[simp] theorem deliver_free : (deliver m r s).free = s.free := (deliver_foot _ _ _).same .free rfl
@[simp] theorem deliver_pending : (deliver m r s).pending = s.pending := (deliver_foot _ _ _).same .pending rfl
@[simp] theorem deliver_keep : (deliver m r s).keep = s.keep := (deliver_foot _ _ _).same .keep rfl
@[simp] theorem deliver_cat : (deliver m r s).cat = s.cat := (deliver_foot _ _ _).same .cat rfl
@[simp] theorem deliver_pwr : (deliver m r s).pwr = s.pwr := (deliver_foot _ _ _).same .pwr rfl
@[simp] theorem deliver_otp : (deliver m r s).otp = s.otp := (deliver_foot _ _ _).same .otp rfl
@[simp] theorem deliver_kt : (deliver m r s).kt = s.kt := (deliver_foot _ _ _).same .kt rfl
@[simp] theorem deliver_boot : (deliver m r s).boot = s.boot := (deliver_foot _ _ _).same .boot rfl
@[simp] theorem deliver_mbx : (deliver m r s).mbx = s.mbx := (deliver_foot _ _ _).same .mbx rfl
@[simp] theorem deliver_jr : (deliver m r s).jr = s.jr := (deliver_foot _ _ _).same .jr rfl
@[simp] theorem deliver_stg : (deliver m r s).stg = s.stg := (deliver_foot _ _ _).same .stg rfl
@[simp] theorem deliver_host : (deliver m r s).host = s.host := (deliver_foot _ _ _).same .host rfl
@[simp] theorem deliver_log : (deliver m r s).log = s.log := (deliver_foot _ _ _).same .log rfl
@[simp] theorem deliver_pair : (deliver m r s).pair = s.pair := (deliver_foot _ _ _).same .pair rfl
@[simp] theorem deliver_lv : (deliver m r s).lv = s.lv := (deliver_foot _ _ _).same .lv rfl
@[simp] theorem deliver_ket : (deliver m r s).ket = s.ket := (deliver_foot _ _ _).same .ket rfl
@[simp] theorem deliver_afe : (deliver m r s).afe = s.afe := (deliver_foot _ _ _).same .afe rfl
@[simp] theorem deliver_drv : (deliver m r s).drv = s.drv := (deliver_foot _ _ _).same .drv rfl
@[simp] theorem deliver_can : (deliver m r s).can = s.can := (deliver_foot _ _ _).same .can rfl
@[simp] theorem deliver_qre : (deliver m r s).qre = s.qre := (deliver_foot _ _ _).same .qre rfl
@[simp] theorem deliver_mem : (deliver m r s).mem = s.mem := (deliver_foot _ _ _).same .mem rfl
@[simp] theorem deliver_ep : (deliver m r s).ep = s.ep := (deliver_foot _ _ _).same .ep rfl
@[simp] theorem deliver_pln : (deliver m r s).pln = s.pln := (deliver_foot _ _ _).same .pln rfl
@[simp] theorem deliver_stw : (deliver m r s).stw = s.stw := (deliver_foot _ _ _).same .stw rfl
end
section
variable (m : Nat) (s : State)
@[simp] theorem writeAll_now : (writeAll m s).now = s.now := (writeAll_foot _ _).same .now rfl
@[simp] theorem writeAll_free : (writeAll m s).free = s.free := (writeAll_foot _ _).same .free rfl
@[simp] theorem writeAll_pending : (writeAll m s).pending = s.pending := (writeAll_foot _ _).same .pending rfl
@[simp] theorem writeAll_keep : (writeAll m s).keep = s.keep := (writeAll_foot _ _).same .keep rfl
@[simp] theorem writeAll_cat : (writeAll m s).cat = s.cat := (writeAll_foot _ _).same .cat rfl
@[simp] theorem writeAll_pwr : (writeAll m s).pwr = s.pwr := (writeAll_foot _ _).same .pwr rfl
@[simp] theorem writeAll_otp : (writeAll m s).otp = s.otp := (writeAll_foot _ _).same .otp rfl
@[simp] theorem writeAll_kt : (writeAll m s).kt = s.kt := (writeAll_foot _ _).same .kt rfl
@[simp] theorem writeAll_boot : (writeAll m s).boot = s.boot := (writeAll_foot _ _).same .boot rfl
@[simp] theorem writeAll_jr : (writeAll m s).jr = s.jr := (writeAll_foot _ _).same .jr rfl
@[simp] theorem writeAll_stg : (writeAll m s).stg = s.stg := (writeAll_foot _ _).same .stg rfl
@[simp] theorem writeAll_log : (writeAll m s).log = s.log := (writeAll_foot _ _).same .log rfl
@[simp] theorem writeAll_pair : (writeAll m s).pair = s.pair := (writeAll_foot _ _).same .pair rfl
@[simp] theorem writeAll_lv : (writeAll m s).lv = s.lv := (writeAll_foot _ _).same .lv rfl
@[simp] theorem writeAll_ket : (writeAll m s).ket = s.ket := (writeAll_foot _ _).same .ket rfl
@[simp] theorem writeAll_afe : (writeAll m s).afe = s.afe := (writeAll_foot _ _).same .afe rfl
@[simp] theorem writeAll_drv : (writeAll m s).drv = s.drv := (writeAll_foot _ _).same .drv rfl
@[simp] theorem writeAll_can : (writeAll m s).can = s.can := (writeAll_foot _ _).same .can rfl
@[simp] theorem writeAll_qre : (writeAll m s).qre = s.qre := (writeAll_foot _ _).same .qre rfl
@[simp] theorem writeAll_mem : (writeAll m s).mem = s.mem := (writeAll_foot _ _).same .mem rfl
@[simp] theorem writeAll_ep : (writeAll m s).ep = s.ep := (writeAll_foot _ _).same .ep rfl
@[simp] theorem writeAll_pln : (writeAll m s).pln = s.pln := (writeAll_foot _ _).same .pln rfl
end
section
variable (m : Nat) (s : State)
@[simp] theorem writeOut_now : (writeOut m s).now = s.now := (writeOut_foot _ _).same .now rfl
@[simp] theorem writeOut_free : (writeOut m s).free = s.free := (writeOut_foot _ _).same .free rfl
@[simp] theorem writeOut_pending : (writeOut m s).pending = s.pending := (writeOut_foot _ _).same .pending rfl
@[simp] theorem writeOut_keep : (writeOut m s).keep = s.keep := (writeOut_foot _ _).same .keep rfl
@[simp] theorem writeOut_cat : (writeOut m s).cat = s.cat := (writeOut_foot _ _).same .cat rfl
@[simp] theorem writeOut_pwr : (writeOut m s).pwr = s.pwr := (writeOut_foot _ _).same .pwr rfl
@[simp] theorem writeOut_otp : (writeOut m s).otp = s.otp := (writeOut_foot _ _).same .otp rfl
@[simp] theorem writeOut_kt : (writeOut m s).kt = s.kt := (writeOut_foot _ _).same .kt rfl
@[simp] theorem writeOut_boot : (writeOut m s).boot = s.boot := (writeOut_foot _ _).same .boot rfl
@[simp] theorem writeOut_jr : (writeOut m s).jr = s.jr := (writeOut_foot _ _).same .jr rfl
@[simp] theorem writeOut_stg : (writeOut m s).stg = s.stg := (writeOut_foot _ _).same .stg rfl
@[simp] theorem writeOut_log : (writeOut m s).log = s.log := (writeOut_foot _ _).same .log rfl
@[simp] theorem writeOut_pair : (writeOut m s).pair = s.pair := (writeOut_foot _ _).same .pair rfl
@[simp] theorem writeOut_lv : (writeOut m s).lv = s.lv := (writeOut_foot _ _).same .lv rfl
@[simp] theorem writeOut_ket : (writeOut m s).ket = s.ket := (writeOut_foot _ _).same .ket rfl
@[simp] theorem writeOut_afe : (writeOut m s).afe = s.afe := (writeOut_foot _ _).same .afe rfl
@[simp] theorem writeOut_drv : (writeOut m s).drv = s.drv := (writeOut_foot _ _).same .drv rfl
@[simp] theorem writeOut_can : (writeOut m s).can = s.can := (writeOut_foot _ _).same .can rfl
@[simp] theorem writeOut_qre : (writeOut m s).qre = s.qre := (writeOut_foot _ _).same .qre rfl
@[simp] theorem writeOut_mem : (writeOut m s).mem = s.mem := (writeOut_foot _ _).same .mem rfl
@[simp] theorem writeOut_ep : (writeOut m s).ep = s.ep := (writeOut_foot _ _).same .ep rfl
@[simp] theorem writeOut_pln : (writeOut m s).pln = s.pln := (writeOut_foot _ _).same .pln rfl
end
section
variable (m : Nat) (s : State)
@[simp] theorem clearBusy_now : (clearBusy m s).now = s.now := (clearBusy_foot _ _).same .now rfl
@[simp] theorem clearBusy_free : (clearBusy m s).free = s.free := (clearBusy_foot _ _).same .free rfl
@[simp] theorem clearBusy_pending : (clearBusy m s).pending = s.pending := (clearBusy_foot _ _).same .pending rfl
@[simp] theorem clearBusy_keep : (clearBusy m s).keep = s.keep := (clearBusy_foot _ _).same .keep rfl
@[simp] theorem clearBusy_cat : (clearBusy m s).cat = s.cat := (clearBusy_foot _ _).same .cat rfl
@[simp] theorem clearBusy_pwr : (clearBusy m s).pwr = s.pwr := (clearBusy_foot _ _).same .pwr rfl
@[simp] theorem clearBusy_otp : (clearBusy m s).otp = s.otp := (clearBusy_foot _ _).same .otp rfl
@[simp] theorem clearBusy_kt : (clearBusy m s).kt = s.kt := (clearBusy_foot _ _).same .kt rfl
@[simp] theorem clearBusy_boot : (clearBusy m s).boot = s.boot := (clearBusy_foot _ _).same .boot rfl
@[simp] theorem clearBusy_jr : (clearBusy m s).jr = s.jr := (clearBusy_foot _ _).same .jr rfl
@[simp] theorem clearBusy_stg : (clearBusy m s).stg = s.stg := (clearBusy_foot _ _).same .stg rfl
@[simp] theorem clearBusy_log : (clearBusy m s).log = s.log := (clearBusy_foot _ _).same .log rfl
@[simp] theorem clearBusy_pmc : (clearBusy m s).pmc = s.pmc := (clearBusy_foot _ _).same .pmc rfl
@[simp] theorem clearBusy_spn : (clearBusy m s).spn = s.spn := (clearBusy_foot _ _).same .spn rfl
@[simp] theorem clearBusy_pair : (clearBusy m s).pair = s.pair := (clearBusy_foot _ _).same .pair rfl
@[simp] theorem clearBusy_lv : (clearBusy m s).lv = s.lv := (clearBusy_foot _ _).same .lv rfl
@[simp] theorem clearBusy_ket : (clearBusy m s).ket = s.ket := (clearBusy_foot _ _).same .ket rfl
@[simp] theorem clearBusy_afe : (clearBusy m s).afe = s.afe := (clearBusy_foot _ _).same .afe rfl
@[simp] theorem clearBusy_drv : (clearBusy m s).drv = s.drv := (clearBusy_foot _ _).same .drv rfl
@[simp] theorem clearBusy_can : (clearBusy m s).can = s.can := (clearBusy_foot _ _).same .can rfl
@[simp] theorem clearBusy_qre : (clearBusy m s).qre = s.qre := (clearBusy_foot _ _).same .qre rfl
@[simp] theorem clearBusy_mem : (clearBusy m s).mem = s.mem := (clearBusy_foot _ _).same .mem rfl
@[simp] theorem clearBusy_ep : (clearBusy m s).ep = s.ep := (clearBusy_foot _ _).same .ep rfl
@[simp] theorem clearBusy_pln : (clearBusy m s).pln = s.pln := (clearBusy_foot _ _).same .pln rfl
@[simp] theorem clearBusy_stw : (clearBusy m s).stw = s.stw := (clearBusy_foot _ _).same .stw rfl
end
section
variable (m : Nat) (jok : Bool) (r : Rec) (s : State)
@[simp] theorem receive_now : (receive m jok r s).now = s.now := (receive_foot _ _ _ _).same .now rfl
@[simp] theorem receive_pending : (receive m jok r s).pending = s.pending := (receive_foot _ _ _ _).same .pending rfl
@[simp] theorem receive_cat : (receive m jok r s).cat = s.cat := (receive_foot _ _ _ _).same .cat rfl
@[simp] theorem receive_pwr : (receive m jok r s).pwr = s.pwr := (receive_foot _ _ _ _).same .pwr rfl
@[simp] theorem receive_otp : (receive m jok r s).otp = s.otp := (receive_foot _ _ _ _).same .otp rfl
@[simp] theorem receive_kt : (receive m jok r s).kt = s.kt := (receive_foot _ _ _ _).same .kt rfl
@[simp] theorem receive_boot : (receive m jok r s).boot = s.boot := (receive_foot _ _ _ _).same .boot rfl
@[simp] theorem receive_drv : (receive m jok r s).drv = s.drv := (receive_foot _ _ _ _).same .drv rfl
@[simp] theorem receive_can : (receive m jok r s).can = s.can := (receive_foot _ _ _ _).same .can rfl
@[simp] theorem receive_qre : (receive m jok r s).qre = s.qre := (receive_foot _ _ _ _).same .qre rfl
@[simp] theorem receive_mem : (receive m jok r s).mem = s.mem := (receive_foot _ _ _ _).same .mem rfl
@[simp] theorem receive_ep : (receive m jok r s).ep = s.ep := (receive_foot _ _ _ _).same .ep rfl
@[simp] theorem receive_pln : (receive m jok r s).pln = s.pln := (receive_foot _ _ _ _).same .pln rfl
@[simp] theorem receive_ten : (receive m jok r s).keep.ten = s.keep.ten := (receive_foot _ _ _ _).same .ten rfl
@[simp] theorem receive_por : (receive m jok r s).keep.por = s.keep.por := (receive_foot _ _ _ _).same .por rfl
@[simp] theorem receive_route : (receive m jok r s).ket.route = s.ket.route := (receive_foot _ _ _ _).same .route rfl
end
section
variable (s : State)
@[simp] theorem storeSnap_now : (storeSnap s).now = s.now := (storeSnap_foot _).same .now rfl
@[simp] theorem storeSnap_free : (storeSnap s).free = s.free := (storeSnap_foot _).same .free rfl
@[simp] theorem storeSnap_out : (storeSnap s).out = s.out := (storeSnap_foot _).same .out rfl
@[simp] theorem storeSnap_pending : (storeSnap s).pending = s.pending := (storeSnap_foot _).same .pending rfl
@[simp] theorem storeSnap_keep : (storeSnap s).keep = s.keep := (storeSnap_foot _).same .keep rfl
@[simp] theorem storeSnap_cat : (storeSnap s).cat = s.cat := (storeSnap_foot _).same .cat rfl
@[simp] theorem storeSnap_pwr : (storeSnap s).pwr = s.pwr := (storeSnap_foot _).same .pwr rfl
@[simp] theorem storeSnap_otp : (storeSnap s).otp = s.otp := (storeSnap_foot _).same .otp rfl
@[simp] theorem storeSnap_kt : (storeSnap s).kt = s.kt := (storeSnap_foot _).same .kt rfl
@[simp] theorem storeSnap_boot : (storeSnap s).boot = s.boot := (storeSnap_foot _).same .boot rfl
@[simp] theorem storeSnap_mbx : (storeSnap s).mbx = s.mbx := (storeSnap_foot _).same .mbx rfl
@[simp] theorem storeSnap_jr : (storeSnap s).jr = s.jr := (storeSnap_foot _).same .jr rfl
@[simp] theorem storeSnap_stg : (storeSnap s).stg = s.stg := (storeSnap_foot _).same .stg rfl
@[simp] theorem storeSnap_host : (storeSnap s).host = s.host := (storeSnap_foot _).same .host rfl
@[simp] theorem storeSnap_log : (storeSnap s).log = s.log := (storeSnap_foot _).same .log rfl
@[simp] theorem storeSnap_pmc : (storeSnap s).pmc = s.pmc := (storeSnap_foot _).same .pmc rfl
@[simp] theorem storeSnap_spn : (storeSnap s).spn = s.spn := (storeSnap_foot _).same .spn rfl
@[simp] theorem storeSnap_pair : (storeSnap s).pair = s.pair := (storeSnap_foot _).same .pair rfl
@[simp] theorem storeSnap_lv : (storeSnap s).lv = s.lv := (storeSnap_foot _).same .lv rfl
@[simp] theorem storeSnap_ket : (storeSnap s).ket = s.ket := (storeSnap_foot _).same .ket rfl
@[simp] theorem storeSnap_afe : (storeSnap s).afe = s.afe := (storeSnap_foot _).same .afe rfl
@[simp] theorem storeSnap_drv : (storeSnap s).drv = s.drv := (storeSnap_foot _).same .drv rfl
@[simp] theorem storeSnap_can : (storeSnap s).can = s.can := (storeSnap_foot _).same .can rfl
@[simp] theorem storeSnap_ep : (storeSnap s).ep = s.ep := (storeSnap_foot _).same .ep rfl
@[simp] theorem storeSnap_pln : (storeSnap s).pln = s.pln := (storeSnap_foot _).same .pln rfl
@[simp] theorem storeSnap_stw : (storeSnap s).stw = s.stw := (storeSnap_foot _).same .stw rfl
end
section
variable (watts : Nat) (s : State)
@[simp] theorem needWaits_now : (needWaits watts s).now = s.now := (needWaits_foot _ _).same .now rfl
@[simp] theorem needWaits_free : (needWaits watts s).free = s.free := (needWaits_foot _ _).same .free rfl
@[simp] theorem needWaits_out : (needWaits watts s).out = s.out := (needWaits_foot _ _).same .out rfl
@[simp] theorem needWaits_pending : (needWaits watts s).pending = s.pending := (needWaits_foot _ _).same .pending rfl
@[simp] theorem needWaits_keep : (needWaits watts s).keep = s.keep := (needWaits_foot _ _).same .keep rfl
@[simp] theorem needWaits_cat : (needWaits watts s).cat = s.cat := (needWaits_foot _ _).same .cat rfl
@[simp] theorem needWaits_pwr : (needWaits watts s).pwr = s.pwr := (needWaits_foot _ _).same .pwr rfl
@[simp] theorem needWaits_otp : (needWaits watts s).otp = s.otp := (needWaits_foot _ _).same .otp rfl
@[simp] theorem needWaits_kt : (needWaits watts s).kt = s.kt := (needWaits_foot _ _).same .kt rfl
@[simp] theorem needWaits_boot : (needWaits watts s).boot = s.boot := (needWaits_foot _ _).same .boot rfl
@[simp] theorem needWaits_mbx : (needWaits watts s).mbx = s.mbx := (needWaits_foot _ _).same .mbx rfl
@[simp] theorem needWaits_jr : (needWaits watts s).jr = s.jr := (needWaits_foot _ _).same .jr rfl
@[simp] theorem needWaits_stg : (needWaits watts s).stg = s.stg := (needWaits_foot _ _).same .stg rfl
@[simp] theorem needWaits_host : (needWaits watts s).host = s.host := (needWaits_foot _ _).same .host rfl
@[simp] theorem needWaits_log : (needWaits watts s).log = s.log := (needWaits_foot _ _).same .log rfl
@[simp] theorem needWaits_pmc : (needWaits watts s).pmc = s.pmc := (needWaits_foot _ _).same .pmc rfl
@[simp] theorem needWaits_spn : (needWaits watts s).spn = s.spn := (needWaits_foot _ _).same .spn rfl
@[simp] theorem needWaits_pair : (needWaits watts s).pair = s.pair := (needWaits_foot _ _).same .pair rfl
@[simp] theorem needWaits_ket : (needWaits watts s).ket = s.ket := (needWaits_foot _ _).same .ket rfl
@[simp] theorem needWaits_afe : (needWaits watts s).afe = s.afe := (needWaits_foot _ _).same .afe rfl
@[simp] theorem needWaits_drv : (needWaits watts s).drv = s.drv := (needWaits_foot _ _).same .drv rfl
@[simp] theorem needWaits_can : (needWaits watts s).can = s.can := (needWaits_foot _ _).same .can rfl
@[simp] theorem needWaits_qre : (needWaits watts s).qre = s.qre := (needWaits_foot _ _).same .qre rfl
@[simp] theorem needWaits_mem : (needWaits watts s).mem = s.mem := (needWaits_foot _ _).same .mem rfl
@[simp] theorem needWaits_ep : (needWaits watts s).ep = s.ep := (needWaits_foot _ _).same .ep rfl
@[simp] theorem needWaits_pln : (needWaits watts s).pln = s.pln := (needWaits_foot _ _).same .pln rfl
@[simp] theorem needWaits_stw : (needWaits watts s).stw = s.stw := (needWaits_foot _ _).same .stw rfl
end
section
variable (ch at_ : Nat) (s : State)
@[simp] theorem reachWord_free : (reachWord ch at_ s).free = s.free := (reachWord_foot _ _ _).same .free rfl
@[simp] theorem reachWord_out : (reachWord ch at_ s).out = s.out := (reachWord_foot _ _ _).same .out rfl
@[simp] theorem reachWord_pending : (reachWord ch at_ s).pending = s.pending := (reachWord_foot _ _ _).same .pending rfl
@[simp] theorem reachWord_keep : (reachWord ch at_ s).keep = s.keep := (reachWord_foot _ _ _).same .keep rfl
@[simp] theorem reachWord_cat : (reachWord ch at_ s).cat = s.cat := (reachWord_foot _ _ _).same .cat rfl
@[simp] theorem reachWord_pwr : (reachWord ch at_ s).pwr = s.pwr := (reachWord_foot _ _ _).same .pwr rfl
@[simp] theorem reachWord_otp : (reachWord ch at_ s).otp = s.otp := (reachWord_foot _ _ _).same .otp rfl
@[simp] theorem reachWord_kt : (reachWord ch at_ s).kt = s.kt := (reachWord_foot _ _ _).same .kt rfl
@[simp] theorem reachWord_boot : (reachWord ch at_ s).boot = s.boot := (reachWord_foot _ _ _).same .boot rfl
@[simp] theorem reachWord_mbx : (reachWord ch at_ s).mbx = s.mbx := (reachWord_foot _ _ _).same .mbx rfl
@[simp] theorem reachWord_jr : (reachWord ch at_ s).jr = s.jr := (reachWord_foot _ _ _).same .jr rfl
@[simp] theorem reachWord_stg : (reachWord ch at_ s).stg = s.stg := (reachWord_foot _ _ _).same .stg rfl
@[simp] theorem reachWord_host : (reachWord ch at_ s).host = s.host := (reachWord_foot _ _ _).same .host rfl
@[simp] theorem reachWord_log : (reachWord ch at_ s).log = s.log := (reachWord_foot _ _ _).same .log rfl
@[simp] theorem reachWord_spn : (reachWord ch at_ s).spn = s.spn := (reachWord_foot _ _ _).same .spn rfl
@[simp] theorem reachWord_pair : (reachWord ch at_ s).pair = s.pair := (reachWord_foot _ _ _).same .pair rfl
@[simp] theorem reachWord_lv : (reachWord ch at_ s).lv = s.lv := (reachWord_foot _ _ _).same .lv rfl
@[simp] theorem reachWord_ket : (reachWord ch at_ s).ket = s.ket := (reachWord_foot _ _ _).same .ket rfl
@[simp] theorem reachWord_drv : (reachWord ch at_ s).drv = s.drv := (reachWord_foot _ _ _).same .drv rfl
@[simp] theorem reachWord_can : (reachWord ch at_ s).can = s.can := (reachWord_foot _ _ _).same .can rfl
@[simp] theorem reachWord_qre : (reachWord ch at_ s).qre = s.qre := (reachWord_foot _ _ _).same .qre rfl
@[simp] theorem reachWord_mem : (reachWord ch at_ s).mem = s.mem := (reachWord_foot _ _ _).same .mem rfl
@[simp] theorem reachWord_ep : (reachWord ch at_ s).ep = s.ep := (reachWord_foot _ _ _).same .ep rfl
@[simp] theorem reachWord_pln : (reachWord ch at_ s).pln = s.pln := (reachWord_foot _ _ _).same .pln rfl
@[simp] theorem reachWord_stw : (reachWord ch at_ s).stw = s.stw := (reachWord_foot _ _ _).same .stw rfl
end
section
variable (a : Nat) (bs : Bytes) (s : State)
@[simp] theorem binderWrite_now : (binderWrite a bs s).now = s.now := (binderWrite_foot _ _ _).same .now rfl
@[simp] theorem binderWrite_free : (binderWrite a bs s).free = s.free := (binderWrite_foot _ _ _).same .free rfl
@[simp] theorem binderWrite_out : (binderWrite a bs s).out = s.out := (binderWrite_foot _ _ _).same .out rfl
@[simp] theorem binderWrite_pending : (binderWrite a bs s).pending = s.pending := (binderWrite_foot _ _ _).same .pending rfl
@[simp] theorem binderWrite_keep : (binderWrite a bs s).keep = s.keep := (binderWrite_foot _ _ _).same .keep rfl
@[simp] theorem binderWrite_cat : (binderWrite a bs s).cat = s.cat := (binderWrite_foot _ _ _).same .cat rfl
@[simp] theorem binderWrite_pwr : (binderWrite a bs s).pwr = s.pwr := (binderWrite_foot _ _ _).same .pwr rfl
@[simp] theorem binderWrite_otp : (binderWrite a bs s).otp = s.otp := (binderWrite_foot _ _ _).same .otp rfl
@[simp] theorem binderWrite_kt : (binderWrite a bs s).kt = s.kt := (binderWrite_foot _ _ _).same .kt rfl
@[simp] theorem binderWrite_boot : (binderWrite a bs s).boot = s.boot := (binderWrite_foot _ _ _).same .boot rfl
@[simp] theorem binderWrite_mbx : (binderWrite a bs s).mbx = s.mbx := (binderWrite_foot _ _ _).same .mbx rfl
@[simp] theorem binderWrite_jr : (binderWrite a bs s).jr = s.jr := (binderWrite_foot _ _ _).same .jr rfl
@[simp] theorem binderWrite_stg : (binderWrite a bs s).stg = s.stg := (binderWrite_foot _ _ _).same .stg rfl
@[simp] theorem binderWrite_host : (binderWrite a bs s).host = s.host := (binderWrite_foot _ _ _).same .host rfl
@[simp] theorem binderWrite_log : (binderWrite a bs s).log = s.log := (binderWrite_foot _ _ _).same .log rfl
@[simp] theorem binderWrite_pmc : (binderWrite a bs s).pmc = s.pmc := (binderWrite_foot _ _ _).same .pmc rfl
@[simp] theorem binderWrite_spn : (binderWrite a bs s).spn = s.spn := (binderWrite_foot _ _ _).same .spn rfl
@[simp] theorem binderWrite_pair : (binderWrite a bs s).pair = s.pair := (binderWrite_foot _ _ _).same .pair rfl
@[simp] theorem binderWrite_lv : (binderWrite a bs s).lv = s.lv := (binderWrite_foot _ _ _).same .lv rfl
@[simp] theorem binderWrite_ket : (binderWrite a bs s).ket = s.ket := (binderWrite_foot _ _ _).same .ket rfl
@[simp] theorem binderWrite_afe : (binderWrite a bs s).afe = s.afe := (binderWrite_foot _ _ _).same .afe rfl
@[simp] theorem binderWrite_drv : (binderWrite a bs s).drv = s.drv := (binderWrite_foot _ _ _).same .drv rfl
@[simp] theorem binderWrite_can : (binderWrite a bs s).can = s.can := (binderWrite_foot _ _ _).same .can rfl
@[simp] theorem binderWrite_ep : (binderWrite a bs s).ep = s.ep := (binderWrite_foot _ _ _).same .ep rfl
@[simp] theorem binderWrite_pln : (binderWrite a bs s).pln = s.pln := (binderWrite_foot _ _ _).same .pln rfl
@[simp] theorem binderWrite_stw : (binderWrite a bs s).stw = s.stw := (binderWrite_foot _ _ _).same .stw rfl
end
section
variable (s : State)
@[simp] theorem queueResumes_now : (queueResumes s).now = s.now := (queueResumes_foot _).same .now rfl
@[simp] theorem queueResumes_free : (queueResumes s).free = s.free := (queueResumes_foot _).same .free rfl
@[simp] theorem queueResumes_out : (queueResumes s).out = s.out := (queueResumes_foot _).same .out rfl
@[simp] theorem queueResumes_pending : (queueResumes s).pending = s.pending := (queueResumes_foot _).same .pending rfl
@[simp] theorem queueResumes_keep : (queueResumes s).keep = s.keep := (queueResumes_foot _).same .keep rfl
@[simp] theorem queueResumes_cat : (queueResumes s).cat = s.cat := (queueResumes_foot _).same .cat rfl
@[simp] theorem queueResumes_pwr : (queueResumes s).pwr = s.pwr := (queueResumes_foot _).same .pwr rfl
@[simp] theorem queueResumes_otp : (queueResumes s).otp = s.otp := (queueResumes_foot _).same .otp rfl
@[simp] theorem queueResumes_kt : (queueResumes s).kt = s.kt := (queueResumes_foot _).same .kt rfl
@[simp] theorem queueResumes_boot : (queueResumes s).boot = s.boot := (queueResumes_foot _).same .boot rfl
@[simp] theorem queueResumes_mbx : (queueResumes s).mbx = s.mbx := (queueResumes_foot _).same .mbx rfl
@[simp] theorem queueResumes_jr : (queueResumes s).jr = s.jr := (queueResumes_foot _).same .jr rfl
@[simp] theorem queueResumes_stg : (queueResumes s).stg = s.stg := (queueResumes_foot _).same .stg rfl
@[simp] theorem queueResumes_host : (queueResumes s).host = s.host := (queueResumes_foot _).same .host rfl
@[simp] theorem queueResumes_log : (queueResumes s).log = s.log := (queueResumes_foot _).same .log rfl
@[simp] theorem queueResumes_pmc : (queueResumes s).pmc = s.pmc := (queueResumes_foot _).same .pmc rfl
@[simp] theorem queueResumes_spn : (queueResumes s).spn = s.spn := (queueResumes_foot _).same .spn rfl
@[simp] theorem queueResumes_pair : (queueResumes s).pair = s.pair := (queueResumes_foot _).same .pair rfl
@[simp] theorem queueResumes_ket : (queueResumes s).ket = s.ket := (queueResumes_foot _).same .ket rfl
@[simp] theorem queueResumes_afe : (queueResumes s).afe = s.afe := (queueResumes_foot _).same .afe rfl
@[simp] theorem queueResumes_drv : (queueResumes s).drv = s.drv := (queueResumes_foot _).same .drv rfl
@[simp] theorem queueResumes_can : (queueResumes s).can = s.can := (queueResumes_foot _).same .can rfl
@[simp] theorem queueResumes_qre : (queueResumes s).qre = s.qre := (queueResumes_foot _).same .qre rfl
@[simp] theorem queueResumes_mem : (queueResumes s).mem = s.mem := (queueResumes_foot _).same .mem rfl
@[simp] theorem queueResumes_ep : (queueResumes s).ep = s.ep := (queueResumes_foot _).same .ep rfl
@[simp] theorem queueResumes_pln : (queueResumes s).pln = s.pln := (queueResumes_foot _).same .pln rfl
@[simp] theorem queueResumes_stw : (queueResumes s).stw = s.stw := (queueResumes_foot _).same .stw rfl
end

end Sys2Proof.Machine
end

