-- ==== Sys2Proof/Laws/Mail.lean ====
section
/-! SUPPORT. Laws/Mail.lean: a record on its way into the journal: what copying it out changes, and that no check of R98
sees those changes. -/

namespace Sys2Proof.Machine

theorem count_eq (ev : Nat) (s : State) : ∃ p, count ev s = { s with pmc := p } := by
  unfold count countN; split
  · exact ⟨_, rfl⟩
  · exact ⟨s.pmc, rfl⟩

theorem countRise_eq (ev : Nat) (s : State) : ∃ p, countRise ev s = { s with pmc := p } := by
  unfold countRise; split
  · exact ⟨_, rfl⟩
  · exact ⟨s.pmc, rfl⟩

theorem msix_eq (v : Nat) (s : State) : ∃ h o, msix v s = { s with host := h, out := o } := by
  unfold msix; repeat' split
  · exact ⟨s.host, s.out, rfl⟩
  · exact ⟨_, s.out, rfl⟩
  · exact ⟨s.host, _, rfl⟩

theorem mbxOf_onBox_same (m : Nat) (f : Mailbox → Mailbox) (s : State) : mbxOf (onBox m f s) m = f (mbxOf s m) := by
  simp [mbxOf, onBox, Tab.get_mod_same]

/-- A mailbox without a waiting response has nothing to write. -/
theorem writeAll_none {m : Nat} {s : State} (h : (mbxOf s m).waiting = []) : writeAll m s = s := by
  unfold writeAll; rw [h]; rfl

/-- The state in which a record is judged: that of its arrival but for the counters, the mailboxes and the vectors. -/
structure Copied (m : Nat) (s u : State) : Prop where
  eq   : ∃ h o p ms, u = { s with host := h, out := o, pmc := p, mbx := ms }
  idle : (mbxOf u m).busy = false
  room : (mbxOf u m).waiting = (mbxOf s m).waiting

theorem clearBusy_copied (m : Nat) (s : State) : Copied m s (clearBusy m s) := by
  have hb := mbxOf_onBox_same m (fun b => { b with busy := false }) s
  unfold clearBusy
  split
  · obtain ⟨h, o, e⟩ := msix_eq (3 + m) (onBox m (fun b => { b with busy := false }) s)
    have hm : mbxOf (msix (3 + m) (onBox m (fun b => { b with busy := false }) s)) m = { mbxOf s m with busy := false } := by
      rw [← hb, mbxOf, msix_mbx]; rfl
    exact ⟨⟨h, o, s.pmc, (onBox m (fun b => { b with busy := false }) s).mbx, e⟩, by
      have := congrArg Mailbox.busy hm; exact this, by have := congrArg Mailbox.waiting hm; exact this⟩
  · exact ⟨⟨s.host, s.out, s.pmc, (onBox m (fun b => { b with busy := false }) s).mbx, rfl⟩, by
      have := congrArg Mailbox.busy hb; exact this, by have := congrArg Mailbox.waiting hb; exact this⟩

theorem arrive_copied {op : Half} {h : Hdr} {body : Bytes} {s : State} (a : Arrives op h body s) :
    ∃ u, Copied h.mbx.val s u ∧ (mbxOf u h.mbx.val).waiting = [] ∧
      arrive op h body s = receive h.mbx.val h.jok (rowRec op h body) u := by
  have hr : running s = true := by
    have := a.isOpen; simp only [isOpenBox, Bool.and_eq_true] at this; exact this.1
  have hm : (h.mbx.val == 6) = false := by simpa using a.box
  have hs : (h.mbx.val == 7 && !h.sound) = false := by
    by_cases e : h.mbx.val = 7
    · simp [a.sound e]
    · simp [e]
  unfold arrive
  simp only [hr, hm, hs, a.idle, Bool.not_true, Bool.false_and, Bool.or_false, Bool.false_eq_true, if_false]
  set v := onBox h.mbx.val (fun b => { b with window := b.window.writeN 0 ((recBytes (rowRec op h body)).take 4096) }) s
    with hv
  obtain ⟨p1, e1⟩ := count_eq (0x290 + h.mbx.val) v
  obtain ⟨p2, e2⟩ := countRise_eq (0x2A0 + h.mbx.val) (count (0x290 + h.mbx.val) v)
  have hw : (mbxOf (countRise (0x2A0 + h.mbx.val) (count (0x290 + h.mbx.val) v)) h.mbx.val).waiting = [] := by
    rw [mbxOf, countRise_mbx, count_mbx]
    exact (congrArg Mailbox.waiting (mbxOf_onBox_same h.mbx.val
      (fun b => { b with window := b.window.writeN 0 ((recBytes (rowRec op h body)).take 4096) }) s)).trans a.room
  have ha := writeAll_none hw
  have hn : waitsForRoom h.mbx.val (countRise (0x2A0 + h.mbx.val) (count (0x290 + h.mbx.val) v)) = false := by
    unfold waitsForRoom; rw [ha, hw]; rfl
  rw [hn, ha]
  obtain ⟨⟨hst, o, p, ms, e⟩, hi, hq⟩ := clearBusy_copied h.mbx.val (countRise (0x2A0 + h.mbx.val) (count (0x290 + h.mbx.val) v))
  refine ⟨_, ⟨⟨hst, o, p, ms, ?_⟩, hi, ?_⟩, hq.trans hw, rfl⟩
  · rw [e, e2, e1, hv]; rfl
  · rw [hq, hw, a.room]

end Sys2Proof.Machine
end

