-- ==== Sys2Proof/Laws/Power.lean ====
section
/-! SUPPORT. Laws/Power.lean: what a reset of BIND leaves, said once for every source. -/

namespace Sys2Proof.Machine

/-- The end of the below-floor leases as BIND goes down. -/
theorem dropAll_foot (ls : List BelowLease) (r : Word) (s : State) :
    Foot [.out, .keep, .host, .log, .pmc, .spn, .drv] s (ls.foldl (fun s l => dropBelow l r s) s) :=
  Foot.foldl Foot.refl fun _ _ h => h.then (dropBelow_foot _ _ _) rfl

section
variable (ls : List BelowLease) (r : Word) (s : State)
@[simp] theorem dropAll_pwr : (ls.foldl (fun s l => dropBelow l r s) s).pwr = s.pwr := (dropAll_foot _ _ _).same .pwr rfl
@[simp] theorem dropAll_ket : (ls.foldl (fun s l => dropBelow l r s) s).ket = s.ket := (dropAll_foot _ _ _).same .ket rfl
@[simp] theorem dropAll_mem : (ls.foldl (fun s l => dropBelow l r s) s).mem = s.mem := (dropAll_foot _ _ _).same .mem rfl
@[simp] theorem dropAll_lv : (ls.foldl (fun s l => dropBelow l r s) s).lv = s.lv := (dropAll_foot _ _ _).same .lv rfl
@[simp] theorem dropAll_ten : (ls.foldl (fun s l => dropBelow l r s) s).keep.ten = s.keep.ten :=
  keepCore_ten ((dropAll_foot _ _ _).same .core rfl)
end

section
variable (dom : Dom) (s : State)
@[simp] theorem bindDown_bind : (bindDown dom s).pwr.bind = dom := by simp [bindDown]
@[simp] theorem bindDown_store : (bindDown dom s).pwr.store = .off := by simp [bindDown, storeOff]
@[simp] theorem bindDown_halfA : (bindDown dom s).pwr.halfA = .off := by simp [bindDown, storeOff]
@[simp] theorem bindDown_halfB : (bindDown dom s).pwr.halfB = .off := by simp [bindDown, storeOff]
@[simp] theorem bindDown_field : (bindDown dom s).pwr.field = s.pwr.field := by simp [bindDown, storeOff]
@[simp] theorem bindDown_hotSince : (bindDown dom s).pwr.hotSince = s.pwr.hotSince := by simp [bindDown, storeOff]
@[simp] theorem bindDown_xin : (bindDown dom s).pwr.xin = s.pwr.xin := by simp [bindDown, storeOff]
@[simp] theorem bindDown_fclkPll : (bindDown dom s).pwr.fclkPll = s.pwr.fclkPll := by simp [bindDown, storeOff]
@[simp] theorem bindDown_capdn : (bindDown dom s).keep.capdn = 0xFFFF := by simp [bindDown]
@[simp] theorem bindDown_leases : (bindDown dom s).lv.leases = [] := by simp [bindDown, Leave.bindReset]
@[simp] theorem bindDown_boot : (bindDown dom s).boot = {} := by simp [bindDown]
@[simp] theorem bindDown_mem : (bindDown dom s).mem = [] := by simp [bindDown, storeOff]
@[simp] theorem bindDown_trip : (bindDown dom s).ket.trip = s.ket.trip := by simp [bindDown, Kettle.bindReset]
@[simp] theorem bindDown_mbx : (bindDown dom s).mbx = [] := by simp [bindDown]
end

/-- What a reset of BIND leaves, whatever its source. -/
theorem bindReset_down (src : Nat) (dom : Dom) (s : State) : BindIsDown src dom s (bindReset src dom s) := by
  constructor <;> simp [bindReset]

end Sys2Proof.Machine
end

