-- ==== Sys2Proof/Laws/Journal.lean ====
section
/-! SUPPORT. Laws/Journal.lean: an entry through its completion: finding it after a change, and what `finish` leaves at an
acting Lead without a partner. -/

namespace Sys2Proof.Machine

theorem find_map_entry (j : Nat) (f : JEntry → JEntry) (hf : ∀ e, (f e).jseq = e.jseq ∨ e.jseq ≠ j) (es : List JEntry) :
    (es.map fun e => if e.jseq == j then f e else e).find? (·.jseq == j) = (es.find? (·.jseq == j)).map f := by
  induction es with
  | nil => rfl
  | cons x xs ih =>
    by_cases h : x.jseq = j
    · have hj : (f x).jseq = j := by rcases hf x with h' | h' <;> [exact h'.trans h; exact absurd h h']
      simp [h, hj]
    · have hx : (x.jseq == j) = false := by simpa using h
      rw [List.map_cons, List.find?_cons, List.find?_cons]; simp only [hx, Bool.false_eq_true, if_false]; exact ih

theorem findEntry_onEntry (j : Nat) (f : JEntry → JEntry) (hf : ∀ e, (f e).jseq = e.jseq ∨ e.jseq ≠ j) (s : State) :
    findEntry j (onEntry j f s) = (findEntry j s).map f := find_map_entry j f hf s.jr.entries

theorem findEntry_jseq {j : Nat} {s : State} {e : JEntry} (h : findEntry j s = some e) : e.jseq = j := by
  have := List.find?_some h; simpa using this

theorem findEntry_congr {s t : State} (h : t.jr.entries = s.jr.entries) (j : Nat) : findEntry j t = findEntry j s := by
  unfold findEntry; rw [h]

@[simp] theorem dropObj_jr (d : Digest) (s : State) : (dropObj d s).jr = s.jr := rfl

theorem sendDone_jr (e : JEntry) (s : State) : (sendDone e s).jr = s.jr := by
  unfold sendDone; dsimp only; split <;> simp

theorem setDone_entries {j : Nat} {s : State} {e : JEntry} (h : findEntry j s = some e) :
    (setDone j s).jr.entries =
      (onEntry j (fun e => { e with state := .done, doneWait := false, applied := true }) s).jr.entries := by
  unfold setDone; rw [h]; dsimp only
  split <;> simp [scheduleReset, sendDone_jr]

/-- What `finish` does to its entry at an acting Lead without a partner: DONE, with the result. -/
theorem findEntry_finish {j : Nat} {r : Word} {d : Bytes} {s : State} {e : JEntry} (h : findEntry j s = some e)
    (hd : e.state ≠ .done) (hw : e.doneWait = false) (hl : s.pair.lead = true) (ha : attached s = false)
    (hy : s.pair.state ≠ .syncing) :
    findEntry j (finish j r d s) =
      some { completed e r d s with state := .done, doneWait := false, applied := true } := by
  have hj := findEntry_jseq h
  have h1 : findEntry j (onEntry j (fun _ => completed e r d s) s) = some (completed e r d s) := by
    have := find_map_entry j (fun _ => completed e r d s) (fun x => by
      by_cases hx : x.jseq = j
      · left; simp [completed, hj, hx]
      · right; exact hx) s.jr.entries
    rw [show findEntry j (onEntry j (fun _ => completed e r d s) s) = _ from this]
    rw [show s.jr.entries.find? (·.jseq == j) = some e from h]; rfl
  have h2 : finish j r d s = setDone j (onEntry j (fun _ => completed e r d s) s) := by
    unfold finish; rw [h]
    have hd' : (e.state == JState.done) = false := by simpa using hd
    have hy' : (s.pair.state == PairState.syncing) = false := by simpa using hy
    simp [hd', hw, hl, ha, hy']
  rw [h2, findEntry_congr (setDone_entries h1), findEntry_onEntry j (fun e => { e with state := .done, doneWait := false, applied := true }) (fun _ => .inl rfl), h1]; rfl

end Sys2Proof.Machine
end

