-- ==== Sys2Proof/WellFormed.lean ====
section
/-! DEFINITION. WellFormed.lean: the commands that a transport, a bus or a sensor of the specification can
deliver. A command outside these bounds is refused by the check; the machine itself is total. -/

namespace Sys2Proof

/-- A record that a transport delivers (R90): whole, a multiple of 8 bytes, at most 4,096, with a trailer of no
bytes or 32. -/
def Hdr.wf (h : Hdr) (body : Bytes) : Bool :=
  (h.token.length == 0 || h.token.length == 32) && body.length % 8 == 0 &&
  decide (32 + body.length + h.token.length ≤ 4096)

/-- A frame's payload bytes fit a CAN frame (Table 10-1): up to 8 bytes in a classic frame, a DLC length in an
FD frame. -/
def CanFrame.wf (f : CanFrame) : Bool :=
  if f.fdf then [0, 1, 2, 3, 4, 5, 6, 7, 8, 12, 16, 20, 24, 32, 48, 64].contains f.data.length && !f.rtr
  else decide (f.data.length ≤ 8) && !f.brs

/-- A power report gives eight accelerator figures (Table 14-2). -/
def PowerReport.wf (r : PowerReport) : Bool := r.accW.length == 8

/-- The well-formed commands. -/
def Instr.wf : Instr → Bool
  | .seqQuery h b | .nonceGet h b | .resultGet h b | .statusGet h b | .objectStage h b | .leaveRequest h b
  | .leaveReturn h b | .leaseRead h b | .sensorRead h b | .logRead h b | .pmcRead h b | .inventoryRead h b
  | .spineHealthGet h b | .tlsKeyGet h b | .trayStart h b | .trayStop h b | .trayCapSet h b | .permitSet h b
  | .holdSet h b | .budgetSet h b | .rowBudgetSet h b | .rowShareSet h b | .staggerSet h b | .tripRelease h b
  | .leakMask h b | .kettleRouteSet h b | .tripProof h b | .keeperTableSet h b | .belowFloorLease h b
  | .setpointRequest h b | .actuatorConfig h b | .canConfig h b | .afeConfig h b | .configEpochSet h b
  | .modelLoad h b | .regionSet h b | .spillConfig h b | .rebind h b | .goldenStore h b | .tagWrite h b
  | .switchBack h b | .pairSync h b | .spineConfig h b | .logClear h b | .logFreeze h b | .pmcConfig h b
  | .keySet h b | .keyRevoke h b | .rollbackAdvance h b | .reset h b | .wakeConfig h b | .tlsSet h b => h.wf b
  | .canFrameRx _ f => f.x.wf
  | .trayPoll _ r => r.wf
  | .boundaryFrame _ _ _ _ vs => vs.length == 9
  | .mbxBootStart l => decide (l.length ≤ 1024)
  | .netbootOffer _ _ _ _ f | .netbootData _ _ _ f | .netbootCancel _ _ f => decide (f.length ≤ 1500)
  | .actuatorStatus _ a _ => decide (a < 63)
  | .actuatorConfigTimeout a | .actuatorSilent a => decide (a < 63)
  | .pduValueLowRead n => decide (n < 96)
  | .rfReadSingleBlock n => decide (n < 256)
  | .rfWriteSingleBlock n d => decide (n < 256) && d.length == 32
  | _ => true

end Sys2Proof
end

