-- ==== Sys2Proof/Tests/Slice0.lean ====
section
/-! SUPPORT. Tests/Slice0.lean: for every statement with hypotheses a concrete state and operands that meet them together,
clause by clause, and small tests on values of the specification's own tables. -/

open Sys2Proof Sys2Proof.Machine

namespace Sys2Proof.Tests

set_option Elab.async false
set_option linter.unusedVariables false

/-! ## States and operands that the witnesses share -/

/-- Firmware runs, every domain is on, the node is inserted, every lane is up, and the board is acting Lead alone. -/
def run : State := {
  keep := { por := false, cold := false, capdn := 0 }
  pwr := { rails := true, bind := .on, field := .on, store := .on }
  kt := { role := some true, budget := some 100000 }
  boot := { state := .running }
  host := { perst := false, link := .l0, en := true }
  spn := { lanes := [(0, { up := true }), (1, { up := true }), (2, { up := true }), (3, { up := true })], insert := .in_ }
  pair := { lead := true } }
/-- The same board as a Shadow. -/
def shadow : State := { run with kt.role := some false, pair.lead := false }
/-- The same board with its partner attached. -/
def withPartner : State := { run with pair.state := .attached, pair.heard := true, pair.synced := true, kt.partner := some 9 }
/-- Bytes with a little-endian value of `n` bytes put at an offset. -/
def put (b : Bytes) (o n v : Nat) : Bytes := b.take o ++ leBytes n v ++ b.drop (o + n)
/-- The boot ROM loads over PCIe. -/
def loading : State :=
  { run with boot := { state := .loading, source := 1, progress := 512, total := 1024, colophon := List.replicate 512 0 } }
/-- A colophon that gives a payload's hash. -/
def colophonOf (b : Bytes) : Bytes := put (List.replicate 512 0) 0x40 48 (sha384 b).toNat
/-- A frame on lane 0 from node 5 to every node. -/
def ringFrame : FrameHdr := { lane := 0, src := 5, dst := 0xFF, fseq := 7 }
/-- A frame on pair lane 0 from the partner. -/
def pairFrame : FrameHdr := { lane := 2, src := 1, dst := 0, fseq := 7 }
/-- A journal entry of a command from rack-manager source 2. -/
def entry (op : Half) (body : Bytes) : JEntry := { op := op, cw := mkCw 2 5, jseq := 1, mbx := 2, body := body }
/-- `run` with that entry, its effect due. -/
def due (op : Half) (body : Bytes) : State := { run with jr.entries := [entry op body], jr.jseq := 1 }
/-- A header from source 2 over mailbox M2. -/
def hdr : Hdr := { mbx := 2, src := 2, seq := 1 }
/-- A header from tray 0's agent over mailbox M6. -/
def agentHdr : Hdr := { mbx := 6, src := 0x10, seq := 1 }
/-- A BUDGET_SET body of 5,000 W. -/
def budget : Bytes := leBytes 8 5000
/-- A descriptor with accelerator 0 present, base cap 100 W and peak cap 500 W. -/
def accDesc : Bytes := put (put (put (List.replicate 320 0) 40 1 1) 44 2 100) 46 2 500
/-- A leave table that grants: bins wide open for accelerator 0 of tray 0, BASE_OK for tray 0. -/
def table : Bytes :=
  put (put (put (put (List.replicate 4096 0) 0x40 16 (2 ^ 128 - 1)) 0x8C0 32 (2 ^ 256 - 1)) 0xAC0 4 1) 0xB00 32 (2 ^ 256 - 1)
/-- Tray 0 enabled with its agent up and a table current. -/
def tray : State := { run with
  keep.ten := 1
  lv := { trays := [(0, { permit := true })], table := some table, everTable := true }
  stw := { agents := [(0, { link := .up, role := some true })], inv := [(0, { desc := some accDesc })] } }
/-- A LEAVE_REQUEST body: accelerator 0, 300 W wanted, 200 W at least, 100 ms. -/
def ask (want least ms : Nat) : Bytes := put (put (put (List.replicate 16 0) 4 2 want) 6 2 least) 8 4 ms
/-- A pump record with TYPE 1, scale and limit 100 and MAX_RPM 1000, in a hardware table. -/
def hwTable : Bytes := put (put (put (put (put (List.replicate 4096 0) 0x120 1 1) 0x128 2 1000) 0x12E 2 100) 0x124 2 20000) 0x130 2 100
/-- `run` with a hardware table in use and pump 0 running. -/
def pumps : State := { run with drv := { table := some hwTable, pumps := [(0, { st := .running, hz := 20000 })] } }
/-- A channel record with ENABLE 1. -/
def chanRec : Bytes := [0, 1, 0, 0, 0, 0, 0, 0, 0, 0, 0, 0, 0, 0, 0, 0]
/-- `run` with a channel's part of the front end set. -/
def chan (n : Nat) (c : Chan) : State := { run with afe.ch := [(n, { c with live := some chanRec })] }
/-- A CAN_CONFIG body whose FLAGS byte is given, and a memory table of one receive entry that takes every frame. -/
def canTab (flags : Nat) : Tab (Bytes × Bytes) :=
  [(0, (put (put (List.replicate 64 0) 1 1 flags) 16 2 7, put (List.replicate 96 0) 0 2 1))]
/-- `run` with channel 0 so configured and in a state. -/
def can (flags : Nat) (c : CanCh) : State := { run with kt.canCfg := canTab flags, can.ch := [(0, c)] }
/-- A program of one core, quire 0 core 0, with one descriptor, and a region of 4 KiB to read and to write. -/
def prog (d : Desc) : Prog := { c := {
  quires := 1, lists := [{ core := 0, descs := [d] }], regions := [{ base := 0, len := 4096, read := true, write := true }],
  rsets := [[0, 0, 0, 0]], queues := [{ id := 0 }], flags := [(3, false)] } }
/-- `run` with that program ready and its core at its descriptor. -/
def quire (d : Desc) : State := { run with
  pwr.halfA := .running
  qre := { progs := [prog d], cores := [(0, { st := .running })] } }
/-- A descriptor of an operator over one element of FP32, every operand at address 0. -/
def desc (op : Byte) : Desc :=
  { op := op, ty := 0, rows := 1, cols := 1, dst := 0x1000000000000000, src0 := 0x1000000000000000, src1 := 0x1000000000000000,
    rset := 0 }
/-- An epoch of mode 1 with one element of this position. -/
def epoch : EpochRef := { jseq := 1, num := 1, man := { mode := 1, nelem := 1, inbox := 0x1000, outbox := 0x2000, parts := [(0, 0, 1)] } }
/-- `run` in that epoch. -/
def inEpoch : State := { run with ep.cur := some epoch }
/-- A region set of one axis. -/
def regions : Bytes := put (put (List.replicate 128 0) 6 1 1) 80 4 0
/-- A region set of one axis from 0 to 1,000 with 1.0 for each limit of its motion, and a request for 100 on it. -/
def longAxis : Bytes :=
  put (put (put (put (put (put regions 84 4 0x447A0000) 88 4 0x3F800000) 92 4 0x3F800000) 96 4 0x3F800000) 104 4 0x3F800000) 80 4 0
def longBody : Bytes := put (put (List.replicate 96 0) 0 2 1) 8 4 0x42C80000
/-- `run` with that region set adopted. -/
def planning : State := { run with kt.regions := some regions, pln.st := .rest, pln.rest := [0] }

/-- A stored copy of the BUDGET_SET record that `hdr` brings. -/
def copied (st : JState) : JEntry :=
  { entry 0x0105 budget with cw := mkCw 2 1, state := st, digest := recDigest (rowRec 0x0105 hdr budget) }
/-- A header from the host over mailbox M0. -/
def hostHdr : Hdr := { mbx := 0, src := 0, seq := 0 }
/-- An OBJECT_STAGE body of a list of one entry. -/
def stageList : Bytes := put (put (put (List.replicate 64 0) 32 4 100) 40 2 1) 56 2 1
/-- An OBJECT_STAGE body of a chunk of 8 bytes. -/
def stageChunk : Bytes := put (put (List.replicate 56 0) 32 4 100) 42 2 8
/-- A FILL that writes 1 to the cycle completion register, and its program and state. -/
def fillDone : Desc := { desc 0x11 with ty := 0x24, dst := 0x1000000400020000, src0 := 0, src1 := 0, imm := 1 }
def progDone : Prog :=
  { c := { (prog fillDone).c with regions := [{ base := 0x400020000, len := 64, read := true, write := true }] } }
def quireDone : State := { quire fillDone with qre.progs := [progDone] }
/-- A NOP that waits on flag 3. -/
def waits : Desc := { desc 0 with wait := 0x8003 }
/-- Working memory whose table bank holds 4,092 zeros and their CRC-32C. -/
def goodTable : Mem := Mem.writeN [] 0x400000FFC (leBytes 4 (crc32c (List.replicate 0xFFC 0)))
/-- A harbour set of one VALID harbour. -/
def oneHarbour : Mem := Mem.writeN (Mem.writeN [] 8 [1]) 0x140 [1]
/-- A TRIP_PROOF record of 40 bytes from tray 0's agent. -/
def ibiRecord : Bytes := leBytes 2 0x0001 ++ leBytes 2 0 ++ leBytes 4 40 ++ leBytes 8 (0x10 * 2 ^ 48) ++ List.replicate 24 0
/-- A valid tray descriptor with one accelerator. -/
def goodDesc : Bytes :=
  let d := put (put (put accDesc 0 2 1) 2 1 1) 42 2 50
  put d 316 4 (crc32c (sub d 0 316))

/-! ## Witnesses: the hypotheses of each statement, clause by clause -/

theorem witness_StepRunsFrontCommand :
    ∃ (c : Instr) (rest : List Instr) (s : State), s.pending = c :: rest :=
  ⟨.vkeepFall, [], { run with pending := [.vkeepFall] }, by decide +kernel⟩

theorem witness_EmptyQueueLetsTimePass :
    ∃ (s : State), s.pending = [] :=
  ⟨run, by decide +kernel⟩

theorem witness_StepKeepsMemoriesCanonical :
    ∃ (s t : State), Canon s ∧ step s = .next t :=
  ⟨run, tick run, by constructor <;> decide +kernel, rfl⟩

theorem witness_StepTakesNothingBack :
    ∃ (s t : State), step s = .next t :=
  ⟨run, tick run, rfl⟩

theorem witness_TripLatchesStay :
    ∃ (c : Instr) (s t : State) (n : Nat), mayClearTrip c = false ∧ exec c s = .next t ∧ s.ket.trip.getLsbD n = true :=
  ⟨.vkeepFall, { run with ket.trip := 0x8001 }, doVkeepFall { run with ket.trip := 0x8001 }, 15, by decide +kernel, rfl, by decide +kernel⟩

theorem witness_RecordArrivalFrame :
    ∃ (c : Instr) (s t : State), isRecord c = true ∧ exec c s = .next t :=
  ⟨.budgetSet hdr budget, run, arrive 0x0105 hdr budget run, by decide +kernel, rfl⟩

theorem witness_DescriptorFrame :
    ∃ (c : Instr) (s t : State), isDescriptor c = true ∧ exec c s = .next t :=
  ⟨.nop 0 0 .ok, quire (desc 0), runOp 0x00 0 0 .ok (quire (desc 0)), by decide +kernel, rfl⟩

theorem witness_KeepDomainCommandsComplete :
    (∃ (s : State) (intact : Bool), s.keep.por = true) ∧
    (∃ (s : State), s.keep.por = false ∧ s.keep.tenRead = false) ∧
    (∃ (s : State), s.keep.por = false) ∧
    (∃ (s : State), s.keep.por = false) ∧
    (∃ (s : State) (d : Nat), s.keep.handoffAt = some d) ∧
    (∃ (s : State) (d : Nat), s.ket.imageDue = some d ∧ s.keep.por = false ∧ s.keep.tenRead = true) ∧
    (∃ (s : State), s.keep.por = false) ∧
    (∃ (s : State), s.keep.por = false ∧ s.keep.coarse = true) :=
  ⟨⟨State.reset, true, by decide +kernel⟩,
    ⟨{ run with keep.tenRead := false, cat.trip := 0x8000, cat.ten := 0xC000 }, by decide +kernel⟩,
    ⟨run, by decide +kernel⟩,
    ⟨run, by decide +kernel⟩,
    ⟨{ run with keep.handoffAt := some 1000 }, 1000, by decide +kernel⟩,
    ⟨{ run with ket.imageDue := some 1000, ket.trip := 1 }, 1000, by decide +kernel⟩,
    ⟨run, by decide +kernel⟩,
    ⟨{ run with keep.coarse := true }, by decide +kernel⟩⟩

theorem witness_PowerSequencerCommandsComplete :
    (∃ (s : State), s.keep.por = false ∧ s.pwr.bind = .off ∧ s.pwr.hotSince = none) ∧
    (∃ (s : State), s.keep.por = true) ∧
    (∃ (s : State) (d : Nat), s.pwr.fieldAt = some d ∧ s.pwr.field = .off) ∧
    (∃ (s : State), s.pwr.field = .reset) ∧
    (∃ (s : State), running s = true ∧ s.drv.beat.isSome = true ∧ s.pwr.store = .off) ∧
    (∃ (s : State), s.pwr.store = .powering) ∧
    (∃ (s : State), running s = true ∧ s.pwr.store ≠ .off) ∧
    (∃ (s : State), s.keep.por = false ∧ s.pwr.xin = true) ∧
    (∃ (s : State), s.pwr.xin = false ∧ (∀ n < 4, (fieldOn s && (pumpOf s n).driven) = false)) ∧
    (∃ (s : State) (n : Nat), s.pwr.xin = false ∧ fieldOn s = true ∧ n < 4 ∧ (pumpOf s n).driven = true ∧ (∀ k < n, (pumpOf s k).driven = false)) ∧
    (∃ (s : State) (d : Nat), s.pwr.backAt = some d) ∧
    (∃ (s : State) (peak : Int) (d : Nat), s.pwr.hotSince = some d ∧ s.pwr.rails = true) ∧
    (∃ (s : State) (h : Fin 2), running s = true ∧ s.pwr.store = .on ∧ halfOf s h = .off ∧ halfTurn h s = true ∧ s.lv.leases.any (fun l => l.kind == 2 && l.owner == h.val) = false ∧ s.lv.waits.any (fun w => w.kind == 2 && w.owner == h.val) = false ∧ internalAsk 20 s = none) ∧
    (∃ (s : State) (h : Fin 2), halfOf s h = .powering ∧ s.pwr.halfWait = none) ∧
    (∃ (s : State) (h : Fin 2), running s = true ∧ halfOf s h = .idle) :=
  ⟨⟨{ keep.por := false }, by decide +kernel⟩,
    ⟨State.reset, by decide +kernel⟩,
    ⟨{ run with pwr.field := .off, pwr.fieldAt := some 1000 }, 1000, by decide +kernel⟩,
    ⟨{ run with pwr.field := .reset }, by decide +kernel⟩,
    ⟨{ run with pwr.store := .off, drv.beat := some 0 }, by decide +kernel⟩,
    ⟨{ run with pwr.store := .powering, mem := [(5, 1)] }, by decide +kernel⟩,
    ⟨run, by decide +kernel⟩,
    ⟨run, by decide +kernel⟩,
    ⟨{ run with pwr.xin := false, pwr.fclkPll := false }, by decide +kernel⟩,
    ⟨{ pumps with pwr.xin := false, pwr.fclkPll := false }, 0, by decide +kernel⟩,
    ⟨{ run with pwr.backAt := some 1000, pwr.fclkPll := false }, 1000, by decide +kernel⟩,
    ⟨{ run with pwr.hotSince := some 0, pwr.bind := .off }, 1300, 0, by decide +kernel⟩,
    ⟨{ run with pwr.halfA := .powering }, 1, by decide +kernel⟩,
    ⟨{ run with pwr.halfB := .powering }, 1, by decide +kernel⟩,
    ⟨{ run with pwr.halfA := .idle }, 0, by decide +kernel⟩⟩

theorem witness_ResetsTakeBindDown :
    (∃ (s : State), s.pwr.rails = true) ∧
    (∃ (s : State), s.keep.por = false ∧ s.pwr.xin = true ∧ s.pwr.bind ≠ .off) ∧
    (∃ (s : State), s.pwr.bind ≠ .off) ∧
    (∃ (s : State), s.pwr.bind = .on) ∧
    (∃ (s : State) (d : Nat), s.boot.watchdog = some d) ∧
    (∃ (s : State), s.boot.watchdog = none ∧ running s = true) ∧
    (∃ (s : State) (d : Nat), s.jr.resetAt = some d) ∧
    (∃ (s : State) (temp : Int), s.keep.por = false ∧ s.pwr.hotSince = none ∧ 1200 ≤ temp) :=
  ⟨⟨run, by decide +kernel⟩,
    ⟨run, by decide +kernel⟩,
    ⟨run, by decide +kernel⟩,
    ⟨run, by decide +kernel⟩,
    ⟨{ run with boot.state := .starting, boot.watchdog := some 5000000 }, 5000000, by decide +kernel⟩,
    ⟨run, by decide +kernel⟩,
    ⟨{ run with jr.resetAt := some 100 }, 100, by decide +kernel⟩,
    ⟨run, 1200, by decide +kernel⟩⟩

theorem witness_BindReleaseSamplesStraps :
    ∃ (s : State) (straps : Straps) (ok : Bool), s.pwr.bind = .reset ∧ s.pwr.xin = true ∧ s.pwr.fclkPll = true :=
  ⟨{ run with pwr.bind := .reset }, { bootSel := 3 }, true, by decide +kernel⟩

theorem witness_HostLinkCommandsComplete :
    (∃ (s : State), s.host.perst = false ∧ s.pwr.bind = .on) ∧
    (∃ (s : State) (d : DState) (msix : Bool), s.host.perst = false ∧ s.pwr.bind = .on) :=
  ⟨⟨run, by decide +kernel⟩,
    ⟨run, .d3cold, true, by decide +kernel⟩⟩

set_option maxRecDepth 100000 in
theorem witness_PcieDownloadCompletes :
    (∃ (s : State) (list : List Scatter), s.pwr.bind = .on ∧ s.boot.state = .wait ∧ pcieEligible s = true ∧ 0 < s.boot.listCount.toNat ∧ s.boot.listCount.toNat ≤ 1024 ∧ s.boot.listLo.toNat % 16 = 0 ∧ s.boot.listCount.toNat ≤ list.length ∧ entriesOk (list.take s.boot.listCount.toNat) = true ∧ listTotal (list.take s.boot.listCount.toNat) ≤ 25165824) ∧
    (∃ (s : State) (list : List Scatter), s.pwr.bind = .on ∧ s.boot.state = .wait ∧ pcieEligible s = true ∧ (s.boot.listCount.toNat = 0 ∨ 1024 < s.boot.listCount.toNat ∨ s.boot.listLo.toNat % 16 ≠ 0 ∨ s.boot.listCount.toNat ≤ list.length ∧ (entriesOk (list.take s.boot.listCount.toNat) = false ∨ 25165824 < listTotal (list.take s.boot.listCount.toNat)))) ∧
    (∃ (s : State) (list : List Scatter), s.pwr.bind = .on ∧ s.boot.state = .wait ∧ pcieEligible s = true ∧ s.boot.listCount.toNat ≤ 1024 ∧ s.boot.listLo.toNat % 16 = 0 ∧ list.length < s.boot.listCount.toNat) ∧
    (∃ (s : State), (s.boot.state = .loading ∨ s.boot.state = .checking)) ∧
    (∃ (s : State) (data : Bytes), s.boot.state = .loading ∧ s.boot.source = 1 ∧ 512 ≤ s.boot.progress ∧ 512 ≤ s.boot.colophon.length ∧ s.boot.progress + data.length ≤ s.boot.total) ∧
    (∃ (s : State) (data : Bytes), s.boot.state = .loading ∧ s.boot.source = 1 ∧ s.boot.progress < 512 ∧ s.boot.colophon.length = s.boot.progress ∧ 513 ≤ s.boot.total ∧ 512 ≤ s.boot.progress + data.length) ∧
    (∃ (s : State), s.boot.state = .loading ∧ s.boot.source = 1) ∧
    (∃ (s : State) (us : Nat), s.boot.state = .checking) ∧
    (∃ (s : State), s.boot.state = .failed) :=
  ⟨⟨{ run with boot := { listCount := 1, listLo := 0x10 } }, [{ addr := 0x1000, len := 4096 }], by decide +kernel⟩,
    ⟨{ run with boot := { listCount := 1, listLo := 0x10 } }, [{ addr := 0x1001, len := 4096 }], by decide +kernel⟩,
    ⟨{ run with boot := { listCount := 1024, listLo := 0x10 } }, [], by decide +kernel⟩,
    ⟨{ run with boot.state := .checking }, by decide +kernel⟩,
    ⟨loading, List.replicate 512 1, by decide +kernel⟩,
    ⟨{ loading with boot.progress := 0, boot.colophon := [] }, List.replicate 512 0, by decide +kernel⟩,
    ⟨loading, by decide +kernel⟩,
    ⟨{ run with boot := { state := .checking, colophon := colophonOf [7], total := 513, progress := 513, prog := [(0, 7)] } }, 400, by decide +kernel⟩,
    ⟨{ run with boot.state := .failed }, by decide +kernel⟩⟩

theorem witness_NetbootCompletes :
    (∃ (s : State) (d : Nat), s.boot.solicitAt = some d ∧ s.boot.state = .wait ∧ s.boot.net = true) ∧
    (∃ (s : State) (port : Fin 2) (src : Nat) (frame : Bytes), s.boot.state = .wait ∧ s.boot.net = true ∧ netFrame 2 0x88B5 frame s = true ∧ fld frame 18 2 = 4 ∧ 513 ≤ fld frame 20 4 ∧ fld frame 20 4 ≤ 25165824) ∧
    (∃ (s : State) (port : Fin 2) (src block n : Nat) (frame : Bytes), s.boot.state = .loading ∧ fromServer port src s = true ∧ netFrame 4 0x88B5 frame s = true ∧ block = fld frame 12 4 ∧ n = fld frame 18 2 ∧ 512 ≤ s.boot.colophon.length ∧ 0 < block ∧ s.boot.window ≤ block ∧ block < s.boot.window + windowOf s.boot.total s.boot.window ∧ s.boot.got.contains block = false ∧ n = blockLen s.boot.total block ∧ s.boot.progress + n ≤ s.boot.total) ∧
    (∃ (s : State) (port : Fin 2) (src n : Nat) (frame : Bytes), s.boot.state = .loading ∧ fromServer port src s = true ∧ netFrame 4 0x88B5 frame s = true ∧ fld frame 12 4 = 0 ∧ n = fld frame 18 2 ∧ s.boot.colophon = [] ∧ s.boot.progress = 0 ∧ 513 ≤ s.boot.total ∧ s.boot.window = 0 ∧ s.boot.got = [] ∧ n = blockLen s.boot.total 0) ∧
    (∃ (s : State) (d : Nat), s.boot.reqAt = some d ∧ s.boot.state = .loading) ∧
    (∃ (s : State) (port : Fin 2) (src : Nat) (frame : Bytes), (s.boot.state = .loading ∨ s.boot.state = .checking) ∧ fromServer port src s = true ∧ netFrame 6 0x88B5 frame s = true) ∧
    (∃ (s : State) (port : Fin 2), (s.boot.state = .loading ∨ s.boot.state = .checking) ∧ s.boot.source = 2 ∧ s.boot.port = port.val) ∧
    (∃ (s : State) (d : Nat), s.boot.netAt = some d) :=
  ⟨⟨{ run with boot := { net := true, solicitAt := some 1000 } }, 1000, by decide +kernel⟩,
    ⟨{ run with boot := { net := true } }, 1, 77, netBytes 0 2 0 0 (leBytes 4 513), by decide +kernel⟩,
    ⟨{ loading with boot.source := 2, boot.server := 77, boot.total := 1920, boot.progress := 1408, boot.window := 1 }, 0, 77, 1, 512, netBytes 0 4 1 0 (List.replicate 512 1), by decide +kernel⟩,
    ⟨{ loading with boot.source := 2, boot.server := 77, boot.total := 1920, boot.progress := 0, boot.colophon := [] }, 0, 77, 1408, netBytes 0 4 0 0 (List.replicate 1408 0), by decide +kernel⟩,
    ⟨{ loading with boot.reqAt := some 50000 }, 50000, by decide +kernel⟩,
    ⟨{ loading with boot.source := 2, boot.server := 77 }, 0, 77, netBytes 0 6 0 0 [], by decide +kernel⟩,
    ⟨{ loading with boot.source := 2, boot.port := 1 }, 1, by decide +kernel⟩,
    ⟨{ run with boot := { netAt := some 30000000 } }, 30000000, by decide +kernel⟩⟩

theorem witness_DownloadsKeepKeepState :
    ∃ (c : Instr) (s t : State), isDownload c = true ∧ exec c s = .next t :=
  ⟨.mbxBootAbort, loading, doMbxBootAbort loading, by decide +kernel, rfl⟩

theorem witness_HaltAcceptsNoDownload :
    (∃ (s : State) (straps : Straps) (ok : Bool), s.pwr.bind = .reset ∧ s.pwr.xin = true ∧ s.pwr.fclkPll = true ∧ straps.bootSel = 3 ∧ s.log.freeze = none ∧ s.log.queue.length < 64) ∧
    (∃ (c : Instr) (s t : State), s.boot.state = .halt ∧ exec c s = .next t) :=
  ⟨⟨{ run with pwr.bind := .reset }, { bootSel := 3 }, true, by decide +kernel⟩,
    ⟨.mbxBootStart [], { run with boot.state := .halt }, doMbxBootStart [] { run with boot.state := .halt }, by decide +kernel, rfl⟩⟩

theorem witness_FirmwareStartCompletes :
    ∃ (s : State) (held torn : List Nat), s.pwr.bind = .on ∧ s.boot.state = .starting ∧ s.keep.tenRead = true :=
  ⟨{ run with boot.state := .starting, keep.ten := 3, ket.trip := 2, jr.entries := [copied .pending, { copied .pending with jseq := 9 }] }, [], [9], by decide +kernel⟩

theorem witness_RegisterAccessesComplete :
    (∃ (s : State) (m : Fin 8), bar0Up s = true ∧ running s = true ∧ m.val < 2 ∧ (mbxOf s m.val).busy = false) ∧
    (∃ (s : State) (m : Fin 8), bar0Up s = true ∧ running s = true ∧ m.val < 2 ∧ (mbxOf s m.val).busy = true) ∧
    (∃ (s : State) (m : Fin 8) (ci : BitVec 6), bar0Up s = true ∧ running s = true ∧ m.val < 2) ∧
    (∃ (s : State) (m : Fin 8) (jok : Bool), running s = true ∧ (mbxOf s m.val).busy = true ∧ (mbxOf s m.val).waiting = []) ∧
    (∃ (s : State) (m : Fin 8) (jok : Bool) (o : Nat), isOpenBox s = true ∧ m.val ≠ 6 ∧ (mbxOf s m.val).busy = true ∧ (mbxOf s m.val).waiting = [] ∧ srcValid m.val (cwSrc (windowRec (mbxOf s m.val).window).cw) = true ∧ badHeader (windowRec (mbxOf s m.val).window) = some o) ∧
    (∃ (s : State) (m : Fin 8) (r : Resp) (rs : List Resp), running s = true ∧ m.val < 2 ∧ (mbxOf s m.val).waiting = r :: rs ∧ (mbxOf s m.val).pi % 32 + respSlots r ≤ 32 ∧ respSlots r ≤ ringFree (mbxOf s m.val)) ∧
    (∃ (s : State) (m : Fin 8) (r : Resp) (rs : List Resp), running s = true ∧ (m.val = 2 ∨ m.val = 3) ∧ (mbxOf s m.val).conn = true ∧ (mbxOf s m.val).waiting = r :: rs) ∧
    (∃ (s : State) (r : Resp) (rs : List Resp), running s = true ∧ (mbxOf s 7).waiting = r :: rs) ∧
    (∃ (s : State) (r : Resp) (rs : List Resp), pairUp s = true ∧ (mbxOf s 4).waiting = r :: rs) ∧
    (∃ (s : State) (r : Resp) (rs : List Resp) (d : Nat), inserted s = true ∧ s.spn.master = some d ∧ d ≠ nodeAddr s ∧ (mbxOf s 5).waiting = r :: rs) ∧
    (∃ (s : State) (off : BitVec 18) (v : Word), bar0Up s = true ∧ running s = true ∧ off.toNat < 0x1000 ∧ (mbxOf s 0).busy = false) ∧
    (∃ (s : State) (off : BitVec 18) (v : Word), bar0Up s = true ∧ running s = true ∧ off.toNat < 0x1000 ∧ (mbxOf s 0).busy = true) ∧
    (∃ (s : State) (v : Word), bar0Up s = true ∧ running s = false) ∧
    (∃ (s : State) (off : BitVec 18) (v : Word), bar0Up s = true ∧ 0x38000 ≤ off.toNat ∧ off.toNat < 0x38200) ∧
    (∃ (s : State) (v : Word), bar0Up s = true ∧ running s = true) ∧
    (∃ (s : State) (v : Word), bar0Up s = true ∧ running s = true ∧ s.pmc.en = true) ∧
    (∃ (s : State) (v : Word), bar0Up s = true ∧ running s = true ∧ s.pmc.en = false) :=
  ⟨⟨run, 1, by decide +kernel⟩,
    ⟨{ run with mbx := [(1, { busy := true })] }, 1, by decide +kernel⟩,
    ⟨{ run with mbx := [(0, { pi := 5, ci := 62 })] }, 0, 6, by decide +kernel⟩,
    ⟨{ run with mbx := [(0, { busy := true })] }, 0, true, by decide +kernel⟩,
    ⟨{ run with mbx := [(0, { busy := true })] }, 0, true, 4, by decide +kernel⟩,
    ⟨{ run with mbx := [(0, { waiting := [{}], pi := 31 })] }, 0, {}, [], by decide +kernel⟩,
    ⟨{ run with mbx := [(3, { waiting := [{}], conn := true })] }, 3, {}, [], by decide +kernel⟩,
    ⟨{ run with mbx := [(7, { waiting := [{}] })] }, {}, [], by decide +kernel⟩,
    ⟨{ run with mbx := [(4, { waiting := [{}] })] }, {}, [], by decide +kernel⟩,
    ⟨{ run with mbx := [(5, { waiting := [{ data := List.replicate 40 1 }] })], spn.master := some 5 }, { data := List.replicate 40 1 }, [], 5, by decide +kernel⟩,
    ⟨run, 0xFFC, 0x01020304, by decide +kernel⟩,
    ⟨{ run with mbx := [(0, { busy := true })] }, 0xFFC, 0, by decide +kernel⟩,
    ⟨{ run with boot.state := .wait }, 0x7FF, by decide +kernel⟩,
    ⟨run, 0x381FC, 1, by decide +kernel⟩,
    ⟨run, 1, by decide +kernel⟩,
    ⟨{ run with pmc.en := true }, 16, by decide +kernel⟩,
    ⟨run, 16, by decide +kernel⟩⟩

theorem witness_EventRingCommandsComplete :
    (∃ (s : State) (v : Word), bar0Up s = true ∧ running s = true) ∧
    (∃ (s : State), bar0Up s = true ∧ running s = true) ∧
    (∃ (s : State) (e : EvEntry), running s = true ∧ ringOpen s.host = true ∧ s.host.dropOwe = 0 ∧ s.host.backlog = [e]) ∧
    (∃ (s : State), running s = true ∧ ringOpen s.host = true ∧ 0 < s.host.dropOwe ∧ s.host.backlog = []) ∧
    (∃ (s : State) (r : WakeRec) (rs : List WakeRec), running s = true ∧ ringOpen s.host = true ∧ s.keep.wake = r :: rs) :=
  ⟨⟨run, 8191, by decide +kernel⟩,
    ⟨run, by decide +kernel⟩,
    ⟨{ run with host.backlog := [{}] }, {}, by decide +kernel⟩,
    ⟨{ run with host.dropOwe := 3 }, by decide +kernel⟩,
    ⟨{ run with keep.wake := [{ code := 2 }] }, { code := 2 }, [], by decide +kernel⟩⟩

theorem witness_ConnectionsComplete :
    (∃ (s : State) (port : Fin 2) (hello : TlsHello), running s = true ∧ helloOk hello = true ∧ s.kt.chain.isSome = true ∧ s.kt.clientKeys.find port.val = hello.key) ∧
    (∃ (s : State) (port : Fin 2) (hello : TlsHello), running s = true ∧ (helloOk hello = false ∨ s.kt.chain = none ∨ s.kt.clientKeys.find port.val ≠ hello.key)) ∧
    (∃ (s : State) (src : Half) (d : Nat), s.jr.lockout.find src.toNat = some d) :=
  ⟨⟨{ run with kt.chain := some 1, kt.clientKeys := [(0, 5)], mbx := [(2, { waiting := [{}], conn := true })] }, 0, { key := some 5 }, by decide +kernel⟩,
    ⟨{ run with kt.chain := some 1, kt.clientKeys := [(0, 5)] }, 0, { key := some 5, suites := [0x1301] }, by decide +kernel⟩,
    ⟨{ run with jr.lockout := [(2, 60000000)] }, 2, 60000000, by decide +kernel⟩⟩

theorem witness_QueriesAreAnswered :
    (∃ (c : Instr) (op : Half) (h : Hdr) (body : Bytes) (s : State) (i : OpInfo), recordOf c = some (op, h, body) ∧ QueryPasses op h body s i ∧ (op = 0x0013 → fld (rowRec op h body).body 3 1 = 1 → wetRopes s (fld (rowRec op h body).body 1 1) (fld (rowRec op h body).body 2 1) = [])) ∧
    (∃ (h : Hdr) (body : Bytes) (s : State) (i : OpInfo), QueryPasses 0x0013 h body s i ∧ fld (rowRec 0x0013 h body).body 3 1 = 1 ∧ wetRopes s (fld (rowRec 0x0013 h body).body 1 1) (fld (rowRec 0x0013 h body).body 2 1) ≠ []) :=
  ⟨⟨.statusGet { hdr with seq := 0 } [], 0x0004, { hdr with seq := 0 }, [], run, ⟨.q, anyRank, 0⟩, by decide +kernel, by constructor <;> first | decide +kernel | (constructor <;> decide +kernel), by decide +kernel⟩,
    ⟨{ hdr with seq := 0 }, [3, 15, 1, 1, 0, 0, 0, 0], { run with ket.src := [(15, { wet := true })] }, ⟨.q, hostRm, 8⟩, by constructor <;> first | decide +kernel | (constructor <;> decide +kernel), by decide +kernel⟩⟩

theorem witness_JournaledCommandsAreAccepted :
    ∃ (c : Instr) (op : Half) (h : Hdr) (body : Bytes) (s : State) (i : OpInfo) (k : Option Bool), recordOf c = some (op, h, body) ∧ JournalPasses op h body s i k ∧ s.jr.fault = false ∧ h.jok = true ∧ s.pair.lead = true ∧ attached s = false ∧ s.pair.state ≠ .syncing ∧ s.jr.jseq + 1 < ownSeq :=
  ⟨.budgetSet hdr budget, 0x0105, hdr, budget, run, ⟨.j none, [.rackManager], 8⟩, none, by decide +kernel, by constructor <;> first | decide +kernel | (constructor <;> decide +kernel), by decide +kernel⟩

theorem witness_AttachedLeadMirrorsFirst :
    ∃ (c : Instr) (op : Half) (h : Hdr) (body : Bytes) (s : State) (i : OpInfo) (k : Option Bool), recordOf c = some (op, h, body) ∧ JournalPasses op h body s i k ∧ s.jr.fault = false ∧ h.jok = true ∧ s.pair.lead = true ∧ attached s = true ∧ s.jr.jseq + 1 < ownSeq :=
  ⟨.budgetSet hdr budget, 0x0105, hdr, budget, withPartner, ⟨.j none, [.rackManager], 8⟩, none, by decide +kernel, by constructor <;> first | decide +kernel | (constructor <;> decide +kernel), by decide +kernel⟩

theorem witness_RefusedAndDuplicateRecordsAdmitNothing :
    (∃ (c : Instr) (op : Half) (h : Hdr) (body : Bytes) (s : State) (st : Byte) (d : Nat), recordOf c = some (op, h, body) ∧ running s = true ∧ h.mbx.val ≠ 6 ∧ (h.mbx.val = 7 → h.sound = true) ∧ (mbxOf s h.mbx.val).busy = false ∧ (mbxOf s h.mbx.val).waiting = [] ∧ (isOpenBox s = false ∧ st = 0x14 ∧ d = 0 ∨ isOpenBox s = true ∧ srcValid h.mbx.val (cwSrc (rowRec op h body).cw) = false ∧ st = 0x14 ∧ d = 8 ∨ isOpenBox s = true ∧ srcValid h.mbx.val (cwSrc (rowRec op h body).cw) = true ∧ badHeader (rowRec op h body) = some d ∧ st = 0x14 ∨ Arrives op h body s ∧ (∃ i k, opInfo op.toNat = some i ∧ i.cls = .j k ∧ findCw (rowRec op h body).cw s = none ∧ ((cwSeq (rowRec op h body).cw = 0 ∨ cwSeq (rowRec op h body).cw ≤ (s.jr.high.get {} (cwSrc (rowRec op h body).cw)).seq) ∧ st = 0x14 ∧ d = 8 ∨ (s.jr.high.get {} (cwSrc (rowRec op h body).cw)).seq < cwSeq (rowRec op h body).cw ∧ (authCause i (rowRec op h body) s = some d ∧ st = 0x13 ∨ authCause i (rowRec op h body) s = none ∧ st = 0x14 ∧ ∃ o, minBad (badBody op.toNat s (rowRec op h body).body) (badTail op.toNat i.body (rowRec op h body).body) = some o ∧ d = 32 + o))))) ∧
    (∃ (c : Instr) (op : Half) (h : Hdr) (body : Bytes) (s : State) (i : OpInfo) (k : Option Bool) (e : JEntry), recordOf c = some (op, h, body) ∧ Arrives op h body s ∧ opInfo op.toNat = some i ∧ i.cls = .j k ∧ findCw (rowRec op h body).cw s = some e ∧ recDigest (rowRec op h body) = e.digest ∧ e.state = .done) ∧
    (∃ (c : Instr) (op : Half) (h : Hdr) (body : Bytes) (s : State) (i : OpInfo) (k : Option Bool) (e : JEntry), recordOf c = some (op, h, body) ∧ Arrives op h body s ∧ opInfo op.toNat = some i ∧ i.cls = .j k ∧ findCw (rowRec op h body).cw s = some e ∧ recDigest (rowRec op h body) = e.digest ∧ e.state = .pending) ∧
    (∃ (c : Instr) (op : Half) (h : Hdr) (body : Bytes) (s : State) (i : OpInfo) (k : Option Bool) (e : JEntry), recordOf c = some (op, h, body) ∧ Arrives op h body s ∧ opInfo op.toNat = some i ∧ i.cls = .j k ∧ findCw (rowRec op h body).cw s = some e ∧ recDigest (rowRec op h body) = e.digest ∧ e.state = .tentative) :=
  ⟨⟨.budgetSet hdr budget, 0x0105, hdr, budget, { run with pair.state := .lone }, 0x14, 0, by decide +kernel, by decide +kernel, by decide +kernel, by decide +kernel, by decide +kernel, by decide +kernel, .inl (by decide +kernel)⟩,
    ⟨.budgetSet hdr budget, 0x0105, hdr, budget, { run with jr.entries := [copied .done] }, ⟨.j none, [.rackManager], 8⟩, none, copied .done, by decide +kernel, by constructor <;> decide +kernel, rfl, rfl, by decide +kernel⟩,
    ⟨.budgetSet hdr budget, 0x0105, hdr, budget, { run with jr.entries := [copied .pending] }, ⟨.j none, [.rackManager], 8⟩, none, copied .pending, by decide +kernel, by constructor <;> decide +kernel, rfl, rfl, by decide +kernel⟩,
    ⟨.budgetSet hdr budget, 0x0105, hdr, budget, { run with jr.entries := [copied .tentative] }, ⟨.j none, [.rackManager], 8⟩, none, copied .tentative, by decide +kernel, by constructor <;> decide +kernel, rfl, rfl, by decide +kernel⟩⟩

theorem witness_CatchStoreFault :
    (∃ (c : Instr) (op : Half) (h : Hdr) (body : Bytes) (s : State) (i : OpInfo) (k : Option Bool), recordOf c = some (op, h, body) ∧ JournalPasses op h body s i k ∧ s.jr.fault = true) ∧
    (∃ (c : Instr) (op : Half) (h : Hdr) (body : Bytes) (s : State) (i : OpInfo) (k : Option Bool), recordOf c = some (op, h, body) ∧ JournalPasses op h body s i k ∧ s.jr.fault = false ∧ h.jok = false) ∧
    (∃ (c : Instr) (s t : State), s.jr.fault = true ∧ exec c s = .next t) :=
  ⟨⟨.budgetSet hdr budget, 0x0105, hdr, budget, { run with jr.fault := true }, ⟨.j none, [.rackManager], 8⟩, none, by decide +kernel, by constructor <;> first | decide +kernel | (constructor <;> decide +kernel), by decide +kernel⟩,
    ⟨.budgetSet { hdr with jok := false } budget, 0x0105, { hdr with jok := false }, budget, { run with jr.fails := 2 }, ⟨.j none, [.rackManager], 8⟩, none, by decide +kernel, by constructor <;> first | decide +kernel | (constructor <;> decide +kernel), by decide +kernel⟩,
    ⟨.vkeepFall, { run with jr.fault := true }, doVkeepFall { run with jr.fault := true }, by decide +kernel, rfl⟩⟩

theorem witness_StagingCompletes :
    (∃ (h : Hdr) (body : Bytes) (s : State), Arrives 0x0005 h body s ∧ hostRm.contains (rankOf (cwSrc (rowRec 0x0005 h body).cw) h.flags) = true ∧ badStage h.mbx.val s (rowRec 0x0005 h body).body = none ∧ badTail 0x0005 56 (rowRec 0x0005 h body).body = none ∧ fld (rowRec 0x0005 h body).body 40 2 = 1) ∧
    (∃ (h : Hdr) (body : Bytes) (s : State), Arrives 0x0005 h body s ∧ hostRm.contains (rankOf (cwSrc (rowRec 0x0005 h body).cw) h.flags) = true ∧ badStage h.mbx.val s (rowRec 0x0005 h body).body = none ∧ badTail 0x0005 56 (rowRec 0x0005 h body).body = none ∧ fld (rowRec 0x0005 h body).body 40 2 = 0 ∧ findObj (digestAt (rowRec 0x0005 h body).body 0) s = none ∧ stagedBytes (s.pwr.store == .on) s + fld (rowRec 0x0005 h body).body 42 2 ≤ stageLimit (s.pwr.store == .on) ∧ fld (rowRec 0x0005 h body).body 42 2 < fld (rowRec 0x0005 h body).body 32 4) ∧
    (∃ (s : State) (x : StageDma) (xs : List StageDma) (list : List Scatter) (data : Option Bytes) (st : Byte) (d : Nat), s.stg.dma = x :: xs ∧ x.mbx ≠ 6 ∧ (list.length < x.count ∧ st = 0x15 ∧ d = 4 ∨ x.count ≤ list.length ∧ entriesOk (list.take x.count) = false ∧ st = 0x14 ∧ d = 80 ∨ x.count ≤ list.length ∧ entriesOk (list.take x.count) = true ∧ (x.total < x.offset + listTotal (list.take x.count) ∧ st = 0x14 ∧ d = 68 ∨ x.offset + listTotal (list.take x.count) ≤ x.total ∧ data = none ∧ st = 0x15 ∧ d = 4))) ∧
    (∃ (s : State) (x : StageDma) (xs : List StageDma) (list : List Scatter) (data : Bytes), s.stg.dma = x :: xs ∧ x.mbx ≠ 6 ∧ x.count ≤ list.length ∧ entriesOk (list.take x.count) = true ∧ listTotal (list.take x.count) = data.length ∧ findObj x.digest s = none ∧ x.offset = 0 ∧ 0 < x.total ∧ data.length = x.total ∧ sha256 data = x.digest ∧ stagedBytes (s.pwr.store == .on) s + x.total ≤ stageLimit (s.pwr.store == .on)) :=
  ⟨⟨hostHdr, stageList, run, by constructor <;> decide +kernel, by decide +kernel⟩,
    ⟨hostHdr, stageChunk, run, by constructor <;> decide +kernel, by decide +kernel⟩,
    ⟨{ run with stg.dma := [{ total := 1, count := 2 }] }, { total := 1, count := 2 }, [], [{ addr := 0, len := 1 }], some [0], 0x15, 4, by decide +kernel⟩,
    ⟨{ run with stg.dma := [{ total := 1, count := 1, digest := sha256 [0] }] }, { total := 1, count := 1, digest := sha256 [0] }, [], [{ addr := 0, len := 1 }], [0], by decide +kernel⟩⟩

theorem witness_SettingsTakeEffect :
    (∃ (e : JEntry) (s : State), EffectDue e s ∧ e.op = 0x0103 ∧ (∀ n < 16, (trayOf s n).startSeq = 0)) ∧
    (∃ (e : JEntry) (s : State), EffectDue e s ∧ e.op = 0x0105) ∧
    (∃ (e : JEntry) (s : State), EffectDue e s ∧ e.op = 0x0106) ∧
    (∃ (e : JEntry) (s : State), EffectDue e s ∧ e.op = 0x0602 ∧ 0 < fld e.body 0 2) ∧
    (∃ (e : JEntry) (s : State), EffectDue e s ∧ e.op = 0x0800) ∧
    (∃ (e : JEntry) (s : State), EffectDue e s ∧ e.op = 0x0801) ∧
    (∃ (e : JEntry) (s : State), EffectDue e s ∧ e.op = 0x0802) ∧
    (∃ (e : JEntry) (s : State), EffectDue e s ∧ e.op = 0x0803) ∧
    (∃ (e : JEntry) (s : State), EffectDue e s ∧ e.op = 0x0804) ∧
    (∃ (e : JEntry) (s : State) (n : Nat), EffectDue e s ∧ e.op = 0x0103 ∧ n < 16 ∧ (fld e.body 0 2).testBit n = true ∧ (fld e.body 2 2).testBit n = false ∧ (trayOf s n).startSeq ≠ 0 ∧ (trayOf s n).startAt = none ∧ (∀ m < 16, m ≠ n → (trayOf s m).startSeq = 0)) :=
  ⟨⟨entry 0x0103 (leBytes 8 0x00010003), due 0x0103 (leBytes 8 0x00010003), by constructor <;> decide +kernel, by decide +kernel⟩,
    ⟨entry 0x0105 budget, due 0x0105 budget, by constructor <;> decide +kernel, by decide +kernel⟩,
    ⟨entry 0x0106 budget, due 0x0106 budget, by constructor <;> decide +kernel, by decide +kernel⟩,
    ⟨entry 0x0602 (leBytes 8 1), due 0x0602 (leBytes 8 1), by constructor <;> decide +kernel, by decide +kernel⟩,
    ⟨entry 0x0800 (leBytes 40 1), due 0x0800 (leBytes 40 1), by constructor <;> decide +kernel, by decide +kernel⟩,
    ⟨entry 0x0801 (leBytes 8 3), due 0x0801 (leBytes 8 3), by constructor <;> decide +kernel, by decide +kernel⟩,
    ⟨entry 0x0802 (leBytes 8 64), due 0x0802 (leBytes 8 64), by constructor <;> decide +kernel, by decide +kernel⟩,
    ⟨entry 0x0803 (leBytes 8 0), due 0x0803 (leBytes 8 0), by constructor <;> decide +kernel, by decide +kernel⟩,
    ⟨entry 0x0804 (leBytes 8 0xFFFF), due 0x0804 (leBytes 8 0xFFFF), by constructor <;> decide +kernel, by decide +kernel⟩,
    ⟨entry 0x0103 (leBytes 8 0x8000), { due 0x0103 (leBytes 8 0x8000) with lv.trays := [(15, { permit := true, startSeq := 3 })], lv.queue := [{ tray := 15, start := true, jseq := 3 }] }, 15, by constructor <;> decide +kernel, by decide +kernel⟩⟩

theorem witness_StaggerIntervalIsStored :
    (∃ (e : JEntry) (s : State), EffectDue e s ∧ e.op = 0x0108) ∧
    (∃ (s : State) (d : Nat) (n : Nat) (q : List Stagger), acting s = true ∧ s.lv.slotAt = some d ∧ s.lv.deferAt = none ∧ s.lv.queue = { tray := n } :: q ∧ mayResume s n = true ∧ s.pair.silent = none ∧ (agentOf s n).link = .up ∧ s.lv.table.isSome = true ∧ s.lv.stale = false ∧ leaveHeld s = false ∧ 0 ≤ freeW s ∧ baseOk (tableOf s) n = true) ∧
    (∃ (s : State) (d j n : Nat) (q : List Stagger), acting s = true ∧ attached s = false ∧ s.pair.tenWait = none ∧ n < 16 ∧ s.lv.slotAt = some d ∧ s.lv.deferAt = none ∧ s.lv.queue = { tray := n, start := true, jseq := j } :: q ∧ (invOf s n).desc.isSome = true ∧ s.lv.table.isSome = true ∧ s.lv.stale = false ∧ leaveHeld s = false ∧ (baseSum (descOf s n) : Int) ≤ freeW s ∧ baseOk (tableOf s) n = true) :=
  ⟨⟨entry 0x0108 (leBytes 8 250), due 0x0108 (leBytes 8 250), by constructor <;> decide +kernel, by decide +kernel⟩,
    ⟨{ tray with lv.slotAt := some 5, lv.queue := [{ tray := 0 }] }, 5, 0, [], by decide +kernel⟩,
    ⟨{ tray with keep.ten := 0, lv.slotAt := some 5, lv.queue := [{ tray := 0, start := true, jseq := 1 }] }, 5, 1, 0, [], by decide +kernel⟩⟩

theorem witness_TrayCommandsTakeEffect :
    (∃ (e : JEntry) (s : State), EffectDue e s ∧ fld e.body 0 1 < 16 ∧ e.op = 0x0100 ∧ enabled s (fld e.body 0 1) = false ∧ tripped s (fld e.body 0 1) = false ∧ (trayOf s (fld e.body 0 1)).permit = true ∧ 1 < (trayOf s (fld e.body 0 1)).rm ∧ (trayOf s (fld e.body 0 1)).startSeq = 0) ∧
    (∃ (e : JEntry) (s : State), EffectDue e s ∧ fld e.body 0 1 < 16 ∧ e.op = 0x0100 ∧ enabled s (fld e.body 0 1) = false ∧ tripped s (fld e.body 0 1) = true ∧ (trayOf s (fld e.body 0 1)).permit = true ∧ 1 < (trayOf s (fld e.body 0 1)).rm) ∧
    (∃ (e : JEntry) (s : State), EffectDue e s ∧ fld e.body 0 1 < 16 ∧ e.op = 0x0101 ∧ fld e.body 1 1 = 1 ∧ enabled s (fld e.body 0 1) = true ∧ (trayOf s (fld e.body 0 1)).startSeq = 0 ∧ (trayOf s (fld e.body 0 1)).stopAt = none) ∧
    (∃ (e : JEntry) (s : State), EffectDue e s ∧ fld e.body 0 1 < 16 ∧ e.op = 0x0102 ∧ entryRank e = .host ∧ 1 < fld e.body 2 2 ∧ 1 < (trayOf s (fld e.body 0 1)).rm ∧ (trayOf s (fld e.body 0 1)).host ≤ fld e.body 2 2 ∧ 1 < (trayOf s (fld e.body 0 1)).host) ∧
    (∃ (e : JEntry) (s : State), EffectDue e s ∧ fld e.body 0 1 < 16 ∧ e.op = 0x0104 ∧ keepTime s < fld e.body 8 8 ∧ (trayOf s (fld e.body 0 1)).holdSeq = 0 ∧ (trayOf s (fld e.body 0 1)).startSeq = 0 ∧ 1 < fld e.body 2 2 ∧ 1 < (trayOf s (fld e.body 0 1)).host) ∧
    (∃ (e : JEntry) (s : State), EffectDue e s ∧ fld e.body 0 1 < 16 ∧ e.op = 0x0104 ∧ fld e.body 8 8 = 0 ∧ 1 < fld e.body 2 2 ∧ fld e.body 2 2 < (trayOf s (fld e.body 0 1)).host ∧ (trayOf s (fld e.body 0 1)).startSeq ≠ 0 ∧ (trayOf s (fld e.body 0 1)).startAt = none) :=
  ⟨⟨entry 0x0100 (leBytes 8 0x01000000), { due 0x0100 (leBytes 8 0x01000000) with lv.trays := [(0, { permit := true })] }, by constructor <;> decide +kernel, by decide +kernel⟩,
    ⟨entry 0x0100 (leBytes 8 0x0100000F), { due 0x0100 (leBytes 8 0x0100000F) with lv.trays := [(15, { permit := true })], ket.trip := 0x8000 }, by constructor <;> decide +kernel, by decide +kernel⟩,
    ⟨entry 0x0101 (leBytes 8 0x0100), { due 0x0101 (leBytes 8 0x0100) with keep.ten := 1 }, by constructor <;> decide +kernel, by decide +kernel⟩,
    ⟨{ entry 0x0102 (leBytes 8 0x01F40000) with cw := mkCw 0 5 }, { due 0x0102 [] with jr.entries := [{ entry 0x0102 (leBytes 8 0x01F40000) with cw := mkCw 0 5 }], lv.trays := [(0, { host := 2 })] }, by constructor <;> decide +kernel, by decide +kernel⟩,
    ⟨entry 0x0104 (leBytes 16 0x100000000000000000002000F), due 0x0104 (leBytes 16 0x100000000000000000002000F), by constructor <;> decide +kernel, by decide +kernel⟩,
    ⟨entry 0x0104 (leBytes 16 0x01F4000F), { due 0x0104 (leBytes 16 0x01F4000F) with lv.trays := [(15, { startSeq := 3 })], lv.queue := [{ tray := 15, start := true, jseq := 3 }] }, by constructor <;> decide +kernel, by decide +kernel⟩⟩

theorem witness_LeaveRecordsAreAnswered :
    (∃ (h : Hdr) (body : Bytes) (s : State) (cap : Nat), LeaveArrives 0x0010 h body s ∧ body.length = 16 ∧ h.token = [] ∧ s.lv.leases.find? (fun l => l.kind == 0 && l.cw == mkCw h.src.toNat h.seq.toNat) = none ∧ badLeave s (trayOfSrc h.src.toNat) body = none ∧ decideLeave s (trayOfSrc h.src.toNat) (fld body 0 1) (fld body 4 2) (fld body 6 2) (fld body 8 4) = .grant cap) ∧
    (∃ (h : Hdr) (body : Bytes) (s : State) (ms reason : Nat), LeaveArrives 0x0010 h body s ∧ body.length = 16 ∧ h.token = [] ∧ s.lv.leases.find? (fun l => l.kind == 0 && l.cw == mkCw h.src.toNat h.seq.toNat) = none ∧ badLeave s (trayOfSrc h.src.toNat) body = none ∧ decideLeave s (trayOfSrc h.src.toNat) (fld body 0 1) (fld body 4 2) (fld body 6 2) (fld body 8 4) = .defer ms reason) ∧
    (∃ (h : Hdr) (body : Bytes) (s : State) (reason : Nat), LeaveArrives 0x0010 h body s ∧ body.length = 16 ∧ h.token = [] ∧ s.lv.leases.find? (fun l => l.kind == 0 && l.cw == mkCw h.src.toNat h.seq.toNat) = none ∧ badLeave s (trayOfSrc h.src.toNat) body = none ∧ decideLeave s (trayOfSrc h.src.toNat) (fld body 0 1) (fld body 4 2) (fld body 6 2) (fld body 8 4) = .deny reason) ∧
    (∃ (h : Hdr) (body : Bytes) (s : State) (l : Lease), LeaveArrives 0x0011 h body s ∧ body.length = 8 ∧ h.token = [] ∧ isZero body 2 6 = true ∧ s.lv.leases.find? (fun l => l.kind == 0 && l.id == fld body 0 2 && l.owner / 8 == trayOfSrc h.src.toNat) = some l) :=
  ⟨⟨agentHdr, ask 300 200 100, tray, 300, by constructor <;> decide +kernel, by decide +kernel⟩,
    ⟨agentHdr, ask 300 200 10, { tray with lv.stale := true }, 10, 8, by constructor <;> decide +kernel, by decide +kernel⟩,
    ⟨agentHdr, ask 500 200 600000, { tray with ket.trip := 1 }, 4, by constructor <;> decide +kernel, by decide +kernel⟩,
    ⟨agentHdr, leBytes 8 1, { tray with lv.leases := [{ id := 1 }] }, { id := 1 }, by constructor <;> decide +kernel, by decide +kernel⟩⟩

theorem witness_GrantsStayWithinTheLedger :
    ∃ (s : State) (t a want least ms cap : Nat), least ≤ want ∧ decideLeave s t a want least ms = .grant cap :=
  ⟨tray, 0, 0, 300, 300, 100, 300, by decide +kernel⟩

theorem witness_LeaveTimersComplete :
    (∃ (s : State) (l : Lease), s.lv.leases.find? (·.id == l.id) = some l ∧ l.stop ≠ 0 ∧ s.pair.lead = true) ∧
    (∃ (s : State) (l : Lease), s.lv.falling.find? (·.id == l.id) = some l) ∧
    (∃ (s : State), running s = true ∧ s.lv.everTable = true ∧ s.lv.stale = false) ∧
    (∃ (s : State) (n : Fin 16) (d : Nat), (trayOf s n.val).stopAt = some d ∧ acting s = true ∧ attached s = false ∧ s.pair.tenWait = none ∧ s.pair.state ≠ .lone) ∧
    (∃ (s : State) (n : Fin 16) (d : Nat), (trayOf s n.val).stopAt = some d ∧ acting s = true ∧ s.pair.state = .lone) ∧
    (∃ (s : State) (n : Fin 16), (trayOf s n.val).holdEnd ≠ 0 ∧ running s = true) ∧
    (∃ (s : State) (w : LeaveWait), running s = true ∧ s.lv.waits = [w] ∧ w.kind = 2 ∧ w.owner < 2 ∧ s.pwr.store = .on ∧ halfOf s w.owner = .off ∧ halfTurn w.owner s = true ∧ internalAsk 20 s = none ∧ halfOf s (1 - w.owner) ≠ .powering) :=
  ⟨⟨{ run with lv.leases := [{ id := 1, stop := 50 }] }, { id := 1, stop := 50 }, by decide +kernel⟩,
    ⟨{ run with lv.falling := [{ id := 1, stop := 50 }] }, { id := 1, stop := 50 }, by decide +kernel⟩,
    ⟨{ run with lv.everTable := true }, by decide +kernel⟩,
    ⟨{ run with lv.trays := [(15, { stopAt := some 10000 })], keep.ten := 0x8000 }, 15, 10000, by decide +kernel⟩,
    ⟨{ run with lv.trays := [(15, { stopAt := some 10000 })], keep.ten := 0x8000, pair.state := .lone }, 15, 10000, by decide +kernel⟩,
    ⟨{ run with lv.trays := [(15, { rm := 5, holdEnd := 40000, startSeq := 3 })] }, 15, by decide +kernel⟩,
    ⟨{ run with lv.waits := [{ id := 1, kind := 2, owner := 1, watts := 20, at_ := 7 }], pwr.halfA := .idle }, { id := 1, kind := 2, owner := 1, watts := 20, at_ := 7 }, by decide +kernel⟩⟩

theorem witness_TrayAgentCommandsComplete :
    (∃ (s : State) (n : Fin 16) (r : PowerReport), running s = true ∧ s.pair.lead = false ∧ (agentOf s n.val).link = .up ∧ r.ok = true ∧ (agentOf s n.val).seq ≠ some r.seq) ∧
    (∃ (s : State) (n : Fin 16) (r : PowerReport), acting s = true ∧ s.pair.state ≠ .lone ∧ (agentOf s n.val).link = .up ∧ r.ok = true ∧ (agentOf s n.val).seq ≠ some r.seq ∧ trayOff s n.val = false ∧ 105 * allowance s n.val < r.trayW * 100 ∧ (trayOf s n.val).overs = 1 ∧ (agentOf s n.val).capdnBy = false ∧ r.state = 0) ∧
    (∃ (s : State) (n : Fin 16) (r : PowerReport), acting s = true ∧ (agentOf s n.val).link = .up ∧ r.ok = true ∧ (agentOf s n.val).seq ≠ some r.seq ∧ r.trayW * 100 ≤ 105 * allowance s n.val ∧ (agentOf s n.val).capdnBy = false ∧ r.state = 0) ∧
    (∃ (s : State) (n : Fin 16), acting s = true ∧ s.pair.state ≠ .lone ∧ (agentOf s n.val).link = .up ∧ trayOff s n.val = false ∧ (agentOf s n.val).capdnBy = false) ∧
    (∃ (s : State) (n : Fin 16), acting s = true ∧ s.pair.state ≠ .lone ∧ (agentOf s n.val).link ≠ .up ∧ trayOff s n.val = false ∧ (agentOf s n.val).capdnBy = false) ∧
    (∃ (s : State) (n : Fin 16), running s = true ∧ (agentOf s n.val).link = .silent) ∧
    (∃ (s : State) (n : Fin 16) (desc : Bytes), running s = true ∧ ((agentOf s n.val).link = .lost ∨ (agentOf s n.val).link = .absent)) ∧
    (∃ (s : State) (n : Fin 16) (desc : Bytes), running s = true ∧ ((agentOf s n.val).link = .lost ∨ (agentOf s n.val).link = .absent)) ∧
    (∃ (s : State) (d : Nat) (n : Nat) (q : List Stagger), acting s = true ∧ attached s = false ∧ s.pair.tenWait = none ∧ n < 16 ∧ s.lv.deferAt = some d ∧ s.lv.queue = { tray := n } :: q ∧ mayResume s n = true ∧ s.pair.silent = none ∧ (agentOf s n).link = .up ∧ s.lv.table.isSome = true ∧ s.lv.stale = false ∧ leaveHeld s = false ∧ 0 ≤ freeW s ∧ baseOk (tableOf s) n = true) ∧
    (∃ (s : State) (d j n : Nat) (q : List Stagger), acting s = true ∧ attached s = false ∧ s.pair.tenWait = none ∧ n < 16 ∧ s.lv.slotAt = some d ∧ s.lv.deferAt = none ∧ s.lv.queue = { tray := n, start := true, jseq := j } :: q ∧ (invOf s n).desc.isSome = true ∧ s.lv.table.isSome = true ∧ s.lv.stale = false ∧ leaveHeld s = false ∧ (baseSum (descOf s n) : Int) ≤ freeW s ∧ baseOk (tableOf s) n = true) ∧
    (∃ (s : State) (n : Fin 16) (d : Nat), acting s = true ∧ attached s = false ∧ s.pair.tenWait = none ∧ s.pair.state ≠ .lone ∧ (trayOf s n.val).startAt = some d) :=
  ⟨⟨{ shadow with stw.agents := [(15, { link := .up })] }, 15, { seq := 1, state := 0, trayW := 5 }, by decide +kernel⟩,
    ⟨{ tray with lv.trays := [(0, { overs := 1 })] }, 0, { seq := 1, state := 0, trayW := 106 }, by decide +kernel⟩,
    ⟨{ tray with lv.trays := [(0, { overs := 2 })] }, 0, { seq := 1, state := 0, trayW := 105 }, by decide +kernel⟩,
    ⟨tray, 0, by decide +kernel⟩,
    ⟨{ tray with stw.agents := [(0, { link := .lost, role := some true })] }, 0, by decide +kernel⟩,
    ⟨{ run with stw.agents := [(0, { link := .silent })] }, 0, by decide +kernel⟩,
    ⟨{ run with stw.agents := [(15, { link := .absent })] }, 15, [], by decide +kernel⟩,
    ⟨{ run with stw.agents := [(15, { link := .lost })] }, 15, goodDesc, by decide +kernel⟩,
    ⟨{ tray with lv.deferAt := some 5, lv.queue := [{ tray := 0 }], keep.capdn := 1 }, 5, 0, [], by decide +kernel⟩,
    ⟨{ tray with keep.ten := 0, lv.slotAt := some 5, lv.queue := [{ tray := 0, start := true, jseq := 1 }] }, 5, 1, 0, [], by decide +kernel⟩,
    ⟨{ tray with lv.trays := [(0, { startAt := some 10000000, startSeq := 1 })] }, 0, 10000000, by decide +kernel⟩⟩

theorem witness_TripsLatchTheirTrays :
    (∃ (s : State) (src : Fin 33) (reading : LeakReading), s.keep.por = false ∧ routeEnable s.ket.route src.val = true ∧ (leakOf s src.val).meas = none ∧ (leakOf s src.val).masked = false ∧ leakActive s.ket.route src.val (leakOf s src.val) = false) ∧
    (∃ (s : State) (n : Fin 16), s.keep.por = false ∧ tripDriven s n.val = false) ∧
    (∃ (s : State) (n : Fin 16), s.keep.por = false ∧ s.ket.release = []) ∧
    (∃ (s : State) (src : Fin 33) (reading : LeakReading), s.keep.por = false ∧ routeEnable s.ket.route src.val = true ∧ (leakOf s src.val).meas = none ∧ (leakOf s src.val).masked = true) ∧
    (∃ (s : State) (src : Fin 33) (reading : LeakReading) (d : Nat), s.keep.por = false ∧ routeEnable s.ket.route src.val = true ∧ (leakOf s src.val).meas = some d) ∧
    (∃ (e : JEntry) (s : State), EffectDue e s ∧ e.op = 0x0201 ∧ fld e.body 0 1 < 33 ∧ fld e.body 1 1 = 1 ∧ s.keep.por = false ∧ s.keep.tenRead = true) :=
  ⟨⟨run, 32, .wet, by decide +kernel⟩,
    ⟨run, 15, by decide +kernel⟩,
    ⟨run, 15, by decide +kernel⟩,
    ⟨{ run with ket.src := [(0, { masked := true })] }, 0, .short, by decide +kernel⟩,
    ⟨{ run with ket.src := [(15, { meas := some 1000 })] }, 15, .short, 1000, by decide +kernel⟩,
    ⟨entry 0x0201 (leBytes 8 0x0120), due 0x0201 (leBytes 8 0x0120), by constructor <;> decide +kernel, by decide +kernel⟩⟩

theorem witness_ReleaseCompletes :
    (∃ (s : State) (src : Fin 33), s.keep.por = false ∧ routeEnable s.ket.route src.val = true ∧ (leakOf s src.val).meas = none ∧ (leakOf s src.val).chat = false ∧ (leakOf s src.val).open_ = false) ∧
    (∃ (e : JEntry) (s : State) (n : Nat), EffectDue e s ∧ e.op = 0x0200 ∧ n < 16 ∧ (fld e.body 0 2).testBit n = true ∧ tripped s n = true ∧ trayReleasable s n = true) ∧
    (∃ (e : JEntry) (s : State) (n : Nat), EffectDue e s ∧ e.op = 0x0200 ∧ n < 16 ∧ tripped s n = true ∧ trayReleasable s n = false) ∧
    (∃ (s : State) (r : Release) (rs : List Release) (e : JEntry), s.ket.release = r :: rs ∧ findEntry r.jseq s = some e ∧ e.state = .pending ∧ e.doneWait = false ∧ s.pair.lead = true ∧ attached s = false ∧ s.pair.state ≠ .syncing ∧ r.trays &&& s.ket.trip = 0) :=
  ⟨⟨{ run with ket.src := [(32, { wet := true, latch := true, clear := none })] }, 32, by decide +kernel⟩,
    ⟨entry 0x0200 (leBytes 8 0x8000), { due 0x0200 (leBytes 8 0x8000) with now := 60000000, ket.trip := 0x8000, ket.causes := [(15, 1)] }, 15, by constructor <;> decide +kernel, by decide +kernel⟩,
    ⟨entry 0x0200 (leBytes 8 0x8000), { due 0x0200 (leBytes 8 0x8000) with now := 59999999, ket.trip := 0x8000, ket.causes := [(15, 1)] }, 15, by constructor <;> decide +kernel, by decide +kernel⟩,
    ⟨{ due 0x0200 (leBytes 8 1) with ket.release := [{ jseq := 1, trays := 1, stop := 9 }] }, { jseq := 1, trays := 1, stop := 9 }, [], entry 0x0200 (leBytes 8 1), by decide +kernel⟩⟩

theorem witness_LeakConditionsComplete :
    (∃ (s : State) (n : Fin 16) (d : Nat), s.keep.por = false ∧ routeEnable s.ket.route n.val = true ∧ (leakOf s n.val).wet = true ∧ (leakOf s n.val).measAt = some d) ∧
    (∃ (s : State) (n : Fin 16) (va vb vs d : Nat), (leakOf s n.val).meas = some d ∧ (leakOf s n.val).hold = none ∧ vb < va ∧ vs ≤ va ∧ s.afe.asks = [] ∧ (va - vs) * ropeLen s.ket.route n.val % (va - vb) = 0 ∧ (va - vs) * ropeLen s.ket.route n.val / (va - vb) < 65536) ∧
    (∃ (s : State) (src : Fin 33) (d : Nat), s.keep.por = false ∧ s.keep.tenRead = true ∧ (leakOf s src.val).since = some d ∧ (leakOf s src.val).stuck = false) ∧
    (∃ (s : State) (src : Fin 33), s.keep.por = false ∧ s.keep.tenRead = true ∧ routeEnable s.ket.route src.val = true ∧ (leakOf s src.val).chat = false ∧ 8 < transitions s src.val ∧ (leakOf s src.val).masked = false ∧ leakActive s.ket.route src.val (leakOf s src.val) = false) ∧
    (∃ (s : State) (src : Fin 33), s.keep.por = false ∧ s.keep.tenRead = true ∧ src.val ≠ 32 ∧ routeEnable s.ket.route src.val = true ∧ (leakOf s src.val).open_ = false ∧ routeOpenAct s.ket.route src.val = false) ∧
    (∃ (s : State) (src : Fin 33), s.keep.por = false ∧ src.val ≠ 32 ∧ routeEnable s.ket.route src.val = true ∧ (leakOf s src.val).open_ = false ∧ routeOpenAct s.ket.route src.val = true ∧ (leakOf s src.val).masked = false ∧ leakActive s.ket.route src.val (leakOf s src.val) = false) ∧
    (∃ (s : State) (src : Fin 33) (d : Nat), s.keep.por = false ∧ (leakOf s src.val).clear = some d ∧ (leakOf s src.val).stuck = true) ∧
    (∃ (s : State) (src : Fin 33), s.keep.por = false ∧ (leakOf s src.val).chat = true) ∧
    (∃ (s : State) (src : Fin 33), s.keep.por = false ∧ (leakOf s src.val).open_ = true) :=
  ⟨⟨{ run with ket.src := [(15, { wet := true, measAt := some 6 })] }, 15, 6, by decide +kernel⟩,
    ⟨{ run with ket.src := [(15, { meas := some 6 })] }, 15, 3, 1, 1, 6, by decide +kernel⟩,
    ⟨{ run with ket.src := [(32, { wet := true, since := some 6 })] }, 32, 6, by decide +kernel⟩,
    ⟨{ run with ket.src := [(32, { trans := [0, 0, 0, 0, 0, 0, 0, 0, 0] })] }, 32, by decide +kernel⟩,
    ⟨{ run with ket.route := some (put (List.replicate 256 0) 0x50 4 0x6000) }, 0, by decide +kernel⟩,
    ⟨run, 31, by decide +kernel⟩,
    ⟨{ run with ket.src := [(32, { stuck := true })] }, 32, 0, by decide +kernel⟩,
    ⟨{ run with ket.src := [(32, { chat := true })] }, 32, by decide +kernel⟩,
    ⟨{ run with ket.src := [(31, { open_ := true })] }, 31, by decide +kernel⟩⟩

theorem witness_ProofStepsComplete :
    (∃ (e : JEntry) (s : State), EffectDue e s ∧ e.op = 0x0203 ∧ (proofSources s.ket.route e.body).isEmpty = false) ∧
    (∃ (s : State) (p : Proof) (ps : List Proof) (passed : Bool), s.ket.proof = p :: ps ∧ 1 < p.left.length) ∧
    (∃ (s : State) (p : Proof) (ps : List Proof) (n : Nat) (e : JEntry), s.ket.proof = p :: ps ∧ p.left = [n] ∧ p.fail = [] ∧ findEntry p.jseq s = some e ∧ e.state = .pending ∧ e.doneWait = false ∧ s.pair.lead = true ∧ attached s = false ∧ s.pair.state ≠ .syncing) ∧
    (∃ (s : State) (p : Proof) (ps : List Proof) (n : Nat) (e : JEntry), s.ket.proof = p :: ps ∧ p.left = [n] ∧ findEntry p.jseq s = some e ∧ e.state = .pending ∧ e.doneWait = false ∧ s.pair.lead = true ∧ attached s = false ∧ s.pair.state ≠ .syncing) :=
  ⟨⟨entry 0x0203 (leBytes 8 0), due 0x0203 (leBytes 8 0), by constructor <;> decide +kernel, by decide +kernel⟩,
    ⟨{ run with ket.proof := [{ jseq := 1, left := [0, 31], next := 9 }] }, { jseq := 1, left := [0, 31], next := 9 }, [], true, by decide +kernel⟩,
    ⟨{ due 0x0203 (leBytes 8 0) with ket.proof := [{ jseq := 1, left := [31], next := 9 }] }, { jseq := 1, left := [31], next := 9 }, [], 31, entry 0x0203 (leBytes 8 0), by decide +kernel⟩,
    ⟨{ due 0x0203 (leBytes 8 0) with ket.proof := [{ jseq := 1, left := [32], next := 9 }] }, { jseq := 1, left := [32], next := 9 }, [], 32, entry 0x0203 (leBytes 8 0), by decide +kernel⟩⟩

theorem witness_RingFormsAndKeepsTime :
    (∃ (s : State), inserted s = true) ∧
    (∃ (s : State) (f : FrameHdr) (e : FormEntry), Comes f s ∧ s.spn.formed = false ∧ s.spn.census.find e.serial.toNat = none) ∧
    (∃ (s : State) (f : FrameHdr) (e : FormEntry), running s = true ∧ (laneOf s f.lane).up = true ∧ f.sound = true ∧ f.lane.val < 2 ∧ f.src.toNat = nodeAddr s ∧ e.serial ≠ s.otp.serial ∧ seenBefore s f = false ∧ s.spn.formed = false ∧ s.spn.census.find e.serial.toNat = none) ∧
    (∃ (s : State) (f : FrameHdr) (e : FormEntry), Comes f s ∧ s.spn.formed = true ∧ s.spn.census.find e.serial.toNat = none ∧ censusCheck true (e :: censusAll s) ≠ 0) ∧
    (∃ (s : State) (serial : DWord) (c : Census), running s = true ∧ serial ≠ s.otp.serial ∧ s.spn.census.find serial.toNat = some c) ∧
    (∃ (s : State), inserted s = true ∧ s.spn.settled = false ∧ censusCheck s.spn.formed (censusAll s) = 0 ∧ acting s = true ∧ s.spn.offArc = false ∧ atMaster s = true) ∧
    (∃ (s : State), inserted s = true ∧ s.spn.settled = false ∧ s.spn.formed = false ∧ censusCheck false (censusAll s) ≠ 0) ∧
    (∃ (s : State) (f : FrameHdr) (gen digest : Word) (first : DWord), Comes f s ∧ s.spn.formed = false ∧ censusCheck (gen.toNat != 0) (censusAll s) = 0) ∧
    (∃ (s : State), isMaster s = true ∧ inserted s = true) ∧
    (∃ (s : State) (f : FrameHdr) (p : TimePayload), Comes f s ∧ s.spn.formed = true ∧ isMaster s = false) ∧
    (∃ (s : State), running s = true ∧ s.spn.formed = true ∧ s.spn.offArc = false ∧ isMaster s = false) ∧
    (∃ (s : State) (d : Nat), running s = true ∧ s.spn.formed = true ∧ s.spn.offArc = true ∧ s.spn.timeFrom = some d ∧ max s.now (d + 1000000) ≤ s.spn.timeAt + 5000) ∧
    (∃ (s : State), running s = true ∧ s.spn.formed = true ∧ s.spn.offArc = true ∧ s.spn.timeFrom = none) ∧
    (∃ (s : State) (n : Fin 4), running s = true ∧ s.spn.lref = true ∧ (laneOf s n.val).up = true) ∧
    (∃ (s : State) (f : FrameHdr) (rtt : Nat), echoLane s f.lane.val = true ∧ f.sound = true) :=
  ⟨⟨run, by decide +kernel⟩,
    ⟨run, ringFrame, { serial := 3 }, by constructor <;> decide +kernel, by decide +kernel⟩,
    ⟨{ run with pwr.straps.masterSel := true }, { ringFrame with src := 0 }, { serial := 3 }, by decide +kernel⟩,
    ⟨{ run with spn.formed := true }, ringFrame, { serial := 3, iflevel := 0x0200 }, by constructor <;> decide +kernel, by decide +kernel⟩,
    ⟨{ run with spn.census := [(3, { entry := { serial := 3, pos := 2, lead := true } })], lv.demands := [(2, (0, { pos := 2 }))] }, 3, { entry := { serial := 3, pos := 2, lead := true } }, by decide +kernel⟩,
    ⟨{ run with pwr.straps.masterSel := true }, by decide +kernel⟩,
    ⟨run, by decide +kernel⟩,
    ⟨{ run with pwr.straps.masterSel := true }, ringFrame, 0, 0, 0, by constructor <;> decide +kernel, by decide +kernel⟩,
    ⟨{ run with pwr.straps.masterSel := true, spn.formed := true }, by decide +kernel⟩,
    ⟨{ run with spn.formed := true }, ringFrame, ⟨1000, 0, 1, 0, 1, 3⟩, by constructor <;> decide +kernel, by decide +kernel⟩,
    ⟨{ run with spn.formed := true }, by decide +kernel⟩,
    ⟨{ run with spn.formed := true, spn.offArc := true, spn.timeFrom := some 0, spn.timeAt := 998000 }, 0, by decide +kernel⟩,
    ⟨{ run with spn.formed := true, spn.offArc := true }, by decide +kernel⟩,
    ⟨run, 3, by decide +kernel⟩,
    ⟨run, { ringFrame with src := 0 }, 9, by decide +kernel⟩⟩

theorem witness_RowTrafficCompletes :
    (∃ (s : State), acting s = true ∧ inserted s = true) ∧
    (∃ (s : State) (f : FrameHdr) (trips : Half) (leaks folio : Word), Comes f s) ∧
    (∃ (s : State) (f : FrameHdr) (a : Fin 32) (west : Bool), Comes f s) ∧
    (∃ (s : State) (f : FrameHdr) (d : Demand), Comes f s ∧ isMaster s = true ∧ onArc s d.pos.toNat = true) ∧
    (∃ (s : State) (f : FrameHdr) (d : Demand), Comes f s ∧ (isMaster s = false ∨ onArc s d.pos.toNat = false)) ∧
    (∃ (s : State) (f : FrameHdr) (data : Bytes) (m : Nat), Comes f s ∧ m = (if 2 ≤ f.lane.val then 4 else 5) ∧ f.last = true ∧ s.spn.relayRx.find (256 * (f.lane.val / 2) + f.src.toNat) = none ∧ s.spn.relayBuf.get [] (256 * (f.lane.val / 2) + f.src.toNat) = [] ∧ s.spn.asked.contains (BitVec.ofNat 64 (fld data 8 8)) = false ∧ (mbxOf s m).busy = false) ∧
    (∃ (s : State) (k : Nat), s.spn.relayAck = [k] ∧ k < 256 ∧ inserted s = true) ∧
    (∃ (s : State) (k : Nat), s.spn.relayAck = [k] ∧ 256 ≤ k ∧ pairUp s = true) ∧
    (∃ (s : State) (f : FrameHdr) (k : Word), Comes f s ∧ s.pair.syncSeq = 0) ∧
    (∃ (s : State) (x : RelayTx), s.spn.relayTx = [x] ∧ running s = true ∧ (if x.pair then pairUp s else inserted s) = true) :=
  ⟨⟨run, by decide +kernel⟩,
    ⟨{ run with spn.census := [(3, { entry := { serial := 3, pos := 2, brd := true } })] }, ringFrame, 1, 0, 0, by constructor <;> decide +kernel⟩,
    ⟨run, ringFrame, 31, true, by constructor <;> decide +kernel⟩,
    ⟨{ run with pwr.straps.masterSel := true, spn.formed := true, spn.census := [(3, { entry := { serial := 3, pos := 2, lead := true } })] }, { ringFrame with dst := 0xFE }, { pos := 2 }, by constructor <;> decide +kernel, by decide +kernel⟩,
    ⟨{ run with pwr.straps.masterSel := true, spn.formed := true }, { ringFrame with dst := 0xFE }, { pos := 2 }, by constructor <;> decide +kernel, by decide +kernel⟩,
    ⟨run, { ringFrame with dst := 0 }, List.replicate 40 0, 5, by constructor <;> decide +kernel, by decide +kernel⟩,
    ⟨{ run with spn.relayAck := [255] }, 255, by decide +kernel⟩,
    ⟨{ run with spn.relayAck := [256] }, 256, by decide +kernel⟩,
    ⟨{ run with spn.relayTx := [{ fseq := 3, dst := 5 }] }, { ringFrame with dst := 0 }, 3, by constructor <;> decide +kernel, by decide +kernel⟩,
    ⟨{ run with spn.relayTx := [{ fseq := 3, dst := 5 }] }, { fseq := 3, dst := 5 }, by decide +kernel⟩⟩

theorem witness_PortsAreInsertedAndBypassed :
    (∃ (s : State), running s = true ∧ s.spn.lref = true ∧ s.spn.insert = .out ∧ s.spn.retryAt = none) ∧
    (∃ (s : State) (d : Nat), s.spn.insertAt = some d) ∧
    (∃ (s : State) (d : Nat), s.spn.retryAt = some d ∧ running s = true ∧ s.spn.lref = true) ∧
    (∃ (s : State), s.spn.lref = true ∧ running s = true) ∧
    (∃ (s : State), s.spn.lref = false ∧ running s = true ∧ s.spn.insert = .out) ∧
    (∃ (s : State) (n : Fin 4), running s = true ∧ (laneOf s n.val).up = true ∧ n.val < 2) ∧
    (∃ (s : State) (n : Fin 4), running s = true ∧ (laneOf s n.val).up = true ∧ 2 ≤ n.val) ∧
    (∃ (s : State) (n : Fin 4), (laneOf s n.val).up = false ∧ (laneOf s n.val).echo = false) ∧
    (∃ (s : State) (n : Fin 4), running s = true ∧ s.spn.lref = true ∧ (laneOf s n.val).up = false ∧ (laneOf s n.val).echo = true) :=
  ⟨⟨{ run with spn.insert := .out }, by decide +kernel⟩,
    ⟨{ run with spn.insert := .east, spn.insertAt := some 10000 }, 10000, by decide +kernel⟩,
    ⟨{ run with spn.insert := .out, spn.retryAt := some 1000000 }, 1000000, by decide +kernel⟩,
    ⟨run, by decide +kernel⟩,
    ⟨{ run with spn.lref := false, spn.insert := .out }, by decide +kernel⟩,
    ⟨run, 1, by decide +kernel⟩,
    ⟨run, 2, by decide +kernel⟩,
    ⟨{ run with spn.lanes := [] }, 1, by decide +kernel⟩,
    ⟨{ run with spn.lanes := [(1, { echo := true })], spn.insert := .west }, 1, by decide +kernel⟩⟩

theorem witness_PairRolesFollowHeartbeats :
    (∃ (s : State), pairUp s = true ∧ s.kt.role.isSome = true) ∧
    (∃ (s : State), running s = true ∧ s.kt.role = none ∧ s.pair.heard = false ∧ s.pair.roleAt + 300 ≤ s.now) ∧
    (∃ (s : State) (f : FrameHdr) (h : Heartbeat), Comes f s ∧ 2 ≤ f.lane.val ∧ f.src.toNat / 2 = posOf s ∧ s.pair.mismatch = false ∧ s.kt.partner = some h.serial ∧ s.kt.role.isSome = true ∧ s.pair.heard = true ∧ seqAfter h.hseq.toNat s.pair.hb.hseq.toNat = true ∧ s.pair.state ≠ .absent ∧ s.pair.lead = true ∧ h.lead = false ∧ h.synced = true) ∧
    (∃ (s : State) (f : FrameHdr) (h : Heartbeat), Comes f s ∧ 2 ≤ f.lane.val ∧ f.src.toNat / 2 = posOf s ∧ s.kt.partner = some h.serial ∧ s.kt.role.isSome = true ∧ s.pair.heard = true ∧ seqAfter h.hseq.toNat s.pair.hb.hseq.toNat = true ∧ s.pair.state ≠ .absent ∧ s.pair.lead = false ∧ eligible s = true ∧ h.lead = true ∧ h.fault = true ∧ h.attached = true) ∧
    (∃ (s : State) (f : FrameHdr) (h : Heartbeat), Comes f s ∧ 2 ≤ f.lane.val ∧ f.src.toNat / 2 ≠ posOf s ∧ s.pair.mismatch = false) ∧
    (∃ (s : State), running s = true ∧ s.pair.heard = true ∧ s.pair.mismatch = false ∧ s.pair.heardAt < s.pair.echoAt + 300 ∧ s.pair.lead = true ∧ s.pair.state ≠ .lone ∧ s.pair.state ≠ .syncing ∧ partnerEligible s = true) ∧
    (∃ (s : State), running s = true ∧ s.pair.heard = true ∧ s.pair.mismatch = false ∧ s.pair.heardAt < s.pair.echoAt + 300 ∧ s.pair.lead = false ∧ s.pair.hb.lead = false ∧ s.pair.state = .syncing) ∧
    (∃ (s : State), s.pair.heard = true ∧ s.pair.heardAt < s.pair.echoAt + 300 ∧ s.pair.lead = false ∧ s.pair.hb.lead = true ∧ eligible s = true) ∧
    (∃ (s : State), running s = true ∧ s.pair.heard = true ∧ s.pair.mismatch = false ∧ s.pair.echoAt + 300 ≤ s.pair.heardAt ∧ s.now < s.pair.heardAt + 300 ∧ s.pair.lead = true) ∧
    (∃ (s : State) (d : Nat), s.pair.loneAt = some d ∧ s.pair.state = .lone ∧ s.pair.lead = true) ∧
    (∃ (s : State) (k n : Nat), s.pair.silent = some k ∧ s.pair.silentAt ≠ 0 ∧ acting s = true ∧ s.pair.state ≠ .lone ∧ (∀ t < 16, k ≤ t → mayResume s t = true → isSilent s t = false) ∧ (List.range 16).find? (fun t => k ≤ t && enabled s t && !starting s t && mayResume s t) = some n) :=
  ⟨⟨run, by decide +kernel⟩,
    ⟨{ run with kt.role := none, pair.lead := false, now := 300 }, by decide +kernel⟩,
    ⟨withPartner, pairFrame, { serial := 9, hseq := 1, synced := true }, by constructor <;> decide +kernel, by decide +kernel⟩,
    ⟨{ withPartner with pair.lead := false, pair.partCapdn := some 2 }, pairFrame, { serial := 9, hseq := 1, lead := true, fault := true, attached := true, ten := 1 }, by constructor <;> decide +kernel, by decide +kernel⟩,
    ⟨withPartner, { pairFrame with src := 31 }, {}, by constructor <;> decide +kernel, by decide +kernel⟩,
    ⟨{ withPartner with pair.hb := { synced := true }, pair.echoAt := 10 }, by decide +kernel⟩,
    ⟨{ withPartner with pair.state := .syncing, pair.lead := false, pair.hb := { synced := true }, pair.echoAt := 10 }, by decide +kernel⟩,
    ⟨{ withPartner with pair.heardAt := 299, pair.lead := false, pair.hb := { lead := true } }, by decide +kernel⟩,
    ⟨{ withPartner with pair.heardAt := 300, now := 300 }, by decide +kernel⟩,
    ⟨{ run with pair.loneAt := some 5, pair.state := .lone }, 5, by decide +kernel⟩,
    ⟨{ tray with keep.capdn := 1, pair.silent := some 0, pair.silentAt := 5 }, 0, 0, by decide +kernel⟩⟩

theorem witness_PairTrafficCompletes :
    (∃ (s : State) (f : FrameHdr) (j : Nat) (e : JEntry), Comes f s ∧ findEntry j s = some e ∧ e.state = .tentative ∧ s.jr.dups = [] ∧ e.mbx ≠ 6) ∧
    (∃ (s : State) (f : FrameHdr) (j : Nat) (e : JEntry), Comes f s ∧ findEntry j s = some e ∧ e.state = .pending ∧ e.doneWait = true) ∧
    (∃ (s : State) (j d : Nat) (e : JEntry), s.jr.sentAt.find j = some d ∧ findEntry j s = some e ∧ e.state = .tentative ∧ s.jr.dups = []) ∧
    (∃ (s : State) (f : FrameHdr) (e : JEntry), Comes f s ∧ 2 ≤ f.lane.val ∧ findEntry e.jseq s = none ∧ e.state = .tentative) ∧
    (∃ (s : State) (f : FrameHdr) (l : Lease), Comes f s ∧ s.pair.lead = false) ∧
    (∃ (s : State) (f : FrameHdr) (id : Nat), Comes f s ∧ s.pair.lead = false) ∧
    (∃ (s : State) (f : FrameHdr) (image : Half), Comes f s ∧ s.pair.lead = false ∧ s.ket.imageDue = none ∧ s.keep.tenRead = true) ∧
    (∃ (s : State) (f : FrameHdr) (lines : Half), Comes f s ∧ s.pair.lead = false) ∧
    (∃ (s : State) (d : Nat) (i : Half), s.pair.ackWait = some d ∧ s.pair.state ≠ .lone ∧ s.pair.lead = true ∧ s.pair.tenWait = some i) ∧
    (∃ (s : State) (f : FrameHdr) (ws : List Word) (dg : Digest), Comes f s ∧ s.pair.lead = false) ∧
    (∃ (s : State) (f : FrameHdr) (ls : List Lease), Comes f s ∧ f.last = true ∧ s.pair.lead = false ∧ s.pair.state = .syncing) ∧
    (∃ (s : State) (f : FrameHdr) (es : List JEntry) (high : List (Nat × HighMark)) (j : Nat), Comes f s ∧ f.last = true ∧ s.pair.lead = false ∧ s.pair.state = .syncing) ∧
    (∃ (s : State) (f : FrameHdr) (data : List (Nat × Byte)), Comes f s ∧ f.last = true ∧ s.pair.lead = false ∧ s.pair.state = .syncing) ∧
    (∃ (s : State) (f : FrameHdr) (k : Word), Comes f s ∧ 2 ≤ f.lane.val ∧ s.pair.syncSeq ≠ 0 ∧ seqAfter s.pair.syncLast k.toNat = false) ∧
    (∃ (s : State) (dg : Digest), running s = true ∧ s.pair.lead = false ∧ attached s = true) ∧
    (∃ (s : State) (w : Word), acting s = true ∧ (canOf s 0).down = true ∧ attached s = true) ∧
    (∃ (s : State) (d : Nat) (w : Word), s.can.pairAt = some d ∧ acting s = true ∧ attached s = true ∧ s.can.ans = some w ∧ s.now ≤ s.can.ansAt + 20000 ∧ d + 100000 ≤ s.can.ansAt + 20000 ∧ w.toNat % 256 = 1) ∧
    (∃ (s : State), acting s = true ∧ attached s = true) :=
  ⟨⟨{ withPartner with jr.entries := [{ entry 0x0105 budget with state := .tentative }] }, pairFrame, 1, { entry 0x0105 budget with state := .tentative }, by constructor <;> decide +kernel, by decide +kernel⟩,
    ⟨{ withPartner with jr.entries := [{ entry 0x0105 budget with doneWait := true }] }, pairFrame, 1, { entry 0x0105 budget with doneWait := true }, by constructor <;> decide +kernel, by decide +kernel⟩,
    ⟨{ withPartner with jr.entries := [{ entry 0x0105 budget with state := .tentative }], jr.sentAt := [(1, 7)] }, 1, 7, { entry 0x0105 budget with state := .tentative }, by decide +kernel⟩,
    ⟨shadow, pairFrame, { entry 0x0105 budget with state := .tentative }, by constructor <;> decide +kernel, by decide +kernel⟩,
    ⟨shadow, pairFrame, { id := 4 }, by constructor <;> decide +kernel, by decide +kernel⟩,
    ⟨{ shadow with lv.leases := [{ id := 4 }] }, pairFrame, 4, by constructor <;> decide +kernel, by decide +kernel⟩,
    ⟨shadow, pairFrame, 0x8001, by constructor <;> decide +kernel, by decide +kernel⟩,
    ⟨{ shadow with pair.state := .attached }, pairFrame, 0x8001, by constructor <;> decide +kernel, by decide +kernel⟩,
    ⟨{ withPartner with pair.ackWait := some 500, pair.tenWait := some 1 }, 500, 1, by decide +kernel⟩,
    ⟨shadow, pairFrame, [1], 5, by constructor <;> decide +kernel, by decide +kernel⟩,
    ⟨{ shadow with pair.state := .syncing }, pairFrame, [{ id := 4 }], by constructor <;> decide +kernel, by decide +kernel⟩,
    ⟨{ shadow with pair.state := .syncing }, pairFrame, [entry 0x0105 budget], [], 1, by constructor <;> decide +kernel, by decide +kernel⟩,
    ⟨{ shadow with pair.state := .syncing }, pairFrame, [], by constructor <;> decide +kernel, by decide +kernel⟩,
    ⟨{ withPartner with pair.state := .syncing, pair.syncSeq := 1, pair.syncLast := 9 }, pairFrame, 9, by constructor <;> decide +kernel, by decide +kernel⟩,
    ⟨{ withPartner with pair.lead := false }, 0, by decide +kernel⟩,
    ⟨{ withPartner with can.ch := [(0, { down := true })] }, 1, by decide +kernel⟩,
    ⟨{ withPartner with can.pairAt := some 0, can.ans := some 1, can.ansAt := 80000 }, 0, 1, by decide +kernel⟩,
    ⟨withPartner, by decide +kernel⟩⟩

theorem witness_AnalogCommandsComplete :
    (∃ (s : State) (n : Fin 32) (x : SdInput) (okx : Bool) (g : Nat), fieldOn s = true ∧ (chanOf s n.val).on = true ∧ (chanOf s n.val).ovl = false ∧ (chanOf s n.val).settle = 0 ∧ (chanOf s n.val).faults = 0 ∧ (chanOf s n.val).exc = none ∧ ((chanOf s n.val).fld 7 1).testBit 1 = false ∧ (chanOf s n.val).fld 3 1 = g) ∧
    (∃ (s : State) (n : Fin 32) (x : SdInput) (okx : Bool) (k : Nat), fieldOn s = true ∧ (chanOf s n.val).on = true ∧ (chanOf s n.val).ovl = false ∧ (chanOf s n.val).settle = k + 1) ∧
    (∃ (s : State) (n : Fin 32) (x : SdInput), fieldOn s = true ∧ (chanOf s n.val).on = true ∧ ((chanOf s n.val).fld 7 1).testBit 0 = true) ∧
    (∃ (s : State), fieldOn s = true) ∧
    (∃ (s : State) (d : Nat), fieldOn s = true ∧ s.afe.refOkAt = some d ∧ d + 100000 ≤ s.now) ∧
    (∃ (s : State) (k : Fin 12) (code : Nat), fieldOn s = true ∧ fld (pRec s (k.val / 3)) 0 1 ≠ 0 ∧ (sarData s k.val code * fld (pRec s (k.val / 3)) 14 2).natAbs ≤ 1000 * fld (pRec s (k.val / 3)) 16 2) ∧
    (∃ (s : State) (k : Fin 12) (code : Nat), fld (pRec s (k.val / 3)) 0 1 ≠ 0 ∧ PumpRuns (k.val / 3) s ∧ 1000 * fld (pRec s (k.val / 3)) 16 2 < (sarData s k.val code * fld (pRec s (k.val / 3)) 14 2).natAbs ∧ (pumpOf s (k.val / 3)).high.getD (k.val % 3) 0 = 1) ∧
    (∃ (s : State) (k : Fin 12) (falling : Bool) (period phase : Nat), fieldOn s = true ∧ (chanOf s (44 + k.val)).on = true ∧ (chanOf s (44 + k.val)).minw ≤ phase ∧ falling = ((chanOf s (44 + k.val)).fld 2 1 == 1) ∧ (chanOf s (44 + k.val)).edges ≠ 0) ∧
    (∃ (s : State) (k : Fin 12) (falling : Bool) (period phase : Nat), (phase < (chanOf s (44 + k.val)).minw ∨ falling ≠ ((chanOf s (44 + k.val)).fld 2 1 == 1))) ∧
    (∃ (s : State) (k : Fin 12), fieldOn s = true ∧ (chanOf s (44 + k.val)).on = true ∧ (chanOf s (44 + k.val)).edges ≠ 0) ∧
    (∃ (s : State), fieldOn s = true ∧ s.pwr.store = .on) ∧
    (∃ (s : State) (v : Fin 8) (uV : Nat), fieldOn s = true ∧ (valveOf s v.val).on = true) :=
  ⟨⟨chan 31 {}, 31, { ain := 1000 }, true, 0, by decide +kernel⟩,
    ⟨chan 31 { settle := 1 }, 31, { ain := 1000 }, true, 0, by decide +kernel⟩,
    ⟨{ run with afe.ch := [(31, { live := some [0, 1, 0, 0, 0, 0, 0, 1] })] }, 31, { ain := 1250000000000 }, by decide +kernel⟩,
    ⟨run, by decide +kernel⟩,
    ⟨{ run with now := 100000, afe.refOkAt := some 0, afe.refBad := true }, 0, by decide +kernel⟩,
    ⟨pumps, 0, 2048, by decide +kernel⟩,
    ⟨{ pumps with drv.pumps := [(0, { st := .running, high := [1, 0, 0] })] }, 0, 4095, by decide +kernel, by constructor <;> decide +kernel, by decide +kernel⟩,
    ⟨chan 55 { edges := 1 }, 11, false, 9999, 9999, by decide +kernel⟩,
    ⟨chan 55 { edges := 1 }, 11, true, 9999, 9999, by decide +kernel⟩,
    ⟨chan 55 { edges := 1 }, 11, by decide +kernel⟩,
    ⟨run, by decide +kernel⟩,
    ⟨{ run with drv.valves := [(7, { on := true })] }, 7, 1000, by decide +kernel⟩⟩

theorem witness_PumpCommandsComplete :
    (∃ (s : State) (n : Fin 4) (rotor : Nat), fieldOn s = true ∧ (pumpOf s n.val).driven = true) ∧
    (∃ (s : State) (n : Fin 4) (speed : Int), fieldOn s = true ∧ fld (pRec s n.val) 0 1 ≠ 0) ∧
    (∃ (s : State) (n : Fin 4) (d : Nat), (pumpOf s n.val).alignTo = some d) ∧
    (∃ (s : State) (n : Fin 4), fieldOn s = true ∧ fld (pRec s n.val) 0 1 ≠ 0) ∧
    (∃ (s : State) (n : Fin 4), PumpRuns n.val s) ∧
    (∃ (s : State) (n : Fin 4) (d : Nat), PumpRuns n.val s ∧ (pumpOf s n.val).stallAt = some d) ∧
    (∃ (s : State) (n : Fin 4), PumpRuns n.val s) ∧
    (∃ (s : State) (n : Fin 4) (d : Nat), PumpRuns n.val s ∧ (pumpOf s n.val).overAt = some d) ∧
    (∃ (s : State) (n : Fin 4) (d : Nat), (pumpOf s n.val).st = .retry ∧ (pumpOf s n.val).retryAt = some d ∧ restartWaits n.val s = false ∧ running s = false ∧ s.drv.fired = false) :=
  ⟨⟨pumps, 0, 1, by decide +kernel⟩,
    ⟨pumps, 0, 9, by decide +kernel⟩,
    ⟨{ pumps with drv.pumps := [(0, { st := .running, alignTo := some 500000 })] }, 0, 500000, by decide +kernel⟩,
    ⟨pumps, 0, by decide +kernel⟩,
    ⟨{ pumps with drv.pumps := [(0, { st := .running, faults := [0, 0, 0] })] }, 0, by constructor <;> decide +kernel⟩,
    ⟨{ pumps with drv.pumps := [(0, { st := .running, stallAt := some 5 })] }, 0, 5, by constructor <;> decide +kernel, by decide +kernel⟩,
    ⟨{ pumps with drv.pumps := [(0, { st := .running, faults := [0, 0, 0] })] }, 0, by constructor <;> decide +kernel⟩,
    ⟨{ pumps with drv.pumps := [(0, { st := .running, overAt := some 5 })] }, 0, 5, by constructor <;> decide +kernel, by decide +kernel⟩,
    ⟨{ pumps with boot.state := .wait, drv.pumps := [(0, { st := .retry, retryAt := some 1000000 })] }, 0, 1000000, by decide +kernel⟩⟩

theorem witness_DriveCommandsComplete :
    (∃ (s : State), fieldOn s = true) ∧
    (∃ (s : State) (n d : Nat), n < 4 ∧ (pumpOf s n).lowAt = some d ∧ (pumpOf s n).late = false) ∧
    (∃ (s : State) (n d : Nat), n < 8 ∧ (fanOf s n).lowAt = some d ∧ (fanOf s n).late = false) ∧
    (∃ (s : State) (n : Fin 8) (d : Nat), (fanOf s n.val).hotAt = some d ∧ (fanOf s n.val).stalled = false) ∧
    (∃ (s : State) (v : Fin 8) (d : Nat) (set : Bool), (valveOf s v.val).openAt = some d ∧ (valveOf s v.val).opn = !set) ∧
    (∃ (s : State) (v : Fin 8) (d : Nat) (set : Bool), (valveOf s v.val).errAt = some d ∧ (valveOf s v.val).err = !set) ∧
    (∃ (s : State) (fan : Bool) (i : Fin 8) (l : BelowLease), belowOf s (if fan then 4 + i.val else i.val) = some l) ∧
    (∃ (s : State), running s = true ∧ fieldOn s = true) ∧
    (∃ (s : State), running s = true ∧ fieldOn s = true ∧ s.drv.beat.isSome = true) ∧
    (∃ (s : State) (d : Nat), s.drv.beat = some d ∧ s.drv.fired = false ∧ s.drv.leases = []) :=
  ⟨⟨run, by decide +kernel⟩,
    ⟨{ pumps with drv.pumps := [(3, { lowAt := some 5 })] }, 3, 5, by decide +kernel⟩,
    ⟨{ pumps with drv.fans := [(7, { lowAt := some 5 })] }, 7, 5, by decide +kernel⟩,
    ⟨{ pumps with drv.fans := [(7, { hotAt := some 5 })] }, 7, 5, by decide +kernel⟩,
    ⟨{ pumps with drv.valves := [(7, { openAt := some 5 })] }, 7, 5, true, by decide +kernel⟩,
    ⟨{ pumps with drv.valves := [(7, { errAt := some 5 })] }, 7, 5, true, by decide +kernel⟩,
    ⟨{ pumps with drv.leases := [{ elem := 11, stop := 5 }] }, true, 7, { elem := 11, stop := 5 }, by decide +kernel⟩,
    ⟨run, by decide +kernel⟩,
    ⟨{ pumps with drv.beat := some 5, drv.fired := true }, by decide +kernel⟩,
    ⟨{ pumps with drv.beat := some 5 }, 5, by decide +kernel⟩⟩

theorem witness_ValvesTakeTheirDefaults :
    ∃ (s : State), s.pwr.field = .reset :=
  ⟨{ run with pwr.field := .reset, otp.valves := [(7, 10000)] }, by decide +kernel⟩

theorem witness_CanCommandsComplete :
    (∃ (s : State) (c : Fin 4) (f : CanFrame) (ago : Nat) (e : Bytes), fieldOn s = true ∧ (canOf s c.val).hears = true ∧ f.rtr = false ∧ (isProfile s c.val && isProfileFrame f) = false ∧ canFlag (cfgOf s c.val).1 4 = false ∧ lowestTaker f ((List.range (memCount (cfgOf s c.val).2)).map (memEntry (cfgOf s c.val).2)) = some e ∧ (canOf s c.val).rx.any (fun x => x.obj == fld e 0 1) = false) ∧
    (∃ (s : State) (c : Fin 4) (m ago : Nat) (f : TxFrame), fieldOn s = true ∧ firstTx ((canOf s c.val).tx.filter (mayTx s c.val)) = some f ∧ (canOf s c.val).busOff = false ∧ ((canOf s c.val).st = .active ∨ (canOf s c.val).st = .passive ∨ (canOf s c.val).st = .down)) ∧
    (∃ (s : State) (c : Fin 4) (i d : Nat), (canOf s c.val).due.find i = some d ∧ sendsUser s = true ∧ (canOf s c.val).joins = true ∧ (canOf s c.val).tx.any (fun f => f.key == fld (memEntry (cfgOf s c.val).2 i) 0 1) = false) ∧
    (∃ (s : State) (c : Fin 4), running s = true ∧ canFlag (cfgOf s c.val).1 5 = true ∧ (canOf s c.val).joins = true) ∧
    (∃ (s : State) (c : Fin 4) (id : BitVec 29) (n : Nat), acting s = true ∧ canFlag (cfgOf s c.val).1 5 = true ∧ (canOf s c.val).hears = true ∧ id.toNat / 2 ^ 18 < fld (cfgOf s c.val).1 16 2) ∧
    (∃ (s : State) (c : Fin 4) (d : Nat), (canOf s c.val).yieldAt = some d) ∧
    (∃ (s : State) (c : Fin 4) (v : Bool), (canOf s c.val).joins = true ∧ (canOf s c.val).busOff = false ∧ (canOf s c.val).passive = !v) ∧
    (∃ (s : State) (c : Fin 4), fieldOn s = true ∧ (canOf s c.val).joins = true ∧ (canOf s c.val).busOff = false ∧ (canOf s c.val).lastRec = none) ∧
    (∃ (s : State) (c : Fin 4) (d : Nat), running s = true ∧ (canOf s c.val).reqAt = some d) ∧
    (∃ (s : State) (c : Fin 4) (d : Nat), (canOf s c.val).recAt = some d) ∧
    (∃ (s : State) (c : Fin 4) (d : Nat), (canOf s c.val).lastRec = some d ∧ (canOf s c.val).busOff = false) ∧
    (∃ (s : State) (c : Fin 2) (w : Nat), detectorOn s c.val = true ∧ 5 ≤ w ∧ w ≤ 5000 ∧ s.can.wakeOff.get 0 c.val ≤ s.now ∧ s.keep.wake.length < 64) ∧
    (∃ (s : State) (c : Fin 4), (canOf s c.val).st = .listen) :=
  ⟨⟨can 0 { st := .active }, 0, {}, 0, memEntry ((canTab 0).get ([], []) 0).2 0, by decide +kernel⟩,
    ⟨can 0 { st := .down, down := true, tx := [{ key := 201 }] }, 0, 0, 0, { key := 201 }, by decide +kernel⟩,
    ⟨can 0 { st := .active, due := [(0, 9)] }, 0, 0, 9, by decide +kernel⟩,
    ⟨can 0x20 { st := .active, cycle := 63 }, 0, by decide +kernel⟩,
    ⟨can 0x20 { st := .active }, 0, 0x180000, 0, by decide +kernel⟩,
    ⟨can 0 { st := .active, yieldAt := some 5 }, 0, 5, by decide +kernel⟩,
    ⟨can 0 { st := .listen }, 0, true, by decide +kernel⟩,
    ⟨can 0 { st := .active }, 0, by decide +kernel⟩,
    ⟨can 0 { st := .down, busOff := true, reqAt := some 5 }, 0, 5, by decide +kernel⟩,
    ⟨can 0 { st := .down, busOff := true, recAt := some 5 }, 0, 5, by decide +kernel⟩,
    ⟨can 0 { st := .active, lastRec := some 5 }, 0, 5, by decide +kernel⟩,
    ⟨run, 1, 5000, by decide +kernel⟩,
    ⟨can 0 { st := .listen }, 0, by decide +kernel⟩⟩

theorem witness_ActuatorCommandsComplete :
    (∃ (s : State) (c : Fin 4) (a ago : Nat) (st : ActStatus), running s = true ∧ (canOf s c.val).hears = true ∧ isProfile s c.val = true ∧ actCfg s a ≠ []) ∧
    (∃ (s : State) (c : Fin 4) (a ago : Nat) (st : ActStatus), running s = true ∧ (canOf s c.val).st = .listen ∧ isProfile s c.val = true ∧ actCfg s a = [] ∧ c.val < 2 ∧ s.kt.actEpoch < st.highEpoch.toNat ∧ s.pair.lead = true) ∧
    (∃ (s : State) (c : Fin 4) (pos : BitVec 4) (e : Word), running s = true ∧ (canOf s c.val).hears = true ∧ isProfile s c.val = true ∧ pos.toNat = posOf s ∧ c.val < 2 ∧ s.kt.actEpoch < e.toNat ∧ s.pair.lead = true) ∧
    (∃ (s : State) (c : Fin 4) (pos : BitVec 4) (e : Word), running s = true ∧ (canOf s c.val).hears = true ∧ isProfile s c.val = true ∧ pos.toNat = posOf s ∧ c.val < 2 ∧ s.kt.actEpoch < e.toNat ∧ s.pair.lead = false) ∧
    (∃ (s : State), sendsField s = true) ∧
    (∃ (s : State) (k : Nat), s.pair.burst = k + 1) ∧
    (∃ (s : State) (a : Nat), running s = true ∧ actOn (actCfg s a) = true ∧ (actOf s a).silent = false) ∧
    (∃ (s : State) (a j d : Nat), (actOf s a).wait = some (j, d)) :=
  ⟨⟨{ can 8 { st := .active } with kt.actCfg := [(62, [0, 0, 0, 0])] }, 0, 62, 3, { kind := 1 }, by decide +kernel⟩,
    ⟨can 8 { st := .listen }, 0, 62, 0, { highEpoch := 1 }, by decide +kernel⟩,
    ⟨can 8 { st := .active }, 0, 0, 1, by decide +kernel⟩,
    ⟨{ can 8 { st := .active } with pair.lead := false }, 0, 0, 1, by decide +kernel⟩,
    ⟨run, by decide +kernel⟩,
    ⟨{ run with pair.burst := 1 }, 0, by decide +kernel⟩,
    ⟨{ run with kt.actCfg := [(62, [0, 0, 0, 1])] }, 62, by decide +kernel⟩,
    ⟨{ run with can.act := [(62, { wait := some (1, 9) })] }, 62, 1, 9, by decide +kernel⟩⟩

theorem witness_DataDescriptorsStoreTheirElements :
    ∃ (i : Instr) (op q c : Nat) (ecc : EccHit) (s u : State) (p : Prog) (d : Desc), dataOp i = some (op, q, c, ecc) ∧ Passes q c ecc p d s u ∧ d.opn = op :=
  ⟨.add 0 0 .ok, 0x20, 0, 0, .ok, quire (desc 0x20), quire (desc 0x20), prog (desc 0x20), desc 0x20, by decide +kernel, by constructor <;> decide +kernel, by decide +kernel⟩

theorem witness_ControlDescriptorsComplete :
    (∃ (q : Fin 64) (c : Fin 4) (ecc : EccHit) (s u : State) (p : Prog) (d : Desc), Passes q.val c.val ecc p d s u ∧ d.opn = 0x00) ∧
    (∃ (q : Fin 64) (c : Fin 4) (ecc : EccHit) (s u : State) (p : Prog) (d : Desc), Passes q.val c.val ecc p d s u ∧ d.opn = 0x01) ∧
    (∃ (q : Fin 64) (c : Fin 4) (ecc : EccHit) (s u : State) (p : Prog) (d : Desc), Passes q.val c.val ecc p d s u ∧ d.opn = 0x02) ∧
    (∃ (q : Fin 64) (c : Fin 4) (ecc : EccHit) (s u : State) (p : Prog) (d : Desc), Passes q.val c.val ecc p d s u ∧ d.opn = 0x03) ∧
    (∃ (q : Fin 64) (c : Fin 4) (ecc : EccHit) (s u : State) (p : Prog) (d : Desc), Passes q.val c.val ecc p d s u ∧ d.opn = 0x04) ∧
    (∃ (q : Fin 64) (c : Fin 4) (ecc : EccHit) (s u : State) (p : Prog) (d : Desc), Passes q.val c.val ecc p d s u ∧ d.opn = 0x05) ∧
    (∃ (q : Fin 64) (c : Fin 4) (ecc : EccHit) (s u : State) (p : Prog) (d : Desc), Passes q.val c.val ecc p d s u ∧ d.opn = 0x14 ∧ queueFault u p q.val (4 * q.val + c.val) true d.queue.toNat = none ∧ d.rows = 1 ∧ (coreOf s (4 * q.val + c.val)).moved = 0 ∧ (s.qre.queues.get [] d.queue.toNat).length < 16) ∧
    (∃ (q : Fin 64) (c : Fin 4) (ecc : EccHit) (s u : State) (p : Prog) (d : Desc), Passes q.val c.val ecc p d s u ∧ d.opn = 0x14 ∧ queueFault u p q.val (4 * q.val + c.val) true d.queue.toNat = none ∧ d.rows = 1 ∧ (coreOf s (4 * q.val + c.val)).moved = 0 ∧ (coreOf s (4 * q.val + c.val)).stalled = true ∧ (s.qre.queues.get [] d.queue.toNat).length < 16) ∧
    (∃ (q : Fin 64) (c : Fin 4) (ecc : EccHit) (s u : State) (p : Prog) (d : Desc), Passes q.val c.val ecc p d s u ∧ d.opn = 0x14 ∧ queueFault u p q.val (4 * q.val + c.val) true d.queue.toNat = none ∧ d.rows = 1 ∧ d.cols = 1 ∧ (coreOf s (4 * q.val + c.val)).moved = 0 ∧ 256 ≤ (s.qre.queues.get [] d.queue.toNat).length) ∧
    (∃ (q : Fin 64) (c : Fin 4) (ecc : EccHit) (s u : State) (p : Prog) (d : Desc) (b : Bytes) (bs : List Bytes), Passes q.val c.val ecc p d s u ∧ d.opn = 0x15 ∧ queueFault u p q.val (4 * q.val + c.val) false d.queue.toNat = none ∧ d.rows = 1 ∧ (coreOf s (4 * q.val + c.val)).moved = 0 ∧ s.qre.queues.get [] d.queue.toNat = b :: bs) ∧
    (∃ (q : Fin 64) (c : Fin 4) (ecc : EccHit) (s u : State) (p : Prog) (d : Desc), Passes q.val c.val ecc p d s u ∧ 6 ≤ d.opn ∧ d.opn ≠ 0x14 ∧ d.opn ≠ 0x15 ∧ oAddr (d.opnd 0) = 0x400020000 ∧ d.writes s.mem = [(0x400020000, 4, (1, []))]) ∧
    (∃ (q : Fin 64) (c : Fin 4) (s : State) (p : Prog) (d : Desc), current s (4 * q.val + c.val) = some (p, d) ∧ waitFault s p (4 * q.val + c.val) d = none ∧ d.wait.getLsbD 15 = true ∧ (coreOf s (4 * q.val + c.val)).waited = false ∧ s.qre.flags.get false (q.val * 256 + d.wait.toNat % 256) = true) :=
  ⟨⟨0, 0, .ok, quire (desc 0), quire (desc 0), prog (desc 0), desc 0, by constructor <;> decide +kernel, by decide +kernel⟩,
    ⟨0, 0, .ok, quire (desc 1), quire (desc 1), prog (desc 1), desc 1, by constructor <;> decide +kernel, by decide +kernel⟩,
    ⟨0, 0, .ok, quire (desc 2), quire (desc 2), prog (desc 2), desc 2, by constructor <;> decide +kernel, by decide +kernel⟩,
    ⟨0, 0, .ok, quire (desc 3), quire (desc 3), prog (desc 3), desc 3, by constructor <;> decide +kernel, by decide +kernel⟩,
    ⟨0, 0, .ok, quire (desc 4), quire (desc 4), prog (desc 4), desc 4, by constructor <;> decide +kernel, by decide +kernel⟩,
    ⟨0, 0, .ok, quire (desc 5), quire (desc 5), prog (desc 5), desc 5, by constructor <;> decide +kernel, by decide +kernel⟩,
    ⟨0, 0, .ok, quire (desc 0x14), quire (desc 0x14), prog (desc 0x14), desc 0x14, by constructor <;> decide +kernel, by decide +kernel⟩,
    ⟨0, 0, .ok, { quire (desc 0x14) with qre.cores := [(0, { st := .running, stalled := true })] }, { quire (desc 0x14) with qre.cores := [(0, { st := .running, stalled := true })] }, prog (desc 0x14), desc 0x14, by constructor <;> decide +kernel, by decide +kernel⟩,
    ⟨0, 0, .ok, { quire (desc 0x14) with qre.queues := [(0, List.replicate 256 [])] }, { quire (desc 0x14) with qre.queues := [(0, List.replicate 256 [])] }, prog (desc 0x14), desc 0x14, by constructor <;> decide +kernel, by decide +kernel⟩,
    ⟨0, 0, .ok, { quire (desc 0x15) with qre.queues := [(0, [[1]])] }, { quire (desc 0x15) with qre.queues := [(0, [[1]])] }, prog (desc 0x15), desc 0x15, [1], [], by constructor <;> decide +kernel, by decide +kernel⟩,
    ⟨0, 0, .ok, quireDone, quireDone, progDone, fillDone, by constructor <;> decide +kernel, by decide +kernel⟩,
    ⟨0, 0, { quire waits with qre.flags := [(3, true)] }, prog waits, waits, by decide +kernel⟩⟩

theorem witness_QuireFaultsStopTheProgram :
    ∃ (i : Instr) (op q c : Nat) (ecc : EccHit) (s : State) (p : Prog) (d : Desc) (f : QFault), dataOp i = some (op, q, c, ecc) ∧ current s (4 * q + c) = some (p, d) ∧ d.opn = op ∧ (ecc = .desc ∨ (d.wait.getLsbD 15 = false ∧ undeclared p.c d (d.accesses s.mem) = some f)) :=
  ⟨.add 0 0 .ok, 0x20, 0, 0, .ok, quire { desc 0x20 with dst := 0x1000000000001000 }, prog { desc 0x20 with dst := 0x1000000000001000 }, { desc 0x20 with dst := 0x1000000000001000 }, { cause := 1, opnd := 1, res := 0, addr := 0x1000 }, by decide +kernel⟩

theorem witness_EpochCommandsComplete :
    (∃ (s : State) (n : Fin 64) (k : Nat) (bad : List Nat), s.pwr.store = .on) ∧
    (∃ (s : State) (j : Nat) (b : Bytes) (ch : Fin 2) (k : Nat), s.qre.train = some j ∧ s.kt.spill = some b ∧ fld b 0 1 = 1) ∧
    (∃ (s : State) (j : Nat) (ch : Fin 2) (k : Nat), s.qre.train = some j) ∧
    (∃ (s : State) (p : PendEpoch), s.ep.pend = some p ∧ p.ready = false ∧ running s = true ∧ s.pwr.store = .on ∧ p.progs.all (halvesUp s) = true ∧ p.progs.all (spillFits s) = true) ∧
    (∃ (s : State) (p : PendEpoch), s.ep.pend = some p ∧ p.ready = false ∧ running s = true ∧ s.ep.later = []) ∧
    (∃ (s : State) (w : PreWork), s.ep.pre = some w ∧ running s = true ∧ s.pwr.store = .on) ∧
    (∃ (s : State) (p : PendEpoch) (as_ : List EpochAnswer), isMaster s = true ∧ s.ep.pend = some p ∧ p.ref.man.mode ≠ 0 ∧ p.redo = false ∧ p.ready = true ∧ p.named = none ∧ (otherParts s p.ref.man).all (readyAt as_ p.ref.num) = true ∧ s.now ≤ p.at_ + 9000000 ∧ s.ep.pollAt + 10000 ≤ p.at_ + 9000000) ∧
    (∃ (s : State) (p : PendEpoch), s.ep.pend = some p ∧ p.ref.man.mode ≠ 0 ∧ p.redo = false ∧ p.named = none ∧ running s = true ∧ s.ep.later = []) ∧
    (∃ (s : State) (e : Nat), exchanging s = true ∧ acting s = true ∧ ownElem s e = true ∧ s.ep.sent.contains e = false ∧ leVal (s.mem.readN (outSlot s e + 36) 4) = s.ep.tick % 2 ^ 32 ∧ s.now ≤ s.ep.tickAt + 780) ∧
    (∃ (s : State) (f : FrameHdr) (part e : Nat) (vals : List Word), Comes f s ∧ exchanging s = true ∧ e < (manOf s).nelem ∧ s.now ≤ s.ep.tickAt + 800 ∧ s.ep.endAt = false) ∧
    (∃ (s : State) (f : FrameHdr) (part tick e : Nat) (vals : List Word), Comes f s ∧ exchanging s = true ∧ e < (manOf s).nelem ∧ tick ≠ s.ep.tick % 2 ^ 32) ∧
    (∃ (s : State), exchanging s = true ∧ s.ep.endAt = false) ∧
    (∃ (s : State) (e : EpochRef), s.ep.cur = some e ∧ running s = true ∧ s.pwr.store = .on) ∧
    (∃ (s : State) (c : Ckpt) (ok : Bool), s.ep.copy = some c ∧ oldSlot s.cat.ckpt < s.cat.ckpt.length) :=
  ⟨⟨run, 63, 1, [0x7E000040], by decide +kernel⟩,
    ⟨{ run with qre.train := some 1, kt.spill := some [1, 0, 4] }, 1, [1, 0, 4], 0, 0, by decide +kernel⟩,
    ⟨{ run with qre.train := some 1, qre.cap := 8 }, 1, 0, 0, by decide +kernel⟩,
    ⟨{ run with pwr.halfA := .idle, ep.pend := some { progs := [prog (desc 0)] } }, { progs := [prog (desc 0)] }, by decide +kernel⟩,
    ⟨{ run with ep.pend := some {} }, {}, by decide +kernel⟩,
    ⟨{ inEpoch with ep.pre := some {}, qre.progs := [prog (desc 0)] }, {}, by decide +kernel⟩,
    ⟨{ run with pwr.straps.masterSel := true, spn.formed := true, ep.pend := some { ref := epoch, ready := true } }, { ref := epoch, ready := true }, [], by decide +kernel⟩,
    ⟨{ run with ep.pend := some { ref := epoch } }, { ref := epoch }, by decide +kernel⟩,
    ⟨{ inEpoch with now := 780 }, 0, by decide +kernel⟩,
    ⟨{ inEpoch with now := 800 }, ringFrame, 0, 0, List.replicate 9 1, by constructor <;> decide +kernel, by decide +kernel⟩,
    ⟨inEpoch, ringFrame, 0, 1, 0, List.replicate 9 1, by constructor <;> decide +kernel, by decide +kernel⟩,
    ⟨inEpoch, by decide +kernel⟩,
    ⟨{ inEpoch with qre.progs := [{ st := .restoring }] }, epoch, by decide +kernel⟩,
    ⟨{ run with ep.copy := some { seq := 1 } }, { seq := 1 }, true, by decide +kernel⟩⟩

set_option maxRecDepth 100000 in
theorem witness_CycleTickCompletes :
    (∃ (s : State), running s = true ∧ (s.ep.ticked = true ∨ startedUp s = true) ∧ s.spn.formed = false) ∧
    (∃ (s : State), running s = true ∧ (s.ep.ticked = true ∨ startedUp s = true) ∧ s.spn.formed = true ∧ s.spn.firstTick = none) ∧
    (∃ (s : State), running s = true ∧ (s.ep.ticked = true ∨ startedUp s = true) ∧ s.spn.formed = false ∧ s.pair.switch = 0 ∧ s.ep.done = true ∧ s.ep.cold = 0 ∧ tableGood (tableBank s) = true) ∧
    (∃ (s : State), running s = true ∧ s.ep.ticked = false ∧ startedUp s = false) :=
  ⟨⟨{ run with ep.ticked := true }, by decide +kernel⟩,
    ⟨{ run with spn.formed := true, drv.beat := some 0, pwr.halfA := .idle, pwr.halfB := .idle }, by decide +kernel⟩,
    ⟨{ run with ep.ticked := true, ep.done := true, mem := goodTable }, by decide +kernel⟩,
    ⟨run, by decide +kernel⟩⟩

set_option maxRecDepth 100000 in
theorem witness_PlannerCommandsComplete :
    (∃ (s : State) (r : Traj) (g : Seg), s.pln.run = some r ∧ running s = true ∧ r.asks = [] ∧ r.segs = [g] ∧ r.started = true ∧ secsFrom r.t0 r.at_ < r.off + g.dur) ∧
    (∃ (s : State) (r : Traj) (g : Seg), s.pln.run = some r ∧ running s = true ∧ r.asks = [] ∧ r.segs = [g] ∧ r.started = true ∧ r.off + g.dur ≤ secsFrom r.t0 r.at_ ∧ aligned s r.at_ = true ∧ r.hold = false) ∧
    (∃ (s : State) (p : PlanJob), s.pln.plan = some p ∧ running s = true ∧ (regSet s).axes ≠ [] ∧ p.ok = false ∧ p.redo = false ∧ segsSpan (jobSegs s p) ≤ 60 ∧ firstHit s (regSet s) p.splice (spanMs (jobSegs s p)) (fun x => segsAt true 0 (jobSegs s p) x) = none ∧ s.pln.lag = false) ∧
    (∃ (s : State) (p : PlanJob) (r : PlanResult) (h : Nat × Nat), s.pln.plan = some p ∧ running s = true ∧ (regSet s).axes ≠ [] ∧ p.ok = false ∧ p.redo = false ∧ segsSpan (jobSegs s p) ≤ 60 ∧ decides s = true ∧ r ≠ .unverified ∧ firstHit s (if r = .refused then near (regSet s) else regSet s) p.splice (spanMs (jobSegs s p)) (fun x => segsAt true 0 (jobSegs s p) x) = some h) ∧
    (∃ (s : State) (p : PlanJob), s.pln.plan = some p ∧ running s = true ∧ (regSet s).axes ≠ [] ∧ p.ok = false ∧ p.redo = false ∧ 60 < segsSpan (jobSegs s p) ∧ decides s = true) ∧
    (∃ (s : State) (p : PlanJob) (h : HoldPath), s.pln.plan = some p ∧ running s = true ∧ decides s = true ∧ p.redo = false ∧ p.ok = true ∧ p.start = jobStart s (regSet s) p ∧ s.pln.hold = some h ∧ h.from_ ≤ s.now ∧ s.now ≤ h.to_ ∧ p.splice ≤ h.to_) ∧
    (∃ (s : State) (p : PlanJob), s.pln.plan = some p ∧ running s = true ∧ decides s = true ∧ p.redo = false ∧ p.ok = false) ∧
    (∃ (s : State) (d : Nat) (r : PassResult) (h : HoldPath), s.pln.pass = some d ∧ running s = true ∧ s.now ≤ d + 20000 ∧ s.pln.adopt = none ∧ s.kt.regions.isSome = true ∧ s.pln.st ≠ .stale ∧ r.collides = false ∧ remainderHit (passView s) (regSet s) = none ∧ holdFound (passView s) (regSet s) d (windowStates s d) r.hold = some h) ∧
    (∃ (s : State) (d : Nat), s.pln.pass = some d ∧ running s = true ∧ decides s = true ∧ s.pln.st = .rest ∧ s.pln.run = none ∧ s.pln.hold = none) ∧
    (∃ (s : State), running s = true ∧ s.pln.harbour.isSome = true ∧ s.pln.setRep = false) ∧
    (∃ (s : State) (r : Traj) (d : Nat), s.pln.run = some r ∧ r.until_ = some d ∧ decides s = true) :=
  ⟨⟨{ planning with pln.run := some { segs := [{ dur := 1 }] } }, { segs := [{ dur := 1 }] }, { dur := 1 }, by decide +kernel⟩,
    ⟨{ planning with pln.run := some { at_ := 1000000, segs := [{ dur := 1 }] } }, { at_ := 1000000, segs := [{ dur := 1 }] }, { dur := 1 }, by decide +kernel⟩,
    ⟨{ planning with pln.plan := some {} }, {}, by decide +kernel⟩,
    ⟨{ planning with kt.regions := some (put regions 12 4 0x3F000000), pln.plan := some {} }, {}, .refused, (0, 0), by decide +kernel⟩,
    ⟨{ planning with kt.regions := some longAxis, pln.plan := some { body := longBody } }, { body := longBody }, by decide +kernel⟩,
    ⟨{ planning with pln.plan := some { ok := true, start := [(0, 0, 0)] }, pln.hold := some { to_ := 200000 } }, { ok := true, start := [(0, 0, 0)] }, { to_ := 200000 }, by decide +kernel⟩,
    ⟨{ planning with pln.plan := some {} }, {}, by decide +kernel⟩,
    ⟨{ planning with pln.rest := [], kt.regions := some [], pln.pass := some 0, pln.passSet := some oneHarbour }, 0, { hold := some 0 }, { to_ := 200000 }, by decide +kernel⟩,
    ⟨{ planning with pln.pass := some 0 }, 0, by decide +kernel⟩,
    ⟨{ planning with pln.harbour := some [] }, by decide +kernel⟩,
    ⟨{ planning with pln.run := some { until_ := some 20 } }, { until_ := some 20 }, 20, by decide +kernel⟩⟩

set_option maxRecDepth 100000 in
theorem witness_RebindingCompletes :
    (∃ (s : State) (n : Fin 16) (data : Bytes) (r : Rec), servesAgent s n.val = true ∧ data.length ≤ 256 ∧ r = windowRec (Mem.writeN [] 0 data) ∧ r.len ≤ 256 ∧ cwSrc r.cw = 0x10 + n.val ∧ r.op ≠ 0x0010 ∧ r.op ≠ 0x0011 ∧ (mbxOf s 6).busy = false) ∧
    (∃ (s : State) (n : Fin 16) (data : Bytes), acting s = true ∧ (agentOf s n.val).role = some true ∧ (agentOf s n.val).link = .up ∧ descValid data = true ∧ (invOf s n.val).desc = none) ∧
    (∃ (s : State) (n : Nat) (ok : Bool), writingSlot s = some n) ∧
    (∃ (s : State) (n : Fin 8) (ok : Bool), (goldenOf s n.val).state = .valid ∧ running s = true) ∧
    (∃ (s : State) (r : Running), s.stw.run = some r ∧ r.step = .verify ∧ (goldenOf s r.job.slot).state ≠ .bad ∧ internalAsk (fld (goldenOf s r.job.slot).header 28 2) s = none ∧ s.pair.lead = true) ∧
    (∃ (s : State) (r : Running), s.stw.run = some r ∧ r.step = .verify ∧ s.stw.queue = []) ∧
    (∃ (s : State) (r : Running), s.stw.run = some r ∧ r.step = .program) ∧
    (∃ (s : State) (r : Running), s.stw.run = some r ∧ r.step = .readback ∧ s.pair.lead = true) ∧
    (∃ (s : State) (r : Running), s.stw.run = some r ∧ r.step = .readback ∧ r.tries = 0) ∧
    (∃ (s : State) (r : Running) (d : Nat), s.stw.run = some r ∧ r.until_ = some d ∧ (r.step = .begin_ ∨ r.step = .end_) ∧ s.stw.queue = []) ∧
    (∃ (s : State) (r : Running) (d : Nat), s.stw.run = some r ∧ r.bound = some d ∧ s.stw.queue = []) :=
  ⟨⟨tray, 0, ibiRecord, windowRec (Mem.writeN [] 0 ibiRecord), by decide +kernel⟩,
    ⟨{ run with stw.agents := [(0, { link := .up, role := some true })] }, 0, goodDesc, by decide +kernel⟩,
    ⟨{ run with stw.golden := [(7, { state := .writing })] }, 7, true, by decide +kernel⟩,
    ⟨{ run with stw.golden := [(7, { state := .valid, scrub := 9 })] }, 7, true, by decide +kernel⟩,
    ⟨{ run with stw.run := some {} }, {}, by decide +kernel⟩,
    ⟨{ run with stw.run := some {} }, {}, by decide +kernel⟩,
    ⟨{ run with stw.run := some { step := .program } }, { step := .program }, by decide +kernel⟩,
    ⟨{ run with stw.run := some { step := .readback } }, { step := .readback }, by decide +kernel⟩,
    ⟨{ run with stw.run := some { step := .readback } }, { step := .readback }, by decide +kernel⟩,
    ⟨{ run with stw.run := some { step := .end_, until_ := some 9 } }, { step := .end_, until_ := some 9 }, 9, by decide +kernel⟩,
    ⟨{ run with stw.run := some { step := .program, bound := some 9 } }, { step := .program, bound := some 9 }, 9, by decide +kernel⟩⟩

theorem witness_TagCommandsComplete :
    (∃ (s : State), running s = true ∧ s.stw.tag.invDue = false) ∧
    (∃ (s : State), running s = true ∧ s.stw.tag.invDue = true) ∧
    (∃ (s : State) (w : TagWrite), s.stw.tag.write = some w ∧ w.busy = false) ∧
    (∃ (s : State) (w : TagWrite), s.stw.tag.write = some w) ∧
    (∃ (s : State) (w : TagWrite), s.stw.tag.write = some w ∧ w.busy = true) ∧
    (∃ (s : State) (w : TagWrite), s.stw.tag.write = some w) ∧
    (∃ (s : State), running s = true) ∧
    (∃ (s : State) (n m : Nat), s.stw.tag.state ≠ .quiet ∧ m = leVal (tagUid s) % 2 ^ n) ∧
    (∃ (s : State) (u : DWord), uidIs u s = true) ∧
    (∃ (s : State) (u : DWord), uidIs u s = true) ∧
    (∃ (s : State) (b : Nat), b < 256) ∧
    (∃ (s : State) (b n : Nat), n ≤ 32 ∧ b + n ≤ 256) ∧
    (∃ (s : State) (b : Nat) (data : Bytes), b < 256 ∧ rfLocked s.stw.tag b = false) ∧
    (∃ (s : State) (b : Nat) (data : Bytes), b < 256 ∧ rfLocked s.stw.tag b = true) ∧
    (∃ (s : State) (b n : Nat), b + n ≤ 256) :=
  ⟨⟨{ run with stw.tag.invAt := 9 }, by decide +kernel⟩,
    ⟨{ run with stw.tag.invDue := true }, by decide +kernel⟩,
    ⟨{ run with stw.tag.write := some { page := 31, bytes := [1] } }, { page := 31, bytes := [1] }, by decide +kernel⟩,
    ⟨{ run with stw.tag.write := some { stop := 9 } }, { stop := 9 }, by decide +kernel⟩,
    ⟨{ run with stw.tag.write := some { busy := true, retry := 9 } }, { busy := true, retry := 9 }, by decide +kernel⟩,
    ⟨{ run with stw.tag.write := some { stop := 9 } }, { stop := 9 }, by decide +kernel⟩,
    ⟨run, by decide +kernel⟩,
    ⟨run, 60, 0, by decide +kernel⟩,
    ⟨run, 0xE000000000000000, by decide +kernel⟩,
    ⟨run, 0xE000000000000000, by decide +kernel⟩,
    ⟨run, 255, by decide +kernel⟩,
    ⟨run, 224, 32, by decide +kernel⟩,
    ⟨run, 64, List.replicate 32 1, by decide +kernel⟩,
    ⟨run, 63, List.replicate 32 1, by decide +kernel⟩,
    ⟨run, 62, 4, by decide +kernel⟩⟩

theorem witness_LogCommandsComplete :
    (∃ (s : State) (f : Folio) (fs : List Folio), s.keep.por = false ∧ s.log.freeze = none ∧ s.log.queue = f :: fs ∧ s.log.slots.length < 4096) ∧
    (∃ (s : State) (d : Nat), running s = true ∧ s.log.period = some d) ∧
    (∃ (s : State) (d : Nat), running s = true ∧ s.log.period = some d) ∧
    (∃ (s : State), running s = true ∧ s.log.dropNew = true) ∧
    (∃ (s : State) (z : Freeze), s.log.freeze = some z) ∧
    (∃ (s : State), s.pmc.en = true ∧ 2 ≤ s.pmc.slots ∧ s.pmc.slots ≤ 4096 ∧ 0 < s.pmc.period ∧ s.pmc.period ≤ 1000000 ∧ s.pwr.bind = .on ∧ s.host.dstate = .d0 ∧ s.host.link = .l0 ∧ dumpFull s.pmc = false) ∧
    (∃ (s : State), s.pmc.en = true ∧ 2 ≤ s.pmc.slots ∧ s.pmc.slots ≤ 4096 ∧ 0 < s.pmc.period ∧ s.pmc.period ≤ 1000000 ∧ s.pwr.bind = .on ∧ dumpFull s.pmc = true) ∧
    (∃ (s : State) (n : Nat), bar0Up s = true ∧ running s = true) ∧
    (∃ (s : State), bar0Up s = true ∧ running s = true) ∧
    (∃ (s : State) (n : Nat), running s = false) ∧
    (∃ (s : State), running s = false) :=
  ⟨⟨{ run with log.queue := [{ fseq := 1 }] }, { fseq := 1 }, [], by decide +kernel⟩,
    ⟨{ run with log.period := some 9 }, 9, by decide +kernel⟩,
    ⟨{ run with log.period := some 9 }, 9, by decide +kernel⟩,
    ⟨{ run with log.dropNew := true }, by decide +kernel⟩,
    ⟨{ run with log.freeze := some { id := 1, stop := 9 } }, { id := 1, stop := 9 }, by decide +kernel⟩,
    ⟨{ run with pmc := { en := true, slots := 2, period := 1000000, pi := 1 } }, by decide +kernel⟩,
    ⟨{ run with pmc := { en := true, slots := 4096, period := 1, pi := 4096 } }, by decide +kernel⟩,
    ⟨run, 95, by decide +kernel⟩,
    ⟨{ run with pmc.skipped := 3 }, by decide +kernel⟩,
    ⟨{ run with boot.state := .wait }, 95, by decide +kernel⟩,
    ⟨{ run with boot.state := .wait, pmc.skipped := 3 }, by decide +kernel⟩⟩

/-- The five ways of being turned away, in the statement's order. -/
theorem witness_RefusalsByStep :
    isOpenBox { run with pair.state := .lone } = false ∧
    (isOpenBox run = true ∧ srcValid 2 (cwSrc (rowRec 0x0105 { hdr with src := 4 } budget).cw) = false) ∧
    (srcValid 2 (cwSrc (rowRec 0x0105 { hdr with flags := 4 } budget).cw) = true ∧
      badHeader (rowRec 0x0105 { hdr with flags := 4 } budget) = some 2) ∧
    (badHeader (rowRec 0x0105 hdr budget) = none ∧ opInfo 0x0105 = some ⟨.j none, [.rackManager], 8⟩ ∧
      findCw (rowRec 0x0105 hdr budget).cw run = none ∧ cwSeq (rowRec 0x0105 { hdr with seq := 0 } budget).cw = 0 ∧
      (run.jr.high.get {} (cwSrc (rowRec 0x0105 hdr budget).cw)).seq < cwSeq (rowRec 0x0105 hdr budget).cw) ∧
    authCause ⟨.j none, [.rackManager], 8⟩ (rowRec 0x0105 { hdr with mbx := 0, src := 0 } budget) run = some 1 ∧
    (authCause ⟨.j none, [.rackManager], 8⟩ (rowRec 0x0105 hdr (leBytes 8 999)) run = none ∧
      minBad (badBody 0x0105 run (rowRec 0x0105 hdr (leBytes 8 999)).body) (badTail 0x0105 8 (rowRec 0x0105 hdr (leBytes 8 999)).body) =
        some 0) := by decide +kernel


/-! ## The check of well-formed commands refuses each ill-formed one -/

/-- A record as a transport delivers it. -/
theorem test_wf_record : (Instr.budgetSet hdr budget).wf = true := by decide
/-- A trailer of 16 bytes (R90: none or 32). -/
theorem test_wf_trailer : (Instr.budgetSet { hdr with token := List.replicate 16 0 } budget).wf = false := by decide
/-- A body that is no multiple of 8 bytes (R90). -/
theorem test_wf_body_multiple : (Instr.budgetSet hdr (leBytes 7 5000)).wf = false := by decide
/-- A record above 4,096 bytes (R90). -/
theorem test_wf_record_size : (Instr.objectStage hdr (List.replicate 4072 0)).wf = false := by decide +kernel
/-- A classic frame of 12 bytes. -/
theorem test_wf_classic : (Instr.canFrameRx 0 { x := { data := List.replicate 12 0 } }).wf = false := by decide
/-- A CAN FD frame of 9 bytes, no DLC length. -/
theorem test_wf_fd : (Instr.canFrameRx 0 { x := { fdf := true, data := List.replicate 9 0 } }).wf = false := by decide
/-- A power report of seven accelerators. -/
theorem test_wf_report : (Instr.trayPoll 0 { seq := 0, state := 0, trayW := 0, accW := List.replicate 7 0 }).wf = false := by decide
/-- A BOUNDARY frame of eight values. -/
theorem test_wf_boundary : (Instr.boundaryFrame ringFrame 0 0 0 (List.replicate 8 0)).wf = false := by decide
/-- A scatter list of 1,025 entries (R69). -/
theorem test_wf_list : (Instr.mbxBootStart (List.replicate 1025 { addr := 0, len := 0 })).wf = false := by decide +kernel
/-- A netboot payload of 1,501 bytes, more than an Ethernet frame carries. -/
theorem test_wf_block : (Instr.netbootData 0 0 0x88B5 (List.replicate 1501 0)).wf = false := by decide +kernel
/-- The broadcast address is no actuator. -/
theorem test_wf_actuator : (Instr.actuatorSilent 63).wf = false := by decide
/-- Outlet 96 of 0 to 95. -/
theorem test_wf_outlet : (Instr.pduValueLowRead 96).wf = false := by decide
/-- Tag block 256 of 0 to 255. -/
theorem test_wf_tag_read : (Instr.rfReadSingleBlock 256).wf = false := by decide
/-- A tag block of 31 bytes. -/
theorem test_wf_tag_write : (Instr.rfWriteSingleBlock 0 (List.replicate 31 0)).wf = false := by decide

/-! ## No word spells a command -/

/-- The table gives no bits. -/
theorem test_no_word : decodeTableWord 32 0xFFFFFFFF = none := rfl

/-! ## Published values of the standard algorithms the specification names -/

/-- The check value of CRC-32C: the digits 1 to 9. -/
theorem test_crc32c : crc32c [0x31, 0x32, 0x33, 0x34, 0x35, 0x36, 0x37, 0x38, 0x39] = 0xE3069283 := by decide +kernel
/-- SHA-256 of "abc" (FIPS 180-4's example). -/
theorem test_sha256 : beVal (sha256Bytes [0x61, 0x62, 0x63]) =
    0xBA7816BF8F01CFEA414140DE5DAE2223B00361A396177A9CB410FF61F20015AD := by decide +kernel
/-- SHA-384 of "abc" (FIPS 180-4's example). -/
theorem test_sha384 : beVal (sha384Bytes [0x61, 0x62, 0x63]) =
    0xCB00753F45A35E8BB5A03D699AC65007272C32AB0EDED1631A8B605A43FF5BED8086072BA1E7CC2358BAECA134C825A7 := by
  decide +kernel
/-- The base point of P-384 lies on its curve. -/
theorem test_p384 : p384OnCurve p384G.1 p384G.2 = true := by decide +kernel

/-! ## Values of the specification's tables -/

/-- Table 11-6: the sum of 1.0 and the largest value that still rounds away to even. -/
theorem test_fp32_ties_to_even : (Fp.add (fp32 0x3F800000) (fp32 0x33800000)).bits false = (0x3F800000, []) := by decide +kernel
/-- Table 11-6: an overflow is infinity, with its flag. -/
theorem test_fp32_overflow : (Fp.add (fp32 0x7F7FFFFF) (fp32 0x7F7FFFFF)).bits false = (0x7F800000, [0x251]) := by decide +kernel
/-- Table 11-6: a subnormal operand counts as zero. -/
theorem test_fp32_subnormal : fp32 0x00000001 = .zero false := by decide +kernel
/-- A saturating INT8. -/
theorem test_int8_saturates : (convertElem 4 3 false true (2 ^ 32 - 200)).1 = 0x80 := by
  decide +kernel

/-! ## Single steps -/

/-- On an empty queue a microsecond passes. -/
theorem test_idle : step State.reset = .next (tick State.reset) := rfl
/-- Power-on release of the keep domain begins the table read, and the queue moves on (R58). -/
theorem test_step_takes_front : step (State.reset.setPending [.keepPorRelease false, .railsGood]) =
    execKeepPorRelease false (State.reset.setPending [.railsGood]) := rfl
/-- BUDGET_SET stores its figure at its effect (R164). -/
theorem test_budget_effect : (doCommandEffect (due 0x0105 budget)).kt.budget = some 5000 := by decide +kernel
/-- STAGGER_SET of 300 ms (R159). -/
theorem test_stagger_effect : (doCommandEffect (due 0x0108 (leBytes 8 300))).kt.stagger = 300 := by decide +kernel
/-- R364: a counter in level mode adds the cycles of its clock, and one in edge mode counts one start of a condition. -/
theorem test_counter_pass : (((Counters.pass (fun _ => true) 0 1000 { cfg := [(0, 0xC03), (1, 0xA70)] }).val.get 0 0,
    (Counters.pass (fun _ => true) 0 1000 { cfg := [(0, 0xC03), (1, 0xA70)] }).val.get 0 1)) = (800000, 1) := by decide +kernel

/-! ## Layouts and figures worked out by hand from the manual's tables -/

/-- R71: a REQUEST for 5 blocks from block 16 on. -/
theorem test_netboot_request : netBytes 0x1122 3 16 5 [] =
    [3, 1, 0, 0, 0x22, 0x11, 0, 0, 0, 0, 0, 0, 16, 0, 0, 0, 5, 0, 0, 0] := by decide +kernel
/-- Table 04-6: a final INVALID at offset 8 for opcode 0x0105. -/
theorem test_response_header : respBytes { status := 0x14, op := 0x0105, cw := 0x0807060504030201, detail := 8 } =
    [0x14, 1, 5, 1, 32, 0, 0, 0, 1, 2, 3, 4, 5, 6, 7, 8, 0, 0, 0, 0, 0, 0, 0, 0, 8, 0, 0, 0, 0, 0, 0, 0] := by decide +kernel
/-- Table 05-2: SRC to FSEQ of a MIRROR_ACK, and its 64 bytes in all. -/
theorem test_frame_bytes : sub (frameBytes 2 0xFF 0 7 9 (.mirrorAck 1) 0) 2 10 = [2, 0xFF, 0, 7, 8, 0, 9, 0, 0, 0] ∧
    (frameBytes 2 0xFF 0 7 9 (.mirrorAck 1) 0).length = 64 := by decide +kernel
/-- RFC 1055: 0xC0 and 0xDB within a frame. -/
theorem test_slip : slipByte 0xC0 = [0xDB, 0xDC] ∧ slipByte 0xDB = [0xDB, 0xDD] ∧ slipByte 0x41 = [0x41] := by decide
/-- R111: the 16th CRC failure within 1 ms leaves a lane up, the 17th takes it down. -/
theorem test_lane_crc_limit :
    (laneOf (badFrame 2 { run with spn.lanes := [(2, { up := true, crcAt := List.replicate 15 0 })] }) 2).up = true ∧
    (laneOf (badFrame 2 { run with spn.lanes := [(2, { up := true, crcAt := List.replicate 16 0 })] }) 2).up = false := by
  decide +kernel
/-- R184: half of the reference at gain 1 is 2^22, and −V_REF is −2^23. -/
theorem test_sd_raw : rawOf { live := some (zeros 8) } { ain := 625000000000 } = 4194304 ∧
    rawOf { live := some (zeros 8) } { ain := -1250000000000 } = -8388608 := by decide +kernel
end Sys2Proof.Tests
end

section
/-! Laws of the mailbox accesses over BAR0 and of the transports that responses leave by, and the statement about them
(R5, R6, R85 to R87). -/

namespace Sys2Proof.Machine

/-! ## A mailbox through the shared operations -/

section
variable (m : Nat) (f : Mailbox → Mailbox) (s : State)
@[simp] theorem onBox_out : (onBox m f s).out = s.out := rfl
@[simp] theorem onBox_jr : (onBox m f s).jr = s.jr := rfl
@[simp] theorem onBox_host : (onBox m f s).host = s.host := rfl
@[simp] theorem onBox_mem : (onBox m f s).mem = s.mem := rfl
@[simp] theorem partnerAddr_onBox : partnerAddr (onBox m f s) = partnerAddr s := rfl
@[simp] theorem mbxOf_onBox : mbxOf (onBox m f s) m = f (mbxOf s m) := mbxOf_onBox_same m f s
end

/-- A mailbox is seen through the mailbox table alone. -/
theorem mbxOf_congr {s t : State} (h : t.mbx = s.mbx) (m : Nat) : mbxOf t m = mbxOf s m := by rw [mbxOf, mbxOf, h]

@[simp] theorem mbxOf_count (ev : Nat) (s : State) (m : Nat) : mbxOf (count ev s) m = mbxOf s m :=
  mbxOf_congr (count_mbx ev s) m
@[simp] theorem mbxOf_countRise (ev : Nat) (s : State) (m : Nat) : mbxOf (countRise ev s) m = mbxOf s m :=
  mbxOf_congr (countRise_mbx ev s) m
@[simp] theorem mbxOf_emit (o : Output) (s : State) (m : Nat) : mbxOf (emit o s) m = mbxOf s m :=
  mbxOf_congr (emit_mbx o s) m
@[simp] theorem mbxOf_msix (v : Nat) (s : State) (m : Nat) : mbxOf (msix v s) m = mbxOf s m :=
  mbxOf_congr (msix_mbx v s) m
@[simp] theorem mbxOf_deliver (n : Nat) (r : Resp) (s : State) (m : Nat) : mbxOf (deliver n r s) m = mbxOf s m :=
  mbxOf_congr (deliver_mbx n r s) m

/-- Whether firmware runs is seen through BIND and the boot state alone. -/
theorem running_congr {s t : State} (hp : t.pwr = s.pwr) (hb : t.boot = s.boot) : running t = running s := by
  rw [running, running, hp, hb]

/-- Open mailboxes are those of a board whose firmware runs. -/
theorem running_of_isOpenBox {s : State} (h : isOpenBox s = true) : running s = true := by
  simp only [isOpenBox, Bool.and_eq_true] at h
  exact h.1

/-! ## Doorbell, response index and copy-out (R83, R85, R86) -/

theorem doMbxDoorbell_idle {m : Nat} {s : State} (hb : bar0Up s = true) (hr : running s = true) (hm : m < 2)
    (hi : (mbxOf s m).busy = false) :
    doMbxDoorbell m s = countRise (0x2A0 + m) (count (0x290 + m) (onBox m (fun b => { b with busy := true }) s)) := by
  simp [doMbxDoorbell, hb, hr, hi, Nat.not_le.mpr hm]

theorem doMbxDoorbell_busy {m : Nat} {s : State} (hb : bar0Up s = true) (hr : running s = true) (hm : m < 2)
    (hi : (mbxOf s m).busy = true) : doMbxDoorbell m s = onBox m (fun b => { b with dbLost := true }) s := by
  simp [doMbxDoorbell, hb, hr, hi, Nat.not_le.mpr hm]

theorem mbxOf_doMbxRspCi {m : Nat} (ci : Nat) {s : State} (hb : bar0Up s = true) (hr : running s = true) (hm : m < 2) :
    mbxOf (doMbxRspCi m ci s) m =
      if (ci + 64 - (mbxOf s m).ci) % 64 ≤ ((mbxOf s m).pi + 64 - (mbxOf s m).ci) % 64
      then { mbxOf s m with ci := ci } else { mbxOf s m with ciBad := true } := by
  simp only [doMbxRspCi, hb, hr, Nat.not_le.mpr hm, Bool.not_true, Bool.or_false, decide_false, Bool.false_eq_true,
    if_false]
  split
  · exact mbxOf_onBox ..
  · exact mbxOf_onBox ..

/-- With nothing waiting, a copy-out goes straight to the judgement of the window's record. -/
theorem doMbxCopyOut_of_none {m : Nat} (jok : Bool) {s : State} (hr : running s = true) (hb : (mbxOf s m).busy = true)
    (hw : (mbxOf s m).waiting = []) :
    doMbxCopyOut m jok s = receive m jok (windowRec (mbxOf s m).window) (clearBusy m s) := by
  have hfit : waitsForRoom m s = false := by rw [waitsForRoom, writeAll_none hw, hw]; rfl
  simp [doMbxCopyOut, hr, hb, hfit, writeAll_none hw]

/-- An open mailbox answers a record whose header breaks a rule with INVALID at that offset. -/
theorem receive_badHeader {m : Nat} (jok : Bool) {r : Rec} {s : State} {o : Nat} (ho : isOpenBox s = true)
    (hv : srcValid m (cwSrc r.cw) = true) (hh : badHeader r = some o) : receive m jok r s = answerInvalid m r o s := by
  simp [receive, ho, hv, hh]

/-- INVALID waits as the last response of a mailbox whose answers are not an agent's. -/
theorem mbxOf_answerInvalid {m : Nat} (hm : m ≠ 6) (r : Rec) (o : Nat) (s : State) :
    mbxOf (answerInvalid m r o s) m = { mbxOf s m with
      waiting := (mbxOf s m).waiting ++ [{ status := 0x14, op := r.op, cw := r.cw, ref := 0, detail := o }] } := by
  have hbox : (m == 6) = false := by simpa using hm
  simp only [answerInvalid, answer, respond, hbox, Bool.false_eq_true, if_false]
  exact (mbxOf_onBox ..).trans (by rw [mbxOf_count])

theorem copyOut_badHeader {m : Nat} (jok : Bool) {s : State} {o : Nat} (ho : isOpenBox s = true) (hm : m ≠ 6)
    (hb : (mbxOf s m).busy = true) (hw : (mbxOf s m).waiting = [])
    (hv : srcValid m (cwSrc (windowRec (mbxOf s m).window).cw) = true)
    (hh : badHeader (windowRec (mbxOf s m).window) = some o) :
    (mbxOf (doMbxCopyOut m jok s) m).busy = false ∧ (doMbxCopyOut m jok s).jr = s.jr ∧
      (mbxOf (doMbxCopyOut m jok s) m).waiting.map (fun r => (r.status, r.detail)) = [(0x14, o)] := by
  have hopen : isOpenBox (clearBusy m s) = true := by simpa [isOpenBox, running] using ho
  obtain ⟨-, hidle, hroom⟩ := clearBusy_copied m s
  rw [doMbxCopyOut_of_none jok (running_of_isOpenBox ho) hb hw, receive_badHeader jok hopen hv hh,
    mbxOf_answerInvalid hm]
  exact ⟨hidle, by simp, by simp [hroom, hw]⟩

/-! ## Response rings (R86) -/

/-- A response that fits before the ring's end and in its free slots is written there. -/
theorem doResponseWrite_ring {m : Nat} {r : Resp} {rs : List Resp} {s : State} (hr : running s = true) (hm : m < 2)
    (hw : (mbxOf s m).waiting = r :: rs) (he : (mbxOf s m).pi % 32 + respSlots r ≤ 32)
    (hf : respSlots r ≤ ringFree (mbxOf s m)) : doResponseWrite m s = writeSlot m r s := by
  simp [doResponseWrite, hr, writeOut, hm, ringResponse, hw, he, hf, Nat.not_lt.mpr he]

theorem mbxOf_writeSlot (m : Nat) (r : Resp) (s : State) :
    mbxOf (writeSlot m r s) m = { mbxOf s m with
      rsp := (mbxOf s m).rsp.writeN (128 * ((mbxOf s m).pi % 32)) (respBytes r)
      pi := ((mbxOf s m).pi + respSlots r) % 64, waiting := (mbxOf s m).waiting.tail } := by
  simp [writeSlot]

theorem ring_mem_writeSlot (m : Nat) (r : Resp) (s : State) :
    Output.ring m ((mbxOf s m).pi % 32) r ∈ (writeSlot m r s).out := by
  refine (msix_foot _ _).sent.mem ?_
  rw [count_out]
  exact List.mem_cons_self

/-! ## Transports of M2 to M5 and M7 (R87) -/

/-- A transport that is up takes the first waiting response. -/
theorem doResponseWrite_transport {m : Nat} {r : Resp} {rs : List Resp} {s : State} (hr : running s = true)
    (hm : ¬ m < 2) (h6 : m ≠ 6) (hw : (mbxOf s m).waiting = r :: rs) (ht : transportUp s m = true) :
    doResponseWrite m s = count (0x298 + m) (deliver m r (onBox m (fun b => { b with waiting := rs }) s)) := by
  simp [doResponseWrite, hr, writeOut, hm, h6, sendResponse, hw, ht]

/-- A transport that is up leaves the rest of the responses waiting. -/
theorem waiting_doResponseWrite_transport {m : Nat} {r : Resp} {rs : List Resp} {s : State} (hr : running s = true)
    (hm : ¬ m < 2) (h6 : m ≠ 6) (hw : (mbxOf s m).waiting = r :: rs) (ht : transportUp s m = true) :
    (mbxOf (doResponseWrite m s) m).waiting = rs := by
  rw [doResponseWrite_transport hr hm h6 hw ht]
  simp

/-- What leaves by TLS or the UART: the response, or its frame. -/
theorem deliver_of_direct {m : Nat} (h4 : m ≠ 4) (h5 : m ≠ 5) (r : Resp) (s : State) :
    deliver m r s = emit (if m == 7 then .serial (slipFrame (respBytes r)) else .deliver m r) s := by
  simp [deliver, h4, h5]

theorem out_doResponseWrite_tls {m : Nat} {r : Resp} {rs : List Resp} {s : State} (hr : running s = true)
    (hm : m = 2 ∨ m = 3) (hc : (mbxOf s m).conn = true) (hw : (mbxOf s m).waiting = r :: rs) :
    (mbxOf (doResponseWrite m s) m).waiting = rs ∧ (doResponseWrite m s).out = Output.deliver m r :: s.out := by
  have ht : transportUp s m = true := by rcases hm with rfl | rfl <;> exact hc
  have h7 : m ≠ 7 := by omega
  refine ⟨waiting_doResponseWrite_transport hr (by omega) (by omega) hw ht, ?_⟩
  rw [doResponseWrite_transport hr (by omega) (by omega) hw ht, deliver_of_direct (by omega) (by omega)]
  simp [emit, h7]

/-- M7 sends the response as the model's SLIP frame (log 139). -/
theorem out_doResponseWrite_uart {r : Resp} {rs : List Resp} {s : State} (hr : running s = true)
    (hw : (mbxOf s 7).waiting = r :: rs) : (mbxOf (doResponseWrite 7 s) 7).waiting = rs ∧
      (doResponseWrite 7 s).out = Output.serial (slipFrame (respBytes r)) :: s.out := by
  refine ⟨waiting_doResponseWrite_transport hr (by decide) (by decide) hw rfl, ?_⟩
  rw [doResponseWrite_transport hr (by decide) (by decide) hw rfl, deliver_of_direct (by decide) (by decide)]
  simp [emit]

/-! ## What sending a frame leaves of the links and of the relay queue -/

/-- The Spine insertion, the lanes' states and the fragments under way are as before. -/
structure SameLinks (s t : State) : Prop where
  relay  : t.spn.relayTx = s.spn.relayTx
  insert : t.spn.insert = s.spn.insert
  up     : ∀ l, (laneOf t l).up = (laneOf s l).up

theorem SameLinks.of_spn {s t : State} (h : t.spn = s.spn) : SameLinks s t :=
  ⟨by rw [h], by rw [h], fun l => by rw [laneOf, laneOf, h]⟩

theorem SameLinks.trans {s t u : State} (h : SameLinks s t) (g : SameLinks t u) : SameLinks s u :=
  ⟨g.relay.trans h.relay, g.insert.trans h.insert, fun l => (g.up l).trans (h.up l)⟩

/-- Frames counted on a lane leave it up or down. -/
theorem onLane_sameLinks (n : Nat) (f : Lane → Lane) (hf : ∀ x, (f x).up = x.up) (s : State) :
    SameLinks s (onLane n f s) := by
  refine ⟨rfl, rfl, fun l => ?_⟩
  change ((s.spn.lanes.mod {} n f).get {} l).up = _
  by_cases h : l = n
  · rw [h, Tab.get_mod_same, hf]; rfl
  · rw [Tab.get_mod_other _ _ _ h]; rfl

theorem laneCount_sameLinks (l n : Nat) (urgent : Bool) (s : State) : SameLinks s (laneCount l n urgent s) := by
  have hsent := (onLane_sameLinks l (fun x => { x with sent := x.sent + n }) (fun _ => rfl) s).trans
    (.of_spn (countN_spn (0x2D0 + 8 * l) n _))
  unfold laneCount
  split
  · exact hsent.trans (.of_spn (countN_spn ..))
  · exact hsent

theorem laneSent_sameLinks (l n : Nat) (urgent : Bool) (s : State) : SameLinks s (laneSent l n urgent s) := by
  unfold laneSent
  split
  · exact laneCount_sameLinks ..
  · exact .of_spn rfl

theorem bulkSent_sameLinks (n : Nat) (s : State) : SameLinks s (bulkSent n s) := by
  unfold bulkSent
  split
  · exact laneSent_sameLinks ..
  split
  · exact laneSent_sameLinks ..
  · have hturn : SameLinks s (s.onSpn fun x => { x with bulkLane := x.bulkLane != (n % 2 == 1) }) :=
      ⟨rfl, rfl, fun _ => rfl⟩
    exact (hturn.trans (laneSent_sameLinks ..)).trans (laneSent_sameLinks ..)

theorem sendPair_sameLinks (p : Payload) (s : State) : SameLinks s (sendPair p s) := by
  unfold sendPair
  split
  · exact .of_spn rfl
  · have hnum : SameLinks s (emit
        (.frame true (nodeAddr s) (partnerAddr s) (s.spn.gen % 256) ((s.spn.pseq + 1) % 2 ^ 32) p)
        (s.onSpn fun x => { x with pseq := (x.pseq + p.frames) % 2 ^ 32 })) := ⟨rfl, rfl, fun _ => rfl⟩
    dsimp only
    split
    · exact (hnum.trans (laneSent_sameLinks ..)).trans (laneSent_sameLinks ..)
    · exact hnum.trans (bulkSent_sameLinks ..)

theorem sendSpine_sameLinks (dst : Nat) (p : Payload) (s : State) : SameLinks s (sendSpine dst p s) := by
  unfold sendSpine
  split
  · exact .of_spn rfl
  · have hnum : SameLinks s (emit
        (.frame false (nodeAddr s) dst (s.spn.gen % 256) ((s.spn.fseq + 1) % 2 ^ 32) p)
        (s.onSpn fun x => { x with fseq := (x.fseq + p.frames) % 2 ^ 32 })) := ⟨rfl, rfl, fun _ => rfl⟩
    exact (hnum.trans (laneSent_sameLinks ..)).trans (laneSent_sameLinks ..)

/-! ## Relayed records (R123) -/

/-- The link that RELAY fragments take: the pair link or the Spine. -/
def relayLinkUp (pair : Bool) (s : State) : Bool := if pair then pairUp s else inserted s

/-- Over a link that is up, a fragment joins those under way; nothing else of the links changes. -/
theorem sendFragment_spn {pair : Bool} {s : State} (h : relayLinkUp pair s = true) (dst : Nat) (last : Bool)
    (data : Bytes) : ∃ (t : State) (q : Nat), SameLinks s t ∧ (sendFragment pair dst last data s).spn =
      { t.spn with relayTx := s.spn.relayTx ++
          [{ fseq := q, dst := dst, pair := pair, at_ := s.now, last := last, data := data }] } := by
  cases pair with
  | false =>
    have hup : inserted s = true := h
    have hl := sendSpine_sameLinks dst (.relay last data) s
    exact ⟨_, (sendSpine dst (.relay last data) s).spn.fseq, hl, by simp [sendFragment, hup, hl.relay]⟩
  | true =>
    have hup : pairUp s = true := h
    have hl := sendPair_sameLinks (.relay last data) s
    exact ⟨_, (sendPair (.relay last data) s).spn.pseq, hl, by simp [sendFragment, hup, hl.relay]⟩

/-- A fragment sent leaves its link up. -/
theorem relayLinkUp_sendFragment {pair : Bool} {s : State} (h : relayLinkUp pair s = true) (dst : Nat) (last : Bool)
    (data : Bytes) : relayLinkUp pair (sendFragment pair dst last data s) = true := by
  obtain ⟨t, q, hl, hspn⟩ := sendFragment_spn h dst last data
  have hrun : running (sendFragment pair dst last data s) = running s :=
    running_congr (sendFragment_pwr ..) (sendFragment_boot ..)
  have hup : ∀ l, (laneOf (sendFragment pair dst last data s) l).up = (laneOf s l).up := fun l => by
    rw [← hl.up l, laneOf, hspn]; rfl
  rw [← h]
  simp only [relayLinkUp, pairUp, inserted, hrun, hup, hspn, hl.insert]

theorem sendFragments_cons_cons (pair : Bool) (dst : Nat) (d e : Bytes) (es : List Bytes) (s : State) :
    sendFragments pair dst (d :: e :: es) s = sendFragments pair dst (e :: es) (sendFragment pair dst false d s) := rfl

/-- Over a link that is up, every fragment joins those under way, in order. -/
theorem sendFragments_relayTx {pair : Bool} (dst : Nat) (ds : List Bytes) {s : State} (h : relayLinkUp pair s = true) :
    ∃ fs : List RelayTx, (sendFragments pair dst ds s).spn.relayTx = s.spn.relayTx ++ fs ∧ fs.map (·.data) = ds ∧
      ∀ x ∈ fs, x.pair = pair ∧ x.dst = dst ∧ x.at_ = s.now := by
  induction ds generalizing s with
  | nil => exact ⟨[], by simp [sendFragments]⟩
  | cons d ds ih =>
    cases ds with
    | nil =>
      obtain ⟨t, q, -, hspn⟩ := sendFragment_spn h dst true d
      exact ⟨_, congrArg Spine.relayTx hspn, rfl, by simp⟩
    | cons e es =>
      obtain ⟨t, q, -, hspn⟩ := sendFragment_spn h dst false d
      obtain ⟨fs, htx, hdata, hall⟩ := ih (relayLinkUp_sendFragment h dst false d)
      refine ⟨{ fseq := q, dst := dst, pair := pair, at_ := s.now, last := false, data := d } :: fs, ?_,
        by rw [List.map_cons, hdata], ?_⟩
      · rw [sendFragments_cons_cons, htx, hspn, List.append_assoc]; rfl
      · simpa using hall

/-- A record's fragments are the record, in pieces of at most 48 bytes. -/
theorem flatten_fragments {n : Nat} {bs : Bytes} (h : bs.length ≤ n) : (fragments n bs).flatten = bs := by
  induction n generalizing bs with
  | zero => simp [fragments, List.eq_nil_of_length_eq_zero (Nat.le_zero.mp h)]
  | succ n ih =>
    rw [fragments]
    split
    · simp
    · rw [List.flatten_cons, ih (by rw [List.length_drop]; omega), List.take_append_drop]

theorem length_le_of_mem_fragments {n : Nat} {bs d : Bytes} (h : d ∈ fragments n bs) : d.length ≤ 48 := by
  induction n generalizing bs with
  | zero => simp [fragments] at h
  | succ n ih =>
    rw [fragments] at h
    split at h
    next hshort => rwa [List.mem_singleton.mp h]
    next =>
      rcases List.mem_cons.mp h with rfl | hd
      · exact List.length_take_le ..
      · exact ih hd

/-- A record sent over a link that is up is under way in fragments that spell it. -/
theorem sendFragments_record {pair : Bool} (dst : Nat) (bs : Bytes) {s : State} (h : relayLinkUp pair s = true) :
    ∃ fs : List RelayTx, (sendFragments pair dst (fragments bs.length bs) s).spn.relayTx = s.spn.relayTx ++ fs ∧
      (fs.map (·.data)).flatten = bs ∧
      ∀ x ∈ fs, x.pair = pair ∧ x.dst = dst ∧ x.data.length ≤ 48 ∧ x.at_ = s.now := by
  obtain ⟨fs, htx, hdata, hall⟩ := sendFragments_relayTx dst (fragments bs.length bs) h
  refine ⟨fs, htx, by rw [hdata, flatten_fragments (Nat.le_refl _)], fun x hx => ?_⟩
  obtain ⟨hpair, hdst, hat⟩ := hall x hx
  exact ⟨hpair, hdst, length_le_of_mem_fragments (hdata ▸ List.mem_map_of_mem hx), hat⟩

theorem deliver_toPartner (r : Resp) (s : State) : deliver 4 r s =
    sendFragments true (partnerAddr s) (fragments (respBytes r).length (respBytes r)) s := by
  simp [deliver, relayResponse]

theorem deliver_toMaster {s : State} {d : Nat} (hd : s.spn.master = some d) (hn : d ≠ nodeAddr s) (r : Resp) :
    deliver 5 r s = sendFragments false d (fragments (respBytes r).length (respBytes r)) s := by
  simp [deliver, relayResponse, hd, hn]

/-- A response of M4 goes to the partner over a pair link that is up. -/
theorem relayTx_doResponseWrite_pair {r : Resp} {rs : List Resp} {s : State} (hu : pairUp s = true)
    (hw : (mbxOf s 4).waiting = r :: rs) : (mbxOf (doResponseWrite 4 s) 4).waiting = rs ∧
      ∃ fs : List RelayTx, (doResponseWrite 4 s).spn.relayTx = s.spn.relayTx ++ fs ∧
        (fs.map (·.data)).flatten = respBytes r ∧
        ∀ x ∈ fs, x.pair = true ∧ x.dst = partnerAddr s ∧ x.data.length ≤ 48 ∧ x.at_ = s.now := by
  obtain ⟨hr, ht⟩ : running s = true ∧ transportUp s 4 = true := by
    rw [pairUp, Bool.and_eq_true] at hu
    exact hu
  have hup : relayLinkUp true (onBox 4 (fun b => { b with waiting := rs }) s) = true := hu
  refine ⟨waiting_doResponseWrite_transport hr (by decide) (by decide) hw ht, ?_⟩
  rw [doResponseWrite_transport hr (by decide) (by decide) hw ht, count_spn, deliver_toPartner, partnerAddr_onBox]
  exact sendFragments_record (partnerAddr s) (respBytes r) hup

/-- A response of M5 goes to the acting master over the Spine. -/
theorem relayTx_doResponseWrite_spine {r : Resp} {rs : List Resp} {s : State} {d : Nat} (hi : inserted s = true)
    (hd : s.spn.master = some d) (hn : d ≠ nodeAddr s) (hw : (mbxOf s 5).waiting = r :: rs) :
    (mbxOf (doResponseWrite 5 s) 5).waiting = rs ∧
      ∃ fs : List RelayTx, (doResponseWrite 5 s).spn.relayTx = s.spn.relayTx ++ fs ∧
        (fs.map (·.data)).flatten = respBytes r ∧
        ∀ x ∈ fs, x.pair = false ∧ x.dst = d ∧ x.data.length ≤ 48 ∧ x.at_ = s.now := by
  obtain ⟨hr, ht⟩ : running s = true ∧ transportUp s 5 = true := by
    rw [inserted, Bool.and_eq_true] at hi
    exact hi
  have hup : relayLinkUp false (onBox 5 (fun b => { b with waiting := rs }) s) = true := hi
  refine ⟨waiting_doResponseWrite_transport hr (by decide) (by decide) hw ht, ?_⟩
  rw [doResponseWrite_transport hr (by decide) (by decide) hw ht, count_spn,
    deliver_toMaster (s := onBox 5 (fun b => { b with waiting := rs }) s) hd hn]
  exact sendFragments_record d (respBytes r) hup

/-! ## The regions of BAR0 that a dword is written to (Table 04-1) -/

section
variable {off : Nat} {s : State} (v : Word) (hb : bar0Up s = true)
include hb

theorem doRegisterWrite_boot (hlo : 0x30000 ≤ off) (hhi : off < 0x31000) :
    doRegisterWrite off v s = writeBoot (off / 4 * 4 - 0x30000) v s := by
  have hin : 0x30000 ≤ off / 4 * 4 ∧ off / 4 * 4 < 0x31000 := by omega
  simp [doRegisterWrite, hb, hin]

theorem doRegisterWrite_msix (hlo : 0x38000 ≤ off) (hhi : off < 0x38200) :
    doRegisterWrite off v s = sendPending ((off / 4 * 4 - 0x38000) / 16) (s.onHost fun h =>
      { h with msix := h.msix.writeN (off / 4 * 4 - 0x38000) (leBytes 4 v.toNat) }) := by
  have hin : 0x38000 ≤ off / 4 * 4 ∧ off / 4 * 4 < 0x38200 ∧ ¬ off / 4 * 4 < 0x31000 := by omega
  simp [doRegisterWrite, hb, hin]

variable (hr : running s = true)
include hr

theorem doRegisterWrite_window (hhi : off < 0x1000) :
    doRegisterWrite off v s = writeWindow 0 (off / 4 * 4) v s := by
  have hin : off / 4 * 4 < 0x1000 ∧ ¬ 0x30000 ≤ off / 4 * 4 ∧ ¬ 0x38000 ≤ off / 4 * 4 := by omega
  simp [doRegisterWrite, hb, hr, hin]

theorem doRegisterWrite_evr (hlo : 0x11000 ≤ off) (hhi : off < 0x11040) :
    doRegisterWrite off v s = writeEvr (off / 4 * 4 - 0x11000) v s := by
  have hin : 0x11000 ≤ off / 4 * 4 ∧ off / 4 * 4 < 0x11040 ∧ ¬ off / 4 * 4 < 0x1000 ∧ ¬ off / 4 * 4 < 0x3000 ∧
    ¬ off / 4 * 4 < 0x10080 ∧ ¬ 0x30000 ≤ off / 4 * 4 ∧ ¬ 0x38000 ≤ off / 4 * 4 := by omega
  simp [doRegisterWrite, hb, hr, hin]

theorem doRegisterWrite_pdu (hlo : 0x20000 ≤ off) (hhi : off < 0x30000) :
    doRegisterWrite off v s = writePdu (off / 4 * 4 - 0x20000) v s := by
  have hin : 0x20000 ≤ off / 4 * 4 ∧ off / 4 * 4 < 0x30000 ∧ ¬ off / 4 * 4 < 0x1000 ∧ ¬ off / 4 * 4 < 0x3000 ∧
    ¬ off / 4 * 4 < 0x10080 ∧ ¬ off / 4 * 4 < 0x11040 ∧ ¬ 0x30000 ≤ off / 4 * 4 ∧ ¬ 0x38000 ≤ off / 4 * 4 := by omega
  simp [doRegisterWrite, hb, hr, hin]
end

/-! ## What the written registers hold (R85, R82, R68, R369) -/

theorem writeWindow_idle {m : Nat} {s : State} (h : (mbxOf s m).busy = false) (off : Nat) (v : Word) :
    writeWindow m off v s = onBox m (fun b => { b with window := b.window.writeN off (leBytes 4 v.toNat) }) s := by
  simp [writeWindow, h]

theorem writeWindow_busy {m : Nat} {s : State} (h : (mbxOf s m).busy = true) (off : Nat) (v : Word) :
    writeWindow m off v s = onBox m (fun b => { b with wrLost := true }) s := by
  simp [writeWindow, h]

theorem writeBoot_listCount {s : State} (h : running s = false) (v : Word) :
    writeBoot 0x10 v s = s.onBoot fun b => { b with listCount := v.setWidth 11 } := by
  simp [writeBoot, h]

/-- A pending vector sent leaves the MSI-X table and the mailboxes. -/
theorem sendPending_table (n : Nat) (s : State) :
    (sendPending n s).host.msix = s.host.msix ∧ (sendPending n s).mbx = s.mbx := by
  unfold sendPending
  split
  · simp
  · exact ⟨rfl, rfl⟩

theorem writePdu_slots_disabled {s : State} (h : s.pmc.en = false) (v : Word) :
    writePdu 0x08 v s = s.onPmc fun c => { c with slots := v.toNat % 8192 } := by
  simp [writePdu, h]

theorem writePdu_slots_enabled {s : State} (h : s.pmc.en = true) (v : Word) : writePdu 0x08 v s = s := by
  simp [writePdu, h]

/-- Settles O21: each access by the lemma about its path, clause by clause. -/
theorem registerAccessesComplete : Obligations.RegisterAccessesComplete := by
  unfold Obligations.RegisterAccessesComplete
  refine ⟨?bell, ?bellLost, ?rspCi, ?copyOut, ?badHeader, ?ring, ?tls, ?uart, ?pair, ?spine, ?window, ?windowLost,
    ?listCount, ?msix, ?evrEnable, ?slotsKept, ?slots⟩
  case bell =>
    intro s m hb hr hm hi
    exact ⟨_, rfl, by simp [doMbxDoorbell_idle hb hr hm hi]⟩
  case bellLost =>
    intro s m hb hr hm hi
    exact ⟨_, rfl, by simp [doMbxDoorbell_busy hb hr hm hi]⟩
  case rspCi =>
    intro s m ci hb hr hm
    exact ⟨_, rfl, mbxOf_doMbxRspCi ci.toNat hb hr hm⟩
  case copyOut =>
    intro s m jok hr hb hw
    exact congrArg _ (doMbxCopyOut_of_none jok hr hb hw)
  case badHeader =>
    intro s m jok o ho hm hb hw hv hh
    exact ⟨_, rfl, copyOut_badHeader jok ho hm hb hw hv hh⟩
  case ring =>
    intro s m r rs hr hm hw he hf
    refine ⟨_, rfl, ?_⟩
    simp [doResponseWrite_ring hr hm hw he hf, mbxOf_writeSlot, ring_mem_writeSlot, hw]
  case tls =>
    intro s m r rs hr hm hc hw
    exact ⟨_, rfl, out_doResponseWrite_tls hr hm hc hw⟩
  case uart =>
    intro s r rs hr hw
    exact ⟨_, rfl, out_doResponseWrite_uart hr hw⟩
  case pair =>
    intro s r rs hu hw
    exact ⟨_, rfl, relayTx_doResponseWrite_pair hu hw⟩
  case spine =>
    intro s r rs d hi hd hn hw
    exact ⟨_, rfl, relayTx_doResponseWrite_spine hi hd hn hw⟩
  case window =>
    intro s off v hb hr ho hi
    refine ⟨_, rfl, ?_⟩
    simp [doRegisterWrite_window v hb hr ho, writeWindow_idle hi]
  case windowLost =>
    intro s off v hb hr ho hi
    refine ⟨_, rfl, ?_⟩
    simp [doRegisterWrite_window v hb hr ho, writeWindow_busy hi]
  case listCount =>
    intro s v hb hr
    refine ⟨_, rfl, ?_⟩
    rw [doRegisterWrite_boot v hb (by decide) (by decide)]
    simp [writeBoot_listCount hr]
  case msix =>
    intro s off v hb hlo hhi
    refine ⟨_, rfl, ?_⟩
    rw [doRegisterWrite_msix v hb hlo hhi]
    exact sendPending_table ..
  case evrEnable =>
    intro s v hb hr
    refine ⟨_, rfl, ?_⟩
    rw [doRegisterWrite_evr v hb hr (by decide) (by decide)]
    simp [writeEvr]
  case slotsKept =>
    intro s v hb hr he
    refine ⟨_, rfl, ?_⟩
    rw [doRegisterWrite_pdu v hb hr (by decide) (by decide)]
    simp [writePdu_slots_enabled he]
  case slots =>
    intro s v hb hr he
    refine ⟨_, rfl, ?_⟩
    rw [doRegisterWrite_pdu v hb hr (by decide) (by decide)]
    simp [writePdu_slots_disabled he]

end Sys2Proof.Machine
end

section
/-! Laws of the decision of R149 and the statement about it (R32, R146, R149). -/

namespace Sys2Proof.Machine

/-- The extra that an accelerator's live lease frees as it is renewed (R149). -/
def ownExtra (s : State) (i : Nat) : Nat := match leaseOf s i with | some l => l.extra | none => 0

/-- The head of R149 is at most FREE with the accelerator's own extra. -/
theorem headWith_le_freeWith (s : State) (ls : List Lease) (t b aLim own : Nat) :
    headWith s ls t b aLim own ≤ freeWith s ls + own := by
  unfold headWith
  exact (min_le_right _ _).trans (min_le_right _ _)

/-- A choice whose first branch does not give the answer took its second. -/
theorem of_ite_eq_of_ne {α : Type} {c : Prop} [Decidable c] {x y z : α} (h : (if c then x else y) = z)
    (hx : x ≠ z) : ¬ c ∧ y = z := by
  by_cases hc : c
  · exact absurd ((if_pos hc).symm.trans h) hx
  · exact ⟨hc, (if_neg hc).symm.trans h⟩

/-- What R149 has established where it grants: nothing holds leave back, what is asked fits below the ceiling and into
the head, and the cap is the base cap with as much of what is wanted as the head allows. -/
theorem decideLeave_eq_grant {s : State} {t a want least ms cap : Nat}
    (h : decideLeave s t a want least ms = .grant cap) :
    (s.lv.table.isSome = true ∧ s.lv.stale = false ∧ tripped s t = false ∧ trayOff s t = false ∧ capdnLow s t = false) ∧
    least ≤ ceilingOf s t a ∧ 0 ≤ freeW s ∧
    ∃ head : Int, head ≤ freeW s + ownExtra s (t * 8 + a) ∧ ((least - accBase (descOf s t) a : Nat) : Int) ≤ head ∧
      cap = accBase (descOf s t) a +
        (min ((min want (ceilingOf s t a) - accBase (descOf s t) a : Nat) : Int) head).toNat := by
  unfold decideLeave at h
  extract_lets tb i b own base c want need aLim head mine at h
  obtain ⟨htable, h⟩ := of_ite_eq_of_ne h nofun
  obtain ⟨-, h⟩ := of_ite_eq_of_ne h nofun
  obtain ⟨htrip, h⟩ := of_ite_eq_of_ne h nofun
  obtain ⟨hoff, h⟩ := of_ite_eq_of_ne h nofun
  obtain ⟨hlow, h⟩ := of_ite_eq_of_ne h nofun
  obtain ⟨hceil, h⟩ := of_ite_eq_of_ne h nofun
  by_cases hfits : ((need : Int) ≤ head && 0 ≤ freeW s) = true
  · rw [if_pos hfits] at h
    injection h with hcap
    obtain ⟨hneed, hfree⟩ := (Bool.and_eq_true _ _).mp hfits
    simp only [Bool.or_eq_true, not_or, Bool.not_eq_true] at htable htrip hoff hlow
    obtain ⟨htable, hstale⟩ := htable
    obtain ⟨hlow, -⟩ := hlow
    exact ⟨⟨by simpa using htable, hstale, htrip, hoff, hlow⟩, Nat.not_lt.mp hceil, of_decide_eq_true hfree, head,
      headWith_le_freeWith .., of_decide_eq_true hneed, hcap.symm⟩
  · rw [if_neg hfits] at h
    obtain ⟨-, h⟩ := of_ite_eq_of_ne h nofun
    obtain ⟨-, h⟩ := of_ite_eq_of_ne h nofun
    cases h

/-- Settles O34: a cap within the head lies within FREE, the ceiling and what was asked. -/
theorem grantsStayWithinTheLedger : Obligations.GrantsStayWithinTheLedger := by
  unfold Obligations.GrantsStayWithinTheLedger
  intro s t a want least ms cap hask h
  obtain ⟨⟨htable, hstale, htrip, hoff, hlow⟩, hceil, hfree, head, hhead, hneed, rfl⟩ := decideLeave_eq_grant h
  refine ⟨hfree, htrip, hlow, hoff, htable, hstale, by omega, by omega, by omega, ?_⟩
  unfold ownExtra at hhead
  cases hlease : leaseOf s (t * 8 + a) with
  | none =>
    simp only [hlease] at hhead ⊢
    omega
  | some l =>
    simp only [hlease] at hhead ⊢
    omega

end Sys2Proof.Machine
end

section
/-! Laws of the pair's shared operations: what a change of the pair state, of this board's role, and a stand-down do (R15, R23,
R24, R127). -/

namespace Sys2Proof.Machine

/-- A command runs to the state that its meaning gives. -/
theorem Runs.next {c : Instr} {s t : State} {P : State → Prop} (h : exec c s = .next t) (hP : P t) : Runs c s P :=
  ⟨t, h, hP⟩

/-! ## Pair states (R23, R127) -/

/-- A change of the pair state changes nothing else of the pair. -/
@[simp] theorem setPair_pair (st : PairState) (s : State) : (setPair st s).pair = { s.pair with state := st } := by
  unfold setPair
  split
  next hst => rw [← eq_of_beq hst]
  next => simp [apply_ite State.pair]

section
variable (st : PairState) (s : State)
@[simp] theorem setPair_kt : (setPair st s).kt = s.kt := (setPair_foot ..).same .kt rfl
@[simp] theorem setPair_ket : (setPair st s).ket = s.ket := (setPair_foot ..).same .ket rfl
@[simp] theorem setPair_can : (setPair st s).can = s.can := (setPair_foot ..).same .can rfl
@[simp] theorem setPair_capdn : (setPair st s).keep.capdn = s.keep.capdn :=
  keepCore_capdn ((setPair_foot ..).same .core rfl)
end

/-! ## Roles (R15) -/

section
variable (lead : Bool) (s : State)
@[simp] theorem roleChange_pair : (roleChange lead s).pair = { s.pair with lead := lead } :=
  ((writeRoles_foot _).same .pair rfl).trans (by simp)
@[simp] theorem roleChange_kt : (roleChange lead s).kt = { s.kt with role := some lead } :=
  ((writeRoles_foot _).same .kt rfl).trans (by simp)
@[simp] theorem roleChange_keep : (roleChange lead s).keep = { s.keep with handoff := s.keep.handoff && !lead } :=
  ((writeRoles_foot _).same .keep rfl).trans (by simp)
@[simp] theorem roleChange_ket : (roleChange lead s).ket = s.ket := (roleChange_foot ..).same .ket rfl
@[simp] theorem roleChange_can : (roleChange lead s).can = s.can := (roleChange_foot ..).same .can rfl
end

/-! ## Stand-down (R24, R132, R138) -/

theorem endSwaps_foot (js : List Nat) (s : State) :
    Foot [.out, .keep, .jr, .host, .log, .pmc, .spn] s (js.foldl (fun s j => endSwap j s) s) :=
  Foot.foldl Foot.refl fun _ _ h => h.then (endSwap_foot ..) rfl

section
variable (js : List Nat) (s : State)
@[simp] theorem endSwaps_pair : (js.foldl (fun s j => endSwap j s) s).pair = s.pair := (endSwaps_foot ..).same .pair rfl
@[simp] theorem endSwaps_kt : (js.foldl (fun s j => endSwap j s) s).kt = s.kt := (endSwaps_foot ..).same .kt rfl
@[simp] theorem endSwaps_can : (js.foldl (fun s j => endSwap j s) s).can = s.can := (endSwaps_foot ..).same .can rfl
@[simp] theorem endSwaps_capdn : (js.foldl (fun s j => endSwap j s) s).keep.capdn = s.keep.capdn :=
  keepCore_capdn ((endSwaps_foot ..).same .core rfl)
@[simp] theorem loseWaiting_pair : (loseWaiting s).pair = s.pair := rfl
@[simp] theorem loseWaiting_kt : (loseWaiting s).kt = s.kt := rfl
@[simp] theorem loseWaiting_can : (loseWaiting s).can = s.can := rfl
@[simp] theorem dropFrames_pair : (dropFrames s).pair = s.pair := rfl
@[simp] theorem dropFrames_kt : (dropFrames s).kt = s.kt := rfl
end

section
variable (s : State)
/-- A board that stands down is a Shadow in the state STOOD_DOWN, records that role and drives no CAPDN line. -/
theorem standDown_lead : (standDown s).pair.lead = false := by simp [standDown]
theorem standDown_board : (standDown s).pair.board = .stoodDown := by simp [standDown]
theorem standDown_kt : (standDown s).kt = { s.kt with role := some false } := by simp [standDown]
theorem standDown_capdn : (standDown s).keep.capdn = 0 := by simp [standDown]
/-- Its waiting profile and user frames are discarded (R252), and what it knows of the actuators stays. -/
theorem standDown_can : (standDown s).can = (dropFrames s).can := by simp [standDown, dropFrames]
end

end Sys2Proof.Machine
end

section
/-! Laws of announcements, STATUS and higher actuator epochs, and the statement about them (R24, R130, R247, R249, R250). -/

namespace Sys2Proof.Machine

/-! ## A channel and an actuator through the shared operations -/

@[simp] theorem reach_now (t : Nat) (s : State) : (reach t s).now = max s.now t := by simp [reach]

section
variable (c : Nat) (f : CanCh → CanCh) (s : State)
@[simp] theorem canOf_onCh_same : canOf (onCh c f s) c = f (canOf s c) := Tab.get_mod_same ..
theorem canOf_onCh_other {k : Nat} (h : k ≠ c) : canOf (onCh c f s) k = canOf s k := Tab.get_mod_other _ _ _ h
end

section
variable (a : Nat) (f : Act → Act) (s : State)
@[simp] theorem actOf_onAct : actOf (onAct a f s) a = f (actOf s a) := Tab.get_mod_same ..
@[simp] theorem onAct_now : (onAct a f s).now = s.now := rfl
end

/-- An actuator is seen through the CAN controllers' table alone. -/
theorem actOf_congr {s t : State} (h : t.can.act = s.can.act) (a : Nat) : actOf t a = actOf s a := by
  rw [actOf, actOf, h]

@[simp] theorem actOf_event (code : Half) (sev : Nat) (data : List Nat) (cw : DWord) (ref : Nat) (s : State) (a : Nat) :
    actOf (event code sev data cw ref s) a = actOf s a := actOf_congr (by simp) a
@[simp] theorem actOf_finish0 (j : Nat) (r : Word) (s : State) (a : Nat) : actOf (finish0 j r s) a = actOf s a :=
  actOf_congr (by simp) a
@[simp] theorem actOf_reach (t : Nat) (s : State) (a : Nat) : actOf (reach t s) a = actOf s a := actOf_congr (by simp) a

/-! ## Offers and announcements (R245, R247) -/

@[simp] theorem offer_act (c key : Nat) (f : CanFrame) (s : State) : (offer c key f s).can.act = s.can.act := by
  unfold offer; split <;> rfl

theorem offer_annAt (c key : Nat) (f : CanFrame) (s : State) : (offer c key f s).can.annAt = s.can.annAt := by
  unfold offer; split <;> rfl

/-- CONFIG to an actuator changes no actuator's entry. -/
@[simp] theorem sendConfig_act (a : Nat) (s : State) : (sendConfig a s).can.act = s.can.act := by
  unfold sendConfig
  split
  · rfl
  · refine List.foldlRecOn (motive := fun u : State => u.can.act = s.can.act) _ _ rfl fun u hu c _ => ?_
    split
    · exact hu
    · exact (offer_act ..).trans hu

/-! ## STATUS (R249, R250) -/

/-- An actuator's entry after a STATUS, before an ACTUATOR_CONFIG that waits for it completes. -/
def statusTaken (ago : Nat) (st : ActStatus) (s : State) (x : Act) : Act :=
  { x with has := true, st := st, stamp := canStamp ago s, at_ := s.now, silent := false }

/-- A STATUS is recorded with its stamp and ends SILENT; in any state but WAIT_EPOCH it also ends the wait of an
ACTUATOR_CONFIG. -/
theorem actOf_recordStatus (c a ago : Nat) (st : ActStatus) (s : State) : actOf (recordStatus c a ago st s) a =
    if st.state = 3 then statusTaken ago st s (actOf s a)
    else { statusTaken ago st s (actOf s a) with wait := none } := by
  have hevent (p : Bool) (code : Half) (sev : Nat) (d : List Nat) (u : State) :
      actOf (if p then event code sev d 0 0 u else u) a = actOf u a := by
    split
    · exact actOf_event ..
    · rfl
  unfold recordStatus
  extract_lets old now stamp s1 s2 s3 s4
  have h4 : actOf s4 a = statusTaken ago st s (actOf s a) := by
    calc actOf s4 a = actOf s3 a := hevent ..
      _ = actOf s2 a := hevent ..
      _ = statusTaken ago st s (actOf s a) := actOf_onAct ..
  by_cases hst : st.state = 3
  · simp only [hst, beq_self_eq_true, if_true]
    exact (actOf_congr (sendConfig_act a s4) a).trans h4
  · simp only [hst, beq_iff_eq, if_false]
    split
    next => rw [actOf_finish0, actOf_onAct, h4]
    next hw => rw [h4] at hw ⊢; exact congrArg (fun w => { statusTaken ago st s (actOf s a) with wait := w }) hw

/-! ## Higher actuator epochs (R24, R248) -/

/-- A higher epoch on channel 0 or 1 has an acting Lead stand down. -/
theorem seeEpoch_lead {c e : Nat} {s : State} (hc : c < 2) (he : s.kt.actEpoch < e) (hl : s.pair.lead = true) :
    seeEpoch c e s = standDown s := by
  simp [seeEpoch, Nat.not_le.mpr hc, Nat.not_le.mpr he, hl]

/-- A Shadow notes a higher epoch as its partner's, where it is above what it knows of it. -/
theorem seeEpoch_shadow {c e : Nat} {s : State} (hc : c < 2) (he : s.kt.actEpoch < e) (hl : s.pair.lead = false) :
    (seeEpoch c e s).pair = { s.pair with
      hb := { s.pair.hb with actEpoch := BitVec.ofNat 32 (max s.pair.hb.actEpoch.toNat e) } } := by
  simp [seeEpoch, Nat.not_le.mpr hc, Nat.not_le.mpr he, hl]

/-- What is known of the actuators does not depend on the epochs seen. -/
@[simp] theorem actOf_seeEpoch (c e : Nat) (s : State) (a : Nat) : actOf (seeEpoch c e s) a = actOf s a := by
  unfold seeEpoch
  split
  · rfl
  split
  · exact actOf_congr (by rw [standDown_can]; rfl) a
  · rfl

/-- A stand-down leaves no frame waiting on any channel (R252). -/
theorem tx_standDown (k : Nat) (s : State) : (canOf (standDown s) k).tx = [] := by
  rw [canOf, standDown_can]
  rcases Tab.get_cases ({} : CanCh) (dropFrames s).can.ch k with h | ⟨p, hp, h⟩
  · rw [h]
  · obtain ⟨q, -, rfl⟩ := List.mem_map.mp hp
    rw [h]

theorem doActuatorStatus_eq {c a ago : Nat} {st : ActStatus} {s : State} (hr : running s = true)
    (hh : (canOf s c).hears = true) (hp : isProfile s c = true) :
    doActuatorStatus c a ago st s =
      let u := if (actCfg s a).isEmpty then watchPair (onCh c CanCh.alive s) else recordStatus c a ago st s
      if (canOf s c).st = .listen then seeEpoch c st.highEpoch.toNat u else u := by
  simp [doActuatorStatus, hr, hh, hp]

theorem doEpochAnnounceSeen_own {c pos e : Nat} {s : State} (hr : running s = true) (hh : (canOf s c).hears = true)
    (hp : isProfile s c = true) (hpos : pos = posOf s) :
    doEpochAnnounceSeen c pos e s = seeEpoch c e (watchPair (onCh c CanCh.alive s)) := by
  have hsame : posOf (watchPair (onCh c CanCh.alive s)) = posOf s := rfl
  simp [doEpochAnnounceSeen, hr, hh, hp, hpos, hsame]

/-! ## Announcements (R247) -/

theorem canOf_offer_other {c k : Nat} (h : k ≠ c) (key : Nat) (f : CanFrame) (s : State) :
    canOf (offer c key f s) k = canOf s k := by
  unfold offer
  split
  · rfl
  · exact canOf_onCh_other _ _ _ h

theorem canOf_offer_joins {c : Nat} {s : State} (h : (canOf s c).joins = true) (key : Nat) (f : CanFrame) :
    canOf (offer c key f s) c =
      { canOf s c with tx := (canOf s c).tx.filter (fun t => t.key != key) ++ [{ key := key, frame := f }] } := by
  simp [offer, h]

theorem canOf_offer_silent {c : Nat} {s : State} (h : (canOf s c).joins = false) (key : Nat) (f : CanFrame) :
    offer c key f s = s := by simp [offer, h]

/-- An announcement waits on channel `c`. -/
def announced (c : Nat) (s : State) : Bool := (canOf s c).tx.any (fun f => f.key == 200)

/-- What an announcement leaves as it is: whether a channel takes frames, and the conditions of further announcements. -/
structure AnnounceFrame (s t : State) : Prop where
  foot  : Foot [.can] s t
  annAt : t.can.annAt = s.can.annAt
  joins : ∀ k, (canOf t k).joins = (canOf s k).joins
  keeps : ∀ k, announced k s = true → announced k t = true

theorem AnnounceFrame.refl (s : State) : AnnounceFrame s s := ⟨Foot.refl, rfl, fun _ => rfl, fun _ => id⟩

/-- A frame offered in the announcement's slot. -/
theorem offer_announceFrame (c : Nat) (f : CanFrame) (s : State) : AnnounceFrame s (offer c 200 f s) := by
  cases hj : (canOf s c).joins with
  | false => rw [canOf_offer_silent hj]; exact .refl s
  | true =>
    have hch : ∀ k, canOf (offer c 200 f s) k = canOf s k ∨
        k = c ∧ announced k (offer c 200 f s) = true ∧ (canOf (offer c 200 f s) k).joins = (canOf s k).joins := fun k => by
      by_cases hk : k = c
      · subst hk
        exact .inr ⟨rfl, by simp [announced, canOf_offer_joins hj], by rw [canOf_offer_joins hj]; rfl⟩
      · exact .inl (canOf_offer_other hk ..)
    refine ⟨offer_foot .., offer_annAt .., fun k => ?_, fun k hk => ?_⟩
    · rcases hch k with h | ⟨-, -, h⟩
      · rw [h]
      · exact h
    · rcases hch k with h | ⟨-, h, -⟩
      · rw [announced, h]; exact hk
      · exact h

theorem announceOn_frame (c : Nat) (s : State) : AnnounceFrame s (announceOn c s) := by
  unfold announceOn
  split
  · exact offer_announceFrame ..
  · exact .refl s

theorem sendsField_congr {s t : State} (hw : t.pwr = s.pwr) (hb : t.boot = s.boot) (hp : t.pair = s.pair) :
    sendsField t = sendsField s := by
  rw [sendsField, sendsField, acting, acting, running_congr hw hb, hp]

theorem isProfile_congr {s t : State} (h : t.kt = s.kt) (c : Nat) : isProfile t c = isProfile s c := by
  rw [isProfile, isProfile, cfgOf, cfgOf, h]

/-- The channels of a list that join the bus get the announcement, and one that has it keeps it. -/
theorem announced_foldl {c : Nat} (cs : List Nat) {s : State} (hs : sendsField s = true) (hp : isProfile s c = true)
    (hj : (canOf s c).joins = true) (h : c ∈ cs ∨ announced c s = true) :
    announced c (cs.foldl (fun s c => announceOn c s) s) = true := by
  induction cs generalizing s with
  | nil => simpa using h
  | cons d ds ih =>
    have hframe := announceOn_frame d s
    refine ih ?_ ?_ ((hframe.joins c).trans hj) ?_
    · exact (sendsField_congr (hframe.foot.same .pwr rfl) (hframe.foot.same .boot rfl) (hframe.foot.same .pair rfl)).trans hs
    · exact (isProfile_congr (hframe.foot.same .kt rfl) c).trans hp
    · rcases h with h | h
      · rcases List.mem_cons.mp h with rfl | h
        · exact .inr (by simp [announceOn, hs, hp, announced, canOf_offer_joins hj])
        · exact .inl h
      · exact .inr (hframe.keeps c h)

theorem announced_announce {c : Nat} {s : State} (hs : sendsField s = true) (hc : c < 4) (hp : isProfile s c = true)
    (hj : (canOf s c).joins = true) : announced c (announce s) = true :=
  announced_foldl _ hs hp hj (.inl (List.mem_range.mpr hc))

@[simp] theorem announce_now (s : State) : (announce s).now = s.now := (announce_foot s).same .now rfl
@[simp] theorem announce_pair (s : State) : (announce s).pair = s.pair := (announce_foot s).same .pair rfl
@[simp] theorem announce_annAt (s : State) : (announce s).can.annAt = s.can.annAt :=
  List.foldlRecOn (motive := fun u : State => u.can.annAt = s.can.annAt) _ _ rfl
    fun u hu c _ => (announceOn_frame c u).annAt.trans hu

theorem doEpochAnnounceSend_eq {s : State} (hs : sendsField s = true) : doEpochAnnounceSend s =
    announce ((reach (s.can.annAt + 1000000) s).onCan fun x => { x with annAt := max s.now (s.can.annAt + 1000000) }) := by
  simp [doEpochAnnounceSend, hs]

/-- Settles O51: each row by what the operation that it ends in does. -/
theorem actuatorCommandsComplete : Obligations.ActuatorCommandsComplete := by
  unfold Obligations.ActuatorCommandsComplete
  refine ⟨?status, ?unconfigured, ?leadSees, ?shadowSees, ?announcement, ?burst, ?silent, ?timeout⟩
  case status =>
    intro s c a ago st hr hh hp ha
    refine .next (t := doActuatorStatus c a ago st s) rfl ?_
    have hact : actOf (doActuatorStatus c a ago st s) a = actOf (recordStatus c a ago st s) a := by
      rw [doActuatorStatus_eq hr hh hp]
      simp only [List.isEmpty_eq_false_iff.mpr ha, Bool.false_eq_true, if_false]
      split
      · exact actOf_seeEpoch ..
      · rfl
    simp only [hact, actOf_recordStatus]
    split
    next h3 => exact ⟨rfl, rfl, rfl, rfl, rfl, fun h => absurd h3 h⟩
    next => exact ⟨rfl, rfl, rfl, rfl, rfl, fun _ => rfl⟩
  case unconfigured =>
    intro s c a ago st hr hl hp ha hc he hlead
    have hh : (canOf s c).hears = true := by simp [CanCh.hears, hl]
    refine .next (t := doActuatorStatus c a ago st s) rfl ?_
    have hu : doActuatorStatus c a ago st s = standDown (watchPair (onCh c CanCh.alive s)) := by
      rw [doActuatorStatus_eq hr hh hp, ← seeEpoch_lead hc (s := watchPair (onCh c CanCh.alive s)) he hlead]
      simp [ha, hl]
    rw [hu]
    exact ⟨actOf_congr (by rw [standDown_can]; rfl) a, standDown_lead _, standDown_board _⟩
  case leadSees =>
    intro s c pos e hr hh hp hpos hc he hlead
    refine .next rfl ?_
    rw [doEpochAnnounceSeen_own hr hh hp hpos, seeEpoch_lead (s := watchPair (onCh c CanCh.alive s)) hc he hlead]
    exact ⟨standDown_lead _, standDown_board _, fun k _ => tx_standDown k _⟩
  case shadowSees =>
    intro s c pos e hr hh hp hpos hc he hlead
    refine .next rfl ?_
    simp only [doEpochAnnounceSeen_own hr hh hp hpos, seeEpoch_shadow (s := watchPair (onCh c CanCh.alive s)) hc he hlead]
    exact ⟨hlead, (BitVec.toNat_ofNat ..).trans (Nat.mod_eq_of_lt (max_lt s.pair.hb.actEpoch.isLt e.isLt))⟩
  case announcement =>
    intro s hs
    have hsend := doEpochAnnounceSend_eq hs
    refine .next (t := doEpochAnnounceSend s) rfl ⟨?_, ?_, fun c hc hp hj => ?_⟩
    · simp [hsend]
    · simp [hsend]
    · rw [hsend]
      change announced c (announce _) = true
      exact announced_announce ((sendsField_congr (by simp) (by simp) (by simp)).trans hs) hc
        ((isProfile_congr (by simp) c).trans hp) (by simpa [canOf] using hj)
  case burst =>
    intro s k hk
    refine .next rfl ?_
    simp [doEpochBurst, hk]
  case silent =>
    intro s a hr ha hn
    refine .next rfl ?_
    simp [doActuatorSilent, hr, ha, hn]
  case timeout =>
    intro s a j d hw
    refine .next rfl ?_
    simp [doActuatorConfigTimeout, hw]

end Sys2Proof.Machine
end

section
/-! Laws of what passes over the links: sending, counting and forwarding frames, and events, leave the ring's state and the
lanes' states as they are, and change of the rest only what is sent and recorded (R112, R114, R115, R352). -/

namespace Sys2Proof.Machine

/-- The Spine node but for its lanes and the sequence numbers of what it sends. -/
def ringCore (p : Spine) : Spine := { p with lanes := [], fseq := 0, pseq := 0, bulkLane := false }
/-- A lane but for the counts of frames sent and received. -/
def laneCore (l : Lane) : Lane := { l with sent := 0, recvd := 0 }

/-- What passes over the links and into the logbook leaves the ring and the lanes as they are. -/
structure Carried (s t : State) : Prop where
  foot : Foot [.out, .keep, .host, .log, .pmc, .spn] s t
  ring : ringCore t.spn = ringCore s.spn
  lane : ∀ l, laneCore (laneOf t l) = laneCore (laneOf s l)

/-! ## The operations that only carry -/

theorem Carried.refl (s : State) : Carried s s := ⟨Foot.refl, rfl, fun _ => rfl⟩

theorem Carried.trans {s t u : State} (h : Carried s t) (g : Carried t u) : Carried s u :=
  ⟨h.foot.then g.foot rfl, g.ring.trans h.ring, fun l => (g.lane l).trans (h.lane l)⟩

theorem Carried.ite {c : Prop} [Decidable c] {s t u : State} (h : Carried s t) (g : Carried s u) :
    Carried s (if c then t else u) := by
  split
  · exact h
  · exact g

theorem Carried.of_spn {s t : State} (h : Foot [.out, .keep, .host, .log, .pmc, .spn] s t) (hs : t.spn = s.spn) :
    Carried s t := ⟨h, by rw [hs], fun l => by rw [laneOf, laneOf, hs]⟩

/-- The sequence numbers of what is sent moved on. -/
theorem Carried.onSpn {s : State} {f : Spine → Spine} (hr : ringCore (f s.spn) = ringCore s.spn)
    (hl : (f s.spn).lanes = s.spn.lanes) : Carried s (s.onSpn f) :=
  ⟨Foot.refl.onSpn rfl, hr, fun l => by rw [laneOf, laneOf, State.onSpn_spn, hl]⟩

theorem countN_carried (ev n : Nat) (s : State) : Carried s (countN ev n s) :=
  .of_spn ((countN_foot ..).mono rfl) (countN_spn ..)
theorem count_carried (ev : Nat) (s : State) : Carried s (count ev s) := .of_spn ((count_foot ..).mono rfl) (count_spn ..)
theorem emit_carried (o : Output) (s : State) : Carried s (emit o s) := .of_spn ((emit_foot ..).mono rfl) rfl

/-- Frames counted on a lane. -/
theorem onLane_carried (n : Nat) (f : Lane → Lane) (hf : ∀ x, laneCore (f x) = laneCore x) (s : State) :
    Carried s (onLane n f s) := by
  refine ⟨(onLane_foot ..).mono rfl, rfl, fun l => ?_⟩
  change laneCore ((s.spn.lanes.mod {} n f).get {} l) = laneCore (s.spn.lanes.get {} l)
  by_cases h : l = n
  · rw [h, Tab.get_mod_same, hf]
  · rw [Tab.get_mod_other _ _ _ h]

theorem laneCount_carried (l n : Nat) (urgent : Bool) (s : State) : Carried s (laneCount l n urgent s) := by
  have hsent := (onLane_carried l (fun x => { x with sent := x.sent + n }) (fun _ => rfl) s).trans
    (countN_carried (0x2D0 + 8 * l) n _)
  unfold laneCount
  split
  · exact hsent.trans (countN_carried ..)
  · exact hsent

theorem laneSent_carried (l n : Nat) (urgent : Bool) (s : State) : Carried s (laneSent l n urgent s) := by
  unfold laneSent
  split
  · exact laneCount_carried ..
  · exact .refl s

theorem bulkSent_carried (n : Nat) (s : State) : Carried s (bulkSent n s) := by
  unfold bulkSent
  split
  · exact laneSent_carried ..
  split
  · exact laneSent_carried ..
  · have hturn : Carried s (s.onSpn fun x => { x with bulkLane := x.bulkLane != (n % 2 == 1) }) := .onSpn rfl rfl
    exact (hturn.trans (laneSent_carried ..)).trans (laneSent_carried ..)

theorem sendPair_carried (p : Payload) (s : State) : Carried s (sendPair p s) := by
  unfold sendPair
  split
  · exact .refl s
  · have hnum : Carried s (emit (pairOut s p) (s.onSpn fun x => { x with pseq := (x.pseq + p.frames) % 2 ^ 32 })) :=
      (Carried.onSpn rfl rfl).trans (emit_carried ..)
    dsimp only
    split
    · exact (hnum.trans (laneSent_carried ..)).trans (laneSent_carried ..)
    · exact hnum.trans (bulkSent_carried ..)

theorem sendSpine_carried (dst : Nat) (p : Payload) (s : State) : Carried s (sendSpine dst p s) := by
  unfold sendSpine
  split
  · exact .refl s
  · have hnum : Carried s (emit (rowOut s dst p) (s.onSpn fun x => { x with fseq := (x.fseq + p.frames) % 2 ^ 32 })) :=
      (Carried.onSpn rfl rfl).trans (emit_carried ..)
    exact (hnum.trans (laneSent_carried ..)).trans (laneSent_carried ..)

theorem folioEvent_carried (f : Folio) (s : State) : Carried s (folioEvent f s) :=
  .of_spn ((folioEvent_foot ..).mono rfl) ((folioEvent_foot ..).same .spn rfl)

theorem thawed_carried (id cause held : Nat) (s : State) : Carried s (thawed id cause held s) := by
  unfold thawed
  exact (Carried.ite (sendPair_carried ..) (.refl s)).trans (folioEvent_carried ..)

theorem event_carried (code : Half) (sev : Nat) (data : List Nat) (cw : DWord) (ref : Nat) (s : State) :
    Carried s (event code sev data cw ref s) := by
  unfold event reportBreak
  split
  · exact (folioEvent_carried ..).trans (thawed_carried ..)
  · exact folioEvent_carried ..

/-! ## Frames sent (R112, R115) -/

/-- A frame sent over the Spine leaves this node in the ring's lanes once. -/
theorem out_sendSpine {s : State} (h : inserted s = true) (dst : Nat) (p : Payload) :
    (sendSpine dst p s).out = rowOut s dst p :: s.out := by
  simp [sendSpine, h, emit, rowOut]

/-- A frame sent over the pair link leaves once. -/
theorem out_sendPair {s : State} (h : pairUp s = true) (p : Payload) : (sendPair p s).out = pairOut s p :: s.out := by
  unfold sendPair
  simp only [h, Bool.not_true, Bool.false_eq_true, if_false]
  split
  · simp [emit, pairOut]
  · simp [emit, pairOut]

/-! ## Views that only carrying leaves -/

/-- A view of this board's figures and of the ring alone. -/
structure SameNode (s t : State) : Prop where
  pwr  : t.pwr = s.pwr
  boot : t.boot = s.boot
  otp  : t.otp = s.otp
  kt   : t.kt = s.kt
  pair : t.pair = s.pair

theorem Carried.node {s t : State} (h : Carried s t) : SameNode s t :=
  ⟨h.foot.same .pwr rfl, h.foot.same .boot rfl, h.foot.same .otp rfl, h.foot.same .kt rfl, h.foot.same .pair rfl⟩

theorem SameNode.trans {s t u : State} (h : SameNode s t) (g : SameNode t u) : SameNode s u :=
  ⟨g.pwr.trans h.pwr, g.boot.trans h.boot, g.otp.trans h.otp, g.kt.trans h.kt, g.pair.trans h.pair⟩

theorem reach_node (d : Nat) (s : State) : SameNode s (reach d s) := ⟨by simp, by simp, by simp, by simp, by simp⟩
theorem onSpn_node (f : Spine → Spine) (s : State) : SameNode s (s.onSpn f) := ⟨rfl, rfl, rfl, rfl, rfl⟩

section
variable {s t : State} (h : SameNode s t)
include h

theorem SameNode.running : running t = running s := running_congr h.pwr h.boot
theorem SameNode.acting : acting t = acting s := by rw [Machine.acting, Machine.acting, h.running, h.pair]
theorem SameNode.brd : brd t = brd s := by rw [Machine.brd, Machine.brd, h.kt, h.otp]
theorem SameNode.nodeAddr : nodeAddr t = nodeAddr s := by rw [Machine.nodeAddr, Machine.nodeAddr, h.pwr, h.brd]
theorem SameNode.partnerAddr : partnerAddr t = partnerAddr s := by
  rw [Machine.partnerAddr, Machine.partnerAddr, h.pwr, h.brd]
theorem SameNode.myEntry : myEntry t = myEntry s := by
  rw [Machine.myEntry, Machine.myEntry, h.otp, h.pwr, h.brd, h.pair, h.kt]
theorem SameNode.censusAll (hc : t.spn.census = s.spn.census) : censusAll t = censusAll s := by
  rw [Machine.censusAll, Machine.censusAll, h.myEntry, hc, h.otp]
theorem SameNode.atMaster (hc : t.spn.census = s.spn.census) (hf : t.spn.formed = s.spn.formed) :
    atMaster t = atMaster s := by
  rw [Machine.atMaster, Machine.atMaster, h.censusAll hc, hf, h.pwr, h.kt]
theorem SameNode.isMaster (hc : t.spn.census = s.spn.census) (hf : t.spn.formed = s.spn.formed)
    (ho : t.spn.offArc = s.spn.offArc) : isMaster t = isMaster s := by
  rw [Machine.isMaster, Machine.isMaster, h.acting, h.atMaster hc hf, hf, ho]
theorem SameNode.inserted (hi : t.spn.insert = s.spn.insert) : inserted t = inserted s := by
  rw [Machine.inserted, Machine.inserted, h.running, hi]
theorem SameNode.rowOut (hg : t.spn.gen = s.spn.gen) (hf : t.spn.fseq = s.spn.fseq) (dst : Nat) (p : Payload) :
    rowOut t dst p = rowOut s dst p := by rw [Machine.rowOut, Machine.rowOut, h.nodeAddr, hg, hf]
end

section
variable {s t : State} (h : Carried s t)
include h

/-- A part of the Spine node that is no lane and no sequence number is as before. -/
theorem Carried.part {α : Type} (f : Spine → α) (hf : ∀ p, f (ringCore p) = f p) : f t.spn = f s.spn := by
  rw [← hf, h.ring, hf]
/-- A part of a lane that is no count of frames is as before. -/
theorem Carried.lanePart {α : Type} (f : Lane → α) (hf : ∀ x, f (laneCore x) = f x) (l : Nat) :
    f (laneOf t l) = f (laneOf s l) := by
  rw [← hf, h.lane, hf]

theorem Carried.now : t.now = s.now := h.foot.same .now rfl
theorem Carried.formed : t.spn.formed = s.spn.formed := h.part Spine.formed fun _ => rfl
theorem Carried.census : t.spn.census = s.spn.census := h.part Spine.census fun _ => rfl
theorem Carried.offArc : t.spn.offArc = s.spn.offArc := h.part Spine.offArc fun _ => rfl
theorem Carried.seen : t.spn.seen = s.spn.seen := h.part Spine.seen fun _ => rfl
theorem Carried.censusAll : censusAll t = censusAll s := h.node.censusAll h.census
theorem Carried.isMaster : isMaster t = isMaster s := h.node.isMaster h.census h.formed h.offArc
theorem Carried.rowTime : rowTime t = rowTime s := by
  rw [Machine.rowTime, Machine.rowTime, h.now, show t.spn.rowOff = s.spn.rowOff from h.part Spine.rowOff fun _ => rfl]
theorem Carried.forMeAlone (dst : BitVec 8) : forMeAlone t dst = forMeAlone s dst := by
  rw [Machine.forMeAlone, Machine.forMeAlone, h.node.nodeAddr, h.isMaster]
theorem Carried.seenBefore (f : FrameHdr) : seenBefore t f = seenBefore s f := by
  rw [Machine.seenBefore, Machine.seenBefore, h.seen]
end

end Sys2Proof.Machine
end

section
/-! Laws of ring formation and row time, and the statement about them (R14, R116 to R118, R120, R121, R125). -/

namespace Sys2Proof.Machine

/-! ## The census -/

theorem Tab.find_erase_same {α : Type} (t : Tab α) (k : Nat) : (t.erase k).find k = none := by
  induction t with
  | nil => rfl
  | cons p t ih =>
    obtain ⟨j, v⟩ := p
    by_cases h : j = k
    · simpa [Tab.erase, h] using ih
    · simpa [Tab.erase, Tab.find, h] using ih

/-! ## Frames received (R112, R114) -/

theorem forwardFrame_carried (f : FrameHdr) (p : Payload) (s : State) : Carried s (forwardFrame f p s) := by
  unfold forwardFrame
  dsimp only
  generalize (if f.lane == 0 then (1 : Fin 4) else 0) = out
  exact .ite (.refl s) (((emit_carried ..).trans (laneSent_carried ..)).trans (count_carried ..))

/-- A frame counted in at its lane. -/
def countedIn (f : FrameHdr) (p : Payload) (s : State) : State :=
  countN (0x2D1 + 8 * f.lane.val) (rxFrames p) (onLane f.lane (fun l => { l with recvd := l.recvd + rxFrames p }) s)

theorem countedIn_carried (f : FrameHdr) (p : Payload) (s : State) : Carried s (countedIn f p s) :=
  (onLane_carried f.lane (fun l => { l with recvd := l.recvd + rxFrames p }) (fun _ => rfl) s).trans (countN_carried ..)

theorem rxCheck_sound {f : FrameHdr} (p : Payload) {s : State} (hr : running s = true) (hu : (laneOf s f.lane).up = true)
    (hs : f.sound = true) : rxCheck f p s =
      if 2 ≤ f.lane.val then (true, countedIn f p s)
      else if f.src.toNat == nodeAddr (countedIn f p s) then (sameAddress p (countedIn f p s), countedIn f p s)
      else (forMeAlone (countedIn f p s) f.dst || f.dst == 0xFF, forwardFrame f p (countedIn f p s)) := by
  simp [rxCheck, hr, hu, hs, countedIn]

/-- A frame that comes in for this node is passed up, and what precedes only carries. -/
theorem rxCheck_comes {f : FrameHdr} {s : State} (h : Comes f s) (p : Payload) :
    (rxCheck f p s).1 = true ∧ Carried s (rxCheck f p s).2 := by
  have hin := countedIn_carried f p s
  rw [rxCheck_sound p h.isRunning h.up h.sound]
  split
  · exact ⟨rfl, hin⟩
  next hl =>
    have hl : f.lane.val < 2 := Nat.not_le.mp hl
    have hsrc : (f.src.toNat == nodeAddr (countedIn f p s)) = false := by
      rw [hin.node.nodeAddr]
      simpa using h.other hl
    simp only [hsrc, Bool.false_eq_true, if_false]
    refine ⟨?_, hin.trans (forwardFrame_carried ..)⟩
    rw [hin.forMeAlone]
    simpa using h.mine hl

/-- A frame that comes in for this node is taken by its row, in a state that only carrying has led to. -/
theorem rxFrame_comes {f : FrameHdr} {s : State} (h : Comes f s) (p : Payload) :
    ∃ u, Carried s u ∧ ∀ mine, rxFrame f p mine s = mine (noteSeen f u) := by
  obtain ⟨hme, hc⟩ := rxCheck_comes h p
  refine ⟨(rxCheck f p s).2, hc, fun mine => ?_⟩
  simp [rxFrame, hme, hc.seenBefore, h.new]

/-- A FORM frame of another node that carries this node's address is taken too (R14). -/
theorem rxFrame_sameAddress {f : FrameHdr} {s : State} {e : FormEntry} (hr : running s = true)
    (hu : (laneOf s f.lane).up = true) (hs : f.sound = true) (hl : f.lane.val < 2) (hsrc : f.src.toNat = nodeAddr s)
    (he : e.serial ≠ s.otp.serial) (hn : seenBefore s f = false) :
    ∃ u, Carried s u ∧ ∀ mine, rxFrame f (.form e) mine s = mine (noteSeen f u) := by
  have hin := countedIn_carried f (.form e) s
  refine ⟨_, hin, fun mine => ?_⟩
  have hother : sameAddress (.form e) (countedIn f (.form e) s) = true := by
    simpa [sameAddress, hin.node.otp] using he
  rw [rxFrame, rxCheck_sound _ hr hu hs]
  simp [Nat.not_le.mpr hl, hsrc, hin.node.nodeAddr, hother, hin.seenBefore, hn]

/-! ## FORM and the census (R14, R116, R118) -/

/-- A new entry of a ring that is not formed enters the census, which settles anew. -/
theorem takeForm_new {e : FormEntry} {s : State} (hf : s.spn.formed = false) (hn : s.spn.census.find e.serial.toNat = none) :
    (takeForm e s).spn.census = s.spn.census.set e.serial.toNat { entry := e, at_ := s.now } ∧
      (takeForm e s).spn.settled = false ∧ (takeForm e s).spn.changedAt = s.now := by
  simp [takeForm, hf, hn, pruneBroker, censusChanged]

/-- A new entry that fails a check of the formed ring is left out. -/
theorem takeForm_refused {e : FormEntry} {s : State} (hf : s.spn.formed = true)
    (hn : s.spn.census.find e.serial.toNat = none) (hc : censusCheck true (e :: censusAll s) ≠ 0) : takeForm e s = s := by
  simp [takeForm, hf, hn, hc]

/-- This node's own entry, as it sends it, in its census; a change has the census settle anew. -/
def enterSelf (u : State) : State :=
  let old := u.spn.census.find u.otp.serial.toNat
  let t := u.onSpn fun p => { p with
    formAt := u.now, census := p.census.set u.otp.serial.toNat { old.getD {} with entry := myEntry u, at_ := u.now } }
  if old.any (fun c => c.entry == myEntry u) then t else censusChanged t

theorem enterSelf_spn (u : State) : (enterSelf u).spn.formAt = u.now ∧
    ((enterSelf u).spn.census.get {} u.otp.serial.toNat).entry = myEntry u := by
  unfold enterSelf
  dsimp only
  split
  · simp
  · simp [censusChanged]

theorem enterSelf_foot (u : State) : Foot [.spn] u (enterSelf u) :=
  .ite (Foot.refl.onSpn rfl) ((Foot.refl.onSpn rfl).then (censusChanged_foot _) rfl)

/-- FORM_SEND: this node's entry sent over the ring, then noted in the census. -/
theorem doFormSend_eq {s : State} (h : inserted s = true) : ∃ u, Carried (reach (s.spn.formAt + 1000) s) u ∧
    u.out = rowOut s 0xFF (.form (myEntry s)) :: s.out ∧ doFormSend s = enterSelf u := by
  have hr := reach_node (s.spn.formAt + 1000) s
  have hin : inserted (reach (s.spn.formAt + 1000) s) = true := (hr.inserted (by simp)).trans h
  refine ⟨_, sendSpine_carried 0xFF (.form (myEntry (reach (s.spn.formAt + 1000) s))) _, ?_, ?_⟩
  · rw [out_sendSpine hin, hr.rowOut (by simp) (by simp), hr.myEntry, reach_out]
  · simp only [doFormSend, h, Bool.not_true, Bool.false_eq_true, if_false]
    rfl

/-! ## The settled census (R117, R118) -/

theorem doCensusSettled_eq {s : State} (h : inserted s = true) (hs : s.spn.settled = false) : doCensusSettled s =
    let u := (reach (s.spn.changedAt + 100000) s).onSpn fun p => { p with settled := true }
    let bad := censusCheck s.spn.formed (censusAll s)
    if bad ≠ 0 then
      if s.spn.formed then u else event 0x0501 2 [bad] 0 0 (u.onSpn fun p => { p with cause := bad })
    else
      let u := u.onSpn fun p => { p with cause := 0 }
      if acting s && !s.spn.offArc && atMaster s then declareRing u else u := by
  have hn := (reach_node (s.spn.changedAt + 100000) s).trans (onSpn_node (fun p => { p with settled := true }) _)
  have hn0 := hn.trans (onSpn_node (fun p => { p with cause := 0 }) _)
  simp [doCensusSettled, h, hs, hn.censusAll (s := s) (by simp), hn0.acting, hn0.atMaster (s := s) (by simp) (by simp)]

/-- A census that passes its checks has the acting Lead of the master position declare the ring. -/
theorem doCensusSettled_declares {s : State} (hi : inserted s = true) (hs : s.spn.settled = false)
    (hc : censusCheck s.spn.formed (censusAll s) = 0) (ha : acting s = true) (ho : s.spn.offArc = false)
    (hm : atMaster s = true) : ∃ u, doCensusSettled s = declareRing u ∧ SameNode s u ∧
      u.now = max s.now (s.spn.changedAt + 100000) ∧ u.spn = { s.spn with settled := true, cause := 0 } :=
  ⟨((reach (s.spn.changedAt + 100000) s).onSpn fun p => { p with settled := true }).onSpn fun p => { p with cause := 0 },
    by simp [doCensusSettled_eq hi hs, hc, ha, ho, hm], (reach_node ..).trans ((onSpn_node ..).trans (onSpn_node ..)),
    by simp, by simp⟩

/-- A census that fails a check at formation is reported with the check. -/
theorem doCensusSettled_refuses {s : State} (hi : inserted s = true) (hs : s.spn.settled = false)
    (hf : s.spn.formed = false) (hc : censusCheck false (censusAll s) ≠ 0) :
    ∃ u, Carried u (doCensusSettled s) ∧
      u.spn = { s.spn with settled := true, cause := censusCheck false (censusAll s) } := by
  refine ⟨((reach (s.spn.changedAt + 100000) s).onSpn fun p => { p with settled := true }).onSpn
    fun p => { p with cause := censusCheck false (censusAll s) }, ?_, by simp⟩
  simp only [doCensusSettled_eq hi hs, hf, hc, ne_eq, not_false_eq_true, if_true, Bool.false_eq_true, if_false]
  exact event_carried ..

/-- The Spine node on a formed ring under a generation, from its first row tick on. -/
def onRing (gen first master now : Nat) (p : Spine) : Spine :=
  { p with formed := true, gen := gen, cause := 0, firstTick := some first, master := some master, timeAt := now }

/-- A ring joined is reported, and the broker's shares are forgotten. -/
theorem joinRing_carried (gen first master : Nat) (s : State) :
    Carried ((s.onSpn (onRing gen first master s.now)).onLv fun l => { l with shares := [] }) (joinRing gen first master s) :=
  event_carried ..

/-- A ring declared is joined, and FORMED goes round it. -/
theorem declareRing_carried (s : State) : Carried
    ((s.onSpn (onRing ((s.spn.gen + 1) % 2 ^ 32) ((rowTime s + 20000000 + 9999999) / 10000000) (nodeAddr s) s.now)).onLv
      fun l => { l with shares := [] }) (declareRing s) :=
  (joinRing_carried ..).trans (sendSpine_carried ..)

/-- FORMED has a node of no formed ring join, where its own checks pass. -/
theorem doFormedFrame_joins {f : FrameHdr} {gen digest : Word} {first : DWord} {s : State} (h : Comes f s)
    (hf : s.spn.formed = false) (hc : censusCheck (gen.toNat != 0) (censusAll s) = 0) :
    ∃ u, doFormedFrame f gen digest first s = joinRing gen.toNat first.toNat f.src.toNat u := by
  obtain ⟨u, hu, hrx⟩ := rxFrame_comes h (.formed gen.toNat digest first.toNat)
  have hform : (noteSeen f u).spn.formed = false := hu.formed.trans hf
  have hall : censusAll (noteSeen f u) = censusAll s := hu.censusAll
  exact ⟨noteSeen f u, by rw [doFormedFrame, hrx]; simp [hform, hall, hc]⟩

/-! ## Row time (R120, R121) -/

theorem doTimeSend_eq {s : State} (hm : isMaster s = true) (hi : inserted s = true) : doTimeSend s =
    let u := (reach (s.spn.timeSent + 1000) s).onSpn fun p => { p with
      timeSent := max s.now (s.spn.timeSent + 1000), master := some (nodeAddr (reach (s.spn.timeSent + 1000) s)) }
    sendSpine 0xFF (.time {
      rowTime := BitVec.ofNat 64 (rowTime u), corr := 0, tick := BitVec.ofNat 64 (rowTick u),
      epochTick := BitVec.ofNat 64 s.spn.epochTick, gen := BitVec.ofNat 32 s.spn.gen, serial := s.otp.serial }) u := by
  simp [doTimeSend, hm, hi]

/-- A TIME frame that is not the master's own is taken on a formed ring. -/
theorem doTimeFrame_taken {f : FrameHdr} (p : TimePayload) {s : State} (h : Comes f s)
    (hm : isMaster s = false) : ∃ u, Carried (draw s).2 u ∧ doTimeFrame f p s = takeTime f p true (noteSeen f u) := by
  have hd : Comes f (draw s).2 := ⟨h.isRunning, h.up, h.sound, h.other, h.mine, h.new⟩
  obtain ⟨hme, hc⟩ := rxCheck_comes hd
    (.time { p with corr := p.corr + BitVec.ofNat 32 ((laneOf s f.lane).delay + Config.residence s.free) })
  refine ⟨_, hc, ?_⟩
  have hseen : seenBefore (draw s).2 f = false := h.new
  have hmaster : isMaster (draw s).2 = false := hm
  change (let r := rxCheck f (.time { p with
      corr := p.corr + BitVec.ofNat 32 ((laneOf s f.lane).delay + Config.residence s.free) }) (draw s).2
    if !r.1 || isMaster r.2 then r.2
    else takeTime f p (!seenBefore r.2 f) (if !seenBefore r.2 f then noteSeen f r.2 else r.2)) = _
  simp [hme, hc.seenBefore, hseen, hc.isMaster, hmaster]

/-- A first copy of a TIME frame sets row time from its figures, the lane's delay included, and names the master. -/
theorem takeTime_spn (f : FrameHdr) (p : TimePayload) {s : State} (hf : s.spn.formed = true) :
    (takeTime f p true s).now = s.now ∧
    (takeTime f p true s).spn.rowOff = ((p.rowTime.toNat + p.corr.toNat + (laneOf s f.lane).delay : Nat) : Int) - (s.now * 1000 : Nat) ∧
    (takeTime f p true s).spn.timeAt = s.now ∧ (takeTime f p true s).spn.master = some f.src.toNat ∧
    (takeTime f p true s).spn.epochTick = p.epochTick.toNat := by
  unfold takeTime
  simp only [hf, Bool.not_true, Bool.false_and, Bool.or_self, Bool.false_eq_true, if_false]
  split
  · simp
  · simp

/-- Without TIME for 5 ms a node that is no master leaves the arc. -/
theorem doTimeTimeout_carried {s : State} (hr : running s = true) (hf : s.spn.formed = true) (ho : s.spn.offArc = false)
    (hm : isMaster s = false) : Carried ((reach (s.spn.timeAt + 5000) s).onSpn fun p =>
      { p with offArc := true, rejoin := false, timeFrom := none }) (doTimeTimeout s) := by
  simp only [doTimeTimeout, hr, hf, ho, hm, Bool.not_true, Bool.or_self, Bool.false_eq_true, if_false]
  exact event_carried ..

@[simp] theorem laneOf_onLane_same (n : Nat) (f : Lane → Lane) (s : State) : laneOf (onLane n f s) n = f (laneOf s n) :=
  Tab.get_mod_same ..

/-- On a lane that is up, ECHO goes out 100 ms after the last one was begun. -/
theorem doEchoMeasure_up {n : Nat} {s : State} (h : echoLane s n = true) (hu : (laneOf s n).up = true) :
    Carried (onLane n (fun l => { l with echoAt := max s.now ((laneOf s n).echoAt + 100000) })
      (reach ((laneOf s n).echoAt + 100000) s)) (doEchoMeasure n s) ∧
    (doEchoMeasure n s).out = .echo n (((if n < 2 then s.spn.fseq else s.spn.pseq) + 1) % 2 ^ 32) :: s.out := by
  simp only [doEchoMeasure, h, hu, Bool.not_true, Bool.false_eq_true, if_false, if_true, reach_now]
  refine ⟨((Carried.onSpn ?_ ?_).trans (emit_carried ..)).trans (laneCount_carried ..), ?_⟩
  · split <;> rfl
  · split <;> rfl
  · simp [emit, onLane]

/-- A sound ECHO frame is counted in; this node's own gives the lane's delay, and another's goes back. -/
theorem doEchoFrame_sound {f : FrameHdr} (rtt : Nat) {s : State} (h : echoLane s f.lane = true) (hs : f.sound = true) :
    ∃ u, Carried s u ∧ u.out = s.out ∧ doEchoFrame f rtt s =
      if f.src.toNat = nodeAddr u then onLane f.lane (fun l => { l with delay := rtt / 2, echo := true }) u
      else laneCount f.lane 1 true (emit (.forward f.lane f .echo) u) :=
  ⟨_, (onLane_carried f.lane (fun l => { l with recvd := l.recvd + 1 }) (fun _ => rfl) s).trans
    (count_carried (0x2D1 + 8 * f.lane.val) _), by simp, by simp [doEchoFrame, h, hs]⟩

/-- Settles O41: each row by the lemma about its path. -/
theorem ringFormsAndKeepsTime : Obligations.RingFormsAndKeepsTime := by
  unfold Obligations.RingFormsAndKeepsTime
  refine ⟨?form, ?formFrame, ?sameAddress, ?leftOut, ?silent, ?formed, ?refused, ?formedFrame, ?time, ?timeFrame, ?timeout,
    ?rejoin, ?noRejoin, ?echo, ?echoFrame⟩
  case form =>
    intro s hi
    obtain ⟨u, hu, hout, heq⟩ := doFormSend_eq hi
    obtain ⟨hat, hentry⟩ := enterSelf_spn u
    have hn := (reach_node (s.spn.formAt + 1000) s).trans hu.node
    have hnow : (enterSelf u).now = u.now := (enterSelf_foot u).same .now rfl
    have hsent : (enterSelf u).out = u.out := (enterSelf_foot u).same .out rfl
    refine .next (t := doFormSend s) rfl ?_
    rw [heq, hsent, hout, hat, hnow, ← hn.myEntry, ← hn.otp, hu.now]
    exact ⟨by simp, rfl, hentry, rfl⟩
  case formFrame =>
    intro s f e hf hform hn
    obtain ⟨u, hu, hrx⟩ := rxFrame_comes hf (.form e)
    obtain ⟨hcensus, hsettled, hat⟩ :=
      takeForm_new (s := noteSeen f u) (hu.formed.trans hform) (by rw [← hn, ← hu.census]; rfl)
    refine .next (t := doFormFrame f e s) rfl ?_
    rw [doFormFrame, hrx, hcensus, hsettled, hat]
    simp [noteSeen, hu.now]
  case sameAddress =>
    intro s f e hr hup hs hl hsrc he hnew hform hn
    obtain ⟨u, hu, hrx⟩ := rxFrame_sameAddress hr hup hs hl hsrc he hnew
    obtain ⟨hcensus, hsettled, -⟩ :=
      takeForm_new (s := noteSeen f u) (hu.formed.trans hform) (by rw [← hn, ← hu.census]; rfl)
    refine .next (t := doFormFrame f e s) rfl ?_
    rw [doFormFrame, hrx, hcensus, hsettled]
    simp
  case leftOut =>
    intro s f e hf hform hn hcheck
    obtain ⟨u, hu, hrx⟩ := rxFrame_comes hf (.form e)
    have hall : censusAll (noteSeen f u) = censusAll s := hu.censusAll
    refine .next (t := doFormFrame f e s) rfl ?_
    rw [doFormFrame, hrx, takeForm_refused (s := noteSeen f u) (hu.formed.trans hform) (by rw [← hn, ← hu.census]; rfl)
      (by rwa [hall])]
    exact ⟨hu.census, hu.formed.trans hform⟩
  case silent =>
    intro s serial c hr hs hc
    have hother : (serial == s.otp.serial) = false := by simpa using hs
    refine .next (t := doCensusEntrySilent serial s) rfl ?_
    simp only [doCensusEntrySilent, hc, hother, hr, Bool.not_true, Bool.or_self, Bool.false_eq_true, if_false]
    refine ⟨by simp [pruneBroker, censusChanged], Tab.find_erase_same .., rfl, rfl, fun p hp => (List.mem_filter.mp hp).2⟩
  case formed =>
    intro s hi hs hc ha ho hm
    obtain ⟨u, heq, hn, hnow, hspn⟩ := doCensusSettled_declares hi hs hc ha ho hm
    have hd := declareRing_carried u
    refine .next (t := doCensusSettled s) rfl ?_
    rw [heq, hd.now]
    refine ⟨by simp [hnow], (hd.part Spine.settled fun _ => rfl).trans ?_, hd.formed,
      (hd.part Spine.gen fun _ => rfl).trans ?_, (hd.part Spine.master fun _ => rfl).trans ?_,
      hd.part Spine.cause fun _ => rfl⟩
    · simp [onRing, hspn]
    · simp [onRing, hspn]
    · exact congrArg some hn.nodeAddr
  case refused =>
    intro s hi hs hf hc
    obtain ⟨u, hu, hspn⟩ := doCensusSettled_refuses hi hs hf hc
    refine .next (t := doCensusSettled s) rfl ?_
    rw [hu.formed, hu.part Spine.settled fun _ => rfl, hu.part Spine.cause fun _ => rfl, hu.part Spine.gen fun _ => rfl, hspn]
    exact ⟨rfl, hf, rfl, rfl⟩
  case formedFrame =>
    intro s f gen digest first hf hform hc
    obtain ⟨u, hu⟩ := doFormedFrame_joins hf hform hc
    have hj := joinRing_carried gen.toNat first.toNat f.src.toNat u
    refine .next (t := doFormedFrame f gen digest first s) rfl ?_
    rw [hu]
    exact ⟨hj.formed, hj.part Spine.gen fun _ => rfl, hj.part Spine.firstTick fun _ => rfl,
      hj.part Spine.master fun _ => rfl⟩
  case time =>
    intro s hm hi
    have hn := reach_node (s.spn.timeSent + 1000) s
    have hu := hn.trans (onSpn_node (fun p => { p with
      timeSent := max s.now (s.spn.timeSent + 1000), master := some (nodeAddr (reach (s.spn.timeSent + 1000) s)) }) _)
    refine .next (t := doTimeSend s) rfl ?_
    rw [doTimeSend_eq hm hi]
    dsimp only
    generalize hp : Payload.time _ = p
    have hc := sendSpine_carried 0xFF p
      ((reach (s.spn.timeSent + 1000) s).onSpn fun p => { p with
        timeSent := max s.now (s.spn.timeSent + 1000), master := some (nodeAddr (reach (s.spn.timeSent + 1000) s)) })
    refine ⟨?_, ?_, ?_⟩
    · rw [hc.now]; simp
    · rw [hc.now, hc.part Spine.timeSent fun _ => rfl]; simp
    · rw [out_sendSpine ((hu.inserted (by simp)).trans hi), hu.rowOut (by simp) (by simp), rowTick, hc.rowTime, ← hp]
      simp [rowTick]
  case timeFrame =>
    intro s f p hf hform hm
    obtain ⟨u, hu, htake⟩ := doTimeFrame_taken p hf hm
    have hdelay : (laneOf u f.lane).delay = (laneOf s f.lane).delay := hu.lanePart Lane.delay (fun _ => rfl) f.lane
    obtain ⟨hnow, hoff, hat, hmaster, htick⟩ := takeTime_spn f p (s := noteSeen f u) (hu.formed.trans hform)
    refine .next (t := doTimeFrame f p s) rfl ?_
    rw [htake, hat, hmaster, htick, rowTime, hnow, hoff]
    refine ⟨?_, hu.now, rfl, rfl⟩
    rw [add_sub_cancel, Int.toNat_natCast]
    exact congrArg (p.rowTime.toNat + p.corr.toNat + ·) hdelay
  case timeout =>
    intro s hr hf ho hm
    have he := doTimeTimeout_carried hr hf ho hm
    refine .next (t := doTimeTimeout s) rfl ?_
    rw [he.now, he.offArc, he.formed, he.part Spine.timeFrom fun _ => rfl]
    exact ⟨by simp, rfl, by simp [hf], rfl⟩
  case rejoin =>
    intro s d hr hf ho ht hlate
    refine .next (t := doArcRejoin s) rfl ?_
    have hin : ¬ s.spn.timeAt + 5000 < max s.now (d + 1000000) := Nat.not_lt.mpr hlate
    simp only [doArcRejoin, hr, hf, ho, ht, reach_now, hin]
    simp [rowTick, rowTime]
  case noRejoin =>
    intro s hr hf ho ht
    refine .next (t := doArcRejoin s) rfl ?_
    simp [doArcRejoin, hr, hf, ho, ht]
  case echo =>
    intro s n hr hl hu
    have hlane : echoLane s n = true := by simp [echoLane, hr, hl, hu]
    refine .next (t := doEchoMeasure n s) rfl ?_
    obtain ⟨hc, hout⟩ := doEchoMeasure_up hlane hu
    rw [hc.now, hc.lanePart Lane.echoAt (fun _ => rfl), laneOf_onLane_same, hout]
    simp
  case echoFrame =>
    intro s f rtt hl hs
    obtain ⟨u, hu, hout, heq⟩ := doEchoFrame_sound rtt hl hs
    refine .next (t := doEchoFrame f rtt s) rfl ⟨fun hsrc => ?_, fun hsrc => ?_⟩
    · rw [heq, if_pos (hsrc.trans hu.node.nodeAddr.symm), laneOf_onLane_same]
      exact ⟨rfl, rfl, by simp [hout]⟩
    · rw [heq, if_neg (by rwa [hu.node.nodeAddr])]
      simp [emit, hout]

end Sys2Proof.Machine
end

section
/-! Laws of completions as the pair sees them, of TEN and CAPDN at an acting Lead, of the loss of the partner and of a takeover
(R23, R128, R130, R131, R154). -/

namespace Sys2Proof.Machine

/-! ## Completions: a RESET that is scheduled sets FAULT, and nothing else of the pair changes (R97) -/

/-- The pair but for FAULT. -/
def pairCore (p : Pair) : Pair := { p with fault := false }

@[simp] theorem pairCore_setDone (j : Nat) (s : State) : pairCore (setDone j s).pair = pairCore s.pair := by
  have hsend (e : JEntry) (u : State) : (sendDone e u).pair = u.pair := (sendDone_foot ..).same .pair rfl
  unfold setDone
  split
  · rfl
  next e _ =>
    dsimp only
    split
    · simp [scheduleReset, hsend, pairCore]
    · simp [hsend]

@[simp] theorem pairCore_finish (j : Nat) (r : Word) (d : Bytes) (s : State) :
    pairCore (finish j r d s).pair = pairCore s.pair := by
  unfold finish
  split
  · rfl
  split
  · rfl
  split
  · dsimp only
    split <;> simp
  dsimp only
  split
  · simp
  split <;> simp

@[simp] theorem pairCore_finish0 (j : Nat) (r : Word) (s : State) : pairCore (finish0 j r s).pair = pairCore s.pair :=
  pairCore_finish ..

@[simp] theorem pairCore_settleStop (t : Nat) (s : State) : pairCore (settleStop t s).pair = pairCore s.pair := by
  unfold settleStop
  dsimp only
  split
  · rfl
  · exact List.foldlRecOn (motive := fun u : State => pairCore u.pair = pairCore s.pair) _ _ (by simp)
      fun u hu j _ => (pairCore_finish0 ..).trans hu

@[simp] theorem pairCore_afterTen (s : State) : pairCore (afterTen s).pair = pairCore s.pair := by
  unfold afterTen
  dsimp only
  refine List.foldlRecOn (motive := fun u : State => pairCore u.pair = pairCore s.pair) _ _ ?_
      fun u hu t _ => (pairCore_settleStop ..).trans hu
  split
  · split <;> rfl
  · rfl

/-! ## TEN (R128, R171) -/

/-- The TEN lines driven change nothing else of the keep registers. -/
@[simp] theorem applyTen_keep (image : Half) (s : State) : (applyTen image s).keep = { s.keep with ten := image } := by
  have hdrive : (driveTen image s).keep = { s.keep with ten := image } := by
    have hfold : ∀ h old, ((List.range 16).foldl (fun u t => if bit16 old t == bit16 image t then u
        else u.onStw fun w => { w with inv := w.inv.mod {} t (tenHours h (bit16 image t)) })
        (s.onKeep fun k => { k with ten := image })).keep = { s.keep with ten := image } := fun h old =>
      List.foldlRecOn (motive := fun u : State => u.keep = { s.keep with ten := image }) _ _ rfl
        fun u hu t _ => by split <;> exact hu
    unfold driveTen
    dsimp only
    split
    · exact hfold ..
    · exact hfold ..
  unfold applyTen
  dsimp only
  split
  · exact hdrive
  · exact hdrive

/-! ## CAPDN (R154) -/

theorem bit16_put16 {v : Half} {n : Nat} (hn : n < 16) : bit16 (put16 v n true) n = true := by
  simp [bit16, put16, hn]

/-- A CAPDN line that is low stays low where none is released. -/
theorem bit16_of_capdnFall {a b : Half} (h : a &&& ~~~b = 0#16) {n : Nat} (ha : bit16 a n = true) : bit16 b n = true := by
  have hbit := congrArg (fun x : Half => x.getLsbD n) h
  have hn : n < 16 := BitVec.lt_of_getLsbD ha
  have ha : a.getLsbD n = true := ha
  simpa [bit16, ha, hn] using hbit

/-- Outside LONE_CHECK the CAPDN lines are driven as asked. -/
theorem driveCapdn_capdn {s : State} (h : s.pair.state ≠ .lone) (image : Half) :
    (driveCapdn image s).keep.capdn = image := by
  have hs : (s.pair.state == .lone) = false := by simpa using h
  by_cases hc : s.keep.capdn = image
  · simp [driveCapdn, hc]
  · simp [driveCapdn, hs, hc]

/-- An acting Lead outside LONE_CHECK asserts a tray's CAPDN as it revokes its leases. -/
theorem capdnRevoke_capdn {s : State} (hl : s.pair.lead = true) (h : s.pair.state ≠ .lone) (t reason : Nat) :
    (capdnRevoke t reason s).keep.capdn = put16 s.keep.capdn t true := by
  simp [capdnRevoke, assertCapdn, hl, driveCapdn_capdn h]

/-- What asserts CAPDN and revokes leases releases no CAPDN line and leaves the pair and TEN. -/
theorem capdnRevokes_foot (ts : List Nat) (reason : Nat) (s : State) :
    Foot [.out, .keep, .mbx, .pmc, .spn, .lv, .stw, .core] s (ts.foldl (fun s t => capdnRevoke t reason s) s) :=
  Foot.foldl Foot.refl fun _ _ h => h.then (capdnRevoke_foot ..) rfl

/-- An acting Lead outside LONE_CHECK asserts CAPDN of every tray of a list. -/
theorem bit16_capdnRevokes {ts : List Nat} {reason : Nat} {s : State} (hl : s.pair.lead = true)
    (h : s.pair.state ≠ .lone) {n : Nat} (hn : n < 16) (hm : n ∈ ts ∨ bit16 s.keep.capdn n = true) :
    bit16 (ts.foldl (fun s t => capdnRevoke t reason s) s).keep.capdn n = true := by
  induction ts generalizing s with
  | nil => simpa using hm
  | cons t ts ih =>
    have hf := capdnRevoke_foot t reason s
    have hp : (capdnRevoke t reason s).pair = s.pair := hf.same .pair rfl
    refine ih (by rwa [hp]) (by rwa [hp]) ?_
    rcases hm with hm | hm
    · rcases List.mem_cons.mp hm with rfl | hm
      · exact .inr (by rw [capdnRevoke_capdn hl h, bit16_put16 hn])
      · exact .inl hm
    · exact .inr (bit16_of_capdnFall (hf.same .capdnFall rfl) hm)

/-! ## The loss of the partner (R23, R134) -/

/-- The pair but for what ends with the partner: the stream, the switch-back and a TEN change that waits. -/
def pairKept (p : Pair) : Pair := { p with fault := false, syncSeq := 0, switch := 0, tenWait := none, ackWait := none }

/-- What the pair but for FAULT decides is the same of two pairs that agree but for FAULT. -/
theorem pairCore_part {p q : Pair} (h : pairCore p = pairCore q) {α : Type} (f : Pair → α)
    (hf : ∀ p, f (pairCore p) = f p) : f p = f q := by
  rw [← hf, h, hf]

/-- What the loss of the partner leaves is the same of two pairs that agree in it. -/
theorem pairKept_part {p q : Pair} (h : pairKept p = pairKept q) {α : Type} (f : Pair → α)
    (hf : ∀ p, f (pairKept p) = f p) : f p = f q := by
  rw [← hf, h, hf]

theorem pairKept_of_core {p q : Pair} (h : pairCore p = pairCore q) : pairKept p = pairKept q :=
  pairCore_part h pairKept fun _ => rfl

@[simp] theorem pairKept_endSync (s : State) : pairKept (endSync s).pair = pairKept s.pair := by
  unfold endSync
  dsimp only
  split
  · rfl
  · exact (pairKept_of_core (pairCore_finish0 ..)).trans rfl

@[simp] theorem pairCore_lostEntry (e : JEntry) (s : State) : pairCore (lostEntry e s).pair = pairCore s.pair := by
  unfold lostEntry
  dsimp only
  split
  · rfl
  split
  · exact pairCore_finish0 ..
  split
  · split
    · rfl
    · exact pairCore_finish0 ..
  · rfl

@[simp] theorem pairKept_takeTen (s : State) : pairKept (takeTen s).pair = pairKept s.pair := by
  unfold takeTen
  split
  · exact (pairKept_of_core (pairCore_afterTen _)).trans (by simp [pairKept])
  · rfl

/-- The loss of the partner sets the pair state and ends what ends with the partner. -/
theorem pairKept_losePartner (st : PairState) (s : State) :
    pairKept (losePartner st s).pair = pairKept { s.pair with state := st } := by
  have hsync : pairKept ((endSync (setPair st s)).onPair fun p => { p with switch := 0 }).pair =
      pairKept { s.pair with state := st } := by
    rw [← setPair_pair, ← pairKept_endSync (setPair st s)]
    rfl
  unfold losePartner
  dsimp only
  split
  · exact hsync
  · rw [pairKept_takeTen]
    exact List.foldlRecOn (motive := fun u : State => pairKept u.pair = pairKept { s.pair with state := st }) _ _ hsync
      fun u hu e _ => (pairKept_of_core (pairCore_lostEntry ..)).trans hu

/-- In LONE_CHECK the lines are held as the partner is lost (R132). -/
theorem losePartner_lone_foot (s : State) :
    Foot [.out, .keep, .mbx, .jr, .stg, .host, .log, .pmc, .spn, .pair, .stw] s (losePartner .lone s) := by
  simp only [losePartner, beq_self_eq_true, Bool.or_true, if_true]
  exact (((setPair_foot ..).mono rfl).then (endSync_foot _) rfl).onPair rfl

/-! ## Takeover (R130, R131) -/

section
variable (e : Nat) (s : State)
@[simp] theorem raiseEpoch_kt : (raiseEpoch e s).kt = { s.kt with actEpoch := e % 2 ^ 32 } := rfl
@[simp] theorem raiseEpoch_pair : (raiseEpoch e s).pair = { s.pair with burst := 21, burstAt := s.now } := rfl
@[simp] theorem raiseEpoch_keep : (raiseEpoch e s).keep = s.keep := rfl
@[simp] theorem raiseEpoch_now : (raiseEpoch e s).now = s.now := rfl
@[simp] theorem raiseEpoch_ket : (raiseEpoch e s).ket = s.ket := rfl
@[simp] theorem replayFresh_pair : (replayFresh s).pair = s.pair := (replayFresh_foot _).same .pair rfl
@[simp] theorem replayFresh_keep : (replayFresh s).keep = s.keep := (replayFresh_foot _).same .keep rfl
@[simp] theorem replayFresh_kt : (replayFresh s).kt = s.kt := (replayFresh_foot _).same .kt rfl
@[simp] theorem resendPoints_pair : (resendPoints s).pair = s.pair := (resendPoints_foot _).same .pair rfl
@[simp] theorem resendPoints_keep : (resendPoints s).keep = s.keep := (resendPoints_foot _).same .keep rfl
@[simp] theorem resendPoints_role : (resendPoints s).kt.role = s.kt.role := (resendPoints_foot _).same .role rfl
@[simp] theorem resendPoints_now : (resendPoints s).now = s.now := (resendPoints_foot _).same .now rfl
@[simp] theorem afterTen_keep : (afterTen s).keep = s.keep := (afterTen_foot _).same .keep rfl
@[simp] theorem afterTen_kt : (afterTen s).kt = s.kt := (afterTen_foot _).same .kt rfl
@[simp] theorem afterTen_now : (afterTen s).now = s.now := (afterTen_foot _).same .now rfl
end

/-- A COMMAND's point is recorded, and the actuator epoch stays. -/
theorem sendCommand_actEpoch (a : Nat) (cw : DWord) (point flags : Nat) (v : Int) (s : State) :
    (sendCommand a cw point flags v s).kt.actEpoch = s.kt.actEpoch := by
  unfold sendCommand
  extract_lets b s1 s2 d
  split
  · rfl
  split
  · rfl
  · refine List.foldlRecOn (motive := fun u : State => u.kt.actEpoch = s.kt.actEpoch) _ _ rfl fun u hu c _ => ?_
    split
    · exact (congrArg KeepTables.actEpoch ((offer_foot ..).same .kt rfl)).trans hu
    · exact hu

@[simp] theorem resendPoints_actEpoch (s : State) : (resendPoints s).kt.actEpoch = s.kt.actEpoch :=
  List.foldlRecOn (motive := fun u : State => u.kt.actEpoch = s.kt.actEpoch) _ _ rfl
    fun _ hu _ _ => (sendCommand_actEpoch ..).trans hu

/-! ## The start as acting Lead (R79, R171, R248) -/

section
variable (s : State)
@[simp] theorem startChannels_pair : (startChannels s).pair = s.pair := (startChannels_foot _).same .pair rfl
@[simp] theorem startChannels_keep : (startChannels s).keep = s.keep := (startChannels_foot _).same .keep rfl
@[simp] theorem startChannels_kt : (startChannels s).kt = s.kt := (startChannels_foot _).same .kt rfl

/-- A start as Lead clears the TEN bits of tripped trays, ends the hand-off and releases no CAPDN line. -/
theorem startLead_keep : (startLead s).keep =
    { s.keep with handoff := false, handoffAt := none, ten := s.keep.ten &&& ~~~s.ket.trip } := by simp [startLead]
theorem startLead_pair : (startLead s).pair = { s.pair with burst := 21, burstAt := s.now } := by simp [startLead]
theorem startLead_role : (startLead s).kt.role = s.kt.role := by simp [startLead]
theorem startLead_actEpoch : (startLead s).kt.actEpoch = (s.kt.actEpoch + 1) % 2 ^ 32 := by simp [startLead]
end

/-! ## What a takeover does -/

/-- What a takeover has done before the CAPDN lines: the epoch raised, the role taken and recorded, the TEN image driven without
tripped trays, and the journal made ready for replay. -/
def takenOver (silent : Bool) (image : Half) (s : State) : State :=
  let s := raiseEpoch (max s.kt.actEpoch s.pair.hb.actEpoch.toNat + 1) s
  let s := roleChange true (s.onPair fun p => { p with
    board := .taking, fault := false, switch := 0, proofAt := s.now, silent := none, silentAt := 0,
    heard := p.heard && !silent })
  let s := event 0x0508 3 [] 0 0 (wakeCause 5 s)
  let s := setPair (if silent then .absent else .detached) s
  replayFresh (applyTen (image &&& ~~~s.ket.trip) s)

/-- The CAPDN lines of a takeover: all asserted after silence (R131), else as the acting Lead last told them. -/
def takeCapdn (silent : Bool) (s : State) : State :=
  if silent then
    (List.range 16).foldl (fun s t => capdnRevoke t 0x15 s) (s.onPair fun p => { p with silent := some 0 })
  else queueResumes (s.onKeep fun k => { k with capdn := s.pair.partCapdn.getD (capdnWanted s) })

/-- What a takeover does last: the master's figures, the engines that wait for TEN, and the points dispatched last. -/
def resume (s : State) : State :=
  let high := (s.jr.high.get {} 5).seq
  let s := s.onSpn fun p => { p with shareSeq := max p.shareSeq (high + 2 ^ 32), timeSent := s.now, changedAt := s.now }
  resendPoints (afterTen (s.onPln fun p => { p with pass := none, took := true }))

theorem takeover_eq (silent : Bool) (image : Half) (s : State) :
    takeover silent image s = resume (takeCapdn silent (takenOver silent image s)) := rfl

section
variable (s : State)
@[simp] theorem resume_keep : (resume s).keep = s.keep := by simp [resume]
@[simp] theorem resume_role : (resume s).kt.role = s.kt.role := by simp [resume]
@[simp] theorem resume_actEpoch : (resume s).kt.actEpoch = s.kt.actEpoch := by simp [resume]
@[simp] theorem pairCore_resume : pairCore (resume s).pair = pairCore s.pair := by simp [resume]
end

section
variable (silent : Bool) (image : Half) (s : State)
theorem takenOver_ten : (takenOver silent image s).keep.ten = image &&& ~~~s.ket.trip := by
  simp [takenOver]
theorem takenOver_kt : (takenOver silent image s).kt = { s.kt with
    actEpoch := (max s.kt.actEpoch s.pair.hb.actEpoch.toNat + 1) % 2 ^ 32, role := some true } := by
  simp [takenOver]
theorem takenOver_pair : (takenOver silent image s).pair = { s.pair with
    burst := 21, burstAt := s.now, board := .taking, fault := false, switch := 0, proofAt := s.now, silent := none,
    silentAt := 0, heard := s.pair.heard && !silent, lead := true, state := if silent then .absent else .detached } := by
  simp [takenOver]
end

/-- What a board that has taken over is and records, whatever has it take over. -/
structure TookOver (image : Half) (s t : State) : Prop where
  lead  : t.pair.lead = true
  board : t.pair.board = .taking
  role  : t.kt.role = some true
  epoch : t.kt.actEpoch = (max s.kt.actEpoch s.pair.hb.actEpoch.toNat + 1) % 2 ^ 32
  ten   : t.keep.ten = image &&& ~~~s.ket.trip

theorem resume_tookOver {image : Half} {s t : State} (h : TookOver image s t) : TookOver image s (resume t) :=
  have hp := pairCore_resume t
  ⟨(pairCore_part hp Pair.lead fun _ => rfl).trans h.lead, (pairCore_part hp Pair.board fun _ => rfl).trans h.board,
    (resume_role t).trans h.role, (resume_actEpoch t).trans h.epoch, by rw [resume_keep, h.ten]⟩

/-- On FAULT or a switch-back the new acting Lead takes the CAPDN lines as the old one last told them. -/
theorem takeover_fault (image : Half) (s : State) : TookOver image s (takeover false image s) ∧
    ∀ lines, s.pair.partCapdn = some lines → (takeover false image s).keep.capdn = lines := by
  have hp := takenOver_pair false image s
  have hk := takenOver_kt false image s
  have hten := takenOver_ten false image s
  rw [takeover_eq]
  refine ⟨resume_tookOver ⟨?_, ?_, ?_, ?_, ?_⟩, fun lines hl => ?_⟩
  · simp [takeCapdn, hp]
  · simp [takeCapdn, hp]
  · simp [takeCapdn, hk]
  · simp [takeCapdn, hk]
  · simp [takeCapdn, hten]
  · simp [takeCapdn, hp, hl]

/-- After silence the new acting Lead holds every CAPDN line low, and the partner is absent. -/
theorem takeover_silent (image : Half) (s : State) : TookOver image s (takeover true image s) ∧
    (takeover true image s).pair.state = .absent ∧ ∀ n < 16, bit16 (takeover true image s).keep.capdn n = true := by
  have hp := takenOver_pair true image s
  have hk := takenOver_kt true image s
  have hten := takenOver_ten true image s
  rw [takeover_eq, takeCapdn, if_pos rfl]
  generalize takenOver true image s = u at hp hk hten ⊢
  have hf := capdnRevokes_foot (List.range 16) 0x15 (u.onPair fun p => { p with silent := some 0 })
  have hlow : ∀ n < 16, bit16 ((List.range 16).foldl (fun s t => capdnRevoke t 0x15 s)
      (u.onPair fun p => { p with silent := some 0 })).keep.capdn n = true := fun n hn =>
    bit16_capdnRevokes (by simp [hp]) (by simp [hp]) hn (.inl (List.mem_range.mpr hn))
  generalize (List.range 16).foldl (fun s t => capdnRevoke t 0x15 s) (u.onPair fun p => { p with silent := some 0 }) = v
    at hf hlow ⊢
  have hpair : v.pair = { u.pair with silent := some 0 } := hf.same .pair rfl
  have hkt : v.kt = u.kt := hf.same .kt rfl
  have hvt : v.keep.ten = u.keep.ten := hf.same .ten rfl
  refine ⟨resume_tookOver ⟨?_, ?_, ?_, ?_, ?_⟩, ?_, fun n hn => ?_⟩
  · rw [hpair, hp]
  · rw [hpair, hp]
  · rw [hkt, hk]
  · rw [hkt, hk]
  · rw [hvt, hten]
  · rw [pairCore_part (pairCore_resume v) Pair.state fun _ => rfl, hpair, hp]
    rfl
  · rw [resume_keep]
    exact hlow n hn

end Sys2Proof.Machine
end

section
/-! Laws of the heartbeat's rows, and the statement about them (R15, R18, R23, R126 to R132). -/

namespace Sys2Proof.Machine

theorem SameNode.posOf {s t : State} (h : SameNode s t) : posOf t = posOf s := by
  rw [Machine.posOf, Machine.posOf, h.pwr]

theorem SameNode.eligible {s t : State} (h : SameNode s t) : eligible t = eligible s := by
  rw [Machine.eligible, Machine.eligible, h.running, h.pair]

/-! ## Heartbeats sent (R15, R126) -/

/-- Time that passes leaves what this board's heartbeat tells. -/
theorem myHeartbeat_reach (d : Nat) (s : State) : myHeartbeat (reach d s) = myHeartbeat s := by
  simp [myHeartbeat, attached, cfgEpoch]

/-- A heartbeat leaves over the pair link and over the Spine, and is counted; a board whose replay is over runs again. -/
def beat (s : State) : State :=
  let u := if s.pair.board == .taking && replayed s then s.onPair fun p => { p with board := .running } else s
  let v := u.onPair fun p => { p with hbAt := s.now, hseq := (p.hseq + 1) % 2 ^ 32 }
  sendSpine (partnerAddr v) (.heartbeat (myHeartbeat u)) (sendPair (.heartbeat (myHeartbeat u)) v)

theorem doHeartbeatSend_eq {s : State} (h : running s = true) :
    doHeartbeatSend s = beat (settleAlone (reach (s.pair.hbAt + 100) s)) := by
  simp only [doHeartbeatSend, h, Bool.not_true, Bool.false_eq_true, if_false, beat]

/-- A heartbeat sent changes the pair in its own figures and the board's state alone. -/
theorem beat_carried (s : State) : ∃ b, Carried (s.onPair fun p => { p with
    board := b, hbAt := s.now, hseq := (p.hseq + 1) % 2 ^ 32 }) (beat s) := by
  unfold beat
  split
  · exact ⟨.running, (sendPair_carried ..).trans (sendSpine_carried ..)⟩
  · exact ⟨s.pair.board, (sendPair_carried ..).trans (sendSpine_carried ..)⟩

theorem mem_sendPair {s : State} (h : pairUp s = true) (p : Payload) : pairOut s p ∈ (sendPair p s).out := by
  rw [out_sendPair h]
  exact List.mem_cons_self

/-- A board that is not taking over sends its heartbeat as it stands. -/
theorem beat_sent {s : State} (h : s.pair.board ≠ .taking) (hu : pairUp s = true) :
    pairOut s (.heartbeat (myHeartbeat s)) ∈ (beat s).out := by
  have hb : (s.pair.board == .taking) = false := by simpa using h
  simp only [beat, hb, Bool.false_and, Bool.false_eq_true, if_false]
  exact (sendSpine_foot ..).sent.mem (mem_sendPair (s := s.onPair _) hu _)

/-- A board that records a role keeps it. -/
theorem settleAlone_of_role {s : State} (h : s.kt.role.isSome = true) : settleAlone s = s := by
  simp [settleAlone, Option.isNone_eq_false_iff.mpr h]

/-- A board that records no role and has heard no partner for 300 µs is Lead. -/
theorem settleAlone_lead {s : State} (hr : s.kt.role = none) (hh : s.pair.heard = false) (hd : s.pair.roleAt + 300 ≤ s.now) :
    settleAlone s = startLead (roleChange true s) := by
  simp [settleAlone, takeRole, hr, hh, hd]

/-! ## Heartbeats received (R126, R130, R134) -/

/-- The board as it has heard a heartbeat of its partner. -/
def heardFrom (h : Heartbeat) (s : State) : State :=
  (s.onKt fun k => { k with partnerMaster := h.masterSel }).onPair fun p => { p with
    heard := true, heardAt := s.now, hb := h, echoAt := if h.echo != p.hb.echo then s.now else p.echoAt,
    partTest := if h.selfTest then some (p.partTest.getD s.now) else none }

/-- A new heartbeat of the known partner over the pair link is weighed. -/
theorem takeHeartbeat_fresh {f : FrameHdr} {h : Heartbeat} {s : State} (hl : 2 ≤ f.lane.val)
    (hsrc : f.src.toNat / 2 = posOf s) (hm : s.pair.mismatch = false) (hp : s.kt.partner = some h.serial)
    (hr : s.kt.role.isSome = true) (hh : s.pair.heard = true) (hs : seqAfter h.hseq.toNat s.pair.hb.hseq.toNat = true) :
    takeHeartbeat f h s = weighHeartbeat s.pair.hb h (heardFrom h s) := by
  simp [takeHeartbeat, hl, hsrc, hm, hp, hh, hs, settleRole, hr, heardFrom]
  rfl

/-- A heartbeat of a partner that is no Lead and keeps step changes nothing more at the acting Lead. -/
theorem weighHeartbeat_plain {old h : Heartbeat} {s : State} (ha : s.pair.state ≠ .absent) (hl : s.pair.lead = true)
    (hh : h.lead = false) (hs : h.synced = true) : weighHeartbeat old h s = s := by
  simp [weighHeartbeat, ha, mustYield, hl, hh, hs, askSync]

/-- FAULT of the acting Lead has an eligible Shadow take over (R130). -/
theorem weighHeartbeat_fault {old h : Heartbeat} {s : State} (ha : s.pair.state ≠ .absent) (hl : s.pair.lead = false)
    (he : eligible s = true) (hh : h.lead = true) (hf : h.fault = true) (hat : h.attached = true) :
    weighHeartbeat old h s = takeover false h.ten s := by
  simp [weighHeartbeat, ha, mustYield, hl, hh, hf, hat, he]

/-- A partner of another position has both boards absent to each other, and every CAPDN line asserted (R134). -/
theorem posMismatch_effect {s : State} (h : s.pair.mismatch = false) :
    (posMismatch s).pair = { s.pair with mismatch := true, state := .absent } ∧
    (posMismatch s).keep.capdn = 0xFFFF ∧ (posMismatch s).kt = s.kt := by
  unfold posMismatch
  rw [if_neg (by simp [h])]
  dsimp only
  generalize hu : (event 0x050E 3 [] 0 0 (s.onPair fun p => { p with mismatch := true, state := .absent })).onKeep
    (fun k => { k with capdn := 0xFFFF }) = u
  have hf := capdnRevokes_foot (List.range 16) 0x13 u
  have hlow : u.keep.capdn = 0xFFFF := by rw [← hu]; rfl
  have hfall : u.keep.capdn &&& ~~~_ = 0#16 := hf.same .capdnFall rfl
  refine ⟨(hf.same .pair rfl).trans ?_, ?_, (hf.same .kt rfl).trans ?_⟩
  · simp [← hu]
  · rw [hlow, show (0xFFFF : Half) = BitVec.allOnes 16 from rfl, BitVec.allOnes_and] at hfall
    exact BitVec.not_inj.mp hfall
  · simp [← hu]

/-! ## Silence (R23, R24, R127, R131, R132) -/

theorem running_of_eligible {s : State} (h : eligible s = true) : running s = true := by
  simp only [eligible, Bool.and_eq_true] at h
  exact h.1.1.1

/-- The loss of the partner leaves a Shadow that may take over what it is. -/
theorem eligible_losePartner {st : PairState} {s : State} : eligible (losePartner st s) = eligible s := by
  have hf := losePartner_foot st s
  have hp := pairKept_losePartner st s
  rw [eligible, eligible, running_congr (hf.same .pwr rfl) (hf.same .boot rfl), pairKept_part hp Pair.board fun _ => rfl,
    pairKept_part hp Pair.synced fun _ => rfl, pairKept_part hp Pair.mismatch fun _ => rfl]

/-- A heartbeat missed while the partner's own came with a fresh echo is the partner's silence. -/
theorem doHeartbeatMissed_silent {s : State} (hr : running s = true) (hh : s.pair.heard = true)
    (hm : s.pair.mismatch = false) (he : s.pair.heardAt < s.pair.echoAt + 300) : doHeartbeatMissed s = partnerSilent s := by
  simp [doHeartbeatMissed, hr, hh, hm, Nat.not_le.mpr he]

/-- The acting Lead of a partner that is not heard, and could take over, checks whether it is alone. -/
theorem partnerSilent_lone {s : State} (hl : s.pair.lead = true) (hn : s.pair.state ≠ .lone) (hs : s.pair.state ≠ .syncing)
    (he : partnerEligible s = true) : partnerSilent s = dropReference (losePartner .lone
      ((reach (s.pair.heardAt + 300) s).onPair fun p => { p with
        loneAt := some (reach (s.pair.heardAt + 300) s).now, board := .lone })) := by
  have he : partnerEligible (reach (s.pair.heardAt + 300) s) = true := by simpa [partnerEligible] using he
  simp [partnerSilent, he, hl, hn, hs]

/-- A Shadow that is syncing with a partner that is no Lead is detached as that partner falls silent. -/
theorem partnerSilent_syncing {s : State} (hl : s.pair.lead = false) (hb : s.pair.hb.lead = false)
    (hs : s.pair.state = .syncing) : partnerSilent s =
      (losePartner .detached (losePartner .detached (reach (s.pair.heardAt + 300) s))).onPair
        fun p => { p with heard := false } := by
  have hp := pairKept_losePartner .detached (reach (s.pair.heardAt + 300) s)
  have hlead : (losePartner .detached (reach (s.pair.heardAt + 300) s)).pair.lead = false := by
    simpa using (pairKept_part hp Pair.lead fun _ => rfl).trans (by simpa using hl)
  have hhb : (losePartner .detached (reach (s.pair.heardAt + 300) s)).pair.hb.lead = false := by
    rw [pairKept_part hp Pair.hb fun _ => rfl]
    simpa using hb
  simp [partnerSilent, hs, hlead, hhb]

/-- A Shadow that may take over does as the acting Lead falls silent; a state that syncs is ended first. -/
theorem partnerSilent_takeover {s : State} (hl : s.pair.lead = false) (hb : s.pair.hb.lead = true) (he : eligible s = true) :
    ∃ u, partnerSilent s = takeover true u.pair.hb.ten u ∧ u.now = max s.now (s.pair.heardAt + 300) ∧
      u.kt = s.kt ∧ u.pair.hb = s.pair.hb := by
  generalize hv : reach (s.pair.heardAt + 300) s = v
  have hev : eligible v = true := by rwa [← hv, (reach_node ..).eligible]
  have hlv : v.pair.lead = false := by simp [← hv, hl]
  have hbv : v.pair.hb = s.pair.hb := by simp [← hv]
  have hkv : v.kt = s.kt := by simp [← hv]
  have hnv : v.now = max s.now (s.pair.heardAt + 300) := by simp [← hv]
  by_cases hs : v.pair.state = .syncing
  · have hp := pairKept_losePartner .detached v
    have hf := losePartner_foot .detached v
    have hlead : (losePartner .detached v).pair.lead = false := (pairKept_part hp Pair.lead fun _ => rfl).trans hlv
    have hhb : (losePartner .detached v).pair.hb = s.pair.hb := (pairKept_part hp Pair.hb fun _ => rfl).trans hbv
    exact ⟨losePartner .detached v, by simp [partnerSilent, hv, hs, hlead, hhb, hb, eligible_losePartner, hev],
      (hf.same .now rfl).trans hnv, (hf.same .kt rfl).trans hkv, hhb⟩
  · exact ⟨v, by simp [partnerSilent, hv, hs, hlv, hbv, hb, hev], hnv, hkv, hbv⟩

/-! ## The release after a takeover by silence (R131) -/

theorem mayResume_reach (d : Nat) (s : State) (t : Nat) : mayResume (reach d s) t = mayResume s t := by
  simp [mayResume, trayOff, atFloor, invOf, trayOf, tripped, enabled, tenTarget]

/-- No tray is marked silent where none that may resume is. -/
theorem doSilentRelease_tray {s : State} {k n : Nat} (hk : s.pair.silent = some k) (ha : s.pair.silentAt ≠ 0)
    (hact : acting s = true) (hs : ∀ t < 16, k ≤ t → mayResume s t = true → isSilent s t = false)
    (hn : (List.range 16).find? (fun t => k ≤ t && enabled s t && !starting s t && mayResume s t) = some n) :
    doSilentRelease s = releaseCapdn n ((reach s.pair.silentAt s).onPair fun p => { p with
      silent := some (n + 1), silentAt := (reach s.pair.silentAt s).now + 250000 }) := by
  have hfold : (List.range 16).foldl (fun s t => if k ≤ t && mayResume s t && isSilent s t then markSilent t s else s)
      (reach s.pair.silentAt s) = reach s.pair.silentAt s := by
    refine List.foldlRecOn (motive := fun u : State => u = reach s.pair.silentAt s) _ _ rfl fun u hu t ht => ?_
    rw [hu, if_neg]
    have hsil : isSilent (reach s.pair.silentAt s) t = isSilent s t := by simp [isSilent, agentOf]
    rw [mayResume_reach, hsil]
    have hno := hs t (List.mem_range.mp ht)
    intro hall
    simp only [Bool.and_eq_true, decide_eq_true_eq] at hall
    obtain ⟨⟨hge, hmay⟩, hsi⟩ := hall
    simp [hno hge hmay] at hsi
  have hfind : (List.range 16).find? (fun t => k ≤ t && enabled (reach s.pair.silentAt s) t &&
      !starting (reach s.pair.silentAt s) t && mayResume (reach s.pair.silentAt s) t) = some n := by
    simpa [mayResume_reach, enabled, tenTarget, starting, trayOf] using hn
  simp only [doSilentRelease, hk, hact, hfold, hfind]
  simp [ha]

/-- Settles O44: each row by the lemma about its path. -/
theorem pairRolesFollowHeartbeats : Obligations.PairRolesFollowHeartbeats := by
  unfold Obligations.PairRolesFollowHeartbeats
  refine ⟨?send, ?settles, ?frame, ?fault, ?position, ?lone, ?syncing, ?takeover, ?standDown, ?loneExpiry, ?release⟩
  case send =>
    intro s hu hr
    have hrun : running s = true := by
      simp only [pairUp, Bool.and_eq_true] at hu
      exact hu.1
    have heq : doHeartbeatSend s = beat (reach (s.pair.hbAt + 100) s) := by
      rw [doHeartbeatSend_eq hrun, settleAlone_of_role (by simpa using hr)]
    obtain ⟨b, hc⟩ := beat_carried (reach (s.pair.hbAt + 100) s)
    refine .next (t := doHeartbeatSend s) rfl ?_
    rw [heq, hc.now, hc.node.pair]
    refine ⟨by simp, rfl, by simp, fun hb => ?_⟩
    have hn := reach_node (s.pair.hbAt + 100) s
    have hup : pairUp (reach (s.pair.hbAt + 100) s) = true := by
      rw [pairUp, hn.running]
      simpa [pairUp, laneOf] using hu
    have hsent := beat_sent (s := reach (s.pair.hbAt + 100) s) (by simpa using hb) hup
    rwa [myHeartbeat_reach, pairOut, hn.nodeAddr, hn.partnerAddr, reach_spn] at hsent
  case settles =>
    intro s hrun hr hh hd
    have heq : doHeartbeatSend s = beat (startLead (roleChange true (reach (s.pair.hbAt + 100) s))) := by
      rw [doHeartbeatSend_eq hrun, settleAlone_lead (by simpa using hr) (by simpa using hh)
        (by simpa using Or.inl hd)]
    obtain ⟨b, hc⟩ := beat_carried (startLead (roleChange true (reach (s.pair.hbAt + 100) s)))
    refine .next (t := doHeartbeatSend s) rfl ?_
    rw [heq, hc.node.kt, hc.node.pair]
    exact ⟨by simp [startLead_role], by simp [startLead_pair]⟩
  case frame =>
    intro s f h hf hl hsrc hm hp hr hh hs ha hlead hhl hsy
    obtain ⟨u, hu, hrx⟩ := rxFrame_comes hf (.heartbeat h)
    have hpair : (noteSeen f u).pair = s.pair := hu.node.pair
    have hkt : (noteSeen f u).kt = s.kt := hu.node.kt
    have hnow : (noteSeen f u).now = s.now := hu.now
    have hpos : posOf (noteSeen f u) = posOf s := hu.node.posOf
    refine .next (t := doHeartbeatFrame f h s) rfl ?_
    rw [doHeartbeatFrame, hrx, takeHeartbeat_fresh hl (by rwa [hpos]) (by rwa [hpair]) (by rwa [hkt]) (by rwa [hkt])
      (by rwa [hpair]) (by rwa [hpair]), weighHeartbeat_plain (by simpa [heardFrom, hpair] using ha)
      (by simpa [heardFrom, hpair] using hlead) hhl hsy]
    simp [heardFrom, hpair, hnow, hlead]
  case fault =>
    intro s f h hf hl hsrc hp hr hh hs ha hlead he hhl hhf hat
    obtain ⟨u, hu, hrx⟩ := rxFrame_comes hf (.heartbeat h)
    have hpair : (noteSeen f u).pair = s.pair := hu.node.pair
    have hkt : (noteSeen f u).kt = s.kt := hu.node.kt
    have hket : (noteSeen f u).ket = s.ket := hu.foot.same .ket rfl
    have hpos : posOf (noteSeen f u) = posOf s := hu.node.posOf
    have hm : s.pair.mismatch = false := by
      simp only [eligible, Bool.and_eq_true, Bool.not_eq_true'] at he
      exact he.2
    have hel : eligible (heardFrom h (noteSeen f u)) = eligible s := hu.node.eligible
    refine .next (t := doHeartbeatFrame f h s) rfl ?_
    rw [doHeartbeatFrame, hrx, takeHeartbeat_fresh hl (by rwa [hpos]) (by rw [hpair, hm]) (by rwa [hkt]) (by rwa [hkt])
      (by rwa [hpair]) (by rwa [hpair]), weighHeartbeat_fault (by simpa [heardFrom, hpair] using ha)
      (by simpa [heardFrom, hpair] using hlead) (hel.trans he) hhl hhf hat]
    obtain ⟨hto, hlines⟩ := takeover_fault h.ten (heardFrom h (noteSeen f u))
    refine ⟨hto.lead, hto.board, hto.role, ?_, ?_, fun lines hlin => hlines lines ?_⟩
    · rw [hto.epoch]
      simp [heardFrom, hkt]
    · rw [hto.ten]
      simp [heardFrom, hket]
    · simpa [heardFrom, hpair] using hlin
  case position =>
    intro s f h hf hl hsrc hm
    obtain ⟨u, hu, hrx⟩ := rxFrame_comes hf (.heartbeat h)
    have hpair : (noteSeen f u).pair = s.pair := hu.node.pair
    have hpos : posOf (noteSeen f u) = posOf s := hu.node.posOf
    have htake : takeHeartbeat f h (noteSeen f u) = posMismatch (noteSeen f u) := by
      simp [takeHeartbeat, hl, hpos, hsrc]
    obtain ⟨hp, hc, hk⟩ := posMismatch_effect (s := noteSeen f u) (by rwa [hpair])
    refine .next (t := doHeartbeatFrame f h s) rfl ?_
    rw [doHeartbeatFrame, hrx, htake, hp, hk]
    exact ⟨rfl, rfl, hc, congrArg KeepTables.partner hu.node.kt⟩
  case lone =>
    intro s hr hh hm he hl hn hsy hel
    refine .next (t := doHeartbeatMissed s) rfl ?_
    rw [doHeartbeatMissed_silent hr hh hm he, partnerSilent_lone hl hn hsy hel]
    generalize hu : (reach (s.pair.heardAt + 300) s).onPair (fun p => { p with
      loneAt := some (reach (s.pair.heardAt + 300) s).now, board := .lone }) = u
    have hf := losePartner_lone_foot u
    have hp := pairKept_losePartner .lone u
    have hnow : (dropReference (losePartner .lone u)).now = u.now := hf.same .now rfl
    have hpair : (dropReference (losePartner .lone u)).pair = (losePartner .lone u).pair := rfl
    have hkeep : (dropReference (losePartner .lone u)).keep = (losePartner .lone u).keep := rfl
    rw [hnow, hpair, hkeep, pairKept_part hp Pair.state fun _ => rfl, pairKept_part hp Pair.board fun _ => rfl,
      pairKept_part hp Pair.loneAt fun _ => rfl, pairKept_part hp Pair.lead fun _ => rfl, keepCore_ten (hf.same .core rfl),
      keepCore_capdn (hf.same .core rfl), ← hu]
    simp [hl]
  case syncing =>
    intro s hr hh hm he hl hb hs
    refine .next (t := doHeartbeatMissed s) rfl ?_
    rw [doHeartbeatMissed_silent hr hh hm he, partnerSilent_syncing hl hb hs]
    have hp := pairKept_losePartner .detached (reach (s.pair.heardAt + 300) s)
    have hq := pairKept_losePartner .detached (losePartner .detached (reach (s.pair.heardAt + 300) s))
    rw [State.onPair_pair, pairKept_part hq Pair.state fun _ => rfl, pairKept_part hq Pair.lead fun _ => rfl]
    exact ⟨rfl, (pairKept_part hp Pair.lead fun _ => rfl).trans (by simpa using hl)⟩
  case takeover =>
    intro s hh he hl hb hel
    have hm : s.pair.mismatch = false := by
      simp only [eligible, Bool.and_eq_true, Bool.not_eq_true'] at hel
      exact hel.2
    obtain ⟨u, heq, hnow, hkt, hhb⟩ := partnerSilent_takeover hl hb hel
    obtain ⟨hto, hst, hlow⟩ := takeover_silent u.pair.hb.ten u
    refine .next (t := doHeartbeatMissed s) rfl ?_
    rw [doHeartbeatMissed_silent (running_of_eligible hel) hh hm he, heq]
    refine ⟨?_, hto.lead, hto.board, hst, ?_, hlow⟩
    · have hf : (takeover true u.pair.hb.ten u).now = u.now := (takeover_foot ..).same .now rfl
      rw [hf, hnow]
      exact Nat.le_max_right ..
    · rw [hto.epoch, hkt, hhb]
  case standDown =>
    intro s hr hh hm he hn hl
    refine .next (t := doHeartbeatMissed s) rfl ?_
    have heq : doHeartbeatMissed s = standDown s := by simp [doHeartbeatMissed, hr, hh, hm, he, hn, hl]
    rw [heq]
    exact ⟨standDown_lead s, standDown_board s, by rw [standDown_kt], standDown_capdn s⟩
  case loneExpiry =>
    intro s d hd hs hl
    refine .next (t := doLoneCheckExpiry s) rfl ?_
    simp only [doLoneCheckExpiry, hd, hs, bne_self_eq_false, Bool.false_eq_true, if_false]
    generalize hu : (reach (d + 20000) s).onPair (fun p => { p with
      loneAt := none, board := .running, heard := false }) = u
    have hp := pairKept_losePartner .absent u
    have hf := losePartner_foot .absent u
    have he : Foot [.out, .keep, .pmc, .spn, .lv, .core, .capdnFall] _ (endHeld (losePartner .absent u)) :=
      ((driveCapdn_foot ..).mono rfl).then (queueResumes_foot _) rfl
    have hpair : (endHeld (losePartner .absent u)).pair = (losePartner .absent u).pair := he.same .pair rfl
    have hnow : (endHeld (losePartner .absent u)).now = u.now := (he.same .now rfl).trans (hf.same .now rfl)
    rw [hpair, hnow, pairKept_part hp Pair.state fun _ => rfl, pairKept_part hp Pair.board fun _ => rfl,
      pairKept_part hp Pair.loneAt fun _ => rfl, pairKept_part hp Pair.lead fun _ => rfl, ← hu]
    simp [hl]
  case release =>
    intro s k n hk ha hact hs hsil hn
    refine .next (t := doSilentRelease s) rfl ?_
    rw [doSilentRelease_tray hk ha hact hsil hn]
    generalize hu : (reach s.pair.silentAt s).onPair (fun p => { p with
      silent := some (n + 1), silentAt := (reach s.pair.silentAt s).now + 250000 }) = u
    have hf := releaseCapdn_foot n u
    have hnow : (releaseCapdn n u).now = u.now := hf.same .now rfl
    have hpair : (releaseCapdn n u).pair = u.pair := hf.same .pair rfl
    have hst : u.pair.state ≠ .lone := by simpa [← hu] using hs
    rw [hnow, hpair, releaseCapdn, driveCapdn_capdn hst, ← hu]
    simp

end Sys2Proof.Machine
end

section
/-! The start of firmware, and the statement about it (R15, R79, R103, R171, R248). -/

namespace Sys2Proof.Machine

/-! ## The journal replayed (R103) -/

/-- The journal read back holds no torn entry and no more than it held. -/
theorem replayJournal_entries (held torn : List Nat) (s : State) :
    (replayJournal held torn s).jr.entries.length ≤ s.jr.entries.length ∧
    ∀ e ∈ (replayJournal held torn s).jr.entries, (e.state = .pending ∨ e.state = .done) ∧ e.jseq ∉ torn := by
  refine ⟨by simpa [replayJournal] using List.length_filter_le .., fun e he => ?_⟩
  obtain ⟨d, hd, rfl⟩ := List.mem_map.mp he
  have hkept := (List.mem_filter.mp hd).2
  simp only [Bool.and_eq_true, Bool.not_eq_true', List.contains_eq_mem, decide_eq_false_iff_not] at hkept
  split
  next hdone => exact ⟨.inr (eq_of_beq hdone), hkept.1⟩
  next => exact ⟨.inl rfl, hkept.1⟩

/-! ## Keeper mode ends (R79) -/

/-- What is published of keeper mode leaves the actuator epoch. -/
theorem publishKeeper_actEpoch (s : State) : (publishKeeper s).kt.actEpoch = s.kt.actEpoch := by
  unfold publishKeeper
  extract_lets fs s1
  have hf : Foot [.out, .host, .pmc] s s1 := Foot.foldl Foot.refl fun _ _ h => h.then (ringEvent_foot ..) rfl
  have hkt : s1.kt = s.kt := hf.same .kt rfl
  rw [← hkt]
  rfl

/-- The journal read back, the recorded role taken, and what the keeper recorded published. -/
def readBack (held torn : List Nat) (s : State) : State :=
  publishKeeper ((replayJournal held torn s).onPair fun p => { p with lead := s.kt.role == some true })

section
variable (held torn : List Nat) (s : State)
theorem readBack_foot : Foot [.out, .jr, .kt, .host, .pmc, .pair] s (readBack held torn s) :=
  (((replayJournal_foot held torn s).mono rfl).onPair rfl).then (publishKeeper_foot _) rfl
theorem readBack_jr : (readBack held torn s).jr = (replayJournal held torn s).jr := (publishKeeper_foot _).same .jr rfl
theorem readBack_lead : (readBack held torn s).pair.lead = (s.kt.role == some true) := by
  have h : (readBack held torn s).pair = { (replayJournal held torn s).pair with lead := s.kt.role == some true } :=
    (publishKeeper_foot _).same .pair rfl
  rw [h]
theorem readBack_epoch : (readBack held torn s).kt.actEpoch = s.kt.actEpoch := publishKeeper_actEpoch _
end

/-- Firmware begun: the watchdog ends, and the clocks of a running board start. -/
def begun (u : State) : State :=
  let u := setBoot .running (u.onBoot fun b => { b with watchdog := none })
  startClocks (u.onPmc (Counters.mark (condOf u)))

theorem begun_foot (u : State) : Foot [.out, .boot, .pmc, .log, .pair, .lv] u (begun u) :=
  (((Foot.refl.onBoot rfl id).then (setBoot_foot ..) rfl).onPmc rfl).then (startClocks_foot _) rfl
theorem begun_boot (u : State) : (begun u).boot = { u.boot with state := .running, watchdog := none } := rfl
theorem begun_lead (u : State) : (begun u).pair.lead = u.pair.lead := rfl

/-- The reset reported, the stored channels and the notes taken up, and the planner begun. -/
def restored (u : State) : State :=
  startPlanner (flushNotes (loadStored (bareEvent 0x0002 2 [u.pwr.resetSrc.toNat] 0 u)))

theorem restored_foot (u : State) : Foot [.out, .keep, .host, .log, .pmc, .spn, .afe, .pln] u (restored u) :=
  ((((bareEvent_foot ..).mono rfl).then (loadStored_foot _) rfl).then (flushNotes_foot _) rfl).then (startPlanner_foot _) rfl

/-- Firmware's start before the role is taken up. -/
def runningAgain (held torn : List Nat) (s : State) : State := restored (begun (readBack held torn s))

theorem doFirmwareRunning_eq {held torn : List Nat} {s : State} (hb : s.pwr.bind = .on) (hs : s.boot.state = .starting)
    (ht : s.keep.tenRead = true) : doFirmwareRunning held torn s = match s.kt.role with
      | some true => startLead (runningAgain held torn s)
      | some false => startShadow (runningAgain held torn s)
      | none => runningAgain held torn s := by
  rw [doFirmwareRunning, if_neg (by simp [hb, hs, ht])]
  rfl

/-- A board whose firmware runs again, with the journal read back and the lines as the keeper held them. -/
structure RunsAgain (held torn : List Nat) (s t : State) : Prop where
  pwr      : t.pwr = s.pwr
  boot     : t.boot = { s.boot with state := .running, watchdog := none }
  role     : t.kt.role = s.kt.role
  epoch    : t.kt.actEpoch = s.kt.actEpoch
  lead     : t.pair.lead = (s.kt.role == some true)
  jr       : t.jr = (replayJournal held torn s).jr
  ten      : t.keep.ten = s.keep.ten
  capdn    : t.keep.capdn = s.keep.capdn
  ket      : t.ket = s.ket

theorem runningAgain_runs (held torn : List Nat) (s : State) : RunsAgain held torn s (runningAgain held torn s) := by
  have h1 := readBack_foot held torn s
  have hjr := readBack_jr held torn s
  have hlead := readBack_lead held torn s
  have hepoch := readBack_epoch held torn s
  rw [runningAgain]
  generalize readBack held torn s = u at h1 hjr hlead hepoch
  have h3 := begun_foot u
  have hboot := begun_boot u
  have hlead' := begun_lead u
  generalize begun u = v at h3 hboot hlead'
  have h4 := restored_foot v
  have hkt : (restored v).kt = u.kt := (h4.same .kt rfl).trans (h3.same .kt rfl)
  have hpair : (restored v).pair = v.pair := h4.same .pair rfl
  have hcore : keepCore (restored v).keep = keepCore s.keep :=
    (h4.same .core rfl).trans ((h3.same .core rfl).trans (h1.same .core rfl))
  exact {
    pwr   := (h4.same .pwr rfl).trans ((h3.same .pwr rfl).trans (h1.same .pwr rfl))
    boot  := (h4.same .boot rfl).trans (by rw [hboot, show u.boot = s.boot from h1.same .boot rfl])
    role  := by rw [hkt]; exact h1.same .role rfl
    epoch := by rw [hkt, hepoch]
    lead  := by rw [hpair, hlead', hlead]
    jr    := (h4.same .jr rfl).trans ((h3.same .jr rfl).trans hjr)
    ten   := keepCore_ten hcore
    capdn := keepCore_capdn hcore
    ket   := (h4.same .ket rfl).trans ((h3.same .ket rfl).trans (h1.same .ket rfl)) }

/-- The role taken up leaves the board running, with the journal as it was read back. -/
theorem RunsAgain.started {held torn : List Nat} {s u t : State} (h : RunsAgain held torn s u)
    (hf : Foot [.keep, .cat, .kt, .pair, .lv, .can, .stw, .core, .ten, .capdnFall] u t) (hl : t.pair.lead = u.pair.lead)
    (hb : s.pwr.bind = .on) : running t = true ∧ t.kt.role = s.kt.role ∧ t.pair.lead = (s.kt.role == some true) ∧
      t.boot.watchdog = none ∧ t.jr.entries.length ≤ s.jr.entries.length ∧
      (∀ e ∈ t.jr.entries, e.state = .pending ∨ e.state = .done) ∧ ∀ e ∈ t.jr.entries, e.jseq ∉ torn := by
  have hpwr : t.pwr = s.pwr := (hf.same .pwr rfl).trans h.pwr
  have hboot : t.boot = { s.boot with state := .running, watchdog := none } := (hf.same .boot rfl).trans h.boot
  have hrole : t.kt.role = u.kt.role := hf.same .role rfl
  have hjr : t.jr = (replayJournal held torn s).jr := (hf.same .jr rfl).trans h.jr
  obtain ⟨hlen, hall⟩ := replayJournal_entries held torn s
  refine ⟨?_, hrole.trans h.role, hl.trans h.lead, by rw [hboot], ?_, fun e he => ?_, fun e he => ?_⟩
  · simp [running, hpwr, hb, hboot]
  · rwa [hjr]
  · exact (hall e (hjr ▸ he)).1
  · exact (hall e (hjr ▸ he)).2

/-- Settles O20: the journal by `replayJournal_entries`, and the lines by the role that is taken up. -/
theorem firmwareStartCompletes : Obligations.FirmwareStartCompletes := by
  unfold Obligations.FirmwareStartCompletes
  intro s held torn hb hs ht
  have hr := runningAgain_runs held torn s
  refine .next (t := doFirmwareRunning held torn s) rfl ?_
  rw [doFirmwareRunning_eq hb hs ht]
  generalize runningAgain held torn s = u at hr
  match hrole : s.kt.role with
  | some true =>
    dsimp only
    obtain ⟨hrun, hro, hlead, hwd, hlen, hst, htorn⟩ :=
      hr.started ((startLead_foot u).mono rfl) (by rw [startLead_pair]) hb
    refine ⟨hrun, hro.trans hrole, by rw [hlead, hrole], hwd, hlen, hst, htorn, fun _ => ?_, nofun, nofun⟩
    simp [startLead_keep, startLead_actEpoch, hr.ten, hr.ket, hr.capdn, hr.epoch]
  | some false =>
    have hpair : (startShadow u).pair = u.pair := (startShadow_foot u).same .pair rfl
    obtain ⟨hrun, hro, hlead, hwd, hlen, hst, htorn⟩ :=
      hr.started ((startShadow_foot u).mono rfl) (by rw [hpair]) hb
    refine ⟨hrun, hro.trans hrole, by rw [hlead, hrole], hwd, hlen, hst, htorn, nofun, fun _ => ?_, nofun⟩
    rw [startShadow, startChannels_keep]
    exact ⟨rfl, hr.ten⟩
  | none =>
    obtain ⟨hrun, hro, hlead, hwd, hlen, hst, htorn⟩ := hr.started Foot.refl rfl hb
    exact ⟨hrun, hro.trans hrole, by rw [hlead, hrole], hwd, hlen, hst, htorn, nofun, nofun, fun _ => ⟨hr.capdn, hr.ten⟩⟩

end Sys2Proof.Machine
end

section
/-! The leave unit's timers, and the statement about them (R37, R132, R143, R144, R151, R152, R160). -/

namespace Sys2Proof.Machine

/-! ## Leases that end (R151) -/

/-- A lease that ends leaves the lease set; one that expires at an accelerator holds its allowance for 2 ms more. -/
theorem endLeaseFor_lv {cap : Option Nat} {id reason : Nat} {s : State} {l : Lease}
    (h : s.lv.leases.find? (·.id == id) = some l) : (endLeaseFor cap id reason s).lv = { s.lv with
      leases := s.lv.leases.filter (·.id != id),
      falling := if reason == 0x10 && l.kind == 0 then s.lv.falling ++ [l] else s.lv.falling } := by
  simp only [endLeaseFor, h]
  split
  · simp
  · simp

/-! ## TEN lowered at the end of a stop delay (R132, R143) -/

/-- A TEN bit of a tray changed at the acting Lead alone drives the line. -/
theorem changeTen_alone {s : State} {t : Nat} {b : Bool} (hl : s.pair.lead = true) (hn : s.pair.state ≠ .lone)
    (ha : attached s = false) : changeTen t b s = applyTen (put16 (tenTarget s) t b) s := by
  simp [changeTen, hl, hn, ha]

/-- In LONE_CHECK the line is held, and the change waits (R132). -/
theorem changeTen_lone {s : State} {t : Nat} {b : Bool} (hl : s.pair.lead = true) (hn : s.pair.state = .lone) :
    changeTen t b s = s.onPair fun p => { p with tenWait := some (put16 (tenTarget s) t b) } := by
  simp [changeTen, hl, hn]

/-- The state in which a tray's TEN bit changes as its stop delay is over. -/
def stopDue (t d : Nat) (s : State) : State := onTray t (fun x => { x with stopAt := none }) (reach d s)

theorem doTrayStopDelay_eq {s : State} {t d : Nat} (h : (trayOf s t).stopAt = some d) (hr : running s = true) :
    doTrayStopDelay t s = afterTen (changeTen t false (stopDue t d s)) := by
  simp [doTrayStopDelay, h, hr, clearEnabled, stopDue]

/-! ## A rack limit's hold that ends (R152) -/

theorem trayOf_onTray_same (t : Nat) (f : Tray → Tray) (s : State) : trayOf (onTray t f s) t = f (trayOf s t) :=
  Tab.get_mod_same ..

@[simp] theorem trimLease_trays (l : Lease) (s : State) : (trimLease l s).lv.trays = s.lv.trays := by
  unfold trimLease
  dsimp only
  split
  · simp
  · rfl

@[simp] theorem trimTray_trays (t : Nat) (s : State) : (trimTray t s).lv.trays = s.lv.trays := by
  unfold trimTray
  split
  · rfl
  · exact List.foldlRecOn (motive := fun u : State => u.lv.trays = s.lv.trays) _ _ rfl
      fun u hu l _ => (trimLease_trays ..).trans hu

@[simp] theorem queueResume_trays (t : Nat) (s : State) : (queueResume t s).lv.trays = s.lv.trays := by
  unfold queueResume
  split
  · rfl
  · rfl

/-- A rack limit that is lifted, with the host's limit as it was, stops no tray and leaves the trays' figures. -/
theorem afterLimits_lifted {t : Nat} {old : Tray} {s : State} (hrm : (trayOf s t).rm = 0xFFFF)
    (hh : (trayOf s t).host = old.host) : (afterLimits t false old s).lv.trays = s.lv.trays := by
  simp only [afterLimits, hrm, hh, Bool.false_and, Bool.false_eq_true, if_false]
  by_cases hoff : old.host = 0
  · simp [hoff]
  by_cases hfloor : old.host = 1
  · simp [hfloor]
  · have htrim (c : Prop) [Decidable c] : (if c then trimTray t s else s).lv.trays = s.lv.trays := by
      split
      · exact trimTray_trays t s
      · rfl
    simp only [beq_iff_eq, hoff, hfloor, or_false, Bool.or_eq_true, Nat.reduceEqDiff, if_false]
    split
    · rw [queueResume_trays, htrim]
    · exact htrim _

/-- The hold is over for the record that asked for it. -/
theorem endHold_tray (t : Nat) (r : Word) (s : State) : trayOf (endHold t r s) t = { trayOf s t with holdSeq := 0 } := by
  unfold endHold
  dsimp only
  split
  next h => rw [← eq_of_beq h]
  next => rw [trayOf, finish0_lv]; exact trayOf_onTray_same ..

/-! ## A quire half that asks again (R160) -/

theorem internalAsk_eq_none {w : Nat} {s : State} : internalAsk w s = none ↔
    leaveHeld s = false ∧ s.lv.stale = false ∧ s.kt.budget.isNone = false ∧ (w : Int) ≤ freeW s ∧ 0 ≤ freeW s := by
  unfold internalAsk
  split
  next h =>
    simp only [Bool.or_eq_true] at h
    simp only [reduceCtorEq, false_iff]
    rintro ⟨hl, hs, -⟩
    simp [hl, hs] at h
  next h =>
    simp only [Bool.or_eq_true, not_or, Bool.not_eq_true] at h
    split
    next hb => simp [hb]
    next hb =>
      split
      next hf => simpa [h, hb] using hf
      next hf =>
        split
        · simpa [h, hb] using hf
        · simpa [h, hb] using hf

theorem freeW_reach (d : Nat) (s : State) : freeW (reach d s) = freeW s := by
  have hdraws : drawsBase (reach d s) = drawsBase s := by
    funext t
    simp [drawsBase, trayOff, tripped, enabled, tenTarget, trayOf]
  simp [freeW, freeWith, ceilingE, baseDraw, hdraws, descOf, invOf]

/-- A quire half that is granted leave powers up, and nothing more is asked for. -/
theorem askHalf_granted {h : Nat} {s : State} (ha : internalAsk 20 s = none) (hoff : halfOf s h = .off)
    (hother : halfOf s (1 - h) ≠ .powering) :
    halfOf (askHalf h s) h = .powering ∧ (askHalf h s).lv.waits = s.lv.waits := by
  generalize hu : grantInternal 2 h 20 0 s = u
  have hf := grantInternal_foot 2 h 20 0 s
  rw [hu] at hf
  have hwaits : u.lv.waits = s.lv.waits := by
    rw [← hu]
    simp [grantInternal, addLease]
  have hpwr : u.pwr = s.pwr := hf.same .pwr rfl
  have hhalf (k : Nat) : halfOf u k = halfOf s k := by rw [halfOf, halfOf, hpwr]
  have hask : askHalf h s = setHalf h .powering u := by
    simp [askHalf, ha, hu, powerHalf, hhalf, hother]
  rw [hask]
  refine ⟨?_, by rw [setHalf_lv, hwaits]⟩
  simp only [setHalf, hhalf, hoff]
  by_cases h0 : h = 0
  · simp [halfOf, h0]
  · simp [halfOf, h0]

/-- Settles O35: each timer's row by the lemma about its path. -/
theorem leaveTimersComplete : Obligations.LeaveTimersComplete := by
  unfold Obligations.LeaveTimersComplete
  refine ⟨?expiry, ?fall, ?stale, ?stop, ?stopLone, ?holdEnd, ?retry⟩
  case expiry =>
    intro s l hl hs hlead
    have heq : doLeaseExpiry l.id s = endLeaseFor none l.id 0x10 (reach l.stop s) := by
      simp [doLeaseExpiry, hl, hs, hlead, endLease]
    have hlv := endLeaseFor_lv (cap := none) (reason := 0x10) (s := reach l.stop s) (l := l) (by rwa [reach_lv])
    refine .next (t := doLeaseExpiry l.id s) rfl ?_
    have hnow : (endLeaseFor none l.id 0x10 (reach l.stop s)).now = (reach l.stop s).now :=
      (endLeaseFor_foot ..).same .now rfl
    rw [heq, hlv, hnow]
    exact ⟨by simp, by simp, fun hk => by simp [hk]⟩
  case fall =>
    intro s l hl
    refine .next (t := doAllowanceFall l.id s) rfl ?_
    simp [doAllowanceFall, hl]
  case stale =>
    intro s hr he hs
    refine .next (t := doLeaveTableStale s) rfl ?_
    simp [doLeaveTableStale, hr, he, hs]
  case stop =>
    intro s n d hd hact hat hw hn
    obtain ⟨hr, hl⟩ := (Bool.and_eq_true _ _).mp hact
    refine .next (t := doTrayStopDelay n.val s) rfl ?_
    have hch : changeTen n.val false (stopDue n.val d s) = applyTen (put16 s.keep.ten n.val false) (stopDue n.val d s) := by
      rw [changeTen_alone (by simpa [stopDue] using hl) (by simpa [stopDue] using hn)
        (by simpa [stopDue, attached] using hat)]
      simp [stopDue, tenTarget, hw]
    have hket : (afterTen (changeTen n.val false (stopDue n.val d s))).ket = (changeTen n.val false (stopDue n.val d s)).ket :=
      (afterTen_foot _).same .ket rfl
    rw [doTrayStopDelay_eq hd hr, hket, hch]
    simp [stopDue]
  case stopLone =>
    intro s n d hd hact hn
    obtain ⟨hr, hl⟩ := (Bool.and_eq_true _ _).mp hact
    refine .next (t := doTrayStopDelay n.val s) rfl ?_
    have hch := changeTen_lone (s := stopDue n.val d s) (t := n.val) (b := false) (by simpa [stopDue] using hl)
      (by simpa [stopDue] using hn)
    rw [doTrayStopDelay_eq hd hr, hch, pairCore_part (pairCore_afterTen _) Pair.tenWait fun _ => rfl]
    simp [stopDue, tenTarget]
  case holdEnd =>
    intro s n hh hr
    refine .next (t := doHoldEnd n.val s) rfl ?_
    generalize hu : onTray n.val (fun x => { x with rm := 0xFFFF, holdRef := 0, holdEnd := 0 })
      (endHold n.val 0 (reach (fromKeep (trayOf s n.val).holdEnd) s)) = u
    have heq : doHoldEnd n.val s = afterLimits n.val false (trayOf s n.val) u := by
      rw [← hu]
      simp [doHoldEnd, hh, hr]
    have htray : trayOf u n.val = { trayOf s n.val with holdSeq := 0, rm := 0xFFFF, holdRef := 0, holdEnd := 0 } := by
      rw [← hu, trayOf_onTray_same, endHold_tray]
      simp [trayOf]
    have hsame : trayOf (afterLimits n.val false (trayOf s n.val) u) n.val = trayOf u n.val := by
      rw [trayOf, afterLimits_lifted (by rw [htray]) (by rw [htray])]
      rfl
    have hnow : (afterLimits n.val false (trayOf s n.val) u).now = max s.now (fromKeep (trayOf s n.val).holdEnd) := by
      refine ((afterLimits_foot ..).same .now rfl : _ = u.now).trans ?_
      rw [← hu, onTray_now]
      exact ((endHold_foot ..).same .now rfl).trans (reach_now ..)
    rw [heq, hsame, htray, hnow]
    exact ⟨Nat.le_max_right .., rfl, rfl, rfl⟩
  case retry =>
    intro s w hr hw hk ho hst hoff hturn hask hother
    refine .next (t := doInternalLeaveRetry w.id s) rfl ?_
    generalize hu : (reach w.at_ s).onLv (fun l => { l with waits := l.waits.filter (·.id != w.id) }) = u
    have hpwr : u.pwr = s.pwr := by simp [← hu]
    have hhalf (k : Nat) : halfOf u k = halfOf s k := by rw [halfOf, halfOf, hpwr]
    have hturn' : halfTurn w.owner u = true := by simpa [halfTurn, hhalf] using hturn
    have heq : doInternalLeaveRetry w.id s = askHalf w.owner u := by
      simp [doInternalLeaveRetry, hw, hr, hu, askAgain, hk, hpwr, hst, hhalf, hoff, hturn']
    have hask' : internalAsk 20 u = none := by
      rw [internalAsk_eq_none] at hask ⊢
      have hfree : freeW u = freeW s := by rw [← hu]; exact freeW_reach w.at_ s
      rw [hfree]
      simpa [← hu, leaveHeld] using hask
    obtain ⟨hpow, hwaits⟩ := askHalf_granted hask' (by rwa [hhalf]) (by rwa [hhalf])
    have hnow : (askHalf w.owner u).now = u.now := (askHalf_foot ..).same .now rfl
    rw [heq, hpow, hwaits, hnow, ← hu]
    simp [hw]

end Sys2Proof.Machine
end

section
/-! Laws of a cycle tick's parts: they leave the tick entered, and time goes on (R35, R38, R273, R306, R308). -/

namespace Sys2Proof.Machine

/-- The cycle that runs: its number, its time, and that one runs. -/
def cycleOf (s : State) : Nat × Nat × Bool := (s.ep.tick, s.ep.tickAt, s.ep.ticked)

theorem cycleOf_congr {s t : State} (h : t.ep = s.ep) : cycleOf t = cycleOf s := by rw [cycleOf, cycleOf, h]

theorem cycleOf_of_foot {fs : List Fld} {s t : State} (h : Foot fs s t) (hf : fs.contains .ep = false) :
    cycleOf t = cycleOf s := cycleOf_congr (h.same .ep hf)

/-- A view of the state that each step of a fold leaves is left by the fold. -/
theorem foldl_view {α β : Type} {view : State → β} {f : State → α → State} (h : ∀ s a, view (f s a) = view s) (l : List α)
    (s : State) : view (l.foldl f s) = view s :=
  List.foldlRecOn (motive := fun u : State => view u = view s) l f rfl fun u hu a _ => (h u a).trans hu

section
variable (s : State)
@[simp] theorem onEp_cycleOf (f : Epoch → Epoch)
    (hf : ∀ x, (f x).tick = x.tick ∧ (f x).tickAt = x.tickAt ∧ (f x).ticked = x.ticked) :
    cycleOf (s.onEp f) = cycleOf s := by simp [cycleOf, hf]
@[simp] theorem onQre_cycleOf (f : Quires → Quires) : cycleOf (s.onQre f) = cycleOf s := rfl
@[simp] theorem onKt_cycleOf (f : KeepTables → KeepTables) : cycleOf (s.onKt f) = cycleOf s := rfl
@[simp] theorem onLv_cycleOf (f : Leave → Leave) : cycleOf (s.onLv f) = cycleOf s := rfl
@[simp] theorem onSpn_cycleOf (f : Spine → Spine) : cycleOf (s.onSpn f) = cycleOf s := rfl
@[simp] theorem event_cycleOf (code : Half) (sev : Nat) (data : List Nat) (cw : DWord) (ref : Nat) :
    cycleOf (event code sev data cw ref s) = cycleOf s := cycleOf_congr (event_ep ..)
@[simp] theorem count_cycleOf (ev : Nat) : cycleOf (count ev s) = cycleOf s := cycleOf_congr (count_ep ..)
@[simp] theorem finish0_cycleOf (j : Nat) (r : Word) : cycleOf (finish0 j r s) = cycleOf s := cycleOf_congr (finish0_ep ..)
@[simp] theorem onCore_cycleOf (k : Nat) (f : Core → Core) : cycleOf (onCore k f s) = cycleOf s := rfl
@[simp] theorem onProg_cycleOf (i : Nat) (f : Prog → Prog) : cycleOf (onProg i f s) = cycleOf s := rfl
@[simp] theorem stopCores_cycleOf (p : Prog) : cycleOf (stopCores p s) = cycleOf s := cycleOf_of_foot (stopCores_foot ..) rfl
@[simp] theorem startCores_cycleOf (p : Prog) : cycleOf (startCores p s) = cycleOf s :=
  cycleOf_of_foot (startCores_foot ..) rfl
@[simp] theorem overrun_cycleOf (k : Nat) : cycleOf (overrun k s) = cycleOf s := cycleOf_of_foot (overrun_foot ..) rfl
@[simp] theorem setHalves_cycleOf : cycleOf (setHalves s) = cycleOf s := cycleOf_of_foot (setHalves_foot _) rfl
@[simp] theorem swapQuires_cycleOf (chg : List Nat) (new : List Prog) : cycleOf (swapQuires chg new s) = cycleOf s :=
  cycleOf_of_foot (swapQuires_foot ..) rfl
@[simp] theorem waitObject_cycleOf (e : JEntry) : cycleOf (waitObject e s) = cycleOf s :=
  cycleOf_of_foot (waitObject_foot ..) rfl
@[simp] theorem masterSend_cycleOf (op : Nat) (body : Bytes) (pos : Nat) : cycleOf (masterSend op body pos s) = cycleOf s :=
  cycleOf_of_foot (masterSend_foot ..) rfl
@[simp] theorem applyRoutes_cycleOf : cycleOf (applyRoutes s) = cycleOf s := cycleOf_of_foot (applyRoutes_foot _) rfl
@[simp] theorem endEpoch_cycleOf (m : Manifest) : cycleOf (endEpoch m s) = cycleOf s := cycleOf_of_foot (endEpoch_foot ..) rfl
@[simp] theorem clearPreload_cycleOf (n : Nat) : cycleOf (clearPreload n s) = cycleOf s := rfl
end

/-! ## A takeover at a tick (R138) -/

theorem replayFresh_cycleOf (s : State) : cycleOf (replayFresh s) = cycleOf s := by
  simp [replayFresh, cycleOf]

@[simp] theorem takeover_cycleOf (silent : Bool) (image : Half) (s : State) :
    cycleOf (takeover silent image s) = cycleOf s := by
  have htaken : cycleOf (takenOver silent image s) = cycleOf s := by
    refine (replayFresh_cycleOf _).trans ((cycleOf_congr (applyTen_ep ..)).trans ?_)
    refine (cycleOf_of_foot (setPair_foot ..) rfl).trans ((event_cycleOf ..).trans ?_)
    exact (cycleOf_of_foot (wakeCause_foot ..) rfl).trans ((cycleOf_of_foot (roleChange_foot ..) rfl).trans rfl)
  have hcapdn (u : State) : cycleOf (takeCapdn silent u) = cycleOf u := by
    unfold takeCapdn
    split
    · exact (cycleOf_of_foot (capdnRevokes_foot ..) rfl).trans rfl
    · exact (cycleOf_of_foot (queueResumes_foot _) rfl).trans rfl
  have hresume (u : State) : cycleOf (resume u) = cycleOf u := by
    unfold resume
    exact (cycleOf_of_foot (resendPoints_foot _) rfl).trans ((cycleOf_of_foot (afterTen_foot _) rfl).trans rfl)
  rw [takeover_eq, hresume, hcapdn, htaken]

/-! ## Faults and cores (R273, R306) -/

section
variable (s : State)

@[simp] theorem beginBorrow_cycleOf : cycleOf (beginBorrow s) = cycleOf s := by
  unfold beginBorrow
  split <;> simp

@[simp] theorem endBorrow_cycleOf : cycleOf (endBorrow s) = cycleOf s := by
  unfold endBorrow
  dsimp only
  split
  · rfl
  · split <;> simp

@[simp] theorem faultH_cycleOf (q : Nat) : cycleOf (faultH q s) = cycleOf s := by
  unfold faultH
  dsimp only
  split <;> simp

@[simp] theorem quireFault_cycleOf (q c : Nat) (f : QFault) : cycleOf (quireFault q c f s) = cycleOf s := by
  unfold quireFault
  split
  · rfl
  · dsimp only
    split <;> simp

@[simp] theorem leftovers_cycleOf (p : Prog) : cycleOf (leftovers p s) = cycleOf s := by
  unfold leftovers
  split
  · rfl
  · split <;> simp

@[simp] theorem tickCore_cycleOf (k : Nat) : cycleOf (tickCore k s) = cycleOf s := by
  unfold tickCore
  dsimp only
  split
  · simp
  · rfl
  · split
    · simp
    · split <;> simp

@[simp] theorem tickCores_cycleOf (chg : List Nat) : cycleOf (tickCores chg s) = cycleOf s := by
  refine (foldl_view (fun u k => ?_) _ _).trans (foldl_view (fun u p => leftovers_cycleOf u p) s.qre.progs s)
  generalize (quireUp u (k / 4) && _) = runs
  cases runs <;> simp

/-! ## The epoch and its programs (R273, R299) -/

@[simp] theorem supersede_cycleOf : cycleOf (supersede s) = cycleOf s := by
  unfold supersede
  split <;> simp

@[simp] theorem fxConfigEpoch_cycleOf (e : JEntry) : cycleOf (fxConfigEpoch e s) = cycleOf s := by
  unfold fxConfigEpoch
  dsimp only
  split
  · simp
  split
  · simp
  split
  · simp
  split
  · simp
  split
  · exact (foldl_view (fun u pos => masterSend_cycleOf u ..) _ _).trans (by simp)
  · simp

@[simp] theorem startLater_cycleOf : cycleOf (startLater s) = cycleOf s := by
  unfold startLater
  dsimp only
  split
  · rfl
  · split <;> simp

@[simp] theorem changeEpoch_cycleOf (p : PendEpoch) : cycleOf (changeEpoch p s) = cycleOf s := by simp [changeEpoch]

@[simp] theorem switchProg_cycleOf (p : Prog) : cycleOf (switchProg p s) = cycleOf s := by
  unfold switchProg
  dsimp only
  split <;> simp

@[simp] theorem switchVariants_cycleOf : cycleOf (switchVariants s) = cycleOf s := by
  unfold switchVariants
  split
  · rfl
  · exact foldl_view (fun u p => switchProg_cycleOf u p) _ _

@[simp] theorem beginLoad_cycleOf : cycleOf (beginLoad s) = cycleOf s := by
  unfold beginLoad
  dsimp only
  split
  · rfl
  · refine (onEp_cycleOf _ _ fun _ => ⟨rfl, rfl, rfl⟩).trans ?_
    exact foldl_view (fun u p => by simp) _ s

@[simp] theorem restartPrograms_cycleOf : cycleOf (restartPrograms s) = cycleOf s := by
  unfold restartPrograms
  dsimp only
  split
  · rfl
  have hstart : cycleOf ((s.qre.progs.filter (·.isIn .restored)).foldl
      (fun s p => startCores p (onProg p.index (fun p => { p with st := .ready }) s)) s) = cycleOf s :=
    foldl_view (fun u p => by simp) _ s
  split
  · exact (foldl_view (fun u j => finish0_cycleOf u ..) _ _).trans (by simpa using hstart)
  · exact hstart

@[simp] theorem borrowTick_cycleOf : cycleOf (borrowTick s) = cycleOf s := by
  unfold borrowTick
  split
  · simp
  · split <;> simp

@[simp] theorem tickQuires_cycleOf : cycleOf (tickQuires s) = cycleOf s := by
  unfold tickQuires
  extract_lets due chg s1 s2 s3 t s4
  have hchange : cycleOf s2 = cycleOf s := by
    refine Eq.trans ?_ (tickCores_cycleOf s chg)
    clear_value due
    cases due with
    | none => rfl
    | some p => exact changeEpoch_cycleOf ..
  have hend : cycleOf s4 = cycleOf s := by simp [s4, s3, hchange]
  split
  · exact (onSpn_cycleOf ..).trans hend
  · exact hend

/-! ## The rest of a tick -/

@[simp] theorem tickCkpt_cycleOf : cycleOf (tickCkpt s) = cycleOf s := by
  unfold tickCkpt
  dsimp only
  split <;> split <;> simp


@[simp] theorem newCycle_cycleOf : cycleOf (newCycle s) = cycleOf s := rfl

@[simp] theorem takeSnapshot_cycleOf : cycleOf (takeSnapshot s) = cycleOf s := by
  unfold takeSnapshot
  extract_lets own b s1 s2
  have h1 : cycleOf s1 = cycleOf s := (cycleOf_of_foot (storeSnap_foot _) rfl).trans (by simp)
  have h2 : cycleOf s2 = cycleOf s1 := by
    unfold s2
    split
    · exact cycleOf_of_foot (sendPair_foot ..) rfl
    · rfl
  have hrest : Foot [.out, .keep, .kt, .mbx, .jr, .stg, .host, .log, .pmc, .spn, .pair, .lv, .afe, .drv, .can, .pln, .stw] s2
      (adoptAll (replan (applyTables (applyAfe (canTick (gridNs s2 s2.now / 1000) (canTaken s2)))))) :=
    ((((((canTaken_foot _).mono rfl).then (canTick_foot ..) rfl).then (applyAfe_foot _) rfl).then (applyTables_foot _)
      rfl).then (replan_foot _) rfl).then (adoptAll_foot _) rfl
  exact (cycleOf_of_foot hrest rfl).trans (h2.trans h1)

@[simp] theorem countCold_cycleOf : cycleOf (countCold s).2 = cycleOf s := by
  unfold countCold
  split
  · rfl
  split
  · simp
  · simp

@[simp] theorem switchTables_cycleOf : cycleOf (switchTables s).2 = cycleOf s := by
  unfold switchTables
  split
  next u h => rw [← countCold_cycleOf s, h]
  next u h =>
    have hu : cycleOf u = cycleOf s := by rw [← countCold_cycleOf s, h]
    dsimp only
    split
    · exact hu
    · refine (cycleOf_of_foot (takeHarbours_foot ..) rfl).trans ?_
      simpa using hu

@[simp] theorem tickSwitch_cycleOf : cycleOf (tickSwitch s) = cycleOf s := by
  unfold tickSwitch
  dsimp only
  split
  · exact cycleOf_of_foot (((Foot.refl (fs := [.out, .pmc, .spn, .pair])).onPair rfl).then (sendPair_foot ..) rfl) rfl
  split
  · simp
  · rfl

end

end Sys2Proof.Machine
end

section
/-! Laws of the leave table in force: what goes on from its switch at a cycle tick leaves it (R36, R145). -/

namespace Sys2Proof.Machine

/-- The leave table in force: the current one, whether it is stale, and whether one has ever come. -/
def tableInForce (s : State) : Option Bytes × Bool × Bool := (s.lv.table, s.lv.stale, s.lv.everTable)

theorem tableInForce_congr {s t : State} (h : t.lv = s.lv) : tableInForce t = tableInForce s := by
  rw [tableInForce, tableInForce, h]

theorem tableInForce_of_foot {fs : List Fld} {s t : State} (h : Foot fs s t) (hf : fs.contains .lv = false) :
    tableInForce t = tableInForce s := tableInForce_congr (h.same .lv hf)

section
variable (s : State)
@[simp] theorem onLv_tableInForce (f : Leave → Leave)
    (hf : ∀ x, (f x).table = x.table ∧ (f x).stale = x.stale ∧ (f x).everTable = x.everTable) :
    tableInForce (s.onLv f) = tableInForce s := by simp [tableInForce, hf]
@[simp] theorem onKet_tableInForce (f : Kettle → Kettle) : tableInForce (s.onKet f) = tableInForce s := rfl
@[simp] theorem onStw_tableInForce (f : Steward → Steward) : tableInForce (s.onStw f) = tableInForce s := rfl
@[simp] theorem onOtp_tableInForce (f : Otp → Otp) : tableInForce (s.onOtp f) = tableInForce s := rfl
@[simp] theorem onDrv_tableInForce (f : Drive → Drive) : tableInForce (s.onDrv f) = tableInForce s := rfl
@[simp] theorem onPln_tableInForce (f : Planner → Planner) : tableInForce (s.onPln f) = tableInForce s := rfl
@[simp] theorem onEp_tableInForce (f : Epoch → Epoch) : tableInForce (s.onEp f) = tableInForce s := rfl
@[simp] theorem onSpn_tableInForce (f : Spine → Spine) : tableInForce (s.onSpn f) = tableInForce s := rfl
@[simp] theorem onBox_tableInForce (n : Nat) (f : Mailbox → Mailbox) : tableInForce (onBox n f s) = tableInForce s := rfl
@[simp] theorem onTray_tableInForce (t : Nat) (f : Tray → Tray) : tableInForce (onTray t f s) = tableInForce s := rfl
@[simp] theorem event_tableInForce (code : Half) (sev : Nat) (data : List Nat) (cw : DWord) (ref : Nat) :
    tableInForce (event code sev data cw ref s) = tableInForce s := tableInForce_congr (event_lv ..)
@[simp] theorem count_tableInForce (ev : Nat) : tableInForce (count ev s) = tableInForce s := tableInForce_congr (count_lv ..)
@[simp] theorem finish0_tableInForce (j : Nat) (r : Word) : tableInForce (finish0 j r s) = tableInForce s :=
  tableInForce_congr (finish0_lv ..)
@[simp] theorem tellPartner_tableInForce (m : LeaseMsg) : tableInForce (tellPartner m s) = tableInForce s :=
  tableInForce_congr (tellPartner_lv ..)
@[simp] theorem respond_tableInForce (m : Nat) (r : Resp) : tableInForce (respond m r s) = tableInForce s :=
  tableInForce_congr (respond_lv ..)
@[simp] theorem tagDue_tableInForce : tableInForce (tagDue s) = tableInForce s := tableInForce_of_foot (tagDue_foot _) rfl
@[simp] theorem wakeCause_tableInForce (n : Nat) : tableInForce (wakeCause n s) = tableInForce s :=
  tableInForce_of_foot (wakeCause_foot ..) rfl
@[simp] theorem assertCapdn_tableInForce (t : Nat) : tableInForce (assertCapdn t s) = tableInForce s :=
  tableInForce_of_foot (assertCapdn_foot ..) rfl
@[simp] theorem dropTen_tableInForce (m : Nat) : tableInForce (dropTen m s) = tableInForce s :=
  tableInForce_of_foot (dropTen_foot ..) rfl
@[simp] theorem startRebind_tableInForce : tableInForce (startRebind s) = tableInForce s :=
  tableInForce_of_foot (startRebind_foot _) rfl
@[simp] theorem sendPair_tableInForce (p : Payload) : tableInForce (sendPair p s) = tableInForce s :=
  tableInForce_of_foot (sendPair_foot ..) rfl

/-! ## Trips (R170, R343) -/

@[simp] theorem endLease_tableInForce (id reason : Nat) : tableInForce (endLease id reason s) = tableInForce s := by
  unfold endLease endLeaseFor
  split
  · rfl
  · dsimp only
    split <;> simp

@[simp] theorem revokeTray_tableInForce (t reason : Nat) : tableInForce (revokeTray t reason s) = tableInForce s := by
  unfold revokeTray
  split
  · rfl
  · exact foldl_view (fun u id => by simp) _ s

@[simp] theorem endStart_tableInForce (t : Nat) (r : Word) : tableInForce (endStart t r s) = tableInForce s := by
  unfold endStart
  dsimp only
  split <;> simp

@[simp] theorem settleStop_tableInForce (t : Nat) : tableInForce (settleStop t s) = tableInForce s := by
  unfold settleStop
  dsimp only
  split
  · rfl
  · exact foldl_view (fun u j => finish0_tableInForce u ..) _ _

@[simp] theorem queueResume_tableInForce (t : Nat) : tableInForce (queueResume t s) = tableInForce s := by
  unfold queueResume
  split <;> simp

@[simp] theorem endRebind_tableInForce (r : Word) : tableInForce (endRebind r s) = tableInForce s := by
  unfold endRebind
  split
  · rfl
  next x _ =>
    have hlease : tableInForce (if x.lease == 0 then s else endLease x.lease 0 s) = tableInForce s := by
      split <;> simp
    simpa using hlease

@[simp] theorem abortRebind_tableInForce (t : Nat) : tableInForce (abortRebind t s) = tableInForce s := by
  unfold abortRebind
  extract_lets gone prior s1 s2
  have h : tableInForce s2 = tableInForce s := foldl_view (fun u r => finish0_tableInForce u ..) gone s1
  split
  · split
    · exact (endRebind_tableInForce ..).trans h
    · exact h
  · exact h

@[simp] theorem tripTray_tableInForce (t : Nat) : tableInForce (tripTray t s) = tableInForce s := by simp [tripTray]

@[simp] theorem tripTrays_tableInForce (m cause loc : Nat) : tableInForce (tripTrays m cause loc s) = tableInForce s := by
  unfold tripTrays
  extract_lets fresh chg s1 s2 s3 ref s4 s5
  have h2 : tableInForce s2 = tableInForce s := (foldl_view (fun u t => tripTray_tableInForce u t) fresh _).trans (by simp [s1])
  have h3 : tableInForce s3 = tableInForce s := by
    unfold s3
    split
    · exact h2
    · simpa using h2
  split
  · exact h3
  · have h5 : tableInForce s5 = tableInForce s := by
      unfold s5
      split <;> simpa [s4] using h3
    exact h5

@[simp] theorem reexamine_tableInForce (n : Nat) (was : Bool) : tableInForce (reexamine n was s) = tableInForce s := by
  have hsource (u : State) : tableInForce (tripSource n u) = tableInForce u := by
    unfold tripSource
    dsimp only
    split
    · rfl
    · simp [onLeak]
  unfold reexamine
  dsimp only
  split
  · exact (hsource _).trans rfl
  · rfl

@[simp] theorem applyRoute_tableInForce (w : RouteWait) : tableInForce (applyRoute w s) = tableInForce s := by
  unfold applyRoute
  extract_lets old s1 s2 s3
  have h2 : tableInForce s2 = tableInForce s := by
    unfold s2
    split <;> simp [s1]
  have h3 : tableInForce s3 = tableInForce s := by
    refine (foldl_view (fun u n => ?_) _ s2).trans h2
    dsimp only
    split <;> simp
  simpa using h3

@[simp] theorem applyRoutes_tableInForce : tableInForce (applyRoutes s) = tableInForce s :=
  foldl_view (fun u w => applyRoute_tableInForce u w) _ _

/-! ## The tick after its switch (R36, R145, R146, R161 to R163) -/

@[simp] theorem changeEpoch_tableInForce (p : PendEpoch) : tableInForce (changeEpoch p s) = tableInForce s := by
  unfold changeEpoch
  extract_lets old late new s1 s2 s3
  have h1 : tableInForce s1 = tableInForce s :=
    (tableInForce_of_foot (clearPreload_foot ..) rfl).trans (tableInForce_of_foot (endEpoch_foot ..) rfl)
  have h2 : tableInForce s2 = tableInForce s1 :=
    (tableInForce_of_foot (setHalves_foot _) rfl).trans (tableInForce_of_foot (swapQuires_foot ..) rfl)
  have h3 : tableInForce s3 = tableInForce s := (onEp_tableInForce ..).trans (h2.trans h1)
  exact (tableInForce_of_foot (startLater_foot _) rfl).trans (by simpa using h3)

@[simp] theorem tickQuires_tableInForce : tableInForce (tickQuires s) = tableInForce s := by
  unfold tickQuires
  extract_lets due chg s1 s2 s3 t s4
  have h2 : tableInForce s2 = tableInForce s := by
    refine Eq.trans ?_ (tableInForce_of_foot (tickCores_foot chg s) rfl)
    clear_value due
    cases due with
    | none => rfl
    | some p => exact changeEpoch_tableInForce ..
  have h3 : tableInForce s3 = tableInForce s2 :=
    (tableInForce_of_foot (borrowTick_foot _) rfl).trans ((tableInForce_of_foot (restartPrograms_foot _) rfl).trans
      ((tableInForce_of_foot (beginLoad_foot _) rfl).trans (tableInForce_of_foot (switchVariants_foot _) rfl)))
  have h4 : tableInForce s4 = tableInForce s := (onEp_tableInForce ..).trans (h3.trans h2)
  split
  · exact (onSpn_tableInForce ..).trans h4
  · exact h4

@[simp] theorem replan_tableInForce : tableInForce (replan s) = tableInForce s := by
  unfold replan
  dsimp only
  split
  · rfl
  split
  · split <;> simp
  · simp

@[simp] theorem takeSnapshot_tableInForce : tableInForce (takeSnapshot s) = tableInForce s := by
  unfold takeSnapshot
  extract_lets own b s1 s2
  have h1 : tableInForce s1 = tableInForce s := (tableInForce_of_foot (storeSnap_foot _) rfl).trans (by simp)
  have h2 : tableInForce s2 = tableInForce s1 := by
    unfold s2
    split <;> simp
  have h3 : tableInForce (applyTables (applyAfe (canTick (gridNs s2 s2.now / 1000) (canTaken s2)))) = tableInForce s2 :=
    (tableInForce_of_foot (applyTables_foot _) rfl).trans ((tableInForce_of_foot (applyAfe_foot _) rfl).trans
      ((tableInForce_of_foot (canTick_foot ..) rfl).trans (tableInForce_of_foot (canTaken_foot _) rfl)))
  exact (tableInForce_of_foot (adoptAll_foot _) rfl).trans ((replan_tableInForce _).trans (h3.trans (h2.trans h1)))

@[simp] theorem checkOver_tableInForce : tableInForce (checkOver s) = tableInForce s := by
  unfold checkOver
  split
  · rfl
  split
  · split <;> simp
  · simp

@[simp] theorem tickQueue_tableInForce : tableInForce (tickQueue s) = tableInForce s := by
  unfold tickQueue
  extract_lets now s1 ts
  have h1 : tableInForce s1 = tableInForce s := by
    unfold s1
    split <;> simp
  exact (checkOver_tableInForce _).trans ((foldl_view (fun u t => queueResume_tableInForce u t) ts _).trans (by simpa using h1))

@[simp] theorem sendDemand_tableInForce : tableInForce (sendDemand s) = tableInForce s := by
  have henter (d : Demand) : tableInForce (enterDemand d s) = tableInForce s := by
    unfold enterDemand
    dsimp only
    split <;> simp
  unfold sendDemand
  dsimp only
  split
  · rfl
  split
  · exact henter _
  · exact tableInForce_of_foot (sendSpine_foot ..) rfl

@[simp] theorem sendShare_tableInForce (pos w : Nat) : tableInForce (sendShare pos w s) = tableInForce s := by
  have hnote (u : State) : tableInForce (noteShare pos w u) = tableInForce u := by simp [noteShare]
  unfold sendShare
  dsimp only
  split
  · split
    · rfl
    · exact (tableInForce_congr (count_lv ..)).trans ((onBox_tableInForce ..).trans (hnote _))
  split
  · exact (hnote _).trans (tableInForce_of_foot (masterSend_foot ..) rfl)
  · rfl

@[simp] theorem tickBroker_tableInForce : tableInForce (tickBroker s) = tableInForce s := by
  unfold tickBroker
  split
  · rfl
  · refine foldl_view (fun u p => ?_) _ s
    split <;> simp

end

end Sys2Proof.Machine
end

section
/-! The cycle tick, and the statement about it (R35 to R38, R79). -/

namespace Sys2Proof.Machine

/-! ## The tick entered (R35, R117, R121) -/

/-- The shares of a tick leave the pair but for a reset that falls due. -/
theorem applyShares_pairCore (s : State) : pairCore (applyShares s).pair = pairCore s.pair := by
  have hshare (j w : Nat) (u : State) : pairCore (applyShare j w u).pair = pairCore u.pair := by
    unfold applyShare
    dsimp only
    rw [pairCore_finish0, show (checkOver _).pair = _ from (checkOver_foot _).same .pair rfl]
    split <;> simp
  exact (foldl_view (view := fun u => pairCore u.pair) (fun u (x : Nat × Nat × Nat) => hshare x.1 x.2.1 u) _ _).trans rfl

/-- What a tick entered is: numbered, at its time, with the rest of the cycle's state, the store and the pair as before. -/
structure Entered (s t : State) : Prop where
  ep   : t.ep = { s.ep with tick := (nextTick s).1.1, tickAt := max s.now (nextTick s).1.2, ticked := true }
  now  : t.now = max s.now (nextTick s).1.2
  mem  : t.mem = s.mem
  pair : pairCore t.pair = pairCore s.pair

/-- The tick numbered at its time, with the shares that fall due at it. -/
def tickNumbered (s : State) : State :=
  applyShares (count 0x00A ((reach (nextTick s).1.2 s).onEp fun x => { x with
    tick := (nextTick s).1.1, tickAt := (reach (nextTick s).1.2 s).now, ticked := true }))

theorem tickNumbered_entered (s : State) : Entered s (tickNumbered s) := by
  have h (u : State) : Foot [.out, .keep, .mbx, .jr, .stg, .host, .log, .pmc, .spn, .pair, .lv, .stw] u
      (applyShares (count 0x00A u)) := ((count_foot ..).mono rfl).then (applyShares_foot _) rfl
  exact {
    ep   := ((h _).same .ep rfl).trans (by simp)
    now  := ((h _).same .now rfl).trans (by simp)
    mem  := ((h _).same .mem rfl).trans (by simp)
    pair := (applyShares_pairCore _).trans (by simp) }

/-- The row tick that ends the node's own cycle: the 80 % figure holds until a share comes, and a rejoined arc is reported. -/
def localEnded (s : State) : State :=
  let u := (s.onSpn fun p => { p with firstTick := none, rejoin := false }).onLv fun l => { l with fallback := true }
  if s.spn.rejoin then event 0x0505 1 [] 0 0 u else u

/-- Off the arc of a formed ring the 80 % figure holds. -/
def offArcFallback (s : State) : State :=
  if s.spn.formed && s.spn.offArc then s.onLv fun l => { l with fallback := true } else s

/-- The tick numbered, and what it ends or begins of the row's time. -/
def rowEntered (ends : Bool) (s : State) : State := offArcFallback (if ends then localEnded s else s)

theorem enterTick_eq (s : State) : enterTick s = rowEntered (nextTick s).2 (tickNumbered s) := rfl

theorem rowEntered_foot (ends : Bool) (s : State) : Foot [.out, .keep, .host, .log, .pmc, .spn, .lv] s (rowEntered ends s) := by
  have hended : Foot [.out, .keep, .host, .log, .pmc, .spn, .lv] s (localEnded s) := by
    unfold localEnded
    dsimp only
    split
    · exact ((Foot.refl.onSpn rfl).onLv rfl).then (event_foot ..) rfl
    · exact (Foot.refl.onSpn rfl).onLv rfl
  have hback (u : State) : Foot [.lv] u (offArcFallback u) := by
    unfold offArcFallback
    split
    · exact Foot.refl.onLv rfl
    · exact Foot.refl
  cases ends with
  | false => exact (hback s).mono rfl
  | true => exact hended.then (hback _) rfl

theorem enterTick_entered (s : State) : Entered s (enterTick s) := by
  have hn := tickNumbered_entered s
  have hf := rowEntered_foot (nextTick s).2 (tickNumbered s)
  have hpair : (rowEntered (nextTick s).2 (tickNumbered s)).pair = (tickNumbered s).pair := hf.same .pair rfl
  rw [enterTick_eq]
  exact ⟨(hf.same .ep rfl).trans hn.ep, (hf.same .now rfl).trans hn.now, (hf.same .mem rfl).trans hn.mem,
    by rw [hpair, hn.pair]⟩

/-! ## The parts of a tick -/

/-- A tick from its entry to the marks of the new cycle. -/
def tickBody (s : State) : State :=
  newCycle (tickCkpt (tickQuires (takeSnapshot (tickQueue (tickDigest (switchTables (tickSwitch s)).2)))))

/-- A tick's last parts: the pair's release, the planner's pass, and the row leave broker. -/
def tickEnd (urgent : Bool) (s : State) : State :=
  tickBroker ((sendDemand (tickPass urgent (tickSilent s))).onLv fun l => { l with waiting := 0 })

theorem doCycleTick_eq {s : State} (hr : running s = true) (ht : s.ep.ticked = true ∨ startedUp s = true) :
    doCycleTick s = tickEnd (switchTables (tickSwitch (enterTick s))).1 (tickBody (enterTick s)) := by
  have hgo : (s.ep.ticked || startedUp s) = true := by simpa using ht
  simp only [doCycleTick, hr, hgo, Bool.not_true, Bool.or_self, Bool.false_eq_true, if_false]
  rfl

theorem tickEnd_foot (urgent : Bool) (s : State) :
    Foot [.out, .keep, .mbx, .host, .log, .pmc, .spn, .pair, .lv, .pln] s (tickEnd urgent s) :=
  (((((tickSilent_foot _).mono rfl).then (tickPass_foot ..) rfl).then (sendDemand_foot _) rfl).onLv rfl).then
    (tickBroker_foot _) rfl

theorem tickBody_cycleOf (s : State) : cycleOf (tickBody s) = cycleOf s := by
  simp [tickBody, cycleOf_of_foot (tickQueue_foot _) rfl, cycleOf_of_foot (tickDigest_foot _) rfl]

theorem tickBody_clock (s : State) : s.now ≤ (tickBody s).now := by
  unfold tickBody
  exact (tickSwitch_foot s).clock.trans ((switchTables_foot _).clock.trans ((tickDigest_foot _).clock.trans
    ((tickQueue_foot _).clock.trans ((takeSnapshot_foot _).clock.trans ((tickQuires_foot _).clock.trans
      ((tickCkpt_foot _).clock.trans (newCycle_foot _).clock))))))

/-- A tick numbers the cycle and begins it afresh, whatever falls due at it. -/
theorem doCycleTick_cycle {s : State} (hr : running s = true) (ht : s.ep.ticked = true ∨ startedUp s = true) :
    (doCycleTick s).ep.tick = (nextTick s).1.1 ∧ (doCycleTick s).ep.tickAt = max s.now (nextTick s).1.2 ∧
    (doCycleTick s).ep.ticked = true ∧ (doCycleTick s).ep.tickAt ≤ (doCycleTick s).now ∧
    (doCycleTick s).ep.done = false ∧ (doCycleTick s).ep.arrived = [] ∧ (doCycleTick s).ep.sent = [] ∧
    (doCycleTick s).ep.endAt = false := by
  rw [doCycleTick_eq hr ht]
  generalize (switchTables (tickSwitch (enterTick s))).1 = urgent
  have hin := enterTick_entered s
  have hf := tickEnd_foot urgent (tickBody (enterTick s))
  have hep : (tickEnd urgent (tickBody (enterTick s))).ep = (tickBody (enterTick s)).ep := hf.same .ep rfl
  have hcycle := tickBody_cycleOf (enterTick s)
  simp only [cycleOf, hin.ep, Prod.mk.injEq] at hcycle
  obtain ⟨htick, hat, hticked⟩ := hcycle
  rw [hep, htick, hat, hticked, ← hin.now]
  exact ⟨rfl, rfl, rfl, (tickBody_clock _).trans hf.clock, rfl, rfl, rfl, rfl⟩

/-! ## The table that becomes current (R36, R37) -/

/-- A completed table whose CRC checks becomes current. -/
theorem switchTables_current {s : State} (hd : s.ep.done = true) (hc : s.ep.cold = 0) (hg : tableGood (tableBank s) = true) :
    tableInForce (switchTables s).2 = (some (tableBank s), false, true) := by
  have hcold : countCold s = (true, s) := by simp [countCold, hc, hd]
  simp only [switchTables, hcold, hg, Bool.not_true, Bool.false_eq_true, if_false]
  refine (tableInForce_of_foot (takeHarbours_foot ..) rfl).trans ?_
  rw [count_tableInForce]
  rfl

/-- The table in force at a tick's end is that of its switch. -/
theorem tickBody_tableInForce (s : State) : tableInForce (tickBody s) = tableInForce (switchTables (tickSwitch s)).2 := by
  simp [tickBody, tableInForce_of_foot (newCycle_foot _) rfl, tableInForce_of_foot (tickCkpt_foot _) rfl,
    tableInForce_of_foot (tickDigest_foot _) rfl]

theorem tickEnd_tableInForce (urgent : Bool) (s : State) : tableInForce (tickEnd urgent s) = tableInForce s := by
  simp [tickEnd, tableInForce_of_foot (tickPass_foot ..) rfl, tableInForce_of_foot (tickSilent_foot _) rfl]

/-- Settles O56: the tick by `doCycleTick_cycle`, the table by `switchTables_current`. -/
theorem cycleTickCompletes : Obligations.CycleTickCompletes := by
  unfold Obligations.CycleTickCompletes
  refine ⟨?alone, ?row, ?table, ?waits⟩
  case alone =>
    intro s hr ht hform
    obtain ⟨htick, hat, hticked, hnow, hfresh⟩ := doCycleTick_cycle hr ht
    have hnext : nextTick s = (localTick s, false) := by simp [nextTick, hform]
    refine .next (t := doCycleTick s) rfl ⟨?_, hticked, fun h => ?_, hnow, hfresh⟩
    · rw [htick, hnext]
      rfl
    · rw [hat, hnext]
      simp [localTick, h]
  case row =>
    intro s hr ht hform hfirst
    obtain ⟨htick, -, hticked, -, hdone, -⟩ := doCycleTick_cycle hr ht
    have hnext : nextTick s = (rowTickFrom s (s.ep.tick + 1), false) := by simp [nextTick, hform, hfirst]
    refine .next (t := doCycleTick s) rfl ⟨?_, hticked, hdone⟩
    rw [htick, hnext]
    rfl
  case table =>
    intro s hr ht hform hsw hd hc hg
    have hin := enterTick_entered s
    have hbank : tableBank (enterTick s) = tableBank s := by rw [tableBank, tableBank, hin.mem]
    have hswitch : (enterTick s).pair.switch = 0 := (pairCore_part hin.pair Pair.switch fun _ => rfl).trans hsw
    have hstay : tickSwitch (enterTick s) = enterTick s := by simp [tickSwitch, hswitch]
    have hdone : (enterTick s).ep.done = true := by rw [hin.ep]; exact hd
    have hcold : (enterTick s).ep.cold = 0 := by rw [hin.ep]; exact hc
    have hcur := switchTables_current hdone hcold ((congrArg tableGood hbank).trans hg)
    have htable : tableInForce (doCycleTick s) = (some (tableBank s), false, true) := by
      rw [doCycleTick_eq hr ht, tickEnd_tableInForce, tickBody_tableInForce, hstay, hcur, hbank]
    refine .next (t := doCycleTick s) rfl ?_
    simpa [tableInForce] using htable
  case waits =>
    intro s hr ht hs
    refine .next (t := doCycleTick s) rfl ?_
    simp [doCycleTick, hr, ht, hs]

end Sys2Proof.Machine
end

section
/-! The state at power-on, and what becomes of a latched trip, with the statements about them (R48, R52, R58, R172, R173,
R180). -/

namespace Sys2Proof.Machine

/-- Settles O4: the parts named are the defaults of State. -/
theorem resetLeavesEverythingOff : Obligations.ResetLeavesEverythingOff := by
  unfold Obligations.ResetLeavesEverythingOff
  decide

/-- The commands whose footprint clears trip latches are those of `mayClearTrip`. -/
theorem footOf_tripFall (c : Instr) : (footOf c).contains .tripFall = mayClearTrip c := by
  cases c <;> rfl

/-- Settles O8: the command's footprint clears no latch. -/
theorem tripLatchesStay : Obligations.TripLatchesStay := by
  unfold Obligations.TripLatchesStay
  intro c s t n hc h hn
  obtain ⟨u, hu, hfoot⟩ := exec_foot c s
  obtain rfl : u = t := by simpa [hu] using h
  have htrip : s.ket.trip &&& ~~~u.ket.trip = 0#16 := hfoot.same .tripFall (by rw [footOf_tripFall, hc])
  exact bit16_of_capdnFall htrip hn

end Sys2Proof.Machine
end

section
/-! Resets of BIND by each source of Table 02-6, and the statement about them (R46, R52, R53). -/

namespace Sys2Proof.Machine

/-! ## What goes on from a reset of BIND leaves it down -/

section
variable {src : Nat} {dom : Dom} {s t : State}

theorem BindIsDown.fieldOff (h : BindIsDown src dom s t) : BindIsDown src dom s (fieldOff t) :=
  ⟨h.bind, h.store, h.halfA, h.halfB, h.source, h.capdn, h.leases, h.boot, h.mem, h.trips, h.ten⟩

theorem BindIsDown.saveCounters (h : BindIsDown src dom s t) : BindIsDown src dom s (saveCounters t) :=
  ⟨h.bind, h.store, h.halfA, h.halfB, h.source, h.capdn, h.leases, h.boot, h.mem, h.trips, h.ten⟩

/-- A change of what the sequencer holds beside the domains and RESET_SRC: the rails, the clocks and the times. -/
theorem BindIsDown.onPwr {f : Power → Power} (h : BindIsDown src dom s t)
    (hf : ∀ p, (f p).bind = p.bind ∧ (f p).store = p.store ∧ (f p).halfA = p.halfA ∧ (f p).halfB = p.halfB ∧
      (f p).resetSrc = p.resetSrc) : BindIsDown src dom s (t.onPwr f) := by
  obtain ⟨hbind, hstore, hhalfA, hhalfB, hsrc⟩ := hf t.pwr
  exact ⟨hbind.trans h.bind, hstore.trans h.store, hhalfA.trans h.halfA, hhalfB.trans h.halfB, hsrc.trans h.source,
    h.capdn, h.leases, h.boot, h.mem, h.trips, h.ten⟩

/-- What comes before the reset leaves the trips and TEN. -/
theorem BindIsDown.of_before {u : State} (h : BindIsDown src dom u t) (htrip : u.ket.trip = s.ket.trip)
    (hten : u.keep.ten = s.keep.ten) : BindIsDown src dom s t :=
  { h with trips := h.trips.trans htrip, ten := h.ten.trans hten }

end

/-! ## The reset of each source -/

@[simp] theorem bindReset_field (src : Nat) (dom : Dom) (s : State) : (bindReset src dom s).pwr.field = s.pwr.field := by
  simp [bindReset]
@[simp] theorem bindReset_xin (src : Nat) (dom : Dom) (s : State) : (bindReset src dom s).pwr.xin = s.pwr.xin := by
  simp [bindReset]

/-- The registers of the keep domain that a reset of BIND leaves: what the hour meter counts from, and the power cycles (R48). -/
structure SameCounts (s t : State) : Prop where
  hourBase : t.keep.hourBase = s.keep.hourBase
  hourFrom : t.keep.hourFrom = s.keep.hourFrom
  pcycle   : t.keep.pcycle = s.keep.pcycle

theorem setHandoff_counts (s : State) : SameCounts s (setHandoff s) := by
  unfold setHandoff
  split <;> exact ⟨rfl, rfl, rfl⟩

theorem dropAll_counts (ls : List BelowLease) (r : Word) (s : State) :
    SameCounts s (ls.foldl (fun s l => dropBelow l r s) s) :=
  have hcore := (dropAll_foot ls r s).same .core rfl
  ⟨keepCore_hourBase hcore, keepCore_hourFrom hcore, keepCore_pcycle hcore⟩

theorem bindDown_counts (dom : Dom) (s : State) : SameCounts s (bindDown dom s) := by
  have hset := setHandoff_counts (breakCkpt s)
  constructor
  · simp [bindDown, (dropAll_counts ..).hourBase, hset.hourBase]
  · simp [bindDown, (dropAll_counts ..).hourFrom, hset.hourFrom]
  · simp [bindDown, (dropAll_counts ..).pcycle, hset.pcycle]

theorem bindReset_counts (src : Nat) (dom : Dom) (s : State) : SameCounts s (bindReset src dom s) := by
  have hdown := bindDown_counts dom s
  exact ⟨by simp [bindReset, hdown.hourBase], by simp [bindReset, hdown.hourFrom], by simp [bindReset, hdown.pcycle]⟩

/-- The hour meter counts on while BIND goes down. -/
theorem SameCounts.hourMeter {s t : State} (h : SameCounts s t) (hnow : t.now = s.now) : hourMeter t = hourMeter s := by
  rw [Machine.hourMeter, Machine.hourMeter, h.hourBase, h.hourFrom, hnow]

@[simp] theorem hourMeter_onPwr (f : Power → Power) (s : State) : hourMeter (s.onPwr f) = hourMeter s := rfl
@[simp] theorem hourMeter_fieldOff (s : State) : hourMeter (fieldOff s) = hourMeter s := rfl
@[simp] theorem fieldOff_pwr (s : State) : (fieldOff s).pwr = { s.pwr with field := .off, fieldAt := none } := rfl
@[simp] theorem saveCounters_savedHour (s : State) : (saveCounters s).keep.savedHour = hourMeter s := rfl

/-- A reset that a source holds for 1 µs (R52). -/
theorem shortReset_down (src : Nat) (s : State) : BindIsDown src .reset s (shortReset src s) ∧
    (shortReset src s).pwr.releaseAt = some ((shortReset src s).now + 1) ∧ (shortReset src s).pwr.field = s.pwr.field :=
  ⟨(bindReset_down src .reset s).onPwr fun _ => ⟨rfl, rfl, rfl, rfl, rfl⟩, by simp [shortReset], by simp [shortReset]⟩

/-- The responses written before a reset (R97). -/
def writeRest (s : State) : State :=
  (List.range 8).foldl (fun s m => (List.range 4).foldl (fun s _ => writeOut m s) s) s

theorem writeRest_foot (s : State) : Foot [.out, .mbx, .host, .pmc, .spn, .stw] s (writeRest s) :=
  Foot.foldl Foot.refl fun _ _ h => Foot.foldl h fun _ _ h => h.then (writeOut_foot ..) rfl

theorem doResetExecute_eq {s : State} {d : Nat} (h : s.jr.resetAt = some d) : doResetExecute s =
    shortReset 7 ((writeRest (if s.pair.lead then reach d s else s)).onSpn fun p => { p with insert := .out }) := by
  simp only [doResetExecute, h, writeRest]

/-- XIN's loss with BIND powered is a reset of BIND after the clocks have gone over (R49). -/
def xinLost (s : State) : State :=
  let s' := s.onPwr fun p => { p with xin := false, fclkPll := false, xinAt := s.now, backAt := none }
  ((record 0x0F11 3 [] 0 s').onCan Can.hold).onAfe Afe.clockChange

theorem doXinLoss_eq {s : State} (hp : s.keep.por = false) (hx : s.pwr.xin = true) :
    doXinLoss s = if s.pwr.bind == .off then xinLost s else bindReset 3 .reset (xinLost s) := by
  have hb : (xinLost s).pwr.bind = s.pwr.bind := by simp [xinLost]
  simp only [doXinLoss, hp, hx, Bool.not_true, Bool.or_false, Bool.false_eq_true, if_false]
  rw [← hb]
  rfl

/-- The rails' loss takes FIELD off too, and saves the counters (R46, R48). -/
theorem railLoss_down {s : State} (h : s.pwr.rails = true) : Runs .railLoss s fun t =>
    BindIsDown 2 .off s t ∧ t.pwr.field = .off ∧ t.pwr.rails = false ∧ t.keep.savedHour = hourMeter s := by
  refine .next (t := doRailLoss s) rfl ?_
  have hhour := (bindReset_counts 2 .off s).hourMeter (by simp)
  have heq : doRailLoss s = saveCounters ((fieldOff (bindReset 2 .off s)).onPwr fun p => { p with rails := false }) := by
    simp [doRailLoss, h]
  rw [heq]
  refine ⟨.saveCounters (.onPwr (bindReset_down ..).fieldOff fun _ => ?_), by simp, by simp, by simpa using hhour⟩
  exact ⟨rfl, rfl, rfl, rfl, rfl⟩

/-- So does the die's over-temperature, which is timed from then on (R375). -/
theorem dieOvertemp_down {s : State} {temp : Int} (hp : s.keep.por = false) (hh : s.pwr.hotSince = none) (ht : 1200 ≤ temp) :
    Runs (.dieOvertemp temp) s fun t =>
      BindIsDown 8 .off s t ∧ t.pwr.field = .off ∧ t.pwr.hotSince = some s.now ∧ t.pwr.hotPeak = temp := by
  refine .next (t := doDieOvertemp temp s) rfl ?_
  have heq : doDieOvertemp temp s = saveCounters ((fieldOff (bindReset 8 .off s)).onPwr fun p =>
      { p with hotSince := some (fieldOff (bindReset 8 .off s)).now, hotPeak := temp }) := by
    simp [doDieOvertemp, hp, hh, Int.not_lt.mpr ht]
  rw [heq]
  refine ⟨.saveCounters (.onPwr (bindReset_down ..).fieldOff fun _ => ?_), by simp, by simp, by simp⟩
  exact ⟨rfl, rfl, rfl, rfl, rfl⟩

theorem xinLoss_down {s : State} (hp : s.keep.por = false) (hx : s.pwr.xin = true) (hb : s.pwr.bind ≠ .off) :
    Runs .xinLoss s fun t => BindIsDown 3 .reset s t ∧ t.pwr.field = s.pwr.field ∧ t.pwr.xin = false := by
  refine .next (t := doXinLoss s) rfl ?_
  have heq : doXinLoss s = bindReset 3 .reset (xinLost s) := by
    simp [doXinLoss_eq hp hx, hb]
  rw [heq]
  exact ⟨(bindReset_down ..).of_before (by simp [xinLost]) (by simp [xinLost]), by simp [xinLost], by simp [xinLost]⟩

/-- The Binder watchdog's deadline is reached as it resets BIND (R78). -/
theorem binderWatchdogExpiry_down {s : State} {d : Nat} (h : s.boot.watchdog = some d) : Runs .binderWatchdogExpiry s fun t =>
    BindIsDown 6 .reset s t ∧ d ≤ t.now ∧ t.pwr.releaseAt = some (t.now + 1) ∧ t.pwr.field = s.pwr.field := by
  refine .next (t := doBinderWatchdogExpiry s) rfl ?_
  have heq : doBinderWatchdogExpiry s = shortReset 6 (reach d s) := by simp [doBinderWatchdogExpiry, h]
  obtain ⟨hdown, hrel, hfield⟩ := shortReset_down 6 (reach d s)
  have hclock := (shortReset_foot 6 (reach d s)).clock
  rw [heq]
  exact ⟨hdown.of_before (by simp) (by simp), le_trans (by simp) hclock, hrel, hfield.trans (by simp)⟩

/-- RESET waits for its deadline at a Lead alone, whose board stands down meanwhile (R97). -/
theorem resetExecute_down {s : State} {d : Nat} (h : s.jr.resetAt = some d) : Runs .resetExecute s fun t =>
    BindIsDown 7 .reset s t ∧ (s.pair.lead = true → d ≤ t.now) ∧ t.pwr.releaseAt = some (t.now + 1) ∧
    t.pwr.field = s.pwr.field := by
  refine .next (t := doResetExecute s) rfl ?_
  rw [doResetExecute_eq h]
  generalize hu : (if s.pair.lead then reach d s else s) = u
  have hket : u.ket = s.ket := by rw [← hu]; split <;> simp
  have hkeep : u.keep = s.keep := by rw [← hu]; split <;> simp
  have hpwr : u.pwr = s.pwr := by rw [← hu]; split <;> simp
  have hfoot := writeRest_foot u
  generalize hv : (writeRest u).onSpn (fun p => { p with insert := .out }) = v
  have hvket : v.ket = s.ket := by rw [← hv, State.onSpn_ket, hfoot.same .ket rfl, hket]
  have hvkeep : v.keep = s.keep := by rw [← hv, State.onSpn_keep, hfoot.same .keep rfl, hkeep]
  have hvpwr : v.pwr = s.pwr := by rw [← hv, State.onSpn_pwr, hfoot.same .pwr rfl, hpwr]
  have hvnow : u.now ≤ v.now := by rw [← hv, State.onSpn_now]; exact hfoot.clock
  obtain ⟨hdown, hrel, hfield⟩ := shortReset_down 7 v
  refine ⟨hdown.of_before (by rw [hvket]) (by rw [hvkeep]), fun hlead => ?_, hrel, by rw [hfield, hvpwr]⟩
  have hd : d ≤ u.now := by simp [← hu, hlead]
  exact (hd.trans hvnow).trans (shortReset_foot 7 v).clock

/-- Settles O13: every source ends in `bindReset`, and what comes before and after it leaves BIND down. -/
theorem resetsTakeBindDown : Obligations.ResetsTakeBindDown := by
  unfold Obligations.ResetsTakeBindDown
  refine ⟨fun _ => railLoss_down, fun _ => xinLoss_down, ?sysRst, ?lockstep, fun _ _ => binderWatchdogExpiry_down,
    ?watchdogRunning, fun _ _ => resetExecute_down, fun _ _ => dieOvertemp_down⟩
  case sysRst =>
    intro s h
    refine .next (t := doSysRstNLow s) rfl ?_
    have heq : doSysRstNLow s = bindReset 4 .reset s := by simp [doSysRstNLow, h]
    rw [heq]
    exact ⟨bindReset_down .., bindReset_field ..⟩
  case lockstep =>
    intro s h
    refine .next (t := doLockstepMismatch s) rfl ?_
    have heq : doLockstepMismatch s = shortReset 5 s := by simp [doLockstepMismatch, h]
    rw [heq]
    exact shortReset_down 5 s
  case watchdogRunning =>
    intro s h hr
    refine .next (t := doBinderWatchdogExpiry s) rfl ?_
    have heq : doBinderWatchdogExpiry s = shortReset 6 s := by simp [doBinderWatchdogExpiry, h, hr]
    rw [heq]
    exact shortReset_down 6 s

end Sys2Proof.Machine
end

section
/-! Laws of folios and events as the logbook, the link and the boot ROM see them (R108, R109, R352, R353). -/

namespace Sys2Proof.Machine

/-! ## Folios in the logbook (R351, R353) -/

/-- A folio given to the writer while no freeze holds takes the next FSEQ, and nothing else of the logbook changes after. -/
theorem record_log {s : State} (h : s.log.freeze = none) (code : Half) (sev : Nat) (data : List Nat) (cw : DWord) :
    (record code sev data cw s).log =
      { (s.log.put (mkFolio 0 code sev data cw 0 s)).1 with fseq := s.log.fseq + 1 } := by
  have hadd : ∀ f : Folio, (addFolio f s).log = { (s.log.put f).1 with fseq := f.fseq } := by
    intro f
    unfold addFolio
    dsimp only
    split <;> simp [logFolio]
  have hbreak : ∀ u, reportBreak s.log sev u = u := fun u => by simp [reportBreak, breaks, h]
  rw [record, hbreak, hadd]
  rfl

/-- The writer's queue takes a folio at its end while it has room. -/
theorem put_room {l : Logbook} (hf : l.freeze = none) (hq : l.queue.length < 64) (f : Folio) :
    (l.put f).1 = { l with queue := l.queue ++ [f] } := by
  simp [Logbook.put, hf, hq]

/-- A folio below severity 3 touches the logbook and its counter alone. -/
theorem record_minor {sev : Nat} (h : sev ≠ 3) (code : Half) (data : List Nat) (cw : DWord) (s : State) :
    ∃ ev, record code sev data cw s = count ev (logFolio (mkFolio 0 code sev data cw 0 s) s) := by
  have hbreak : ∀ u, reportBreak s.log sev u = u := fun u => by simp [reportBreak, breaks, h]
  rw [record, hbreak, addFolio]
  simp only [mkFolio, beq_iff_eq, h, if_false]
  exact ⟨_, rfl⟩

/-! ## The link (R109): only the wake from D3hot changes it, and a link in L0 or down stays so -/

/-- A vector raised changes its pending bit at most. -/
theorem msix_host (v : Nat) (s : State) : ∃ pba, (msix v s).host = { s.host with msixPba := pba } := by
  unfold msix
  split
  · exact ⟨_, rfl⟩
  · split
    · exact ⟨_, rfl⟩
    · exact ⟨_, rfl⟩

@[simp] theorem msix_link (v : Nat) (s : State) : (msix v s).host.link = s.host.link := by
  obtain ⟨_, h⟩ := msix_host v s
  rw [h]

@[simp] theorem ringWrite_link (e : EvEntry) (s : State) : (ringWrite e s).host.link = s.host.link := by
  unfold ringWrite
  extract_lets e' s1 s2
  have h2 : s2.host.link = s.host.link := by simp [s2, s1]
  split
  · rw [msix_link, h2]
  · rw [apply_ite (fun u : State => u.host.link)]
    simp [h2]

@[simp] theorem HostLink.wait_link (e : EvEntry) (h : HostLink) : (h.wait e).link = h.link := by
  unfold HostLink.wait
  split
  · rfl
  · split
    · rfl
    · split <;> rfl

@[simp] theorem ringEvent_link (e : EvEntry) (s : State) : (ringEvent e s).host.link = s.host.link := by
  unfold ringEvent
  split
  · simp
  · dsimp only
    split <;> simp

theorem wakeCause_link {s : State} (h : s.host.link ≠ .l1) (code : Nat) : (wakeCause code s).host.link = s.host.link := by
  unfold wakeCause
  extract_lets s1
  have h1 : s1.host.link = s.host.link := rfl
  split
  · exact h1
  · split <;> rename_i hl
    · exact h1
    · exact h1
    · exact h1
    · split
      · exact (hl.symm.trans h1)
      · exact h1
    · exact absurd (h1.symm.trans hl) h

theorem addFolio_link {s : State} (h : s.host.link ≠ .l1) (f : Folio) : (addFolio f s).host.link = s.host.link := by
  unfold addFolio
  dsimp only
  split
  · rw [wakeCause_link (by simpa [logFolio] using h)]
    simp [logFolio]
  · simp [logFolio]

theorem folioEvent_link {s : State} (h : s.host.link ≠ .l1) (f : Folio) : (folioEvent f s).host.link = s.host.link := by
  unfold folioEvent
  dsimp only
  split
  · exact addFolio_link h f
  · rw [ringEvent_link, addFolio_link h]

theorem thawed_link {s : State} (h : s.host.link ≠ .l1) (id cause held : Nat) :
    (thawed id cause held s).host.link = s.host.link := by
  unfold thawed
  extract_lets s1
  have h1 : s1.host.link = s.host.link := by
    unfold s1
    split <;> simp
  rw [folioEvent_link (by rwa [h1]), h1]

theorem record_link {s : State} (h : s.host.link ≠ .l1) (code : Half) (sev : Nat) (data : List Nat) (cw : DWord) :
    (record code sev data cw s).host.link = s.host.link := by
  have hadd := addFolio_link h (mkFolio 0 code sev data cw 0 s)
  unfold record reportBreak
  split
  · rw [thawed_link (by rwa [hadd]), hadd]
  · exact hadd

/-! ## The boot ROM's state and the link in L0 (Table 03-1, R110) -/

@[simp] theorem setBoot_boot (b : BootState) (s : State) : (setBoot b s).boot = { s.boot with state := b } := rfl

/-- A failed attempt leaves FAILED, with its code and no image (R67, R75). -/
theorem bootFail_boot (code : Nat) (s : State) : (bootFail code s).boot.state = .failed ∧
    (bootFail code s).boot.lastError = BitVec.ofNat 8 code ∧ (bootFail code s).boot.image = none := by
  unfold bootFail
  extract_lets b fails due s1 s2 s3
  have h3 : s3.boot = s2.boot := by
    unfold s3
    split <;> simp
  simp [h3, s2]

/-- It leaves the list registers and what the link and the function are. -/
theorem bootFail_host (code : Nat) (s : State) : ∃ pba, (bootFail code s).host = { s.host with msixPba := pba } := by
  unfold bootFail
  extract_lets b fails due s1 s2 s3
  obtain ⟨pba, hp⟩ := msix_host 0 (setBoot .failed s3)
  have h1 : s1.host = s.host := by
    unfold s1
    split <;> rfl
  have h3 : s3.host = s2.host := by
    unfold s3
    split
    · obtain ⟨ev, hev⟩ := record_minor (by decide : 2 ≠ 3) 0x0F10 [code, b.source.toNat, fails, b.progress] 0 s2
      rw [hev]
      simp [logFolio]
    · rfl
  have h2 : s2.host = s.host := h1
  exact ⟨pba, by rw [hp, setBoot_host, h3, h2]⟩

section
variable (s : State)
@[simp] theorem linkL0_host : (linkL0 s).host = { s.host with link := .l0 } := by
  unfold linkL0
  dsimp only
  split <;> simp
@[simp] theorem linkL0_keep : (linkL0 s).keep = { s.keep with wakePin := false } := by
  unfold linkL0
  dsimp only
  split
  · simp
  next h =>
    have hpin : s.keep.wakePin = false := by simpa using h
    simp [← hpin]
@[simp] theorem linkL0_pwr : (linkL0 s).pwr = s.pwr := (linkL0_foot s).same .pwr rfl
@[simp] theorem linkL0_boot : (linkL0 s).boot = s.boot := (linkL0_foot s).same .boot rfl
@[simp] theorem linkL0_mbx : (linkL0 s).mbx = s.mbx := (linkL0_foot s).same .mbx rfl
@[simp] theorem linkL0_log : (linkL0 s).log = s.log := (linkL0_foot s).same .log rfl
@[simp] theorem linkL0_otp : (linkL0 s).otp = s.otp := (linkL0_foot s).same .otp rfl
@[simp] theorem linkL0_now : (linkL0 s).now = s.now := (linkL0_foot s).same .now rfl
/-- WAKE# is withdrawn with one PME message, and without one where it was not asserted (R110). -/
theorem linkL0_out : (linkL0 s).out = if s.keep.wakePin then .pme :: s.out else s.out := by
  unfold linkL0
  dsimp only
  split
  next h =>
    have hpin : s.keep.wakePin = true := h
    simp [hpin, emit]
  next h =>
    have hpin : s.keep.wakePin = false := by simpa using h
    simp [hpin]
end

end Sys2Proof.Machine
end

section
/-! The release of BIND reset and the host link, and the statements about them (R43, R52, R55, R56, R61, R70, R84, R109, R110). -/

namespace Sys2Proof.Machine

/-! ## The release of BIND reset (R43, R55, R56) -/

/-- BIND released, before the boot ROM takes up a state: the straps sampled, FIELD scheduled and the link trained. -/
def bindReleased (straps : Straps) (catchOk : Bool) (s : State) : State :=
  let s := reach (s.pwr.releaseAt.getD 0) s
  let s := s.onPwr fun p =>
    { p with bind := .on, straps := straps, releaseAt := none,
             fieldAt := if p.field == .off && p.fieldAt.isNone then some (s.now + 1000) else p.fieldAt }
  let s := if s.host.perst then s.onHost fun h => { h with link := .down } else linkL0 s
  let s := s.onPmc fun c => { c with bindAt := s.now }
  let s := s.onJr fun q => { q with fault := q.fault && !catchOk, fails := if catchOk then 0 else q.fails }
  s.onBoot fun _ =>
    { net := straps.bootSel == 1, netAt := if straps.bootSel == 2 then some (s.now + 30000000) else none,
      solicitAt := some s.now }

section
variable (straps : Straps) (ok : Bool) (s : State)
@[simp] theorem bindReleased_now : (bindReleased straps ok s).now = max s.now (s.pwr.releaseAt.getD 0) := by
  simp [bindReleased, apply_ite State.now]
@[simp] theorem bindReleased_pwr : (bindReleased straps ok s).pwr = { s.pwr with
    bind := .on, straps := straps, releaseAt := none,
    fieldAt := if s.pwr.field == .off && s.pwr.fieldAt.isNone then some ((bindReleased straps ok s).now + 1000)
      else s.pwr.fieldAt } := by
  rw [bindReleased_now]
  simp [bindReleased, apply_ite State.pwr]
@[simp] theorem bindReleased_link : (bindReleased straps ok s).host.link = if s.host.perst then .down else .l0 := by
  simp [bindReleased, apply_ite State.host, apply_ite HostLink.link]
@[simp] theorem bindReleased_log : (bindReleased straps ok s).log = s.log := by
  simp [bindReleased, apply_ite State.log]
@[simp] theorem bindReleased_otp : (bindReleased straps ok s).otp = s.otp := by
  simp [bindReleased, apply_ite State.otp]
end

/-- The boot ROM then takes up HALT, under STRAP_INVALID or without a usable key slot, or WAIT. -/
theorem doBindResetRelease_eq {s : State} (hb : s.pwr.bind = .reset) (hx : s.pwr.xin = true) (hf : s.pwr.fclkPll = true)
    (straps : Straps) (ok : Bool) : doBindResetRelease straps ok s =
      if straps.bootSel == 3 then setBoot .halt (record 0x0F12 3 [3] 0 (bindReleased straps ok s))
      else if !anySlot s.otp then setBoot .halt ((bindReleased straps ok s).onBoot fun b => { b with lastError := 0x0F })
      else setBoot .wait (bindReleased straps ok s) := by
  rw [← bindReleased_otp straps ok s]
  simp only [doBindResetRelease, hb, hx, hf, Bool.not_true, Bool.or_false, bne_self_eq_false, Bool.false_eq_true, if_false]
  rfl

/-- A release with BOOT_SEL 0b11. -/
theorem doBindResetRelease_halt {s : State} (hb : s.pwr.bind = .reset) (hx : s.pwr.xin = true) (hf : s.pwr.fclkPll = true)
    {straps : Straps} (h : straps.bootSel = 3) (ok : Bool) :
    doBindResetRelease straps ok s = setBoot .halt (record 0x0F12 3 [3] 0 (bindReleased straps ok s)) := by
  simp [doBindResetRelease_eq hb hx hf, h]

/-- A release with another BOOT_SEL keeps all but the boot ROM's state. -/
theorem doBindResetRelease_other {s : State} (hb : s.pwr.bind = .reset) (hx : s.pwr.xin = true) (hf : s.pwr.fclkPll = true)
    {straps : Straps} (h : straps.bootSel ≠ 3) (ok : Bool) : ∃ b f, doBindResetRelease straps ok s =
      setBoot b ((bindReleased straps ok s).onBoot f) ∧ (anySlot s.otp = true → b = .wait) := by
  rw [doBindResetRelease_eq hb hx hf]
  simp only [beq_iff_eq, h, if_false]
  split
  next hslot => exact ⟨.halt, _, rfl, fun ha => by simp [ha] at hslot⟩
  next => exact ⟨.wait, id, rfl, fun _ => rfl⟩

/-- Whatever state the boot ROM takes up, the time, the domains and the link are those of `bindReleased`. -/
theorem doBindResetRelease_released {s : State} (hb : s.pwr.bind = .reset) (hx : s.pwr.xin = true)
    (hf : s.pwr.fclkPll = true) (straps : Straps) (ok : Bool) :
    (doBindResetRelease straps ok s).now = (bindReleased straps ok s).now ∧
    (doBindResetRelease straps ok s).pwr = (bindReleased straps ok s).pwr ∧
    (doBindResetRelease straps ok s).host.link = (bindReleased straps ok s).host.link := by
  by_cases h3 : straps.bootSel = 3
  · have hl : (bindReleased straps ok s).host.link ≠ .l1 := by
      rw [bindReleased_link]
      split <;> decide
    rw [doBindResetRelease_halt hb hx hf h3, setBoot_now, record_now, setBoot_pwr, record_pwr, setBoot_host, record_link hl]
    exact ⟨rfl, rfl, rfl⟩
  · obtain ⟨b, f, heq, -⟩ := doBindResetRelease_other hb hx hf h3 ok
    rw [heq, setBoot_now, State.onBoot_now, setBoot_pwr, State.onBoot_pwr, setBoot_host, State.onBoot_host]
    exact ⟨rfl, rfl, rfl⟩

/-- Settles O14: the clauses are about `bindReleased` but for the boot ROM's state and the folio of HALT. -/
theorem bindReleaseSamplesStraps : Obligations.BindReleaseSamplesStraps := by
  unfold Obligations.BindReleaseSamplesStraps
  intro s straps ok hb hx hf
  refine .next (t := doBindResetRelease straps ok s) rfl ?_
  obtain ⟨hnow, hpwr, hlink⟩ := doBindResetRelease_released hb hx hf straps ok
  rw [hnow, hpwr, hlink, bindReleased_pwr, bindReleased_link]
  refine ⟨by simp, rfl, rfl, rfl, fun hoff hnone => by simp [hoff, hnone], fun d hd => by simp [hd],
    fun h3 => ?_, fun h3 hs => ?_⟩
  · rw [doBindResetRelease_halt hb hx hf h3]
    refine ⟨rfl, fun hz => ?_⟩
    rw [setBoot_log, record_log (by simpa using hz), bindReleased_log]
  · obtain ⟨b, f, heq, hwait⟩ := doBindResetRelease_other hb hx hf h3 ok
    rw [heq, setBoot_boot, hwait hs]

/-! ## PERST# and the link (R52, R70, R84, R110) -/

/-- A PCIe download fails with E_LINK (R70); without one nothing is done. -/
def failLink (s : State) : State := if pcieLoading s then bootFail 0x0B s else s

theorem failLink_idle {s : State} (h : pcieLoading s = false) : failLink s = s := by simp [failLink, h]
theorem failLink_loading {s : State} (h : pcieLoading s = true) : failLink s = bootFail 0x0B s := by simp [failLink, h]

section
variable (s : State)
@[simp] theorem failLink_mbx : (failLink s).mbx = s.mbx := by simp [failLink, apply_ite State.mbx]
@[simp] theorem failLink_jr : (failLink s).jr = s.jr := by simp [failLink, apply_ite State.jr]
@[simp] theorem failLink_lv : (failLink s).lv = s.lv := by simp [failLink, apply_ite State.lv]
theorem failLink_host : ∃ pba, (failLink s).host = { s.host with msixPba := pba } := by
  unfold failLink
  split
  · exact bootFail_host 0x0B s
  · exact ⟨_, rfl⟩
end

theorem doPerstAssert_eq (s : State) : doPerstAssert s =
    (perstRegs ((failLink s).onBoot fun b => { b with listLo := 0, listHi := 0, listCount := 0 })).onMbx
      fun ms => (ms.set 0 {}).set 1 {} := rfl

theorem doPcieLinkDown_eq (s : State) : doPcieLinkDown s = failLink (s.onHost fun h => { h with link := .down }) := rfl

/-- PERST# resets the registers that its rules name, and keeps the mailboxes of the other transports, the journal and the leave
unit (R68, R84, R369). -/
theorem perstAssert_completes (s : State) : Runs .perstAssert s fun t =>
    t.host.perst = true ∧ t.host.link = .down ∧ t.host.en = false ∧ t.host.base = 0 ∧ t.host.pi = 0 ∧ t.host.ci = 0 ∧
    t.pmc.en = false ∧ t.boot.listCount = 0 ∧ t.boot.listLo = 0 ∧ t.boot.listHi = 0 ∧
    mbxOf t 0 = {} ∧ mbxOf t 1 = {} ∧ (∀ m, 2 ≤ m → mbxOf t m = mbxOf s m) ∧ t.jr = s.jr ∧ t.lv = s.lv ∧
    (pcieLoading s = false → t.host.backlog = s.host.backlog ∧ t.boot.state = s.boot.state) ∧
    (pcieLoading s = true → t.boot.state = .failed ∧ t.boot.lastError = 0x0B ∧ t.boot.image = none) := by
  refine .next (t := doPerstAssert s) rfl ?_
  rw [doPerstAssert_eq]
  refine ⟨rfl, rfl, rfl, rfl, rfl, rfl, rfl, rfl, rfl, rfl, ?_, ?_, fun m hm => ?_, ?_, ?_, fun h => ?_, fun h => ?_⟩
  · rw [mbxOf, State.onMbx_mbx, Tab.get_set_other _ _ _ (by decide), Tab.get_set_same]
  · rw [mbxOf, State.onMbx_mbx, Tab.get_set_same]
  · rw [mbxOf, State.onMbx_mbx, Tab.get_set_other _ _ _ (by omega), Tab.get_set_other _ _ _ (by omega)]
    simp [mbxOf]
  · simp
  · simp
  · rw [failLink_idle h]
    exact ⟨rfl, rfl⟩
  · rw [failLink_loading h]
    exact bootFail_boot 0x0B s

/-- Settles O15: PERST# by its lemma, and the rest of the host's rows through `linkL0` and `failLink`. -/
theorem hostLinkCommandsComplete : Obligations.HostLinkCommandsComplete := by
  unfold Obligations.HostLinkCommandsComplete
  refine ⟨perstAssert_completes, ?release, ?trst, ?down, ?l0, ?dstate⟩
  case release =>
    intro s
    refine .next (t := doPerstRelease s) rfl ?_
    by_cases hb : s.pwr.bind = .on
    · have heq : doPerstRelease s = linkL0 (s.onHost fun h => { h with perst := false, link := .down }) := by
        simp [doPerstRelease, hb]
      rw [heq]
      refine ⟨by simp, fun _ => by simp, fun _ hpin => ?_, fun h => absurd hb h, by simp, by simp⟩
      rw [linkL0_out, State.onHost_keep, hpin]
      rfl
    · have heq : doPerstRelease s = s.onHost fun h => { h with perst := false, link := .down } := by
        simp [doPerstRelease, hb]
      rw [heq]
      exact ⟨rfl, fun h => absurd h hb, fun h => absurd h hb, fun _ => ⟨rfl, rfl⟩, rfl, rfl⟩
  case trst =>
    intro s
    exact .next (t := emit .jtag s) rfl ⟨rfl, rfl, rfl, rfl, rfl, rfl⟩
  case down =>
    intro s
    refine .next (t := doPcieLinkDown s) rfl ?_
    rw [doPcieLinkDown_eq]
    obtain ⟨pba, hhost⟩ := failLink_host (s.onHost fun h => { h with link := .down })
    refine ⟨by rw [hhost]; rfl, by rw [hhost]; rfl, fun h => ?_, fun h => ?_⟩
    · rw [failLink_idle (show pcieLoading (s.onHost _) = false from h)]
      exact ⟨rfl, rfl⟩
    · rw [failLink_loading (show pcieLoading (s.onHost _) = true from h)]
      exact bootFail_boot 0x0B _
  case l0 =>
    intro s hp hb
    refine .next (t := doHostLinkL0 s) rfl ?_
    have heq : doHostLinkL0 s = linkL0 s := by simp [doHostLinkL0, hp, hb]
    rw [heq]
    exact ⟨by simp, by simp, fun hpin => by rw [linkL0_out, hpin]; rfl, fun hpin => by rw [linkL0_out, hpin]; rfl, by simp,
      by simp⟩
  case dstate =>
    intro s d msix hp hb
    refine .next (t := doPcieDStateChange d msix s) rfl ?_
    have heq : doPcieDStateChange d msix s =
        s.onHost fun h => { h with dstate := d, msixEn := msix, link := if d == .d3cold then .l2 else h.link } := by
      simp [doPcieDStateChange, hp, hb]
    rw [heq]
    exact ⟨rfl, rfl, fun h => by simp [h], fun h => by simp [h], rfl, rfl, rfl⟩

end Sys2Proof.Machine
end

section
/-! HALT of the boot ROM, and the statement about it (R56). -/

namespace Sys2Proof.Machine

/-- What a command leaves of HALT: its state and image, unless BIND is down before or after it. -/
def HaltStays (s t : State) : Prop :=
  t.boot.state = .halt ∧ t.boot.image = s.boot.image ∨ t.pwr.bind ≠ .on ∨ s.pwr.bind ≠ .on

section
variable {s t : State} (hs : s.boot.state = .halt)
include hs

theorem HaltStays.of_boot (h : t.boot = s.boot) : HaltStays s t := .inl ⟨by rw [h, hs], by rw [h]⟩

theorem HaltStays.of_eq (h : t = s) : HaltStays s t := .of_boot hs (by rw [h])

end

/-- A reset of BIND takes it out of HALT's domain. -/
theorem HaltStays.of_down {s t : State} {src : Nat} {dom : Dom} {u : State} (h : BindIsDown src dom u t) (hd : dom ≠ .on) :
    HaltStays s t := .inr (.inl (by rwa [h.bind]))

/-! ## Resets and releases of BIND -/

section
variable {s : State} (hs : s.boot.state = .halt)
include hs

theorem vkeepFall_halted : HaltStays s (doVkeepFall s) := by
  by_cases hp : s.keep.por = true
  · exact .of_eq hs (by simp [doVkeepFall, hp])
  · exact .inr (.inl (by simp [doVkeepFall, hp]))

theorem railLoss_halted : HaltStays s (doRailLoss s) := by
  by_cases hr : s.pwr.rails = true
  · obtain ⟨t, ht, hdown, -⟩ := railLoss_down hr
    obtain rfl : doRailLoss s = t := Host.Outcome.next.inj ht
    exact .of_down hdown (by decide)
  · exact .of_eq hs (by simp [doRailLoss, hr])

theorem xinLoss_halted : HaltStays s (doXinLoss s) := by
  by_cases hb : s.pwr.bind = .on
  · unfold doXinLoss
    extract_lets now s1 s2
    have hb2 : s2.pwr.bind = .on := by simp [s2, s1, hb]
    split
    · exact .of_eq hs rfl
    · simp only [hb2, show (Dom.on == Dom.off) = false from rfl, Bool.false_eq_true, if_false]
      exact .of_down (bindReset_down ..) (by decide)
  · exact .inr (.inr hb)

theorem sysRstNLow_halted : HaltStays s (doSysRstNLow s) := by
  unfold doSysRstNLow
  split
  · exact .of_eq hs rfl
  · exact .of_down (bindReset_down ..) (by decide)

theorem lockstepMismatch_halted : HaltStays s (doLockstepMismatch s) := by
  unfold doLockstepMismatch
  split
  · exact .of_down (shortReset_down ..).1 (by decide)
  · exact .of_eq hs rfl

theorem binderWatchdogExpiry_halted : HaltStays s (doBinderWatchdogExpiry s) := by
  unfold doBinderWatchdogExpiry
  split
  · exact .of_down (shortReset_down ..).1 (by decide)
  · split
    · exact .of_down (shortReset_down ..).1 (by decide)
    · exact .of_eq hs rfl

theorem resetExecute_halted : HaltStays s (doResetExecute s) := by
  cases hr : s.jr.resetAt with
  | none => exact .of_eq hs (by simp [doResetExecute, hr])
  | some d =>
    rw [doResetExecute_eq hr]
    exact .of_down (shortReset_down ..).1 (by decide)

theorem dieOvertemp_halted (temp : Int) : HaltStays s (doDieOvertemp temp s) := by
  unfold doDieOvertemp
  split
  · exact .of_eq hs rfl
  · exact .inr (.inl (by simp [bindReset]))

/-- BIND is released from reset alone. -/
theorem bindResetRelease_halted (straps : Straps) (ok : Bool) : HaltStays s (doBindResetRelease straps ok s) := by
  by_cases hb : s.pwr.bind = .on
  · exact .of_eq hs (by simp [doBindResetRelease, hb])
  · exact .inr (.inr hb)

/-! ## The boot ROM's own rows -/

theorem pcieLoading_halted : pcieLoading s = false := by simp [pcieLoading, hs]

theorem perstAssert_halted : HaltStays s (doPerstAssert s) := by
  rw [doPerstAssert_eq, failLink_idle (pcieLoading_halted hs)]
  exact .inl ⟨hs, rfl⟩

theorem pcieLinkDown_halted : HaltStays s (doPcieLinkDown s) := by
  rw [doPcieLinkDown_eq, failLink_idle (pcieLoading_halted (s := s.onHost _) hs)]
  exact .of_boot hs rfl

theorem mbxBootAbort_halted : doMbxBootAbort s = s := by simp [doMbxBootAbort, hs]

/-- The boot page's list registers store, and its ABORT finds no download. -/
theorem writeBoot_halted (off : Nat) (v : Word) : HaltStays s (writeBoot off v s) := by
  unfold writeBoot
  split
  · exact .of_eq hs rfl
  · split
    · exact .inl ⟨hs, rfl⟩
    · exact .inl ⟨hs, rfl⟩
    · exact .inl ⟨hs, rfl⟩
    · rw [mbxBootAbort_halted hs, ite_self]
      exact .of_eq hs rfl
    · exact .of_eq hs rfl

theorem registerWrite_halted (off : Nat) (v : Word) : HaltStays s (doRegisterWrite off v s) := by
  unfold doRegisterWrite
  have hrun : running s = false := by simp [running, hs]
  simp only [hrun, Bool.not_false, if_true]
  split
  · exact .of_eq hs rfl
  · split
    · exact writeBoot_halted hs ..
    · split
      · exact .of_boot hs ((sendPending_foot ..).same .boot rfl)
      · exact .of_eq hs rfl

theorem netbootSolicit_halted : doNetbootSolicit s = s := by
  unfold doNetbootSolicit
  split <;> simp [hs]

theorem netbootRequestTimeout_halted : doNetbootRequestTimeout s = s := by
  unfold doNetbootRequestTimeout
  split <;> simp [hs]

theorem netbootEligible_halted : HaltStays s (doNetbootEligible s) := by
  unfold doNetbootEligible
  split
  · exact .of_eq hs rfl
  · exact .inl ⟨by simpa using hs, by simp⟩

/-- No command leaves HALT while BIND is out of reset. -/
theorem exec_halted (c : Instr) : ∃ t, exec c s = .next t ∧ HaltStays s t := by
  cases c with
  | vkeepFall => exact ⟨_, rfl, vkeepFall_halted hs⟩
  | railLoss => exact ⟨_, rfl, railLoss_halted hs⟩
  | xinLoss => exact ⟨_, rfl, xinLoss_halted hs⟩
  | sysRstNLow => exact ⟨_, rfl, sysRstNLow_halted hs⟩
  | lockstepMismatch => exact ⟨_, rfl, lockstepMismatch_halted hs⟩
  | binderWatchdogExpiry => exact ⟨_, rfl, binderWatchdogExpiry_halted hs⟩
  | resetExecute => exact ⟨_, rfl, resetExecute_halted hs⟩
  | dieOvertemp temp => exact ⟨_, rfl, dieOvertemp_halted hs temp⟩
  | bindResetRelease straps ok => exact ⟨_, rfl, bindResetRelease_halted hs straps ok⟩
  | perstAssert => exact ⟨_, rfl, perstAssert_halted hs⟩
  | pcieLinkDown => exact ⟨_, rfl, pcieLinkDown_halted hs⟩
  | registerWrite off v => exact ⟨_, rfl, registerWrite_halted hs off.toNat v⟩
  | mbxBootStart list => exact ⟨_, rfl, .of_eq hs (by simp [doMbxBootStart, hs])⟩
  | mbxBootAbort => exact ⟨_, rfl, .of_eq hs (mbxBootAbort_halted hs)⟩
  | bootDmaCompletion d => exact ⟨_, rfl, .of_eq hs (by simp [doBootDmaCompletion, hs])⟩
  | bootCheckDone us => exact ⟨_, rfl, .of_eq hs (by simp [doBootCheckDone, hs])⟩
  | bootFailedReturn => exact ⟨_, rfl, .of_eq hs (by simp [doBootFailedReturn, hs])⟩
  | netbootSolicit => exact ⟨_, rfl, .of_eq hs (netbootSolicit_halted hs)⟩
  | netbootOffer port src dst type frame => exact ⟨_, rfl, .of_eq hs (by simp [doNetbootOffer, hs])⟩
  | netbootData port src type frame => exact ⟨_, rfl, .of_eq hs (by simp [doNetbootData, hs])⟩
  | netbootRequestTimeout => exact ⟨_, rfl, .of_eq hs (netbootRequestTimeout_halted hs)⟩
  | netbootCancel port hdr frame => exact ⟨_, rfl, .of_eq hs (by simp [doNetbootCancel, hs])⟩
  | mgmtLinkLoss port => exact ⟨_, rfl, .of_eq hs (by simp [doMgmtLinkLoss, hs])⟩
  | netbootEligible => exact ⟨_, rfl, netbootEligible_halted hs⟩
  | firmwareRunning found => exact ⟨_, rfl, .of_eq hs (by simp [doFirmwareRunning, hs])⟩
  | _ => exact (exec_foot _ s).imp fun t h => ⟨h.1, .of_boot hs (h.2.same .boot rfl)⟩

end

/-- Settles O19: the release under BOOT_SEL 0b11 enters HALT and records STRAP_INVALID, and no command leaves it. -/
theorem haltAcceptsNoDownload : Obligations.HaltAcceptsNoDownload := by
  unfold Obligations.HaltAcceptsNoDownload
  refine ⟨fun s straps ok hb hx hf h3 hz hq => ?enters, fun c s t hs ht => ?stays⟩
  case enters =>
    refine .next (t := doBindResetRelease straps ok s) rfl ?_
    rw [doBindResetRelease_halt hb hx hf h3]
    refine ⟨rfl, mkFolio 0 0x0F12 3 [3] 0 0 (bindReleased straps ok s), ?_, rfl, ?_⟩
    · rw [setBoot_log, record_log (by simpa using hz), bindReleased_log, put_room hz hq]
      exact List.mem_append_right _ (List.mem_singleton_self _)
    · simp [mkFolio]
  case stays =>
    obtain ⟨u, hu, hstays⟩ := exec_halted hs c
    obtain rfl : u = t := Host.Outcome.next.inj (hu.symm.trans ht)
    exact hstays

end Sys2Proof.Machine
end

section
/-! The power sequencer, the clocks and the quire halves, and the statement about them (R43, R44, R45, R49, R160, R275, R375). -/

namespace Sys2Proof.Machine

/-! ## Rails and FIELD (R43) -/

/-- FIELD leaves its reset before its table loads, and no part of that loading switches a domain. -/
theorem doFieldResetRelease_pwr {s : State} (h : s.pwr.field = .reset) :
    (doFieldResetRelease s).pwr = { s.pwr with field := .on } := by
  unfold doFieldResetRelease
  have hguard : (s.pwr.field != .reset) = false := by simp [h]
  rw [hguard]
  extract_lets now s1 s2 kept s3 t s4 s5 s6 s7
  have h3 : s3.pwr = s2.pwr := by
    unfold s3
    split <;> simp
  have h4 : s4.pwr = s3.pwr := by
    unfold s4
    split <;> simp
  have h7 : Foot [.drv] s6 s7 := Foot.foldl .refl fun _ _ h => h.then (onValve_foot ..) rfl
  calc (freshLevel (loadNamed s7)).pwr
      = (loadNamed s7).pwr := (freshLevel_foot _).same .pwr rfl
    _ = s7.pwr := (loadNamed_foot _).same .pwr rfl
    _ = s6.pwr := h7.same .pwr rfl
    _ = s5.pwr := (useTable_foot ..).same .pwr rfl
    _ = s4.pwr := rfl
    _ = s2.pwr := by rw [h4, h3]
    _ = { s.pwr with field := .on } := rfl

/-! ## Clocks (R49) -/

@[simp] theorem fclkBack_pwr (s : State) : (fclkBack s).pwr = { s.pwr with fclkPll := true, backAt := none } := rfl
@[simp] theorem fclkBack_held (s : State) : (fclkBack s).can.held = false := rfl
@[simp] theorem fclkBack_now (s : State) : (fclkBack s).now = s.now := rfl

@[simp] theorem dropAll_can (ls : List BelowLease) (r : Word) (s : State) :
    (ls.foldl (fun s l => dropBelow l r s) s).can = s.can := (dropAll_foot _ _ _).same .can rfl

/-- The controllers that XIN's loss holds in reset stay held as BIND goes down. -/
theorem bindReset_held (src : Nat) (dom : Dom) (s : State) : (bindReset src dom s).can.held = s.can.held := by
  simp [bindReset, bindDown, Can.bindReset, storeOff]

/-- XIN's loss without BIND powered, and with it. -/
theorem xinLoss_completes {s : State} (hp : s.keep.por = false) (hx : s.pwr.xin = true) : Runs .xinLoss s fun t =>
    t.pwr.xin = false ∧ t.pwr.fclkPll = false ∧ t.can.held = true ∧ t.pwr.field = s.pwr.field ∧
    (s.pwr.bind ≠ .off → t.pwr.bind = .reset ∧ t.pwr.resetSrc = 3#4) := by
  refine .next (t := doXinLoss s) rfl ?_
  rw [doXinLoss_eq hp hx]
  have hheld : (xinLost s).can.held = true := by simp [xinLost, Can.hold]
  have hpwr : (xinLost s).pwr = { s.pwr with xin := false, fclkPll := false, xinAt := s.now, backAt := none } := by
    simp [xinLost]
  split
  next hb =>
    rw [hpwr]
    exact ⟨rfl, rfl, hheld, rfl, fun h => absurd (eq_of_beq hb) h⟩
  next hb =>
    have hdown := bindReset_down 3 .reset (xinLost s)
    refine ⟨by simp [hpwr], by simp [bindReset, hpwr], (bindReset_held ..).trans hheld, by simp [hpwr], fun _ => ?_⟩
    exact ⟨hdown.bind, hdown.source⟩

/-- The state as XIN is found good, before FCLK switches back. -/
def xinGood (s : State) : State := (reach (s.pwr.xinAt + 10000) s).onPwr fun p => { p with xin := true }

/-- Where no pump is driven FCLK switches back at once. -/
theorem doXinReturn_idle {s : State} (hx : s.pwr.xin = false)
    (hd : ∀ n < 4, (fieldOn s && (pumpOf s n).driven) = false) : doXinReturn s = fclkBack (xinGood s) := by
  have hfind : ((List.range 4).find? fun n => fieldOn (xinGood s) && (pumpOf (xinGood s) n).driven) = none := by
    rw [List.find?_range_eq_none]
    intro n hn
    have hsame : (fieldOn (xinGood s) && (pumpOf (xinGood s) n).driven) = (fieldOn s && (pumpOf s n).driven) := by
      simp [fieldOn, pumpOf, xinGood]
    rw [hsame, hd n hn]
    rfl
  simp only [doXinReturn, hx, Bool.false_eq_true, if_false]
  simp only [xinGood] at hfind ⊢
  rw [hfind]

/-- The lowest-numbered driven pump gives the boundary at which FCLK is to switch back. -/
theorem doXinReturn_driven {s : State} {n : Nat} (hx : s.pwr.xin = false) (hf : fieldOn s = true) (hn : n < 4)
    (hd : (pumpOf s n).driven = true) (hlow : ∀ k < n, (pumpOf s k).driven = false) : doXinReturn s =
      (xinGood s).onPwr fun p => { p with backAt := some (pwmBoundary (xinGood s).now (pumpOf s n)) } := by
  have hfind : ((List.range 4).find? fun n => fieldOn (xinGood s) && (pumpOf (xinGood s) n).driven) = some n := by
    rw [List.find?_range_eq_some]
    have hfield : fieldOn (xinGood s) = true := by simpa [fieldOn, xinGood] using hf
    have hpump (k : Nat) : pumpOf (xinGood s) k = pumpOf s k := by simp [pumpOf, xinGood]
    exact ⟨by simp [hfield, hpump, hd], List.mem_range.mpr hn, fun k hk => by simp [hpump, hlow k hk]⟩
  simp only [doXinReturn, hx, Bool.false_eq_true, if_false]
  simp only [xinGood] at hfind ⊢
  rw [hfind]
  simp [pumpOf]

/-! ## The quire halves (R44, R45, R160, R275) -/

/-- A half in a new state, and the other half and the domains as they were. -/
@[simp] theorem setHalf_pwr (h : Nat) (v : HalfState) (s : State) :
    (setHalf h v s).pwr = if h == 0 then { s.pwr with halfA := v } else { s.pwr with halfB := v } := by
  by_cases hv : halfOf s h = v
  · have heq : setHalf h v s = s := by simp [setHalf, hv]
    rw [heq, ← hv, halfOf]
    split <;> rfl
  · have hne : (halfOf s h == v) = false := by simpa using hv
    simp only [setHalf, hne, Bool.false_eq_true, if_false, event_pwr, State.onPwr_pwr]

@[simp] theorem halfOf_setHalf (h : Nat) (v : HalfState) (s : State) : halfOf (setHalf h v s) h = v := by
  rw [halfOf, setHalf_pwr]
  by_cases h0 : h == 0
  · simp [h0]
  · simp [h0]

@[simp] theorem endHalfLease_pwr (half : Nat) (s : State) : (endHalfLease half s).pwr = s.pwr := by
  unfold endHalfLease
  split <;> simp
@[simp] theorem endHalfLease_mem (half : Nat) (s : State) : (endHalfLease half s).mem = s.mem := by
  unfold endHalfLease
  split <;> simp

@[simp] theorem powerHalf_lv (h : Nat) (s : State) : (powerHalf h s).lv = s.lv := by
  unfold powerHalf
  split
  · rfl
  · simp

/-- A new internal lease stands last in the ledger. -/
theorem grantInternal_leases (kind owner watts ms : Nat) (s : State) :
    (grantInternal kind owner watts ms s).lv.leases = s.lv.leases ++
      [{ id := s.lv.nextId, kind := kind, owner := owner, capW := watts, start := s.now,
         stop := if ms == 0 then 0 else s.now + ms * 1000 }] := by
  simp [grantInternal, addLease]

/-- A half that is granted leave waits while the other one powers up. -/
theorem askHalf_waits {h : Nat} {s : State} (ha : internalAsk 20 s = none) (hother : halfOf s (1 - h) = .powering) :
    (askHalf h s).pwr.halfWait = some h := by
  have hpwr : (grantInternal 2 h 20 0 s).pwr = s.pwr := (grantInternal_foot ..).same .pwr rfl
  have hhalf : halfOf (grantInternal 2 h 20 0 s) (1 - h) = .powering := by rw [halfOf, hpwr, ← hother, halfOf]
  simp [askHalf, ha, powerHalf, hhalf]

/-- It takes 20 W of converting leave. -/
theorem askHalf_leases {h : Nat} {s : State} (ha : internalAsk 20 s = none) :
    (askHalf h s).lv.leases.any (fun l => l.kind == 2 && l.owner == h && l.capW == 20) = true := by
  simp [askHalf, ha, grantInternal_leases]

theorem quireHalfSwitchOn_completes {s : State} {h : Fin 2} (hr : running s = true) (hst : s.pwr.store = .on)
    (hoff : halfOf s h = .off) (hturn : halfTurn h s = true)
    (hl : s.lv.leases.any (fun l => l.kind == 2 && l.owner == h.val) = false)
    (hw : s.lv.waits.any (fun w => w.kind == 2 && w.owner == h.val) = false) (ha : internalAsk 20 s = none) :
    Runs (.quireHalfSwitchOn h) s fun t =>
      t.lv.leases.any (fun l => l.kind == 2 && l.owner == h.val && l.capW == 20) = true ∧
      (halfOf s (1 - h.val) ≠ .powering → halfOf t h = .powering) ∧
      (halfOf s (1 - h.val) = .powering → t.pwr.halfWait = some h.val) := by
  refine .next (t := doQuireHalfSwitchOn h s) rfl ?_
  have heq : doQuireHalfSwitchOn h s = askHalf h s := by
    simp only [doQuireHalfSwitchOn, hr, hst, hoff, hturn, hl, hw, beq_self_eq_true, Bool.not_false, Bool.and_true, if_true]
  rw [heq]
  exact ⟨askHalf_leases ha, fun hother => (askHalf_granted ha hoff hother).1, askHalf_waits ha⟩

/-- STORE goes off with both halves, and BIND and FIELD stay (R45). -/
theorem storeSwitchOff_completes {s : State} (hr : running s = true) (hst : s.pwr.store ≠ .off) :
    Runs .storeSwitchOff s fun t => t.pwr.store = .off ∧ t.pwr.halfA = .off ∧ t.pwr.halfB = .off ∧ t.mem = [] ∧
      t.pwr.bind = s.pwr.bind ∧ t.pwr.field = s.pwr.field := by
  refine .next (t := doStoreSwitchOff s) rfl ?_
  simp [doStoreSwitchOff, hr, hst, storeOff, reapplyEpochs]

/-! ## The sequence -/

/-- Settles O12: each row by its lemma, or by its own definition where it is one update. -/
theorem powerSequencerCommandsComplete : Obligations.PowerSequencerCommandsComplete := by
  unfold Obligations.PowerSequencerCommandsComplete
  refine ⟨?rails, ?railsPor, ?fieldUp, ?fieldRelease, ?storeOn, ?storeReady, fun _ => storeSwitchOff_completes,
    fun _ => xinLoss_completes, ?xinIdle, ?xinDriven, ?switchBack, ?tempReturn, fun _ _ => quireHalfSwitchOn_completes,
    ?halfReady, ?halfOff⟩
  case rails =>
    intro s hp hb hh
    refine .next (t := doRailsGood s) rfl ?_
    simp [doRailsGood, railsUp, hp, hb, hh]
  case railsPor =>
    intro s hp
    refine .next (t := doRailsGood s) rfl ?_
    simp [doRailsGood, railsUp, hp]
  case fieldUp =>
    intro s d hd hf
    refine .next (t := doFieldPowerUp s) rfl ?_
    simp [doFieldPowerUp, hd, hf]
  case fieldRelease =>
    intro s h
    refine .next (t := doFieldResetRelease s) rfl ?_
    rw [doFieldResetRelease_pwr h]
    exact ⟨rfl, rfl⟩
  case storeOn =>
    intro s hr hb hst
    refine .next (t := doStoreSwitchOn s) rfl ?_
    simp [doStoreSwitchOn, hr, hb, hst]
  case storeReady =>
    intro s hst
    refine .next (t := doStoreReady s) rfl ?_
    simp only [doStoreReady, hst, bne_self_eq_false, Bool.false_eq_true, if_false]
    split
    · exact ⟨rfl, rfl⟩
    · exact ⟨rfl, rfl⟩
  case xinIdle =>
    intro s hx hd
    refine .next (t := doXinReturn s) rfl ?_
    rw [doXinReturn_idle hx hd]
    simp [xinGood]
  case xinDriven =>
    intro s n hx hf hn hd hlow
    refine .next (t := doXinReturn s) rfl ?_
    rw [doXinReturn_driven hx hf hn hd hlow]
    simp [xinGood]
  case switchBack =>
    intro s d hd
    refine .next (t := doFclkSwitchBack s) rfl ?_
    simp [doFclkSwitchBack, hd]
  case tempReturn =>
    intro s peak d hd hr
    refine .next (t := doDieTempReturn peak s) rfl ?_
    simp [doDieTempReturn, hd, hr]
  case halfReady =>
    intro s h hp hw
    refine .next (t := doQuireHalfReady h s) rfl ?_
    have hwait : (setHalf h .idle s).pwr.halfWait = none := by
      rw [setHalf_pwr]
      split <;> exact hw
    simp only [doQuireHalfReady, hp, bne_self_eq_false, Bool.false_eq_true, if_false, hwait]
    exact halfOf_setHalf ..
  case halfOff =>
    intro s h hr hi
    refine .next (t := doQuireHalfSwitchOff h s) rfl ?_
    have heq : doQuireHalfSwitchOff h s = endHalfLease h ((setHalf h .off s).onQre (Quires.halfOff h)) := by
      simp [doQuireHalfSwitchOff, hr, hi]
    rw [heq, halfOf, endHalfLease_pwr, State.onQre_pwr]
    exact halfOf_setHalf ..

end Sys2Proof.Machine
end

section
/-! The keep domain, and the statement about it (R46, R48, R58, R133, R171). -/

namespace Sys2Proof.Machine

/-! ## What a trip leaves (R170) -/

/-- What sources that act on the matrix leave: trips and TEN lines only get worse, and no mask changes. -/
structure OnlyTrips (s t : State) : Prop where
  tenRead : t.keep.tenRead = s.keep.tenRead
  tenFall : t.keep.ten &&& ~~~s.keep.ten = 0#16
  trips   : s.ket.trip &&& ~~~t.ket.trip = 0#16
  masks   : ∀ n, (leakOf t n).masked = (leakOf s n).masked

theorem OnlyTrips.refl {s : State} : OnlyTrips s s := ⟨rfl, andNot_self _, andNot_self _, fun _ => rfl⟩

theorem OnlyTrips.trans {s t u : State} (h : OnlyTrips s t) (g : OnlyTrips t u) : OnlyTrips s u :=
  ⟨g.tenRead.trans h.tenRead, andNot_trans g.tenFall h.tenFall, andNot_trans h.trips g.trips,
    fun n => (g.masks n).trans (h.masks n)⟩

theorem OnlyTrips.foldl {α : Type} {f : State → α → State} (hf : ∀ u a, OnlyTrips u (f u a)) (l : List α) (s : State) :
    OnlyTrips s (l.foldl f s) :=
  List.foldlRecOn (motive := fun u : State => OnlyTrips s u) l f .refl fun u hu a _ => hu.trans (hf u a)

/-- An operation that leaves the kettle path, TEN and the images' reading as they are. -/
theorem OnlyTrips.of_same {s t : State} (hket : t.ket = s.ket) (hten : t.keep.ten = s.keep.ten)
    (hread : t.keep.tenRead = s.keep.tenRead) : OnlyTrips s t :=
  ⟨hread, by rw [hten, andNot_self], by rw [hket, andNot_self], fun n => by rw [leakOf, hket, leakOf]⟩

/-- An operation whose footprint leaves all of the keep domain's core and the kettle path. -/
theorem OnlyTrips.of_foot {fs : List Fld} {s t : State} (h : Foot fs s t) (hket : fs.contains .ket = false)
    (hcore : fs.contains .core = false) : OnlyTrips s t :=
  .of_same (h.same .ket hket) (keepCore_ten (h.same .core hcore)) (keepCore_tenRead (h.same .core hcore))

theorem assertCapdn_onlyTrips (t : Nat) (s : State) : OnlyTrips s (assertCapdn t s) := by
  refine .of_same ((assertCapdn_foot t s).same .ket rfl) (assertCapdn_ten t s) ?_
  unfold assertCapdn driveCapdn
  split
  · rfl
  · split
    · rfl
    · simp

theorem tripTray_onlyTrips (t : Nat) (s : State) : OnlyTrips s (tripTray t s) := by
  unfold tripTray
  extract_lets s1
  have h1 : OnlyTrips s s1 := .of_same rfl rfl rfl
  have h2 := h1.trans (.of_foot (revokeTray_foot t 0x12 s1) rfl rfl)
  have h3 := h2.trans (.of_foot (endStart_foot t 0x0602 _) rfl rfl)
  have h4 := h3.trans (assertCapdn_onlyTrips t _)
  have h5 := h4.trans (.of_foot (abortRebind_foot t _) rfl rfl)
  exact h5.trans (.of_foot (settleStop_foot t _) rfl rfl)

theorem driveTen_keep (image : Half) (s : State) : (driveTen image s).keep = { s.keep with ten := image } := by
  have hsame : (applyTen image s).keep = (driveTen image s).keep := by
    unfold applyTen
    dsimp only
    split <;> rfl
  rw [← hsame, applyTen_keep]

theorem dropTen_onlyTrips (m : Nat) (s : State) : OnlyTrips s (dropTen m s) := by
  have hket : (dropTen m s).ket = s.ket := (dropTen_foot m s).same .ket rfl
  unfold dropTen at hket ⊢
  split
  · exact .refl
  next hd =>
    rw [if_neg hd] at hket
    refine ⟨by rw [driveTen_keep]; rfl, ?_, by rw [hket, andNot_self], fun n => by rw [leakOf, hket, leakOf]⟩
    rw [driveTen_keep]
    show (s.keep.ten &&& _) &&& ~~~s.keep.ten = 0#16
    rw [BitVec.and_assoc, BitVec.and_comm _ (~~~s.keep.ten), ← BitVec.and_assoc, andNot_self, BitVec.zero_and]

/-- A change of the kettle path that clears no latch and leaves the sources. -/
theorem OnlyTrips.onKet {f : Kettle → Kettle} {s : State} (htrip : s.ket.trip &&& ~~~(f s.ket).trip = 0#16)
    (hsrc : (f s.ket).src = s.ket.src) : OnlyTrips s (s.onKet f) :=
  ⟨rfl, andNot_self _, htrip, fun n => by rw [leakOf, State.onKet_ket, hsrc, leakOf]⟩

/-- A view of the sources that a change of one of them leaves. -/
theorem leakOf_onLeak_view {β : Type} {view : Leak → β} {f : Leak → Leak} (hf : ∀ l, view (f l) = view l) (n k : Nat)
    (s : State) : view (leakOf (onLeak n f s) k) = view (leakOf s k) := by
  by_cases hk : k = n
  · rw [hk, leakOf, onLeak, State.onKet_ket, Tab.get_mod_same, hf, leakOf]
  · rw [leakOf, onLeak, State.onKet_ket, Tab.get_mod_other _ _ _ hk, leakOf]

theorem onLeak_onlyTrips {f : Leak → Leak} (hf : ∀ l, (f l).masked = l.masked) (n : Nat) (s : State) :
    OnlyTrips s (onLeak n f s) :=
  ⟨rfl, andNot_self _, andNot_self _, fun k => leakOf_onLeak_view hf n k s⟩

theorem tripTrays_onlyTrips (m cause loc : Nat) (s : State) : OnlyTrips s (tripTrays m cause loc s) := by
  unfold tripTrays
  extract_lets fresh chg s1 s2 s3 ref s4 s5
  have h1 : OnlyTrips s s1 := .onKet (andNot_or _ _) rfl
  have h2 : OnlyTrips s s2 := (h1.trans (dropTen_onlyTrips m s1)).trans (.foldl (fun u t => tripTray_onlyTrips t u) fresh _)
  have h3 : OnlyTrips s s3 := by
    unfold s3
    split
    · exact h2
    · have hcount := h2.trans (.of_foot (count_foot 0x3E1 s2) rfl rfl)
      have hwake := hcount.trans (.of_foot (wakeCause_foot 1 _) rfl rfl)
      exact hwake.trans (.of_foot (tagDue_foot _) rfl rfl)
  split
  · exact h3
  · have h4 : OnlyTrips s s4 := h3.trans (.onKet (andNot_self _) rfl)
    have h5 : OnlyTrips s s5 := by
      unfold s5
      split
      · exact h4.trans (.of_foot (event_foot ..) rfl rfl)
      · exact h4.trans (.of_foot (event_foot ..) rfl rfl)
    exact h5.trans (.onKet (andNot_self _) rfl)

theorem tripSource_onlyTrips (n : Nat) (s : State) : OnlyTrips s (tripSource n s) := by
  unfold tripSource
  dsimp only
  split
  · exact .refl
  · refine .trans (onLeak_onlyTrips ?_ n s) (tripTrays_onlyTrips ..)
    exact fun _ => rfl

theorem reexamine_onlyTrips (n : Nat) (was : Bool) (s : State) : OnlyTrips s (reexamine n was s) := by
  unfold reexamine
  extract_lets l a s1
  have h1 : OnlyTrips s s1 := by
    refine onLeak_onlyTrips ?_ n s
    exact fun _ => rfl
  split
  · exact h1.trans (tripSource_onlyTrips n s1)
  · exact h1

theorem saveFlags_onlyTrips (n : Nat) (s : State) : OnlyTrips s (saveFlags n s) :=
  .of_foot (saveFlags_foot n s) rfl rfl

/-! ## The images read back (R58, R65) -/

/-- A source as the catch store gives it: its mask, and the flags that were set at either time. -/
def restoreLeak (c : CatchImages) (n : Nat) (l : Leak) : Leak :=
  { l with masked := c.masks.get false n, stuck := l.stuck || c.stuck.get false n, chat := l.chat || c.chat.get false n,
           open_ := l.open_ || c.open_.get false n, short := l.short || c.short.get false n }

/-- The state with the images read back, before its sources are examined. -/
def imagesRead (s : State) : State :=
  let s := reach (s.keep.readAt.getD 0) s
  let trip := s.ket.trip ||| s.cat.trip
  let s := s.onKet fun k =>
    { k with
      trip := trip,
      causes := s.cat.causes.foldl (fun c p => c.set p.1 (c.get 0 p.1 ||| p.2)) k.causes,
      refs := s.cat.refs.foldl (fun r p => r.set p.1 p.2) k.refs,
      src := (List.range 33).foldl (fun t n => t.mod {} n (restoreLeak s.cat n)) k.src }
  (s.onKeep fun k => { k with tenRead := true, readAt := none, ten := s.cat.ten &&& ~~~trip }).onCat fun c =>
    { c with ten := c.ten &&& ~~~trip }

/-- A source examined after the images were read, against what it was before. -/
def examineRead (old : Kettle) (s : State) (n : Nat) : State :=
  saveFlags n (reexamine n (leakActive old.route n (old.src.get {} n)) s)

theorem doKeepTableReadDone_eq {s : State} (hp : s.keep.por = false) (ht : s.keep.tenRead = false) :
    doKeepTableReadDone s = (List.range 33).foldl (examineRead s.ket) (imagesRead s) := by
  have hguard : (s.keep.por || s.keep.tenRead) = false := by rw [hp, ht]; rfl
  rw [doKeepTableReadDone, hguard, ← reach_ket (s.keep.readAt.getD 0) s]
  rfl

/-- Each entry of a table changed once, up to a bound. -/
theorem get_foldl_mod {α : Type} (d : α) (f : Nat → α → α) (t : Tab α) {b n : Nat} (h : n < b) :
    ((List.range b).foldl (fun t n => t.mod d n (f n)) t).get d n = f n (t.get d n) := by
  have key : ∀ b, ((List.range b).foldl (fun t n => t.mod d n (f n)) t).get d n =
      if n < b then f n (t.get d n) else t.get d n := by
    intro b
    induction b with
    | zero => rfl
    | succ b ih =>
      rw [List.range_succ, List.foldl_append, List.foldl_cons, List.foldl_nil]
      by_cases hb : n = b
      · subst hb
        simp [ih]
      · rw [Tab.get_mod_other _ _ _ hb, ih]
        simp [show n < b + 1 ↔ n < b by omega]
  rw [key, if_pos h]

theorem leakOf_imagesRead {s : State} {n : Nat} (h : n < 33) : leakOf (imagesRead s) n = restoreLeak s.cat n (leakOf s n) := by
  have hget := get_foldl_mod ({} : Leak) (restoreLeak s.cat) s.ket.src h
  simpa [leakOf, imagesRead] using hget

section
variable (s : State)
@[simp] theorem imagesRead_now : (imagesRead s).now = max s.now (s.keep.readAt.getD 0) := by simp [imagesRead]
@[simp] theorem imagesRead_route : (imagesRead s).ket.route = s.ket.route := by simp [imagesRead]
@[simp] theorem imagesRead_trip : (imagesRead s).ket.trip = s.ket.trip ||| s.cat.trip := by simp [imagesRead]
@[simp] theorem imagesRead_ten : (imagesRead s).keep.ten = s.cat.ten &&& ~~~(s.ket.trip ||| s.cat.trip) := by
  simp [imagesRead]
@[simp] theorem imagesRead_tenRead : (imagesRead s).keep.tenRead = true := by simp [imagesRead]
end

/-- A restored flag alone makes a source active; a mask or STUCK does not (R177, R178). -/
theorem leakActive_restoreLeak {c : CatchImages} {n : Nat} (hc : c.chat.get false n = false)
    (ho : c.open_.get false n = false) (hs : c.short.get false n = false) (r : Option Bytes) (l : Leak) :
    leakActive r n (restoreLeak c n l) = leakActive r n l := by
  simp [leakActive, restoreLeak, hc, ho, hs]

/-- The examination leaves the routing, the latches, TEN and what each source reads: its own times alone move. -/
structure Unmoved (s t : State) : Prop where
  route  : t.ket.route = s.ket.route
  trip   : t.ket.trip = s.ket.trip
  ten    : t.keep.ten = s.keep.ten
  active : ∀ r n, leakActive r n (leakOf t n) = leakActive r n (leakOf s n)

/-- A source that was active already, or is not active, does not act on the matrix. -/
theorem reexamine_unmoved {n : Nat} {was : Bool} {s : State}
    (h : leakActive s.ket.route n (leakOf s n) = was) : Unmoved s (reexamine n was s) := by
  unfold reexamine
  extract_lets l a s1
  have ha : (a && !was) = false := by
    rw [← h]
    exact Bool.and_not_self _
  rw [ha]
  refine ⟨rfl, rfl, rfl, fun r k => ?_⟩
  refine leakOf_onLeak_view (view := leakActive r k) ?_ n k s
  exact fun _ => rfl

/-- Sources that are as active as before are examined without a trip. -/
theorem examineRead_unmoved {old : Kettle} {s : State} (hroute : s.ket.route = old.route) (n : Nat)
    (h : leakActive old.route n (leakOf s n) = leakActive old.route n (old.src.get {} n)) : Unmoved s (examineRead old s n) := by
  obtain ⟨hr, htrip, hten, hact⟩ := reexamine_unmoved (was := leakActive old.route n (old.src.get {} n)) (by rw [hroute, h])
  have hfoot := saveFlags_foot n (reexamine n (leakActive old.route n (old.src.get {} n)) s)
  have hket := hfoot.same .ket rfl
  exact ⟨by rw [examineRead, hket, hr], by rw [examineRead, hket, htrip], by rw [examineRead, hfoot.same .keep rfl, hten],
    fun r k => by rw [examineRead, leakOf, hket]; exact hact r k⟩

theorem examineAll_unmoved {old : Kettle} {s : State} (hroute : s.ket.route = old.route) {ns : List Nat}
    (h : ∀ n ∈ ns, leakActive old.route n (leakOf s n) = leakActive old.route n (old.src.get {} n)) :
    Unmoved s (ns.foldl (examineRead old) s) := by
  induction ns generalizing s with
  | nil => exact ⟨rfl, rfl, rfl, fun _ _ => rfl⟩
  | cons n ns ih =>
    obtain ⟨hr, htrip, hten, hact⟩ := examineRead_unmoved hroute n (h n List.mem_cons_self)
    obtain ⟨hr', htrip', hten', hact'⟩ := ih (s := examineRead old s n) (hr.trans hroute)
      fun k hk => (hact ..).trans (h k (List.mem_cons_of_mem n hk))
    exact ⟨hr'.trans hr, htrip'.trans htrip, hten'.trans hten, fun r k => (hact' r k).trans (hact r k)⟩

theorem keepTableReadDone_completes {s : State} (hp : s.keep.por = false) (ht : s.keep.tenRead = false) :
    Runs .keepTableReadDone s fun t =>
    s.keep.readAt.getD 0 ≤ t.now ∧ t.keep.tenRead = true ∧ (s.ket.trip ||| s.cat.trip) &&& ~~~t.ket.trip = 0 ∧
    t.keep.ten &&& ~~~(s.cat.ten &&& ~~~(s.ket.trip ||| s.cat.trip)) = 0 ∧
    (∀ n < 33, (leakOf t n).masked = s.cat.masks.get false n) ∧
    ((∀ n < 33, s.cat.chat.get false n = false ∧ s.cat.open_.get false n = false ∧ s.cat.short.get false n = false) →
      t.ket.trip = s.ket.trip ||| s.cat.trip ∧ t.keep.ten = s.cat.ten &&& ~~~(s.ket.trip ||| s.cat.trip)) := by
  refine .next (t := doKeepTableReadDone s) rfl ?_
  rw [doKeepTableReadDone_eq hp ht]
  have hstep (u : State) (n : Nat) : OnlyTrips u (examineRead s.ket u n) :=
    (reexamine_onlyTrips ..).trans (saveFlags_onlyTrips ..)
  obtain ⟨hread, hten, htrip, hmasks⟩ := OnlyTrips.foldl hstep (List.range 33) (imagesRead s)
  rw [imagesRead_ten] at hten
  rw [imagesRead_trip] at htrip
  have hnow : ((List.range 33).foldl (examineRead s.ket) (imagesRead s)).now = (imagesRead s).now :=
    foldl_view (view := State.now) (fun u n => ((saveFlags_foot n _).same .now rfl).trans (reexamine_now ..)) _ _
  refine ⟨by rw [hnow, imagesRead_now]; exact Nat.le_max_right .., by rw [hread, imagesRead_tenRead], htrip, hten,
    fun n hn => by rw [hmasks, leakOf_imagesRead hn]; rfl, fun hflags => ?_⟩
  have hsame : ∀ n ∈ List.range 33,
      leakActive s.ket.route n (leakOf (imagesRead s) n) = leakActive s.ket.route n (leakOf s n) := by
    intro n hn
    have hn := List.mem_range.mp hn
    obtain ⟨hc, ho, hs⟩ := hflags n hn
    rw [leakOf_imagesRead hn, leakActive_restoreLeak hc ho hs]
  obtain ⟨-, htripEq, htenEq, -⟩ := examineAll_unmoved (old := s.ket) (imagesRead_route s) hsame
  exact ⟨htripEq.trans (imagesRead_trip s), htenEq.trans (imagesRead_ten s)⟩

/-! ## The power-on reset's release and VKEEP's fall (R48, R53, R58) -/

@[simp] theorem railsUp_keep (s : State) : (railsUp s).keep = s.keep := (railsUp_foot s).same .keep rfl
@[simp] theorem railsUp_ket (s : State) : (railsUp s).ket = s.ket := (railsUp_foot s).same .ket rfl
@[simp] theorem railsUp_now (s : State) : (railsUp s).now = s.now := (railsUp_foot s).same .now rfl
@[simp] theorem railsUp_otp (s : State) : (railsUp s).otp = s.otp := (railsUp_foot s).same .otp rfl
@[simp] theorem railsUp_resetSrc (s : State) : (railsUp s).pwr.resetSrc = s.pwr.resetSrc := by
  unfold railsUp
  split <;> rfl

/-- The keep domain as its reset is released, before the folios of the release. -/
def porReleased (intact : Bool) (s : State) : State :=
  let s := s.onKeep fun k =>
    { k with por := false, cold := false, tenRead := true, hourBase := k.savedHour, hourFrom := s.now, saveAt := s.now,
             coarse := false, pcycle := (k.savedCycle + 1) % 2 ^ 32 }
  let s := railsUp (s.onPwr fun p => { p with resetSrc := 1 })
  if intact then s else coldKeep s

/-- What follows the release: its folios, and the TLS device key where none is held (R89). -/
theorem doKeepPorRelease_after {s : State} (h : s.keep.por = true) (intact : Bool) :
    Foot [.free, .out, .keep, .host, .log, .pmc, .spn, .kt] (porReleased intact s) (doKeepPorRelease intact s) := by
  unfold doKeepPorRelease
  rw [h]
  extract_lets s1 s2 s3 s4 s5
  have h4 : Foot [.free, .out, .keep, .host, .log, .pmc, .spn, .kt] s3 s4 := (record_foot ..).mono rfl
  have h5 : Foot [.free, .out, .keep, .host, .log, .pmc, .spn, .kt] s3 s5 := by
    unfold s5
    split
    · exact h4
    · exact h4.then (record_foot ..) rfl
  show Foot _ s3 _
  simp only [Bool.not_true, Bool.false_eq_true, if_false]
  split
  · exact h5
  · exact (h5.then (draw_foot s5) rfl).onKt rfl (.inr rfl) (.inr ⟨rfl, rfl⟩) (.inr rfl)

/-- The counters are restored and one more power cycle counted (R48), and intact latches stay as they were. -/
theorem porReleased_intact (s : State) : (porReleased true s).ket = s.ket ∧
    (porReleased true s).keep = { s.keep with
      por := false, cold := false, tenRead := true, hourBase := s.keep.savedHour, hourFrom := s.now, saveAt := s.now,
      coarse := false, pcycle := (s.keep.savedCycle + 1) % 2 ^ 32 } ∧ (porReleased true s).pwr.resetSrc = 1#4 := by
  simp [porReleased]

/-- On a lost signature the cold keep takes the OTP routing and waits for the images (R58). -/
theorem porReleased_cold (s : State) : (porReleased false s).ket.route = s.otp.route ∧
    (porReleased false s).keep = { s.keep with
      por := false, cold := true, capdn := 0xFFFF, tenRead := false, readAt := some (s.now + 5000), ten := 0,
      handoff := false, handoffAt := none, wake := [], wakePin := false, hourBase := s.keep.savedHour, hourFrom := s.now,
      saveAt := s.now, coarse := false, pcycle := (s.keep.savedCycle + 1) % 2 ^ 32 } ∧
    (porReleased false s).pwr.resetSrc = 1#4 := by
  simp [porReleased, coldKeep]

theorem keepPorRelease_completes {s : State} {intact : Bool} (hp : s.keep.por = true) : Runs (.keepPorRelease intact) s fun t =>
    t.keep.por = false ∧ t.pwr.resetSrc = 1#4 ∧ t.keep.hourBase = s.keep.savedHour ∧
    t.keep.pcycle = (s.keep.savedCycle + 1) % 2 ^ 32 ∧
    (intact = true → t.ket = s.ket ∧ t.keep.ten = s.keep.ten ∧ t.keep.capdn = s.keep.capdn) ∧
    (intact = false → t.ket.route = s.otp.route ∧ t.keep.capdn = 0xFFFF ∧ t.keep.tenRead = false) := by
  refine .next (t := doKeepPorRelease intact s) rfl ?_
  have hfoot := doKeepPorRelease_after hp intact
  have hket := hfoot.same .ket rfl
  have hpwr := hfoot.same .pwr rfl
  have hcore := hfoot.same .core rfl
  rw [keepCore_por hcore, keepCore_hourBase hcore, keepCore_pcycle hcore, keepCore_ten hcore, keepCore_capdn hcore,
    keepCore_tenRead hcore, hket, hpwr]
  cases intact with
  | true =>
    obtain ⟨hk, hkeep, hsrc⟩ := porReleased_intact s
    rw [hk, hkeep, hsrc]
    exact ⟨rfl, rfl, rfl, rfl, fun _ => ⟨rfl, rfl, rfl⟩, nofun⟩
  | false =>
    obtain ⟨hroute, hkeep, hsrc⟩ := porReleased_cold s
    rw [hkeep, hsrc]
    exact ⟨rfl, rfl, rfl, rfl, nofun, fun _ => ⟨hroute, rfl, rfl⟩⟩

/-- VKEEP's fall takes every switched domain down and saves the counters last (R46, R48). -/
theorem vkeepFall_completes {s : State} (hp : s.keep.por = false) : Runs .vkeepFall s fun t =>
    t.keep.por = true ∧ t.pwr.bind = .off ∧ t.pwr.field = .off ∧ t.pwr.store = .off ∧ t.pwr.halfA = .off ∧
    t.pwr.halfB = .off ∧ t.pwr.rails = false ∧ t.keep.savedHour = hourMeter s ∧ t.keep.savedCycle = s.keep.pcycle := by
  refine .next (t := doVkeepFall s) rfl ?_
  have hcounts := bindDown_counts .off s
  have hhour := hcounts.hourMeter (bindDown_now ..)
  have hcycle : (saveCounters (fieldOff (bindDown .off s))).keep.savedCycle = s.keep.pcycle := hcounts.pcycle
  simp [doVkeepFall, hp, hhour, hcycle]

/-- The next whole second after a time is a whole number of seconds from it (R48). -/
theorem wholeSecond_next {start now : Nat} (h : start ≤ now) :
    (max now (if (now - start) % 1000000 = 0 then now else now + (1000000 - (now - start) % 1000000)) - start) %
      1000000 = 0 := by
  split
  · omega
  · omega

/-- Settles O11: each row by its lemma, or by its own definition where it is one update at its time. -/
theorem keepDomainCommandsComplete : Obligations.KeepDomainCommandsComplete := by
  unfold Obligations.KeepDomainCommandsComplete
  refine ⟨fun _ _ => keepPorRelease_completes, fun _ => keepTableReadDone_completes, fun _ => vkeepFall_completes, ?hour,
    ?handoff, ?image, ?fail, ?run⟩
  case hour =>
    intro s hp
    refine .next (t := doHourMeterSave s) rfl ?_
    simp [doHourMeterSave, hp, saveCounters, hourMeter]
  case handoff =>
    intro s d hd
    refine .next (t := doSpnHandoffExpiry s) rfl ?_
    simp [doSpnHandoffExpiry, hd]
  case image =>
    intro s d hd hp ht
    refine .next (t := doTripImageSave s) rfl ?_
    simp [doTripImageSave, hd, hp, ht, saveImages]
  case fail =>
    intro s hp
    refine .next (t := doKxinCrystalFail s) rfl ?_
    simp [doKxinCrystalFail, hp]
  case run =>
    intro s hp hc
    refine .next (t := doKxinCrystalRun s) rfl ?_
    simpa [doKxinCrystalRun, hp, hc] using fun hfrom => wholeSecond_next hfrom

end Sys2Proof.Machine
end

section
/-! Laws of a download attempt: its failure, the bytes of its image, its blocks and its windows (R67, R69, R72, R75, R77). -/

namespace Sys2Proof.Machine

/-! ## A failed attempt (R67, R75) -/

/-- Its folio has severity 2, so it is no wake cause, and nothing else of it touches the keep registers. -/
@[simp] theorem bootFail_keep (code : Nat) (s : State) : (bootFail code s).keep = s.keep := by
  unfold bootFail
  extract_lets b fails due s1 s2 s3
  have h1 : s1.keep = s.keep := by
    unfold s1
    split <;> rfl
  have h3 : s3.keep = s1.keep := by
    unfold s3
    split
    · obtain ⟨ev, hev⟩ := record_minor (by decide : 2 ≠ 3) 0x0F10 [code, b.source.toNat, fails, b.progress] 0 s2
      rw [hev]
      simp [logFolio, s2]
    · rfl
  rw [msix_keep, setBoot_keep, h3, h1]

/-- Program memory is erased. -/
@[simp] theorem bootFail_prog (code : Nat) (s : State) : (bootFail code s).boot.prog = [] := by
  unfold bootFail
  extract_lets b fails due s1 s2 s3
  have h3 : s3.boot = s2.boot := by
    unfold s3
    split <;> simp
  simp [h3, s2]

@[simp] theorem bootFail_state (code : Nat) (s : State) : (bootFail code s).boot.state = .failed := (bootFail_boot code s).1
@[simp] theorem bootFail_lastError (code : Nat) (s : State) : (bootFail code s).boot.lastError = BitVec.ofNat 8 code :=
  (bootFail_boot code s).2.1
@[simp] theorem bootFail_image (code : Nat) (s : State) : (bootFail code s).boot.image = none := (bootFail_boot code s).2.2

/-! ## What is sent leaves the attempt as it is -/

@[simp] theorem sendNet_boot (port dst ty block count : Nat) (data : Bytes) (s : State) :
    (sendNet port dst ty block count data s).boot = s.boot := rfl
@[simp] theorem sendNet_now (port dst ty block count : Nat) (data : Bytes) (s : State) :
    (sendNet port dst ty block count data s).now = s.now := rfl

section
variable (rs : List (Nat × Nat)) (s : State)
@[simp] theorem readHost_boot : (readHost rs s).boot = s.boot := (readHost_foot ..).same .boot rfl
@[simp] theorem readHost_keep : (readHost rs s).keep = s.keep := (readHost_foot ..).same .keep rfl
end

/-! ## Bytes of the image (R67, R75) -/

/-- The attempt after bytes were stored: its last byte enters CHECKING. -/
def Boot.advance (now : Nat) (b : Boot) : Boot :=
  if b.progress = b.total then { b with checkAt := now, state := .checking } else b

@[simp] theorem Boot.advance_progress (now : Nat) (b : Boot) : (b.advance now).progress = b.progress := by
  unfold Boot.advance; split <;> rfl
@[simp] theorem Boot.advance_colophon (now : Nat) (b : Boot) : (b.advance now).colophon = b.colophon := by
  unfold Boot.advance; split <;> rfl
@[simp] theorem Boot.advance_prog (now : Nat) (b : Boot) : (b.advance now).prog = b.prog := by
  unfold Boot.advance; split <;> rfl
@[simp] theorem Boot.advance_state (now : Nat) (b : Boot) :
    (b.advance now).state = if b.progress = b.total then .checking else b.state := by
  unfold Boot.advance; split <;> rfl

theorem Boot.advance_more {now : Nat} {b : Boot} (h : b.progress ≠ b.total) : b.advance now = b := if_neg h

/-- Bytes from behind the colophon on leave it as it is, and go into program memory whole. -/
theorem Boot.store_payload {o : Nat} (ho : 512 ≤ o) (data : Bytes) (b : Boot) :
    b.store o data = { b with
      prog := b.prog.writeN (o - 512) data, progress := min (b.progress + data.length) b.total } := by
  simp [Boot.store, Nat.not_lt.mpr ho, Nat.sub_eq_zero_of_le ho]

theorem lastByte_boot {s : State} (h : 512 ≤ s.boot.colophon.length) :
    (lastByte s).boot = { s.boot with checkAt := s.now, state := .checking } := by
  simp [lastByte, Nat.not_lt.mpr h]

/-- Bytes behind a colophon that has passed. -/
theorem bytesIn_payload {s : State} {o : Nat} (hc : 512 ≤ s.boot.colophon.length) (ho : 512 ≤ o) (data : Bytes) :
    (bytesIn o data s).boot = (s.boot.store o data).advance s.now := by
  have hstored : 512 ≤ (s.boot.store o data).colophon.length := by rwa [Boot.store_payload ho]
  unfold bytesIn Boot.advance
  simp only [hc, decide_true, Bool.not_true, Bool.false_and, Bool.false_eq_true, if_false, State.onBoot_boot, beq_iff_eq]
  split
  · exact lastByte_boot hstored
  · rfl

/-- Bytes that follow what has arrived of the colophon are appended to it. -/
theorem Boot.store_colophon {o : Nat} {b : Boot} (hc : b.colophon.length = o) (ho : o < 512) (data : Bytes) :
    (b.store o data).colophon = b.colophon ++ data.take (512 - o) := by
  simp [Boot.store, ho, List.take_of_length_le hc.le]

section
variable {s : State} {o : Nat} {data : Bytes} (hc : s.boot.colophon.length = o) (ho : o < 512) (hd : 512 ≤ o + data.length)
include hc ho hd

theorem store_colophon_full : 512 ≤ (s.boot.store o data).colophon.length := by
  rw [Boot.store_colophon hc ho, List.length_append, List.length_take]
  omega

/-- Bytes that complete a colophon of which a check fails. -/
theorem bytesIn_rejected {e : Nat} (he : colophonError s.otp (s.boot.source == 1) s.boot.total
    (s.boot.colophon ++ data.take (512 - o)) = some e) : bytesIn o data s = bootFail e (s.onBoot (Boot.store o data)) := by
  have hcheck : colophonError s.otp ((s.boot.store o data).source == 1) (s.boot.store o data).total
      (s.boot.store o data).colophon = some e := by
    rw [Boot.store_colophon hc ho]
    exact he
  have hnew : ¬ 512 ≤ s.boot.colophon.length := by omega
  simp only [bytesIn, State.onBoot_boot, State.onBoot_otp, hnew, store_colophon_full hc ho hd, decide_true, decide_false,
    Bool.not_false, Bool.and_self, if_true, hcheck]

/-- Bytes that complete a colophon which passes its checks. -/
theorem bytesIn_passed (he : colophonError s.otp (s.boot.source == 1) s.boot.total
    (s.boot.colophon ++ data.take (512 - o)) = none) : (bytesIn o data s).boot = (s.boot.store o data).advance s.now := by
  have hcheck : colophonError s.otp ((s.boot.store o data).source == 1) (s.boot.store o data).total
      (s.boot.store o data).colophon = none := by
    rw [Boot.store_colophon hc ho]
    exact he
  have hfull := store_colophon_full hc ho hd
  have hnew : ¬ 512 ≤ s.boot.colophon.length := by omega
  simp only [bytesIn, State.onBoot_boot, State.onBoot_otp, hnew, hfull, decide_true, decide_false,
    Bool.not_false, Bool.and_self, if_true, hcheck, Boot.advance, beq_iff_eq]
  split
  · exact lastByte_boot (s := s.onBoot (Boot.store o data)) hfull
  · exact readHost_boot ..

end

/-! ## Blocks and windows (R72) -/

theorem requestWindow_boot (w : Nat) (s : State) :
    (requestWindow w s).boot = { s.boot with window := w, got := [], reqAt := some (s.now + 50000) } := rfl

section
variable {block : Nat} {data : Bytes} {s : State} {b : Boot} (hb : (bytesIn (block * 1408) data s).boot = b)
include hb

/-- A block with which the attempt leaves LOADING asks for nothing more. -/
theorem blockIn_left (hl : b.state ≠ .loading) : (blockIn block data s).boot = { b with reqAt := none } := by
  simp [blockIn, hb, hl]

variable (hl : b.state = .loading)
include hl

/-- A block of a window of which others are missing. -/
theorem blockIn_more (h : b.got.length + 1 ≠ windowOf b.total b.window) :
    (blockIn block data s).boot = { b with got := b.got ++ [block] } := by
  simp [blockIn, hb, hl, h]

/-- The last block of a window is followed by the request for the next. -/
theorem blockIn_complete (h : b.got.length + 1 = windowOf b.total b.window) :
    ∃ at_, (blockIn block data s).boot =
      { b with window := b.window + windowOf b.total b.window, got := [], timeouts := 0, reqAt := at_ } := by
  refine ⟨some ((bytesIn (block * 1408) data s).now + 50000), ?_⟩
  simp [blockIn, hb, hl, h, requestWindow_boot]

end

end Sys2Proof.Machine
end

section
/-! The download over PCIe, and the statement about it (R67, R69, R70, R75, R77). -/

namespace Sys2Proof.Machine

/-! ## START and its list (R69, R73) -/

/-- The attempt as START opens it, before its checks. -/
def bootOpened (s : State) : State := s.onBoot fun b => { b with source := 1, progress := 0, colophon := [], list := [] }

/-- The read of the list is issued. -/
def listRead (s : State) : State := readHost [(listAddr s, 16 * s.boot.listCount.toNat)] (bootOpened s)

/-- The entries that count. -/
def listed (list : List Scatter) (s : State) : List Scatter := list.take s.boot.listCount.toNat

/-- LOADING with the list as it was read, and the reads for the colophon issued. -/
def bootLoading (list : List Scatter) (s : State) : State :=
  readHost (dmaReads (listed list s) 0 512) (setBoot .loading ((listRead s).onBoot fun b =>
    { b with list := listed list s, total := listTotal (listed list s) }))

/-- The count or the address in the list registers breaks its rule. -/
def badListRegs (s : State) : Prop :=
  s.boot.listCount.toNat = 0 ∨ 1024 < s.boot.listCount.toNat ∨ s.boot.listLo.toNat % 16 ≠ 0

section
variable {s : State} {list : List Scatter} (hb : s.pwr.bind = .on) (hw : s.boot.state = .wait) (he : pcieEligible s = true)
include hb hw he

/-- A count or an address outside the rules fails before anything is read. -/
theorem doMbxBootStart_badRegs (h : badListRegs s) : doMbxBootStart list s = bootFail 0x02 (bootOpened s) := by
  have hbad : (s.boot.listCount.toNat == 0 || decide (1024 < s.boot.listCount.toNat) || s.boot.listLo.toNat % 16 != 0) =
      true := by simpa [badListRegs, or_assoc] using h
  simp only [doMbxBootStart, hb, hw, he, bne_self_eq_false, Bool.not_true, Bool.or_self, Bool.false_eq_true, if_false,
    State.onBoot_boot, hbad, if_true]
  rfl

/-- Else the list is read and judged: E_DMA, E_LENGTH or LOADING. -/
theorem doMbxBootStart_reads (h : ¬ badListRegs s) : doMbxBootStart list s =
    if (listed list s).length < s.boot.listCount.toNat then bootFail 0x0A (listRead s)
    else if entriesOk (listed list s) = false ∨ maxImage < listTotal (listed list s) then bootFail 0x02 (listRead s)
    else bootLoading list s := by
  have hgood : (s.boot.listCount.toNat == 0 || decide (1024 < s.boot.listCount.toNat) || s.boot.listLo.toNat % 16 != 0) =
      false := by simpa [badListRegs, and_assoc] using h
  simp only [doMbxBootStart, hb, hw, he, bne_self_eq_false, Bool.not_true, Bool.or_self, Bool.false_eq_true, if_false,
    State.onBoot_boot, hgood, decide_eq_true_eq, Bool.or_eq_true, Bool.not_eq_true']
  rfl

theorem mbxBootStart_loads (h : ¬ badListRegs s) (hn : s.boot.listCount.toNat ≤ list.length)
    (hok : entriesOk (listed list s) = true) (ht : listTotal (listed list s) ≤ maxImage) :
    doMbxBootStart list s = bootLoading list s := by
  have hlen : ¬ (listed list s).length < s.boot.listCount.toNat := by simp [listed, hn]
  have hjudged : ¬ (entriesOk (listed list s) = false ∨ maxImage < listTotal (listed list s)) := by simp [hok, ht]
  rw [doMbxBootStart_reads hb hw he h, if_neg hlen, if_neg hjudged]

theorem mbxBootStart_short (h : ¬ badListRegs s) (hn : list.length < s.boot.listCount.toNat) :
    doMbxBootStart list s = bootFail 0x0A (listRead s) := by
  have hlen : (listed list s).length < s.boot.listCount.toNat := by simp [listed, hn]
  rw [doMbxBootStart_reads hb hw he h, if_pos hlen]

theorem mbxBootStart_badList (h : ¬ badListRegs s) (hn : s.boot.listCount.toNat ≤ list.length)
    (hbad : entriesOk (listed list s) = false ∨ maxImage < listTotal (listed list s)) :
    doMbxBootStart list s = bootFail 0x02 (listRead s) := by
  have hlen : ¬ (listed list s).length < s.boot.listCount.toNat := by simp [listed, hn]
  rw [doMbxBootStart_reads hb hw he h, if_neg hlen, if_pos hbad]

end

/-- What was sent before DMA reads stays sent. -/
theorem mem_readHost_out {rs : List (Nat × Nat)} {s : State} {o : Output} (h : o ∈ s.out) : o ∈ (readHost rs s).out :=
  (readHost_foot rs s).sent.subset h

/-! ## Bytes that the reads bring (R70, R75) -/

section
variable {s : State} (hl : s.boot.state = .loading) (hsrc : s.boot.source = 1)
include hl hsrc

theorem doBootDmaCompletion_data (data : Bytes) :
    doBootDmaCompletion (.data data) s = bytesIn s.boot.progress (data.take (dmaLeft s.boot)) s := by
  simp [doBootDmaCompletion, hl, hsrc]

theorem bootDmaCompletion_payload {data : Bytes} (hp : 512 ≤ s.boot.progress) (hc : 512 ≤ s.boot.colophon.length)
    (ht : s.boot.progress + data.length ≤ s.boot.total) : Runs (.bootDmaCompletion (.data data)) s fun t =>
      t.boot.progress = s.boot.progress + data.length ∧ t.boot.colophon = s.boot.colophon ∧
      t.boot.prog = s.boot.prog.writeN (s.boot.progress - 512) data ∧
      t.boot.state = if s.boot.progress + data.length = s.boot.total then .checking else .loading := by
  refine .next (t := doBootDmaCompletion (.data data) s) rfl ?_
  have htake : data.take (dmaLeft s.boot) = data := by
    rw [List.take_eq_self_iff, dmaLeft, if_neg (by omega)]
    omega
  rw [doBootDmaCompletion_data hl hsrc, htake, bytesIn_payload hc hp, Boot.store_payload hp]
  simp [Nat.min_eq_left ht, hl]

/-- The reads for the colophon bring no byte behind it. -/
theorem doBootDmaCompletion_colophon (hp : s.boot.progress < 512) (ht : 513 ≤ s.boot.total) (data : Bytes) :
    doBootDmaCompletion (.data data) s = bytesIn s.boot.progress (data.take (512 - s.boot.progress)) s := by
  have hleft : dmaLeft s.boot = 512 - s.boot.progress := by
    rw [dmaLeft, if_pos hp]
    omega
  rw [doBootDmaCompletion_data hl hsrc, hleft]

section
variable {data : Bytes} (hp : s.boot.progress < 512) (hc : s.boot.colophon.length = s.boot.progress)
  (ht : 513 ≤ s.boot.total) (hd : 512 ≤ s.boot.progress + data.length)
include hp hc ht hd

theorem bootDmaCompletion_rejected {e : Nat} (he : colophonError s.otp true s.boot.total
    (s.boot.colophon ++ data.take (512 - s.boot.progress)) = some e) : doBootDmaCompletion (.data data) s =
      bootFail e (s.onBoot (Boot.store s.boot.progress (data.take (512 - s.boot.progress)))) := by
  rw [doBootDmaCompletion_colophon hl hsrc hp ht, bytesIn_rejected hc hp]
  · rw [List.length_take]
    omega
  · simpa [hsrc, List.take_take] using he

theorem bootDmaCompletion_passed (he : colophonError s.otp true s.boot.total
    (s.boot.colophon ++ data.take (512 - s.boot.progress)) = none) :
    (doBootDmaCompletion (.data data) s).boot = s.boot.store s.boot.progress (data.take (512 - s.boot.progress)) ∧
    (s.boot.store s.boot.progress (data.take (512 - s.boot.progress))).progress = 512 := by
  have hprogress : (s.boot.store s.boot.progress (data.take (512 - s.boot.progress))).progress = 512 := by
    simp only [Boot.store, List.length_take]
    omega
  have hmore : (s.boot.store s.boot.progress (data.take (512 - s.boot.progress))).progress ≠ s.boot.total := by omega
  refine ⟨?_, hprogress⟩
  rw [doBootDmaCompletion_colophon hl hsrc hp ht, bytesIn_passed hc hp, Boot.advance_more hmore]
  · rw [List.length_take]
    omega
  · simpa [hsrc, List.take_take] using he

end

end

/-! ## The payload's hash (R75) -/

theorem doBootCheckDone_wrong {s : State} {us : Nat} (hc : s.boot.state = .checking)
    (h : sha384 (payload s) ≠ BitVec.ofNat 384 (leVal (sub s.boot.colophon 0x040 48))) :
    doBootCheckDone us s = bootFail 0x06 (reach (s.boot.checkAt + min us 10000) s) := by
  have hhash : (sha384 (payload (reach (s.boot.checkAt + min us 10000) s)) !=
      BitVec.ofNat 384 (leVal (sub (reach (s.boot.checkAt + min us 10000) s).boot.colophon 0x040 48))) = true := by
    simpa [payload] using h
  simp only [doBootCheckDone, hc, bne_self_eq_false, Bool.false_eq_true, if_false, hhash, if_true]

theorem bootCheckDone_starts {s : State} {us : Nat} (hc : s.boot.state = .checking)
    (h : sha384 (payload s) = BitVec.ofNat 384 (leVal (sub s.boot.colophon 0x040 48))) :
    (doBootCheckDone us s).now = max s.now (s.boot.checkAt + min us 10000) ∧ (doBootCheckDone us s).boot =
      { s.boot with
        lastError := 0, image := some s.boot.colophon, reqAt := none, state := .starting,
        watchdog := some (max s.now (s.boot.checkAt + min us 10000) + 5000000) } := by
  have hhash : (sha384 (payload (reach (s.boot.checkAt + min us 10000) s)) !=
      BitVec.ofNat 384 (leVal (sub (reach (s.boot.checkAt + min us 10000) s).boot.colophon 0x040 48))) = false := by
    simpa [payload] using h
  simp only [doBootCheckDone, hc, bne_self_eq_false, Bool.false_eq_true, if_false, hhash]
  split <;> simp

/-- Settles O16: each row by its lemma; every failure by what `bootFail` leaves. -/
theorem pcieDownloadCompletes : Obligations.PcieDownloadCompletes := by
  unfold Obligations.PcieDownloadCompletes
  refine ⟨?start, ?length, ?short, ?abort, fun _ _ hl hsrc => bootDmaCompletion_payload hl hsrc,
    ?colophon, ?readError, ?check, ?back⟩
  case start =>
    intro s list hb hw he h0 h1024 h16 hn hok ht
    have hregs : ¬ badListRegs s := by unfold badListRegs; omega
    refine .next (t := doMbxBootStart list s) rfl ?_
    rw [mbxBootStart_loads hb hw he hregs hn hok ht]
    refine ⟨?_, ?_, ?_, ?_, ?_, mem_readHost_out ?read⟩
    case read => simp [listRead, readHost, setBoot, emit]
    all_goals simp [bootLoading, listRead, bootOpened, listed]
  case length =>
    intro s list hb hw he hbad
    refine .next (t := doMbxBootStart list s) rfl ?_
    by_cases hregs : badListRegs s
    · rw [doMbxBootStart_badRegs hb hw he hregs]
      exact ⟨bootFail_state .., bootFail_lastError ..⟩
    · obtain ⟨hn, hlist⟩ : s.boot.listCount.toNat ≤ list.length ∧
          (entriesOk (listed list s) = false ∨ maxImage < listTotal (listed list s)) := by
        unfold badListRegs at hregs
        tauto
      rw [mbxBootStart_badList hb hw he hregs hn hlist]
      exact ⟨bootFail_state .., bootFail_lastError ..⟩
  case short =>
    intro s list hb hw he h1024 h16 hn
    have hregs : ¬ badListRegs s := by unfold badListRegs; omega
    refine .next (t := doMbxBootStart list s) rfl ?_
    rw [mbxBootStart_short hb hw he hregs hn]
    exact ⟨bootFail_state .., bootFail_lastError ..⟩
  case abort =>
    intro s h
    refine .next (t := doMbxBootAbort s) rfl ?_
    rw [doMbxBootAbort, if_pos (by simpa using h)]
    exact ⟨bootFail_state .., bootFail_lastError .., bootFail_image .., bootFail_prog ..⟩
  case colophon =>
    intro s data hl hsrc hp hc ht hd
    refine .next (t := doBootDmaCompletion (.data data) s) rfl ?_
    split
    next e he =>
      rw [bootDmaCompletion_rejected hl hsrc hp hc ht hd he]
      exact ⟨bootFail_state .., bootFail_lastError ..⟩
    next he =>
      obtain ⟨hboot, hprogress⟩ := bootDmaCompletion_passed hl hsrc hp hc ht hd he
      rw [hboot]
      refine ⟨hl, hprogress, ?_⟩
      rw [Boot.store_colophon hc hp, List.take_take, Nat.min_self]
  case readError =>
    intro s hl hsrc
    refine .next (t := doBootDmaCompletion .error s) rfl ?_
    have hfails : doBootDmaCompletion .error s = bootFail 0x0A s := by simp [doBootDmaCompletion, hl, hsrc]
    rw [hfails]
    exact ⟨bootFail_state .., bootFail_lastError ..⟩
  case check =>
    intro s us hc
    refine .next (t := doBootCheckDone us s) rfl ?_
    split
    next hhash =>
      obtain ⟨hnow, hboot⟩ := bootCheckDone_starts (us := us) hc hhash
      rw [hboot, hnow]
      exact ⟨rfl, rfl, rfl, rfl, rfl⟩
    next hhash =>
      rw [doBootCheckDone_wrong hc hhash]
      exact ⟨by simp, bootFail_state .., bootFail_lastError .., bootFail_image .., bootFail_prog ..⟩
  case back =>
    intro s hf
    refine .next (t := doBootFailedReturn s) rfl ?_
    simp [doBootFailedReturn, hf]

end Sys2Proof.Machine
end

section
/-! Netboot, and the statement about it (R71 to R73, R75). -/

namespace Sys2Proof.Machine

/-! ## SOLICIT and OFFER (R72) -/

theorem netbootSolicit_completes {s : State} {d : Nat} (hd : s.boot.solicitAt = some d) (hw : s.boot.state = .wait)
    (hn : s.boot.net = true) : Runs .netbootSolicit s fun t => d ≤ t.now ∧ t.boot.solicitAt = some (t.now + 1000000) ∧
      t.out = .netboot 1 (s.otp.mac + 1) 0xFFFFFFFFFFFF (netBytes s.otp.serial 1 0 0 (solicitData s)) ::
        .netboot 0 (s.otp.mac + 0) 0xFFFFFFFFFFFF (netBytes s.otp.serial 1 0 0 (solicitData s)) :: s.out := by
  refine .next (t := doNetbootSolicit s) rfl ?_
  have hdata : solicitData (reach d s) = solicitData s := by simp [solicitData]
  simp [doNetbootSolicit, hd, hw, hn, hdata, sendNet, emit, broadcastMac]

theorem netbootOffer_locks {s : State} {port : Fin 2} {src : Nat} {frame : Bytes} (hw : s.boot.state = .wait)
    (hn : s.boot.net = true) (hf : netFrame 2 0x88B5 frame s = true) (hd : fld frame 18 2 = 4)
    (hlo : 513 ≤ fld frame 20 4) (hhi : fld frame 20 4 ≤ 25165824) :
    Runs (.netbootOffer port src (s.otp.mac + port.val) 0x88B5 frame) s fun t =>
      t.boot.state = .loading ∧ t.boot.source = 2 ∧ t.boot.server = src ∧ t.boot.port = port.val ∧
      t.boot.total = fld frame 20 4 ∧ t.boot.progress = 0 ∧ t.boot.reqAt = some (s.now + 50000) ∧
      t.out.head? = some (.netboot port.val (s.otp.mac + port.val) src (netBytes s.otp.serial 3 0 1 [])) := by
  refine .next (t := doNetbootOffer port src (s.otp.mac + port.val) 0x88B5 frame s) rfl ?_
  have htakes : (s.boot.state == .wait && s.boot.net && s.otp.mac + port.val == s.otp.mac + port.val &&
      netFrame 2 0x88B5 frame s && fld frame 18 2 == 4 && decide (513 ≤ fld frame 20 4) &&
      decide (fld frame 20 4 ≤ maxImage)) = true := by
    simp only [hw, hn, hf, hd, hlo, maxImage, hhi, beq_self_eq_true, decide_true, Bool.and_self]
  simp only [doNetbootOffer, htakes, if_true]
  exact ⟨rfl, rfl, rfl, rfl, rfl, rfl, rfl, rfl⟩

/-! ## DATA (R72, R75) -/

theorem length_sub (bs : Bytes) (o n : Nat) : (sub bs o n).length = n := by
  simp [sub, zeros]

/-- The locked server's attempt is no download over PCIe. -/
theorem source_of_fromServer {port : Fin 2} {src : Nat} {s : State} (h : fromServer port src s = true) :
    (s.boot.source == 1) = false := by
  simp only [fromServer, Bool.and_eq_true, beq_iff_eq] at h
  obtain ⟨⟨hsource, -⟩, -⟩ := h
  rw [hsource]
  rfl

section
variable {s : State} {port : Fin 2} {src block n : Nat} {frame : Bytes} (hl : s.boot.state = .loading)
  (hs : fromServer port src s = true) (hf : netFrame 4 0x88B5 frame s = true) (hblock : block = fld frame 12 4)
  (hn : n = fld frame 18 2) (hlo : s.boot.window ≤ block)
  (hhi : block < s.boot.window + windowOf s.boot.total s.boot.window) (hnew : s.boot.got.contains block = false)
  (hlen : n = blockLen s.boot.total block)
include hl hs hf hblock hn hlo hhi hnew hlen

/-- A block of the window asked for that has not come yet is taken. -/
theorem doNetbootData_eq : doNetbootData port src 0x88B5 frame s = blockIn block (sub frame 20 n) s := by
  subst hblock hn
  have htakes : (s.boot.state == .loading && fromServer port src s && netFrame 4 0x88B5 frame s &&
      decide (s.boot.window ≤ fld frame 12 4) &&
      decide (fld frame 12 4 < s.boot.window + windowOf s.boot.total s.boot.window) && !s.boot.got.contains (fld frame 12 4) &&
      fld frame 18 2 == blockLen s.boot.total (fld frame 12 4)) = true := by
    simp only [hl, hs, hf, hlo, hhi, hnew, ← hlen, beq_self_eq_true, decide_true, Bool.not_false, Bool.and_self]
  simp only [doNetbootData, htakes, if_true]

theorem netbootData_payload (hc : 512 ≤ s.boot.colophon.length) (h0 : 0 < block)
    (ht : s.boot.progress + n ≤ s.boot.total) : Runs (.netbootData port src 0x88B5 frame) s fun t =>
      t.boot.progress = s.boot.progress + n ∧
      t.boot.prog = s.boot.prog.writeN (block * 1408 - 512) (sub frame 20 n) ∧
      (s.boot.progress + n = s.boot.total → t.boot.state = .checking ∧ t.boot.reqAt = none) ∧
      (s.boot.progress + n ≠ s.boot.total → t.boot.state = .loading ∧
        (s.boot.got.length + 1 ≠ windowOf s.boot.total s.boot.window → t.boot.got = s.boot.got ++ [block]) ∧
        (s.boot.got.length + 1 = windowOf s.boot.total s.boot.window →
          t.boot.window = s.boot.window + windowOf s.boot.total s.boot.window ∧ t.boot.got = [] ∧ t.boot.timeouts = 0)) := by
  refine .next (t := doNetbootData port src 0x88B5 frame s) rfl ?_
  rw [doNetbootData_eq hl hs hf hblock hn hlo hhi hnew hlen]
  have hoff : 512 ≤ block * 1408 := by omega
  have hin := bytesIn_payload hc hoff (sub frame 20 n)
  rw [Boot.store_payload hoff, length_sub, Nat.min_eq_left ht] at hin
  by_cases hlast : s.boot.progress + n = s.boot.total
  · rw [Boot.advance, if_pos hlast] at hin
    rw [blockIn_left hin nofun]
    exact ⟨rfl, rfl, fun _ => ⟨rfl, rfl⟩, fun h => absurd hlast h⟩
  · rw [Boot.advance_more hlast] at hin
    by_cases hwin : s.boot.got.length + 1 = windowOf s.boot.total s.boot.window
    · obtain ⟨_, hboot⟩ := blockIn_complete hin hl hwin
      rw [hboot]
      exact ⟨rfl, rfl, fun h => absurd h hlast, fun _ => ⟨hl, fun h => absurd hwin h, fun _ => ⟨rfl, rfl, rfl⟩⟩⟩
    · rw [blockIn_more hin hl hwin]
      exact ⟨rfl, rfl, fun h => absurd h hlast, fun _ => ⟨hl, fun _ => rfl, fun h => absurd h hwin⟩⟩

end

section
variable {s : State} {port : Fin 2} {src n : Nat} {frame : Bytes} (hl : s.boot.state = .loading)
  (hs : fromServer port src s = true) (hf : netFrame 4 0x88B5 frame s = true) (hblock : fld frame 12 4 = 0)
  (hn : n = fld frame 18 2) (hc : s.boot.colophon = []) (hp : s.boot.progress = 0) (ht : 513 ≤ s.boot.total)
  (hw : s.boot.window = 0) (hg : s.boot.got = []) (hlen : n = blockLen s.boot.total 0)
include hl hs hf hblock hn hw hg hlen

/-- Block 0 is the first window alone (log 138). -/
theorem doNetbootData_first : doNetbootData port src 0x88B5 frame s = blockIn 0 (sub frame 20 n) s :=
  doNetbootData_eq hl hs hf hblock.symm hn (by omega) (by simp [hw, windowOf]) (by simp [hg]) hlen

include hc ht

theorem netbootData_rejected {e : Nat} (he : colophonError s.otp false s.boot.total ((sub frame 20 n).take 512) = some e) :
    (doNetbootData port src 0x88B5 frame s).boot.state = .failed ∧
    (doNetbootData port src 0x88B5 frame s).boot.lastError = BitVec.ofNat 8 e := by
  have hdata : 512 ≤ 0 * 1408 + (sub frame 20 n).length := by
    rw [length_sub, hlen, blockLen]
    omega
  have hin := bytesIn_rejected (s := s) (o := 0 * 1408) (by simp [hc]) (by omega) hdata
    (by rw [source_of_fromServer hs, hc]; exact he)
  rw [doNetbootData_first hl hs hf hblock hn hw hg hlen, blockIn_left (congrArg State.boot hin) (by simp)]
  exact ⟨bootFail_state .., bootFail_lastError ..⟩

include hp

theorem netbootData_passed (he : colophonError s.otp false s.boot.total ((sub frame 20 n).take 512) = none) :
    let b := (doNetbootData port src 0x88B5 frame s).boot
    b.progress = n ∧ b.colophon = (sub frame 20 n).take 512 ∧ b.prog = s.boot.prog.writeN 0 ((sub frame 20 n).drop 512) ∧
    b.state = (if n = s.boot.total then .checking else .loading) ∧ (n ≠ s.boot.total → b.window = 1) := by
  have hdata : 512 ≤ 0 * 1408 + (sub frame 20 n).length := by
    rw [length_sub, hlen, blockLen]
    omega
  have hle : n ≤ s.boot.total := by
    rw [hlen, blockLen]
    omega
  have hin := bytesIn_passed (s := s) (o := 0 * 1408) (by simp [hc]) (by omega) hdata
    (by rw [source_of_fromServer hs, hc]; exact he)
  have hstored : s.boot.store (0 * 1408) (sub frame 20 n) = { s.boot with
      colophon := (sub frame 20 n).take 512, prog := s.boot.prog.writeN 0 ((sub frame 20 n).drop 512), progress := n } := by
    simp [Boot.store, hc, hp, length_sub, hle]
  rw [hstored] at hin
  rw [doNetbootData_first hl hs hf hblock hn hw hg hlen]
  by_cases hlast : n = s.boot.total
  · rw [Boot.advance, if_pos hlast] at hin
    rw [blockIn_left hin nofun, if_pos hlast]
    exact ⟨rfl, rfl, rfl, rfl, fun h => absurd hlast h⟩
  · have hwin : s.boot.got.length + 1 = windowOf s.boot.total s.boot.window := by simp [hg, hw, windowOf]
    rw [Boot.advance_more hlast] at hin
    obtain ⟨_, hboot⟩ := blockIn_complete hin hl hwin
    rw [hboot, if_neg hlast]
    exact ⟨rfl, rfl, rfl, hl, fun _ => by simp [hw, windowOf]⟩

end

/-! ## Time-outs (R72) -/

section
variable (port server : Nat) (rs : List (Nat × Nat)) (s : State)
/-- Requests change nothing but what is sent. -/
@[simp] theorem requests_boot : (rs.foldl (fun s r => sendNet port server 3 r.1 r.2 [] s) s).boot = s.boot :=
  List.foldlRecOn (motive := fun u : State => u.boot = s.boot) _ _ rfl fun _ h _ _ => h
@[simp] theorem requests_now : (rs.foldl (fun s r => sendNet port server 3 r.1 r.2 [] s) s).now = s.now :=
  List.foldlRecOn (motive := fun u : State => u.now = s.now) _ _ rfl fun _ h _ _ => h
end

theorem netbootRequestTimeout_completes {s : State} {d : Nat} (hd : s.boot.reqAt = some d) (hl : s.boot.state = .loading) :
    Runs .netbootRequestTimeout s fun t =>
      d ≤ t.now ∧ (s.boot.timeouts < 7 → t.boot.state = .loading ∧ t.boot.timeouts = s.boot.timeouts + 1 ∧
        t.boot.reqAt = some (t.now + 50000)) ∧
      (7 ≤ s.boot.timeouts → t.boot.state = .failed ∧ t.boot.lastError = 0x0C) := by
  refine .next (t := doNetbootRequestTimeout s) rfl ?_
  unfold doNetbootRequestTimeout
  simp only [hd, hl, bne_self_eq_false, Bool.false_eq_true, if_false, reach_boot]
  split
  next h8 =>
    exact ⟨by simp, fun h => by omega, fun _ => ⟨bootFail_state .., bootFail_lastError ..⟩⟩
  next h8 =>
    refine ⟨by simp, fun _ => ⟨by simp [hl], by simp, by simp⟩, fun h => by omega⟩

/-- Settles O17: each row by its lemma; every failure by what `bootFail` leaves. -/
theorem netbootCompletes : Obligations.NetbootCompletes := by
  unfold Obligations.NetbootCompletes
  refine ⟨fun _ _ => netbootSolicit_completes, fun _ _ _ _ => netbootOffer_locks, ?data, ?first,
    fun _ _ => netbootRequestTimeout_completes, ?cancel, ?loss, ?eligible⟩
  case data =>
    intro s port src block n frame hl hs hf hblock hn hc h0 hlo hhi hnew hlen ht
    exact netbootData_payload hl hs hf hblock hn hlo hhi hnew hlen hc h0 ht
  case first =>
    intro s port src n frame hl hs hf hblock hn hc hp ht hw hg hlen
    refine .next (t := doNetbootData port src 0x88B5 frame s) rfl ?_
    split
    next e he => exact netbootData_rejected hl hs hf hblock hn hc ht hw hg hlen he
    next he => exact netbootData_passed hl hs hf hblock hn hc hp ht hw hg hlen he
  case cancel =>
    intro s port src frame hl hs hf
    refine .next (t := doNetbootCancel port ⟨src, 0x88B5⟩ frame s) rfl ?_
    have hstate : (s.boot.state == .loading || s.boot.state == .checking) = true := by simpa using hl
    simp only [doNetbootCancel, hstate, hs, hf, Bool.and_self, if_true]
    exact ⟨bootFail_state .., bootFail_lastError ..⟩
  case loss =>
    intro s port hl hsrc hport
    refine .next (t := doMgmtLinkLoss port s) rfl ?_
    have hstate : (s.boot.state == .loading || s.boot.state == .checking) = true := by simpa using hl
    simp only [doMgmtLinkLoss, hstate, hsrc, hport, beq_self_eq_true, Bool.and_self, if_true]
    exact ⟨bootFail_state .., bootFail_lastError ..⟩
  case eligible =>
    intro s d hd
    refine .next (t := doNetbootEligible s) rfl ?_
    simp [doNetbootEligible, hd]

end Sys2Proof.Machine
end

section
/-! What no download attempt touches, and the statement about it (R77). -/

namespace Sys2Proof.Machine

/-! ## The keep registers through the boot ROM's rows -/

section
variable (s : State)

@[simp] theorem sendNet_keep (port dst ty block count : Nat) (data : Bytes) :
    (sendNet port dst ty block count data s).keep = s.keep := rfl

@[simp] theorem requestWindow_keep (w : Nat) : (requestWindow w s).keep = s.keep := (requestWindow_foot ..).same .keep rfl

@[simp] theorem lastByte_keep : (lastByte s).keep = s.keep := by
  unfold lastByte
  split <;> simp

@[simp] theorem bytesIn_keep (o : Nat) (data : Bytes) : (bytesIn o data s).keep = s.keep := by
  unfold bytesIn
  extract_lets had s1 b
  have h1 : s1.keep = s.keep := rfl
  split
  · split
    · rw [bootFail_keep, h1]
    · split
      · rw [lastByte_keep, h1]
      · rw [readHost_keep, h1]
  · split
    · rw [lastByte_keep, h1]
    · exact h1

@[simp] theorem blockIn_keep (block : Nat) (data : Bytes) : (blockIn block data s).keep = s.keep := by
  unfold blockIn
  extract_lets s1 b s2
  have h1 : s1.keep = s.keep := bytesIn_keep ..
  split
  · exact h1
  · split
    · rw [requestWindow_keep]
      exact h1
    · exact h1

theorem mbxBootStart_keep (list : List Scatter) : (doMbxBootStart list s).keep = s.keep := by
  unfold doMbxBootStart
  extract_lets s1 n l s2
  have h2 : s2.keep = s.keep := readHost_keep ..
  split
  · rfl
  split
  · exact bootFail_keep ..
  split
  · rw [bootFail_keep, h2]
  split
  · rw [bootFail_keep, h2]
  · rw [readHost_keep, setBoot_keep, State.onBoot_keep, h2]

theorem mbxBootAbort_keep : (doMbxBootAbort s).keep = s.keep := by
  unfold doMbxBootAbort
  split
  · exact bootFail_keep ..
  · rfl

theorem bootDmaCompletion_keep (c : BootDma) : (doBootDmaCompletion c s).keep = s.keep := by
  unfold doBootDmaCompletion
  split
  · rfl
  · cases c with
    | error => exact bootFail_keep ..
    | data bytes => exact bytesIn_keep ..

theorem bootCheckDone_keep (us : Nat) : (doBootCheckDone us s).keep = s.keep := by
  unfold doBootCheckDone
  split
  · rfl
  dsimp only
  split
  · simp
  · rw [msix_keep, setBoot_keep, State.onBoot_keep]
    split <;> simp

theorem netbootData_keep (port : Fin 2) (src : Nat) (type : Half) (frame : Bytes) :
    (doNetbootData port src type frame s).keep = s.keep := by
  unfold doNetbootData
  dsimp only
  split
  · exact blockIn_keep ..
  · rfl

@[simp] theorem requests_keep (port server : Nat) (rs : List (Nat × Nat)) :
    (rs.foldl (fun s r => sendNet port server 3 r.1 r.2 [] s) s).keep = s.keep :=
  List.foldlRecOn (motive := fun u : State => u.keep = s.keep) _ _ rfl fun _ h _ _ => h

theorem netbootRequestTimeout_keep : (doNetbootRequestTimeout s).keep = s.keep := by
  unfold doNetbootRequestTimeout
  split
  · rfl
  split
  · rfl
  dsimp only
  split <;> simp

theorem netbootCancel_keep (port : Fin 2) (hdr : EthHdr) (frame : Bytes) :
    (doNetbootCancel port hdr frame s).keep = s.keep := by
  unfold doNetbootCancel
  split
  · exact bootFail_keep ..
  · rfl

theorem mgmtLinkLoss_keep (port : Fin 2) : (doMgmtLinkLoss port s).keep = s.keep := by
  unfold doMgmtLinkLoss
  split
  · exact bootFail_keep ..
  · rfl

end

/-! ## A download command (R77) -/

/-- What a download command can change at all. -/
theorem footOf_download (c : Instr) :
    (!isDownload c || subFld (footOf c) [.now, .out, .keep, .boot, .host, .log, .pmc, .spn]) = true := by
  cases c <;> rfl

/-- Of the keep registers it changes none: only an attempt that fails could, and its folio is no wake cause. -/
theorem download_keep {c : Instr} (s : State) (h : isDownload c = true) : ∃ t, exec c s = .next t ∧ t.keep = s.keep := by
  cases c with
  | mbxBootStart list => exact ⟨_, rfl, mbxBootStart_keep s list⟩
  | mbxBootAbort => exact ⟨_, rfl, mbxBootAbort_keep s⟩
  | bootDmaCompletion d => exact ⟨_, rfl, bootDmaCompletion_keep s d⟩
  | bootCheckDone us => exact ⟨_, rfl, bootCheckDone_keep s us⟩
  | bootFailedReturn => exact ⟨_, rfl, (doBootFailedReturn_foot s).same .keep rfl⟩
  | netbootSolicit => exact ⟨_, rfl, (doNetbootSolicit_foot s).same .keep rfl⟩
  | netbootOffer port src dst type frame => exact ⟨_, rfl, (doNetbootOffer_foot port src dst type frame s).same .keep rfl⟩
  | netbootData port src type frame => exact ⟨_, rfl, netbootData_keep s port src type frame⟩
  | netbootRequestTimeout => exact ⟨_, rfl, netbootRequestTimeout_keep s⟩
  | netbootCancel port hdr frame => exact ⟨_, rfl, netbootCancel_keep s port hdr frame⟩
  | mgmtLinkLoss port => exact ⟨_, rfl, mgmtLinkLoss_keep s port⟩
  | netbootEligible => exact ⟨_, rfl, (doNetbootEligible_foot s).same .keep rfl⟩
  | _ => exact absurd h Bool.false_ne_true

/-- Settles O18: the command's footprint leaves all but the keep registers, and `download_keep` those. -/
theorem downloadsKeepKeepState : Obligations.DownloadsKeepKeepState := by
  unfold Obligations.DownloadsKeepKeepState
  intro c s t hc ht
  obtain ⟨u, hu, hkeep⟩ := download_keep s hc
  obtain ⟨v, hv, hfoot⟩ := exec_foot c s
  obtain rfl : u = t := Host.Outcome.next.inj (hu.symm.trans ht)
  obtain rfl : v = u := Host.Outcome.next.inj (hv.symm.trans hu)
  have hrest := hfoot.mono (by simpa [hc] using footOf_download c)
  exact ⟨hkeep, hrest.same .kt rfl, hrest.same .jr rfl, hrest.same .otp rfl, hrest.same .ket rfl, hrest.same .lv rfl,
    hrest.same .cat rfl, hrest.same .pwr rfl⟩

end Sys2Proof.Machine
end

section
/-! An entry's effect through its completion, at an acting Lead without a partner (R97, R99). -/

namespace Sys2Proof.Machine

/-! ## An entry that becomes DONE -/

theorem findEntry_onEntry_const {j : Nat} {e e' : JEntry} {s : State} (h : findEntry j s = some e) (hj : e'.jseq = j) :
    findEntry j (onEntry j (fun _ => e') s) = some e' := by
  rw [findEntry_onEntry j _ fun x => ?_, h, Option.map_some]
  exact (eq_or_ne x.jseq j).imp (fun hx => hj.trans hx.symm) id

/-- With no partner attached a RESET that is DONE is executed at once (R97). -/
theorem setDone_resetAt {j : Nat} {e : JEntry} {s : State} (h : findEntry j s = some e) (hop : e.op = 0x0803)
    (ha : attached s = false) : (setDone j s).jr.resetAt = some s.now := by
  set u := sendDone e (onEntry j (fun e => { e with state := .done, doneWait := false, applied := true }) s) with hu
  have hpair : u.pair = s.pair := (sendDone_foot ..).same .pair rfl
  have hnow : u.now = s.now := (sendDone_foot ..).same .now rfl
  have halone : attached u = false := (congrArg (·.state == .attached) hpair).trans ha
  have hreset : setDone j s = scheduleReset u := by simp [setDone, h, hop, hu]
  rw [hreset, scheduleReset]
  simp [halone, hnow]

/-! ## The effect of the next entry (R99) -/

/-- The state in which an entry's effect begins: the entry is marked as executed. -/
def effectBegun (e : JEntry) (s : State) : State := onEntry e.jseq (fun e => { e with applied := true }) s

section
variable {e : JEntry} {s : State} (h : EffectDue e s)
include h

/-- The effect of an entry that names no board. -/
theorem doCommandEffect_due {op : Half} (hop : e.op = op) (hb : brdOf op.toNat e.body = none) :
    doCommandEffect s = applyFx op.toNat e (effectBegun e s) := by
  subst hop
  have hlone : (s.pair.state == .lone) = false := by simpa using h.notLone
  simp [doCommandEffect, effect, h.isRunning, hlone, h.next, hb, h.lead, h.first, effectBegun]

theorem findEntry_effectBegun : findEntry e.jseq (effectBegun e s) = some { e with applied := true } := by
  have hmarked := findEntry_onEntry e.jseq (fun e => { e with applied := true }) (fun _ => .inl rfl) s
  rwa [h.found] at hmarked

/-! ## Its completion (R97, R100) -/

section
variable {u : State} (hj : u.jr = (effectBegun e s).jr) (hp : u.pair = s.pair)
include hj

theorem findEntry_inEffect : findEntry e.jseq u = some { e with applied := true } := by
  rw [findEntry_congr (congrArg Journal.entries hj), findEntry_effectBegun h]

include hp

/-- An effect that leaves the journal and the pair as they are completes the entry. -/
theorem finish0_doneWith (r : Word) : DoneWith e r (finish0 e.jseq r u) := by
  have hsync : u.pair.state ≠ .syncing := by rw [hp]; exact h.notSync
  have hlead : u.pair.lead = true := by rw [hp]; exact h.lead
  have halone : attached u = false := (congrArg (·.state == .attached) hp).trans h.alone
  exact ⟨_, findEntry_finish (findEntry_inEffect h hj) (by simp [h.isPending]) h.noDone hlead halone hsync, rfl, rfl, rfl, rfl⟩

/-- With no partner the entry is DONE at once. -/
theorem finish0_eq_setDone (r : Word) : finish0 e.jseq r u =
    setDone e.jseq (onEntry e.jseq (fun _ => completed { e with applied := true } r [] u) u) := by
  have hsync : (u.pair.state == .syncing) = false := by simpa [hp] using h.notSync
  have hlead : u.pair.lead = true := by rw [hp]; exact h.lead
  have halone : attached u = false := (congrArg (·.state == .attached) hp).trans h.alone
  have hstate : (e.state == .done) = false := by simp [h.isPending]
  simp [finish0, finish, findEntry_inEffect h hj, hstate, h.noDone, hlead, halone, hsync]

/-- The execution of a RESET is due as soon as it is DONE. -/
theorem finish0_resetAt (hop : e.op = 0x0803) (r : Word) : (finish0 e.jseq r u).jr.resetAt = some u.now := by
  have hdone : findEntry e.jseq (onEntry e.jseq (fun _ => completed { e with applied := true } r [] u) u) =
      some (completed { e with applied := true } r [] u) := findEntry_onEntry_const (findEntry_inEffect h hj) rfl
  have halone : attached u = false := (congrArg (·.state == .attached) hp).trans h.alone
  rw [finish0_eq_setDone h hj hp, setDone_resetAt hdone hop halone]
  rfl

/-- COMMAND_EFFECT for an opcode whose effect goes from `u` to its completion. -/
theorem commandEffect_completes {op : Half} (hop : e.op = op) (hb : brdOf op.toNat e.body = none) {r : Word}
    (hfx : applyFx op.toNat e (effectBegun e s) = finish0 e.jseq r u) {P : State → Prop} (hP : P (finish0 e.jseq r u)) :
    Runs .commandEffect s fun t => DoneWith e r t ∧ P t := by
  refine .next (t := doCommandEffect s) rfl ?_
  rw [doCommandEffect_due h hop hb, hfx]
  exact ⟨finish0_doneWith h hj hp r, hP⟩

end
end

end Sys2Proof.Machine
end

section
/-! PERMIT_SET and the other commands that set one value, and the statement about them (R80, R97, R104, R109, R142, R164). -/

namespace Sys2Proof.Machine

/-! ## Trays through permits and the end of a start (R106, R142) -/

theorem trayOf_onTray_other {t n : Nat} (h : n ≠ t) (f : Tray → Tray) (s : State) : trayOf (onTray t f s) n = trayOf s n :=
  Tab.get_mod_other _ _ _ h

theorem trayOf_congr {s u : State} (h : u.lv = s.lv) (n : Nat) : trayOf u n = trayOf s n := by rw [trayOf, h, trayOf]

/-- A tray's permit as the body of a PERMIT_SET says. -/
def setPermit (b : Bytes) (t : Nat) (s : State) : State :=
  if (fld b 0 2).testBit t then onTray t (fun x => { x with permit := (fld b 2 2).testBit t }) s else s

/-- A PERMIT_SET at one tray. -/
def permitStep (b : Bytes) (t : Nat) (s : State) : State :=
  if (fld b 0 2).testBit t then
    let p := (fld b 2 2).testBit t
    let s := onTray t (fun x => { x with permit := p }) s
    if !p then preempt t s else s
  else s

theorem fxPermitSet_eq (e : JEntry) (s : State) :
    fxPermitSet e s = finish0 e.jseq 0 ((List.range 16).foldl (fun s t => permitStep e.body t s) s) := rfl

/-- The permit is set, and a start is pre-empted as it goes. -/
theorem permitStep_eq (b : Bytes) (t : Nat) (s : State) : permitStep b t s =
    if (fld b 0 2).testBit t && !(fld b 2 2).testBit t then preempt t (setPermit b t s) else setPermit b t s := by
  unfold permitStep setPermit
  by_cases hm : (fld b 0 2).testBit t = true
  · simp [hm]
  · simp [hm]

/-- A tray with the permit that the body of a PERMIT_SET gives it. -/
def Tray.permitted (b : Bytes) (n : Nat) (x : Tray) : Tray :=
  if (fld b 0 2).testBit n then { x with permit := (fld b 2 2).testBit n } else x

section
variable (b : Bytes) (n : Nat) (x : Tray)

@[simp] theorem Tray.permitted_permitted : (x.permitted b n).permitted b n = x.permitted b n := by
  unfold Tray.permitted; split <;> rfl
@[simp] theorem Tray.permitted_startSeq : (x.permitted b n).startSeq = x.startSeq := by
  unfold Tray.permitted; split <;> rfl
@[simp] theorem Tray.permitted_startAt : (x.permitted b n).startAt = x.startAt := by
  unfold Tray.permitted; split <;> rfl
theorem Tray.permitted_permit :
    (x.permitted b n).permit = if (fld b 0 2).testBit n then (fld b 2 2).testBit n else x.permit := by
  unfold Tray.permitted; split <;> rfl

end

section
variable (b : Bytes)

theorem setPermit_tray (t n : Nat) (s : State) :
    trayOf (setPermit b t s) n = if n = t then (trayOf s n).permitted b n else trayOf s n := by
  unfold setPermit Tray.permitted
  by_cases hn : n = t
  · subst hn
    split <;> simp [trayOf_onTray_same]
  · rw [if_neg hn]
    split
    · exact trayOf_onTray_other hn ..
    · rfl

/-- It changes the trays' target state alone. -/
theorem setPermit_rest (t : Nat) (s : State) : ∃ ts, setPermit b t s = s.onLv fun l => { l with trays := ts } := by
  unfold setPermit
  split
  · exact ⟨_, rfl⟩
  · exact ⟨s.lv.trays, rfl⟩

theorem permitStep_quiet {t : Nat} {s : State} (h : (trayOf s t).startSeq = 0) : permitStep b t s = setPermit b t s := by
  have hseq : (trayOf (setPermit b t s) t).startSeq = 0 := by simpa [setPermit_tray] using h
  simp [permitStep_eq, preempt, hseq]

/-- What a PERMIT_SET does at trays none of which has a start outstanding. -/
structure PermitsSet (ts : List Nat) (s u : State) : Prop where
  tray : ∀ n, trayOf u n = if n ∈ ts then (trayOf s n).permitted b n else trayOf s n
  rest : ∃ trays, u = s.onLv fun l => { l with trays := trays }

theorem permitSteps_quiet {ts : List Nat} {s : State} (h : ∀ t ∈ ts, (trayOf s t).startSeq = 0) :
    PermitsSet b ts s (ts.foldl (fun s t => permitStep b t s) s) := by
  induction ts generalizing s with
  | nil => exact ⟨fun n => by simp, s.lv.trays, rfl⟩
  | cons t ts ih =>
    have hstart (n : Nat) : (trayOf (setPermit b t s) n).startSeq = (trayOf s n).startSeq := by
      rw [setPermit_tray]
      split <;> simp
    rw [List.foldl_cons, permitStep_quiet b (h t List.mem_cons_self)]
    obtain ⟨htray, trays, hrest⟩ := ih fun m hm => (hstart m).trans (h m (List.mem_cons_of_mem _ hm))
    obtain ⟨first, hfirst⟩ := setPermit_rest b t s
    refine ⟨fun n => ?_, trays, by rw [hrest, hfirst]; rfl⟩
    rw [htray, setPermit_tray]
    by_cases hn : n = t
    · simp [hn]
    · simp [hn]

end

/-! ## The end of a start (R106) -/

section
variable {t : Nat} {s : State} (h : (trayOf s t).startSeq ≠ 0) (r : Word)
include h

/-- The leave unit after a tray's start has ended: what becomes of the journal entry is no matter of it. -/
theorem endStart_lv : ∃ slot at_ deferred, (endStart t r s).lv =
    { s.lv with
      trays := s.lv.trays.mod {} t (fun x => { x with startSeq := 0, startAt := none })
      queue := s.lv.queue.filter fun q => !(q.start && q.tray == t)
      deferAt := deferred, slotAt := at_, slotTray := slot } := by
  have hseq : ((trayOf s t).startSeq == 0) = false := by simpa using h
  simp only [endStart, hseq, Bool.false_eq_true, if_false, finish0_lv]
  exact ⟨_, _, _, rfl⟩

end

/-- A start that is queued and not granted yet is pre-empted by its end alone. -/
theorem preempt_queued {t : Nat} {s : State} (h : (trayOf s t).startSeq ≠ 0) (hq : (trayOf s t).startAt = none) :
    preempt t s = endStart t 0xE2 s := by
  simp [preempt, h, starting, hq]

/-- A withdrawn permit at a tray whose start is queued. -/
structure StartDropped (t : Nat) (s u : State) : Prop where
  permit : (trayOf u t).permit = false
  start  : (trayOf u t).startSeq = 0
  others : ∀ n, n ≠ t → trayOf u n = trayOf s n
  queue  : u.lv.queue = s.lv.queue.filter fun q => !(q.start && q.tray == t)
  keep   : u.keep = s.keep

theorem permitStep_withdrawn {b : Bytes} {t : Nat} {s : State} (hm : (fld b 0 2).testBit t = true)
    (hv : (fld b 2 2).testBit t = false) (hs : (trayOf s t).startSeq ≠ 0) (hq : (trayOf s t).startAt = none) :
    StartDropped t s (permitStep b t s) := by
  have htray : trayOf (setPermit b t s) t = (trayOf s t).permitted b t := by rw [setPermit_tray, if_pos rfl]
  have hseq : (trayOf (setPermit b t s) t).startSeq ≠ 0 := by rwa [htray, Tray.permitted_startSeq]
  have hstep : permitStep b t s = endStart t 0xE2 (setPermit b t s) := by
    rw [← preempt_queued hseq (by rwa [htray, Tray.permitted_startAt])]
    simp [permitStep_eq, hm, hv]
  obtain ⟨slot, at_, deferred, hlv⟩ := endStart_lv hseq 0xE2
  obtain ⟨ts, hrest⟩ := setPermit_rest b t s
  have hended : trayOf (permitStep b t s) t = { (trayOf s t).permitted b t with startSeq := 0, startAt := none } := by
    rw [hstep, trayOf, hlv, Tab.get_mod_same, ← htray]
    rfl
  refine ⟨?_, ?_, fun n hn => ?_, ?_, ?_⟩
  · simp [hended, Tray.permitted_permit, hm, hv]
  · rw [hended]
  · rw [hstep, trayOf, hlv, Tab.get_mod_other _ _ _ hn]
    exact (setPermit_tray b t n s).trans (if_neg hn)
  · rw [hstep, hlv, hrest]
    rfl
  · rw [hstep, (endStart_foot ..).same .keep rfl, hrest]
    rfl

/-- A PERMIT_SET that withdraws the permit of the one tray with a start outstanding, which is queued. -/
theorem permitSteps_withdrawn {b : Bytes} {n : Nat} {ts : List Nat} {s : State} (hm : (fld b 0 2).testBit n = true)
    (hv : (fld b 2 2).testBit n = false) (hs : (trayOf s n).startSeq ≠ 0) (hq : (trayOf s n).startAt = none)
    (hnodup : ts.Nodup) (hn : n ∈ ts) (hothers : ∀ m ∈ ts, m ≠ n → (trayOf s m).startSeq = 0) :
    let u := ts.foldl (fun s t => permitStep b t s) s
    (trayOf u n).permit = false ∧ (trayOf u n).startSeq = 0 ∧
      u.lv.queue = s.lv.queue.filter (fun q => !(q.start && q.tray == n)) ∧ u.keep = s.keep := by
  obtain ⟨before, after, rfl, hbefore⟩ := List.eq_append_cons_of_mem hn
  have hafter : n ∉ after := (List.nodup_cons.mp (List.nodup_append.mp hnodup).2.1).1
  obtain ⟨htray1, _, hrest1⟩ := permitSteps_quiet b (ts := before) (s := s) fun m hmb =>
    hothers m (List.mem_append_left _ hmb) fun hmn => hbefore (hmn ▸ hmb)
  rw [List.foldl_append, List.foldl_cons]
  set s1 := before.foldl (fun s t => permitStep b t s) s
  have hn1 : trayOf s1 n = trayOf s n := (htray1 n).trans (if_neg hbefore)
  have hdrop := permitStep_withdrawn hm hv (by rwa [hn1]) (by rwa [hn1])
  set s2 := permitStep b n s1
  have hquiet2 : ∀ m ∈ after, (trayOf s2 m).startSeq = 0 := fun m hma => by
    have hmn : m ≠ n := fun hmn => hafter (hmn ▸ hma)
    have hm0 := hothers m (List.mem_append_right _ (List.mem_cons_of_mem _ hma)) hmn
    rw [hdrop.others m hmn, htray1]
    split <;> simp [hm0]
  obtain ⟨htray3, _, hrest3⟩ := permitSteps_quiet b hquiet2
  have hn3 := (htray3 n).trans (if_neg hafter)
  refine ⟨by rw [hn3, hdrop.permit], by rw [hn3, hdrop.start], ?_, ?_⟩
  · rw [hrest3, State.onLv_lv, hdrop.queue, hrest1]
    rfl
  · rw [hrest3, State.onLv_keep, hdrop.keep, hrest1]
    rfl

/-! ## PERMIT_SET (R106, R142) -/

section
variable {e : JEntry} {s : State} (h : EffectDue e s) (hop : e.op = 0x0103)
include h hop

theorem permitSet_quiet (hs : ∀ n < 16, (trayOf s n).startSeq = 0) : Runs .commandEffect s fun t => DoneWith e 0 t ∧
    ∀ n < 16, (trayOf t n).permit =
      if (fld e.body 0 2).testBit n then (fld e.body 2 2).testBit n else (trayOf s n).permit := by
  obtain ⟨htray, trays, hrest⟩ := permitSteps_quiet e.body (ts := List.range 16) (s := effectBegun e s)
    fun t ht => hs t (List.mem_range.mp ht)
  refine commandEffect_completes h (u := (List.range 16).foldl (fun s t => permitStep e.body t s) (effectBegun e s))
    (by rw [hrest]; rfl) (by rw [hrest]; rfl) hop rfl (fxPermitSet_eq ..) fun n hn => ?_
  rw [trayOf_congr (finish0_lv ..), htray, if_pos (List.mem_range.mpr hn), Tray.permitted_permit]
  rfl

theorem permitSet_withdraws {n : Nat} (hn : n < 16) (hm : (fld e.body 0 2).testBit n = true)
    (hv : (fld e.body 2 2).testBit n = false) (hs : (trayOf s n).startSeq ≠ 0) (hq : (trayOf s n).startAt = none)
    (hothers : ∀ m < 16, m ≠ n → (trayOf s m).startSeq = 0) : Runs .commandEffect s fun t =>
      (trayOf t n).permit = false ∧ (trayOf t n).startSeq = 0 ∧
      t.lv.queue.all (fun q => !(q.start && q.tray == n)) = true ∧ t.keep.ten = s.keep.ten := by
  obtain ⟨hpermit, hstart, hqueue, hkeep⟩ := permitSteps_withdrawn hm hv (s := effectBegun e s) hs hq List.nodup_range
    (List.mem_range.mpr hn) fun m hmr => hothers m (List.mem_range.mp hmr)
  have hdone : doCommandEffect s =
      finish0 e.jseq 0 ((List.range 16).foldl (fun s t => permitStep e.body t s) (effectBegun e s)) := by
    rw [doCommandEffect_due h hop rfl]
    exact fxPermitSet_eq ..
  refine .next (t := doCommandEffect s) rfl ?_
  rw [hdone, trayOf_congr (finish0_lv ..), finish0_lv, finish0_keep, hqueue, hkeep]
  exact ⟨hpermit, hstart, List.all_eq_true.mpr fun q hq => (List.mem_filter.mp hq).2, rfl⟩

end

/-! ## The commands that set one value -/

/-- Settles O30: PERMIT_SET by its lemmas, and of each other command the one update before its completion. -/
theorem settingsTakeEffect : Obligations.SettingsTakeEffect := by
  unfold Obligations.SettingsTakeEffect
  intro e s h
  refine ⟨permitSet_quiet h, fun hop => ?budget, fun hop => ?rowBudget, fun hop hpos => ?spine, fun hop => ?key,
    fun hop => ?revoke, fun hop => ?rollback, fun hop => ?reset, fun hop => ?wake,
    fun n hop hn hm hv hs hq => permitSet_withdraws h hop hn hm hv hs hq⟩
  case budget =>
    refine commandEffect_completes h (u := checkOver (((effectBegun e s).onKt fun k =>
      { k with budget := some (fld e.body 0 4) }).onLv fun l => { l with unsetRep := false }))
      ((checkOver_foot _).same .jr rfl) ((checkOver_foot _).same .pair rfl) hop rfl rfl ?_
    rw [finish0_kt, (checkOver_foot _).same .kt rfl]
    rfl
  case rowBudget =>
    refine commandEffect_completes h (u := (effectBegun e s).onKt fun k => { k with rowBudget := fld e.body 0 4 })
      rfl rfl hop rfl rfl ?_
    rw [finish0_kt]
    exact ⟨rfl, rfl⟩
  case spine =>
    refine commandEffect_completes h (u := (effectBegun e s).onKt fun k => { k with
      proofHours := if fld e.body 0 2 == 0 then k.proofHours else fld e.body 0 2,
      diverge := if fld e.body 2 1 == 0 then k.diverge else fld e.body 2 1 }) rfl rfl hop rfl rfl ?_
    rw [finish0_kt]
    exact ⟨if_neg (by simpa using hpos.ne'), rfl⟩
  case key =>
    refine commandEffect_completes h (u := (effectBegun e s).onKt fun k =>
      if fld e.body 0 1 == 0 then { k with key0 := some (digestAt e.body 8) }
      else { k with key1 := some (digestAt e.body 8) }) rfl rfl hop rfl rfl ?_
    rw [finish0_kt]
    exact ⟨fun hslot => by simp [hslot, effectBegun], fun hslot => by simp [hslot, effectBegun]⟩
  case revoke =>
    exact commandEffect_completes h (u := (effectBegun e s).onOtp (Otp.revoke (fld e.body 0 1))) rfl rfl hop rfl rfl
      (finish0_otp ..)
  case rollback =>
    exact commandEffect_completes h (u := (effectBegun e s).onOtp (Otp.raise (fld e.body 0 1))) rfl rfl hop rfl rfl
      (finish0_otp ..)
  case reset =>
    exact commandEffect_completes h (u := effectBegun e s) rfl rfl hop rfl rfl
      ⟨finish0_resetAt h rfl rfl hop 0, finish0_pwr ..⟩
  case wake =>
    refine commandEffect_completes h (u := (effectBegun e s).onKt fun k =>
      { k with wakeMask := some (BitVec.ofNat 16 (fld e.body 0 2)) }) rfl rfl hop rfl rfl ?_
    rw [finish0_kt, finish0_keep]
    exact ⟨rfl, rfl⟩

end Sys2Proof.Machine
end

section
/-! What no step takes back, the passing of time, and the frame of a record's arrival, with the statements about them (R76, R97,
R98, R99, R108, R168; logs 1 and 4). -/

namespace Sys2Proof.Machine

/-! ## One step (logs 1 and 4) -/

/-- Settles O7: time's passing and every command have a footprint, and no footprint takes one of these back. -/
theorem stepTakesNothingBack : Obligations.StepTakesNothingBack := by
  unfold Obligations.StepTakesNothingBack
  intro s t h
  unfold step at h
  split at h
  next =>
    obtain rfl : tick s = t := Host.Outcome.next.inj h
    have hfoot := tick_foot s
    exact ⟨hfoot.clock, hfoot.sent, hfoot.otp⟩
  next c rest _ =>
    obtain ⟨u, hu, hfoot⟩ := exec_foot c (s.setPending rest)
    obtain rfl : u = t := Host.Outcome.next.inj (hu.symm.trans h)
    exact ⟨hfoot.clock, hfoot.sent, hfoot.otp⟩

/-- One µs passes (log 1). -/
theorem tick_now (s : State) : (tick s).now = s.now + 1 := by
  unfold tick
  extract_lets u
  have hu : u.now = s.now + 1 := by simp [u]
  rw [apply_ite State.now, msix_now, State.onHost_now, ite_self, hu]

/-- Settles O2: the tick's footprint is the clock, the counters and the event ring with what it sends. -/
theorem emptyQueueLetsTimePass : Obligations.EmptyQueueLetsTimePass := by
  unfold Obligations.EmptyQueueLetsTimePass
  intro s h
  have hfoot := tick_foot s
  refine ⟨tick s, by simp [step, h], tick_now s, (hfoot.same .pending rfl).trans h, ?_⟩
  exact ⟨hfoot.same .keep rfl, hfoot.same .mbx rfl, hfoot.same .jr rfl, hfoot.same .drv rfl, hfoot.same .mem rfl⟩

/-! ## The arrival of a record (R98, R99) -/

/-- What the arrival of a command record can change at all. -/
theorem footOf_record (c : Instr) : (!isRecord c || subFld (footOf c) [.free, .out, .keep, .mbx, .jr, .stg, .host, .log,
    .pmc, .spn, .pair, .lv, .ket, .afe, .stw, .core]) = true := by
  cases c <;> rfl

/-- A latch that no footprint clears is still latched. -/
theorem and_eq_of_andNot {n : Nat} {a b : BitVec n} (h : a &&& ~~~b = 0#n) : b &&& a = a := by
  refine BitVec.eq_of_getLsbD_eq fun i hi => ?_
  have hbit := congrArg (fun x => x.getLsbD i) h
  simp only [BitVec.getLsbD_and, BitVec.getLsbD_not, hi, decide_true, Bool.true_and, BitVec.getLsbD_zero] at hbit
  rw [BitVec.getLsbD_and]
  cases ha : a.getLsbD i with
  | false => simp
  | true => simpa [ha] using hbit

/-- Settles O9: a record's footprint names none of these parts, and clears no trip latch. -/
theorem recordArrivalFrame : Obligations.RecordArrivalFrame := by
  unfold Obligations.RecordArrivalFrame
  intro c s t hc h
  obtain ⟨u, hu, hexec⟩ := exec_foot c s
  obtain rfl : u = t := Host.Outcome.next.inj (hu.symm.trans h)
  have hfoot := hexec.mono (by simpa [hc] using footOf_record c)
  exact ⟨hfoot.same .now rfl, hfoot.same .kt rfl, hfoot.same .ten rfl, and_eq_of_andNot (hfoot.same .tripFall rfl),
    hfoot.same .route rfl, hfoot.same .otp rfl, hfoot.same .pwr rfl, hfoot.same .boot rfl, hfoot.same .cat rfl,
    hfoot.same .drv rfl, hfoot.same .can rfl, hfoot.same .qre rfl, hfoot.same .mem rfl, hfoot.same .ep rfl,
    hfoot.same .pln rfl⟩

end Sys2Proof.Machine
end

section
/-! A record from its arrival to the judgement of R98: what copying it out leaves, the answers that journal nothing, and the
statements about refused records, copies and CATCH_STORE_FAULT (R85, R98, R100, R105). -/

namespace Sys2Proof.Machine

/-! ## Catchwords (R11) -/

section
variable (src : Half) (seq : BitVec 48)

theorem mkCw_toNat : (mkCw src.toNat seq.toNat).toNat = src.toNat * 2 ^ 48 + seq.toNat := by
  have hsrc := src.isLt
  have hseq := seq.isLt
  simp only [mkCw, BitVec.toNat_ofNat]
  omega

@[simp] theorem cwSrc_mkCw : cwSrc (mkCw src.toNat seq.toNat) = src.toNat := by
  have hseq := seq.isLt
  rw [cwSrc, mkCw_toNat]
  omega

@[simp] theorem cwSeq_mkCw : cwSeq (mkCw src.toNat seq.toNat) = seq.toNat := by
  have hseq := seq.isLt
  rw [cwSeq, mkCw_toNat]
  omega

end

/-! ## A record copied out (R85) -/

/-- A record reaches a mailbox of a running board that is idle and owes no response; the mailbox may be closed. -/
structure Reaches (h : Hdr) (s : State) : Prop where
  isRunning : running s = true
  box       : h.mbx.val ≠ 6
  sound     : h.mbx.val = 7 → h.sound = true
  idle      : (mbxOf s h.mbx.val).busy = false
  room      : (mbxOf s h.mbx.val).waiting = []

theorem Arrives.reaches {op : Half} {h : Hdr} {body : Bytes} {s : State} (a : Arrives op h body s) : Reaches h s :=
  ⟨running_of_isOpenBox a.isOpen, a.box, a.sound, a.idle, a.room⟩

/-- The state in which a record that a mailbox took is judged. -/
def copiedOut (m : Nat) (r : Rec) (s : State) : State :=
  clearBusy m (countRise (0x2A0 + m) (count (0x290 + m)
    (onBox m (fun b => { b with window := b.window.writeN 0 ((recBytes r).take 4096) }) s)))

theorem copiedOut_copied (m : Nat) (r : Rec) (s : State) : Copied m s (copiedOut m r s) := by
  obtain ⟨p1, h1⟩ := count_eq (0x290 + m) (onBox m (fun b => { b with window := b.window.writeN 0 ((recBytes r).take 4096) }) s)
  obtain ⟨p2, h2⟩ := countRise_eq (0x2A0 + m) (count (0x290 + m)
    (onBox m (fun b => { b with window := b.window.writeN 0 ((recBytes r).take 4096) }) s))
  obtain ⟨⟨hst, o, p, ms, heq⟩, hidle, hroom⟩ := clearBusy_copied m (countRise (0x2A0 + m) (count (0x290 + m)
    (onBox m (fun b => { b with window := b.window.writeN 0 ((recBytes r).take 4096) }) s)))
  refine ⟨⟨hst, o, p, ms, ?_⟩, hidle, hroom.trans ?_⟩
  · rw [copiedOut, heq, h2, h1]
    rfl
  · simp

theorem add_gen (i n : Nat) (c : Counters) : (c.add i n).gen = c.gen := by
  unfold Counters.add
  split <;> rfl

theorem addBy_gen (f : Nat → Nat → Bool → Nat) (c : Counters) : (c.addBy f).gen = c.gen :=
  List.foldlRecOn (motive := fun d : Counters => d.gen = c.gen) _ _ rfl fun _ hd _ _ => by
    split
    · exact (add_gen ..).trans hd
    · exact hd

theorem count_gen (ev : Nat) (s : State) : (count ev s).pmc.gen = s.pmc.gen := by
  unfold count countN
  split
  · exact addBy_gen ..
  · rfl

theorem countRise_gen (ev : Nat) (s : State) : (countRise ev s).pmc.gen = s.pmc.gen := by
  unfold countRise
  split
  · exact addBy_gen ..
  · rfl

/-- The generation of the counters' configuration is not what an arrival counts. -/
theorem copiedOut_gen (m : Nat) (r : Rec) (s : State) : (copiedOut m r s).pmc.gen = s.pmc.gen := by
  have hclear (u : State) : (clearBusy m u).pmc = u.pmc := by
    unfold clearBusy
    dsimp only
    split <;> simp [onBox]
  rw [copiedOut, hclear, countRise_gen, count_gen]
  rfl

/-- Such a record is judged at once. -/
theorem arrive_reaches {h : Hdr} {s : State} (a : Reaches h s) (op : Half) (body : Bytes) : arrive op h body s =
    receive h.mbx.val h.jok (rowRec op h body) (copiedOut h.mbx.val (rowRec op h body) s) := by
  have hbox : (h.mbx.val == 6) = false := by simpa using a.box
  have hsound : (h.mbx.val == 7 && !h.sound) = false := by
    by_cases h7 : h.mbx.val = 7
    · simp [a.sound h7]
    · simp [h7]
  simp only [arrive, a.isRunning, hbox, hsound, a.idle, Bool.not_true, Bool.or_self, Bool.false_and, Bool.false_eq_true,
    if_false, copiedOut]
  generalize hv : countRise (0x2A0 + h.mbx.val) (count (0x290 + h.mbx.val) (onBox h.mbx.val
      (fun b => { b with window := b.window.writeN 0 ((recBytes (rowRec op h body)).take 4096) }) s)) = v
  have hroom : (mbxOf v h.mbx.val).waiting = [] := by simp [← hv, a.room]
  have hfit : waitsForRoom h.mbx.val v = false := by rw [waitsForRoom, writeAll_none hroom, hroom]; rfl
  rw [hfit, writeAll_none hroom]
  rfl

/-- A command record runs as the arrival of its record. -/
theorem exec_record {c : Instr} {op : Half} {h : Hdr} {body : Bytes} (hc : recordOf c = some (op, h, body)) (s : State) :
    exec c s = .next (arrive op h body s) := by
  cases c <;> cases hc <;> rfl

theorem arrive_runs {c : Instr} {op : Half} {h : Hdr} {body : Bytes} (hc : recordOf c = some (op, h, body)) {s : State}
    (a : Reaches h s) {P : State → Prop}
    (hP : P (receive h.mbx.val h.jok (rowRec op h body) (copiedOut h.mbx.val (rowRec op h body) s))) : Runs c s P :=
  .next (exec_record hc s) (by rwa [arrive_reaches a])

/-! ## Answers that wait in a mailbox (R85, R91) -/

/-- A response of a mailbox that serves no agents waits as its last. -/
theorem mbxOf_respond {m : Nat} (hm : m ≠ 6) (r : Resp) (s : State) :
    mbxOf (respond m r s) m = { mbxOf s m with waiting := (mbxOf s m).waiting ++ [r] } := by
  have hbox : (m == 6) = false := by simpa using hm
  simp only [respond, hbox, Bool.false_eq_true, if_false]
  exact mbxOf_onBox ..

theorem mbxOf_answer {m : Nat} (hm : m ≠ 6) (r : Rec) (st : Byte) (ref d : Nat) (s : State) :
    mbxOf (answer m r st ref d s) m = { mbxOf s m with
      waiting := (mbxOf s m).waiting ++ [{ status := st, op := r.op, cw := r.cw, ref := ref, detail := d }] } := by
  rw [answer, mbxOf_respond hm, mbxOf_count]

@[simp] theorem mbxOf_record (code : Half) (sev : Nat) (data : List Nat) (cw : DWord) (s : State) (m : Nat) :
    mbxOf (record code sev data cw s) m = mbxOf s m := mbxOf_congr (record_mbx ..) m
@[simp] theorem mbxOf_event (code : Half) (sev : Nat) (data : List Nat) (cw : DWord) (ref : Nat) (s : State) (m : Nat) :
    mbxOf (event code sev data cw ref s) m = mbxOf s m := mbxOf_congr (event_mbx ..) m
@[simp] theorem mbxOf_onJr (f : Journal → Journal) (s : State) (m : Nat) : mbxOf (s.onJr f) m = mbxOf s m := rfl
@[simp] theorem mbxOf_denied (src : Nat) (s : State) (m : Nat) : mbxOf (denied src s) m = mbxOf s m :=
  mbxOf_congr ((denied_foot ..).same .mbx rfl) m

/-- A DENIED_AUTH answer touches of the journal the count of such answers and the lockouts alone (R104). -/
theorem denied_jr (src : Nat) (s : State) :
    ∃ dn lk, (denied src s).jr = { s.jr with denied := dn, lockout := lk } := by
  unfold denied
  extract_lets now u
  split
  · exact ⟨_, _, record_jr ..⟩
  · exact ⟨_, _, rfl⟩

/-- A record turned away: nothing is journaled, and one answer waits. -/
structure TurnedAway (m : Nat) (st : Byte) (d : Nat) (s t : State) : Prop where
  entries : t.jr.entries = s.jr.entries
  jseq    : t.jr.jseq = s.jr.jseq
  high    : t.jr.high = s.jr.high
  waiting : ∃ r, (mbxOf t m).waiting = [r] ∧ r.status = st ∧ r.detail = d

section
variable {m : Nat} (hm : m ≠ 6) (r : Rec) {s u : State} (hj : u.jr = s.jr) (hw : (mbxOf u m).waiting = [])
include hm hj hw

theorem answerInvalid_turnsAway (o : Nat) : TurnedAway m 0x14 o s (answerInvalid m r o u) :=
  ⟨by simp [hj], by simp [hj], by simp [hj], _, by rw [mbxOf_answerInvalid hm, hw, List.nil_append], rfl, rfl⟩

theorem answerDenied_turnsAway (cause : Nat) : TurnedAway m 0x13 cause s (answerDenied m r cause u) := by
  obtain ⟨dn, lk, hden⟩ := denied_jr (cwSrc r.cw) (record 0x0F14 2 [cwSrc r.cw, r.op.toNat, cause] r.cw u)
  rw [record_jr, hj] at hden
  have hwaits := congrArg Mailbox.waiting
    (mbxOf_answer hm r 0x13 0 cause (denied (cwSrc r.cw) (record 0x0F14 2 [cwSrc r.cw, r.op.toNat, cause] r.cw u)))
  rw [mbxOf_denied, mbxOf_record, hw, List.nil_append] at hwaits
  have hjr : (answerDenied m r cause u).jr = { s.jr with denied := dn, lockout := lk } := (answer_jr ..).trans hden
  exact ⟨by rw [hjr], by rw [hjr], by rw [hjr], _, hwaits, rfl, rfl⟩

end

/-! ## The judgement of R98 -/

section
variable {m : Nat} {jok : Bool} {op : Half} {h : Hdr} {body : Bytes} {s u : State}

/-- A closed mailbox turns a record away (R132). -/
theorem receive_closed (hm : m ≠ 6) (r : Rec) (ho : isOpenBox u = false) : receive m jok r u = answerInvalid m r 0 u := by
  simp [receive, ho, hm]

/-- A source that is none of the mailbox's (step 1). -/
theorem receive_badSource {r : Rec} (ho : isOpenBox u = true) (hv : srcValid m (cwSrc r.cw) = false) :
    receive m jok r u = answerInvalid m r 8 u := by
  simp [receive, ho, hv]

theorem Copied.jr_eq (hu : Copied m s u) : u.jr = s.jr := by
  obtain ⟨_, _, _, _, rfl⟩ := hu.eq
  rfl

theorem Copied.pair_eq (hu : Copied m s u) : u.pair = s.pair := by
  obtain ⟨_, _, _, _, rfl⟩ := hu.eq
  rfl

theorem Copied.now_eq (hu : Copied m s u) : u.now = s.now := by
  obtain ⟨_, _, _, _, rfl⟩ := hu.eq
  rfl

theorem Copied.isOpenBox_eq (hu : Copied m s u) : isOpenBox u = isOpenBox s := by
  obtain ⟨_, _, _, _, rfl⟩ := hu.eq
  rfl

variable (hu : Copied h.mbx.val s u)
include hu

/-- A journaled record goes on to step 4. -/
theorem receive_journaled {i : OpInfo} {k : Option Bool} (a : Arrives op h body s) (hi : opInfo op.toNat = some i)
    (hk : i.cls = .j k) : receive h.mbx.val jok (rowRec op h body) u = judge h.mbx.val jok i (rowRec op h body) u := by
  have hopen : isOpenBox u = true := hu.isOpenBox_eq.trans a.isOpen
  have hop : (rowRec op h body).op = op := rfl
  simp [receive, hopen, a.src, a.header, hop, hi, hk]

end

/-! ## Steps 4 to 8 (R98): what they look at is no part of what copying out changes -/

section
variable {m : Nat} {s u : State} (hu : Copied m s u)
include hu

theorem Copied.findCw_eq (cw : DWord) : findCw cw u = findCw cw s := by rw [findCw, findCw, hu.jr_eq]
theorem Copied.authCause_eq (i : OpInfo) (r : Rec) : authCause i r u = authCause i r s := by
  obtain ⟨_, _, _, _, rfl⟩ := hu.eq
  rfl
theorem Copied.badBody_eq (op : Nat) (b : Bytes) : badBody op u b = badBody op s b := by
  obtain ⟨_, _, _, _, rfl⟩ := hu.eq
  rfl
theorem Copied.refusal_eq (r : Rec) : refusal r u = refusal r s := by
  obtain ⟨_, _, _, _, rfl⟩ := hu.eq
  rfl
theorem Copied.newEntry_eq (n : Nat) (r : Rec) : newEntry n r u = newEntry n r s := by
  obtain ⟨_, _, _, _, rfl⟩ := hu.eq
  rfl

end

section
variable {m : Nat} {jok : Bool} {i : OpInfo} {r : Rec} {u : State} (hf : findCw r.cw u = none)
include hf

/-- A sequence that is 0, or not above the source's highest (R100). -/
theorem judge_stale (hs : cwSeq r.cw = 0 ∨ cwSeq r.cw ≤ (u.jr.high.get {} (cwSrc r.cw)).seq) :
    judge m jok i r u = answerInvalid m r 8 u := by
  simp [judge, hf, hs]

variable (hs : (u.jr.high.get {} (cwSrc r.cw)).seq < cwSeq r.cw)
include hs

/-- Step 5 (R104). -/
theorem judge_denied {c : Nat} (ha : authCause i r u = some c) : judge m jok i r u = answerDenied m r c u := by
  simp [judge, hf, Nat.not_le.mpr hs, Nat.ne_of_gt (Nat.zero_lt_of_lt hs), ha]

variable (ha : authCause i r u = none)
include ha

/-- Step 6. -/
theorem judge_badBody {o : Nat} (hb : minBad (badBody r.op.toNat u r.body) (badTail r.op.toNat i.body r.body) = some o) :
    judge m jok i r u = answerInvalid m r (32 + o) u := by
  simp [judge, hf, Nat.not_le.mpr hs, Nat.ne_of_gt (Nat.zero_lt_of_lt hs), ha, hb]

theorem judge_enters (hb : minBad (badBody r.op.toNat u r.body) (badTail r.op.toNat i.body r.body) = none) :
    judge m jok i r u = enter m jok r u := by
  simp [judge, hf, Nat.not_le.mpr hs, Nat.ne_of_gt (Nat.zero_lt_of_lt hs), ha, hb]

end

/-- A record that passes steps 1 to 8 comes to the journal's write (R98, R105). -/
theorem receive_passes {op : Half} {h : Hdr} {body : Bytes} {s u : State} {i : OpInfo} {k : Option Bool}
    (p : JournalPasses op h body s i k) (hu : Copied h.mbx.val s u) (jok : Bool) :
    receive h.mbx.val jok (rowRec op h body) u =
      if s.jr.fault then answerFault h.mbx.val (rowRec op h body) 2 u
      else if !jok then writeFailed h.mbx.val (rowRec op h body) u
      else journal h.mbx.val (rowRec op h body) u := by
  have hop : (rowRec op h body).op = op := rfl
  have hfree : refusal (rowRec op h body) u = none := (hu.refusal_eq _).trans p.free
  have hfew : ¬ 64 ≤ openOf (cwSrc (rowRec op h body).cw) u := by
    rw [openOf, hu.jr_eq]
    exact Nat.not_le.mpr p.few
  have htotal : ¬ 512 ≤ openAll u := by
    rw [openAll, hu.jr_eq]
    exact Nat.not_le.mpr p.total
  rw [receive_journaled hu p.here p.info p.cls, judge_enters ((hu.findCw_eq _).trans p.fresh)
    (by rw [hu.jr_eq]; exact p.above) ((hu.authCause_eq ..).trans p.auth) (by rw [hop, hu.badBody_eq]; exact p.fits)]
  simp [enter, hfew, htotal, hfree, hu.jr_eq]

end Sys2Proof.Machine
end

section
/-! Records turned away, copies of an accepted record, CATCH_STORE_FAULT, and accepted records, with the statements about them
(R98, R100, R102, R105). -/

namespace Sys2Proof.Machine

/-! ## Records turned away (R98) -/

section
variable {m : Nat} {jok : Bool} {r : Rec} {e : JEntry} (hd : recDigest r = e.digest) (s : State)
include hd

theorem duplicate_done (he : e.state = .done) : duplicate m jok r e s =
    respond m { status := 0x02, op := r.op, cw := r.cw, ref := e.jseq % ownSeq, result := e.result, data := e.rdata }
      (count 0x2A9 (onEntry e.jseq (fun e => { e with mbx := m }) s)) := by
  simp [duplicate, hd, he]

theorem duplicate_pending (he : e.state = .pending) : duplicate m jok r e s =
    respond m { status := 0x02, op := e.op, cw := e.cw, ref := e.jseq % ownSeq, pending := true, final := false }
      (count 0x2A9 (onEntry e.jseq (fun e => { e with mbx := m }) s)) := by
  simp [duplicate, hd, he, dupPending]

theorem duplicate_tentative (he : e.state = .tentative) : duplicate m jok r e s =
    s.onJr fun q => { q with dups := q.dups ++ [{ jseq := e.jseq, mbx := m, jok := jok, record := r }] } := by
  simp [duplicate, hd, he]

end

/-- A DUPLICATE answer leaves the journal but for the mailbox of its entry's latest arrival (R100). -/
theorem duplicateAnswer {m : Nat} (hm : m ≠ 6) (j : Nat) (r : Resp) {s u : State} (hj : u.jr = s.jr)
    (hw : (mbxOf u m).waiting = []) :
    let t := respond m r (count 0x2A9 (onEntry j (fun e => { e with mbx := m }) u))
    t.jr.jseq = s.jr.jseq ∧ t.jr.entries.length = s.jr.entries.length ∧ (mbxOf t m).waiting = [r] := by
  have hbox : mbxOf (onEntry j (fun e => { e with mbx := m }) u) m = mbxOf u m := rfl
  refine ⟨by simp [onEntry, hj], by simp [onEntry, hj], ?_⟩
  rw [mbxOf_respond hm, mbxOf_count, hbox, hw, List.nil_append]

/-- Settles O27: each step that turns a record away by its lemma, and each state of a copied entry by `duplicate`. -/
theorem refusedAndDuplicateRecordsAdmitNothing : Obligations.RefusedAndDuplicateRecordsAdmitNothing := by
  unfold Obligations.RefusedAndDuplicateRecordsAdmitNothing
  refine ⟨?refused, ?copy⟩
  case refused =>
    intro c op h body s hc hr hm hsound hidle hroom st d hcase
    have hreach : Reaches h s := ⟨hr, hm, hsound, hidle, hroom⟩
    refine arrive_runs hc hreach ?_
    have hu := copiedOut_copied h.mbx.val (rowRec op h body) s
    generalize copiedOut h.mbx.val (rowRec op h body) s = u at hu
    have hw : (mbxOf u h.mbx.val).waiting = [] := hu.room.trans hroom
    suffices hturned : TurnedAway h.mbx.val st d s (receive h.mbx.val h.jok (rowRec op h body) u) from
      ⟨hturned.entries, hturned.jseq, hturned.high, hturned.waiting⟩
    have hinvalid := answerInvalid_turnsAway hm (rowRec op h body) hu.jr_eq hw
    rcases hcase with ⟨ho, rfl, rfl⟩ | ⟨ho, hv, rfl, rfl⟩ | ⟨ho, hv, hh, rfl⟩ | ⟨a, i, k, hi, hk, hf, hjudged⟩
    · rw [receive_closed hm _ (hu.isOpenBox_eq.trans ho)]
      exact hinvalid 0
    · rw [receive_badSource (hu.isOpenBox_eq.trans ho) hv]
      exact hinvalid 8
    · rw [receive_badHeader h.jok (hu.isOpenBox_eq.trans ho) hv hh]
      exact hinvalid d
    · have hfu := (hu.findCw_eq _).trans hf
      rw [receive_journaled hu a hi hk]
      rcases hjudged with ⟨hs, rfl, rfl⟩ | ⟨hs, ⟨ha, rfl⟩ | ⟨ha, rfl, o, hb, rfl⟩⟩
      · rw [judge_stale hfu (by rwa [hu.jr_eq])]
        exact hinvalid 8
      · rw [judge_denied hfu (by rwa [hu.jr_eq]) ((hu.authCause_eq ..).trans ha)]
        exact answerDenied_turnsAway hm _ hu.jr_eq hw d
      · rw [judge_badBody hfu (by rwa [hu.jr_eq]) ((hu.authCause_eq ..).trans ha) (by rw [hu.badBody_eq]; exact hb)]
        exact hinvalid (32 + o)
  case copy =>
    intro c op h body s i k e hc a hi hk hf hd
    have hu := copiedOut_copied h.mbx.val (rowRec op h body) s
    have hw : (mbxOf (copiedOut h.mbx.val (rowRec op h body) s) h.mbx.val).waiting = [] := hu.room.trans a.room
    have hruns {P : State → Prop} (hP : P (duplicate h.mbx.val h.jok (rowRec op h body) e
        (copiedOut h.mbx.val (rowRec op h body) s))) : Runs c s P := by
      refine arrive_runs hc a.reaches ?_
      rwa [receive_journaled hu a hi hk, judge, hu.findCw_eq, hf]
    refine ⟨fun he => hruns ?_, fun he => hruns ?_, fun he => hruns ?_⟩
    · rw [duplicate_done hd _ he]
      obtain ⟨hjseq, hlen, hwaits⟩ := duplicateAnswer a.box e.jseq _ hu.jr_eq hw
      exact ⟨hjseq, hlen, _, hwaits, rfl, rfl, rfl, rfl⟩
    · rw [duplicate_pending hd _ he]
      obtain ⟨hjseq, hlen, hwaits⟩ := duplicateAnswer a.box e.jseq _ hu.jr_eq hw
      exact ⟨hjseq, hlen, _, hwaits, rfl, rfl⟩
    · rw [duplicate_tentative hd _ he]
      exact ⟨by simp [hu.jr_eq], hw, _, List.mem_append_right _ List.mem_cons_self, rfl, rfl⟩

/-! ## CATCH_STORE_FAULT (R105) -/

theorem mbxOf_answerFault {m : Nat} (hm : m ≠ 6) (r : Rec) (cause : Nat) (s : State) :
    mbxOf (answerFault m r cause s) m = { mbxOf s m with
      waiting := (mbxOf s m).waiting ++ [{ status := 0x15, op := r.op, cw := r.cw, ref := 0, detail := cause }] } := by
  rw [answerFault, mbxOf_answer hm, mbxOf_record]

@[simp] theorem answerFault_jr (m : Nat) (r : Rec) (cause : Nat) (s : State) : (answerFault m r cause s).jr = s.jr := by
  simp [answerFault]

/-- A failed write is counted, and from the third in a row on the state is CATCH_STORE_FAULT. -/
theorem writeFailed_jr (m : Nat) (r : Rec) (s : State) : (writeFailed m r s).jr =
    { s.jr with fails := s.jr.fails + 1, fault := s.jr.fault || decide (2 ≤ s.jr.fails) } := by
  unfold writeFailed
  by_cases h : 2 ≤ s.jr.fails
  · have h3 : ¬ s.jr.fails + 1 < 3 := by omega
    simp [h, h3]
  · have h3 : s.jr.fails + 1 < 3 := by omega
    simp [h, h3]

theorem mbxOf_writeFailed {m : Nat} (hm : m ≠ 6) (r : Rec) (s : State) : mbxOf (writeFailed m r s) m =
    { mbxOf s m with waiting := (mbxOf s m).waiting ++ [{ status := 0x15, op := r.op, cw := r.cw, ref := 0, detail := 3 }] } := by
  have hanswer := mbxOf_answerFault hm r 3 (s.onJr fun q => { q with fails := q.fails + 1 })
  unfold writeFailed
  dsimp only
  split
  · exact hanswer
  · exact (mbxOf_event ..).trans hanswer

/-- The commands that can end CATCH_STORE_FAULT. -/
theorem footOf_storeFault (c : Instr) :
    (footOf c).contains .storeFault = false ∨ ∃ straps ok, c = .bindResetRelease straps ok := by
  cases c
  case bindResetRelease straps ok => exact .inr ⟨straps, ok, rfl⟩
  all_goals exact .inl rfl

@[simp] theorem linkL0_jr (s : State) : (linkL0 s).jr = s.jr := (linkL0_foot s).same .jr rfl

/-- A BIND reset release whose write test fails leaves it. -/
theorem doBindResetRelease_fault (straps : Straps) (s : State) :
    (doBindResetRelease straps false s).jr.fault = s.jr.fault := by
  by_cases h : s.pwr.bind = .reset ∧ s.pwr.xin = true ∧ s.pwr.fclkPll = true
  · obtain ⟨hb, hx, hf⟩ := h
    have hreleased : (bindReleased straps false s).jr.fault = s.jr.fault := by
      simp [bindReleased, apply_ite State.jr]
    rw [doBindResetRelease_eq hb hx hf, ← hreleased]
    simp [apply_ite State.jr]
  · have hidle : doBindResetRelease straps false s = s := by
      simp only [doBindResetRelease]
      rw [if_pos (by simpa [or_assoc, imp_iff_not_or] using h)]
    rw [hidle]

/-- Settles O28: the write of a record that passes, and of every other command its footprint. -/
theorem catchStoreFault : Obligations.CatchStoreFault := by
  unfold Obligations.CatchStoreFault
  refine ⟨?refused, ?failed, ?leaves⟩
  case refused =>
    intro c op h body s i k hc p hfault
    have hu := copiedOut_copied h.mbx.val (rowRec op h body) s
    refine arrive_runs hc p.here.reaches ?_
    rw [receive_passes p hu, if_pos hfault, answerFault_jr, mbxOf_answerFault p.here.box, hu.room, p.here.room, hu.jr_eq]
    exact ⟨rfl, hfault, rfl⟩
  case failed =>
    intro c op h body s i k hc p hfault hjok
    have hu := copiedOut_copied h.mbx.val (rowRec op h body) s
    refine arrive_runs hc p.here.reaches ?_
    rw [receive_passes p hu, hjok, hfault, if_neg Bool.false_ne_true, Bool.not_false, if_pos rfl, writeFailed_jr,
      mbxOf_writeFailed p.here.box, hu.room, p.here.room, hu.jr_eq]
    exact ⟨rfl, rfl, by simp [hfault], rfl⟩
  case leaves =>
    intro c s t hfault hexec
    obtain ⟨u, hu, hfoot⟩ := exec_foot c s
    obtain rfl : u = t := Host.Outcome.next.inj (hu.symm.trans hexec)
    rcases footOf_storeFault c with hc | ⟨straps, ok, rfl⟩
    · exact .inl (hfoot.same .storeFault hc hfault)
    · cases ok with
      | true => exact .inr ⟨straps, rfl⟩
      | false =>
        obtain rfl : doBindResetRelease straps false s = u := Host.Outcome.next.inj hexec
        exact .inl ((doBindResetRelease_fault straps s).trans hfault)

/-! ## The journal's write (R98 steps 9 and 10, R102) -/

@[simp] theorem Tab.find_set_same {α : Type} (t : Tab α) (k : Nat) (v : α) : (t.set k v).find k = some v := by
  induction t with
  | nil => simp [Tab.set, Tab.find]
  | cons p t ih =>
    obtain ⟨j, w⟩ := p
    by_cases h : k = j
    · simp [Tab.set, Tab.find, h]
    · by_cases h2 : k < j
      · simp [Tab.set, Tab.find, h, h2]
      · simp [Tab.set, Tab.find, h, h2, Ne.symm h, ih]

/-- ACCEPTED raises the high mark, and can spend the nonce. -/
theorem accepted_jr (e : JEntry) (s : State) : ∃ ns, (accepted e s).jr = { s.jr with high := s.jr.raise e, nonces := ns } := by
  unfold accepted
  extract_lets src u v w
  have hv : ∃ ns, v.jr = { s.jr with high := s.jr.raise e, nonces := ns } := by
    unfold v
    split
    · exact ⟨_, rfl⟩
    · exact ⟨_, rfl⟩
  have hw : w.jr = v.jr := by
    unfold w
    split
    · simp
    · rfl
  rwa [respond_jr, count_jr, hw]

theorem mbxOf_accepted {e : JEntry} (hm : e.mbx ≠ 6) (s : State) : mbxOf (accepted e s) e.mbx = { mbxOf s e.mbx with
    waiting := (mbxOf s e.mbx).waiting ++
      [{ status := 0x00, op := e.op, cw := e.cw, ref := e.jseq % ownSeq, final := false }] } := by
  unfold accepted
  extract_lets src u v w
  have hw : mbxOf w e.mbx = mbxOf s e.mbx := by
    refine mbxOf_congr ?_ _
    simp [w, v, u, apply_ite State.mbx, spendNonce]
  rw [mbxOf_respond hm, mbxOf_count, hw]

theorem mirror_jr (e : JEntry) (s : State) :
    (mirror e s).jr = { s.jr with sentAt := s.jr.sentAt.set e.jseq s.now } := by
  unfold mirror
  dsimp only
  split <;> simp

/-- The journal with a new entry written. -/
def Journal.enter (q : Journal) (e : JEntry) : Journal :=
  { q with entries := makeRoom q.entries ++ [e], fails := 0, jseq := if e.jseq < ownSeq then e.jseq else q.jseq }

section
variable (m : Nat) (r : Rec) {s : State}

/-- With no partner attached, and none that re-synchronises, the entry is PENDING and accepted at once. -/
theorem journal_alone (ha : attached s = false) (hy : s.pair.state ≠ .syncing) : journal m r s =
    accepted { newEntry m r s with state := .pending }
      (count 0x2B0 (s.onJr fun q => q.enter { newEntry m r s with state := .pending })) := by
  have hsync : (s.pair.state == .syncing) = false := by simpa using hy
  simp [journal, ha, hsync, Journal.enter]

/-- With the partner attached it is TENTATIVE, and mirrored after the object that it names (R102). -/
theorem journal_attached (ha : attached s = true) (hl : s.pair.lead = true) : ∃ u,
    journal m r s = mirror { newEntry m r s with state := .tentative } u ∧
    u.jr = s.jr.enter { newEntry m r s with state := .tentative } ∧ u.now = s.now ∧ u.mbx = s.mbx := by
  simp only [journal, ha, hl, Bool.and_self, if_true, beq_self_eq_true]
  refine ⟨_, rfl, ?_, ?_, ?_⟩
  all_goals
    split
    · split <;> simp [Journal.enter]
    · simp [Journal.enter]

end

/-- An acting Lead's new entry has the next JSEQ. -/
theorem newEntry_jseq (m : Nat) (r : Rec) {s : State} (hl : s.pair.lead = true) : (newEntry m r s).jseq = s.jr.jseq + 1 := by
  simp [newEntry, hl]

/-- A sequence above the source's highest becomes its high mark (R100). -/
theorem raise_above {q : Journal} {e : JEntry} (h : (q.high.get {} (cwSrc e.cw)).seq < cwSeq e.cw) :
    q.raise e = q.high.set (cwSrc e.cw) { seq := cwSeq e.cw, jseq := e.jseq % ownSeq } := if_pos h

/-- Settles O25: the record comes to `journal_alone`, whose entry `accepted` answers. -/
theorem journaledCommandsAreAccepted : Obligations.JournaledCommandsAreAccepted := by
  unfold Obligations.JournaledCommandsAreAccepted
  intro c op h body s i k hc p hfault hjok hlead halone hsync hseq
  have hu := copiedOut_copied h.mbx.val (rowRec op h body) s
  refine arrive_runs hc p.here.reaches ?_
  rw [receive_passes p hu, hfault, hjok]
  generalize copiedOut h.mbx.val (rowRec op h body) s = u at hu
  have hwrite := journal_alone h.mbx.val (rowRec op h body) (s := u) (by rw [attached, hu.pair_eq]; exact halone)
    (by rwa [hu.pair_eq])
  rw [hu.newEntry_eq] at hwrite
  generalize he : ({ newEntry h.mbx.val (rowRec op h body) s with state := .pending } : JEntry) = e at hwrite ⊢
  have hj : e.jseq = s.jr.jseq + 1 := by rw [← he]; exact newEntry_jseq h.mbx.val (rowRec op h body) hlead
  have hbox : e.mbx = h.mbx.val := by rw [← he]; rfl
  have hop : e.op = op := by rw [← he]; rfl
  have hcw : e.cw = mkCw h.src.toNat h.seq.toNat := by rw [← he]; rfl
  have hjr : (count 0x2B0 (u.onJr fun q => q.enter e)).jr = s.jr.enter e := by simp [hu.jr_eq]
  have hhigh := raise_above (q := s.jr.enter e) (e := e) (by rw [hcw]; exact p.above)
  obtain ⟨ns, haccepted⟩ := accepted_jr e (count 0x2B0 (u.onJr fun q => q.enter e))
  have hanswer := mbxOf_accepted (e := e) (by rw [hbox]; exact p.here.box) (count 0x2B0 (u.onJr fun q => q.enter e))
  rw [hbox, mbxOf_count, mbxOf_onJr, hu.room, p.here.room, hj, hop, hcw, Nat.mod_eq_of_lt hseq] at hanswer
  rw [hjr, hhigh, hj, hcw, cwSrc_mkCw, cwSeq_mkCw, Nat.mod_eq_of_lt hseq] at haccepted
  simp only [Bool.not_true, Bool.false_eq_true, if_false, hwrite, haccepted, hanswer]
  exact ⟨rfl, by simp [Journal.enter, hj, hseq], rfl, Tab.find_set_same .., rfl, hu.idle⟩

/-- Settles O26: the record comes to `journal_attached`, and nothing is answered before the mirror's acknowledgement. -/
theorem attachedLeadMirrorsFirst : Obligations.AttachedLeadMirrorsFirst := by
  unfold Obligations.AttachedLeadMirrorsFirst
  intro c op h body s i k hc p hfault hjok hlead hattached hseq
  have hu := copiedOut_copied h.mbx.val (rowRec op h body) s
  refine arrive_runs hc p.here.reaches ?_
  rw [receive_passes p hu, hfault, hjok]
  generalize copiedOut h.mbx.val (rowRec op h body) s = u at hu
  obtain ⟨v, hwrite, hjr, hvnow, hmbx⟩ := journal_attached h.mbx.val (rowRec op h body)
    (s := u) (by rw [attached, hu.pair_eq]; exact hattached) (by rw [hu.pair_eq]; exact hlead)
  rw [hu.newEntry_eq] at hwrite hjr
  generalize he : ({ newEntry h.mbx.val (rowRec op h body) s with state := .tentative } : JEntry) = e at hwrite hjr ⊢
  have hj : e.jseq = s.jr.jseq + 1 := by rw [← he]; exact newEntry_jseq h.mbx.val (rowRec op h body) hlead
  have hmirror := mirror_jr e v
  rw [hjr, hu.jr_eq, hvnow, hu.now_eq, hj] at hmirror
  simp only [Bool.not_true, Bool.false_eq_true, if_false, hwrite, hmirror]
  refine ⟨rfl, by simp [Journal.enter, hj, hseq], rfl, Tab.find_set_same .., ?_⟩
  rw [mbxOf_congr (mirror_mbx ..), mbxOf_congr hmbx, hu.room, p.here.room]

end Sys2Proof.Machine
end

section
/-! The event ring's registers, backlog and wake causes, and the TLS connections, with the statements about them (R88, R89, R104,
R107, R108, R110). -/

namespace Sys2Proof.Machine

/-! ## An entry of the event ring (R107) -/

/-- An entry as the ring takes it: under the next EVSEQ, with the phase of the producer index's wrap. -/
def ringEntry (e : EvEntry) (h : HostLink) : EvEntry :=
  { e with eseq := (h.eseq + 1) % 2 ^ 32, phase := decide (4096 ≤ h.pi) }

/-- Writing an entry moves the producer index and EVSEQ on, and beside them touches the vectors alone. -/
theorem ringWrite_host (e : EvEntry) (s : State) : ∃ pba last owe, (ringWrite e s).host =
    { s.host with eseq := (s.host.eseq + 1) % 2 ^ 32, pi := (s.host.pi + 1) % 8192, msixPba := pba, v6Last := last,
                  v6Owe := owe } := by
  unfold ringWrite
  extract_lets e' s1 s2
  have h2 : s2.host = { s.host with eseq := (s.host.eseq + 1) % 2 ^ 32, pi := (s.host.pi + 1) % 8192 } := by simp [s2, s1]
  split
  · obtain ⟨pba, h⟩ := msix_host 5 s2
    exact ⟨pba, _, _, by rw [h, h2]⟩
  · refine iteInduction (motive := fun u : State => ∃ pba last owe, u.host = { s.host with
      eseq := (s.host.eseq + 1) % 2 ^ 32, pi := (s.host.pi + 1) % 8192, msixPba := pba, v6Last := last, v6Owe := owe })
      (fun _ => ⟨_, _, true, by rw [State.onHost_host, h2]⟩) fun _ => ?_
    obtain ⟨pba, h⟩ := msix_host 6 (s2.onHost fun h => { h with v6Last := some s2.now, v6Owe := false })
    exact ⟨pba, some s2.now, false, by rw [h, State.onHost_host, h2]⟩

theorem event_mem_ringWrite (e : EvEntry) (s : State) :
    Output.event (s.host.pi % 4096) (s.host.base.toNat + 64 * (s.host.pi % 4096)) (ringEntry e s.host) ∈
      (ringWrite e s).out := by
  unfold ringWrite
  extract_lets e' s1 s2
  have h2 : Output.event (s.host.pi % 4096) (s.host.base.toNat + 64 * (s.host.pi % 4096)) (ringEntry e s.host) ∈ s2.out := by
    simp [s2, s1, e', emit, ringEntry]
  split
  · exact (msix_foot 5 s2).sent.mem h2
  · exact iteInduction (motive := fun u : State => _ ∈ u.out) (fun _ => h2) fun _ => by
      refine (msix_foot ..).sent.mem ?_
      exact h2

/-! ## The ring's registers and its backlog (R107, R108) -/

theorem drainEvents_one (e : EvEntry) {s : State} (hb : s.host.backlog = [e]) (ho : ringOpen s.host = true) :
    drainEvents 1 s = ringWrite e (s.onHost fun h => { h with backlog := [] }) := by
  simp [drainEvents, hb, ho]

theorem doEventBacklogDrain_one {e : EvEntry} {s : State} (hr : running s = true) (ho : ringOpen s.host = true)
    (hd : s.host.dropOwe = 0) (hb : s.host.backlog = [e]) :
    doEventBacklogDrain s = ringWrite e (s.onHost fun h => { h with backlog := [] }) := by
  simp [doEventBacklogDrain, hr, ho, hd, hb, drainEvents_one e hb ho]

/-- The count of events dropped is owed as one DROPPED entry. -/
theorem doEventBacklogDrain_dropped {s : State} (hr : running s = true) (ho : ringOpen s.host = true)
    (hd : 0 < s.host.dropOwe) (hb : s.host.backlog = []) :
    doEventBacklogDrain s = ringWrite { code := 0x0003, sev := 2, time := keepTime s, data := [s.host.dropOwe] }
      (s.onHost fun h => { h with dropOwe := 0 }) := by
  have howe : (s.host.dropOwe == 0) = false := by simpa using Nat.ne_of_gt hd
  have hback : (ringWrite { code := 0x0003, sev := 2, time := keepTime s, data := [s.host.dropOwe] }
      (s.onHost fun h => { h with dropOwe := 0 })).host.backlog = [] := by
    obtain ⟨_, _, _, hw⟩ := ringWrite_host { code := 0x0003, sev := 2, time := keepTime s, data := [s.host.dropOwe] }
      (s.onHost fun h => { h with dropOwe := 0 })
    rw [hw]
    exact hb
  simp only [doEventBacklogDrain, hr, ho, howe, hback, Bool.not_true, Bool.or_self, Bool.false_eq_true, if_false]
  rfl

/-- Settles O22: each row writes its entry by `ringWrite`. -/
theorem eventRingCommandsComplete : Obligations.EventRingCommandsComplete := by
  unfold Obligations.EventRingCommandsComplete
  refine ⟨?index, ?dropped, ?backlog, ?owed, ?wake⟩
  case index =>
    intro s v hb hr
    exact .next (t := doEvrCi v s) rfl (by simp [doEvrCi, hb, hr])
  case dropped =>
    intro s hb hr
    exact .next (t := doEvrDroppedRead s) rfl (by simp [doEvrDroppedRead, hb, hr])
  case backlog =>
    intro s e hr ho hd hb
    refine .next (t := doEventBacklogDrain s) rfl ?_
    rw [doEventBacklogDrain_one hr ho hd hb]
    obtain ⟨_, _, _, hw⟩ := ringWrite_host e (s.onHost fun h => { h with backlog := [] })
    rw [hw]
    exact ⟨rfl, rfl, rfl, event_mem_ringWrite ..⟩
  case owed =>
    intro s hr ho hd hb
    refine .next (t := doEventBacklogDrain s) rfl ?_
    rw [doEventBacklogDrain_dropped hr ho hd hb]
    obtain ⟨_, _, _, hw⟩ := ringWrite_host { code := 0x0003, sev := 2, time := keepTime s, data := [s.host.dropOwe] }
      (s.onHost fun h => { h with dropOwe := 0 })
    rw [hw]
    exact ⟨rfl, rfl, _, event_mem_ringWrite .., rfl, rfl⟩
  case wake =>
    intro s r rs hr ho hk
    refine .next (t := doWakeCausePublish s) rfl ?_
    have heq : doWakeCausePublish s = ringWrite
        { code := 0x0001, sev := 1, wake := true, time := r.time, data := [r.code, r.count, r.seq] }
        (s.onKeep fun k => { k with wake := rs }) := by simp [doWakeCausePublish, hk, hr, ho]
    obtain ⟨_, _, _, hw⟩ := ringWrite_host
      { code := 0x0001, sev := 1, wake := true, time := r.time, data := [r.code, r.count, r.seq] }
      (s.onKeep fun k => { k with wake := rs })
    rw [heq, hw, (ringWrite_foot ..).same .keep rfl]
    exact ⟨rfl, rfl, rfl, _, event_mem_ringWrite .., rfl, rfl, rfl⟩

/-! ## TLS connections (R88, R89) -/

/-- A connection takes every response that waits, in turn. -/
theorem drainBox_conn {m : Nat} (hm : m = 2 ∨ m = 3) {rs : List Resp} {s : State} (hc : (mbxOf s m).conn = true)
    (hw : (mbxOf s m).waiting = rs) :
    mbxOf (drainBox m rs.length s) m = { mbxOf s m with waiting := [] } ∧
      ∀ r ∈ rs, Output.deliver m r ∈ (drainBox m rs.length s).out := by
  induction rs generalizing s with
  | nil => exact ⟨show mbxOf s m = { mbxOf s m with waiting := [] } by rw [← hw], by simp⟩
  | cons r rs ih =>
    have ht : transportUp s m = true := by rcases hm with rfl | rfl <;> exact hc
    have hsend : sendResponse m s = count (0x298 + m) (deliver m r (onBox m (fun b => { b with waiting := rs }) s)) := by
      simp [sendResponse, hw, ht]
    have hbox : mbxOf (sendResponse m s) m = { mbxOf s m with waiting := rs } := by simp [hsend]
    have hfirst : Output.deliver m r ∈ (sendResponse m s).out := by
      rw [hsend, deliver_of_direct (by omega) (by omega)]
      have h7 : m ≠ 7 := by omega
      simp [h7, emit]
    obtain ⟨hdone, hrest⟩ := ih (s := sendResponse m s) (by rw [hbox]; exact hc) (by rw [hbox])
    rw [hbox] at hdone
    refine ⟨hdone, fun q hq => ?_⟩
    rcases List.mem_cons.mp hq with rfl | hq
    · exact (drainBox_foot m rs.length _).sent.mem hfirst
    · exact hrest q hq

/-- A port's new connection, before it takes the responses that wait. -/
def tlsOpened (port : Nat) (s : State) : State :=
  emit (.tls port true) (onBox (2 + port) (fun b => { b with conn := true })
    (if (mbxOf s (2 + port)).conn then emit (.tls port false) s else s))

theorem mbxOf_tlsOpened (port : Nat) (s : State) :
    mbxOf (tlsOpened port s) (2 + port) = { mbxOf s (2 + port) with conn := true } := by
  have hclose : mbxOf (if (mbxOf s (2 + port)).conn then emit (.tls port false) s else s) (2 + port) = mbxOf s (2 + port) := by
    split
    · exact mbxOf_emit ..
    · rfl
  simp [tlsOpened, hclose]

theorem doTlsConnect_accepted {port : Nat} {hello : TlsHello} {s : State} (hr : running s = true)
    (hh : helloOk hello = true) (hc : s.kt.chain.isSome = true) (hk : s.kt.clientKeys.find port = hello.key) :
    doTlsConnect port hello s =
      drainBox (2 + port) (mbxOf s (2 + port)).waiting.length (tlsOpened port s) := by
  have hwaiting := congrArg Mailbox.waiting (mbxOf_tlsOpened port s)
  simp only [doTlsConnect, hr, hh, hc, hk, Bool.not_true, beq_self_eq_true, Bool.and_self, Bool.false_eq_true, if_false, if_true]
  rw [← hwaiting]
  rfl

theorem doTlsConnect_refused {port : Nat} {hello : TlsHello} {s : State} (hr : running s = true)
    (h : helloOk hello = false ∨ s.kt.chain = none ∨ s.kt.clientKeys.find port ≠ hello.key) :
    doTlsConnect port hello s = emit (.tls port false) s := by
  have hno : (helloOk hello && s.kt.chain.isSome && s.kt.clientKeys.find port == hello.key) = false := by
    rcases h with h | h | h <;> simp [h]
  simp [doTlsConnect, hr, hno]

/-- Settles O23: a connection opened drains its mailbox, and the other rows change what they name alone. -/
theorem connectionsComplete : Obligations.ConnectionsComplete := by
  unfold Obligations.ConnectionsComplete
  refine ⟨?opened, ?refused, fun s port => ⟨_, rfl, mbxOf_onBox ..⟩, ?lockout⟩
  case opened =>
    intro s port hello hr hh hc hk
    have hm : 2 + port.val = 2 ∨ 2 + port.val = 3 := by omega
    have hbox := mbxOf_tlsOpened port.val s
    obtain ⟨hdone, hsent⟩ := drainBox_conn hm (s := tlsOpened port.val s) (by rw [hbox]) (by rw [hbox])
    have hout := (drainBox_foot (2 + port.val) (mbxOf s (2 + port.val)).waiting.length (tlsOpened port.val s)).sent
    refine .next (t := doTlsConnect port.val hello s) rfl ?_
    rw [doTlsConnect_accepted hr hh hc hk, hdone, hbox]
    refine ⟨rfl, rfl, hout.mem List.mem_cons_self, hsent, fun hconn => hout.mem ?_⟩
    simp [tlsOpened, emit, hconn]
  case refused =>
    intro s port hello hr h
    refine .next (t := doTlsConnect port.val hello s) rfl ?_
    rw [doTlsConnect_refused hr h]
    exact ⟨rfl, rfl⟩
  case lockout =>
    intro s src d h
    refine .next (t := doAuthLockoutEnd src.toNat s) rfl ?_
    have heq : doAuthLockoutEnd src.toNat s =
        (reach d s).onJr fun q => { q with lockout := q.lockout.erase src.toNat } := by simp [doAuthLockoutEnd, h]
    rw [heq]
    exact ⟨by simp, Tab.find_erase_same .., by simp⟩

end Sys2Proof.Machine
end

section
/-! Queries, and the statement about them (R89, R93 to R95, R98, R104, R136, R153, R202, R336, R360, R367). -/

namespace Sys2Proof.Machine

/-! ## The answer of a query (R93 to R95) -/

/-- The result code, the data and the folios of the query whose opcode is `n`. -/
def queryResult (n : Nat) (r : Rec) (s : State) : Word × Bytes × List Folio :=
  match n with
  | 0x0001 => (0, seqResult s (fld r.body 0 2), [])
  | 0x0002 => (0, leBytes 8 (Config.nonce s.free).toNat ++ leBytes 8 (toKeep (s.now + 120000000)), [])
  | 0x0003 =>
    ((resultResult s (BitVec.ofNat 64 (fld r.body 0 8))).1, (resultResult s (BitVec.ofNat 64 (fld r.body 0 8))).2, [])
  | 0x0004 => (0, statusResult s, [])
  | 0x0012 => (0, leaseRead s r.body, [])
  | 0x0013 => (0, sensorRead s r.body, [])
  | 0x0014 => logRead s r.body
  | 0x0015 => (0, pmcRead s r.body, [])
  | 0x0016 => (0, inventoryRead s r.body, [])
  | 0x0017 => (0, spineHealth s, [])
  | _ => (0, tlsKeyGet s, [])

/-- A response with a query's result. -/
def resultResp (r : Rec) (x : Word × Bytes × List Folio) : Resp :=
  { status := 0x01, op := r.op, cw := r.cw, result := x.1, data := x.2.1, folios := x.2.2 }

/-- The response of a query. -/
def queryResp (r : Rec) (s : State) : Resp := resultResp r (queryResult r.op.toNat r s)

/-- What a query leaves of the journal. -/
structure SameEntries (s t : State) : Prop where
  entries : t.jr.entries = s.jr.entries
  jseq    : t.jr.jseq = s.jr.jseq
  high    : t.jr.high = s.jr.high

theorem SameEntries.of_jr {s t : State} (h : t.jr = s.jr) : SameEntries s t := ⟨by rw [h], by rw [h], by rw [h]⟩

theorem SameEntries.congr {s t v : State} (k : SameEntries s t) (h : v.jr = t.jr) : SameEntries s v :=
  ⟨by rw [h, k.entries], by rw [h, k.jseq], by rw [h, k.high]⟩

theorem mbxOf_answerDone {m : Nat} (hm : m ≠ 6) (r : Rec) (data : Bytes) (s : State) :
    mbxOf (answerDone m r data s) m = { mbxOf s m with
      waiting := (mbxOf s m).waiting ++ [{ status := 0x01, op := r.op, cw := r.cw, data := data }] } :=
  mbxOf_respond hm ..

/-- A nonce issued changes the nonces alone (R104). -/
theorem issueNonce_sameEntries (src : Nat) (s : State) : SameEntries s (issueNonce src s).2 := ⟨rfl, rfl, rfl⟩

/-- A query that asks no rope is answered at once, with no journal entry. -/
theorem query_answers {m : Nat} (hm : m ≠ 6) {r : Rec} {s : State} (hdry : r.op = 0x0013 → fld r.body 3 1 = 1 →
      wetRopes s (fld r.body 1 1) (fld r.body 2 1) = []) :
    mbxOf (query m r s) m = { mbxOf s m with waiting := (mbxOf s m).waiting ++ [queryResp r s] } ∧
      SameEntries s (query m r s) := by
  unfold query queryResp
  dsimp only
  generalize hop : r.op.toNat = n
  split
  case h_1 => exact ⟨mbxOf_answerDone hm .., .of_jr (answerDone_jr ..)⟩
  case h_2 => exact ⟨mbxOf_answerDone hm .., (issueNonce_sameEntries ..).congr (answerDone_jr ..)⟩
  case h_3 => exact ⟨mbxOf_respond hm .., .of_jr (respond_jr ..)⟩
  case h_4 => exact ⟨mbxOf_answerDone hm .., .of_jr (answerDone_jr ..)⟩
  case h_5 => exact ⟨mbxOf_answerDone hm .., .of_jr (answerDone_jr ..)⟩
  case h_6 =>
    have hop : r.op = 0x0013 := BitVec.eq_of_toNat_eq hop
    have hnone : (if fld r.body 3 1 == 1 then wetRopes s (fld r.body 1 1) (fld r.body 2 1) else []) = [] := by
      split
      next h => exact hdry hop (by simpa using h)
      next => rfl
    simp only [sensorQuery, hnone, List.isEmpty_nil, if_true]
    rw [resultResp, hop]
    exact ⟨mbxOf_respond hm .., .of_jr (respond_jr ..)⟩
  case h_7 => exact ⟨mbxOf_respond hm .., .of_jr (respond_jr ..)⟩
  case h_8 => exact ⟨mbxOf_answerDone hm .., .of_jr (answerDone_jr ..)⟩
  case h_9 => exact ⟨mbxOf_answerDone hm .., .of_jr (answerDone_jr ..)⟩
  case h_10 => exact ⟨mbxOf_answerDone hm .., .of_jr (answerDone_jr ..)⟩
  case h_11 =>
    have htls : queryResult n r s = (0, tlsKeyGet s, []) := by simp [queryResult, *]
    rw [htls]
    exact ⟨mbxOf_answerDone hm .., .of_jr (answerDone_jr ..)⟩

/-! ## What a query reads -/

@[simp] theorem length_leBytes (n v : Nat) : (leBytes n v).length = n := by
  induction n generalizing v with
  | zero => rfl
  | succ n ih => simp [leBytes, ih]

@[simp] theorem length_zeros (n : Nat) : (zeros n).length = n := List.length_replicate ..

theorem pmcRead_eq (s : State) (b : Bytes) :
    (pmcRead s b).take 16 = leBytes 8 (keepTime s) ++ leBytes 4 s.pmc.gen ++ zeros 4 ∧
      (pmcRead s b).length = 16 + 16 * fld b 1 1 := by
  constructor
  · exact List.take_left' (by simp)
  · simp only [pmcRead, List.length_append, length_leBytes, length_zeros, List.length_flatten, List.map_map,
      Function.comp_def, List.map_const', List.length_range, List.sum_replicate_nat]
    omega

/-- The nonce of a NONCE_GET is kept for its source for 120 s (R104). -/
theorem query_nonce {m : Nat} {r : Rec} {s : State} (hop : r.op = 0x0002) :
    ∃ n ∈ (query m r s).jr.nonces, n.src.toNat = cwSrc r.cw ∧ n.val = Config.nonce s.free ∧ n.stop = s.now + 120000000 := by
  have hq : query m r s = answerDone m r (leBytes 8 (issueNonce (cwSrc r.cw) s).1.val.toNat ++
      leBytes 8 (toKeep (issueNonce (cwSrc r.cw) s).1.stop)) (issueNonce (cwSrc r.cw) s).2 := by
    simp only [query, hop]
    rfl
  have hsrc : cwSrc r.cw < 2 ^ 16 := by
    have := r.cw.isLt
    simp only [cwSrc]
    omega
  refine ⟨(issueNonce (cwSrc r.cw) s).1, ?_, ?_, rfl, rfl⟩
  · rw [hq, answerDone_jr]
    exact List.mem_append_right _ (List.mem_singleton.2 rfl)
  · exact Nat.mod_eq_of_lt hsrc

/-- A query that passes steps 1 to 3 of R98 is carried out. -/
theorem receive_query {op : Half} {h : Hdr} {body : Bytes} {s u : State} {i : OpInfo} (p : QueryPasses op h body s i)
    (hu : Copied h.mbx.val s u) (jok : Bool) :
    receive h.mbx.val jok (rowRec op h body) u = query h.mbx.val (rowRec op h body) u := by
  have hop : (rowRec op h body).op = op := rfl
  have hflags : (rowRec op h body).flags = h.flags := rfl
  have hopen : isOpenBox u = true := hu.isOpenBox_eq.trans p.here.isOpen
  have hrank : rankOf (cwSrc (rowRec op h body).cw) h.flags ∈ i.ranks := List.contains_iff_mem.mp p.rank
  have hfits : minBad (badQuery op.toNat u (rowRec op h body).body) (badTail op.toNat i.body (rowRec op h body).body) = none := by
    obtain ⟨_, _, _, _, rfl⟩ := hu.eq
    exact p.fits
  simp [receive, serve, hopen, p.here.src, p.here.header, hop, p.info, p.cls, hflags, hrank, p.own, p.seq, hfits]

/-! ## A SENSOR_READ that waits for its ropes (R202) -/

theorem leakOf_onLeak_same (n : Nat) (f : Leak → Leak) (s : State) : leakOf (onLeak n f s) n = f (leakOf s n) := by
  rw [leakOf, onLeak, State.onKet_ket, Tab.get_mod_same, leakOf]

theorem leakOf_onLeak_other {k n : Nat} (h : n ≠ k) (f : Leak → Leak) (s : State) : leakOf (onLeak k f s) n = leakOf s n := by
  rw [leakOf, onLeak, State.onKet_ket, Tab.get_mod_other _ _ _ h, leakOf]

/-- A measurement due `now` at rope `n`. -/
def ropeDue (now n : Nat) (s : State) : State := onLeak n (fun l => { l with measAt := some now }) s

section
variable (now : Nat)

theorem measAt_ropeDue (n : Nat) (s : State) : (leakOf (ropeDue now n s) n).measAt = some now := by
  rw [ropeDue, leakOf_onLeak_same]

theorem measAt_ropeDue_keeps {n : Nat} (k : Nat) {s : State} (h : (leakOf s n).measAt = some now) :
    (leakOf (ropeDue now k s) n).measAt = some now := by
  by_cases hk : n = k
  · rw [hk, measAt_ropeDue]
  · rw [ropeDue, leakOf_onLeak_other hk, h]

theorem measAt_ropesDue {n : Nat} (ks : List Nat) {s : State} (h : n ∈ ks ∨ (leakOf s n).measAt = some now) :
    (leakOf (ks.foldl (fun s k => ropeDue now k s) s) n).measAt = some now := by
  induction ks generalizing s with
  | nil => exact h.resolve_left List.not_mem_nil
  | cons k ks ih =>
    refine ih (s := ropeDue now k s) ?_
    rcases h with h | h
    · rcases List.mem_cons.1 h with rfl | h
      · exact .inr (measAt_ropeDue ..)
      · exact .inl h
    · exact .inr (measAt_ropeDue_keeps now k h)

end

theorem measAt_askRopes {ks : List Nat} {n : Nat} (hn : n ∈ ks) (s : State) :
    (leakOf (askRopes ks s) n).measAt = some s.now := measAt_ropesDue s.now ks (.inl hn)

/-- With a wet rope in its range, a SENSOR_READ with MEASURE waits. -/
theorem query_asksRopes {m : Nat} {r : Rec} {s : State} (hop : r.op = 0x0013) (hm : fld r.body 3 1 = 1)
    (hw : wetRopes s (fld r.body 1 1) (fld r.body 2 1) ≠ []) :
    query m r s = (askRopes (wetRopes s (fld r.body 1 1) (fld r.body 2 1)) s).onAfe
      fun a => { a with asks := a.asks ++ [(m, r.cw, r.body)] } := by
  have hq : query m r s = sensorQuery m r.cw r.body s := by
    simp only [query, hop]
    rfl
  simp [hq, sensorQuery, hm, hw]

theorem Copied.wetRopes_eq {m : Nat} {s u : State} (hu : Copied m s u) (a n : Nat) : wetRopes u a n = wetRopes s a n := by
  obtain ⟨_, _, _, _, rfl⟩ := hu.eq
  rfl

/-! ## The statement -/

theorem query_runs {c : Instr} {op : Half} {h : Hdr} {body : Bytes} {s : State} {i : OpInfo}
    (hc : recordOf c = some (op, h, body)) (p : QueryPasses op h body s i) {P : State → Prop}
    (hP : ∀ u, Copied h.mbx.val s u → u.pmc.gen = s.pmc.gen → P (query h.mbx.val (rowRec op h body) u)) : Runs c s P := by
  have hu := copiedOut_copied h.mbx.val (rowRec op h body) s
  refine arrive_runs hc p.here.reaches ?_
  rw [receive_query p hu]
  exact hP _ hu (copiedOut_gen ..)

/-- Settles O24: the judged record is the query, which its opcode's result answers or its wet ropes hold back. -/
theorem queriesAreAnswered : Obligations.QueriesAreAnswered := by
  unfold Obligations.QueriesAreAnswered
  constructor
  · intro c op h body s i hc p hdry
    refine query_runs hc p fun u hu hgen => ?_
    have hroom : (mbxOf u h.mbx.val).waiting = [] := hu.room.trans p.here.room
    obtain ⟨hbox, hsame⟩ := query_answers (r := rowRec op h body) (s := u) p.here.box (by rwa [hu.wetRopes_eq])
    have hpmc := pmcRead_eq u (rowRec op h body).body
    rw [hgen] at hpmc
    refine ⟨by rw [hsame.entries, hu.jr_eq], by rw [hsame.jseq, hu.jr_eq], by rw [hsame.high, hu.jr_eq], ?_,
      queryResp (rowRec op h body) u, ?_, rfl, rfl, rfl, rfl, ?_⟩
    · rw [hbox]
      exact hu.idle
    · rw [hbox, hroom]
      rfl
    have hnonce (h2 : op = 0x0002) := query_nonce (m := h.mbx.val) (r := rowRec op h body) (s := u) h2
    clear hroom hbox hsame
    obtain ⟨_, _, _, _, rfl⟩ := hu.eq
    refine ⟨?_, fun h2 => ⟨?_, hnonce h2⟩, ?_, ?_, ?_, ?_, ?_, ?_, ?_, ?_, ?_⟩
    case refine_8 =>
      rintro rfl
      exact hpmc
    case refine_2 =>
      subst h2
      rfl
    all_goals
      rintro rfl
      rfl
  · intro h body s i p hm hw
    refine query_runs rfl p fun u hu _ => ?_
    rw [← hu.wetRopes_eq] at hw ⊢
    have hfoot := askRopes_foot (wetRopes u (fld (rowRec 0x0013 h body).body 1 1) (fld (rowRec 0x0013 h body).body 2 1)) u
    rw [query_asksRopes rfl hm hw]
    refine ⟨?_, ?_, ?_, fun n hn => ?_⟩
    · rw [State.onAfe_afe, hfoot.same .afe rfl]
      obtain ⟨_, _, _, _, rfl⟩ := hu.eq
      rfl
    · exact (congrArg Mailbox.waiting (mbxOf_congr (hfoot.same .mbx rfl) _)).trans (hu.room.trans p.here.room)
    · exact (congrArg Journal.entries (hfoot.same .jr rfl)).trans (congrArg Journal.entries hu.jr_eq)
    · exact (measAt_askRopes hn u).trans (congrArg some hu.now_eq)

end Sys2Proof.Machine
end

section
/-! Staging, and the statement about it (R93, R96). -/

namespace Sys2Proof.Machine

/-! ## A string written and read back -/

theorem Mem.readN_writeN {m : Mem} (h : Mem.wf m = true) (a : Nat) (bs : Bytes) :
    (m.writeN a bs).readN a bs.length = bs := by
  induction bs generalizing m a with
  | nil => rfl
  | cons b bs ih =>
    have hb : ((m.write a b).writeN (a + 1) bs).read a = b := by
      rw [Mem.read_writeN_other (Mem.wf_write h a b) _ _ (.inl (Nat.lt_succ_self a)), Mem.read_write_same h]
    simp only [Mem.writeN, List.length_cons, Mem.readN]
    rw [hb, ih (Mem.wf_write h a b)]

/-! ## An object stored (R93) -/

/-- The object that a first stage of `data` at `off` makes. -/
def firstPart (d : Digest) (total off : Nat) (data : Bytes) (inStore : Bool) : Obj :=
  { digest := d, total := total, have_ := [(off, off + data.length)], bytes := Mem.writeN [] off data, store := inStore }

/-- The object held under its digest. -/
def putObj (o : Obj) (s : State) : State := s.onStg fun g => { g with objs := g.objs.filter (·.digest != o.digest) ++ [o] }

theorem findObj_putObj (o : Obj) (s : State) : findObj o.digest (putObj o s) = some o := by
  have hrest : (s.stg.objs.filter (·.digest != o.digest)).find? (·.digest == o.digest) = none := by
    simp [List.find?_eq_none]
  simp [findObj, putObj, List.find?_append, hrest]

@[simp] theorem mbxOf_putObj (o : Obj) (s : State) (m : Nat) : mbxOf (putObj o s) m = mbxOf s m := rfl

theorem findObj_congr {s t : State} (h : t.stg = s.stg) (d : Digest) : findObj d t = findObj d s := by
  rw [findObj, findObj, h]

theorem objBytes_congr {s t : State} (h : t.stg = s.stg) (d : Digest) : objBytes d t = objBytes d s := by
  rw [objBytes, objBytes, findObj_congr h]

/-- An object whose bytes are all held. -/
def wholeObj (d : Digest) (total : Nat) (data : Bytes) (inStore : Bool) : Obj :=
  { firstPart d total 0 data inStore with ready := true }

theorem readN_writeN_empty (data : Bytes) : Mem.readN (Mem.writeN [] 0 data) 0 data.length = data := Mem.readN_writeN rfl 0 data

theorem objBytes_wholeObj {d : Digest} {total : Nat} {data : Bytes} (h : data.length = total) (inStore : Bool) (s : State) :
    objBytes d (putObj (wholeObj d total data inStore) s) = some data := by
  subst h
  have hf : findObj d (putObj (wholeObj d data.length data inStore) s) = some (wholeObj d data.length data inStore) :=
    findObj_putObj (wholeObj d data.length data inStore) s
  rw [objBytes, hf]
  exact congrArg some (readN_writeN_empty data)

section
variable (m : Nat) (op : Half) (cw : DWord) {d : Digest} {total : Nat} {off : Nat} {data : Bytes} {s : State}
  (hnew : findObj d s = none)
  (hfit : stagedBytes (s.pwr.store == .on) s + data.length ≤ stageLimit (s.pwr.store == .on))
include hnew hfit

/-- The first part of an object that is not all of it is held. -/
theorem stageStore_part (hlen : data.length ≠ total) : stageStore m op cw d total off data s =
    respond m (stageResp op cw data.length 0) (putObj (firstPart d total off data (s.pwr.store == .on)) s) := by
  have hover : ¬ stageLimit (s.pwr.store == .on) < stagedBytes (s.pwr.store == .on) s + data.length := Nat.not_lt.mpr hfit
  simp [stageStore, stageObj, hnew, Obj.put, addRange, covered, hover, hlen, putObj, firstPart]

/-- A whole object with its digest is usable. -/
theorem stageStore_whole (hlen : data.length = total) (hoff : off = 0) (hsha : sha256 data = d) :
    stageStore m op cw d total off data s = respond m (stageResp op cw total 1)
      (wakeEntries d (putObj (wholeObj d total data (s.pwr.store == .on)) s)) := by
  have hover : ¬ stageLimit (s.pwr.store == .on) < stagedBytes (s.pwr.store == .on) s + data.length := Nat.not_lt.mpr hfit
  subst hlen hoff
  simp [stageStore, stageObj, hnew, Obj.put, addRange, covered, hover, putObj, firstPart, wholeObj, readN_writeN_empty, hsha]

end

/-! ## OBJECT_STAGE (R96) -/

/-- An OBJECT_STAGE that passes steps 1 to 3 of R98 is carried out. -/
theorem receive_stage {m : Nat} {r : Rec} {u : State} (jok : Bool) (hop : r.op = 0x0005) (ho : isOpenBox u = true)
    (hv : srcValid m (cwSrc r.cw) = true) (hh : badHeader r = none)
    (hr : hostRm.contains (rankOf (cwSrc r.cw) r.flags) = true) (hb : badStage m u r.body = none)
    (ht : badTail 0x0005 56 r.body = none) : receive m jok r u = objectStage m r.op r.cw r.body u := by
  have hinfo : opInfo r.op.toNat = some ⟨.s, hostRm, 56⟩ := by rw [hop]; rfl
  have htail : badTail r.op.toNat 56 r.body = none := by rw [hop]; exact ht
  have hforeign : foreignTray (cwSrc r.cw) r = false := by rw [foreignTray, hop]; rfl
  have hrank : rankOf (cwSrc r.cw) r.flags ∈ hostRm := List.contains_iff_mem.mp hr
  simp [receive, serve, ho, hv, hh, hinfo, hrank, hforeign, hb, htail, minBad]

section
variable {m : Nat} {s u : State} (hu : Copied m s u)
include hu

theorem Copied.badStage_eq (n : Nat) (b : Bytes) : badStage n u b = badStage n s b := by
  obtain ⟨_, _, _, _, rfl⟩ := hu.eq
  rfl
theorem Copied.findObj_eq (d : Digest) : findObj d u = findObj d s := by
  obtain ⟨_, _, _, _, rfl⟩ := hu.eq
  rfl
theorem Copied.pwr_eq : u.pwr = s.pwr := by
  obtain ⟨_, _, _, _, rfl⟩ := hu.eq
  rfl
theorem Copied.stagedBytes_eq (b : Bool) : stagedBytes b u = stagedBytes b s := by
  obtain ⟨_, _, _, _, rfl⟩ := hu.eq
  rfl

end

theorem stage_runs {h : Hdr} {body : Bytes} {s : State} (a : Arrives 0x0005 h body s)
    (hr : hostRm.contains (rankOf (cwSrc (rowRec 0x0005 h body).cw) h.flags) = true)
    (hb : badStage h.mbx.val s (rowRec 0x0005 h body).body = none)
    (ht : badTail 0x0005 56 (rowRec 0x0005 h body).body = none) {P : State → Prop}
    (hP : ∀ u, Copied h.mbx.val s u →
      P (objectStage h.mbx.val 0x0005 (rowRec 0x0005 h body).cw (rowRec 0x0005 h body).body u)) :
    Runs (.objectStage h body) s P := by
  have hu := copiedOut_copied h.mbx.val (rowRec 0x0005 h body) s
  refine arrive_runs rfl a.reaches ?_
  have hbad : badStage h.mbx.val (copiedOut h.mbx.val (rowRec 0x0005 h body) s) (rowRec 0x0005 h body).body = none := by
    rw [hu.badStage_eq, hb]
  rw [receive_stage _ rfl (hu.isOpenBox_eq.trans a.isOpen) a.src a.header hr hbad ht]
  exact hP _ hu

/-! ## STAGE_DMA_DONE (R96, log 142) -/

theorem waiting_respond {m : Nat} (hm : m ≠ 6) (r : Resp) (s : State) :
    (mbxOf (respond m r s) m).waiting = (mbxOf s m).waiting ++ [r] := by
  rw [mbxOf_respond hm]

/-- What a list stage that is not stored leaves: its answer and nothing staged. -/
structure StageFails (x : StageDma) (st : Byte) (d : Nat) (s t : State) : Prop where
  stg    : t.stg = s.stg
  answer : ∃ r ∈ (mbxOf t x.mbx).waiting, r.status = st ∧ r.detail = d ∧ r.cw = x.cw

theorem StageFails.of_stg {x : StageDma} {st : Byte} {d : Nat} {s s' t : State} (k : StageFails x st d s' t)
    (h : s'.stg = s.stg) : StageFails x st d s t := ⟨k.stg.trans h, k.answer⟩

section
variable {x : StageDma} (hx : x.mbx ≠ 6)
include hx

theorem stageInvalid_fails (off : Nat) (s : State) : StageFails x 0x14 (32 + off) s (stageInvalid x off s) where
  stg := (respond_stg ..).trans (count_stg ..)
  answer := by
    rw [stageInvalid, waiting_respond hx]
    exact ⟨_, List.mem_append_right _ (List.mem_singleton.2 rfl), rfl, rfl, rfl⟩

theorem stageFault_fails (s : State) : StageFails x 0x15 4 s (stageFault x s) where
  stg := by rw [stageFault, respond_stg, count_stg, record_stg]
  answer := by
    rw [stageFault, waiting_respond hx]
    exact ⟨_, List.mem_append_right _ (List.mem_singleton.2 rfl), rfl, rfl, rfl⟩

end

/-- The oldest stage taken off the list of those that wait. -/
def stageTaken (xs : List StageDma) (s : State) : State := s.onStg fun g => { g with dma := xs }

theorem doStageDmaDone_eq {s : State} {x : StageDma} {xs : List StageDma} (h : s.stg.dma = x :: xs) (list : List Scatter)
    (data : Option Bytes) : doStageDmaDone list data s =
      if (list.take x.count).length < x.count then stageFault x (stageTaken xs s)
      else if !entriesOk (list.take x.count) then stageInvalid x 48 (stageTaken xs s)
      else if x.total < x.offset + listTotal (list.take x.count) then stageInvalid x 36 (stageTaken xs s)
      else
        let s := readHost (dmaReads (list.take x.count) 0 (listTotal (list.take x.count))) (stageTaken xs s)
        match data with
        | some data =>
          if data.length != listTotal (list.take x.count) then stageFault x s
          else stageStore x.mbx x.op x.cw x.digest x.total x.offset data s
        | none => stageFault x s := by
  rw [doStageDmaDone, h]
  rfl

/-- Settles O29: a sound OBJECT_STAGE is carried out as it is judged, and a list's bytes are stored as a chunk's are. -/
theorem stagingCompletes : Obligations.StagingCompletes := by
  unfold Obligations.StagingCompletes
  refine ⟨?list, ?chunk, ?fails, ?whole⟩
  case list =>
    intro h body s a hr hb ht hlist
    refine stage_runs a hr hb ht fun u hu => ?_
    have hroom := hu.room.trans a.room
    obtain ⟨_, _, _, _, rfl⟩ := hu.eq
    simp only [objectStage, hlist, BEq.rfl, if_true]
    exact ⟨rfl, List.mem_cons_self, rfl, hroom⟩
  case chunk =>
    intro h body s a hr hb ht hlist hnew hfit hpart
    refine stage_runs a hr hb ht fun u hu => ?_
    have hroom := hu.room.trans a.room
    have hlen : (sub (rowRec 0x0005 h body).body 48 (fld (rowRec 0x0005 h body).body 42 2)).length =
        fld (rowRec 0x0005 h body).body 42 2 := length_sub ..
    have hpart : (sub (rowRec 0x0005 h body).body 48 (fld (rowRec 0x0005 h body).body 42 2)).length ≠
        fld (rowRec 0x0005 h body).body 32 4 := by rw [hlen]; exact Nat.ne_of_lt hpart
    have hchunk : (fld (rowRec 0x0005 h body).body 40 2 == 1) = false := by rw [hlist]; rfl
    rw [objectStage]
    simp only [hchunk, Bool.false_eq_true, if_false]
    rw [stageStore_part _ _ _ (by rw [hu.findObj_eq, hnew]) (by rw [hu.pwr_eq, hu.stagedBytes_eq, hlen]; exact hfit) hpart]
    refine ⟨_, (findObj_congr (respond_stg ..) _).trans (findObj_putObj (firstPart _ _ _ _ _) u), rfl, rfl, ?_⟩
    rw [waiting_respond a.box, mbxOf_putObj, hroom, hlen]
    rfl
  case fails =>
    intro s x xs list data hdma hx st d hcase
    suffices hfails : StageFails x st d (stageTaken xs s) (doStageDmaDone list data s) from
      .next rfl ⟨by rw [hfails.stg]; rfl, by rw [hfails.stg]; rfl, hfails.answer⟩
    rw [doStageDmaDone_eq hdma]
    rcases hcase with ⟨hshort, rfl, rfl⟩ | ⟨hcount, hbad, rfl, rfl⟩ | ⟨hcount, hok, hrest⟩
    · rw [if_pos (by simp; omega)]
      exact stageFault_fails hx _
    · rw [if_neg (by simp; omega), if_pos (by simp [hbad])]
      exact stageInvalid_fails hx 48 _
    rw [if_neg (by simp; omega), if_neg (by simp [hok])]
    rcases hrest with ⟨hlong, rfl, rfl⟩ | ⟨hfit, rfl, rfl, rfl⟩
    · rw [if_pos hlong]
      exact stageInvalid_fails hx 36 _
    · rw [if_neg (Nat.not_lt.mpr hfit)]
      exact (stageFault_fails hx _).of_stg ((readHost_foot ..).same .stg rfl)
  case whole =>
    intro s x xs list data hdma hx hcount hok htotal hnew hoff _ hlen hsha hfit
    refine .next rfl ?_
    rw [doStageDmaDone_eq hdma, if_neg (by simp; omega), if_neg (by simp [hok]), if_neg (by omega)]
    simp only [htotal, bne_self_eq_false, Bool.false_eq_true, if_false]
    have hread := readHost_foot (dmaReads (list.take x.count) 0 data.length) (stageTaken xs s)
    have hstg := hread.same .stg rfl
    have hpwr : (readHost _ (stageTaken xs s)).pwr = s.pwr := hread.same .pwr rfl
    have hfit' : stagedBytes (s.pwr.store == .on) (readHost (dmaReads (list.take x.count) 0 data.length) (stageTaken xs s)) +
        data.length ≤ stageLimit (s.pwr.store == .on) := by
      rw [stagedBytes, hstg, hlen]
      exact hfit
    rw [stageStore_whole _ _ _ ((findObj_congr hstg _).trans hnew) (by rwa [hpwr]) hlen hoff hsha]
    generalize readHost (dmaReads (list.take x.count) 0 data.length) (stageTaken xs s) = v at hstg
    refine ⟨?_, ?_, ?_⟩
    · rw [respond_stg, (wakeEntries_foot ..).same .stg rfl]
      exact congrArg Staging.dma hstg
    · rw [objBytes_congr (respond_stg ..), objBytes_congr ((wakeEntries_foot ..).same .stg rfl)]
      exact objBytes_wholeObj hlen _ v
    · rw [waiting_respond hx]
      exact ⟨_, List.mem_append_right _ (List.mem_singleton.2 rfl), rfl, rfl, rfl⟩

end Sys2Proof.Machine
end

section
/-! Frames from the partner that come in, mirrored entries and entries that are FREE again (R102, R112, R115). -/

namespace Sys2Proof.Machine

/-! ## What a frame to the partner is sent with (R112, R115) -/

/-- The pair link and what a payload is sent to the partner with. -/
structure SameLink (s t : State) : Prop where
  up  : pairUp t = pairUp s
  out : ∀ p, pairOut t p = pairOut s p

/-- The link of two states that agree in the parts that it reads. -/
theorem SameNode.sameLink {s t : State} (h : SameNode s t) (hup : ∀ l, (laneOf t l).up = (laneOf s l).up)
    (hg : t.spn.gen = s.spn.gen) (hp : t.spn.pseq = s.spn.pseq) : SameLink s t where
  up := by rw [pairUp, pairUp, h.running, hup, hup]
  out p := by rw [pairOut, pairOut, h.nodeAddr, h.partnerAddr, hg, hp]

/-! ## A frame that comes in (R112, R114) -/

theorem laneSent_pseq (l n : Nat) (urgent : Bool) (s : State) : (laneSent l n urgent s).spn.pseq = s.spn.pseq := by
  unfold laneSent laneCount
  dsimp only
  split_ifs <;> simp [onLane]

theorem countedIn_pseq (f : FrameHdr) (p : Payload) (s : State) : (countedIn f p s).spn.pseq = s.spn.pseq := by
  simp [countedIn, onLane]

theorem forwardFrame_pseq (f : FrameHdr) (p : Payload) (s : State) : (forwardFrame f p s).spn.pseq = s.spn.pseq := by
  unfold forwardFrame
  dsimp only
  generalize (if f.lane == 0 then (1 : Fin 4) else 0) = out
  split
  · rfl
  · rw [count_spn, laneSent_pseq, emit_spn]

theorem countedIn_foot (f : FrameHdr) (p : Payload) (s : State) : Foot [.pmc, .spn] s (countedIn f p s) :=
  ((onLane_foot ..).mono rfl).then (countN_foot ..) rfl

/-- The state in which a frame that came in is taken. -/
def arrived (f : FrameHdr) (p : Payload) (s : State) : State := noteSeen f (rxCheck f p s).2

section
variable {f : FrameHdr} {s : State} (h : Comes f s) (p : Payload)
include h

theorem rxFrame_arrived (mine : State → State) : rxFrame f p mine s = mine (arrived f p s) := by
  obtain ⟨hme, hc⟩ := rxCheck_comes h p
  simp [rxFrame, arrived, hme, hc.seenBefore, h.new]

/-- Before a frame is taken it is counted in, and on the Spine forwarded. -/
theorem rxCheck_spine : (rxCheck f p s).2 = countedIn f p s ∨ (rxCheck f p s).2 = forwardFrame f p (countedIn f p s) := by
  rw [rxCheck_sound p h.isRunning h.up h.sound]
  split_ifs
  · exact .inl rfl
  · exact .inl rfl
  · exact .inr rfl

theorem arrived_foot : Foot [.out, .pmc, .spn] s (arrived f p s) := by
  have hin := (countedIn_foot f p s).mono (gs := [.pmc, .spn]) (fs := [.out, .pmc, .spn]) rfl
  refine Foot.then ?_ (noteSeen_foot ..) rfl
  rcases rxCheck_spine h p with heq | heq
  · rw [heq]
    exact hin
  · rw [heq]
    exact hin.then (forwardFrame_foot ..) rfl

theorem arrived_link : SameLink s (arrived f p s) := by
  obtain ⟨-, hc⟩ := rxCheck_comes h p
  have hpseq : (rxCheck f p s).2.spn.pseq = s.spn.pseq := by
    rcases rxCheck_spine h p with heq | heq
    · rw [heq, countedIn_pseq]
    · rw [heq, forwardFrame_pseq, countedIn_pseq]
  have hrx := hc.node.sameLink (fun l => hc.lanePart Lane.up (fun _ => rfl) l) (hc.part Spine.gen fun _ => rfl) hpseq
  exact ⟨hrx.up, hrx.out⟩

/-- On the pair link nothing is forwarded. -/
theorem arrived_out (hl : 2 ≤ f.lane.val) : (arrived f p s).out = s.out := by
  have hin : (rxCheck f p s).2 = countedIn f p s := by
    rw [rxCheck_sound p h.isRunning h.up h.sound, if_pos hl]
  rw [arrived, hin]
  exact (countedIn_foot f p s).same .out rfl

/-- A frame on the pair link shows it up. -/
theorem Comes.pairUp (hl : 2 ≤ f.lane.val) : pairUp s = true := by
  have hup := h.up
  have hlane : f.lane.val = 2 ∨ f.lane.val = 3 := by omega
  rcases hlane with hlane | hlane <;> rw [hlane] at hup <;> simp [Machine.pairUp, h.isRunning, hup]

end

/-! ## Entries acknowledged by the partner (R102) -/

/-- An acknowledgement taken: it is waited for no more. -/
def ackTaken (j : Nat) (s : State) : State := (count 0x2F3 s).onJr fun q => { q with sentAt := q.sentAt.erase j }

section
variable {j : Nat} {e : JEntry} {s : State} (h : findEntry j s = some e)
include h

theorem findEntry_ackTaken : findEntry j (ackTaken j s) = some e := (findEntry_congr (by simp [ackTaken]) j).trans h

/-- A TENTATIVE entry that no copy waits for is PENDING, and accepted. -/
theorem mirrored_tentative (ht : e.state = .tentative) (hd : s.jr.dups = []) : mirrored j s =
    (accepted e (onEntry j (fun e => { e with state := .pending }) (ackTaken j s))).onJr
      fun q => { q with dups := q.dups.filter (·.jseq != j) } := by
  have hfound := findEntry_ackTaken h
  obtain ⟨ns, hacc⟩ := accepted_jr e (onEntry j (fun e => { e with state := .pending }) (ackTaken j s))
  have hdups : (accepted e (onEntry j (fun e => { e with state := .pending }) (ackTaken j s))).jr.dups = [] := by
    rw [hacc]
    simp [onEntry, ackTaken, hd]
  unfold ackTaken at hfound hdups ⊢
  simp only [mirrored, hfound, ht, BEq.rfl, if_true]
  rw [hdups]
  rfl

theorem mirrored_done (ht : e.state = .pending) (hw : e.doneWait = true) : mirrored j s = setDone j (ackTaken j s) := by
  have hfound := findEntry_ackTaken h
  unfold ackTaken at hfound ⊢
  simp [mirrored, hfound, ht, hw]

end

/-- The high mark of the source after an accepted entry (R100). -/
theorem raise_seq (q : Journal) (e : JEntry) :
    ((q.raise e).get {} (cwSrc e.cw)).seq = max (q.high.get {} (cwSrc e.cw)).seq (cwSeq e.cw) := by
  unfold Journal.raise
  dsimp only
  split
  next hlt => rw [Tab.get_set_same, Nat.max_eq_right (Nat.le_of_lt hlt)]
  next hle => exact (Nat.max_eq_left (Nat.not_lt.mp hle)).symm

end Sys2Proof.Machine
end

section
/-! The loss of the partner as the journal and TEN see it (R23, R102, R128). -/

namespace Sys2Proof.Machine

/-! ## The entries that a completion leaves, by their JSEQ -/

/-- The JSEQs of the journal's entries. -/
def jseqs (s : State) : List Nat := s.jr.entries.map JEntry.jseq

theorem jseqs_congr {s t : State} (h : t.jr = s.jr) : jseqs t = jseqs s := by rw [jseqs, jseqs, h]

theorem jseqs_of_entries {s t : State} (h : t.jr.entries = s.jr.entries) : jseqs t = jseqs s := by rw [jseqs, jseqs, h]

/-- A JSEQ that is FREE stays so. -/
theorem findEntry_none {s t : State} {j : Nat} (h : jseqs t = jseqs s) (hj : findEntry j s = none) : findEntry j t = none := by
  have hnot (u : State) : findEntry j u = none ↔ j ∉ jseqs u := by simp [findEntry, jseqs]
  rw [hnot] at hj ⊢
  rwa [h]

theorem jseqs_onEntry {j : Nat} {f : JEntry → JEntry} (hf : ∀ e, e.jseq = j → (f e).jseq = j) (s : State) :
    jseqs (onEntry j f s) = jseqs s := by
  have heach (e : JEntry) : (if e.jseq == j then f e else e).jseq = e.jseq := by
    split
    next h =>
      have hj : e.jseq = j := by simpa using h
      exact (hf e hj).trans hj.symm
    next => rfl
  rw [jseqs, onEntry, State.onJr_jr, List.map_map]
  exact List.map_congr_left fun e _ => heach e

@[simp] theorem jseqs_setDone (j : Nat) (s : State) : jseqs (setDone j s) = jseqs s := by
  cases h : findEntry j s with
  | none => simp [setDone, h]
  | some e => exact (jseqs_of_entries (setDone_entries h)).trans (jseqs_onEntry (fun _ => by exact id) s)

@[simp] theorem jseqs_finish (j : Nat) (r : Word) (d : Bytes) (s : State) : jseqs (finish j r d s) = jseqs s := by
  unfold finish
  split
  · rfl
  next e he =>
    have hj := findEntry_jseq he
    have hconst (e' : JEntry) (h : e'.jseq = e.jseq) : jseqs (onEntry j (fun _ => e') s) = jseqs s :=
      jseqs_onEntry (fun _ _ => h.trans hj) s
    split
    · rfl
    split
    · dsimp only
      split
      · exact (jseqs_congr (sendPair_jr ..)).trans (jseqs_onEntry (fun _ => by exact id) s)
      · exact jseqs_onEntry (fun _ => by exact id) s
    dsimp only
    split
    · exact (jseqs_of_entries (by rw [mirror_jr])).trans (hconst (holdDone (completed e r d s)) rfl)
    · rw [jseqs_setDone]
      refine (jseqs_onEntry (fun _ _ => by exact hj) _).trans ?_
      split
      · exact jseqs_congr (sendPair_jr ..)
      · rfl

@[simp] theorem jseqs_finish0 (j : Nat) (r : Word) (s : State) : jseqs (finish0 j r s) = jseqs s := jseqs_finish ..

@[simp] theorem jseqs_endSync (s : State) : jseqs (endSync s) = jseqs s := by
  unfold endSync
  dsimp only
  split
  · rfl
  · exact jseqs_finish0 ..

@[simp] theorem jseqs_lostEntry (e : JEntry) (s : State) : jseqs (lostEntry e s) = jseqs s := by
  unfold lostEntry
  dsimp only
  split
  · rfl
  split
  · exact jseqs_finish0 ..
  split
  · split
    · rfl
    · exact jseqs_finish0 ..
  · rfl

@[simp] theorem jseqs_settleStop (t : Nat) (s : State) : jseqs (settleStop t s) = jseqs s := by
  unfold settleStop
  dsimp only
  split
  · rfl
  · exact List.foldlRecOn (motive := fun u : State => jseqs u = jseqs s) _ _ rfl
      fun u hu j _ => (jseqs_finish0 ..).trans hu

@[simp] theorem jseqs_afterTen (s : State) : jseqs (afterTen s) = jseqs s := by
  unfold afterTen
  dsimp only
  refine List.foldlRecOn (motive := fun u : State => jseqs u = jseqs s) _ _ ?_ fun u hu t _ => (jseqs_settleStop ..).trans hu
  split
  · split <;> rfl
  · rfl

@[simp] theorem jseqs_takeTen (s : State) : jseqs (takeTen s) = jseqs s := by
  unfold takeTen
  split
  · rw [jseqs_afterTen]
    exact jseqs_congr (applyTen_jr ..)
  · rfl

theorem jseqs_losePartner (st : PairState) (s : State) : jseqs (losePartner st s) = jseqs s := by
  have hsync : jseqs ((endSync (setPair st s)).onPair fun p => { p with switch := 0 }) = jseqs s :=
    (jseqs_endSync ..).trans (jseqs_congr ((setPair_foot ..).same .jr rfl))
  unfold losePartner
  dsimp only
  split
  · exact hsync
  · rw [jseqs_takeTen]
    exact List.foldlRecOn (motive := fun u : State => jseqs u = jseqs s) _ _ hsync
      fun u hu e _ => (jseqs_lostEntry ..).trans hu

theorem jseqs_dropPartner (s : State) : jseqs (dropPartner s) = jseqs s := by
  unfold dropPartner
  split
  · exact jseqs_losePartner ..
  · rfl

/-! ## A mirror that is not acknowledged (R102) -/

/-- A TENTATIVE entry that no copy waits for is FREE again after 500 µs. -/
theorem doMirrorTimeout_free {j d : Nat} {e : JEntry} {s : State} (hs : s.jr.sentAt.find j = some d)
    (h : findEntry j s = some e) (ht : e.state = .tentative) (hd : s.jr.dups = []) :
    d + 500 ≤ (doMirrorTimeout j s).now ∧ findEntry j (doMirrorTimeout j s) = none := by
  set u := ((reach (d + 500) s).onJr fun q => { q with sentAt := q.sentAt.erase j }).onJr fun q =>
    { q with entries := q.entries.filter (·.jseq != j), dups := q.dups.filter (·.jseq != j) } with hu
  have heq : doMirrorTimeout j s = dropPartner (answerFault e.mbx { op := e.op, flags := e.flags, cw := e.cw } 1 u) := by
    simp [doMirrorTimeout, hs, h, ht, hd, judgeAgain, hu]
  have hnow : u.now = max s.now (d + 500) := reach_now ..
  rw [heq]
  refine ⟨?_, ?_⟩
  · rw [(dropPartner_foot _).same .now rfl, (answerFault_foot ..).same .now rfl, hnow]
    exact Nat.le_max_right ..
  · refine findEntry_none ((jseqs_dropPartner _).trans (jseqs_congr (answerFault_jr ..))) ?_
    simp [findEntry, hu]

/-! ## TEN as the partner is lost (R128) -/

/-- The TEN change that waits for the partner. -/
theorem tenWait_endSync (s : State) : (endSync s).pair.tenWait = s.pair.tenWait := by
  unfold endSync
  dsimp only
  split
  · rfl
  · exact pairCore_part (pairCore_finish0 ..) Pair.tenWait fun _ => rfl

/-- A TEN change that waits is made. -/
theorem takeTen_waiting {s : State} {i : Half} (h : s.pair.tenWait = some i) : (takeTen s).keep.ten = i ∧
    (takeTen s).pair.tenWait = none ∧ (takeTen s).pair.ackWait = none := by
  have hcore := pairCore_afterTen (applyTen i (s.onPair fun p => { p with tenWait := none, ackWait := none }))
  rw [applyTen_pair] at hcore
  simp only [takeTen, h]
  refine ⟨?_, pairCore_part hcore Pair.tenWait fun _ => rfl, pairCore_part hcore Pair.ackWait fun _ => rfl⟩
  rw [(afterTen_foot _).same .keep rfl, applyTen_keep]

/-- With no change that waits TEN stands. -/
theorem takeTen_none {s : State} (h : s.pair.tenWait = none) : takeTen s = s := by rw [takeTen, h]

/-- As the acting Lead loses its partner, the TEN change that waits for it goes ahead. -/
theorem losePartner_detached {s : State} {i : Half} (hl : s.pair.lead = true) (h : s.pair.tenWait = some i) :
    (losePartner .detached s).pair.state = .detached ∧ (losePartner .detached s).keep.ten = i ∧
    (losePartner .detached s).pair.tenWait = none ∧ (losePartner .detached s).pair.ackWait = none := by
  refine ⟨pairKept_part (pairKept_losePartner .detached s) Pair.state fun _ => rfl, ?_⟩
  set u := (endSync (setPair .detached s)).onPair fun p => { p with switch := 0 } with hu
  have hlead : u.pair.lead = true :=
    (pairKept_part (pairKept_endSync (setPair .detached s)) Pair.lead fun _ => rfl).trans (by simpa using hl)
  have hwait : u.pair.tenWait = some i := (tenWait_endSync _).trans (by simpa using h)
  have heq : losePartner .detached s = takeTen (u.jr.entries.foldl (fun s e => lostEntry e s) u) := by
    simp [losePartner, ← hu, hlead]
  rw [heq]
  refine takeTen_waiting ?_
  exact List.foldlRecOn (motive := fun v : State => v.pair.tenWait = some i) _ _ hwait
    fun v hv e _ => (pairCore_part (pairCore_lostEntry ..) Pair.tenWait fun _ => rfl).trans hv

/-- Without an acknowledgement the partner is DETACHED and TEN changes (R128). -/
theorem doLeaseAckTimeout_detached {s : State} {d : Nat} {i : Half} (ha : s.pair.ackWait = some d)
    (hs : s.pair.state ≠ .lone) (hl : s.pair.lead = true) (h : s.pair.tenWait = some i) :
    d ≤ (doLeaseAckTimeout s).now ∧ (doLeaseAckTimeout s).pair.state = .detached ∧
    (doLeaseAckTimeout s).pair.tenWait = none ∧ (doLeaseAckTimeout s).pair.ackWait = none ∧
    (doLeaseAckTimeout s).keep.ten = i := by
  obtain ⟨hstate, hten, hwait, hack⟩ := losePartner_detached (s := reach d s) (by simpa using hl) (by simpa using h)
  have heq : doLeaseAckTimeout s = losePartner .detached (reach d s) := by
    have hlone : (s.pair.state == .lone) = false := by simpa using hs
    simp [doLeaseAckTimeout, ha, hlone, hl, takeTen_none hwait]
  rw [heq]
  refine ⟨?_, hstate, hwait, hack, hten⟩
  rw [(losePartner_foot ..).same .now rfl, reach_now]
  exact Nat.le_max_right ..

end Sys2Proof.Machine
end

section
/-! Mirrored entries, LEASE, SNAPSHOT and BULK frames and the self-tests of the pair, and the statement about them (R102, R128,
R134, R135, R240). -/

namespace Sys2Proof.Machine

/-! ## MIRROR and MIRROR_ACK (R102) -/

theorem mem_of_mem_makeRoom {e : JEntry} {es : List JEntry} (h : e ∈ makeRoom es) : e ∈ es := by
  unfold makeRoom at h
  split at h
  · exact h
  split at h
  · exact List.mem_of_mem_filter h
  · exact h

/-- An entry found after a change that keeps its JSEQ. -/
theorem findEntry_changed {j : Nat} {e : JEntry} {s : State} (h : findEntry j s = some e) (f : JEntry → JEntry)
    (hf : ∀ e, (f e).jseq = e.jseq := by exact fun _ => rfl) : findEntry j (onEntry j f s) = some (f e) := by
  rw [findEntry_onEntry j f (fun e => .inl (hf e)), h, Option.map_some]

/-- A new mirrored entry that was TENTATIVE is PENDING here. -/
theorem storeMirror_tentative {e : JEntry} {s : State} (h : findEntry e.jseq s = none) (ht : e.state = .tentative) :
    findEntry e.jseq (storeMirror e s) =
      some { e with state := .pending, applied := false, doneWait := false, redo := false } := by
  have hroom : (makeRoom s.jr.entries).find? (·.jseq == e.jseq) = none := by
    rw [findEntry, List.find?_eq_none] at h
    rw [List.find?_eq_none]
    exact fun x hx => h x (mem_of_mem_makeRoom hx)
  have hstored : (storeMirror e s).jr.entries = makeRoom s.jr.entries ++
      [{ e with state := .pending, applied := false, doneWait := false, redo := false }] := by
    simp [storeMirror, ht, h]
  simp [findEntry, hstored, List.find?_append, hroom]

section
variable {f : FrameHdr} {s : State} (h : Comes f s)
include h

theorem doMirrorFrame_tentative {e : JEntry} (hl : 2 ≤ f.lane.val) (hn : findEntry e.jseq s = none)
    (ht : e.state = .tentative) :
    (∃ d, findEntry e.jseq (doMirrorFrame f e s) = some d ∧ d.state = .pending ∧ d.cw = e.cw ∧ d.op = e.op ∧
      d.body = e.body) ∧ (doMirrorFrame f e s).out = pairOut s (.mirrorAck e.jseq) :: s.out := by
  have hlink := arrived_link h (.mirror e)
  have hstore := storeMirror_foot e (arrived f (.mirror e) s)
  have hnone : findEntry e.jseq (arrived f (.mirror e) s) = none :=
    (findEntry_congr (by rw [(arrived_foot h _).same .jr rfl]) _).trans hn
  have hsame : SameNode (arrived f (.mirror e) s) (storeMirror e (arrived f (.mirror e) s)) :=
    ⟨hstore.same .pwr rfl, hstore.same .boot rfl, hstore.same .otp rfl, hstore.same .kt rfl, hstore.same .pair rfl⟩
  have hspn : (storeMirror e (arrived f (.mirror e) s)).spn = (arrived f (.mirror e) s).spn := hstore.same .spn rfl
  have hlink' := hsame.sameLink (fun l => by rw [laneOf, laneOf, hspn]) (by rw [hspn]) (by rw [hspn])
  rw [doMirrorFrame, rxFrame_arrived h]
  refine ⟨⟨_, (findEntry_congr (by rw [sendPair_jr]) _).trans (storeMirror_tentative hnone ht), rfl, rfl, rfl, rfl⟩, ?_⟩
  rw [out_sendPair (by rw [hlink'.up, hlink.up, h.pairUp hl]), hlink'.out, hlink.out, hstore.same .out rfl,
    arrived_out h _ hl]

theorem doMirrorAckFrame_tentative {j : Nat} {e : JEntry} (he : findEntry j s = some e) (ht : e.state = .tentative)
    (hd : s.jr.dups = []) (hm : e.mbx ≠ 6) :
    (∃ d, findEntry j (doMirrorAckFrame f j s) = some d ∧ d.state = .pending ∧ d.cw = e.cw) ∧
    (mbxOf (doMirrorAckFrame f j s) e.mbx).waiting = (mbxOf s e.mbx).waiting ++
      [{ status := 0x00, op := e.op, cw := e.cw, ref := e.jseq % ownSeq, final := false }] ∧
    ((doMirrorAckFrame f j s).jr.high.get {} (cwSrc e.cw)).seq =
      max (s.jr.high.get {} (cwSrc e.cw)).seq (cwSeq e.cw) := by
  have hin := arrived_foot h (.mirrorAck j)
  have hjr : (arrived f (.mirrorAck j) s).jr = s.jr := hin.same .jr rfl
  have hmbx : mbxOf (arrived f (.mirrorAck j) s) e.mbx = mbxOf s e.mbx := mbxOf_congr (hin.same .mbx rfl) _
  have hfound : findEntry j (arrived f (.mirrorAck j) s) = some e := (findEntry_congr (by rw [hjr]) j).trans he
  rw [doMirrorAckFrame, rxFrame_arrived h, mirrored_tentative hfound ht (by rw [hjr, hd])]
  generalize arrived f (.mirrorAck j) s = u at hjr hmbx hfound
  set v := onEntry j (fun e => { e with state := .pending }) (ackTaken j u) with hv
  obtain ⟨ns, hacc⟩ := accepted_jr e v
  refine ⟨⟨{ e with state := .pending }, ?_, rfl, rfl⟩, ?_, ?_⟩
  · refine (findEntry_congr (s := v) (by simp [hacc]) j).trans ?_
    exact findEntry_changed (findEntry_ackTaken hfound) _
  · rw [mbxOf_onJr, mbxOf_accepted hm, ← hmbx]
    simp [hv, onEntry, ackTaken]
  · rw [State.onJr_jr, hacc]
    dsimp only
    rw [raise_seq]
    simp [hv, onEntry, ackTaken, hjr]

theorem doMirrorAckFrame_done {j : Nat} {e : JEntry} (he : findEntry j s = some e) (ht : e.state = .pending)
    (hw : e.doneWait = true) : ∃ d, findEntry j (doMirrorAckFrame f j s) = some d ∧ d.state = .done ∧ d.doneWait = false := by
  have hfound : findEntry j (arrived f (.mirrorAck j) s) = some e :=
    (findEntry_congr (by rw [(arrived_foot h _).same .jr rfl]) j).trans he
  rw [doMirrorAckFrame, rxFrame_arrived h, mirrored_done hfound ht hw]
  refine ⟨{ e with state := .done, doneWait := false, applied := true }, ?_, rfl, rfl⟩
  rw [findEntry_congr (setDone_entries (findEntry_ackTaken hfound))]
  exact findEntry_changed (findEntry_ackTaken hfound) _

end

/-! ## LEASE and SNAPSHOT (R128) -/

/-- TEN driven to an image, which the catch store takes too where it is written at once. -/
theorem applyTen_cat {s : State} (hd : s.ket.imageDue = none) (hr : s.keep.tenRead = true) (image : Half) :
    (applyTen image s).cat.ten = image := by
  have hdrive : (driveTen image s).keep = (applyTen image s).keep := by
    unfold applyTen
    dsimp only
    split <;> rfl
  have hread : (driveTen image s).keep.tenRead = true := by rw [hdrive, applyTen_keep]; exact hr
  have hket : (driveTen image s).ket = s.ket := (driveTen_foot ..).same .ket rfl
  simp [applyTen, hread, hket, hd]

section
variable {f : FrameHdr} {s : State} (h : Comes f s) (hl : s.pair.lead = false)
include h hl

/-- What a Shadow takes of a LEASE frame. -/
theorem doLeaseFrame_eq (m : LeaseMsg) : doLeaseFrame f m s = takeLease m (arrived f (.lease m) s) ∧
    (arrived f (.lease m) s).pair.lead = false :=
  ⟨rxFrame_arrived h .., (congrArg Pair.lead ((arrived_foot h _).same .pair rfl)).trans hl⟩

theorem doLeaseFrame_ten (image : Half) (hd : s.ket.imageDue = none) (hr : s.keep.tenRead = true) :
    (doLeaseFrame f (.ten image) s).keep.ten = image ∧ (doLeaseFrame f (.ten image) s).cat.ten = image ∧
    (pairUp s = true → pairOut s (.lease (.tenAck image)) ∈ (doLeaseFrame f (.ten image) s).out) := by
  obtain ⟨heq, hlead⟩ := doLeaseFrame_eq h hl (.ten image)
  have hin := arrived_foot h (.lease (.ten image))
  have hlink := arrived_link h (.lease (.ten image))
  have hket : (arrived f (.lease (.ten image)) s).ket = s.ket := hin.same .ket rfl
  have hkeep : (arrived f (.lease (.ten image)) s).keep = s.keep := hin.same .keep rfl
  rw [heq]
  generalize arrived f (.lease (.ten image)) s = u at hlead hlink hket hkeep
  have hlink' : SameLink u (applyTen image u) :=
    SameNode.sameLink ⟨by simp, by simp, by simp, by simp, by simp⟩ (fun l => by simp [laneOf]) (by simp) (by simp)
  have htake : takeLease (.ten image) u = sendPair (.lease (.tenAck image)) (applyTen image u) := by simp [takeLease, hlead]
  rw [htake]
  refine ⟨by simp, ?_, fun hup => ?_⟩
  · rw [sendPair_cat]
    exact applyTen_cat (by rw [hket, hd]) (by rw [hkeep, hr]) image
  · rw [← hlink.out, ← hlink'.out]
    exact mem_sendPair (by rw [hlink'.up, hlink.up, hup]) _

theorem doSnapshotFrame_shadow (ws : List Word) (dg : Digest) : (doSnapshotFrame f ws dg s).pair.words = ws ∧
    (doSnapshotFrame f ws dg s).pair.leadDig = some dg := by
  have hlead : (arrived f (.snapshot ws dg) s).pair.lead = false :=
    (congrArg Pair.lead ((arrived_foot h _).same .pair rfl)).trans hl
  rw [doSnapshotFrame, rxFrame_arrived h]
  simp only [hlead, Bool.false_eq_true, if_false]
  split
  · simp
  · exact ⟨rfl, rfl⟩

end

/-! ## BULK (R134) -/

/-- The Shadow eligible and RUNNING again. -/
def streamTaken (s : State) : State :=
  s.onPair fun p => { p with synced := true, board := .running, run := 0, leadDig := none }

/-- The end of the stream at the Shadow, and its acknowledgement. -/
theorem endStream_ends (k : Nat) (s : State) : (endStream k s).pair.synced = true ∧
    (endStream k s).pair.board = .running ∧ (pairUp s = true → pairOut s (.relayAck k) ∈ (endStream k s).out) := by
  have hlink : SameLink s (streamTaken s) := ⟨rfl, fun _ => rfl⟩
  have hack (hup : pairUp s = true) : pairOut s (.relayAck k) ∈ (sendPair (.relayAck k) (streamTaken s)).out := by
    rw [← hlink.out]
    exact mem_sendPair (hlink.up.trans hup) _
  have hpair : (sendPair (.relayAck k) (streamTaken s)).pair = (streamTaken s).pair := sendPair_pair ..
  unfold endStream
  dsimp only
  rw [← streamTaken]
  generalize sendPair (.relayAck k) (streamTaken s) = u at hack hpair
  split <;> exact ⟨by rw [sendPair_pair, hpair]; rfl, by rw [sendPair_pair, hpair]; rfl,
    fun hup => (sendPair_foot ..).sent.subset (hack hup)⟩

/-- Each streamed entry is in the journal that the Shadow takes. -/
theorem takeJournal_takes (es : List JEntry) (high : Tab HighMark) (k : Nat) (s : State) :
    (takeJournal es high k s).jr.jseq = k ∧ (takeJournal es high k s).jr.high = high ∧
    ∀ e ∈ es, ∃ d ∈ (takeJournal es high k s).jr.entries, d.cw = e.cw ∧ d.op = e.op ∧ d.state = e.state :=
  ⟨rfl, rfl, fun e he => ⟨{ e with applied := e.state == .done, doneWait := false },
    List.mem_append_left _ (List.mem_map.2 ⟨e, he, rfl⟩), rfl, rfl, rfl⟩⟩

section
variable {f : FrameHdr} {s : State} (h : Comes f s) (m : BulkMsg)
include h

theorem doBulkFrame_eq (hlast : f.last = true) : doBulkFrame f m s = takeBulk f m (arrived f (.bulk m) s) := by
  rw [doBulkFrame, rxFrame_arrived h, if_pos hlast]

/-- A Shadow that re-synchronises takes its part of the stream. -/
theorem arrived_syncs (hl : s.pair.lead = false) (hs : s.pair.state = .syncing) :
    (!(arrived f (.bulk m) s).pair.lead && (arrived f (.bulk m) s).pair.state == .syncing) = true := by
  rw [(arrived_foot h _).same .pair rfl, hl, hs]
  rfl

end

/-! ## RELAY_ACK (R134) -/

/-- The stream received: the partner is ATTACHED. -/
theorem syncDone_pair (s : State) : (syncDone s).pair.state = .attached ∧ (syncDone s).pair.syncSeq = 0 := by
  have hcore := pairCore_finish0 s.pair.syncSeq 0 (s.onPair fun p => { p with syncSeq := 0 })
  have hseq : (finish0 s.pair.syncSeq 0 (s.onPair fun p => { p with syncSeq := 0 })).pair.syncSeq = 0 :=
    pairCore_part hcore Pair.syncSeq fun _ => rfl
  rw [syncDone, setPair_pair]
  exact ⟨rfl, hseq⟩

theorem doRelayAckFrame_syncs {f : FrameHdr} {k : Word} {s : State} (h : Comes f s) (hl : 2 ≤ f.lane.val)
    (hj : s.pair.syncSeq ≠ 0) (hk : seqAfter s.pair.syncLast k.toNat = false) :
    (doRelayAckFrame f k s).pair.state = .attached ∧ (doRelayAckFrame f k s).pair.syncSeq = 0 := by
  have hpair : (arrived f (.relayAck k.toNat) s).pair = s.pair := (arrived_foot h _).same .pair rfl
  rw [doRelayAckFrame, rxFrame_arrived h]
  simp only [State.onSpn_pair, hpair, hl, hk, bne_iff_ne.mpr hj, decide_true, Bool.and_true, Bool.not_false, if_true]
  exact syncDone_pair _

/-! ## Self-tests and FAULT (R129, R135, R240) -/

theorem doJournalCheck_checked {s : State} (hr : running s = true) (hl : s.pair.lead = false) (ha : attached s = true)
    (dg : Digest) : s.pair.jAt + 1000000 ≤ (doJournalCheck dg s).now ∧
    (doJournalCheck dg s).pair.jAt = (doJournalCheck dg s).now ∧
    (doJournalCheck dg s).pair.jcheck = (if journalDigest s = dg then 0 else 1) := by
  have hdig : journalDigest (reach (s.pair.jAt + 1000000) s) = journalDigest s := by simp [journalDigest]
  simp only [doJournalCheck, hr, hl, ha, hdig, Bool.not_true, Bool.or_self, Bool.false_eq_true, if_false]
  by_cases hsame : journalDigest s = dg
  · simp [hsame, testResult]
  · simp [hsame, testResult]

/-- A record sent to the partner as source 4 has a sequence of its own (R27). -/
theorem askPartner_asks (op : Nat) (body : Bytes) (s : State) : s.pair.askSeq < (askPartner op body s).pair.askSeq ∧
    (askPartner op body s).pair.proofAt = s.pair.proofAt ∧ (askPartner op body s).now = s.now ∧
    (askPartner op body s).can = s.can := by
  have hf := askPartner_foot op body s
  refine ⟨?_, ?_, hf.same .now rfl, hf.same .can rfl⟩
  · rw [askPartner, (relayCommand_foot ..).same .pair rfl]
    simp only [State.onPair_pair]
    omega
  · rw [askPartner, (relayCommand_foot ..).same .pair rfl]
    rfl

theorem doPartnerCanPoll_answered {s : State} (ha : acting s = true) (hd : (canOf s 0).down = true) (hp : attached s = true)
    (w : Word) : s.can.pollAt + 10000 ≤ (doPartnerCanPoll (some w) s).now ∧
    (doPartnerCanPoll (some w) s).can.pollAt = (doPartnerCanPoll (some w) s).now ∧
    (doPartnerCanPoll (some w) s).can.ans = some w ∧
    (doPartnerCanPoll (some w) s).can.ansAt = (doPartnerCanPoll (some w) s).now := by
  have hstate : s.pair.state = .attached := by simpa [attached] using hp
  set u := (reach (s.can.pollAt + 10000) s).onCan fun x =>
    { x with pollAt := (reach (s.can.pollAt + 10000) s).now } with hu
  obtain ⟨-, -, hnow, hcan⟩ := askPartner_asks 0x0004 [] u
  have heq : doPartnerCanPoll (some w) s =
      (askPartner 0x0004 [] u).onCan fun x => { x with ans := some w, ansAt := u.now } := by
    simp only [doPartnerCanPoll, ha, hd, hstate]
    rfl
  rw [heq]
  refine ⟨?_, ?_, rfl, hnow.symm⟩
  · exact (Nat.le_max_right ..).trans_eq ((reach_now ..).symm.trans hnow.symm)
  · rw [State.onCan_can, hcan]
    exact hnow.symm

theorem doCanPairDownFault_reported {s : State} {d : Nat} {w : Word} (hat : s.can.pairAt = some d) (ha : acting s = true)
    (hp : attached s = true) (hw : s.can.ans = some w) (hnow : s.now ≤ s.can.ansAt + 20000)
    (hd : d + 100000 ≤ s.can.ansAt + 20000) (hup : w.toNat % 256 = 1) :
    d + 100000 ≤ (doCanPairDownFault s).now ∧ (doCanPairDownFault s).pair.fault = true := by
  have hstate : s.pair.state = .attached := by simpa [attached] using hp
  have hrep : reportsUp (reach (d + 100000) s) = true := by simp [reportsUp, hw, hstate, hup, hnow, hd]
  simp [doCanPairDownFault, hat, ha, hrep]

theorem doProofIntervalExpiry_asks {s : State} (ha : acting s = true) (hp : attached s = true) :
    s.pair.proofAt + s.kt.proofHours * 3600000000 ≤ (doProofIntervalExpiry s).now ∧
    (doProofIntervalExpiry s).pair.proofAt = (doProofIntervalExpiry s).now ∧
    s.pair.askSeq < (doProofIntervalExpiry s).pair.askSeq := by
  obtain ⟨hseq, hproof, hnow, -⟩ := askPartner_asks 0x0203 (zeros 4 ++ [1] ++ zeros 3)
    ((reach (s.pair.proofAt + s.kt.proofHours * 3600000000) s).onPair fun p =>
      { p with proofAt := (reach (s.pair.proofAt + s.kt.proofHours * 3600000000) s).now })
  have heq : doProofIntervalExpiry s = askPartner 0x0203 (zeros 4 ++ [1] ++ zeros 3)
      ((reach (s.pair.proofAt + s.kt.proofHours * 3600000000) s).onPair fun p =>
        { p with proofAt := (reach (s.pair.proofAt + s.kt.proofHours * 3600000000) s).now }) := by
    simp [doProofIntervalExpiry, ha, hp]
  rw [heq, hproof, hnow]
  refine ⟨?_, rfl, ?_⟩
  · simp
  · simpa using hseq

/-! ## The statement -/

/-- Settles O45: a frame that comes in is taken in a state that its arrival has only counted and forwarded, and a deadline that
is reached ends its wait. -/
theorem pairTrafficCompletes : Obligations.PairTrafficCompletes := by
  unfold Obligations.PairTrafficCompletes
  refine ⟨?_, ?_, ?_, ?_, ?_, ?_, ?_, ?_, ?_, ?_, ?_, ?_, ?_, ?_, ?_, ?_, ?_, ?_⟩
  case refine_1 => exact fun s f j e h he ht hd hm => .next rfl (doMirrorAckFrame_tentative h he ht hd hm)
  case refine_2 => exact fun s f j e h he ht hw => .next rfl (doMirrorAckFrame_done h he ht hw)
  case refine_3 => exact fun s j d e hs he ht hd => .next rfl (doMirrorTimeout_free hs he ht hd)
  case refine_4 => exact fun s f e h hl hn ht => .next rfl (doMirrorFrame_tentative h hl hn ht)
  case refine_5 =>
    intro s f l h hl
    obtain ⟨heq, hlead⟩ := doLeaseFrame_eq h hl (.grant l)
    have hin := arrived_foot h (.lease (.grant l))
    refine .next rfl ?_
    rw [heq]
    simp only [takeLease, hlead, Bool.false_eq_true, if_false, State.onLv_lv, State.onLv_keep]
    exact ⟨by rw [hin.same .lv rfl], hin.same .keep rfl⟩
  case refine_6 =>
    intro s f id h hl
    obtain ⟨heq, hlead⟩ := doLeaseFrame_eq h hl (.ended id)
    have hin := arrived_foot h (.lease (.ended id))
    refine .next rfl ?_
    rw [heq]
    simp only [takeLease, hlead, Bool.false_eq_true, if_false, State.onLv_lv, State.onLv_keep]
    exact ⟨by rw [hin.same .lv rfl], hin.same .keep rfl⟩
  case refine_7 => exact fun s f image h hl hd hr => .next rfl (doLeaseFrame_ten h hl image hd hr)
  case refine_8 =>
    intro s f lines h hl
    obtain ⟨heq, hlead⟩ := doLeaseFrame_eq h hl (.capdn lines)
    refine .next rfl ?_
    rw [heq]
    simp only [takeLease, hlead, Bool.false_eq_true, if_false]
    exact ⟨rfl, (arrived_foot h _).same .keep rfl⟩
  case refine_9 => exact fun s d i ha hs hl hw => .next rfl (doLeaseAckTimeout_detached ha hs hl hw)
  case refine_10 => exact fun s f ws dg h hl => .next rfl (doSnapshotFrame_shadow h hl ws dg)
  case refine_11 =>
    intro s f ls h hlast hl hs
    refine .next rfl ?_
    simp only [doBulkFrame_eq h _ hlast, takeBulk, arrived_syncs h _ hl hs, if_true, State.onLv_lv]
  case refine_12 =>
    intro s f es high k h hlast hl hs
    refine .next rfl ?_
    simp only [doBulkFrame_eq h _ hlast, takeBulk, arrived_syncs h _ hl hs, if_true]
    exact takeJournal_takes ..
  case refine_13 =>
    intro s f data h hlast hl hs
    have hlink := arrived_link h (.bulk (.model data))
    refine .next rfl ?_
    simp only [doBulkFrame_eq h _ hlast, takeBulk, arrived_syncs h _ hl hs, if_true]
    obtain ⟨hsynced, hboard, hack⟩ := endStream_ends f.fseq.toNat ((arrived f (.bulk (.model data)) s).onMem fun m =>
      if (arrived f (.bulk (.model data)) s).pwr.store == .on then data.foldl (fun m p => m.write p.1 p.2) [] else m)
    refine ⟨hsynced, hboard, fun hup => ?_⟩
    rw [← hlink.out]
    exact hack (hlink.up.trans hup)
  case refine_14 => exact fun s f k h hl hj hk => .next rfl (doRelayAckFrame_syncs h hl hj hk)
  case refine_15 => exact fun s dg hr hl ha => .next rfl (doJournalCheck_checked hr hl ha dg)
  case refine_16 => exact fun s w ha hd hp => .next rfl (doPartnerCanPoll_answered ha hd hp w)
  case refine_17 =>
    exact fun s d w hat ha hp hw hnow hd hup => .next rfl (doCanPairDownFault_reported hat ha hp hw hnow hd hup)
  case refine_18 => exact fun s ha hp => .next rfl (doProofIntervalExpiry_asks ha hp)

end Sys2Proof.Machine
end

section
/-! Laws of row traffic, and the statement about it (R123 to R125, R161). -/

namespace Sys2Proof.Machine

/-! ## Events in the logbook (R351, R352) -/

/-- A folio offered to the writer is the latest in the logbook's sequence. -/
theorem addFolio_fseq (f : Folio) (s : State) : (addFolio f s).log.fseq = f.fseq := by
  unfold addFolio
  dsimp only
  split <;> simp [logFolio]

/-- While no freeze holds, an event takes one folio sequence: no thaw is reported with it. -/
theorem event_fseq {s : State} (h : s.log.freeze = none) (code : Half) (sev : Nat) (data : List Nat) (cw : DWord)
    (ref : Nat) : (event code sev data cw ref s).log.fseq = s.log.fseq + 1 := by
  have hbreak (u : State) : reportBreak s.log sev u = u := by simp [reportBreak, breaks, h]
  rw [event, hbreak, folioEvent]
  split
  · exact addFolio_fseq ..
  · rw [(ringEvent_foot ..).same .log rfl]
    exact addFolio_fseq ..

/-! ## Trip mirrors, cuts and demands (R124, R125, R161) -/

/-- The state in which a trip mirror is due: at once where the trip image has changed, else 100 ms after the last one. -/
def mirrorDue (s : State) : State := if s.ket.trip = s.spn.tripSent then reach (s.spn.tripAt + 100000) s else s

theorem mirrorDue_foot (s : State) : Foot [.now, .pmc] s (mirrorDue s) := .ite (reach_foot ..) .refl

/-- A trip mirror noted as sent. -/
def tripNoted (s : State) : State := s.onSpn fun p => { p with tripAt := s.now, tripSent := s.ket.trip }

/-- An acting Lead in the ring sends its trip image when the mirror is due. -/
theorem doTripMirrorSend_eq {s : State} (ha : acting s = true) (hi : inserted s = true) : doTripMirrorSend s =
    sendSpine 0xFF (.trip s.ket.trip (BitVec.ofNat 32 (latchedLeaks s)) (lastTripRef s)) (tripNoted (mirrorDue s)) := by
  by_cases hsame : s.ket.trip = s.spn.tripSent
  · simp [doTripMirrorSend, mirrorDue, tripNoted, ha, hi, hsame, latchedLeaks, lastTripRef, leakOf]
  · simp [doTripMirrorSend, mirrorDue, tripNoted, ha, hi, hsame, latchedLeaks, lastTripRef, leakOf]

theorem doTripMirrorSend_sends {s : State} (ha : acting s = true) (hi : inserted s = true) :
    (s.ket.trip = s.spn.tripSent → s.spn.tripAt + 100000 ≤ (doTripMirrorSend s).now) ∧
    (doTripMirrorSend s).spn.tripSent = s.ket.trip ∧ (doTripMirrorSend s).out =
      rowOut s 0xFF (.trip s.ket.trip (BitVec.ofNat 32 (latchedLeaks s)) (lastTripRef s)) :: s.out := by
  have hdue := mirrorDue_foot s
  have hspn : (mirrorDue s).spn = s.spn := hdue.same .spn rfl
  have hn : SameNode s (mirrorDue s) :=
    ⟨hdue.same .pwr rfl, hdue.same .boot rfl, hdue.same .otp rfl, hdue.same .kt rfl, hdue.same .pair rfl⟩
  have hin : inserted (mirrorDue s) = true := (hn.inserted (by rw [hspn])).trans hi
  rw [doTripMirrorSend_eq ha hi]
  generalize Payload.trip _ _ _ = p
  have hc := sendSpine_carried 0xFF p (tripNoted (mirrorDue s))
  refine ⟨fun hsame => ?_, ?_, ?_⟩
  · rw [hc.now, mirrorDue, if_pos hsame]
    exact (Nat.le_max_right ..).trans_eq (reach_now ..).symm
  · rw [hc.part Spine.tripSent fun _ => rfl]
    exact congrArg Kettle.trip (hdue.same .ket rfl)
  · have hrow : rowOut (mirrorDue s) 0xFF p = rowOut s 0xFF p := hn.rowOut (by rw [hspn]) (by rw [hspn]) ..
    have hout : (mirrorDue s).out = s.out := hdue.same .out rfl
    rw [← hrow, ← hout]
    exact out_sendSpine (s := tripNoted (mirrorDue s)) hin 0xFF p

/-- The trips of an origin noted in the census entries of its address. -/
def tripsNoted (src : Nat) (trips : Half) (s : State) : State := s.onSpn fun p => { p with
  census := p.census.map fun c => if entryAddr c.2.entry == src then (c.1, { c.2 with trips := trips }) else c }

theorem trips_tripsNoted {src : Nat} {trips : Half} {s : State} :
    ∀ c ∈ (tripsNoted src trips s).spn.census, entryAddr c.2.entry = src → c.2.trips = trips := by
  intro c hc hsrc
  obtain ⟨d, -, rfl⟩ := List.mem_map.mp hc
  split at hsrc
  next heq => rw [if_pos heq]
  next hne => exact absurd (beq_iff_eq.mpr hsrc) hne

/-- A TRIP frame taken is noted in the census and reported, and changes no trip, TEN or CAPDN line here. -/
theorem doTripFrame_noted {f : FrameHdr} {s : State} (h : Comes f s) (trips : Half) (leaks folio : Word) :
    (∀ c ∈ (doTripFrame f trips leaks folio s).spn.census, entryAddr c.2.entry = f.src.toNat → c.2.trips = trips) ∧
    (doTripFrame f trips leaks folio s).ket = s.ket ∧ (doTripFrame f trips leaks folio s).keep.ten = s.keep.ten ∧
    (doTripFrame f trips leaks folio s).keep.capdn = s.keep.capdn ∧ (doTripFrame f trips leaks folio s).lv = s.lv ∧
    (doTripFrame f trips leaks folio s).drv = s.drv ∧
    (s.log.freeze = none → (doTripFrame f trips leaks folio s).log.fseq = s.log.fseq + 1) := by
  have hin := arrived_foot h (.trip trips leaks folio.toNat)
  set u := tripsNoted f.src.toNat trips (arrived f (.trip trips leaks folio.toNat) s)
  have heq : doTripFrame f trips leaks folio s =
      event 0x0511 2 [f.src.toNat, trips.toNat, leaks.toNat, folio.toNat] 0 0 u := rxFrame_arrived h ..
  have hev := event_foot 0x0511 2 [f.src.toNat, trips.toNat, leaks.toNat, folio.toNat] 0 0 u
  have hcore := hev.same .core rfl
  have hkeep : u.keep = s.keep := hin.same .keep rfl
  have hlog : u.log = s.log := hin.same .log rfl
  rw [heq]
  refine ⟨?_, (hev.same .ket rfl).trans (hin.same .ket rfl), ?_, ?_, (hev.same .lv rfl).trans (hin.same .lv rfl),
    (hev.same .drv rfl).trans (hin.same .drv rfl), fun hfree => ?_⟩
  · rw [(event_carried ..).census]
    exact trips_tripsNoted
  · rw [keepCore_ten hcore, hkeep]
  · rw [keepCore_capdn hcore, hkeep]
  · rw [event_fseq (by rw [hlog, hfree]), hlog]

theorem mem_addCut (a : Nat) (west : Bool) (s : State) : (a, west) ∈ (addCut a west s).spn.cuts := by
  simp only [addCut, State.onSpn_spn]
  split
  next h => exact List.contains_iff_mem.mp h
  next => simp

theorem addCut_formed (a : Nat) (west : Bool) (s : State) : (addCut a west s).spn.formed = s.spn.formed := rfl

theorem enterDemand_lv (d : Demand) (s : State) :
    (enterDemand d s).lv = { s.lv with demands := s.lv.demands.set d.pos.toNat (s.now, d) } := by
  unfold enterDemand
  dsimp only
  split
  · rw [sendPair_lv, State.onLv_lv]
  · rfl

section
variable {f : FrameHdr} {s : State} (h : Comes f s)
include h

theorem arrived_isMaster (p : Payload) : isMaster (arrived f p s) = isMaster s := (rxCheck_comes h p).2.isMaster

theorem arrived_formed (p : Payload) : (arrived f p s).spn.formed = s.spn.formed := (rxCheck_comes h p).2.formed

theorem arrived_onArc (p : Payload) (pos : Nat) : onArc (arrived f p s) pos = onArc s pos := by
  have hcensus : (arrived f p s).spn.census = s.spn.census := (rxCheck_comes h p).2.census
  rw [onArc, onArc, hcensus]

/-- The acting master alone enters a demand, and only from a position on the arc. -/
theorem doDemandFrame_eq (d : Demand) : doDemandFrame f d s =
    if isMaster s && onArc s d.pos.toNat then enterDemand d (arrived f (.demand d) s) else arrived f (.demand d) s := by
  rw [doDemandFrame, rxFrame_arrived h, arrived_isMaster h, arrived_onArc h]

end

/-! ## Fragments received (R123) -/

section
variable {f : FrameHdr} {data : Bytes} {s : State}

/-- A record of one fragment from an origin that no fragment has come from is taken whole, where its mailbox is free. -/
theorem takeFragment_whole (hl : f.last = true)
    (hrx : s.spn.relayRx.find (256 * (f.lane.val / 2) + f.src.toNat) = none)
    (hbuf : s.spn.relayBuf.get [] (256 * (f.lane.val / 2) + f.src.toNat) = [])
    (hb : (mbxOf s (if 2 ≤ f.lane.val then 4 else 5)).busy = false) :
    ∃ u, takeFragment f data s = (some data, u) ∧ u.spn.asked = s.spn.asked ∧
      u.spn.relayRx.find (256 * (f.lane.val / 2) + f.src.toNat) = some f.fseq.toNat ∧
      256 * (f.lane.val / 2) + f.src.toNat ∈ u.spn.relayAck := by
  refine ⟨(takeFragment f data s).2, Prod.ext ?_ rfl, ?_⟩
  · simp [takeFragment, hl, hrx, hbuf, hb]
  · simp only [takeFragment, hl, hrx, hbuf, hb]
    refine ⟨by simp, by simp, ?_⟩
    by_cases hin : 256 * (f.lane.val / 2) + f.src.toNat ∈ s.spn.relayAck <;> simp [hin]

/-- A relayed command fills the request window of its mailbox. -/
theorem takeRelayed_command (ha : s.spn.asked.contains (BitVec.ofNat 64 (fld data 8 8)) = false) :
    (mbxOf (takeRelayed f data s) (if 2 ≤ f.lane.val then 4 else 5)).busy = true ∧
    (mbxOf (takeRelayed f data s) (if 2 ≤ f.lane.val then 4 else 5)).window = Mem.writeN [] 0 (data.take 4096) ∧
    (takeRelayed f data s).spn = s.spn := by
  simp only [takeRelayed, ha, Bool.false_eq_true, if_false]
  rw [mbxOf_congr (countRise_mbx ..), mbxOf_onBox, countRise_spn]
  exact ⟨rfl, rfl, rfl⟩

end

/-! ## Fragments acknowledged and sent again (R123) -/

/-- The state in which the acknowledgements that are due go out. -/
def acksDue (s : State) : State := (reach (s.spn.relayAckAt + 100) s).onSpn fun p =>
  { p with relayAck := [], relayAckAt := max s.now (s.spn.relayAckAt + 100) }

theorem acksDue_node (s : State) : SameNode s (acksDue s) := (reach_node ..).trans (onSpn_node ..)

/-- The acknowledgement of the one origin that waits for it. -/
theorem doRelayAckSend_eq {s : State} {k : Nat} (hk : s.spn.relayAck = [k]) (hr : running s = true) :
    doRelayAckSend s = sendAck k (acksDue s) := by
  simp [doRelayAckSend, acksDue, hk, hr]

theorem sendAck_carried (k : Nat) (s : State) : Carried s (sendAck k s) := by
  unfold sendAck
  exact .ite (sendPair_carried ..) (sendSpine_carried ..)

theorem doRelayAckSend_waits {s : State} {k : Nat} (hk : s.spn.relayAck = [k]) (hr : running s = true) :
    s.spn.relayAckAt + 100 ≤ (doRelayAckSend s).now ∧ (doRelayAckSend s).spn.relayAck = [] := by
  have hc := sendAck_carried k (acksDue s)
  rw [doRelayAckSend_eq hk hr]
  refine ⟨?_, hc.part Spine.relayAck fun _ => rfl⟩
  rw [hc.now]
  simp [acksDue]

theorem out_doRelayAckSend_spine {s : State} {k : Nat} (hk : s.spn.relayAck = [k]) (hlt : k < 256)
    (hi : inserted s = true) : (doRelayAckSend s).out = rowOut s k (.relayAck (s.spn.relayRx.get 0 k)) :: s.out := by
  have hn := acksDue_node s
  rw [doRelayAckSend_eq hk (Bool.and_eq_true_iff.mp hi).1, sendAck, if_neg (Nat.not_le.mpr hlt), Nat.mod_eq_of_lt hlt,
    out_sendSpine ((hn.inserted (by simp [acksDue])).trans hi), hn.rowOut (by simp [acksDue]) (by simp [acksDue])]
  simp [acksDue]

theorem out_doRelayAckSend_pair {s : State} {k : Nat} (hk : s.spn.relayAck = [k]) (hle : 256 ≤ k)
    (hup : pairUp s = true) : (doRelayAckSend s).out = pairOut s (.relayAck (s.spn.relayRx.get 0 k)) :: s.out := by
  have hlink := (acksDue_node s).sameLink (fun l => by simp [acksDue, laneOf]) (by simp [acksDue]) (by simp [acksDue])
  rw [doRelayAckSend_eq hk (Bool.and_eq_true_iff.mp hup).1, sendAck, if_pos hle, out_sendPair (hlink.up.trans hup),
    hlink.out]
  simp [acksDue]

/-- While no stream waits for its end, RELAY_ACK takes the fragments that it acknowledges out of those that wait. -/
theorem mem_relayTx_doRelayAckFrame {f : FrameHdr} {s : State} (h : Comes f s) (hs : s.pair.syncSeq = 0) (k : Word)
    (x : RelayTx) : x ∈ (doRelayAckFrame f k s).spn.relayTx ↔ x ∈ s.spn.relayTx ∧
      !(x.pair == decide (2 ≤ f.lane.val) && (x.pair || x.dst == f.src.toNat || x.dst == 0xFE) &&
        !seqAfter x.fseq k.toNat) := by
  have hpair : (arrived f (.relayAck k.toNat) s).pair = s.pair := (arrived_foot h _).same .pair rfl
  have htx : (arrived f (.relayAck k.toNat) s).spn.relayTx = s.spn.relayTx :=
    (rxCheck_comes h _).2.part Spine.relayTx fun _ => rfl
  rw [doRelayAckFrame, rxFrame_arrived h]
  simp only [State.onSpn_pair, hpair, hs, bne_self_eq_false, Bool.and_false, Bool.false_and, Bool.false_eq_true, if_false,
    State.onSpn_spn, htx, List.mem_filter]

theorem resendFragment_carried (x : RelayTx) (s : State) : Carried s (resendFragment x s) := by
  unfold resendFragment
  have hsent := emit_carried (.frame x.pair (nodeAddr s) x.dst (s.spn.gen % 256) x.fseq (.relay x.last x.data)) s
  exact .ite (.refl s) (.ite (hsent.trans (bulkSent_carried ..))
    ((hsent.trans (laneSent_carried ..)).trans (laneSent_carried ..)))

theorem out_resendFragment {x : RelayTx} {s : State} (h : (if x.pair then pairUp s else inserted s) = true) :
    (resendFragment x s).out =
      .frame x.pair (nodeAddr s) x.dst (s.spn.gen % 256) x.fseq (.relay x.last x.data) :: s.out := by
  simp only [resendFragment, h, Bool.not_true, Bool.false_eq_true, if_false]
  split <;> simp [emit]

/-- The one fragment that waits goes again after 200 µs. -/
theorem doRelayResend_eq {s : State} {x : RelayTx} (hx : s.spn.relayTx = [x]) (hr : running s = true) : doRelayResend s =
    (resendFragment x (reach (x.at_ + 200) s)).onSpn fun p => { p with
      relayTx := p.relayTx.map fun y =>
        if y.pair == x.pair && y.dst == x.dst then { y with at_ := max s.now (x.at_ + 200) } else y } := by
  have hnow : (resendFragment x (reach (x.at_ + 200) s)).now = max s.now (x.at_ + 200) := by
    rw [(resendFragment_carried ..).now, reach_now]
  simp [doRelayResend, hx, hr, hnow]

theorem doRelayResend_resends {s : State} {x : RelayTx} (hx : s.spn.relayTx = [x]) (hr : running s = true)
    (hup : (if x.pair then pairUp s else inserted s) = true) : x.at_ + 200 ≤ (doRelayResend s).now ∧
    (doRelayResend s).spn.relayTx = [{ x with at_ := (doRelayResend s).now }] ∧ (doRelayResend s).out =
      .frame x.pair (nodeAddr s) x.dst (s.spn.gen % 256) x.fseq (.relay x.last x.data) :: s.out := by
  have hn := reach_node (x.at_ + 200) s
  have hlink := hn.sameLink (fun l => by simp [laneOf]) (by simp) (by simp)
  have hup' : (if x.pair then pairUp (reach (x.at_ + 200) s) else inserted (reach (x.at_ + 200) s)) = true := by
    rw [hlink.up, hn.inserted (by simp), hup]
  have hc := resendFragment_carried x (reach (x.at_ + 200) s)
  have htx : (resendFragment x (reach (x.at_ + 200) s)).spn.relayTx = [x] := by
    rw [hc.part Spine.relayTx fun _ => rfl, reach_spn, hx]
  rw [doRelayResend_eq hx hr]
  refine ⟨by simp [hc.now], by simp [htx, hc.now], ?_⟩
  rw [State.onSpn_out, out_resendFragment hup', hn.nodeAddr, reach_spn, reach_out]

/-! ## The statement -/

/-- Settles O42: a frame that comes in is taken in a state that its arrival has only counted and forwarded, and one that goes
out leaves with its row's figures. -/
theorem rowTrafficCompletes : Obligations.RowTrafficCompletes := by
  unfold Obligations.RowTrafficCompletes
  refine ⟨?mirror, ?trip, ?cut, ?demand, ?noDemand, ?relay, ?ackSpine, ?ackPair, ?acked, ?resend⟩
  case mirror => exact fun s ha hi => .next rfl (doTripMirrorSend_sends ha hi)
  case trip => exact fun s f trips leaks folio h => .next rfl (doTripFrame_noted h trips leaks folio)
  case cut =>
    intro s f a west h
    refine .next (t := doBreakFrame f a.val west s) rfl ?_
    rw [doBreakFrame, rxFrame_arrived h]
    exact ⟨mem_addCut .., (addCut_formed ..).trans (arrived_formed h _)⟩
  case demand =>
    intro s f d h hm ha
    refine .next (t := doDemandFrame f d s) rfl ?_
    rw [doDemandFrame_eq h, hm, ha, Bool.and_self, if_pos rfl, enterDemand_lv, (arrived_foot h _).same .now rfl]
    exact Tab.find_set_same ..
  case noDemand =>
    intro s f d h hor
    refine .next (t := doDemandFrame f d s) rfl ?_
    rw [doDemandFrame_eq h, Bool.and_eq_false_iff.mpr hor, if_neg Bool.false_ne_true, (arrived_foot h _).same .lv rfl]
  case relay =>
    intro s f data m h hm hl hrx hbuf hask hb
    subst hm
    obtain ⟨hme, hc⟩ := rxCheck_comes h (.relay f.last data)
    obtain ⟨u, htake, hasked, hplace, hack⟩ := takeFragment_whole (data := data) hl
      ((congrArg (Tab.find · _) (hc.part Spine.relayRx fun _ => rfl)).trans hrx)
      ((congrArg (Tab.get [] · _) (hc.part Spine.relayBuf fun _ => rfl)).trans hbuf)
      ((congrArg Mailbox.busy (mbxOf_congr (hc.foot.same .mbx rfl) _)).trans hb)
    have heq : doRelayFrame f data s = takeRelayed f data u := by simp [doRelayFrame, hme, htake]
    obtain ⟨hbusy, hwin, hspn⟩ := takeRelayed_command (f := f) (data := data) (s := u)
      (by rw [hasked, hc.part Spine.asked fun _ => rfl, hask])
    refine .next (t := doRelayFrame f data s) rfl ?_
    rw [heq, hspn]
    exact ⟨hbusy, hwin, hplace, hack⟩
  case ackSpine =>
    intro s k hk hlt hi
    obtain ⟨hat, hnone⟩ := doRelayAckSend_waits hk (Bool.and_eq_true_iff.mp hi).1
    exact .next rfl ⟨hat, hnone, out_doRelayAckSend_spine hk hlt hi⟩
  case ackPair =>
    intro s k hk hle hup
    obtain ⟨hat, hnone⟩ := doRelayAckSend_waits hk (Bool.and_eq_true_iff.mp hup).1
    exact .next rfl ⟨hat, hnone, out_doRelayAckSend_pair hk hle hup⟩
  case acked =>
    intro s f k h hs
    refine .next (t := doRelayAckFrame f k s) rfl ?_
    simp only [mem_relayTx_doRelayAckFrame h hs]
    refine ⟨fun x hx => ?_, fun x hx => hx.1, fun x hx hpair hdst => ?_⟩
    · cases hseq : seqAfter x.fseq k.toNat
      · exact .inr rfl
      · exact .inl ⟨hx, by simp⟩
    · obtain ⟨-, hkept⟩ := hx
      have hmine : (x.pair || x.dst == f.src.toNat || x.dst == 0xFE) = true := by
        rcases hdst with hdst | hdst
        · simp [hdst]
        · simp [hdst]
      simpa only [hmine, beq_iff_eq.mpr hpair, Bool.true_and, Bool.not_not] using hkept
  case resend => exact fun s x hx hr hup => .next rfl (doRelayResend_resends hx hr hup)

end Sys2Proof.Machine
end

section
/-! Laws of lanes, bypasses and LREFCLK, and the statement about them (R111, R119, R125). -/

namespace Sys2Proof.Machine

/-! ## What leaves the ring and the lanes as they are -/

/-- The ring and the lanes are as before, but for the counts and the sequence numbers of frames. -/
structure SameRing (s t : State) : Prop where
  ring : ringCore t.spn = ringCore s.spn
  lane : ∀ l, laneCore (laneOf t l) = laneCore (laneOf s l)

theorem SameRing.refl (s : State) : SameRing s s := ⟨rfl, fun _ => rfl⟩

theorem SameRing.trans {s t u : State} (h : SameRing s t) (g : SameRing t u) : SameRing s u :=
  ⟨g.ring.trans h.ring, fun l => (g.lane l).trans (h.lane l)⟩

theorem SameRing.ite {c : Prop} [Decidable c] {s t u : State} (h : SameRing s t) (g : SameRing s u) :
    SameRing s (if c then t else u) := by
  split
  · exact h
  · exact g

theorem SameRing.foldl {α : Type} {s u : State} {f : State → α → State} {xs : List α} (h : SameRing s u)
    (hf : ∀ v a, SameRing v (f v a)) : SameRing s (xs.foldl f u) :=
  List.foldlRecOn (motive := SameRing s) _ _ h fun v hv a _ => hv.trans (hf v a)

theorem SameRing.of_spn {s t : State} (h : t.spn = s.spn) : SameRing s t := ⟨by rw [h], fun l => by rw [laneOf, laneOf, h]⟩

theorem Carried.sameRing {s t : State} (h : Carried s t) : SameRing s t := ⟨h.ring, h.lane⟩

section
variable {s t : State} (h : SameRing s t)
include h

/-- A part of the Spine node that is no lane and no sequence number is as before. -/
theorem SameRing.part {α : Type} (f : Spine → α) (hf : ∀ p, f (ringCore p) = f p) : f t.spn = f s.spn := by
  rw [← hf, h.ring, hf]
/-- A part of a lane that is no count of frames is as before. -/
theorem SameRing.lanePart {α : Type} (f : Lane → α) (hf : ∀ x, f (laneCore x) = f x) (l : Nat) :
    f (laneOf t l) = f (laneOf s l) := by
  rw [← hf, h.lane, hf]

theorem SameRing.up (l : Nat) : (laneOf t l).up = (laneOf s l).up := h.lanePart Lane.up (fun _ => rfl) l
theorem SameRing.insert : t.spn.insert = s.spn.insert := h.part Spine.insert fun _ => rfl

end

/-! ## The loss of the partner leaves the ring and the lanes (R23, R134) -/

theorem setDone_sameRing (j : Nat) (s : State) : SameRing s (setDone j s) := .of_spn ((setDone_foot ..).same .spn rfl)

theorem mirror_sameRing (e : JEntry) (s : State) : SameRing s (mirror e s) :=
  .trans (.of_spn (by split <;> simp)) (sendPair_carried ..).sameRing

theorem finish_sameRing (j : Nat) (r : Word) (d : Bytes) (s : State) : SameRing s (finish j r d s) := by
  have hentry (f : JEntry → JEntry) (u : State) : SameRing u (onEntry j f u) := .of_spn rfl
  unfold finish
  split
  · exact .refl s
  split
  · exact .refl s
  split
  · exact .ite ((hentry _ s).trans (sendPair_carried ..).sameRing) (hentry _ s)
  dsimp only
  split
  · exact (hentry _ s).trans (mirror_sameRing ..)
  split
  · exact ((sendPair_carried ..).sameRing.trans (hentry ..)).trans (setDone_sameRing ..)
  · exact (hentry _ s).trans (setDone_sameRing ..)

theorem finish0_sameRing (j : Nat) (r : Word) (s : State) : SameRing s (finish0 j r s) := finish_sameRing ..

theorem endSync_sameRing (s : State) : SameRing s (endSync s) := by
  have hclear : SameRing s (s.onPair fun p => { p with syncSeq := 0 }) := .of_spn rfl
  exact .ite (.refl s) (hclear.trans (finish0_sameRing ..))

theorem lostEntry_sameRing (e : JEntry) (s : State) : SameRing s (lostEntry e s) := by
  unfold lostEntry
  dsimp only
  split
  · exact .refl s
  split
  · exact finish0_sameRing ..
  split
  · exact .ite (.refl s) (finish0_sameRing ..)
  · exact .refl s

theorem settleStop_sameRing (t : Nat) (s : State) : SameRing s (settleStop t s) :=
  .ite (.refl s) (.foldl (.of_spn rfl) fun _ _ => finish0_sameRing ..)

theorem afterTen_sameRing (s : State) : SameRing s (afterTen s) := by
  refine .foldl ?_ fun _ _ => settleStop_sameRing ..
  split
  · exact .ite (.of_spn rfl) (.refl s)
  · exact .refl s

theorem takeTen_sameRing (s : State) : SameRing s (takeTen s) := by
  unfold takeTen
  split
  · exact .trans (.of_spn (by simp)) (afterTen_sameRing _)
  · exact .refl s

theorem setPair_sameRing (st : PairState) (s : State) : SameRing s (setPair st s) := by
  have hset : SameRing s (s.onPair fun p => { p with state := st }) := .of_spn rfl
  have hev (code : Half) (sev : Nat) (data : List Nat) :
      SameRing s (event code sev data 0 0 (s.onPair fun p => { p with state := st })) :=
    hset.trans (event_carried ..).sameRing
  unfold setPair
  split
  · exact .refl s
  extract_lets was t u
  have hu : SameRing s u := .ite (hev ..) (hev ..)
  exact .ite hu (hu.trans (.of_spn (msix_spn ..)))

theorem losePartner_sameRing (st : PairState) (s : State) : SameRing s (losePartner st s) := by
  have hend : SameRing s ((endSync (setPair st s)).onPair fun p => { p with switch := 0 }) :=
    ((setPair_sameRing st s).trans (endSync_sameRing _)).trans (.of_spn rfl)
  exact .ite hend (.trans (.foldl hend fun _ _ => lostEntry_sameRing ..) (takeTen_sameRing _))

theorem pairLaneLost_sameRing (s : State) : SameRing s (pairLaneLost s) :=
  .ite (losePartner_sameRing ..) (.ite (losePartner_sameRing ..) (.refl s))

/-- The lane check reports its result, and changes no lane. -/
theorem laneTest_sameRing (s : State) : SameRing s (laneTest s) := by
  have htest : SameRing s (testResult 3 (lanesGood s) s) := .of_spn rfl
  exact .ite (.refl s) (.ite htest (htest.trans (event_carried ..).sameRing))

theorem laneTest_now (s : State) : (laneTest s).now = s.now := (laneTest_foot s).same .now rfl

/-! ## Lanes marked down and bypasses engaged (R111, R119) -/

theorem laneOf_onLane_other {n l : Nat} (h : l ≠ n) (f : Lane → Lane) (s : State) :
    laneOf (onLane n f s) l = laneOf s l := Tab.get_mod_other _ _ _ h

/-- A change of the Spine node that leaves its lanes leaves each of them. -/
theorem laneOf_onSpn {f : Spine → Spine} {s : State} (h : (f s.spn).lanes = s.spn.lanes) (l : Nat) :
    laneOf (s.onSpn f) l = laneOf s l := by rw [laneOf, laneOf, State.onSpn_spn, h]

@[simp] theorem laneOf_retryLater (l : Nat) (s : State) : laneOf (retryLater s) l = laneOf s l := laneOf_onSpn rfl l

/-- A lane that is up is marked down, and that is counted. -/
theorem laneOf_dropLane_same {n : Nat} {s : State} (h : (laneOf s n).up = true) : laneOf (dropLane n s) n =
    { laneOf s n with up := false, downs := (laneOf s n).downs + 1, downAt := s.now, echo := false } := by
  simp [dropLane, h]

/-- The lanes that are up once one is marked down. -/
@[simp] theorem up_dropLane (n l : Nat) (s : State) : (laneOf (dropLane n s) l).up = (l != n && (laneOf s l).up) := by
  by_cases hl : l = n
  · subst hl
    cases h : (laneOf s l).up
    · simp [dropLane, h]
    · simp [laneOf_dropLane_same h]
  · have hother : laneOf (dropLane n s) l = laneOf s l := by
      unfold dropLane
      dsimp only
      split
      · exact laneOf_onLane_other hl ..
      · rfl
    rw [hother, bne_iff_ne.mpr hl, Bool.true_and]

/-- A lane marked down changes nothing else of the Spine node. -/
theorem dropLane_ring (n : Nat) (s : State) : ringCore (dropLane n s).spn = ringCore s.spn := by
  unfold dropLane
  dsimp only
  split <;> rfl

/-- With both bypasses engaged the Spine lanes are down. -/
@[simp] theorem up_engage (l : Nat) (s : State) :
    (laneOf (engage s) l).up = (l != 1 && (l != 0 && (laneOf s l).up)) := by
  rw [engage, laneOf_onSpn rfl, up_dropLane, up_dropLane]

theorem engage_ring (s : State) : ringCore (engage s).spn = { ringCore s.spn with insert := .out, insertAt := none } := by
  change { ringCore (dropLane 1 (dropLane 0 s)).spn with insert := .out, insertAt := none } = _
  rw [dropLane_ring, dropLane_ring]

/-- A part of the Spine node that is neither a lane nor of the insertion is as before the bypasses engage. -/
theorem engage_part {α : Type} (f : Spine → α) (s : State)
    (hf : ∀ p, f { ringCore p with insert := .out, insertAt := none } = f p) : f (engage s).spn = f s.spn := by
  have h : f { ringCore (engage s).spn with insert := .out, insertAt := none } =
      f { ringCore s.spn with insert := .out, insertAt := none } := by rw [engage_ring]
  rwa [hf, hf] at h

/-! ## Rows of the bypass sequence (R119, Table 05-4) -/

/-- A lane not up 10 ms after its release: the bypasses engage, and insertion is tried again later. -/
theorem doPortInsertTimeout_carried {s : State} {d : Nat} (h : s.spn.insertAt = some d) :
    Carried (retryLater (engage (reach d s))) (doPortInsertTimeout s) := by
  simp only [doPortInsertTimeout, h]
  exact event_carried ..

/-- With LREFCLK lost every lane is down and both bypasses are engaged. -/
def lrefclkLost (s : State) : State :=
  (dropLane 3 (dropLane 2 (engage (s.onSpn fun p => { p with lref := false })))).onSpn fun p => { p with retryAt := none }

theorem doLrefclkLoss_sameRing {s : State} (hl : s.spn.lref = true) (hr : running s = true) :
    SameRing (lrefclkLost s) (doLrefclkLoss s) := by
  have heq : doLrefclkLoss s = laneTest (pairLaneLost (event 0x050F 3 [] 0 0 (lrefclkLost s))) := by
    have hr' : running (s.onSpn fun p => { p with lref := false }) = true := hr
    simp only [doLrefclkLoss, hl, hr', Bool.not_true, Bool.false_eq_true, if_false, lrefclkLost]
  rw [heq]
  exact ((event_carried ..).sameRing.trans (pairLaneLost_sameRing _)).trans (laneTest_sameRing _)

theorem up_lrefclkLost (s : State) {l : Nat} (h : l < 4) : (laneOf (lrefclkLost s) l).up = false := by
  rw [lrefclkLost, laneOf_onSpn rfl, up_dropLane, up_dropLane, up_engage]
  interval_cases l <;> rfl

theorem lrefclkLost_ring (s : State) : ringCore (lrefclkLost s).spn =
    { ringCore s.spn with lref := false, insert := .out, insertAt := none, retryAt := none } := by
  change { ringCore (dropLane 3 (dropLane 2 (engage (s.onSpn fun p => { p with lref := false })))).spn with
    retryAt := none } = _
  rw [dropLane_ring, dropLane_ring, engage_ring]
  rfl

/-! ## LANE_DOWN and LANE_UP (R111, R119, R125) -/

/-- A Spine lane down: the cut at its port is recorded, the bypasses engage, and insertion is tried again later. -/
theorem doLaneDown_spine {n : Nat} {s : State} (hr : running s = true) (hu : (laneOf s n).up = true) (hn : n < 2) :
    ∃ u, SameRing (retryLater (engage (addCut (nodeAddr s) (n == 1) u))) (doLaneDown n s) := by
  set v := event 0x0502 2 [n] 0 0 (dropLane n s) with hv
  set w := if inserted v then sendSpine 0xFF (.break_ (nodeAddr v) (n == 1)) v else v with hw
  have hdrop := dropLane_foot n s
  have hnode : SameNode s w :=
    (SameNode.trans ⟨hdrop.same .pwr rfl, hdrop.same .boot rfl, hdrop.same .otp rfl, hdrop.same .kt rfl,
      hdrop.same .pair rfl⟩ (event_carried ..).node).trans (Carried.ite (sendSpine_carried ..) (.refl v)).node
  refine ⟨w, ?_⟩
  have heq : doLaneDown n s = laneTest (retryLater (engage (addCut (nodeAddr w) (n == 1) w))) := by
    simp only [doLaneDown, hr, hu, hn, Bool.not_true, Bool.or_self, Bool.false_eq_true, if_false, if_true, ← hv, ← hw]
  rw [heq, hnode.nodeAddr]
  exact laneTest_sameRing _

/-- A pair lane down leaves the Spine lanes and the insertion. -/
theorem doLaneDown_pair {n : Nat} {s : State} (hr : running s = true) (hu : (laneOf s n).up = true) (hn : 2 ≤ n) :
    SameRing (dropLane n s) (doLaneDown n s) := by
  simp only [doLaneDown, hr, hu, Nat.not_lt.mpr hn, Bool.not_true, Bool.or_self, Bool.false_eq_true, if_false]
  exact ((event_carried ..).sameRing.trans (pairLaneLost_sameRing _)).trans (laneTest_sameRing _)

/-- A lane marked up, with its report and the lane check. -/
def laneRaised (n : Nat) (s : State) : State :=
  laneTest (event 0x0503 1 [n] 0 0 (onLane n (fun l => { l with up := true }) s))

section
variable (n : Nat) (s : State)

theorem laneRaised_sameRing : SameRing (onLane n (fun l => { l with up := true }) s) (laneRaised n s) :=
  (event_carried ..).sameRing.trans (laneTest_sameRing _)

theorem laneRaised_now : (laneRaised n s).now = s.now := by
  rw [laneRaised, laneTest_now, event_now]
  rfl

theorem up_laneRaised : (laneOf (laneRaised n s) n).up = true := by
  rw [(laneRaised_sameRing n s).up, laneOf_onLane_same]

/-- A part of the Spine node that is no lane and no sequence number is as before a lane is marked up. -/
theorem laneRaised_part {α : Type} (f : Spine → α) (hf : ∀ p, f (ringCore p) = f p) :
    f (laneRaised n s).spn = f s.spn := by
  rw [(laneRaised_sameRing n s).part f hf, ← hf, ← hf s.spn]
  rfl

end

/-- A lane with a successful ECHO exchange comes up after 1 ms: a pair lane, or the Spine lane whose bypass is released. -/
theorem doLaneUp_eq {n : Nat} {s : State} (hr : running s = true) (hl : s.spn.lref = true)
    (hd : (laneOf s n).up = false) (he : (laneOf s n).echo = true) : doLaneUp n s =
      let u := reach ((laneOf s n).downAt + 1000) s
      if 2 ≤ n then laneRaised n u
      else if n = 0 ∧ s.spn.insert = .east then
        laneRaised n (u.onSpn fun p => { p with insert := .west, insertAt := some (u.now + 10000) })
      else if n = 1 ∧ s.spn.insert = .west then
        laneRaised n (u.onSpn fun p => { p with
          insert := .in_, insertAt := none, retries := 0, cuts := p.cuts.filter (·.1 != nodeAddr u) })
      else u := by
  simp [doLaneUp, laneRaised, hr, hl, hd, he]

/-! ## The statement -/

/-- Settles O43: after the row's own change of the ring and its lanes, what it reports and what the loss of the partner brings
about change neither. -/
theorem portsAreInsertedAndBypassed : Obligations.PortsAreInsertedAndBypassed := by
  unfold Obligations.PortsAreInsertedAndBypassed
  refine ⟨?insert, ?timeout, ?retry, ?lost, ?good, ?spineDown, ?pairDown, ?noEcho, ?up⟩
  case insert =>
    intro s hr hl hi hn
    refine .next (t := doBypassInsert s) rfl ?_
    simp [doBypassInsert, beginInsert, hr, hl, hi, hn]
  case timeout =>
    intro s d hd
    have hc := doPortInsertTimeout_carried hd
    have hnow : (retryLater (engage (reach d s))).now = (reach d s).now :=
      ((retryLater_foot _).same .now rfl).trans ((engage_foot _).same .now rfl)
    refine .next (t := doPortInsertTimeout s) rfl ⟨?_, ?_, ?_, ?_, ?_, ?_⟩
    · rw [hc.now, hnow, reach_now]
      exact Nat.le_max_right ..
    · rw [hc.part Spine.insert fun _ => rfl]
      rfl
    · rw [hc.part Spine.insertAt fun _ => rfl]
      rfl
    · have hret : (engage (reach d s)).spn.retries = s.spn.retries :=
        (engage_part Spine.retries _ fun _ => rfl).trans (by rw [reach_spn])
      rw [hc.part Spine.retryAt fun _ => rfl, hc.now, hnow, ← hret, ← (engage_foot (reach d s)).same .now rfl]
      simp [retryLater]
    · rw [hc.sameRing.up, laneOf_retryLater, up_engage]
      rfl
    · rw [hc.sameRing.up, laneOf_retryLater, up_engage]
      rfl
  case retry =>
    intro s d hd hr hl
    refine .next (t := doPortInsertRetry s) rfl ?_
    simp [doPortInsertRetry, beginInsert, hd, hr, hl]
  case lost =>
    intro s hl hr
    have hs := doLrefclkLoss_sameRing hl hr
    refine .next (t := doLrefclkLoss s) rfl ⟨?_, ?_, fun n hn => ?_⟩
    · exact (hs.part Spine.lref fun _ => rfl).trans (congrArg Spine.lref (lrefclkLost_ring s))
    · exact hs.insert.trans (congrArg Spine.insert (lrefclkLost_ring s))
    · rw [hs.up, up_lrefclkLost s hn]
  case good =>
    intro s hl hr hi
    refine .next (t := doLrefclkGood s) rfl ?_
    have hr' : running (s.onSpn fun p => { p with lref := true }) = true := hr
    simp [doLrefclkGood, beginInsert, hl, hr', hi]
  case spineDown =>
    intro s n hr hu hn
    obtain ⟨u, hs⟩ := doLaneDown_spine hr hu hn
    refine .next (t := doLaneDown n s) rfl ⟨?_, ?_, ?_, ?_, ?_⟩
    · rw [hs.up, laneOf_retryLater, up_engage]
      rfl
    · rw [hs.up, laneOf_retryLater, up_engage]
      rfl
    · rw [hs.insert]
      rfl
    · rw [hs.part Spine.cuts fun _ => rfl]
      change _ ∈ (engage (addCut (nodeAddr s) (n.val == 1) u)).spn.cuts
      rw [engage_part Spine.cuts _ fun _ => rfl]
      exact mem_addCut ..
    · rw [hs.part Spine.retryAt fun _ => rfl]
      rfl
  case pairDown =>
    intro s n hr hu hn
    have hs := doLaneDown_pair hr hu hn
    refine .next (t := doLaneDown n s) rfl ⟨?_, ?_, ?_⟩
    · rw [hs.up, up_dropLane]
      simp
    · rw [hs.lanePart Lane.downs fun _ => rfl, laneOf_dropLane_same hu]
    · have hins := congrArg Spine.insert (dropLane_ring n.val s)
      exact hs.insert.trans hins
  case noEcho =>
    intro s n hd he
    refine .next (t := doLaneUp n s) rfl ?_
    simp [doLaneUp, hd, he]
  case up =>
    intro s n hr hl hd he
    refine .next (t := doLaneUp n s) rfl ?_
    rw [doLaneUp_eq hr hl hd he]
    refine ⟨?_, fun hn => ?_, fun hn hi => ?_, fun hn hi => ?_⟩
    · dsimp only
      split_ifs <;> simp [laneRaised_now]
    · rw [if_pos hn]
      exact up_laneRaised ..
    · rw [if_neg (by omega), if_pos ⟨hn, hi⟩, hn]
      exact ⟨up_laneRaised .., laneRaised_part 0 _ Spine.insert fun _ => rfl⟩
    · rw [if_neg (by omega), if_neg (by omega), if_pos ⟨hn, hi⟩, hn]
      exact ⟨up_laneRaised .., laneRaised_part 1 _ Spine.insert fun _ => rfl, laneRaised_part 1 _ Spine.retries fun _ => rfl⟩

end Sys2Proof.Machine
end

section
/-! The stagger interval and the slots of the stagger queue, and the statement about them (R156 to R159). -/

namespace Sys2Proof.Machine

/-! ## The head of the queue asks for leave (R157) -/

theorem staggerAsk_eq_none {t need : Nat} {s : State} (ht : s.lv.table.isSome = true) (hs : s.lv.stale = false)
    (hh : leaveHeld s = false) (hn : (need : Int) ≤ freeW s) (h0 : 0 ≤ freeW s) (hb : baseOk (tableOf s) t = true) :
    staggerAsk t need s = none := by
  obtain ⟨tb, ht⟩ := Option.isSome_iff_exists.mp ht
  simp only [freeW] at hn h0
  simp [staggerAsk, ht, hs, hh, hn, h0, hb]

/-- A clock brought to a deadline changes nothing that an ask for leave looks at. -/
theorem staggerAsk_reach_eq_none {t need : Nat} {s : State} (d : Nat) (ht : s.lv.table.isSome = true)
    (hs : s.lv.stale = false) (hh : leaveHeld s = false) (hn : (need : Int) ≤ freeW s) (h0 : 0 ≤ freeW s)
    (hb : baseOk (tableOf s) t = true) : staggerAsk t need (reach d s) = none :=
  staggerAsk_eq_none (by simpa using ht) (by simpa using hs) (by simpa [leaveHeld] using hh) (by rwa [freeW_reach])
    (by rwa [freeW_reach]) (by simpa [tableOf] using hb)

theorem doStaggerSlot_eq {s : State} {d : Nat} (ha : acting s = true) (hs : s.lv.slotAt = some d)
    (hd : s.lv.deferAt = none) (hq : s.lv.queue ≠ []) : doStaggerSlot s = askHead (reach d s) := by
  simp [doStaggerSlot, hs, hd, ha, hq]

theorem askHead_resume {s : State} {n : Nat} {q : List Stagger} (hq : s.lv.queue = { tray := n } :: q)
    (hr : mayResume s n = true) (hs : s.pair.silent = none) (hl : (agentOf s n).link = .up)
    (ha : staggerAsk n 0 s = none) : askHead s = grantResume n s := by
  simp [askHead, hq, hr, hs, isSilent, hl, ha]

theorem askHead_start {s : State} {j n : Nat} {q : List Stagger}
    (hq : s.lv.queue = { tray := n, start := true, jseq := j } :: q) (hi : (invOf s n).desc.isSome = true)
    (ha : staggerAsk n (baseSum (descOf s n)) s = none) : askHead s = grantStart n s := by
  obtain ⟨b, hi⟩ := Option.isSome_iff_exists.mp hi
  simp [askHead, hq, hi, ha]

/-! ## Slots after a grant (R156 to R159) -/

theorem grantResume_lv (n : Nat) (s : State) : (grantResume n s).lv = { s.lv with
    queue := s.lv.queue.tail, deferAt := none, slotAt := some (s.now + s.kt.stagger * 1000) } := by
  simp [grantResume, popQueue]

/-- A stop that completes changes the trays' target state alone. -/
theorem settleStop_lv (t : Nat) (s : State) : ∃ trays, (settleStop t s).lv = { s.lv with trays := trays } := by
  unfold settleStop
  dsimp only
  split
  · exact ⟨s.lv.trays, rfl⟩
  · refine List.foldlRecOn (motive := fun u : State => ∃ trays, u.lv = { s.lv with trays := trays }) _ _ ⟨_, rfl⟩
      fun u hu j _ => ?_
    rwa [finish0_lv]

/-- With TEN of a started tray high the next slot is one interval later. -/
theorem afterTen_slotAt {t : Nat} {s : State} (hs : s.lv.slotTray = some t) (hb : bit16 s.keep.ten t = true) :
    (afterTen s).lv.slotAt = some (s.now + s.kt.stagger * 1000) := by
  simp only [afterTen, hs, hb, if_true]
  refine List.foldlRecOn (motive := fun u : State => u.lv.slotAt = some (s.now + s.kt.stagger * 1000)) _ _ rfl
    fun u hu k _ => ?_
  obtain ⟨trays, hlv⟩ := settleStop_lv k u
  rw [hlv]
  exact hu

/-- A start granted at an acting Lead without a partner asserts TEN at once. -/
theorem grantStart_alone {n : Nat} {s : State} (hn : n < 16) (hl : s.pair.lead = true) (hs : s.pair.state ≠ .lone)
    (ha : attached s = false) : bit16 (grantStart n s).keep.ten n = true ∧
      (grantStart n s).lv.slotAt = some (s.now + s.kt.stagger * 1000) := by
  unfold grantStart
  extract_lets p cw u
  have hpair : u.pair = s.pair := by simp [u, p, popQueue]
  have hten : (changeTen n true u).keep.ten = put16 (tenTarget u) n true := by
    rw [changeTen_alone (by rwa [hpair]) (by rwa [hpair]) (by rwa [attached, hpair]), applyTen_keep]
  have hslot : (changeTen n true u).lv.slotTray = some n := by simp [u, p, onTray]
  refine ⟨by rw [afterTen_keep, hten, bit16_put16 hn], ?_⟩
  rw [afterTen_slotAt hslot (by rw [hten, bit16_put16 hn])]
  simp [u, p, popQueue]

/-! ## The statement -/

/-- Settles O31: STAGGER_SET is one update before its completion, and each slot ends in the grant of its head. -/
theorem staggerIntervalIsStored : Obligations.StaggerIntervalIsStored := by
  unfold Obligations.StaggerIntervalIsStored
  refine ⟨rfl, ?set, ?resume, ?start⟩
  case set =>
    intro e s h hop
    refine commandEffect_completes h (u := (effectBegun e s).onKt fun k => { k with stagger := fld e.body 0 4 })
      rfl rfl hop rfl rfl ?_
    rw [finish0_kt, finish0_lv]
    exact ⟨rfl, rfl⟩
  case resume =>
    intro s d n q ha hd hdef hq hr hsil hup ht hst hheld hfree hb
    have heq : doStaggerSlot s = grantResume n (reach d s) := by
      rw [doStaggerSlot_eq ha hd hdef (by simp [hq])]
      exact askHead_resume (by simpa using hq) (by rwa [mayResume_reach]) (by simpa using hsil)
        (by simpa [agentOf] using hup) (staggerAsk_reach_eq_none d ht hst hheld (by simpa using hfree) hfree hb)
    refine .next (t := doStaggerSlot s) rfl ?_
    rw [heq, grantResume_lv, (grantResume_foot ..).same .now rfl]
    simp [hq]
  case start =>
    intro s d j n q ha hatt _ hn hd hdef hq hi ht hst hheld hfree hb
    have heq : doStaggerSlot s = grantStart n (reach d s) := by
      rw [doStaggerSlot_eq ha hd hdef (by simp [hq])]
      exact askHead_start (j := j) (by simpa using hq) (by simpa [invOf] using hi)
        (by simpa [descOf, invOf] using staggerAsk_reach_eq_none d ht hst hheld hfree (by omega) hb)
    obtain ⟨-, hl⟩ := (Bool.and_eq_true _ _).mp ha
    have hlone : s.pair.state ≠ .lone := by
      intro hlone
      simp [leaveHeld, hlone] at hheld
    obtain ⟨hten, hslot⟩ := grantStart_alone (s := reach d s) hn (by simpa using hl) (by simpa using hlone)
      (by simpa [attached] using hatt)
    refine .next (t := doStaggerSlot s) rfl ?_
    rw [heq, hslot, (grantStart_foot ..).same .now rfl, reach_kt]
    exact ⟨hten, rfl⟩

end Sys2Proof.Machine
end

section
/-! TRAY_START, TRAY_STOP, TRAY_CAP_SET and HOLD_SET, and the statement about them (R106, R141 to R144). -/

namespace Sys2Proof.Machine

/-! ## Leases revoked (R32, R152) -/

theorem endLease_leases (id reason : Nat) (s : State) :
    (endLease id reason s).lv.leases = s.lv.leases.filter (·.id != id) := by
  match h : s.lv.leases.find? (·.id == id) with
  | some l => rw [endLease, endLeaseFor_lv h]
  | none =>
    have hall : ∀ l ∈ s.lv.leases, (l.id != id) = true := by simpa using h
    simp only [endLease, endLeaseFor, h]
    exact (List.filter_eq_self.mpr hall).symm

theorem endLease_trays (id reason : Nat) (s : State) : (endLease id reason s).lv.trays = s.lv.trays := by
  match h : s.lv.leases.find? (·.id == id) with
  | some l => rw [endLease, endLeaseFor_lv h]
  | none => simp only [endLease, endLeaseFor, h]

@[simp] theorem revokeTray_trays (t reason : Nat) (s : State) : (revokeTray t reason s).lv.trays = s.lv.trays := by
  unfold revokeTray
  split
  · rfl
  · refine List.foldlRecOn (motive := fun u : State => u.lv.trays = s.lv.trays) _ _ rfl fun u hu id _ => ?_
    rw [count_lv, endLease_trays, hu]

/-- Leases ended one after another by their numbers. -/
theorem mem_leases_endLeases {ids : List Nat} {reason : Nat} {s : State} {l : Lease}
    (h : l ∈ (ids.foldl (fun s id => count 0x267 (endLease id reason s)) s).lv.leases) :
    l ∈ s.lv.leases ∧ l.id ∉ ids := by
  induction ids generalizing s with
  | nil => exact ⟨h, List.not_mem_nil⟩
  | cons id ids ih =>
    obtain ⟨hl, hids⟩ := ih h
    rw [count_lv, endLease_leases, List.mem_filter] at hl
    exact ⟨hl.1, by simpa [hids] using hl.2⟩

/-- An acting Lead's leave unit leaves no lease of a tray whose leases it revokes. -/
theorem revokeTray_leases {s : State} (hl : s.pair.lead = true) (t reason : Nat) :
    (revokeTray t reason s).lv.leases.all (fun l => !(l.kind == 0 && l.owner / 8 == t)) = true := by
  refine List.all_eq_true.mpr fun l hmem => ?_
  simp only [revokeTray, hl, Bool.not_true, Bool.false_eq_true, if_false] at hmem
  obtain ⟨hold, hid⟩ := mem_leases_endLeases hmem
  rw [Bool.not_eq_true', Bool.eq_false_iff]
  exact fun hof => hid (List.mem_map_of_mem (List.mem_filter.mpr ⟨hold, hof⟩))

/-! ## A tray stopped with its delay (R144) -/

theorem endStart_none {t : Nat} {s : State} (h : (trayOf s t).startSeq = 0) (r : Word) : endStart t r s = s := by
  simp [endStart, h]

/-- A tray whose stop takes effect 10 ms later: CAPDN asserted and its leases revoked at once. -/
structure StopDelayed (t : Nat) (s u : State) : Prop where
  capdn  : bit16 u.keep.capdn t = true
  ten    : u.keep.ten = s.keep.ten
  stopAt : (trayOf u t).stopAt = some (s.now + 10000)
  leases : u.lv.leases.all (fun l => !(l.kind == 0 && l.owner / 8 == t)) = true

theorem stopTray_delayed {t : Nat} {s : State} (ht : t < 16) (hl : s.pair.lead = true) (hn : s.pair.state ≠ .lone)
    (he : enabled s t = true) (hs : (trayOf s t).startSeq = 0) (hst : (trayOf s t).stopAt = none) (j : Nat) :
    StopDelayed t s (stopTray t 1 j s) := by
  have hcapdn := capdnRevoke_capdn hl hn t 0x13
  have hleases : (capdnRevoke t 0x13 s).lv.leases.all (fun l => !(l.kind == 0 && l.owner / 8 == t)) = true :=
    revokeTray_leases (by simpa using hl) ..
  have hf := capdnRevoke_foot t 0x13 s
  have hten : (capdnRevoke t 0x13 s).keep.ten = s.keep.ten := hf.same .ten rfl
  have hpair : (capdnRevoke t 0x13 s).pair = s.pair := hf.same .pair rfl
  have hnow : (capdnRevoke t 0x13 s).now = s.now := hf.same .now rfl
  have htray : trayOf (capdnRevoke t 0x13 s) t = trayOf s t := by simp [trayOf, capdnRevoke]
  unfold stopTray
  generalize capdnRevoke t 0x13 s = u at *
  have hen (f : Tray → Tray) : enabled (onTray t f u) t = true := by
    simpa [enabled, tenTarget, hten, hpair] using he
  simp only [endStart_none (show (trayOf u t).startSeq = 0 by rw [htray, hs]), hen, Bool.not_true, Bool.false_eq_true,
    if_false, Nat.reduceBEq]
  refine ⟨?_, ?_, ?_, hleases⟩
  · rw [onTray_keep, onTray_keep, hcapdn, bit16_put16 ht]
  · rw [onTray_keep, onTray_keep, hten]
  · simp [trayOf_onTray_same, htray, hst, hnow]

/-! ## The end of a hold (R143) -/

/-- What the end of a tray's hold leaves. -/
structure HoldOver (t : Nat) (s u : State) : Prop where
  pair : pairCore u.pair = pairCore s.pair
  keep : u.keep = s.keep
  now  : u.now = s.now
  tray : ∃ j, trayOf u t = { trayOf s t with holdSeq := j }

theorem HoldOver.refl (t : Nat) (s : State) : HoldOver t s s := ⟨rfl, rfl, rfl, _, rfl⟩

theorem endHold_over (t : Nat) (r : Word) (s : State) : HoldOver t s (endHold t r s) where
  pair := by
    unfold endHold
    dsimp only
    split
    · rfl
    · simp
  keep := (endHold_foot ..).same .keep rfl
  now := (endHold_foot ..).same .now rfl
  tray := ⟨0, endHold_tray ..⟩

/-- A TRAY_STOP of MODE 1 stops its tray with the delay. -/
theorem fxTrayStop_delayed {e : JEntry} {s : State} (ht : fld e.body 0 1 < 16) (hmode : fld e.body 1 1 = 1)
    (hl : s.pair.lead = true) (hn : s.pair.state ≠ .lone) (he : enabled s (fld e.body 0 1) = true)
    (hs : (trayOf s (fld e.body 0 1)).startSeq = 0) (hst : (trayOf s (fld e.body 0 1)).stopAt = none) :
    StopDelayed (fld e.body 0 1) s (fxTrayStop e s) := by
  unfold fxTrayStop
  extract_lets t rm held limited u
  have hheld : HoldOver t s held := by
    unfold held
    split
    · exact endHold_over ..
    · exact .refl t s
  obtain ⟨hpair, hkeep, hnow, j, htray⟩ := hheld
  have hu : trayOf u t = Tray.setLimit rm 0 e.cw { trayOf s t with holdSeq := j } := by
    rw [← htray]
    exact trayOf_onTray_same ..
  have hstart : (trayOf u t).startSeq = 0 ∧ (trayOf u t).stopAt = none := by
    rw [hu, Tray.setLimit]
    split
    · exact ⟨hs, hst⟩
    · exact ⟨hs, hst⟩
  have hwait : held.pair.tenWait = s.pair.tenWait := pairCore_part hpair Pair.tenWait fun _ => rfl
  have hstop := stopTray_delayed (s := u) ht ((pairCore_part hpair Pair.lead fun _ => rfl).trans hl)
    (by rwa [show u.pair.state = s.pair.state from pairCore_part hpair Pair.state fun _ => rfl])
    (by simpa [enabled, tenTarget, u, limited, hkeep, hwait] using he) hstart.1 hstart.2 e.jseq
  rw [hmode]
  exact ⟨hstop.capdn, hstop.ten.trans (congrArg Keep.ten hkeep), hstop.stopAt.trans (congrArg (fun n => some (n + 10000)) hnow),
    hstop.leases⟩

/-! ## A changed limit that is neither OFF nor FLOOR (R106, R141, R156) -/

/-- What a limit in watts, or NONE, brings about once no start stands against it: leases are trimmed to a lowered ceiling, and
a tray that leaves FLOOR may resume. -/
def ceilingMoved (t : Nat) (old x : Tray) (s : State) : State :=
  let s := if min x.rm x.host < min old.rm old.host then trimTray t s else s
  if old.rm == 1 || old.host == 1 then queueResume t s else s

theorem afterLimits_watts {t : Nat} {s : State} (hr : 1 < (trayOf s t).rm) (hh : 1 < (trayOf s t).host) (rm : Bool)
    (old : Tray) : afterLimits t rm old s = ceilingMoved t old (trayOf s t)
      (if rm && decide ((trayOf s t).rm < old.host) then preempt t s else s) := by
  have hr0 : ((trayOf s t).rm == 0) = false := beq_false_of_ne (by omega)
  have hr1 : ((trayOf s t).rm == 1) = false := beq_false_of_ne (by omega)
  have hh0 : ((trayOf s t).host == 0) = false := beq_false_of_ne (by omega)
  have hh1 : ((trayOf s t).host == 1) = false := beq_false_of_ne (by omega)
  have hle : decide ((trayOf s t).rm ≤ 1) = false := by simpa using hr
  simp only [afterLimits, hr0, hr1, hh0, hh1, hle, Bool.or_false, Bool.false_eq_true, if_false, ceilingMoved]

theorem trimLease_queue (l : Lease) (s : State) : (trimLease l s).lv.queue = s.lv.queue := by
  unfold trimLease
  dsimp only
  split
  · simp
  · rfl

theorem trimTray_queue (t : Nat) (s : State) : (trimTray t s).lv.queue = s.lv.queue := by
  unfold trimTray
  split
  · rfl
  · exact List.foldlRecOn (motive := fun u : State => u.lv.queue = s.lv.queue) _ _ rfl
      fun u hu l _ => (trimLease_queue ..).trans hu

theorem queueResume_starts {p : Stagger → Bool} (hp : ∀ t, p { tray := t } = true) (t : Nat) {s : State}
    (h : s.lv.queue.all p = true) : (queueResume t s).lv.queue.all p = true := by
  unfold queueResume
  split
  · simpa [hp] using h
  · exact h

section
variable (t : Nat) (old x : Tray) (s : State)

theorem ceilingMoved_trays : (ceilingMoved t old x s).lv.trays = s.lv.trays := by
  unfold ceilingMoved
  dsimp only
  split
  · rw [queueResume_trays]
    split
    · exact trimTray_trays ..
    · rfl
  · split
    · exact trimTray_trays ..
    · rfl

theorem ceilingMoved_foot : Foot [.out, .mbx, .pmc, .spn, .lv, .stw] s (ceilingMoved t old x s) := by
  have htrim : Foot [.out, .mbx, .pmc, .spn, .lv, .stw] s
      (if min x.rm x.host < min old.rm old.host then trimTray t s else s) := .ite (trimTray_foot ..) .refl
  exact .ite (htrim.then (queueResume_foot ..) rfl) htrim

/-- No start is queued by it. -/
theorem ceilingMoved_starts {p : Stagger → Bool} (hp : ∀ t, p { tray := t } = true) (h : s.lv.queue.all p = true) :
    (ceilingMoved t old x s).lv.queue.all p = true := by
  have htrim : (if min x.rm x.host < min old.rm old.host then trimTray t s else s).lv.queue.all p = true := by
    split
    · rwa [trimTray_queue]
    · exact h
  unfold ceilingMoved
  dsimp only
  split
  · exact queueResume_starts hp t htrim
  · exact htrim

end

/-- A host's limit raised to watts, or NONE, on a tray that was at neither OFF nor FLOOR changes nothing else. -/
theorem afterLimits_raised {t : Nat} {old : Tray} {s : State} (hr : 1 < old.rm) (hh : 1 < old.host)
    (hrm : (trayOf s t).rm = old.rm) (hle : old.host ≤ (trayOf s t).host) : afterLimits t false old s = s := by
  have hr1 : (old.rm == 1) = false := beq_false_of_ne (by omega)
  have hh1 : (old.host == 1) = false := beq_false_of_ne (by omega)
  have hmin : ¬ min (trayOf s t).rm (trayOf s t).host < min old.rm old.host := by omega
  rw [afterLimits_watts (by omega) (by omega)]
  simp [ceilingMoved, hr1, hh1, hmin]

/-! ## HOLD_SET (R106, R143) -/

section
variable {e : JEntry} {s : State}

/-- The tray with the hold's limit set. -/
def holdLimited (e : JEntry) (s : State) : State :=
  onTray (fld e.body 0 1) (Tray.setRm (fld e.body 2 2) e.cw (fld e.body 8 8)) (endHold (fld e.body 0 1) 0 s)

theorem fxHoldSet_eq (h : fld e.body 8 8 = 0 ∨ keepTime s < fld e.body 8 8) : fxHoldSet e s =
    let u := afterLimits (fld e.body 0 1) true (trayOf s (fld e.body 0 1)) (holdLimited e s)
    if fld e.body 8 8 == 0 then finish0 e.jseq 0 u else onTray (fld e.body 0 1) (fun x => { x with holdSeq := e.jseq }) u := by
  have hover : (fld e.body 8 8 != 0 && decide (fld e.body 8 8 ≤ keepTime s)) = false := by
    rcases h with h | h
    · simp [h]
    · simp [h]
  simp [fxHoldSet, hover, holdLimited]

theorem holdLimited_tray (e : JEntry) (s : State) : trayOf (holdLimited e s) (fld e.body 0 1) =
    Tray.setRm (fld e.body 2 2) e.cw (fld e.body 8 8) { trayOf s (fld e.body 0 1) with holdSeq := 0 } := by
  rw [holdLimited, trayOf_onTray_same, endHold_tray]

/-- A hold on a tray that has no start outstanding sets the tray's limit alone. -/
theorem holdLimits_tray (hs : (trayOf s (fld e.body 0 1)).startSeq = 0) (hlim : 1 < fld e.body 2 2)
    (hh : 1 < (trayOf s (fld e.body 0 1)).host) :
    trayOf (afterLimits (fld e.body 0 1) true (trayOf s (fld e.body 0 1)) (holdLimited e s)) (fld e.body 0 1) =
      Tray.setRm (fld e.body 2 2) e.cw (fld e.body 8 8) { trayOf s (fld e.body 0 1) with holdSeq := 0 } := by
  have htray := holdLimited_tray e s
  have hpre : preempt (fld e.body 0 1) (holdLimited e s) = holdLimited e s := by
    simp [preempt, htray, Tray.setRm, hs]
  rw [afterLimits_watts (by rw [htray]; exact hlim) (by rw [htray, Tray.setRm]; dsimp only; omega), hpre, ite_self, trayOf,
    ceilingMoved_trays]
  exact htray

/-- A hold below a queued start's limit ends the start, and TEN stays as it is. -/
theorem holdLimits_endsStart (hs : (trayOf s (fld e.body 0 1)).startSeq ≠ 0)
    (hq : (trayOf s (fld e.body 0 1)).startAt = none) (hlim : 1 < fld e.body 2 2)
    (hlt : fld e.body 2 2 < (trayOf s (fld e.body 0 1)).host) :
    let u := afterLimits (fld e.body 0 1) true (trayOf s (fld e.body 0 1)) (holdLimited e s)
    (trayOf u (fld e.body 0 1)).rm = fld e.body 2 2 ∧ (trayOf u (fld e.body 0 1)).startSeq = 0 ∧
      u.lv.queue.all (fun q => !(q.start && q.tray == fld e.body 0 1)) = true ∧ u.keep.ten = s.keep.ten := by
  have htray := holdLimited_tray e s
  have hseq : (trayOf (holdLimited e s) (fld e.body 0 1)).startSeq ≠ 0 := by rwa [htray]
  have hpre : preempt (fld e.body 0 1) (holdLimited e s) = endStart (fld e.body 0 1) 0xE2 (holdLimited e s) :=
    preempt_queued hseq (by rwa [htray])
  obtain ⟨slot, at_, deferred, hlv⟩ := endStart_lv hseq 0xE2
  have hlow : (trayOf (holdLimited e s) (fld e.body 0 1)).rm < (trayOf s (fld e.body 0 1)).host := by rwa [htray]
  have hkeep : (endStart (fld e.body 0 1) 0xE2 (holdLimited e s)).keep = s.keep :=
    ((endStart_foot ..).same .keep rfl).trans ((endHold_foot ..).same .keep rfl)
  rw [afterLimits_watts (by rw [htray]; exact hlim) (by rw [htray, Tray.setRm]; dsimp only; omega), hpre]
  simp only [hlow, decide_true, Bool.and_true, if_true]
  have hended : trayOf (endStart (fld e.body 0 1) 0xE2 (holdLimited e s)) (fld e.body 0 1) =
      { trayOf (holdLimited e s) (fld e.body 0 1) with startSeq := 0, startAt := none } := by
    rw [trayOf, hlv, Tab.get_mod_same]
    rfl
  refine ⟨?_, ?_, ceilingMoved_starts _ _ _ _ (fun _ => rfl) ?_, ?_⟩
  · rw [trayOf, ceilingMoved_trays, ← trayOf, hended, htray]
    rfl
  · rw [trayOf, ceilingMoved_trays, ← trayOf, hended]
  · rw [hlv]
    exact List.all_eq_true.mpr fun q hq => (List.mem_filter.mp hq).2
  · rw [(ceilingMoved_foot ..).same .keep rfl, hkeep]

end

/-! ## TRAY_START (R143, R144) -/

theorem fxTrayStart_queued {e : JEntry} {s : State} (hoff : enabled s (fld e.body 0 1) = false)
    (htrip : tripped s (fld e.body 0 1) = false) (hp : (trayOf s (fld e.body 0 1)).permit = true)
    (hrm : 1 < (trayOf s (fld e.body 0 1)).rm) (hs : (trayOf s (fld e.body 0 1)).startSeq = 0) :
    fxTrayStart e s = (onTray (fld e.body 0 1) (fun x => { x with host := fld e.body 2 2, startSeq := e.jseq }) s).onLv
      fun l => { l with queue := l.queue ++ [{ tray := fld e.body 0 1, start := true, jseq := e.jseq }] } := by
  simp [fxTrayStart, hoff, htrip, hp, hrm, endStart_none hs]

theorem fxTrayStart_tripped {e : JEntry} {s : State} (hoff : enabled s (fld e.body 0 1) = false)
    (htrip : tripped s (fld e.body 0 1) = true) (hp : (trayOf s (fld e.body 0 1)).permit = true)
    (hrm : 1 < (trayOf s (fld e.body 0 1)).rm) : fxTrayStart e s = finish0 e.jseq 0x0602 s := by
  simp [fxTrayStart, hoff, htrip, hp, hrm]

/-- A host's TRAY_CAP_SET that raises a limit sets it, and nothing else. -/
theorem fxTrayCapSet_raised {e : JEntry} {s : State} (hrank : entryRank e = .host)
    (hr : 1 < (trayOf s (fld e.body 0 1)).rm) (hh : 1 < (trayOf s (fld e.body 0 1)).host)
    (hle : (trayOf s (fld e.body 0 1)).host ≤ fld e.body 2 2) :
    fxTrayCapSet e s = finish0 e.jseq 0 (onTray (fld e.body 0 1) (fun x => { x with host := fld e.body 2 2 }) s) := by
  have hrm : (entryRank e == .rackManager) = false := by simp [hrank]
  have htray : trayOf (onTray (fld e.body 0 1) (Tray.setLimit false (fld e.body 2 2) e.cw) s) (fld e.body 0 1) =
      { trayOf s (fld e.body 0 1) with host := fld e.body 2 2 } := trayOf_onTray_same ..
  simp only [fxTrayCapSet, hrm, Bool.false_eq_true, if_false]
  rw [afterLimits_raised hr hh (by rw [htray]) (by rwa [htray])]
  rfl

/-! ## A command whose effect does not complete it -/

/-- COMMAND_EFFECT for an opcode whose effect ends in `t`. -/
theorem commandEffect_runs {e : JEntry} {s : State} (h : EffectDue e s) {op : Half} (hop : e.op = op)
    (hb : brdOf op.toNat e.body = none) {t : State} (hfx : applyFx op.toNat e (effectBegun e s) = t) {P : State → Prop}
    (hP : P t) : Runs .commandEffect s P :=
  .next (t := doCommandEffect s) rfl (by rwa [doCommandEffect_due h hop hb, hfx])

/-! ## The statement -/

/-- Settles O32: each command's effect by its lemma. -/
theorem trayCommandsTakeEffect : Obligations.TrayCommandsTakeEffect := by
  unfold Obligations.TrayCommandsTakeEffect
  intro e s h ht
  refine ⟨?start, ?startTripped, ?stop, ?cap, ?hold, ?holdEndsStart⟩
  case start =>
    intro hop hoff htrip hpermit hrm hseq
    have htray := trayOf_onTray_same (fld e.body 0 1) (fun x => { x with host := fld e.body 2 2, startSeq := e.jseq })
      (effectBegun e s)
    exact commandEffect_runs h hop rfl (fxTrayStart_queued (s := effectBegun e s) hoff htrip hpermit hrm hseq)
      ⟨rfl, congrArg Tray.host htray, congrArg Tray.startSeq htray, rfl⟩
  case startTripped =>
    intro hop hoff htrip hpermit hrm
    refine commandEffect_completes h (u := effectBegun e s) rfl rfl hop rfl (fxTrayStart_tripped hoff htrip hpermit hrm) ?_
    rw [finish0_lv]
    rfl
  case stop =>
    intro hop hmode hon hseq hstop
    obtain ⟨hcapdn, hten, hat, hleases⟩ :=
      fxTrayStop_delayed (e := e) (s := effectBegun e s) ht hmode h.lead h.notLone hon hseq hstop
    exact commandEffect_runs h hop rfl rfl ⟨hcapdn, hten, hat, hleases⟩
  case cap =>
    intro hop hrank hlim hrm hle hhost
    refine commandEffect_completes h (u := onTray (fld e.body 0 1) (fun x => { x with host := fld e.body 2 2 })
      (effectBegun e s)) rfl rfl hop rfl (fxTrayCapSet_raised hrank hrm hhost hle) ?_
    rw [trayOf_congr (finish0_lv ..), trayOf_onTray_same]
    exact ⟨rfl, rfl⟩
  case hold =>
    intro hop hend hhold hseq hlim hhost
    have htray := holdLimits_tray (e := e) (s := effectBegun e s) hseq hlim hhost
    have hlong : (fld e.body 8 8 == 0) = false := beq_false_of_ne (by omega)
    refine commandEffect_runs h hop rfl (fxHoldSet_eq (s := effectBegun e s) (.inr hend)) ?_
    simp [hlong, trayOf_onTray_same, htray, Tray.setRm]
  case holdEndsStart =>
    intro hop hend hlim hlt hseq hat
    refine commandEffect_runs h hop rfl (fxHoldSet_eq (s := effectBegun e s) (.inl hend)) ?_
    simp only [hend, beq_self_eq_true, if_true, trayOf_congr (finish0_lv ..), finish0_lv, finish0_keep]
    exact holdLimits_endsStart (e := e) (s := effectBegun e s) hseq hat hlim hlt

end Sys2Proof.Machine
end

section
/-! Leave records from their arrival to their answer, and the statement about them (R147 to R152). -/

namespace Sys2Proof.Machine

/-! ## A leave record comes to the leave unit (R98, R150, R330) -/

theorem firstBad_cons_true (o : Nat) (cs : List (Bool × Nat)) : firstBad ((true, o) :: cs) ≠ none := by
  unfold firstBad
  split
  · simp
  · simp

theorem opInfo_leave {op : Half} (hop : op = 0x0010 ∨ op = 0x0011) :
    ∃ n, opInfo op.toNat = some ⟨.l, [.trayAgent], n⟩ := by
  rcases hop with rfl | rfl
  · exact ⟨16, rfl⟩
  · exact ⟨8, rfl⟩

/-- A leave record bears no token. -/
theorem leave_untokened {op : Half} {h : Hdr} {body : Bytes} (hop : op = 0x0010 ∨ op = 0x0011)
    (hh : badHeader (rowRec op h body) = none) : h.flags.getLsbD 0 = false := by
  obtain ⟨n, hi⟩ := opInfo_leave hop
  rw [← Bool.not_eq_true]
  intro hf
  have hflags : (rowRec op h body).flags.getLsbD 0 = true := hf
  have hinfo : opInfo (rowRec op h body).op.toNat = some ⟨.l, [.trayAgent], n⟩ := hi
  unfold badHeader at hh
  dsimp only at hh
  split at hh
  · simp at hh
  · simp only [hinfo, hflags, beq_self_eq_true, Bool.and_self, Bool.or_true] at hh
    exact firstBad_cons_true _ _ hh

theorem rowRec_untokened {h : Hdr} (hf : h.flags.getLsbD 0 = false) (ht : h.token = []) (op : Half) (body : Bytes) :
    rowRec op h body =
      { op := op, flags := h.flags, len := 32 + body.length, cw := mkCw h.src.toNat h.seq.toNat, authref := h.authref,
        rsvd := h.rsvd, body := body } := by
  simp only [rowRec, mkRec, splitRec, hf, ht, List.append_nil, Bool.false_eq_true, if_false]

theorem rankOf_agent {src : Nat} (h : 16 ≤ src) (flags : Half) : rankOf src flags = .trayAgent := by
  have h1 : ¬ src ≤ 1 := by omega
  have h3 : ¬ src ≤ 3 := by omega
  have h4 : (src == 4) = false := beq_false_of_ne (by omega)
  have h5 : (src == 5) = false := beq_false_of_ne (by omega)
  have h7 : (src == 7) = false := beq_false_of_ne (by omega)
  simp [rankOf, h1, h3, h4, h5, h7]

theorem arrive_leave {op : Half} {h : Hdr} {body : Bytes} {s : State} (a : LeaveArrives op h body s)
    (hop : op = 0x0010 ∨ op = 0x0011) (ht : h.token = []) : arrive op h body s =
      if op == 0x0010 then leaveRequest (32 + body.length) (mkCw h.src.toNat h.seq.toNat) body s
      else leaveReturn (32 + body.length) (mkCw h.src.toNat h.seq.toNat) body s := by
  obtain ⟨n, hi⟩ := opInfo_leave hop
  have hserved := a.served
  have hrun : running s = true := by
    simp only [servesAgent, acting, Bool.and_eq_true] at hserved
    exact hserved.1.1.1.1
  have hleave : (op == 0x0010 || op == 0x0011) = true := by simpa using hop
  have hheader := a.header
  have hsrc := a.src
  rw [rowRec_untokened (leave_untokened hop a.header) ht] at hheader hsrc
  rw [cwSrc_mkCw] at hsrc
  have hagent : 16 ≤ h.src.toNat := by
    simp only [srcValid, Bool.and_eq_true, decide_eq_true_eq] at hsrc
    exact hsrc.1
  have hquery : (op == 0x0016) = false := by rcases hop with rfl | rfl <;> rfl
  unfold arrive
  rw [rowRec_untokened (leave_untokened hop a.header) ht]
  simp only [a.box, hrun, hserved, hleave, Bool.not_true, Bool.false_or, Nat.reduceBEq, Bool.false_and, Bool.true_and,
    Bool.false_eq_true, if_false, if_true]
  simp only [receive, hleave, hsrc, hheader, hi, Bool.and_true, Bool.not_true, Bool.and_false,
    Bool.false_eq_true, if_false, serve, foreignTray, hquery, cwSrc_mkCw, rankOf_agent hagent, List.contains_cons,
    beq_self_eq_true, Bool.true_or, Bool.false_and, Bool.or_false, if_true]

/-! ## What a leave decision looks at (R149) -/

/-- The leave unit but for the sequences it has seen and the watts that wait. -/
def ledgerOf (l : Leave) : Leave := { l with high := [], waiting := 0 }

/-- Two states in which a leave request is decided alike. -/
structure SameLedger (s t : State) : Prop where
  foot   : Foot [.out, .pmc, .spn, .lv] s t
  lv     : ledgerOf t.lv = ledgerOf s.lv
  formed : t.spn.formed = s.spn.formed

theorem SameLedger.trans {s t u : State} (h : SameLedger s t) (g : SameLedger t u) : SameLedger s u :=
  ⟨h.foot.then g.foot rfl, g.lv.trans h.lv, g.formed.trans h.formed⟩

theorem count_sameLedger (ev : Nat) (s : State) : SameLedger s (count ev s) :=
  ⟨(count_foot ..).mono rfl, by rw [count_lv], (count_carried ..).formed⟩

theorem onLv_sameLedger {f : Leave → Leave} {s : State} (h : ledgerOf (f s.lv) = ledgerOf s.lv) :
    SameLedger s (s.onLv f) := ⟨Foot.refl.onLv rfl, h, rfl⟩

theorem tellPartner_sameLedger (m : LeaseMsg) (s : State) : SameLedger s (tellPartner m s) :=
  ⟨(tellPartner_foot ..).mono rfl, by rw [tellPartner_lv],
    (Carried.ite (sendPair_carried (.lease m) s) (.refl s) : Carried s (tellPartner m s)).formed⟩

section
variable {s t : State} (h : SameLedger s t)
include h

theorem SameLedger.part {α : Type} (f : Leave → α) (hf : ∀ l, f (ledgerOf l) = f l) : f t.lv = f s.lv := by
  rw [← hf t.lv, h.lv, hf]

theorem SameLedger.leases : t.lv.leases = s.lv.leases := h.part Leave.leases fun _ => rfl
theorem SameLedger.tableOf : tableOf t = tableOf s := congrArg (·.getD []) (h.part Leave.table fun _ => rfl)
theorem SameLedger.trayOf (n : Nat) : trayOf t n = trayOf s n := congrArg (·.get {} n) (h.part Leave.trays fun _ => rfl)
theorem SameLedger.descOf (n : Nat) : descOf t n = descOf s n := by
  rw [Machine.descOf, Machine.descOf, invOf, invOf, h.foot.same .stw rfl]
theorem SameLedger.tripped (n : Nat) : tripped t n = tripped s n := by
  rw [Machine.tripped, Machine.tripped, h.foot.same .ket rfl]
theorem SameLedger.enabled (n : Nat) : enabled t n = enabled s n := by
  have hkeep : t.keep = s.keep := h.foot.same .keep rfl
  have hpair : t.pair = s.pair := h.foot.same .pair rfl
  simp [Machine.enabled, tenTarget, hkeep, hpair]
theorem SameLedger.trayOff (n : Nat) : trayOff t n = trayOff s n := by
  simp [Machine.trayOff, h.tripped, h.enabled, h.trayOf]
theorem SameLedger.capdnLow (n : Nat) : capdnLow t n = capdnLow s n := by
  have hkeep : t.keep = s.keep := h.foot.same .keep rfl
  simp [Machine.capdnLow, h.tripped, hkeep]
theorem SameLedger.ceilingOf (n a : Nat) : ceilingOf t n a = ceilingOf s n a := by
  simp [Machine.ceilingOf, h.descOf, h.trayOf]
theorem SameLedger.allowedW (i : Nat) : allowedW t i = allowedW s i := by
  simp [Machine.allowedW, h.descOf, h.trayOff, h.capdnLow, h.leases]

theorem SameLedger.ceilingE : ceilingE t = ceilingE s := by
  have hkt : t.kt = s.kt := h.foot.same .kt rfl
  simp only [Machine.ceilingE, hkt, h.formed, h.part Leave.everTable fun _ => rfl, h.part Leave.fallback fun _ => rfl,
    h.part Leave.share fun _ => rfl]
theorem SameLedger.baseDraw : baseDraw t = baseDraw s := by
  have hdraws : drawsBase t = drawsBase s := by
    funext n
    simp [drawsBase, h.trayOff, h.enabled, h.part Leave.everTable fun _ => rfl]
  simp [Machine.baseDraw, hdraws, h.descOf]
theorem SameLedger.freeWith (ls : List Lease) : freeWith t ls = freeWith s ls := by
  simp [Machine.freeWith, h.ceilingE, h.baseDraw]
theorem SameLedger.freeW : freeW t = freeW s := by simp [Machine.freeW, h.freeWith, h.leases]
theorem SameLedger.fixedW : fixedW t = fixedW s := by simp [Machine.fixedW, h.baseDraw, h.leases]
theorem SameLedger.headWith (ls : List Lease) (n b aLim own : Nat) :
    headWith t ls n b aLim own = headWith s ls n b aLim own := by
  simp [Machine.headWith, h.tableOf, h.freeWith]
theorem SameLedger.fitMs (ok : List Lease → Bool) : fitMs t ok = fitMs s ok := by
  have hnow : t.now = s.now := h.foot.same .now rfl
  simp [Machine.fitMs, h.leases, hnow]

theorem SameLedger.leaseOf (i : Nat) : leaseOf t i = leaseOf s i := by simp only [Machine.leaseOf, h.leases]
theorem SameLedger.leaveHeld : leaveHeld t = leaveHeld s := by
  have hpair : t.pair = s.pair := h.foot.same .pair rfl
  simp only [Machine.leaveHeld, hpair]
theorem SameLedger.rebindHolds (n : Nat) : rebindHolds t n = rebindHolds s n := by
  have hjr : t.jr = s.jr := h.foot.same .jr rfl
  simp only [Machine.rebindHolds, hjr]

theorem SameLedger.decideLeave (n a want least ms : Nat) :
    decideLeave t n a want least ms = decideLeave s n a want least ms := by
  have hkt : t.kt = s.kt := h.foot.same .kt rfl
  simp only [Machine.decideLeave, h.tableOf, h.part Leave.table fun _ => rfl, h.part Leave.stale fun _ => rfl,
    h.leaveHeld, h.tripped, h.trayOff, h.capdnLow, h.rebindHolds, hkt, h.descOf, h.ceilingOf, h.leaseOf, h.leases,
    h.headWith, h.freeW, h.ceilingE, h.fixedW, h.fitMs, h.freeWith]

theorem SameLedger.badLeave (n : Nat) (b : Bytes) : badLeave t n b = badLeave s n b := by
  simp [Machine.badLeave, h.descOf]

end

/-! ## Answers to a tray's agent (R148, R330) -/

theorem answers_respond (r : Resp) (s : State) : (agentOf (respond 6 r s) (trayOfSrc (cwSrc r.cw))).answers =
    (agentOf s (trayOfSrc (cwSrc r.cw))).answers ++ [r] := by
  have hr : respond 6 r s =
      onAgent (trayOfSrc (cwSrc r.cw)) (fun a => { a with answers := a.answers ++ [r] }) s := rfl
  simp [hr, onAgent, agentOf, Tab.get_mod_same]

theorem agentOf_congr {s t : State} (h : t.stw = s.stw) (n : Nat) : agentOf t n = agentOf s n := by
  rw [agentOf, h, ← agentOf]

/-- The answer of a request that is deferred or denied. -/
def leaveRefusal (s : State) (cw : DWord) (kind reason i ms : Nat) : Resp :=
  leaveResp cw true (leaveBody kind reason 0 (allowedW s i) 0 ms 0 0)

theorem SameLedger.leaveRefusal {s t : State} (h : SameLedger s t) (cw : DWord) (kind reason i ms : Nat) :
    leaveRefusal t cw kind reason i ms = leaveRefusal s cw kind reason i ms := by
  rw [Machine.leaveRefusal, Machine.leaveRefusal, h.allowedW]

/-- A refused request ends with its answer alone. -/
theorem refused_answers {s u : State} (h : SameLedger s u) (ev : Nat) (cw : DWord) (kind reason i ms : Nat) :
    (respond 6 (leaveRefusal u cw kind reason i ms) (count ev u)).lv.leases = s.lv.leases ∧
    (agentOf (respond 6 (leaveRefusal u cw kind reason i ms) (count ev u)) (trayOfSrc (cwSrc cw))).answers =
      (agentOf s (trayOfSrc (cwSrc cw))).answers ++ [leaveRefusal s cw kind reason i ms] := by
  have hstw : (count ev u).stw = s.stw := (count_stw ..).trans (h.foot.same .stw rfl)
  rw [h.leaveRefusal, respond_lv, count_lv, h.leases, ← agentOf_congr hstw]
  exact ⟨rfl, answers_respond (leaveRefusal s cw kind reason i ms) _⟩

/-! ## A lease granted (R151) -/

theorem endLeaseFor_high (cap : Option Nat) (id reason : Nat) (s : State) :
    (endLeaseFor cap id reason s).lv.high = s.lv.high := by
  match h : s.lv.leases.find? (·.id == id) with
  | some l => rw [endLeaseFor_lv h]
  | none => simp only [endLeaseFor, h]

/-- The lease that a grant enters, with the sequences as they were. -/
theorem grantLease_enters (i cap ms : Nat) (cw : DWord) (s : State) :
    (grantLease i cap ms cw s).lv.high = s.lv.high ∧
    ∃ l ∈ (grantLease i cap ms cw s).lv.leases, l.kind = 0 ∧ l.owner = i ∧ l.capW = cap ∧ l.cw = cw ∧ l.start = s.now ∧
      l.stop = s.now + ms * 1000 := by
  unfold grantLease
  extract_lets u base l
  have hu : u.now = s.now ∧ u.lv.high = s.lv.high := by
    unfold u
    split
    · exact ⟨(endLeaseFor_foot ..).same .now rfl, endLeaseFor_high ..⟩
    · exact ⟨rfl, rfl⟩
  obtain ⟨hnow, hhigh⟩ := hu
  rw [respond_lv, addLease, tellPartner_lv, State.onLv_lv]
  exact ⟨hhigh, l, List.mem_append_right _ List.mem_cons_self, rfl, rfl, rfl, rfl, hnow, by rw [← hnow]⟩

/-! ## Requests and returns whose sequence is new (R147) -/

/-- The sequence noted, and told to the partner. -/
def seqNoted (cw : DWord) (s : State) : State :=
  tellPartner (.high (BitVec.ofNat 16 (cwSrc cw)) (cwSeq cw))
    (s.onLv fun l => { l with high := l.high.set (cwSrc cw) (cwSeq cw) })

section
variable (cw : DWord) (s : State)

theorem seqNoted_sameLedger : SameLedger s (seqNoted cw s) :=
  (onLv_sameLedger rfl).trans (tellPartner_sameLedger ..)

theorem seqNoted_high : (seqNoted cw s).lv.high.get 0 (cwSrc cw) = cwSeq cw := by simp [seqNoted]

end

/-- A returned lease taken from the ledger, and told to the partner. -/
def leaseReturned (l : Lease) (s : State) : State :=
  tellPartner (.ended l.id) (s.onLv fun v => { v with leases := v.leases.filter (·.id != l.id) })

/-- The answer to a LEAVE_RETURN. -/
def returnResp (cw : DWord) (l : Lease) (s : State) : Resp :=
  { leaveResp cw true (leaveBody 3 0x11 l.id (allowedW s l.owner) 0 0 (toKeep l.start) (toKeep l.stop)) with op := 0x0011 }

section
variable {cw : DWord} {s : State} (hfresh : s.lv.high.get 0 (cwSrc cw) < cwSeq cw)
include hfresh

theorem leaveRequest_new {b : Bytes} (hnone : s.lv.leases.find? (fun l => l.kind == 0 && l.cw == cw) = none)
    (hb : badLeave s (trayOfSrc (cwSrc cw)) b = none) :
    leaveRequest 48 cw b s = answerLeave (trayOfSrc (cwSrc cw)) cw b (seqNoted cw (count 0x260 s)) := by
  have hbad : badLeave (seqNoted cw (count 0x260 s)) (trayOfSrc (cwSrc cw)) b = none := by
    rwa [((count_sameLedger ..).trans (seqNoted_sameLedger ..)).badLeave]
  simp only [leaveRequest, count_lv, hnone, bne_self_eq_false, Bool.false_eq_true, if_false, Nat.not_le.mpr hfresh]
  rw [← seqNoted, hbad]

theorem leaveReturn_new {b : Bytes} {l : Lease} (hz : isZero b 2 6 = true) (hl : s.lv.leases.find?
      (fun l => l.kind == 0 && l.id == fld b 0 2 && l.owner / 8 == trayOfSrc (cwSrc cw)) = some l) :
    leaveReturn 40 cw b s =
      respond 6 (returnResp cw l (leaseReturned l (seqNoted cw s))) (count 0x266 (leaseReturned l (seqNoted cw s))) := by
  have hleases : (seqNoted cw s).lv.leases = s.lv.leases := (seqNoted_sameLedger ..).leases
  simp only [leaveReturn, bne_self_eq_false, Bool.false_eq_true, if_false, Nat.not_le.mpr hfresh, hz, Bool.not_true]
  rw [← seqNoted, hleases, hl]
  rfl

end

/-- A return's lease is gone, and its agent has the answer. -/
theorem returned_answers (cw : DWord) (l : Lease) (s u : State) (hu : u = leaseReturned l (seqNoted cw s)) :
    (respond 6 (returnResp cw l u) (count 0x266 u)).lv.leases = s.lv.leases.filter (·.id != l.id) ∧
    returnResp cw l u ∈ (agentOf (respond 6 (returnResp cw l u) (count 0x266 u)) (trayOfSrc (cwSrc cw))).answers := by
  have hleases : u.lv.leases = s.lv.leases.filter (·.id != l.id) := by
    rw [hu, leaseReturned, tellPartner_lv, State.onLv_lv, (seqNoted_sameLedger ..).leases]
  refine ⟨by rw [respond_lv, count_lv, hleases], ?_⟩
  rw [show (agentOf _ (trayOfSrc (cwSrc cw))).answers = _ from answers_respond (returnResp cw l u) (count 0x266 u)]
  exact List.mem_append_right _ List.mem_cons_self

/-! ## The decision carried out (R148, R149) -/

section
variable {n : Nat} {cw : DWord} {b : Bytes} {s : State} {reason ms : Nat}

theorem answerLeave_grant {cap : Nat}
    (h : decideLeave s n (fld b 0 1) (fld b 4 2) (fld b 6 2) (fld b 8 4) = .grant cap) : answerLeave n cw b s =
      grantLease (n * 8 + fld b 0 1) cap (fld b 8 4) cw
        (count (if cap < fld b 4 2 then 0x262 else 0x261) (count 0x268 s)) := by
  simp only [answerLeave, (count_sameLedger ..).decideLeave, h]

/-- The watts that a request waits for, noted under one reason. -/
def waitNoted (noted : Bool) (need : Nat) (s : State) : State :=
  if noted then s.onLv fun l => { l with waiting := l.waiting + need } else s

theorem waitNoted_sameLedger (noted : Bool) (need : Nat) (s : State) :
    SameLedger s (waitNoted noted need (count 0x268 s)) := by
  unfold waitNoted
  split
  · exact (count_sameLedger ..).trans (onLv_sameLedger rfl)
  · exact count_sameLedger ..

theorem answerLeave_defer (h : decideLeave s n (fld b 0 1) (fld b 4 2) (fld b 6 2) (fld b 8 4) = .defer ms reason) :
    (answerLeave n cw b s).lv.leases = s.lv.leases ∧
    (agentOf (answerLeave n cw b s) (trayOfSrc (cwSrc cw))).answers =
      (agentOf s (trayOfSrc (cwSrc cw))).answers ++ [leaveRefusal s cw 1 reason (n * 8 + fld b 0 1) ms] := by
  have heq : answerLeave n cw b s =
      let u := waitNoted (reason == 6) (fld b 6 2 - accBase (descOf (count 0x268 s) n) (fld b 0 1)) (count 0x268 s)
      respond 6 (leaveRefusal u cw 1 reason (n * 8 + fld b 0 1) ms) (count 0x263 u) := by
    simp only [answerLeave, (count_sameLedger ..).decideLeave, h]
    rfl
  rw [heq]
  exact refused_answers (waitNoted_sameLedger ..) ..

theorem answerLeave_deny (h : decideLeave s n (fld b 0 1) (fld b 4 2) (fld b 6 2) (fld b 8 4) = .deny reason) :
    (answerLeave n cw b s).lv.leases = s.lv.leases ∧
    (agentOf (answerLeave n cw b s) (trayOfSrc (cwSrc cw))).answers =
      (agentOf s (trayOfSrc (cwSrc cw))).answers ++ [leaveRefusal s cw 2 reason (n * 8 + fld b 0 1) 0] := by
  have heq : answerLeave n cw b s =
      let u := waitNoted (reason == 5) (fld b 6 2 - accBase (descOf (count 0x268 s) n) (fld b 0 1)) (count 0x268 s)
      respond 6 (leaveRefusal u cw 2 reason (n * 8 + fld b 0 1) 0) (count 0x264 u) := by
    simp only [answerLeave, (count_sameLedger ..).decideLeave, h]
    rfl
  rw [heq]
  exact refused_answers (waitNoted_sameLedger ..) ..

end

/-! ## The statement -/

/-- The state in which a new LEAVE_REQUEST is decided. -/
def toDecide (h : Hdr) (s : State) : State := seqNoted (mkCw h.src.toNat h.seq.toNat) (count 0x260 s)

theorem toDecide_sameLedger (h : Hdr) (s : State) : SameLedger s (toDecide h s) :=
  (count_sameLedger ..).trans (seqNoted_sameLedger ..)

theorem arrive_request {h : Hdr} {body : Bytes} {s : State} (a : LeaveArrives 0x0010 h body s)
    (hlen : body.length = 16) (ht : h.token = []) :
    arrive 0x0010 h body s = leaveRequest 48 (mkCw h.src.toNat h.seq.toNat) body s := by
  rw [arrive_leave a (.inl rfl) ht, if_pos (by decide), hlen]

theorem arrive_decided {h : Hdr} {body : Bytes} {s : State} (a : LeaveArrives 0x0010 h body s)
    (hlen : body.length = 16) (ht : h.token = [])
    (hnone : s.lv.leases.find? (fun l => l.kind == 0 && l.cw == mkCw h.src.toNat h.seq.toNat) = none)
    (hb : badLeave s (trayOfSrc h.src.toNat) body = none) : arrive 0x0010 h body s =
      answerLeave (trayOfSrc h.src.toNat) (mkCw h.src.toNat h.seq.toNat) body (toDecide h s) := by
  have hnew := leaveRequest_new (cw := mkCw h.src.toNat h.seq.toNat) (by simpa using a.fresh) hnone (b := body)
    (by rwa [cwSrc_mkCw])
  rw [cwSrc_mkCw] at hnew
  rw [arrive_request a hlen ht, hnew, toDecide]

/-- Settles O33: a leave record comes to the leave unit with nothing that its decision looks at changed. -/
theorem leaveRecordsAreAnswered : Obligations.LeaveRecordsAreAnswered := by
  unfold Obligations.LeaveRecordsAreAnswered
  refine ⟨?grant, ?defer, ?deny, ?returned⟩
  case grant =>
    intro h body s cap a hlen ht hnone hb hd
    have hsame := toDecide_sameLedger h s
    have hfoot := leaveRequest_foot 48 (mkCw h.src.toNat h.seq.toNat) body s
    have hhigh : (toDecide h s).lv.high.get 0 h.src.toNat = h.seq.toNat := by
      simpa [toDecide] using seqNoted_high (mkCw h.src.toNat h.seq.toNat) (count 0x260 s)
    obtain ⟨hkept, l, hmem, hkind, howner, hcap, hcw, hstart, hstop⟩ := grantLease_enters
      (trayOfSrc h.src.toNat * 8 + fld body 0 1) cap (fld body 8 4) (mkCw h.src.toNat h.seq.toNat)
      (count (if cap < fld body 4 2 then 0x262 else 0x261) (count 0x268 (toDecide h s)))
    rw [count_lv, count_lv] at hkept
    rw [count_now, count_now, show (toDecide h s).now = s.now from hsame.foot.same .now rfl] at hstart hstop
    refine .next (t := arrive 0x0010 h body s) (exec_record rfl s) ?_
    rw [← arrive_request a hlen ht] at hfoot
    rw [arrive_decided a hlen ht hnone hb, answerLeave_grant ((hsame.decideLeave ..).trans hd)] at hfoot ⊢
    exact ⟨⟨l, hmem, hkind, howner, hcap, hcw, hstart, hstop⟩, by rw [hkept, hhigh], hfoot.same .jr rfl,
      congrArg Keep.capdn (hfoot.same .keep rfl)⟩
  case defer =>
    intro h body s ms reason a hlen ht hnone hb hd
    have hsame := toDecide_sameLedger h s
    obtain ⟨hleases, hans⟩ := answerLeave_defer (cw := mkCw h.src.toNat h.seq.toNat) (b := body) (s := toDecide h s)
      ((hsame.decideLeave ..).trans hd)
    rw [cwSrc_mkCw, agentOf_congr (hsame.foot.same .stw rfl), hsame.leaveRefusal] at hans
    refine .next (t := arrive 0x0010 h body s) (exec_record rfl s) ?_
    rw [arrive_decided a hlen ht hnone hb]
    exact ⟨hleases.trans hsame.leases, hans⟩
  case deny =>
    intro h body s reason a hlen ht hnone hb hd
    have hsame := toDecide_sameLedger h s
    obtain ⟨hleases, hans⟩ := answerLeave_deny (cw := mkCw h.src.toNat h.seq.toNat) (b := body) (s := toDecide h s)
      ((hsame.decideLeave ..).trans hd)
    rw [cwSrc_mkCw, agentOf_congr (hsame.foot.same .stw rfl), hsame.leaveRefusal] at hans
    refine .next (t := arrive 0x0010 h body s) (exec_record rfl s) ?_
    rw [arrive_decided a hlen ht hnone hb]
    exact ⟨hleases.trans hsame.leases, hans⟩
  case returned =>
    intro h body s l a hlen ht hz hl
    have hret := leaveReturn_new (cw := mkCw h.src.toNat h.seq.toNat) (by simpa using a.fresh) hz (by rwa [cwSrc_mkCw])
    obtain ⟨hleases, hans⟩ := returned_answers (mkCw h.src.toNat h.seq.toNat) l s _ rfl
    rw [cwSrc_mkCw] at hans
    refine .next (t := arrive 0x0011 h body s) (exec_record rfl s) ?_
    rw [arrive_leave a (.inr rfl) ht, if_neg (by decide), hlen, hret]
    exact ⟨hleases, _, hans, rfl, rfl, rfl⟩

end Sys2Proof.Machine
end

section
/-! A tray poll that waits for its time, and the statement about tray agents (R331). -/

namespace Sys2Proof.Machine

/-- A running board at time 0 that does not lead, whose next poll of tray 0 is due at 1 ms. -/
def pollDue : State :=
  { pwr := { bind := .on }, boot := { state := .running }, stw := { agents := [(0, { link := .up, pollAt := 1000 })] } }

/-- A valid report of tray 0's agent. -/
def firstReport : PowerReport := { seq := 1, state := 0, trayW := 5, accW := List.replicate 8 0 }

/-- The board after the poll that brought the report. -/
def polled : State := doTrayPoll 0 firstReport pollDue

/-- The poll takes place at 1 ms. -/
theorem polled_now : polled.now = 1000 := by decide

/-- The next poll is noted 1 ms after the time before the wait: for the very time of this poll. -/
theorem polled_pollAt : (agentOf polled 0).pollAt = 1000 := by decide

/-- Refutes O36: with the poll of tray 0 due at 1 ms and the clock at 0, the poll at 1 ms does not note the next for 2 ms. -/
theorem not_trayAgentCommandsComplete : ¬ Obligations.TrayAgentCommandsComplete := by
  unfold Obligations.TrayAgentCommandsComplete
  rintro ⟨hpoll, -⟩
  obtain ⟨t, ht, -, hnext, -⟩ := hpoll pollDue 0 firstReport rfl rfl rfl rfl (by decide)
  obtain rfl : polled = t := Host.Outcome.next.inj ht
  have hclash : 1000 = 1000 + 1000 := by
    rw [polled_now] at hnext
    exact polled_pollAt.symm.trans hnext
  omega

end Sys2Proof.Machine
end

section
/-! Laws of a trip: the latches and causes that it sets, the TEN lines that it drops and the CAPDN lines that it asserts (R170,
R171, R173). -/

namespace Sys2Proof.Machine

/-! ## Masks of trays -/

theorem mem_bitsOf {b m n : Nat} : n ∈ bitsOf b m ↔ n < b ∧ m.testBit n = true := by
  simp [bitsOf]

/-- A mask is built from its indices. -/
theorem testBit_maskOf (l : List Nat) (n : Nat) : (maskOf l).testBit n = decide (n ∈ l) := by
  have hfold : ∀ m : Nat, (l.foldl (fun m i => m ||| 2 ^ i) m).testBit n = (m.testBit n || decide (n ∈ l)) := by
    induction l with
    | nil => simp
    | cons i l ih =>
      intro m
      rw [List.foldl_cons, ih, Nat.testBit_or, Nat.testBit_two_pow, Bool.or_assoc]
      simp [eq_comm]
  simpa [maskOf] using hfold 0

theorem bit16_or_mask {n : Nat} (hn : n < 16) (v : Half) (m : Nat) :
    bit16 (v ||| BitVec.ofNat 16 m) n = (bit16 v n || m.testBit n) := by
  rw [bit16, BitVec.getLsbD_or, BitVec.getLsbD_ofNat, decide_eq_true hn, Bool.true_and, bit16]

theorem bit16_andNot_mask {n : Nat} (hn : n < 16) (v : Half) (m : Nat) :
    bit16 (v &&& ~~~BitVec.ofNat 16 m) n = (bit16 v n && !m.testBit n) := by
  rw [bit16, BitVec.getLsbD_and, BitVec.getLsbD_not, BitVec.getLsbD_ofNat, decide_eq_true hn, Bool.true_and, Bool.true_and, bit16]

/-! ## The latches and causes (R170, R173) -/

/-- The causes of a mask of trays with one more. -/
def addCause (m cause : Nat) (c : Tab Nat) : Tab Nat := (bitsOf 16 m).foldl (fun c t => c.mod 0 t (· ||| 2 ^ cause)) c

/-- The nets of some trays noted as not read high since. -/
def clearHigh (ts : List Nat) (h : Tab Bool) : Tab Bool := ts.foldl (fun c t => c.set t false) h

theorem testBit_addCause {m n : Nat} (cause : Nat) (hn : n < 16) (hm : m.testBit n = true) (c : Tab Nat) :
    ((addCause m cause c).get 0 n).testBit cause = true := by
  have hfold : ∀ (ts : List Nat) (c : Tab Nat), n ∈ ts ∨ (c.get 0 n).testBit cause = true →
      ((ts.foldl (fun c t => c.mod 0 t (· ||| 2 ^ cause)) c).get 0 n).testBit cause = true := by
    intro ts
    induction ts with
    | nil => exact fun c h => h.resolve_left List.not_mem_nil
    | cons t ts ih =>
      intro c h
      refine ih _ ?_
      by_cases ht : n = t
      · exact .inr (by simp [ht])
      · rw [Tab.get_mod_other _ _ _ ht]
        exact h.imp_left fun hmem => (List.mem_cons.mp hmem).resolve_left ht
  exact hfold _ c (.inl (mem_bitsOf.mpr ⟨hn, hm⟩))

theorem get_clearHigh {ts : List Nat} {n : Nat} (hn : n ∈ ts) (h : Tab Bool) : (clearHigh ts h).get false n = false := by
  have hfold : ∀ (ts : List Nat) (c : Tab Bool), n ∈ ts ∨ c.get false n = false →
      (clearHigh ts c).get false n = false := by
    intro ts
    induction ts with
    | nil => exact fun c h => h.resolve_left List.not_mem_nil
    | cons t ts ih =>
      intro c h
      refine ih _ ?_
      by_cases ht : n = t
      · exact .inr (by simp [ht])
      · rw [Tab.get_set_other _ _ _ ht]
        exact h.imp_left fun hmem => (List.mem_cons.mp hmem).resolve_left ht
  exact hfold ts h (.inl hn)

/-- A tray with an own cause is driven tripped by this board. -/
theorem tripDriven_of_cause {s : State} {t c : Nat} (ht : tripped s t = true) (hc : c < 33)
    (hbit : (s.ket.causes.get 0 t).testBit c = true) : tripDriven s t = true := by
  have hmod : s.ket.causes.get 0 t % 2 ^ 33 ≠ 0 := by
    intro h
    have hlow : (s.ket.causes.get 0 t % 2 ^ 33).testBit c = true := by
      rw [Nat.testBit_mod_two_pow, hbit]
      simpa using hc
    rw [h, Nat.zero_testBit] at hlow
    exact Bool.false_ne_true hlow
  simp only [tripDriven, ht, Bool.true_and, Bool.or_eq_true, bne_iff_ne]
  exact .inr hmod

/-! ## The kettle path but for the folios of causes and the time of the next save of the images -/

/-- The trip matrix, its sources and its releases. -/
def matrix (k : Kettle) : Kettle := { k with refs := [], imageDue := none }

/-- A part of the matrix is the same in two kettle paths that agree in it. -/
theorem matrix_part {k k' : Kettle} (h : matrix k = matrix k') {α : Type} (f : Kettle → α)
    (hf : ∀ k, f (matrix k) = f k) : f k = f k' := by
  rw [← hf, h, hf]

@[simp] theorem matrix_imageSoon (s : State) : matrix (imageSoon s).ket = matrix s.ket := rfl

/-- The kettle path with a mask of trays latched under a cause. -/
def Kettle.latched (m cause : Nat) (k : Kettle) : Kettle :=
  { k with
    trip := k.trip ||| BitVec.ofNat 16 m
    causes := addCause m cause k.causes
    foreignHi := if cause == 33 then clearHigh (bitsOf 16 m) k.foreignHi else k.foreignHi }

/-- The trays of a mask that are not tripped yet. -/
def freshTrays (m : Nat) (s : State) : List Nat := (bitsOf 16 m).filter fun t => !tripped s t

/-- A trip with its trays' consequences, before it is counted, signalled and reported. -/
def tripBegun (m cause : Nat) (s : State) : State :=
  (freshTrays m s).foldl (fun s t => tripTray t s) (dropTen m (s.onKet (Kettle.latched m cause)))

/-- What counts, signals and reports a trip. -/
structure Reported (s t : State) : Prop where
  foot   : Foot [.out, .keep, .host, .log, .pmc, .spn, .ket, .stw] s t
  matrix : matrix t.ket = matrix s.ket

theorem tripTrays_reported (m cause loc : Nat) (s : State) : Reported (tripBegun m cause s) (tripTrays m cause loc s) := by
  unfold tripTrays
  extract_lets fresh chg s1 s2 s3 ref s4 s5
  have h3 : Reported s2 s3 := by
    unfold s3
    split
    · exact ⟨.refl, rfl⟩
    · have hfoot : Foot [.out, .keep, .pmc, .host, .stw] s2 (tagDue (wakeCause 1 (count 0x3E1 s2))) :=
        ((count_foot 0x3E1 s2).mono rfl).then (wakeCause_foot 1 _) rfl |>.then (tagDue_foot _) rfl
      exact ⟨hfoot.mono rfl, congrArg Machine.matrix (hfoot.same .ket rfl)⟩
  have h5 : Foot [.out, .keep, .host, .log, .pmc, .spn] s4 s5 := .ite (event_foot ..) (event_foot ..)
  have h4 : Foot [.ket] s3 s4 := Foot.refl.onKet rfl (.inr (.inl rfl)) (.inr rfl)
  show Reported s2 _
  split
  · exact h3
  · exact ⟨h3.foot.then h4 rfl |>.then h5 rfl |>.then (imageSoon_foot _) rfl,
      (congrArg Machine.matrix (h5.same .ket rfl)).trans h3.matrix⟩

theorem tripBegun_ket (m cause : Nat) (s : State) : (tripBegun m cause s).ket = s.ket.latched m cause := by
  have hfold := foldl_view (view := State.ket) (fun u t => (tripTray_foot t u).same .ket rfl) (freshTrays m s)
    (dropTen m (s.onKet (Kettle.latched m cause)))
  exact hfold.trans ((dropTen_foot ..).same .ket rfl)

section
variable (m cause loc : Nat) (s : State)

theorem tripTrays_matrix : matrix (tripTrays m cause loc s).ket = matrix (s.ket.latched m cause) := by
  rw [(tripTrays_reported ..).matrix, tripBegun_ket]

@[simp] theorem tripTrays_trip : (tripTrays m cause loc s).ket.trip = s.ket.trip ||| BitVec.ofNat 16 m :=
  matrix_part (tripTrays_matrix ..) Kettle.trip fun _ => rfl

@[simp] theorem tripTrays_causes : (tripTrays m cause loc s).ket.causes = addCause m cause s.ket.causes :=
  matrix_part (tripTrays_matrix ..) Kettle.causes fun _ => rfl

@[simp] theorem tripTrays_foreignHi : (tripTrays m 33 loc s).ket.foreignHi = clearHigh (bitsOf 16 m) s.ket.foreignHi :=
  matrix_part (tripTrays_matrix ..) Kettle.foreignHi fun _ => rfl

@[simp] theorem leakOf_tripTrays (n : Nat) : leakOf (tripTrays m cause loc s) n = leakOf s n :=
  matrix_part (tripTrays_matrix ..) (fun k => k.src.get ({} : Leak) n) fun _ => rfl

theorem tripped_tripTrays {n : Nat} (hn : n < 16) :
    tripped (tripTrays m cause loc s) n = (tripped s n || m.testBit n) := by
  rw [tripped, tripTrays_trip, bit16_or_mask hn, tripped]

end

/-! ## TEN falls at the trays of the mask (R170) -/

theorem dropTen_ten {m : Nat} {s : State} (h : drivesTen s = true) :
    (dropTen m s).keep.ten = s.keep.ten &&& ~~~BitVec.ofNat 16 m := by
  simp [dropTen, h, driveTen_keep]

theorem tripTrays_ten {m : Nat} (cause loc : Nat) {s : State} (h : drivesTen s = true) :
    (tripTrays m cause loc s).keep.ten = s.keep.ten &&& ~~~BitVec.ofNat 16 m := by
  have hreport : (tripTrays m cause loc s).keep.ten = (tripBegun m cause s).keep.ten :=
    (tripTrays_reported ..).foot.same .ten rfl
  have hfold := foldl_view (view := fun u : State => u.keep.ten) (fun u t => (tripTray_foot t u).same .ten rfl)
    (freshTrays m s) (dropTen m (s.onKet (Kettle.latched m cause)))
  rw [hreport, tripBegun, hfold, dropTen_ten (s := s.onKet (Kettle.latched m cause)) h]
  rfl

theorem tripTrays_tenRead (m cause loc : Nat) (s : State) : (tripTrays m cause loc s).keep.tenRead = s.keep.tenRead :=
  (tripTrays_onlyTrips m cause loc s).tenRead

/-! ## CAPDN is asserted at each tray not tripped before (R170) -/

/-- This board's leave unit drives CAPDN: an acting Lead or a board in keeper mode, outside LONE_CHECK (R132, R154). -/
structure DrivesCapdn (s : State) : Prop where
  leads : running s = false ∨ s.pair.lead = true
  free  : s.pair.state ≠ .lone

/-- It still does where neither the firmware nor the role nor the pair state changed. -/
theorem DrivesCapdn.congr {s t : State} (h : DrivesCapdn s) (hpwr : t.pwr = s.pwr) (hboot : t.boot = s.boot)
    (hlead : t.pair.lead = s.pair.lead) (hstate : t.pair.state = s.pair.state) : DrivesCapdn t :=
  ⟨by rw [running, hpwr, hboot, hlead, ← running]; exact h.leads, by rw [hstate]; exact h.free⟩

theorem DrivesCapdn.of_core {fs : List Fld} {s t : State} (h : DrivesCapdn s) (hf : Foot fs s t)
    (hpwr : fs.contains .pwr = false) (hboot : fs.contains .boot = false) (hp : pairCore t.pair = pairCore s.pair) :
    DrivesCapdn t :=
  h.congr (hf.same .pwr hpwr) (hf.same .boot hboot) (pairCore_part hp Pair.lead fun _ => rfl)
    (pairCore_part hp Pair.state fun _ => rfl)

theorem assertCapdn_capdn {s : State} (h : DrivesCapdn s) (t : Nat) :
    (assertCapdn t s).keep.capdn = put16 s.keep.capdn t true := by
  have hguard : (running s && !s.pair.lead) = false := by
    rcases h.leads with hr | hl
    · simp [hr]
    · simp [hl]
  simp [assertCapdn, hguard, driveCapdn_capdn h.free]

@[simp] theorem pairCore_endStart (t : Nat) (r : Word) (s : State) : pairCore (endStart t r s).pair = pairCore s.pair := by
  unfold endStart
  dsimp only
  split
  · rfl
  · exact pairCore_finish0 ..

@[simp] theorem pairCore_endRebind (r : Word) (s : State) : pairCore (endRebind r s).pair = pairCore s.pair := by
  unfold endRebind
  split
  · rfl
  · extract_lets t ok kept g k s1 s2 s3 s4 s5
    have h1 : s1.pair = s.pair := by
      unfold s1
      split
      · rfl
      · exact (endLease_foot ..).same .pair rfl
    have h4 : s4.pair = s.pair := (event_pair ..).trans h1
    have h5 : pairCore s5.pair = pairCore s4.pair := pairCore_finish0 ..
    rw [(startRebind_foot _).same .pair rfl, (queueResume_foot t s5).same .pair rfl, h5, h4]

@[simp] theorem pairCore_abortRebind (t : Nat) (s : State) : pairCore (abortRebind t s).pair = pairCore s.pair := by
  unfold abortRebind
  extract_lets gone prior s1 s2
  have h2 : pairCore s2.pair = pairCore s.pair :=
    foldl_view (view := fun u : State => pairCore u.pair) (fun u r => pairCore_finish0 r.jseq 0x0E03 u) gone s1
  split
  · split
    · exact (pairCore_endRebind ..).trans h2
    · exact h2
  · exact h2

theorem tripTray_pairCore (t : Nat) (s : State) : pairCore (tripTray t s).pair = pairCore s.pair := by
  simp [tripTray]

/-- A trip asserts its tray's CAPDN. -/
theorem tripTray_capdn {s : State} (h : DrivesCapdn s) {t : Nat} (ht : t < 16) : bit16 (tripTray t s).keep.capdn t = true := by
  unfold tripTray
  extract_lets s1
  have h1 : DrivesCapdn s1 := h.congr rfl rfl rfl rfl
  have h2 : DrivesCapdn (revokeTray t 0x12 s1) :=
    h1.of_core (revokeTray_foot ..) rfl rfl (congrArg pairCore ((revokeTray_foot ..).same .pair rfl))
  have h3 : DrivesCapdn (endStart t 0x0602 (revokeTray t 0x12 s1)) :=
    h2.of_core (endStart_foot ..) rfl rfl (pairCore_endStart ..)
  rw [keepCore_capdn ((settleStop_foot ..).same .core rfl), keepCore_capdn ((abortRebind_foot ..).same .core rfl),
    assertCapdn_capdn h3, bit16_put16 ht]

/-- One after another, trips assert the CAPDN of every tray of a list. -/
theorem tripTrays_fold_capdn {ts : List Nat} {s : State} (h : DrivesCapdn s) {n : Nat} (hn : n < 16)
    (hmem : n ∈ ts ∨ bit16 s.keep.capdn n = true) :
    bit16 (ts.foldl (fun s t => tripTray t s) s).keep.capdn n = true := by
  induction ts generalizing s with
  | nil => exact hmem.resolve_left List.not_mem_nil
  | cons t ts ih =>
    have hdrives : DrivesCapdn (tripTray t s) := h.of_core (tripTray_foot t s) rfl rfl (tripTray_pairCore t s)
    rw [List.foldl_cons]
    refine ih (s := tripTray t s) hdrives ?_
    rcases hmem with hmem | hlow
    · rcases List.mem_cons.mp hmem with rfl | hmem
      · exact .inr (tripTray_capdn h hn)
      · exact .inl hmem
    · exact .inr (bit16_of_capdnFall ((tripTray_foot t s).same .capdnFall rfl) hlow)

theorem dropTen_drivesCapdn (m : Nat) {s : State} (h : DrivesCapdn s) : DrivesCapdn (dropTen m s) := by
  have hfoot := dropTen_foot m s
  have hpair : (dropTen m s).pair.lead = s.pair.lead ∧ (dropTen m s).pair.state = s.pair.state := by
    unfold dropTen
    split
    · exact ⟨rfl, rfl⟩
    · rw [(driveTen_foot ..).same .pair rfl]
      exact ⟨rfl, rfl⟩
  exact h.congr (hfoot.same .pwr rfl) (hfoot.same .boot rfl) hpair.1 hpair.2

theorem tripTrays_capdn {m n : Nat} (cause loc : Nat) {s : State} (h : DrivesCapdn s) (hn : n < 16)
    (hm : m.testBit n = true) (hfresh : tripped s n = false) : bit16 (tripTrays m cause loc s).keep.capdn n = true := by
  have hstart : DrivesCapdn (dropTen m (s.onKet (Kettle.latched m cause))) :=
    dropTen_drivesCapdn m (h.congr rfl rfl rfl rfl)
  have hmem : n ∈ freshTrays m s := List.mem_filter.mpr ⟨mem_bitsOf.mpr ⟨hn, hm⟩, by simp [hfresh]⟩
  rw [keepCore_capdn ((tripTrays_reported m cause loc s).foot.same .core rfl)]
  exact tripTrays_fold_capdn hstart hn (.inl hmem)

end Sys2Proof.Machine
end

section
/-! Laws of a source of the trip matrix: what a change of its reading or of a flag leaves, with the trip that it may bring
(R166, R170, R177, R178). -/

namespace Sys2Proof.Machine

/-! ## A source that is examined -/

/-- A source with the times from which it is active and reads clear. -/
def Leak.timed (r : Option Bytes) (n now : Nat) (l : Leak) : Leak :=
  { l with
    clear := if readsClear r n l then (match l.clear with | some t => some t | none => some now) else none
    since := if leakActive r n l then (match l.since with | some t => some t | none => some now) else none }

/-- A source changed by `f`, with its times. -/
def sourceChanged (n : Nat) (f : Leak → Leak) (s : State) : State :=
  onLeak n (Leak.timed s.ket.route n s.now) (onLeak n f s)

theorem leakOf_sourceChanged (n : Nat) (f : Leak → Leak) (s : State) :
    leakOf (sourceChanged n f s) n = (f (leakOf s n)).timed s.ket.route n s.now := by
  rw [sourceChanged, leakOf_onLeak_same, leakOf_onLeak_same]

/-- The source acts on the matrix as it becomes active. -/
theorem senseChange_eq (n : Nat) (f : Leak → Leak) (s : State) : senseChange n f s =
    if leakActive s.ket.route n (f (leakOf s n)) && !leakActive s.ket.route n (leakOf s n) then
      tripSource n (sourceChanged n f s) else sourceChanged n f s := by
  rw [← leakOf_onLeak_same n f s]
  rfl

/-- The time from which a source reads clear is known where it does. -/
theorem Leak.timed_clear {r : Option Bytes} {n : Nat} {l : Leak} (he : routeEnable r n = true)
    (ha : leakActive r n l = false) (now : Nat) : (l.timed r n now).clear.isSome = true := by
  have hclear : readsClear r n l = true := by simp [readsClear, he, ha]
  simp only [Leak.timed, hclear, if_true]
  split <;> rfl

/-! ## A change that trips nothing -/

/-- What the change of a source to `l` leaves where it does not act on the matrix. -/
structure SourceQuiet (n : Nat) (l : Leak) (s t : State) : Prop where
  source : leakOf t n = l
  trip   : t.ket.trip = s.ket.trip
  core   : keepCore t.keep = keepCore s.keep

theorem SourceQuiet.then {n : Nat} {l : Leak} {s t u : State} (h : SourceQuiet n l s t) (hket : u.ket = t.ket)
    (hcore : keepCore u.keep = keepCore t.keep) : SourceQuiet n l s u :=
  ⟨by rw [leakOf, hket, ← leakOf, h.source], by rw [hket, h.trip], hcore.trans h.core⟩

theorem sourceChanged_quiet (n : Nat) (f : Leak → Leak) (s : State) :
    SourceQuiet n ((f (leakOf s n)).timed s.ket.route n s.now) s (sourceChanged n f s) :=
  ⟨leakOf_sourceChanged n f s, rfl, rfl⟩

/-- A source that does not become active, or is masked, trips nothing (R178). -/
theorem senseChange_quiet {n : Nat} {f : Leak → Leak} {s : State}
    (h : (leakActive s.ket.route n (f (leakOf s n)) = true → leakActive s.ket.route n (leakOf s n) = true) ∨
      (f (leakOf s n)).masked = true) :
    SourceQuiet n ((f (leakOf s n)).timed s.ket.route n s.now) s (senseChange n f s) := by
  have hstay : senseChange n f s = sourceChanged n f s := by
    rw [senseChange_eq]
    split
    next hact =>
      obtain ⟨hnew, hold⟩ := Bool.and_eq_true_iff.mp hact
      have hmasked : (leakOf (sourceChanged n f s) n).masked = true := by
        rw [leakOf_sourceChanged]
        exact h.resolve_left fun hkeeps => by simp [hkeeps hnew] at hold
      rw [tripSource, hmasked, if_pos rfl]
    next => rfl
  rw [hstay]
  exact sourceChanged_quiet n f s

/-! ## A change that trips the source's trays (R170) -/

/-- What a source that trips leaves: its latch, the latches and lines of the trays routed to it, and the others as they were. -/
structure SourceTrips (n : Nat) (l : Leak) (s t : State) : Prop where
  source : leakOf t n = { l with latch := true }
  routed : ∀ k < 16, (routeMask s.ket.route n).testBit k = true → tripped t k = true ∧ tripDriven t k = true
  others : ∀ k < 16, (routeMask s.ket.route n).testBit k = false → tripped t k = tripped s k
  route  : t.ket.route = s.ket.route
  ten    : drivesTen s = true → ∀ k < 16, (routeMask s.ket.route n).testBit k = true → bit16 t.keep.ten k = false
  capdn  : DrivesCapdn s → ∀ k < 16, (routeMask s.ket.route n).testBit k = true → tripped s k = false →
    bit16 t.keep.capdn k = true
  por    : t.keep.por = s.keep.por
  read   : t.keep.tenRead = s.keep.tenRead

theorem SourceTrips.then {n : Nat} {l : Leak} {s t u : State} (h : SourceTrips n l s t) (hket : u.ket = t.ket)
    (hcore : keepCore u.keep = keepCore t.keep) : SourceTrips n l s u := by
  constructor
  case source => rw [leakOf, hket, ← leakOf, h.source]
  case routed => simpa only [tripDriven, tripped, hket] using h.routed
  case others => simpa only [tripped, hket] using h.others
  case route => rw [hket, h.route]
  case ten => rw [keepCore_ten hcore]; exact h.ten
  case capdn => rw [keepCore_capdn hcore]; exact h.capdn
  case por => rw [keepCore_por hcore, h.por]
  case read => rw [keepCore_tenRead hcore, h.read]

theorem tripSource_trips {n : Nat} {s : State} (hn : n < 33) (hm : (leakOf s n).masked = false) :
    SourceTrips n (leakOf s n) s (tripSource n s) := by
  have heq : tripSource n s = tripTrays (routeMask s.ket.route n) n (leakOf s n).loc
      (onLeak n (fun l => { l with latch := true }) s) := by
    rw [tripSource, hm]
    rfl
  rw [heq]
  generalize (leakOf s n).loc = loc
  have htrip {k : Nat} (hk : k < 16) := tripped_tripTrays (routeMask s.ket.route n) n loc
    (onLeak n (fun l => { l with latch := true }) s) hk
  constructor
  case source => rw [leakOf_tripTrays, leakOf_onLeak_same]
  case routed =>
    intro k hk hbit
    have ht := htrip hk
    rw [hbit, Bool.or_true] at ht
    exact ⟨ht, tripDriven_of_cause ht hn (by rw [tripTrays_causes]; exact testBit_addCause n hk hbit _)⟩
  case others =>
    intro k hk hbit
    rw [htrip hk, hbit, Bool.or_false]
    rfl
  case route => exact tripTrays_route ..
  case ten =>
    intro hd k hk hbit
    rw [tripTrays_ten (s := onLeak n (fun l => { l with latch := true }) s) _ _ hd, bit16_andNot_mask hk, hbit,
      Bool.not_true, Bool.and_false]
  case capdn =>
    intro hd k hk hbit hfresh
    exact tripTrays_capdn _ _ (s := onLeak n (fun l => { l with latch := true }) s) (hd.congr rfl rfl rfl rfl) hk hbit hfresh
  case por => exact tripTrays_por ..
  case read => exact tripTrays_tenRead ..

/-- A source that becomes active and is not masked trips. -/
theorem senseChange_trips {n : Nat} {f : Leak → Leak} {s : State} (hn : n < 33)
    (hnew : leakActive s.ket.route n (f (leakOf s n)) = true) (hold : leakActive s.ket.route n (leakOf s n) = false)
    (hm : (f (leakOf s n)).masked = false) :
    SourceTrips n ((f (leakOf s n)).timed s.ket.route n s.now) s (senseChange n f s) := by
  have hleak := leakOf_sourceChanged n f s
  obtain ⟨hsource, hrouted, hothers, hroute, hten, hcapdn, hpor, hread⟩ :=
    tripSource_trips (s := sourceChanged n f s) hn (by rw [hleak]; exact hm)
  rw [senseChange_eq, hnew, hold]
  exact ⟨by rw [← hleak]; exact hsource, hrouted, hothers, hroute, hten, fun hd => hcapdn (hd.congr rfl rfl rfl rfl), hpor,
    hread⟩

/-! ## The comparator (R166, R172) -/

section
variable (n now : Nat) (wet short : Bool) (l : Leak)

@[simp] theorem Leak.sense_wet : (l.sense n now wet short).wet = wet := rfl
@[simp] theorem Leak.sense_short : (l.sense n now wet short).short = short := rfl
@[simp] theorem Leak.sense_latch : (l.sense n now wet short).latch = l.latch := by unfold Leak.sense; split <;> rfl
@[simp] theorem Leak.sense_masked : (l.sense n now wet short).masked = l.masked := by unfold Leak.sense; split <;> rfl
@[simp] theorem Leak.sense_chat : (l.sense n now wet short).chat = l.chat := by unfold Leak.sense; split <;> rfl
@[simp] theorem Leak.sense_open : (l.sense n now wet short).open_ = l.open_ := by unfold Leak.sense; split <;> rfl

end

/-- What a reading writes down changes neither the kettle path nor the lines. -/
theorem readSource_foot_after (n : Nat) (wet short : Bool) (s : State) :
    Foot [.out, .keep, .cat, .host, .log, .pmc, .spn] (senseChange n (Leak.sense n s.now wet short) s)
      (readSource n wet short s) := by
  unfold readSource
  extract_lets was now s1
  split
  · exact .refl
  · exact ((record_foot ..).mono rfl).then (saveFlags_foot ..) rfl

theorem readSource_ket (n : Nat) (wet short : Bool) (s : State) :
    (readSource n wet short s).ket = (senseChange n (Leak.sense n s.now wet short) s).ket :=
  (readSource_foot_after ..).same .ket rfl

theorem readSource_core (n : Nat) (wet short : Bool) (s : State) :
    keepCore (readSource n wet short s).keep = keepCore (senseChange n (Leak.sense n s.now wet short) s).keep :=
  (readSource_foot_after ..).same .core rfl

section
variable {s : State} {n : Nat} (hp : s.keep.por = false) (he : routeEnable s.ket.route n = true)
include hp he

theorem sensed_of_enabled : sensed s n = true := by simp [sensed, hp, he]

/-- A reading that no location measurement holds back. -/
theorem doKettleTrip_eq (hmeas : (leakOf s n).meas = none) (reading : LeakReading) :
    doKettleTrip n reading s = readSource n true (decide (n < 32) && reading == .short) s := by
  simp [doKettleTrip, sensed_of_enabled hp he, comparator, hmeas]

theorem doLeakInputClear_eq (hmeas : (leakOf s n).meas = none) : doLeakInputClear n s = readSource n false false s := by
  simp [doLeakInputClear, sensed_of_enabled hp he, comparator, hmeas]

/-- A reading that a location measurement holds back (R176). -/
theorem doKettleTrip_held {d : Nat} (hmeas : (leakOf s n).meas = some d) (reading : LeakReading) :
    doKettleTrip n reading s =
      onLeak n (fun l => { l with hold := some (true, decide (n < 32) && reading == .short) }) s := by
  simp [doKettleTrip, sensed_of_enabled hp he, comparator, hmeas]

end

/-! ## Flags and their copies in the catch store (R177, R178) -/

theorem saveFlags_cat {s : State} (hp : s.keep.por = false) (ht : s.keep.tenRead = true) (n : Nat) :
    (saveFlags n s).cat = { s.cat with
      masks := s.cat.masks.set n (leakOf s n).masked, stuck := s.cat.stuck.set n (leakOf s n).stuck,
      chat := s.cat.chat.set n (leakOf s n).chat, open_ := s.cat.open_.set n (leakOf s n).open_,
      short := s.cat.short.set n (leakOf s n).short } := by
  simp [saveFlags, hp, ht]

section
variable (code : Half) (sev n v : Nat) (s : State)

@[simp] theorem flagEvent_now : (flagEvent code sev n v s).now = s.now := (flagEvent_foot ..).same .now rfl
@[simp] theorem flagEvent_ket : (flagEvent code sev n v s).ket = s.ket := (flagEvent_foot ..).same .ket rfl
theorem flagEvent_core : keepCore (flagEvent code sev n v s).keep = keepCore s.keep := (flagEvent_foot ..).same .core rfl

@[simp] theorem leakOf_flagEvent (k : Nat) : leakOf (flagEvent code sev n v s) k = leakOf s k := by
  rw [leakOf, flagEvent_ket, leakOf]

variable {s}

theorem flagEvent_cat (hp : s.keep.por = false) (ht : s.keep.tenRead = true) :
    (flagEvent code sev n v s).cat = (saveFlags n s).cat := by
  have hleak : leakOf (event code sev [n, v] 0 0 s) n = leakOf s n := by rw [leakOf, event_ket, leakOf]
  rw [flagEvent, saveFlags_cat (by simpa using hp) (by simpa using ht), saveFlags_cat hp ht, hleak, event_cat]

end

end Sys2Proof.Machine
end

section
/-! The statement about trips, foreign trips and masks (R166, R170, R171, R173, R176, R178). -/

namespace Sys2Proof.Machine

/-! ## A source that reads WET (R166, R170, R178) -/

section
variable {s : State} {n : Nat} (hp : s.keep.por = false) (he : routeEnable s.ket.route n = true)
  (hmeas : (leakOf s n).meas = none) (reading : LeakReading)
include hp he hmeas

/-- A source that comes to read WET trips its trays. -/
theorem kettleTrip_trips (hn : n < 33) (hm : (leakOf s n).masked = false)
    (hold : leakActive s.ket.route n (leakOf s n) = false) :
    ∃ l, l.wet = true ∧ SourceTrips n l s (doKettleTrip n reading s) := by
  have htrips := senseChange_trips (f := Leak.sense n s.now true (decide (n < 32) && reading == .short)) hn
    (by simp [leakActive, he]) hold (by rwa [Leak.sense_masked])
  rw [doKettleTrip_eq hp he hmeas]
  exact ⟨_, rfl, htrips.then (readSource_ket ..) (readSource_core ..)⟩

/-- A masked source that comes to read WET trips nothing. -/
theorem kettleTrip_masked (hm : (leakOf s n).masked = true) :
    ∃ l, l.wet = true ∧ SourceQuiet n l s (doKettleTrip n reading s) := by
  have hquiet := senseChange_quiet (s := s) (f := Leak.sense n s.now true (decide (n < 32) && reading == .short))
    (.inr (by rwa [Leak.sense_masked]))
  rw [doKettleTrip_eq hp he hmeas]
  exact ⟨_, rfl, hquiet.then (readSource_ket ..) (readSource_core ..)⟩

end

/-! ## Foreign trips (R173) -/

theorem foreignTrip_completes {s : State} {n : Fin 16} (hp : s.keep.por = false) (hd : tripDriven s n.val = false) :
    Runs (.foreignTrip n) s fun t => tripped t n.val = true ∧ (t.ket.causes.get 0 n.val).testBit 33 = true ∧
      t.ket.foreignHi.get false n.val = false := by
  have hbit : (2 ^ n.val).testBit n.val = true := Nat.testBit_two_pow_self
  have heq : doForeignTrip n.val s = tripTrays (2 ^ n.val) 33 0xFFFF s := by simp [doForeignTrip, hp, hd]
  refine .next (t := doForeignTrip n.val s) rfl ?_
  rw [heq, tripped_tripTrays _ _ _ _ n.isLt, tripTrays_causes, tripTrays_foreignHi, hbit, Bool.or_true]
  exact ⟨rfl, testBit_addCause 33 n.isLt hbit _, get_clearHigh (mem_bitsOf.mpr ⟨n.isLt, hbit⟩) _⟩

/-! ## LEAK_MASK (R178) -/

/-- A source masked or unmasked, with its flag in the catch store. -/
def maskSaved (n : Nat) (m : Bool) (s : State) : State := saveFlags n (onLeak n (fun l => { l with masked := m }) s)

theorem maskSaved_foot (n : Nat) (m : Bool) (s : State) : Foot [.cat, .ket] s (maskSaved n m s) :=
  ((onLeak_foot ..).mono rfl).then (saveFlags_foot ..) rfl

theorem maskSaved_ket (n : Nat) (m : Bool) (s : State) :
    (maskSaved n m s).ket = (onLeak n (fun l => { l with masked := m }) s).ket := (saveFlags_foot ..).same .ket rfl

theorem maskSaved_masks {s : State} (hp : s.keep.por = false) (ht : s.keep.tenRead = true) (n : Nat) (m : Bool) :
    (maskSaved n m s).cat.masks.get false n = m := by
  rw [maskSaved, saveFlags_cat (s := onLeak n (fun l => { l with masked := m }) s) hp ht, leakOf_onLeak_same,
    Tab.get_set_same]

/-- The state before a mask that sets completes: the change of a mask is reported. -/
def maskReported (e : JEntry) (s : State) : State :=
  if (leakOf s (fld e.body 0 1)).masked == true then maskSaved (fld e.body 0 1) true s
  else event 0x0705 2 [fld e.body 0 1, 1] e.cw 0 (maskSaved (fld e.body 0 1) true s)

theorem maskReported_foot (e : JEntry) (s : State) :
    Foot [.out, .keep, .host, .log, .pmc, .spn] (maskSaved (fld e.body 0 1) true s) (maskReported e s) :=
  .ite .refl (event_foot ..)

theorem fxLeakMask_eq {e : JEntry} (hset : fld e.body 1 1 = 1) (s : State) :
    fxLeakMask e s = finish0 e.jseq 0 (maskReported e s) := by
  simp [fxLeakMask, hset, maskReported, maskSaved]

theorem leakMask_masks {e : JEntry} {s : State} (h : EffectDue e s) (hop : e.op = 0x0201) (hset : fld e.body 1 1 = 1)
    (hp : s.keep.por = false) (ht : s.keep.tenRead = true) : Runs .commandEffect s fun t =>
      DoneWith e 0 t ∧ (leakOf t (fld e.body 0 1)).masked = true ∧ t.cat.masks.get false (fld e.body 0 1) = true ∧
        t.ket.trip = s.ket.trip := by
  have hsaved := maskSaved_foot (fld e.body 0 1) true (effectBegun e s)
  have hreported := maskReported_foot e (effectBegun e s)
  refine commandEffect_completes h (u := maskReported e (effectBegun e s))
    ((hreported.same .jr rfl).trans (hsaved.same .jr rfl)) ((hreported.same .pair rfl).trans (hsaved.same .pair rfl)) hop
    rfl (fxLeakMask_eq hset _) ?_
  have hket := (hreported.same .ket rfl).trans (maskSaved_ket (fld e.body 0 1) true (effectBegun e s))
  have hcat : (maskReported e (effectBegun e s)).cat = _ := hreported.same .cat rfl
  rw [leakOf, finish0_ket, finish0_cat, hket, hcat, ← leakOf, leakOf_onLeak_same]
  exact ⟨rfl, maskSaved_masks (s := effectBegun e s) hp ht _ _, rfl⟩

/-! ## The statement -/

/-- Settles O37: a reading acts by `kettleTrip_trips` or `kettleTrip_masked`, a foreign trip and LEAK_MASK by their lemmas. -/
theorem tripsLatchTheirTrays : Obligations.TripsLatchTheirTrays := by
  unfold Obligations.TripsLatchTheirTrays
  refine ⟨?trips, fun s n => foreignTrip_completes, ?high, ?masked, ?held, fun e s h hop _ => leakMask_masks h hop⟩
  case trips =>
    intro s src reading hp he hmeas hm hold
    obtain ⟨l, hwet, ht⟩ := kettleTrip_trips hp he hmeas reading src.isLt hm hold
    refine .next (t := doKettleTrip src.val reading s) rfl ⟨?_, ?_, ht.routed, ht.others, ht.route, ht.ten,
      fun hleads hfree => ht.capdn ⟨hleads, hfree⟩⟩
    · rw [ht.source, ← hwet]
    · rw [ht.source]
  case high =>
    intro s n hp hr
    refine .next (t := doForeignCauseClear n.val s) rfl ?_
    simp [doForeignCauseClear, hp, hr]
  case masked =>
    intro s src reading hp he hmeas hm
    obtain ⟨l, hwet, hq⟩ := kettleTrip_masked hp he hmeas reading hm
    refine .next (t := doKettleTrip src.val reading s) rfl ⟨?_, hq.trip, keepCore_ten hq.core, keepCore_capdn hq.core⟩
    rw [hq.source, hwet]
  case held =>
    intro s src reading d hp he hmeas
    refine .next (t := doKettleTrip src.val reading s) rfl ?_
    rw [doKettleTrip_held hp he hmeas, leakOf_onLeak_same]
    exact ⟨rfl, rfl⟩

end Sys2Proof.Machine
end

section
/-! Laws of a completion at an acting Lead without a partner and of the release of trips, and the statement about releases
(R172, R179, R180). -/

namespace Sys2Proof.Machine

/-! ## The completion of an entry (R99) -/

/-- The entry of a journal sequence can be completed: it is PENDING, at an acting Lead with no partner. -/
structure Completable (j : Nat) (e : JEntry) (s : State) : Prop where
  found   : findEntry j s = some e
  pending : e.state = .pending
  noDone  : e.doneWait = false
  lead    : s.pair.lead = true
  alone   : attached s = false
  notSync : s.pair.state ≠ .syncing

section
variable {j : Nat} {e : JEntry} {s t : State} (h : Completable j e s)
include h

theorem Completable.congr (hj : t.jr = s.jr) (hlead : t.pair.lead = s.pair.lead) (hstate : t.pair.state = s.pair.state) :
    Completable j e t where
  found := (findEntry_congr (congrArg Journal.entries hj) j).trans h.found
  pending := h.pending
  noDone := h.noDone
  lead := hlead.trans h.lead
  alone := (congrArg (· == PairState.attached) hstate).trans h.alone
  notSync := by rw [hstate]; exact h.notSync

theorem Completable.doneWith (r : Word) (d : Bytes) : DoneWith e r (finish j r d s) := by
  obtain rfl := findEntry_jseq h.found
  exact ⟨_, findEntry_finish h.found (by simp [h.pending]) h.noDone h.lead h.alone h.notSync, rfl, rfl, rfl, rfl⟩

end

/-! ## The trays released (R179, R180) -/

/-- The trays of a mask whose causes are all releasable. -/
def releasable (m : Nat) (s : State) : List Nat := (bitsOf 16 m).filter fun t => tripped s t && trayReleasable s t

theorem mem_releasable {m n : Nat} {s : State} : n ∈ releasable m s ↔
    (n < 16 ∧ m.testBit n = true) ∧ tripped s n = true ∧ trayReleasable s n = true := by
  rw [releasable, List.mem_filter, mem_bitsOf, Bool.and_eq_true]

theorem releaseTrays_trip (m : Nat) (s : State) :
    (releaseTrays m s).ket.trip = s.ket.trip &&& ~~~BitVec.ofNat 16 (maskOf (releasable m s)) := by
  unfold releaseTrays
  extract_lets go s1
  show _ = s.ket.trip &&& ~~~BitVec.ofNat 16 (maskOf go)
  split
  next hgo =>
    rw [List.isEmpty_iff.mp hgo]
    exact (BitVec.and_allOnes (x := s.ket.trip)).symm
  next =>
    rw [matrix_part (matrix_imageSoon _) Kettle.trip fun _ => rfl, event_ket]
    rfl

theorem releaseTrays_release (m : Nat) (s : State) : (releaseTrays m s).ket.release = s.ket.release := by
  unfold releaseTrays
  extract_lets go s1
  split
  · rfl
  · rw [matrix_part (matrix_imageSoon _) Kettle.release fun _ => rfl, event_ket]
    rfl

/-- Of the trays, those of the mask are released whose causes are all releasable. -/
theorem tripped_releaseTrays {n : Nat} (hn : n < 16) (m : Nat) (s : State) :
    tripped (releaseTrays m s) n = (tripped s n && !(m.testBit n && trayReleasable s n)) := by
  rw [tripped, releaseTrays_trip, bit16_andNot_mask hn, testBit_maskOf, ← tripped]
  cases ht : tripped s n with
  | false => rfl
  | true => simp [mem_releasable, hn, ht]

/-! ## TRIP_RELEASE's effect (R180) -/

/-- The latches of the releasable inputs cleared. -/
def inputsReleased (s : State) : State :=
  (List.range 33).foldl (fun s n =>
    if (leakOf s n).latch && srcReleasable s n then onLeak n (fun l => { l with latch := false }) s else s) s

/-- The causes of a source are releasable, by what it reads at a time (R179). -/
def leakReleasable (r : Option Bytes) (n now : Nat) (l : Leak) : Bool :=
  l.masked || (readsClear r n l && match l.clear with | some t => decide (t + 60000000 ≤ now) | none => false)

theorem srcReleasable_eq (s : State) (n : Nat) : srcReleasable s n = leakReleasable s.ket.route n s.now (leakOf s n) := rfl

/-- What the release of the inputs' latches leaves: the trays' latches and causes, and what makes a cause releasable. -/
structure LatchesOnly (s t : State) : Prop where
  trip    : t.ket.trip = s.ket.trip
  causes  : t.ket.causes = s.ket.causes
  high    : t.ket.foreignHi = s.ket.foreignHi
  release : t.ket.release = s.ket.release
  sources : ∀ n, srcReleasable t n = srcReleasable s n

theorem inputsReleased_latchesOnly (s : State) : LatchesOnly s (inputsReleased s) := by
  refine List.foldlRecOn (motive := fun u : State => LatchesOnly s u) _ _ ⟨rfl, rfl, rfl, rfl, fun _ => rfl⟩
    fun u hu n _ => ?_
  split
  · obtain ⟨htrip, hcauses, hhigh, hrelease, hsources⟩ := hu
    refine ⟨htrip, hcauses, hhigh, hrelease, fun k => ?_⟩
    rw [← hsources, srcReleasable_eq, srcReleasable_eq]
    exact leakOf_onLeak_view (f := fun l => { l with latch := false }) (view := leakReleasable u.ket.route k u.now)
      (fun _ => rfl) n k u
  · exact hu

theorem LatchesOnly.trayReleasable {s t : State} (h : LatchesOnly s t) (n : Nat) :
    trayReleasable t n = trayReleasable s n := by
  have hcause : causeReleasable t n = causeReleasable s n := by
    funext c
    rw [causeReleasable, causeReleasable, h.high, h.sources]
  rw [Machine.trayReleasable, Machine.trayReleasable, h.causes, hcause]

/-- The trays of a mask whose causes are releasable but for FOREIGN. -/
def ownTrays (m : Nat) (s : State) : List Nat :=
  (bitsOf 16 m).filter fun t => (bitsOf 33 (s.ket.causes.get 0 t)).all (causeReleasable s t)

/-- The second in which a TRIP_RELEASE still releases. -/
def releaseWindow (e : JEntry) (s : State) : Release where
  jseq := e.jseq
  trays := BitVec.ofNat 16 (fld e.body 0 2)
  own := BitVec.ofNat 16 (maskOf (ownTrays (fld e.body 0 2) s))
  stop := s.now + 1000000

theorem fxTripRelease_eq (e : JEntry) (s : State) : fxTripRelease e s =
    let u := releaseTrays (fld e.body 0 2) (inputsReleased s)
    u.onKet fun k => { k with release := k.release ++ [releaseWindow e u] } := rfl

theorem fxTripRelease_tripped {n : Nat} (hn : n < 16) (e : JEntry) (s : State) : tripped (fxTripRelease e s) n =
    (tripped s n && !((fld e.body 0 2).testBit n && trayReleasable s n)) := by
  have hlatches := inputsReleased_latchesOnly s
  have hrelease := tripped_releaseTrays hn (fld e.body 0 2) (inputsReleased s)
  have hold : tripped (inputsReleased s) n = tripped s n := congrArg (bit16 · n) hlatches.trip
  rw [hlatches.trayReleasable, hold] at hrelease
  exact hrelease

theorem fxTripRelease_release (e : JEntry) (s : State) :
    (fxTripRelease e s).ket.release.length = s.ket.release.length + 1 := by
  rw [fxTripRelease_eq, State.onKet_ket, List.length_append, releaseTrays_release, (inputsReleased_latchesOnly s).release]
  rfl

/-! ## The end of the second (R180) -/

theorem tripReleaseWindowEnd_completes {s : State} {r : Release} {rs : List Release} {e : JEntry}
    (hr : s.ket.release = r :: rs) (h : Completable r.jseq e s) (hall : r.trays &&& s.ket.trip = 0) :
    Runs .tripReleaseWindowEnd s fun t => r.stop ≤ t.now ∧ t.ket.release = rs ∧ DoneWith e 0 t := by
  set u := (releaseTrays r.own.toNat (reach r.stop s)).onKet fun k => { k with release := rs } with hu
  have hfoot := releaseTrays_foot r.own.toNat (reach r.stop s)
  have hleft : r.trays &&& u.ket.trip = 0 := by
    rw [hu, State.onKet_ket, releaseTrays_trip, reach_ket, ← BitVec.and_assoc, hall]
    exact BitVec.zero_and
  have heq : doTripReleaseWindowEnd s = finish0 r.jseq 0 u := by
    simp only [doTripReleaseWindowEnd, hr, ← hu, hleft, beq_self_eq_true, if_true]
  have hpair : u.pair = s.pair := (hfoot.same .pair rfl).trans (reach_pair ..)
  have hu' : Completable r.jseq e u :=
    h.congr ((hfoot.same .jr rfl).trans (reach_jr ..)) (congrArg Pair.lead hpair) (congrArg Pair.state hpair)
  refine .next (t := doTripReleaseWindowEnd s) rfl ?_
  rw [heq, finish0_now, finish0_ket]
  refine ⟨?_, rfl, hu'.doneWith 0 []⟩
  rw [hu, State.onKet_now, hfoot.same .now rfl, reach_now]
  exact Nat.le_max_right ..

/-! ## An input that reads dry (R172) -/

theorem leakInputClear_completes {s : State} {n : Fin 33} (hp : s.keep.por = false)
    (he : routeEnable s.ket.route n.val = true) (hmeas : (leakOf s n.val).meas = none)
    (hc : (leakOf s n.val).chat = false) (ho : (leakOf s n.val).open_ = false) :
    Runs (.leakInputClear n) s fun t =>
      (leakOf t n.val).wet = false ∧ (leakOf t n.val).short = false ∧
      (leakOf t n.val).latch = (leakOf s n.val).latch ∧ t.ket.trip = s.ket.trip ∧ (leakOf t n.val).clear.isSome = true := by
  have hdry : leakActive s.ket.route n.val ((leakOf s n.val).sense n.val s.now false false) = false := by
    simp [leakActive, hc, ho]
  have hquiet := senseChange_quiet (s := s) (n := n.val) (f := Leak.sense n.val s.now false false)
    (.inl fun hact => by simp [hdry] at hact)
  obtain ⟨hsource, htrip, -⟩ := hquiet.then (readSource_ket n.val false false s) (readSource_core n.val false false s)
  have hket : (answerAsks (doLeakInputClear n.val s)).ket = (readSource n.val false false s).ket := by
    rw [(answerAsks_foot _).same .ket rfl, doLeakInputClear_eq hp he hmeas]
  refine .next (t := answerAsks (doLeakInputClear n.val s)) rfl ?_
  rw [leakOf, hket, ← leakOf, hsource]
  exact ⟨rfl, rfl, Leak.sense_latch n.val s.now false false _, htrip, Leak.timed_clear he hdry _⟩

/-! ## The statement -/

/-- Settles O38: the effect of TRIP_RELEASE by `fxTripRelease_tripped`, a dry input and the end of the second by their lemmas. -/
theorem releaseCompletes : Obligations.ReleaseCompletes := by
  unfold Obligations.ReleaseCompletes
  refine ⟨fun s src => leakInputClear_completes, ?released, ?held, fun s r rs e hr hf hst hw hl ha hy =>
    tripReleaseWindowEnd_completes hr ⟨hf, hst, hw, hl, ha, hy⟩⟩
  case released =>
    intro e s n h hop hn hm ht hrel
    refine commandEffect_runs h hop rfl (t := fxTripRelease e (effectBegun e s)) rfl
      ⟨?_, fxTripRelease_release e (effectBegun e s), ?_⟩
    · rw [fxTripRelease_tripped hn, hm, show trayReleasable (effectBegun e s) n = true from hrel, Bool.and_true, Bool.not_true,
        Bool.and_false]
    · exact keepCore_ten ((fxTripRelease_foot e (effectBegun e s)).same .core rfl)
  case held =>
    intro e s n h hop hn ht hrel
    refine commandEffect_runs h hop rfl (t := fxTripRelease e (effectBegun e s)) rfl ?_
    rw [fxTripRelease_tripped hn, show trayReleasable (effectBegun e s) n = false from hrel, Bool.and_false, Bool.not_false,
      Bool.and_true]
    exact ht

end Sys2Proof.Machine
end

section
/-! Rope location, the conditions of leak inputs, and the statement about them (R176, R177). -/

namespace Sys2Proof.Machine

/-! ## Rope location (R176) -/

@[simp] theorem onLeak_trip (n : Nat) (f : Leak → Leak) (s : State) : (onLeak n f s).ket.trip = s.ket.trip := rfl

theorem ropeLocationMeasure_completes {s : State} {n : Fin 16} {d : Nat} (hp : s.keep.por = false)
    (he : routeEnable s.ket.route n.val = true) (hw : (leakOf s n.val).wet = true)
    (hat : (leakOf s n.val).measAt = some d) : Runs (.ropeLocationMeasure n) s fun t =>
      d ≤ t.now ∧ (leakOf t n.val).meas = some (t.now + 1000) ∧ (leakOf t n.val).measAt = some (t.now + 1000000) := by
  have heq : doRopeLocationMeasure n.val s = onLeak n.val (fun l =>
      { l with meas := some ((reach d s).now + 1000), measAt := some ((reach d s).now + 1000000) }) (reach d s) := by
    simp [doRopeLocationMeasure, hat, hw, sensed_of_enabled hp he]
  refine .next (t := doRopeLocationMeasure n.val s) rfl ?_
  rw [heq, leakOf_onLeak_same]
  exact ⟨by simp, rfl, rfl⟩

/-- Three ratios in order whose location is a whole number of units give that number. -/
theorem ropeLoc_exact {va vb vs len : Nat} (hb : vb < va) (hs : vs ≤ va) (hmod : (va - vs) * len % (va - vb) = 0)
    (hlt : (va - vs) * len / (va - vb) < 65536) : ropeLoc va vb vs len = (va - vs) * len / (va - vb) := by
  simp only [ropeLoc, hb, hs, hmod, decide_true, Bool.and_self, if_true, beq_self_eq_true]
  exact Nat.mod_eq_of_lt hlt

/-- A location is reported where it differs by 0.5 m or more from the last one reported. -/
def Leak.tells (loc : Nat) (l : Leak) : Bool :=
  match l.locRep with | some p => decide (p + 5 ≤ loc) || decide (loc + 5 ≤ p) | none => true

/-- A rope with its location measured. -/
def Leak.located (loc : Nat) (l : Leak) : Leak :=
  { l with meas := none, loc := loc, locRep := if l.tells loc then some loc else l.locRep }

/-- The end of a measurement during which the rope's reading stayed: the location is noted, and may be reported. -/
theorem doRopeMeasureDone_after {s : State} {n d : Nat} (hmeas : (leakOf s n).meas = some d)
    (hhold : (leakOf s n).hold = none) (va vb vs : Nat) : Foot [.out, .keep, .host, .log, .pmc, .spn]
      (onLeak n (Leak.located (ropeLoc va vb vs (ropeLen s.ket.route n))) (reach d s)) (doRopeMeasureDone n va vb vs s) := by
  have hleak : leakOf (reach d s) n = leakOf s n := by rw [leakOf, reach_ket, leakOf]
  unfold doRopeMeasureDone
  split
  next hnone => simp [hmeas] at hnone
  next t hsome =>
    obtain rfl : d = t := Option.some.inj (hmeas.symm.trans hsome)
    extract_lets s1 loc told s2 s3
    have h2 : onLeak n (Leak.located (ropeLoc va vb vs (ropeLen s.ket.route n))) (reach d s) = s2 := by
      rw [← reach_ket d s]
      rfl
    have h3 : Foot [.out, .keep, .host, .log, .pmc, .spn] s2 s3 := .ite (event_foot ..) .refl
    have hhold3 : (leakOf s3 n).hold = none := by
      rw [leakOf, h3.same .ket rfl, ← leakOf, ← h2, leakOf_onLeak_same, hleak]
      exact hhold
    rw [h2, hhold3]
    exact h3

theorem ropeMeasureDone_completes {s : State} {n : Fin 16} {va vb vs d : Nat} (hmeas : (leakOf s n.val).meas = some d)
    (hhold : (leakOf s n.val).hold = none) (hb : vb < va) (hs : vs ≤ va)
    (hmod : (va - vs) * ropeLen s.ket.route n.val % (va - vb) = 0)
    (hlt : (va - vs) * ropeLen s.ket.route n.val / (va - vb) < 65536) : Runs (.ropeMeasureDone n va vb vs) s fun t =>
      d ≤ t.now ∧ (leakOf t n.val).meas = none ∧
        (leakOf t n.val).loc = (va - vs) * ropeLen s.ket.route n.val / (va - vb) ∧ t.ket.trip = s.ket.trip := by
  have hdone := doRopeMeasureDone_after hmeas hhold va vb vs
  have hafter := hdone.mono (fs := [.out, .keep, .mbx, .host, .log, .pmc, .spn, .afe, .stw]) rfl |>.then (answerAsks_foot _) rfl
  refine .next (t := answerAsks (doRopeMeasureDone n.val va vb vs s)) rfl ?_
  rw [leakOf, hafter.same .ket rfl, hafter.same .now rfl, ← leakOf, leakOf_onLeak_same, ropeLoc_exact hb hs hmod hlt]
  exact ⟨by simp, rfl, rfl, by simp⟩

/-! ## Stuck, chattering and open inputs (R177) -/

section
variable {s : State} {n : Fin 33} {d : Nat} (hp : s.keep.por = false)
include hp

theorem leakStuck_completes (ht : s.keep.tenRead = true) (hat : (leakOf s n.val).since = some d)
    (hs : (leakOf s n.val).stuck = false) : Runs (.leakStuck n) s fun t =>
      d + 1800000000 ≤ t.now ∧ (leakOf t n.val).stuck = true ∧ t.cat.stuck.get false n.val = true ∧
        t.ket.trip = s.ket.trip := by
  set u := onLeak n.val (fun l => { l with stuck := true }) (reach (d + 1800000000) s) with hu
  have heq : doLeakStuck n.val s = flagEvent 0x0702 3 n.val 1 u := by simp [doLeakStuck, hat, hs, hp, hu]
  have hkeep : u.keep = s.keep := reach_keep ..
  have hleak : (leakOf u n.val).stuck = true := by rw [hu, leakOf_onLeak_same]
  refine .next (t := doLeakStuck n.val s) rfl ?_
  rw [heq, flagEvent_now, leakOf_flagEvent, flagEvent_ket, flagEvent_cat _ _ _ _ (by rwa [hkeep]) (by rwa [hkeep]),
    saveFlags_cat (by rwa [hkeep]) (by rwa [hkeep]), Tab.get_set_same]
  exact ⟨by simp [hu], hleak, hleak, by simp [hu]⟩

/-- A flag that makes a source trip, with its copy in the catch store. -/
theorem flag_trips {n : Nat} {l : Leak} {u : State} (h : SourceTrips n l s u) (code : Half) (sev v : Nat) :
    SourceTrips n l s (flagEvent code sev n v u) ∧ (s.keep.tenRead = true →
      (flagEvent code sev n v u).cat.chat.get false n = l.chat) := by
  refine ⟨h.then (flagEvent_ket ..) (flagEvent_core ..), fun ht => ?_⟩
  have hpor : u.keep.por = false := by rw [h.por, hp]
  have hread : u.keep.tenRead = true := by rw [h.read, ht]
  rw [flagEvent_cat _ _ _ _ hpor hread, saveFlags_cat hpor hread, Tab.get_set_same, h.source]

theorem leakChatter_completes (ht : s.keep.tenRead = true) (he : routeEnable s.ket.route n.val = true)
    (hc : (leakOf s n.val).chat = false) (hmany : 8 < transitions s n.val) (hm : (leakOf s n.val).masked = false)
    (hold : leakActive s.ket.route n.val (leakOf s n.val) = false) : Runs (.leakChatter n) s fun t =>
      (leakOf t n.val).chat = true ∧ (leakOf t n.val).latch = true ∧ t.cat.chat.get false n.val = true ∧
        (∀ k < 16, (routeMask s.ket.route n.val).testBit k = true → tripped t k = true) := by
  have heq : doLeakChatter n.val s =
      flagEvent 0x0703 2 n.val 1 (senseChange n.val (fun l => { l with chat := true }) s) := by
    simp [doLeakChatter, sensed_of_enabled hp he, hc, hmany]
  have htrips := senseChange_trips (f := fun l => { l with chat := true }) n.isLt (by simp [leakActive, he]) hold hm
  obtain ⟨ht', hcat⟩ := flag_trips hp htrips 0x0703 2 1
  refine .next (t := doLeakChatter n.val s) rfl ?_
  rw [heq, ht'.source]
  exact ⟨rfl, rfl, hcat ht, fun k hk hbit => (ht'.routed k hk hbit).1⟩

/-- LEAK_OPEN at an input. -/
theorem doLeakOpen_eq {n : Nat} (hn : n ≠ 32) (he : routeEnable s.ket.route n = true) (ho : (leakOf s n).open_ = false) :
    doLeakOpen n s = flagEvent 0x0704 (if routeOpenAct s.ket.route n then 3 else 2) n 1
      (senseChange n (fun l => { l with open_ := true }) s) := by
  simp [doLeakOpen, sensed_of_enabled hp he, hn, ho]

theorem leakOpen_reports (ht : s.keep.tenRead = true) (hn : n.val ≠ 32)
    (he : routeEnable s.ket.route n.val = true) (ho : (leakOf s n.val).open_ = false)
    (hact : routeOpenAct s.ket.route n.val = false) : Runs (.leakOpen n) s fun t =>
      (leakOf t n.val).open_ = true ∧ t.cat.open_.get false n.val = true ∧ t.ket.trip = s.ket.trip := by
  have hquiet := senseChange_quiet (s := s) (n := n.val) (f := fun l => { l with open_ := true })
    (.inl (by simp [leakActive, hact]))
  have hpor := (keepCore_por hquiet.core).trans hp
  have hread := (keepCore_tenRead hquiet.core).trans ht
  refine .next (t := doLeakOpen n.val s) rfl ?_
  rw [doLeakOpen_eq hp hn he ho, leakOf_flagEvent, flagEvent_ket, flagEvent_cat _ _ _ _ hpor hread,
    saveFlags_cat hpor hread, Tab.get_set_same, hquiet.source, hquiet.trip]
  exact ⟨rfl, rfl, rfl⟩

theorem leakOpen_trips (hn : n.val ≠ 32) (he : routeEnable s.ket.route n.val = true)
    (ho : (leakOf s n.val).open_ = false) (hact : routeOpenAct s.ket.route n.val = true)
    (hm : (leakOf s n.val).masked = false) (hold : leakActive s.ket.route n.val (leakOf s n.val) = false) :
    Runs (.leakOpen n) s fun t => (leakOf t n.val).open_ = true ∧
      (∀ k < 16, (routeMask s.ket.route n.val).testBit k = true → tripped t k = true) := by
  have htrips := senseChange_trips (f := fun l => { l with open_ := true }) n.isLt (by simp [leakActive, he, hact]) hold hm
  obtain ⟨ht', -⟩ := flag_trips hp htrips 0x0704 (if routeOpenAct s.ket.route n.val then 3 else 2) 1
  refine .next (t := doLeakOpen n.val s) rfl ?_
  rw [doLeakOpen_eq hp hn he ho, ht'.source]
  exact ⟨rfl, fun k hk hbit => (ht'.routed k hk hbit).1⟩

/-! ## The ends of the conditions (Table 07-5) -/

theorem stuckClear_completes (hat : (leakOf s n.val).clear = some d)
    (hs : (leakOf s n.val).stuck = true) : Runs (.leakConditionClear n .stuck) s fun t =>
      d + 60000000 ≤ t.now ∧ (leakOf t n.val).stuck = false ∧ t.ket.trip = s.ket.trip := by
  have heq : doLeakConditionClear n.val .stuck s = flagEvent 0x0702 3 n.val 0
      (onLeak n.val (fun l => { l with stuck := false }) (reach (d + 60000000) s)) := by
    simp [doLeakConditionClear, hp, hat, hs]
  refine .next (t := doLeakConditionClear n.val .stuck s) rfl ?_
  rw [heq, flagEvent_now, leakOf_flagEvent, flagEvent_ket, leakOf_onLeak_same]
  exact ⟨by simp, rfl, by simp⟩

theorem chatterClear_completes (hc : (leakOf s n.val).chat = true) :
    Runs (.leakConditionClear n .chatter) s fun t => (leakOf s n.val).trans.headD 0 + 60000000 ≤ t.now ∧
      (leakOf t n.val).chat = false ∧ t.ket.trip = s.ket.trip := by
  set u := reach ((leakOf s n.val).trans.headD 0 + 60000000) s with hu
  have heq : doLeakConditionClear n.val .chatter s =
      flagEvent 0x0703 2 n.val 0 (senseChange n.val (fun l => { l with chat := false }) u) := by
    simp [doLeakConditionClear, hp, hc, hu]
  have hquiet := senseChange_quiet (s := u) (n := n.val) (f := fun l => { l with chat := false })
    (.inl fun hact => ?_)
  · refine .next (t := doLeakConditionClear n.val .chatter s) rfl ?_
    rw [heq, flagEvent_now, leakOf_flagEvent, flagEvent_ket, hquiet.source, hquiet.trip,
      (senseChange_foot ..).same .now rfl, hu, reach_now, reach_ket]
    exact ⟨Nat.le_max_right .., rfl, rfl⟩
  · simp only [leakActive, Bool.and_eq_true, Bool.or_eq_true] at hact ⊢
    tauto

theorem openClear_completes (ho : (leakOf s n.val).open_ = true) :
    Runs (.leakConditionClear n .open_) s fun t => (leakOf t n.val).open_ = false ∧ t.ket.trip = s.ket.trip := by
  have heq : doLeakConditionClear n.val .open_ s = flagEvent 0x0704 (if routeOpenAct s.ket.route n.val then 3 else 2)
      n.val 0 (senseChange n.val (fun l => { l with open_ := false }) s) := by
    simp [doLeakConditionClear, hp, ho]
  have hquiet := senseChange_quiet (s := s) (n := n.val) (f := fun l => { l with open_ := false })
    (.inl fun hact => ?_)
  · refine .next (t := doLeakConditionClear n.val .open_ s) rfl ?_
    rw [heq, leakOf_flagEvent, flagEvent_ket, hquiet.source, hquiet.trip]
    exact ⟨rfl, rfl⟩
  · simp only [leakActive, Bool.and_eq_true, Bool.or_eq_true] at hact ⊢
    tauto

end

/-! ## The statement -/

/-- Settles O39: each row by its lemma. -/
theorem leakConditionsComplete : Obligations.LeakConditionsComplete := by
  unfold Obligations.LeakConditionsComplete
  exact ⟨fun _ _ _ => ropeLocationMeasure_completes,
    fun _ _ _ _ _ _ hmeas hhold hb hs _ => ropeMeasureDone_completes hmeas hhold hb hs,
    fun _ _ _ => leakStuck_completes, fun _ _ => leakChatter_completes, fun _ _ => leakOpen_reports,
    fun _ _ => leakOpen_trips, fun _ _ _ => stuckClear_completes, fun _ _ => chatterClear_completes,
    fun _ _ => openClear_completes⟩

end Sys2Proof.Machine
end

section
/-! Trip proofs and the statement about them (R181). -/

namespace Sys2Proof.Machine

/-! ## The end of a proof -/

/-- The state in which a proof's command completes: its event, and what the pair notes of it. -/
def proofNoted (p : Proof) (s : State) : State :=
  let s := event 0x050C (if p.fail.isEmpty then 1 else 3) [maskOf p.fail] 0 0 s
  testResult 1 p.fail.isEmpty
    (s.onPair fun q => { q with proofTime := keepTime s, proofRes := if p.fail.isEmpty then 0 else 0x0702 })

/-- The folio that the result of a failed proof names, and its mask of the sources that failed. -/
def proofData (p : Proof) (s : State) : Bytes :=
  leBytes 8 (event 0x050C (if p.fail.isEmpty then 1 else 3) [maskOf p.fail] 0 0 s).log.fseq ++ leBytes 5 (maskOf p.fail)

theorem endProof_eq (p : Proof) (s : State) : endProof p s =
    if p.fail.isEmpty then finish0 p.jseq 0 (proofNoted p s)
    else finish p.jseq 0x0702 (proofData p s) (proofNoted p s) := rfl

/-- SELF_TEST_OK is clear after a self-test that failed (R135). -/
theorem testResult_failed (i : Nat) (s : State) : (testResult i false s).pair.selfTest = false := by
  simp only [testResult, State.onPair_pair, Bool.false_eq_true, if_false]
  cases hmem : s.pair.failedT.contains i with
  | true => exact List.isEmpty_eq_false_iff.mpr (List.ne_nil_of_mem (List.contains_iff_mem.mp hmem))
  | false => rfl

/-- What the end of a proof notes beside the journal. -/
structure ProofNoted (p : Proof) (s t : State) : Prop where
  ket      : t.ket = s.ket
  jr       : t.jr = s.jr
  lead     : t.pair.lead = s.pair.lead
  state    : t.pair.state = s.pair.state
  result   : t.pair.proofRes = if p.fail.isEmpty then 0 else 0x0702
  selfTest : p.fail.isEmpty = false → t.pair.selfTest = false

theorem proofNoted_notes (p : Proof) (s : State) : ProofNoted p s (proofNoted p s) := by
  unfold proofNoted
  extract_lets u
  have hket : u.ket = s.ket := event_ket ..
  have hjr : u.jr = s.jr := event_jr ..
  have hpair : u.pair = s.pair := event_pair ..
  clear_value u
  constructor
  case ket => exact hket
  case jr => exact hjr
  case lead => exact (congrArg Pair.lead hpair :)
  case state => exact (congrArg Pair.state hpair :)
  case result => rfl
  case selfTest =>
    intro hfail
    rw [hfail, testResult_failed]

section
variable {p : Proof} {e : JEntry} {s : State} (h : Completable p.jseq e s)
include h

theorem completable_proofNoted : Completable p.jseq e (proofNoted p s) := by
  have hnoted := proofNoted_notes p s
  exact h.congr hnoted.jr hnoted.lead hnoted.state

/-- A proof that found no fault completes with OK. -/
theorem endProof_passed (hfail : p.fail = []) :
    (endProof p s).ket = s.ket ∧ DoneWith e 0 (endProof p s) ∧ (endProof p s).pair.proofRes = 0 := by
  have hnoted := proofNoted_notes p s
  have heq : endProof p s = finish0 p.jseq 0 (proofNoted p s) := by rw [endProof_eq, hfail]; rfl
  rw [heq, finish0_ket, hnoted.ket]
  refine ⟨rfl, (completable_proofNoted h).doneWith 0 [], ?_⟩
  rw [pairCore_part (pairCore_finish0 ..) Pair.proofRes fun _ => rfl, hnoted.result, hfail]
  rfl

/-- A proof that found a fault completes with PROOF_FAILED, and SELF_TEST_OK is clear. -/
theorem endProof_failed (hfail : p.fail ≠ []) : (endProof p s).ket = s.ket ∧ DoneWith e 0x0702 (endProof p s) ∧
    (endProof p s).pair.proofRes = 0x0702 ∧ (endProof p s).pair.selfTest = false := by
  have hnoted := proofNoted_notes p s
  have hempty : p.fail.isEmpty = false := List.isEmpty_eq_false_iff.mpr hfail
  have heq : endProof p s = finish p.jseq 0x0702 (proofData p s) (proofNoted p s) := by
    rw [endProof_eq, hempty]
    rfl
  have hpair := pairCore_finish p.jseq 0x0702 (proofData p s) (proofNoted p s)
  rw [heq, finish_ket, hnoted.ket]
  refine ⟨rfl, (completable_proofNoted h).doneWith 0x0702 _, ?_, ?_⟩
  · rw [pairCore_part hpair Pair.proofRes fun _ => rfl, hnoted.result, hempty]
    rfl
  · rw [pairCore_part hpair Pair.selfTest fun _ => rfl, hnoted.selfTest hempty]

end

/-! ## The test of one source -/

/-- A proof after the test of the next of its sources. -/
def Proof.tested (passed : Bool) (now : Nat) (p : Proof) : Proof :=
  { p with left := p.left.tail, fail := if passed then p.fail else p.fail ++ p.left.take 1, next := now + 1000 }

section
variable {s : State} {p : Proof} {ps : List Proof} (hp : s.ket.proof = p :: ps)
include hp

theorem doProofSourceStep_eq (passed : Bool) : doProofSourceStep passed s =
    let u := reach p.next s
    if p.left.tail.isEmpty then endProof (p.tested passed u.now) (u.onKet fun k => { k with proof := ps })
    else u.onKet fun k => { k with proof := p.tested passed u.now :: ps } := by
  rw [doProofSourceStep, hp]
  rfl

theorem proofStep_more (hmore : 1 < p.left.length) (passed : Bool) : Runs (.proofSourceStep passed) s fun t =>
    p.next ≤ t.now ∧ t.ket.proof = p.tested passed t.now :: ps ∧ t.ket.trip = s.ket.trip := by
  have hleft : p.left.tail.isEmpty = false := by
    rw [List.isEmpty_eq_false_iff, ← List.length_pos_iff, List.length_tail]
    omega
  refine .next (t := doProofSourceStep passed s) rfl ?_
  rw [doProofSourceStep_eq hp, hleft]
  simp

variable {n : Nat} (hn : p.left = [n]) {e : JEntry} (h : Completable p.jseq e s)
include hn h

/-- The last source's test ends the proof. -/
theorem doProofSourceStep_last (passed : Bool) : ∃ u, u.ket.proof = ps ∧ Completable p.jseq e u ∧
    doProofSourceStep passed s = endProof (p.tested passed (reach p.next s).now) u := by
  refine ⟨(reach p.next s).onKet fun k => { k with proof := ps }, rfl,
    h.congr (reach_jr ..) (congrArg Pair.lead (reach_pair ..)) (congrArg Pair.state (reach_pair ..)), ?_⟩
  rw [doProofSourceStep_eq hp, hn]
  rfl

theorem proofStep_passes (hfail : p.fail = []) : Runs (.proofSourceStep true) s fun t =>
    t.ket.proof = ps ∧ DoneWith e 0 t ∧ t.pair.proofRes = 0 := by
  obtain ⟨u, hps, hu, heq⟩ := doProofSourceStep_last hp hn h true
  obtain ⟨hket, hdone, hres⟩ := endProof_passed (p := p.tested true (reach p.next s).now) hu hfail
  refine .next (t := doProofSourceStep true s) rfl ?_
  rw [heq, hket]
  exact ⟨hps, hdone, hres⟩

theorem proofStep_fails : Runs (.proofSourceStep false) s fun t =>
    t.ket.proof = ps ∧ DoneWith e 0x0702 t ∧ t.pair.proofRes = 0x0702 ∧ t.pair.selfTest = false := by
  obtain ⟨u, hps, hu, heq⟩ := doProofSourceStep_last hp hn h false
  obtain ⟨hket, hdone, hres⟩ := endProof_failed (p := p.tested false (reach p.next s).now) hu
    (by simp [Proof.tested, hn])
  refine .next (t := doProofSourceStep false s) rfl ?_
  rw [heq, hket]
  exact ⟨hps, hdone, hres⟩

end

/-! ## The statement -/

/-- Settles O40: TRIP_PROOF's effect starts the proof, and each test is one of the step's lemmas. -/
theorem proofStepsComplete : Obligations.ProofStepsComplete := by
  unfold Obligations.ProofStepsComplete
  refine ⟨?start, fun s p ps passed hp hmore => proofStep_more hp hmore passed,
    fun s p ps n e hp hn hfail hf hst hw hl ha hy => proofStep_passes hp hn ⟨hf, hst, hw, hl, ha, hy⟩ hfail,
    fun s p ps n e hp hn hf hst hw hl ha hy => proofStep_fails hp hn ⟨hf, hst, hw, hl, ha, hy⟩⟩
  case start =>
    intro e s h hop hsome
    refine commandEffect_runs h hop rfl (t := fxTripProof e (effectBegun e s)) rfl ?_
    have heq : fxTripProof e (effectBegun e s) = (effectBegun e s).onKet fun k => { k with proof := k.proof ++
        [{ jseq := e.jseq, left := proofSources s.ket.route e.body, next := s.now + 1000 }] } :=
      if_neg (by simp [effectBegun, hsome])
    rw [heq]
    exact ⟨rfl, rfl⟩

end Sys2Proof.Machine
end

section
/-! Laws of a channel of the analog front end: what it reads as after a change, a word that it delivers, and the reports of its
faults (R188, R192, R193, R195). -/

namespace Sys2Proof.Machine

/-! ## A channel read after a change -/

@[simp] theorem chanOf_onChan_same (n : Nat) (f : Chan → Chan) (s : State) : chanOf (onChan n f s) n = f (chanOf s n) := by
  simp [chanOf, onChan]

theorem chanOf_onChan_other {m n : Nat} (h : m ≠ n) (f : Chan → Chan) (s : State) : chanOf (onChan n f s) m = chanOf s m :=
  Tab.get_mod_other ({} : Chan) s.afe.ch f h

@[simp] theorem onChan_now (n : Nat) (f : Chan → Chan) (s : State) : (onChan n f s).now = s.now := rfl
@[simp] theorem onChan_cal (n : Nat) (f : Chan → Chan) (s : State) : (onChan n f s).afe.cal = s.afe.cal := rfl

/-- Channels are a part of the front end. -/
theorem chanOf_congr {s t : State} (h : t.afe = s.afe) (n : Nat) : chanOf t n = chanOf s n := by rw [chanOf, h, chanOf]

@[simp] theorem chanOf_reach (d : Nat) (s : State) (n : Nat) : chanOf (reach d s) n = chanOf s n :=
  chanOf_congr (reach_afe ..) n
@[simp] theorem chanOf_count (ev : Nat) (s : State) (n : Nat) : chanOf (count ev s) n = chanOf s n :=
  chanOf_congr (count_afe ..) n
@[simp] theorem chanOf_event (code : Half) (sev : Nat) (data : List Nat) (cw : DWord) (ref : Nat) (s : State) (n : Nat) :
    chanOf (event code sev data cw ref s) n = chanOf s n := chanOf_congr (event_afe ..) n

/-- What the correction of a reading looks at (R195). -/
theorem corrected_congr {s t : State} (hotp : t.otp = s.otp) (hcal : t.afe.cal = s.afe.cal) (n g : Nat) (raw : Int) :
    corrected t n g raw = corrected s n g raw := by
  simp only [corrected, calOf, hotp, hcal]

/-! ## Words delivered (Table 08-4) -/

section
variable (now : Nat) (w : Word) (c : Chan)

/-- A delivered word stands whether or not it is valid. -/
@[simp] theorem Chan.deliver_word : (c.deliver now w).word = w := by unfold Chan.deliver; dsimp only; split <;> rfl
@[simp] theorem Chan.deliver_wordAt : (c.deliver now w).wordAt = now := by unfold Chan.deliver; dsimp only; split <;> rfl
@[simp] theorem Chan.deliver_nextAt : (c.deliver now w).nextAt = c.nextAt := by unfold Chan.deliver; dsimp only; split <;> rfl
@[simp] theorem Chan.deliver_faults : (c.deliver now w).faults = c.faults := by unfold Chan.deliver; dsimp only; split <;> rfl
@[simp] theorem Chan.deliver_edges : (c.deliver now w).edges = c.edges := by unfold Chan.deliver; dsimp only; split <;> rfl
@[simp] theorem Chan.deliver_convs : (c.deliver now w).convs = c.convs := by unfold Chan.deliver; dsimp only; split <;> rfl

end

/-- DATA and the settling count lie below VALID. -/
theorem wordValid_sampleWord_false (d : Int) (k : Nat) (ovr fault stopped : Bool) :
    wordValid (sampleWord d k false ovr fault stopped) = false := by
  have hdata : ofSigned 24 d < 2 ^ 24 := by unfold ofSigned; omega
  have hbit : (ofSigned 24 d + 2 ^ 24 * (k % 8) + 2 ^ 28 * ovr.toNat + 2 ^ 29 * fault.toNat + 2 ^ 30 * stopped.toNat) /
      2 ^ 27 % 2 = 0 := by
    omega
  rw [wordValid, sampleWord, BitVec.getLsbD_ofNat, Nat.testBit_eq_decide_div_mod_eq]
  simp only [Bool.toNat_false, Nat.mul_zero, Nat.add_zero, hbit]
  decide

/-! ## What reports of faults leave (R192, R193) -/

/-- A report moves no channel. -/
@[simp] theorem chanOf_faultNote (ch bits : Nat) (set : Bool) (s : State) (n : Nat) :
    chanOf (faultNote ch bits set s) n = chanOf s n := by
  unfold faultNote
  split
  · rfl
  · split
    · unfold Afe.note
      simp only [chanOf, State.onAfe_afe]
      split <;> rfl
    · exact chanOf_event ..

/-- What the reports of faults and the check of a source leave as it is: every channel but for its faults, the clock, the
calibration and the reference check. -/
structure FaultsOnly (s t : State) : Prop where
  chan  : ∀ n, { chanOf t n with faults := 0 } = { chanOf s n with faults := 0 }
  now   : t.now = s.now
  otp   : t.otp = s.otp
  cal   : t.afe.cal = s.afe.cal
  refAt : t.afe.refAt = s.afe.refAt
  bad   : t.afe.refBad = s.afe.refBad

theorem FaultsOnly.rfl {s : State} : FaultsOnly s s := by constructor <;> intros <;> exact Eq.refl _

theorem FaultsOnly.trans {s t u : State} (h : FaultsOnly s t) (g : FaultsOnly t u) : FaultsOnly s u :=
  ⟨fun n => (g.chan n).trans (h.chan n), g.now.trans h.now, g.otp.trans h.otp, g.cal.trans h.cal, g.refAt.trans h.refAt,
    g.bad.trans h.bad⟩

/-- A part of a channel that is not its faults. -/
theorem FaultsOnly.part {s t : State} (h : FaultsOnly s t) {α : Type} (p : Chan → α)
    (hp : ∀ c, p { c with faults := 0 } = p c) (n : Nat) : p (chanOf t n) = p (chanOf s n) := by
  rw [← hp (chanOf t n), h.chan, hp]

theorem faultNote_faultsOnly (ch bits : Nat) (set : Bool) (s : State) : FaultsOnly s (faultNote ch bits set s) := by
  have hfoot := faultNote_foot ch bits set s
  refine ⟨fun n => by rw [chanOf_faultNote], hfoot.same .now rfl, hfoot.same .otp rfl, ?_, ?_, ?_⟩
  all_goals
    unfold faultNote
    split
    · rfl
    · split
      · simp only [State.onAfe_afe, Afe.note]
        split <;> rfl
      · rw [event_afe]

theorem onChan_faultsOnly (ch m : Nat) (s : State) : FaultsOnly s (onChan ch (fun c => { c with faults := m }) s) := by
  refine ⟨fun n => ?_, rfl, rfl, rfl, rfl, rfl⟩
  by_cases h : n = ch
  · rw [h, chanOf_onChan_same]
  · rw [chanOf_onChan_other h]

theorem setFaults_faultsOnly (ch m : Nat) (s : State) : FaultsOnly s (setFaults ch m s) :=
  (onChan_faultsOnly ch m s).trans ((faultNote_faultsOnly ..).trans (faultNote_faultsOnly ..))

theorem setFault_faultsOnly (ch bit : Nat) (v : Bool) (s : State) : FaultsOnly s (setFault ch bit v s) :=
  setFaults_faultsOnly ..

theorem shareFaults_faultsOnly (ch : Nat) (s : State) : FaultsOnly s (shareFaults ch s) := by
  unfold shareFaults
  extract_lets c u
  exact (setFault_faultsOnly ..).trans (setFault_faultsOnly ..)

theorem shareAll_faultsOnly (s : State) : FaultsOnly s (shareAll s) := by
  unfold shareAll
  induction List.range 32 generalizing s with
  | nil => exact .rfl
  | cons n ns ih =>
    rw [List.foldl_cons]
    exact (shareFaults_faultsOnly n s).trans (ih _)

theorem excCheck_faultsOnly (ch : Nat) (ok : Bool) (s : State) : FaultsOnly s (excCheck ch ok s) := by
  unfold excCheck
  split
  · exact .rfl
  · refine .trans ?_ (shareAll_faultsOnly _)
    exact ⟨fun _ => rfl, rfl, rfl, rfl, rfl, rfl⟩

/-! ## The fault bits of a channel -/

@[simp] theorem setFaults_faults (ch m : Nat) (s : State) : (chanOf (setFaults ch m s) ch).faults = m := by
  simp [setFaults]

/-- The fault bit that is set or cleared. -/
theorem setFault_testBit (ch bit : Nat) (v : Bool) (s : State) :
    (chanOf (setFault ch bit v s) ch).faults.testBit bit = v := by
  rw [setFault, setFaults_faults]
  cases v with
  | false =>
    have hland : ((chanOf s ch).faults.land (2 ^ bit)).testBit bit = (chanOf s ch).faults.testBit bit :=
      (Nat.testBit_and ..).trans (by rw [Nat.testBit_two_pow_self, Bool.and_true])
    exact (Nat.testBit_xor ..).trans (by rw [hland, Bool.xor_self])
  | true => simp [Nat.testBit_or]

/-- A bit cleared at a channel without faults. -/
theorem setFault_none {ch : Nat} {s : State} (h : (chanOf s ch).faults = 0) (bit : Nat) :
    (chanOf (setFault ch bit false s) ch).faults = 0 := by
  rw [setFault, setFaults_faults, h]
  simp


end Sys2Proof.Machine
end

section
/-! Sigma-delta words, burnout tests, the reference check, the sample page and pulse channels (R184, R185, R187 to R192, R199). -/

namespace Sys2Proof.Machine

/-! ## Words at the end of an output period (R185, R187) -/

@[simp] theorem reachWord_now (ch d : Nat) (s : State) : (reachWord ch d s).now = max s.now d := reach_now ..

@[simp] theorem reachWord_cal (ch d : Nat) (s : State) : (reachWord ch d s).afe.cal = s.afe.cal := by
  rw [reachWord, onChan_cal, reach_afe]

@[simp] theorem chanOf_reachWord (ch d : Nat) (s : State) :
    chanOf (reachWord ch d s) ch = { chanOf s ch with nextAt := d + sdPeriod (reach d s) (chanOf s ch) } := by
  simp [reachWord]

@[simp] theorem finishWord_now (ch : Nat) (d : Int) (ovr : Bool) (s : State) : (finishWord ch d ovr s).now = s.now :=
  (finishWord_foot ..).same .now rfl

/-- A channel without faults. -/
theorem Chan.faults_eta {c : Chan} (h : c.faults = 0) : { c with faults := 0 } = c := by rw [← h]

/-- The word that a channel delivers, with its settling count and its faults as they stand (R188, R192). -/
def Chan.finished (d : Int) (ovr : Bool) (c : Chan) : Word :=
  sampleWord d (c.settle - 1) (c.settle == 0 && !(c.faults != 0)) ovr (c.faults != 0) false

@[simp] theorem chanOf_finishWord (ch : Nat) (d : Int) (ovr : Bool) (s : State) : chanOf (finishWord ch d ovr s) ch =
    { (chanOf s ch).deliver s.now ((chanOf s ch).finished d ovr) with settle := (chanOf s ch).settle - 1 } := by
  unfold finishWord
  extract_lets c f w u
  have hchan : chanOf u ch = chanOf s ch := by unfold u; split <;> simp
  have hnow : u.now = s.now := by unfold u; split <;> simp
  rw [chanOf_onChan_same, hchan, hnow]
  rfl

/-- A channel without the range test. -/
theorem rangeCheck_off {ch : Nat} {s : State} (h : ((chanOf s ch).fld 7 1).testBit 1 = false) (clean : Bool) (d : Int) :
    rangeCheck ch clean d s = s := by
  simp [rangeCheck, h]

/-- While a channel settles, the range test counts no word. -/
theorem rangeCheck_settle {ch : Nat} {s : State} (h : (chanOf s ch).settle ≠ 0) (clean : Bool) (d : Int) :
    (chanOf (rangeCheck ch clean d s) ch).settle = (chanOf s ch).settle := by
  unfold rangeCheck
  extract_lets c v now
  rw [if_pos (show (c.settle != 0) = true from bne_iff_ne.mpr h)]
  split
  · rfl
  · rw [chanOf_onChan_same]

/-- A channel at the end of an output period without overload. -/
def wordEnd (ch d : Nat) (s : State) : State := onChan ch (fun c => { c with ovl := false }) (reachWord ch d s)

@[simp] theorem wordEnd_now (ch d : Nat) (s : State) : (wordEnd ch d s).now = max s.now d := reachWord_now ch d s
@[simp] theorem wordEnd_otp (ch d : Nat) (s : State) : (wordEnd ch d s).otp = s.otp := reachWord_otp ch d s
@[simp] theorem wordEnd_cal (ch d : Nat) (s : State) : (wordEnd ch d s).afe.cal = s.afe.cal := reachWord_cal ch d s
@[simp] theorem chanOf_wordEnd (ch d : Nat) (s : State) : chanOf (wordEnd ch d s) ch =
    { chanOf s ch with ovl := false, nextAt := d + sdPeriod (reach d s) (chanOf s ch) } := by
  rw [wordEnd, chanOf_onChan_same, chanOf_reachWord]

/-- Such a channel with its faults reported. -/
def wordRead (ch d : Nat) (excOk : Bool) (s : State) : State := excCheck ch excOk (setFault ch 2 false (wordEnd ch d s))

theorem wordRead_faultsOnly (ch d : Nat) (excOk : Bool) (s : State) :
    FaultsOnly (wordEnd ch d s) (wordRead ch d excOk s) :=
  (setFault_faultsOnly ..).trans (excCheck_faultsOnly ..)

theorem wordRead_settle (ch d : Nat) (excOk : Bool) (s : State) :
    (chanOf (wordRead ch d excOk s) ch).settle = (chanOf s ch).settle := by
  rw [(wordRead_faultsOnly ..).part Chan.settle fun _ => rfl]
  simp

/-- A channel without a source has no compliance to check. -/
theorem excCheck_none {ch : Nat} {s : State} (h : (chanOf s ch).exc = none) (ok : Bool) : excCheck ch ok s = s := by
  rw [excCheck, h]

/-- A channel without faults and without a source has nothing to report. -/
theorem wordRead_chan {ch : Nat} {s : State} (hfaults : (chanOf s ch).faults = 0) (hexc : (chanOf s ch).exc = none) (d : Nat)
    (excOk : Bool) : chanOf (wordRead ch d excOk s) ch =
      { chanOf s ch with ovl := false, nextAt := d + sdPeriod (reach d s) (chanOf s ch) } := by
  have hchan := setFault_faultsOnly ch 2 false (wordEnd ch d s)
  have hnone : (chanOf (setFault ch 2 false (wordEnd ch d s)) ch).faults = 0 := setFault_none (by rwa [chanOf_wordEnd]) 2
  have hexc' : (chanOf (setFault ch 2 false (wordEnd ch d s)) ch).exc = none := by
    rw [hchan.part Chan.exc fun _ => rfl, chanOf_wordEnd]
    exact hexc
  rw [wordRead, excCheck_none hexc', ← Chan.faults_eta hnone, hchan.chan, chanOf_wordEnd, ← hfaults]

section
variable {ch : Nat} {s : State} (hf : fieldOn s = true) (hon : (chanOf s ch).on = true)
include hf hon

/-- The word that completes without overload (R187 to R192, R195). -/
theorem doSdSampleWord_eq (hovl : (chanOf s ch).ovl = false) (x : SdInput) (excOk : Bool) :
    doSdSampleWord ch x false excOk s =
      let u := wordRead ch (wordDue s (chanOf s ch)) excOk s
      let r := corrected s ch ((chanOf s ch).fld 3 1) (rawOf (chanOf s ch) x)
      finishWord ch r.1 r.2 (rangeCheck ch (Nat.lor (chanOf u ch).faults 2 == 2) r.1 u) := by
  have hread := wordRead_faultsOnly ch (wordDue s (chanOf s ch)) excOk s
  rw [← corrected_congr (hread.otp.trans (wordEnd_otp ..)) (hread.cal.trans (wordEnd_cal ..)), doSdSampleWord]
  simp only [hf, hon, hovl, Bool.not_true, Bool.or_self, Bool.false_and, Bool.false_eq_true, if_false, Bool.or_false]
  rfl

/-- The test word of a channel with BURNOUT completes at the end of an output period, and N invalid words follow (R192). -/
theorem doBurnoutTest_eq (hburn : ((chanOf s ch).fld 7 1).testBit 0 = true) (x : SdInput) :
    ∃ d test, wordDue s (chanOf s ch) ≤ d ∧ doBurnoutTest ch x s =
      let r := corrected s ch ((chanOf s ch).fld 3 1) (rawOf (chanOf s ch) x)
      finishWord ch r.1 (r.2 || (chanOf s ch).ovl)
        (onChan ch (fun c => { c with burnAt := test, settle := 1 + c.nWords, oor := 0 })
          (setFault ch 0 (decide (7969178 ≤ r.1)) (reachWord ch d s))) := by
  unfold doBurnoutTest
  extract_lets c raw due p test u
  refine ⟨due + (test + p - due) / p * p, test, Nat.le_add_right _ _, ?_⟩
  rw [if_neg (by simp [c, hf, hon, hburn]), corrected_congr (reachWord_otp ..) (reachWord_cal ..)]

end

section
variable {n : Fin 32} {s : State} (hf : fieldOn s = true) (hon : (chanOf s n.val).on = true)
include hf hon

/-- The word of a settled channel without faults is valid. -/
theorem sdSampleWord_valid (hovl : (chanOf s n.val).ovl = false) (hsettle : (chanOf s n.val).settle = 0)
    (hfaults : (chanOf s n.val).faults = 0) (hexc : (chanOf s n.val).exc = none)
    (hrange : ((chanOf s n.val).fld 7 1).testBit 1 = false) (x : SdInput) (excOk : Bool) :
    Runs (.sdSampleWord n x false excOk) s fun t =>
      wordDue s (chanOf s n.val) ≤ t.now ∧ (chanOf t n.val).wordAt = t.now ∧
      (chanOf t n.val).nextAt = wordDue s (chanOf s n.val) + sdPeriod t (chanOf s n.val) ∧
      (chanOf t n.val).word =
        sampleWord (corrected s n.val ((chanOf s n.val).fld 3 1) (rawOf (chanOf s n.val) x)).1 0 true
          (corrected s n.val ((chanOf s n.val).fld 3 1) (rawOf (chanOf s n.val) x)).2 false false := by
  have hread := wordRead_faultsOnly n.val (wordDue s (chanOf s n.val)) excOk s
  have hchan := wordRead_chan hfaults hexc (wordDue s (chanOf s n.val)) excOk
  have heq := doSdSampleWord_eq hf hon hovl x excOk
  extract_lets u r at heq
  have hoff : ((chanOf u n.val).fld 7 1).testBit 1 = false := by rw [hchan]; exact hrange
  rw [rangeCheck_off hoff] at heq
  have hpwr : (doSdSampleWord n.val x false excOk s).pwr = s.pwr := (doSdSampleWord_foot ..).same .pwr rfl
  have hnow : (doSdSampleWord n.val x false excOk s).now = max s.now (wordDue s (chanOf s n.val)) := by
    rw [heq, finishWord_now, hread.now, wordEnd_now]
  have hperiod : sdPeriod (doSdSampleWord n.val x false excOk s) (chanOf s n.val) =
      sdPeriod (reach (wordDue s (chanOf s n.val)) s) (chanOf s n.val) := by
    simp only [sdPeriod, hpwr, hnow, reach_pwr, reach_now]
  refine .next (t := doSdSampleWord n.val x false excOk s) rfl ⟨by omega, ?_, ?_, ?_⟩
  · rw [heq, chanOf_finishWord, finishWord_now, Chan.deliver_wordAt]
  · rw [hperiod, heq, chanOf_finishWord, Chan.deliver_nextAt, hchan]
  · rw [heq, chanOf_finishWord, Chan.deliver_word, hchan]
    simp only [Chan.finished, hsettle, hfaults]
    rfl

/-- A word of a channel that settles is invalid, and one fewer is to come (R188). -/
theorem sdSampleWord_settling {k : Nat} (hovl : (chanOf s n.val).ovl = false) (hsettle : (chanOf s n.val).settle = k + 1)
    (x : SdInput) (excOk : Bool) : Runs (.sdSampleWord n x false excOk) s fun t =>
      wordDue s (chanOf s n.val) ≤ t.now ∧ (chanOf t n.val).settle = k ∧ wordValid (chanOf t n.val).word = false := by
  have hread := wordRead_faultsOnly n.val (wordDue s (chanOf s n.val)) excOk s
  have heq := doSdSampleWord_eq hf hon hovl x excOk
  extract_lets u r at heq
  have hu : (chanOf u n.val).settle = k + 1 := (wordRead_settle ..).trans hsettle
  refine .next (t := doSdSampleWord n.val x false excOk s) rfl ⟨?_, ?_, ?_⟩
  · rw [heq, finishWord_now, (rangeCheck_foot ..).same .now rfl, hread.now, wordEnd_now]
    exact Nat.le_max_right ..
  · rw [heq, chanOf_finishWord]
    simp only [rangeCheck_settle (by omega : (chanOf u n.val).settle ≠ 0), hu, Nat.add_sub_cancel]
  · rw [heq, chanOf_finishWord]
    simp only [Chan.deliver_word, Chan.finished, rangeCheck_settle (by omega : (chanOf u n.val).settle ≠ 0), hu]
    exact wordValid_sampleWord_false ..

theorem burnoutTest_completes (hburn : ((chanOf s n.val).fld 7 1).testBit 0 = true) (x : SdInput) :
    Runs (.burnoutTest n x) s fun t =>
      wordDue s (chanOf s n.val) ≤ t.now ∧ (chanOf t n.val).settle = (chanOf s n.val).nWords ∧
      (chanOf t n.val).faults.testBit 0 =
        decide (7969178 ≤ (corrected s n.val ((chanOf s n.val).fld 3 1) (rawOf (chanOf s n.val) x)).1) := by
  obtain ⟨d, test, hd, heq⟩ := doBurnoutTest_eq hf hon hburn x
  extract_lets r at heq
  have hfault := setFault_faultsOnly n.val 0 (decide (7969178 ≤ r.1)) (reachWord n.val d s)
  refine .next (t := doBurnoutTest n.val x s) rfl ⟨?_, ?_, ?_⟩
  · rw [heq, finishWord_now, onChan_now, hfault.now, reachWord_now]
    omega
  · rw [heq, chanOf_finishWord, chanOf_onChan_same]
    simp only [Nat.add_sub_cancel_left, hfault.part Chan.nWords fun _ => rfl, chanOf_reachWord]
    rfl
  · rw [heq, chanOf_finishWord]
    simp only [Chan.deliver_faults, chanOf_onChan_same]
    exact setFault_testBit ..

end

/-! ## The reference check (R192) -/

section
variable {s : State} (hf : fieldOn s = true)
include hf

theorem refCheck_fails : Runs (.refCheck false) s fun t =>
    s.afe.refAt + 1000 ≤ t.now ∧ t.afe.refAt = t.now ∧ t.afe.refBad = true := by
  refine .next (t := doRefCheck false s) rfl ?_
  rw [doRefCheck, if_neg (by simp [hf])]
  extract_lets u now w
  rw [(shareAll_faultsOnly _).now, (shareAll_faultsOnly _).refAt, (shareAll_faultsOnly _).bad]
  refine ⟨?_, rfl, rfl⟩
  show s.afe.refAt + 1000 ≤ u.now
  rw [reach_now]
  exact Nat.le_max_right ..

theorem refCheck_clears {d : Nat} (hok : s.afe.refOkAt = some d) (hd : d + 100000 ≤ s.now) :
    Runs (.refCheck true) s fun t => t.afe.refBad = false := by
  refine .next (t := doRefCheck true s) rfl ?_
  rw [doRefCheck, if_neg (by simp [hf])]
  extract_lets u now w
  have hok' : u.afe.refOkAt = some d := by rw [reach_afe, hok]
  have hlate : ¬ now < d + 100000 := by
    have hnow : now = max s.now (s.afe.refAt + 1000) := reach_now ..
    omega
  rw [(shareAll_faultsOnly _).bad]
  simp [w, hok', hlate]

end

/-! ## The sample page (R199) -/

/-- The page carries what the channels deliver. -/
theorem samplePage_congr {s t : State} (h : t.afe = s.afe) : samplePage t = samplePage s := by
  simp only [samplePage, chanOf_congr h]

theorem binderWrite_mem (a : Nat) (bs : Bytes) (s : State) : (binderWrite a bs s).mem = s.mem.writeN a bs := rfl

/-- The page words of the SAR channels formed at a copy. -/
def pageMeans (now : Nat) (s : State) : State := (List.range 12).foldl (fun s k => onChan (32 + k) (sarMean now) s) s

theorem pageMeans_foot (now : Nat) (s : State) : Foot [.afe] s (pageMeans now s) :=
  Foot.refl.foldl fun _ _ h => h.then (onChan_foot ..) rfl

/-- The page taken as the model's snapshot source. -/
def pageTaken (now : Nat) (s : State) : State :=
  s.onAfe fun a => { a with copyAt := now, source := a.ch.map fun p => (p.1, p.2.word) }

@[simp] theorem pageTaken_now (now : Nat) (s : State) : (pageTaken now s).now = s.now := rfl
@[simp] theorem pageTaken_mem (now : Nat) (s : State) : (pageTaken now s).mem = s.mem := rfl
@[simp] theorem pageTaken_copyAt (now : Nat) (s : State) : (pageTaken now s).afe.copyAt = now := rfl
@[simp] theorem pageTaken_source (now : Nat) (s : State) :
    (pageTaken now s).afe.source = (pageTaken now s).afe.ch.map fun p => (p.1, p.2.word) := rfl

/-- While the store is on, the copy is taken as the source and written into the store (R199, R261). -/
theorem pageCopied_eq {s : State} (hstore : s.pwr.store = .on) (now : Nat) :
    (let t := s.onAfe fun a => { a with
        copyAt := now, source := if s.pwr.store == .on then a.ch.map (fun p => (p.1, p.2.word)) else a.source }
      if t.pwr.store == .on then binderWrite (dataPlace Config.sourceBase) (samplePage t) t else t) =
      binderWrite (dataPlace Config.sourceBase) (samplePage (pageTaken now s)) (pageTaken now s) := by
  simp [hstore, pageTaken]

theorem doSamplePageCopy_eq {s : State} (hf : fieldOn s = true) (hstore : s.pwr.store = .on) :
    doSamplePageCopy s =
      let u := reach (s.afe.copyAt + 100) s
      let w := pageTaken u.now (pageMeans u.now u)
      binderWrite (dataPlace Config.sourceBase) (samplePage w) w := by
  have hon : (pageMeans (reach (s.afe.copyAt + 100) s).now (reach (s.afe.copyAt + 100) s)).pwr.store = .on := by
    rw [(pageMeans_foot ..).same .pwr rfl, reach_pwr, hstore]
  rw [doSamplePageCopy, if_neg (by simp [hf])]
  exact pageCopied_eq hon _

theorem samplePageCopy_completes {s : State} (hf : fieldOn s = true) (hstore : s.pwr.store = .on) :
    Runs .samplePageCopy s fun t => s.afe.copyAt + 100 ≤ t.now ∧ t.afe.copyAt = t.now ∧
      (t.afe.source = t.afe.ch.map fun p => (p.1, p.2.word)) ∧
      t.mem = s.mem.writeN (dataPlace Config.sourceBase) (samplePage t) := by
  refine .next (t := doSamplePageCopy s) rfl ?_
  rw [doSamplePageCopy_eq hf hstore]
  extract_lets u w
  have hmeans := pageMeans_foot u.now u
  have hu : u.now = max s.now (s.afe.copyAt + 100) := reach_now ..
  have hnow : w.now = u.now := (pageTaken_now ..).trans (hmeans.same .now rfl)
  have hmem : w.mem = s.mem := (pageTaken_mem ..).trans ((hmeans.same .mem rfl).trans (reach_mem ..))
  rw [binderWrite_now, binderWrite_afe, binderWrite_mem, samplePage_congr (binderWrite_afe ..), hmem, hnow]
  exact ⟨by omega, pageTaken_copyAt .., pageTaken_source .., rfl⟩

/-! ## SAR channels (R190) -/

theorem chanOf_sarWord_convs (k code : Nat) (s : State) :
    (chanOf (sarWord k code s) (32 + k)).convs = (chanOf s (32 + k)).convs + 1 := by
  unfold sarWord
  extract_lets ch d clipped now u
  have hu : chanOf u ch = chanOf s ch := by unfold u; split <;> simp
  rw [show 32 + k = ch from rfl, chanOf_onChan_same, hu]
  extract_lets c
  split
  · rfl
  · split
    · exact Chan.deliver_convs ..
    · rfl

/-! ## Pulse channels (R191) -/

/-- What an edge ends for a fan is no part of the front end (R217). -/
@[simp] theorem fanSpins_afe (n : Nat) (s : State) : (fanSpins n s).afe = s.afe := (fanSpins_foot ..).same .afe rfl

theorem pulseAndFan_afe (k : Nat) (falling : Bool) (period phase : Nat) (s : State) :
    (pulseAndFan k falling period phase s).afe = (doPulseEdge k falling period phase s).afe := by
  unfold pulseAndFan
  extract_lets u
  split
  · exact fanSpins_afe ..
  · rfl

/-- An edge within MINW of another, or of the other polarity, is not counted. -/
theorem doPulseEdge_ignored {k : Nat} {falling : Bool} {phase : Nat} {s : State}
    (h : phase < (chanOf s (44 + k)).minw ∨ falling ≠ ((chanOf s (44 + k)).fld 2 1 == 1)) (period : Nat) :
    doPulseEdge k falling period phase s = s := by
  rw [doPulseEdge, if_pos]
  rcases h with h | h <;> simp [h]

section
variable {k : Fin 12} {s : State} (hf : fieldOn s = true) (hon : (chanOf s (44 + k.val)).on = true)
  (hedges : (chanOf s (44 + k.val)).edges ≠ 0)
include hf hon hedges

theorem pulseEdge_counted {falling : Bool} {phase : Nat} (hphase : (chanOf s (44 + k.val)).minw ≤ phase)
    (hedge : falling = ((chanOf s (44 + k.val)).fld 2 1 == 1)) (period : Nat) :
    Runs (.pulseEdge k period ⟨falling, phase⟩) s fun t =>
      (chanOf t (44 + k.val)).edges = (chanOf s (44 + k.val)).edges + 1 ∧
      (chanOf t (44 + k.val)).word = sampleWord (pulseFreq period) 0 true (decide (period < 10000)) false false := by
  refine .next (t := pulseAndFan k.val falling period phase s) rfl ?_
  rw [chanOf_congr (pulseAndFan_afe ..)]
  unfold doPulseEdge
  extract_lets ch c now u fast stopped v w
  rw [if_neg (by simp [hf, hon, hedge, hphase, c, ch]), if_neg (by simpa [c, ch] using hedges)]
  have hw : chanOf w ch = chanOf v ch := by unfold w; split <;> simp
  have hend : chanOf (if (fast != c.fast) = true then event 0x0802 2 [ch, fast.toNat] 0 0 w else w) ch = chanOf v ch := by
    split <;> simp [hw]
  rw [hend]
  simp [v, u, ch, fast]

theorem pulseTimeout_stops : Runs (.pulseTimeout k) s fun t =>
    (chanOf s (44 + k.val)).edgeAt + 1000 * (chanOf s (44 + k.val)).fld 12 2 ≤ t.now ∧ (chanOf t (44 + k.val)).edges = 0 ∧
    (chanOf t (44 + k.val)).word = sampleWord 0 0 true (chanOf s (44 + k.val)).fast false true := by
  refine .next (t := doPulseTimeout k.val s) rfl ?_
  unfold doPulseTimeout
  extract_lets ch c stopped u now v
  rw [if_neg (by simp [hf, hon, hedges, c, ch])]
  have hend : chanOf (if stopped = true then v else event 0x0803 2 [ch, 1] 0 0 v) ch = chanOf v ch := by split <;> simp
  have hnow : (if stopped = true then v else event 0x0803 2 [ch, 1] 0 0 v).now = now := by split <;> simp [v, now]
  rw [hend, hnow]
  refine ⟨?_, ?_, ?_⟩
  · rw [show now = max s.now (c.edgeAt + 1000 * c.fld 12 2) from reach_now ..]
    exact Nat.le_max_right ..
  · simp [v]
  · simp [v, u, ch]

end

end Sys2Proof.Machine
end

section
/-! Laws of pump faults and of SAR conversions, and the statement about the analog front end (R184, R185, R187 to R192, R199, R210,
R212, R213, R217). -/

namespace Sys2Proof.Machine

/-! ## Elements read after a change -/

@[simp] theorem pumpOf_onPump_same (n : Nat) (f : Pump → Pump) (s : State) : pumpOf (onPump n f s) n = f (pumpOf s n) := by
  simp [pumpOf, onPump]

@[simp] theorem valveOf_onValve_same (v : Nat) (f : Valve → Valve) (s : State) :
    valveOf (onValve v f s) v = f (valveOf s v) := by
  simp [valveOf, onValve]

/-- Pumps are a part of the drive engine. -/
theorem pumpOf_congr {s t : State} (h : t.drv = s.drv) (n : Nat) : pumpOf t n = pumpOf s n := by rw [pumpOf, h, pumpOf]

/-! ## A pump's fault (R212, R213) -/

/-- An element without a below-floor lease has none to end. -/
theorem endBelow_none {e : Nat} {s : State} (h : belowOf s e = none) (result : Word) : endBelow e result s = s := by
  rw [endBelow, h]

/-- The pump comes to rest: in LOCKOUT on the fourth fault within 60 s, else in RETRY. -/
def Pump.faulted (now f : Nat) (p : Pump) : Pump :=
  let lock := decide (3 ≤ p.faults.length) && decide (now ≤ p.faults.headD 0 + 60000000)
  { (p.halt (if lock then .lockout else .retry)) with
    faults := (p.faults ++ [now]).drop (p.faults.length + 1 - 3), last := f,
    retryAt := if lock then none else some (now + 1000000) }

theorem pumpFault_now (n f : Nat) (s : State) : (pumpFault n f s).now = s.now := (pumpFault_foot ..).same .now rfl

section
variable {n : Nat} {s : State} (h : PumpRuns n s) (f : Nat)
include h

theorem pumpFault_pump : pumpOf (pumpFault n f s) n = (pumpOf s n).faulted s.now f := by
  obtain ⟨hfield, hused, hlive, hnone⟩ := h
  unfold pumpFault
  extract_lets p now lock u v w
  rw [if_neg (by simp [p, hfield, hused, hlive])]
  have hdrv : w.drv = u.drv := by unfold w; split <;> simp [v]
  have hbelow : belowOf w n = none := by
    rw [belowOf, hdrv]
    exact hnone
  rw [endBelow_none hbelow, pumpOf_congr hdrv]
  exact pumpOf_onPump_same ..

theorem pumpFault_faulted : PumpFaulted n f s (pumpFault n f s) := by
  have hpump := pumpFault_pump h f
  constructor
  case first =>
    intro hfew
    rw [hpump, pumpFault_now]
    simp [Pump.faulted, Pump.halt, show ¬ 3 ≤ (pumpOf s n).faults.length by omega]
  case lock =>
    intro hmany hsoon
    rw [pumpFault_now] at hsoon
    rw [hpump]
    simp only [Pump.faulted, Pump.halt, hmany, hsoon, decide_true, Bool.and_self, if_true, and_self]
  case low =>
    rw [hpump]
    exact ⟨rfl, rfl⟩
  case last =>
    rw [hpump]
    rfl

end

/-! ## SAR conversions (R190, R210, R212) -/

@[simp] theorem sarWord_drv (k code : Nat) (s : State) : (sarWord k code s).drv = s.drv := (sarWord_foot ..).same .drv rfl
@[simp] theorem sarWord_pwr (k code : Nat) (s : State) : (sarWord k code s).pwr = s.pwr := (sarWord_foot ..).same .pwr rfl

/-- A conversion's word and the phase current that it gives, with the conversions in a row above OC_LIMIT. -/
def sarTaken (k code runs : Nat) (s : State) : State :=
  onPump (k / 3) (fun p => { p with
    cur := p.cur.set (k % 3) (sarData s k code * fld (pRec s (k / 3)) 14 2), high := p.high.set (k % 3) runs }) (sarWord k code s)

@[simp] theorem chanOf_sarTaken (k code runs : Nat) (s : State) (n : Nat) :
    chanOf (sarTaken k code runs s) n = chanOf (sarWord k code s) n := rfl

@[simp] theorem pumpOf_sarTaken (k code runs : Nat) (s : State) : pumpOf (sarTaken k code runs s) (k / 3) =
    { pumpOf s (k / 3) with
      cur := (pumpOf s (k / 3)).cur.set (k % 3) (sarData s k code * fld (pRec s (k / 3)) 14 2),
      high := (pumpOf s (k / 3)).high.set (k % 3) runs } := by
  rw [sarTaken, pumpOf_onPump_same, pumpOf_congr (sarWord_drv ..)]

theorem sarTaken_pumpRuns {k : Nat} {s : State} (h : PumpRuns (k / 3) s) (code runs : Nat) :
    PumpRuns (k / 3) (sarTaken k code runs s) := by
  obtain ⟨hfield, hused, hlive, hnone⟩ := h
  have hdrv := sarWord_drv k code s
  have hpwr := sarWord_pwr k code s
  constructor
  case field =>
    show fieldOn (sarWord k code s) = true
    rwa [fieldOn, hpwr]
  case used => rwa [pumpOf_sarTaken]
  case live =>
    rw [pumpOf_sarTaken]
    exact hlive
  case none_ =>
    show belowOf (sarWord k code s) (k / 3) = none
    rwa [belowOf, hdrv]

section
variable {k : Fin 12} {code : Nat} {s : State} (hf : fieldOn s = true) (hrec : fld (pRec s (k.val / 3)) 0 1 ≠ 0)
include hf hrec

theorem sarConversion_within
    (hwithin : (sarData s k.val code * fld (pRec s (k.val / 3)) 14 2).natAbs ≤ 1000 * fld (pRec s (k.val / 3)) 16 2) :
    doSarConversion k.val code s = sarTaken k.val code 0 s := by
  simp [doSarConversion, hf, hrec, sarTaken, Nat.not_lt.mpr hwithin]

/-- The second of two consecutive conversions above OC_LIMIT is OVERCURRENT. -/
theorem sarConversion_above
    (habove : 1000 * fld (pRec s (k.val / 3)) 16 2 < (sarData s k.val code * fld (pRec s (k.val / 3)) 14 2).natAbs)
    (hhigh : (pumpOf s (k.val / 3)).high.getD (k.val % 3) 0 = 1) :
    doSarConversion k.val code s = pumpFault (k.val / 3) 1 (sarTaken k.val code 2 s) := by
  rw [List.getD_eq_getElem?_getD] at hhigh
  simp [doSarConversion, hf, hrec, sarTaken, habove, hhigh]

end

/-- A fault at a state whose pump has the same faults behind it. -/
theorem PumpFaulted.congr {n f : Nat} {s u t : State} (h : PumpFaulted n f u t)
    (hfaults : (pumpOf u n).faults = (pumpOf s n).faults) : PumpFaulted n f s t := by
  obtain ⟨hfirst, hlock, hlow, hlast⟩ := h
  rw [hfaults] at hfirst hlock
  exact ⟨hfirst, hlock, hlow, hlast⟩

/-! ## The statement -/

/-- Settles O46: each row by its lemma. The fault of a second conversion above OC_LIMIT is what `pumpFault` leaves at the state
that the conversion's word and current make. -/
theorem analogCommandsComplete : Obligations.AnalogCommandsComplete := by
  unfold Obligations.AnalogCommandsComplete
  refine ⟨?word, fun s n x okx k hf hon hovl hsettle => sdSampleWord_settling hf hon hovl hsettle x okx,
    fun s n x hf hon hburn => burnoutTest_completes hf hon hburn x, fun s hf => refCheck_fails hf,
    fun s d hf hok hd => refCheck_clears hf hok hd, ?conversion, ?overcurrent,
    fun s k falling period phase hf hon hphase hedge hedges => pulseEdge_counted hf hon hedges hphase hedge period, ?ignored,
    fun s k hf hon hedges => pulseTimeout_stops hf hon hedges, fun s hf hstore => samplePageCopy_completes hf hstore, ?valve⟩
  case word =>
    rintro s n x okx _ hf hon hovl hsettle hfaults hexc hrange rfl
    exact sdSampleWord_valid hf hon hovl hsettle hfaults hexc hrange x okx
  case conversion =>
    intro s k code hf hrec hwithin
    refine .next (t := doSarConversion k.val code s) rfl ?_
    rw [sarConversion_within hf hrec hwithin, chanOf_sarTaken, pumpOf_sarTaken]
    exact ⟨chanOf_sarWord_convs .., rfl, rfl⟩
  case overcurrent =>
    intro s k code hrec hruns habove hhigh
    refine .next (t := doSarConversion k.val code s) rfl ?_
    rw [sarConversion_above hruns.field hrec habove hhigh]
    exact (pumpFault_faulted (sarTaken_pumpRuns hruns code 2) 1).congr (by rw [pumpOf_sarTaken])
  case ignored =>
    intro s k falling period phase h
    refine .next (t := pulseAndFan k.val falling period phase s) rfl ?_
    rw [pulseAndFan_afe, doPulseEdge_ignored h]
  case valve =>
    intro s v uV hf hon
    refine .next (t := doValveFeedbackSample v.val uV s) rfl ?_
    rw [doValveFeedbackSample, if_neg (by simp [hf, hon])]
    simp only [valveOf_onValve_same, and_self]

end Sys2Proof.Machine
end

section
/-! Laws of the elements of the drive engine: what one reads as after a change, and what a loop over them leaves (R205, R211, R219,
R220). -/

namespace Sys2Proof.Machine

/-! ## Elements read after a change -/

theorem pumpOf_onPump_other {m n : Nat} (h : m ≠ n) (f : Pump → Pump) (s : State) : pumpOf (onPump n f s) m = pumpOf s m :=
  Tab.get_mod_other ({} : Pump) s.drv.pumps f h

@[simp] theorem fanOf_onFan_same (n : Nat) (f : Fan → Fan) (s : State) : fanOf (onFan n f s) n = f (fanOf s n) :=
  Tab.get_mod_same ..

theorem fanOf_onFan_other {m n : Nat} (h : m ≠ n) (f : Fan → Fan) (s : State) : fanOf (onFan n f s) m = fanOf s m :=
  Tab.get_mod_other ({} : Fan) s.drv.fans f h

theorem valveOf_onValve_other {m n : Nat} (h : m ≠ n) (f : Valve → Valve) (s : State) :
    valveOf (onValve n f s) m = valveOf s m :=
  Tab.get_mod_other ({} : Valve) s.drv.valves f h

@[simp] theorem onPump_now (n : Nat) (f : Pump → Pump) (s : State) : (onPump n f s).now = s.now := rfl
@[simp] theorem onFan_now (n : Nat) (f : Fan → Fan) (s : State) : (onFan n f s).now = s.now := rfl
@[simp] theorem onValve_now (n : Nat) (f : Valve → Valve) (s : State) : (onValve n f s).now = s.now := rfl
@[simp] theorem fieldOn_onPump (n : Nat) (f : Pump → Pump) (s : State) : fieldOn (onPump n f s) = fieldOn s := rfl
@[simp] theorem pRec_onPump (m n : Nat) (f : Pump → Pump) (s : State) : pRec (onPump n f s) m = pRec s m := rfl

/-- Fans and valves are parts of the drive engine, and so is the table with its records. -/
theorem fanOf_congr {s t : State} (h : t.drv = s.drv) (n : Nat) : fanOf t n = fanOf s n := by rw [fanOf, h, fanOf]
theorem valveOf_congr {s t : State} (h : t.drv.valves = s.drv.valves) (n : Nat) : valveOf t n = valveOf s n := by
  rw [valveOf, h, valveOf]
theorem tbl_congr {s t : State} (h : t.drv.table = s.drv.table) : tbl t = tbl s := by rw [tbl, h, tbl]
theorem pRec_congr {s t : State} (h : t.drv.table = s.drv.table) (n : Nat) : pRec t n = pRec s n := by
  rw [pRec, tbl_congr h, pRec]

section
variable (d ev n : Nat) (code : Half) (sev : Nat) (data : List Nat) (cw : DWord) (ref : Nat) (s : State)
@[simp] theorem pumpOf_reach : pumpOf (reach d s) n = pumpOf s n := pumpOf_congr (reach_drv ..) n
@[simp] theorem pumpOf_count : pumpOf (count ev s) n = pumpOf s n := pumpOf_congr (count_drv ..) n
@[simp] theorem pumpOf_event : pumpOf (event code sev data cw ref s) n = pumpOf s n := pumpOf_congr (event_drv ..) n
@[simp] theorem fanOf_reach : fanOf (reach d s) n = fanOf s n := fanOf_congr (reach_drv ..) n
@[simp] theorem fanOf_event : fanOf (event code sev data cw ref s) n = fanOf s n := fanOf_congr (event_drv ..) n
@[simp] theorem valveOf_reach : valveOf (reach d s) n = valveOf s n := valveOf_congr (congrArg _ (reach_drv ..)) n
@[simp] theorem valveOf_event : valveOf (event code sev data cw ref s) n = valveOf s n :=
  valveOf_congr (congrArg _ (event_drv ..)) n
@[simp] theorem pRec_reach : pRec (reach d s) n = pRec s n := pRec_congr (congrArg _ (reach_drv ..)) n
@[simp] theorem pRec_count : pRec (count ev s) n = pRec s n := pRec_congr (congrArg _ (count_drv ..)) n
@[simp] theorem pRec_event : pRec (event code sev data cw ref s) n = pRec s n := pRec_congr (congrArg _ (event_drv ..)) n
@[simp] theorem fieldOn_reach : fieldOn (reach d s) = fieldOn s := by rw [fieldOn, reach_pwr, fieldOn]
@[simp] theorem fieldOn_event : fieldOn (event code sev data cw ref s) = fieldOn s := by rw [fieldOn, event_pwr, fieldOn]
end

/-! ## Loops over the elements -/

/-- A loop over the elements whose steps move one element each: what element `n` ends as is what its own step makes of it, at a
state that shows it, and the part that no step moves, as they were at the start. -/
theorem foldl_range_view {γ β : Type} {part : State → γ} {view : State → β} {g : State → Nat → State} {n : Nat}
    (hpart : ∀ u m, part (g u m) = part u) (hother : ∀ u m, n ≠ m → view (g u m) = view u) {k : Nat} (hn : n < k) (s : State) :
    ∃ u, part u = part s ∧ view u = view s ∧ view ((List.range k).foldl g s) = view (g u n) := by
  induction k with
  | zero => exact absurd hn (Nat.not_lt_zero n)
  | succ k ih =>
    rw [List.range_succ, List.foldl_append, List.foldl_cons, List.foldl_nil]
    by_cases hk : n = k
    · subst hk
      refine ⟨_, foldl_view hpart .., ?_, rfl⟩
      exact List.foldlRecOn (motive := fun u : State => view u = view s) _ g rfl fun u hu m hm =>
        (hother u m (Nat.ne_of_gt (List.mem_range.mp hm))).trans hu
    · obtain ⟨u, hu, hv, h⟩ := ih (by omega)
      exact ⟨u, hu, hv, (hother _ k hk).trans h⟩

section
variable {β : Type} {view : State → β} (hpump : ∀ n f u, view (onPump n f u) = view u)
include hpump

theorem setTarget_view (n t : Nat) (st : PumpSt) (s : State) : view (setTarget n t st s) = view s := by
  unfold setTarget
  extract_lets r u
  have hu : view u = view s := hpump ..
  split
  · exact (hpump ..).trans hu
  · exact hu

variable (hfan : ∀ n f u, view (onFan n f u) = view u)
include hfan

/-- Floors are set at the pumps and fans alone. -/
theorem setFloors_view (s : State) : view (setFloors s) = view s :=
  (foldl_view (fun _ _ => hfan ..) _ _).trans (foldl_view (fun _ _ => hpump ..) _ _)

/-- Pumps and fans alone move towards their floors. -/
theorem seekFloors_view (s : State) : view (seekFloors s) = view s := by
  unfold seekFloors
  split
  · rfl
  · refine (foldl_view (fun u n => ?_) _ _).trans (foldl_view (fun u n => ?_) _ _)
    · split
      · rfl
      · exact hfan ..
    · extract_lets p
      split
      · rfl
      · exact setTarget_view hpump ..

end

end Sys2Proof.Machine
end

section
/-! Laws of the valves' defaults, and the statement about them (R205). -/

namespace Sys2Proof.Machine

/-! ## Tables -/

/-- What a table lists is what it answers. -/
theorem Tab.get_of_find {α : Type} {d v : α} {t : Tab α} {k : Nat} (h : t.find k = some v) : t.get d k = v := by
  induction t with
  | nil => exact absurd h nofun
  | cons p t ih =>
    obtain ⟨j, w⟩ := p
    unfold Tab.find at h
    unfold Tab.get
    split at h
    next hj => rw [if_pos hj, Option.some.inj h]
    next hj => rw [if_neg hj, ih h]

/-! ## The release of FIELD's reset -/

/-- A valve at its default: the value that OTP lists, or dark where that is blank. -/
def Valve.atDefault (defaults : Tab Nat) (n : Nat) (v : Valve) : Valve :=
  { v with dark := (defaults.find n).isNone, pos := 100 * defaults.get 0 n, target := 100 * defaults.get 0 n }

/-- Every valve at its default. -/
def takeDefaults (s : State) : State :=
  (List.range 8).foldl (fun s n => onValve n (Valve.atDefault s.otp.valves n) s) s

theorem valveOf_takeDefaults {n : Nat} (hn : n < 8) (s : State) :
    valveOf (takeDefaults s) n = (valveOf s n).atDefault s.otp.valves n := by
  have hloop := foldl_range_view (part := State.otp) (view := fun v => valveOf v n)
    (g := fun s n => onValve n (Valve.atDefault s.otp.valves n) s) (fun _ _ => rfl)
    (fun _ _ hm => valveOf_onValve_other hm ..) hn s
  obtain ⟨u, hotp, hview, h⟩ := hloop
  rw [takeDefaults, h, valveOf_onValve_same, hotp, hview]

/-- A fresh level moves no valve. -/
theorem freshLevel_valves (s : State) : (freshLevel s).drv.valves = s.drv.valves := by
  unfold freshLevel
  extract_lets temp k u
  refine Eq.trans (foldl_view (view := fun v => v.drv.valves) (fun v n => ?step) _ _) ?start
  case step => rfl
  case start =>
    exact (seekFloors_view (view := fun v => v.drv.valves) (fun _ _ _ => rfl) (fun _ _ _ => rfl) _).trans
      (setFloors_view (view := fun v => v.drv.valves) (fun _ _ _ => rfl) (fun _ _ _ => rfl) _)

theorem doFieldResetRelease_valve {s : State} (h : s.pwr.field = .reset) {n : Nat} (hn : n < 8) :
    ∃ v : Valve, valveOf (doFieldResetRelease s) n = v.atDefault s.otp.valves n := by
  unfold doFieldResetRelease
  rw [if_neg (by simp [h])]
  extract_lets now s1 s2 kept s3 t s4 s5 s6 s7
  have hotp : s6.otp = s.otp := by
    have h3 : s3.otp = s.otp := by unfold s3; split <;> simp [s2, s1]
    have h4 : s4.otp = s3.otp := by unfold s4; split <;> simp
    exact ((useTable_foot ..).same .otp rfl).trans (h4.trans h3)
  have hvalve : valveOf (freshLevel (loadNamed s7)) n = valveOf s7 n :=
    valveOf_congr ((freshLevel_valves _).trans (congrArg _ ((loadNamed_foot _).same .drv rfl))) n
  refine ⟨valveOf s6 n, ?_⟩
  rw [hvalve, show s7 = takeDefaults s6 from rfl, valveOf_takeDefaults hn, hotp]

/-- A dark valve drives 0 V. -/
theorem vlpCode_dark {s : State} {v : Nat} (h : (valveOf s v).dark = true) : vlpCode s v = 0 := by
  unfold vlpCode
  extract_lets den
  split
  · rfl
  next hden =>
    have hpos : 0 < den := Nat.pos_of_ne_zero fun h0 => hden (by simp [h0])
    rw [loopCmd, if_pos h, Nat.mul_zero, Nat.zero_add]
    exact Nat.div_eq_of_lt (by omega)

/-- Settles O49: each valve is at its default after the loop over the valves, and what follows moves none. -/
theorem valvesTakeTheirDefaults : Obligations.ValvesTakeTheirDefaults := by
  unfold Obligations.ValvesTakeTheirDefaults
  intro s h
  refine .next (t := doFieldResetRelease s) rfl fun n hn => ?_
  obtain ⟨v, hv⟩ := doFieldResetRelease_valve h hn
  constructor
  · intro d hd
    simp [hv, Valve.atDefault, hd, Tab.get_of_find hd]
  · intro hd
    have hcode : vlpCode (doFieldResetRelease s) n = 0 := vlpCode_dark (by simp [hv, Valve.atDefault, hd])
    have hpor : (doFieldResetRelease s).keep.por = s.keep.por := (doFieldResetRelease_foot s).same .por rfl
    exact ⟨hcode, fun hp => by simp [vlpOut, hpor, hp, hcode]⟩

end Sys2Proof.Machine
end

section
/-! Laws of a pump's loops and starts, and the statement about the pumps (R207 to R213). -/

namespace Sys2Proof.Machine

/-! ## The current loop (R208, R209) -/

theorem inDir_length {l : List Int} (h : l.length = 3) (r : Bytes) : (inDir r l).length = 3 := by
  unfold inDir
  split
  · rfl
  · exact h

/-- A high-side pulse leaves room for the two dead times. -/
theorem highPulse_le (hz dead d : Nat) : highPulse hz dead d ≤ periodSteps hz - 2 * deadSteps dead := by
  unfold highPulse
  extract_lets m d'
  have hd : d' ≤ m := by
    unfold d'
    split
    · exact Nat.zero_le m
    · exact Nat.le_of_lt_succ (Nat.mod_lt _ (Nat.succ_pos m))
  split
  · exact Nat.zero_le m
  · exact hd

section
variable (now : Nat) (r : Bytes) (p : Pump)

theorem Pump.currents_duty_length : (p.currents now r).duty.length = 3 := by
  simp [Pump.currents, inDir_length]

theorem Pump.currents_duty_le : ∀ d ∈ (p.currents now r).duty, d ≤ periodSteps p.hz - 2 * deadSteps p.dead := by
  intro d hd
  obtain ⟨x, -, rfl⟩ := List.mem_map.mp hd
  exact highPulse_le ..

/-! ## The speed loop (R208, R211) -/

@[simp] theorem Pump.watch_speed : (p.watch now r).speed = p.speed := rfl
@[simp] theorem Pump.watch_cmd : (p.watch now r).cmd = p.cmd := rfl

@[simp] theorem Pump.loop_speed : (p.loop r).speed = p.speed := by
  unfold Pump.loop
  split
  · rfl
  · extract_lets c
    split <;> rfl

variable {p r}

/-- A driven pump whose target is 1 % of MAX_RPM or more ramps. -/
theorem Pump.loop_cmd (hdriven : p.driven = true) (halign : p.alignTo = none) (htarget : maxU r ≤ 100 * p.target) :
    (p.loop r).cmd =
      rampStep (bandsU r) (fld r 10 2) p.cmd (heldAt p.fw p.floor p.cmd p.target (highEdge (bandsU r))) := by
  simp [Pump.loop, hdriven, halign, Nat.not_lt.mpr htarget]

end

/-! ## Starts (R211, R213) -/

/-- A pump with a new target. -/
def Pump.aimed (t : Nat) (p : Pump) : Pump := { p with target := t }

/-- A pump that spins up, with its encoder's alignment where that is due. -/
def Pump.started (now : Nat) (enc : Bool) (st : PumpSt) (p : Pump) : Pump :=
  { p with st := st, edgeFrom := now + 10, retryAt := none, alignTo := if enc && !p.aligned then some (now + 250000) else none }

/-- Only a stopped pump with a target of 1 % of MAX_RPM or more spins up. -/
theorem pumpOf_setTarget (n t : Nat) (st : PumpSt) (s : State) : pumpOf (setTarget n t st s) n =
    if (pumpOf s n).st = .stopped ∧ maxU (pRec s n) ≤ 100 * t ∧ fieldOn s = true then
      ((pumpOf s n).aimed t).started s.now (fld (pRec s n) 1 1 == 1) st
    else (pumpOf s n).aimed t := by
  unfold setTarget
  extract_lets r u
  have hu : pumpOf u n = (pumpOf s n).aimed t := pumpOf_onPump_same ..
  have hst : (pumpOf u n).st = (pumpOf s n).st := by rw [hu, Pump.aimed]
  have hfield : fieldOn u = fieldOn s := fieldOn_onPump ..
  simp only [hst, hfield, r, Bool.and_eq_true, beq_iff_eq, decide_eq_true_eq, and_assoc]
  split
  · rw [startPump, pumpOf_onPump_same, hu]
    rfl
  · exact hu

/-- A restarted pump keeps its target, and runs where that is 1 % of MAX_RPM or more. -/
theorem restartPump_pump {n : Nat} {s : State} (hfired : s.drv.fired = false) :
    (pumpOf (restartPump n s) n).retryAt = none ∧ (pumpOf (restartPump n s) n).target = (pumpOf s n).target ∧
    (pumpOf (restartPump n s) n).st =
      if maxU (pRec s n) ≤ 100 * (pumpOf s n).target ∧ fieldOn s = true then .running else .stopped := by
  unfold restartPump
  extract_lets t u
  have hu : pumpOf u n = { pumpOf s n with st := .stopped, retryAt := none } := pumpOf_onPump_same ..
  have hst : u.drv.fired = false := hfired
  rw [pumpOf_setTarget, pumpOf_event, hu, pRec_event, fieldOn_event, hst]
  simp only [u, pRec_onPump, fieldOn_onPump, true_and]
  split <;> exact ⟨rfl, rfl, rfl⟩

/-! ## Faults (R212, R213) -/

theorem PumpRuns.reach {n : Nat} {s : State} (h : PumpRuns n s) (d : Nat) : PumpRuns n (reach d s) := by
  obtain ⟨hfield, hused, hlive, hnone⟩ := h
  exact ⟨by rwa [fieldOn_reach], by rwa [pumpOf_reach], by rwa [pumpOf_reach], by rwa [belowOf, reach_drv]⟩

/-- A fault at a time that has been reached. -/
theorem pumpFault_reach {n f d : Nat} {s : State} (h : PumpRuns n s) :
    d ≤ (pumpFault n f (reach d s)).now ∧ PumpFaulted n f s (pumpFault n f (reach d s)) := by
  refine ⟨?_, (pumpFault_faulted (h.reach d) f).congr (by rw [pumpOf_reach])⟩
  rw [pumpFault_now, reach_now]
  exact Nat.le_max_right ..

/-! ## The statement -/

section
variable {n : Fin 4} {s : State}

theorem pumpCurrentLoop_completes (hf : fieldOn s = true) (hdriven : (pumpOf s n.val).driven = true) (rotor : Nat) :
    Runs (.pumpCurrentLoop ⟨n, rotor⟩) s fun t =>
      (pumpOf s n.val).edgeFrom ≤ t.now ∧ (pumpOf t n.val).rotor = rotor ∧
      (pumpOf t n.val) = ({ pumpOf s n.val with
        rotor := rotor, rotorAt := if (pumpOf s n.val).rotor == rotor then (pumpOf s n.val).rotorAt else t.now } : Pump).currents
          t.now (pRec s n.val) ∧
      (pumpOf t n.val).duty.length = 3 ∧
      ∀ d ∈ (pumpOf t n.val).duty,
        d ≤ periodSteps (pumpOf s n.val).hz - 2 * deadSteps (pumpOf s n.val).dead := by
  refine .next (t := doPumpCurrentLoop n.val rotor s) rfl ?_
  rw [doPumpCurrentLoop, if_neg (by simp [hf, hdriven])]
  simp only [pumpOf_onPump_same, pumpOf_count, pumpOf_reach, pRec_count, pRec_reach, onPump_now, count_now, reach_now]
  exact ⟨Nat.le_max_right .., rfl, trivial, Pump.currents_duty_length .., Pump.currents_duty_le _ _ _⟩

theorem pumpSpeedLoop_completes (hf : fieldOn s = true) (hrec : fld (pRec s n.val) 0 1 ≠ 0) (speed : Int) :
    Runs (.pumpSpeedLoop n speed) s fun t =>
      (pumpOf t n.val).speed = (if 100 * speed.natAbs < fld (pRec s n.val) 8 2 then 0 else speed) ∧
      ((pumpOf s n.val).driven = true → (pumpOf s n.val).alignTo = none → maxU (pRec s n.val) ≤ 100 * (pumpOf s n.val).target →
        (pumpOf t n.val).cmd = rampStep (bandsU (pRec s n.val)) (fld (pRec s n.val) 10 2) (pumpOf s n.val).cmd
          (heldAt (pumpOf s n.val).fw (pumpOf s n.val).floor (pumpOf s n.val).cmd (pumpOf s n.val).target
            (highEdge (bandsU (pRec s n.val))))) := by
  refine .next (t := doPumpSpeedLoop n.val speed s) rfl ?_
  rw [doPumpSpeedLoop, if_neg (by simp [hf, hrec])]
  simp only [pumpOf_onPump_same, Pump.watch_speed, Pump.loop_speed, Pump.watch_cmd, true_and]
  intro hdriven halign htarget
  rw [Pump.loop_cmd]
  · simpa [Pump.driven] using hdriven
  · exact halign
  · exact htarget

theorem pwmParamApply_completes (hf : fieldOn s = true) (hrec : fld (pRec s n.val) 0 1 ≠ 0) :
    Runs (.pwmParamApply n) s fun t =>
      (pumpOf t n.val).hz = fld (pRec s n.val) 4 2 ∧ (pumpOf t n.val).dead = fld (pRec s n.val) 6 2 := by
  refine .next (t := doPwmParamApply n.val s) rfl ?_
  unfold doPwmParamApply
  extract_lets r p u
  split
  next hsame => simpa [hf, hrec, p, r] using hsame
  next =>
    rw [pumpOf_onPump_same]
    exact ⟨rfl, rfl⟩

theorem pumpRetryRestart_completes {d : Nat} (hst : (pumpOf s n.val).st = .retry) (hat : (pumpOf s n.val).retryAt = some d)
    (hwaits : restartWaits n.val s = false) (hrun : running s = false) (hfired : s.drv.fired = false) :
    Runs (.pumpRetryRestart n) s fun t =>
      d ≤ t.now ∧ (pumpOf t n.val).retryAt = none ∧ (pumpOf t n.val).target = (pumpOf s n.val).target ∧
      (pumpOf t n.val).st =
        (if maxU (pRec s n.val) ≤ 100 * (pumpOf s n.val).target ∧ fieldOn s = true then .running else .stopped) := by
  have hstill : running (reach d s) = false := (running_congr (reach_pwr ..) (reach_boot ..)).trans hrun
  have heq : doPumpRetryRestart n.val s = restartPump n.val (reach d s) := by
    simp [doPumpRetryRestart, hat, hst, hwaits, askRestart, hstill]
  have hpump := restartPump_pump (n := n.val) (s := reach d s) (by rwa [reach_drv])
  rw [pumpOf_reach, pRec_reach, fieldOn_reach] at hpump
  refine .next (t := doPumpRetryRestart n.val s) rfl ?_
  rw [heq]
  refine ⟨?_, hpump⟩
  rw [(restartPump_foot ..).same .now rfl, reach_now]
  exact Nat.le_max_right ..

end

/-- Settles O47: each row by its lemma, and each fault by what `pumpFault` leaves once its time is reached. -/
theorem pumpCommandsComplete : Obligations.PumpCommandsComplete := by
  unfold Obligations.PumpCommandsComplete
  refine ⟨fun s n rotor hf hdriven => pumpCurrentLoop_completes hf hdriven rotor,
    fun s n speed hf hrec => pumpSpeedLoop_completes hf hrec speed, ?align,
    fun s n hf hrec => pwmParamApply_completes hf hrec, fun s n h => .next rfl (pumpFault_faulted h 0), ?stall,
    fun s n h => .next rfl (pumpFault_faulted h 3), ?overspeed,
    fun s n d hst hat hwaits hrun hfired => pumpRetryRestart_completes hst hat hwaits hrun hfired⟩
  case align =>
    intro s n d hd
    refine .next (t := doEncoderAlignDone n.val s) rfl ?_
    simp only [doEncoderAlignDone, hd, pumpOf_onPump_same, pumpOf_reach, onPump_now, reach_now, and_self, and_true]
    exact Nat.le_max_right ..
  case stall =>
    intro s n d h hd
    refine .next (t := doPumpStall n.val s) rfl ?_
    simp only [doPumpStall, hd]
    exact pumpFault_reach h
  case overspeed =>
    intro s n d h hd
    refine .next (t := doPumpOverspeed n.val s) rfl ?_
    simp only [doPumpOverspeed, hd]
    exact pumpFault_reach h

end Sys2Proof.Machine
end

section
/-! Laws of the 1 ms step, of floors reported late and of below-floor leases (R215, R217 to R224). -/

namespace Sys2Proof.Machine

/-! ## What no element is part of -/

/-- The drive engine but for its pumps, fans and valves. -/
def Drive.still (d : Drive) : Drive := { d with pumps := [], fans := [], valves := [] }

/-- A part of the drive engine that is not an element. -/
theorem Drive.part_of_still {d e : Drive} (h : e.still = d.still) {α : Type} (p : Drive → α) (hp : ∀ d, p d.still = p d) :
    p e = p d := by rw [← hp e, h, hp]

section
variable (n : Nat) (s : State)
@[simp] theorem onPump_still (f : Pump → Pump) : (onPump n f s).drv.still = s.drv.still := rfl
@[simp] theorem onFan_still (f : Fan → Fan) : (onFan n f s).drv.still = s.drv.still := rfl
@[simp] theorem onValve_still (f : Valve → Valve) : (onValve n f s).drv.still = s.drv.still := rfl
@[simp] theorem onPump_table (f : Pump → Pump) : (onPump n f s).drv.table = s.drv.table := rfl

@[simp] theorem setTarget_still (t : Nat) (st : PumpSt) : (setTarget n t st s).drv.still = s.drv.still :=
  setTarget_view (view := fun u => u.drv.still) (fun _ _ _ => rfl) ..

@[simp] theorem setFloors_still : (setFloors s).drv.still = s.drv.still :=
  setFloors_view (view := fun u => u.drv.still) (fun _ _ _ => rfl) (fun _ _ _ => rfl) s

@[simp] theorem seekFloors_still : (seekFloors s).drv.still = s.drv.still :=
  seekFloors_view (view := fun u => u.drv.still) (fun _ _ _ => rfl) (fun _ _ _ => rfl) s

@[simp] theorem slewAll_still : (slewAll s).drv.still = s.drv.still := by
  unfold slewAll
  extract_lets u
  have hu : u.drv.still = s.drv.still :=
    foldl_view (view := fun u => u.drv.still) (fun u n => by dsimp only; split <;> simp) _ s
  exact (foldl_view (view := fun u => u.drv.still) (fun u n => by dsimp only; split <;> simp) _ u).trans hu

@[simp] theorem watchAll_still : (watchAll s).drv.still = s.drv.still := by
  unfold watchAll
  extract_lets now u
  have hu : u.drv.still = s.drv.still := foldl_view (view := fun u => u.drv.still) (fun u n => onPump_still ..) _ s
  exact (foldl_view (view := fun u => u.drv.still) (fun u n => onFan_still ..) _ u).trans hu

end

/-! ## The 1 ms step (R219) -/

/-- The drive engine but for the failures of its control sensors. -/
def Drive.unsensed (d : Drive) : Drive := { d with badAt := [], failed := [] }

theorem senseFail_unsensed (i : Nat) (s : State) : (senseFail i s).drv.unsensed = s.drv.unsensed := by
  unfold senseFail
  dsimp only
  split
  · split <;> simp [Drive.unsensed]
  · split <;> simp [Drive.unsensed]

/-- A change of level is reported to the planner, and changes nothing else of the drive engine. -/
theorem reportLevel_drv (old : Nat) (s : State) : ∃ m, (reportLevel old s).drv = { s.drv with moved := m } := by
  unfold reportLevel
  extract_lets new
  split
  · exact ⟨s.drv.moved, rfl⟩
  · exact ⟨true, (count_drv ..).trans (event_drv ..)⟩

theorem moveLevel_drv (s : State) : ∃ m, (moveLevel s).drv =
    { s.drv with temp := controlTemp s, level := nextLevel (tbl s) (controlTemp s) s.drv.level, moved := m } :=
  reportLevel_drv ..

/-- The planner takes note of a change of level. -/
theorem replan_drv (s : State) : (replan s).drv = { s.drv with moved := false } := by
  unfold replan
  split
  next hm => rw [← (by simpa using hm : s.drv.moved = false)]
  next =>
    extract_lets u on
    split
    · split
      · rfl
      · exact count_drv ..
    · rfl

theorem hwTableStep_completes {s : State} (hf : fieldOn s = true) : Runs .hwTableStep s fun t =>
    s.drv.stepAt + 1000 ≤ t.now ∧ t.drv.stepAt = t.now ∧ t.drv.table = s.drv.table ∧
    t.drv.level = nextLevel (tbl s) t.drv.temp s.drv.level := by
  refine .next (t := replan (doHwTableStep s)) rfl ?_
  rw [replan_drv, (replan_foot _).same .now rfl, doHwTableStep, if_neg (by simp [hf])]
  extract_lets u now v w x
  have hsense : Foot [.out, .keep, .host, .log, .pmc, .spn, .drv] v w :=
    Foot.foldl .refl fun _ _ h => h.then (senseFail_foot ..) rfl
  have hnow : (watchAll (slewAll x)).now = now :=
    calc (watchAll (slewAll x)).now
        = (slewAll x).now := (watchAll_foot _).same .now rfl
      _ = x.now := (slewAll_foot _).same .now rfl
      _ = (setFloors (moveLevel w)).now := (seekFloors_foot _).same .now rfl
      _ = (moveLevel w).now := (setFloors_foot _).same .now rfl
      _ = w.now := (moveLevel_foot _).same .now rfl
      _ = v.now := hsense.same .now rfl
  have hv : v.drv = { s.drv with stepAt := now } := by
    rw [show v.drv = { u.drv with stepAt := now } from rfl, reach_drv]
  have hw : w.drv.unsensed = v.drv.unsensed :=
    foldl_view (view := fun u => u.drv.unsensed) (fun u i => senseFail_unsensed i u) ..
  rw [hv] at hw
  have hstepAt : w.drv.stepAt = now := (congrArg Drive.stepAt hw :)
  have htable : w.drv.table = s.drv.table := (congrArg Drive.table hw :)
  have hlevel : w.drv.level = s.drv.level := (congrArg Drive.level hw :)
  obtain ⟨m, hmove⟩ := moveLevel_drv w
  have hstill : (watchAll (slewAll x)).drv.still = (moveLevel w).drv.still := by simp [x]
  rw [hmove] at hstill
  have hpart {α : Type} (p : Drive → α) (hp : ∀ d, p d.still = p d) := Drive.part_of_still hstill p hp
  dsimp only
  rw [hpart Drive.stepAt fun _ => rfl, hpart Drive.table fun _ => rfl, hpart Drive.level fun _ => rfl,
    hpart Drive.temp fun _ => rfl, hnow]
  dsimp only
  rw [tbl_congr htable, hlevel]
  refine ⟨?_, hstepAt, htable, rfl⟩
  rw [show now = max s.now (s.drv.stepAt + 1000) from reach_now ..]
  exact Nat.le_max_right ..

/-! ## Reports of a floor, a fan and a valve (R215, R217, R221) -/

@[simp] theorem reportLate_drv (e out floor : Nat) (s : State) : (reportLate e out floor s).drv = s.drv := event_drv ..
@[simp] theorem reportLate_now (e out floor : Nat) (s : State) : (reportLate e out floor s).now = s.now := event_now ..
@[simp] theorem trigger_drv (s : State) : (trigger s).drv = s.drv := (trigger_foot _).same .drv rfl
@[simp] theorem trigger_now (s : State) : (trigger s).now = s.now := (trigger_foot _).same .now rfl

theorem floorLate_pump {s : State} {n d : Nat} (hn : n < 4) (hlow : (pumpOf s n).lowAt = some d)
    (hlate : (pumpOf s n).late = false) : Runs (.floorLate n) s fun t =>
      d + 1000000 ≤ t.now ∧ (pumpOf t n).late = true ∧ (pumpOf t n).cmd = (pumpOf s n).cmd := by
  refine .next (t := doFloorLate n s) rfl ?_
  simp only [doFloorLate, floorLate, if_pos hn, hlow, hlate, Bool.false_eq_true, if_false, if_true]
  rw [pumpOf_congr ((trigger_drv _).trans (reportLate_drv ..)), pumpOf_onPump_same, pumpOf_reach, trigger_now, reportLate_now,
    onPump_now, reach_now]
  exact ⟨Nat.le_max_right .., rfl, rfl⟩

theorem floorLate_fan {s : State} {n d : Nat} (hn : n < 8) (hlow : (fanOf s n).lowAt = some d)
    (hlate : (fanOf s n).late = false) : Runs (.floorLate (4 + n)) s fun t =>
      d + 1000000 ≤ t.now ∧ (fanOf t n).late = true ∧ (fanOf t n).duty = (fanOf s n).duty := by
  refine .next (t := doFloorLate (4 + n) s) rfl ?_
  simp only [doFloorLate, floorLate, if_neg (show ¬ 4 + n < 4 by omega), if_pos (show 4 + n < 12 by omega),
    Nat.add_sub_cancel_left, hlow, hlate, Bool.false_eq_true, if_false, if_true]
  rw [fanOf_congr ((trigger_drv _).trans (reportLate_drv ..)), fanOf_onFan_same, fanOf_reach, trigger_now, reportLate_now,
    onFan_now, reach_now]
  exact ⟨Nat.le_max_right .., rfl, rfl⟩

theorem fanStall_completes {s : State} {n : Fin 8} {d : Nat} (hhot : (fanOf s n.val).hotAt = some d)
    (hstalled : (fanOf s n.val).stalled = false) : Runs (.fanStall n) s fun t =>
      d + 2000000 ≤ t.now ∧ (fanOf t n.val).stalled = true ∧ (fanOf t n.val).duty = (fanOf s n.val).duty := by
  refine .next (t := doFanStall n.val s) rfl ?_
  simp only [doFanStall, hhot, hstalled, Bool.false_eq_true, if_false]
  rw [fanOf_event, fanOf_onFan_same, fanOf_reach, event_now, onFan_now, reach_now]
  exact ⟨Nat.le_max_right .., rfl, rfl⟩

/-- LOOP_OPEN set or cleared. -/
theorem valveLoopFault_open {s : State} {v : Fin 8} {d : Nat} {set : Bool} (hat : (valveOf s v.val).openAt = some d)
    (hopn : (valveOf s v.val).opn = !set) : Runs (.valveLoopFault v true set) s fun t =>
      d + 100000 ≤ t.now ∧ (valveOf t v.val).opn = set ∧ (valveOf t v.val).pos = (valveOf s v.val).pos := by
  refine .next (t := doValveLoopFault v.val true set s) rfl ?_
  simp only [doValveLoopFault, if_true, hat, hopn, Bool.not_beq_self, Bool.false_eq_true, if_false]
  rw [valveOf_event, valveOf_onValve_same, valveOf_reach, event_now, onValve_now, reach_now]
  exact ⟨Nat.le_max_right .., rfl, rfl⟩

/-- LOOP_ERROR set or cleared. -/
theorem valveLoopFault_error {s : State} {v : Fin 8} {d : Nat} {set : Bool} (hat : (valveOf s v.val).errAt = some d)
    (herr : (valveOf s v.val).err = !set) : Runs (.valveLoopFault v false set) s fun t =>
      d + 100000 ≤ t.now ∧ (valveOf t v.val).err = set ∧ (valveOf t v.val).pos = (valveOf s v.val).pos := by
  refine .next (t := doValveLoopFault v.val false set s) rfl ?_
  simp only [doValveLoopFault, hat, herr, Bool.not_beq_self, Bool.false_eq_true, if_false]
  rw [valveOf_event, valveOf_onValve_same, valveOf_reach, event_now, onValve_now, reach_now]
  exact ⟨Nat.le_max_right .., rfl, rfl⟩

/-! ## Below-floor leases (R222 to R224) -/

theorem elem_of_belowOf {s : State} {e : Nat} {l : BelowLease} (h : belowOf s e = some l) : l.elem = e :=
  eq_of_beq (List.find?_some (p := fun x : BelowLease => x.elem == e) h)

@[simp] theorem dropBelow_leases (l : BelowLease) (result : Word) (s : State) :
    (dropBelow l result s).drv.leases = s.drv.leases.filter (·.elem != l.elem) := by
  simp [dropBelow]

/-- An element's lease that has ended is no longer live. -/
theorem belowOf_endBelow (e : Nat) (result : Word) (s : State) : belowOf (endBelow e result s) e = none := by
  unfold endBelow
  split
  next h => exact h
  next l h =>
    rw [belowOf, Drive.part_of_still ((seekFloors_still _).trans (setFloors_still _)) Drive.leases fun _ => rfl, finish0_drv,
      dropBelow_leases, elem_of_belowOf h, List.find?_eq_none]
    intro x hx
    simpa using (List.mem_filter.mp hx).2

theorem belowFloorEnd_completes {s : State} {fan : Bool} {i : Fin 8} {l : BelowLease}
    (h : belowOf s (if fan then 4 + i.val else i.val) = some l) : Runs (.belowFloorEnd fan i) s fun t =>
      l.stop ≤ t.now ∧ belowOf t (if fan then 4 + i.val else i.val) = none := by
  refine .next (t := doBelowFloorEnd fan i.val s) rfl ?_
  simp only [doBelowFloorEnd, h]
  refine ⟨?_, belowOf_endBelow ..⟩
  rw [(endBelow_foot ..).same .now rfl, reach_now]
  exact Nat.le_max_right ..

end Sys2Proof.Machine
end

section
/-! Laws of the Binder-silence watchdog, and the statement about the drive engine (R205, R215, R217, R219, R221 to R226). -/

namespace Sys2Proof.Machine

/-! ## Levels restored at the first heartbeat (R26, R79) -/

section
variable (n v e : Nat) (s : State)

@[simp] theorem limited_drv (was now_ : Bool) : (limited e was now_ s).drv = s.drv := (limited_foot ..).same .drv rfl

/-- A point moves no part of the drive engine but its element. -/
theorem pumpPoint_still : (pumpPoint n v s).drv.still = s.drv.still := by
  unfold pumpPoint
  extract_lets p r t t' lim u
  split
  · rfl
  · have hu : u.drv.still = s.drv.still := onPump_still ..
    rw [limited_drv]
    split
    · rw [onPump_still, hu]
    · rw [setTarget_still, hu]

theorem fanPoint_still : (fanPoint n v s).drv.still = s.drv.still := by
  unfold fanPoint
  extract_lets f v' t lim
  split
  · rfl
  · rw [limited_drv, onFan_still]

theorem valvePoint_still : (valvePoint n v s).drv.still = s.drv.still := by
  unfold valvePoint
  extract_lets x lim
  split
  · rfl
  · rw [limited_drv, onValve_still]

theorem localPoint_still (x : Int) : (localPoint e x s).drv.still = s.drv.still := by
  unfold localPoint
  split
  · exact pumpPoint_still ..
  · split
    · exact fanPoint_still ..
    · exact valvePoint_still ..

/-- A spin-up's leave, asked or granted, is no part of the drive engine. -/
theorem restoreElem_still (x : Int) : (restoreElem e x s).drv.still = s.drv.still := by
  unfold restoreElem
  split
  · extract_lets w ms
    split
    · rw [localPoint_still, (grantInternal_foot ..).same .drv rfl]
    · rw [(waitLeave_foot ..).same .drv rfl, (reportUnset_foot _).same .drv rfl]
  · exact localPoint_still ..

theorem restoreLevels_still : (restoreLevels s).drv.still = s.drv.still := by
  unfold restoreLevels
  split
  · rfl
  · extract_lets g x
    exact foldl_view (view := fun u => u.drv.still) (fun u p => restoreElem_still ..) _ _

end

/-! ## Heartbeats (R225, R226) -/

/-- A heartbeat noted. -/
def beaten (s : State) : State := s.onDrv fun d => { d with beat := some s.now }

@[simp] theorem beaten_drv (s : State) : (beaten s).drv = { s.drv with beat := some s.now } := rfl

/-- Where a pump stays as the watchdog's action ends: within a band at an edge of it. -/
def Pump.stays (bs : List (Nat × Nat)) (p : Pump) : Pump :=
  { p with
    fw := true, st := if p.st == .watchdog then .running else p.st,
    target := if !p.driven then p.target else if p.cmd < p.floor then highEdge bs p.cmd else nearEdge bs p.cmd }

/-- A step of the loops that leave the elements where they are. -/
def pumpStays (s : State) (n : Nat) : State := onPump n (Pump.stays (bandsU (pRec s n))) s
def fanStays (s : State) (n : Nat) : State := onFan n (fun f => { f with fw := true, target := f.duty }) s

theorem stayPut_drv (s : State) : (stayPut s).drv =
    { ((List.range 8).foldl fanStays ((List.range 4).foldl pumpStays s)).drv with fired := false } := rfl

theorem stayPut_pump {n : Nat} (hn : n < 4) (s : State) :
    pumpOf (stayPut s) n = (pumpOf s n).stays (bandsU (pRec s n)) := by
  have hother (u : State) (m : Nat) (hm : n ≠ m) : pumpOf (pumpStays u m) n = pumpOf u n := pumpOf_onPump_other hm ..
  have hloop := foldl_range_view (part := fun u => u.drv.table) (view := fun u => pumpOf u n) (g := pumpStays)
    (fun _ _ => onPump_table ..) hother hn s
  obtain ⟨u, htable, hview, h⟩ := hloop
  calc pumpOf (stayPut s) n
      = pumpOf ((List.range 8).foldl fanStays ((List.range 4).foldl pumpStays s)) n := by
        rw [pumpOf, stayPut_drv, pumpOf]
    _ = pumpOf ((List.range 4).foldl pumpStays s) n := foldl_view (view := fun u => pumpOf u n) (f := fanStays) (fun _ _ => rfl) ..
    _ = (pumpOf u n).stays (bandsU (pRec u n)) := h.trans (pumpOf_onPump_same ..)
    _ = (pumpOf s n).stays (bandsU (pRec s n)) := by rw [hview, pRec_congr htable]

theorem staysLoops_still (s : State) :
    ((List.range 8).foldl fanStays ((List.range 4).foldl pumpStays s)).drv.still = s.drv.still :=
  (foldl_view (view := fun u => u.drv.still) (fun _ _ => onFan_still ..) ..).trans
    (foldl_view (view := fun u => u.drv.still) (fun _ _ => onPump_still ..) ..)

@[simp] theorem stayPut_fired (s : State) : (stayPut s).drv.fired = false := by rw [stayPut_drv]
@[simp] theorem stayPut_beat (s : State) : (stayPut s).drv.beat = s.drv.beat := by
  rw [stayPut_drv]
  exact Drive.part_of_still (staysLoops_still s) Drive.beat fun _ => rfl

section
variable {s : State} (hr : running s = true) (hf : fieldOn s = true)
include hr hf

theorem doBinderHeartbeat_armed (hfired : s.drv.fired = false) : doBinderHeartbeat s = beaten s := by
  simp [doBinderHeartbeat, hr, hf, hfired, beaten]

theorem doBinderHeartbeat_fired (hfired : s.drv.fired = true) : doBinderHeartbeat s =
    if Config.acks s.free then stayPut (draw (beaten s)).2 else (draw (beaten s)).2 := by
  simp [doBinderHeartbeat, hr, hf, hfired, beaten, draw]
  rfl

/-- A heartbeat that does not end the watchdog's action: noted, and the levels restored where it is the first. -/
theorem heartbeat_stays (h : s.drv.fired = false ∨ Config.acks s.free = false) : ∃ u : State,
    u.drv = { s.drv with beat := some s.now } ∧ heartbeat s = if s.drv.beat.isNone then restoreLevels u else u := by
  obtain ⟨u, hu, hbeat⟩ : ∃ u : State, u.drv = { s.drv with beat := some s.now } ∧ doBinderHeartbeat s = u := by
    cases hfired : s.drv.fired with
    | false => exact ⟨beaten s, rfl, doBinderHeartbeat_armed hr hf hfired⟩
    | true =>
      have hacks := h.resolve_left (by simp [hfired])
      exact ⟨_, draw_drv _, by rw [doBinderHeartbeat_fired hr hf hfired, hacks, if_neg Bool.false_ne_true]⟩
  refine ⟨u, hu, ?_⟩
  unfold heartbeat
  rw [hbeat]
  simp [hu]

/-- The heartbeat by which firmware has acknowledged BINDER_SILENT. -/
theorem heartbeat_ends (hfired : s.drv.fired = true) (hacks : Config.acks s.free = true) :
    (heartbeat s).drv = (stayPut (draw (beaten s)).2).drv := by
  have hbeat : doBinderHeartbeat s = stayPut (draw (beaten s)).2 := by
    rw [doBinderHeartbeat_fired hr hf hfired, hacks, if_pos rfl]
  unfold heartbeat
  rw [hbeat]
  simp only [hfired, stayPut_fired, Bool.not_false, Bool.and_self, if_true]
  exact (planFrom_foot _).same .drv rfl

theorem heartbeat_beat : (heartbeat s).drv.beat = some s.now ∧
    (heartbeat s).drv.fired = (s.drv.fired && !Config.acks s.free) := by
  by_cases h : s.drv.fired = false ∨ Config.acks s.free = false
  · obtain ⟨u, hu, heq⟩ := heartbeat_stays hr hf h
    have hstill : (heartbeat s).drv.still = u.drv.still := by
      rw [heq]
      split
      · exact restoreLevels_still u
      · rfl
    rw [Drive.part_of_still hstill Drive.beat fun _ => rfl, Drive.part_of_still hstill Drive.fired fun _ => rfl, hu]
    rcases h with h | h <;> simp [h]
  · obtain ⟨hfired, hacks⟩ : s.drv.fired = true ∧ Config.acks s.free = true := by simpa using h
    simp [heartbeat_ends hr hf hfired hacks, hfired, hacks]

theorem heartbeat_pump (hfired : s.drv.fired = true) (hacks : Config.acks s.free = true) {n : Nat} (hn : n < 4) :
    pumpOf (heartbeat s) n = (pumpOf s n).stays (bandsU (pRec s n)) := by
  rw [pumpOf_congr (heartbeat_ends hr hf hfired hacks), stayPut_pump hn]
  rfl

theorem binderHeartbeat_completes : Runs .binderHeartbeat s fun t =>
    t.drv.beat = some s.now ∧ (s.drv.fired = false → t.drv.fired = false) ∧
    (s.drv.fired = true → t.drv.fired = !Config.acks s.free) ∧
    (s.drv.fired = true → Config.acks s.free = true → ∀ n < 4, (pumpOf s n).st = .watchdog → (pumpOf t n).st = .running ∧
      (pumpOf t n).target = if (pumpOf s n).cmd < (pumpOf s n).floor then highEdge (bandsU (pRec s n)) (pumpOf s n).cmd
        else nearEdge (bandsU (pRec s n)) (pumpOf s n).cmd) := by
  obtain ⟨hbeat, hend⟩ := heartbeat_beat hr hf
  refine .next (t := heartbeat s) rfl ⟨hbeat, fun h => by simp [hend, h], fun h => by simp [hend, h], ?_⟩
  intro hfired hacks n hn hst
  rw [heartbeat_pump hr hf hfired hacks hn]
  simp [Pump.stays, Pump.driven, hst]

theorem binderHeartbeat_armed (hbeat : s.drv.beat.isSome = true) : Runs .binderHeartbeat s fun t =>
    s.drv.fired = false ∨ Config.acks s.free = false → t.drv = { s.drv with beat := some s.now } := by
  refine .next (t := heartbeat s) rfl fun h => ?_
  obtain ⟨u, hu, heq⟩ := heartbeat_stays hr hf h
  rw [heq, if_neg (by simpa using Option.isSome_iff_ne_none.mp hbeat)]
  exact hu

end

/-! ## Silence (R225) -/

theorem tableMax_congr {s t : State} (h : t.drv.table = s.drv.table) (n : Nat) : tableMax t n = tableMax s n := by
  simp only [tableMax, tbl_congr h, pRec_congr h]

theorem setTarget_pump_other {m n : Nat} (h : m ≠ n) (t : Nat) (st : PumpSt) (s : State) :
    pumpOf (setTarget n t st s) m = pumpOf s m := by
  unfold setTarget
  extract_lets r u
  have hu : pumpOf u m = pumpOf s m := pumpOf_onPump_other h ..
  split
  · exact (pumpOf_onPump_other h ..).trans hu
  · exact hu

/-- A used fan at 100 %, without a point of firmware's. -/
def fanToMax (s : State) (n : Nat) : State :=
  if (fanOf s n).on then onFan n (fun f => { f with duty := 1000000, target := 1000000, fw := false }) s else s

/-- A pump towards the table maximum: driven under WATCHDOG, or once its protection lets it start. -/
def pumpToMax (s : State) (n : Nat) : State :=
  let p := pumpOf s n
  let t := tableMax s n
  if p.st == .running then onPump n (fun p => { p with st := .watchdog, target := t, fw := false }) s
  else if p.st == .stopped then setTarget n t .watchdog (onPump n (fun p => { p with fw := false }) s)
  else if p.st == .disabled then s
  else onPump n (fun p => { p with target := t, fw := false }) s

theorem silenceActs_drv {s : State} (h : s.drv.leases = []) (start : Nat) : (silenceActs start s).drv =
    ((List.range 4).foldl pumpToMax ((List.range 8).foldl fanToMax (s.onDrv fun d => { d with fired := true }))).drv := by
  unfold silenceActs
  rw [h]
  exact event_drv ..

section
variable {β : Type} {view : State → β} (hfan : ∀ n f u, view (onFan n f u) = view u)
include hfan

theorem fanToMax_view (s : State) (n : Nat) : view (fanToMax s n) = view s := by
  unfold fanToMax
  split
  · exact hfan ..
  · rfl

theorem fansToMax_view (s : State) : view ((List.range 8).foldl fanToMax s) = view s :=
  foldl_view (fanToMax_view hfan) _ s

end

section
variable {β : Type} {view : State → β} (hpump : ∀ n f u, view (onPump n f u) = view u)
include hpump

theorem pumpToMax_view (s : State) (n : Nat) : view (pumpToMax s n) = view s := by
  unfold pumpToMax
  extract_lets p t
  split
  · exact hpump ..
  · split
    · exact (setTarget_view hpump ..).trans (hpump ..)
    · split
      · rfl
      · exact hpump ..

theorem pumpsToMax_view (s : State) : view ((List.range 4).foldl pumpToMax s) = view s :=
  foldl_view (pumpToMax_view hpump) _ s

end

theorem pumpToMax_other {m n : Nat} (h : m ≠ n) (s : State) : pumpOf (pumpToMax s n) m = pumpOf s m := by
  unfold pumpToMax
  extract_lets p t
  split
  · exact pumpOf_onPump_other h ..
  · split
    · exact (setTarget_pump_other h ..).trans (pumpOf_onPump_other h ..)
    · split
      · rfl
      · exact pumpOf_onPump_other h ..

theorem pumpToMax_running {n : Nat} {s : State} (h : (pumpOf s n).st = .running) :
    (pumpOf (pumpToMax s n) n).st = .watchdog ∧ (pumpOf (pumpToMax s n) n).target = tableMax s n := by
  simp [pumpToMax, h]

theorem fansToMax_fan {n : Nat} (hn : n < 8) {s : State} (hon : (fanOf s n).on = true) :
    (fanOf ((List.range 8).foldl fanToMax s) n).duty = 1000000 := by
  have hother (u : State) (m : Nat) (hm : n ≠ m) : fanOf (fanToMax u m) n = fanOf u n := by
    unfold fanToMax
    split
    · exact fanOf_onFan_other hm ..
    · rfl
  obtain ⟨u, -, hview, h⟩ := foldl_range_view (part := fun _ => ()) (view := fun u => fanOf u n) (fun _ _ => rfl) hother hn s
  have hon' : (fanOf u n).on = true := (congrArg Fan.on hview).trans hon
  rw [h, fanToMax, if_pos hon', fanOf_onFan_same]

theorem pumpsToMax_running {n : Nat} (hn : n < 4) {s : State} (hst : (pumpOf s n).st = .running) :
    (pumpOf ((List.range 4).foldl pumpToMax s) n).st = .watchdog ∧
    (pumpOf ((List.range 4).foldl pumpToMax s) n).target = tableMax s n := by
  obtain ⟨u, htable, hview, h⟩ := foldl_range_view (part := fun u => u.drv.table) (view := fun u => pumpOf u n)
    (pumpToMax_view (view := fun u => u.drv.table) fun _ _ _ => rfl) (fun _ _ hm => pumpToMax_other hm _) hn s
  have hu : (pumpOf u n).st = .running := (congrArg Pump.st hview).trans hst
  rw [h, ← tableMax_congr htable]
  exact pumpToMax_running hu

theorem binderSilent_completes {s : State} {d : Nat} (hbeat : s.drv.beat = some d) (hfired : s.drv.fired = false)
    (hleases : s.drv.leases = []) : Runs .binderSilent s fun t =>
      d + 500000 ≤ t.now ∧ t.drv.fired = true ∧ (∀ n < 8, (fanOf s n).on = true → (fanOf t n).duty = 1000000) ∧
      (∀ n < 4, (pumpOf s n).st = .running → (pumpOf t n).st = .watchdog ∧ (pumpOf t n).target = tableMax s n) := by
  refine .next (t := doBinderSilent s) rfl ?_
  have hacts : doBinderSilent s = silenceActs d (reach (d + 500000) s) := by simp [doBinderSilent, hbeat, hfired]
  have hdrv := silenceActs_drv (s := reach (d + 500000) s) (by rwa [reach_drv]) d
  rw [← hacts] at hdrv
  generalize hu : (reach (d + 500000) s).onDrv (fun d => { d with fired := true }) = u at hdrv
  have hudrv : u.drv = { s.drv with fired := true } := by rw [← hu, State.onDrv_drv, reach_drv]
  have hpump (n : Nat) : pumpOf u n = pumpOf s n := by rw [pumpOf, hudrv, pumpOf]
  have hfan (n : Nat) : fanOf u n = fanOf s n := by rw [fanOf, hudrv, fanOf]
  have hmax (n : Nat) : tableMax ((List.range 8).foldl fanToMax u) n = tableMax s n := by
    refine tableMax_congr ?_ n
    rw [fansToMax_view (view := fun u => u.drv.table) fun _ _ _ => rfl, hudrv]
  refine ⟨?_, ?_, fun n hn hon => ?_, fun n hn hst => ?_⟩
  · rw [hacts, (silenceActs_foot ..).same .now rfl, reach_now]
    exact Nat.le_max_right ..
  · rw [hdrv, pumpsToMax_view (view := fun u => u.drv.fired) fun _ _ _ => rfl,
      fansToMax_view (view := fun u => u.drv.fired) fun _ _ _ => rfl, hudrv]
  · rw [fanOf_congr hdrv, pumpsToMax_view (view := fun u => fanOf u n) fun _ _ _ => rfl]
    exact fansToMax_fan hn (by rwa [hfan])
  · rw [pumpOf_congr hdrv, ← hmax]
    refine pumpsToMax_running hn ?_
    rwa [fansToMax_view (view := fun u => pumpOf u n) fun _ _ _ => rfl, hpump]

/-- Settles O48: each row by its lemma. -/
theorem driveCommandsComplete : Obligations.DriveCommandsComplete := by
  unfold Obligations.DriveCommandsComplete
  exact ⟨fun s hf => hwTableStep_completes hf, fun s n d hn hlow hlate => floorLate_pump hn hlow hlate,
    fun s n d hn hlow hlate => floorLate_fan hn hlow hlate, fun s n d hhot hstalled => fanStall_completes hhot hstalled,
    fun s v d set hat hopn => valveLoopFault_open hat hopn, fun s v d set hat herr => valveLoopFault_error hat herr,
    fun s fan i l h => belowFloorEnd_completes h, fun s hr hf => binderHeartbeat_completes hr hf,
    fun s hr hf hbeat => binderHeartbeat_armed hr hf hbeat,
    fun s d hbeat hfired hleases => binderSilent_completes hbeat hfired hleases⟩

end Sys2Proof.Machine
end

section
/-! Laws of a CAN channel: what it reads as after a change and through the shared operations, and what frames, recovery and
wake pulses make of it (R234 to R239, R242, R248). -/

namespace Sys2Proof.Machine

/-! ## A channel read after a change -/

/-- A channel is seen through the CAN controllers' table alone. -/
theorem canOf_congr {s t : State} (h : t.can = s.can) (c : Nat) : canOf t c = canOf s c := by rw [canOf, canOf, h]

/-- A channel's configuration is seen through the keep tables alone. -/
theorem cfgOf_congr {s t : State} (h : t.kt = s.kt) (c : Nat) : cfgOf t c = cfgOf s c := by rw [cfgOf, cfgOf, h]

section
variable (c k t ev : Nat) (o : Output) (f : CanCh → CanCh) (s : State)
@[simp] theorem canOf_reach : canOf (reach t s) c = canOf s c := canOf_congr (reach_can ..) c
@[simp] theorem canOf_count : canOf (count ev s) c = canOf s c := canOf_congr (count_can ..) c
@[simp] theorem canOf_emit : canOf (emit o s) c = canOf s c := rfl
@[simp] theorem canOf_watchPair : canOf (watchPair s) c = canOf s c := rfl
@[simp] theorem canOf_event (code : Half) (sev : Nat) (data : List Nat) (cw : DWord) (ref : Nat) :
    canOf (event code sev data cw ref s) c = canOf s c := canOf_congr (event_can ..) c
@[simp] theorem onCh_now : (onCh k f s).now = s.now := rfl
@[simp] theorem watchPair_now : (watchPair s).now = s.now := rfl
@[simp] theorem cfgOf_onCh : cfgOf (onCh k f s) c = cfgOf s c := rfl
@[simp] theorem cfgOf_watchPair : cfgOf (watchPair s) c = cfgOf s c := rfl
@[simp] theorem cfgOf_reach : cfgOf (reach t s) c = cfgOf s c := cfgOf_congr (reach_kt ..) c
@[simp] theorem cfgOf_count : cfgOf (count ev s) c = cfgOf s c := cfgOf_congr (count_kt ..) c
end

/-- The CAN controllers but for their channels, and since when the pair channels are DOWN. -/
def Can.still (x : Can) : Can := { x with ch := [], pairAt := none }

/-- A part of the CAN controllers that is no channel's. -/
theorem Can.part_of_still {x y : Can} (h : y.still = x.still) {α : Type} (p : Can → α) (hp : ∀ x, p x.still = p x) :
    p y = p x := by rw [← hp y, h, hp]

/-- The timestamp counter is read from the time and the counter's loads (R236). -/
theorem canStamp_congr {s t : State} (hnow : t.now = s.now) (hcan : t.can.still = s.can.still) (ago : Nat) :
    canStamp ago t = canStamp ago s := by
  have hpart (p : Can → Nat) (hp : ∀ x, p x.still = p x) : p t.can = p s.can := Can.part_of_still hcan p hp
  rw [canStamp, canStamp, hnow, hpart Can.base fun _ => rfl, hpart Can.baseAt fun _ => rfl, hpart Can.prev fun _ => rfl,
    hpart Can.prevAt fun _ => rfl]

/-! ## Frames received (R234, R236, R237) -/

/-- A channel that heard a frame: counted, and no longer DOWN (Table 10-4). -/
def frameHeard (c : Nat) (s : State) : State := watchPair (count (0x301 + 8 * c) (onCh c CanCh.alive s))

@[simp] theorem canOf_frameHeard (c : Nat) (s : State) : canOf (frameHeard c s) c = (canOf s c).alive := by simp [frameHeard]
@[simp] theorem cfgOf_frameHeard (c k : Nat) (s : State) : cfgOf (frameHeard c s) k = cfgOf s k := by simp [frameHeard]
@[simp] theorem frameHeard_now (c : Nat) (s : State) : (frameHeard c s).now = s.now := by simp [frameHeard]
@[simp] theorem canStamp_frameHeard (ago c : Nat) (s : State) : canStamp ago (frameHeard c s) = canStamp ago s := by
  refine canStamp_congr (frameHeard_now c s) ?_ ago
  calc (frameHeard c s).can.still = (count (0x301 + 8 * c) (onCh c CanCh.alive s)).can.still := rfl
    _ = (onCh c CanCh.alive s).can.still := by rw [count_can]
    _ = s.can.still := rfl

theorem acting_frameHeard (c : Nat) (s : State) : acting (frameHeard c s) = acting s := by
  have hpwr : (frameHeard c s).pwr = s.pwr := count_pwr ..
  have hboot : (frameHeard c s).boot = s.boot := count_boot ..
  have hpair : (frameHeard c s).pair = s.pair := count_pair ..
  rw [acting, acting, running_congr hpwr hboot, hpair]

/-- A user frame goes into an object that holds none, on a channel whose entries are objects. -/
theorem takeFrame_object {c : Nat} {e : Bytes} {s : State} (hobj : canFlag (cfgOf s c).1 4 = false)
    (hfree : (canOf s c).rx.any (fun x => x.obj == fld e 0 1) = false) (ago : Nat) (f : CanFrame) :
    canOf (takeFrame c ago e f s) c = { canOf s c with
      rx := (canOf s c).rx ++ [{ stamp := canStamp ago s, obj := fld e 0 1, fifo := fld e 2 1, frame := f }] } := by
  simp only [takeFrame, hobj, hfree, Bool.false_eq_true, if_false, canOf_onCh_same]

theorem doCanFrameRx_taken {c : Nat} {f : CanFrame} {e : Bytes} {s : State} (hf : fieldOn s = true)
    (hh : (canOf s c).hears = true) (hr : f.rtr = false) (hp : (isProfile s c && isProfileFrame f) = false)
    (he : lowestTaker f ((List.range (memCount (cfgOf s c).2)).map (memEntry (cfgOf s c).2)) = some e) (ago : Nat) :
    doCanFrameRx c ago f s = takeFrame c ago e f (frameHeard c s) := by
  have hheard : watchPair (count (0x301 + 8 * c) (onCh c CanCh.alive s)) = frameHeard c s := rfl
  have hprofile : isProfile (frameHeard c s) c = isProfile s c := by rw [isProfile, isProfile, cfgOf_frameHeard]
  simp [doCanFrameRx, hf, hh, hheard, hr, hprofile, hp, he]

theorem canFrameRx_completes {c ago : Nat} {f : CanFrame} {e : Bytes} {s : State} (hf : fieldOn s = true)
    (hh : (canOf s c).hears = true) (hr : f.rtr = false) (hp : (isProfile s c && isProfileFrame f) = false)
    (hobj : canFlag (cfgOf s c).1 4 = false)
    (he : lowestTaker f ((List.range (memCount (cfgOf s c).2)).map (memEntry (cfgOf s c).2)) = some e)
    (hfree : (canOf s c).rx.any (fun x => x.obj == fld e 0 1) = false) :
    (canOf (doCanFrameRx c ago f s) c).rx =
      (canOf s c).rx ++ [{ stamp := canStamp ago s, obj := fld e 0 1, fifo := fld e 2 1, frame := f }] := by
  rw [doCanFrameRx_taken hf hh hr hp he, takeFrame_object (by simpa using hobj) (by simpa [CanCh.alive] using hfree)]
  simp [CanCh.alive]

/-- A reference message below this channel's identifier has an acting Lead's channel yield. -/
theorem doReferenceMessageRx_yields {c : Nat} {id : BitVec 29} {s : State} (ha : acting s = true)
    (hm : canFlag (cfgOf s c).1 5 = true) (hh : (canOf s c).hears = true)
    (hid : id.toNat / 2 ^ 18 < fld (cfgOf s c).1 16 2) (n : Nat) :
    canOf (doReferenceMessageRx c id n s) c = { (canOf s c).alive with
      yieldAt := some s.now, tx := (canOf s c).tx.filter (fun f => f.key != 201) } := by
  have hrun : running s = true := by simp only [acting, Bool.and_eq_true] at ha; exact ha.1
  have hheard : watchPair (count (0x301 + 8 * c) (onCh c CanCh.alive s)) = frameHeard c s := rfl
  simp only [doReferenceMessageRx, hrun, hm, hh, hheard, acting_frameHeard, ha, hid, Bool.not_true, Bool.or_self,
    Bool.false_eq_true, if_false, if_true]
  split
  · simp [CanCh.alive]
  · simp [CanCh.alive]

/-! ## Frames sent (R232, R235, R236) -/

/-- A channel that has sent a frame at a stamp: the frame leaves its slot, and the channel is DOWN no longer. -/
def CanCh.sent (stamp : Nat) (f : TxFrame) (x : CanCh) : CanCh :=
  { x.alive with tx := x.tx.filter (fun t => t.key != f.key), txStamp := stamp,
                 refMark := if f.key == 201 then stamp else x.refMark }

/-- A frame sent, whose start of frame was `ago` µs ago. -/
def frameSent (c ago : Nat) (f : TxFrame) (s : State) : State :=
  watchPair (count (0x300 + 8 * c) (emit (.can c f.frame) (onCh c (CanCh.sent (canStamp ago s) f) s)))

@[simp] theorem canOf_frameSent (c ago : Nat) (f : TxFrame) (s : State) :
    canOf (frameSent c ago f s) c = (canOf s c).sent (canStamp ago s) f := by simp [frameSent]

theorem frameSent_out (c ago : Nat) (f : TxFrame) (s : State) : .can c f.frame ∈ (frameSent c ago f s).out := by
  have hemit : Output.can c f.frame ∈ (emit (.can c f.frame) (onCh c (CanCh.sent (canStamp ago s) f) s)).out :=
    List.mem_cons_self
  exact (watchPair_foot _).sent.mem ((count_foot ..).sent.mem hemit)

theorem doCanFrameTxDone_eq {c : Nat} {f : TxFrame} {s : State} (hf : fieldOn s = true)
    (hfirst : firstTx ((canOf s c).tx.filter (mayTx s c)) = some f) (hbus : (canOf s c).busOff = false)
    (hst : (canOf s c).st = .active ∨ (canOf s c).st = .passive ∨ (canOf s c).st = .down) (m ago : Nat) :
    doCanFrameTxDone c m ago s =
      if f.frame.fdf && f.frame.brs then measureLoop c m (frameSent c ago f s) else frameSent c ago f s := by
  have hsends : ((canOf s c).st == .active || (canOf s c).st == .passive || (canOf s c).st == .down) = true := by
    rcases hst with h | h | h <;> simp [h]
  simp only [doCanFrameTxDone, hfirst, hsends, hbus, hf, Bool.not_true, Bool.not_false, Bool.and_self, Bool.or_self,
    Bool.false_eq_true, if_false]
  rfl

/-- A measurement of the loop delay changes the figures of the delay alone (R232). -/
theorem canOf_measureLoop (c m : Nat) (s : State) :
    ∃ loop tdc, canOf (measureLoop c m s) c = { canOf s c with loop := loop, tdc := tdc } := by
  unfold measureLoop
  extract_lets w m' s1 s2
  split
  · exact ⟨_, _, rfl⟩
  · split
    · exact ⟨_, _, canOf_onCh_same ..⟩
    · exact ⟨m', (canOf s c).tdc + 1, by
        rw [canOf_count, canOf_event, canOf_onCh_same, canOf_onCh_same]⟩

theorem canFrameTxDone_completes {c m ago : Nat} {f : TxFrame} {s : State} (hf : fieldOn s = true)
    (hfirst : firstTx ((canOf s c).tx.filter (mayTx s c)) = some f) (hbus : (canOf s c).busOff = false)
    (hst : (canOf s c).st = .active ∨ (canOf s c).st = .passive ∨ (canOf s c).st = .down) :
    ∃ loop tdc, .can c f.frame ∈ (doCanFrameTxDone c m ago s).out ∧
      canOf (doCanFrameTxDone c m ago s) c = { (canOf s c).sent (canStamp ago s) f with loop := loop, tdc := tdc } ∧
      (f.frame.brs = false → loop = (canOf s c).loop) := by
  rw [doCanFrameTxDone_eq hf hfirst hbus hst]
  split
  next hswitch =>
    obtain ⟨loop, tdc, h⟩ := canOf_measureLoop c m (frameSent c ago f s)
    rw [canOf_frameSent] at h
    exact ⟨loop, tdc, (measureLoop_foot ..).sent.mem (frameSent_out ..), h, fun hb => by simp [hb] at hswitch⟩
  next => exact ⟨_, _, frameSent_out .., canOf_frameSent .., fun _ => rfl⟩

/-- A periodic entry falls due again a period later, and its frame waits in its slot. -/
theorem doCanPeriodicTx_offers {c i d : Nat} {s : State} (hd : (canOf s c).due.find i = some d) (hs : sendsUser s = true)
    (hfree : (canOf s c).tx.any (fun f => f.key == fld (memEntry (cfgOf s c).2 i) 0 1) = false) :
    doCanPeriodicTx c i s = offer c (fld (memEntry (cfgOf s c).2 i) 0 1) (entFrame (memEntry (cfgOf s c).2 i))
      (onCh c (fun x => { x with due := x.due.set i (d + 1000 * fld (memEntry (cfgOf s c).2 i) 12 2) }) (reach d s)) := by
  simp [doCanPeriodicTx, hd, hs, hfree]

theorem offer_now (c key : Nat) (f : CanFrame) (s : State) : (offer c key f s).now = s.now :=
  (offer_foot ..).same .now rfl

theorem canPeriodicTx_completes {c i d : Nat} {s : State} (hd : (canOf s c).due.find i = some d) (hs : sendsUser s = true)
    (hj : (canOf s c).joins = true)
    (hfree : (canOf s c).tx.any (fun f => f.key == fld (memEntry (cfgOf s c).2 i) 0 1) = false) :
    d ≤ (doCanPeriodicTx c i s).now ∧
    (canOf (doCanPeriodicTx c i s) c).due.find i = some (d + 1000 * fld (memEntry (cfgOf s c).2 i) 12 2) ∧
    .mk (fld (memEntry (cfgOf s c).2 i) 0 1) (entFrame (memEntry (cfgOf s c).2 i)) ∈
      (canOf (doCanPeriodicTx c i s) c).tx := by
  rw [doCanPeriodicTx_offers hd hs hfree, canOf_offer_joins (by rw [canOf_onCh_same, canOf_reach]; exact hj), offer_now]
  simp

/-! ## Basic cycles (R237) -/

/-- A frame offered leaves the figures of the basic cycle. -/
theorem offer_cycle (c key : Nat) (f : CanFrame) (s : State) : (canOf (offer c key f s) c).cycle = (canOf s c).cycle ∧
    (canOf (offer c key f s) c).cycAt = (canOf s c).cycAt := by
  cases hj : (canOf s c).joins with
  | false => rw [canOf_offer_silent hj]; exact ⟨rfl, rfl⟩
  | true => rw [canOf_offer_joins hj]; exact ⟨rfl, rfl⟩

theorem doBasicCycleStart_counts {c : Nat} {s : State} (hr : running s = true) (hm : canFlag (cfgOf s c).1 5 = true)
    (hj : (canOf s c).joins = true) :
    (canOf (doBasicCycleStart c s) c).cycle = ((canOf s c).cycle + 1) % 64 ∧
    (canOf (doBasicCycleStart c s) c).cycAt =
      nextBasic (1000 * fld (cfgOf s c).1 18 2) (s.can.base + (s.now - s.can.baseAt)) (canOf s c).cycAt := by
  simp only [doBasicCycleStart, hr, hm, hj, Bool.not_true, Bool.or_self, Bool.false_eq_true, if_false]
  split
  · simp [offer_cycle]
  · simp

theorem doTimeMasterResume_eq {c d : Nat} {s : State} (hy : (canOf s c).yieldAt = some d) : doTimeMasterResume c s =
    onCh c (fun x => { x with yieldAt := none }) (reach (d + 3000 * fld (cfgOf s c).1 18 2) s) := by
  simp [doTimeMasterResume, hy]

/-! ## Error states, bus-off and recovery (R238, R239) -/

/-- A channel in another error state: its shown state follows where it is ACTIVE or PASSIVE (Table 10-4). -/
def CanCh.turn (v : Bool) (x : CanCh) : CanCh :=
  { x with passive := v, st := if x.st = .active ∨ x.st = .passive then (if v then .passive else .active) else x.st }

theorem canOf_errorStateChange {c : Nat} {v : Bool} {s : State} (hj : (canOf s c).joins = true)
    (hbus : (canOf s c).busOff = false) (hp : (canOf s c).passive = !v) :
    canOf (doCanErrorStateChange c v s) c = (canOf s c).turn v := by
  simp [doCanErrorStateChange, hj, hbus, hp, CanCh.turn, CanCh.onBus]

/-- A channel at its first bus-off for 10 s: recovery is requested after RECOVER_MS. -/
def CanCh.wentOff (now wait : Nat) (x : CanCh) : CanCh :=
  { x with st := .down, down := true, passive := false, busOff := true, wait := wait, reqAt := some (now + 1000 * wait) }

theorem canOf_busOff {c : Nat} {s : State} (hf : fieldOn s = true) (hj : (canOf s c).joins = true)
    (hbus : (canOf s c).busOff = false) (hlast : (canOf s c).lastRec = none) :
    canOf (doCanBusOff c s) c = (canOf s c).wentOff s.now (recoverMs s c) := by
  simp only [doCanBusOff, hf, hj, hbus, hlast, Bool.not_true, Bool.or_self, Bool.false_eq_true, if_false]
  split
  · simp [CanCh.wentOff]
  · simp [CanCh.wentOff]

theorem doCanRecoveryRequest_eq {c d : Nat} {s : State} (hr : running s = true) (hreq : (canOf s c).reqAt = some d) :
    doCanRecoveryRequest c s =
      onCh c (fun x => { x with reqAt := none, recAt := some (reach d s).now }) (reach d s) := by
  simp [doCanRecoveryRequest, hreq, hr]

theorem doCanRecoveryDone_eq {c d : Nat} {s : State} (hrec : (canOf s c).recAt = some d) :
    let u := reach (d + 1408 * arbBit (fld (cfgOf s c).1 4 4) / 80) s
    doCanRecoveryDone c s = event 0x0A02 1 [c] 0 0 (onCh c (fun x => { x with
      busOff := false, recAt := none, lastRec := some u.now, st := if isProfile s c then .listen else .down,
      lisAt := u.now, heard := [] }) u) := by
  have hp (t : Nat) : isProfile (reach t s) c = isProfile s c := isProfile_congr (reach_kt ..) c
  simp [doCanRecoveryDone, hrec, hp]

theorem doCanBackoffReset_eq {c d : Nat} {s : State} (hlast : (canOf s c).lastRec = some d)
    (hbus : (canOf s c).busOff = false) : doCanBackoffReset c s =
      onCh c (fun x => { x with lastRec := none, wait := recoverMs s c }) (reach (d + 10000000) s) := by
  simp [doCanBackoffReset, hlast, hbus]

/-! ## Wake pulses (R242, R109) -/

/-- An event below severity 3 records no wake cause and leaves the keep registers. -/
theorem event_keep_minor {sev : Nat} (h : sev ≠ 3) (code : Half) (data : List Nat) (cw : DWord) (ref : Nat) (s : State) :
    (event code sev data cw ref s).keep = s.keep := by
  have hring (e : EvEntry) (u : State) : (ringEvent e u).keep = u.keep := (ringEvent_foot ..).same .keep rfl
  have hadd (f : Folio) (hf : f.sev ≠ 3) : (addFolio f s).keep = s.keep := by simp [addFolio, hf, logFolio]
  have hbreak (u : State) : reportBreak s.log sev u = u := by simp [reportBreak, breaks, h]
  rw [event, hbreak, folioEvent]
  split
  · exact hadd _ h
  · rw [hring]
    exact hadd _ h

/-- A wake cause enters the latch while it has room. -/
theorem wakeCause_wake {s : State} (h : s.keep.wake.length < 64) (code : Nat) : (wakeCause code s).keep.wake =
    s.keep.wake ++ [{ code := code, seq := s.keep.wakeSeq + 1, time := keepTime s }] := by
  unfold wakeCause
  extract_lets u
  have hu : u.keep.wake = s.keep.wake ++ [{ code := code, seq := s.keep.wakeSeq + 1, time := keepTime s }] := by
    simp [u, recordWake, h]
  split
  · exact hu
  · split
    · exact hu
    · exact hu
    · exact hu
    all_goals
      split
      · exact hu
      · exact hu

theorem canWakePulse_completes {c w : Nat} {s : State} (hon : detectorOn s c = true) (hlow : 5 ≤ w) (hhigh : w ≤ 5000)
    (hoff : s.can.wakeOff.get 0 c ≤ s.now) (hroom : s.keep.wake.length < 64) :
    (doCanWakePulse c w s).can.wakeOff.get 0 c = s.now + 10000 ∧
    (doCanWakePulse c w s).keep.wake =
      s.keep.wake ++ [{ code := 2 + c, seq := s.keep.wakeSeq + 1, time := keepTime s }] := by
  have hwidth : inRange 5 w 5000 = true := by simp [inRange, hlow, hhigh]
  have hwake := wakeCause_wake (s := s.onCan fun x => { x with wakeOff := x.wakeOff.set c (s.now + 10000) }) hroom (2 + c)
  simp only [doCanWakePulse, hon, hwidth, Nat.not_lt.mpr hoff, decide_false, Bool.not_true, Bool.or_self, Bool.false_eq_true,
    if_false]
  split
  · exact ⟨by simp, (congrArg Keep.wake (event_keep_minor (by decide) ..)).trans hwake⟩
  · exact ⟨by simp, hwake⟩

/-! ## LISTEN (R248) -/

/-- An announcement waits beside what a channel is. -/
theorem canOf_announceOn (c : Nat) (s : State) : ∃ tx, canOf (announceOn c s) c = { canOf s c with tx := tx } := by
  unfold announceOn
  split
  · cases hj : (canOf s c).joins with
    | false => rw [canOf_offer_silent hj]; exact ⟨_, rfl⟩
    | true => exact ⟨_, canOf_offer_joins hj ..⟩
  · exact ⟨_, rfl⟩

/-- A channel that leaves LISTEN for the state that it held below it (Table 10-4). -/
def CanCh.listened (x : CanCh) : CanCh := { x with st := if x.down then .down else x.onBus }

theorem listenEnd_completes {c : Nat} {s : State} (hl : (canOf s c).st = .listen) :
    (canOf (doListenEnd c s) c).st = (if (canOf s c).down then .down else (canOf s c).onBus) ∧
    ((chanActs s.kt.actCfg c).all (canOf s c).heard.contains = false →
      (canOf s c).lisAt + 200000 ≤ (doListenEnd c s).now) := by
  set all := (chanActs s.kt.actCfg c).all (canOf s c).heard.contains with hall
  set u := if all then s else reach ((canOf s c).lisAt + 200000) s with hu
  have heq : doListenEnd c s = announceOn c (onCh c CanCh.listened u) := by
    simp only [doListenEnd, hl, hu, hall, bne_self_eq_false, Bool.false_eq_true, if_false]
    rfl
  have hchan : canOf u c = canOf s c := by
    rw [hu]
    split
    · rfl
    · exact canOf_reach ..
  obtain ⟨tx, h⟩ := canOf_announceOn c (onCh c CanCh.listened u)
  refine ⟨by rw [heq, h, canOf_onCh_same, hchan, CanCh.listened], fun hmissing => ?_⟩
  rw [heq, (announceOn_foot ..).same .now rfl, onCh_now, hu, hmissing]
  simp

/-! ## The statement -/

/-- Settles O50: each row by what its operation leaves of the channel. -/
theorem canCommandsComplete : Obligations.CanCommandsComplete := by
  unfold Obligations.CanCommandsComplete
  refine ⟨?received, ?sent, ?periodic, ?cycle, ?reference, ?resume, ?errorState, ?busOff, ?request, ?recovered, ?backoff,
    ?wake, ?listen⟩
  case received =>
    intro s c f ago e hf hh hr hp hobj he hfree
    exact .next rfl (canFrameRx_completes hf hh hr hp hobj he hfree)
  case sent =>
    intro s c m ago f hf hfirst hbus hst
    obtain ⟨loop, tdc, hout, hchan, hloop⟩ := canFrameTxDone_completes (m := m) (ago := ago) hf hfirst hbus hst
    refine .next (t := doCanFrameTxDone c m ago s) rfl ?_
    rw [hchan]
    exact ⟨hout, rfl, rfl, rfl, fun hkey => by simp [CanCh.sent, hkey], hloop⟩
  case periodic =>
    intro s c i d hd hs hj hfree
    exact .next rfl (canPeriodicTx_completes hd hs hj hfree)
  case cycle =>
    intro s c hr hm hj
    exact .next rfl (doBasicCycleStart_counts hr hm hj)
  case reference =>
    intro s c id n ha hm hh hid
    refine .next (t := doReferenceMessageRx c id n s) rfl ?_
    rw [doReferenceMessageRx_yields ha hm hh hid]
    exact ⟨rfl, by simp, rfl⟩
  case resume =>
    intro s c d hy
    refine .next (t := doTimeMasterResume c s) rfl ?_
    rw [doTimeMasterResume_eq hy]
    simp
  case errorState =>
    intro s c v hj hbus hp
    refine .next (t := doCanErrorStateChange c v s) rfl ?_
    rw [canOf_errorStateChange hj hbus hp]
    refine ⟨rfl, fun hst => if_pos hst, fun hst => if_neg ?_⟩
    rcases hst with h | h <;> simp [h]
  case busOff =>
    intro s c hf hj hbus hlast
    refine .next (t := doCanBusOff c s) rfl ?_
    rw [canOf_busOff hf hj hbus hlast]
    exact ⟨rfl, rfl, rfl, rfl⟩
  case request =>
    intro s c d hr hreq
    refine .next (t := doCanRecoveryRequest c s) rfl ?_
    rw [doCanRecoveryRequest_eq hr hreq]
    simp
  case recovered =>
    intro s c d hrec
    refine .next (t := doCanRecoveryDone c s) rfl ?_
    rw [doCanRecoveryDone_eq hrec]
    simp
  case backoff =>
    intro s c d hlast hbus
    refine .next (t := doCanBackoffReset c s) rfl ?_
    rw [doCanBackoffReset_eq hlast hbus]
    simp
  case wake =>
    intro s c w hon hlow hhigh hoff hroom
    exact .next rfl (canWakePulse_completes hon hlow hhigh hoff hroom)
  case listen =>
    intro s c hl
    exact .next rfl (listenEnd_completes hl)

end Sys2Proof.Machine
end

section
/-! The whole machine: a step runs the command at the front of the queue, every command answers a next state, every memory is
canonical in every state that a step reaches, and what a descriptor leaves as it is, with the statements about them (R85, R107,
R257, R260, R264, R345). -/

namespace Sys2Proof.Machine

/-! ## Canonical memories (R85, R107, R260, R345) -/

/-- Settles O6: time's passing and every command have a footprint, and every footprint keeps the memories canonical. -/
theorem stepKeepsMemoriesCanonical : Obligations.StepKeepsMemoriesCanonical := by
  unfold Obligations.StepKeepsMemoriesCanonical
  intro s t hs h
  unfold step at h
  split at h
  next =>
    obtain rfl : tick s = t := Host.Outcome.next.inj h
    exact (tick_foot s).canon hs
  next c rest _ =>
    obtain ⟨u, hu, hfoot⟩ := exec_foot c (s.setPending rest)
    obtain rfl : u = t := Host.Outcome.next.inj (hu.symm.trans h)
    have hqueued : Canon (s.setPending rest) := ⟨hs.mem, hs.msix, hs.tag, hs.box, hs.obj, hs.prog⟩
    exact hfoot.canon hqueued

/-- Settles O5: at power-on every memory is empty. -/
theorem resetMemoriesAreCanonical : Obligations.ResetMemoriesAreCanonical :=
  ⟨rfl, rfl, rfl, fun _ h => absurd h List.not_mem_nil, fun _ h => absurd h List.not_mem_nil, rfl⟩

/-! ## Every command (chapter 95) -/

/-- No command touches the queue of commands. -/
theorem footOf_pending (c : Instr) : (footOf c).contains .pending = false := by
  cases c <;> rfl

/-- Settles O3: every command answers a next state within its footprint, which never names the queue. -/
theorem everyCommandAnswersANextState : Obligations.EveryCommandAnswersANextState := by
  unfold Obligations.EveryCommandAnswersANextState
  intro c s
  obtain ⟨t, ht, hfoot⟩ := exec_foot c s
  exact ⟨t, ht, hfoot.same .pending (footOf_pending c)⟩

/-- Settles O1: `step` takes the queue apart. -/
theorem stepRunsFrontCommand : Obligations.StepRunsFrontCommand := by
  unfold Obligations.StepRunsFrontCommand
  intro c rest s h
  rw [step, h]

/-! ## What a descriptor leaves (R257, R264) -/

/-- What a descriptor can change at all. -/
theorem footOf_descriptor (c : Instr) : (!isDescriptor c || subFld (footOf c)
    [.now, .out, .keep, .kt, .host, .log, .pmc, .spn, .qre, .mem, .ep]) = true := by
  cases c <;> rfl

/-- Settles O10: a descriptor's footprint names none of these parts. -/
theorem descriptorFrame : Obligations.DescriptorFrame := by
  unfold Obligations.DescriptorFrame
  intro c s t hc h
  obtain ⟨u, hu, hexec⟩ := exec_foot c s
  obtain rfl : u = t := Host.Outcome.next.inj (hu.symm.trans h)
  have hfoot := hexec.mono (by simpa [hc] using footOf_descriptor c)
  exact ⟨hfoot.same .ten rfl, keepCore_capdn (hfoot.same .core rfl), hfoot.same .ket rfl, hfoot.same .lv rfl,
    hfoot.same .jr rfl, hfoot.same .mbx rfl, hfoot.same .drv rfl, hfoot.same .can rfl, hfoot.same .afe rfl,
    hfoot.same .pln rfl, hfoot.same .otp rfl, hfoot.same .pair rfl, hfoot.same .pwr rfl⟩

end Sys2Proof.Machine
end

section
/-! A descriptor at its core: its wait, the check bits, its checks, its set and the next position (R264, R267, R276, R287, R288). -/

namespace Sys2Proof.Machine

/-! ## Descriptors by their operators -/

/-- A command of data work runs its operator. -/
theorem exec_dataOp {i : Instr} {op q c : Nat} {ecc : EccHit} (h : dataOp i = some (op, q, c, ecc)) (s : State) :
    exec i s = .next (runOp op q c ecc s) ∧ 6 ≤ op ∧ op ≠ 0x14 ∧ op ≠ 0x15 := by
  unfold dataOp at h
  split at h <;> cases h <;> exact ⟨rfl, by decide, by decide, by decide⟩

/-! ## The wait (R267) -/

/-- The state in which a core's wait for a flag has passed: the flag is cleared unless KEEP is 1. -/
def waitPassed (k : Nat) (d : Desc) (s : State) : State :=
  onCore k (fun c => { c with waited := true }) (if d.wait.getLsbD 14 then s
    else s.onQre fun x => { x with flags := x.flags.erase (k / 4 * 256 + d.wait.toNat % 256) })

/-- What a wait that passes can do. -/
theorem passWait_cases {k : Nat} {d : Desc} {s u : State} (h : passWait k d s = some u) : u = s ∨ u = waitPassed k d s := by
  unfold passWait at h
  dsimp only at h
  by_cases hnone : (!d.wait.getLsbD 15 || (coreOf s k).waited) = true
  · rw [if_pos hnone] at h
    exact .inl (Option.some.inj h).symm
  · rw [if_neg hnone] at h
    exact .inr (Option.some.inj (of_ite_eq_of_ne h (by simp)).2).symm

theorem waitPassed_qre (k : Nat) (d : Desc) (s : State) : ∃ flags, (waitPassed k d s).qre =
    { s.qre with cores := s.qre.cores.mod {} k fun c => { c with waited := true }, flags := flags } := by
  unfold waitPassed onCore
  split
  · exact ⟨_, rfl⟩
  · exact ⟨_, rfl⟩

/-- A wait that passes changes flags and the core's own state alone of the quires. -/
theorem passWait_qre {k : Nat} {d : Desc} {s u : State} (h : passWait k d s = some u) :
    ∃ cores flags, u.qre = { s.qre with cores := cores, flags := flags } := by
  rcases passWait_cases h with rfl | rfl
  · exact ⟨_, _, rfl⟩
  · exact ⟨_, waitPassed_qre k d s⟩

/-- A wait that passes leaves its core where it was. -/
theorem passWait_core {k : Nat} {d : Desc} {s u : State} (h : passWait k d s = some u) :
    ∃ w, coreOf u k = { coreOf s k with waited := w } := by
  rcases passWait_cases h with rfl | rfl
  · exact ⟨_, rfl⟩
  · obtain ⟨flags, hq⟩ := waitPassed_qre k d s
    exact ⟨true, by rw [coreOf, hq, Tab.get_mod_same, coreOf]⟩

/-- A wait for a flag that is set, and has not passed before. -/
theorem passWait_eq {k : Nat} {d : Desc} {s : State} (hw : d.wait.getLsbD 15 = true) (hn : (coreOf s k).waited = false)
    (hf : s.qre.flags.get false (k / 4 * 256 + d.wait.toNat % 256) = true) :
    passWait k d s = some (waitPassed k d s) := by
  simp only [passWait, waitPassed, hw, hn, hf, Bool.not_true, Bool.or_self, Bool.false_eq_true, if_false]

/-! ## The check bits (R276) -/

/-- Corrections are counted and reported; of the quires they change the count that waits for its report. -/
theorem corrected'_qre (n k : Nat) (s : State) : ∃ corr, (corrected' n k s).qre = { s.qre with corr := corr } := by
  unfold corrected'
  split
  · exact ⟨_, rfl⟩
  · dsimp only
    rw [apply_ite State.qre, event_qre, ite_self, State.onQre_qre, (countN_foot ..).same .qre rfl]
    exact ⟨_, rfl⟩

theorem noteEcc_eq {e : EccHit} {d : Desc} {xs : List Access} (h : hinders e d xs = false) (s : State) :
    noteEcc e d xs s = match e with | .corrected n => corrected' n 1 s | _ => s := by
  cases e with
  | block a => exact if_neg (by simpa [hinders] using h)
  | _ => rfl

/-- Check bits that do not hinder the descriptor leave the quires but for the corrections. -/
theorem noteEcc_qre {e : EccHit} {d : Desc} {xs : List Access} (h : hinders e d xs = false) (s : State) :
    ∃ corr, (noteEcc e d xs s).qre = { s.qre with corr := corr } := by
  rw [noteEcc_eq h]
  cases e with
  | corrected n => exact corrected'_qre ..
  | _ => exact ⟨_, rfl⟩

/-! ## What the checks look at -/

theorem manOf_congr {s t : State} (h : t.ep.cur = s.ep.cur) : manOf t = manOf s := by rw [manOf, manOf, h]

theorem quireUp_congr {s t : State} (h : t.pwr = s.pwr) (q : Nat) : quireUp t q = quireUp s q := by
  rw [quireUp, quireUp, halfOf, halfOf, h]

theorem flagFault_congr {s t : State} (hc : t.ep.cur = s.ep.cur) (hp : t.qre.progs = s.qre.progs) (p : Prog) (w : Bool) (f : Nat) :
    flagFault t p w f = flagFault s p w f := by
  rw [flagFault, flagFault, flagOwner, flagOwner, manOf_congr hc, hp]

theorem readBeforeWrite_congr {s t : State} (hc : t.ep.cur = s.ep.cur) (hq : t.qre.touched = s.qre.touched) (p : Prog)
    (d : Desc) (xs : List Access) : readBeforeWrite t p d xs = readBeforeWrite s p d xs := by
  rw [readBeforeWrite, readBeforeWrite, manOf_congr hc, hq]

theorem queueFault_congr {s t : State} (hw : t.pwr = s.pwr) (he : t.qre.ends = s.qre.ends) (p : Prog) (q k : Nat) (push : Bool)
    (id : Nat) : queueFault t p q k push id = queueFault s p q k push id := by
  simp only [queueFault, quireUp_congr hw, he]

/-! ## The set and the next position (R267, R288) -/

/-- The flag that a descriptor sets, by 256 × quire + flag. -/
def setsFlag (d : Desc) : Nat := d.set.toNat / 256 % 64 * 256 + d.set.toNat % 256

/-- Nothing hinders the set of a descriptor. -/
def SetPasses (p : Prog) (d : Desc) (s : State) : Prop :=
  d.set.getLsbD 15 = false ∨ (quireUp s (d.set.toNat / 256 % 64) = true ∧ flagFault s p false (setsFlag d) = none ∧
    (p.c.debug && s.qre.flags.get false (setsFlag d)) = false)

theorem SetPasses.congr {p : Prog} {d : Desc} {s t : State} (h : SetPasses p d s) (hw : t.pwr = s.pwr)
    (hc : t.ep.cur = s.ep.cur) (hp : t.qre.progs = s.qre.progs) (hf : t.qre.flags = s.qre.flags) : SetPasses p d t := by
  rwa [SetPasses, quireUp_congr hw, flagFault_congr hc hp, hf]

/-- The state with a descriptor's flag set. -/
def flagSet (d : Desc) (s : State) : State :=
  if d.set.getLsbD 15 then s.onQre fun x => { x with flags := x.flags.set (setsFlag d) true } else s

theorem endDesc_eq {p : Prog} {d : Desc} {s : State} (h : SetPasses p d s) (q c : Nat) : endDesc q c p d s =
    onCore (4 * q + c) (Core.next d) (count (0x100 + q) (if d.opn ≤ 0x05 then flagSet d s else count (0x040 + q) (flagSet d s))) := by
  have hdiv : (d.set.toNat / 256 % 64 * 256 + d.set.toNat % 256) / 256 = d.set.toNat / 256 % 64 := by omega
  unfold endDesc
  rcases h with hset | ⟨hup, hflag, hdebug⟩
  · simp only [hset, Bool.not_false, if_true, Bool.false_eq_true, if_false, flagSet]
  · unfold setsFlag at hflag hdebug
    simp only [hdiv, hup, hflag, hdebug, Bool.not_true, Bool.false_eq_true, if_false, ite_self, flagSet, setsFlag]

/-- What the end of a descriptor leaves of the state. -/
structure Ended (q c : Nat) (d : Desc) (s t : State) : Prop where
  foot   : Foot [.pmc, .qre] s t
  core   : coreOf t (4 * q + c) = Core.next d (coreOf s (4 * q + c))
  flag   : d.set.getLsbD 15 = true → t.qre.flags.get false (setsFlag d) = true
  queues : t.qre.queues = s.qre.queues

theorem flagSet_foot (d : Desc) (s : State) : Foot [.qre] s (flagSet d s) := .ite (Foot.refl.onQre rfl) .refl
theorem flagSet_cores (d : Desc) (s : State) : (flagSet d s).qre.cores = s.qre.cores := by unfold flagSet; split <;> rfl
theorem flagSet_queues (d : Desc) (s : State) : (flagSet d s).qre.queues = s.qre.queues := by unfold flagSet; split <;> rfl

theorem endDesc_ended {p : Prog} {d : Desc} {s : State} (h : SetPasses p d s) (q c : Nat) : Ended q c d s (endDesc q c p d s) := by
  rw [endDesc_eq h]
  set u := count (0x100 + q) (if d.opn ≤ 0x05 then flagSet d s else count (0x040 + q) (flagSet d s)) with hu
  have hqre : u.qre = (flagSet d s).qre := by rw [hu, count_qre, apply_ite State.qre, count_qre, ite_self]
  have hfoot : Foot [.pmc, .qre] s u :=
    (Foot.ite ((flagSet_foot ..).mono rfl) (((flagSet_foot ..).mono rfl).then (count_foot ..) rfl)).then (count_foot ..) rfl
  refine ⟨hfoot.then (onCore_foot ..) rfl, ?_, fun hset => ?_, ?_⟩
  · rw [coreOf, onCore, State.onQre_qre, Tab.get_mod_same, hqre, flagSet_cores, coreOf]
  · rw [onCore, State.onQre_qre, hqre, flagSet, if_pos hset, State.onQre_qre, Tab.get_set_same]
  · rw [onCore, State.onQre_qre, hqre, flagSet_queues]

/-- The next position does not depend on what the descriptor itself left in its core. -/
theorem Core.next_congr {d : Desc} {x y : Core} (hst : x.st = y.st) (hpc : x.pc = y.pc) (hloops : x.loops = y.loops) :
    Core.next d x = Core.next d y := by
  obtain ⟨xst, xpc, xloops, _, _, _, _⟩ := x
  obtain ⟨yst, ypc, yloops, _, _, _, _⟩ := y
  obtain ⟨rfl, rfl, rfl⟩ : xst = yst ∧ xpc = ypc ∧ xloops = yloops := ⟨hst, hpc, hloops⟩
  rfl

/-! ## A descriptor whose checks pass -/

/-- The state `v` in which a descriptor that passes begins its data work, from `s`. -/
structure Begins (q c : Nat) (p : Prog) (d : Desc) (s u v : State) : Prop where
  foot   : Foot [.out, .keep, .host, .log, .pmc, .spn, .qre] s v
  core   : ∃ w, coreOf v (4 * q + c) = { coreOf s (4 * q + c) with waited := w }
  queues : v.qre.queues = s.qre.queues
  ends   : v.qre.ends = u.qre.ends
  pwr    : v.pwr = u.pwr
  sets   : SetPasses p d v

theorem Passes.begins {q c : Nat} {ecc : EccHit} {p : Prog} {d : Desc} {s u : State} (h : Passes q c ecc p d s u) :
    Begins q c p d s u (noteEcc ecc d (d.accesses s.mem) u) := by
  have hwait := passWait_foot h.goes
  have hnote := noteEcc_foot ecc d (d.accesses s.mem) u
  obtain ⟨corr, hq⟩ := noteEcc_qre h.sound u
  obtain ⟨cores, flags, hu⟩ := passWait_qre h.goes
  set v := noteEcc ecc d (d.accesses s.mem) u
  have hcur : v.ep.cur = s.ep.cur := by rw [hnote.same .ep rfl, hwait.same .ep rfl]
  have hprogs : v.qre.progs = s.qre.progs := by rw [hq, hu]
  refine ⟨(hwait.mono rfl).then hnote rfl, ?_, by rw [hq, hu], by rw [hq], hnote.same .pwr rfl, ?_⟩
  · obtain ⟨w, hw⟩ := passWait_core h.goes
    exact ⟨w, by rw [coreOf, hq]; exact hw⟩
  · rcases h.sets with hset | ⟨hup, hflag, hdebug⟩
    · exact .inl hset
    · refine .inr ⟨?_, ?_, ?_⟩
      · rwa [quireUp_congr ((hnote.same .pwr rfl).trans (hwait.same .pwr rfl))]
      · rwa [flagFault_congr hcur hprogs]
      · rwa [hq]

theorem Passes.runOp_eq {q c : Nat} {ecc : EccHit} {p : Prog} {d : Desc} {s u : State} (h : Passes q c ecc p d s u) :
    runOp d.opn q c ecc s = dataWork q c p d (noteEcc ecc d (d.accesses s.mem) u) := by
  have hwait := passWait_foot h.goes
  have hmem : u.mem = s.mem := hwait.same .mem rfl
  obtain ⟨corr, hq⟩ := noteEcc_qre h.sound u
  obtain ⟨cores, flags, hu⟩ := passWait_qre h.goes
  set v := noteEcc ecc d (d.accesses s.mem) u with hv
  have hcur : v.ep.cur = s.ep.cur := by rw [(noteEcc_foot ..).same .ep rfl, hwait.same .ep rfl]
  have hdesc : (ecc == .desc) = false := by
    have hsound := h.sound
    cases ecc with
    | desc => cases hsound
    | _ => rfl
  have hclean : poisoned d v.qre.poison (d.accesses s.mem) = none := by rw [hq, hu]; exact h.clean
  have hwritten : readBeforeWrite v p d (d.accesses s.mem) = none := by
    rw [readBeforeWrite_congr hcur (by rw [hq, hu])]; exact h.written
  simp only [runOp, h.here, bne_self_eq_false, Bool.false_eq_true, if_false, hdesc, h.wait, h.goes, runWork, hmem, h.declared,
    ← hv, hclean, hwritten]

end Sys2Proof.Machine
end

section
/-! What a descriptor writes (R257, R264 to R266, R276, R298, R306), and the statement about data work. -/

namespace Sys2Proof.Machine

/-! ## The completion of a cycle's programs (R257, R298, R306) -/

/-- What the set of a descriptor and the cores look at, left as it was. -/
structure CoresKept (s t : State) : Prop where
  cores : t.qre.cores = s.qre.cores
  progs : t.qre.progs = s.qre.progs
  flags : t.qre.flags = s.qre.flags
  cur   : t.ep.cur = s.ep.cur
  pwr   : t.pwr = s.pwr

/-- What the writes of a descriptor leave: also the queues, and the completion flag where it is set. -/
structure WorkKept (s t : State) : Prop extends CoresKept s t where
  foot   : Foot [.out, .keep, .host, .log, .pmc, .spn, .qre, .mem, .ep] s t
  queues : t.qre.queues = s.qre.queues
  done   : s.ep.done = true → t.ep.done = true

theorem CoresKept.of_qre {s t : State} (hq : t.qre = s.qre) (hep : t.ep = s.ep) (hw : t.pwr = s.pwr) : CoresKept s t :=
  ⟨by rw [hq], by rw [hq], by rw [hq], by rw [hep], hw⟩

theorem CoresKept.trans {s t u : State} (h : CoresKept s t) (g : CoresKept t u) : CoresKept s u :=
  ⟨g.cores.trans h.cores, g.progs.trans h.progs, g.flags.trans h.flags, g.cur.trans h.cur, g.pwr.trans h.pwr⟩

theorem WorkKept.refl (s : State) : WorkKept s s := ⟨.of_qre rfl rfl rfl, .refl, rfl, id⟩

theorem WorkKept.trans {s t u : State} (h : WorkKept s t) (g : WorkKept t u) : WorkKept s u :=
  ⟨h.toCoresKept.trans g.toCoresKept, h.foot.then g.foot rfl, g.queues.trans h.queues, fun hd => g.done (h.done hd)⟩

theorem WorkKept.foldl {α : Type} {f : State → α → State} (hf : ∀ s a, WorkKept s (f s a)) (xs : List α) (s : State) :
    WorkKept s (xs.foldl f s) := by
  induction xs generalizing s with
  | nil => exact .refl s
  | cons x xs ih => exact (hf s x).trans (ih _)

theorem WorkKept.of_foot {s t : State} (h : Foot [.out, .keep, .host, .log, .pmc, .spn, .mem] s t) : WorkKept s t :=
  have hq := h.same .qre rfl
  have hep := h.same .ep rfl
  ⟨.of_qre hq hep (h.same .pwr rfl), h.mono rfl, by rw [hq], by rw [hep]; exact id⟩

theorem WorkKept.onEp {s : State} {f : Epoch → Epoch} (hc : (f s.ep).cur = s.ep.cur)
    (hd : s.ep.done = true → (f s.ep).done = true) : WorkKept s (s.onEp f) :=
  ⟨⟨rfl, rfl, rfl, hc, rfl⟩, Foot.refl.onEp rfl, rfl, hd⟩

theorem endBorrow_kept (s : State) : WorkKept s (endBorrow s) := by
  unfold endBorrow
  split
  · exact .refl s
  · extract_lets was u
    have hu : WorkKept s u := .onEp rfl id
    split
    · exact hu.trans (.of_foot ((event_foot ..).mono rfl))
    · exact hu

theorem tryCkpt_kept (s : State) : WorkKept s (tryCkpt s) := by
  unfold tryCkpt
  split
  · split
    · unfold takeCkpt
      exact .onEp rfl id
    · exact .refl s
  · exact .refl s

/-- A completion leaves the completion flag set. -/
theorem complete_kept (s : State) : WorkKept s (complete s) ∧ (complete s).ep.done = true := by
  unfold complete
  split
  next hdone => exact ⟨.refl s, hdone⟩
  next =>
    extract_lets u v w
    have hu : WorkKept s u := .onEp rfl fun _ => rfl
    have hv : WorkKept u v := by
      unfold v
      split
      · exact endBorrow_kept u
      · exact .refl u
    have hw : WorkKept u w := hv.trans (tryCkpt_kept v)
    split
    · have hsend : WorkKept w (sendResults w) := .of_foot ((sendResults_foot w).mono rfl)
      exact ⟨hu.trans (hw.trans hsend), hsend.done (hw.done rfl)⟩
    · exact ⟨hu.trans hw, hw.done rfl⟩

theorem complete_mem (s : State) : (complete s).mem = s.mem := (complete_foot s).same .mem rfl

/-! ## Elements written (R264, R276) -/

theorem storeEl_kept (a n v : Nat) (s : State) : WorkKept s (storeEl a n v s) := by
  unfold storeEl
  split
  · split
    · exact (complete_kept s).1
    · exact .refl s
  · split
    · exact .refl s
    · exact .of_foot (Foot.refl.onMem rfl fun h => Mem.wf_writeN h _ _)

/-- An element stored; the window of the cycle completion register holds nothing. -/
theorem storeEl_mem (a n v : Nat) (s : State) : (storeEl a n v s).mem =
    if 0x400020000 ≤ a ∧ a < 0x400020040 then s.mem else s.mem.writeN a (leBytes n v) := by
  unfold storeEl
  split
  next h =>
    obtain rfl : a = 0x400020000 := by simpa using h
    rw [apply_ite State.mem, complete_mem, ite_self, if_pos (by decide)]
  next h => simp only [Bool.and_eq_true, decide_eq_true_eq, apply_ite State.mem, State.onMem_mem]

theorem noteWrites_kept (p : Prog) (ws : List (Nat × Nat)) (s : State) : WorkKept s (noteWrites p ws s) := by
  have hfoot := noteWrites_foot p ws s
  have hep := hfoot.same .ep rfl
  refine ⟨⟨?_, ?_, ?_, by rw [hep], hfoot.same .pwr rfl⟩, hfoot.mono rfl, ?_, by rw [hep]; exact id⟩ <;>
  · unfold noteWrites
    dsimp only
    split <;> rfl

theorem countEvents_kept (es : List Nat) (s : State) : WorkKept s (countEvents es s) := .of_foot ((countEvents_foot ..).mono rfl)

theorem storeAll_kept (p : Prog) (ws : List (Nat × Nat × Elem)) (s : State) : WorkKept s (storeAll p ws s) :=
  ((countEvents_kept ..).trans (noteWrites_kept ..)).trans (.foldl (fun _ _ => storeEl_kept ..) ..)

theorem stored_cons (w : Nat × Nat × Elem) (ws : List (Nat × Nat × Elem)) (m : Mem) : stored (w :: ws) m =
    stored ws (if 0x400020000 ≤ w.1 ∧ w.1 < 0x400020040 then m else m.writeN w.1 (leBytes w.2.1 w.2.2.1)) := rfl

/-- The writes of a descriptor are its elements stored one after the other. -/
theorem storeAll_mem (p : Prog) (ws : List (Nat × Nat × Elem)) (s : State) : (storeAll p ws s).mem = stored ws s.mem := by
  have hstart : (noteWrites p (ws.map fun w => (w.1, w.2.1)) (countEvents (ws.flatMap fun w => w.2.2.2) s)).mem = s.mem := by
    rw [(noteWrites_foot ..).same .mem rfl, (countEvents_foot ..).same .mem rfl]
  have hfold : ∀ (xs : List (Nat × Nat × Elem)) (u : State),
      (xs.foldl (fun s w => storeEl w.1 w.2.1 w.2.2.1 s) u).mem = stored xs u.mem := by
    intro xs
    induction xs with
    | nil => exact fun _ => rfl
    | cons x xs ih =>
      intro u
      rw [List.foldl_cons, ih, storeEl_mem, stored_cons]
  rw [storeAll, hfold, hstart]

/-! ## Reading the store afterwards -/

theorem stored_append (xs ys : List (Nat × Nat × Elem)) (m : Mem) : stored (xs ++ ys) m = stored ys (stored xs m) :=
  List.foldl_append

theorem wf_stored {m : Mem} (h : Mem.wf m = true) (ws : List (Nat × Nat × Elem)) : Mem.wf (stored ws m) = true := by
  induction ws generalizing m with
  | nil => exact h
  | cons w ws ih =>
    rw [stored_cons]
    split
    · exact ih h
    · exact ih (Mem.wf_writeN h ..)

/-- A byte outside every element reads as before. -/
theorem read_stored_other {m : Mem} (h : Mem.wf m = true) {ws : List (Nat × Nat × Elem)} {a : Nat}
    (ha : ∀ w ∈ ws, a < w.1 ∨ w.1 + w.2.1 ≤ a) : (stored ws m).read a = m.read a := by
  induction ws generalizing m with
  | nil => rfl
  | cons w ws ih =>
    have hw := ha w List.mem_cons_self
    have hws : ∀ v ∈ ws, a < v.1 ∨ v.1 + v.2.1 ≤ a := fun v hv => ha v (List.mem_cons_of_mem _ hv)
    rw [stored_cons]
    split
    · exact ih h hws
    · rw [ih (Mem.wf_writeN h ..) hws, Mem.read_writeN_other h _ _ (by rwa [length_leBytes])]

/-- A range that agrees byte for byte reads the same. -/
theorem Mem.readN_congr {m m' : Mem} {a n : Nat} (h : ∀ k, a ≤ k → k < a + n → m'.read k = m.read k) :
    m'.readN a n = m.readN a n := by
  induction n generalizing a with
  | zero => rfl
  | succ n ih =>
    rw [Mem.readN, Mem.readN, h a (by omega) (by omega), ih fun k hk hlt => h k (by omega) (by omega)]

/-- An element that none after it overlaps reads back. -/
theorem readN_stored {m : Mem} (h : Mem.wf m = true) (xs : List (Nat × Nat × Elem)) {ys : List (Nat × Nat × Elem)}
    {w : Nat × Nat × Elem} (hys : ∀ y ∈ ys, y.1 + y.2.1 ≤ w.1 ∨ w.1 + w.2.1 ≤ y.1)
    (hw : w.1 + w.2.1 ≤ 0x400020000 ∨ 0x400020040 ≤ w.1) :
    (stored (xs ++ w :: ys) m).readN w.1 w.2.1 = leBytes w.2.1 w.2.2.1 := by
  have hxs := wf_stored h xs
  rw [stored_append, stored_cons]
  split
  next hwin =>
    have hzero : w.2.1 = 0 := by omega
    rw [hzero]
    rfl
  next hwin =>
    have hafter : ∀ k, w.1 ≤ k → k < w.1 + w.2.1 → ∀ y ∈ ys, k < y.1 ∨ y.1 + y.2.1 ≤ k := fun k hk hlt y hy => by
      have := hys y hy
      omega
    rw [Mem.readN_congr fun k hk hlt => read_stored_other (Mem.wf_writeN hxs ..) (hafter k hk hlt)]
    have hback := Mem.readN_writeN hxs w.1 (leBytes w.2.1 w.2.2.1)
    rwa [length_leBytes] at hback

/-! ## Data work -/

/-- A descriptor whose work is done and whose set is then made has completed. -/
theorem Begins.completes {q c : Nat} {p : Prog} {d : Desc} {s u v w : State} (h : Begins q c p d s u v) (hw : CoresKept v w) :
    Completes q c d s (endDesc q c p d w) ∧ Ended q c d w (endDesc q c p d w) := by
  have hend := endDesc_ended (h.sets.congr hw.pwr hw.cur hw.progs hw.flags) q c
  obtain ⟨x, hcore⟩ := h.core
  have hsame : coreOf w (4 * q + c) = coreOf v (4 * q + c) := by rw [coreOf, hw.cores, coreOf]
  refine ⟨⟨?_, hend.flag⟩, hend⟩
  rw [hend.core, hsame, hcore]
  exact Core.next_congr rfl rfl rfl

theorem dataWork_data {d : Desc} (hop : 6 ≤ d.opn) (hpush : d.opn ≠ 0x14) (hpop : d.opn ≠ 0x15) (q c : Nat) (p : Prog) (s : State) :
    dataWork q c p d s = endDesc q c p d (storeAll p (d.writes s.mem) s) := by
  have htick : d.opn ≠ 0x05 := by omega
  have hctrl : ¬ d.opn ≤ 0x05 := by omega
  simp only [dataWork, beq_iff_eq, hpush, hpop, htick, hctrl, if_false]

/-- Settles O52: the checks passed, the elements are stored in the order in which they are listed, and the core goes on. -/
theorem dataDescriptorsStoreTheirElements : Obligations.DataDescriptorsStoreTheirElements := by
  unfold Obligations.DataDescriptorsStoreTheirElements
  intro i op q c ecc s u p d hi h hop
  subst hop
  obtain ⟨hexec, hlow, hpush, hpop⟩ := exec_dataOp hi s
  set v := noteEcc ecc d (d.accesses s.mem) u with hv
  have hbegins := h.begins
  have hmem : v.mem = s.mem := hbegins.foot.same .mem rfl
  set t := endDesc q c p d (storeAll p (d.writes s.mem) v) with ht
  have hrun : runOp d.opn q c ecc s = t := by
    rw [h.runOp_eq, dataWork_data hlow hpush hpop, ← hv, hmem]
  have htmem : t.mem = stored (d.writes s.mem) s.mem := by rw [ht, endDesc_mem, storeAll_mem, hmem]
  have hstore := storeAll_kept p (d.writes s.mem) v
  obtain ⟨hcompletes, hended⟩ := hbegins.completes hstore.toCoresKept
  have hfoot : Foot [.out, .keep, .host, .log, .pmc, .spn, .qre, .mem, .ep] s t :=
    ((hbegins.foot.mono rfl).then hstore.foot rfl).then hended.foot rfl
  refine .next (hexec.trans (congrArg _ hrun)) ⟨htmem, hcompletes, hfoot.same .now rfl, hfoot.same .ket rfl,
    hfoot.same .lv rfl, hfoot.same .drv rfl, hfoot.same .kt rfl, hfoot.same .pwr rfl, fun hwf => ⟨fun a ha => ?_, ?_⟩⟩
  · rw [htmem, read_stored_other hwf ha]
  · intro xs ys w hsplit hys hwin
    rw [htmem, hsplit]
    exact readN_stored hwf xs hys hwin

end Sys2Proof.Machine
end

section
/-! Control descriptors, queues and the cycle completion register (R257, R264, R266, R267, R287), and the statement about them. -/

namespace Sys2Proof.Machine

/-! ## Control descriptors (R264, R266) -/

theorem dataWork_control {d : Desc} (hop : d.opn < 0x05) (q c : Nat) (p : Prog) (s : State) :
    dataWork q c p d s = endDesc q c p d s := by
  have hpush : d.opn ≠ 0x14 := by omega
  have hpop : d.opn ≠ 0x15 := by omega
  have htick : d.opn ≠ 0x05 := by omega
  have hctrl : d.opn ≤ 0x05 := by omega
  simp only [dataWork, beq_iff_eq, hpush, hpop, htick, hctrl, if_false, if_true]

section
variable {q c : Nat} {ecc : EccHit} {p : Prog} {d : Desc} {s u : State} (h : Passes q c ecc p d s u)
include h

/-- NOP, HALT, JUMP, LOOP and FENCE complete and leave the store. -/
theorem Passes.control (hop : d.opn < 0x05) :
    Completes q c d s (runOp d.opn q c ecc s) ∧ (runOp d.opn q c ecc s).mem = s.mem := by
  rw [h.runOp_eq, dataWork_control hop]
  obtain ⟨hcompletes, hended⟩ := h.begins.completes (WorkKept.refl _).toCoresKept
  exact ⟨hcompletes, (hended.foot.same .mem rfl).trans (h.begins.foot.same .mem rfl)⟩

/-- TICKWAIT completes no earlier than its time after the tick. -/
theorem Passes.tickwait (hop : d.opn = 0x05) : Completes q c d s (runOp d.opn q c ecc s) ∧
    (runOp d.opn q c ecc s).mem = s.mem ∧ s.ep.tickAt + d.arg.toNat ≤ (runOp d.opn q c ecc s).now := by
  have hbegins := h.begins
  rw [h.runOp_eq]
  set v := noteEcc ecc d (d.accesses s.mem) u
  have hwork : dataWork q c p d v = endDesc q c p d (reach (v.ep.tickAt + d.arg.toNat) v) := by simp [dataWork, hop]
  obtain ⟨hcompletes, hended⟩ := hbegins.completes (w := reach (v.ep.tickAt + d.arg.toNat) v)
    (.of_qre (reach_qre ..) (reach_ep ..) (reach_pwr ..))
  rw [hwork]
  refine ⟨hcompletes, ?_, ?_⟩
  · rw [endDesc_mem, reach_mem, hbegins.foot.same .mem rfl]
  · rw [endDesc_now, reach_now, hbegins.foot.same .ep rfl]
    exact Nat.le_max_right ..

end

/-! ## Queues (R287) -/

/-- The state with an end of a queue in use by a core. -/
def endUsed (q c : Nat) (push : Bool) (d : Desc) (s : State) : State :=
  s.onQre fun x => { x with ends := x.ends.set (2 * d.queue.toNat + push.toNat) (4 * q + c) }

/-- A state with a queue's entries changed. -/
def queueSet (id : Nat) (es : List Bytes) (s : State) : State := s.onQre fun x => { x with queues := x.queues.set id es }

/-- What QPUSH and QPOP do where no end of the queue is amiss; a queue holds 16, 64 or 256 entries. -/
theorem queueWork_eq {q c : Nat} {push : Bool} {p : Prog} {d : Desc} {s : State}
    (h : queueFault s p q (4 * q + c) push d.queue.toNat = none) : ∃ depth, 16 ≤ depth ∧ depth ≤ 256 ∧
    queueWork q c push p d s =
      let r := moveEntries push d.queue.toNat depth d p (d.rows.toNat - (coreOf s (4 * q + c)).moved)
        (coreOf s (4 * q + c)).moved (endUsed q c push d s)
      if d.rows.toNat ≤ r.1 || d.empty then endDesc q c p d r.2
      else onCore (4 * q + c) (fun x => { x with moved := r.1, stalled := true }) r.2 := by
  have hdepth : ∀ cls, 16 ≤ depthOf cls ∧ depthOf cls ≤ 256 := by
    intro cls
    unfold depthOf
    split <;> decide
  unfold queueWork
  simp only [h]
  exact ⟨_, (hdepth _).1, (hdepth _).2, rfl⟩

theorem moveEntries_push_one {id depth : Nat} {d : Desc} {p : Prog} {s : State}
    (h : (s.qre.queues.get [] id).length < depth) : moveEntries true id depth d p 1 0 s =
      (1, queueSet id (s.qre.queues.get [] id ++ [s.mem.readN (elAt (d.opnd 1) 4 0 0) 64]) s) := by
  simp only [moveEntries, if_true, if_neg (Nat.not_le.mpr h), queueSet]

theorem moveEntries_push_full {id depth n i : Nat} {d : Desc} {p : Prog} {s : State}
    (h : depth ≤ (s.qre.queues.get [] id).length) : moveEntries true id depth d p (n + 1) i s = (i, s) := by
  simp only [moveEntries, if_true, h]

/-- The 16 words of an entry written to a row of DST. -/
def entryWrites (d : Desc) (b : Bytes) : List (Nat × Nat × Elem) :=
  (List.range 16).map fun j => (elAt (d.opnd 0) 4 0 0 + 4 * j, 4, (fld b (4 * j) 4, []))

theorem moveEntries_pop_one {id depth : Nat} {d : Desc} {p : Prog} {s : State} {b : Bytes} {bs : List Bytes}
    (h : s.qre.queues.get [] id = b :: bs) : moveEntries false id depth d p 1 0 s =
      (1, storeAll p (entryWrites d b) (queueSet id bs s)) := by
  simp only [moveEntries, Bool.false_eq_true, if_false, h, queueSet, entryWrites]

section
variable {q c : Nat} {ecc : EccHit} {p : Prog} {d : Desc} {s u : State} (h : Passes q c ecc p d s u)
include h

/-- A QPUSH of one row puts its entry at the queue's end, where the queue has room. -/
theorem Passes.qpush (hop : d.opn = 0x14) (hf : queueFault u p q (4 * q + c) true d.queue.toNat = none) (hrows : d.rows = 1)
    (hmoved : (coreOf s (4 * q + c)).moved = 0) (hroom : (s.qre.queues.get [] d.queue.toNat).length < 16) :
    Completes q c d s (runOp d.opn q c ecc s) ∧ (runOp d.opn q c ecc s).mem = s.mem ∧
    (runOp d.opn q c ecc s).qre.queues.get [] d.queue.toNat =
      s.qre.queues.get [] d.queue.toNat ++ [s.mem.readN (elAt (d.opnd 1) 4 0 0) 64] := by
  have hbegins := h.begins
  rw [h.runOp_eq]
  set v := noteEcc ecc d (d.accesses s.mem) u
  have hqueues : (endUsed q c true d v).qre.queues = s.qre.queues := hbegins.queues
  have hmem : (endUsed q c true d v).mem = s.mem := hbegins.foot.same .mem rfl
  have hvmoved : (coreOf v (4 * q + c)).moved = 0 := by
    obtain ⟨w, hcore⟩ := hbegins.core
    rw [hcore, ← hmoved]
  obtain ⟨depth, hdepth, -, hwork⟩ := queueWork_eq (q := q) (c := c) (push := true) (p := p) (d := d) (s := v)
    (by rwa [queueFault_congr hbegins.pwr hbegins.ends])
  rw [hvmoved, hrows, show (1 : Half).toNat - 0 = 1 from rfl,
    moveEntries_push_one (by rw [hqueues]; omega), hqueues, hmem] at hwork
  set w := queueSet d.queue.toNat (s.qre.queues.get [] d.queue.toNat ++ [s.mem.readN (elAt (d.opnd 1) 4 0 0) 64])
    (endUsed q c true d v) with hw
  have hdata : dataWork q c p d v = endDesc q c p d w := by
    rw [dataWork, hop, if_pos (by rfl), hwork]
    rfl
  obtain ⟨hcompletes, hended⟩ := hbegins.completes (w := w) ⟨rfl, rfl, rfl, rfl, rfl⟩
  rw [hdata]
  refine ⟨hcompletes, ?_, ?_⟩
  · rw [endDesc_mem, ← hmem]
    rfl
  · rw [hended.queues, hw, queueSet, State.onQre_qre, Tab.get_set_same]

/-- A QPUSH stalls where the queue is full. -/
theorem Passes.qpush_full (hop : d.opn = 0x14) (hf : queueFault u p q (4 * q + c) true d.queue.toNat = none)
    (hrows : d.rows = 1) (hcols : d.cols = 1) (hmoved : (coreOf s (4 * q + c)).moved = 0)
    (hfull : 256 ≤ (s.qre.queues.get [] d.queue.toNat).length) :
    (coreOf (runOp d.opn q c ecc s) (4 * q + c)).stalled = true ∧
    (coreOf (runOp d.opn q c ecc s) (4 * q + c)).pc = (coreOf s (4 * q + c)).pc ∧
    (runOp d.opn q c ecc s).qre.queues.get [] d.queue.toNat = s.qre.queues.get [] d.queue.toNat := by
  have hbegins := h.begins
  rw [h.runOp_eq]
  set v := noteEcc ecc d (d.accesses s.mem) u
  have hqueues : (endUsed q c true d v).qre.queues = s.qre.queues := hbegins.queues
  obtain ⟨x, hcore⟩ := hbegins.core
  have hvmoved : (coreOf v (4 * q + c)).moved = 0 := by rw [hcore, ← hmoved]
  obtain ⟨depth, -, hdepth, hwork⟩ := queueWork_eq (q := q) (c := c) (push := true) (p := p) (d := d) (s := v)
    (by rwa [queueFault_congr hbegins.pwr hbegins.ends])
  rw [hvmoved, hrows, show (1 : Half).toNat - 0 = 0 + 1 from rfl,
    moveEntries_push_full (by rw [hqueues]; omega)] at hwork
  have hempty : d.empty = false := by rw [Desc.empty, hrows, hcols]; rfl
  have hdata : dataWork q c p d v =
      onCore (4 * q + c) (fun x => { x with moved := 0, stalled := true }) (endUsed q c true d v) := by
    rw [dataWork, hop, if_pos (by rfl), hwork, hempty]
    rfl
  have hpc : (coreOf v (4 * q + c)).pc = (coreOf s (4 * q + c)).pc := by rw [hcore]
  rw [hdata, coreOf, onCore, State.onQre_qre, Tab.get_mod_same]
  exact ⟨rfl, hpc, congrArg (Tab.get [] · _) hqueues⟩

/-- A QPOP of one row takes the queue's first entry and writes it to DST. -/
theorem Passes.qpop {b : Bytes} {bs : List Bytes} (hop : d.opn = 0x15)
    (hf : queueFault u p q (4 * q + c) false d.queue.toNat = none) (hrows : d.rows = 1)
    (hmoved : (coreOf s (4 * q + c)).moved = 0) (hq : s.qre.queues.get [] d.queue.toNat = b :: bs) :
    Completes q c d s (runOp d.opn q c ecc s) ∧ (runOp d.opn q c ecc s).qre.queues.get [] d.queue.toNat = bs ∧
    (runOp d.opn q c ecc s).mem = stored (entryWrites d b) s.mem := by
  have hbegins := h.begins
  rw [h.runOp_eq]
  set v := noteEcc ecc d (d.accesses s.mem) u
  have hqueues : (endUsed q c false d v).qre.queues = s.qre.queues := hbegins.queues
  have hmem : v.mem = s.mem := hbegins.foot.same .mem rfl
  have hvmoved : (coreOf v (4 * q + c)).moved = 0 := by
    obtain ⟨w, hcore⟩ := hbegins.core
    rw [hcore, ← hmoved]
  obtain ⟨depth, -, -, hwork⟩ := queueWork_eq (q := q) (c := c) (push := false) (p := p) (d := d) (s := v)
    (by rwa [queueFault_congr hbegins.pwr hbegins.ends])
  rw [hvmoved, hrows, show (1 : Half).toNat - 0 = 1 from rfl,
    moveEntries_pop_one (by rw [hqueues]; exact hq)] at hwork
  set x := queueSet d.queue.toNat bs (endUsed q c false d v) with hx
  have hdata : dataWork q c p d v = endDesc q c p d (storeAll p (entryWrites d b) x) := by
    rw [dataWork, hop, if_neg (by decide), if_pos (by rfl), hwork]
    rfl
  have hstore := storeAll_kept p (entryWrites d b) x
  obtain ⟨hcompletes, hended⟩ := hbegins.completes (w := storeAll p (entryWrites d b) x)
    (CoresKept.trans (t := x) ⟨rfl, rfl, rfl, rfl, rfl⟩ hstore.toCoresKept)
  rw [hdata]
  refine ⟨hcompletes, ?_, ?_⟩
  · rw [hended.queues, hstore.queues, hx, queueSet, State.onQre_qre, Tab.get_set_same]
  · rw [endDesc_mem, storeAll_mem, ← hmem]
    rfl

/-! ## The cycle completion register (R257) -/

/-- A 1 written at the cycle completion register alone completes the cycle. -/
theorem Passes.cycleCompletion (hop : 6 ≤ d.opn) (hpush : d.opn ≠ 0x14) (hpop : d.opn ≠ 0x15)
    (hw : d.writes s.mem = [(0x400020000, 4, (1, []))]) : Completes q c d s (runOp d.opn q c ecc s) ∧
    (runOp d.opn q c ecc s).ep.done = true ∧ (runOp d.opn q c ecc s).mem = s.mem := by
  have hbegins := h.begins
  rw [h.runOp_eq, dataWork_data hop hpush hpop, hbegins.foot.same .mem rfl, hw]
  set v := noteEcc ecc d (d.accesses s.mem) u
  set x := storeAll p [(0x400020000, 4, (1, []))] v with hx
  obtain ⟨hcompletes, hended⟩ := hbegins.completes (w := x) (storeAll_kept ..).toCoresKept
  refine ⟨hcompletes, ?_, ?_⟩
  · rw [hended.foot.same .ep rfl, hx]
    exact (complete_kept _).2
  · rw [endDesc_mem, storeAll_mem, hbegins.foot.same .mem rfl]
    rfl

end

/-- Settles O53: each row by what its operator leaves. -/
theorem controlDescriptorsComplete : Obligations.ControlDescriptorsComplete := by
  unfold Obligations.ControlDescriptorsComplete
  constructor
  · intro q c ecc s u p d h
    refine ⟨fun hop => ?nop, fun hop => ?halt, fun hop => ?jump, fun hop => ?loop, fun hop => ?fence, fun hop => ?tickwait,
      fun hop hf hr hm hroom => ?push, fun hop hf hr hm hst hroom => ?resumed, fun hop hf hr hc hm hfull => ?full,
      fun b bs hop hf hr hm hq => ?pop, fun hlow hpush hpop haddr hw => ?completion⟩
    case nop =>
      have hctrl := h.control (by omega)
      rw [hop] at hctrl
      exact .next rfl hctrl
    case halt =>
      have hctrl := h.control (by omega)
      rw [hop] at hctrl
      have hcore := hctrl.1.core
      simp only [Core.next, hop] at hcore
      exact .next rfl ⟨hctrl.1, hctrl.2, by rw [hcore], by rw [hcore]⟩
    case jump =>
      have hctrl := h.control (by omega)
      rw [hop] at hctrl
      have hcore := hctrl.1.core
      simp only [Core.next, hop] at hcore
      exact .next rfl ⟨hctrl.1, hctrl.2, by rw [hcore]⟩
    case loop =>
      have hctrl := h.control (by omega)
      rw [hop] at hctrl
      have hcore := hctrl.1.core
      simp only [Core.next, hop] at hcore
      exact .next rfl ⟨hctrl.1, hctrl.2, by rw [hcore, apply_ite Core.pc]⟩
    case fence =>
      have hctrl := h.control (by omega)
      rw [hop] at hctrl
      exact .next rfl hctrl
    case tickwait =>
      have hwait := h.tickwait hop
      rw [hop] at hwait
      exact .next rfl hwait
    case push =>
      have hpush := h.qpush hop hf hr hm hroom
      rw [hop] at hpush
      exact .next rfl hpush
    case resumed =>
      obtain ⟨hcompletes, -, hqueue⟩ := h.qpush hop hf hr hm hroom
      refine .next (t := doQueueStallRelease q.val c.val ecc s) rfl ?_
      simp only [doQueueStallRelease, hst, Bool.not_true, Bool.false_eq_true, if_false, h.here]
      exact ⟨hcompletes, hqueue⟩
    case full =>
      have hstall := h.qpush_full hop hf hr hc hm hfull
      rw [hop] at hstall
      exact .next rfl hstall
    case pop =>
      have hpop := h.qpop hop hf hr hm hq
      rw [hop] at hpop
      exact .next rfl hpop
    case completion =>
      refine .next (t := doCycleCompletionWrite q.val c.val ecc s) rfl ?_
      simp only [doCycleCompletionWrite, h.here, haddr, beq_self_eq_true, if_true]
      exact h.cycleCompletion hlow hpush hpop hw
  · intro q c s p d hcur hfault hw hn hf
    have hquire : (4 * q.val + c.val) / 4 = q.val := by omega
    have hpass := passWait_eq (d := d) hw hn (by rwa [hquire])
    refine .next (t := waitPassed (4 * q.val + c.val) d s) ?_ ⟨?_, fun hkeep => ?_, fun hkeep => ?_⟩
    · exact congrArg Host.Outcome.next (by simp only [doDescWaitPass, hcur, hfault, hpass, Option.getD_some])
    · rw [coreOf, waitPassed, onCore, State.onQre_qre, Tab.get_mod_same]
    · rw [waitPassed, onCore, State.onQre_qre, hkeep, hquire]
      exact Tab.find_erase_same ..
    · rw [waitPassed, onCore, State.onQre_qre, if_pos hkeep]

end Sys2Proof.Machine
end

section
/-! Quire faults (R276, R291, R299), and the statement about them. -/

namespace Sys2Proof.Machine

/-! ## What a fault leaves of the quires -/

/-- A core stopped by a fault of its program. -/
def Core.stop (c : Core) : Core := { c with st := .stopped, waited := false, moved := 0, stalled := false }

theorem coreOf_onCore_same (k : Nat) (f : Core → Core) (s : State) : coreOf (onCore k f s) k = f (coreOf s k) :=
  Tab.get_mod_same ..

theorem coreOf_onCore_other {k n : Nat} (h : n ≠ k) (f : Core → Core) (s : State) : coreOf (onCore k f s) n = coreOf s n :=
  Tab.get_mod_other _ _ _ h

theorem coreOf_stopCores_other {p : Prog} {k : Nat} (h : k ∉ p.cores) (s : State) : coreOf (stopCores p s) k = coreOf s k := by
  unfold stopCores
  generalize p.cores = ks at h ⊢
  induction ks generalizing s with
  | nil => rfl
  | cons n ns ih =>
    obtain ⟨hn, hns⟩ : k ≠ n ∧ k ∉ ns := by simpa using h
    rw [List.foldl_cons, ih _ hns, coreOf_onCore_other hn]

/-- A core that is stopped stays so while others stop. -/
theorem stopped_foldl {k : Nat} {s : State} (ks : List Nat) (h : (coreOf s k).st = .stopped) :
    (coreOf (ks.foldl (fun s k => onCore k Core.stop s) s) k).st = .stopped := by
  induction ks generalizing s with
  | nil => exact h
  | cons n ns ih =>
    refine ih ?_
    by_cases hn : k = n
    · rw [hn, coreOf_onCore_same, Core.stop]
    · rwa [coreOf_onCore_other hn]

theorem coreOf_stopCores_mem {p : Prog} {k : Nat} (h : k ∈ p.cores) (s : State) : (coreOf (stopCores p s) k).st = .stopped := by
  change (coreOf (p.cores.foldl (fun s k => onCore k Core.stop s) s) k).st = .stopped
  generalize p.cores = ks at h ⊢
  induction ks generalizing s with
  | nil => cases h
  | cons n ns ih =>
    rcases List.mem_cons.mp h with rfl | h
    · refine stopped_foldl ns ?_
      rw [coreOf_onCore_same, Core.stop]
    · exact ih _ h

theorem stopCores_qre (p : Prog) (s : State) : ∃ cores, (stopCores p s).qre = { s.qre with cores := cores } := by
  unfold stopCores
  induction p.cores generalizing s with
  | nil => exact ⟨_, rfl⟩
  | cons n ns ih => exact ih (onCore n Core.stop s)

theorem beginBorrow_qre (s : State) : (beginBorrow s).qre = s.qre := (beginBorrow_foot s).same .qre rfl

/-- A class H fault is noted among the faults of its quire. -/
theorem faultH_qre (q : Nat) (s : State) : ∃ hfaults, (faultH q s).qre = { s.qre with hfaults := hfaults } := by
  unfold faultH
  dsimp only
  rw [apply_ite State.qre, event_qre, State.onEp_qre, State.onKt_qre, ite_self, beginBorrow_qre]
  exact ⟨_, rfl⟩

/-- What a quire fault leaves of the store, the queues, the flags and the cores. -/
structure StopsProgram (p : Prog) (s t : State) : Prop where
  stops  : ∀ k ∈ p.cores, (coreOf t k).st = .stopped
  others : ∀ k, k ∉ p.cores → coreOf t k = coreOf s k
  mem    : t.mem = s.mem
  flags  : t.qre.flags = s.qre.flags
  queues : t.qre.queues = s.qre.queues

theorem quireFault_stops {q c : Nat} {p : Prog} {s : State} (h : progOf s (4 * q + c) = some p) (f : QFault) :
    StopsProgram p s (quireFault q c f s) := by
  have hmem : (quireFault q c f s).mem = s.mem := quireFault_mem ..
  revert hmem
  unfold quireFault
  rw [h]
  dsimp only
  set u := event 0x0C01 (if (f.cause == 6 || f.cause == 7) = true then 3 else 2) _ 0 0 (count 0x256 s) with hu
  have huq : u.qre = s.qre := by rw [hu, event_qre, count_qre]
  set st := if (f.cause == 6 || f.cause == 7) = true then ProgSt.restoring else .stopped
  set v := onProg p.index (fun p => { p with st := st }) (stopCores p u) with hv
  set t := if (f.cause == 6 || f.cause == 7) = true then faultH q v else event 0x0C02 3 [p.index, f.cause] 0 0 v with ht
  intro hmem
  obtain ⟨hfaults, htq⟩ : ∃ hfaults, t.qre = { v.qre with hfaults := hfaults } := by
    rw [ht]
    split
    · exact faultH_qre q v
    · exact ⟨v.qre.hfaults, event_qre ..⟩
  have hcore : ∀ k, coreOf t k = coreOf (stopCores p u) k := fun k => by rw [coreOf, htq]; rfl
  obtain ⟨cores, hsq⟩ := stopCores_qre p u
  have hrest : t.qre.flags = u.qre.flags ∧ t.qre.queues = u.qre.queues := by
    rw [htq, hv, onProg, State.onQre_qre, hsq]
    exact ⟨rfl, rfl⟩
  refine ⟨fun k hk => ?_, fun k hk => ?_, hmem, by rw [hrest.1, huq], by rw [hrest.2, huq]⟩
  · rw [hcore, coreOf_stopCores_mem hk]
  · rw [hcore, coreOf_stopCores_other hk, coreOf, huq, coreOf]

/-! ## A descriptor that faults -/

theorem progOf_of_current {s : State} {k : Nat} {p : Prog} {d : Desc} (h : current s k = some (p, d)) : progOf s k = some p := by
  unfold current at h
  obtain ⟨-, h⟩ := of_ite_eq_of_ne h (by simp)
  split at h
  next => cases h
  next r hr =>
    obtain ⟨-, h⟩ := of_ite_eq_of_ne h (by simp)
    split at h
    next => cases h
    next =>
      obtain ⟨_, -, he⟩ := Option.map_eq_some_iff.mp h
      rw [hr, (Prod.mk.inj he).1]

/-- A descriptor whose own entry fails its check faults. -/
theorem runOp_entryFault {q c : Nat} {s : State} {p : Prog} {d : Desc} (h : current s (4 * q + c) = some (p, d)) :
    runOp d.opn q c .desc s = quireFault q c { cause := 7, res := q } s := by
  simp [runOp, h]

/-- A descriptor without a wait and with an access that is not declared faults. -/
theorem runOp_undeclared {q c : Nat} {ecc : EccHit} {s : State} {p : Prog} {d : Desc} {f : QFault}
    (h : current s (4 * q + c) = some (p, d)) (he : ecc ≠ .desc) (hw : d.wait.getLsbD 15 = false)
    (hu : undeclared p.c d (d.accesses s.mem) = some f) : runOp d.opn q c ecc s = quireFault q c f s := by
  have hwait : (!d.wait.getLsbD 15 || (coreOf s (4 * q + c)).waited) = true := by rw [hw]; rfl
  have hdesc : ¬ (ecc == EccHit.desc) = true := by simpa using he
  simp only [runOp, h, bne_self_eq_false, Bool.false_eq_true, if_false, hdesc, waitFault, passWait, hwait, if_true, runWork, hu]

/-- Settles O54: both faults stop the program and leave the rest of the quires. -/
theorem quireFaultsStopTheProgram : Obligations.QuireFaultsStopTheProgram := by
  unfold Obligations.QuireFaultsStopTheProgram
  intro i op q c ecc s p d f hi hcur hop hfault
  subst hop
  obtain ⟨g, hrun⟩ : ∃ g, runOp d.opn q c ecc s = quireFault q c g s := by
    by_cases he : ecc = .desc
    · subst he
      exact ⟨_, runOp_entryFault hcur⟩
    · obtain ⟨hw, hu⟩ := hfault.resolve_left he
      exact ⟨f, runOp_undeclared hcur he hw hu⟩
  have hstops := quireFault_stops (progOf_of_current hcur) g
  exact .next ((exec_dataOp hi s).1.trans (congrArg _ hrun))
    ⟨hstops.stops, hstops.others, hstops.mem, hstops.flags, hstops.queues⟩

end Sys2Proof.Machine
end

section
/-! Scrubbing, LPDDR5X training and the preparation of an epoch (R276, R283, R285, R290). -/

namespace Sys2Proof.Machine

/-! ## Scrubbing (R276) -/

theorem Tab.get_of_find_none {α : Type} {t : Tab α} {k : Nat} (h : t.find k = none) (d : α) : t.get d k = d := by
  induction t with
  | nil => rfl
  | cons p t ih =>
    obtain ⟨j, v⟩ := p
    by_cases hj : j = k
    · simp [Tab.find, hj] at h
    · rw [Tab.find, if_neg hj] at h
      rw [Tab.get, if_neg hj, ih h]

/-- A block marked poisoned is among the poisoned blocks, which the rest of the quires does not see. -/
theorem poison_qre (a : Nat) (s : State) : ∃ bs, (poison a s).qre = { s.qre with poison := s.qre.poison ++ bs } ∧
    a / 64 * 64 ∈ s.qre.poison ++ bs := by
  unfold poison
  dsimp only
  split
  next h => exact ⟨[], by rw [List.append_nil], by simpa using h⟩
  next => exact ⟨[a / 64 * 64], by rw [event_qre, State.onQre_qre], by simp⟩

theorem poison_foldl (as : List Nat) (s : State) : ∃ bs,
    (as.foldl (fun s a => poison a s) s).qre = { s.qre with poison := s.qre.poison ++ bs } ∧
    ∀ a ∈ as, a / 64 * 64 ∈ s.qre.poison ++ bs := by
  induction as generalizing s with
  | nil => exact ⟨[], by rw [List.foldl_nil, List.append_nil], by simp⟩
  | cons a as ih =>
    obtain ⟨bs, hq, ha⟩ := poison_qre a s
    obtain ⟨cs, hqs, has⟩ := ih (poison a s)
    rw [hq] at hqs has
    refine ⟨bs ++ cs, by rw [List.foldl_cons, hqs, ← List.append_assoc], fun b hb => ?_⟩
    rw [← List.append_assoc]
    rcases List.mem_cons.mp hb with rfl | hb
    · exact List.mem_append_left _ ha
    · exact has b hb

theorem poison_foldl_foot (as : List Nat) (s : State) :
    Foot [.out, .keep, .host, .log, .pmc, .spn, .qre] s (as.foldl (fun s a => poison a s) s) :=
  .foldl .refl fun _ _ h => h.then (poison_foot ..) rfl

/-- The first corrections of a slice are reported at once. -/
theorem corrected'_first {n k : Nat} {s : State} (hk : 0 < k) (h : s.qre.corr.find n = none) :
    (corrected' n k s).qre.corr.find n = some (0, some s.now) := by
  have hk0 : ¬ (k == 0) = true := by simpa using Nat.pos_iff_ne_zero.mp hk
  have hget : s.qre.corr.get (0, none) n = (0, none) := Tab.get_of_find_none h _
  have hqre : ∀ ev, (countN ev k s).qre = s.qre := fun ev => (countN_foot ..).same .qre rfl
  have hnow : ∀ ev, (countN ev k s).now = s.now := fun ev => (countN_foot ..).same .now rfl
  simp only [corrected', if_neg hk0, hqre, hget, hnow, if_true, event_qre, State.onQre_qre, Tab.find_set_same]

/-- A slice's scrub begun, no earlier than 10 min after the one before. -/
def scrubbed (n : Nat) (s : State) : State :=
  let u := reach (s.qre.scrub.get s.qre.scrubFrom n + 600000000) s
  u.onQre fun x => { x with scrub := x.scrub.set n u.now }

theorem doScrubPass_eq {s : State} (h : s.pwr.store = .on) (n k : Nat) (bad : List Nat) : doScrubPass n k bad s =
    (bad.filter fun a => a / 2 ^ 25 == n).foldl (fun s a => poison a s) (corrected' n k (scrubbed n s)) := by
  rw [doScrubPass, if_neg (by simp [h])]
  rfl

theorem doScrubPass_completes {s : State} (h : s.pwr.store = .on) (n k : Nat) (bad : List Nat) :
    s.qre.scrub.get s.qre.scrubFrom n + 600000000 ≤ (doScrubPass n k bad s).now ∧
    (∀ a ∈ bad, a / 2 ^ 25 = n → (doScrubPass n k bad s).qre.poison.contains (a / 64 * 64) = true) ∧
    (doScrubPass n k bad s).mem = s.mem ∧
    (0 < k → s.qre.corr.find n = none →
      (doScrubPass n k bad s).qre.corr.find n = some (0, some (doScrubPass n k bad s).now)) := by
  rw [doScrubPass_eq h]
  set u := scrubbed n s with hu
  have hfoot : Foot [.out, .keep, .host, .log, .pmc, .spn, .qre] u
      ((bad.filter fun a => a / 2 ^ 25 == n).foldl (fun s a => poison a s) (corrected' n k u)) :=
    (corrected'_foot ..).then (poison_foldl_foot ..) rfl
  have hunow : u.now = max s.now (s.qre.scrub.get s.qre.scrubFrom n + 600000000) := by rw [hu, scrubbed, State.onQre_now, reach_now]
  have hcorr : u.qre.corr = s.qre.corr := by rw [hu, scrubbed, State.onQre_qre, reach_qre]
  obtain ⟨bs, hq, hbad⟩ := poison_foldl (bad.filter fun a => a / 2 ^ 25 == n) (corrected' n k u)
  refine ⟨?_, fun a ha hn => ?_, ?_, fun hk hfind => ?_⟩
  · rw [hfoot.same .now rfl, hunow]
    exact Nat.le_max_right ..
  · rw [hq]
    exact List.contains_iff_mem.mpr (hbad a (List.mem_filter.mpr ⟨ha, beq_iff_eq.mpr hn⟩))
  · rw [hfoot.same .mem rfl, hu, scrubbed, State.onQre_mem, reach_mem]
  · rw [hq, hfoot.same .now rfl]
    exact corrected'_first hk (by rw [hcorr, hfind])

/-! ## LPDDR5X training (R290) -/

theorem finishAll_foot (js : List Nat) (r : Word) (s : State) :
    Foot [.out, .mbx, .jr, .stg, .pmc, .spn, .pair, .stw] s (js.foldl (fun s j => finish0 j r s) s) :=
  .foldl .refl fun _ _ h => h.then (finish0_foot ..) rfl

/-- Training that has ended leaves the capacity that it found. -/
theorem doLpddrTrainingDone_qre {s : State} {j : Nat} (h : s.qre.train = some j) (ok : Bool) (ch k : Nat) :
    (doLpddrTrainingDone ok ch k s).qre = { s.qre with
      train := none,
      cap := if ok then (match s.kt.spill with | some b => if fld b 0 1 == 1 then 2 * fld b 2 1 else 0 | none => 0) else 0 } := by
  simp only [doLpddrTrainingDone, h]
  rw [(finishAll_foot ..).same .qre rfl, apply_ite State.qre, event_qre, ite_self]
  rfl

/-! ## The preparation of an epoch (R283, R285) -/

theorem doEpochPrepDone_ready {s : State} {p : PendEpoch} (hp : s.ep.pend = some p) (hn : p.ready = false)
    (hr : running s = true) (hst : s.pwr.store = .on) (hh : p.progs.all (halvesUp s) = true)
    (hf : p.progs.all (spillFits s) = true) : (doEpochPrepDone true s).ep.pend = some { p with ready := true } := by
  simp [doEpochPrepDone, hp, hn, hr, hst, hh, hf]

/-- A pending epoch behind which none waits ends without taking effect. -/
theorem dropPending_ep {s : State} {p : PendEpoch} (hp : s.ep.pend = some p) (hl : s.ep.later = []) (r : Word) :
    (dropPending r s).ep = { s.ep with pend := none } := by
  have hlater : (finish0 p.ref.jseq r (s.onEp fun x => { x with pend := none })).ep.later = [] := by
    rw [finish0_ep, State.onEp_ep, hl]
  simp only [dropPending, hp, startLater, hlater]
  rw [finish0_ep, State.onEp_ep]

theorem dropPending_now {s : State} {p : PendEpoch} (hp : s.ep.pend = some p) (hl : s.ep.later = []) (r : Word) :
    (dropPending r s).now = s.now := by
  have hlater : (finish0 p.ref.jseq r (s.onEp fun x => { x with pend := none })).ep.later = [] := by
    rw [finish0_ep, State.onEp_ep, hl]
  simp only [dropPending, hp, startLater, hlater, finish0_now, State.onEp_now]

theorem doEpochPrepDone_failed {s : State} {p : PendEpoch} (hp : s.ep.pend = some p) (hn : p.ready = false)
    (hr : running s = true) : doEpochPrepDone false s = dropPending 0x0C03 s := by
  simp [doEpochPrepDone, hp, hn, hr]

/-! ## The preload (R283) -/

theorem binderWrite_progs (a : Nat) (bs : Bytes) (s : State) : (binderWrite a bs s).qre.progs = s.qre.progs := rfl

theorem binderWrites_progs {α : Type} (f : α → Nat × Bytes) (xs : List α) (s : State) :
    (xs.foldl (fun s x => binderWrite (f x).1 (f x).2 s) s).qre.progs = s.qre.progs :=
  foldl_view (view := fun s => s.qre.progs) (fun _ _ => binderWrite_progs ..) xs s

theorem zeroFill_progs (ps : List Prog) (s : State) : (zeroFill ps s).qre.progs = s.qre.progs :=
  binderWrites_progs (fun b => (b, zeros 64)) ..

/-- The context blocks of the programs of an epoch (R278). -/
def contextsWritten (w : PreWork) (m : Manifest) (s : State) : State :=
  w.progs.foldl (fun s i => binderWrite (m.context + 64 * i) (contextBlock s m w i) s) s

theorem contextsWritten_progs (w : PreWork) (m : Manifest) (s : State) : (contextsWritten w m s).qre.progs = s.qre.progs :=
  foldl_view (view := fun s => s.qre.progs) (fun _ _ => binderWrite_progs ..) w.progs s

/-- What PRELOAD_DONE writes: the context blocks, the preload that overlaps the running regions, and the zero fill. -/
def preloadWritten (w : PreWork) (s : State) : State :=
  let u := w.late.foldl (fun s r => binderWrite r.1 r.2 s) (contextsWritten w (manOf s) s)
  zeroFill (u.qre.progs.filter fun p => w.progs.contains p.index) u

theorem preloadWritten_progs (w : PreWork) (s : State) : (preloadWritten w s).qre.progs = s.qre.progs := by
  unfold preloadWritten
  dsimp only
  rw [zeroFill_progs, binderWrites_progs (fun r => r), contextsWritten_progs]

/-- The quires of the position's programs. -/
def progQuires (s : State) : List Nat := (List.range 64).filter fun q => s.qre.progs.any fun p => p.c.quires.testBit q

theorem doPreloadDone_eq {s : State} {w : PreWork} (hw : s.ep.pre = some w) (hr : running s = true)
    (hst : s.pwr.store = .on) : doPreloadDone s =
    ((preloadWritten w s).onQre fun x => { x with
      flags := (progQuires (preloadWritten w s)).foldl (fun f q => f.set (256 * q + (manOf s).preload) true) x.flags }).onEp
        fun x => { x with pre := none } := by
  simp only [doPreloadDone, hw, hr, hst, Bool.not_true, bne_self_eq_false, Bool.or_self, Bool.false_eq_true, if_false]
  rfl

/-- Flags set one after the other are all set. -/
theorem flags_foldl_set {g : Nat → Nat} {k : Nat} (qs : List Nat) {f : Tab Bool}
    (h : k ∈ qs ∨ f.get false (g k) = true) : (qs.foldl (fun f q => f.set (g q) true) f).get false (g k) = true := by
  induction qs generalizing f with
  | nil => exact h.resolve_left List.not_mem_nil
  | cons q qs ih =>
    refine ih ?_
    by_cases hq : g k = g q
    · exact .inr (by rw [hq, Tab.get_set_same])
    · rw [Tab.get_set_other _ _ _ hq]
      rcases h with h | h
      · exact .inl ((List.mem_cons.mp h).resolve_left fun he => hq (congrArg g he))
      · exact .inr h

theorem doPreloadDone_completes {s : State} {w : PreWork} (hw : s.ep.pre = some w) (hr : running s = true)
    (hst : s.pwr.store = .on) : (doPreloadDone s).ep.pre = none ∧
    ∀ p ∈ s.qre.progs, ∀ q < 64, p.c.quires.testBit q = true →
      (doPreloadDone s).qre.flags.get false (256 * q + (manOf s).preload) = true := by
  rw [doPreloadDone_eq hw hr hst]
  refine ⟨rfl, fun p hp q hq hbit => ?_⟩
  have hmem : q ∈ progQuires (preloadWritten w s) := by
    rw [progQuires, preloadWritten_progs]
    exact List.mem_filter.mpr ⟨List.mem_range.mpr hq, List.any_eq_true.mpr ⟨p, hp, hbit⟩⟩
  exact flags_foldl_set (g := fun q => 256 * q + (manOf s).preload) _ (.inl hmem)

/-! ## The row's agreement (R285) -/

theorem otherParts_nextPoll (m : Manifest) (s : State) : otherParts (nextPoll s) m = otherParts s m := by
  simp [otherParts, posOf, nextPoll]

theorem nextPoll_now (s : State) : (nextPoll s).now = max s.now (s.ep.pollAt + 10000) := by simp [nextPoll]

theorem nextPoll_ep (s : State) : (nextPoll s).ep = { s.ep with pollAt := max (max s.now (s.ep.pollAt + 10000)) (s.ep.pollAt + 10000) } := by
  simp [nextPoll]

/-- An EPOCH_TICK announced and named to the pending epoch. -/
def nameTick (t : Nat) (s : State) : State :=
  (s.onSpn fun p => { p with epochTick := t }).onEp fun x => { x with pend := x.pend.map fun q => { q with named := some t } }

theorem announceEpoch_eq (s : State) : announceEpoch s = nameTick ((rowTime s + 30000000 + 9999999) / 10000000) s := rfl

theorem nameTick_names {s : State} {p : PendEpoch} (h : s.ep.pend = some p) (t : Nat) :
    (nameTick t s).spn.epochTick = t ∧ rowTime (nameTick t s) = rowTime s ∧
    (nameTick t s).ep.pend = some { p with named := some t } :=
  ⟨rfl, rfl, by rw [nameTick, State.onEp_ep, State.onSpn_ep, h]; rfl⟩

theorem doEpochReadyPoll_announces {s : State} {p : PendEpoch} {as_ : List EpochAnswer} (hm : isMaster s = true)
    (hp : s.ep.pend = some p) (hmode : p.ref.man.mode ≠ 0) (hredo : p.redo = false) (hready : p.ready = true)
    (hnamed : p.named = none) (hall : (otherParts s p.ref.man).all (readyAt as_ p.ref.num) = true)
    (hnow : s.now ≤ p.at_ + 9000000) (hpoll : s.ep.pollAt + 10000 ≤ p.at_ + 9000000) :
    doEpochReadyPoll as_ s = announceEpoch (nextPoll s) := by
  have htime : decide ((nextPoll s).now ≤ p.at_ + 9000000) = true := by
    rw [nextPoll_now, decide_eq_true_eq]
    exact Nat.max_le.mpr ⟨hnow, hpoll⟩
  simp [doEpochReadyPoll, hm, hp, hmode, hredo, hready, hnamed, otherParts_nextPoll, hall, htime]

end Sys2Proof.Machine
end

section
/-! The boundary exchange, restores and checkpoint writes (R285, R296, R298, R306), and the statement about epochs. -/

namespace Sys2Proof.Machine

/-! ## A row epoch that no EPOCH_TICK is named for (R285) -/

theorem doEpochLapse_eq {s : State} {p : PendEpoch} (hp : s.ep.pend = some p) (hmode : p.ref.man.mode ≠ 0)
    (hredo : p.redo = false) (hnamed : p.named = none) (hr : running s = true) :
    doEpochLapse s = dropPending 0x0C01 (reach (p.at_ + 10000000) s) := by
  simp [doEpochLapse, hp, hmode, hredo, hnamed, hr]

theorem doEpochLapse_drops {s : State} {p : PendEpoch} (hp : s.ep.pend = some p) (hmode : p.ref.man.mode ≠ 0)
    (hredo : p.redo = false) (hnamed : p.named = none) (hr : running s = true) (hl : s.ep.later = []) :
    p.at_ + 10000000 ≤ (doEpochLapse s).now ∧ (doEpochLapse s).ep = { s.ep with pend := none } := by
  have hpu : (reach (p.at_ + 10000000) s).ep.pend = some p := by rw [reach_ep, hp]
  have hlu : (reach (p.at_ + 10000000) s).ep.later = [] := by rw [reach_ep, hl]
  rw [doEpochLapse_eq hp hmode hredo hnamed hr, dropPending_now hpu hlu, dropPending_ep hpu hlu, reach_now, reach_ep]
  exact ⟨Nat.le_max_right .., rfl⟩

/-! ## The boundary exchange (R296) -/

theorem inSlot_congr {s t : State} (h : t.ep.cur = s.ep.cur) (e : Nat) : inSlot t e = inSlot s e := by
  rw [inSlot, inSlot, manOf_congr h]

theorem exchanging_congr {s t : State} (hw : t.pwr = s.pwr) (hb : t.boot = s.boot) (hc : t.ep.cur = s.ep.cur) :
    exchanging t = exchanging s := by
  rw [exchanging, exchanging, running_congr hw hb, manOf_congr hc, hw]

theorem putInbox_mem (e tick : Nat) (vals : Bytes) (s : State) :
    (putInbox e tick vals s).mem = s.mem.writeN (inSlot s e) (vals ++ leBytes 4 tick ++ [0, 0]) := rfl

theorem putInbox_arrived (e tick : Nat) (vals : Bytes) (s : State) : e ∈ (putInbox e tick vals s).ep.arrived :=
  List.mem_cons_self

/-- The state with an element's slot marked sent. -/
def elemSent (e : Nat) (s : State) : State := s.onEp fun x => { x with sent := e :: x.sent }

/-- The nine values of an element's outbox slot. -/
def slotValues (e : Nat) (s : State) : List Word :=
  (List.range 9).map fun i => BitVec.ofNat 32 (fld (s.mem.readN (outSlot s e) 36) (4 * i) 4)

theorem doBoundarySlotSend_eq {s : State} {e : Nat} (hx : exchanging s = true) (ha : acting s = true)
    (ho : ownElem s e = true) (hn : s.ep.sent.contains e = false)
    (hstamp : leVal (s.mem.readN (outSlot s e + 36) 4) = s.ep.tick % 2 ^ 32) (hnow : s.now ≤ s.ep.tickAt + 780) :
    doBoundarySlotSend e s = count 0x2F0 (putInbox e (s.ep.tick % 2 ^ 32) (s.mem.readN (outSlot s e) 36)
      (sendSpine 0xFF (.boundary (posOf s) (s.ep.tick % 2 ^ 32) e (slotValues e s)) (elemSent e s))) := by
  have hlate : ¬ (elemSent e s).ep.tickAt + 780 < (elemSent e s).now := Nat.not_lt.mpr hnow
  rw [doBoundarySlotSend]
  dsimp only
  rw [if_neg (by simp [hx, ha, ho, hstamp]; simpa using hn)]
  exact if_neg hlate

theorem doBoundarySlotSend_sends {s : State} {e : Nat} (hx : exchanging s = true) (ha : acting s = true)
    (ho : ownElem s e = true) (hn : s.ep.sent.contains e = false)
    (hstamp : leVal (s.mem.readN (outSlot s e + 36) 4) = s.ep.tick % 2 ^ 32) (hnow : s.now ≤ s.ep.tickAt + 780) :
    e ∈ (doBoundarySlotSend e s).ep.sent ∧ e ∈ (doBoundarySlotSend e s).ep.arrived ∧
    (doBoundarySlotSend e s).mem = s.mem.writeN (inSlot s e)
      (s.mem.readN (outSlot s e) 36 ++ leBytes 4 (s.ep.tick % 2 ^ 32) ++ [0, 0]) := by
  rw [doBoundarySlotSend_eq hx ha ho hn hstamp hnow]
  set u := sendSpine 0xFF (.boundary (posOf s) (s.ep.tick % 2 ^ 32) e (slotValues e s)) (elemSent e s) with hu
  have hep : u.ep = (elemSent e s).ep := sendSpine_ep ..
  refine ⟨?_, ?_, ?_⟩
  · rw [count_ep]
    change e ∈ u.ep.sent
    rw [hep]
    exact List.mem_cons_self
  · rw [count_ep]
    exact putInbox_arrived ..
  · rw [count_mem, putInbox_mem, inSlot_congr (s := s) (by rw [hep]; rfl), hu, sendSpine_mem]
    rfl

/-- A boundary frame that comes in is judged by the exchange and the cycle as they stand. -/
theorem doBoundaryFrame_eq {f : FrameHdr} {s : State} (h : Comes f s) (hx : exchanging s = true) {e : Nat}
    (he : e < (manOf s).nelem) (part tick : Nat) (vals : List Word) : doBoundaryFrame f part tick e vals s =
    let u := arrived f (.boundary part tick e vals) s
    if tick != s.ep.tick % 2 ^ 32 || decide (s.ep.tickAt + 800 < s.now) || s.ep.endAt then boundaryLate e u
    else putInbox e tick ((List.range 9).flatMap fun i => leBytes 4 (vals.getD i 0).toNat) u := by
  have hfoot := arrived_foot h (.boundary part tick e vals)
  have hep := hfoot.same .ep rfl
  have hxu := exchanging_congr (hfoot.same .pwr rfl) (hfoot.same .boot rfl) (congrArg Epoch.cur hep)
  rw [doBoundaryFrame, rxFrame_arrived h]
  set u := arrived f (.boundary part tick e vals) s
  dsimp only
  rw [hxu, hx, manOf_congr (congrArg Epoch.cur hep), hep, hfoot.same .now rfl, if_neg]
  simpa using he

theorem doBoundaryFrame_takes {f : FrameHdr} {s : State} (h : Comes f s) (hx : exchanging s = true) {e : Nat}
    (he : e < (manOf s).nelem) (hnow : s.now ≤ s.ep.tickAt + 800) (hend : s.ep.endAt = false) (part : Nat) (vals : List Word) :
    e ∈ (doBoundaryFrame f part (s.ep.tick % 2 ^ 32) e vals s).ep.arrived ∧
    (doBoundaryFrame f part (s.ep.tick % 2 ^ 32) e vals s).mem = s.mem.writeN (inSlot s e)
      (((List.range 9).flatMap fun i => leBytes 4 (vals.getD i 0).toNat) ++ leBytes 4 (s.ep.tick % 2 ^ 32) ++ [0, 0]) := by
  have hfoot := arrived_foot h (.boundary part (s.ep.tick % 2 ^ 32) e vals)
  rw [doBoundaryFrame_eq h hx he]
  dsimp only
  rw [if_neg (by simp [hend, hnow])]
  refine ⟨putInbox_arrived .., ?_⟩
  rw [putInbox_mem, inSlot_congr (congrArg Epoch.cur (hfoot.same .ep rfl)), hfoot.same .mem rfl]

theorem doBoundaryFrame_stale {f : FrameHdr} {s : State} (h : Comes f s) (hx : exchanging s = true) {e tick : Nat}
    (he : e < (manOf s).nelem) (ht : tick ≠ s.ep.tick % 2 ^ 32) (part : Nat) (vals : List Word) :
    (doBoundaryFrame f part tick e vals s).mem = s.mem ∧ (doBoundaryFrame f part tick e vals s).ep = s.ep := by
  have hlate := ((arrived_foot h (.boundary part tick e vals)).mono rfl).then (boundaryLate_foot e _) rfl
    (fs := [.out, .keep, .host, .log, .pmc, .spn])
  rw [doBoundaryFrame_eq h hx he]
  dsimp only
  rw [if_pos (by rw [bne_iff_ne.mpr ht]; rfl)]
  exact ⟨hlate.same .mem rfl, hlate.same .ep rfl⟩

/-! ## The deadline of the exchange (R296) -/

/-- What an element that did not arrive leaves of the epoch. -/
theorem missElem_ep (e : Nat) (s : State) : (missElem e s).ep =
    { s.ep with missed := s.ep.missed.set e (min 255 (s.ep.missed.get 0 e + 1)) } := by
  unfold missElem
  dsimp only
  rw [apply_ite State.ep, State.onMem_ep, State.onMem_ep, State.onEp_ep, ite_self]

theorem missElem_now (e : Nat) (s : State) : (missElem e s).now = s.now := by
  unfold missElem
  dsimp only
  rw [apply_ite State.now, State.onMem_now, State.onMem_now, State.onEp_now, ite_self]

theorem missElems_other {e : Nat} {es : List Nat} (h : e ∉ es) (s : State) :
    (es.foldl (fun s e => missElem e s) s).ep.missed.get 0 e = s.ep.missed.get 0 e := by
  induction es generalizing s with
  | nil => rfl
  | cons n ns ih =>
    obtain ⟨hn, hns⟩ : e ≠ n ∧ e ∉ ns := by simpa using h
    rw [List.foldl_cons, ih hns, missElem_ep, Tab.get_set_other _ _ _ hn]

/-- Each element of a list without repetition is counted once. -/
theorem missElems_mem {e : Nat} {es : List Nat} (hd : es.Nodup) (h : e ∈ es) (s : State) :
    (es.foldl (fun s e => missElem e s) s).ep.missed.get 0 e = min 255 (s.ep.missed.get 0 e + 1) := by
  induction es generalizing s with
  | nil => cases h
  | cons n ns ih =>
    obtain ⟨hn, hns⟩ := List.nodup_cons.mp hd
    rw [List.foldl_cons]
    by_cases he : e = n
    · rw [he, missElems_other hn, missElem_ep, Tab.get_set_same]
    · rw [ih hns ((List.mem_cons.mp h).resolve_left he), missElem_ep, Tab.get_set_other _ _ _ he]

/-- The exchange of a tick closed, 0.8 ms after it. -/
def exchangeEnded (s : State) : State := (reach (s.ep.tickAt + 800) s).onEp fun x => { x with endAt := true }

theorem exchangeEnded_ep (s : State) : (exchangeEnded s).ep = { s.ep with endAt := true } := by
  rw [exchangeEnded, State.onEp_ep, reach_ep]

theorem doBoundaryDeadline_eq {s : State} (hx : exchanging s = true) (hend : s.ep.endAt = false) : doBoundaryDeadline s =
    ((List.range (manOf s).nelem).filter fun e => !s.ep.arrived.contains e).foldl (fun s e => missElem e s) (exchangeEnded s) := by
  have hman : manOf (exchangeEnded s) = manOf s := manOf_congr (by rw [exchangeEnded_ep])
  rw [doBoundaryDeadline, if_neg (by simp [hx, hend])]
  change ((List.range (manOf (exchangeEnded s)).nelem).filter fun e => !(exchangeEnded s).ep.arrived.contains e).foldl
    (fun s e => missElem e s) (exchangeEnded s) = _
  rw [hman, exchangeEnded_ep]

theorem doBoundaryDeadline_completes {s : State} (hx : exchanging s = true) (hend : s.ep.endAt = false) :
    s.ep.tickAt + 800 ≤ (doBoundaryDeadline s).now ∧ (doBoundaryDeadline s).ep.endAt = true ∧
    ∀ e < (manOf s).nelem, s.ep.arrived.contains e = false →
      (doBoundaryDeadline s).ep.missed.get 0 e = min 255 (s.ep.missed.get 0 e + 1) := by
  rw [doBoundaryDeadline_eq hx hend]
  refine ⟨?_, ?_, fun e he hn => ?_⟩
  · rw [foldl_view (view := State.now) (fun s e => missElem_now e s), exchangeEnded, State.onEp_now, reach_now]
    exact Nat.le_max_right ..
  · rw [foldl_view (view := fun s => s.ep.endAt) (fun s e => by rw [missElem_ep]), exchangeEnded_ep]
  · have hmem : e ∈ (List.range (manOf s).nelem).filter fun e => !s.ep.arrived.contains e :=
      List.mem_filter.mpr ⟨List.mem_range.mpr he, by rw [hn]; rfl⟩
    rw [missElems_mem (List.nodup_range.filter _) hmem, exchangeEnded_ep]

/-! ## Restores (R298) -/

theorem writeRange_progs (data : Mem) (r : Nat × Nat) (s : State) : (writeRange data r s).qre.progs = s.qre.progs := rfl

theorem writeRanges_progs (data : Mem) (rs : List (Nat × Nat)) (s : State) :
    (rs.foldl (fun s r => writeRange data r s) s).qre.progs = s.qre.progs :=
  foldl_view (view := fun s => s.qre.progs) (fun _ _ => writeRange_progs ..) rs s

/-- A restored program is no longer being restored. -/
def Prog.restore (p : Prog) : Prog := if p.isIn .restoring then { p with st := .restored } else p

theorem Prog.restore_st (p : Prog) : p.restore.st ≠ .restoring := by
  unfold Prog.restore Prog.isIn
  split
  · exact ProgSt.noConfusion
  next h => simpa using h

theorem doModelRestoreDone_progs {s : State} {e : EpochRef} (hc : s.ep.cur = some e) (hr : running s = true)
    (hst : s.pwr.store = .on) : (doModelRestoreDone s).qre.progs = s.qre.progs.map Prog.restore := by
  unfold doModelRestoreDone
  simp only [hc, hr, hst, Bool.not_true, bne_self_eq_false, Bool.or_false]
  split
  next hnone =>
    have hall : ∀ p ∈ s.qre.progs, p.isIn .restoring = false := by simpa [List.filter_eq_nil_iff] using hnone
    have hsame : ∀ p ∈ s.qre.progs, p.restore = p := fun p hp => by simp [Prog.restore, hall p hp]
    rw [List.map_congr_left hsame, List.map_id']
  next =>
    rw [State.onQre_qre]
    refine congrArg (List.map Prog.restore) ?_
    rw [zeroFill_progs]
    refine (foldl_view (view := fun s => s.qre.progs) (fun u r => ?_) ..).trans (writeRanges_progs ..)
    rw [apply_ite State.qre, apply_ite Quires.progs, binderWrite_progs, ite_self]

/-! ## The statement -/

/-- Settles O55: each row by what its operation leaves. -/
theorem epochCommandsComplete : Obligations.EpochCommandsComplete := by
  unfold Obligations.EpochCommandsComplete
  refine ⟨?scrub, ?trained, ?untrained, ?prepared, ?unprepared, ?preload, ?poll, ?lapse, ?send, ?frame, ?stale, ?deadline,
    ?restore, ?checkpoint⟩
  case scrub =>
    intro s n k bad hst
    exact .next rfl (doScrubPass_completes hst ..)
  case trained =>
    intro s j b ch k ht hb hen
    refine .next (t := doLpddrTrainingDone true ch k s) rfl ?_
    rw [doLpddrTrainingDone_qre ht]
    simp [hb, hen]
  case untrained =>
    intro s j ch k ht
    refine .next (t := doLpddrTrainingDone false ch k s) rfl ?_
    rw [doLpddrTrainingDone_qre ht]
    exact ⟨rfl, rfl⟩
  case prepared =>
    intro s p hp hn hr hst hh hf
    exact .next rfl (doEpochPrepDone_ready hp hn hr hst hh hf)
  case unprepared =>
    intro s p hp hn hr hl
    refine .next (t := doEpochPrepDone false s) rfl ?_
    rw [doEpochPrepDone_failed hp hn hr, dropPending_ep hp hl]
    exact ⟨rfl, rfl⟩
  case preload =>
    intro s w hw hr hst
    exact .next rfl (doPreloadDone_completes hw hr hst)
  case poll =>
    intro s p as_ hm hp hmode hredo hready hnamed hall hnow hpoll
    have hpu : (nextPoll s).ep.pend = some p := by rw [nextPoll_ep, hp]
    obtain ⟨htick, htime, hpend⟩ := nameTick_names hpu ((rowTime (nextPoll s) + 30000000 + 9999999) / 10000000)
    refine .next (t := doEpochReadyPoll as_ s) rfl ?_
    rw [doEpochReadyPoll_announces hm hp hmode hredo hready hnamed hall hnow hpoll, announceEpoch_eq]
    refine ⟨?_, by rw [htick, htime], by rw [hpend, htick]⟩
    rw [nameTick, State.onEp_now, State.onSpn_now, nextPoll_now]
    exact Nat.le_max_right ..
  case lapse =>
    intro s p hp hmode hredo hnamed hr hl
    obtain ⟨hnow, hep⟩ := doEpochLapse_drops hp hmode hredo hnamed hr hl
    exact .next rfl ⟨hnow, by rw [hep], by rw [hep]⟩
  case send =>
    intro s e hx ha ho hn hstamp hnow
    exact .next rfl (doBoundarySlotSend_sends hx ha ho hn hstamp hnow)
  case frame =>
    intro s f part e vals h hx he hnow hend
    exact .next rfl (doBoundaryFrame_takes h hx he hnow hend part vals)
  case stale =>
    intro s f part tick e vals h hx he ht
    exact .next rfl (doBoundaryFrame_stale h hx he ht part vals)
  case deadline =>
    intro s hx hend
    exact .next rfl (doBoundaryDeadline_completes hx hend)
  case restore =>
    intro s e hc hr hst
    have hprogs := doModelRestoreDone_progs hc hr hst
    refine .next (t := doModelRestoreDone s) rfl ⟨fun p hp => ?_, fun p hp hres => ⟨p.restore, ?_, ?_, ?_⟩⟩
    · rw [hprogs] at hp
      obtain ⟨r, -, rfl⟩ := List.mem_map.mp hp
      exact r.restore_st
    · rw [hprogs]
      exact List.mem_map_of_mem hp
    · simp [Prog.restore, apply_ite Prog.index]
    · simp [Prog.restore, Prog.isIn, hres]
  case checkpoint =>
    intro s c ok hcopy hslot
    refine .next (t := doCheckpointWriteDone ok s) rfl ?_
    simp only [doCheckpointWriteDone, hcopy, State.onEp_ep, State.onEp_cat, State.onCat_cat, List.getElem?_set_self hslot,
      and_self]

end Sys2Proof.Machine
end

section
/-! The steward's part through completions, and the endpaper tag from the wired side and over RF (R345 to R349). -/

namespace Sys2Proof.Machine

/-! ## Completions as the steward sees them (R97, R330) -/

/-- The steward's part of the state but for its agents, which hold the responses that wait for them. -/
def stewCore (s : State) : Steward := { s.stw with agents := [] }

theorem stewCore_congr {s t : State} (h : t.stw = s.stw) : stewCore t = stewCore s := by rw [stewCore, stewCore, h]

theorem stewCore_respond (m : Nat) (r : Resp) (s : State) : stewCore (respond m r s) = stewCore s := by
  unfold respond
  split <;> rfl

theorem stewCore_sendDone (e : JEntry) (s : State) : stewCore (sendDone e s) = stewCore s := by
  unfold sendDone
  dsimp only
  split
  · exact stewCore_respond ..
  · exact stewCore_respond ..

theorem stewCore_setDone (j : Nat) (s : State) : stewCore (setDone j s) = stewCore s := by
  unfold setDone
  split
  · rfl
  next e _ =>
    dsimp only
    split
    · exact stewCore_sendDone ..
    · exact stewCore_sendDone ..

@[simp] theorem stewCore_finish (j : Nat) (r : Word) (d : Bytes) (s : State) : stewCore (finish j r d s) = stewCore s := by
  unfold finish
  split
  · rfl
  · split
    · rfl
    · split
      · dsimp only
        split
        · exact stewCore_congr (sendPair_stw ..)
        · rfl
      · dsimp only
        split
        · exact stewCore_congr (mirror_stw ..)
        · rw [stewCore_setDone]
          split
          · exact stewCore_congr (sendPair_stw ..)
          · rfl

@[simp] theorem stewCore_finish0 (j : Nat) (r : Word) (s : State) : stewCore (finish0 j r s) = stewCore s :=
  stewCore_finish ..

theorem finish0_tag (j : Nat) (r : Word) (s : State) : (finish0 j r s).stw.tag = s.stw.tag :=
  show (stewCore _).tag = (stewCore s).tag from congrArg Steward.tag (stewCore_finish0 j r s)

/-! ## Wired writes (R345, R347, R349) -/

@[simp] theorem onTag_tag (f : Tag → Tag) (s : State) : (onTag f s).stw.tag = f s.stw.tag := rfl
@[simp] theorem onTag_now (f : Tag → Tag) (s : State) : (onTag f s).now = s.now := rfl
@[simp] theorem onTag_out (f : Tag → Tag) (s : State) : (onTag f s).out = s.out := rfl

/-- The next wired write begins with its own 1 s. -/
theorem Tag.next_eq (now : Nat) (g : Tag) : g.next now = { g with
    write := g.more.head?.map fun v => { v with stop := now + 1000000 }, more := g.more.tail } := by
  unfold Tag.next
  split
  next h => simp [h]
  next h => simp [h]

/-- The tag after an inventory write of GEN `gen` from the state `u`. -/
def Tag.inventory (gen : Nat) (u : State) (g : Tag) : Tag := { g with
  mem := (g.mem.writeN 0x100 ((List.range 16).map (traySummary gen u)).flatten).writeN 0 (deviceRecord gen u),
  gen := gen, invDue := false, invAt := u.now + 3600000000 }

theorem Tag.inventory_parts (gen : Nat) (u : State) (g : Tag) : (g.inventory gen u).gen = gen ∧
    (g.inventory gen u).counts = g.counts ∧ (g.inventory gen u).lock = g.lock ∧
    (g.inventory gen u).mem =
      (g.mem.writeN 0x100 ((List.range 16).map (traySummary gen u)).flatten).writeN 0 (deviceRecord gen u) ∧
    (g.inventory gen u).invAt = u.now + 3600000000 := by
  simp only [Tag.inventory, and_self]

/-- An inventory write takes a new GEN, at its cause's time or on the hour. -/
theorem doTagInventoryWrite_eq {s : State} (hr : running s = true) : doTagInventoryWrite s =
    let u := if s.stw.tag.invDue then s else reach s.stw.tag.invAt s
    onTag (Tag.inventory ((u.stw.tag.gen + 1) % 2 ^ 32) u) u := by
  rw [doTagInventoryWrite, hr]
  rfl

theorem doTagWiredSwap_eq {s : State} {w : TagWrite} (hw : s.stw.tag.write = some w) (hb : w.busy = false) :
    (doTagWiredSwap s).stw.tag = Tag.next s.now { s.stw.tag with
      mem := s.stw.tag.mem.writeN (256 * w.page) w.bytes,
      lock := if w.lock then s.stw.tag.lock ||| (1#32 <<< w.page) else s.stw.tag.lock &&& ~~~(1#32 <<< w.page) } := by
  simp only [doTagWiredSwap, hw, hb, Bool.false_eq_true, if_false, finish0_tag, onTag_tag]

theorem doTagWiredBusy_tag {s : State} {w : TagWrite} (hw : s.stw.tag.write = some w) :
    (doTagWiredBusy s).stw.tag = { s.stw.tag with write := some { w with busy := true, retry := s.now + 50000 } } := by
  simp only [doTagWiredBusy, onTag_tag, hw]

theorem doTagWriteRetry_eq {s : State} {w : TagWrite} (hw : s.stw.tag.write = some w) (hb : w.busy = true) :
    doTagWriteRetry s = onTag (fun g => { g with write := some { w with busy := false } }) (reach w.retry s) := by
  simp only [doTagWriteRetry, hw, hb, if_true]

theorem doTagWriteTimeout_eq {s : State} {w : TagWrite} (hw : s.stw.tag.write = some w) :
    doTagWriteTimeout s = finish0 w.jseq 0x0E07 (onTag (Tag.next (reach w.stop s).now) (reach w.stop s)) := by
  simp only [doTagWriteTimeout, hw]

/-! ## The poll for RF writes (R348) -/

/-- A page whose count has changed reported. -/
def pollPage (s : State) (p : Nat) : State :=
  let c := s.stw.tag.counts.get 0 p
  if c == s.stw.tag.told.get 0 p then s
  else event 0x0E07 1 [p, c] 0 0 (onTag (fun g => { g with told := g.told.set p c }) s)

theorem doTagRfPoll_eq {s : State} (hr : running s = true) : doTagRfPoll s =
    let u := (List.range 32).foldl pollPage (reach s.stw.tag.pollAt s)
    onTag (fun g => { g with pollAt := u.now + 1000000 }) u := by
  rw [doTagRfPoll, hr]
  rfl

theorem pollPage_now (s : State) (p : Nat) : (pollPage s p).now = s.now := by
  unfold pollPage
  dsimp only
  rw [apply_ite State.now, event_now, onTag_now, ite_self]

/-- A page polled changes what was told alone. -/
theorem pollPage_tag (s : State) (p : Nat) : ∃ told, (pollPage s p).stw.tag = { s.stw.tag with told := told } ∧
    told.get 0 p = s.stw.tag.counts.get 0 p ∧ ∀ k, k ≠ p → told.get 0 k = s.stw.tag.told.get 0 k := by
  unfold pollPage
  dsimp only
  split
  next h => exact ⟨_, rfl, (beq_iff_eq.mp h).symm, fun _ _ => rfl⟩
  next => exact ⟨_, by rw [event_stw, onTag_tag], Tab.get_set_same .., fun _ hk => Tab.get_set_other _ _ _ hk⟩

theorem pollPages_tag (ps : List Nat) (s : State) : ∃ told,
    (ps.foldl pollPage s).stw.tag = { s.stw.tag with told := told } ∧
    (∀ k ∈ ps, told.get 0 k = s.stw.tag.counts.get 0 k) ∧ ∀ k, k ∉ ps → told.get 0 k = s.stw.tag.told.get 0 k := by
  induction ps generalizing s with
  | nil => exact ⟨_, rfl, fun _ h => absurd h List.not_mem_nil, fun _ _ => rfl⟩
  | cons p ps ih =>
    obtain ⟨told, htag, hp, hothers⟩ := pollPage_tag s p
    obtain ⟨told', htag', hps, hrest⟩ := ih (pollPage s p)
    rw [htag] at htag' hps hrest
    refine ⟨told', htag', fun k hk => ?_, fun k hk => ?_⟩
    · by_cases hin : k ∈ ps
      · exact hps k hin
      · obtain rfl : k = p := (List.mem_cons.mp hk).resolve_right hin
        exact (hrest k hin).trans hp
    · obtain ⟨hkp, hkps⟩ : k ≠ p ∧ k ∉ ps := by simpa using hk
      exact (hrest k hkps).trans (hothers k hkp)

theorem doTagRfPoll_tells {s : State} (hr : running s = true) :
    (∀ p < 32, (doTagRfPoll s).stw.tag.told.get 0 p = s.stw.tag.counts.get 0 p) ∧
    s.stw.tag.pollAt ≤ (doTagRfPoll s).now ∧ (doTagRfPoll s).stw.tag.pollAt = (doTagRfPoll s).now + 1000000 ∧
    (doTagRfPoll s).stw.tag.mem = s.stw.tag.mem := by
  obtain ⟨told, htag, htold, -⟩ := pollPages_tag (List.range 32) (reach s.stw.tag.pollAt s)
  rw [reach_stw] at htag htold
  rw [doTagRfPoll_eq hr]
  dsimp only
  rw [onTag_tag, onTag_now, htag, foldl_view (view := State.now) pollPage_now, reach_now]
  exact ⟨fun p hp => htold p (List.mem_range.mpr hp), Nat.le_max_right .., rfl, rfl⟩

/-! ## RF commands (R346 to R348) -/

theorem tagUid_count (ev : Nat) (s : State) : tagUid (count ev s) = tagUid s := by rw [tagUid, tagUid, count_otp]

theorem uidIs_count (u : DWord) (ev : Nat) (s : State) : uidIs u (count ev s) = uidIs u s := by
  rw [uidIs, uidIs, tagUid_count]

theorem doRfInventory_answers {s : State} {n m : Nat} (hq : s.stw.tag.state ≠ .quiet)
    (hm : m = leVal (tagUid s) % 2 ^ n) : (doRfInventory n m s).out = .rf 0 ([0] ++ tagUid s) :: s.out := by
  simp [doRfInventory, tagUid_count, hq, hm, emit]

theorem doRfSelect_selects {s : State} {u : DWord} (h : uidIs u s = true) :
    (doRfSelect u s).stw.tag.state = .selected ∧ (doRfSelect u s).out = .rf 0 [] :: s.out := by
  simp [doRfSelect, uidIs_count, h, emit]

theorem doRfWriteSingleBlock_writes {s : State} {b : Nat} (hb : b < 256) (hl : rfLocked s.stw.tag b = false) (data : Bytes) :
    (doRfWriteSingleBlock b data s).out = .rf 0 [] :: s.out ∧
    (doRfWriteSingleBlock b data s).stw.tag.mem = s.stw.tag.mem.writeN (32 * b) (sub data 0 32) ∧
    (doRfWriteSingleBlock b data s).stw.tag.counts.get 0 (b / 8) = (s.stw.tag.counts.get 0 (b / 8) + 1) % 65536 := by
  simp [doRfWriteSingleBlock, Nat.not_le.mpr hb, hl, emit]

theorem doRfWriteSingleBlock_locked {s : State} {b : Nat} (hb : b < 256) (hl : rfLocked s.stw.tag b = true) (data : Bytes) :
    (doRfWriteSingleBlock b data s).out = .rf 0x12 [] :: s.out ∧ (doRfWriteSingleBlock b data s).stw = s.stw := by
  simp [doRfWriteSingleBlock, Nat.not_le.mpr hb, hl, emit]

/-! ## The statement -/

/-- Settles O59: each row by what its operation leaves of the tag. -/
theorem tagCommandsComplete : Obligations.TagCommandsComplete := by
  unfold Obligations.TagCommandsComplete
  refine ⟨?hourly, ?cause, ?swap, ?busy, ?retry, ?timeout, ?poll, ?inventory, ?quiet, ?select, ?ready, ?info, ?read,
    ?readMany, ?write, ?locked, ?security⟩
  case hourly =>
    intro s hr hdue
    refine .next (t := doTagInventoryWrite s) rfl ?_
    rw [doTagInventoryWrite_eq hr, if_neg (by rw [hdue]; decide)]
    obtain ⟨hgen, -, -, -, hat⟩ := Tag.inventory_parts ((s.stw.tag.gen + 1) % 2 ^ 32) (reach s.stw.tag.invAt s) s.stw.tag
    rw [onTag_now, onTag_tag, reach_stw, hgen, hat, reach_now]
    exact ⟨Nat.le_max_right .., rfl, rfl⟩
  case cause =>
    intro s hr hdue
    refine .next (t := doTagInventoryWrite s) rfl ?_
    rw [doTagInventoryWrite_eq hr, if_pos hdue]
    obtain ⟨hgen, hcounts, hlock, hmem, -⟩ := Tag.inventory_parts ((s.stw.tag.gen + 1) % 2 ^ 32) s s.stw.tag
    rw [onTag_tag, hgen]
    exact ⟨rfl, hcounts, hlock, hmem⟩
  case swap =>
    intro s w hw hb
    refine .next (t := doTagWiredSwap s) rfl ?_
    rw [doTagWiredSwap_eq hw hb, Tag.next_eq]
    exact ⟨rfl, rfl, rfl⟩
  case busy =>
    intro s w hw
    refine .next (t := doTagWiredBusy s) rfl ?_
    rw [doTagWiredBusy_tag hw]
    exact ⟨rfl, rfl⟩
  case retry =>
    intro s w hw hb
    refine .next (t := doTagWriteRetry s) rfl ?_
    rw [doTagWriteRetry_eq hw hb, onTag_tag, onTag_now, reach_now, reach_stw]
    exact ⟨Nat.le_max_right .., rfl, rfl⟩
  case timeout =>
    intro s w hw
    refine .next (t := doTagWriteTimeout s) rfl ?_
    rw [doTagWriteTimeout_eq hw, finish0_tag, finish0_now, onTag_tag, onTag_now, Tag.next_eq, reach_now, reach_stw]
    exact ⟨Nat.le_max_right .., rfl, rfl, rfl⟩
  case poll =>
    intro s hr
    exact .next rfl (doTagRfPoll_tells hr)
  case inventory =>
    intro s n m hq hm
    exact .next rfl (doRfInventory_answers hq hm)
  case quiet =>
    intro s u hu
    refine .next (t := doRfStayQuiet u s) rfl ?_
    simp [doRfStayQuiet, uidIs_count, hu]
  case select =>
    intro s u hu
    exact .next rfl (doRfSelect_selects hu)
  case ready =>
    intro s
    refine .next (t := doRfResetToReady none s) rfl ?_
    simp [doRfResetToReady, emit]
  case info =>
    intro s
    refine .next (t := doRfGetSystemInformation s) rfl ?_
    simp [doRfGetSystemInformation, tagUid_count, emit]
  case read =>
    intro s b hb
    refine .next (t := doRfReadSingleBlock b s) rfl ?_
    simp [doRfReadSingleBlock, hb, emit]
  case readMany =>
    intro s b n hn hb
    refine .next (t := doRfReadMultipleBlocks b n s) rfl ?_
    simp [doRfReadMultipleBlocks, hn, hb, emit]
  case write =>
    intro s b data hb hl
    exact .next rfl (doRfWriteSingleBlock_writes hb hl data)
  case locked =>
    intro s b data hb hl
    exact .next rfl (doRfWriteSingleBlock_locked hb hl data)
  case security =>
    intro s b n hb
    refine .next (t := doRfGetBlockSecurity b n s) rfl ?_
    simp [doRfGetBlockSecurity, hb, emit]

end Sys2Proof.Machine
end

section
/-! The logbook's writer and summaries, freezes, and the dumps of the counters (R353 to R371). -/

namespace Sys2Proof.Machine

/-! ## What counting leaves of the counters (R363, R364) -/

/-- The counters but for their values, overflows and last conditions: what counting leaves. -/
def Counters.setup (c : Counters) : Counters := { c with val := [], ovf := [], was := [] }

theorem Counters.setup_add (i n : Nat) (c : Counters) : (c.add i n).setup = c.setup := by
  unfold Counters.add
  split <;> rfl

theorem Counters.setup_addBy (f : Nat → Nat → Bool → Nat) (c : Counters) : (c.addBy f).setup = c.setup := by
  refine List.foldlRecOn (motive := fun d : Counters => d.setup = c.setup) c.cfg _ rfl fun d hd p _ => ?_
  split
  · exact (Counters.setup_add ..).trans hd
  · exact hd

theorem setup_countN (ev n : Nat) (s : State) : (countN ev n s).pmc.setup = s.pmc.setup := by
  unfold countN
  split
  · exact Counters.setup_addBy ..
  · rfl

theorem setup_count (ev : Nat) (s : State) : (count ev s).pmc.setup = s.pmc.setup := setup_countN ev 1 s

theorem setup_reach (t : Nat) (s : State) : (reach t s).pmc.setup = s.pmc.setup := by
  rw [reach, State.setNow_pmc, passTime]
  split
  · exact Counters.setup_addBy ..
  · rfl

/-! ## Dumps (R370, R371) -/

/-- The state at a dump instant, with its sequence taken. -/
def dumpDue (s : State) : State :=
  (reach (dumpTime s) s).onPmc fun c => { c with dseq := c.dseq + 1, nextAt := (reach (dumpTime s) s).now + 1 }

theorem setup_dumpDue (s : State) : (dumpDue s).pmc.setup =
    { s.pmc.setup with dseq := s.pmc.dseq + 1, nextAt := (reach (dumpTime s) s).now + 1 } := by
  have h := setup_reach (dumpTime s) s
  have hseq : (reach (dumpTime s) s).pmc.dseq = s.pmc.dseq := (congrArg Counters.dseq h :)
  rw [← h, ← hseq]
  rfl

theorem dumpFull_setup (c : Counters) : dumpFull c.setup = dumpFull c := rfl

theorem dumpFull_dumpDue (s : State) : dumpFull (dumpDue s).pmc = dumpFull s.pmc := by
  rw [← dumpFull_setup, setup_dumpDue]
  rfl

/-- An instant that the registers allow: a record, or a skip where the ring is full or the link is not up. -/
theorem doDumpInstant_eq {s : State} (hen : s.pmc.en = true) (hlo : 2 ≤ s.pmc.slots) (hhi : s.pmc.slots ≤ 4096)
    (hpos : 0 < s.pmc.period) (hper : s.pmc.period ≤ 1000000) (hb : s.pwr.bind = .on) : doDumpInstant s =
      if dumpFull (dumpDue s).pmc || (dumpDue s).host.dstate != .d0 ||
          !((dumpDue s).host.link == .l0 || (dumpDue s).host.link == .l1) then
        count 0x2C6 ((dumpDue s).onPmc fun c =>
          { c with skipped := (c.skipped + 1) % 2 ^ 32, since := (c.since + 1) % 2 ^ 32 })
      else writeDump (dumpDue s) := by
  rw [doDumpInstant, if_neg (by simp [hen, hb]; omega)]
  rfl

/-- The registers' part of the counters after a record. -/
theorem writeDump_setup (s : State) : ∃ since records, (writeDump s).pmc.setup = { s.pmc.setup with
    pi := if s.pmc.pi % 4096 + 1 = s.pmc.slots then 4096 - s.pmc.pi / 4096 * 4096 else s.pmc.pi + 1
    since := since, records := records } := by
  simp only [writeDump, apply_ite State.pmc, msix_pmc, ite_self, setup_count, State.onPmc_pmc, emit_pmc, beq_iff_eq]
  exact ⟨_, _, rfl⟩

theorem writeDump_now (s : State) : (writeDump s).now = s.now := by
  simp only [writeDump, apply_ite State.now, msix_now, ite_self, count_now, State.onPmc_now, emit_now]

theorem dumpDue_now (s : State) : (dumpDue s).now = max s.now (dumpTime s) := reach_now ..

theorem dumpDue_host (s : State) : (dumpDue s).host = s.host := reach_host ..

/-! ## Folios (R351 to R359) -/

/-- The logbook after a folio is the writer's, with the folio's sequence. -/
theorem addFolio_log (f : Folio) (s : State) : (addFolio f s).log = { (s.log.put f).1 with fseq := f.fseq } := by
  unfold addFolio
  dsimp only
  split <;> simp [logFolio]

/-- A folio of a low severity offered while no freeze holds leaves the queue's front as it is. -/
theorem put_minor {l : Logbook} (hf : l.freeze = none) {f : Folio} (hs : f.sev < 3) :
    (l.put f).1.freeze = none ∧ (l.put f).1.buf = l.buf ∧ l.queue <+: (l.put f).1.queue := by
  by_cases hq : l.queue.length < 64
  · rw [put_room hf hq]
    exact ⟨hf, rfl, List.prefix_append ..⟩
  · simp [Logbook.put, hf, hq, hs, Logbook.drop]

theorem folioEvent_log (f : Folio) (s : State) : (folioEvent f s).log = (addFolio f s).log := by
  unfold folioEvent
  dsimp only
  rw [apply_ite State.log, (ringEvent_foot ..).same .log rfl, ite_self]

theorem thawed_log (id cause held : Nat) (s : State) : ∃ f : Folio, f.sev < 3 ∧
    (thawed id cause held s).log = { (s.log.put f).1 with fseq := f.fseq } := by
  unfold thawed
  dsimp only
  rw [folioEvent_log, addFolio_log, apply_ite State.log, sendPair_log, ite_self]
  refine ⟨_, ?_, rfl⟩
  show (if cause == 1 then 1 else 2) < 3
  split <;> decide

/-- A freeze's end joins what was held to the queue (R359). -/
theorem thawLog_log {s : State} {z : Freeze} (h : s.log.freeze = some z) (cause : Nat) :
    (thawLog cause s).log.freeze = none ∧ (thawLog cause s).log.buf = [] ∧
    (s.log.queue ++ s.log.buf) <+: (thawLog cause s).log.queue := by
  rw [thawLog, h]
  obtain ⟨f, hsev, hlog⟩ := thawed_log z.id.toNat cause (heldFolios s.log).length (s.onLog Logbook.thaw)
  dsimp only
  rw [hlog]
  exact put_minor (l := s.log.thaw) rfl hsev

theorem doFreezeExpiry_eq {s : State} {z : Freeze} (h : s.log.freeze = some z) :
    doFreezeExpiry s = thawLog 2 (reach z.stop s) := by rw [doFreezeExpiry, h]

theorem thawLog_now (cause : Nat) (s : State) : (thawLog cause s).now = s.now := by
  unfold thawLog
  split
  · rfl
  · exact thawed_now ..

/-- The writer commits to a free slot (R355). -/
theorem doFolioCommit_log {s : State} {f : Folio} {fs : List Folio} (hp : s.keep.por = false) (hz : s.log.freeze = none)
    (hq : s.log.queue = f :: fs) (hroom : s.log.slots.length < 4096) :
    (doFolioCommit s).log = { s.log with queue := fs, slots := s.log.slots ++ [f] } := by
  rw [doFolioCommit, if_neg (by simp [hp, hz]), hq]
  simp only [count_log, State.onLog_log, Logbook.commit, if_pos hroom]

/-- The state in which drops are next reported: 1 s after the last report. -/
def dropDue (s : State) : State := match s.log.dropAt with
  | some t => reach (t + 1000000) s
  | none => s

theorem dropDue_log (s : State) : (dropDue s).log = s.log := by
  unfold dropDue
  split
  · exact reach_log ..
  · rfl

theorem dropDue_now {s : State} {d : Nat} (h : s.log.dropAt = some d) : d + 1000000 ≤ (dropDue s).now := by
  simp only [dropDue, h, reach_now]
  exact Nat.le_max_right ..

theorem doLogDropped_eq {s : State} (hr : running s = true) (hd : s.log.dropNew = true) :
    doLogDropped s = bareEvent 0x0F00 2 (dropDue s).log.dropped 0
      ((dropDue s).onLog fun l => { l with dropNew := false, dropAt := some (dropDue s).now }) := by
  rw [doLogDropped, if_neg (by simp [hr, hd])]
  rfl

/-! ## Summaries (R353) -/

/-- A sample of one track taken in a state, `sec` seconds after the period's start. -/
def sampleTrack (s : State) (sec : Nat) (ts : Tab Track) (k : Nat) : Tab Track :=
  match trackValue s k with
  | some v => ts.mod {} k (Track.add k sec v)
  | none => ts

theorem sampleTrack_other (s : State) (sec : Nat) (ts : Tab Track) {j k : Nat} (h : k ≠ j) :
    (sampleTrack s sec ts j).get {} k = ts.get {} k := by
  unfold sampleTrack
  split
  · exact Tab.get_mod_other _ _ _ h
  · rfl

theorem sampleTrack_same {s : State} {k : Nat} {v : Int} (h : trackValue s k = some v) (sec : Nat) (ts : Tab Track) :
    ((sampleTrack s sec ts k).get {} k).n = (ts.get {} k).n + 1 := by
  rw [sampleTrack, h, Tab.get_mod_same, Track.add]

theorem sampleTracks_other (s : State) (sec : Nat) {ks : List Nat} {k : Nat} (h : k ∉ ks) (ts : Tab Track) :
    (ks.foldl (sampleTrack s sec) ts).get {} k = ts.get {} k := by
  refine List.foldlRecOn (motive := fun us : Tab Track => us.get {} k = ts.get {} k) ks _ rfl fun us hus j hj => ?_
  exact (sampleTrack_other s sec us (ne_of_mem_of_not_mem hj h).symm).trans hus

/-- Each track whose source is there takes one sample. -/
theorem sampleTracks_same {s : State} {k : Nat} {v : Int} (h : trackValue s k = some v) (sec : Nat) {ks : List Nat}
    (hnd : ks.Nodup) (hk : k ∈ ks) (ts : Tab Track) :
    ((ks.foldl (sampleTrack s sec) ts).get {} k).n = (ts.get {} k).n + 1 := by
  induction ks generalizing ts with
  | nil => exact absurd hk List.not_mem_nil
  | cons j js ih =>
    obtain ⟨hj, hjs⟩ := List.nodup_cons.mp hnd
    rw [List.foldl_cons]
    by_cases hkj : k = j
    · subst hkj
      rw [sampleTracks_other s sec hj, sampleTrack_same h]
    · rw [ih hjs ((List.mem_cons.mp hk).resolve_left hkj), sampleTrack_other s sec ts hkj]

theorem trackValue_onLog (f : Logbook → Logbook) (s : State) (k : Nat) : trackValue (s.onLog f) k = trackValue s k := rfl

theorem doSummarySample_eq {s : State} {d : Nat} (hr : running s = true) (hp : s.log.period = some d) :
    ∃ sec, doSummarySample s = (reach (d + 1000000 * (s.log.samples + 1)) s).onLog fun l => { l with
      samples := l.samples + 1
      tracks := (List.range 8).foldl (sampleTrack (reach (d + 1000000 * (s.log.samples + 1)) s) sec) s.log.tracks } := by
  refine ⟨((reach (d + 1000000 * (s.log.samples + 1)) s).now - d) / 1000000, ?_⟩
  rw [doSummarySample, hp, hr]
  dsimp only
  rw [reach_log]
  rfl

/-- One SUMMARY folio: two tracks of the period from `t`, as the logbook `l` holds them. -/
def summaryFolio (t : Nat) (l : Logbook) (s : State) (i : Nat) : State :=
  addFolio { mkFolio 1 0 0 [(s.now - t) / 1000000, l.samples] 0 0 s with
    words := trackBlock l (2 * i) ++ trackBlock l (2 * i + 1) } s

theorem summaryFolio_fseq (t : Nat) (l : Logbook) (s : State) (i : Nat) :
    (summaryFolio t l s i).log.fseq = s.log.fseq + 1 := addFolio_fseq ..

theorem summaryFolios_fseq (t : Nat) (l : Logbook) (is : List Nat) (s : State) :
    (is.foldl (summaryFolio t l) s).log.fseq = s.log.fseq + is.length := by
  induction is generalizing s with
  | nil => rfl
  | cons i is ih => rw [List.foldl_cons, ih, summaryFolio_fseq, List.length_cons]; omega

theorem doSummaryWrite_eq {s : State} {d : Nat} (hr : running s = true) (hp : s.log.period = some d) :
    ∃ u : State, u.log.fseq = s.log.fseq + 4 ∧
      doSummaryWrite s = u.onLog fun l => { l with period := some u.now, samples := 0, tracks := [] } := by
  refine ⟨(List.range 4).foldl (summaryFolio d s.log) (reach (nextHour s) s), ?_, ?_⟩
  · rw [summaryFolios_fseq, reach_log, List.length_range]
  · rw [doSummaryWrite, hp, hr]
    dsimp only
    rw [reach_log]
    rfl

/-! ## The statement -/

/-- Settles O60: each row by the logbook or the counters that its operation leaves. -/
theorem logCommandsComplete : Obligations.LogCommandsComplete := by
  unfold Obligations.LogCommandsComplete
  refine ⟨?commit, ?sample, ?write, ?dropped, ?expiry, ?dump, ?full, ?low, ?skipped, ?lowKeeper, ?skippedKeeper⟩
  case commit =>
    intro s f fs hp hz hq hroom
    refine .next (t := doFolioCommit s) rfl ?_
    rw [doFolioCommit_log hp hz hq hroom]
    exact ⟨rfl, rfl, rfl⟩
  case sample =>
    intro s d hr hp
    obtain ⟨sec, heq⟩ := doSummarySample_eq hr hp
    refine .next (t := doSummarySample s) rfl ?_
    rw [heq, State.onLog_now, State.onLog_log, reach_now, reach_log]
    refine ⟨Nat.le_max_right .., rfl, rfl, fun k hk v hv => ?_⟩
    rw [trackValue_onLog] at hv
    exact sampleTracks_same hv sec List.nodup_range (List.mem_range.mpr hk) s.log.tracks
  case write =>
    intro s d hr hp
    obtain ⟨u, hseq, heq⟩ := doSummaryWrite_eq hr hp
    refine .next (t := doSummaryWrite s) rfl ?_
    rw [heq, State.onLog_log, State.onLog_now]
    exact ⟨rfl, rfl, rfl, hseq⟩
  case dropped =>
    intro s hr hd
    refine .next (t := doLogDropped s) rfl ?_
    rw [doLogDropped_eq hr hd, bareEvent_log, bareEvent_now, State.onLog_log, State.onLog_now, dropDue_log]
    exact ⟨rfl, rfl, rfl, fun _ => dropDue_now⟩
  case expiry =>
    intro s z hz
    refine .next (t := doFreezeExpiry s) rfl ?_
    rw [doFreezeExpiry_eq hz, thawLog_now, reach_now]
    have hlog := thawLog_log (s := reach z.stop s) (z := z) (by rw [reach_log, hz]) 2
    rw [reach_log] at hlog
    exact ⟨Nat.le_max_right .., hlog⟩
  case dump =>
    intro s hen hlo hhi hpos hper hb hd hl hfull
    refine .next (t := doDumpInstant s) rfl ?_
    rw [doDumpInstant_eq hen hlo hhi hpos hper hb, if_neg (by simp [dumpFull_dumpDue, dumpDue_host, hfull, hd, hl])]
    obtain ⟨since, records, hset⟩ := writeDump_setup (dumpDue s)
    have hdue := setup_dumpDue s
    rw [hdue] at hset
    have hpi : (dumpDue s).pmc.pi = s.pmc.pi := (congrArg Counters.pi hdue :)
    have hslots : (dumpDue s).pmc.slots = s.pmc.slots := (congrArg Counters.slots hdue :)
    rw [hpi, hslots] at hset
    rw [writeDump_now, dumpDue_now]
    exact ⟨Nat.le_max_right .., (congrArg Counters.dseq hset :), (congrArg Counters.skipped hset :),
      (congrArg Counters.pi hset :)⟩
  case full =>
    intro s hen hlo hhi hpos hper hb hfull
    refine .next (t := doDumpInstant s) rfl ?_
    rw [doDumpInstant_eq hen hlo hhi hpos hper hb, if_pos (by rw [dumpFull_dumpDue, hfull]; rfl)]
    have hdue := setup_dumpDue s
    have hset := setup_count 0x2C6 ((dumpDue s).onPmc fun c =>
      { c with skipped := (c.skipped + 1) % 2 ^ 32, since := (c.since + 1) % 2 ^ 32 })
    have hskip : (dumpDue s).pmc.skipped = s.pmc.skipped := (congrArg Counters.skipped hdue :)
    refine ⟨(congrArg Counters.pi hset :).trans (congrArg Counters.pi hdue :),
      (congrArg Counters.skipped hset :).trans ?_, ?_⟩
    · show ((dumpDue s).pmc.skipped + 1) % 2 ^ 32 = _
      rw [hskip]
    · rw [count_out, State.onPmc_out]
      exact reach_out ..
  case low =>
    intro s n hup hr
    refine .next (t := doPduValueLowRead n s) rfl ?_
    rw [doPduValueLowRead, hup, hr]
    rfl
  case skipped =>
    intro s hup hr
    refine .next (t := doPduSkippedRead s) rfl ?_
    rw [doPduSkippedRead, hup, hr]
    rfl
  case lowKeeper =>
    intro s n hr
    refine .next (t := doPduValueLowRead n s) rfl ?_
    rw [doPduValueLowRead, hr, Bool.and_false, if_neg Bool.false_ne_true]
  case skippedKeeper =>
    intro s hr
    refine .next (t := doPduSkippedRead s) rfl ?_
    rw [doPduSkippedRead, hr, Bool.and_false, if_neg Bool.false_ne_true]

end Sys2Proof.Machine
end

section
/-! Agents' interrupts, golden slots and rebinding (R330 to R344). -/

namespace Sys2Proof.Machine

/-! ## Agents' interrupts (R330, R333) -/

theorem acting_count (ev : Nat) (s : State) : acting (count ev s) = acting s := by
  rw [acting, acting, running_congr (count_pwr ev s) (count_boot ev s), count_pair]

theorem agentOf_count (ev : Nat) (s : State) (t : Nat) : agentOf (count ev s) t = agentOf s t := by
  rw [agentOf, agentOf, count_stw]

theorem invOf_count (ev : Nat) (s : State) (t : Nat) : invOf (count ev s) t = invOf s t := by rw [invOf, invOf, count_stw]

theorem servesAgent_count (ev : Nat) (s : State) (t : Nat) : servesAgent (count ev s) t = servesAgent s t := by
  rw [servesAgent, servesAgent, acting_count, agentOf_count]

theorem doI3cIbi_record {s : State} {t : Nat} (h : servesAgent s t = true) (data : Bytes) :
    doI3cIbi t 1 data s = agentRecord t data (count (0x392 + 4 * (t / 4)) s) := by
  have hserves := h
  simp only [servesAgent, Bool.and_eq_true] at hserves
  obtain ⟨⟨⟨hact, hlink⟩, hrole⟩, -⟩ := hserves
  rw [doI3cIbi, if_neg (by simp [acting_count, agentOf_count, hact, beq_iff_eq.mp hrole, hlink])]
  simp only [beq_self_eq_true, if_true, servesAgent_count, h]

theorem doI3cIbi_desc {s : State} {t : Nat} (hact : acting s = true) (hrole : (agentOf s t).role = some true)
    (hlink : (agentOf s t).link = .up) (data : Bytes) :
    doI3cIbi t 2 data s = readDesc t data (count (0x392 + 4 * (t / 4)) s) := by
  rw [doI3cIbi, if_neg (by simp [acting_count, agentOf_count, hact, hrole, hlink])]
  rfl

/-- A record that is no leave record goes into M6's window (R85). -/
theorem agentRecord_window {s : State} {t : Nat} {data : Bytes} {r : Rec} (hr : r = windowRec (Mem.writeN [] 0 data))
    (hdata : data.length ≤ 256) (hlen : r.len ≤ 256) (hsrc : cwSrc r.cw = 0x10 + t)
    (hreq : r.op ≠ 0x0010) (hrel : r.op ≠ 0x0011) (hfree : (mbxOf s 6).busy = false) : agentRecord t data s =
      count 0x2A6 (onBox 6 (fun b => { b with window := Mem.writeN [] 0 data, busy := true }) s) := by
  subst hr
  have hleave : ¬((windowRec (Mem.writeN [] 0 data)).op == 0x0010 ||
      (windowRec (Mem.writeN [] 0 data)).op == 0x0011) = true := by
    rw [Bool.or_eq_true, beq_iff_eq, beq_iff_eq]
    exact not_or.mpr ⟨hreq, hrel⟩
  rw [agentRecord, if_neg (by simp [hdata, hlen]), if_neg (by simp [hsrc]), if_neg hleave, if_neg (by simp [hfree])]

/-- The first descriptor of a tray waits for the cycle tick. -/
theorem readDesc_first {s : State} {t : Nat} {d : Bytes} (hv : descValid d = true) (hnone : (invOf s t).desc = none) :
    readDesc t d s = s.onStw fun w => { w with inv := w.inv.mod {} t fun i => { i with adopt := some d } } := by
  simp [readDesc, hv, hnone]

/-! ## Golden slots (R338, R339) -/

theorem goldenOf_stewCore {s t : State} (h : stewCore t = stewCore s) (n : Nat) : goldenOf t n = goldenOf s n := by
  show (stewCore t).golden.get {} n = (stewCore s).golden.get {} n
  rw [h]

theorem doGoldenWriteDone_golden {s : State} {n : Nat} (h : writingSlot s = some n) (ok : Bool) :
    goldenOf (doGoldenWriteDone ok s) n =
      { goldenOf s n with state := if ok then .valid else .bad, scrub := s.now + 86400000000 } := by
  simp only [doGoldenWriteDone, h]
  rw [goldenOf_stewCore (foldl_view (fun _ _ => stewCore_finish0 ..) ..)]
  exact Tab.get_set_same ..

theorem slotBad_stw (n : Nat) (s : State) : (slotBad n s).stw =
    { s.stw with golden := s.stw.golden.mod {} n fun g => { g with state := .bad } } := by
  rw [slotBad, event_stw, State.onStw_stw]

theorem slotBad_state (n : Nat) (s : State) : (goldenOf (slotBad n s) n).state = .bad := by
  rw [goldenOf, slotBad_stw]
  simp only [Tab.get_mod_same]

theorem doGoldenScrub_valid {s : State} {n : Fin 8} (hv : (goldenOf s n.val).state = .valid) (hr : running s = true) (ok : Bool) :
    (goldenOf s n.val).scrub ≤ (doGoldenScrub n ok s).now ∧
    (goldenOf (doGoldenScrub n ok s) n.val).state = if ok then .valid else .bad := by
  rw [doGoldenScrub, if_neg (by simp [hv, hr])]
  dsimp only
  cases ok with
  | false =>
    refine ⟨?_, slotBad_state ..⟩
    rw [if_neg Bool.false_ne_true, slotBad, event_now, State.onStw_now, reach_now]
    exact Nat.le_max_right ..
  | true =>
    refine ⟨?_, ?_⟩
    · rw [if_pos rfl, State.onStw_now, reach_now]
      exact Nat.le_max_right ..
    · rw [if_pos rfl, if_pos rfl, goldenOf, State.onStw_stw, reach_stw]
      simp only [Tab.get_mod_same]
      exact hv

/-! ## Controls to agents (R328) -/

/-- The acting Lead's control: one more for the agent, and sent. -/
theorem control_sent {s : State} (h : s.pair.lead = true) (t op arg : Nat) :
    stewCore (control t op arg s) = stewCore s ∧
    .i3c (t / 4) (0x10 + t % 4) (controlBytes op arg ((agentOf s t).cseq + 1)) ∈ (control t op arg s).out := by
  rw [control, if_neg (by simp [h])]
  exact ⟨rfl, List.mem_cons_self⟩

/-! ## The end of a rebinding (R343) -/

theorem stewCore_endLease (id reason : Nat) (s : State) : stewCore (endLease id reason s) = stewCore s := by
  unfold endLease endLeaseFor
  split
  · rfl
  · dsimp only
    have htold (m : LeaseMsg) (u : State) : stewCore (tellPartner m (count 0x266 u)) = stewCore u :=
      stewCore_congr (by rw [tellPartner_stw, count_stw])
    split
    · rw [stewCore_respond, htold]
      rfl
    · rw [htold]
      rfl

/-- The steward's part is its core with the agents. -/
theorem stw_of_stewCore {s t : State} (h : stewCore t = stewCore s) : t.stw = { s.stw with agents := t.stw.agents } := by
  have hadd : { stewCore t with agents := t.stw.agents } = { stewCore s with agents := t.stw.agents } := by rw [h]
  exact hadd

theorem startRebind_empty {s : State} (h : s.stw.queue = []) : startRebind s = s := by
  unfold startRebind
  split
  next hq => rw [h] at hq; cases hq
  next => rfl

/-- A tray's record at the end of its rebinding; `waits` says that another rebinding of the tray does. -/
def Inv.rebound (r : Running) (ok kept waits : Bool) (time ver : Nat) (i : Inv) : Inv :=
  { i with lastTime := time, held := kept || (i.held && !ok && waits), rebinds := i.rebinds + ok.toNat
           imgVer := if ok then ver else i.imgVer, lastSlot := if ok then r.job.slot else i.lastSlot }

/-- The steward's part at the end of its rebinding, the tag's pages apart. -/
def Steward.rebound (r : Running) (ok kept : Bool) (time ver : Nat) (w : Steward) : Steward :=
  { w with run := none, tfs := none
           queue := w.queue.map fun q => if q.tray == r.job.tray then { q with prior := kept } else q
           inv := w.inv.mod {} r.job.tray (Inv.rebound r ok kept (w.queue.any (·.tray == r.job.tray)) time ver) }

/-- A rebinding's end but for the start of the next. -/
theorem endRebind_eq {s : State} {r : Running} (h : s.stw.run = some r) (result : Word) : ∃ v : State,
    endRebind result s = startRebind v ∧
    stewCore v = { (stewCore s).rebound r (result == 0) ((invOf s r.job.tray).held && leavesHeld r (result == 0)) (keepTime s)
      (fld (goldenOf s r.job.slot).header 16 4) with tag := { s.stw.tag with invDue := true } } := by
  have hu : stewCore (if r.lease == 0 then s else endLease r.lease 0 s) = stewCore s := by
    split
    · rfl
    · exact stewCore_endLease ..
  rw [endRebind, h]
  refine ⟨_, rfl, ?_⟩
  rw [stewCore_congr (queueResume_stw ..), stewCore_finish0, stewCore, tagDue, State.onStw_stw, event_stw, State.onStw_stw,
    State.onLv_stw, stw_of_stewCore hu]
  rfl

/-- With no other rebinding queued, a rebinding's end leaves no other in the steward's part, and REBIND_HELD as R343 says. -/
theorem endRebind_last {s : State} {r : Running} (h : s.stw.run = some r) (hq : s.stw.queue = []) (result : Word) :
    (endRebind result s).stw.run = none ∧ (endRebind result s).stw.tfs = none ∧
    (endRebind result s).stw.golden = s.stw.golden ∧
    (invOf (endRebind result s) r.job.tray).held = ((invOf s r.job.tray).held && leavesHeld r (result == 0)) := by
  obtain ⟨v, heq, hcore⟩ := endRebind_eq h result
  have hempty : v.stw.queue = [] := by
    refine (congrArg Steward.queue hcore :).trans ?_
    show s.stw.queue.map _ = []
    rw [hq, List.map_nil]
  rw [heq, startRebind_empty hempty]
  refine ⟨(congrArg Steward.run hcore :), (congrArg Steward.tfs hcore :), (congrArg Steward.golden hcore :), ?_⟩
  have hinv : v.stw.inv = _ := (congrArg Steward.inv hcore :)
  rw [invOf, hinv]
  simp only [Steward.rebound, stewCore, hq, List.any_nil, Tab.get_mod_same, Inv.rebound, Bool.and_false, Bool.or_false]

theorem endRebind_now (result : Word) (s : State) : (endRebind result s).now = s.now := (endRebind_foot _ _).same .now rfl

/-! ## The steps of a rebinding (R342) -/

/-- Leave is free: the bound runs, and the agent is told to begin. -/
theorem askRebind_granted {s : State} {r : Running} (hask : internalAsk (fld (goldenOf s r.job.slot).header 28 2) s = none)
    (hlead : s.pair.lead = true) : ∃ lease until_, (askRebind r s).stw.run = some { r with
        step := .begin_, lease := lease, until_ := until_,
        bound := some (s.now + fld (goldenOf s r.job.slot).header 30 2 * 1000000) } ∧
      .i3c (r.job.tray / 4) (0x10 + r.job.tray % 4) (controlBytes 2 r.job.slot ((agentOf s r.job.tray).cseq + 1)) ∈
        (askRebind r s).out := by
  simp only [askRebind, hask, beginRebind]
  generalize hg : grantInternal 5 _ _ _ s = u
  have hstw : u.stw = s.stw := by rw [← hg]; exact (grantInternal_foot ..).same .stw rfl
  have hnow : u.now = s.now := by rw [← hg]; exact (grantInternal_foot ..).same .now rfl
  have hpair : u.pair = s.pair := by rw [← hg]; exact (grantInternal_foot ..).same .pair rfl
  generalize hv : State.onStw _ u = v
  obtain ⟨hcore, hout⟩ := control_sent (s := v) (by rw [← hv, State.onStw_pair, hpair, hlead]) r.job.tray 2 r.job.slot
  have hcseq : agentOf v r.job.tray = agentOf s r.job.tray := by rw [← hv, agentOf, State.onStw_stw, hstw, agentOf]
  rw [hcseq] at hout
  have hrun : (control r.job.tray 2 r.job.slot v).stw.run = v.stw.run := (congrArg Steward.run hcore :)
  rw [hrun, ← hv, State.onStw_stw, ← hnow]
  exact ⟨_, _, rfl, by rw [hv]; exact hout⟩

theorem doRebindVerifyDone_good {s : State} {r : Running} (h : s.stw.run = some r) (hstep : r.step = .verify)
    (hgood : (goldenOf s r.job.slot).state ≠ .bad) : doRebindVerifyDone true s = askRebind r s := by
  simp [doRebindVerifyDone, h, hstep, hgood]

/-- A slot found bad stays so, and its rebinding ends. -/
theorem doRebindVerifyDone_bad {s : State} {r : Running} (h : s.stw.run = some r) (hstep : r.step = .verify)
    (hq : s.stw.queue = []) : (goldenOf (doRebindVerifyDone false s) r.job.slot).state = .bad ∧
      (doRebindVerifyDone false s).stw.run = none := by
  have hend (u : State) (hu : u.stw.run = some r ∧ u.stw.queue = []) (hb : (goldenOf u r.job.slot).state = .bad) :
      (goldenOf (endRebind 0x0E02 u) r.job.slot).state = .bad ∧ (endRebind 0x0E02 u).stw.run = none := by
    obtain ⟨hrun, -, hgolden, -⟩ := endRebind_last hu.1 hu.2 0x0E02
    rw [goldenOf, hgolden]
    exact ⟨hb, hrun⟩
  by_cases hb : (goldenOf s r.job.slot).state = .bad
  · have heq : doRebindVerifyDone false s = endRebind 0x0E02 s := by simp [doRebindVerifyDone, h, hstep, hb]
    rw [heq]
    exact hend s ⟨h, hq⟩ hb
  · have heq : doRebindVerifyDone false s = endRebind 0x0E02 (slotBad r.job.slot s) := by
      simp [doRebindVerifyDone, h, hstep, hb]
    rw [heq]
    exact hend _ (by rw [slotBad_stw]; exact ⟨h, hq⟩) (slotBad_state ..)

theorem doRebindProgramDone_eq {s : State} {r : Running} (h : s.stw.run = some r) (hstep : r.step = .program) :
    doRebindProgramDone s =
      emit (.flash r.job.tray (fld (goldenOf s r.job.slot).header 24 4) (goldenOf s r.job.slot).payload)
        (s.onStw fun w => { w with run := some { r with step := .readback } }) := by
  simp [doRebindProgramDone, h, hstep]

theorem doRebindReadbackDone_same {s : State} {r : Running} (h : s.stw.run = some r) (hstep : r.step = .readback) :
    doRebindReadbackDone true s = control r.job.tray 3 0 (s.onStw fun w => { w with
      tfs := none, run := some { r with step := .end_, until_ := some (s.now + 120000000) } }) := by
  simp [doRebindReadbackDone, h, hstep]

theorem doRebindReadbackDone_again {s : State} {r : Running} (h : s.stw.run = some r) (hstep : r.step = .readback)
    (htries : r.tries = 0) : doRebindReadbackDone false s =
      s.onStw fun w => { w with run := some { r with step := .program, tries := 1 } } := by
  simp [doRebindReadbackDone, h, hstep, htries]

theorem doRebindAgentTimeout_eq {s : State} {r : Running} {d : Nat} (h : s.stw.run = some r) (hu : r.until_ = some d)
    (hstep : r.step = .begin_ ∨ r.step = .end_) : doRebindAgentTimeout s = endRebind 0x0E05 (reach d s) := by
  have hb : (r.step == .begin_ || r.step == .end_) = true := by simpa using hstep
  simp only [doRebindAgentTimeout, h, hu, hb, if_true]

theorem doRebindBoundExpiry_eq {s : State} {r : Running} {d : Nat} (h : s.stw.run = some r) (hb : r.bound = some d) :
    doRebindBoundExpiry s = endRebind 0x0E04 (reach d s) := by
  simp only [doRebindBoundExpiry, h, hb]

/-- A failure once the tray has been touched leaves REBIND_HELD (R343). -/
theorem leavesHeld_touched {r : Running} (h : r.step = .begin_ ∨ r.step = .end_) : leavesHeld r false = true := by
  rcases h with h | h <;> simp [leavesHeld, h]

/-! ## The statement -/

/-- Settles O58: each row by what its operation leaves of the steward's part and sends. -/
theorem rebindingCompletes : Obligations.RebindingCompletes := by
  unfold Obligations.RebindingCompletes
  refine ⟨?record, ?descriptor, ?written, ?scrubbed, ?verified, ?failed, ?programmed, ?same, ?again, ?timeout, ?expiry⟩
  case record =>
    intro s n data r hserves hdata hr hlen hsrc hreq hrel hfree
    refine .next (t := doI3cIbi n.val 1 data s) rfl ?_
    rw [doI3cIbi_record hserves, agentRecord_window hr hdata hlen hsrc hreq hrel (by rw [mbxOf_count, hfree]), mbxOf_count,
      mbxOf_onBox]
    exact ⟨rfl, rfl⟩
  case descriptor =>
    intro s n data hact hrole hlink hv hnone
    refine .next (t := doI3cIbi n.val 2 data s) rfl ?_
    rw [doI3cIbi_desc hact hrole hlink, readDesc_first hv (by rw [invOf_count, hnone]), invOf, State.onStw_stw]
    simp only [Tab.get_mod_same]
  case written =>
    intro s n ok hw
    refine .next (t := doGoldenWriteDone ok s) rfl ?_
    rw [doGoldenWriteDone_golden hw]
    exact ⟨rfl, rfl⟩
  case scrubbed =>
    intro s n ok hv hr
    exact .next rfl (doGoldenScrub_valid hv hr ok)
  case verified =>
    intro s r h hstep hgood hask hlead
    refine .next (t := doRebindVerifyDone true s) rfl ?_
    rw [doRebindVerifyDone_good h hstep hgood]
    obtain ⟨lease, until_, hrun, hout⟩ := askRebind_granted hask hlead
    exact ⟨⟨_, hrun, rfl, rfl, rfl⟩, hout⟩
  case failed =>
    intro s r h hstep hq
    exact .next rfl (doRebindVerifyDone_bad h hstep hq)
  case programmed =>
    intro s r h hstep
    refine .next (t := doRebindProgramDone s) rfl ?_
    rw [doRebindProgramDone_eq h hstep]
    exact ⟨rfl, rfl, List.mem_cons_self⟩
  case same =>
    intro s r h hstep hlead
    refine .next (t := doRebindReadbackDone true s) rfl ?_
    rw [doRebindReadbackDone_same h hstep]
    generalize hv : State.onStw _ s = v
    obtain ⟨hcore, hout⟩ := control_sent (s := v) (by rw [← hv, State.onStw_pair, hlead]) r.job.tray 3 0
    subst hv
    exact ⟨(congrArg Steward.tfs hcore :), (congrArg Steward.run hcore :), hout⟩
  case again =>
    intro s r h hstep htries
    refine .next (t := doRebindReadbackDone false s) rfl ?_
    rw [doRebindReadbackDone_again h hstep htries]
    rfl
  case timeout =>
    intro s r d h hu hstep hq
    refine .next (t := doRebindAgentTimeout s) rfl ?_
    obtain ⟨hrun, htfs, -, hheld⟩ := endRebind_last (s := reach d s) (by rw [reach_stw, h]) (by rw [reach_stw, hq]) 0x0E05
    rw [doRebindAgentTimeout_eq h hu hstep, endRebind_now, reach_now]
    refine ⟨Nat.le_max_right .., hrun, htfs, hheld.trans ?_⟩
    rw [invOf, reach_stw, invOf]
    exact (congrArg _ (leavesHeld_touched hstep)).trans (Bool.and_true _)
  case expiry =>
    intro s r d h hb hq
    refine .next (t := doRebindBoundExpiry s) rfl ?_
    obtain ⟨hrun, htfs, -, -⟩ := endRebind_last (s := reach d s) (by rw [reach_stw, h]) (by rw [reach_stw, hq]) 0x0E04
    rw [doRebindBoundExpiry_eq h hb, endRebind_now, reach_now]
    exact ⟨Nat.le_max_right .., hrun, htfs⟩

end Sys2Proof.Machine
end

section
/-! The setpoint planner: points, plans, splices, passes, the hold path and leave segments (R304, R315 to R324). -/

namespace Sys2Proof.Machine

/-! ## What the planner's operations leave of its part -/

theorem tell_pln (o : PlanOutcome) (s : State) : (tell o s).pln = s.pln := (tell_foot ..).same .pln rfl

theorem endPlan_pln (result : Word) (s : State) : (endPlan result s).pln = { s.pln with plan := none } := by
  unfold endPlan
  split
  next h => rw [← h]
  next =>
    dsimp only
    split
    · rfl
    · rw [finish0_pln]
      rfl

theorem endRunning_pln (result : Word) (keep : Nat) (s : State) :
    (endRunning result keep s).pln = { s.pln with run := none } := by
  unfold endRunning
  split
  next =>
    dsimp only
    split
    · rfl
    · rw [finish0_pln]
      rfl
  next h => rw [← h]

theorem checkStale_pln (s : State) : ∃ armed, (checkStale s).pln = { s.pln with armed := armed } := by
  unfold checkStale
  split
  · exact ⟨false, by rw [event_pln]; rfl⟩
  · exact ⟨s.pln.armed, rfl⟩

theorem checkStale_armed {s : State} (h : armedNow s = true) : checkStale s = s := by
  rw [checkStale, h, if_neg (by simp)]

theorem endWaiting_pln {s : State} {r : Traj} (h : s.pln.run = some r) (result : Word) :
    (endWaiting result s).pln.run = none ∧ (endWaiting result s).pln.st = .rest := by
  simp only [endWaiting, h, finish0_pln]
  exact ⟨rfl, rfl⟩

theorem splice_pln (p : PlanJob) (s : State) : (splice p s).pln.plan = none ∧ (splice p s).pln.st = .moving ∧
    ∃ r, (splice p s).pln.run = some r ∧ r.jseq = p.jseq ∧ r.cw = p.cw := by
  unfold splice
  exact ⟨rfl, rfl, _, rfl, rfl, rfl⟩

theorem runHold_setRep (target : List Rat) (s : State) : (runHold target s).pln.setRep = s.pln.setRep := by
  rw [runHold, State.onPln_pln, endPlan_pln, endRunning_pln]

/-- What the acting Lead revokes of the trays as the hold path is found stale. -/
def revokeStale (s : State) : State :=
  if !s.pair.lead then s
  else (List.range 16).foldl (fun s t => capdnRevoke t 0x14 s) (s.onLv fun l => { l with staleTrays := 0xFFFF })

theorem revokeStale_pln (s : State) : (revokeStale s).pln = s.pln := by
  unfold revokeStale
  split
  · rfl
  · rw [foldl_view (view := State.pln) (fun _ _ => (capdnRevoke_foot ..).same .pln rfl), State.onLv_pln]

theorem holdStale_pln (s : State) : ∃ run rest, (holdStale s).pln =
    { s.pln with run := run, rest := rest, st := .stale, lag := false, last := none } := by
  have hstop (f : Planner → Planner) : (revokeStale (event 0x0D09 3 [] 0 0 ((endRunning 0x0D04 0 s).onPln f))).pln =
      f { s.pln with run := none } := by
    rw [revokeStale_pln, event_pln, State.onPln_pln, endRunning_pln]
  exact ⟨_, _, hstop _⟩

/-! ## Triggers (R323 to R325) -/

/-- A trigger leaves what was reported of the harbour set. -/
theorem trigger_setRep (s : State) : (trigger s).pln.setRep = s.pln.setRep := by
  have hstale : (checkStale (count 0x286 s)).pln.setRep = s.pln.setRep := by
    obtain ⟨armed, h⟩ := checkStale_pln (count 0x286 s)
    rw [h, count_pln]
  have hfail (o : PlanOutcome) : (holdStale (tell o (checkStale (count 0x286 s)))).pln.setRep = s.pln.setRep := by
    obtain ⟨run, rest, h⟩ := holdStale_pln (tell o (checkStale (count 0x286 s)))
    rw [h, tell_pln]
    exact hstale
  unfold trigger
  split
  · rfl
  · dsimp only
    split
    · exact hstale
    · split
      · split
        · rw [holdRun, event_pln, runHold_setRep, tell_pln, tell_pln, hstale]
        · exact hfail _
      · exact hfail _

/-- Without a hold path, a trigger at rest leaves the planner stale. -/
theorem trigger_unheld {s : State} (hr : running s = true) (hd : decides s = true) (hst : s.pln.st = .rest)
    (hrun : s.pln.run = none) (hh : s.pln.hold = none) :
    (trigger s).pln.st = .stale ∧ (trigger s).pln.pass = s.pln.pass := by
  obtain ⟨armed, harmed⟩ := checkStale_pln (count 0x286 s)
  rw [count_pln] at harmed
  have heq : trigger s = holdStale (tell (.trigger false) (checkStale (count 0x286 s))) := by
    simp [trigger, hr, hd, hst, harmed, hrun, hh]
  obtain ⟨run, rest, hpln⟩ := holdStale_pln (tell (.trigger false) (checkStale (count 0x286 s)))
  rw [heq, hpln, tell_pln, harmed]
  exact ⟨rfl, rfl⟩

theorem decides_congr {s t : State} (h : t.pair = s.pair) : decides t = decides s := by
  rw [decides, decides, attached, attached, h]

/-! ## Points (R315, R318) -/

/-- The row's grid and the region set, on which the points of an axis lie. -/
def pointView (s : State) : Spine × Option Bytes := (ringCore s.spn, s.kt.regions)

theorem limited_ring (e : Nat) (was now_ : Bool) (s : State) : ringCore (limited e was now_ s).spn = ringCore s.spn := by
  unfold limited
  split
  · exact (event_carried ..).ring
  · rfl

theorem pumpPoint_ring (n v : Nat) (s : State) : ringCore (pumpPoint n v s).spn = ringCore s.spn := by
  unfold pumpPoint
  dsimp only
  split
  · rfl
  · rw [limited_ring]
    split
    · rfl
    · rw [(setTarget_foot ..).same .spn rfl]
      rfl

theorem localPoint_ring (e : Nat) (v : Int) (s : State) : ringCore (localPoint e v s).spn = ringCore s.spn := by
  unfold localPoint
  split
  · exact pumpPoint_ring ..
  · split
    · unfold fanPoint
      dsimp only
      split
      · rfl
      · exact limited_ring ..
    · unfold valvePoint
      dsimp only
      split
      · rfl
      · exact limited_ring ..

theorem localPoint_pointView (e : Nat) (v : Int) (s : State) : pointView (localPoint e v s) = pointView s := by
  rw [pointView, localPoint_ring, (localPoint_foot ..).same .kt rfl, pointView]

theorem sendCommand_regions (a : Nat) (cw : DWord) (point flags : Nat) (v : Int) (s : State) :
    (sendCommand a cw point flags v s).kt.regions = s.kt.regions := by
  unfold sendCommand
  dsimp only
  split
  · rfl
  · split
    · rfl
    · refine (foldl_view (view := fun u : State => u.kt.regions) (fun u c => ?_) ..).trans rfl
      split
      · rw [(offer_foot ..).same .kt rfl]
      · rfl

theorem sendCommand_pointView (a : Nat) (cw : DWord) (point flags : Nat) (v : Int) (s : State) :
    pointView (sendCommand a cw point flags v s) = pointView s := by
  rw [pointView, sendCommand_regions, (sendCommand_foot ..).same .spn rfl, pointView]

theorem dispatchPoints_pointView (t point : Nat) (r : Traj) (x : List Rat) (s : State) :
    pointView (dispatchPoints t point r x s) = pointView s := by
  refine foldl_view (view := pointView) (fun u p => ?_) ..
  dsimp only
  split
  · rw [foldl_view fun _ _ => sendCommand_pointView .., foldl_view fun _ _ => localPoint_pointView ..]
  · exact foldl_view (fun _ _ => localPoint_pointView ..) ..

theorem aligned_congr {s u : State} (hv : pointView u = pointView s) (he : u.ep = s.ep) (t : Nat) :
    aligned u t = aligned s t := by
  obtain ⟨hring, hregions⟩ := Prod.mk.inj hv
  have hformed : u.spn.formed = s.spn.formed := (congrArg Spine.formed hring :)
  have hoff : u.spn.offArc = s.spn.offArc := (congrArg Spine.offArc hring :)
  have hrow : u.spn.rowOff = s.spn.rowOff := (congrArg Spine.rowOff hring :)
  rw [aligned, aligned, tenPoint, tenPoint, gridNs, gridNs, hformed, hoff, hrow, he, regSet, regSet, hregions]

/-- A trajectory whose next point is the one after. -/
def Traj.stepped (r : Traj) : Traj := { r with at_ := r.at_ + 1000 }
/-- The axes' values at its point. -/
def Traj.values (r : Traj) : List Rat := (r.stepped.stateAt r.at_).map (·.1)

/-- The state at a point of the running trajectory, dispatched. -/
def pointOf (r : Traj) (s : State) : State :=
  dispatchPoints r.at_ ((r.at_ - r.t0) / 1000 + r.base) r.stepped r.values
    ((reach r.at_ s).onPln fun p => { p with run := some r.stepped })

theorem pointOf_pln (r : Traj) (s : State) : (pointOf r s).pln = { s.pln with run := some r.stepped } := by
  rw [pointOf, (dispatchPoints_foot ..).same .pln rfl, State.onPln_pln, reach_pln]

theorem pointOf_now (r : Traj) (s : State) : (pointOf r s).now = max s.now r.at_ := by
  rw [pointOf, (dispatchPoints_foot ..).same .now rfl, State.onPln_now, reach_now]

theorem pointOf_aligned (r : Traj) (s : State) (t : Nat) : aligned (pointOf r s) t = aligned s t := by
  refine aligned_congr ?_ ?_ t
  · rw [pointOf, dispatchPoints_pointView, pointView, State.onPln_spn, State.onPln_kt, reach_spn, reach_kt, pointView]
  · rw [pointOf, (dispatchPoints_foot ..).same .ep rfl, State.onPln_ep, reach_ep]

/-- A point of the last segment: the trajectory ends where its time is over and every axis has a point. -/
theorem doTrajectoryPoint_last {s : State} {r : Traj} {g : Seg} (h : s.pln.run = some r) (hr : running s = true)
    (ha : r.asks = []) (hg : r.segs = [g]) (hs : r.started = true) : doTrajectoryPoint s =
      if r.off + g.dur ≤ secsFrom r.t0 r.at_ && aligned s r.at_ then endRun r.stepped r.values (pointOf r s)
      else pointOf r s := by
  rw [← pointOf_aligned r s r.at_, doTrajectoryPoint, h]
  obtain ⟨jseq, cw, base, t0, at_, off, segs, started, asks, until_, hold⟩ := r
  obtain rfl : asks = [] := ha
  obtain rfl : segs = [g] := hg
  obtain rfl : started = true := hs
  dsimp only
  rw [if_neg (by simp [hr])]
  rfl

theorem endRun_setpoint {r : Traj} (h : r.hold = false) (x : List Rat) (s : State) :
    (endRun r x s).pln.run = none ∧ (endRun r x s).pln.st = .rest ∧ (endRun r x s).now = s.now := by
  simp only [endRun, h, Bool.not_false, if_true, finish0_pln, finish0_now]
  exact ⟨rfl, rfl, rfl⟩

/-! ## Plans (R314, R319, R320) -/

section
variable {s : State} {p : PlanJob} (hp : s.pln.plan = some p) (hr : running s = true) (hax : (regSet s).axes ≠ [])
  (hok : p.ok = false) (hredo : p.redo = false)
include hp hr hax hok hredo

theorem doPlanDone_long (hlong : 60 < segsSpan (jobSegs s p)) (hd : decides s = true) (r : PlanResult) :
    doPlanDone r s = endPlan 0x0D05 s := by
  have hempty : (regSet s).axes.isEmpty = false := List.isEmpty_eq_false_iff.mpr hax
  simp only [doPlanDone, hp, hr, hempty, hok, hredo, hlong, hd, Bool.not_true, Bool.false_and, Bool.or_false,
    Bool.false_eq_true, if_false, if_true]

theorem doPlanDone_met (hspan : segsSpan (jobSegs s p) ≤ 60) (hd : decides s = true) {r : PlanResult} (hu : r ≠ .unverified)
    {h : Nat × Nat} (hhit : firstHit s (if r = .refused then near (regSet s) else regSet s) p.splice (spanMs (jobSegs s p))
      (fun x => segsAt true 0 (jobSegs s p) x) = some h) : (doPlanDone r s).pln = { s.pln with plan := none } := by
  have hempty : (regSet s).axes.isEmpty = false := List.isEmpty_eq_false_iff.mpr hax
  have hunv : (r == .unverified) = false := beq_eq_false_iff_ne.mpr hu
  simp only [doPlanDone, hp, hr, hempty, hok, hredo, Rat.not_lt.mpr hspan, hd, hunv, beq_iff_eq, hhit, Bool.not_true,
    Bool.false_and, Bool.or_false, Bool.false_eq_true, if_false]
  split
  · rfl
  · rw [finish_pln]
    rfl

theorem doPlanDone_clear (hspan : segsSpan (jobSegs s p) ≤ 60) (hlag : s.pln.lag = false)
    (hhit : firstHit s (regSet s) p.splice (spanMs (jobSegs s p)) (fun x => segsAt true 0 (jobSegs s p) x) = none) :
    doPlanDone .verified s = count 0x281 (s.onPln fun x =>
      { x with plan := some { p with ok := true, start := jobStart s (regSet s) p } }) := by
  have hempty : (regSet s).axes.isEmpty = false := List.isEmpty_eq_false_iff.mpr hax
  have href : (PlanResult.verified == .refused) = false := rfl
  have hunv : (PlanResult.verified == .unverified) = false := rfl
  simp only [doPlanDone, hp, hr, hempty, hok, hredo, Rat.not_lt.mpr hspan, href, hunv, hhit, Bool.not_true, Bool.false_and,
    Bool.or_false, Bool.false_eq_true, if_false, count_pln, State.onPln_pln, hlag]
end

/-! ## Splices (R319, R322) -/

theorem jobStart_reach {p : PlanJob} (h : p.redo = false) (d : Nat) (s : State) :
    jobStart (reach d s) (regSet (reach d s)) p = jobStart s (regSet s) p := by
  simp only [jobStart, h, plnAt, reach_pln, Bool.false_eq_true, if_false]

theorem armedNow_reach {s : State} {h : HoldPath} {d : Nat} (hh : s.pln.hold = some h) (hfrom : h.from_ ≤ s.now)
    (hto : s.now ≤ h.to_) (hd : d ≤ h.to_) : armedNow (reach d s) = true := by
  rw [armedNow, reach_pln, hh, reach_now]
  simp only [Option.any_some, Bool.and_eq_true, decide_eq_true_eq]
  exact ⟨hfrom.trans (Nat.le_max_left ..), max_le hto hd⟩

section
variable {s : State} {p : PlanJob} (hp : s.pln.plan = some p) (hr : running s = true) (hd : decides s = true)
  (hredo : p.redo = false)
include hp hr hd hredo

theorem doSpliceTime_spliced (hok : p.ok = true) (hstart : p.start = jobStart s (regSet s) p)
    (harm : armedNow (reach p.splice s) = true) :
    doSpliceTime s = tell (.splice true) (splice p (reach p.splice s)) := by
  simp only [doSpliceTime, hp, hr, hd, hredo, checkStale_armed harm, harm, hok, jobStart_reach hredo, Bool.not_true,
    Bool.false_and, Bool.or_false, Bool.false_eq_true, if_false, Bool.and_true, Bool.true_and, beq_iff_eq]
  rw [if_pos hstart]

theorem doSpliceTime_late (hok : p.ok = false) :
    doSpliceTime s = count 0x282 (endPlan 0x0D02 (tell (.splice false) (checkStale (reach p.splice s)))) := by
  simp only [doSpliceTime, hp, hr, hd, hredo, hok, Bool.not_true, Bool.false_and, Bool.or_false, Bool.false_eq_true, if_false]
end

/-! ## Passes (R321, R322) -/

/-- The state with its pass over. -/
def passOver (s : State) : State := s.onPln fun p => { p with pass := none }

theorem gridNs_passOver (s : State) (t : Nat) : gridNs (passView (passOver s)) t = gridNs (passView s) t := rfl

theorem pathMeets_passOver (s : State) (g : RegSet) (x y : List Rat) :
    pathMeets (passView (passOver s)) g x y = pathMeets (passView s) g x y := rfl

theorem pathState_passOver (s : State) (g : RegSet) (t : Nat) (f : Rat → List (Rat × Rat × Rat)) (k : Nat) :
    pathState (passView (passOver s)) g t f k = pathState (passView s) g t f k := by
  simp only [pathState, gridNs_passOver]

theorem firstHit_passOver (s : State) (g : RegSet) (t n : Nat) (f : Rat → List (Rat × Rat × Rat)) :
    firstHit (passView (passOver s)) g t n f = firstHit (passView s) g t n f := by
  simp only [firstHit, stepHit, pathState_passOver, pathMeets_passOver]

theorem remainderHit_passOver (s : State) (g : RegSet) :
    remainderHit (passView (passOver s)) g = remainderHit (passView s) g := by
  simp only [remainderHit, firstHit_passOver]
  rfl

theorem windowStates_passOver (s : State) (t : Nat) : windowStates (passOver s) t = windowStates s t := rfl

theorem harbourState_passOver (s : State) (g : RegSet) (m : Mem) (h : Nat) :
    harbourState (passView (passOver s)) g m h = harbourState (passView s) g m h := rfl

theorem holdFound_passOver (s : State) (g : RegSet) (t : Nat) (sts : List (Nat × List (Rat × Rat × Rat))) (h : Option Nat) :
    holdFound (passView (passOver s)) g t sts h = holdFound (passView s) g t sts h := by
  simp only [holdFound, holdVerifies, clearPath, firstHit_passOver, harbourState_passOver]
  rfl

theorem regSet_passOver (s : State) : regSet (passOver s) = regSet s := rfl

theorem passAdopt_idle {s : State} (h : s.pln.adopt = none) (t : Nat) (k : Option Nat) : passAdopt t k s = (none, s) := by
  rw [passAdopt, h]

/-- A pass that finds the remainder free and a hold path arms it. -/
theorem doVerifyPassDone_armed {s : State} {d : Nat} {r : PassResult} {h : HoldPath} (hp : s.pln.pass = some d)
    (hr : running s = true) (hd : s.now ≤ d + 20000) (ha : s.pln.adopt = none) (hk : s.kt.regions.isSome = true)
    (hst : s.pln.st ≠ .stale) (hc : r.collides = false) (hrem : remainderHit (passView s) (regSet s) = none)
    (hhold : holdFound (passView s) (regSet s) d (windowStates s d) r.hold = some h) :
    doVerifyPassDone r s = setHold (some h) (passOver s) := by
  have hkt : (passOver s).kt.regions.isNone = false := by
    rw [passOver, State.onPln_kt, ← Option.not_isSome, hk]
    rfl
  have hstale : ((passOver s).pln.st == .stale) = false := beq_eq_false_iff_ne.mpr hst
  have hadopt : passAdopt d r.adopts (passOver s) = (none, passOver s) :=
    passAdopt_idle (s := passOver s) ha ..
  simp only [doVerifyPassDone, hp, hr, Nat.not_lt.mpr hd, Bool.not_true, decide_false, Bool.or_false,
    Bool.false_eq_true, if_false]
  rw [show (s.onPln fun p => { p with pass := none }) = passOver s from rfl, hadopt]
  simp only [hkt, hstale, hc, Bool.false_eq_true, if_false, regSet_passOver, holdFound_passOver, windowStates_passOver, hhold,
    remainderHit_passOver, hrem, Option.isSome_none]

theorem setHold_some (h : HoldPath) (s : State) :
    (setHold (some h) s).pln = { s.pln with hold := some h, armed := true } := rfl

/-! ## The statement -/

/-- Settles O57: each row by what its operation leaves of the planner's part. -/
theorem plannerCommandsComplete : Obligations.PlannerCommandsComplete := by
  unfold Obligations.PlannerCommandsComplete
  refine ⟨?point, ?last, ?verified, ?collision, ?long, ?spliced, ?late, ?passed, ?deadline, ?harbours, ?leave⟩
  case point =>
    intro s r g h hr ha hg hs hmore
    refine .next (t := doTrajectoryPoint s) rfl ?_
    rw [doTrajectoryPoint_last h hr ha hg hs, if_neg (by simp [hmore]), pointOf_now, pointOf_pln]
    exact ⟨Nat.le_max_right .., rfl⟩
  case last =>
    intro s r g h hr ha hg hs hover hal hhold
    refine .next (t := doTrajectoryPoint s) rfl ?_
    rw [doTrajectoryPoint_last h hr ha hg hs, if_pos (by simp [hover, hal])]
    obtain ⟨hrun, hst, hnow⟩ := endRun_setpoint (r := r.stepped) hhold r.values (pointOf r s)
    rw [hnow, pointOf_now]
    exact ⟨Nat.le_max_right .., hrun, hst⟩
  case verified =>
    intro s p hp hr hax hok hredo hspan hhit hlag
    refine .next (t := doPlanDone .verified s) rfl ?_
    rw [doPlanDone_clear hp hr hax hok hredo hspan hlag hhit, count_pln, State.onPln_pln]
    exact ⟨rfl, rfl⟩
  case collision =>
    intro s p r h hp hr hax hok hredo hspan hd hu hhit
    refine .next (t := doPlanDone r s) rfl ?_
    rw [doPlanDone_met hp hr hax hok hredo hspan hd hu hhit]
    exact ⟨rfl, rfl⟩
  case long =>
    intro s p hp hr hax hok hredo hlong hd
    refine .next (t := doPlanDone .verified s) rfl ?_
    rw [doPlanDone_long hp hr hax hok hredo hlong hd, endPlan_pln]
    exact ⟨rfl, rfl⟩
  case spliced =>
    intro s p h hp hr hd hredo hok hstart hh hfrom hto hsp
    refine .next (t := doSpliceTime s) rfl ?_
    rw [doSpliceTime_spliced hp hr hd hredo hok hstart (armedNow_reach hh hfrom hto hsp), tell_pln,
      (tell_foot ..).same .now rfl, (splice_foot ..).same .now rfl, reach_now]
    exact ⟨Nat.le_max_right .., splice_pln ..⟩
  case late =>
    intro s p hp hr hd hredo hok
    refine .next (t := doSpliceTime s) rfl ?_
    obtain ⟨armed, harmed⟩ := checkStale_pln (reach p.splice s)
    rw [doSpliceTime_late hp hr hd hredo hok, count_now, count_pln, endPlan_pln, tell_pln, harmed, reach_pln,
      (endPlan_foot ..).same .now rfl, (tell_foot ..).same .now rfl, (checkStale_foot ..).same .now rfl, reach_now]
    exact ⟨Nat.le_max_right .., rfl, rfl⟩
  case passed =>
    intro s d r h hp hr hd ha hk hst hc hrem hhold
    refine .next (t := doVerifyPassDone r s) rfl ?_
    rw [doVerifyPassDone_armed hp hr hd ha hk hst hc hrem hhold, setHold_some]
    exact ⟨rfl, rfl, rfl, rfl⟩
  case deadline =>
    intro s d hp hr hd hst hrun hh
    refine .next (t := doVerifyPassDeadline s) rfl ?_
    have heq : doVerifyPassDeadline s = trigger (count 0x284 (passOver (reach (d + 20000) s))) := by
      simp only [doVerifyPassDeadline, hp, hr, Bool.not_true, Bool.false_eq_true, if_false]
      rfl
    generalize hu : count 0x284 (passOver (reach (d + 20000) s)) = u at heq
    have hpln : u.pln = { s.pln with pass := none } := by rw [← hu, count_pln, passOver, State.onPln_pln, reach_pln]
    have hru : running u = true := by
      rw [← hu, ← hr]
      exact running_congr (by rw [count_pwr, passOver, State.onPln_pwr, reach_pwr])
        (by rw [count_boot, passOver, State.onPln_boot, reach_boot])
    have hdu : decides u = true := by
      rw [← hu, ← hd]
      exact decides_congr (by rw [count_pair, passOver, State.onPln_pair, reach_pair])
    obtain ⟨hstale, hpass⟩ := trigger_unheld hru hdu (by rw [hpln, hst]) (by rw [hpln, hrun]) (by rw [hpln, hh])
    refine ⟨?_, by rw [heq, hpass, hpln], by rw [heq, hstale]⟩
    rw [heq, trigger_now, ← hu, count_now, passOver, State.onPln_now, reach_now]
    exact Nat.le_max_right ..
  case harbours =>
    intro s hr hset hrep
    refine .next (t := doHarbourSetStale s) rfl ?_
    have heq : doHarbourSetStale s = trigger (event 0x0D03 2 [] 0 0
        ((reach (s.pln.setAt + 100000) s).onPln fun p => { p with setRep := true })) := by
      rw [doHarbourSetStale, if_neg (by simp [hr, hrep, Option.isSome_iff_ne_none.mp hset])]
    rw [heq, trigger_now, trigger_setRep, event_now, event_pln, State.onPln_now, State.onPln_pln, reach_now]
    exact ⟨Nat.le_max_right .., rfl⟩
  case leave =>
    intro s r d h hu hd
    refine .next (t := doLeaveSegmentTimeout s) rfl ?_
    have heq : doLeaveSegmentTimeout s = tell (.leave false) (endWaiting 0x0D06 (reach d s)) := by
      simp only [doLeaveSegmentTimeout, h, hu, hd, if_true]
    rw [heq, tell_pln, (tell_foot ..).same .now rfl, (endWaiting_foot ..).same .now rfl, reach_now]
    exact ⟨Nat.le_max_right .., endWaiting_pln (by rw [reach_pln, h]) ..⟩

end Sys2Proof.Machine
end
